-- ==== Sys2Proof/Word.lean ====
section
/-! DEFINITION. The word types of the HD9624 (R4, R8): bytes, the 32-bit registers of the window, 16-bit Vat words. -/

namespace Sys2Proof

/-- One byte. -/
abbrev Byte := BitVec 8
/-- One register of the window (R478). -/
abbrev Word := BitVec 32
/-- One Vat data word (R322). -/
abbrev Word16 := BitVec 16
/-- Command status (R10): class in the high byte, detail in the low byte. -/
abbrev Status := BitVec 16
/-- Time, as a count of 2^-16 ns (R6): seconds × 10^9 × 2^16 + nanoseconds × 2^16 + fraction. -/
abbrev Time := Nat

/-- Port P0 to P23. -/
abbrev PortIx := Fin 24
/-- Receive lane L0 to L95. -/
abbrev LaneIx := Fin 96
/-- Port pipeline PP0 to PP25. -/
abbrev PipeIx := Fin 26
/-- Vat engine VE0 to VE31. -/
abbrev EngIx := Fin 32
/-- Press lane PL0 to PL25. -/
abbrev PressIx := Fin 26
/-- Session 0 to 3 (R448). -/
abbrev SessIx := Fin 4
/-- Thermal channel 0 to 3 (R166). -/
abbrev ThermIx := Fin 4
/-- Zone Z0 to Z4095. -/
abbrev ZoneIx := Fin 4096
/-- Event EV000 to EV255 (R492). -/
abbrev EvIx := Fin 256

end Sys2Proof
end

