-- ==== Sys2Proof/Config.lean ====
section
/-! DEFINITION. Values the spec leaves open: free values and real-valued functions whose rounding it does not state.
Each is a constant with no body (log entries 4 and 5, DESIGN CHOICE), so no proof can see its value. -/

namespace Sys2Proof.Config

/-- A free value, applied to the model's counter (log entry 4, DESIGN CHOICE). -/
opaque freeValue : Nat → BitVec 64

/-- Whether the quotient of two integers that is not whole is taken upwards, where the spec states no rounding (log entry 5, DESIGN CHOICE). -/
opaque roundUp : Int → Nat → Bool

/-- TEMP of R180 for a temperature above 1,023.98 K, which its 16 bits do not hold: not stated. -/
opaque tempAbove : Int → BitVec 16

/-- How far TEMP of a reading lies from the solution of the relations of R303, which is iterated until stable to 0.1 mK, about 7 units of
2^-16 K: 0 to 14, 7 where it does not differ. From R_RTD in 2^-78 Ω and R_NOM in 2^-16 Ω. -/
opaque rtdSlack : Int → Nat → Nat

/-- The chirp's taper (R34, R111) at sample num / den of T_DUR, in units of 2^-16, for N_BIN: not stated beyond its spectrum. -/
opaque chirpTaper : Nat → Nat → Int → Nat → Nat
/-- The scale of the chirp replica of R111 in units of 2^-32, for T_DUR and N_BIN: not stated. -/
opaque chirpScale : Nat → Nat → Int
/-- The phase of a tone at its first probe sample, in units of 2^-32 turn: port and tone. -/
opaque tonePhase : Nat → Nat → Nat
/-- Which of the N_BIN outputs of a bin the bin cut of R112 takes: not stated. -/
opaque binCut : Nat → Nat

/-- Raw lane history (R428) of a sample instant that no frame of the port covered: port, capture, sample index. -/
opaque rawHistory : Nat → Nat → Nat → BitVec 48

/-- Fraction bits of the coefficients of a filter of R150 (0 half-band, 1 trim, 2 resampler), which gives their 18 bits and not their scale. -/
opaque tapShift : Nat → Nat

/-- Fraction bits of the 24-bit coefficients of a band filter (R158), and of its samples: not stated. -/
opaque bandShift : Nat
opaque bandFrac : Nat
/-- Fraction bits of the 48-bit accumulators of R151, for a product: not stated. -/
opaque accFrac : Nat → Nat

/-- The hash of three bytes by which the Press finds matches (R390): not stated. -/
opaque hash3 : Nat → Nat
/-- Code lengths of a dynamic block's codes for their symbol counts, up to a limit (R391): neither the construction nor its ties are stated. -/
opaque codeLengths : List Nat → Nat → List Nat
/-- The run-length symbols of a dynamic block's code lengths, with their extra bits (RFC 1951, 3.2.7): which runs are used is not stated. -/
opaque runSyms : List Nat → List (Nat × Nat)

/-- Rows that the coder has taken in when byte `k` of its stream falls due (R400): Press parameters, input, k. How far the coder runs
ahead of its output is not stated. -/
opaque coderRows : List Nat → List Byte → Nat → Nat
/-- Bytes of the stream that are filled once the coder has taken in `r` rows (R400, R403). -/
opaque coderBytes : List Nat → List Byte → Nat → Nat

/-- base of R365 for a site, with 64 fraction bits: recorded at production test. -/
opaque paceBase : Nat → Nat
/-- vbase of R365 for a site, in µV, and tbase, in m°C: recorded at production test. -/
opaque paceAt : Nat → Int × Int
/-- kv and kt of R365 for a type of site (0 pipeline, 1 engine, 2 Press lane, 3 any other), per µV and per m°C, with 128 fraction bits: not stated. -/
opaque paceK : Nat → Int × Int
/-- VDD_FAB in µV and the junction temperature in m°C out of the results of AXC1 (R365): which inputs carry them, at what scale, is not stated. -/
opaque vddFab : List (BitVec 32) → Int
opaque junction : List (BitVec 32) → Int

/-- SCALE of strain, strain-rate and band features (R417) at a port without a PROBE emitter, whose λ_t R127 needs: not stated. -/
opaque noScale : List Nat → BitVec 64

/-- Whether a standard deviation (R234, R306) divides by one less than the number of values: not stated. -/
opaque sampleDev : Bool
/-- A statistic of R234 that too few results leave undefined: MEAN, RMS, MIN, MAX or FREQ, 0 to 4, of the results. -/
opaque noStat : Nat → List (Nat × Int) → Int

/-- The Rind's ECDSA P-256 signature over a digest (R274); the nonce of a signature is not stated. -/
opaque ecdsaSign : Nat → List Byte → List Byte
/-- Renilaust's endorsement and the public key of R274. -/
opaque publicKey : List Byte
/-- The endorsement of R274. -/
opaque endorsement : List Byte
/-- Whether a firmware image carries a valid Renilaust signature (R265, R272). -/
opaque signatureOk : List Byte → Bool

end Sys2Proof.Config
end

