-- ==== Sys2Proof/Syntax.lean ====
section
/-! DEFINITION. The commands and events of the HD9624: one constructor of `Instr` per row of spec/opcode_table.json, with the
values that reach the block from outside (a packet, a written word, a measured quantity). -/

namespace Sys2Proof

/-- Where a command arrives and its reply goes (R440, R448). -/
inductive Transport where
  | ring (n : Fin 4)                              -- command ring pair CRn
  | udp (eth : Fin 2) (addr : BitVec 128) (port : BitVec 16)
  | spi
deriving DecidableEq, Repr

/-- A command packet (R441), its OPCODE being the row; `body` holds the bytes after the 16-byte header. -/
structure Packet where
  transport : Transport
  flags : BitVec 8
  session : BitVec 8
  txn : BitVec 16
  status : BitVec 16
  seq : BitVec 32
  length : BitVec 32
  body : List Byte
deriving DecidableEq, Repr

/-- The agent of a register access (R482). -/
inductive Agent where
  | pcie
  | spi
deriving DecidableEq, Repr

/-- The output codes of a port's four lanes (R73) from sample 0 of a ping on (R107), lane 4p first; a sample not listed has code 0. -/
structure PingData where
  lanes : List (List Int)
deriving DecidableEq, Repr

/-- What makes a slice failing (R84). -/
inductive SliceCause where
  | range          -- its correction would leave its range
  | power          -- its power or its codes over one frame: a hard failure
  | bitWeight      -- it failed a bit-weight test
deriving DecidableEq, Repr

/-- What a vernier cell returns for an edge (R218, R226): the coarse count of CK_PRB at the edge that starts its fast oscillator, its code, and whether it
did not finish within 80 ns. -/
structure CellRead where
  coarse : Nat
  code : Nat
  late : Bool
deriving DecidableEq, Repr

/-- The 64 REF10 edges nearest to a stamped edge, as channel B of the LAUNCH converter read them, and the number of the first (R222). -/
structure RefEdges where
  first : Nat
  reads : List CellRead
deriving DecidableEq, Repr

/-- A launch tap at channel A of the LAUNCH converter, with the REF10 edges about it (R218, R222, R236). -/
structure TapStamp where
  read : CellRead
  ref : RefEdges
deriving DecidableEq, Repr

/-- What a calibration finds of a channel (R224): how many of 2^20 edges gave each code, and how the cells read the common calibration edge at each pad:
TI0 to TI7, TG0, TG1, PPS_IN, REF10, then the taps of PG0 to PG23. -/
structure ChanCal where
  hits : List Nat
  pads : List CellRead
deriving DecidableEq, Repr

/-- A calibration of a converter: its channels A and B, and the instant of the common edge in units of 2^-16 ns of the coarse count (R224). -/
structure VernierCal where
  a : ChanCal
  b : ChanCal
  common : Time
deriving DecidableEq, Repr

/-- An edge that the spare and a role's converter both stamp (R225): its pad, whether it comes on channel B, and what the two cells read. -/
structure ShadowEdge where
  pad : Nat
  chB : Bool
  spare : CellRead
  role : CellRead
deriving DecidableEq, Repr

/-- What REF10 shows against CK_REF (R221): its frequency in Hz over each of some consecutive 1 ms windows, or no edge for a time. -/
inductive RefObs where
  | windows (hz : List Nat)
  | silence (len : Time)
deriving DecidableEq, Repr

/-- Sums over samples: how many, their sum and the sum of their squares, and the least and greatest of them (R83, R84). -/
structure SampleSums where
  n : Nat
  sum : Int
  sq : Nat
  lo : Int
  hi : Int
deriving DecidableEq, Repr

/-- Reference sources of CK_REF (R189). -/
inductive RefSrc where
  | internal
  | recovered
  | refin
deriving DecidableEq, Repr

/-- The loops of R201. -/
inductive Loop where
  | memory
  | ethernet
  | auxiliary
deriving DecidableEq, Repr

/-- Event routing registers (R493). -/
inductive EvReg where
  | en (k : Fin 8)
  | cfg (n : EvIx)
deriving DecidableEq, Repr

/-- Clock-gating registers (R209, R210). -/
inductive CkgReg where
  | en0
  | en1
deriving DecidableEq, Repr

/-- Polarisation pair of a port (R90). -/
inductive Pair where
  | x
  | y
deriving DecidableEq, Repr

/-- A descriptor of a stream ring that the host hands over (R504). -/
structure SrDesc where
  addr : BitVec 64
  len : BitVec 32
  own : Bool
deriving DecidableEq, Repr

/-- Units named by RETIRE, SELF_TEST, UNIT_LOST (R445 UNIT, R371). -/
inductive UnitName where
  | pipeline (n : PipeIx)
  | engine (n : EngIx)
  | press (n : PressIx)
  | lane (n : LaneIx)
  | vernier (n : Fin 3)
deriving DecidableEq, Repr

/-- State of the PCIe link (R502): width in lanes and rate in units of 0.5 GT/s; 0 lanes when down. -/
structure PcieLink where
  width : Nat
  rate : Nat
deriving DecidableEq, Repr

/-- What happened to a boot step's own action (R530), as found on the board: reason code (0 = it passed) and detail. -/
structure StepResult where
  reason : Nat
  detail : Nat
  timedOut : Bool
  alternative : Bool       -- whether the step's alternative passes
deriving DecidableEq, Repr

/-- What B07 measures of a lane (R82): the corrections (offset, gain, timing) that it sets for slices 0 to 8 and for the spare in each of the eight
positions, the slices that fail the bit-weight test, P_DARK in units of 2^-8 LSB², and the skew trim that aligns the lane with its port. -/
structure LaneCal where
  slices : List (Int × Int × Int)
  spareAt : List (Int × Int × Int)
  bad : List (Fin 9)
  pDark : Nat
  skew : Int
deriving DecidableEq, Repr

/-- An image slot of the boot flash (R534, R535): its bytes from the 256-byte header on, whether the key that KEY_IDX names has its digest fused and its
revocation fuse intact, and whether SIGNATURE verifies with that key (R536). -/
structure FlashSlot where
  bytes : List Byte
  keyIntact : Bool
  signed : Bool
deriving DecidableEq, Repr

/-- A record of the main non-volatile region that B03 loads (R530). -/
inductive NvRecord where
  | settings
  | binning (emitter : Nat)
  | network
  | training
  | retired
  | image (id : Nat)
deriving DecidableEq, Repr

/-- What a start finds: the results of B00 to B15, the units failing self-test, firmware facts, and calibration results. -/
structure BootEnv where
  steps : List StepResult
  badPipes : List Nat
  badEngines : List Nat
  badPress : List Nat
  verniers : List VernierCal   -- what B12 finds of each converter
  stacksUp : Nat               -- memory stacks that trained, 1 or 2
  lanes : List LaneCal         -- what B07 measures of each lane
  slots : List FlashSlot       -- slots A and B of the boot flash
  sources : List RefSrc        -- references of CK_REF that have qualified by B06
  pcie : PcieLink              -- the PCIe link as trained at B05
  ethUp : List Bool
  tportUp : Bool
  noLock : List Nat            -- loops that do not lock at B06, by their CLK_STAT bit, 5 to 9
  discovery : List (BitVec 64) -- blocks received by the discovery of B11
  lost : List NvRecord         -- records of which the backup copy fails its CRC too (B03)
  repaired : Bool              -- a spare row or channel was brought into service by B04's training
  nvBad : Bool                 -- whether writes of the main non-volatile region fail
deriving DecidableEq, Repr

/-- Why the main partition is warm-reset (R525). -/
inductive WarmCause where
  | pin
  | ctl
  | watchdog
  | bootTimeout
deriving DecidableEq, Repr

/-- Islands the Supervisor resets on their own (R525). -/
inductive Island where
  | eth (n : Fin 2)
  | timing
  | memory
deriving DecidableEq, Repr

/-- One edge of an input of R229: the input, whether it is a falling edge, what cells of channels A and B of the USER converter read of it, and the
REF10 edges about it (R218, R222, R228). -/
structure EdgeIn where
  src : Nat
  falling : Bool
  a : CellRead
  b : CellRead
  ref : RefEdges
deriving DecidableEq, Repr

/-- Codes of one shot on the eight thermal lanes: per lane, samples −256 to TRACE_LEN − 1 (R170). -/
structure ShotData where
  lanes : List (List Nat)
deriving DecidableEq, Repr

/-- What an AXC0 conversion meets, voltages in nV: V_S over the averaging window and V_REF (R282); of a sine conversion the in-phase sums a1, a2, a3 and
the quadrature sums of the RTD windows (R286); of each lead step its voltage or in-phase sum (R281); whether the reference settled within REF_TO; and of each
excitation source's test at the start of the pass whether it was in compliance, and its current in millionths of the programmed one (R287). -/
structure Axc0Conv where
  vs : Int
  vref : Int
  inPhase : Int × Int × Int
  quadrature : Int × Int
  leads : List Int
  refSettled : Bool
  sources : List (Bool × Nat)
deriving DecidableEq, Repr

/-- What an AXC1 entry meets: V of each of its conversions and V_REF, in nV (R307), and whether the reference settled. -/
structure Axc1Conv where
  vs : List Int
  vref : Nat
  refSettled : Bool
deriving DecidableEq, Repr

/-- A message on the results path as the main side receives it: its RP_SEQ and whether its CRC is right (R250, R252). -/
structure RpArrival where
  seq : BitVec 32
  crcOk : Bool
deriving DecidableEq, Repr

/-- Latched tamper inputs of the always-on island (R270). -/
inductive TamperPin where
  | tamp0
  | tamp1
  | sealBrk
deriving DecidableEq, Repr

/-- Ethernet neighbour messages (R508). -/
inductive NeighbourMsg where
  | request (target sender : BitVec 128) (mac : BitVec 48)
  | reply (sender : BitVec 128) (mac : BitVec 48)
deriving DecidableEq, Repr

/-- What an announce message of IEEE 1588-2019 says of its sender's clock, for the best timeTransmitter clock algorithm (R513). -/
structure Announce where
  sender : BitVec 64           -- clock identity of the sender
  priority1 : BitVec 8
  clockClass : BitVec 8
  accuracy : BitVec 8
  variance : BitVec 16
  priority2 : BitVec 8
  grandmaster : BitVec 64
  steps : BitVec 16            -- stepsRemoved
deriving DecidableEq, Repr

/-- A PTP message of a domain: an announce message, or a completed exchange of the delay request-response mechanism, with its four instants in units of
2^-16 ns, corrections included: t1 and t4 of the transmitter, t2 and t3 stamped here (R513, R514). -/
inductive PtpMsg where
  | announce (domain : Nat) (a : Announce)
  | exchange (domain : Nat) (sender : BitVec 64) (t1 t2 t3 t4 : Int)
deriving DecidableEq, Repr

/-- An SPI frame by its command byte (R517). -/
inductive SpiFrame where
  | read (addr : BitVec 24) (words : Nat)
  | write (addr : BitVec 24) (words : List Word)
  | packet (bytes : List Byte)
  | malformed
deriving DecidableEq, Repr

/-- An I²C transaction: address, bytes written, bytes read back, and whether an acknowledgement was missing or the clock
was held longer than 25 ms (R518). -/
structure I2cXfer where
  addr : BitVec 7
  wr : List Byte
  rd : List Byte
  failed : Bool
deriving DecidableEq, Repr

/-- Boundary-scan instructions (R520, R248). -/
inductive JtagInstr where
  | bypass
  | sample
  | extest (pins : BitVec 64)
  | clamp (pins : BitVec 64)
  | highz
  | idcode
deriving DecidableEq, Repr

/-- How a host job stops (R399 to R405): coded bytes its output held, rows taken in. -/
inductive JobStop where
  | natural            -- the coder ran: DONE, OUT_FULL or NOSHRINK follows from the stream
  | cancelled (rows : Nat)
deriving DecidableEq, Repr

/-- Uncorrectable error in a region of the Cave (R521, R371): the region kind and its owner. -/
inductive CaveRegion where
  | staging (z : ZoneIx)
  | vatWindow (n : EngIx)
  | pressWindow (n : PressIx)
  | rawHistory (p : PortIx)
  | curdHistory (z : ZoneIx)
  | hostArea
  | free
deriving DecidableEq, Repr

/-- The commands: one constructor per row of the table, in the table's order. -/
inductive Instr where
  -- Birligrim commands (R462 to R474)
  | sessionOpen (k : Packet) | sessionClose (k : Packet) | sessionPing (k : Packet) | eventSubscribe (k : Packet)
  | identify (k : Packet) | unknownOpcode (op : BitVec 16) (k : Packet)
  | txnBegin (k : Packet) | txnCommit (k : Packet) | txnRollback (k : Packet) | txnQuery (k : Packet)
  | planSet (k : Packet) | modeSet (k : Packet) | portSafety (k : Packet) | delaySet (k : Packet)
  | emitterSet (k : Packet) | emitterDelete (k : Packet) | rearm (k : Packet) | endRebase (k : Packet)
  | portQuery (k : Packet) | emitterQuery (k : Packet)
  | zoneSet (k : Packet) | zoneDelete (k : Packet) | pinSet (k : Packet) | placeQuery (k : Packet)
  | rebalance (k : Packet) | capacity (k : Packet) | retire (k : Packet) | ladleSet (k : Packet)
  | syncReset (k : Packet) | streamRoute (k : Packet) | configSave (k : Packet)
  | rxcalSet (k : Packet) | darkFloor (k : Packet) | rxcalQuery (k : Packet)
  | clockSet (k : Packet) | tiuSet (k : Packet) | timeQuery (k : Packet) | measStart (k : Packet)
  | measCancel (k : Packet) | anchor (k : Packet) | servoSet (k : Packet)
  | thermalSet (k : Packet) | scheduleSet (k : Packet) | frontEndSet (k : Packet) | rindIdentify (k : Packet)
  | rindQuery (k : Packet) | sealSet (k : Packet) | sealBreak (k : Packet) | auditRead (k : Packet)
  | auditAck (k : Packet) | rindFwLoad (k : Packet) | calBegin (k : Packet) | calZero (k : Packet)
  | calFull (k : Packet) | calApply (k : Packet) | calCancel (k : Packet) | axc0Urgent (k : Packet)
  | imageLoad (k : Packet) | imageDelete (k : Packet) | imageQuery (k : Packet)
  | jobSubmit (k : Packet) | jobCancel (k : Packet) | pressQuery (k : Packet)
  | triggerSet (k : Packet) | triggerDelete (k : Packet) | triggerFire (k : Packet) | captureRelease (k : Packet)
  | dump (k : Packet) | reanalyse (k : Packet) | captureQuery (k : Packet)
  | sliceTest (k : Packet) | selfTest (k : Packet) | faultLog (k : Packet) | journalRead (k : Packet)
  | journalClear (k : Packet) | powerSet (k : Packet) | powerQuery (k : Packet)
  | commitBoundary (p : Option PortIx) | txnTimeout (n : SessIx) | sessionTimeout (n : SessIx)
  -- Vat engines (R316 to R353): the instruction at the engine's PC
  | nop (e : EngIx) | halt (e : EngIx) | evt (e : EngIx) | clra (e : EngIx) | mac (e : EngIx) | msu (e : EngIx)
  | mul (e : EngIx) | adda (e : EngIx) | sha (e : EngIx) | sta (e : EngIx) | stau (e : EngIx) | stal (e : EngIx)
  | ld (e : EngIx) | ld2 (e : EngIx) | st (e : EngIx) | st2 (e : EngIx) | ldi (e : EngIx) | mov (e : EngIx)
  | alu (e : EngIx) | alui (e : EngIx) | mmx (e : EngIx) | mmclr (e : EngIx) | br (e : EngIx) | call (e : EngIx)
  | ret (e : EngIx) | loop (e : EngIx) | cave (e : EngIx) | cwait (e : EngIx)
  | caveTransferComplete (e : EngIx) (k : Fin 4) | waitlim (e : EngIx) | invocationStart (e : EngIx)
  | vatAbort (e : EngIx) (v : Word)
  -- register window (R478 to R498)
  | pressAbort (n : PressIx) (v : Word) | pressDisable (n : PressIx) (v : Word) | pressDrainComplete (n : PressIx)
  | sdcEnable (v : Word) | sdcDisable (v : Word) | ckgEnClear (r : CkgReg) (v : Word) | ckgEnSet (r : CkgReg) (v : Word)
  | rstCtlWarm | timeCapture | fcntStart (v : Word) | fcntDone (measCnt refCnt : Nat) | fcntNoclk
  | axc1Enable (v : Word) | axc1Disable (v : Word) | axc1Start (v : Word) | axc1UrgentRequest (v : Word)
  | axc1EntryComplete (m : Axc1Conv)
  | trimWrite (n : LaneIx) (qsk : Bool) (v : Word) | calModeWrite (p : PortIx) (v : Word)
  | evPendClear (k : Fin 8) (v : Word) (occ : Word) | evRouteWrite (r : EvReg) (v : Word)
  | crDoorbell (n : Fin 4) (v : Word) (bytes : List Byte) | crRtailWrite (n : Fin 4) (v : Word)
  | srTailWrite (n : Fin 64) (v : Word) (descs : List SrDesc)
  | registerWrite (ag : Agent) (off : BitVec 24) (enables : BitVec 8) (data : BitVec 64)
  | msixEnable | pendingSelfClear (e : EvIx) (occ : Bool)
  -- ports, lanes, pipelines
  | groupLaunch (p : PortIx) (g : Fin 16) (tap : TapStamp) | frameBoundary (p : PortIx) | laneStartupEnd (p : PortIx)
  | laneOverrange (n : LaneIx) (deep : Bool) (after len : Nat) | recoveryCountEnd (n : LaneIx)
  | sliceFailureDetected (n : LaneIx) (slice : Fin 9) (why : SliceCause) | sliceSwap (n : LaneIx) (spare : SampleSums)
  | calibrationEstimate (p : PortIx) (w : Pair) | trimWalkStep (p : PortIx)
  | calibrationHoldEnd (p : PortIx) (w : Pair) | darkFrameEnd (p : PortIx) (powers : List Nat) (floor : List Nat)
  | inputBufferFull (n : PipeIx) | inputResume (n : PipeIx) (dropped : Nat)
  | paceWindowEnd (n : Fin 96) (count margin : Nat)
  | pingProcessed (p : PortIx) (g : Fin 16) (d : PingData) | endDetermination (p : PortIx)
  | exactOutput (z : ZoneIx) (t : Time) | featureIntervalEnd (z : ZoneIx) | delayRecordIntervalEnd (p : PortIx)
  -- Source Drive Chain and safety (blocks as received: driver N − 1 first, the marker last)
  | sdcFrameEnd (rx : List (BitVec 64)) | sdcDiscoveryStart | sdcDiscoveryEnd (blocks : List (BitVec 64))
  | sdcDiscoveryRetry | interlockOpen | interlockClosed
  -- clocks
  | ckRefSourceLost (r : RefSrc) | ckRefSourceQualified (r : RefSrc) | ckRefSwitch | ckRefRampComplete
  | fsRetuneTimeout | samplingLockLost | samplingLockRegained | probeLockLost | probeLockRegained
  | otherLoopLockLost (l : Loop) | otherLoopLockRegained (l : Loop) | memoryLockTimeout
  -- time-interval unit
  | ref10StateChange (o : RefObs) | ppsStateChange | timescaleChange
  | converterRotation (cal : VernierCal) (shadow : List ShadowEdge) (again : VernierCal) | measArmEdge (t : Time) | measWindowOpen | armTimeout
  | measEdge (d : EdgeIn) | measGateClose | anchorPeriodExpiry (p : PortIx)
  -- the Rind
  | stepEnd | switchStrobes | averageStart | shot (d : ShotData) | averageEnd | profileIssue (c : ThermIx)
  | ramanInhibitAssert | ramanInhibitRelease
  | profile (m : RpArrival) | announce (m : RpArrival) | switched (m : RpArrival) | eventMessage (m : RpArrival)
  | audit (m : RpArrival) | reading (m : RpArrival) | rpRetransmit | ackAfterSilence
  | mailboxRequest | mailboxTimeout | timeWord | writeRefusedWindowEnd (param : BitVec 16)
  | tamperActivation (w : TamperPin) | rindWatchdog | rindPowerOn (imageOk : Bool) | rindFwLoadComplete
  | axc0EntryComplete (m : Axc0Conv) | wireBreak | openProbe (broken : Bool) | referenceOutOfWindow | referenceSettled
  | calibrationIdleTimeout | mirrorRefresh (snapshot : Bool) | substituteRefresh | slowFail | slowFailClear
  | rindSnapshotLoss
  -- the Ladle, the Press, lookback
  | dailyDrift | dailySpareSelfTest | unitLost (u : UnitName) (readable : Bool) | shedReplacement
  | migrationComplete (u : UnitName) (comparisonOk : Bool) | workItemAged | overflowBlockTimeout (z : ZoneIx)
  | discardRunRecord (z : ZoneIx) | pressBlockCoded (n : PressIx) | hostJobStart (n : PressIx)
  | hostJobStop (n : PressIx) (input : List Byte) (how : JobStop) | pressLaneLost (n : PressIx)
  | triggerFiring | capturePinning (c : Nat) | capHoldExpiry (c : Nat) | reanalysisEnd (preempted : Bool)
  -- links
  | pcieLinkChange (l : PcieLink) | streamBufferDone (n : Fin 64) | ethPortUpChange (n : Fin 2) (up : Bool)
  | ethPortFailed (n : Fin 2) | ethPortReturn (n : Fin 2) | pauseReceived (n : Fin 2) (quanta : BitVec 16)
  | pauseLimExceeded (n : Fin 2) | neighbourResolution (n : Fin 2) (m : NeighbourMsg)
  | icmpEcho (n : Fin 2) (v6 : Bool) (src : BitVec 128) (payload : List Byte)
  | udpDatagramDiscard (n : Fin 2) | ptpMessage (m : PtpMsg) | timingPortLinkChange (up : Bool) | announceSyncTimeout
  | spiFrame (f : SpiFrame) | spiReplyFetch | i2cTransaction (x : I2cXfer) | caveError (r : CaveRegion)
  | dieTemperatureSample (sensors : List Int)   -- each sensor in units of 2^-8 °C
  -- start-up, resets, power
  | vbatPowerOn | mainPowerOnReset (b : BootEnv) | warmReset (w : WarmCause) (b : BootEnv) | supervisorWatchdog
  | pcieFundamentalReset | islandReset (i : Island) | bootStepTimeout | wake (byAlarm : Bool)
  | samplingLoopRetuneLock | ppsPulse (t : Time) (edge : Nat) (off : Int) | boundaryScanInstruction (j : JtagInstr)
  | mainSupplyLoss | rindSupplyLoss | vbatLoss
  | selfTestComplete (u : UnitName) (pass : Bool) (cal : Option VernierCal) | drainHostTimeout (z : ZoneIx) | pauseQuantaExpiry (n : Fin 2)
  | streamRingModerationExpiry (n : Fin 64) | aerErrorLogged | caveCorrectedError (spareUsed : Bool)
deriving DecidableEq, Repr

end Sys2Proof
end

