-- ==== Sys2Proof/Machine/State.lean ====
section
/-! DEFINITION. The state of the HD9624: every register, queue, buffer, counter, mode and pin the spec names, by chapter, and the
queue of waiting commands; the faults and refusals; the state after reset. -/

namespace Sys2Proof.Machine

/-- Why the block stops with a fault: it never does. Every fault the spec describes is a state or a reply of the block,
so this type has no constructor (safe: nothing is hidden behind a fault). -/
inductive Fault where
deriving DecidableEq, Repr

/-- Why the model gives no meaning to a command. -/
inductive Refusal where
  /-- Raised by an arm of `exec` whose command has no meaning in the model yet (safe: nothing is claimed of it). -/
  | notModelled (mnemonic : String)
deriving DecidableEq, Repr

/-- A byte memory: addresses strictly rising, no entry equal to 0, which is what an unlisted address reads as. -/
abbrev Mem := List Host.Cell

/-! ### Settings (R447, R457) -/

/-- What kind of instance a setting belongs to (selectors of R445). -/
inductive Kind where
  | device | port | zone | emitter | thermal | thermalPort | rtd | entry | trigger | stream | pin
deriving DecidableEq, Repr

/-- A setting's name: kind and number of its instance, a sub-index (band, tone plan table or pin kind), and the parameter code of
R444 or R445. -/
structure SetKey where
  kind : Kind
  inst : Nat
  sub : Nat
  code : Nat
deriving DecidableEq, Repr

/-- A setting in force: its members as integers, and its generation (R457). -/
structure Setting where
  key : SetKey
  val : List Int
  gen : Nat
deriving DecidableEq, Repr

/-- The settings in force; a key not listed has its default, or none (R447). -/
abbrev Settings := List Setting

/-! ### Records and what leaves the block -/

/-- The links a unit travels on (R499). -/
inductive Link where
  | pcie
  | eth (n : Fin 2)
deriving DecidableEq, Repr

/-- A run of the run list of R419. -/
structure FlagRun where
  row : Nat
  col : Nat
  count : Nat
  flags : BitVec 10
deriving DecidableEq, Repr

/-- One row of a curd frame: stamp, values and flags of each column (R416 to R419). -/
structure Row where
  t : Time
  vals : List Int
  flags : List (BitVec 10)
deriving DecidableEq, Repr

/-- The header values every row of a frame shares (R416, R417). -/
structure FrameHead where
  gauge : Nat
  epoch : BitVec 16
  scale : BitVec 64
  outGain : Nat
  rate : BitVec 64
  pointStep : Nat
deriving DecidableEq, Repr

/-- A curd frame (R417). -/
structure CurdFrame where
  product : Nat
  zone : Nat
  port : Nat
  band : Nat
  native : Bool
  earlyClose : Bool
  reanalysis : Bool
  width : Nat
  head : FrameHead
  firstPoint : Nat
  nCols : Nat
  frameSeq : BitVec 32
  capture : Nat
  rows : List Row
  press : Option (List Byte)       -- the Press block, when COMPRESSED (R418)
deriving DecidableEq, Repr

/-- A whey record (R423). -/
structure Whey where
  cause : Nat
  zone : Nat
  port : Nat
  products : Byte
  tFirst : Time
  tLast : Time
  firstPoint : Nat
  nPoints : Nat
  count : Nat
  lostBytes : Nat
  seqFirst : BitVec 32
  seqLast : BitVec 32
  wheySeq : BitVec 32
deriving DecidableEq, Repr

/-- An event record (R425). -/
structure EventRec where
  event : Nat
  tEvent : Time
  detail : Word
  seq : BitVec 32
deriving DecidableEq, Repr

/-- A delay record (R241). -/
structure DelayRec where
  port : Nat
  flags : BitVec 16
  nValid : Nat
  tRec : Time
  theta : Int
  dRel : Int
  dAbs : Int
  scale : Nat
  kPg : Nat
  anchorSeq : BitVec 32
  anchorRes : Int
  slipCnt : Nat
  epoch : BitVec 16
deriving DecidableEq, Repr

/-- A measurement summary (R234). -/
structure MeasSummary where
  mode : Nat
  measId : BitVec 16
  flags : BitVec 16
  count : Nat
  dead : Nat
  orphan : Nat
  unmatched : Nat
  tOpen : Time
  tClose : Time
  mean : Int
  rms : Nat
  min : Int
  max : Int
  freq : Nat
deriving DecidableEq, Repr

/-- Sections of a dump (R436). -/
inductive Section where
  | launch | raw | curd
deriving DecidableEq, Repr

/-- Records of R411. -/
inductive Rec where
  | profile (bytes : List Byte)
  | delay (r : DelayRec)
  | summary (r : MeasSummary)
  | stamps (measId : BitVec 16) (mode first : Nat) (entries : List (Nat × Int))
  | curd (r : CurdFrame)
  | whey (r : Whey)
  | event (r : EventRec)
  | lookHead (bytes : List Byte)
  | lookData (capture : Nat) (sec : Section) (offset : Nat) (bytes : List Byte)
deriving DecidableEq, Repr

/-- A record waiting for its links (R362, R364, R412): its stream, its zone, whether it is an URGENT record or BULK, when it
arrived, the links still to take it, the unit numbers it was given, and whether it lies in the overflow pool. -/
structure TxItem where
  stream : Nat
  zone : Option Nat
  record : Rec
  urgent : Bool
  bulk : Bool
  arrived : Time
  links : List Link
  seq0 : Option (BitVec 32)
  cut : Nat
  ring : Nat                      -- stream ring that its units take on PCIe
  sent : Nat                      -- units already written to that ring's buffers
  inPool : Bool
  cls : Nat                       -- class it now has: 0 URGENT, 1 REALTIME, 2 BULK, 3 BACKGROUND (R363)
deriving DecidableEq, Repr

/-- A tone of a launch (R33, R35): its slot centre as a fraction of f_S, AMP and DIR. -/
structure ToneOut where
  num : Int
  den : Nat
  amp : Int
  down : Bool
deriving DecidableEq, Repr

/-- What leaves the block, in order: the model's own record of its outputs (log entry 3, DESIGN CHOICE). -/
inductive Output where
  | packet (t : Transport) (bytes : List Byte)              -- a reply or an event packet (R441)
  | msix (vector : Nat)                                     -- an MSI-X message (R498)
  | unit (l : Link) (bytes : List Byte)                     -- an Oliral unit (R412)
  | descriptor (ring index len : Nat) (flushed : Bool)      -- LEN and FLAGS written back, with OWN clear (R505)
  | spiData (words : List Word)                             -- register words read over SPI (R517)
  | spiPacket (bytes : List Byte)                           -- answer to SPI command 0x41
  | launch (p : Nat) (g : Nat) (restart : Bool) (tones : List ToneOut)   -- a gate opening with its tones (R35, R41)
  | chainFrame (words : List (BitVec 64))                   -- words shifted into the chain, driver 0 first (R45)
  | tpg (width : Time)                                      -- a pulse on TPG (R170)
  | strobe (c : Nat) (code : Nat)                           -- a switch strobe (R167)
  | neighbour (eth : Nat) (target : BitVec 128)             -- an ARP or Neighbour Discovery answer (R508)
  | echo (eth : Nat) (dst : BitVec 128) (payload : List Byte)
  | scan (data : BitVec 64)                                 -- bits shifted out by boundary scan (R520)
  | i2c (addr : BitVec 7) (data : List Byte)                -- bytes read back (R518)
deriving DecidableEq, Repr

/-! ### Sessions and transactions (R448 to R461) -/

/-- A staged command (R452): its SEQ and opcode, the settings it writes or removes, the generations it saw, its size. -/
structure Staged where
  seq : BitVec 32
  opcode : BitVec 16
  updates : List (SetKey × List Int)
  removes : List (Kind × Nat)
  gens : List (SetKey × Nat)
  bytes : Nat
deriving DecidableEq, Repr

/-- An open transaction (R455). -/
structure Txn where
  id : Nat
  timeout : Nat
  lastRx : Time
  staged : List Staged
deriving DecidableEq, Repr

/-- A reply kept for retransmission (R451): every packet of it. -/
structure KeptReply where
  seq : BitVec 32
  packets : List (List Byte)
deriving DecidableEq, Repr

/-- A session (R448). -/
structure Session where
  isOpen : Bool
  transport : Transport
  timeout : Nat
  lastRx : Time
  eventMask : BitVec 256
  evSeq : BitVec 32
  txn : Option Txn
  nextTxn : Nat
  timedOut : List Nat
  kept : List KeptReply
  inProgress : Option (BitVec 16 × Packet)        -- a command whose reply is still due (R450)
  waiting : List (BitVec 16 × Packet)
deriving DecidableEq, Repr

/-! ### Placement (R356 to R361) -/

/-- A Vat instance of a zone (R357). -/
structure InstPlace where
  zone : Nat
  index : Nat
  firstPoint : Nat
  nPoints : Nat
  engine : Nat
deriving DecidableEq, Repr

/-- Bookings of a placement: pipeline of each port, engine of each instance, lane of each compressed zone, and what is booked of the
Cave (regions of 2 MiB per stack), the Press (bytes/s) and the links (bits/s). -/
structure Placement where
  pipes : List (Nat × Nat)           -- port, pipeline
  insts : List InstPlace
  press : List (Nat × Nat × Nat)     -- zone, lane, input booked in bytes/s
  cave : List (Nat × Nat × Nat × Nat)  -- zone or 4096 + port, kind, stack, regions
  links : List (Nat × Link × Nat)    -- zone, link, bits/s
  rings : List (Nat × Nat)           -- zone, stream ring
deriving DecidableEq, Repr

/-- A commit whose boundaries are still to come (R458 to R461): its settings, the keys it sets, the instances it removes, its placement,
the ports that it restarts, and the touched ports still to take their settings. -/
structure Commit where
  owner : Option (SessIx × BitVec 16 × Packet)  -- whose reply it is; none at B14 and for returns to RUN
  target : Settings
  keys : List SetKey
  removes : List (Kind × Nat)
  placement : Placement
  fixed : Bool                    -- T_C is fixed: no earlier commit waits
  moved : Bool                    -- it changes the placement
  a1 : Time                       -- A + 1 ms
  tC : Time
  tLast : Time
  restarted : List Nat
  touched : List Nat
  deviceDone : Bool
deriving DecidableEq, Repr

/-! ### Lanes and calibration (chapter 3) -/

/-- Corrections of one slice: offset in 1/16 LSB, gain in 2^-14, timing in 25 fs steps. -/
structure SliceCorr where
  offset : Int
  gain : Int
  timing : Int
deriving DecidableEq, Repr

/-- A slice found failing (R84, R85): which, whether hard, whether the spare shadows it, and the number of the port's frame after F. -/
structure FailingSlice where
  slice : Fin 9
  hard : Bool
  shadow : Bool
  after : Nat
deriving DecidableEq, Repr

/-- Samples that carry a tag other than 0b00 (R74): the tag, the one position that it is confined to, the elapsed time from which it holds, and
the time from which it no longer does. -/
structure TagSpan where
  tag : Nat
  pos : Option (Fin 8)
  since : Time
  till : Option Time
deriving DecidableEq, Repr

/-- A receive lane: its registers (R79, R80, R87, R88), supply, tags and slices. -/
structure Lane where
  ctl : Word
  stat : Word
  trim : Word
  qsk : Word
  powered : Bool
  starting : Bool                 -- tag 0b11 of the first 50 µs (R72)
  startUntil : Time               -- when those 50 µs end
  recovering : Option Bool        -- in overrange or its recovery; `some true` when the deep count applies (R76)
  recUntil : Time                 -- when the recovery count ends
  pDark : Nat
  slices : Vector SliceCorr 9
  position : Vector (Fin 9) 8     -- slice in each position
  spare : Option (Fin 9)
  spareAt : List SliceCorr        -- B07 corrections of the spare for each position (R85)
  failing : Option FailingSlice
  dead : List (Fin 8 × Time)      -- positions of hard-failed slices with no spare, and since when (R86)
  spans : List TagSpan            -- when its samples carried a tag (R74)
  qcs : List (Time × Int)         -- changes of QC, latest first: when, and to what (R88, R89)
  frame : List SampleSums         -- sums of each position over the last frame, in codes (R84, R85)
  suspects : List (Fin 9 × SliceCause)   -- slices that meet a condition of R84 and are not yet found failing
  tested : Bool                   -- a bit-weight test was ordered and its outcome is still to come (R84)
deriving DecidableEq, Repr

/-- Sums of one estimate of the blind calibrator over its eligible samples (the estimator of "Blind calibration"). -/
structure EstSums where
  n : Nat
  si : Int
  sq : Int
  pi : Nat
  pq : Nat
  c : Int
  ks : Rat
  kb : Nat
deriving DecidableEq, Repr

/-- An accumulation of a pair: both estimates, the kurtosis block in progress (s2, s4, n), eligible samples with those excluded, overrange
samples among them, and the sums of each position of the I lane and of the Q lane (R83, R90). -/
structure Accum where
  a : EstSums
  b : EstSums
  blk : Nat × Nat × Nat
  eligible : Nat
  overrange : Nat
  sliceI : List SampleSums
  sliceQ : List SampleSums
deriving DecidableEq, Repr

/-- Calibrator of a pair: the number of its accumulation, frames accumulated and their sums, whether accumulation waits for the next frame
boundary, whether a trim stepped at the last one, targets of the walk (offset I, offset Q, gain Q, QC), slice targets, and frames of HOLD left. -/
structure CalPair where
  gen : Nat
  frames : Nat
  acc : Accum
  restart : Bool
  stepped : Bool
  targets : Option (Int × Int × Int × Int)
  sliceTargets : List (Nat × Nat × Int × Int)   -- lane index 0 or 1 of the pair, slice, offset, gain
  holdFrames : Nat
deriving DecidableEq, Repr

/-! ### Ports and the phase engine (chapters 2, 4, 5) -/

/-- Bin value of one tone in one ping: the Harp's two complex outputs before clipping (R109 to R113), X then Y. -/
structure ToneBin where
  xr : Int
  xi : Int
  yr : Int
  yi : Int
deriving DecidableEq, Repr

/-- Seed state of an alignment offset (R125). -/
inductive Seed where
  | unseeded
  | provisional
  | seeded
deriving DecidableEq, Repr

/-- State of one group of a port's pipeline (R105). -/
structure GroupSt where
  prev : List (List ToneBin)
  prevVoid : List Bool
  prevSat : List Bool
  hasPrev : Bool
  prevLaunched : Bool
  phi : List (BitVec 32)
  wmean : List (Option Nat)        -- fade reference, in units of 2^-16
  profile : List Nat               -- reference profile, in units of 2^-4
  profCount : Nat
  gamma : List Int                 -- Γ_g(z, k) of the last ping
  gammaOk : List Bool
  align : List Int                 -- a_g(z), 16 fractional bits
  seed : List Seed
deriving DecidableEq, Repr

/-- A ping launched and not yet processed: its group, whether it was launched under the plan or strain epoch before the one in force, the
settings it was launched under where the port has taken others since, its launch stamp and whether that is derived, its instant in elapsed time,
whether it was launched, whether it is a restart ping, and for a ping of group 0 the accumulations of the X and Y pairs that its frame counts
toward (R91). -/
structure PingTag where
  group : Nat
  old : Bool
  cfg : Option Settings
  stamp : Time
  at' : Time
  calX : Option Nat
  calY : Option Nat
  derived : Bool
  launched : Bool
  restart : Bool
deriving DecidableEq, Repr

/-- What a boundary leaves to do at a port's zones once the pings launched before it are processed: the settings before it, whether every chain
resets, whether the curd-domain rings restart, and the boundary's instant. -/
structure Later where
  old : Settings
  inst : Time
  reset : Bool
  ring : Bool
deriving DecidableEq, Repr

/-- The delay phase of R138 per group: Θ_g of its last ping in eighths of an LSB, whether that may be compared (R125), the alignment offsets (16
fraction bits) with their seeds, and the delay bins FIRST_DB and LAST_DB that they were formed over. -/
structure DelayPh where
  theta : List Int
  ok : List Bool
  align : List Int
  seed : List Seed
  bins : Option (Nat × Nat)
deriving DecidableEq, Repr

/-- A sample Θ(m): its delay instant, its value in eighths of an LSB, whether it carries an invalid flag, a degraded one, whether its launch stamp
is derived, and the slips in the delay bins (R138, R238). -/
structure DelaySample where
  t : Time
  val : Int
  bad : Bool
  degraded : Bool
  derived : Bool
  slips : Nat
deriving DecidableEq, Repr

/-- What the pings in flight need after their plan has been replaced, or their epoch has ended: the settings and phase-engine state they run under. -/
structure OldRun where
  plan : Settings
  groups : List GroupSt
  lastGamma : List Int
  lastSense : Option (Time × Settings)
  lastValid : List Int
  dph : DelayPh
  refR : Word
  epoch : BitVec 16
deriving DecidableEq, Repr

/-- Delay tracking of a port (R237 to R242). -/
structure DelaySt where
  samples : List DelaySample       -- samples whose record is still to come
  lastEnd : Option Time            -- end of the last record's interval
  flags : BitVec 16
  recs : List (Time × Int)         -- records of this epoch, latest first: centre and D_REL
  anchor : Option (Int × Time × Int) -- A (2^-16 fs), t_a, D_REL(t_a)
  pendingAnchor : Option (Int × Time)
  anchorSeq : BitVec 32
  anchorRes : Int
  inEpoch : Bool                   -- an anchor was accepted in this strain epoch
  slipCnt : Nat
  anchorAt : Time                  -- when ANCHOR_PER last expired
deriving DecidableEq, Repr

/-- Whether a dark frame was asked for, is in progress, has ended before its powers are known, or has been measured (R98). -/
inductive DarkSt where
  | none
  | armed
  | closed
  | ended
  | measured
deriving DecidableEq, Repr

/-- A port: its registers, gate and probe, frame timer, emission reduction, near-field evidence, phase-engine state, calibration. -/
structure Port where
  stat : Word
  even : Word
  endR : Word
  refR : Word
  brk : Word
  rxcCtl : Word
  rxcWin : Word
  rxcStat : Word
  rxcKap : Word
  gateOpen : Bool
  gateUntil : Time                -- when an open gate closes (R41)
  probeOn : Bool                  -- tones on the probe outputs; code 0 otherwise (R39)
  probeFrom : Time                -- when the first probe sample reaches the pins
  probeUntil : Time
  probe : List (BitVec 10 × BitVec 10)   -- codes of the I and Q probe outputs for the launch, one each 500 ps
  thermal : Bool                  -- THERMAL-ASSIGNED (R30)
  frameStart : Option Time        -- launch instant of group 0 of the frame in progress
  frameNo : Nat
  plan : Settings                 -- settings of the plan the frames in progress run under (R42)
  frozen : Bool                   -- frame timer frozen by loss of probe lock (R200)
  holdGate : Bool                 -- gate held closed until a commit point or a pipeline (R458, R371)
  reopen : Bool                   -- gates reopen at the next frame boundary (R60)
  resumePending : Bool            -- full emission resumes at the next frame boundary (R62)
  resetPending : Bool             -- a synchronising reset at the next frame boundary (R161)
  epochPending : Bool             -- a strain epoch at the next frame boundary (R128)
  lockResume : Bool               -- resumes after loss of sampling lock (R198)
  redFrames : Nat                 -- frames since reduction began (R61)
  restartGood : Nat               -- consecutive good restart pings (R62)
  noEvidence : Nat                -- consecutive group-0 pings without evidence (R64)
  nfSum : Nat
  nfCount : Nat
  declared : Bool                 -- optical-evidence declaration outstanding (R64)
  failRun : Nat                   -- consecutive failing pings (R134)
  failPing : List Nat             -- powers of the previous failing ping, with its profile sums
  failProf : List Nat
  endDiff : Nat                   -- consecutive determinations more than 8 bins off (R132)
  group0 : List (List Nat)        -- powers of group 0's last 16 pings (R131)
  endFrame : Nat                  -- frame number of the last determination of END_BIN
  floor : List Nat                -- N_F per group (R131), empty until measured or computed
  groups : List GroupSt
  lastGamma : List Int            -- Γ(z, m − 1) after alignment
  lastSense : Option (Time × Settings)  -- launch stamp of merged sample m − 1, and the settings that it was formed under
  lastValid : List Int            -- last valid strain of each point (R118)
  stepNext : Bool                 -- the next strain-rate sample differences two gauges (STEP, R165)
  pings : List PingTag
  oldRun : Option OldRun
  later : Option Later
  gaugeNext : Bool                -- the next ping launched under the plan in force is the first at a new GAUGE
  connectAt : Time                -- earliest boundary that may connect a replacement pipeline (R371)
  lastLaunch : Time
  dark : DarkSt
  calX : CalPair
  calY : CalPair
  calSkip : Bool                  -- the frame in progress counts for no calibrator (R91, R98)
  delay : DelaySt
  dph : DelayPh
  droppedFrom : Option Time       -- start of the drop interval in progress, in device time (R22)
  drops : List TagSpan            -- drop intervals (R21)
  spans : List TagSpan            -- when its lanes' samples carried 0b11 after loss of sampling lock (R198)
deriving DecidableEq, Repr

/-- A port pipeline: PP_SRCn (R106), and whether its input buffer is discarding (R21). -/
structure Pipe where
  src : Word
  dropping : Bool
deriving DecidableEq, Repr

/-! ### Source Drive Chain and safety (chapter 2) -/

/-- What the chain is doing. -/
inductive ChainPhase where
  | idle
  | discovering
  | framing
  | waiting                       -- 10 ms before the next discovery (R571)
deriving DecidableEq, Repr

/-- The Source Drive Chain: registers (R66 to R69) and sequencer. Words are listed driver 0 first. -/
structure Sdc where
  ctl : Word
  stat : Word
  raw : Vector Word 64
  ovr : Vector Word 128
  phase : ChainPhase
  seq : BitVec 8
  sent : List (BitVec 64)         -- command words of the frame being shifted
  latched : List (BitVec 64)      -- command words of the last frame whose latch pulse completed
  status : List (BitVec 64)       -- last status words
  ids : List (BitVec 8)           -- DEVICE_ID found at discovery
  known : Bool                    -- ids are filled
  prevCount : Option Nat
  clkInUse : BitVec 2
  channel : Nat                   -- frames since discovery modulo 12, which picks each device's channel for SET (R56)
  failedRun : Nat
  chainFailed : Bool
  passes : Nat                    -- consecutive passing frames since discovery (R60)
  causeIntlk : Bool               -- causes of R571
  causeAux : Bool
  causeTemp : Bool
  bootDiscovery : Bool
  waitUntil : Time                -- end of the frame or wait in progress
  hot : Bool                      -- some sensor above 105 °C at the last sample (R555)
  again : Bool                    -- the next frame repeats the words of a failed one (R52)
  warned : Bool                   -- some sensor read 110 °C or more at the last sample (R555)
deriving DecidableEq, Repr

/-! ### Clocks (chapter 7) -/

/-- A ramp in progress (R192, R196). -/
inductive Ramp where
  | none
  | ref (target : RefSrc) (switched : Bool)
  | fs (retuned : Bool)
deriving DecidableEq, Repr

/-- Clock registers, CK_REF sources and ramps, gating, and the frequency counter. -/
structure Clocks where
  ctl : Word
  stat : Word
  fs : Word
  ckg0 : Word
  ckg1 : Word
  ckgStat : Word
  settling : List (Nat × Time)    -- blocks ungated (bits of CKG_EN0, then 11 + p for port p) whose 32 cycles run, and until when (R208)
  recovSince : Time               -- since when the timing port has held code-group synchronisation (R189)
  ramp : Ramp
  rampAt : Time
  fsWaiting : Bool                -- an f_S change waits for the ramp (R196)
  memLostAt : Time
  fctl : Word
  fstat : Word
  fmlo : Word
  frlo : Word
  fhi : Word
  spans : List TagSpan            -- when every lane's samples carried 0b11: ramps (R194, R196)
  pace : Vector Word 96
  paceRamp : Vector Bool 96       -- a ramp overlapped the site's pace window (R194)
deriving DecidableEq, Repr

/-! ### Time and the time-interval unit (chapter 8) -/

/-- Clocks of the model: elapsed time, the device clock and whether it is set, and the timing servo (R516). -/
structure TimeSt where
  mono : Time
  dev : Time
  devSet : Bool
  rate : Int                      -- servo rate in 10^-15
  locked : Bool
  goodSince : Option Time
  offset : Int
  masters : List Announce         -- the announce message last received from each sender (R513)
  transmitter : Option (BitVec 64)
  receiving : Bool                -- port state of the time receiver: following a transmitter
deriving DecidableEq, Repr

/-- Calibration of a channel (R218, R224): hits of each code out of 2^20, and the offset o of each pad. -/
structure ChanTab where
  hits : List Nat
  offs : List Int
deriving DecidableEq, Repr

/-- A vernier converter: calibrated, failures counted (R226), in calibration before it is of use again (R209), and its two channels. -/
structure Conv where
  calibrated : Bool
  failures : Nat
  returning : Bool
  a : ChanTab
  b : ChanTab
deriving DecidableEq, Repr

/-- A REF10 fit (R222): the line a + b·i through 64 raw stamps, and the number of the edge i = 0. -/
structure RefFit where
  a : Rat
  b : Rat
  first : Nat
deriving DecidableEq, Repr

/-- The last accepted launch stamp (R219, R236): its raw stamp, its instant on CK_PRB, the stamp, and the converter. -/
structure LastTap where
  raw : Int
  at' : Time
  stamp : Time
  conv : Nat
deriving DecidableEq, Repr

/-- A requested measurement (R229) or anchor (R239). -/
structure MeasReq where
  id : BitVec 16
  anchorPort : Option Nat
  params : List (Nat × List Int)  -- row of R229 (its code in 0x16), members
  asked : Time
deriving DecidableEq, Repr

/-- The measurement on the USER converter (R230 to R234). -/
structure MeasRun where
  req : MeasReq
  isOpen : Bool
  done : Bool                     -- its gate has closed or it was ended
  tOpen : Time
  tClose : Time
  armedAt : Time                  -- when it took the converter
  gateAt : Time                   -- when its gate or window opened, in elapsed time
  gateLen : Option Time           -- length of the open gate; none for LEVEL
  opensAt : Option Time           -- start of a window still to open
  flags : BitVec 16
  edgesA : Nat                    -- edges of each source since the gate opened: its prescaler (R228)
  edgesB : Nat
  lastA : Option Int              -- raw stamp of the edge last accepted on each channel (R219)
  lastB : Option Int
  starts : List (Int × Bool)      -- stamps of starts that a stop may still find, and whether paired (R232)
  stops : List Int                -- stops that a start up to 16 ps later may still precede
  lostAt : List Int               -- stamps of edges lost to dead time (R231)
  nStarts : Nat
  results : List (Nat × Int)      -- stamps, intervals, or (n_j, t_j)
  mids : Int                      -- sum of (start + stop) over the pairs
  dead : Nat
  orphan : Nat
  sawExternal : Bool
deriving DecidableEq, Repr

/-- The time-interval unit. -/
structure Tiu where
  ctl : Word
  stat : Word
  conv : Vector Conv 3
  nextUser : Bool                 -- the next rotation goes to USER
  lastRotation : Time             -- when the last rotation was due
  rotatedAt : Time                -- when the last one completed
  lastTap : Option LastTap
  queue : List MeasReq
  run : Option MeasRun
  holdSince : Time
  refRun : Nat                    -- consecutive good windows of REF10 (R221)
  ppsRun : Nat                    -- consecutive good pulses of PPS_IN (R221)
  ppsLast : Option (Nat × Nat)    -- REF10 edge beside the last good pulse, and the device-clock second nearest to it
  ppsAt : Time                    -- when that pulse came
  ppsNear : Bool                  -- PPS edges within 100 ms of the device clock (R222)
  secondEdge : Option (Nat × Nat) -- the REF10 edge that PPS_IN last selected as the start of a second, and that second's number (R222)
  fit : Option RefFit             -- last REF10 fit
deriving DecidableEq, Repr

/-! ### AXC1 (chapter 10) -/

/-- AXC1: registers, queue and counters. -/
structure Axc1 where
  ctl : Word
  stat : Word
  urgRes : Word
  seq : Vector Word 32
  lim : Vector Word 32
  res : Vector Word 32
  urgQ : List Word                -- requests queued, the one that runs in front
  running : Option (Option Nat)   -- `some (some n)`: entry n; `some none`: the front urgent request
  seqOn : Bool                    -- the sequence runs
  entry : Nat                     -- the entry in turn
  ref : Nat                       -- reference selected
  startAt : Time                  -- when the conversion in progress started
  cycles : Nat                    -- its CK_AUX cycles once the reference is settled
  pass : BitVec 8
  urgRun : Nat
  lengthened : Bool               -- the next acquisition is lengthened by 21 cycles (R307)
  inside : Vector Bool 32
  invalid : Bool                  -- a ramp or loss of the auxiliary loop overlaps the conversion
deriving DecidableEq, Repr

/-! ### The Rind (chapters 6, 9, 10) -/

/-- The seal (R266). -/
inductive SealState where
  | unsealed
  | sealed
  | broken
deriving DecidableEq, Repr

/-- An audit record (R276), its CRC computed when it is read. -/
structure AuditRec where
  recType : Nat
  source : Nat
  cnt : BitVec 32
  t : Time
  sealNow : Nat
  timeUnset : Bool
  param : BitVec 16
  idOld : BitVec 32
  idNew : BitVec 32
  count : BitVec 32
  old : BitVec 64
  new : BitVec 64
deriving DecidableEq, Repr

/-- Body of a message on the results path (R250). -/
inductive RpBody where
  | profile (bytes : List Byte) (port : Nat) (seq : BitVec 32)
  | announce (step : Nat) (ports : List Nat) (t : Time)
  | switched (step : Nat) (ports : List Nat) (t : Time)
  | event (n : Nat)
  | audit (r : AuditRec)
  | reading (bytes : List Byte)
deriving DecidableEq, Repr

/-- A message kept until it is acknowledged (R252). -/
structure RpMsg where
  seq : BitVec 32
  channel : Nat
  body : RpBody
deriving DecidableEq, Repr

/-- A step of the switch schedule (R167). -/
structure SchedStep where
  ports : List Nat                -- four entries, 31 = park
  dStep : Nat
deriving DecidableEq, Repr

/-- Where the schedule stands within a step (R168). -/
inductive StepPhase where
  | stopped                       -- no schedule, or HALTED
  | announced
  | settling
  | averaging
  | waiting                       -- for the time limit or the end of INH_HOLD
deriving DecidableEq, Repr

/-- The average being accumulated: shots, first and last shot instants, seal since its first shot, coil readings (valid, 2^-16 K) of
each channel's RC_C1 and RC_C2. -/
structure Average where
  start : Time                    -- elapsed time of its first shot
  shots : Nat
  tFirst : Time
  tLast : Time
  sealedAll : Bool
  params : Settings               -- thermal parameters in force for this average (R174)
  paramId : BitVec 32
  acc : List (List Nat)
  sat : List (List Bool)
  rtd : List (Nat × Bool × Nat × Time)   -- RTD channel, valid, temperature, elapsed time of its instant
  inhibited : Bool
deriving DecidableEq, Repr

/-- A computed profile that waits to be signed and issued (R183). -/
structure ProfileWork where
  channel : Nat
  port : Nat
  bytes : List Byte
  seq : BitVec 32
  paramId : BitVec 32
  sealedAll : Bool
deriving DecidableEq, Repr

/-- State of an RTD channel (R294). -/
inductive RtdState where
  | normal
  | auto
  | opened
deriving DecidableEq, Repr

/-- An RTD channel. -/
structure Rtd where
  state : RtdState
  range : Nat
  low : Nat                       -- consecutive conversions below 40 %
  good : Nat                      -- consecutive in-range conversions at RANGE
  slot : Nat                      -- AUTO conversions in this slot
  cleanProbes : Nat
  lead : Option Int               -- R_LEAD in 2^-46 Ω
  leadCount : Nat
  xswap : Bool
  rchg : Bool                     -- the range changed after the last AUTO conversion
deriving DecidableEq, Repr

/-- An open system calibration (R305): channel, nominal and measured standards, readings being collected. -/
structure CalOpen where
  rc : Nat
  zNom : Nat
  fNom : Nat
  zMeas : Option Int
  fMeas : Option Int
  collecting : Option Bool        -- `some true` collects the full-scale standard
  readings : List Int
  bad : Bool
  lastRequest : Time
  caller : Option (SessIx × BitVec 16 × Packet)
deriving DecidableEq, Repr

/-- AXC0 and the excitation sources. -/
structure Axc0 where
  entry : Nat
  urgent : List Nat
  running : Option (Option Nat)   -- as in `Axc1`
  urgRun : Nat
  refSet : Bool
  refSel : Nat                    -- reference selected: 0 INTERNAL, 1 EXTERNAL, 2 SUPPLY
  recOwed : Bool                  -- T_REC owed (R302)
  recNow : Bool                   -- the conversion in progress serves T_REC
  startAt : Time                  -- when it started
  rtd : Vector Rtd 16
  sourceOk : Vector Bool 4
  pulsedSrc : Fin 4
  sineSrc : Fin 4
  cal : Option CalOpen
deriving DecidableEq, Repr

/-- The Rind. -/
structure Rind where
  powered : Bool
  halted : Bool
  time : Time
  ticks : Time                    -- elapsed time on CK_RIND, which no time word moves
  timeUnset : Bool
  sealSt : SealState
  sealedDig : BitVec 64
  sealedParamId : BitVec 32
  params : Settings
  inForce : Settings              -- thermal parameters in force: those of the last average to start (R174)
  front : Settings                -- front-end parameters in force for this pass (R293)
  paramId : BitVec 32
  schedule : List SchedStep
  nextSchedule : Option (List SchedStep)
  step : Nat
  phase : StepPhase
  stepStart : Time
  averagesDone : Nat
  avg : Option Average
  parked : Vector Bool 4
  oswPort : Vector Nat 4          -- what each channel's switch was last strobed to
  osw : BitVec 8
  tpg : Bool
  chanSeq : Vector (BitVec 32) 4
  work : List ProfileWork
  endT : Vector Nat 4
  inhibit : Bool
  inhibitOuter : Bool             -- the line as the main side drives it
  holdUntil : Time
  lastRelease : Option Time
  rpSeq : BitVec 32
  unacked : List RpMsg
  wire : List RpMsg               -- messages to send, in their order on the line, the first being sent (R251)
  lineAt : Time                   -- `ticks` when the first began, or went on
  segs : Nat                      -- whole segments of the first message that segments divide, sent before that
  ackLate : Bool                  -- the acknowledgement advanced after 1 s of silence (R254)
  ackWord : BitVec 32
  ackAt : Time                    -- when the acknowledgement last advanced
  sentAt : Time                   -- when the Rind last sent again (R252)
  annSeq : BitVec 32              -- RP_SEQ of the ANNOUNCE of the step in force
  annAcked : Bool
  audit : List AuditRec           -- most recent 4,096, oldest first
  auditCnt : BitVec 32
  ackCnt : BitVec 32
  refused : BitVec 32
  windows : List (BitVec 16 × Time × Nat × BitVec 64 × BitVec 64)  -- open 60 s windows of R268: parameter, start, count, OLD, NEW
  swVer : BitVec 24
  swDig : BitVec 64
  fwImage : List Byte
  fwTotal : Nat
  nextFw : Option (BitVec 64)     -- image that runs from the next power cycle (R272)
  nextFwVer : BitVec 24
  request : Option (SessIx × BitVec 16 × Packet)  -- the 0x07 command that the Supervisor has outstanding
  slot : List Byte                -- request slot of the mailbox (R255), [] when empty
  reply : List Byte               -- reply slot, [] before a reply
  timeWord : Option Time          -- time word last written
  held : List (SessIx × BitVec 16 × Packet)       -- 0x07 commands the Supervisor holds (R255)
  tag : BitVec 16
  lastTag : BitVec 16
  lastStatus : BitVec 16
  sealCntRef : BitVec 16
  seenSeal : Bool
  axc0 : Axc0
  started : Bool                  -- a time word has been received since the Rind started
deriving DecidableEq, Repr

/-- The main side's end of the results path and the mirror registers (R252, R278, R486). -/
structure RindMain where
  lastSeq : Option (BitVec 32)    -- RP_SEQ of the last good message
  seen : List (BitVec 32)
  stat : Word
  audCnt : Word
  ackCnt : Word
  refused : Word
  paramId : Word
  swVer : Word
  swDig0 : Word
  swDig1 : Word
  mbx : Word
  sealCnt : Word
  lastReading : List (List Byte)
  newPorts : List Nat             -- ports of the last ANNOUNCE
  early : List (Nat × BitVec 32 × List Byte)  -- profiles received, not yet forwarded: channel, SEQ, bytes (R252)
deriving DecidableEq, Repr

/-! ### Vat engines (chapter 11) -/

/-- An outstanding Cave transfer (R340, R341). -/
structure Transfer where
  toCave : Bool
  window : Nat
  offset : Nat
  addr : Nat
  len : Nat
deriving DecidableEq, Repr

/-- An open loop: first body address, last body address, iterations left. -/
structure LoopFrame where
  first : Nat
  last : Nat
  count : Nat
deriving DecidableEq, Repr

/-- A loaded program image (R348). -/
structure Image where
  id : Nat
  bytes : List Byte
deriving DecidableEq, Repr

/-- An input block of an instance (R420): its bytes, the GAUGE in force for it, when it arrived, whether it waits in the overflow pool. -/
structure VatIn where
  bytes : List Byte
  gauge : Nat
  arrived : Time
  inPool : Bool
deriving DecidableEq, Repr

/-- A Vat engine: its register file (R319), stacks, memories, windows and registers of the window (R350 to R352). -/
structure Engine where
  ctl : Word
  stat : Word
  fpc : Word
  fop : Word
  lastOp : Word
  peakOp : Word
  pc : Nat
  d : Vector Word16 8
  p : Vector (BitVec 15) 8
  s : Vector Word16 8
  hb : Vector (BitVec 15) 4
  hl : Vector Word16 4
  acc : BitVec 40
  ovc : BitVec 8
  maxv : Word16
  maxi : Word16
  minv : Word16
  mini : Word16
  mmcnt : Word16
  flags : Word16
  opc : Nat
  inv : BitVec 32
  invNext : BitVec 32
  winSize : Vector Word 4
  calls : List Nat
  loops : List LoopFrame
  code : List Word
  dmem : Mem
  win : Vector Mem 4              -- contents of windows W0 to W3
  transfers : List Transfer
  stalledSince : Option Time
  stallTotal : Nat                -- µs of completed stalls
  image : Nat                     -- image loaded, 0 none
  budget : Nat
  waitLim : Nat
  outBytes : Nat
  stateBytes : Nat
  entry : Nat
  faultLim : Nat
  faultsInRow : Nat
  zone : Option Nat               -- instance served
  inst : Nat
  input : List VatIn              -- input blocks staged for the instance
  current : Option VatIn
  blockSeq : BitVec 32
  nextImage : Option (Option Nat) -- an image that waits for the drain (R347)
  lastMem : Option Mem            -- data memory after the last completed invocation (R371)
deriving DecidableEq, Repr

/-! ### The Press (chapter 13) -/

/-- A Press block waiting to be coded: its frame with the rows, its zone's lane. -/
structure PressBlk where
  frame : CurdFrame
  blockSeq : BitVec 32
  pars : List Nat                 -- PRED, DYNAMIC, DEPTH, LAZY, WIN_KIB, SUB_KIB, SHUFFLE when it closed
  cls : Nat                       -- class it now has (R362, R363)
  arrived : Time
deriving DecidableEq, Repr

/-- A host job (R396 to R403): descriptor bytes, counters, whether it runs, and on which lane. -/
structure HostJob where
  desc : List Byte
  lane : Option Nat
  running : Bool
  setAside : Bool
  cancel : Bool                   -- stops at its next row boundary (R403)
  cls : Nat                       -- class it now has (R363, R398)
  arrived : Time
deriving DecidableEq, Repr

/-- State saved by a job stopped with OUT_FULL (R400): where, tag, remaining input and output produced so far, original length. -/
structure SavedJob where
  desc : List Byte
  stateOff : Nat
  totalIn : Nat
  totalOut : Nat
  inLen : Nat
  piece : Nat
  input : List Byte
deriving DecidableEq, Repr

/-- A Press lane: registers (R407 to R409), blocks waiting, and bytes not yet counted in IN and OUT. -/
structure PressLane where
  ctl : Word
  stat : Word
  inR : Word
  outR : Word
  rawCnt : Word
  blocks : List PressBlk
  inRem : Nat
  outRem : Nat
deriving DecidableEq, Repr

/-! ### Zones, the Ladle, lookback (chapters 5, 12, 14) -/

/-- One stage history of a filter chain: recent samples (instant, value and flags per point), oldest first. -/
structure Sample where
  t : Time
  vals : List Int
  flags : List (BitVec 10)
deriving DecidableEq, Repr

/-- A filter chain of one product of a zone (R150 to R164): the settings it runs under, the inputs dropped from the front since its reset,
the inputs kept (oldest first), and whether a synchronising reset has closed it, so that it only completes its outputs (R162). -/
structure Chain where
  product : Nat
  cfg : Settings
  epoch : BitVec 16
  base : Nat
  ins : List Sample
  closed : Bool
deriving DecidableEq, Repr

/-- One sample out of a band's filter (R158), per point: its instant, the filtered value in units of 2^-bandFrac LSB, and the flags of its input, which
was skipped where they are invalid. -/
structure BandOut where
  inst : List Time
  y : List Int
  flags : List (BitVec 10)
deriving DecidableEq, Repr

/-- Band-energy state of one band of a zone (R158 to R160): the state of its filter's sections per point, [] since a reset, and the samples whose
interval has not ended, oldest first. -/
structure BandSt where
  filt : List (List Int)
  out : List BandOut
deriving DecidableEq, Repr

/-- The frame of one product being filled (R416). -/
structure OpenFrame where
  product : Nat
  band : Nat
  first : Nat                     -- point of column 0
  native : Bool
  head : FrameHead
  rows : List Row
deriving DecidableEq, Repr

/-- A run of discards (R364). -/
structure DiscardRun where
  cause : Nat
  since : Time
  count : Nat
  bytes : Nat
  tFirst : Time
  tLast : Time
  products : Byte
  seqFirst : BitVec 32
  seqLast : BitVec 32
deriving DecidableEq, Repr

/-- Runtime state of a zone. -/
structure ZoneRt where
  id : Nat
  state : Nat                     -- STATE of R359
  flags : BitVec 16               -- FLAGS of R359
  resetPending : Bool             -- SYNC_RESET named it: its chains are reset at the next frame boundary (R161)
  frameSeq : List (Nat × BitVec 32)   -- per product (and band)
  blockSeq : List (Nat × BitVec 32)
  opens : List OpenFrame
  chains : List Chain               -- oldest first; the last of a product is not closed
  lastOut : Option Time             -- last output instant (R162)
  lastStrain : List Int             -- last valid strain output of each point (R164)
  bands : List BandSt
  resets : List Time                -- its latest synchronising resets, for the WARM intervals of its features (R160)
  featEnd : Option Time             -- end of its last feature interval (R159)
  gains : List (Time × Nat)         -- earlier values of OUT_GAIN, each with the instant it held until, oldest first (R156)
  runs : List DiscardRun            -- one per cause of the run in progress
  inRun : Bool
  shedAt : Option Time
  vatSeq : List (Nat × BitVec 32)  -- Vat input blocks formed per instance
  drainUntil : Option Time
  gone : Settings                   -- its settings when it was withdrawn, [] before that
  curdSince : Option Time          -- when the curd-domain ring last restarted
  curdShrunk : Nat                 -- its regions lost to pinning
  curdRows : List (Time × Nat × Byte × List Int) -- its rows: launch stamp, group, RFLAGS, values
deriving DecidableEq, Repr

/-- A planned migration in progress (R368). -/
structure Migration where
  source : UnitName
  target : UnitName
  retire : Bool
  reserve : Bool                  -- the source leaves service into reserve
  shadow : Bool
  tries : Nat
deriving DecidableEq, Repr

/-- The Ladle's registers and bookkeeping. -/
structure Ladle where
  stat : Word
  aged : Word
  wear : Vector Word 94
  place : Placement
  placeGen : BitVec 32
  migrations : List Migration
  shed : List (Nat × Nat)          -- shed zones in order: zone, what (bit of FLAGS)
  shedPorts : List Nat
  tests : List UnitName            -- self-tests in progress
  testAges : List (UnitName × Time × Nat) -- when each was asked for, and the class it now has (R363)
  tested : List (UnitName × Time)
  moved : List (UnitName × Time)   -- MIG_HOLD of moved work
  lost : List UnitName             -- lost units with work still to recover
  drift : Vector (List Int) 94     -- drifts of the valid windows of the day (R365)
  overflow : Nat                   -- bytes in the overflow pool
  memFault : Bool                  -- the memory loop's failure to lock again has been reported (R201)
deriving DecidableEq, Repr

/-- Runtime state of a trigger (R431). -/
structure TrigRt where
  last : Option Time
  ignored : Nat
  failed : Nat
  timeDone : Bool
deriving DecidableEq, Repr

/-- A firing that waits for its TRIGGER_FIRING step. -/
structure Firing where
  trigger : Nat
  tTrig : Time
  detail : Nat
deriving DecidableEq, Repr

/-- Raw history of one frame (R428): the stamp of its first sample instant, and one word for each. -/
structure RawChunk where
  t : Time
  words : List (BitVec 48)
deriving DecidableEq, Repr

/-- A capture (R432 to R434). -/
structure Capture where
  id : Nat
  zone : Nat
  port : Nat
  trigger : Nat
  source : Nat
  detail : Nat
  sections : Nat
  tTrig : Time
  tStart : Time
  tEnd : Time
  held : Bool
  pinnedAt : Time
  flags : Byte
  plan : Settings
  launches : List PingTag
  raw : List RawChunk
  curd : List (Time × Nat × Byte × List Int)
  rawR : Option (Nat × Nat)        -- first and last region it holds of the raw ring
  curdR : Option (Nat × Nat)       -- and of the curd-domain ring
deriving DecidableEq, Repr

/-- Lookback: triggers' runtime state, captures, rings and the re-analysis jobs. -/
structure Lookback where
  trig : Vector TrigRt 16
  due : List Firing
  captures : List Capture
  nextCapture : Nat
  rawSince : Vector (Option Time) 24   -- when each port's raw ring last restarted
  rawShrunk : Vector Nat 24            -- regions lost to pinning
  histGap : List (Nat × Time)          -- HIST_GAP losses: port, instant
  planChg : List (Nat × Time)          -- plan or f_S changes: port, instant
  reserveUsed : Nat
  jobs : List (Nat × Nat × Settings × Nat × Nat)  -- re-analysis jobs, oldest first: capture, pipeline, parameters, source, products
  launches : Vector (List PingTag) 24
  raw : Vector (List RawChunk) 24      -- each port's raw ring, oldest first (R428)
deriving DecidableEq, Repr

/-! ### Links (chapter 17) -/

/-- A command ring pair (R503, R506). -/
structure CmdRing where
  rbaseLo : Word
  rbaseHi : Word
  rsize : Word
  rhead : Word
  rtail : Word
  stat : Word
  ctl : Word
  busy : BitVec 64                -- slots that hold a command in progress
  waiting : List (List Byte)      -- replies waiting for a free slot
  slots : List (BitVec 8 × BitVec 32 × Nat)  -- session, SEQ and slot of each outstanding command
  req : List (Nat × List Byte)    -- contents of the request slots in BAR2, by slot
deriving DecidableEq, Repr

/-- A stream ring (R504 to R506). -/
structure StreamRing where
  baseLo : Word
  baseHi : Word
  size : Word
  head : Word
  tail : Word
  ctl : Word
  descs : List SrDesc
  starved : Option Time           -- since when the ring is starved (R505)
  modHeld : Bool                  -- an MSI-X request held back by MOD
  lastMsix : Time
deriving DecidableEq, Repr

/-- An Ethernet port (R510). -/
structure Eth where
  macLo : Word
  macHi : Word
  ip : Vector Word 4
  dst : Vector Word 4
  gw : Vector Word 4
  ports : Word
  link : Word
  stat : Word
  rxdrop : Word
  resolved : Option (BitVec 48)
  neighbours : List (BitVec 128 × BitVec 48)
  pausedSince : Time              -- when the hold in force began
  pauseAt : Time                  -- when its last PAUSE frame arrived, and for how long that holds
  pauseQuanta : Nat
  pauseFail : Bool                -- the hold has exceeded PAUSE_LIM
  downSince : Time                -- when the port was last not up
  unresSince : Time               -- since when its destination has not resolved
  goodSince : Option Time         -- since when it has been up, unpaused and resolved (R511)
  moved : List Nat                -- zones whose streams have moved to the other port (R512)
deriving DecidableEq, Repr

/-- A crossing whose island a reset of R525 can take alone (R16, R529). -/
inductive CrossId where
  | pcie
  | eth (n : Fin 2)
  | timing
  | memory
deriving DecidableEq, Repr

/-- What boundary-scan cells do to their pins: the pins keep their functional values, take those of the cells (EXTEST, CLAMP), or float (HIGHZ). -/
inductive ScanDrive where
  | functional
  | driven (v : BitVec 64)
  | floating
deriving DecidableEq, Repr

/-- The links. -/
structure Links where
  pcieWidth : Nat
  pcieRate : Nat
  pcieDegraded : Bool
  cr : Vector CmdRing 4
  sr : Vector StreamRing 64
  eth : Vector Eth 2
  tportUp : Bool
  spiWaiting : List (List Byte)
  i2cError : Bool
  corrected : List Time           -- corrected Cave errors of the last second (EV242)
  msixTable : Vector (Vector Word 4) 256
  msixEnable : Bool
  msixFuncMask : Bool
  pba : BitVec 256
  scan : JtagInstr
  scanPins : ScanDrive            -- what the boundary-scan cells do to the main side's pins
  rindPins : ScanDrive            -- and to the Rind's pins (R248)
  resetFlags : List CrossId       -- crossings whose island side is in reset, its reset flag raised (R528)
  owed : List CrossId             -- crossings that complete an empty handshake before their next word (R528)
deriving DecidableEq, Repr

/-- Streams: STREAM_SEQ per stream, records waiting, WHEY_SEQ (R412, R413, R423). -/
structure Streams where
  seq : List (Nat × BitVec 32)
  queue : List TxItem
  wheySeq : BitVec 32
deriving DecidableEq, Repr

/-! ### Global registers and events (chapter 16) -/

/-- Global and access-error registers (R485, R490). -/
structure Glb where
  variantM : Bool
  uid : BitVec 64
  fwver : Word
  stat : Word
  mepoch : Word
  hzCnt : Word
  accErr : Word
  accAddr : Word
  scratch : Word
  time0 : Word
  time1 : Word
  time2 : Word
  aonStat : Word
  lastSlow : Time                 -- last CK_SLOW edge
  lastRefresh : Time
  slowBack : Option Time          -- when CK_SLOW returned
deriving DecidableEq, Repr

/-- Routing of one event (R493). -/
structure EvCfg where
  vector : BitVec 8
  msix : Bool
  packet : Bool
  count : BitVec 16
deriving DecidableEq, Repr

/-- The event block (R493 to R497). -/
structure Events where
  pend : BitVec 256
  en : BitVec 256
  cfg : Vector EvCfg 256
  tEvent : Vector Time 256
  clearAt : List (Nat × Time)     -- self-clears due (R496)
  seq : BitVec 32                 -- EVENT_SEQ
deriving DecidableEq, Repr

/-! ### Start-up and power (chapter 18) -/

/-- A boot record (R539). -/
structure BootRec where
  result : Nat
  bootCnt : BitVec 32
  tStart : Time
  cause : BitVec 8
  fwSlot : BitVec 8
  lastStep : Nat
  fwVer : BitVec 32
  outcomes : List (Nat × Nat × Nat)   -- OUTCOME, REASON, DETAIL of B00 to B15
  tReady : Time
deriving DecidableEq, Repr

/-- A fault-log entry (R541). -/
structure FaultEntry where
  source : Nat
  index : BitVec 32
  t : Time
  event : BitVec 16
  unit : BitVec 16
  detail : BitVec 32
  bootCnt : BitVec 32
deriving DecidableEq, Repr

/-- Retired units (R540). -/
structure Retired where
  pipes : BitVec 32
  engines : BitVec 32
  press : BitVec 32
  verniers : BitVec 8
  memStacks : BitVec 8
deriving DecidableEq, Repr

/-- Reset, boot and power registers, and the main non-volatile region. -/
structure Boot where
  inReset : Bool                  -- the main partition is in reset
  rstCause : Word
  bootStat : Word
  pwrStat : Word
  wake0 : Word
  wake1 : Word
  journal : List BootRec          -- newest first, at most 16
  retired : Retired
  faultLog : List FaultEntry      -- oldest first, at most 1,024
  faultIndex : BitVec 32
  bootCnt : BitVec 32
  rollback : Nat
  saved : Settings                -- CONFIG_SAVE
  savedImages : List Image
  savedNet : List Word            -- ETH_CFG of both ports
  hostAreaLog : Nat               -- log2 MiB, in force since B03
  thermalB01 : Nat                -- 0 passed, 1 HALTED, 2 no report
  standbyExit : Bool              -- the next main power-on start leaves deep standby (R548)
  standbyAt : Time                -- when DEEP_STANDBY was answered (R547)
  railsOff : Bool                 -- the main rails are out of range (R523)
  nvBad : Bool                    -- writes of the main non-volatile region fail (R465)
deriving DecidableEq, Repr

/-- The always-on island (R270, R525, R548, R550). -/
structure Aon where
  rtc : Time
  sealCnt : BitVec 16
  tamp0 : Bool
  tamp1 : Bool
  sealBrk : Bool
  sealBrkSince : Time
  vbatLow : Bool
  lost : Bool                     -- reset since the last B00
  untold : Bool                   -- B00 found it reset, and the Rind has still to record it (R550)
  pwrEnMain : Bool
  pwrEnRind : Bool
deriving DecidableEq, Repr

/-- The HD9624 as a block, and the queue of the commands that are waiting. -/
structure State where
  pending : List Instr
  out : List Output
  free : Nat                      -- the model's own counter for free values (log entry 4, DESIGN CHOICE)
  time : TimeSt
  glb : Glb
  ev : Events
  settings : Settings
  commits : List Commit
  sessions : Vector Session 4
  ports : Vector Port 24
  lanes : Vector Lane 96
  pipes : Vector Pipe 26
  sdc : Sdc
  shut : Vector Bool 16           -- safety groups that are shut down (R58)
  emOn : Vector Bool 128          -- EN bit of each emitter in the words last latched
  clk : Clocks
  tiu : Tiu
  axc1 : Axc1
  rind : Rind
  rindMain : RindMain
  engines : Vector Engine 32
  images : List Image
  loads : List (Nat × Image)      -- images being loaded, each with its TOTAL (R470)
  press : Vector PressLane 26
  jobs : List HostJob
  savedJobs : List SavedJob
  hostArea : Mem                  -- the host area of the Cave (R426)
  zones : List ZoneRt
  ladle : Ladle
  look : Lookback
  links : Links
  streams : Streams
  boot : Boot
  aon : Aon
deriving DecidableEq, Repr

/-! ### Reset -/

/-- A closed session. -/
def Session.reset : Session :=
  { isOpen := false, transport := .spi, timeout := 30, lastRx := 0, eventMask := 0, evSeq := 0, txn := none, nextTxn := 1,
    timedOut := [], kept := [], inProgress := none, waiting := [] }

/-- Slice corrections before B07 (log entry 6, DESIGN CHOICE). -/
def SliceCorr.reset : SliceCorr := { offset := 0, gain := 0, timing := 0 }

/-- A lane after reset: RXL_CTLn of R79, slices 0 to 7 in positions 0 to 7 and slice 8 the spare. -/
def Lane.reset (n : Nat) : Lane :=
  { ctl := if n % 2 = 0 then 0x000E4010 else 0x00064010, stat := 0x00000F00, trim := 0, qsk := 0, powered := false, starting := false,
    startUntil := 0, recovering := none, recUntil := 0, pDark := 0, slices := Vector.replicate 9 SliceCorr.reset,
    position := Vector.ofFn fun i => ⟨i.val, Nat.lt_trans i.isLt (by decide)⟩, spare := some 8,
    spareAt := [], failing := none, dead := [], spans := [], qcs := [], frame := [], suspects := [], tested := false }

/-- No sample. -/
def SampleSums.zero : SampleSums := { n := 0, sum := 0, sq := 0, lo := 0, hi := 0 }
/-- An estimate before its first sample. -/
def EstSums.zero : EstSums := { n := 0, si := 0, sq := 0, pi := 0, pq := 0, c := 0, ks := 0, kb := 0 }
/-- An accumulation before its first frame. -/
def Accum.zero : Accum :=
  { a := EstSums.zero, b := EstSums.zero, blk := (0, 0, 0), eligible := 0, overrange := 0, sliceI := List.replicate 8 SampleSums.zero
    sliceQ := List.replicate 8 SampleSums.zero }

/-- A calibrator that accumulates nothing. -/
def CalPair.reset : CalPair := { gen := 0, frames := 0, acc := Accum.zero, restart := true, stepped := false, targets := none, sliceTargets := [], holdFrames := 0 }

/-- Delay tracking with no anchor. -/
def DelaySt.reset : DelaySt :=
  { samples := [], lastEnd := none, flags := 0, recs := [], anchor := none,
    pendingAnchor := none, anchorSeq := 0, anchorRes := 0, inEpoch := false, slipCnt := 0,
    anchorAt := 0 }

/-- No delay phase yet. -/
def DelayPh.reset : DelayPh := { theta := [], ok := [], align := [], seed := [], bins := none }

/-- A port after reset (R100, R101, R140 to R144). -/
def Port.reset : Port :=
  { stat := 0, even := 0x0000001D, endR := 0, refR := 0, brk := 0, rxcCtl := 0x04062012, rxcWin := 0x01000050, rxcStat := 0, rxcKap := 0,
    gateOpen := false, gateUntil := 0, probeOn := false, probeFrom := 0, probeUntil := 0, probe := [], thermal := false, frameStart := none, frameNo := 0, plan := [], frozen := false, holdGate := false,
    reopen := false, resumePending := false, resetPending := false, epochPending := false, lockResume := false, redFrames := 0,
    restartGood := 0, noEvidence := 0, nfSum := 0, nfCount := 0, declared := false, failRun := 0, failPing := [], failProf := [],
    endDiff := 0, group0 := [], endFrame := 0, floor := [], groups := [], lastGamma := [], lastSense := none, lastValid := [], stepNext := false, pings := [], oldRun := none, later := none, gaugeNext := false, connectAt := 0,
    lastLaunch := 0, dark := .none, calX := CalPair.reset, calY := CalPair.reset, calSkip := false, delay := DelaySt.reset, dph := DelayPh.reset,
    droppedFrom := none, drops := [], spans := [] }

/-- A pipeline that serves no port (R106). -/
def Pipe.reset : Pipe := { src := 0, dropping := false }

/-- The chain after reset: EN 0, so SDC_LAT at its shutdown level (R66, R67, R571). -/
def Sdc.reset : Sdc :=
  { ctl := 0x00000400, stat := 0x00010000, raw := Vector.replicate 64 0, ovr := Vector.replicate 128 0, phase := .idle, seq := 0, sent := [],
    latched := [], status := [], ids := [], known := false, prevCount := none, clkInUse := 0, channel := 0,
    failedRun := 0, chainFailed := false, passes := 0, causeIntlk := false, causeAux := false, causeTemp := false,
    bootDiscovery := false, waitUntil := 0, hot := false, again := false, warned := false }

/-- Clocks after reset (R203 to R217). -/
def Clocks.reset : Clocks :=
  { ctl := 0x00000A08, stat := 0, fs := 0x00000FA0, ckg0 := 0x000007FF, ckg1 := 0x00FFFFFF, ckgStat := 0x00000004, settling := [], recovSince := 0, ramp := .none, rampAt := 0,
    fsWaiting := false, memLostAt := 0, fctl := 0x00001409, fstat := 0, fmlo := 0, frlo := 0, fhi := 0,
    spans := [], pace := Vector.replicate 96 0, paceRamp := Vector.replicate 96 false }

/-- Clocks of the model at reset. -/
def TimeSt.reset : TimeSt :=
  { mono := 0, dev := 0, devSet := false, rate := 0, locked := false, goodSince := none, offset := 0, masters := [], transmitter := none,
    receiving := false }

/-- A converter before B12. -/
def Conv.reset : Conv :=
  { calibrated := false, failures := 0, returning := false, a := { hits := [], offs := [] }, b := { hits := [], offs := [] } }
/-- The time-interval unit after reset (R243, R244). -/
def Tiu.reset : Tiu :=
  { ctl := 0x000003C1, stat := 0x00002400, conv := Vector.replicate 3 Conv.reset, nextUser := false, lastRotation := 0, rotatedAt := 0,
    lastTap := none, queue := [], run := none, holdSince := 0, refRun := 0, ppsRun := 0, ppsLast := none, ppsAt := 0, ppsNear := false,
    secondEdge := none, fit := none }

/-- AXC1 after reset (R309 to R314). -/
def Axc1.reset : Axc1 :=
  { ctl := 0x00000200, stat := 0, urgRes := 0, seq := Vector.ofFn fun i => BitVec.ofNat 32 (i.val + 0x400),
    lim := Vector.replicate 32 0xFFFF0000, res := Vector.replicate 32 0, urgQ := [], running := none, seqOn := false, entry := 0, ref := 0, startAt := 0,
    cycles := 0, pass := 0, urgRun := 0, lengthened := false, inside := Vector.replicate 32 false, invalid := false }

/-- An RTD channel at Rind start: in AUTO at range 0 (R294, R295). -/
def Rtd.reset : Rtd :=
  { state := .auto, range := 0, low := 0, good := 0, slot := 0, cleanProbes := 0, lead := none, leadCount := 0, xswap := false,
    rchg := false }

/-- AXC0 at Rind start. -/
def Axc0.reset : Axc0 :=
  { entry := 0, urgent := [], running := none, urgRun := 0, refSet := false, refSel := 1, recOwed := false, recNow := false, startAt := 0,
    rtd := Vector.replicate 16 Rtd.reset, sourceOk := Vector.replicate 4 true, pulsedSrc := 0, sineSrc := 1, cal := none }

/-- The Rind before its first power-on: UNSEALED, "the state in which every part ships" (R266). -/
def Rind.reset : Rind :=
  { powered := false, halted := false, time := 0, ticks := 0, timeUnset := true, sealSt := .unsealed, sealedDig := 0, sealedParamId := 0, params := [],
    inForce := [], front := [], paramId := 0xFA75304C, schedule := [], nextSchedule := none, step := 0, phase := .stopped, stepStart := 0,
    averagesDone := 0, avg := none, parked := Vector.replicate 4 false, oswPort := Vector.replicate 4 31, osw := 0x1F, tpg := false,
    chanSeq := Vector.replicate 4 0, work := [], endT := Vector.replicate 4 0, inhibit := true, inhibitOuter := true, holdUntil := 0,
    lastRelease := none, rpSeq := 0, unacked := [], wire := [], lineAt := 0, segs := 0, ackLate := false, ackWord := 0, ackAt := 0, sentAt := 0, annSeq := 0, annAcked := false, audit := [], auditCnt := 0,
    ackCnt := 0, refused := 0, windows := [], swVer := 0, swDig := 0, fwImage := [], fwTotal := 0, nextFw := none, nextFwVer := 0,
    request := none, slot := [], reply := [], timeWord := none, held := [], tag := 0, lastTag := 0, lastStatus := 0, sealCntRef := 0, seenSeal := false, axc0 := Axc0.reset,
    started := false }

/-- The main side's mirrors after reset (R278). -/
def RindMain.reset : RindMain :=
  { lastSeq := none, seen := [], stat := 0, audCnt := 0, ackCnt := 0, refused := 0, paramId := 0, swVer := 0, swDig0 := 0, swDig1 := 0, mbx := 0,
    sealCnt := 0, lastReading := [], newPorts := [], early := [] }

/-- An engine after reset: engines 0 to 27 IDLE, 28 to 31 in RESERVE once placed in service at boot; the register reads RESERVE (R351). -/
def Engine.reset : Engine :=
  { ctl := 0, stat := 0, fpc := 0, fop := 0, lastOp := 0, peakOp := 0, pc := 0, d := Vector.replicate 8 0, p := Vector.replicate 8 0,
    s := Vector.replicate 8 0, hb := Vector.replicate 4 0, hl := Vector.replicate 4 0, acc := 0, ovc := 0, maxv := 0, maxi := 0xFFFF, minv := 0,
    mini := 0xFFFF, mmcnt := 0, flags := 0, opc := 0, inv := 0, invNext := 0, winSize := Vector.replicate 4 0, calls := [], loops := [],
    code := [], dmem := [], win := Vector.replicate 4 [], transfers := [], stalledSince := none, stallTotal := 0, image := 0, budget := 0,
    waitLim := 0, outBytes := 0, stateBytes := 0, entry := 0, faultLim := 4, faultsInRow := 0, zone := none, inst := 0, input := [],
    current := none, blockSeq := 0, nextImage := none, lastMem := none }

/-- A Press lane after reset (R407 to R409). -/
def PressLane.reset : PressLane :=
  { ctl := 0x00000009, stat := 0, inR := 0, outR := 0, rawCnt := 0, blocks := [], inRem := 0, outRem := 0 }

/-- An empty placement. -/
def Placement.reset : Placement := { pipes := [], insts := [], press := [], cave := [], links := [], rings := [] }

/-- The Ladle after reset (R378 to R380). -/
def Ladle.reset : Ladle :=
  { stat := 0x00541C00, aged := 0, wear := Vector.replicate 94 0x00060000, place := Placement.reset, placeGen := 0, migrations := [],
    shed := [], shedPorts := [], tests := [], testAges := [], tested := [], moved := [], lost := [], drift := Vector.replicate 94 [], overflow := 0, memFault := false }

/-- Lookback with nothing captured. -/
def Lookback.reset : Lookback :=
  { trig := Vector.replicate 16 { last := none, ignored := 0, failed := 0, timeDone := false }, due := [], captures := [],
    nextCapture := 1, rawSince := Vector.replicate 24 none, rawShrunk := Vector.replicate 24 0, histGap := [], planChg := [], reserveUsed := 0,
    jobs := [], launches := Vector.replicate 24 [], raw := Vector.replicate 24 [] }

/-- A command ring pair after reset (R506). -/
def CmdRing.reset (n : Nat) : CmdRing :=
  { rbaseLo := 0, rbaseHi := 0, rsize := 0x010, rhead := 0, rtail := 0, stat := 0, ctl := BitVec.ofNat 32 (n * 256), busy := 0, waiting := [],
    slots := [], req := [] }

/-- A stream ring after reset (R506). -/
def StreamRing.reset (n : Nat) : StreamRing :=
  { baseLo := 0, baseHi := 0, size := 0x40, head := 0, tail := 0, ctl := BitVec.ofNat 32 ((4 + n) * 256), descs := [], starved := none, modHeld := false, lastMsix := 0 }

/-- An Ethernet port after reset (R510). -/
def Eth.reset : Eth :=
  { macLo := 0, macHi := 0, ip := Vector.replicate 4 0, dst := Vector.replicate 4 0, gw := Vector.replicate 4 0, ports := 0xA001A000,
    link := 0x08002328, stat := 0, rxdrop := 0, resolved := none, neighbours := [], pausedSince := 0, pauseAt := 0, pauseQuanta := 0,
    pauseFail := false, downSince := 0, unresSince := 0, goodSince := none, moved := [] }

/-- The links after reset: all down. -/
def Links.reset : Links :=
  { pcieWidth := 0, pcieRate := 0, pcieDegraded := false, cr := Vector.ofFn fun i => CmdRing.reset i.val,
    sr := Vector.ofFn fun i => StreamRing.reset i.val, eth := Vector.replicate 2 Eth.reset, tportUp := false, spiWaiting := [], i2cError := false, corrected := [],
    msixTable := Vector.replicate 256 #v[0, 0, 0, 1], msixEnable := false, msixFuncMask := false, pba := 0, scan := .bypass,
    scanPins := .functional, rindPins := .functional, resetFlags := [], owed := [] }

/-- Global registers at main power-on reset (R490). -/
def Glb.reset : Glb :=
  { variantM := false, uid := 0, fwver := 0, stat := 0, mepoch := 0, hzCnt := 0, accErr := 0, accAddr := 0, scratch := 0, time0 := 0, time1 := 0,
    time2 := 0, aonStat := 0, lastSlow := 0, lastRefresh := 0, slowBack := none }

/-- The event block after reset (R493): VECTOR n, MSIX 1. -/
def Events.reset : Events :=
  { pend := 0, en := 0, cfg := Vector.ofFn fun i => { vector := BitVec.ofNat 8 i.val, msix := true, packet := false, count := 0 },
    tEvent := Vector.replicate 256 0, clearAt := [], seq := 0 }

/-- No unit retired. -/
def Retired.reset : Retired := { pipes := 0, engines := 0, press := 0, verniers := 0, memStacks := 0 }

/-- Boot and power state at main power-on reset (R526, R542, R551). -/
def Boot.reset : Boot :=
  { inReset := true, rstCause := 1, bootStat := 0, pwrStat := 0, wake0 := 0, wake1 := 0, journal := [], retired := Retired.reset, faultLog := [],
    faultIndex := 0, bootCnt := 0, rollback := 0, saved := [], savedImages := [], savedNet := [], hostAreaLog := 10, thermalB01 := 2,
    standbyExit := false, standbyAt := 0, railsOff := false, nvBad := false }

/-- The always-on island after VBAT power-on. -/
def Aon.reset : Aon :=
  { rtc := 0, sealCnt := 0, tamp0 := false, tamp1 := false, sealBrk := false, sealBrkSince := 0, vbatLow := false, lost := true, untold := false, pwrEnMain := true,
    pwrEnRind := true }

/-- The HD9624 right after main power-on reset, before its boot: every register at the value its table gives. -/
def State.reset : State :=
  { pending := [], out := [], free := 0, time := TimeSt.reset, glb := Glb.reset, ev := Events.reset, settings := [], commits := [],
    sessions := Vector.replicate 4 Session.reset, ports := Vector.replicate 24 Port.reset, lanes := Vector.ofFn fun i => Lane.reset i.val,
    pipes := Vector.replicate 26 Pipe.reset, sdc := Sdc.reset, shut := Vector.replicate 16 false, emOn := Vector.replicate 128 false,
    clk := Clocks.reset, tiu := Tiu.reset, axc1 := Axc1.reset, rind := Rind.reset, rindMain := RindMain.reset,
    engines := Vector.replicate 32 Engine.reset, images := [], loads := [], press := Vector.replicate 26 PressLane.reset,
    jobs := [], savedJobs := [], hostArea := [], zones := [], ladle := Ladle.reset, look := Lookback.reset, links := Links.reset,
    streams := { seq := [], queue := [], wheySeq := 0 }, boot := Boot.reset, aon := Aon.reset }

end Sys2Proof.Machine
end

