-- ==== Sys2Proof/Machine/Bits.lean ====
section
/-! DEFINITION. Bit fields, byte order (R4), signed values (R5), time stamps (R6), rounding and the two CRCs (R47, R573). -/

namespace Sys2Proof.Machine

/-- Field of `len` bits from bit `lo` of a register, as a number. -/
def fld (w : Word) (lo len : Nat) : Nat := w.toNat / 2 ^ lo % 2 ^ len

/-- `w` with the `len` bits from bit `lo` replaced by `v`. -/
def setFld (w : Word) (lo len v : Nat) : Word :=
  BitVec.ofNat 32 (w.toNat - fld w lo len * 2 ^ lo + v % 2 ^ len * 2 ^ lo)

/-- Bit `i` of a register. -/
def bit (w : Word) (i : Nat) : Bool := w.getLsbD i

/-- `w` with bit `i` made `b`. -/
def putBit (w : Word) (i : Nat) (b : Bool) : Word :=
  if b then w ||| (1#32 <<< i) else w &&& ~~~(1#32 <<< i)

/-- `w` with bit `i` made 1. -/
def setBit (w : Word) (i : Nat) : Word := w ||| (1#32 <<< i)
/-- `w` with bit `i` made 0. -/
def clrBit (w : Word) (i : Nat) : Word := w &&& ~~~(1#32 <<< i)

/-- Puts an element before the first one that it does not follow. -/
def insertSorted {α : Type} (le : α → α → Bool) (x : α) : List α → List α
  | [] => [x]
  | y :: ys => if le x y then x :: y :: ys else y :: insertSorted le x ys
/-- A list in order; equal elements keep theirs. -/
def sortList {α : Type} (le : α → α → Bool) : List α → List α
  | [] => []
  | x :: xs => insertSorted le x (sortList le xs)

/-- The number 1 for true. -/
def b01 (b : Bool) : Nat := if b then 1 else 0

/-- `n` bytes of a number, little-endian (R4). -/
def le : Nat → Nat → List Byte
  | 0, _ => []
  | n + 1, v => BitVec.ofNat 8 v :: le n (v / 256)

/-- `n` bytes of a signed number, two's complement (R5). -/
def leI (n : Nat) (v : Int) : List Byte := le n (v % (2 ^ (8 * n) : Int)).toNat

/-- The number that little-endian bytes spell. -/
def unle : List Byte → Nat
  | [] => 0
  | b :: bs => b.toNat + 256 * unle bs

/-- A number of `n` bits read as signed. -/
def signed (n v : Nat) : Int := if v % 2 ^ n < 2 ^ (n - 1) then (v % 2 ^ n : Nat) else (v % 2 ^ n : Nat) - (2 ^ n : Int)

/-- A value as signed 32 bits. -/
def wrap32 (v : Int) : Int := signed 32 (v % 2 ^ 32).toNat
/-- A value as signed 16 bits. -/
def wrap16 (v : Int) : Int := signed 16 (v % 2 ^ 16).toNat

/-- Signed number that little-endian bytes spell. -/
def unleI (bs : List Byte) : Int := signed (8 * bs.length) (unle bs)

/-- Zero bytes. -/
def zeros (n : Nat) : List Byte := List.replicate n 0

/-- `len` bytes from offset `off`, zero past the end. -/
def cut (bs : List Byte) (off len : Nat) : List Byte :=
  let t := (bs.drop off).take len
  t ++ zeros (len - t.length)

/-- The number at offset `off`, `len` bytes. -/
def rd (bs : List Byte) (off len : Nat) : Nat := unle (cut bs off len)

/-- Zero padding up to a multiple of `m`. -/
def padTo (m : Nat) (bs : List Byte) : List Byte := bs ++ zeros ((m - bs.length % m) % m)

/-- Bytes of a number given as a BitVec. -/
def leW (w : Word) : List Byte := le 4 w.toNat

/-! ### Time (R6, R7) -/

/-- Time units in one nanosecond. -/
def ns : Nat := 65536
/-- Time units in one microsecond. -/
def us : Nat := 65536000
/-- Time units in one millisecond. -/
def ms : Nat := 65536000000
/-- Time units in one second. -/
def sec : Nat := 65536000000000

/-- A time as the 96-bit number of R6. -/
def stamp96 (t : Time) : Nat := t / sec * 2 ^ 48 + t % sec
/-- A time stamp, 12 bytes (R6). -/
def stampB (t : Time) : List Byte := le 12 (stamp96 t)
/-- The time that a 96-bit stamp spells. -/
def unstamp (v : Nat) : Time := v / 2 ^ 48 * sec + v % 2 ^ 48
/-- Whether a stamp's nanoseconds are within R7. -/
def stampOk (v : Nat) : Bool := v / 65536 % 2 ^ 32 ≤ 999999999

/-! ### Arithmetic -/

/-- Quotient rounded half away from zero (R55). -/
def divAway (a b : Int) : Int :=
  if b = 0 then 0 else
  let q := (2 * a.natAbs + b.natAbs) / (2 * b.natAbs)
  if (a < 0) = (b < 0) then q else -(q : Int)

/-- a / b rounded to nearest, halves to even (convergent rounding, R151), for b > 0. -/
def divEven (a : Int) (b : Nat) : Int :=
  let q := a / (b : Int)
  let r := a % (b : Int)
  if 2 * r < b then q else if 2 * r > b then q + 1 else if q % 2 = 0 then q else q + 1

/-- a / 2^n rounded to nearest, halves upwards. -/
def shrRound (a : Int) (n : Nat) : Int := (a + (2 ^ n : Int) / 2) / (2 ^ n : Int)

/-- A number held within n-bit two's complement. -/
def satS (n : Nat) (v : Int) : Int := max (-(2 ^ (n - 1) : Int)) (min (2 ^ (n - 1) - 1 : Int) v)

/-- ceil(a / b), 0 when b is 0. -/
def ceilDiv (a b : Nat) : Nat := if b = 0 then 0 else (a + b - 1) / b

/-- Saturating increment of a field of a register. -/
def bumpFld (w : Word) (lo len : Nat) : Word :=
  setFld w lo len (min (fld w lo len + 1) (2 ^ len - 1))

/-! ### CRCs -/

/-- One bit of CRC-8 with polynomial 0x07, most significant bit first (R47). -/
def crc8Bit (c : Nat) : Nat := if 128 ≤ c then (2 * c % 256) ^^^ 7 else 2 * c

/-- CRC-8 over bytes, most significant first, from 0 (R47). -/
def crc8 (bs : List Nat) : Nat :=
  bs.foldl (fun c b => crc8Bit (crc8Bit (crc8Bit (crc8Bit (crc8Bit (crc8Bit (crc8Bit (crc8Bit (c ^^^ b))))))))) 0

/-- One bit of CRC-32, reflected polynomial 0xEDB88320 (R573). -/
def crc32Bit (c : Nat) : Nat := if c % 2 = 1 then (c / 2) ^^^ 0xEDB88320 else c / 2

/-- CRC-32 over bytes (R250, R573): reflected, initial and final XOR with ones. -/
def crc32 (bs : List Byte) : Nat :=
  (bs.foldl (fun c b => crc32Bit (crc32Bit (crc32Bit (crc32Bit (crc32Bit (crc32Bit (crc32Bit (crc32Bit (c ^^^ b.toNat)))))))))
    0xFFFFFFFF) ^^^ 0xFFFFFFFF

/-! ### Lists -/

/-- A list's entry or a default. -/
def nth {α : Type} (l : List α) (i : Nat) (d : α) : α := l.getD i d

/-- A list with one entry replaced. -/
def listSet {α : Type} (l : List α) (i : Nat) (a : α) : List α := l.set i a

/-- Value of the first pair whose key fits. -/
def assoc {β : Type} (l : List (Nat × β)) (k : Nat) : Option β := (l.find? (fun p => p.1 == k)).map (·.2)

/-- Pairs with the value of a key replaced or added at the end. -/
def assocSet {β : Type} (l : List (Nat × β)) (k : Nat) (v : β) : List (Nat × β) :=
  if l.any (fun p => p.1 == k) then l.map (fun p => if p.1 == k then (k, v) else p) else l ++ [(k, v)]

/-- Sum of integers. -/
def isum (l : List Int) : Int := l.foldl (· + ·) 0

end Sys2Proof.Machine
end

