-- ==== Sys2Proof/Machine/Params.lean ====
section
/-! DEFINITION. The parameters of R444 and R445: layout, range, refusal and default of each code, and the codes that each opcode takes. -/

namespace Sys2Proof.Machine

/-- Layout of an item's value (R443). -/
inductive Layout where
  /-- `n` integers in one equal width of 1, 2, 4 or 8 bytes. -/
  | flex (n : Nat) (sgn : Bool)
  /-- Members of the listed byte sizes, then reserved zero bytes. -/
  | fixed (sizes : List Nat) (reserved : Nat)
  /-- A time stamp of R6. -/
  | stamp
  /-- AMPS: 1 to 16 values of 2 bytes. -/
  | amps
  /-- DATA: OFFSET, TOTAL, then bytes. -/
  | piece
  /-- Plain bytes. -/
  | raw (n : Nat)
deriving DecidableEq, Repr

/-- A parameter: layout, receipt-time range of its members, refusal, default. -/
structure Param where
  layout : Layout
  ok : List Int → Bool
  st : Status
  dflt : Option (List Int)

/-- A parameter of one integer with a range and a default. -/
def Param.one (lo hi : Int) (st : Status) (d : Option Int) : Param :=
  { layout := .flex 1 false, ok := fun v => v.all fun x => lo ≤ x && x ≤ hi, st := st, dflt := d.map fun x => [x] }

/-- A signed parameter of one integer. -/
def Param.sint (lo hi : Int) (st : Status) (d : Option Int) : Param :=
  { layout := .flex 1 true, ok := fun v => v.all fun x => lo ≤ x && x ≤ hi, st := st, dflt := d.map fun x => [x] }

/-- Several integers of one width, one range for all. -/
def Param.many (n : Nat) (lo hi : Int) (st : Status) (d : Option (List Int)) : Param :=
  { layout := .flex n false, ok := fun v => v.all fun x => lo ≤ x && x ≤ hi, st := st, dflt := d }

/-- A parameter whose values are listed. -/
def Param.enum (vs : List Int) (st : Status) (d : Option Int) : Param :=
  { layout := .flex 1 false, ok := fun v => v.all fun x => vs.contains x, st := st, dflt := d.map fun x => [x] }

/-- A fixed-layout item with a check. -/
def Param.lay (sizes : List Nat) (res : Nat) (ok : List Int → Bool) (st : Status) (d : Option (List Int)) : Param :=
  { layout := .fixed sizes res, ok := ok, st := st, dflt := d }

/-- An unsigned 32-bit bound. -/
def u32max : Int := 0xFFFFFFFF

/-- Tone plan, R32. -/
def paramPlan : Nat → Option Param
  | 1 => some (.one 1 16 0x0203 none)               -- G
  | 2 => some (.one 1 16 0x0203 none)               -- D
  | 3 => some (.one 4 64 0x0208 none)               -- N_BIN
  | 4 => some (.one 0 1 0x0209 none)                -- SHAPE
  | 5 => some (.one 64 16384 0x0209 none)           -- T_DUR (R572)
  | 6 => some (.one 1024 2097152 0x0207 none)       -- S
  | 7 => some (.sint (-32768) 32767 0x0204 (some 0)) -- F_OFF
  | 8 => some (.one 100 160000 0x0205 none)         -- FIBRE_LEN
  | 9 => some (.one 14000 15000 0x0202 (some 14682)) -- N_G
  | 10 => some (.one 0 80 0x0202 (some 0))          -- PROBE_DELAY
  | 11 => some (.one 0 200 0x0202 (some 8))         -- GATE_TRAIL
  | _ => none

/-- Phase engine, R129; ranges that involve N_BINS are checked at commit. -/
def paramPhase : Nat → Option Param
  | 1 => some (.one 1 256 0x0212 (some 10))         -- GAUGE
  | 2 => some (.one 32768 65536 0x0202 (some 51118)) -- XI
  | 3 => some (.one 2 256 0x0202 (some 16))         -- FADE_DIV
  | 4 => some (.one 4096 32767 0x0202 (some 24576)) -- SLEW_LIM
  | 5 => some (.one 6 14 0x0202 (some 10))          -- ALIGN
  | 6 => some (.one 0 u32max 0x0213 (some 0))       -- FIRST_DB
  | 7 => some (.one 0 u32max 0x0213 (some 0))       -- LAST_DB
  | _ => none

/-- Filter chain, R146. -/
def paramFilter : Nat → Option Param
  | 1 => some (.one 0 1 0x0214 (some 1))            -- RATE_MODE
  | 2 => some (.one 10 100000 0x0214 (some 1000))   -- F_OUT
  | 3 => some (.one 0 1 0x0214 (some 0))            -- FLAGW
  | 4 => some (.one 0 8 0x0214 (some 0))            -- OUT_GAIN
  | 5 => some (.one 0 4 0x0215 (some 0))            -- N_BANDS
  | 6 => some (.enum [1, 2, 5, 10, 20, 50, 100, 200] 0x0215 (some 10))  -- F_FEAT
  | 7 => some (.many 2 0 u32max 0x0215 none)        -- F_LO_k, F_HI_k
  | _ => none

/-- 10^-4 Np/m in units of 2^-32 Np/m. -/
def daMax : Int := 429496

/-- Thermal path, R172. -/
def paramThermal : Nat → Option Param
  | 1 => some (.one 1 10 0x0216 (some 5))           -- TPW
  | 2 => some (.one 4096 8388608 0x0216 (some 78125)) -- SHOT_PER
  | 3 => some { Param.one 1024 131072 0x0216 (some 75776) with
          ok := fun v => v.all fun x => 1024 ≤ x && x ≤ 131072 && x % 1024 == 0 }  -- TRACE_LEN
  | 4 => some (.one 256 16777216 0x0216 (some 65536)) -- N_SHOT
  | 5 => some (.enum [1, 2, 4, 8] 0x0216 (some 1))  -- COMBINE
  | 6 => some (.one 14000 15000 0x0216 (some 14682)) -- N_G_T
  | 7 => some (.one 26214400 58982400 0x0216 none)  -- GAMMA, 400 to 900 K
  | 8 => some (.one 1 1000 0x0216 (some 20))        -- SW_SETTLE
  | 9 => some (.one 26 1280 0x0216 (some 128))      -- COIL_TOL
  | 10 => some (.one 13 16384 0x0216 (some 128))    -- SIG_MIN
  | 11 => some (.one 0 256 0x0216 (some 128))       -- MIN_FRAC
  | 12 => some (.one 10 10000 0x0216 (some 100))    -- INH_HOLD
  | 13 => some (.many 2 0 131071 0x0216 none)       -- Z_C1S, Z_C1E
  | 14 => some (.many 2 0 131071 0x0216 (some [0, 0]))  -- Z_C2S, Z_C2E
  | 15 => some (.one 0 u32max 0x0216 none)          -- Z_F
  | 16 => some (.many 2 0 15 0x0216 none)           -- RC_C1, RC_C2 (default depends on the channel)
  | 17 => some (.one 0 daMax 0x0216 none)           -- DA_CH
  | 18 => some (.one 100 214000 0x0216 none)        -- L_T
  | 19 => some (.one 0 daMax 0x0216 none)           -- DA_P
  | 20 => some (.sint (-8388608) 8388608 0x0216 (some 0))  -- DK_P
  | _ => none

/-- Delay tracking, R237. -/
def paramDelay : Nat → Option Param
  | 1 => some (.one 0 1 0x0219 (some 0))            -- ANCHOR_SRC
  | 2 => some (.many 2 0 7 0x0219 none)             -- A_START, A_STOP
  | 3 => some (.one 0 1 0x0219 (some 1))            -- ROUNDTRIP
  | 4 => some (.sint (-65536000000) 65536000000 0x0219 (some 0))  -- A_OFFSET
  | 5 => some (.one 1 65536 0x0219 (some 1024))     -- A_N
  | 6 => some (.one 1 100000 0x0219 (some 1100))    -- A_WIN
  | 7 => some (.one 0 86400 0x0219 (some 60))       -- ANCHOR_PER
  | 8 => some (.enum [1, 10, 100, 1000] 0x0219 (some 10))  -- F_DREC
  | 9 => some (.one 58983 72089 0x0219 (some 65536)) -- K_PG
  | _ => none

/-- Measurement, R229. -/
def paramMeas : Nat → Option Param
  | 1 => some (.one 0 2 0x0219 none)                -- MODE
  | 2 => some (.many 2 0 11 0x0219 none)            -- SRC_A, SRC_B
  | 3 => some (.many 2 0 1 0x0219 (some [0, 0]))    -- EDGE_A, EDGE_B
  | 4 => some { Param.many 2 1 64 0x0219 (some [1, 1]) with ok := fun v => v.all fun x => [1, 4, 16, 64].contains x }  -- PRESC_A, PRESC_B
  | 5 => some (.one 0 2 0x0219 none)                -- ARM
  | 6 => some (.one 0 1 0x0219 none)                -- GATE
  | 7 => some (.many 2 100 1000000000000 0x0219 none)  -- GATE_T, WIN_LEN
  | 8 => some { layout := .stamp, ok := fun v => v.all fun x => stampOk x.toNat, st := 0x0219, dflt := none }  -- WIN_OPEN
  | 9 => some (.one 0 1000000 0x0219 none)          -- ARM_TO
  | 10 => some (.one 0 1 0x0219 (some 1))           -- FALLBACK
  | 11 => some (.one 1 1000000000 0x0219 (some 1000000))  -- MAX_INT
  | 12 => some (.one 1 1048576 0x0219 (some 1))     -- K
  | 13 => some (.one 1 65536 0x0219 none)           -- N_MAX
  | 14 => some (.sint (-65536000000) 65536000000 0x0219 (some 0))  -- OFFSET
  | 15 => some (.one 0 1 0x0219 (some 0))           -- STREAM
  | _ => none

/-- Zone recipe, R354 (PRODUCTS, ROUTE, CLASS, DROP and COMPRESS as R444 codes them). -/
def paramZone : Nat → Option Param
  | 1 => some (.one 0 23 0x021E none)               -- PORT
  | 2 => some (.many 2 0 u32max 0x021F none)        -- FIRST_POINT, LAST_POINT
  | 3 => some { Param.one 1 47 0x021E none with ok := fun v => v.all fun x => 1 ≤ x && x ≤ 47 && x / 16 % 2 == 0 }  -- PRODUCTS
  | 5 => some (.one 0 u32max 0x021E (some 0))       -- PROGRAM
  | 6 => some (.one 1 65535 0x021E none)            -- INST_POINTS (default all points)
  | 7 => some (.one 0 1 0x021E (some 0))            -- COMPRESS
  | 8 => some (.one 0 10000 0x021E (some 0))        -- LB_DEPTH
  | 9 => some (.one 1 3 0x021E (some 1))            -- ROUTE
  | 10 => some (.one 1 2 0x021E (some 1))           -- CLASS
  | 11 => some (.one 0 2 0x021E (some 0))           -- DROP
  | 12 => some (.one 1 10000 0x021E (some 100))     -- HOST_TO
  | 13 => some { Param.one 0 0 0x021E (some 8388608) with
          ok := fun v => v.all fun x => 2097152 ≤ x && x ≤ 1073741824 && x % 2097152 == 0 }  -- STAGE_BYTES
  | _ => none

/-- Press, R386. -/
def paramPress : Nat → Option Param
  | 1 => some (.many 4 0 4 0x021E (some [2, 4, 1, 4]))  -- PRED_SR, PRED_ST, PRED_AM, PRED_BF
  | 2 => some (.one 0 1 0x021E (some 1))            -- DYNAMIC
  | 3 => some (.one 1 4096 0x021E (some 32))        -- DEPTH
  | 4 => some (.one 0 1 0x021E (some 0))            -- LAZY
  | 5 => some (.one 1 32 0x021E (some 32))          -- WIN_KIB
  | 6 => some (.one 4 64 0x021E (some 64))          -- SUB_KIB
  | 7 => some (.one 0 1 0x021E (some 1))            -- SHUFFLE
  | 8 => some (.one 0 65535 0x021E (some 0))        -- B_ROWS
  | _ => none

/-- A sequence entry of R292: SRC 21 to 31, NOTCH 0b11, REF 0b11 and IEXC above 5 are refused. -/
def entryOk (v : Nat) : Bool :=
  v % 32 ≤ 20 && v / 256 % 4 ≠ 3 && v / 1024 % 4 ≠ 3 && v / 4096 % 16 ≤ 5 && v < 2 ^ 32

/-- Reference front end, R293. -/
def paramFront : Nat → Option Param
  | 1 => some { layout := .flex 1 false, ok := fun v => v.all fun x => entryOk x.toNat, st := 0x021B, dflt := none }  -- AXC0_SEQn
  | 2 => some (.one 655360 1310720000 0x021B (some 26214400))  -- R_REF_NOM
  | 3 => some (.enum [40, 80, 160, 320] 0x021B (some 160))     -- F_SINE
  | 4 => some (.one 0 1 0x021B (some 1))            -- CHOP
  | 5 => some (.one 1 7 0x021B (some 4))            -- URG_MAX0
  | 6 => some (.one 2 4 0x021B (some 4))            -- WIRING
  | 7 => some (.one 0 6553600 0x021B (some 0))      -- LEAD_FIX
  | 8 => some (.one 256 65280 0x021B (some 12800))  -- LEAD_MAX
  | 9 => some (.one 655360 655360000 0x021B (some 6553600))  -- R_NOM
  | 10 => some (.many 3 0 u32max 0x021B (some [0x3B801132, 0xB51B057F, 0xAC932D1D]))  -- CVD_A, CVD_B, CVD_C
  | _ => none

/-- Binning record, R569. -/
def paramBin : Nat → Option Param
  | 1 => some (.one 400000 2000000 0x0202 none)     -- LAMBDA0
  | 2 => some (.many 2 0 65535 0x0202 none)         -- BIAS0, TEC0
  | 3 => some (.sint (-2147483648) 2147483647 0x0202 none)  -- K_T
  | 4 => some (.sint (-2147483648) 2147483647 0x0202 none)  -- K_I
  | 5 => some (.many 4 0 65535 0x0202 none)         -- BIAS_MIN, BIAS_MAX, TEC_MIN, TEC_MAX
  | 6 => some (.one 0 65535 0x0202 none)            -- BIAS_RED
  | _ => none

/-- Servo, R515. -/
def paramServo : Nat → Option Param
  | 1 => some (.one 0 2 0x0219 (some 1))            -- SRC
  | 2 => some (.one 0 255 0x0219 (some 0))          -- DOMAIN
  | 3 => some (.one 0 2 0x0219 (some 0))            -- TRANSPORT
  | 4 => some (.one 0 1 0x0219 (some 1))            -- PROFILE
  | 5 => some (.sint (-65536000000) 65536000000 0x0219 (some 0))  -- ASYM
  | 6 => some (.one 10 1000000000 0x0219 (some 1000))  -- STEP_THR
  | 7 => some (.one 1 1000 0x0219 (some 100))       -- BW
  | _ => none

/-- CLK_CTL as an item: its reserved bytes are those of bits 31:16 (R203). -/
def clkCtlOk (v : Nat) : Bool := v % 8 ≤ 3 && v / 256 % 256 ≠ 0
/-- RXC_CTL as an item (R100). -/
def rxcCtlOk (v : Nat) : Bool :=
  v % 4 ≠ 3 && v / 4 % 64 ≠ 0 && 2 ≤ v / 256 % 256 && v / 256 % 2 == 0 && v / 256 % 256 ≤ 254 && 4 ≤ v / 65536 % 16 &&
    v / 65536 % 16 ≤ 10 && v / 16777216 % 256 ≠ 0

/-- TRIG (R431): SOURCE, SECTIONS, PRE, POST, HOLDOFF, DETAIL, T_AT. -/
def trigOk (v : List Int) : Bool :=
  match v with
  | [src, secs, pre, post, ho, det, t] =>
    src ≤ 3 && 1 ≤ secs && secs ≤ 3 && pre ≤ 2200 && post ≤ 2200 && 1 ≤ ho && ho ≤ 3600 &&
      (src ≠ 1 || det ≤ 255) && (src ≠ 3 || stampOk t.toNat)
  | _ => false

/-- PIN: KIND 1 to 4, and its UNIT (a pipeline, engine or lane index, or the LINKS mask; 0xFF removes). -/
def pinOk (v : List Int) : Bool :=
  match v with
  | [kind, _, u] =>
    1 ≤ kind && kind ≤ 4 &&
      (u == 255 || (kind == 2 && u ≤ 31) || ((kind == 1 || kind == 3) && u ≤ 25) || (kind == 4 && 1 ≤ u && u ≤ 7))
  | _ => false

/-- UNIT: KIND 1 to 5 and an index that exists. -/
def unitOk (v : List Int) : Bool :=
  match v with
  | [kind, i] =>
    (kind == 1 && i ≤ 25) || (kind == 2 && i ≤ 31) || (kind == 3 && i ≤ 25) || (kind == 4 && i ≤ 95) || (kind == 5 && i ≤ 2)
  | _ => false

/-- STEP (R167): each channel names a port 0 to 23 or 31 for park. -/
def stepOk (v : List Int) : Bool :=
  match v with
  | [i, a, b, c, d, _] => i ≤ 31 && [a, b, c, d].all fun p => p ≤ 23 || p == 31
  | _ => false

/-- WEAR (R366). -/
def wearOk (v : List Int) : Bool :=
  match v with
  | [w, r] => 41 ≤ w && w ≤ 410 && w < r && r ≤ 410
  | _ => false

/-- Any value. -/
def anyOk (_ : List Int) : Bool := true

/-- The codes of R445 that carry values. -/
def paramOther : Nat → Option Param
  | 0x0102 => some (.one 0 4095 0x0202 none)        -- ZONE as a trigger's zone
  | 0x0105 => some (.one 0 15 0x0202 (some 0))      -- GROUP
  | 0x0201 => some (.one 0 15 0x0202 (some 0))      -- MODES
  | 0x0202 => some (.one 1 2200 0x0202 none)        -- RAW_DEPTH (R428)
  | 0x0203 => some { layout := .amps, ok := fun v => v.all fun x => x ≤ 511, st := 0x0202, dflt := none }
  | 0x0204 => some (.one 0 65535 0x0202 (some 0))   -- DIR_MASK
  | 0x0205 => some (.one 0 3 0x0202 none)           -- ROLE
  | 0x0206 => some { Param.one 0 255 0x0202 none with ok := fun v => v.all fun x => x ≤ 23 || x == 255 }  -- SERVES
  | 0x0207 => some (.one 0 u32max 0x0202 none)      -- LAMBDA_T
  | 0x0208 => some (.one 0 u32max 0x0202 (some 16)) -- NF_START
  | 0x0209 => some (.one 0 u32max 0x0202 (some 64)) -- NF_ABS
  | 0x020A => some (.one 0 1 0x0202 (some 0))       -- AUTO_RESTART
  | 0x020B => some (.one 3200 5000 0x0218 (some 4000))  -- FS_N
  | 0x020C => some (.lay [2] 2 (fun v => v.all fun x => clkCtlOk x.toNat) 0x0202 (some [0x0A08]))
  | 0x020D => some (.lay [2] 2 anyOk 0x0202 (some [0x03C1]))
  | 0x020E => some (.lay [4] 0 (fun v => v.all fun x => rxcCtlOk x.toNat) 0x0202 (some [0x04062012]))
  | 0x020F => some (.lay [4] 0 anyOk 0x0202 (some [0x01000050]))
  | 0x0210 => some (.lay [2, 2, 2] 0 (fun v => v.all fun x => 1 ≤ x && x ≤ 10000) 0x021E (some [1000, 100, 10]))  -- AGE
  | 0x0211 => some (.one 1 1000 0x021E (some 50))   -- PAUSE_LIM
  | 0x0212 => some (.one 1 3600 0x021E (some 60))   -- MIG_HOLD
  | 0x0213 => some (.lay [2, 2] 0 wearOk 0x021E (some [123, 205]))  -- WEAR
  | 0x0214 => some (.one 0 2048 0x021E (some 512))  -- POOL
  | 0x0215 => some (.one 0 4096 0x021E (some 512))  -- LB_RESERVE
  | 0x0216 => some (.one 8 13 0x021E (some 10))     -- HOST_AREA
  | 0x0217 => some (.one 0 86400 0x021E (some 3600)) -- CAP_HOLD
  | 0x0218 => some (.one 0 4 0x021E none)           -- VAT_RESERVE
  | 0x0219 => some (.lay [1, 2, 1] 0 pinOk 0x0202 none)
  | 0x021A => some (.lay [1, 1] 0 unitOk 0x0202 none)
  | 0x021B => some (.lay [1, 1, 1, 1, 1, 1] 2 stepOk 0x0202 none)
  | 0x021C => some (.lay [1, 1, 2, 2, 2, 4, 12] 0 trigOk 0x0222 none)
  | 0x021D => some (.one 0 u32max 0x0202 none)      -- IMAGE_ID
  | 0x021E => some { layout := .piece, ok := anyOk, st := 0x0202, dflt := none }
  | 0x021F => some { layout := .raw 64, ok := anyOk, st := 0x0202, dflt := none }
  | 0x0220 => some (.one 1 600 0x0202 (some 10))    -- TXN_TO
  | 0x0221 => some (.one 1 3600 0x0202 (some 30))   -- SESSION_TO
  | 0x0222 => some { layout := .raw 32, ok := anyOk, st := 0x0202, dflt := none }
  | 0x0223 => some (.lay [1, 1] 0 (fun v => match v with | [s, r] => s ≤ 2 && 1 ≤ r && r ≤ 3 | _ => false) 0x0202 none)
  | 0x0224 => some (.lay [4, 8] 0 anyOk 0x0202 none)
  | 0x0225 => some (.lay [4, 4] 0 anyOk 0x021B none)
  | 0x0226 => some (.one 0 u32max 0x0202 none)      -- FROM
  | 0x0227 => some (.one 0 u32max 0x0202 none)      -- CAPTURE
  | 0x0228 => some (.lay [1, 1] 2 (fun v => match v with | [s, p] => (s == 1 || s == 2) && 1 ≤ p && p ≤ 7 | _ => false) 0x0222 none)
  | 0x0229 => some (.one 0 255 0x0202 none)         -- POWER_STATE (checked by its rule)
  | 0x022A => some (.one 0 65535 0x0202 none)       -- MEAS_ID
  | 0x022B => some (.one 0 u32max 0x0202 none)      -- JOB_TAG
  | _ => none

/-- The parameter of a code (R444, R445). -/
def param (code : Nat) : Option Param :=
  let r := code % 256
  match code / 256 with
  | 0x10 => paramPlan r
  | 0x12 => paramPhase r
  | 0x13 => paramFilter r
  | 0x14 => paramThermal r
  | 0x15 => paramDelay r
  | 0x16 => paramMeas r
  | 0x17 => paramZone r
  | 0x18 => paramPress r
  | 0x19 => paramFront r
  | 0x1A => paramBin r
  | 0x1B => paramServo r
  | _ => paramOther code

/-- What kind of instance a code belongs to in a command of an opcode; none where the opcode does not take it (R462 to R473). -/
def kindOf (op code : Nat) : Option Kind :=
  let t := code / 256
  match op with
  | 0x0101 => if code = 0x0221 then some .device else none
  | 0x0104 => if code = 0x0222 then some .device else none
  | 0x0201 => if code = 0x0220 then some .device else none
  | 0x0301 => if t = 0x10 || t = 0x12 || code = 0x0203 || code = 0x0204 then some .port else none
  | 0x0302 => if code = 0x0201 || code = 0x0202 then some .port else none
  | 0x0303 => if code = 0x0105 || code = 0x0208 || code = 0x0209 || code = 0x020A then some .port else none
  | 0x0304 => if t = 0x15 then some .port else none
  | 0x0305 => if t = 0x1A || code = 0x0105 || code = 0x0205 || code = 0x0206 || code = 0x0207 then some .emitter else none
  | 0x0401 => if t = 0x17 || t = 0x13 || t = 0x18 then some .zone else none
  | 0x0403 => if code = 0x0219 then some .zone else none
  | 0x0406 => if code = 0x0218 then some .device else none
  | 0x0407 => if code = 0x021A then some .device else none
  | 0x0408 => if 0x0210 ≤ code && code ≤ 0x0217 then some .device else none
  | 0x040A => if code = 0x0223 then some .stream else none
  | 0x0501 => if code = 0x020E || code = 0x020F then some .port else none
  | 0x0601 => if code = 0x020B || code = 0x020C then some .device else none
  | 0x0602 => if code = 0x020D then some .device else none
  | 0x0604 => if t = 0x16 then some .device else none
  | 0x0605 => if code = 0x022A then some .device else none
  | 0x0607 => if t = 0x1B then some .device else none
  | 0x0701 => if t = 0x14 then some (if code ≤ 0x140C then .device else if code ≤ 0x1411 then .thermal else .thermalPort) else none
  | 0x0702 => if code = 0x021B then some .device else none
  | 0x0703 => if t = 0x19 then some (if code = 0x1901 then .entry else if code ≤ 0x1905 then .device else .rtd) else none
  | 0x0706 => if code = 0x0224 then some .device else none
  | 0x0708 => if code = 0x0226 then some .device else none
  | 0x0709 => if code = 0x0226 then some .device else none
  | 0x070A => if code = 0x021E then some .device else none
  | 0x070B => if code = 0x0225 then some .rtd else none
  | 0x0801 => if code = 0x021D || code = 0x021E then some .device else none
  | 0x0802 => if code = 0x021D then some .device else none
  | 0x0803 => if code = 0x021D then some .device else none
  | 0x0901 => if code = 0x021F then some .device else none
  | 0x0902 => if code = 0x022B then some .device else none
  | 0x0A01 => if code = 0x0102 || code = 0x021C then some .trigger else none
  | 0x0A04 => if code = 0x0227 then some .device else none
  | 0x0A05 => if code = 0x0227 then some .device else none
  | 0x0A06 => if code = 0x0227 || code = 0x0228 || t = 0x12 || (t = 0x13 && code ≠ 0x1307) then some .device else none
  | 0x0A07 => if code = 0x0227 then some .device else none
  | 0x0B01 => if code = 0x021A then some .device else none
  | 0x0B02 => if code = 0x021A then some .device else none
  | 0x0B03 => if code = 0x0226 then some .device else none
  | 0x0C01 => if code = 0x0229 then some .device else none
  | _ => none

/-- The selectors an opcode takes (R462 to R473). -/
def selOf (op : Nat) : List Nat :=
  match op with
  | 0x0301 => [0x0101] | 0x0302 => [0x0101] | 0x0303 => [0x0101] | 0x0304 => [0x0101]
  | 0x0305 => [0x0104] | 0x0306 => [0x0104] | 0x030A => [0x0104]
  | 0x0307 => [0x0105]
  | 0x0308 => [0x0101] | 0x0309 => [0x0101]
  | 0x0401 => [0x0102, 0x0103] | 0x0402 => [0x0102] | 0x0403 => [0x0102] | 0x0404 => [0x0102] | 0x0409 => [0x0102]
  | 0x0501 => [0x0101] | 0x0502 => [0x0101] | 0x0503 => [0x0101] | 0x0606 => [0x0101]
  | 0x0701 => [0x0106, 0x0101] | 0x0703 => [0x0108, 0x0107]
  | 0x070B => [0x0107] | 0x070C => [0x0107] | 0x070D => [0x0107] | 0x070E => [0x0107] | 0x070F => [0x0107]
  | 0x0710 => [0x0108]
  | 0x0A01 => [0x0109] | 0x0A02 => [0x0109] | 0x0A03 => [0x0109]
  | _ => []

/-- Whether an opcode may be staged (R464 to R473). -/
def stageable (op : Nat) : Bool :=
  [0x0301, 0x0302, 0x0303, 0x0304, 0x0305, 0x0306, 0x0401, 0x0402, 0x0403, 0x0408, 0x040A, 0x0501, 0x0601, 0x0602, 0x0607, 0x0A01,
    0x0A02].contains op

/-- The instances a selector can name (R446). -/
def selMax (code : Nat) : Nat :=
  match code with
  | 0x0101 => 24 | 0x0102 => 4096 | 0x0103 => 4 | 0x0104 => 128 | 0x0105 => 16 | 0x0106 => 4 | 0x0107 => 16 | 0x0108 => 32
  | _ => 16

/-- The selector that a kind of instance needs; none for the device and streams. -/
def selFor : Kind → Option Nat
  | .port => some 0x0101 | .thermalPort => some 0x0101 | .zone => some 0x0102 | .emitter => some 0x0104
  | .thermal => some 0x0106 | .rtd => some 0x0107 | .entry => some 0x0108 | .trigger => some 0x0109
  | .device => none | .stream => none | .pin => none

/-- Items that a command must carry (R462 to R473). -/
def required (op : Nat) : List Nat :=
  match op with
  | 0x0604 => [0x1601, 0x1602, 0x1605, 0x1606, 0x1607, 0x1608, 0x1609, 0x160D]
  | 0x0104 => [0x0222] | 0x0403 => [0x0219] | 0x0406 => [0x0218] | 0x0407 => [0x021A] | 0x040A => [0x0223] | 0x0605 => [0x022A]
  | 0x0702 => [0x021B] | 0x0706 => [0x0224] | 0x0708 => [0x0226] | 0x0709 => [0x0226] | 0x070A => [0x021E] | 0x070B => [0x0225]
  | 0x0801 => [0x021E] | 0x0802 => [0x021D] | 0x0803 => [0x021D] | 0x0901 => [0x021F] | 0x0902 => [0x022B]
  | 0x0A04 => [0x0227] | 0x0A05 => [0x0227] | 0x0A06 => [0x0227, 0x0228] | 0x0B01 => [0x021A] | 0x0B02 => [0x021A] | 0x0B03 => [0x0226]
  | 0x0C01 => [0x0229]
  | _ => []

/-- Whether a command must carry a selector: one that names its instances, other than PLACE_QUERY, THERMAL_SET and FRONT_END_SET. -/
def needsSel (op : Nat) : Bool := !(selOf op).isEmpty && op ≠ 0x0404 && op ≠ 0x0701 && op ≠ 0x0703

/-- The opcodes of R462 to R473. -/
def opcodes : List Nat :=
  (List.range 5).map (0x0101 + ·) ++ (List.range 4).map (0x0201 + ·) ++ (List.range 10).map (0x0301 + ·) ++
  (List.range 11).map (0x0401 + ·) ++ (List.range 3).map (0x0501 + ·) ++ (List.range 7).map (0x0601 + ·) ++
  (List.range 16).map (0x0701 + ·) ++ (List.range 3).map (0x0801 + ·) ++ (List.range 3).map (0x0901 + ·) ++
  (List.range 7).map (0x0A01 + ·) ++ (List.range 5).map (0x0B01 + ·) ++ (List.range 2).map (0x0C01 + ·)

/-! ### Settings in force -/

/-- The setting of a key, if it has one. -/
def Settings.find (ss : Settings) (k : SetKey) : Option Setting := ss.find? fun x => x.key == k

/-- Members of a setting in force; a deleted setting keeps its generation and holds no member. -/
def Settings.val? (ss : Settings) (k : SetKey) : Option (List Int) :=
  match ss.find k with
  | some x => if x.val.isEmpty then none else some x.val
  | none => none

/-- Generation of a setting (R457), 0 when it has never been set. -/
def Settings.gen (ss : Settings) (k : SetKey) : Nat := match ss.find k with | some x => x.gen | none => 0

/-- Member `i` of a parameter of an instance, in force or default, or `d`. -/
def Settings.getI (ss : Settings) (kind : Kind) (inst sub code : Nat) (i : Nat) (d : Int) : Int :=
  match ss.val? { kind := kind, inst := inst, sub := sub, code := code } with
  | some v => v.getD i d
  | none => match (param code).bind (·.dflt) with
    | some v => v.getD i d
    | none => d

/-- As `getI`, as a number. -/
def Settings.get (ss : Settings) (kind : Kind) (inst code : Nat) : Nat := (ss.getI kind inst 0 code 0 0).toNat

/-- Whether an instance has had a parameter set. -/
def Settings.has (ss : Settings) (kind : Kind) (inst sub code : Nat) : Bool :=
  (ss.val? { kind := kind, inst := inst, sub := sub, code := code }).isSome

/-- A port's parameter. -/
def Settings.port (ss : Settings) (p code : Nat) : Nat := ss.get .port p code
/-- A zone's parameter. -/
def Settings.zone (ss : Settings) (z code : Nat) : Nat := ss.get .zone z code
/-- A device parameter. -/
def Settings.dev (ss : Settings) (code : Nat) : Nat := ss.get .device 0 code

/-- Sets a key, advancing its generation when the value changes (R457). -/
def Settings.put (ss : Settings) (k : SetKey) (v : List Int) : Settings :=
  match ss.find k with
  | some x => if x.val = v then ss else ss.map fun y => if y.key == k then { y with val := v, gen := y.gen + 1 } else y
  | none => ss ++ [{ key := k, val := v, gen := 1 }]

/-- Removes every setting of an instance (a delete). -/
def Settings.drop (ss : Settings) (kind : Kind) (inst : Nat) : Settings :=
  ss.map fun x => if x.key.kind == kind && x.key.inst == inst && !x.val.isEmpty then { x with val := [], gen := x.gen + 1 } else x

/-- The instances of a kind that have a setting, without repeats. -/
def Settings.insts (ss : Settings) (kind : Kind) : List Nat :=
  ((ss.filter fun x => x.key.kind == kind && !x.val.isEmpty).map (·.key.inst)).eraseDups

/-- A number put into a rising list. -/
def insertNat (n : Nat) : List Nat → List Nat
  | [] => [n]
  | x :: xs => if n ≤ x then n :: x :: xs else x :: insertNat n xs
/-- Numbers in rising order. -/
def sortNat (l : List Nat) : List Nat := l.foldr insertNat []

/-- Zones defined, in number order. -/
def Settings.zones (ss : Settings) : List Nat := sortNat <|
  (ss.filter fun x => x.key.kind == .zone && x.key.code == 0x1701 && !x.val.isEmpty).map (·.key.inst)
/-- Emitters defined. -/
def Settings.emitters (ss : Settings) : List Nat :=
  (ss.filter fun x => x.key.kind == .emitter && x.key.code == 0x0205 && !x.val.isEmpty).map (·.key.inst)
/-- Whether a port has a tone plan. -/
def Settings.hasPlan (ss : Settings) (p : Nat) : Bool := ss.has .port p 0 0x1001
/-- MODES of a port. -/
def Settings.modes (ss : Settings) (p : Nat) : Nat := ss.port p 0x0201
/-- Whether a port has a probing mode (R26). -/
def Settings.probing (ss : Settings) (p : Nat) : Bool := ss.modes p % 8 ≠ 0
/-- A flag of MODES: 0 DAS-PHASE, 1 DAS-AMP, 2 DELAY-TRACK, 3 LOOKBACK. -/
def Settings.mode (ss : Settings) (p i : Nat) : Bool := ss.modes p / 2 ^ i % 2 = 1
/-- f_S in units of 250 kHz in these settings (R195). -/
def Settings.fsN (ss : Settings) : Nat := ss.dev 0x020B

end Sys2Proof.Machine
end

