-- ==== Sys2Proof/Machine/Operands.lean ====
section
/-! DEFINITION. The operands of a command: the packet header (R441, R442), its items (R443), and what the selectors bind (R446).
Where one packet breaks several rules, framing (0x020B) is judged before the items, and the items in order (log entry 10, DEDUCED). -/

namespace Sys2Proof.Machine

/-- An item as framed: its code and value bytes. -/
structure RawItem where
  code : Nat
  val : List Byte
deriving DecidableEq, Repr

/-- A parsed command: parameters with the key of the setting each names, and the selectors in order (code, instance). -/
structure Parsed where
  items : List (SetKey × List Int)
  sels : List (Nat × Nat)
deriving DecidableEq, Repr

/-- Frames the body into items: none when an item overruns the packet or its padding is not zero (R443). -/
def frameItems : Nat → List Byte → Option (List RawItem)
  | _, [] => some []
  | 0, _ :: _ => none
  | n + 1, b :: bs =>
    let body := b :: bs
    let len := rd body 2 2
    let full := 4 + (len + 3) / 4 * 4
    if body.length < full || body.length < 4 then none
    else if ((body.take full).drop (4 + len)).any (fun x => x ≠ 0) then none
    else match frameItems n (body.drop full) with
      | some r => some ({ code := rd body 0 2, val := (body.take (4 + len)).drop 4 } :: r)
      | none => none

/-- Splits bytes into members of the listed sizes. -/
def splitSizes : List Nat → List Byte → List Int
  | [], _ => []
  | n :: ns, bs => (unle (bs.take n) : Int) :: splitSizes ns (bs.drop n)

/-- Splits bytes into `n` members of width `w`. -/
def splitEqual (sgn : Bool) (w : Nat) : Nat → List Byte → List Int
  | 0, _ => []
  | n + 1, bs => (if sgn then unleI (bs.take w) else (unle (bs.take w) : Int)) :: splitEqual sgn w n (bs.drop w)

/-- Members of a value under a layout: `none` for a length not accepted, `some none` for a non-zero reserved byte. -/
def members (l : Layout) (bs : List Byte) : Option (Option (List Int)) :=
  match l with
  | .flex n sgn =>
    if n = 0 then none
    else if [n, 2 * n, 4 * n, 8 * n].contains bs.length then some (some (splitEqual sgn (bs.length / n) n bs)) else none
  | .fixed sizes res =>
    if bs.length = sizes.sum + res then
      some (if (bs.drop sizes.sum).all (fun x => x == 0) then some (splitSizes sizes bs) else none)
    else none
  | .stamp => if bs.length = 12 then some (some [(unle bs : Int)]) else none
  | .amps => if bs.length % 2 = 0 ∧ 2 ≤ bs.length ∧ bs.length ≤ 32 then some (some (splitEqual false 2 (bs.length / 2) bs)) else none
  | .piece =>
    if 8 ≤ bs.length then
      some (some ((rd bs 0 4 : Int) :: (rd bs 4 4 : Int) :: (bs.drop 8).map fun b => (b.toNat : Int)))
    else none
  | .raw n => if bs.length = n then some (some (bs.map fun b => (b.toNat : Int))) else none

/-- The refusal of a value outside its range: 0x0222 for a parameter of a re-analysis (R437), else the parameter's own. -/
def rangeStatus (op : Nat) (p : Param) : Status := if op = 0x0A06 then 0x0222 else p.st

/-- Key of a parameter under the selectors set so far: none when a selector is missing (R446). PIN, STEP and STREAM_ROUTE are repeated
items, told apart by what they name. -/
def bindKey (op code : Nat) (kind : Kind) (sels : List (Nat × Nat)) (v : List Int) : Option SetKey :=
  let cur := fun c => (sels.reverse.find? (fun s => s.1 == c)).map (·.2)
  let sub : Option Nat :=
    if code = 0x1307 then cur 0x0103
    else if code = 0x0219 then some ((v.getD 0 0).toNat * 65536 + (v.getD 1 0).toNat)
    else if code = 0x021B then some (v.getD 0 0).toNat
    else if op = 0x0A01 ∧ code = 0x0102 then some 0
    else some 0
  match sub with
  | none => none
  | some sb =>
    match kind with
    | .device => some { kind := .device, inst := 0, sub := sb, code := code }
    | .stream => some { kind := .stream, inst := (v.getD 0 0).toNat, sub := 0, code := code }
    | k => match selFor k with
      | none => none
      | some sc => match cur sc with
        | none => none
        | some i => some { kind := if code = 0x0219 then .pin else k, inst := i, sub := sb, code := code }

/-- One item of a command: a selector, or a parameter checked and bound. -/
def bindItem (op : Nat) (acc : Except Status Parsed) (it : RawItem) : Except Status Parsed :=
  match acc with
  | .error e => .error e
  | .ok p =>
    match kindOf op it.code with
    | some kind =>
      match param it.code with
      | none => .error 0x020C
      | some par =>
        match members par.layout it.val with
        | none => .error 0x020E
        | some none => .error 0x020B
        | some (some v) =>
          match bindKey op it.code kind p.sels v with
          | none => .error 0x020E
          | some key =>
            if par.ok v then
              if p.items.any (fun x => x.1 == key) then .error 0x020B
              else .ok { p with items := p.items ++ [(key, v)] }
            else .error (rangeStatus op par)
    | none =>
      if (selOf op).contains it.code then
        if [1, 2, 4, 8].contains it.val.length then
          if unle it.val < selMax it.code then .ok { p with sels := p.sels ++ [(it.code, unle it.val)] } else .error 0x0202
        else .error 0x020E
      else .error 0x020C

/-- The items of a command's body (R443, R446). -/
def parse (op : Nat) (body : List Byte) : Except Status Parsed :=
  match frameItems (body.length + 1) body with
  | none => .error 0x020B
  | some its => its.foldl (bindItem op) (.ok { items := [], sels := [] })

/-- Instances a selector named, in order, without repeats. -/
def Parsed.named (p : Parsed) (code : Nat) : List Nat := ((p.sels.filter fun s => s.1 == code).map (·.2)).eraseDups

/-- The value of a device parameter of the command. -/
def Parsed.val? (p : Parsed) (code : Nat) : Option (List Int) := (p.items.find? fun x => x.1.code == code).map (·.2)

/-- First member of a parameter of the command, or `d`. -/
def Parsed.getD (p : Parsed) (code : Nat) (d : Nat) : Nat := match p.val? code with | some v => (v.getD 0 0).toNat | none => d

/-- Whether the header of a command is well formed (R442): LENGTH, STATUS and FLAGS. -/
def headerOk (k : Packet) : Bool :=
  k.length.toNat % 4 == 0 && 16 ≤ k.length.toNat && k.length.toNat ≤ 65536 && k.length.toNat == 16 + k.body.length && k.status == 0 &&
    (k.flags &&& 0xFB) == 0

/-- Whether STAGE is set (R441). -/
def stageFlag (k : Packet) : Bool := k.flags.getLsbD 2

/-! ### Items and packets that the HD9624 writes -/

/-- An item: code, length, value, padding (R443). -/
def item (code : Nat) (v : List Byte) : List Byte := le 2 code ++ le 2 v.length ++ padTo 4 v

/-- The bytes that the HD9624 writes for a parameter's value: fixed layouts as R445 gives them; other integers in the least equal width of
1, 2, 4 or 8 bytes that holds every member. -/
def paramBytes (code : Nat) (v : List Int) : List Byte :=
  match param code with
  | none => []
  | some p =>
    match p.layout with
    | .flex _ sgn =>
      let fits := fun (w : Nat) => v.all fun x =>
        if sgn then -(2 ^ (8 * w - 1) : Int) ≤ x && x < (2 ^ (8 * w - 1) : Int) else x < (2 ^ (8 * w) : Int)
      let w := if fits 1 then 1 else if fits 2 then 2 else if fits 4 then 4 else 8
      v.flatMap fun x => leI w x
    | .fixed sizes res => (sizes.zip v).flatMap (fun sv => leI sv.1 sv.2) ++ zeros res
    | .stamp => v.flatMap fun x => le 12 x.toNat
    | .amps => v.flatMap fun x => leI 2 x
    | .piece => match v with | o :: t :: bs => leI 4 o ++ leI 4 t ++ bs.flatMap (fun x => leI 1 x) | _ => []
    | .raw _ => v.flatMap fun x => leI 1 x

/-- The packet header of R441. -/
def header (op flags session txn st : Nat) (seq len : Nat) : List Byte :=
  le 2 op ++ le 1 flags ++ le 1 session ++ le 2 txn ++ le 2 st ++ le 4 seq ++ le 4 len

/-- Groups whole items into packet bodies of at most 65,520 bytes (R442). -/
def groupItems : List (List Byte) → List Byte → List (List Byte)
  | [], cur => [cur]
  | i :: is, cur => if cur.length + i.length ≤ 65520 then groupItems is (cur ++ i) else cur :: groupItems is i

/-- The packets of a reply (R441, R442): REPLY, and MORE on all but the last; STAGE as the command carried it when it was staged. -/
def replyPackets (op : Nat) (k : Packet) (st : Status) (txn : Nat) (staged : Bool) (its : List (List Byte)) : List (List Byte) :=
  let bodies := groupItems its []
  let n := bodies.length
  bodies.zipIdx.map fun bi =>
    header op (1 + (if staged then 4 else 0) + (if bi.2 + 1 < n then 8 else 0)) k.session.toNat txn st.toNat k.seq.toNat (16 + bi.1.length)
      ++ bi.1

end Sys2Proof.Machine
end

