-- ==== Sys2Proof/Machine/Records.lean ====
section
/-! DEFINITION. The bytes of the records of R411 and of Oliral units (R412). -/

namespace Sys2Proof.Machine

/-- Flag bits of R118 and R164 that make a value invalid: VOID, SLIP, NEAR, SAT, NOINC, WARM, STEP. -/
def invalidMask : BitVec 10 := 0x3B9
/-- Degraded flag bits: QUAL, FADE, BEYOND. -/
def degradedMask : BitVec 10 := 0x046
/-- Whether flags hold an invalid bit. -/
def isInvalid (f : BitVec 10) : Bool := (f &&& invalidMask) ≠ 0

/-- An event record (R425). -/
def EventRec.bytes (r : EventRec) : List Byte :=
  le 2 0x0042 ++ [1, 0] ++ le 2 r.event ++ zeros 2 ++ stampB r.tEvent ++ leW r.detail ++ le 4 r.seq.toNat ++ zeros 4

/-- A whey record (R423). -/
def Whey.bytes (r : Whey) : List Byte :=
  le 2 0x0041 ++ [1] ++ le 1 r.cause ++ le 2 r.zone ++ le 1 r.port ++ [r.products] ++ stampB r.tFirst ++ stampB r.tLast ++
    le 4 r.firstPoint ++ le 4 r.nPoints ++ le 4 r.count ++ le 4 (min r.lostBytes 0xFFFFFFFF) ++ le 4 r.seqFirst.toNat ++
    le 4 r.seqLast.toNat ++ le 4 r.wheySeq.toNat ++ zeros 4

/-- A delay record (R241). -/
def DelayRec.bytes (r : DelayRec) : List Byte :=
  le 2 0x0002 ++ [1] ++ le 1 r.port ++ le 2 r.flags.toNat ++ le 2 (min r.nValid 65535) ++ stampB r.tRec ++ leI 8 r.theta ++
    leI 8 r.dRel ++ leI 8 r.dAbs ++ le 4 r.scale ++ le 4 r.kPg ++ le 4 r.anchorSeq.toNat ++ leI 8 r.anchorRes ++ le 4 r.slipCnt ++
    le 2 r.epoch.toNat ++ zeros 2

/-- A measurement summary (R234). -/
def MeasSummary.bytes (r : MeasSummary) : List Byte :=
  le 2 0x0003 ++ [1] ++ le 1 r.mode ++ le 2 r.measId.toNat ++ le 2 r.flags.toNat ++ le 4 r.count ++ le 4 r.dead ++ le 4 r.orphan ++
    le 4 r.unmatched ++ stampB r.tOpen ++ stampB r.tClose ++ leI 8 r.mean ++ le 8 r.rms ++ leI 8 r.min ++ leI 8 r.max ++ le 8 r.freq

/-- A stamp block (R422): STAMP entries are stamps, INTERVAL entries signed, FREQ entries (n_j, t_j). -/
def stampBlock (measId mode first : Nat) (es : List (Nat × Int)) : List Byte :=
  le 2 0x0046 ++ [1] ++ le 1 mode ++ le 2 measId ++ zeros 2 ++ le 4 first ++ le 4 es.length ++
    es.flatMap fun e =>
      match mode with
      | 0 => stampB e.2.toNat
      | 1 => leI 8 e.2
      | _ => le 4 e.1 ++ stampB e.2.toNat

/-- Bytes of one element of each product (R384). -/
def widthOf (product : Nat) : Nat := match product with | 1 => 2 | 2 => 4 | 3 => 2 | 4 => 4 | _ => 1

/-- Runs of one row (R419): consecutive columns with equal, non-zero flags, at most 65,535 columns each. -/
def rowRuns (row : Nat) : Nat → List (BitVec 10) → List FlagRun → List FlagRun
  | _, [], acc => acc.reverse
  | col, f :: fs, acc =>
    if f = 0 then rowRuns row (col + 1) fs acc
    else match acc with
      | r :: rest =>
        if r.flags = f ∧ r.col + r.count = col ∧ r.count < 65535 then rowRuns row (col + 1) fs ({ r with count := r.count + 1 } :: rest)
        else rowRuns row (col + 1) fs ({ row := row, col := col, count := 1, flags := f } :: r :: rest)
      | [] => rowRuns row (col + 1) fs [{ row := row, col := col, count := 1, flags := f }]

/-- The run list of a frame (R419). -/
def runsOf (rows : List Row) : List FlagRun := rows.zipIdx.flatMap fun ri => rowRuns ri.2 0 ri.1.flags []

/-- A run's 8 bytes. -/
def FlagRun.bytes (r : FlagRun) : List Byte := le 2 r.row ++ le 2 r.count ++ le 4 (r.col % 2 ^ 20 + r.flags.toNat * 2 ^ 20)

/-- The element array of R384: element (t, z) at (t × N_COLS + z) × WIDTH. -/
def elements (width : Nat) (rows : List Row) : List Byte := rows.flatMap fun r => r.vals.flatMap fun v => leI width v

/-- A curd frame (R417, R418). -/
def CurdFrame.bytes (f : CurdFrame) : List Byte :=
  let stamps := padTo 8 (f.rows.flatMap fun r => stampB r.t)
  let runs := runsOf f.rows
  let vals := match f.press with | some b => b | none => elements f.width f.rows
  let anyFlag := fun (m : BitVec 10) => f.rows.any fun r => r.flags.any fun x => (x &&& m) ≠ 0
  let fflags := b01 f.press.isSome + 2 * b01 f.native + 4 * b01 (anyFlag invalidMask) + 8 * b01 (anyFlag degradedMask) +
    16 * b01 (anyFlag 0x100) + 32 * b01 f.earlyClose + 64 * b01 f.reanalysis
  let runOff := 80 + stamps.length
  let valOff := runOff + 8 * runs.length
  let total := (valOff + vals.length + 7) / 8 * 8
  padTo 8 (le 2 0x0040 ++ [1] ++ le 1 f.product ++ le 2 f.zone ++ le 1 f.port ++ le 1 f.band ++ le 2 fflags ++ le 1 f.width ++
    le 1 f.head.outGain ++ le 4 f.firstPoint ++ le 4 f.nCols ++ le 4 f.rows.length ++ le 4 f.frameSeq.toNat ++
    le 2 f.head.epoch.toNat ++ le 2 f.head.gauge ++ le 8 f.head.scale.toNat ++ le 8 f.head.rate.toNat ++ le 4 f.head.pointStep ++
    le 4 runs.length ++ le 4 80 ++ le 4 runOff ++ le 4 valOff ++ le 4 vals.length ++ le 4 total ++ le 4 f.capture ++
    stamps ++ runs.flatMap FlagRun.bytes ++ vals)

/-- A lookback data record (R436). -/
def lookDataBytes (capture : Nat) (sc : Section) (offset : Nat) (bs : List Byte) : List Byte :=
  let code := match sc with | .launch => 1 | .raw => 2 | .curd => 3
  le 2 0x0044 ++ [1] ++ le 1 code ++ le 4 capture ++ le 8 offset ++ le 4 bs.length ++
    zeros 4 ++ bs

/-- The bytes of a record. -/
def Rec.bytes : Rec → List Byte
  | .profile bs => bs
  | .delay r => r.bytes
  | .summary r => r.bytes
  | .stamps id mode first es => stampBlock id.toNat mode first es
  | .curd f => f.bytes
  | .whey r => r.bytes
  | .event r => r.bytes
  | .lookHead bs => bs
  | .lookData c sc off bs => lookDataBytes c sc off bs

/-- One unit of a record (R412): `u` is the unit's index among `n`. -/
def unitBytes (urgent : Bool) (stream : Nat) (seq : Nat) (rec : List Byte) (cutSize u n : Nat) : List Byte :=
  let pay := (rec.drop (u * cutSize)).take cutSize
  let uflags := b01 (u == 0) + 2 * b01 (u + 1 == n) + 4 * b01 urgent
  let h := le 2 0x4F4C ++ [1] ++ le 1 uflags ++ le 2 stream ++ zeros 2 ++ le 4 seq ++ le 4 rec.length ++ le 4 (u * cutSize) ++ le 4 pay.length
  h ++ le 4 (crc32 (h ++ pay)) ++ zeros 4 ++ pay

/-- How many units a record is cut into (R570). -/
def unitCount (len cutSize : Nat) : Nat := max 1 (ceilDiv len cutSize)

end Sys2Proof.Machine
end

