-- ==== Sys2Proof/Machine/Ops.lean ====
section
/-! DEFINITION. The named operations over the state: its parts by index, its clocks, byte memories, free values, outputs, MSI-X,
events (R494 to R498), the fault log, records and streams (R362 to R364, R411 to R415). -/

namespace Sys2Proof.Machine

/-! ### Parts of the state -/

/-- One port changed. -/
def State.modPort (s : State) (p : PortIx) (f : Port → Port) : State := { s with ports := s.ports.set p (f s.ports[p]) }
/-- One lane changed. -/
def State.modLane (s : State) (n : LaneIx) (f : Lane → Lane) : State := { s with lanes := s.lanes.set n (f s.lanes[n]) }
/-- One pipeline changed. -/
def State.modPipe (s : State) (n : PipeIx) (f : Pipe → Pipe) : State := { s with pipes := s.pipes.set n (f s.pipes[n]) }
/-- One engine changed. -/
def State.modEng (s : State) (n : EngIx) (f : Engine → Engine) : State := { s with engines := s.engines.set n (f s.engines[n]) }
/-- One Press lane changed. -/
def State.modPress (s : State) (n : PressIx) (f : PressLane → PressLane) : State := { s with press := s.press.set n (f s.press[n]) }
/-- One session changed. -/
def State.modSess (s : State) (n : SessIx) (f : Session → Session) : State := { s with sessions := s.sessions.set n (f s.sessions[n]) }
/-- The Source Drive Chain changed. -/
def State.modSdc (s : State) (f : Sdc → Sdc) : State := { s with sdc := f s.sdc }
/-- The clock block changed. -/
def State.modClk (s : State) (f : Clocks → Clocks) : State := { s with clk := f s.clk }
/-- The time-interval unit changed. -/
def State.modTiu (s : State) (f : Tiu → Tiu) : State := { s with tiu := f s.tiu }
/-- AXC1 changed. -/
def State.modAxc1 (s : State) (f : Axc1 → Axc1) : State := { s with axc1 := f s.axc1 }
/-- The Rind changed. -/
def State.modRind (s : State) (f : Rind → Rind) : State := { s with rind := f s.rind }
/-- The main side's mirrors of the Rind changed. -/
def State.modRm (s : State) (f : RindMain → RindMain) : State := { s with rindMain := f s.rindMain }
/-- The Ladle changed. -/
def State.modLadle (s : State) (f : Ladle → Ladle) : State := { s with ladle := f s.ladle }
/-- Lookback changed. -/
def State.modLook (s : State) (f : Lookback → Lookback) : State := { s with look := f s.look }
/-- The links changed. -/
def State.modLinks (s : State) (f : Links → Links) : State := { s with links := f s.links }
/-- The global registers changed. -/
def State.modGlb (s : State) (f : Glb → Glb) : State := { s with glb := f s.glb }
/-- Boot and power state changed. -/
def State.modBoot (s : State) (f : Boot → Boot) : State := { s with boot := f s.boot }
/-- The always-on island changed. -/
def State.modAon (s : State) (f : Aon → Aon) : State := { s with aon := f s.aon }
/-- The event block changed. -/
def State.modEv (s : State) (f : Events → Events) : State := { s with ev := f s.ev }
/-- The streams changed. -/
def State.modStreams (s : State) (f : Streams → Streams) : State := { s with streams := f s.streams }
/-- One Ethernet port changed. -/
def State.modEth (s : State) (n : Fin 2) (f : Eth → Eth) : State :=
  s.modLinks fun l => { l with eth := l.eth.set n (f l.eth[n]) }
/-- One command ring pair changed. -/
def State.modCr (s : State) (n : Fin 4) (f : CmdRing → CmdRing) : State :=
  s.modLinks fun l => { l with cr := l.cr.set n (f l.cr[n]) }
/-- One stream ring changed. -/
def State.modSr (s : State) (n : Fin 64) (f : StreamRing → StreamRing) : State :=
  s.modLinks fun l => { l with sr := l.sr.set n (f l.sr[n]) }

/-- A number as an index below `n`, when it is one. -/
def ix (n v : Nat) : Option (Fin n) := if h : v < n then some ⟨v, h⟩ else none

/-- A change to port `p`, given as a number. -/
def State.onPort (s : State) (p : Nat) (f : Port → Port) : State := match ix 24 p with | some i => s.modPort i f | none => s
/-- A change to engine `e`, given as a number. -/
def State.onEng (s : State) (e : Nat) (f : Engine → Engine) : State := match ix 32 e with | some i => s.modEng i f | none => s
/-- A change to pipeline `n`, given as a number. -/
def State.onPipe (s : State) (n : Nat) (f : Pipe → Pipe) : State := match ix 26 n with | some i => s.modPipe i f | none => s
/-- A change to Press lane `n`, given as a number. -/
def State.onPress (s : State) (n : Nat) (f : PressLane → PressLane) : State := match ix 26 n with | some i => s.modPress i f | none => s
/-- A change to lane `n`, given as a number. -/
def State.onLane (s : State) (n : Nat) (f : Lane → Lane) : State := match ix 96 n with | some i => s.modLane i f | none => s
/-- Port `p`, given as a number; a port after reset for a number that names none. -/
def State.portN (s : State) (p : Nat) : Port := match ix 24 p with | some i => s.ports[i] | none => Port.reset
/-- Lane `n`, given as a number. -/
def State.laneN (s : State) (n : Nat) : Lane := match ix 96 n with | some i => s.lanes[i] | none => Lane.reset 0
/-- Engine `e`, given as a number. -/
def State.engN (s : State) (e : Nat) : Engine := match ix 32 e with | some i => s.engines[i] | none => Engine.reset
/-- Pipeline `n`, given as a number. -/
def State.pipeN (s : State) (n : Nat) : Pipe := match ix 26 n with | some i => s.pipes[i] | none => Pipe.reset
/-- Press lane `n`, given as a number. -/
def State.pressN (s : State) (n : Nat) : PressLane := match ix 26 n with | some i => s.press[i] | none => PressLane.reset

/-- Every port in turn. -/
def State.forPorts (s : State) (f : PortIx → State → State) : State := (List.finRange 24).foldl (fun t p => f p t) s
/-- Every engine in turn. -/
def State.forEngs (s : State) (f : EngIx → State → State) : State := (List.finRange 32).foldl (fun t p => f p t) s
/-- The listed numbers in turn. -/
def forEach {σ : Type} (l : List Nat) (f : Nat → σ → σ) (s : σ) : σ := l.foldl (fun t n => f n t) s

/-- The port of a lane, and lane `k` of a port (lane = 4 × port + k). -/
def lanePort (n : LaneIx) : PortIx := ⟨n.val / 4, by omega⟩
/-- Lane k of port p. -/
def portLane (p : PortIx) (k : Fin 4) : LaneIx := ⟨4 * p.val + k.val, by omega⟩

/-- Runtime state of a zone, if it is placed. -/
def State.zoneRt (s : State) (z : Nat) : Option ZoneRt := s.zones.find? fun r => r.id == z
/-- A change to a zone's runtime state. -/
def State.modZone (s : State) (z : Nat) (f : ZoneRt → ZoneRt) : State :=
  { s with zones := s.zones.map fun r => if r.id == z then f r else r }
/-- The port of a zone. -/
def zonePort (ss : Settings) (z : Nat) : Nat := ss.zone z 0x1701
/-- The zones of a port. -/
def zonesOf (ss : Settings) (p : Nat) : List Nat := ss.zones.filter fun z => zonePort ss z == p
/-- The pipeline of a port in a placement. -/
def Placement.pipe? (pl : Placement) (p : Nat) : Option Nat := assoc pl.pipes p

/-! ### Register writes that reach their block (R206) -/

/-- A write through the register window: the main partition in reset takes none. -/
def State.written (s : State) (f : State → State) : State := if s.boot.inReset then s else f s
/-- Whether the 32 cycles after ungating still run in a block: a bit of CKG_EN0, or 11 + p for the island of port p (R208). -/
def State.settling (s : State) (i : Nat) : Bool := s.clk.settling.any fun x => x.1 == i && decide (s.time.mono < x.2)
/-- Whether the block of a CKG_EN0 bit answers register accesses (R206, R208). -/
def State.clkOpen (s : State) (i : Nat) : Bool := bit s.clk.ckg0 i && !(s.settling i)
/-- Whether the island of a port answers them. -/
def State.portOpen (s : State) (p : Nat) : Bool := bit s.clk.ckg1 p && !(s.settling (11 + p))
/-- A write to the block of a CKG_EN0 bit: ignored without a flag while its clock is gated, and for 32 cycles after. -/
def State.writtenClk (s : State) (i : Nat) (f : State → State) : State := s.written fun u => if u.clkOpen i then f u else u
/-- A write to the island of a port: ignored without a flag while its clock is gated, and for 32 cycles after. -/
def State.writtenPort (s : State) (p : Nat) (f : State → State) : State := s.written fun u => if u.portOpen p then f u else u
/-- What accesses the Cave waits in its handshake while the memory loop is out of lock or the interface in reset (R201, R529). -/
def State.cave (s : State) (f : State → State) : State := if bit s.clk.stat 7 && !(s.links.resetFlags.contains .memory) then f s else s

/-! ### Clocks and free values -/

/-- A free value (log entry 4, DESIGN CHOICE): the next one, and the counter advanced. -/
def State.fresh (s : State) : BitVec 64 × State := (Config.freeValue s.free, { s with free := s.free + 1 })

/-- `n` free bytes. -/
def State.freshBytes (s : State) (n : Nat) : List Byte × State :=
  ((List.range n).map fun i => (Config.freeValue (s.free + i)).setWidth 8, { s with free := s.free + n })

/-- An identifier whose choice the spec leaves to the HD9624: a free value that is not in use (log entry 4, DESIGN CHOICE). -/
def State.freshId (s : State) (bits : Nat) (used : List Nat) : Nat × State :=
  let f := s.fresh
  let v := f.1.toNat % 2 ^ bits
  (if v ≠ 0 && !(used.contains v) then v else (((List.range (used.length + 1)).map (· + 1)).find? fun x => !(used.contains x)).getD 1, f.2)

/-- Time passes: every clock advances by `d`. -/
def State.elapse (s : State) (d : Nat) : State :=
  { s with
    time := { s.time with mono := s.time.mono + d, dev := ((s.time.dev : Int) + d + (d : Int) * s.time.rate / 10 ^ 15).toNat }
    rind := { s.rind with time := s.rind.time + d, ticks := s.rind.ticks + d }
    aon := { s.aon with rtc := s.aon.rtc + d } }

/-- Time passes until elapsed time `t`, if it lies ahead. -/
def State.until (s : State) (t : Time) : State := s.elapse (t - s.time.mono)

/-- Time passes until device time `t`, if it lies ahead. -/
def State.untilDev (s : State) (t : Time) : State := s.elapse (t - s.time.dev)

/-! ### Byte memories -/

/-- The byte at an address; an address not listed holds 0. -/
def Mem.read (m : Mem) (a : Nat) : Byte :=
  match m with
  | [] => 0
  | c :: cs => if c.1 = a then c.2 else if a < c.1 then 0 else Mem.read cs a

/-- Stores one byte, keeping addresses rising and listing no zero. -/
def Mem.write (m : Mem) (a : Nat) (v : Byte) : Mem :=
  match m with
  | [] => if v = 0 then [] else [(a, v)]
  | c :: cs =>
    if c.1 = a then (if v = 0 then cs else (a, v) :: cs)
    else if a < c.1 then (if v = 0 then c :: cs else (a, v) :: c :: cs)
    else c :: Mem.write cs a v

/-- Stores bytes from an address upwards. -/
def Mem.writes (m : Mem) (a : Nat) : List Byte → Mem
  | [] => m
  | b :: bs => Mem.writes (m.write a b) (a + 1) bs

/-- Reads `n` bytes from an address upwards. -/
def Mem.reads (m : Mem) (a : Nat) : Nat → List Byte
  | 0 => []
  | n + 1 => m.read a :: Mem.reads m (a + 1) n

/-- The canonical form: addresses strictly rising, no byte 0. -/
def Mem.wf : Mem → Bool
  | [] => true
  | [c] => c.2 ≠ 0
  | c :: d :: r => (c.2 ≠ 0 && decide (c.1 < d.1)) && Mem.wf (d :: r)

/-! ### Outputs and MSI-X (R498) -/

/-- The block puts something out. -/
def State.emit (s : State) (o : Output) : State := { s with out := s.out ++ [o] }

/-- Whether a vector is masked, by its entry or by the function mask. -/
def Links.masked (l : Links) (v : BitVec 8) : Bool := l.msixFuncMask || bit (l.msixTable[v.toFin][3]) 0

/-- An MSI-X message is requested on a vector: sent, held pending while masked, or nothing while MSI-X Enable is clear or the link is down. -/
def State.msix (s : State) (v : BitVec 8) : State :=
  if s.links.msixEnable && s.links.pcieWidth ≠ 0 then
    if s.links.masked v then s.modLinks fun l => { l with pba := l.pba ||| (1#256 <<< v.toNat) } else s.emit (.msix v.toNat)
  else s

/-! ### Ports of the Ethernet links -/

/-- Whether an Ethernet port is in service for routing (R511). -/
def Eth.inService (e : Eth) : Bool := bit e.link 27 && !(bit e.stat 1)
/-- The Ethernet port that carries traffic bound for a port: that port while in service, else the other while in service, else none. -/
def Links.ethOut (l : Links) (n : Fin 2) : Option (Fin 2) :=
  if l.eth[n].inService then some n else if l.eth[1 - n].inService then some (1 - n) else none
/-- Whether a crossing's reset flag is raised (R528). -/
def Links.inReset (l : Links) (c : CrossId) : Bool := l.resetFlags.contains c
/-- An island enters reset (R528): its crossing's flag is raised, whatever the FIFO holds or is partly sent is discarded, and no transfer starts. Every
word of the model crosses within its own step, so nothing is left in a FIFO between two steps (log entry 125, DEDUCED). -/
def Links.crossReset (l : Links) (c : CrossId) : Links :=
  { l with resetFlags := l.resetFlags.filter (fun x => x != c) ++ [c], owed := l.owed.filter (fun x => x != c) ++ [c] }
/-- An island leaves reset: the flag falls, and both sides complete the empty handshake before the first new word (R528). -/
def Links.release (l : Links) (c : CrossId) : Links :=
  { l with resetFlags := l.resetFlags.filter (fun x => x != c), owed := l.owed.filter (fun x => x != c) }
/-- Whether the PCIe link is up. -/
def Links.pcieUp (l : Links) : Bool := l.pcieWidth ≠ 0

/-! ### Reply rings and packets (R440, R475, R503) -/

/-- Slots of a reply ring. -/
def CmdRing.slotCount (r : CmdRing) : Nat := fld r.rsize 0 11
/-- Whether a reply ring cannot take a packet: disabled, or advancing HEAD would meet TAIL (log entry 11, DEDUCED). -/
def CmdRing.full (r : CmdRing) : Bool :=
  !(bit r.ctl 0) || (fld r.rhead 0 11 + 1) % max 1 r.slotCount == fld r.rtail 0 11 % max 1 r.slotCount

/-- Writes one packet into a reply ring and requests its vector; the flag says that the ring became full. -/
def State.ringPut (s : State) (n : Fin 4) (bs : List Byte) : State × Bool :=
  let r := s.links.cr[n]
  let h := (fld r.rhead 0 11 + 1) % max 1 r.slotCount
  let s1 := (s.modCr n fun r => { r with rhead := setFld r.rhead 0 11 h }).emit (.packet (.ring n) bs)
  let s2 := s1.msix (BitVec.ofNat 8 (fld r.ctl 8 8))
  (s2, bit r.ctl 0 && s2.links.cr[n].full)

/-- Sends an event packet, or discards it when the transport cannot take it at once (R475); the flag as in `ringPut`. -/
def State.sendEvent (s : State) (t : Transport) (bs : List Byte) : State × Bool :=
  match t with
  | .ring n => if s.links.cr[n].full || !s.links.pcieUp then (s, false) else s.ringPut n bs
  | .udp e _ _ => if (s.links.ethOut e).isSome then (s.emit (.packet t bs), false) else (s, false)
  | .spi => (s.modLinks fun l => { l with spiWaiting := l.spiWaiting ++ [bs] }, false)

/-! ### Events (R492 to R497) -/

/-- DETAIL of an event record (R425). -/
def State.eventDetail (s : State) (n : Nat) : Word :=
  if n ≤ 95 then (s.laneN n).stat
  else if n ≤ 119 then (s.portN (n - 96)).stat
  else if n ≤ 151 then (s.engN (n - 120)).stat
  else if n ≤ 177 then (s.pressN (n - 152)).stat
  else if n ≤ 184 then s.clk.stat
  else if n ≤ 192 then s.tiu.stat
  else if 200 ≤ n ∧ n ≤ 204 ∨ n = 206 then s.sdc.stat
  else if 216 ≤ n ∧ n ≤ 231 then s.rindMain.stat
  else if 250 ≤ n ∧ n ≤ 254 then s.ladle.stat
  else 0

/-- The links of a route value: 1 PCIe, 2 Ethernet, 3 both (R444). -/
def routeLinks (route : Nat) (e : Fin 2) : List Link :=
  (if route % 2 = 1 then [Link.pcie] else []) ++ (if route / 2 % 2 = 1 then [Link.eth e] else [])

/-- The links a zone's stream takes: those booked for it, or its route's when none is booked. -/
def State.zoneLinks (s : State) (z : Nat) : List Link :=
  let booked := (s.ladle.place.links.filter fun x => x.1 == z).map (·.2.1)
  if booked.isEmpty then routeLinks ((match s.zoneRt z with
      | some r => if r.gone.isEmpty then s.settings else r.gone
      | none => s.settings).zone z 0x1709) 0 else booked

/-- The links of a stream (R414): 0 to 2 by STREAM_ROUTE, zone streams by their zone; the lookback stream on one link (R30). -/
def State.streamLinks (s : State) (stream : Nat) : List Link :=
  if stream < 16 then
    routeLinks (match s.settings.val? { kind := .stream, inst := stream, sub := 0, code := 0x0223 } with
      | some [_, r] => r.toNat
      | _ => 3) 0
  else if stream < 8192 then s.zoneLinks (stream - 16)
  else
    let ls := s.zoneLinks (stream - 8192)
    if ls.contains .pcie && ls.length > 1 then
      (if s.links.pcieUp then [.pcie] else ls.filter fun l => l != .pcie)
    else ls

/-- Largest PAY_LEN of an Ethernet port (R499): MTU − 60 while its destination is ::ffff:a.b.c.d, MTU − 80 otherwise. -/
def Eth.payMax (e : Eth) : Nat :=
  let v4 := e.dst[3] == 0 && e.dst[2] == 0 && e.dst[1] == 0x0000FFFF
  fld e.link 0 14 - (if v4 then 60 else 80)

/-- Whether a link is Ethernet. -/
def Link.isEth : Link → Bool
  | .pcie => false
  | .eth _ => true

/-- The cut size of a stream's records (R570). -/
def State.cutSize (s : State) (links : List Link) : Nat :=
  if links.any Link.isEth then min s.links.eth[(0 : Fin 2)].payMax s.links.eth[(1 : Fin 2)].payMax else 65504

/-- The next STREAM_SEQ of a stream. -/
def Streams.next (st : Streams) (stream : Nat) : BitVec 32 := (assoc st.seq stream).getD 0

/-- A record takes its unit numbers and its cut at its first transmission (R413, R570). -/
def State.number (s : State) (it : TxItem) : State × TxItem :=
  match it.seq0 with
  | some _ => (s, it)
  | none =>
    let cs := max 1 (s.cutSize it.links)
    let n := unitCount it.record.bytes.length cs
    let first := s.streams.next it.stream
    (s.modStreams fun x => { x with seq := assocSet x.seq it.stream (first + BitVec.ofNat 32 n) }, { it with seq0 := some first, cut := cs })

/-- Unit `u` of a numbered record. -/
def TxItem.unit (it : TxItem) (u : Nat) : List Byte :=
  let bs := it.record.bytes
  unitBytes it.urgent it.stream ((it.seq0.getD 0) + BitVec.ofNat 32 u).toNat bs it.cut u (unitCount bs.length it.cut)

/-- A record's units leave on a link. Answers the record with that link done. -/
def State.sendUnits (s : State) (it : TxItem) (l : Link) : State × TxItem :=
  let (s1, it1) := s.number it
  ((List.range (unitCount it1.record.bytes.length it1.cut)).foldl (fun t u => t.emit (.unit l (it1.unit u))) s1,
    { it1 with links := it1.links.filter fun x => x != l })

/-- Records in the order in which a shared path takes them (R362, R413): those that have their numbers, then class by class, oldest first. -/
def txOrder (q : List TxItem) : List TxItem :=
  (q.filter fun it => it.seq0.isSome) ++ (List.range 4).flatMap fun c => q.filter fun it => it.seq0.isNone && it.cls == c

/-- Whether the destination is a multicast address, which needs no resolution (R508). -/
def Eth.multicast (e : Eth) : Bool :=
  fld e.dst[3] 24 8 == 0xFF || (e.dst[3] == 0 && e.dst[2] == 0 && e.dst[1] == 0x0000FFFF && fld e.dst[0] 28 4 == 14)
/-- Whether the destination's MAC address is known. -/
def Eth.resolvedNow (e : Eth) : Bool := e.resolved.isSome || e.multicast
/-- Whether units leave on the port at once: in service, up, unpaused and resolved (R507, R511). -/
def Eth.sends (e : Eth) : Bool := e.inService && bit e.stat 0 && !(bit e.stat 2) && e.resolvedNow

/-- The Ethernet port on which a record leaves now. -/
def State.ethNow (s : State) (it : TxItem) : Option (Fin 2) :=
  ([0, 1] : List (Fin 2)).find? fun n => it.links.contains (.eth n) && s.links.eth[n].sends

/-- One record of those that leave, and the records that still wait for another link. -/
def flushStep (acc : State × List TxItem) (it : TxItem) : State × List TxItem :=
  match acc.1.ethNow it with
  | some n => let r := acc.1.sendUnits it (.eth n); (r.1, if r.2.links.isEmpty then acc.2 else acc.2 ++ [r.2])
  | none => (acc.1, acc.2 ++ [it])

/-- Every waiting record whose Ethernet port takes units leaves on it (log entry 12, DESIGN CHOICE: at once). Records that still wait for PCIe stand in the
order of their numbers. -/
def State.flushEth (s : State) : State :=
  let go := txOrder (s.streams.queue.filter fun it => (s.ethNow it).isSome)
  if go.isEmpty then s
  else
    let stay := s.streams.queue.filter fun it => (s.ethNow it).isNone
    let r := go.foldl flushStep (s, [])
    r.1.modStreams fun x => { x with queue := (stay.filter fun it => it.seq0.isSome) ++ r.2 ++ stay.filter fun it => it.seq0.isNone }

/-- A record joins its stream. `cls` is its class: 0 URGENT, 1 REALTIME, 2 BULK. -/
def State.push (s : State) (stream : Nat) (zone : Option Nat) (r : Rec) (cls : Nat) (inPool : Bool) : State :=
  let links := (s.streamLinks stream).map fun l => match l with
    | .eth n => Link.eth ((s.links.ethOut n).getD n)
    | .pcie => .pcie
  let it : TxItem := {
    stream := stream, zone := zone, record := r, urgent := cls == 0, bulk := cls == 2, arrived := s.time.mono, links := links,
    seq0 := none, cut := 0, ring := (zone.bind fun z => assoc s.ladle.place.rings z).getD 0, sent := 0, inPool := inPool, cls := cls }
  (s.modStreams fun x => { x with queue := x.queue ++ [it] }).flushEth

/-- The event packet of one session; the flag says that a reply ring became full. -/
def eventPacketTo (n : EvIx) (recB : List Byte) (acc : State × Bool) (i : SessIx) : State × Bool :=
  let ss := acc.1.sessions[i]
  if ss.isOpen && ss.eventMask.getLsbD n.val then
    let pkt := header 0 2 i.val 0 0 ss.evSeq.toNat 52 ++ item 0x030B recB
    let r := (acc.1.modSess i fun x => { x with evSeq := x.evSeq + 1 }).sendEvent ss.transport pkt
    (r.1, acc.2 || r.2)
  else acc

/-- Event packets of an event to the subscribed sessions (R475); the flag says that a reply ring became full. -/
def State.eventPackets (s : State) (n : EvIx) (recB : List Byte) : State × Bool := (List.finRange 4).foldl (eventPacketTo n recB) (s, false)

/-- Delivers a fresh setting of an enabled event (R495). -/
def State.deliver (s : State) (n : EvIx) : State × Bool :=
  let c := s.ev.cfg[n]
  let s1 := if c.msix then s.msix c.vector else s
  if c.packet then
    let r : EventRec := { event := n.val, tEvent := s.ev.tEvent[n], detail := s1.eventDetail n.val, seq := s1.ev.seq }
    (((s1.modEv fun e => { e with seq := e.seq + 1 }).push 0 none (.event r) 0 false)).eventPackets n r.bytes
  else (s1, false)

/-- Triggers of source EVENT that name an event fire when its pending bit sets (R431). -/
def State.fireEvent (s : State) (n : Nat) : State :=
  let fires := s.settings.filterMap fun x =>
    if x.key.kind == .trigger && x.key.code == 0x021C && x.val.getD 0 0 == 1 && x.val.getD 5 0 == (n : Int) then
      some ({ trigger := x.key.inst, tTrig := s.time.dev, detail := n } : Firing)
    else none
  s.modLook fun l => { l with due := l.due ++ fires }

/-- An occurrence counts, up to FFFF (R496). -/
def Events.counted (e : Events) (n : EvIx) : Events :=
  { e with cfg := e.cfg.set n { e.cfg[n] with count := if e.cfg[n].count = 0xFFFF then 0xFFFF else e.cfg[n].count + 1 } }

/-- A fresh setting of a pending bit: T_EVENT, and the self-clear of an event without MSI-X 10 µs later (R494, R496). -/
def Events.setPending (e : Events) (n : EvIx) (dev mono : Time) : Events :=
  { e with
    pend := e.pend ||| (1#256 <<< n.val), tEvent := e.tEvent.set n dev
    clearAt := if e.cfg[n].msix then e.clearAt else e.clearAt ++ [(n.val, mono + 10 * us)] }

/-- One occurrence of an event (R494 to R496); the flag says that a reply ring became full. The event block in reset takes none. -/
def State.occur (s : State) (n : EvIx) : State × Bool :=
  if s.boot.inReset then (s, false)
  else if s.ev.pend.getLsbD n.val then (s.modEv fun e => e.counted n, false)
  else
    let s1 := (s.modEv fun e => (e.counted n).setPending n s.time.dev s.time.mono).fireEvent n.val
    if s1.ev.en.getLsbD n.val then s1.deliver n else (s1, false)

/-- An event occurs. When its packets fill a reply ring, EV245 occurs too (R521); when EV245's own packets fill another, that occurrence
finds the pending bit set and is only counted. -/
def State.raise (s : State) (n : EvIx) : State :=
  let r := s.occur n
  if r.2 then
    let r2 := r.1.occur 245
    if r2.2 then (r2.1.occur 245).1 else r2.1
  else r.1

/-- Event `n`, given as a number. -/
def State.raiseN (s : State) (n : Nat) : State := match ix 256 n with | some i => s.raise i | none => s

/-- The time receiver follows no transmitter any more: its port state changes, EV194 (R516). -/
def State.unfollow (s : State) : State :=
  if s.time.receiving then ({ s with time := { s.time with receiving := false, transmitter := none, masters := [] } } : State).raise 194
  else { s with time := { s.time with masters := [] } }

/-- Sends a reply packet (R440): a full reply ring holds it back (R503). -/
def State.sendReply (s : State) (t : Transport) (bs : List Byte) : State :=
  match t with
  | .ring n =>
    if s.links.cr[n].full || !(s.links.cr[n].waiting.isEmpty) then s.modCr n fun r => { r with waiting := r.waiting ++ [bs] }
    else
      let r := s.ringPut n bs
      if r.2 then r.1.raise 245 else r.1
  | .udp _ _ _ => s.emit (.packet t bs)
  | .spi => s.modLinks fun l => { l with spiWaiting := l.spiWaiting ++ [bs] }

/-! ### The fault log (R541) -/

/-- The Supervisor writes a fault-log entry and raises EV248 (R476). `src`: 1 Supervisor, 2 Ladle, 3 Safety Controller, 4 island. -/
def State.faultLog (s : State) (src ev unit : Nat) (detail : Word) : State :=
  let e : FaultEntry := {
    source := src, index := s.boot.faultIndex + 1, t := s.time.dev, event := BitVec.ofNat 16 ev,
    unit := BitVec.ofNat 16 unit, detail := detail, bootCnt := s.boot.bootCnt }
  (s.modBoot fun b => { b with faultIndex := b.faultIndex + 1, faultLog := (b.faultLog ++ [e]).drop (b.faultLog.length + 1 - 1024) }).raise 248

/-- A fault-log entry's 32 bytes. -/
def FaultEntry.bytes (e : FaultEntry) : List Byte :=
  le 2 0x0051 ++ [1] ++ le 1 e.source ++ le 4 e.index.toNat ++ stampB e.t ++ le 2 e.event.toNat ++ le 2 e.unit.toNat ++ leW e.detail ++
    le 4 e.bootCnt.toNat

/-! ### Whey records and staging (R364, R415, R423) -/

/-- A whey record with nothing in it. -/
def Whey.blank (cause zone port : Nat) : Whey :=
  { cause := cause, zone := zone, port := port, products := 0, tFirst := 0, tLast := 0, firstPoint := 0, nPoints := 0, count := 0,
    lostBytes := 0, seqFirst := 0xFFFFFFFF, seqLast := 0xFFFFFFFF, wheySeq := 0 }

/-- A whey record is written on a stream. -/
def State.whey (s : State) (stream : Nat) (zone : Option Nat) (w : Whey) : State :=
  let w1 := { w with wheySeq := s.streams.wheySeq }
  (s.modStreams fun x => { x with wheySeq := x.wheySeq + 1 }).push stream zone (.whey w1) 0 false

/-- The settings that describe a zone: those in force, or, once it is withdrawn, those it had (R373). -/
def State.zoneCfg (s : State) (z : Nat) : Settings :=
  match s.zoneRt z with
  | some r => if r.gone.isEmpty then s.settings else r.gone
  | none => s.settings

/-- A whey record of one zone, over the zone's points. -/
def State.wheyZone (s : State) (z : Nat) (w : Whey) : State :=
  let ss := s.zoneCfg z
  let f := ((ss.getI .zone z 0 0x1702 0 0).toNat)
  let l := ((ss.getI .zone z 0 0x1702 1 0).toNat)
  s.whey (16 + z) (some z) { w with zone := z, port := zonePort ss z, firstPoint := f, nPoints := l + 1 - f }

/-- PRODUCTS bit of a product code (R423): 1 strain-rate, 2 strain, 3 amplitude, 4 band features, 5 Vat output. -/
def productBit (product : Nat) : Byte := 1#8 <<< (product - 1)

/-- Bytes of a zone that wait in its private staging region. -/
def State.staged (s : State) (z : Nat) : Nat :=
  (s.streams.queue.filter fun it => it.zone == some z && !it.urgent && !it.inPool).foldl (fun n it => n + it.record.bytes.length) 0

/-- What a discarded block was: its product, first and last instants, FRAME_SEQ when it was a frame, bytes. -/
structure Lost where
  product : Nat
  tFirst : Time
  tLast : Time
  seq : Option (BitVec 32)
  size : Nat

/-- The record of one cause of a run (R364, R424). -/
def DiscardRun.whey (r : DiscardRun) : Whey :=
  { Whey.blank r.cause 0 0 with
    products := r.products, tFirst := r.tFirst, tLast := r.tLast, count := r.count, lostBytes := r.bytes,
    seqFirst := r.seqFirst, seqLast := r.seqLast }

/-- HOST_LATE of a zone and of LADLE_STAT (R377). -/
def State.hostLate (s : State) (z : Nat) : State :=
  (s.modZone z fun r => { r with flags := r.flags ||| 2 }).modLadle fun l => { l with stat := setBit l.stat 2 }

/-- Whether a zone's stream ring has been starved for longer than HOST_TO: the HOST breach of R377 (R505). -/
def State.starvedLong (s : State) (z : Nat) : Bool :=
  match (assoc s.ladle.place.rings z).bind (ix 64) with
  | some n => match s.links.sr[n].starved with
    | some t => decide (t + (s.zoneCfg z).zone z 0x170C * ms < s.time.mono)
    | none => false
  | none => false

/-- A discard joins its zone's run (R364): EV254 at the first discard of a run; HOST_LATE when the zone's ring has been starved
for too long (R377). -/
def State.discard (s0 : State) (z cause : Nat) (b : Lost) : State :=
  let s := if cause = 2 && s0.starvedLong z then s0.hostLate z else s0
  match s.zoneRt z with
  | none => s
  | some rt =>
    let q := b.seq.getD 0xFFFFFFFF
    let pb := productBit b.product
    let runs := if rt.runs.any fun r => r.cause == cause then
        rt.runs.map fun r => if r.cause == cause then { r with
          count := r.count + 1, bytes := r.bytes + b.size,
          tFirst := min r.tFirst b.tFirst, tLast := max r.tLast b.tLast, products := r.products ||| pb,
          seqFirst := if r.seqFirst = 0xFFFFFFFF then q else r.seqFirst, seqLast := if b.seq.isSome then q else r.seqLast } else r
      else rt.runs ++ [{
        cause := cause, since := s.time.mono, count := 1, bytes := b.size, tFirst := b.tFirst, tLast := b.tLast,
        products := pb, seqFirst := q, seqLast := q }]
    let s1 := s.modZone z fun r => { r with runs := runs, inRun := true }
    if rt.inRun then s1 else s1.raise 254

/-- A run ends: its records are written (R364). -/
def State.endRun (s : State) (z : Nat) : State :=
  match s.zoneRt z with
  | none => s
  | some rt =>
    if rt.inRun then
      rt.runs.foldl (fun t r => t.wheyZone z r.whey) (s.modZone z fun r => { r with runs := [], inRun := false })
    else s

/-- The description of a staged record for a whey record. -/
def TxItem.lost (it : TxItem) : Lost :=
  match it.record with
  | .curd f => {
      product := f.product, tFirst := (f.rows.map (·.t)).headD 0, tLast := (f.rows.map (·.t)).getLastD 0, seq := some f.frameSeq,
      size := it.record.bytes.length }
  | r => { product := 5, tFirst := it.arrived, tLast := it.arrived, seq := none, size := r.bytes.length }

/-- Discards oldest staged blocks of a zone until `need` bytes fit in `room` (DROP_OLD, R364). -/
def State.dropOldest (fuel : Nat) (s : State) (z need room : Nat) : State :=
  match fuel with
  | 0 => s
  | f + 1 =>
    if s.staged z + need ≤ room then s
    else match s.streams.queue.find? fun it => it.zone == some z && !it.urgent && !it.inPool && it.seq0.isNone with
      | none => s
      | some it =>
        let s1 := s.modStreams fun x => { x with queue := x.queue.erase it }
        (s1.discard z 2 it.lost).dropOldest f z need room

/-- A zone's block arrives at its staging region under DROP (R364). -/
def State.stage (s : State) (z : Nat) (stream : Nat) (r : Rec) (cls : Nat) : State :=
  let size := r.bytes.length
  let room := (s.zoneCfg z).zone z 0x170D
  let probe : TxItem := {
    stream := stream, zone := some z, record := r, urgent := false, bulk := cls == 2, arrived := s.time.dev, links := [],
    seq0 := none, cut := 0, ring := 0, sent := 0, inPool := false, cls := cls }
  if s.staged z + size ≤ room then (s.endRun z).push stream (some z) r cls false
  else match (s.zoneCfg z).zone z 0x170B with
    | 0 => s.discard z 2 probe.lost
    | 1 =>
      let s1 := s.dropOldest s.streams.queue.length z size room
      if s1.staged z + size ≤ room then s1.push stream (some z) r cls false else s1.discard z 2 probe.lost
    | _ =>
      if s.ladle.overflow + size ≤ s.settings.dev 0x0214 * 2097152 then
        ((s.endRun z).modLadle fun l => { l with overflow := l.overflow + size }).push stream (some z) r cls true
      else s.discard z 2 probe.lost

/-- Self-tests are asked for, as BACKGROUND work (R362, R367). -/
def State.startTests (s : State) (us : List UnitName) : State :=
  s.modLadle fun l => { l with
    tests := (l.tests ++ us).eraseDups
    testAges := (l.testAges.filter fun x => l.tests.contains x.1) ++ (us.filter fun u => !(l.tests.contains u)).map fun u => (u, s.time.mono, 3) }

/-- The class of a zone's continuous products (R354, R362). -/
def State.zoneClass (s : State) (z : Nat) : Nat := (s.zoneCfg z).zone z 0x170A

end Sys2Proof.Machine
end

