-- ==== Sys2Proof/Machine/Reals.lean ====
section
/-! DEFINITION. Numbers that the spec states as real values: binary64 (R417), sines, roots, logarithms and arguments with 128 fraction bits, and
rounding where the spec states none. -/

namespace Sys2Proof.Machine

/-! ### Rounding that the spec leaves open -/

/-- a / b as an integer where the spec states no rounding: the quotient itself when it is whole, and otherwise the integer below it or the one
above it, which of them is open (log entry 5, DESIGN CHOICE). -/
def divOpen (a : Int) (b : Nat) : Int := a / b + (if a % b ≠ 0 && Config.roundUp a b then 1 else 0)

/-- `divOpen` never leaves the two integers about the quotient. -/
theorem divOpen_bounds (a : Int) (b : Nat) : a / b ≤ divOpen a b ∧ divOpen a b ≤ a / b + 1 := by
  unfold divOpen; split <;> omega

/-- A whole quotient is exact. -/
theorem divOpen_exact (a : Int) (b : Nat) (h : a % b = 0) : divOpen a b = a / b := by
  simp [divOpen, h]

/-- A rational number as an integer where the spec states no rounding. -/
def ratOpen (q : Rat) : Int := divOpen q.num q.den

/-! ### binary64 -/

/-- The exponent of num / den: the largest e with 2^e ≤ num / den. -/
def ratioExp (num den : Nat) : Int :=
  let e : Int := (Nat.log2 num : Int) - Nat.log2 den
  if den * 2 ^ e.toNat ≤ num * 2 ^ (-e).toNat then e else e - 1

/-- binary64 of num / den in the normal range, rounded to nearest, ties to even (R417 names IEEE 754; its default rounding: log entry 111,
PRESUMED). -/
def binary64 (num den : Nat) : BitVec 64 :=
  if num = 0 ∨ den = 0 then 0
  else
    let e := ratioExp num den
    let m := divEven ((num * 2 ^ (52 - e).toNat : Nat) : Int) (den * 2 ^ (e - 52).toNat)
    BitVec.ofInt 64 ((e + 1022) * 2 ^ 52 + m)

/-- The number that a binary32 word holds; none for an infinity or a NaN. -/
def binary32 (w : BitVec 32) : Option Rat :=
  let e := w.toNat / 8388608 % 256
  let f := w.toNat % 8388608
  let m : Int := if e = 0 then f else 8388608 + f
  let x := (max e 1 : Int) - 150
  let v : Rat := if 0 ≤ x then ((m * 2 ^ x.toNat : Int) : Rat) else mkRat m (2 ^ (-x).toNat)
  if e = 255 then none else some (if w.msb then -v else v)

/-- The least number of `lo` to `lo + 2^k` from which a rising predicate holds. -/
def bisect (f : Nat → Bool) : Nat → Nat → Nat
  | 0, lo => if f lo then lo else lo + 1
  | k + 1, lo => if f (lo + 2 ^ k) then bisect f k lo else bisect f k (lo + 2 ^ k)

/-! ### Numbers with 128 fraction bits -/

/-- One, with 128 fraction bits. -/
def fixOne : Int := 2 ^ 128
/-- π with 128 fraction bits. -/
def fixPi : Int := 1069028584064966747859680373161870783300
/-- A product of two numbers with 128 fraction bits. -/
def fixMul (a b : Int) : Int := a * b / fixOne

/-- Terms `k` to `k + n - 1` of a series whose term k is the term before it times `f k`. -/
def fixSeries (f : Nat → Int → Int) : Nat → Nat → Int → Int → Int
  | 0, _, _, acc => acc
  | n + 1, k, t, acc => let u := f k t; fixSeries f n (k + 1) u (acc + u)

/-- sin(π num / den). -/
def fixSinPi (num den : Nat) : Int :=
  let r := num % (2 * den)
  if r % den = 0 then 0
  else
    let x := fixPi * r / den
    fixSeries (fun k t => -(fixMul (fixMul t x) x) / ((2 * k) * (2 * k + 1) : Nat)) 40 1 x x

/-- sinc(num / den), for num of either sign. -/
def fixSinc (num : Int) (den : Nat) : Int :=
  if num = 0 then fixOne else fixSinPi num.natAbs den * den * fixOne / (fixPi * num.natAbs)

/-- cos(π num / den). -/
def fixCosPi (num den : Nat) : Int := fixSinPi (2 * num + den) (2 * den)

/-- The bits of a square root from bit `k - 1` down, `r` found so far. -/
def isqrtFrom : Nat → Nat → Nat → Nat
  | 0, _, r => r
  | k + 1, n, r => if (r + 2 ^ k) * (r + 2 ^ k) ≤ n then isqrtFrom k n (r + 2 ^ k) else isqrtFrom k n r
/-- The integer square root, downwards. -/
def isqrt (n : Nat) : Nat := isqrtFrom (Nat.log2 n / 2 + 1) n 0

/-- sqrt(num / den) as an integer where the spec states no rounding: the root itself when it is whole, else one of the two integers about it (log entry 5,
DESIGN CHOICE). -/
def rootOpen (num den : Nat) : Nat :=
  let r := isqrt (num / den)
  if r * r * den = num then r else r + b01 (Config.roundUp num den)

/-- The fourth root of `m`, with 64 fraction bits. -/
def fourthRoot (m : Nat) : Nat := isqrt (isqrt (m * 2 ^ 256))

/-- ln 2 with 128 fraction bits. -/
def fixLn2 : Int := 235865763225513294137944142764154484399
/-- ln(num / den), with 128 fraction bits; 0 unless both are positive. With m = num / (den × 2^e) from 1 to 2, it is e ln 2 + 2 atanh((m − 1) / (m + 1)). -/
def fixLn (num den : Nat) : Int :=
  if num = 0 ∨ den = 0 then 0
  else
    let e := ratioExp num den
    let a : Int := (num * 2 ^ (-e).toNat : Nat)
    let b : Int := (den * 2 ^ e.toNat : Nat)
    let x := (a - b) * fixOne / (a + b)
    let x2 := fixMul x x
    let ps := (List.range 44).foldl (fun (acc : Int × Int) k => (acc.1 + acc.2 / ((2 * k + 1 : Nat) : Int), fixMul acc.2 x2)) (0, x)
    e * fixLn2 + 2 * ps.1

/-- exp(x), x with 128 fraction bits: 2^k × exp(r) with r = x − k ln 2 from 0 to ln 2. -/
def fixExp (x : Int) : Int :=
  let k := x / fixLn2
  let e := fixSeries (fun i t => fixMul t (x - k * fixLn2) / i) 40 1 fixOne fixOne
  e * 2 ^ k.toNat / 2 ^ (-k).toNat

/-- arctan of a number from 0 to 1 with 128 fraction bits, halved twice in argument first: atan x = 2 atan(x / (1 + sqrt(1 + x²))). -/
def fixAtan (x0 : Int) : Int :=
  let half := fun (x : Int) => x * fixOne / (fixOne + (isqrt ((fixOne * fixOne + x * x).toNat) : Int))
  let x := half (half x0)
  let x2 := fixMul x x
  let ps := (List.range 40).foldl (fun (acc : Int × Int) k =>
    (if k % 2 = 0 then acc.1 + acc.2 / ((2 * k + 1 : Nat) : Int) else acc.1 - acc.2 / ((2 * k + 1 : Nat) : Int), fixMul acc.2 x2)) (0, x)
  4 * ps.1

/-- arg(x + jy) from −π to π, with 128 fraction bits; 0 for zero. -/
def fixArg (x y : Int) : Int :=
  let ax : Int := x.natAbs
  let ay : Int := y.natAbs
  if ax = 0 ∧ ay = 0 then 0
  else
    let q := if ay ≤ ax then fixAtan (ay * fixOne / ax) else fixPi / 2 - fixAtan (ax * fixOne / ay)
    let h := if x < 0 then fixPi - q else q
    if y < 0 then -h else h

/-- arg(x + jy) in units of 2π / 65,536, −32,768 to 32,767: exact on the axes, else one of the two integers about it (log entry 5, DESIGN
CHOICE). -/
def argUnits (x y : Int) : Int :=
  if y = 0 then (if x < 0 then -32768 else 0)
  else if x = 0 then (if y < 0 then -16384 else 16384)
  else wrap16 (divOpen (fixArg x y * 32768) fixPi.toNat)

end Sys2Proof.Machine
end

