-- ==== Sys2Proof/Machine/Taps.lean ====
section
/-! DEFINITION. The coefficients of the filter chain (R150), computed with 128 fraction bits and rounded once. -/

namespace Sys2Proof.Machine

/-- I0 of the number whose quarter square is `q`. -/
def fixI0 (q : Int) : Int := fixSeries (fun k t => fixMul t q / ((k * k : Nat) : Int)) 60 1 fixOne fixOne

/-- The Kaiser window at j / m for β = b / 2: I0(β sqrt(1 − (j / m)²)) / I0(β). -/
def fixKaiser (b : Nat) (j : Int) (m : Nat) : Int :=
  let q := fixOne * (b * b : Nat) / 16
  fixI0 (q * ((m * m : Nat) - j * j) / (m * m : Nat)) * fixOne / fixI0 q

/-- A coefficient as 18-bit two's complement, rounded to nearest with ties to even; its fraction bits are not stated (log entry 112, DESIGN
CHOICE). Filters: 0 half-band, 1 trim, 2 resampler. -/
def tapRound (filter : Nat) (c : Int) : Int := satS 18 (divEven (c * 2 ^ (Config.tapShift filter)) (2 ^ 128))

/-- The half-band coefficient h[j], j from −47 to 47 (R150). -/
def halfBandTap (j : Int) : Int := tapRound 0 (fixMul (fixSinc j 2) (fixKaiser 16 j 47) / 2)

/-- The trim coefficient h[j] before its scaling, for F_OUT / f_I = r / q. -/
def trimRaw (r q : Nat) (j : Int) : Int := fixMul (fixSinc (j * r) q) (fixKaiser 14 j 63)
/-- The trim coefficients h[−63] to h[63], of unity sum, for F_OUT / f_I = r / q (R150). -/
def trimTaps (r q : Nat) : List Int :=
  let raw := (List.range 127).map fun i => trimRaw r q ((i : Int) - 63)
  let sum := raw.sum
  raw.map fun c => tapRound 1 (c * fixOne / sum)

/-- The resampler's prototype h[j], j from 0 to 65,535 (R150). -/
def resampRaw (j : Nat) : Int :=
  let u : Int := 2 * (j : Int) - 65535
  fixMul (fixSinc u 2048) (fixKaiser 14 u 65535)
/-- The 64 coefficients of phase `p`, of unity sum: those of the prototype at p, p + 1,024, … (log entry 112, DESIGN CHOICE). -/
def resampTaps (p : Nat) : List Int :=
  let raw := (List.range 64).map fun i => resampRaw (p + 1024 * i)
  let sum := raw.sum
  raw.map fun c => tapRound 2 (c * fixOne / sum)

end Sys2Proof.Machine
end

