-- ==== Sys2Proof/Machine/Plan.lean ====
section
/-! DEFINITION. What a tone plan, a zone recipe and an emitter definition imply: budgets, bins, points, rates, codes (R32 to R38, R55, R112,
R124, R146, R354, R569), as the commit checks of R453 and the engine use them. -/

namespace Sys2Proof.Machine

/-! ### Tone plan -/

/-- G of a port's plan. -/
def planG (ss : Settings) (p : Nat) : Nat := ss.port p 0x1001
/-- D of a port's plan. -/
def planD (ss : Settings) (p : Nat) : Nat := ss.port p 0x1002
/-- N_BIN of a port's plan. -/
def planNBin (ss : Settings) (p : Nat) : Nat := ss.port p 0x1003
/-- Whether a port's plan is of chirps. -/
def planChirp (ss : Settings) (p : Nat) : Bool := ss.port p 0x1004 == 1
/-- S of a port's plan, in f_S samples. -/
def planS (ss : Settings) (p : Nat) : Nat := ss.port p 0x1006
/-- GAUGE of a port. -/
def planGauge (ss : Settings) (p : Nat) : Nat := ss.port p 0x1201
/-- N_BINS = ceil(G × S / N_BIN) (R112). -/
def nBins (ss : Settings) (p : Nat) : Nat := ceilDiv (planG ss p * planS ss p) (planNBin ss p)
/-- Points of a port: 0 to N_BINS − GAUGE − 1 (R124). -/
def nPoints (ss : Settings) (p : Nat) : Nat := nBins ss p - planGauge ss p
/-- Sampling rate in Hz. -/
def fsHz (ss : Settings) : Nat := ss.fsN * 250000
/-- `n` samples at f_S as time. -/
def samplesTime (ss : Settings) (n : Nat) : Time := n * sec / fsHz ss
/-- Frame length of a port. -/
def frameTime (ss : Settings) (p : Nat) : Time := samplesTime ss (planG ss p * planS ss p)
/-- N_RT = ceil(2 × N_G × FIBRE_LEN × f_S / c) (R37). -/
def nRt (ss : Settings) (p : Nat) : Nat := ceilDiv (2 * ss.port p 0x1009 * ss.port p 0x1008 * fsHz ss) (10000 * 299792458)
/-- AMP of each tone. -/
def planAmps (ss : Settings) (p : Nat) : List Int := (ss.val? { kind := .port, inst := p, sub := 0, code := 0x0203 }).getD []
/-- F_OFF. -/
def planFOff (ss : Settings) (p : Nat) : Int := ss.getI .port p 0 0x1007 0 0
/-- Duration of a tone in f_S samples: 16 / B or T_DUR (R41). -/
def toneSamples (ss : Settings) (p : Nat) : Nat := if planChirp ss p then ss.port p 0x1005 else 16 * planNBin ss p
/-- Steps of 250 ps as time. -/
def quarters (n : Nat) : Time := n * 16384

/-- First failing check of a list, 0 when all hold. -/
def firstFail : List (Bool × Status) → Status
  | [] => 0
  | (b, st) :: r => if b then firstFail r else st

/-- Parameters of a plan that have no default (R446, R572). -/
def planGiven (ss : Settings) (p : Nat) : Bool :=
  [0x1001, 0x1002, 0x1003, 0x1004, 0x1006, 0x1008, 0x0203].all (fun c => ss.has .port p 0 c) &&
    (!planChirp ss p || ss.has .port p 0 0x1005)

/-- AMP sums of every group within 511 (R34). -/
def ampsOk (ss : Settings) (p : Nat) : Bool :=
  (List.range (planG ss p)).all fun g => isum ((planAmps ss p).drop (g * planD ss p) |>.take (planD ss p)) ≤ 511

/-- The bandwidth budget (R36). -/
def bandOk (ss : Settings) (p : Nat) : Bool :=
  let nt := planG ss p * planD ss p
  let nb := planNBin ss p
  decide (11 * nt ≤ 9 * nb) && decide ((planFOff ss p).natAbs * 20 * nb + nt * 11 * 65536 ≤ 9 * 65536 * nb)

/-- Ranges of R129 that involve N_BINS: FIRST_DB and LAST_DB. -/
def dbOk (ss : Settings) (p : Nat) : Bool :=
  let n := nBins ss p
  let f := ss.port p 0x1206
  let l := ss.port p 0x1207
  let base := if f = 0 then ss.port p 0x0208 + 64 else f
  (f == 0 || (decide (1 ≤ f) && decide (f + 16 ≤ n))) && (l == 0 || (decide (base + 8 ≤ l) && decide (l + 8 ≤ n)))

/-- The checks of a plan against an f_S (R32 to R38, R129, R572). -/
def planChecks (ss : Settings) (p : Nat) : List (Bool × Status) :=
  let g := planG ss p
  let s := planS ss p
  [ (planGiven ss p, 0x020D),
    (decide (g * planD ss p ≤ 16), 0x0203),
    (!planChirp ss p || (decide (16 * planNBin ss p ≤ ss.port p 0x1005) && decide (4 * ss.port p 0x1005 ≤ s)), 0x0209),
    ((planAmps ss p).length == g * planD ss p, 0x020E),
    (ampsOk ss p, 0x0206),
    (bandOk ss p, 0x0204),
    (decide (nRt ss p ≤ g * s), 0x0205),
    (decide (g * s ≤ 2097152), 0x0207),
    (decide (planGauge ss p + 1 ≤ nBins ss p), 0x0212),
    (dbOk ss p, 0x0213) ]

/-- Whether two settings give a port the same tone plan. -/
def samePlan (a b : Settings) (p : Nat) : Bool :=
  ((List.range 11).map (0x1001 + ·) ++ [0x0203, 0x0204]).all fun c =>
    a.val? { kind := .port, inst := p, sub := 0, code := c } == b.val? { kind := .port, inst := p, sub := 0, code := c }

/-! ### Zones -/

/-- FIRST_POINT of a zone. -/
def zoneFirst (ss : Settings) (z : Nat) : Nat := (ss.getI .zone z 0 0x1702 0 0).toNat
/-- LAST_POINT of a zone. -/
def zoneLast (ss : Settings) (z : Nat) : Nat := (ss.getI .zone z 0 0x1702 1 0).toNat
/-- Points of a zone. -/
def zonePts (ss : Settings) (z : Nat) : Nat := zoneLast ss z + 1 - zoneFirst ss z
/-- A product of a zone's PRODUCTS mask: 0 strain-rate, 1 strain, 2 amplitude, 3 band features, 5 delay records. -/
def zoneProduct (ss : Settings) (z i : Nat) : Bool := ss.zone z 0x1703 / 2 ^ i % 2 == 1
/-- Whether a zone runs EXACT. -/
def zoneExact (ss : Settings) (z : Nat) : Bool := ss.zone z 0x1301 == 1
/-- Points per Vat instance. -/
def instPoints (ss : Settings) (z : Nat) : Nat := if ss.has .zone z 0 0x1706 then ss.zone z 0x1706 else zonePts ss z
/-- Vat instances of a zone, 0 without a program (R356). -/
def nInst (ss : Settings) (z : Nat) : Nat := if ss.zone z 0x1705 = 0 then 0 else ceilDiv (zonePts ss z) (instPoints ss z)
/-- F_LO and F_HI of a band. -/
def bandEdges (ss : Settings) (z k : Nat) : Nat × Nat := ((ss.getI .zone z k 0x1307 0 0).toNat, (ss.getI .zone z k 0x1307 1 0).toNat)
/-- The gauge that points of a zone's products take: 0 for an amplitude product. -/
def productGauge (ss : Settings) (z product : Nat) : Nat := if product = 3 then 0 else planGauge ss (zonePort ss z)

/-- Filter-chain limits that involve f_M (R146, R147): 0x0214, then 0x0215. -/
def filterChecks (ss : Settings) (z : Nat) : List (Bool × Status) :=
  let s := planS ss (zonePort ss z)
  let fo := ss.zone z 0x1302
  let edges : List (Bool × Status) := (List.range 4).map fun k =>
    let e := bandEdges ss z k
    (!(ss.has .zone z k 0x1307) || (decide (e.1 + 10 * ss.zone z 0x1306 ≤ e.2) &&
      (decide (ss.zone z 0x1305 ≤ k) || decide (e.2 * 2 * s ≤ 9 * fsHz ss))), 0x0215)
  (!zoneExact ss z || (decide (fo * s ≤ fsHz ss) && decide (fsHz ss < 2048 * fo * s)), 0x0214) :: edges

/-- The largest row of a zone's products, in bytes. -/
def rowMax (ss : Settings) (z : Nat) : Nat :=
  ([(0, 2), (1, 4), (2, 2), (3, 4)].filter fun iw => zoneProduct ss z iw.1).foldl (fun m iw => max m (iw.2 * zonePts ss z)) 0

/-- The point range of a zone (R354, R355). -/
def rangeOk (ss : Settings) (z : Nat) : Bool :=
  decide (zoneFirst ss z ≤ zoneLast ss z) && decide (zoneLast ss z < nPoints ss (zonePort ss z))

/-- The checks of a zone's recipe (R146, R147, R354, R386, R446). -/
def zoneChecks (ss : Settings) (imgs : List Image) (z : Nat) : List (Bool × Status) :=
  let p := zonePort ss z
  let given : List (Bool × Status) := [ ([0x1701, 0x1702, 0x1703].all (fun c => ss.has .zone z 0 c), 0x020D),
    ((List.range (ss.zone z 0x1305)).all (fun k => ss.has .zone z k 0x1307), 0x020D),
    (ss.hasPlan p, 0x021F) ]
  given ++ filterChecks ss z ++
  [ (rangeOk ss z, 0x021F),
    (ss.zone z 0x1708 == 0 || ss.mode p 3, 0x021E),
    (ss.zone z 0x1705 == 0 || imgs.any (fun i => i.id == ss.zone z 0x1705), 0x0225),
    (ss.zone z 0x1707 == 0 || (decide (rowMax ss z ≤ 1048576) && decide (ss.zone z 0x1808 * rowMax ss z ≤ 16777216)), 0x021E) ]

/-! ### Emitters -/

/-- An emitter's parameter. -/
def emPar (ss : Settings) (e code i : Nat) : Int := ss.getI .emitter e 0 code i 0
/-- ROLE of an emitter: 0 PROBE, 1 PUMP, 2 LO, 3 OTHER. -/
def emRole (ss : Settings) (e : Nat) : Nat := ss.get .emitter e 0x0205
/-- The port an emitter serves, 255 for none. -/
def emServes (ss : Settings) (e : Nat) : Nat := ss.get .emitter e 0x0206
/-- The safety group of an emitter. -/
def emGroup (ss : Settings) (e : Nat) : Nat := ss.get .emitter e 0x0105
/-- The safety group of a port. -/
def portGroup (ss : Settings) (p : Nat) : Nat := ss.port p 0x0105

/-- TEC and bias codes of an emitter's target (R55); a wavelength in units of 2^-10 pm. -/
def emCodes (ss : Settings) (e : Nat) : Int × Int :=
  let delta := (emPar ss e 0x0207 0 - emPar ss e 0x1A01 0) * 1024
  let kt := emPar ss e 0x1A03 0
  let ki := emPar ss e 0x1A04 0
  let tec := if kt = 0 then emPar ss e 0x1A02 1 else emPar ss e 0x1A02 1 + divAway delta kt
  let resid := delta - (tec - emPar ss e 0x1A02 1) * kt
  let bias := if ki = 0 then emPar ss e 0x1A02 0 else emPar ss e 0x1A02 0 + divAway resid ki
  (tec, bias)

/-- Whether a value lies in a range. -/
def within (lo x hi : Int) : Bool := decide (lo ≤ x) && decide (x ≤ hi)

/-- The checks of an emitter definition (R53, R55, R446, R569): `n` devices on the chain, when a discovery has told it. -/
def emitterChecks (ss : Settings) (n : Option Nat) (e : Nat) : List (Bool × Status) :=
  let bmin := emPar ss e 0x1A05 0
  let bmax := emPar ss e 0x1A05 1
  let tmin := emPar ss e 0x1A05 2
  let tmax := emPar ss e 0x1A05 3
  let (tec, bias) := emCodes ss e
  [ ([0x0205, 0x0206, 0x0207, 0x1A01, 0x1A02, 0x1A03, 0x1A04, 0x1A05, 0x1A06].all (fun c => ss.has .emitter e 0 c), 0x020D),
    (match n with | some d => decide (e < 4 * d) | none => true, 0x0211),
    (!(emPar ss e 0x1A03 0 == 0 && emPar ss e 0x1A04 0 == 0 && emPar ss e 0x0207 0 != emPar ss e 0x1A01 0), 0x0210),
    (within tmin tec tmax && within bmin bias bmax, 0x0210),
    (decide (bmin ≤ bmax) && decide (tmin ≤ tmax) && within bmin (emPar ss e 0x1A02 0) bmax && within bmin (emPar ss e 0x1A06 0) bmax &&
      within tmin (emPar ss e 0x1A02 1) tmax, 0x0210) ]

/-- λ_t of the port's PROBE emitter in pm, 0 when it has none (R127). -/
def probeLambda (ss : Settings) (p : Nat) : Nat :=
  match ss.emitters.find? fun e => emRole ss e == 0 && emServes ss e == p with
  | some e => ss.get .emitter e 0x0207
  | none => 0

/-! ### Scales (R127, R238, R417) -/

/-- Strain per LSB as a ratio (R127): λ × f_S / (10^12 × c × GAUGE × N_BIN × XI / 2^16), since N_G × L_G = GAUGE × N_BIN × c / (2 × f_S). -/
def strainLsb (ss : Settings) (p : Nat) : Nat × Nat :=
  (probeLambda ss p * fsHz ss, 10 ^ 12 * 299792458 * (planGauge ss p * planNBin ss p * ss.port p 0x1202))
/-- Strain-rate per LSB as a ratio: f_S / S times the strain. -/
def rateLsb (ss : Settings) (p : Nat) : Nat × Nat :=
  let x := strainLsb ss p
  (x.1 * fsHz ss, x.2 * planS ss p)

/-- SCALE of a product of a zone (R417); without a PROBE emitter R127 has no λ_t, and the scale is open (log entry 5, DESIGN CHOICE). -/
def frameScale (ss : Settings) (z product : Nat) : BitVec 64 :=
  let p := zonePort ss z
  let og := ss.zone z 0x1304
  if product = 3 then binary64 1 (2 ^ og)
  else if 4 < product then 0
  else if probeLambda ss p = 0 then Config.noScale [product, ss.fsN, planGauge ss p, planNBin ss p, ss.port p 0x1202, planS ss p, og]
  else
    let e := strainLsb ss p
    let r := rateLsb ss p
    match product with
    | 1 => binary64 r.1 (r.2 * 2 ^ og)
    | 2 => binary64 e.1 e.2
    | _ => binary64 (r.1 * r.1) (256 * (r.2 * r.2))

/-- RATE of a product of a zone (R417). -/
def frameRate (ss : Settings) (z product : Nat) : BitVec 64 :=
  if product = 5 then 0
  else if product = 4 then binary64 (ss.zone z 0x1306) 1
  else if zoneExact ss z then binary64 (ss.zone z 0x1302) 1
  else binary64 (fsHz ss) (planS ss (zonePort ss z))

end Sys2Proof.Machine
end

