-- ==== Sys2Proof/Machine/Samples.lean ====
section
/-! DEFINITION. Lane samples: their tags and the void code (R73 to R75), and the sums that the calibrator and the slice checks take from a
frame (R83, R84, R90). -/

namespace Sys2Proof.Machine

/-! ### Tags (R74, R75) -/

/-- The void code (R73). -/
def voidCode : Int := -2048

/-- Whether a span holds at an instant for a position. -/
def TagSpan.covers (x : TagSpan) (t : Time) (pos : Nat) : Bool :=
  decide (x.since ≤ t) && (match x.till with | some e => decide (t < e) | none => true) &&
    (match x.pos with | some i => i.val == pos | none => true)

/-- The tag that spans give a sample; of several the highest number (log entry 113, DESIGN CHOICE). -/
def spansTag (xs : List TagSpan) (t : Time) (pos : Nat) : Nat := xs.foldl (fun n x => if x.covers t pos then max n x.tag else n) 0

/-- A span begins; spans that ended more than 5 s before are forgotten, since no ping that they touch is in flight. -/
def openSpan (now : Time) (x : TagSpan) (xs : List TagSpan) : List TagSpan :=
  (xs.filter fun y => match y.till with | some e => decide (now < e + 5 * sec) | none => true) ++ [x]

/-- The open spans of a tag, all or one position's, end. -/
def closeSpans (now : Time) (tag : Nat) (xs : List TagSpan) : List TagSpan :=
  xs.map fun x => if x.tag == tag && x.till.isNone then { x with till := some now } else x

/-- The tag of a lane's sample at an instant in a position, a dead slice's position apart (R74, R194, R196, R198). -/
def State.spanTag (s : State) (n : LaneIx) (t : Time) (pos : Nat) : Nat :=
  max (spansTag s.lanes[n].spans t pos) (max (spansTag s.clk.spans t pos) (spansTag s.ports[lanePort n].spans t pos))
/-- Whether a position's slice is dead at an instant (R86). -/
def Lane.deadAt (l : Lane) (t : Time) (pos : Nat) : Bool := l.dead.any fun d => d.1.val == pos && decide (d.2 ≤ t)

/-- The tag with which a lane's sample crosses into the fabric (R74). -/
def State.laneTag (s : State) (n : LaneIx) (t : Time) (pos : Nat) : Nat :=
  max (s.spanTag n t pos) (if s.lanes[n].deadAt t pos then 2 else 0)

/-! ### The samples of a ping (R107) -/

/-- The CK_SMP sample at or after an instant, counted from the origin of elapsed time (log entry 114, DESIGN CHOICE). -/
def sampleAt (ss : Settings) (t : Time) : Nat := ceilDiv (t * fsHz ss) sec
/-- The instant of a CK_SMP sample. -/
def sampleTime (ss : Settings) (m : Nat) : Time := m * sec / fsHz ss

/-- Sample 0 of a ping launched at `t`: the first CK_SMP sample at or after the launch plus PROBE_DELAY (R107). -/
def sample0 (ss : Settings) (p : Nat) (t : Time) : Nat := sampleAt ss (t + quarters (ss.port p 0x100A))

/-- Samples that a ping's bins depend on: to G × S − 1 and the support of the last bin (R107, R112). -/
def pingSpan (ss : Settings) (p : Nat) : Nat :=
  nBins ss p * planNBin ss p + 16 * planNBin ss p + (if planChirp ss p then ss.port p 0x1005 else 0)

/-- A lane's samples of a ping as they reach the pipeline: the code, its tag, whether only a dead slice makes it void, and whether the input
buffer discarded it (R21, R75, R86). -/
structure LaneSample where
  code : Int
  tag : Nat
  deadOnly : Bool
  dropped : Bool
deriving DecidableEq, Repr

/-- Whether a sample is void for a reason other than a dead slice (R117). -/
def LaneSample.void (x : LaneSample) : Bool := x.dropped || (x.tag ≠ 0 && !x.deadOnly)
/-- A sample that nothing is known of has code 0 and no tag. -/
def LaneSample.blank : LaneSample := { code := 0, tag := 0, deadOnly := false, dropped := false }

/-- The samples of lane `k` of a port's ping, as many as `n`, from sample 0 on. -/
def State.laneSamples (s : State) (cfg : Settings) (p : PortIx) (k : Fin 4) (m0 n : Nat) (codes : List Int) : List LaneSample :=
  let l := portLane p k
  (List.range n).map fun i =>
    let t := sampleTime cfg (m0 + i)
    let pos := (m0 + i) % 8
    let sp := s.spanTag l t pos
    { code := codes.getD i 0, tag := s.laneTag l t pos, deadOnly := sp = 0 && s.lanes[l].deadAt t pos
      dropped := s.ports[p].drops.any fun x => x.covers t pos }

/-- QC of a lane at an instant (R87, R88). -/
def Lane.qcAt (l : Lane) (t : Time) : Int := ((l.qcs.find? fun x => decide (x.1 ≤ t)).map (·.2)).getD 0
/-- What a Q lane's output stage makes of its sample: Q − QC × I, an output code again (R73); its last unit is open (log entry 5, DESIGN CHOICE). -/
def qcOut (qc i q : Int) : Int := max (-2047) (min 2047 (divOpen (4096 * q - qc * i) 4096))

/-- The output codes of lane `k` of a ping (R73): those of a Q lane after the quadrature coefficient in force at each sample. -/
def State.laneCodes (s : State) (cfg : Settings) (p : PortIx) (k : Fin 4) (m0 : Nat) (dat : PingData) : List Int :=
  let own := dat.lanes.getD k.val []
  if k.val % 2 = 0 then own
  else own.zipIdx.map fun (c, i) => qcOut ((s.lanes[portLane p k]).qcAt (sampleTime cfg (m0 + i))) ((dat.lanes.getD (k.val - 1) []).getD i 0) c

/-- The four lanes of a ping. -/
def State.pingSamples (s : State) (cfg : Settings) (p : PortIx) (at' : Time) (dat : PingData) : List (List LaneSample) :=
  let m0 := sample0 cfg p.val at'
  (List.finRange 4).map fun k => s.laneSamples cfg p k m0 (pingSpan cfg p.val) (s.laneCodes cfg p k m0 dat)

/-- The worst of the four lanes at each sample: void (R116), void by the input buffer (R22), tagged overrange, void for a reason other than
overrange (R65). -/
structure VoidAt where
  void : Bool
  dropped : Bool
  ovr : Bool
  other : Bool
deriving DecidableEq, Repr

/-- The void samples of a ping. -/
def voidsOf (ls : List (List LaneSample)) (n : Nat) : List VoidAt :=
  (List.range n).map fun i =>
    let xs := ls.map fun l => l.getD i LaneSample.blank
    { void := xs.any (·.void), dropped := xs.any (·.dropped), ovr := xs.any fun x => x.tag == 1
      other := xs.any fun x => x.dropped || (x.void && x.tag != 1) }

/-- A window of a list: from index `a` to `b`. -/
def window {α : Type} (l : List α) (a b : Nat) : List α := (l.drop a).take (b + 1 - a)

/-- What the Harp takes of a lane, in halves of a code: 0 for a tagged or discarded sample (R108), the mean of its neighbours for a dead slice's
(R117). -/
def laneStream (xs : List LaneSample) : List Int :=
  let v := xs.map fun x => if x.void || x.deadOnly then 0 else x.code
  xs.zipIdx.map fun (x, i) =>
    if x.deadOnly && !x.dropped then (if i = 0 then 0 else v.getD (i - 1) 0) + v.getD (i + 1) 0
    else 2 * v.getD i 0

/-- RXL_QSKn replaced; a change of QC takes effect on the next sample (R89). -/
def Lane.putQsk (l : Lane) (now : Time) (w : Word) : Lane :=
  { l with qsk := w, qcs := if fld w 16 10 = fld l.qsk 16 10 then l.qcs else (now, signed 10 (fld w 16 10)) :: l.qcs.take 63 }

/-! ### Raw history (R75, R428) -/

/-- One sample instant of raw history: six bytes, lane k in bits [12k + 11:12k], the void code for a tagged sample. -/
def rawWord (xs : List LaneSample) : BitVec 48 :=
  BitVec.ofNat 48 (xs.zipIdx.foldl (fun n (x, k) => n + ((if x.tag ≠ 0 then voidCode else x.code) % 4096).toNat * 4096 ^ k) 0)

/-! ### Sums (R83, R84, R90) -/

/-- One more sample. -/
def addSample (a : SampleSums) (x : Int) : SampleSums :=
  { n := a.n + 1, sum := a.sum + x, sq := a.sq + (x * x).toNat, lo := if a.n = 0 then x else min a.lo x, hi := if a.n = 0 then x else max a.hi x }
/-- Both together. -/
def plusSums (a b : SampleSums) : SampleSums :=
  if a.n = 0 then b else if b.n = 0 then a
  else { n := a.n + b.n, sum := a.sum + b.sum, sq := a.sq + b.sq, lo := min a.lo b.lo, hi := max a.hi b.hi }

/-- Sums of each of the eight positions over the samples of a frame that `use` admits and that carry no tag. -/
def positionSums (m0 : Nat) (xs : List LaneSample) (use : Nat → Bool) : List SampleSums :=
  xs.zipIdx.foldl (fun acc (x, i) =>
    if x.tag = 0 && !x.dropped && use i then
      let k := (m0 + i) % 8
      acc.set k (addSample (acc.getD k SampleSums.zero) x.code)
    else acc) (List.replicate 8 SampleSums.zero)

/-- A block of 256 samples for the kurtosis of "The estimator": (s4 / 256) / (s2 / 256)^2. -/
def blockKurt (s2 s4 : Nat) : Rat := ((256 * s4 : Nat) : Rat) / ((s2 * s2 : Nat) : Rat)

/-- One eligible sample of the pair (x, y) joins an estimate, and the kurtosis block in progress. -/
def EstSums.add (e : EstSums) (blk : Nat × Nat × Nat) (x y : Int) : EstSums × (Nat × Nat × Nat) :=
  let e2 := (x * x + y * y).toNat
  let s2 := blk.1 + e2
  let s4 := blk.2.1 + e2 * e2
  let full := blk.2.2 + 1 = 256
  ({ n := e.n + 1, si := e.si + x, sq := e.sq + y, pi := e.pi + (x * x).toNat, pq := e.pq + (y * y).toNat, c := e.c + x * y
     ks := if full then e.ks + blockKurt s2 s4 else e.ks, kb := if full then e.kb + 1 else e.kb },
   if full then (0, 0, 0) else (s2, s4, blk.2.2 + 1))

/-- A frame's samples that are neither guarded nor skipped by the stride (R90): sample `i` of group 0's ping lies PROBE_DELAY after the launch. The stride
is counted from that sample (log entry 115, DESIGN CHOICE). -/
def calSample (cfg : Settings) (p : Nat) (stride guard i : Nat) : Bool :=
  i % 2 ^ stride == 0 && (List.range (planG cfg p)).all fun g =>
    let t := samplesTime cfg i + quarters (cfg.port p 0x100A)
    let l := samplesTime cfg (g * planS cfg p)
    decide (t < l) || decide (l + samplesTime cfg guard < t)

/-- A frame is accumulated (R83, R90, R91): eligible samples, those excluded by a tag on either lane, overrange ones among these. Nothing is
taken when more than half were excluded. -/
def Accum.frame (a : Accum) (even : Bool) (m0 : Nat) (xi xq : List LaneSample) (use free : Nat → Bool) : Option Accum :=
  let pts := ((xi.zip xq).zipIdx).filter fun x => use x.2
  let good := pts.filter fun x => x.1.1.tag = 0 && x.1.2.tag = 0 && !x.1.1.dropped
  let ovr := pts.filter fun x => x.1.1.tag = 1 || x.1.2.tag = 1
  if decide (pts.length < 2 * (pts.length - good.length)) then none
  else
    let r := good.foldl (fun (e : EstSums × (Nat × Nat × Nat)) x => e.1.add e.2 x.1.1.code x.1.2.code) (if even then a.a else a.b, a.blk)
    let plus := fun (o n : List SampleSums) => (List.range 8).map fun k => plusSums (o.getD k SampleSums.zero) (n.getD k SampleSums.zero)
    some { a := if even then r.1 else a.a, b := if even then a.b else r.1, blk := r.2
           eligible := a.eligible + pts.length, overrange := a.overrange + ovr.length
           sliceI := plus a.sliceI (positionSums m0 xi free), sliceQ := plus a.sliceQ (positionSums m0 xq free) }

/-- Whether the sums of a position show a hard failure against the lane's (R84): one code for the whole frame, or less than 1/16 of the power. -/
def hardFailing (all x : SampleSums) : Bool :=
  decide (0 < x.n) && (x.lo == x.hi || decide (16 * x.sq * all.n < all.sq * x.n))

end Sys2Proof.Machine
end

