-- ==== Sys2Proof/Machine/Harp.lean ====
section
/-! DEFINITION. Tones and the Harp: slot centres, the pulse and the chirp, probe codes (R33, R35, R39), and the four stages that make bins of a
ping's samples (R107 to R113), in exact arithmetic on numbers with 128 fraction bits. -/

namespace Sys2Proof.Machine

/-! ### Slots (R35) -/

/-- f_t / f_S of tone `t`, as a fraction: F_OFF / 65,536 + (t − (N_T − 1) / 2) × 1.1 / N_BIN. -/
def toneFreq (ss : Settings) (p t : Nat) : Int × Nat :=
  let nb := planNBin ss p
  let nt : Int := planG ss p * planD ss p
  (planFOff ss p * (20 * nb : Nat) + (2 * (t : Int) - nt + 1) * 11 * 65536, 65536 * 20 * nb)

/-- The oscillator's frequency word: round(f_t / f_S × 2^32), modulo 2^32 (R109). -/
def freqWord (ss : Settings) (p t : Nat) : Nat :=
  let f := toneFreq ss p t
  (divAway (f.1 * 2 ^ 32) f.2 % 2 ^ 32).toNat

/-- DIR of a tone: whether its chirp goes down (R33). -/
def toneDown (ss : Settings) (p t : Nat) : Bool := ss.port p 0x0204 / 2 ^ t % 2 == 1

/-- The tones of a group's launch (R33, R35). -/
def groupTones (ss : Settings) (p g : Nat) : List ToneOut :=
  (List.range (planD ss p)).map fun d =>
    let t := g * planD ss p + d
    let f := toneFreq ss p t
    { num := f.1, den := f.2, amp := (planAmps ss p).getD t 0, down := toneDown ss p t }

/-! ### Pulse and chirp -/

/-- The pulse of raised-cosine spectrum with roll-off 0.1 at u = num / den symbol times: sinc(u) cos(0.1πu) / (1 − 0.04u²), truncated to 16 of
them; where the denominator vanishes, at u = ±5, the sinc vanishes too. -/
def pulseAt (num : Int) (den : Nat) : Int :=
  let n := num.natAbs
  if 8 * den < n ∨ 5 * den = n then 0
  else fixMul (fixSinc num den) (fixCosPi n (10 * den)) * (25 * (den * den) : Nat) / ((25 * (den * den) : Nat) - (n * n : Nat))

/-- cos and sin of a phase of num / den turns. -/
def turn (num : Int) (den : Nat) : Int × Int :=
  let r := (num % (den : Int)).toNat
  (fixCosPi (2 * r) den, fixSinPi (2 * r) den)

/-- The chirp at sample m = num / den of T_DUR: B swept linearly, the phase (m² − m T_DUR) / (2 T_DUR N_BIN) turns, up or down; the taper at its
band edges is open (log entry 116, DESIGN CHOICE). -/
def chirpAt (td nb : Nat) (down : Bool) (num : Int) (den : Nat) : Int × Int :=
  let ph := num * num - num * (td * den : Nat)
  let c := turn (if down then -ph else ph) (2 * td * nb * (den * den))
  let a : Int := Config.chirpTaper td nb num den
  (c.1 * a / 65536, c.2 * a / 65536)

/-! ### Probe codes (R39, R41) -/

/-- Both probe codes at step `i` of 500 ps of a launch of group `g`: the sum of its tones (R33, R39), each with an open phase at the start (log entry 116,
DESIGN CHOICE). -/
def probeCode (ss : Settings) (p g i : Nat) : BitVec 10 × BitVec 10 :=
  let fs := fsHz ss
  let nb := planNBin ss p
  let sum := (groupTones ss p g).zipIdx.foldl (fun (acc : Int × Int) (x : ToneOut × Nat) =>
    let ph : Int := (Config.tonePhase p (g * planD ss p + x.2) : Int)
    let c := turn ((i * fs : Nat) * x.1.num * 2 ^ 32 + ph * (2000000000 * x.1.den : Nat)) (2000000000 * x.1.den * 2 ^ 32)
    let e : Int × Int := if planChirp ss p then chirpAt (ss.port p 0x1005) nb x.1.down (i * fs : Nat) 2000000000
      else (pulseAt ((i * fs : Nat) - (16000000000 * nb : Nat) : Int) (2000000000 * nb), 0)
    (acc.1 + x.1.amp * (fixMul c.1 e.1 - fixMul c.2 e.2), acc.2 + x.1.amp * (fixMul c.1 e.2 + fixMul c.2 e.1))) (0, 0)
  (BitVec.ofInt 10 (divOpen sum.1 (2 ^ 128)), BitVec.ofInt 10 (divOpen sum.2 (2 ^ 128)))

/-- The probe codes of a launch, one each 500 ps for the tone's duration. -/
def probeCodes (ss : Settings) (p g : Nat) : List (BitVec 10 × BitVec 10) :=
  (List.range (ceilDiv (toneSamples ss p * 2000000000) (fsHz ss))).map (probeCode ss p g)

/-! ### Input forming and down-conversion (R108, R109) -/

/-- X or Y of a ping in halves of a code: the I lane plus j times the Q lane. -/
def pairStream (i q : List LaneSample) : List (Int × Int) := (laneStream i).zip (laneStream q)

/-- A sample times the conjugate oscillator, whose phase is `ph` of 2^32. -/
def downConvert (x : Int × Int) (ph : Nat) : Int × Int :=
  let c := fixCosPi ph (2 ^ 31)
  let s := fixSinPi ph (2 ^ 31)
  (x.1 * c + x.2 * s, x.2 * c - x.1 * s)

/-! ### Channel filter, compression and bin cut (R110 to R113) -/

/-- Σ h² of the pulse's 16 × N_BIN + 1 taps. -/
def pulseEnergy (nb : Nat) : Int := ((List.range (16 * nb + 1)).map fun k => let h := pulseAt ((k : Int) - (8 * nb : Nat)) nb; fixMul h h).sum

/-- Tap k of the channel filter: the pulse, scaled so that a return of it at peak A gives 8 × A (R110, R113). -/
def chanTap (nb : Nat) (energy : Int) (k : Nat) : Int := 8 * pulseAt ((k : Int) - (8 * nb : Nat)) nb * fixOne / energy

/-- c of R111: ceil(log2(T_DUR / (16 × N_BIN)) / 2). -/
def chirpShift (td nb : Nat) : Nat := ((List.range 8).find? fun c => decide (td ≤ 16 * nb * 4 ^ c)).getD 8

/-- The channel filter's output for a return that begins at sample `n`, in units of 2^-129 code. -/
def chanOut (x : List (Int × Int)) (fw nb : Nat) (energy : Int) (n : Nat) : Int × Int :=
  let r := (List.range (16 * nb + 1)).foldl (fun (acc : Int × Int) k =>
    let v := x.getD (n + k) (0, 0)
    if v = (0, 0) then acc
    else
      let d := downConvert v ((n + k) * fw % 2 ^ 32)
      let h := chanTap nb energy k
      (acc.1 + d.1 * h, acc.2 + d.2 * h)) (0, 0)
  if r = (0, 0) then (0, 0) else (r.1 / fixOne, r.2 / fixOne)

/-- The chirp's correlation for a return that begins at sample `n`, divided by 2^c, in units of 2^-129 code; the replica's scale is open (log entry 116,
DESIGN CHOICE). -/
def chirpOut (x : List (Int × Int)) (fw nb td : Nat) (down : Bool) (energy : Int) (n : Nat) : Int × Int :=
  let r := (List.range td).foldl (fun (acc : Int × Int) m =>
    let v := chanOut x fw nb energy (n + m)
    if v = (0, 0) then acc
    else
      let c := chirpAt td nb down m 1
      (acc.1 + v.1 * c.1 + v.2 * c.2, acc.2 + v.2 * c.1 - v.1 * c.2)) (0, 0)
  let d : Int := fixOne * 2 ^ 32 * 2 ^ chirpShift td nb
  if r = (0, 0) then (0, 0) else (r.1 * Config.chirpScale td nb / d, r.2 * Config.chirpScale td nb / d)

/-- The value of bin `z` of a tone in one polarisation, before clipping: the output at one of the N_BIN samples at which the bin's returns begin; which
one is open (log entry 116, DESIGN CHOICE). -/
def binValue (ss : Settings) (p t : Nat) (energy : Int) (x : List (Int × Int)) (z : Nat) : Int × Int :=
  let nb := planNBin ss p
  let n := z * nb + Config.binCut nb % max 1 nb
  let fw := freqWord ss p t
  let v := if planChirp ss p then chirpOut x fw nb (ss.port p 0x1005) (toneDown ss p t) energy n else chanOut x fw nb energy n
  (divOpen v.1 (2 ^ 129), divOpen v.2 (2 ^ 129))

/-- The bins of a ping of group `g`: for each, the tones of the group, before clipping. -/
def harpBins (ss : Settings) (p g : Nat) (ls : List (List LaneSample)) : List (List ToneBin) :=
  let x := pairStream (ls.getD 0 []) (ls.getD 1 [])
  let y := pairStream (ls.getD 2 []) (ls.getD 3 [])
  let energy := pulseEnergy (planNBin ss p)
  (List.range (nBins ss p)).map fun z => (List.range (planD ss p)).map fun d =>
    let a := binValue ss p (g * planD ss p + d) energy x z
    let b := binValue ss p (g * planD ss p + d) energy y z
    { xr := a.1, xi := a.2, yr := b.1, yi := b.2 }

/-! ### Noise gain (R131) -/

/-- The impulse response of the Harp's stages before the bin cut, in units of 2^-128. -/
def harpResponse (ss : Settings) (p t : Nat) : List (Int × Int) :=
  let nb := planNBin ss p
  let energy := pulseEnergy nb
  let taps := (List.range (16 * nb + 1)).map (chanTap nb energy)
  if planChirp ss p then
    let td := ss.port p 0x1005
    let d : Int := 2 ^ 32 * 2 ^ chirpShift td nb
    (List.range (16 * nb + td)).map fun (j : Nat) =>
      let r := (List.range td).foldl (fun (acc : Int × Int) (m : Nat) =>
        if m ≤ j then
          let c := chirpAt td nb (toneDown ss p t) m 1
          let h := taps.getD (j - m) 0
          (acc.1 + fixMul c.1 h, acc.2 - fixMul c.2 h)
        else acc) (0, 0)
      (r.1 * Config.chirpScale td nb / d, r.2 * Config.chirpScale td nb / d)
  else taps.map fun h => (h, 0)

/-- N_F computed from P_DARK of the port's lanes, in units of 2^-8 LSB², and the Harp's noise gain: the mean power of a bin over the tones of group `g`
and both polarisations with white noise at the inputs (R131). -/
def noiseFloor (ss : Settings) (p g : Nat) (dark : List Nat) : Nat :=
  let gain := ((List.range (planD ss p)).map fun d => ((harpResponse ss p (g * planD ss p + d)).map fun h => fixMul h.1 h.1 + fixMul h.2 h.2).sum).sum
  (divOpen ((dark.sum : Nat) * gain) (256 * 2 ^ 128)).toNat

end Sys2Proof.Machine
end

