-- ==== Sys2Proof/Machine/Bands.lean ====
section
/-! DEFINITION. The band filters of R158: coefficients, group delay and the filtering of a sample. -/

namespace Sys2Proof.Machine

/-- A second-order section: numerator b0, b1, b2 and denominator 1, a1, a2, with 128 fraction bits. -/
structure Biquad where
  b0 : Int
  b1 : Int
  b2 : Int
  a1 : Int
  a2 : Int

/-- The square root of a number with 128 fraction bits. -/
def fixSqrt (x : Int) : Int := (isqrt (x.toNat * 2 ^ 128) : Int)

/-- The bilinear transform of (n1 s + n0) / (s² + d1 s + d0). -/
def bilinear (n1 n0 d1 d0 : Int) : Biquad :=
  let q := fixOne + d1 + d0
  let c := fun (x : Int) => x * fixOne / q
  { b0 := c (n1 + n0), b1 := c (2 * n0), b2 := c (n0 - n1), a1 := c (2 * d0 - 2 * fixOne), a2 := c (fixOne - d1 + d0) }

/-- A band edge prewarped: tan(π f / f_M), for f in 0.1 Hz and f_M = fs / s. -/
def prewarp (f fs s : Nat) : Int := fixSinPi (f * s) (10 * fs) * fixOne / max 1 (fixCosPi (f * s) (10 * fs))

/-- The two sections of the fourth-order Butterworth filter of a band: a band-pass from `lo` to `hi`, or a low-pass to `hi` when `lo` is 0. Each section of a
band-pass has half of its zeros and of its gain (log entry 134, DESIGN CHOICE). -/
def bandSections (lo hi fs s : Nat) : List Biquad :=
  let wh := prewarp hi fs s
  if lo = 0 then
    let w2 := fixMul wh wh
    [fixCosPi 1 8, fixCosPi 3 8].map fun k => bilinear 0 w2 (2 * fixMul wh k) w2
  else
    let wl := prewarp lo fs s
    let b := wh - wl
    let q := fixMul wl wh
    let b2 := fixMul b b
    let r := fixSqrt (16 * fixMul q q + fixMul b2 b2)
    let re := fixSqrt ((r - 4 * q) / 2)
    let im := fixSqrt ((r + 4 * q) / 2)
    let h := fixMul b (fixSqrt (fixOne / 2))
    -- the poles are half of (−h ± re) + j (h ∓ im)
    [1, -1].map fun (sg : Int) =>
      let x := sg * re - h
      let y := h - sg * im
      bilinear b 0 (-x) ((fixMul x x + fixMul y y) / 4)

/-- A coefficient in 24 bits; its fraction bits and rounding are not stated (log entry 134, DESIGN CHOICE). -/
def bandCoef (c : Int) : Int := satS 24 (divOpen (c * 2 ^ Config.bandShift) (2 ^ 128))

/-- One section takes a sample: its output, and its last two inputs and outputs. -/
def Biquad.step (f : Biquad) (st : List Int) (x : Int) : Int × List Int :=
  let g := fun (i : Nat) => st.getD i 0
  let y := divOpen (bandCoef f.b0 * x + bandCoef f.b1 * g 0 + bandCoef f.b2 * g 1 - bandCoef f.a1 * g 2 - bandCoef f.a2 * g 3)
    (2 ^ Config.bandShift)
  (y, [x, g 0, y, g 2])

/-- A band's filter takes a strain-rate sample: its output, in units of 2^-bandFrac LSB, and its state of two sections. -/
def bandStep (fs : List Biquad) (st : List Int) (v : Int) : Int × List Int :=
  match fs with
  | [f, g] =>
    let a := f.step (st.take 4) (v * 2 ^ Config.bandFrac)
    let b := g.step (st.drop 4) a.1
    (b.1, a.2 ++ b.2)
  | _ => (0, st)

/-- Group delay of c0 + c1 z⁻¹ + c2 z⁻² in samples, at cosine and sine `c` and `d` of the angle. -/
def polyDelay (c0 c1 c2 c d : Int) : Int :=
  let e := fixMul c c - fixMul d d
  let f := 2 * fixMul c d
  let re := c0 + fixMul c1 c + fixMul c2 e
  let im := -(fixMul c1 d) - fixMul c2 f
  let dr := fixMul c1 c + 2 * fixMul c2 e
  let di := -(fixMul c1 d) - 2 * fixMul c2 f
  (fixMul dr re + fixMul di im) * fixOne / max 1 (fixMul re re + fixMul im im)

/-- d_k of R158: the filter's group delay at the band's geometric centre, or at half of F_HI for a low-pass. -/
def bandDelay (lo hi fs s : Nat) : Int :=
  let num := if lo = 0 then hi * s * 2 ^ 64 else 2 * isqrt (lo * hi * 2 ^ 128) * s
  let c := fixCosPi num (10 * fs * 2 ^ 64)
  let d := fixSinPi num (10 * fs * 2 ^ 64)
  let gd := isum ((bandSections lo hi fs s).map fun f => polyDelay f.b0 f.b1 f.b2 c d - polyDelay fixOne f.a1 f.a2 c d)
  divOpen (gd * (s * sec : Nat)) (fs * 2 ^ 128)

end Sys2Proof.Machine
end

