-- ==== Sys2Proof/Machine/Placement.lean ====
section
/-! DEFINITION. What the Ladle places and books (R316, R356 to R361, R383, R395, R426, R430, R499). Quantities are integers: rates as a
numerator and a denominator, bookings rounded up. -/

namespace Sys2Proof.Machine

/-! ### Bookings of a zone -/

/-- Output instants per second of a zone, as a fraction: F_OUT or f_M (R356). -/
def outRate (ss : Settings) (z : Nat) : Nat × Nat :=
  if zoneExact ss z then (ss.zone z 0x1302, 1) else (fsHz ss, planS ss (zonePort ss z))

/-- Whether a zone has a continuous product other than features. -/
def zoneInstants (ss : Settings) (z : Nat) : Bool := zoneProduct ss z 0 || zoneProduct ss z 1 || zoneProduct ss z 2
/-- Bands that a zone delivers. -/
def zoneBands (ss : Settings) (z : Nat) : Nat := if zoneProduct ss z 3 then ss.zone z 0x1305 else 0
/-- Bytes of one point of one output instant. -/
def instantBytes (ss : Settings) (z : Nat) : Nat := 2 * b01 (zoneProduct ss z 0) + 4 * b01 (zoneProduct ss z 1) + 2 * b01 (zoneProduct ss z 2)

/-- Invocations per second of an instance, as a fraction (R420). -/
def invRate (ss : Settings) (z : Nat) : Nat × Nat :=
  let (n, d) := outRate ss z
  ((if zoneInstants ss z then n else 0) + (if zoneBands ss z ≠ 0 then ss.zone z 0x1306 * d else 0), d)

/-- Field of a loaded image, by offset and length (R348); 0 when the image is not loaded. -/
def imgField (imgs : List Image) (id off len : Nat) : Nat :=
  match imgs.find? fun i => i.id == id with
  | some i => rd i.bytes off len
  | none => 0

/-- BUDGET of a zone's program. -/
def zoneBudget (ss : Settings) (imgs : List Image) (z : Nat) : Nat := imgField imgs (ss.zone z 0x1705) 16 4
/-- OUT_BYTES of a zone's program. -/
def zoneOutBytes (ss : Settings) (imgs : List Image) (z : Nat) : Nat := imgField imgs (ss.zone z 0x1705) 24 4
/-- STATE_BYTES of a zone's program. -/
def zoneStateBytes (ss : Settings) (imgs : List Image) (z : Nat) : Nat := imgField imgs (ss.zone z 0x1705) 28 4

/-- Points of instance i (R357). -/
def instRange (ss : Settings) (z i : Nat) : Nat × Nat :=
  let f := zoneFirst ss z + i * instPoints ss z
  (f, min (instPoints ss z) (zoneLast ss z + 1 - f))

/-- Length of the larger input block of an instance of `n` points (R420). -/
def inputBytes (ss : Settings) (z n : Nat) : Nat :=
  let pad := fun (x : Nat) => (x + 7) / 8 * 8
  let inst := 64 + b01 (zoneProduct ss z 0) * pad (2 * n) + b01 (zoneProduct ss z 1) * pad (4 * n) + b01 (zoneProduct ss z 2) * pad (2 * n) + 2 * n
  let feat := 64 + zoneBands ss z * pad (4 * n) + 2 * n
  max (if zoneInstants ss z then inst else 0) (if zoneBands ss z ≠ 0 then feat else 0)

/-- Whether each instance of a zone can be booked on an engine (R316, R349). -/
def instFits (ss : Settings) (imgs : List Image) (z : Nat) : Bool :=
  let (n, d) := invRate ss z
  decide (zoneBudget ss imgs z * n ≤ 900000000 * d) &&
    decide (inputBytes ss z (min (instPoints ss z) (zonePts ss z)) ≤ imgField imgs (ss.zone z 0x1705) 32 4)

/-- Bytes per second of a zone's continuous products, uncompressed (R356, R499), Vat output at OUT_BYTES for each invocation (log entry 20, DEDUCED). -/
def zoneRate (ss : Settings) (imgs : List Image) (z : Nat) : Nat :=
  let (n, d) := outRate ss z
  let (vn, vd) := invRate ss z
  ceilDiv (zonePts ss z * instantBytes ss z * n) d + zonePts ss z * 4 * zoneBands ss z * ss.zone z 0x1306 +
    (if ss.zone z 0x1705 = 0 then 0 else ceilDiv (nInst ss z * zoneOutBytes ss imgs z * vn) vd)

/-- Cost factor of DEPTH and LAZY as a fraction over 128 (R383). -/
def costFactor (depth : Nat) (isLazy : Bool) : Nat := (max 32 depth) * (if isLazy then 5 else 4)

/-- Press input booked, bytes per second (R383). -/
def pressRate (ss : Settings) (imgs : List Image) (z : Nat) : Nat :=
  ceilDiv (zoneRate ss imgs z * costFactor (ss.zone z 0x1803) (ss.zone z 0x1804 == 1)) 128

/-- Rows of a block of a product (R386). -/
def blockRows (ss : Settings) (z product : Nat) : Nat :=
  let row := widthOf product * zonePts ss z
  if ss.zone z 0x1808 = 0 then max 1 (1048576 / max 1 row) else ss.zone z 0x1808

/-- Bits per second of Press block headers (R395). -/
def headerBits (ss : Settings) (z : Nat) : Nat :=
  let (n, d) := outRate ss z
  let one := fun (i product : Nat) => if zoneProduct ss z i then 512 * ceilDiv n (d * blockRows ss z product) else 0
  one 0 1 + one 1 2 + one 2 3 + 512 * zoneBands ss z * ceilDiv (ss.zone z 0x1306) (blockRows ss z 4)

/-- Payload booked on each link of a zone's route, bits per second (R356, R395). -/
def linkBits (ss : Settings) (imgs : List Image) (z : Nat) : Nat :=
  8 * zoneRate ss imgs z + (if ss.zone z 0x1707 = 1 then headerBits ss z else 0)

/-- Regions of 2 MiB of a raw ring (R430). -/
def rawRegions (ss : Settings) (p : Nat) : Nat :=
  if ss.mode p 3 then ceilDiv (ss.port p 0x0202 * 6 * fsHz ss) (1000 * 2097152) + 1 else 0
/-- Bins of a zone's curd-domain ring (R429). -/
def curdBins (ss : Settings) (z : Nat) : Nat := zonePts ss z + planGauge ss (zonePort ss z)
/-- Regions of a curd-domain ring (R430). -/
def curdRegions (ss : Settings) (z : Nat) : Nat :=
  if ss.zone z 0x1708 = 0 then 0
  else ceilDiv (ss.zone z 0x1708 * fsHz ss * (16 + 2 * curdBins ss z)) (1000 * planS ss (zonePort ss z) * 2097152) + 1
/-- Regions of a zone's staging and Vat windows. -/
def workRegions (ss : Settings) (imgs : List Image) (z : Nat) : Nat :=
  ss.zone z 0x170D / 2097152 + nInst ss z * ceilDiv (zoneOutBytes ss imgs z + zoneStateBytes ss imgs z) 2097152

/-! ### Capacities -/

/-- Whether a pipeline is in service. -/
def State.pipeOk (s : State) (n : Nat) : Bool := decide (n < 26) && !(s.boot.retired.pipes.getLsbD n) && !(bit (s.pipeN n).src 7)
/-- Whether a Press lane is in service: EN set, and neither DISABLED nor RETIRED (R404, R408). -/
def State.pressOk (s : State) (n : Nat) : Bool :=
  decide (n < 26) && bit (s.pressN n).ctl 0 && decide (fld (s.pressN n).stat 0 3 < 4) && !(s.boot.retired.press.getLsbD n)
/-- Whether an engine is in service: neither in reserve nor retired. -/
def State.engOk (s : State) (n : Nat) : Bool :=
  decide (n < 32) && fld (s.engN n).stat 0 3 ≠ 0 && fld (s.engN n).stat 0 3 ≠ 6 && !(s.boot.retired.engines.getLsbD n)

/-- Bookable payload of a link, bits per second (R499). -/
def State.linkCap (s : State) : Link → Nat
  | .pcie => if s.links.pcieWidth = 0 then 230000000000 else 230000000000 * s.links.pcieWidth * s.links.pcieRate / (8 * 64)
  | .eth _ => 95000000000

/-- Regions of a stack: 24 GiB, less the firmware area on stack 0 and the host area on stack 1 (R426); with one stack both lie on it (R530). -/
def State.stackCap (s : State) (k : Nat) : Nat :=
  let host := 2 ^ s.boot.hostAreaLog / 2
  if bit s.boot.pwrStat 3 then (if k = 0 then 12288 - 128 - host else 0) else 12288 - (if k = 0 then 128 else host)

/-- Regions booked on a stack. -/
def Placement.stackUsed (pl : Placement) (k : Nat) : Nat := (pl.cave.filter fun c => c.2.2.1 == k).foldl (fun n c => n + c.2.2.2) 0
/-- Payload booked on a link. -/
def Placement.linkUsed (pl : Placement) (l : Link) : Nat := (pl.links.filter fun x => x.2.1 == l).foldl (fun n x => n + x.2.2) 0
/-- Input booked on a Press lane. -/
def Placement.pressUsed (pl : Placement) (n : Nat) : Nat := (pl.press.filter fun x => x.2.1 == n).foldl (fun k x => k + x.2.2) 0

/-! ### Pins (R360) -/

/-- The unit that a pin names, if one stands. -/
def pin? (ss : Settings) (z kind inst : Nat) : Option Nat :=
  match ss.val? { kind := .pin, inst := z, sub := kind * 65536 + inst, code := 0x0219 } with
  | some [_, _, u] => if u = 255 then none else some u.toNat
  | _ => none

/-- The pipeline pinned for a port by one of its zones. -/
def pinPipe? (ss : Settings) (p : Nat) : Option Nat := (zonesOf ss p).findSome? fun z => pin? ss z 1 0

/-! ### Placing (R358) -/

/-- A placement being made: what could not be placed, in R358's order of refusal. -/
structure Placing where
  pl : Placement
  noPipe : Bool
  noPin : Bool
  noEng : Bool
  noPress : Bool
  noCave : Bool
  noLink : Bool

/-- A pipeline for port p: its pin, else PPp, else the lowest free in service. -/
def placePipe (s : State) (ss : Settings) (a : Placing) (p : Nat) : Placing :=
  let free := fun (n : Nat) => s.pipeOk n && !(a.pl.pipes.any fun x => x.2 == n)
  match pinPipe? ss p with
  | some u => if free u then { a with pl := { a.pl with pipes := a.pl.pipes ++ [(p, u)] } } else { a with noPin := true }
  | none =>
    match (p :: List.range 26).find? free with
    | some u => { a with pl := { a.pl with pipes := a.pl.pipes ++ [(p, u)] } }
    | none => { a with noPipe := true }

/-- An engine for an instance: its pin, else the lowest free in service (R358). -/
def placeInst (s : State) (ss : Settings) (imgs : List Image) (a : Placing) (zi : Nat × Nat) : Placing :=
  let (z, i) := zi
  let free := fun (n : Nat) => s.engOk n && !(a.pl.insts.any fun x => x.engine == n)
  let (f, n) := instRange ss z i
  let put := fun (e : Nat) => { a with pl := { a.pl with insts := a.pl.insts ++ [{ zone := z, index := i, firstPoint := f, nPoints := n, engine := e }] } }
  if instFits ss imgs z then
    match pin? ss z 2 i with
    | some u => if free u then put u else { a with noPin := true }
    | none => match (List.range 32).find? free with
      | some u => put u
      | none => { a with noEng := true }
  else { a with noEng := true }

/-- A Press lane for a zone: its pin, else the lowest in service with room (R358). -/
def placePress (s : State) (ss : Settings) (imgs : List Image) (a : Placing) (z : Nat) : Placing :=
  let need := pressRate ss imgs z
  let room := fun (n : Nat) => s.pressOk n && decide (a.pl.pressUsed n + need ≤ 1800000000)
  let put := fun (n : Nat) => { a with pl := { a.pl with press := a.pl.press ++ [(z, n, need)] } }
  match pin? ss z 3 0 with
  | some u => if room u then put u else { a with noPin := true }
  | none => match (List.range 26).find? room with
    | some u => put u
    | none => { a with noPress := true }

/-- Regions for one owner: on the stack with more free capacity, ties to stack 0 (R358); history takes the same rule, since the bandwidth
that each region books is not stated (log entry 21, DEDUCED). Kinds: 0 raw, 1 curd-domain, 2 staging and Vat windows, 3 Press windows, 4 pool and
reserve. -/
def placeCave (s : State) (a : Placing) (owner kind regions : Nat) : Placing :=
  if regions = 0 then a
  else
    let f0 := s.stackCap 0 - a.pl.stackUsed 0
    let f1 := s.stackCap 1 - a.pl.stackUsed 1
    let k := if f0 ≥ f1 then 0 else 1
    let fk := max f0 f1
    if regions ≤ fk then { a with pl := { a.pl with cave := a.pl.cave ++ [(owner, kind, k, regions)] } }
    else if kind ≤ 1 ∧ regions ≤ f0 + f1 then
      { a with pl := { a.pl with cave := a.pl.cave ++ [(owner, kind, k, fk), (owner, kind, 1 - k, regions - fk)] } }
    else { a with noCave := true }

/-- Whether a zone holds a Press share: compression is on, and it has a product that the Press takes; delay records never pass through it (R30, R356). -/
def zoneCoded (ss : Settings) (z : Nat) : Bool := ss.zone z 0x1707 == 1 && (zoneInstants ss z || zoneBands ss z ≠ 0)

/-- Whether a route set for streams 0 to 2 finds room: payload left on each of its links (R30, which names 0x0305; what these streams book is not stated,
log entry 133, DEDUCED). -/
def routesFit (s : State) (old ss : Settings) (pl : Placement) : Bool :=
  (List.range 3).all fun n =>
    let k : SetKey := { kind := .stream, inst := n, sub := 0, code := 0x0223 }
    match ss.val? k with
    | some [_, r] => ss.val? k == old.val? k || (routeLinks r.toNat 0).all fun l => decide (pl.linkUsed l < s.linkCap l)
    | _ => true

/-- Links for a zone: its pin, else PCIe and the Ethernet port with more room, ports in service first (R358, R512). -/
def placeLinks (s : State) (ss : Settings) (imgs : List Image) (a : Placing) (z : Nat) : Placing :=
  let need := linkBits ss imgs z
  let route := ss.zone z 0x1709
  let e0 := s.links.eth[(0 : Fin 2)].inService
  let e1 := s.links.eth[(1 : Fin 2)].inService
  let better : Fin 2 :=
    if e0 && !e1 then 0 else if e1 && !e0 then 1
    else if a.pl.linkUsed (.eth 1) < a.pl.linkUsed (.eth 0) then 1 else 0
  let want : List Link := match pin? ss z 4 0 with
    | some m => (if m % 2 = 1 then [.pcie] else []) ++ (if m / 2 % 2 = 1 then [.eth 0] else []) ++ (if m / 4 % 2 = 1 then [.eth 1] else [])
    | none => routeLinks route better
  let fits := want.all fun l => decide (a.pl.linkUsed l + need ≤ s.linkCap l)
  if fits then { a with pl := { a.pl with links := a.pl.links ++ want.map fun l => (z, l, need) } }
  else if (pin? ss z 4 0).isSome then { a with noPin := true } else { a with noLink := true }

/-- Booked payload of a ring. -/
def Placement.ringUsed (pl : Placement) (r : Nat) : Nat :=
  (pl.rings.filter fun x => x.2 == r).foldl (fun n x => n + ((pl.links.find? fun y => y.1 == x.1 && y.2.1 == .pcie).map (·.2.2)).getD 0) 0

/-- A stream ring for a zone on PCIe: the ring with the least booked payload, lowest index first (R356). -/
def placeRing (a : Placing) (z : Nat) : Placing :=
  if a.pl.links.any fun x => x.1 == z && x.2.1 == .pcie then
    let best := (List.range 64).foldl (fun (b : Nat × Nat) r =>
      let u := a.pl.ringUsed r
      if u < b.2 then (r, u) else b) (0, a.pl.ringUsed 0)
    { a with pl := { a.pl with rings := a.pl.rings ++ [(z, best.1)] } }
  else a

/-- Everything that a zone books, to tell whether a commit touches its placement. -/
def zoneBooking (ss : Settings) (imgs : List Image) (z : Nat) : List Nat :=
  [zonePort ss z, zoneFirst ss z, zonePts ss z, nInst ss z, instPoints ss z, zoneBudget ss imgs z, (invRate ss z).1, (invRate ss z).2,
    ss.zone z 0x1705, ss.zone z 0x1707, pressRate ss imgs z, ss.zone z 0x1709, linkBits ss imgs z, curdRegions ss z, workRegions ss imgs z,
    ss.zone z 0x170A] ++
  ((List.range 5).map fun k => (pin? ss z k 0).getD 255) ++ ((List.range (nInst ss z)).map fun i => (pin? ss z 2 i).getD 255)

/-- Sorts instances by booked rate, highest first (R358); equal rates keep zone order. -/
def byRate (ss : Settings) (imgs : List Image) (l : List (Nat × Nat)) : List (Nat × Nat) :=
  let r := fun (x : Nat × Nat) => let (n, d) := invRate ss x.1; zoneBudget ss imgs x.1 * n * 1000 / max 1 d
  sortList (fun a b => decide (r a ≥ r b)) l

/-- Pinned work first (R360). -/
def pinnedFirst (isPinned : Nat → Bool) (l : List Nat) : List Nat := l.filter isPinned ++ l.filter fun z => !isPinned z

/-- A zone's regions. -/
def placeZoneCave (s : State) (ss : Settings) (imgs : List Image) (a : Placing) (z : Nat) : Placing :=
  placeCave s (placeCave s a z 1 (curdRegions ss z)) z 2 (workRegions ss imgs z)

/-- Places what a commit would have (R358): work that it does not touch keeps its place. `all` re-places everything unpinned. The status is
the first that applies in R358's order. -/
def placeAll (s : State) (old ss : Settings) (all : Bool) : Except Status Placement :=
  let imgs := s.images
  let pl := s.ladle.place
  let keepZ := fun (z : Nat) => !all && ss.zones.contains z && old.zones.contains z && zoneBooking old imgs z == zoneBooking ss imgs z &&
    (assoc pl.rings z).isSome == (pl.links.any fun x => x.1 == z && x.2.1 == .pcie)
  let needP := (List.range 24).filter fun p => ss.probing p && !(s.ladle.shedPorts.contains p)
  let keepP := fun (p : Nat) => !all && (match pl.pipe? p, pinPipe? ss p with
    | some n, some u => n == u && s.pipeOk n
    | some n, none => s.pipeOk n
    | none, _ => false)
  let liveZ := ss.zones.filter fun z => !(s.ladle.shed.any fun x => x.1 == z)
  let kept : Placement := {
    pipes := pl.pipes.filter fun x => needP.contains x.1 && keepP x.1
    insts := pl.insts.filter fun x => keepZ x.zone && s.engOk x.engine
    press := pl.press.filter fun x => keepZ x.1 && s.pressOk x.2.1
    cave := []
    links := pl.links.filter fun x => keepZ x.1
    rings := pl.rings.filter fun x => keepZ x.1 }
  let a0 : Placing := { pl := kept, noPipe := false, noPin := false, noEng := false, noPress := false, noCave := false, noLink := false }
  let a1 := (pinnedFirst (fun p => (pinPipe? ss p).isSome) (needP.filter fun p => !(kept.pipes.any fun x => x.1 == p))).foldl (placePipe s ss) a0
  let insts := (liveZ.flatMap fun z => (List.range (nInst ss z)).map fun i => (z, i)).filter fun zi =>
    !(kept.insts.any fun x => x.zone == zi.1 && x.index == zi.2)
  let isPin := fun (zi : Nat × Nat) => (pin? ss zi.1 2 zi.2).isSome
  let a2 := (insts.filter isPin ++ byRate ss imgs (insts.filter fun x => !isPin x)).foldl (placeInst s ss imgs) a1
  let pz := liveZ.filter fun z => zoneCoded ss z && !(kept.press.any fun x => x.1 == z)
  let a3 := (pinnedFirst (fun z => (pin? ss z 3 0).isSome) pz).foldl (placePress s ss imgs) a2
  let lanes := ((List.range 26).filter s.pressOk).length
  let a4 := placeCave s (placeCave s (placeCave s a3 8000 4 (ss.dev 0x0214)) 8001 4 (ss.dev 0x0215)) 8002 3 lanes
  let a5 := (needP.foldl (fun a p => placeCave s a (4096 + p) 0 (rawRegions ss p)) a4)
  let a6 := liveZ.foldl (placeZoneCave s ss imgs) a5
  let lz := liveZ.filter fun z => !(kept.links.any fun x => x.1 == z)
  let a7 := (pinnedFirst (fun z => (pin? ss z 4 0).isSome) lz).foldl (placeLinks s ss imgs) a6
  let a8 := lz.foldl placeRing a7
  if ss.zones.length > 4096 then .error 0x0306
  else if a8.noPipe then .error 0x0301
  else if a8.noPin then .error 0x0307
  else if a8.noEng then .error 0x0302
  else if a8.noPress then .error 0x0303
  else if a8.noCave then .error 0x0304
  else if a8.noLink || !(routesFit s old ss a8.pl) then .error 0x0305
  else .ok a8.pl

/-- A placement record (R359). -/
def placeRecord (s : State) (z : Nat) : List Byte :=
  let ss := s.zoneCfg z
  let pl := s.ladle.place
  let p := zonePort ss z
  let insts := pl.insts.filter fun x => x.zone == z
  let rt := s.zoneRt z
  let links := pl.links.filter fun x => x.1 == z
  let mask := links.foldl (fun m x => m + (match x.2.1 with | .pcie => 1 | .eth n => 2 * (1 + n.val))) 0
  let pins := b01 (pin? ss z 1 0).isSome + 2 * b01 ((List.range (nInst ss z)).any fun i => (pin? ss z 2 i).isSome) +
    4 * b01 (pin? ss z 3 0).isSome + 8 * b01 (pin? ss z 4 0).isSome
  let flags := match rt with | some r => r.flags.toNat | none => 0
  let state := match rt with | some r => r.state | none => 0
  let cave := (pl.cave.filter fun c => c.1 == z).foldl (fun n c => n + 2 * c.2.2.2) 0
  le 2 z ++ le 1 p ++ le 1 ((pl.pipe? p).getD 255) ++ le 1 (((pl.press.find? fun x => x.1 == z).map (·.2.1)).getD 255) ++
    le 1 (ss.zone z 0x170A) ++ le 1 mask ++ le 1 state ++ le 2 insts.length ++ le 2 pins ++ le 2 flags ++ le 2 ((assoc pl.rings z).getD 65535) ++
    le 4 cave ++ le 4 (ceilDiv (linkBits ss s.images z) 1000000) ++ le 4 (ceilDiv (if ss.zone z 0x1707 = 1 then pressRate ss s.images z else 0) 1000000) ++
    le 4 s.ladle.placeGen.toNat ++
    insts.flatMap fun x => le 4 x.firstPoint ++ le 1 x.engine ++ le 1 (fld (s.engN x.engine).stat 0 3) ++ zeros 2

end Sys2Proof.Machine
end

