-- ==== Sys2Proof/Machine/Filters.lean ====
section
/-! DEFINITION. Curd frames (R416), zone blocks, Vat input blocks (R420), the filter chain of EXACT zones (R150 to R164) and the
band-energy stage (R158 to R160). -/

namespace Sys2Proof.Machine

/-! ### Frames -/

/-- Stream of a zone. -/
def zoneStream (z : Nat) : Nat := 16 + z

/-- The next count of a per-product counter, and the counters after it. -/
def takeSeq (l : List (Nat × BitVec 32)) (k : Nat) : BitVec 32 × List (Nat × BitVec 32) :=
  let q := (assoc l k).getD 0
  (q, assocSet l k (q + 1))

/-- Press parameters of a product of a zone: PRED, DYNAMIC, DEPTH, LAZY, WIN_KIB, SUB_KIB, SHUFFLE (R384, R386). -/
def pressPars (ss : Settings) (z product : Nat) : List Nat :=
  let pred := if product = 5 then 0 else (ss.getI .zone z 0 0x1801 (product - 1) 0).toNat
  [pred, ss.zone z 0x1802, ss.zone z 0x1803, ss.zone z 0x1804, ss.zone z 0x1805, ss.zone z 0x1806, ss.zone z 0x1807]

/-- A block waits for its Press lane: the lane works for zones, and sets a host job aside (R398, R408). -/
def State.offerBlock (s : State) (lane : Nat) (b : PressBlk) : State :=
  let s1 := s.onPress lane fun l => { l with blocks := l.blocks ++ [b], stat := if fld l.stat 0 3 = 3 then l.stat else setFld l.stat 0 3 1 }
  { s1 with jobs := s1.jobs.map fun j => if j.lane = some lane ∧ j.running then { j with running := false, setAside := true } else j }

/-- A closed frame takes its FRAME_SEQ and goes to its Press lane or to staging (R385, R416, R418). -/
def State.emitFrame (s : State) (z product band : Nat) (native early : Bool) (head : FrameHead) (first width nCols : Nat) (rows : List Row) : State :=
  match s.zoneRt z with
  | none => s
  | some rt =>
    let (q, fs) := takeSeq rt.frameSeq product
    let f : CurdFrame := {
      product := product, zone := z, port := zonePort s.settings z, band := band, native := native, earlyClose := early, reanalysis := false,
      width := width, head := head, firstPoint := first, nCols := nCols, frameSeq := q, capture := 0, rows := rows, press := none }
    let s1 := s.modZone z fun r => { r with frameSeq := fs }
    match (s.ladle.place.press.find? fun x => x.1 == z).map (·.2.1) with
    | some lane =>
      let (b, bs) := takeSeq rt.blockSeq (product + 256 * band)
      (s1.modZone z fun r => { r with blockSeq := bs }).offerBlock lane { frame := f, blockSeq := b, pars := pressPars s.settings z product, cls := s.zoneClass z, arrived := s.time.mono }
    | none => s1.stage z (zoneStream z) (.curd f) (s.zoneClass z)

/-- The open frame of a product and band. -/
def ZoneRt.openOf (r : ZoneRt) (product band : Nat) : Option OpenFrame := r.opens.find? fun f => f.product == product && f.band == band

/-- Closes the open frame of a product and band, if it has one. -/
def State.closeFrame (s : State) (z product band : Nat) (early : Bool) : State :=
  match (s.zoneRt z).bind (·.openOf product band) with
  | none => s
  | some f =>
    let cols := ((f.rows.map (·.vals.length)).headD 0)
    (s.modZone z fun r => { r with opens := r.opens.filter fun g => !(g.product == product && g.band == band) }).emitFrame z product band f.native early
      f.head f.first (widthOf product) cols f.rows

/-- Closes every open frame of a zone (R385, R544). -/
def State.closeAll (s : State) (z : Nat) (early : Bool) : State :=
  match s.zoneRt z with
  | none => s
  | some r => r.opens.foldl (fun t f => t.closeFrame z f.product f.band early) s

/-- Whether a frame must close before a row of `n` bytes and stamp `t` joins it (R385, R416), and whether that is EARLY_CLOSE. -/
def frameFull (compressed : Bool) (limit : Nat) (f g : OpenFrame) (t : Time) (n : Nat) : Option Bool :=
  let k := f.rows.length
  let cols : OpenFrame → Nat := fun o => (o.rows.map (·.vals.length)).headD 0
  if f != ({ g with rows := f.rows } : OpenFrame) || cols f != cols g then some true
  else if compressed then (if k ≥ limit then some false else none)
  else if k ≥ 65535 ∨ (k + 1) * n > 1048576 ∨ t ≥ ((f.rows.map (·.t)).headD t) + 100 * ms then some false
  else none

/-- Whether ports run: power state RUN, or RUN being left while frames in progress complete (R544). -/
def State.running (s : State) : Bool := fld s.boot.pwrStat 0 2 == 0 || bit s.boot.pwrStat 2
/-- Whether RUN is being left: no new frame begins. -/
def State.leaving (s : State) : Bool := fld s.boot.pwrStat 0 2 != 0 && bit s.boot.pwrStat 2

/-- Whether a zone forms frames: power state RUN and neither shed nor stopped; a withdrawn one does for the pings in flight (R372, R373, R544). -/
def State.forms (s : State) (z : Nat) : Bool :=
  s.running && (match s.zoneRt z with
    | some r => decide (r.state ≤ 1) || (r.state == 2 && (s.portN (zonePort r.gone z)).later.isSome)
    | none => false)

/-- A row joins its frame; a frame that it may not join closes first (R385, R416). -/
def State.addRow (s : State) (cfg : Settings) (z product band : Nat) (h : FrameHead) (r : Row) : State :=
  if s.forms z then
    let g : OpenFrame := {
      product := product, band := band, first := zoneFirst cfg z, native := product ≤ 3 && !(zoneExact cfg z), head := h, rows := [r] }
    let compressed := s.settings.zone z 0x1707 == 1
    let s1 := match (s.zoneRt z).bind (·.openOf product band) with
      | none => s
      | some f =>
        match frameFull compressed (blockRows s.settings z product) f g r.t (widthOf product * r.vals.length) with
        | some early => s.closeFrame z product band early
        | none => s
    match (s1.zoneRt z).bind (·.openOf product band) with
    | some _ => s1.modZone z fun x => { x with
        opens := x.opens.map fun f => if f.product == product && f.band == band then { f with rows := f.rows ++ [r] } else f }
    | none => s1.modZone z fun x => { x with opens := x.opens ++ [g] }
  else s

/-- The strain epoch of a port. -/
def State.epochOf (s : State) (p : Nat) : BitVec 16 := (s.portN p).stat.extractLsb' 16 16

/-- The header values of a zone's rows under settings `cfg` (R416, R417), with the OUT_GAIN of their instant, which shifts EXACT outputs only (R156,
R157). -/
def frameHead (cfg : Settings) (gain z product : Nat) (epoch : BitVec 16) : FrameHead :=
  let og := if zoneExact cfg z then gain else 0
  let withGain := cfg.put { kind := .zone, inst := z, sub := 0, code := 0x1304 } [og]
  let p := zonePort cfg z
  { gauge := planGauge cfg p, epoch := epoch, scale := frameScale withGain z product,
    outGain := if product = 1 ∨ product = 3 then og else 0, rate := frameRate cfg z product,
    pointStep := if zoneExact cfg z || product > 3 then 0 else planNBin cfg p * sec / (2 * fsHz cfg) }

/-! ### Vat input blocks (R420) -/

/-- The bytes of an input block: its mask, its arrays and its flag words. -/
def inputBlock (z kind mask first n : Nat) (t : Time) (epoch : BitVec 16) (seq : BitVec 32) (arrays : List (Nat × List Int))
    (flags : List (BitVec 10)) : List Byte :=
  let orF := flags.foldl (fun a f => a ||| f) (0 : BitVec 10)
  le 2 0x0045 ++ [1] ++ le 1 kind ++ le 2 z ++ le 1 mask ++ [0] ++ le 4 first ++ le 4 n ++ stampB t ++ le 2 epoch.toNat ++ le 2 orF.toNat ++
    le 4 seq.toNat ++ zeros 28 ++ arrays.flatMap (fun a => padTo 8 (a.2.flatMap fun v => leI a.1 v)) ++ flags.flatMap fun f => le 2 f.toNat

/-- Bytes of input blocks that wait in a zone's staging region behind a running invocation. -/
def State.vatWaiting (s : State) (z : Nat) : Nat :=
  (s.ladle.place.insts.filter fun x => x.zone == z).foldl (fun n x =>
    n + (((s.engN x.engine).input.filter fun b => !b.inPool).map (·.bytes.length)).foldl (· + ·) 0) 0

/-- An input block joins its engine's queue; `pool` when it lies in the overflow pool. -/
def State.takeInput (s : State) (x : InstPlace) (b : VatIn) (pool : Bool) : State :=
  let s1 := s.onEng x.engine fun e => { e with input := e.input ++ [{ b with inPool := pool }], blockSeq := e.blockSeq + 1 }
  if pool then s1.modLadle fun l => { l with overflow := l.overflow + b.bytes.length } else s1

/-- Discards the oldest waiting input blocks of an instance until `need` bytes fit (DROP_OLD, R364). -/
def State.dropInputs (fuel : Nat) (s : State) (z : Nat) (x : InstPlace) (need room : Nat) : State :=
  match fuel with
  | 0 => s
  | f + 1 =>
    if s.staged z + s.vatWaiting z + need ≤ room then s
    else match (s.engN x.engine).input with
      | [] => s
      | b :: r =>
        ((s.onEng x.engine fun e => { e with input := r }).discard z 2
          { product := 5, tFirst := b.arrived, tLast := b.arrived, seq := none, size := b.bytes.length }).dropInputs f z x need room

/-- One input block for one instance: staged for its engine, or discarded under DROP (R364), or because the instance is STOPPED (R377). -/
def State.offerInput (s : State) (z : Nat) (x : InstPlace) (blk : List Byte) (t : Time) : State :=
  let e := s.engN x.engine
  let b : VatIn := { bytes := blk, gauge := planGauge s.settings (zonePort s.settings z), arrived := t, inPool := false }
  let lost : Lost := { product := 5, tFirst := t, tLast := t, seq := none, size := blk.length }
  let room := s.settings.zone z 0x170D
  let drop := fun (u : State) => (u.onEng x.engine fun e => { e with blockSeq := e.blockSeq + 1 }).discard z 2 lost
  if fld e.stat 0 3 = 5 then (s.onEng x.engine fun e => { e with blockSeq := e.blockSeq + 1 }).discard z 5 lost
  else if e.input.isEmpty || s.staged z + s.vatWaiting z + blk.length ≤ room then (s.endRun z).takeInput x b false
  else match s.settings.zone z 0x170B with
    | 0 => drop s
    | 1 =>
      let s1 := s.dropInputs e.input.length z x blk.length room
      if s1.staged z + s1.vatWaiting z + blk.length ≤ room then s1.takeInput x b false else drop s1
    | _ =>
      if s.ladle.overflow + blk.length ≤ s.settings.dev 0x0214 * 2097152 then (s.endRun z).takeInput x b true else drop s

/-- The input blocks of an output instant or a feature interval go to every instance of a zone. -/
def State.formInputs (s : State) (z kind mask : Nat) (t : Time) (epoch : BitVec 16) (arrays : List (Nat × List Int)) (flags : List (BitVec 10)) : State :=
  let f0 := zoneFirst s.settings z
  (s.ladle.place.insts.filter fun x => x.zone == z).foldl (fun u x =>
    let part := fun {α : Type} (l : List α) => (l.drop (x.firstPoint - f0)).take x.nPoints
    u.offerInput z x (inputBlock z kind mask x.firstPoint x.nPoints t epoch (u.engN x.engine).blockSeq
      (arrays.map fun a => (a.1, part a.2)) (part flags)) t) s

/-! ### The filter chain (R150 to R154) -/

/-- n of R150: the largest of 0 to 10 with f_M / 2^n ≥ F_OUT. -/
def halfBands (cfg : Settings) (z : Nat) : Nat :=
  (List.range 11).foldl (fun b n => if cfg.zone z 0x1302 * planS cfg (zonePort cfg z) * 2 ^ n ≤ fsHz cfg then n else b) 0

/-- Input `m` of a chain, counted since its reset: before the first, copies of the first; after the last, copies of the last (R162). -/
def Chain.at (c : Chain) (col : Nat) (m : Int) : Int :=
  let i := (m - c.base).toNat
  match c.ins[min i (c.ins.length - 1)]? with
  | some x => x.vals.getD col 0
  | none => 0

/-- Instant of input `m` at column 0, times 8 × f_S, extended at the merged rate before the first and after the last input. -/
def Chain.instant (c : Chain) (z : Nat) (m : Int) : Int :=
  let k := 8 * fsHz c.cfg
  let per : Int := 8 * planS c.cfg (zonePort c.cfg z) * sec
  let lastI : Int := c.base + c.ins.length - 1
  let t := fun (i : Nat) => match c.ins[i]? with | some x => (k * x.t : Int) | none => 0
  if m < c.base then t 0 - (c.base - m) * per
  else if m > lastI then t (c.ins.length - 1) + (m - lastI) * per
  else t (m - c.base).toNat

/-- Saturates a stage's output at its width (R151), with 8 fraction bits: strain 40 bits, strain-rate 24, an amplitude of 16 integer bits and sign 25 (log
entry 136, DEDUCED); the flag says that it did. -/
def stageSat (product : Nat) (v : Int) (wasSat : Bool) : Int × Bool :=
  let w := satS (if product = 2 then 40 else if product = 3 then 25 else 24) v
  (w, wasSat || w != v)

/-- A value with `a` fraction bits as one with `b`, where the spec states no rounding. -/
def rescale (v : Int) (a b : Nat) : Int := if a ≤ b then v * 2 ^ (b - a) else divOpen v (2 ^ (a - b))

/-- The sum of a filter's taps times their inputs in an accumulator of 48 bits, which saturates (R151); where its binary point lies is not stated (log
entry 112, DESIGN CHOICE). -/
def accumulate (product filter : Nat) (taps : List Int) (x : Nat → Int × Bool) : Int × Bool :=
  taps.zipIdx.foldl (fun (a : Int × Bool) ti =>
    let y := x ti.2
    let sum := a.1 + rescale (ti.1 * y.1) (8 + Config.tapShift filter) (Config.accFrac product)
    (satS 48 sum, a.2 || y.2 || satS 48 sum != sum)) (0, false)

/-- A stage's output out of an accumulated value with `extra` fraction bits more than the accumulator: 8 fraction bits, half to even (R151). -/
def stageOut (product : Nat) (acc : Int × Bool) (extra : Nat) : Int × Bool :=
  let f := Config.accFrac product
  stageSat product (divEven (acc.1 * 2 ^ (8 - f)) (2 ^ (f - 8 + extra))) acc.2

/-- A weighted sum of the taps of a filter over the inputs from `start` on (R151). -/
def tapSum (product filter : Nat) (taps : List Int) (x : Int → Int × Bool) (start : Int) : Int × Bool :=
  stageOut product (accumulate product filter taps fun i => x (start + i)) 0

/-- Output `i` of the k-th half-band stage, centred on input 2i of the stage before (log entry 31, DEDUCED). -/
def halfStage (product : Nat) (x : Int → Int × Bool) : Nat → Int → Int × Bool
  | 0, i => x i
  | k + 1, i => tapSum product 0 ((List.range 95).map fun j => halfBandTap ((j : Int) - 47)) (halfStage product x k) (2 * i - 47)

/-- Output `i` of the trim filter. -/
def trimStage (c : Chain) (z product n : Nat) (x : Int → Int × Bool) (i : Int) : Int × Bool :=
  let taps := trimTaps (c.cfg.zone z 0x1302 * (planS c.cfg (zonePort c.cfg z) * 2 ^ n)) (fsHz c.cfg)
  tapSum product 1 taps (halfStage product x n) (i - 63)

/-- The number of the output-grid instant of rate `fout` nearest to `t`. -/
def gridNo (t fout : Nat) : Nat := (2 * t * fout + sec) / (2 * sec)
/-- Output-grid instant `i` as its stamp, rounded half to even (R149). -/
def gridStamp (i fout : Nat) : Time := (divEven ((i * sec : Nat) : Int) (max 1 fout)).toNat
/-- Whether an instant is on the output grid of F_OUT (R149). -/
def onGrid (t fout : Nat) : Bool := gridStamp (gridNo t fout) fout == t

/-- Instant of input `m` at a column, in units of 1 / (8 × f_S × fout). -/
def Chain.colInstant (c : Chain) (z col fout : Nat) (m : Int) : Int :=
  (c.instant z m + 4 * col * planNBin c.cfg (zonePort c.cfg z) * sec) * fout

/-- Half of an output's window, τ_G, in units of 1 / (8 × f_S × fout). -/
def Chain.reach (c : Chain) (z fout : Nat) : Int := 4 * (283 * 2 ^ halfBands c.cfg z - 94) * planS c.cfg (zonePort c.cfg z) * sec * fout

/-- j, the phase p and the weight w of R154 for grid instant `i` of rate `fout` at a column. -/
def Chain.locate (c : Chain) (z col i fout : Nat) : Int × Nat × Int :=
  let n := halfBands c.cfg z
  let target : Int := 8 * fsHz c.cfg * i * sec - 252 * planS c.cfg (zonePort c.cfg z) * 2 ^ n * sec * fout
  let inst := fun (m : Int) => c.colInstant z col fout (m * 2 ^ n)
  let lo : Int := c.base / 2 ^ n - 160
  let j := (List.range ((c.ins.length / 2 ^ n) + 320)).foldl (fun (b : Int) k => if inst (lo + k) ≤ target then lo + k else b) lo
  let mu := (target - inst j) * 2 ^ 32 / max 1 (inst (j + 1) - inst j)
  (j, (mu * 1024 / 2 ^ 32).toNat, mu * 1024 % 2 ^ 32 / 65536)

/-- Whether every input that an output takes has come: a closed chain fills its future with copies (R162). -/
def Chain.ready (c : Chain) (z col i fout : Nat) : Bool :=
  let n := halfBands c.cfg z
  let x := c.locate z col i fout
  c.closed || decide ((x.1 + 126 + (if x.2.1 = 1023 then 1 else 0)) * 2 ^ n + 47 * (2 ^ n - 1) < c.base + c.ins.length)

/-- The output of a chain at a grid instant for a column: its value with 8 fraction bits, and the flags of R163 and R164. -/
def Chain.output (c : Chain) (z col i fout : Nat) : Int × BitVec 10 :=
  let n := halfBands c.cfg z
  let x : Int → Int × Bool := fun m => (c.at col m * 256, false)
  let (j, p, w) := c.locate z col i fout
  let y := fun (q : Nat) =>
    let start := if q = 1024 then j + 1 else j
    accumulate c.product 2 (resampTaps (q % 1024)) fun k => trimStage c z c.product n x (start + 63 - k)
  let y0 := y p
  let y1 := y (p + 1)
  let v := stageOut c.product ((65536 - w) * y0.1 + w * y1.1, y0.2 || y1.2) 16
  let tn : Int := 8 * fsHz c.cfg * i * sec
  let within := fun (half : Int) => c.ins.zipIdx.filter fun xi =>
    let u := c.colInstant z col fout (c.base + xi.2)
    decide (tn - half ≤ u) && decide (u ≤ tn + half)
  let half := if c.cfg.zone z 0x1303 = 0 then c.reach z fout else c.reach z fout / 4
  let fl := (within half).foldl (fun (a : BitVec 10) xi => a ||| xi.1.flags.getD col 0) 0
  let warm := decide (tn - half < c.colInstant z col fout 0) ||
    (c.closed && decide (c.colInstant z col fout (c.base + c.ins.length - 1) < tn + half))
  let win := within (c.reach z fout)
  let wraps := c.product == 2 && (win.zip (win.drop 1)).any fun ab => decide ((ab.1.1.vals.getD col 0 - ab.2.1.vals.getD col 0).natAbs > 2 ^ 31)
  (v.1, fl ||| (if warm then 0x100 else 0) ||| (if v.2 || wraps then 0x020 else 0))

/-- The chain that answers an output instant at a column: a closed one up to its last input's instant, then the next (R162). -/
def chainAt (cs : List Chain) (z col : Nat) (t : Time) : Option Chain :=
  cs.find? fun c => !c.closed || decide ((8 * fsHz c.cfg * t : Int) ≤ c.colInstant z col 1 (c.base + c.ins.length - 1))

/-- The output of a product at a column, rounded as R152 lays down; an invalid output reads 0, strain its last valid value (R164). -/
def exactPoint (gain : Nat) (lastValid : Int) (cs : List Chain) (z product col fout : Nat) (t : Time) : Int × BitVec 10 :=
  match chainAt cs z col t with
  | none => (if product = 2 then lastValid else 0, 0x100)
  | some c =>
    let (v, fl) := c.output z col (gridNo t fout) fout
    let raw := divEven (if product = 2 then v else v * 2 ^ gain) 256
    let lim := if product = 2 then satS 32 raw else if product = 3 then min 65535 (max 0 raw) else satS 16 raw
    let fl2 := if lim ≠ raw ∧ ¬(product = 3 ∧ raw < 0) then fl ||| 0x020 else fl
    if isInvalid fl2 then (if product = 2 then lastValid else 0, fl2) else (lim, fl2)

/-- OUT_GAIN for an output instant: that of the commit points before it (R156). -/
def ZoneRt.gainAt (r : ZoneRt) (now : Nat) (t : Time) : Nat := ((r.gains.find? fun g => decide (t < g.1)).map (·.2)).getD now

/-- Drops the inputs that no output after grid instant `i` can use. -/
def Chain.shed (c : Chain) (z cols i fout : Nat) : Chain :=
  let n := halfBands c.cfg z
  let d := min (((c.locate z cols i fout).1 - 111) * 2 ^ n - c.base).toNat (c.ins.length - 1)
  if c.closed then c else { c with ins := c.ins.drop d, base := c.base + d }

/-- A sample joins the open chain of a product. -/
def Chain.push (c : Chain) (x : Sample) : Chain := { c with ins := c.ins ++ [x] }

/-- A merged sample enters the chain of a product of an EXACT zone; its first input starts the chain (R162). -/
def State.chainInput (s : State) (cfg : Settings) (z product : Nat) (x : Sample) : State :=
  let epoch := s.epochOf (zonePort cfg z)
  s.modZone z fun r =>
    if r.chains.any fun c => c.product == product && !c.closed then
      { r with chains := r.chains.map fun c => if c.product == product && !c.closed then c.push x else c }
    else { r with chains := r.chains ++ [{ product := product, cfg := cfg, epoch := epoch, base := 0, ins := [x], closed := false }] }

/-- A band's filter starts anew; the samples that it has filtered stay. -/
def BandSt.restart (b : BandSt) : BandSt := { b with filt := [] }

/-- A synchronising reset of a zone at instant `t` (R161, R162, R385): its chains only complete, its blocks close, its features start anew. -/
def State.syncReset (s : State) (z : Nat) (t : Time) : State :=
  (s.closeAll z true).modZone z fun r => { r with
    resetPending := false, chains := r.chains.map fun c => { c with closed := true }, bands := r.bands.map BandSt.restart, resets := r.resets ++ [t] }

/-- A synchronising reset reaches a zone: NATIVE mode has none (R157). -/
def State.syncResetAny (s : State) (z : Nat) (t : Time) : State :=
  if zoneExact s.settings z then s.syncReset z t else s.modZone z fun r => { r with resetPending := false }

/-- A synchronising reset of every zone of a port. -/
def State.syncResetPort (s : State) (p : Nat) (t : Time) : State := forEach (zonesOf s.settings p) (fun z u => u.syncResetAny z t) s

/-- The resets that SYNC_RESET asked of a port's zones, at its frame boundary (R161). -/
def State.resetNamed (s : State) (p : Nat) (t : Time) : State :=
  forEach ((zonesOf s.settings p).filter fun z => match s.zoneRt z with | some r => r.resetPending | none => false) (fun z u => u.syncResetAny z t) s

/-! ### The band-energy stage -/

/-- A band with no input yet. -/
def BandSt.empty : BandSt := { filt := [], out := [] }

/-- A strain-rate sample enters a band (R158, R160): each point's valid input is filtered, an invalid one leaves its filter as it was. -/
def BandSt.input (b : BandSt) (fs : List Biquad) (inst : List Time) (vals : List Int) (flags : List (BitVec 10)) : BandSt :=
  let res := vals.zipIdx.map fun (v, c) =>
    if isInvalid (flags.getD c 0) then (0, b.filt.getD c []) else bandStep fs (b.filt.getD c []) v
  { filt := res.map (·.2), out := b.out ++ [{ inst := inst, y := res.map (·.1), flags := flags }] }

/-- The feature of a column for the interval from `t0` to `t1`, and its flags (R159, R160); `warm`: it lies in the settling time. An interval without a
valid input reads 0 and carries VOID (log entry 134, DESIGN CHOICE). -/
def BandSt.feature (b : BandSt) (col : Nat) (t0 t1 : Time) (warm : Bool) : Int × BitVec 10 :=
  let mine := (b.out.filter fun o => decide (t0 ≤ o.inst.getD col 0) && decide (o.inst.getD col 0 < t1)).map fun o => (o.y.getD col 0, o.flags.getD col 0)
  let good := mine.filter fun x => !(isInvalid x.2)
  let n := good.length
  let skipped := mine.length - n
  let raw := divOpen (isum (good.map fun x => x.1 * x.1) * 256) (max 1 n * 2 ^ (2 * Config.bandFrac))
  let v := min raw 0xFFFFFFFF
  let f0 : BitVec 10 := if v < raw then 0x020 else 0
  let orF := (mine.filter fun x => isInvalid x.2).foldl (fun (a : BitVec 10) x => a ||| x.2) 0
  let f1 := if skipped * 8 > mine.length ∨ n = 0 then f0 ||| 0x001 ||| orF
    else if skipped ≠ 0 ∨ good.any (fun x => x.2 != 0) then f0 ||| 0x002 else f0
  (v, if warm then f1 ||| 0x100 else f1)

/-- Whether a feature interval carries WARM (R160): it holds a synchronising reset, or begins within 4 / (F_HI − F_LO) of one. -/
def warmAt (resets : List Time) (lo hi : Nat) (t0 t1 : Time) : Bool :=
  resets.any fun r => decide (r < t1) && (decide (t0 ≤ r) || decide (t0 < r + 40 * sec / max 1 (hi - lo)))

end Sys2Proof.Machine
end

