-- ==== Sys2Proof/Machine/Flags.lean ====
section
/-! DEFINITION. How a register write treats each kind of field (R8, R484, R489), and the flags that the Vat's arithmetic sets (R332). -/

namespace Sys2Proof.Machine

/-! ### Writes of registers -/

/-- RW fields: the bits of `mask` take the written value. -/
def wrRW (mask : Nat) (old v : Word) : Word := (old &&& ~~~(BitVec.ofNat 32 mask)) ||| (v &&& BitVec.ofNat 32 mask)

/-- W1C fields: a bit of `mask` written 1 becomes 0. -/
def wrW1C (mask : Nat) (old v : Word) : Word := old &&& ~~~(v &&& BitVec.ofNat 32 mask)

/-- Whether a write would change a field of `mask`. -/
def wrDiffers (mask : Nat) (old v : Word) : Bool := ((old ^^^ v) &&& BitVec.ofNat 32 mask) ≠ 0

/-- A write of one RWD field of `len` bits from bit `lo` (R484): ignored while the block is enabled, and ignored when `ok` refuses the value;
the flag says that CFG_IGN sets. -/
def wrRWD (enabled : Bool) (ok : Nat → Bool) (lo len : Nat) (acc : Word × Bool) (v : Word) : Word × Bool :=
  let x := fld v lo len
  if x = fld acc.1 lo len then acc
  else if enabled || !(ok x) then (acc.1, true)
  else (setFld acc.1 lo len x, acc.2)

/-- A write of one RW field whose table calls some values "ignored and flagged" (R484). -/
def wrChecked (ok : Nat → Bool) (lo len : Nat) (acc : Word × Bool) (v : Word) : Word × Bool :=
  let x := fld v lo len
  if ok x then (setFld acc.1 lo len x, acc.2) else (acc.1, true)

/-- A write counted under R489: GLB_STAT.HZ_WRITE sets and HZ_CNT advances, saturating. -/
def State.hazard (s : State) : State :=
  s.modGlb fun g => { g with stat := setBit g.stat 7, hzCnt := if g.hzCnt = 0xFFFFFFFF then g.hzCnt else g.hzCnt + 1 }

/-- A write counted under R489 when `b` holds. -/
def State.hazardIf (s : State) (b : Bool) : State := if b then s.hazard else s

/-! ### Vat arithmetic (R332) -/

/-- Result and flags of an ALU function: `write` says whether Dd takes the result, `sat` whether SAT sets. -/
structure AluOut where
  res : Word16
  c : Bool
  v : Bool
  sat : Bool
  write : Bool
deriving DecidableEq, Repr

/-- A 16-bit value saturated as signed. -/
def sat16 (x : Int) : Word16 := BitVec.ofInt 16 (satS 16 x)

/-- Signed overflow of a 16-bit result. -/
def ovf16 (x : Int) : Bool := decide (x < -32768) || decide (32767 < x)

/-- Da op B (R332); none for the reserved function. -/
def aluFunc (func : Nat) (a b : Word16) : Option AluOut :=
  let n := b.toNat % 16
  let sum := a.toInt + b.toInt
  let dif := a.toInt - b.toInt
  let logic := fun (r : Word16) => some { res := r, c := false, v := false, sat := false, write := true }
  match func with
  | 0 => some { res := a + b, c := decide (65536 ≤ a.toNat + b.toNat), v := ovf16 sum, sat := false, write := true }
  | 1 => some { res := sat16 sum, c := decide (65536 ≤ a.toNat + b.toNat), v := ovf16 sum, sat := ovf16 sum, write := true }
  | 2 => some { res := a - b, c := decide (b.toNat ≤ a.toNat), v := ovf16 dif, sat := false, write := true }
  | 3 => some { res := sat16 dif, c := decide (b.toNat ≤ a.toNat), v := ovf16 dif, sat := ovf16 dif, write := true }
  | 4 => logic (a &&& b)
  | 5 => logic (a ||| b)
  | 6 => logic (a ^^^ b)
  | 7 => some { res := a <<< n, c := n ≠ 0 && a.getLsbD (16 - n), v := false, sat := false, write := true }
  | 8 => some { res := a >>> n, c := n ≠ 0 && a.getLsbD (n - 1), v := false, sat := false, write := true }
  | 9 => some { res := a.sshiftRight n, c := n ≠ 0 && a.getLsbD (n - 1), v := false, sat := false, write := true }
  | 10 => logic (if a.toInt ≤ b.toInt then a else b)
  | 11 => logic (if a.toInt ≤ b.toInt then b else a)
  | 12 => some { res := sat16 a.toInt.natAbs, c := false, v := decide (a.toInt = -32768), sat := decide (a.toInt = -32768), write := true }
  | 13 => some { res := a - b, c := decide (b.toNat ≤ a.toNat), v := ovf16 dif, sat := false, write := false }
  | 14 => some { res := sat16 (-a.toInt), c := false, v := decide (a.toInt = -32768), sat := decide (a.toInt = -32768), write := true }
  | _ => none

/-- FLAGS after an ALU function (R321, R332): Z, N, C, V anew, SAT sticky. -/
def aluFlags (flags : Word16) (o : AluOut) : Word16 :=
  let low : Nat := b01 (o.res == 0) + 2 * b01 (o.res.getLsbD 15) + 4 * b01 o.c + 8 * b01 o.v + 16 * b01 o.sat
  (flags &&& 0xFFF0) ||| BitVec.ofNat 16 low

end Sys2Proof.Machine
end

