-- ==== Sys2Proof/Machine/Tiu.lean ====
section
/-! DEFINITION. The time-interval unit: its stamps, inputs and timescale, converters and rotation, measurements and anchors (R218 to R245). -/

namespace Sys2Proof.Machine

/-! ### Roles and timescale in TIU_STAT (R220, R244) -/

/-- Converter that holds LAUNCH; 3 for none. -/
def Tiu.launch (t : Tiu) : Nat := fld t.stat 8 2
/-- Converter that holds USER; 3 for none. -/
def Tiu.user (t : Tiu) : Nat := fld t.stat 10 2
/-- The spare converter; 3 for none. -/
def Tiu.spare (t : Tiu) : Nat := fld t.stat 12 2
/-- TB: 0 DEVICE, 1 EXTERNAL, 2 EXT_NOPPS. -/
def Tiu.tb (t : Tiu) : Nat := fld t.stat 0 2
/-- Whether a converter holds LAUNCH. -/
def Tiu.launchHeld (t : Tiu) : Bool := t.launch ≠ 3
/-- Whether a measurement gate or anchor window is open. -/
def Tiu.gateOpen (t : Tiu) : Bool := match t.run with | some r => r.isOpen && !r.done | none => false
/-- QDEPTH follows the measurements that wait; anchors do not count (R235). -/
def Tiu.depth (t : Tiu) : Nat := (t.queue.filter fun m => m.anchorPort.isNone).length
/-- TIU_STAT with QDEPTH brought up to date. -/
def Tiu.show (t : Tiu) : Tiu := { t with stat := setFld t.stat 20 4 t.depth }

/-! ### Stamps (R218, R224) -/

/-- A period of CK_PRB, 500 ps. The coarse count is that of CK_PRB periods since the origin of elapsed time (log entry 127, DESIGN CHOICE). -/
def prb : Nat := 32768

/-- w(n) of R224 in units of 2^-16 ns over 64: the widths of the codes below n and half that of n, each its share of 2^20 hits in 500 ps. -/
def ChanTab.centre (c : ChanTab) (n : Nat) : Nat := 2 * (c.hits.take n).foldl (· + ·) 0 + c.hits.getD n 0

/-- A raw stamp in units of 2^-16 ns over 64 (R218): x = c × 500 ps − w(n) − o. -/
def ChanTab.raw64 (c : ChanTab) (pad : Nat) (r : CellRead) : Int := 64 * ((r.coarse * prb : Nat) - c.offs.getD pad 0) - c.centre r.code
/-- A raw stamp. -/
def ChanTab.raw (c : ChanTab) (pad : Nat) (r : CellRead) : Int := divOpen (c.raw64 pad r) 64

/-- A calibrated channel: its widths, and offsets that bring each pad's stamp to the common edge (R224, which leaves 3 ps of it open; log entry 128,
DEDUCED). -/
def chanTable (c : ChanCal) (common : Time) : ChanTab :=
  let t : ChanTab := { hits := c.hits, offs := [] }
  { t with offs := c.pads.map fun r => t.raw 0 r - common }

/-- Whether a channel's codes pass (R224): 2^20 hits, no code wider than 7.8 ps, none above 129. -/
def chanOk (c : ChanCal) : Bool :=
  decide (c.hits.foldl (· + ·) 0 = 1048576) && c.hits.all (fun h => decide (5000 * h ≤ 78 * 1048576)) && (c.hits.drop 130).all (· == 0)
/-- Whether a converter passes its calibration. -/
def vernierOk (c : VernierCal) : Bool := chanOk c.a && chanOk c.b
/-- A converter with the tables of a calibration. -/
def Conv.calibrate (v : Conv) (c : VernierCal) : Conv :=
  { v with calibrated := vernierOk c, returning := false, a := chanTable c.a c.common, b := chanTable c.b c.common }

/-- Whether a cell has failed (R226): a code above 129, or not finished within 80 ns. -/
def cellFault (r : CellRead) : Bool := r.late || decide (129 < r.code)

/-- A converter by number; none gives one without tables. -/
def Tiu.convN (t : Tiu) (i : Nat) : Conv := match ix 3 i with | some k => t.conv[k] | none => Conv.reset

/-! ### The timescale of a stamp (R222) -/

/-- The line through the raw stamps of 64 REF10 edges, by least squares (R222); with no LAUNCH holder or other than 64 edges there is none. -/
def Tiu.fitOf (t : Tiu) (e : RefEdges) : Option RefFit :=
  if !t.launchHeld || e.reads.length != 64 then none
  else
    let xs := e.reads.map fun r => (t.convN t.launch).b.raw64 11 r
    let sx := isum xs
    let sxi := isum (xs.zipIdx.map fun x => x.1 * (2 * (x.2 : Int) - 63))
    -- the sum of (2i − 63)² over i is 87,360
    let b : Rat := (2 * sxi : Int) / ((87360 * 64 : Nat) : Rat)
    some { a := (sx : Rat) / (64 * 64 : Nat) - b * 63 / 2, b := b, first := e.first }

/-- A raw stamp on the line, where REF10 edges lie exactly 100 ns apart and the edge that PPS_IN selected begins its second. -/
def RefFit.at (f : RefFit) (second : Nat × Nat) (x : Int) : Int :=
  (second.2 * sec : Nat) + ((f.first : Int) - second.1) * (100 * ns) + ratOpen (((x : Rat) - f.a) / f.b * (100 * ns : Nat))

/-- A raw stamp on the device clock, through the CK_PRB count. -/
def State.deviceAt (s : State) (x : Int) : Int :=
  let d := x - s.time.mono
  s.time.dev + d + d * s.time.rate / 10 ^ 15

/-- A raw stamp on the unit's timescale, by the last REF10 fit outside DEVICE. -/
def State.unitTime (s : State) (x : Int) : Int :=
  match s.tiu.tb, s.tiu.fit, s.tiu.secondEdge with
  | 0, _, _ => s.deviceAt x
  | _, some f, some e => f.at e x
  | _, _, _ => s.deviceAt x

/-- The instant that has come, on the unit's timescale. -/
def State.unitNow (s : State) : Time := (s.unitTime s.time.mono).toNat

/-- The REF10 edges about a stamp give the fit that maps it; in holdover the last fit stands, extrapolated (R223). -/
def State.takeFit (s : State) (e : RefEdges) : State :=
  if s.tiu.tb = 0 || bit s.tiu.stat 4 then s
  else match s.tiu.fitOf e with
    | some f => s.modTiu fun t => { t with fit := some f }
    | none => s

/-! ### Measurements (R229 to R235, R239) -/

/-- Member `i` of a row of R229: as given, or its default. -/
def MeasReq.par (m : MeasReq) (row i : Nat) : Int :=
  match assoc m.params row with
  | some v => v.getD i 0
  | none => ((paramMeas row).bind (·.dflt)).getD [] |>.getD i 0

/-- MODE: 0 STAMP, 1 INTERVAL, 2 FREQ. -/
def MeasReq.mode (m : MeasReq) : Nat := (m.par 1 0).toNat
/-- N_MAX. -/
def MeasReq.nMax (m : MeasReq) : Nat := (m.par 13 0).toNat
/-- Whether it waits for a window rather than an arming input. -/
def MeasReq.window (m : MeasReq) : Bool := m.par 5 0 == 2
/-- Length of a window or timed gate in time units. -/
def MeasReq.len (m : MeasReq) (i : Nat) : Time := (m.par 7 i).toNat * ns

/-- The request that an anchor of a port is (R237, R239): INTERVAL, in a window of A_WIN at the next whole second, up to A_N intervals; the other
parameters as R229 gives them by default. -/
def anchorReq (ss : Settings) (p : Nat) (id : BitVec 16) (now : Time) : MeasReq :=
  let src := fun (i : Nat) => ss.getI .port p 0 0x1502 i 0
  { id := id, anchorPort := some p, asked := now
    params := [(1, [1]), (2, [src 0, src 1]), (5, [2]), (7, [100, (ss.port p 0x1506 : Int) * 1000000]), (8, [0]), (13, [(ss.port p 0x1505 : Int)]),
      (14, [ss.getI .port p 0 0x1504 0 0]), (15, [0])] }

/-- Sums of regression points: how many, Σn, Σt, Σn², Σnt, Σt². -/
def fitSums (l : List (Nat × Int)) : Int × Int × Int × Int × Int × Int :=
  l.foldl (fun a x => (a.1 + 1, a.2.1 + x.1, a.2.2.1 + x.2, a.2.2.2.1 + x.1 * x.1, a.2.2.2.2.1 + x.1 * x.2, a.2.2.2.2.2 + x.2 * x.2)) (0, 0, 0, 0, 0, 0)

/-- FREQ of R233, P / b in units of 2^-24 Hz, where t = a + b·n is the least-squares line through the points; a line that does not rise has no frequency. -/
def freqOf (l : List (Nat × Int)) (presc : Nat) : Nat :=
  let (n, sn, st, snn, snt, _) := fitSums l
  let up := n * snt - sn * st
  if up ≤ 0 then (Config.noStat 4 l).toNat else (divOpen (presc * (n * snn - sn * sn) * (2 ^ 24 * sec : Nat)) up.toNat).toNat

/-- σ of R233 in units of 2^-16 ns: the residuals about that line, over N − 2. -/
def sigmaOf (l : List (Nat × Int)) : Nat :=
  let (n, sn, st, snn, snt, stt) := fitSums l
  let snn' := n * snn - sn * sn
  let rss := (n * stt - st * st) * snn' - (n * snt - sn * st) * (n * snt - sn * st)
  rootOpen rss.toNat ((n * (n - 2)).toNat * snn'.toNat)

/-- RMS of intervals (R234): their standard deviation, over N or N − 1. -/
def deviationOf (l : List (Nat × Int)) : Nat :=
  let (n, _, st, _, _, stt) := fitSums l
  let d := (n * (if Config.sampleDev then n - 1 else n)).toNat
  if d = 0 then (Config.noStat 1 l).toNat else rootOpen (n * stt - st * st).toNat d

/-- MAX_INT. -/
def MeasReq.maxInt (m : MeasReq) : Int := m.par 11 0 * ns

/-- A stop finds its start (R232): the latest one no later than it plus 16 ps (1,048 units), if that one is unpaired and no more than MAX_INT earlier; else
it is an orphan. An edge lost between them marks DEADHIT (R231); a stop less than 3.9 ps (255 units) after its start, COINC. -/
def MeasRun.pair (r : MeasRun) (t : Int) : MeasRun :=
  match (r.starts.filter fun x => decide (x.1 ≤ t + 1048)).getLast? with
  | some (a, false) =>
    if a + r.req.maxInt < t then { r with orphan := r.orphan + 1 }
    else
      let hit := r.lostAt.any fun x => decide (min a t ≤ x) && decide (x ≤ max a t)
      { r with
        starts := (r.starts.filter fun x => decide (a ≤ x.1)).map fun x => if x.1 = a then (a, true) else x
        lostAt := r.lostAt.filter fun x => decide (a ≤ x), results := r.results ++ [(r.results.length, t - a - r.req.par 14 0)]
        mids := r.mids + a + t, flags := r.flags ||| (if hit then 0x004 else 0) ||| (if t ≤ a + 255 then 0x008 else 0) }
  | _ => { r with orphan := r.orphan + 1 }

/-- The stops that no later start can precede are paired in turn, up to N_MAX results: those more than 16 ps before `now`, or all of them. -/
def MeasRun.settle (r : MeasRun) (now : Option Int) : MeasRun :=
  let ready := fun (t : Int) => match now with | some v => decide (t + 1048 < v) | none => true
  let r1 := (r.stops.filter ready).foldl (fun u t => if u.results.length < r.req.nMax then u.pair t else u) r
  { r1 with stops := r1.stops.filter fun t => !(ready t) }

/-- A whole measurement's summary record (R234). -/
def MeasRun.summary (r : MeasRun) (close : Time) : MeasSummary :=
  let m := r.req
  let vals := r.results.map (·.2)
  let n := r.results.length
  let noFit := m.mode == 2 && decide (n < 3)
  let edge := fun (k : Nat) (f : Int → Int → Int) => match vals with | [] => Config.noStat k r.results | v :: vs => vs.foldl f v
  { mode := m.mode, measId := m.id, count := n, dead := r.dead, orphan := r.orphan, unmatched := if m.mode = 1 then r.nStarts - n else 0
    flags := r.flags ||| (if noFit then 0x080 else 0) ||| (if r.sawExternal then 0 else 0x100)
    tOpen := r.tOpen / prb * prb, tClose := close / prb * prb
    mean := if m.mode = 1 then (if n = 0 then Config.noStat 0 r.results else divOpen (isum vals) n) else 0
    rms := if m.mode = 1 then deviationOf r.results else if m.mode = 2 ∧ !noFit then sigmaOf r.results else 0
    min := if m.mode = 1 then edge 2 min else 0
    max := if m.mode = 1 then edge 3 max else 0
    freq := if m.mode = 2 ∧ !noFit then freqOf r.results (m.par 4 0).toNat else 0 }

/-- Stamp blocks of at most 4,096 entries (R422). -/
def stampRecs (id : BitVec 16) (mode : Nat) (es : List (Nat × Int)) : List Rec :=
  (List.range (ceilDiv es.length 4096)).map fun b => .stamps id mode (b * 4096) ((es.drop (b * 4096)).take 4096)

/-- An anchor succeeds or fails (R239): EV191. -/
def State.anchorResult (s : State) (p : Nat) (m : MeasSummary) (want : Nat) (mids : Int) : State :=
  let good := m.count == want && (m.flags &&& 0x172) == 0
  let s1 := if good then
      let a := if s.settings.port p 0x1503 = 1 then m.mean * 500000 else m.mean * 1000000
      s.onPort p fun q => { q with delay := { q.delay with pendingAnchor := some (a, (divOpen mids (2 * m.count)).toNat) } }
    else s.onPort p fun q => { q with delay := { q.delay with flags := q.delay.flags ||| 0x008 } }
  s1.raise 191

/-- A measurement of the USER converter begins: it waits for its arming input or its window (R230). -/
def MeasRun.begin (m : MeasReq) (mono now : Time) : MeasRun :=
  let opens := if m.window then
      let w := unstamp (m.par 8 0).toNat
      some (if m.par 8 0 = 0 then (now / sec + 1) * sec else w)
    else none
  { req := m, isOpen := false, done := false, tOpen := now, tClose := now, armedAt := mono, gateAt := mono, gateLen := none, opensAt := opens, flags := 0
    edgesA := 0, edgesB := 0, lastA := none, lastB := none, starts := [], stops := [], lostAt := [], nStarts := 0, results := [], mids := 0, dead := 0
    orphan := 0, sawExternal := false }

/-- The USER converter takes the next request of the queue when it is free. -/
def State.nextMeas (s : State) : State :=
  match s.tiu.run, s.tiu.queue with
  | none, m :: rest =>
    if s.tiu.user = 3 then s.modTiu Tiu.show
    else s.modTiu fun t => ({ t with run := some (MeasRun.begin m s.time.mono s.unitNow), queue := rest } : Tiu).show
  | _, _ => s.modTiu Tiu.show

/-- Issues a measurement's summary, its stamp blocks and, for an anchor, its outcome (R234, R239, R422): EV185. -/
def State.issueSummary (s : State) (r0 : MeasRun) (close : Time) : State :=
  let r := r0.settle none
  let m := r.summary close
  let s1 := s.push 2 none (.summary m) 0 false
  let s2 := if r.req.par 15 0 = 1 then (stampRecs r.req.id r.req.mode r.results).foldl (fun u x => u.push 2 none x 0 false) s1 else s1
  let s3 := s2.raise 185
  match r.req.anchorPort with
  | some p => s3.anchorResult p m r.req.nMax r.mids
  | none => s3

/-- The running measurement ends with flags; the next one takes the converter. -/
def State.endMeas (s : State) (flags : BitVec 16) (close : Time) : State :=
  match s.tiu.run with
  | none => s
  | some r =>
    let ext := if r.isOpen then r.sawExternal else decide (s.tiu.tb ≠ 0)
    ((s.modTiu fun t => { t with run := none }).issueSummary { r with flags := r.flags ||| flags, sawExternal := ext } close).nextMeas

/-- A request that never ran ends with flags and a COUNT of 0 (R227, R230). -/
def State.dropMeas (s : State) (m : MeasReq) (flags : BitVec 16) : State :=
  s.issueSummary { (MeasRun.begin m s.time.mono s.unitNow) with flags := flags, sawExternal := s.tiu.tb ≠ 0 } s.unitNow

/-- With no converter in USER, what waits is cancelled: EV192 for a measurement; an anchor fails (R227, R239, R245). -/
def State.cancelAll (s : State) : State :=
  if s.tiu.user ≠ 3 then s
  else
    let q := s.tiu.queue
    let s1 := s.modTiu fun t => ({ t with queue := [] } : Tiu).show
    q.foldl (fun u m => let v := u.dropMeas m 0x240; if m.anchorPort.isNone then v.raise 192 else v) s1

/-- Identifiers of the measurements that wait or run. -/
def Tiu.ids (t : Tiu) : List Nat := (match t.run with | some r => [r.req.id.toNat] | none => []) ++ t.queue.map (·.id.toNat)

/-- An anchor measurement of a port is queued ahead of the measurements, if DELAY-TRACK is set and its ANCHOR_SRC is TIU (R235, R237,
R239); it fails when no converter holds USER. -/
def State.queueAnchor (s : State) (p : Nat) : State :=
  if s.settings.mode p 2 && s.settings.port p 0x1501 == 1 then
    let (id, s1) := s.freshId 16 s.tiu.ids
    let m := anchorReq s.settings p (BitVec.ofNat 16 id) s.unitNow
    ((s1.modTiu fun t => { t with
      queue := (t.queue.filter fun x => x.anchorPort.isSome) ++ [m] ++ (t.queue.filter fun x => x.anchorPort.isNone) }).nextMeas).cancelAll
  else s

/-- The gate or window of the running measurement opens (R230); its prescalers start from there (R228). -/
def State.openGate (s : State) (len : Option Time) (flags : BitVec 16) : State :=
  let hold := bit s.tiu.stat 4
  let now := s.unitNow
  s.modTiu fun t => { t with run := t.run.map fun r => { r with
    isOpen := true, tOpen := now, tClose := now, gateAt := s.time.mono, gateLen := len, opensAt := none, edgesA := 0, edgesB := 0
    flags := r.flags ||| flags ||| (if hold then 0x010 else 0), sawExternal := t.tb ≠ 0 } }

/-- A rising edge on the arming input, at elapsed time `e`, opens the gate; one after it has closed is ignored (R230). -/
def measArmEdge (e : Time) (s : State) : State :=
  match s.tiu.run with
  | some r =>
    if r.isOpen || r.done || r.req.window then s
    else (s.until e).openGate (if r.req.par 6 0 = 1 then some (r.req.len 0) else none) 0
  | none => s

/-- MEAS_ARM_EDGE (R230). -/
def execMeasArmEdge (e : Time) (s : State) : Host.Outcome State Fault Refusal := .next (measArmEdge e s)

/-- A window opens at WIN_OPEN (R230). -/
def measWindowOpen (s : State) : State :=
  match s.tiu.run with
  | some r =>
    match r.opensAt with
    | some t => if r.isOpen || r.done then s else (s.elapse (t - s.unitNow)).openGate (some (r.req.len 1)) 0
    | none => s
  | none => s

/-- MEAS_WINDOW_OPEN (R230). -/
def execMeasWindowOpen (s : State) : Host.Outcome State Fault Refusal := .next (measWindowOpen s)

/-- ARM_TO expires: a fallback window opens, or the measurement ends with TIMEOUT (R230). -/
def armTimeout (s : State) : State :=
  match s.tiu.run with
  | some r =>
    if r.isOpen || r.done || r.req.window || r.req.par 9 0 == 0 then s
    else
      let s1 := s.until (r.armedAt + (r.req.par 9 0).toNat * ms)
      if r.req.par 10 0 = 1 then s1.openGate (some (r.req.len 1)) 0x001
      else s1.endMeas 0x002 s1.unitNow
  | none => s

/-- ARM_TIMEOUT (R230). -/
def execArmTimeout (s : State) : Host.Outcome State Fault Refusal := .next (armTimeout s)

/-- Whether a raw stamp falls in the dead time of its channel (R219). -/
def inDead (last : Option Int) (x : Int) : Bool := match last with | some l => decide (x < l + 8 * ns) | none => false

/-- A prescaled edge of a source (R219, R230 to R233): number `k` since the gate opened, its raw stamp and its stamp. -/
def MeasRun.edge (r : MeasRun) (stopCh : Bool) (k : Nat) (raw stamp : Int) : MeasRun :=
  let mode := r.req.mode
  if mode = 2 ∧ k % (max 1 (r.req.par 12 0).toNat) ≠ 0 then r
  else
    let r1 := r.settle (some stamp)
    let r2 := if inDead (if stopCh then r.lastB else r.lastA) raw then
        { r1 with dead := r1.dead + 1, lostAt := r1.lostAt ++ [stamp], flags := if mode = 2 then r1.flags ||| 0x004 else r1.flags }
      else if stopCh then { r1 with lastB := some raw, stops := r1.stops ++ [stamp] }
      else if mode = 1 then { r1 with lastA := some raw, starts := r1.starts ++ [(stamp, false)], nStarts := r1.nStarts + 1 }
      else { r1 with lastA := some raw, results := r1.results ++ [(k, stamp)] }
    if r2.results.length ≥ r.req.nMax then { r2 with done := true, tClose := max r.tClose stamp.toNat } else r2

/-- An edge of an input that is a source of the running measurement: the prescaler counts it, and every P-th goes to the channel (R228). -/
def MeasRun.offer (r : MeasRun) (stopCh : Bool) (raw stamp : Int) : MeasRun :=
  let n := (if stopCh then r.edgesB else r.edgesA) + 1
  let p := max 1 (r.req.par 4 (b01 stopCh)).toNat
  let r1 := if stopCh then { r with edgesB := n } else { r with edgesA := n }
  if n % p ≠ 0 ∨ r.done then r1 else r1.edge stopCh (n / p) raw stamp

/-- Whether an edge is one that a channel of the running measurement takes (R229). -/
def MeasRun.takes (r : MeasRun) (stopCh : Bool) (d : EdgeIn) : Bool :=
  r.isOpen && !r.done && (!stopCh || r.req.mode == 1) && (d.src : Int) == r.req.par 2 (b01 stopCh) && (b01 d.falling : Int) == r.req.par 3 (b01 stopCh)

/-- Whether a raw stamp lies in the open gate or window. -/
def MeasRun.within (r : MeasRun) (x : Int) : Bool :=
  decide ((r.gateAt : Int) ≤ x) && (match r.gateLen with | some l => decide (x < r.gateAt + l) | none => true)

/-! ### Converters (R220, R225 to R227) -/

/-- A field of roles replaced. -/
def Tiu.setRole (t : Tiu) (lo v : Nat) : Tiu := { t with stat := setFld t.stat lo 2 v }

/-- A converter leaves its role: the spare, once calibrated, takes it without shadow; a lone converter holds LAUNCH (R226, R227). -/
def Tiu.release (t : Tiu) (i : Nat) : Tiu :=
  let ready := match ix 3 t.spare with | some k => t.conv[k].calibrated | none => false
  let give := fun (lo : Nat) => if ready then (t.setRole lo t.spare).setRole 12 3 else t.setRole lo 3
  let t1 := if t.spare = i then t.setRole 12 3 else if t.launch = i then give 8 else if t.user = i then give 10 else t
  if t1.launch = 3 && t1.user ≠ 3 then (t1.setRole 8 t1.user).setRole 10 3 else t1

/-- After a release: a measurement whose converter has gone ends with CONV_FAIL, and what waits for none is cancelled. -/
def State.afterRelease (s : State) (old : Nat) : State :=
  let s1 := if s.tiu.user ≠ old then s.endMeas 0x040 s.unitNow else s
  s1.cancelAll

/-- A converter is retired (R226): EV190. -/
def State.retireConv (s : State) (i : Fin 3) : State :=
  let old := s.tiu.user
  let s1 := s.modTiu fun t => { (t.release i.val) with stat := setBit (t.release i.val).stat (14 + i.val) }
  let s2 := s1.modBoot fun b => { b with retired := { b.retired with verniers := b.retired.verniers ||| (1#8 <<< i.val) } }
  (s2.raise 190).afterRelease old

/-- A converter's CKG bit takes it out of use: as for a retired one, but it is not retired (R209). -/
def State.dropConv (s : State) (i : Fin 3) : State :=
  let old := s.tiu.user
  let s1 := s.modTiu fun t =>
    let u := t.release i.val
    { u with conv := u.conv.set i { u.conv[i] with calibrated := false, returning := false } }
  let vacant := fun (was is : Nat) => was != 3 && is == 3
  let s2 := if vacant s.tiu.launch s1.tiu.launch || vacant s.tiu.user s1.tiu.user then s1.raise 190 else s1
  s2.afterRelease old

/-- A converter returns to use: its calibration under R224 begins, which a SELF_TEST_COMPLETE ends (R209; log entry 129, DEDUCED). -/
def State.returnConv (s : State) (i : Fin 3) : State :=
  if bit s.tiu.stat (14 + i.val) then s
  else (s.modTiu fun t => { t with conv := t.conv.set i { t.conv[i] with calibrated := false, returning := true } }).startTests [UnitName.vernier i]

/-- A converter's calibration ends (R209, R224): one that fails is retired; one that comes back to use takes a vacant role, LAUNCH first, or becomes the
spare. -/
def State.calibrated (s : State) (i : Fin 3) (c : VernierCal) : State :=
  let back := s.tiu.conv[i].returning
  let s1 := s.modTiu fun t => { t with conv := t.conv.set i (t.conv[i].calibrate c) }
  if !(vernierOk c) then s1.retireConv i
  else if back then
    (s1.modTiu fun t => if t.launch = 3 then t.setRole 8 i.val else if t.user = 3 then t.setRole 10 i.val else t.setRole 12 i.val).nextMeas
  else s1

/-- An edge of a source at the USER converter (R228 to R233); a failing cell retires the converter (R226). -/
def State.sideEdge (s : State) (stopCh : Bool) (d : EdgeIn) : State :=
  match s.tiu.run with
  | none => s
  | some r =>
    let read := if stopCh then d.b else d.a
    let v := s.tiu.convN s.tiu.user
    let x := (if stopCh then v.b else v.a).raw d.src read
    if !(r.takes stopCh d) || !(r.within x) then s
    else if cellFault read then (match ix 3 s.tiu.user with | some i => s.retireConv i | none => s)
    else s.modTiu fun t => { t with run := some (r.offer stopCh x (s.unitTime x)) }

/-- An edge of an input: a start for channel A, a stop for channel B, or both. -/
def measEdge (d : EdgeIn) (s : State) : State :=
  if s.tiu.gateOpen then (((s.until (d.a.coarse * prb)).takeFit d.ref).sideEdge false d).sideEdge true d else s

/-- MEAS_EDGE (R232). -/
def execMeasEdge (d : EdgeIn) (s : State) : Host.Outcome State Fault Refusal := .next (measEdge d s)

/-- The gate or window closes, or N_MAX was reached: the summary is issued (R234), in EXTERNAL no earlier than 3.2 µs after the last edge (R222). -/
def measGateClose (s : State) : State :=
  match s.tiu.run with
  | some r =>
    let wait := if s.tiu.tb = 0 then 0 else 3200 * ns
    if r.done then (s.elapse wait).endMeas 0 r.tClose
    else if !r.isOpen then s
    else
      let s1 := match r.gateLen with | some l => s.until (r.gateAt + l) | none => s
      (s1.elapse wait).endMeas 0 s1.unitNow
  | none => s

/-- MEAS_GATE_CLOSE (R234). -/
def execMeasGateClose (s : State) : Host.Outcome State Fault Refusal := .next (measGateClose s)

/-- ANCHOR_PER expires (R239). -/
def anchorPeriodExpiry (p : PortIx) (s0 : State) : State :=
  let per := s0.settings.port p.val 0x1507
  if per = 0 ∨ !(s0.settings.mode p.val 2) then s0
  else
    let s := s0.until (s0.ports[p].delay.anchorAt + per * sec)
    (s.modPort p fun q => { q with delay := { q.delay with anchorAt := s.time.mono } }).queueAnchor p.val

/-- ANCHOR_PERIOD_EXPIRY (R239). -/
def execAnchorPeriodExpiry (p : PortIx) (s : State) : Host.Outcome State Fault Refusal := .next (anchorPeriodExpiry p s)

/-! ### The timescale (R221 to R223) -/

/-- The state that R222 calls for. -/
def Tiu.wanted (t : Tiu) : Nat :=
  if !(bit t.ctl 0) || !(bit t.stat 2) then 0
  else if bit t.stat 3 then (if t.tb = 1 || t.ppsNear then 1 else 0)
  else if t.tb ≠ 0 then 2 else 0

/-- The timescale changes state: TS_CHG, EV188, and every delay record in progress is marked (R223, R242). In DEVICE no REF10 fit stands. -/
def State.setTimescale (s : State) (v : Nat) : State :=
  let s1 := s.modTiu fun t => { t with
    stat := clrBit (setBit (setFld t.stat 0 2 v) 7) 4, fit := if v = 0 then none else t.fit
    run := t.run.map fun r =>
      if r.isOpen && !r.done then { r with flags := r.flags ||| 0x020, sawExternal := r.sawExternal || decide (v ≠ 0) } else r }
  (s1.forPorts fun p u => u.modPort p fun q => { q with delay := { q.delay with flags := q.delay.flags ||| 0x080 } }).raise 188

/-- After an input has changed: with no gate open the state changes at once; with one open a loss makes the unit hold over (R223). -/
def State.followInputs (s : State) (lost : Bool) : State :=
  let mis := bit s.tiu.stat 3 && bit s.tiu.stat 2 && s.tiu.tb ≠ 1 && !s.tiu.ppsNear
  let s1 := s.modTiu fun t => { t with stat := putBit t.stat 19 mis }
  let w := s1.tiu.wanted
  if w = s1.tiu.tb then s1.modTiu fun t => { t with stat := clrBit t.stat 4 }
  else if !s1.tiu.gateOpen then s1.setTimescale w
  else if lost then
    s1.modTiu fun t => { t with
      holdSince := if bit t.stat 4 then t.holdSince else s.time.mono, stat := setBit t.stat 4
      run := t.run.map fun r => { r with flags := r.flags ||| 0x010 } }
  else s1

/-- REF10 qualifies or is lost: EV186. -/
def State.setRef10 (s : State) (ok : Bool) : State :=
  if ok = bit s.tiu.stat 2 then s
  else
    let s1 := s.modTiu fun t => { t with stat := if ok then setBit t.stat 2 else setBit (clrBit t.stat 2) 5 }
    (s1.raise 186).followInputs (!ok)

/-- One 1 ms window of REF10: within ±100 ppm of 10 MHz or not. The tenth good one in a row qualifies it; a bad one loses it (R221). With REF_EN 0 it does
not qualify (R243). -/
def State.refWindow (s0 : State) (hz : Nat) : State :=
  let s := s0.elapse ms
  let good := decide (9999000 ≤ hz) && decide (hz ≤ 10001000) && bit s.tiu.ctl 0
  let n := if good then s.tiu.refRun + 1 else 0
  let s1 := s.modTiu fun t => { t with refRun := n }
  if !good then s1.setRef10 false else if 10 ≤ n then s1.setRef10 true else s1

/-- What REF10 shows (R221): windows of its frequency, or no edge for a time, of which 200 ns lose it. -/
def ref10StateChange (o : RefObs) (s : State) : State :=
  match o with
  | .windows hz => hz.foldl State.refWindow s
  | .silence len =>
    if len < 200 * ns then s.elapse len
    else (((s.elapse (200 * ns)).modTiu fun t => { t with refRun := 0 }).setRef10 false).elapse (len - 200 * ns)

/-- REF10_STATE_CHANGE (R221). -/
def execRef10StateChange (o : RefObs) (s : State) : Host.Outcome State Fault Refusal := .next (ref10StateChange o s)

/-- PPS_IN qualifies, and its last pulse begins a second, or is lost: EV187. -/
def State.setPps (s : State) (ok : Bool) : State :=
  if ok = bit s.tiu.stat 3 then s
  else
    let s1 := s.modTiu fun t => { t with
      stat := if ok then setBit t.stat 3 else setBit (clrBit t.stat 3) 6, secondEdge := if ok then t.ppsLast else t.secondEdge }
    (s1.raise 187).followInputs (!ok)

/-- PPS_IN qualifies or is lost (R221): it qualifies with REF10 qualified after three good pulses in a row. A pulse that lay off the REF10 edge
10,000,000 periods after the last one has left no run, and loses it at once; else it is lost 1.1 s after its last pulse. -/
def ppsStateChange (s : State) : State :=
  if !(bit s.tiu.stat 3) then
    if bit s.tiu.ctl 0 && bit s.tiu.stat 2 && decide (3 ≤ s.tiu.ppsRun) then s.setPps true else s
  else if s.tiu.ppsRun ≤ 1 then s.setPps false
  else ((s.until (s.tiu.ppsAt + 1100 * ms)).modTiu fun t => { t with ppsRun := 0 }).setPps false

/-- PPS_STATE_CHANGE (R221). -/
def execPpsStateChange (s : State) : Host.Outcome State Fault Refusal := .next (ppsStateChange s)

/-- A change of state that an open gate held back: when no gate is open, or 1 s after the loss (R223). -/
def timescaleChange (s : State) : State :=
  let w := s.tiu.wanted
  if w = s.tiu.tb then s
  else if !s.tiu.gateOpen then s.setTimescale w
  else if bit s.tiu.stat 4 then (s.until (s.tiu.holdSince + sec)).setTimescale w
  else s

/-- TIMESCALE_CHANGE (R223). -/
def execTimescaleChange (s : State) : Host.Outcome State Fault Refusal := .next (timescaleChange s)

/-! ### Rotation (R225) -/

/-- One failure of a converter under R225; the second retires it (R226). -/
def State.failConv (s : State) (i : Fin 3) : State :=
  let n := s.tiu.conv[i].failures + 1
  let s1 := s.modTiu fun t => { t with conv := t.conv.set i { t.conv[i] with failures := n } }
  if n ≥ 2 then s1.retireConv i else s1

/-- Whether the stamps of the edges in shadow agree (R225): a mean difference within 2 ps and an rms difference within 8 ps, on stamps in units of 2^-16 ns
over 64. -/
def shadowAgrees (spare role : Conv) (es : List ShadowEdge) : Bool :=
  let ds := es.map fun e => (if e.chB then spare.b else spare.a).raw64 e.pad e.spare - (if e.chB then role.b else role.a).raw64 e.pad e.role
  let n := ds.length
  decide (1000 * (isum ds).natAbs ≤ 64 * 131072 * n) && decide (1000 * 1000 * (isum (ds.map fun d => d * d)).natAbs ≤ (64 * 524288) ^ 2 * n)

/-- CAL_AGED: no rotation has completed for 2 × ROT_PER. -/
def State.aged (s : State) (per : Time) : State :=
  if s.time.mono ≥ s.tiu.rotatedAt + 2 * per then s.modTiu fun t => { t with stat := setBit t.stat 18 } else s

/-- A rotation: the spare is calibrated, compared in shadow, and takes the role whose turn it is; 0.1 s later the released converter is calibrated and becomes
the spare. -/
def converterRotation (cal : VernierCal) (shadow : List ShadowEdge) (again : VernierCal) (s0 : State) : State :=
  let per := fld s0.tiu.ctl 4 12 * 10 * sec
  if per = 0 then s0
  else
    let due := s0.tiu.lastRotation + (max 1 ((s0.time.mono - s0.tiu.lastRotation) / per)) * per
    let s := (s0.until due).modTiu fun t => { t with lastRotation := due }
    match ix 3 s.tiu.spare with
    | none => s.aged per
    | some i =>
      if !(bit s.clk.ckg0 i.val) then (s.modTiu fun t => { t with stat := setBit t.stat 17 }).aged per
      else
        let s1 := (s.elapse (20 * ms)).calibrated i cal
        if !(vernierOk cal) then s1.aged per
        else
          let lo := if s1.tiu.nextUser then 10 else 8
          let out := fld s1.tiu.stat lo 2
          let s2 := s1.elapse ms
          if !(shadowAgrees s2.tiu.conv[i] (s2.tiu.convN out) shadow) then (s2.failConv i).aged per
          else
            let s3 := (s2.modTiu fun t =>
              let t1 := (t.setRole lo i.val).setRole 12 3
              { t1 with nextUser := !t.nextUser, rotatedAt := s2.time.mono, stat := clrBit t1.stat 18 }).raise 189
            match ix 3 out with
            | none => s3.nextMeas
            | some j =>
              let s4 := (s3.elapse (100 * ms)).calibrated j again
              if vernierOk again then s4.modTiu fun t => t.setRole 12 j.val else s4

/-- CONVERTER_ROTATION (R225). -/
def execConverterRotation (cal : VernierCal) (shadow : List ShadowEdge) (again : VernierCal) (s : State) : Host.Outcome State Fault Refusal :=
  .next (converterRotation cal shadow again s)

/-! ### Launch stamps (R219, R236) -/

/-- A launch of a port at its gate's scheduled instant is stamped: accepted by the LAUNCH converter, or derived when the tap lies within the dead time of an
accepted tap, no converter holds LAUNCH, or its cell fails, which retires the converter (R226). A derived stamp is the last accepted one, or the
instant of the last REF10 fit, plus the CK_PRB offset between the edges and the tap's offset. -/
def State.launchStamp (s : State) (p : Nat) (tap : TapStamp) : Time × Bool × State :=
  let t := s.tiu
  let x := (t.convN t.launch).a.raw (12 + p) tap.read
  let taken := t.launchHeld && !cellFault tap.read && !(inDead (t.lastTap.map (·.raw)) x)
  if taken then
    let s1 := s.takeFit tap.ref
    let stamp := (s1.unitTime x).toNat
    (stamp, true, s1.modTiu fun t => { t with lastTap := some { raw := x, at' := s.time.mono, stamp := stamp, conv := t.launch } })
  else
    let off := fun (i : Nat) => (t.convN i).a.offs.getD (12 + p) 0
    let stamp := match t.lastTap with
      | some l => (l.stamp : Int) + s.time.mono - l.at' + off l.conv
      | none => s.unitTime s.time.mono + off t.launch
    (stamp.toNat, false, if t.launchHeld && cellFault tap.read then (match ix 3 t.launch with | some i => s.retireConv i | none => s) else s)

/-! ### TIU_CTL and TIU_STAT (R243, R244) -/

/-- A new TIU_CTL; clearing REF_EN holds the unit in DEVICE. -/
def writeTiuCtl (v : Word) (s : State) : State :=
  let s1 := s.modTiu fun t => { t with ctl := wrRW 0xFFF1 t.ctl v }
  if bit s1.tiu.ctl 0 then s1
  else (s1.modTiu fun t => { t with stat := clrBit (clrBit t.stat 2) 3, refRun := 0, ppsRun := 0 }).followInputs true

/-- A write of TIU_STAT. -/
def writeTiuStat (v : Word) (s : State) : State := s.modTiu fun t => { t with stat := wrW1C 0x000200E0 t.stat v }

end Sys2Proof.Machine
end

