-- ==== Sys2Proof/Machine/Guard.lean ====
section
/-! DEFINITION. Light and its supervision: gates, strain epochs, emission reduction, safety groups, the Raman inhibit line, the Source
Drive Chain with its frames and discoveries, the interlock, die temperature (R39 to R70, R128, R555, R569 to R574). -/

namespace Sys2Proof.Machine

/-! ### Gates and epochs -/

/-- Whether a port's gate is open at the present (R40, R41). -/
def State.gateIsOpen (s : State) (p : PortIx) : Bool := s.ports[p].gateOpen && decide (s.time.mono < s.ports[p].gateUntil)
/-- Whether a port's probe outputs carry tones at the present (R39). -/
def State.probeIsOn (s : State) (p : PortIx) : Bool :=
  s.ports[p].probeOn && decide (s.ports[p].probeFrom ≤ s.time.mono) && decide (s.time.mono < s.ports[p].probeUntil)
/-- The codes of a port's I and Q probe outputs at the present: those of the launch, and code 0 while no tone is being emitted (R39). -/
def State.probeOut (s : State) (p : PortIx) : BitVec 10 × BitVec 10 :=
  if s.probeIsOn p then s.ports[p].probe.getD ((s.time.mono - s.ports[p].probeFrom) * 2000000000 / sec) (0, 0) else (0, 0)

/-- Closes a port's gate and sets its probe outputs to code 0: a launch in progress is cut short and counts as not launched (R200, R574). -/
def closeGate (p : PortIx) (s : State) : State :=
  let cut := s.gateIsOpen p
  s.modPort p fun q => { q with
    gateOpen := false
    probeOn := false
    pings := if cut then (match q.pings.reverse with | t :: ts => ({ t with launched := false } :: ts).reverse | [] => []) else q.pings }

/-- A group's state at the start of a strain epoch: every phase 0, every alignment offset to be seeded, no previous ping (R128). -/
def GroupSt.newEpoch (g : GroupSt) : GroupSt :=
  { g with
    prev := [], prevVoid := [], prevSat := [], hasPrev := false, phi := g.phi.map fun _ => 0, gammaOk := [], gamma := []
    align := g.align.map fun _ => 0, seed := g.seed.map fun _ => Seed.unseeded }

/-- The settings that a ping in flight was launched under stay with it. -/
def PingTag.keep (t : PingTag) (c : Settings) : PingTag := if t.old || t.cfg.isSome then t else { t with cfg := some c }

/-- The pings in flight go on under the phase-engine state that they were launched under. -/
def Port.retireRun (q : Port) : Port :=
  { q with
    oldRun := some { plan := q.plan, groups := q.groups, lastGamma := q.lastGamma, lastSense := q.lastSense, lastValid := q.lastValid
                     dph := q.dph, refR := q.refR, epoch := BitVec.ofNat 16 (fld q.stat 16 16) }
    pings := q.pings.map fun t => { t with old := true } }

/-- A change of GAUGE alone: offsets re-seeded from phases at the new gauge only, and the next strain-rate sample is a STEP (R124, R125, R128, R165). -/
def Port.newGauge (q : Port) : Port :=
  { q with
    stepNext := true
    groups := q.groups.map fun g => { g with
      seed := g.seed.map fun _ => Seed.unseeded, align := g.align.map fun _ => 0, gamma := [], gammaOk := [] } }

/-- A new strain epoch of a port (R128): STRAIN_EPOCH advances, and D_REL starts at zero (R238). -/
def Port.newEpoch (q0 : Port) : Port :=
  let q := if q0.pings.any fun t => !t.old then q0.retireRun else q0
  { q with
    stat := setFld q.stat 16 16 (fld q.stat 16 16 + 1)
    groups := q.groups.map GroupSt.newEpoch
    lastGamma := []
    lastSense := none
    dph := DelayPh.reset
    delay := { q.delay with inEpoch := false, pendingAnchor := none, recs := [], slipCnt := 0, flags := q.delay.flags ||| 0x200 } }

/-! ### What a boundary does to a port's zones -/

/-- The curd-domain ring of a zone restarts empty, or ends (R429). -/
def State.restartCurd (s : State) (z : Nat) : State :=
  s.modZone z fun r => { r with
    curdSince := if s.settings.zone z 0x1708 = 0 then none else some s.time.dev, curdRows := [], curdShrunk := 0 }

/-- Whether a zone's setting in force changes between two settings: one that is not given has its default. -/
def zoneChanged (old new : Settings) (z : Nat) (codes : List Nat) : Bool :=
  codes.any fun c => (List.range 4).any fun b =>
    let k : SetKey := { kind := .zone, inst := z, sub := b, code := c }
    let inForce := fun (ss : Settings) => (ss.val? k).getD (((param c).bind (·.dflt)).getD [])
    inForce old != inForce new

/-- Closes a zone's frames under the settings that its rows were formed under. -/
def State.closeUnder (s : State) (old : Settings) (z : Nat) : State :=
  { ({ s with settings := old } : State).closeAll z true with settings := s.settings }

/-- A zone's change at its commit boundary: a reset of its chains (R161), its bands (R160), early closes (R385), its ring (R429). -/
def State.rezone (s : State) (old : Settings) (z : Nat) (t : Time) (ring : Bool) : State :=
  let new := s.settings
  let exact := zoneExact old z || zoneExact new z
  let shape := zoneChanged old new z [0x1701, 0x1702, 0x1703]
  let reset := exact && (shape || zoneChanged old new z [0x1301, 0x1302, 0x1303])
  let s0 := if shape || reset || zoneChanged old new z ((if exact then [0x1707] else [0x1304, 0x1707]) ++ (List.range 8).map (0x1801 + ·)) then
    s.closeUnder old z else s
  let s1 := if reset then s0.syncReset z t else s0
  let s2 := if shape || zoneChanged old new z [0x1305, 0x1306, 0x1307] then s1.modZone z fun r => { r with bands := [], featEnd := none } else s1
  if ring || zoneChanged old new z [0x1708, 0x1702] then s2.restartCurd z else s2

/-- The work at a port's zones: frames of withdrawn zones close, changed zones take their changes, chains reset (R161, R373, R385). -/
def State.zoneWork (s : State) (p : PortIx) (w : Later) : State :=
  let was := zonesOf w.old p.val
  let now := zonesOf s.settings p.val
  let ended := was.filter fun z => match s.zoneRt z with | some r => r.state == 2 && !r.gone.isEmpty | none => false
  let s1 := forEach ended (fun z u => u.closeUnder w.old z) s
  let s2 := forEach (now.filter fun z => was.contains z) (fun z u => u.rezone w.old z w.inst w.ring) s1
  if w.reset then s2.syncResetPort p.val w.inst else s2.resetNamed p.val w.inst

/-- That work at a boundary: at once, or, with pings in flight, once they are processed: a boundary's changes apply to the pings after it. -/
def State.atBoundary (s : State) (p : PortIx) (w : Later) : State :=
  if s.ports[p].pings.isEmpty then s.zoneWork p w
  else s.modPort p fun q => { q with
    pings := q.pings.map (·.keep q.plan)
    later := some (match q.later with
      | some l => { old := l.old, inst := w.inst, reset := l.reset || w.reset, ring := l.ring || w.ring }
      | none => w) }

/-- Whether a withdrawn zone has anything left to do. -/
def State.drained (s : State) (z : Nat) : Bool :=
  (match s.zoneRt z with
    | some r => r.opens.isEmpty && (s.portN (zonePort r.gone z)).later.isNone
    | none => true) &&
  !(s.streams.queue.any fun it => it.zone == some z && !it.urgent) && !((List.finRange 26).any fun n => s.press[n].blocks.any fun b => b.frame.zone == z) &&
    !((List.finRange 32).any fun n => s.engines[n].zone == some z)

/-- A withdrawn zone that has drained leaves (R373). -/
def State.endDrain (s : State) (z : Nat) : State :=
  match s.zoneRt z with
  | some r => if r.state = 2 && s.drained z then { s.endRun z with zones := (s.endRun z).zones.filter fun x => x.id != z } else s
  | none => s

/-- Once no ping launched before the boundary is in flight, the work left to do is done. -/
def State.pingsDone (s : State) (p : PortIx) : State :=
  let q := s.ports[p]
  let s1 := if q.oldRun.isSome && !(q.pings.any (·.old)) then s.modPort p fun q => { q with oldRun := none } else s
  match q.later with
  | none => s1
  | some w =>
    if q.pings.any fun t => t.old || t.cfg.isSome then s1
    else forEach (zonesOf w.old p.val) (fun z u => u.endDrain z) ((s1.modPort p fun q => { q with later := none }).zoneWork p w)

/-- A strain epoch's own effects: the port's state starts afresh, and an anchor follows at once (R128, R239). -/
def State.startEpoch (s : State) (p : PortIx) : State := (s.modPort p Port.newEpoch).queueAnchor p.val

/-- A strain epoch begins at a frame boundary, with the synchronising reset of R161. -/
def State.beginEpoch (s : State) (p : PortIx) : State := (s.startEpoch p).atBoundary p { old := s.settings, inst := s.time.dev, reset := true, ring := false }

/-! ### The Raman inhibit line (R31, R58, R543) -/

/-- Whether the main side holds the line asserted: interlock cause, failed chain, a break on a THERMAL-ASSIGNED port, HOLD or IDLE, reset. -/
def State.inhibitWanted (s : State) : Bool :=
  s.sdc.causeIntlk || s.sdc.chainFailed || s.boot.inReset || fld s.boot.pwrStat 0 2 ≠ 0 ||
    (List.finRange 24).any fun p => s.ports[p].thermal && bit s.ports[p].stat 1

/-- The line as the main side drives it now. -/
def State.driveInhibit (s : State) : State := s.modRind fun r => { r with inhibitOuter := s.inhibitWanted }

/-! ### Emission reduction (R61, R62) -/

/-- A port enters emission reduction: its PUMP emitters go to BIAS_RED in the next frame, EV205 (R61). -/
def State.enterReduction (s : State) (p : PortIx) : State :=
  ((s.modPort p fun q => { q with stat := setBit q.stat 7, redFrames := 0, restartGood := 0 }).raise 205).driveInhibit

/-- Emission reduction ends: the break clears, and a strain epoch begins at the boundary (R62, R128, R136). -/
def Port.leaveReduction (q : Port) : Port :=
  { q with stat := clrBit (clrBit q.stat 7) 1, failRun := 0, redFrames := 0, restartGood := 0, resumePending := false, epochPending := true }

/-! ### Safety groups (R57 to R60) -/

/-- Whether a safety group is shut down. -/
def State.groupShut (s : State) (g : Nat) : Bool := match ix 16 g with | some i => s.shut[i] | none => false

/-- Shuts down the listed groups: the gates of their ports close; their emitters' EN bits clear in the next frame (R58). -/
def State.shutGroups (s : State) (gs : List Nat) : State :=
  let s1 : State := { s with shut := Vector.ofFn fun i : Fin 16 => s.shut[i] || gs.contains i.val }
  s1.forPorts fun p u => if gs.contains (portGroup u.settings p.val) then closeGate p u else u

/-- Every group. -/
def allGroups : List Nat := List.range 16

/-- Whether any emitter of a group has its EN bit set (R57). -/
def State.groupLit (s : State) (ss : Settings) (g : Nat) : Bool :=
  (List.finRange 128).any fun e => s.emOn[e] && emGroup ss e.val == g

/-! ### Source Drive Chain: words (R45 to R47, R55, R56, R68 to R70) -/

/-- The seven bytes of bits [63:8], most significant first. -/
def wordBytes (w : BitVec 64) : List Nat := (List.range 7).map fun i => (w.extractLsb' (56 - 8 * i) 8).toNat
/-- CRC-8 of a word over bits [63:8]. -/
def wordCrc (w : BitVec 64) : Nat := crc8 (wordBytes w)
/-- A word with its SEQ and CRC put in. -/
def sealWord (w : BitVec 64) (seq : BitVec 8) : BitVec 64 :=
  let w1 := (w &&& ~~~(0xFF#64 <<< 48) &&& ~~~0xFF#64) ||| (seq.setWidth 64 <<< 48)
  w1 ||| BitVec.ofNat 64 (wordCrc w1)

/-- Field of a 64-bit word. -/
def fld64 (w : BitVec 64) (lo len : Nat) : Nat := w.toNat / 2 ^ lo % 2 ^ len

/-- Whether an emitter is defined. -/
def emDefined (ss : Settings) (e : Nat) : Bool := ss.has .emitter e 0 0x0205

/-- Number of devices from the last discovery. -/
def Sdc.ndev (c : Sdc) : Nat := fld c.stat 0 6
/-- SDC_CLK in use, in Hz (R43). -/
def Sdc.hz (c : Sdc) : Nat := match c.clkInUse.toNat with | 0 => 25000000 | 1 => 12500000 | _ => 6250000
/-- Whether EN bits of PROBE and PUMP emitters are sent in the frame that starts now: while a return to RUN waits for its commit point, only in
the frame that precedes it (R543, R545). -/
def State.lights (s : State) : Bool :=
  s.running && s.commits.all fun c =>
    c.owner.isSome || (c.fixed && decide (c.tC < s.time.mono + 2 * (((s.sdc.ndev + 1) * 64 + 8) * sec / s.sdc.hz)))

/-- Whether an emitter's EN bit is sent: defined, its group armed, and for PROBE and PUMP emitters a probing port in power state RUN
(R543; log entry 43, DEDUCED). -/
def State.emEnabled (s : State) (e : Nat) : Bool :=
  let ss := s.settings
  let p := emServes ss e
  emDefined ss e && !(s.groupShut (emGroup ss e)) && (emRole ss e ≥ 2 || (s.lights && (p == 255 || ss.probing p)))

/-- Bias code sent to an emitter: its override, BIAS_RED for a PUMP of a reduced port, or R55's (R61, R69). -/
def State.emBias (s : State) (e : Nat) : Nat :=
  let ss := s.settings
  let o := match ix 128 e with | some i => s.sdc.ovr[i] | none => 0
  if bit o 16 then fld o 0 16
  else if emRole ss e = 1 ∧ bit (s.portN (emServes ss e)).stat 7 then (emPar ss e 0x1A06 0).toNat % 65536
  else (emCodes ss e).2.toNat % 65536

/-- The command word for driver `d`, before SEQ and CRC (R45, R56, R68, R70): SET to one of its defined channels in turn, NOP with none. -/
def State.driverWord (s : State) (d : Nat) : BitVec 64 :=
  let e0 := 4 * d
  if bit s.sdc.ctl 3 then
    let half := fun (k : Nat) => match ix 64 k with | some i => s.sdc.raw[i] | none => 0
    let w : BitVec 64 := (half (2 * d + 1)) ++ (half (2 * d))
    (List.range 4).foldl (fun (w : BitVec 64) c => if s.groupShut (emGroup s.settings (e0 + c)) then w &&& ~~~(1#64 <<< (12 + c)) else w) w
  else
    let mine := (List.range 4).filter fun c => emDefined s.settings (e0 + c)
    let ch := mine.getD (s.sdc.channel % max 1 mine.length) 0
    let e := e0 + ch
    let en := (List.range 4).foldl (fun n c => if s.emEnabled (e0 + c) then n + 2 ^ c else n) 0
    let set := emDefined s.settings e
    BitVec.ofNat 64 ((if set then 1 else 0) * 2 ^ 60 + ch * 2 ^ 58 + (if set then s.emBias e else 0) * 2 ^ 32 +
      (if set then (emCodes s.settings e).1.toNat % 65536 else 0) * 2 ^ 16 + en * 2 ^ 12)

/-- `n` periods of SDC_CLK. -/
def Sdc.periods (c : Sdc) (n : Nat) : Time := n * sec / c.hz
/-- The frame period, ((N + 1) × 64 + 8) periods (R54). -/
def Sdc.framePeriod (c : Sdc) : Time := c.periods ((c.ndev + 1) * 64 + 8)

/-- How long CK_REF runs divided in each step of a ramp, and by what (R192). -/
def clkDivs : List (Nat × Nat) := [(us, 2), (us, 4), (2 * us, 8), (us, 4), (us, 2)]
/-- How long `w` of undivided time takes from `x` into those steps on. -/
def slowed : List (Nat × Nat) → Nat → Nat → Nat
  | [], _, w => w
  | (len, d) :: rest, x, w =>
    if len ≤ x then slowed rest (x - len) w
    else if w * d ≤ len - x then w * d
    else (len - x) + slowed rest 0 (w - (len - x) / d)

/-- When shifting that starts now and takes `work` ends, with the latch pulse and gap of `tail` after it: slowed by a CK_REF ramp, whose end the latch pulse
waits for (R194). -/
def State.chainEnd (s : State) (work tail : Time) : Time :=
  match s.clk.ramp with
  | .ref _ _ => max (s.time.mono + slowed clkDivs (s.time.mono - s.clk.rampAt) work) (s.clk.rampAt + 6 * us) + tail
  | _ => s.time.mono + work + tail

/-- What the chain does, with LAT_SHUT to match: SDC_LAT is low from the start of a discovery's shift until the shutdown level (R571). -/
def Sdc.setPhase (c : Sdc) (p : ChainPhase) : Sdc :=
  { c with phase := p, stat := putBit c.stat 16 (match p with | .discovering | .framing => false | _ => true) }

/-- Whether a cause of R571 other than a failed chain stands. -/
def Sdc.otherCause (c : Sdc) : Bool := !(bit c.ctl 0) || c.causeIntlk || c.causeAux || c.causeTemp

/-- SDC_LAT goes to its shutdown level: a frame or discovery in progress is abandoned; with EN set a discovery waits (R571). No emitter is
on at the shutdown level. -/
def State.latShutdown (s : State) (wait : Time) : State :=
  let s1 : State := { s with emOn := Vector.replicate 128 false }
  s1.modSdc fun c => { (c.setPhase (if bit c.ctl 0 then .waiting else .idle)) with
    waitUntil := s.time.mono + wait, passes := 0, failedRun := 0, sent := [], again := false }

/-- The next frame begins (R45, R52): its words are put together and shifted. -/
def State.startFrame (s : State) : State :=
  let n := s.sdc.ndev
  let words := if s.sdc.again then s.sdc.sent else (List.range n).map s.driverWord
  let words1 := words.zipIdx.map fun wd =>
    (List.range 4).foldl (fun (w : BitVec 64) c => if s.groupShut (emGroup s.settings (4 * wd.2 + c)) then w &&& ~~~(1#64 <<< (12 + c)) else w) wd.1
  s.modSdc fun c => { (c.setPhase .framing) with
    sent := words1.map fun w => sealWord w c.seq, waitUntil := s.chainEnd (c.framePeriod - c.periods 8) (c.periods 8) }

/-- A chain integrity failure, or a discovery or condition treated as one (R52, R53, R58): every group shuts down, SDC_LAT goes to its
shutdown level, EV204 and EV201. -/
def State.chainFails (s : State) (integ : Bool) : State :=
  if s.sdc.chainFailed then s.latShutdown (10 * ms)
  else
    let s1 := (s.modSdc fun c => { c with chainFailed := true, stat := if integ then setBit c.stat 7 else c.stat }).latShutdown (10 * ms)
    (((s1.shutGroups allGroups).driveInhibit).raise 204).raise 201

/-- Whether a received status block passes on its own for a device (R51). -/
def statusOk (w sent : BitVec 64) (id : BitVec 8) : Bool :=
  fld64 w 60 4 == 10 && fld64 w 0 8 == wordCrc w && fld64 w 48 8 == fld64 sent 48 8 && fld64 w 40 8 == fld64 sent 0 8 && fld64 w 8 8 == id.toNat

/-- The emitters in electrical fault in a status word: enabled in the word it echoes, with FAULT set or DIAG 0b10 or 0b11 (R58). -/
def faultsOf (w sent : BitVec 64) (d : Nat) : List Nat :=
  ((List.range 4).filter fun c => sent.getLsbD (12 + c) && (w.getLsbD (56 + c) || fld64 w (32 + 2 * c) 2 ≥ 2)).map fun c => 4 * d + c

/-- Electrical faults shut their emitters' groups down: EV204 and EV202 (R58). -/
def State.electrical (s : State) (es : List Nat) : State :=
  let gs := ((es.map (emGroup s.settings)).eraseDups).filter fun g => !(s.groupShut g)
  if gs.isEmpty then s else ((s.shutGroups gs).raise 204).raise 202

/-- The end of a frame (R51, R52): integrity, electrical faults, and the latch pulse. -/
def sdcFrameEnd (rx : List (BitVec 64)) (s : State) : State :=
  if s.sdc.phase ≠ .framing then s
  else
    let s0 := s.until s.sdc.waitUntil
    let c := s0.sdc
    let n := c.ndev
    let status := (rx.take n).reverse
    let ok := (List.range n).map fun d => statusOk (status.getD d 0) (c.latched.getD d 0) (c.ids.getD d 0)
    let pass := rx.length == n + 1 && rx.getD n 1 == 0 && ok.all id
    let es := (List.range n).flatMap fun d => if ok.getD d false then faultsOf (status.getD d 0) (c.latched.getD d 0) d else []
    let s1 := (s0.modSdc fun c => { c with
      status := (List.range n).map fun d => if ok.getD d false then status.getD d 0 else c.status.getD d 0 }).electrical es
    let latch := fun (u : State) =>
      ({ u with emOn := Vector.ofFn fun e : Fin 128 => (u.sdc.sent.getD (e.val / 4) 0).getLsbD (12 + e.val % 4) } : State).modSdc fun c => { c with
        latched := c.sent, seq := c.seq + 1 }
    let s2 := s1.emit (.chainFrame c.sent)
    if pass then
      ((latch s2).modSdc fun c => { c with
        failedRun := 0, passes := c.passes + 1, again := false, channel := (c.channel + 1) % 12 }).startFrame
    else
      let s3 := s2.modSdc fun c => { c with stat := bumpFld c.stat 8 8, failedRun := c.failedRun + 1, passes := 0 }
      if s3.sdc.failedRun ≥ 2 then s3.chainFails true
      else ((latch s3).modSdc fun c => { c with again := true }).startFrame

/-- SDC_FRAME_END (R51). -/
def execSdcFrameEnd (rx : List (BitVec 64)) (s : State) : Host.Outcome State Fault Refusal := .next (sdcFrameEnd rx s)

/-! ### Discovery (R53, R54, R571) -/

/-- A discovery's shift begins: SDC_LAT low, (33 × 64 + 64) zero bits; CLKSEL takes effect (R54). -/
def State.startDiscovery (s : State) (boot : Bool) : State :=
  s.modSdc fun c =>
    let c1 := { c with clkInUse := (c.ctl.extractLsb' 1 2), bootDiscovery := boot, again := false, sent := [] }
    { (c1.setPhase .discovering) with waitUntil := s.chainEnd (c1.periods (34 * 64)) 0 }

/-- A discovery begins once no other cause stands (R571). -/
def sdcDiscoveryStart (s : State) : State :=
  if s.sdc.phase = .waiting ∧ !s.sdc.otherCause ∧ s.sdc.waitUntil ≤ s.time.mono then s.startDiscovery false else s

/-- SDC_DISCOVERY_START (R571). -/
def execSdcDiscoveryStart (s : State) : Host.Outcome State Fault Refusal := .next (sdcDiscoveryStart s)

/-- Another discovery, 10 ms after a failure (R571). -/
def sdcDiscoveryRetry (s : State) : State :=
  if s.sdc.phase = .waiting ∧ s.sdc.chainFailed ∧ !s.sdc.otherCause then (s.until s.sdc.waitUntil).startDiscovery false else s

/-- SDC_DISCOVERY_RETRY (R571). -/
def execSdcDiscoveryRetry (s : State) : Host.Outcome State Fault Refusal := .next (sdcDiscoveryRetry s)

/-- What a discovery finds in the blocks received, without regard to when (R53, R54). -/
def State.finishDiscovery (s : State) (blocks : List (BitVec 64)) : State :=
  let boot := s.sdc.bootDiscovery
  let after := fun (u : State) => if boot && u.sdc.otherCause then u.latShutdown 0 else u
  match (blocks.take 34).findIdx? fun b => b == 0 with
  | none =>
    (s.modSdc fun c => { c with stat := clrBit (setBit (setFld c.stat 0 6 0) 6) 18, known := false }).chainFails false
  | some k =>
    if s.sdc.clkInUse.toNat = 2 ∧ k > 20 then
      (s.modSdc fun c => { c with stat := setBit (clrBit (setFld c.stat 0 6 k) 6) 18, known := false }).chainFails false
    else
      let changed := match s.sdc.prevCount with | some m => m != k | none => false
      let ids := ((blocks.take k).reverse).map fun b => b.extractLsb' 8 8
      let s1 := (s.modSdc fun c => { c with
        stat := clrBit (clrBit (setFld c.stat 0 6 k) 6) 18, ids := ids, known := true, prevCount := some k, chainFailed := false
        failedRun := 0, passes := 0, seq := 1, channel := 0, latched := List.replicate k 0, sent := [], again := false
        status := List.replicate k 0 }).driveInhibit
      let s2 : State := { s1 with emOn := Vector.replicate 128 false }
      let s3 := if changed then
          ({ s2 with settings := s2.settings.emitters.foldl (fun ss e => if 4 * k ≤ e then ss.drop .emitter e else ss) s2.settings } : State).raise 206
        else s2
      if boot && s3.sdc.otherCause then after s3 else s3.startFrame

/-- The end of a discovery (R53). -/
def sdcDiscoveryEnd (blocks : List (BitVec 64)) (s : State) : State :=
  if s.sdc.phase ≠ .discovering then s else (s.until s.sdc.waitUntil).finishDiscovery blocks

/-- SDC_DISCOVERY_END (R53). -/
def execSdcDiscoveryEnd (blocks : List (BitVec 64)) (s : State) : Host.Outcome State Fault Refusal := .next (sdcDiscoveryEnd blocks s)

/-! ### Registers of the chain (R66 to R69) -/

/-- A write of SDC_CTL (R66, R571): EN from 0 to 1 calls for a discovery; from 1 to 0 raises SDC_LAT at once. -/
def writeSdcCtl (v : Word) (s : State) : State :=
  let old := s.sdc.ctl
  let a := wrRWD (bit old 0) (fun x => x ≠ 3) 1 2 (old, false) v
  let b := wrChecked (fun x => x ≠ 0) 4 12 a v
  let new := wrRW 0x9 b.1 v
  let s1 := ((s.modSdc fun c => { c with ctl := new, stat := if b.2 then setBit c.stat 17 else c.stat }).hazardIf (wrDiffers 0x8 old v))
  if bit old 0 && !(bit new 0) then s1.latShutdown 0
  else if !(bit old 0) && bit new 0 then s1.modSdc fun c => { (c.setPhase .waiting) with waitUntil := s.time.mono }
  else s1

/-- SDC_ENABLE (R66): the write, and the discovery's start when nothing else holds SDC_LAT high. -/
def execSdcEnable (v : Word) (s : State) : Host.Outcome State Fault Refusal := 
  .next (s.writtenClk 10 fun u => sdcDiscoveryStart (writeSdcCtl v u))
/-- SDC_DISABLE (R571). -/
def execSdcDisable (v : Word) (s : State) : Host.Outcome State Fault Refusal := .next (s.writtenClk 10 (writeSdcCtl v))

/-- A write of SDC_STAT (R67). -/
def writeSdcStat (v : Word) (s : State) : State := s.modSdc fun c => { c with stat := wrW1C 0x00020080 c.stat v }

/-- A write of SDC_RAWn (R68). -/
def writeSdcRaw (n : Fin 64) (v : Word) (s : State) : State :=
  (s.modSdc fun c => { c with raw := c.raw.set n v }).hazardIf (s.sdc.raw[n] ≠ v)

/-- A write of EMI_OVRn (R69). -/
def writeEmiOvr (n : Fin 128) (v : Word) (s : State) : State :=
  (s.modSdc fun c => { c with ovr := c.ovr.set n (wrRW 0x1FFFF c.ovr[n] v) }).hazardIf (wrDiffers 0x1FFFF s.sdc.ovr[n] v)

/-! ### The interlock (R58, R59, R571) -/

/-- The loop opens: gates closed, SDC_LAT at its shutdown level, the Raman inhibit asserted, every group shut; EV204 and EV200. -/
def interlockOpen (s : State) : State :=
  if s.sdc.causeIntlk then s
  else
    let s1 := ((s.modSdc fun c => { c with causeIntlk := true }).shutGroups allGroups).latShutdown 0
    ((s1.driveInhibit).raise 204).raise 200

/-- INTERLOCK_OPEN (R59). -/
def execInterlockOpen (s : State) : Host.Outcome State Fault Refusal := .next (interlockOpen s)

/-- A cause other than a failed chain has cleared: with none left, a discovery is due at once (R571). -/
def State.causeCleared (s : State) : State :=
  if s.sdc.phase = .waiting ∧ !s.sdc.otherCause then s.modSdc fun c => { c with waitUntil := s.time.mono } else s

/-- The loop has read below 100 Ω for 10 ms (R571). -/
def interlockClosed (s : State) : State :=
  if s.sdc.causeIntlk then ((s.modSdc fun c => { c with causeIntlk := false }).driveInhibit).causeCleared else s

/-- INTERLOCK_CLOSED (R571). -/
def execInterlockClosed (s : State) : Host.Outcome State Fault Refusal := .next (interlockClosed s)

/-- The auxiliary loop is out of lock: groups shut down as for a chain integrity failure (R201). -/
def State.auxLost (s : State) : State :=
  let s1 := ((s.modSdc fun c => { c with causeAux := true }).shutGroups allGroups).latShutdown 0
  (s1.raise 204).raise 201

/-! ### Die temperature (R555) -/

/-- A sample of the die sensors, in units of 2^-8 °C. -/
def dieTemperature (ts : List Int) (s : State) : State :=
  let above := fun (c : Int) => ts.any fun t => decide (c * 256 ≤ t)
  let hot := ts.any fun t => decide (105 * 256 < t)
  let top := (ts.foldl max (-100000)).toNat
  let s1 := s.modSdc fun c => { c with hot := hot, warned := above 110 }
  let s2 := if above 110 && !s.sdc.warned then s1.faultLog 1 248 0xFFFF (BitVec.ofNat 32 top) else s1
  let s3 := if above 115 && !s.sdc.causeTemp then
      let u := ((s2.modSdc fun c => { c with causeTemp := true }).shutGroups allGroups).latShutdown 0
      ((u.raise 204).raise 201).faultLog 1 201 0xFFFF (BitVec.ofNat 32 top)
    else s2
  if s3.sdc.causeTemp && !hot then (s3.modSdc fun c => { c with causeTemp := false }).causeCleared else s3

/-- DIE_TEMPERATURE_SAMPLE (R555). -/
def execDieTemperatureSample (ts : List Int) (s : State) : Host.Outcome State Fault Refusal := .next (dieTemperature ts s)

/-! ### Optical evidence (R63 to R65) -/

/-- The port's PROBE and PUMP emitters. -/
def portEmitters (ss : Settings) (p : Nat) : List Nat := ss.emitters.filter fun e => emServes ss e == p && emRole ss e ≤ 1

/-- K group-0 pings without evidence: the emitters' groups, or the port's own, shut down (R64); EV204, EV203, and a fault-log entry with the
driver's DIAG for each emitter (R65). -/
def State.declareOpen (s : State) (p : PortIx) : State :=
  let es := portEmitters s.settings p.val
  let gs := if es.isEmpty then [portGroup s.settings p.val] else (es.map (emGroup s.settings)).eraseDups
  let s1 := (((s.modPort p fun q => { q with declared := true, noEvidence := 0 }).shutGroups gs).raise 204).raise 203
  let diag := fun (e : Nat) => BitVec.ofNat 32 (fld64 (s.sdc.status.getD (e / 4) 0) 32 8)
  if es.isEmpty then s1.faultLog 3 203 0xFFFF 0 else es.foldl (fun u e => u.faultLog 3 203 e (diag e)) s1

/-! ### Re-arming (R60) -/

/-- Whether the conditions of R60 and R555 hold for a group. -/
def State.rearmOk (s : State) (g : Nat) : Bool :=
  let ss := s.settings
  !s.sdc.causeIntlk && decide (16 ≤ s.sdc.passes) && !s.sdc.hot &&
    (ss.emitters.filter fun e => emGroup ss e == g).all (fun e =>
      let w := s.sdc.status.getD (e / 4) 0
      !(w.getLsbD (56 + e % 4)) && fld64 w (32 + 2 * (e % 4)) 2 < 2) &&
    (List.finRange 24).all fun p => !(portGroup ss p.val == g && s.ports[p].declared)

/-- Re-arms a group: its gates reopen at the next frame boundary of each of its ports, emission reduction of those ports ends, and a shut-down
group's ports begin an epoch (R60, R62, R128, R136). -/
def State.rearm (s : State) (g : Nat) : State :=
  let was := s.groupShut g
  let s1 : State := { s with shut := match ix 16 g with | some i => s.shut.set i false | none => s.shut }
  (s1.forPorts fun p u =>
    if portGroup u.settings p.val == g then
      u.modPort p fun q =>
        let q1 := if bit q.stat 7 then q.leaveReduction else q
        { q1 with reopen := q1.reopen || was || bit q.stat 7, epochPending := q1.epochPending || was, noEvidence := 0 }
    else u).driveInhibit

end Sys2Proof.Machine
end

