-- ==== Sys2Proof/Machine/Phase.lean ====
section
/-! DEFINITION. The frame timer and the phase engine: launches, frame boundaries, the processing of a ping, the fibre end and breaks, EXACT
outputs, band features, delay records, the input buffer and pace (R17 to R22, R41, R107 to R165, R236 to R242). -/

namespace Sys2Proof.Machine

/-! ### Port causes (R141) -/

/-- A cause bit of PORT_STATp sets; the port's event is raised when it goes from 0 to 1 and its enable is 1. -/
def State.portCause (s : State) (p : PortIx) (i : Nat) : State :=
  let was := bit s.ports[p].stat i
  let en := match i with
    | 0 | 2 => true
    | 3 | 4 | 5 | 6 => bit s.ports[p].even i
    | _ => false
  let s1 := s.modPort p fun q => { q with stat := setBit q.stat i }
  if !was && en then s1.raiseN (96 + p.val) else s1

/-! ### The calibrator at a frame boundary (R89 to R98) -/

/-- STATE of a pair's calibrator in RXC_STATp (R102): 0 OFF, 1 ACCUM, 2 WALK, 3 HOLD, 4 DONE. -/
def Port.calState (q : Port) (w : Pair) : Nat := match w with | .x => fld q.rxcStat 0 4 | .y => fld q.rxcStat 8 4
/-- That STATE replaced. -/
def Port.setCal (q : Port) (w : Pair) (v : Nat) : Port :=
  { q with rxcStat := match w with | .x => setFld q.rxcStat 0 4 v | .y => setFld q.rxcStat 8 4 v }
/-- The calibrator of a pair. -/
def Port.cal (q : Port) (w : Pair) : CalPair := match w with | .x => q.calX | .y => q.calY
/-- The calibrator of a pair replaced. -/
def Port.putCal (q : Port) (w : Pair) (c : CalPair) : Port := match w with | .x => { q with calX := c } | .y => { q with calY := c }
/-- MODE of the port's calibrator: 0 OFF, 1 ONCE, 2 CONTINUOUS. -/
def Port.calMode (q : Port) : Nat := fld q.rxcCtl 0 2

/-- A new accumulation, at once or at the next frame boundary; a walk is abandoned. -/
def CalPair.again (c : CalPair) (wait : Bool) : CalPair :=
  { CalPair.reset with gen := c.gen + 1, restart := wait, stepped := c.stepped && wait }

/-- Whether the frame that begins now counts toward a pair's accumulation (R91, R98). -/
def Port.calAccumulates (q : Port) (w : Pair) : Bool := q.calState w == 1 && !(q.cal w).restart && !(q.cal w).stepped && !q.calSkip

/-- A pair at a frame boundary: OFF takes effect, an accumulation that waits for the boundary starts, and HOLD counts its frames (R89, R92, R96). -/
def Port.calBoundary (q : Port) (w : Pair) : Port :=
  let c := q.cal w
  if q.calMode = 0 then (q.setCal w 0).putCal w { CalPair.reset with gen := c.gen + 1 }
  else if c.restart || q.calState w = 0 then (q.setCal w 1).putCal w (c.again false)
  else q.putCal w { c with stepped := false, holdFrames := c.holdFrames - 1 }

/-! ### Launches (R41, R219, R236) -/

/-- T_DUR or the pulse's 16 × N_BIN samples, and the gate's times of R41. -/
def gateTimes (cfg : Settings) (p : Nat) : Time × Time :=
  let d := quarters (cfg.port p 0x100A)
  let t := d + samplesTime cfg (toneSamples cfg p)
  (t, t + quarters (cfg.port p 0x100B))

/-- Whether group `g` of a port launches now: a probing mode and a plan, a pipeline, an armed group, a running frame timer, sampling and probe
lock, power state RUN, and in emission reduction only a restart ping (R26, R40, R61, R98, R198, R200). -/
def State.launches (s : State) (p : PortIx) (g : Nat) : Bool :=
  let q := s.ports[p]
  s.running && q.plan.probing p.val && q.plan.hasPlan p.val && !q.holdGate && !q.reopen && !q.frozen && !q.lockResume &&
    !(s.groupShut (portGroup s.settings p.val)) && bit s.clk.stat 5 && bit s.clk.stat 6 && q.dark ≠ .closed && q.dark ≠ .measured &&
    (!(bit q.stat 7) || (g == 0 && q.redFrames % 64 == 0))

/-- A launch of group `g` (R41): the gate opens g × S samples into the frame, the launch is stamped, or the launch is suppressed. -/
def groupLaunch (p : PortIx) (g : Fin 16) (tap : TapStamp) (s0 : State) : State :=
  let q0 := s0.ports[p]
  match q0.frameStart with
  | none => s0
  | some f =>
    if g.val ≥ planG q0.plan p.val ∨ q0.holdGate then s0
    else
      let at' := f + samplesTime q0.plan (g.val * planS q0.plan p.val)
      let s := s0.until at'
      let q := s.ports[p]
      let go := s.launches p g.val
      let restart := go && bit q.stat 7
      let (stamp, taken, st) := if go then s.launchStamp p.val tap else (s.unitNow, false, s)
      let counts := fun (w : Pair) => if g.val = 0 && q.calAccumulates w then some (q.cal w).gen else none
      let tag : PingTag := {
        group := g.val, old := false, cfg := none, stamp := stamp, at' := s.time.mono, calX := counts .x, calY := counts .y, derived := !taken
        launched := go, restart := restart }
      let (tp, tg) := gateTimes q.plan p.val
      let s1 := st.modPort p fun q => { q with
        pings := q.pings ++ [tag]
        gateOpen := go
        gateUntil := s.time.mono + tg
        probeOn := go
        probeFrom := s.time.mono + quarters (q.plan.port p.val 0x100A)
        probeUntil := s.time.mono + tp
        probe := if go then probeCodes q.plan p.val g.val else []
        lastLaunch := if go then stamp else q.lastLaunch }
      let s3 := if go then s1.emit (.launch p.val g.val restart (groupTones q.plan p.val g.val)) else s1
      s3.modLook fun l => { l with launches := l.launches.set p (((l.launches[p]) ++ [tag]).filter fun x => decide (stamp ≤ x.stamp + 5 * sec)) }

/-- GROUP_LAUNCH (R41). -/
def execGroupLaunch (p : PortIx) (g : Fin 16) (tap : TapStamp) (s : State) : Host.Outcome State Fault Refusal := .next (groupLaunch p g tap s)

/-! ### Frame boundaries (R42, R60 to R62, R98, R105, R128, R161, R198, R371) -/

/-- A pipeline migration of this port whose target is ready begins or goes on with its shadow frame: SHADOW sets on both pipelines. -/
def State.openShadow (s : State) (p : PortIx) : State :=
  match s.ladle.place.pipe? p.val with
  | none => s
  | some n =>
    match s.ladle.migrations.find? fun m => (match m.source with | .pipeline k => k.val == n | _ => false) && !m.shadow with
    | none => s
    | some m =>
      match m.target with
      | .pipeline t =>
        if s.ladle.tests.contains m.target || s.ladle.place.pipes.any (fun x => x.2 == t.val) then s
        else
          let s1 := (s.onPipe n fun x => { x with src := setBit x.src 6 }).onPipe t.val fun x => { x with
            src := setFld (setBit (setBit x.src 6) 5) 0 5 p.val }
          s1.modLadle fun l => { l with migrations := l.migrations.map fun y => if y == m then { y with shadow := true } else y }
      | _ => s

/-- Whether a waiting commit restarts a port, so that no frame begins at an instant: A + 1 ms has passed, T_C has not come (R458). -/
def State.heldForCommit (s : State) (p : PortIx) (t : Time) : Bool :=
  match s.commits with
  | c :: _ => c.fixed && c.restarted.contains p.val && c.touched.contains p.val && decide (c.a1 ≤ t)
  | [] => false

/-- RUN has been left once every port has completed its frame (R543, R544, R547): open curd frames close; in IDLE and below the loops and lanes
go off; for DEEP_STANDBY the boot record closes 3 ms after the reply and the island releases the supplies at 10 ms. -/
def State.settlePower (s : State) : State :=
  if !s.leaving || (List.finRange 24).any (fun p => s.ports[p].frameStart.isSome || !s.ports[p].pings.isEmpty) then s
  else
    let st := fld s.boot.pwrStat 0 2
    let s1 := s.zones.foldl (fun u r => u.closeAll r.id true) s
    let s2 := (s1.modBoot fun b => { b with pwrStat := clrBit b.pwrStat 2 }).driveInhibit
    let s3 := if st = 1 then s2
      else { s2.modClk (fun c => { c with stat := clrBit (clrBit c.stat 5) 6 }) with
        lanes := s2.lanes.map fun l => { l with powered := false, starting := false, recovering := none } }
    if st ≠ 3 then s3
    else
      let closed := fun (j : List BootRec) => match j with | r :: rs => { r with result := 3 } :: rs | [] => []
      let s4 := (s3.until (s3.boot.standbyAt + 3 * ms)).modBoot fun b => { b with journal := closed b.journal }
      (s4.until (s4.boot.standbyAt + 10 * ms)).modAon fun a => { a with pwrEnMain := false, pwrEnRind := false }

/-- A frame of the port ends and the next begins; none begins on a port that a waiting commit restarts, nor while RUN is being left. -/
def frameBoundary (p : PortIx) (s0 : State) : State :=
  let q0 := s0.ports[p]
  match q0.frameStart, q0.frozen with
  | some f, false =>
    let at' := f + frameTime q0.plan p.val
    let s := s0.until at'
    let stop := s.heldForCommit p at' || s.leaving
    let connect := q0.holdGate && (s.ladle.place.pipe? p.val).isSome && decide (q0.connectAt ≤ at')
    let lock := q0.lockResume && bit s.clk.stat 5
    let s1 := s.modPort p fun q =>
      let q1 := if q.resumePending then q.leaveReduction else q
      let q2 := if connect then { q1 with holdGate := false, epochPending := true } else q1
      let q3 := if lock then { q2 with lockResume := false, epochPending := true } else q2
      { q3 with
        frameStart := if stop then none else some at'
        frameNo := q.frameNo + 1
        redFrames := if bit q1.stat 7 then q.redFrames + 1 else 0
        reopen := false
        dark := if q.dark = .armed ∧ !stop then .closed else if q.dark = .closed then .ended else if q.dark = .measured then .none else q.dark
        spans := if lock then closeSpans at' 3 q.spans else q.spans
        calSkip := bit q1.stat 7 || s.groupShut (portGroup s.settings p.val) || (q.dark = .armed && !stop) }
    let s1 := match s.ladle.place.pipe? p.val with
      | some n => if connect then s1.onPipe n fun x => { x with src := setFld (setBit x.src 5) 0 5 p.val } else s1
      | none => s1
    let named := (zonesOf s1.settings p.val).any fun z => match s1.zoneRt z with | some r => r.resetPending | none => false
    let s2 := if s1.ports[p].epochPending then s1.beginEpoch p
      else if s1.ports[p].resetPending || named then s1.atBoundary p { old := s1.settings, inst := s1.time.dev, reset := s1.ports[p].resetPending, ring := false }
      else s1
    let s3 := s2.modPort p fun q => ({ q with epochPending := false, resetPending := false }.calBoundary .x).calBoundary .y
    ((s3.openShadow p).driveInhibit).settlePower
  | _, _ => s0

/-- FRAME_BOUNDARY (R42). -/
def execFrameBoundary (p : PortIx) (s : State) : Host.Outcome State Fault Refusal := .next (frameBoundary p s)

/-! ### Bins of a ping (R112 to R117) -/

/-- Clips a part of a bin value (R113). -/
def clipBin (v : Int) : Int := max (-32767) (min 32767 v)
/-- A tone's bin value after clipping. -/
def ToneBin.clip (b : ToneBin) : ToneBin := { xr := clipBin b.xr, xi := clipBin b.xi, yr := clipBin b.yr, yi := clipBin b.yi }
/-- Whether any tone of a bin clips. -/
def binSat (ts : List ToneBin) : Bool := ts.any fun b => ToneBin.clip b != b
/-- Power of a bin over its tones and both polarisations. -/
def binPower (ts : List ToneBin) : Nat := ts.foldl (fun n b => n + (b.xr * b.xr + b.xi * b.xi + b.yr * b.yr + b.yi * b.yi).toNat) 0

/-- Void samples among samples a to b. -/
def voidCount (vs : List VoidAt) (a b : Nat) : Nat := (window vs a b).countP (·.void)

/-- Void and QUAL of bin `z` (R116, R117); a bin with a discarded sample in its support is void (R22). -/
def binVoid (cfg : Settings) (p : Nat) (vs : List VoidAt) (dead : Bool) (z : Nat) : Bool × Bool :=
  let nb := planNBin cfg p
  let td := cfg.port p 0x1005
  let last := z * nb + 17 * nb - 1 + (if planChirp cfg p then td else 0)
  let core := if planChirp cfg p then decide (td < 8 * voidCount vs (z * nb) (z * nb + td - 1))
    else decide (0 < voidCount vs (z * nb + 8 * nb) (z * nb + 9 * nb - 1))
  let void := core || (window vs (z * nb) last).any (·.dropped)
  (void, !void && (dead || decide (0 < voidCount vs (z * nb) last)))

/-- Hermitian product of a tone's two latest pings, summed over both polarisations (R120). -/
def herm (a b : ToneBin) : Int × Int :=
  (a.xr * b.xr + a.xi * b.xi + a.yr * b.yr + a.yi * b.yi, a.xi * b.xr - a.xr * b.xi + a.yi * b.yr - a.yr * b.yi)

/-- zsum of R120 in units of 2^-48: the tones' unit phasors, each weighted by its amplitude; the resolution of the sum is open (log entry 5, DESIGN
CHOICE). -/
def combineSum (hs : List (Int × Int)) : Int × Int :=
  hs.foldl (fun (acc : Int × Int) h =>
    let r : Int := (fourthRoot ((h.1 * h.1 + h.2 * h.2).toNat) : Nat)
    (acc.1 + divAway (h.1 * 2 ^ 112) r, acc.2 + divAway (h.2 * 2 ^ 112) r)) (0, 0)

/-- d of R120: arg(zsum), and 0 where the phasors cancel. One tone gives its own argument. -/
def combineArg (hs : List (Int × Int)) : Int :=
  match hs with
  | [] => 0
  | [h] => argUnits h.1 h.2
  | _ => argUnits (combineSum hs).1 (combineSum hs).2

/-- w of R120 in units of 2^-16: the sum of sqrt(|h|); the last unit is open (log entry 5, DESIGN CHOICE). -/
def combineWeight (hs : List (Int × Int)) : Nat :=
  hs.foldl (fun n h => n + (divOpen (fourthRoot ((h.1 * h.1 + h.2 * h.2).toNat) : Nat) (2 ^ 48)).toNat) 0

/-- What combining and unwrapping make of a ping (R120 to R123). -/
structure PingPhase where
  d : List Int
  used : List Bool                 -- false: VOID for this ping
  faded : List Bool
  wmean : List (Option Nat)
  du : List Int
  slips : List Nat
deriving DecidableEq, Repr

/-- The unwrap loop of R122 from bin `z`. -/
def unwrapBins (lim : Nat) : Nat → Option Int → List (Int × Bool) → List Int × List Nat
  | _, _, [] => ([], [])
  | z, ref, (d, hold) :: rest =>
    if hold then
      let r := unwrapBins lim (z + 1) ref rest
      (ref.getD 0 :: r.1, r.2)
    else
      let du := match ref with | none => d | some x => x + wrap16 (d - x)
      let slip := match ref with | none => false | some x => decide (lim < (wrap16 (d - x)).natAbs)
      let r := unwrapBins lim (z + 1) (some du) rest
      (du :: r.1, if slip then z :: r.2 else r.2)

/-- Delay bins FIRST_DB and LAST_DB (R138): none while no delay phase is produced. -/
def delayBins (cfg : Settings) (p : Nat) (q : Port) : Option (Nat × Nat) :=
  let f := if cfg.port p 0x1206 = 0 then cfg.port p 0x0208 + 64 else cfg.port p 0x1206
  let auto := cfg.port p 0x1207 = 0
  let l := if auto then fld q.refR 0 20 - 72 else cfg.port p 0x1207
  if bit q.stat 1 || (auto && !(bit q.refR 20)) || l < f + 8 then none else some (f, l)

/-- Combines, checks for fading and unwraps (R120 to R122). Bins that `run` leaves out are held. -/
def pingPhase (cfg : Settings) (p : Nat) (g : GroupSt) (bins : List (List ToneBin)) (void : List Bool) (run : Nat → Bool) : PingPhase :=
  let n := bins.length
  let zs := List.range n
  let hs := zs.map fun z =>
    if void.getD z true || g.prevVoid.getD z true || !(run z) then []
    else ((bins.getD z []).zip (g.prev.getD z [])).filterMap fun ab => let h := herm ab.1 ab.2; if h = (0, 0) then none else some h
  let used := hs.map fun h => !h.isEmpty
  let d := hs.map combineArg
  let w := hs.map combineWeight
  let ref := fun (z : Nat) => g.wmean.getD z none
  let faded := zs.map fun z => used.getD z false && (match ref z with
    | some m => decide (w.getD z 0 * cfg.port p 0x1203 < m)
    | none => false)
  let wmean := zs.map fun z => if used.getD z false then (match ref z with
      | some m => some ((m : Int) + divOpen ((w.getD z 0 : Int) - m) 256).toNat
      | none => some (w.getD z 0)) else ref z
  let u := unwrapBins (cfg.port p 0x1204) 0 none (zs.map fun z => (d.getD z 0, !(used.getD z false) || faded.getD z false))
  { d := d, used := used, faded := faded, wmean := wmean, du := u.1, slips := u.2 }

/-! ### Merging (R124 to R126) -/

/-- Γ_g of each point: phi at z + GAUGE less phi at z. -/
def gaugePhase (phi : List (BitVec 32)) (gauge n : Nat) : List Int :=
  (List.range n).map fun z => (phi.getD (z + gauge) 0 - phi.getD z 0).toInt

/-- err of R125 times G, from Γ_g − Γ_0 and Γ_0(k + 1) − Γ_0(k), in units of 2^-16: the differences of gauge phases wrap as signed 32-bit numbers
(log entry 117, DESIGN CHOICE). -/
def alignErr (g big : Nat) (dg d0 : Int) : Int := (dg * big - g * d0) * 65536

/-- The update of one alignment offset once err is known: re-seeded, or moved by 2^-ALIGN of the difference (R125). -/
def alignStep (align big : Nat) (a16 : Int) (seed : Seed) (err : Int) (ok : Bool) : Int × Seed :=
  if !ok then (a16, seed)
  else match seed with
    | .seeded => (a16 + divOpen (err - a16 * big) (big * 2 ^ align), .seeded)
    | _ => (divOpen err big, .seeded)

/-- A group before its first ping. -/
def GroupSt.empty : GroupSt :=
  { prev := [], prevVoid := [], prevSat := [], hasPrev := false, prevLaunched := false, phi := [], wmean := [], profile := [],
    profCount := 0, gamma := [], gammaOk := [], align := [], seed := [] }

/-- Every group's offsets updated from group 0's new ping (R125): `gam0`, `ok0` are of that ping. -/
def alignGroups (cfg : Settings) (p : Nat) (gs : List GroupSt) (gam0 : List Int) (ok0 : List Bool) : List GroupSt :=
  let big := planG cfg p
  let old := gs.getD 0 GroupSt.empty
  gs.zipIdx.map fun (x, g) =>
    if g = 0 ∨ x.gamma.isEmpty ∨ old.gamma.isEmpty then x
    else
      let r := (List.range gam0.length).map fun z =>
        alignStep (cfg.port p 0x1205) big (x.align.getD z 0) (x.seed.getD z .unseeded)
          (alignErr g big (wrap32 (x.gamma.getD z 0 - old.gamma.getD z 0)) (wrap32 (gam0.getD z 0 - old.gamma.getD z 0)))
          (x.gammaOk.getD z false && old.gammaOk.getD z false && ok0.getD z false)
      { x with align := r.map (·.1), seed := r.map (·.2) }

/-- The group that a list of groups holds at an index, grown as needed. -/
def groupAt (gs : List GroupSt) (g : Nat) : GroupSt :=
  gs.getD g { GroupSt.empty with prevLaunched := true }

/-- The group list with one entry replaced, grown as needed. -/
def groupSet (gs : List GroupSt) (g n : Nat) (x : GroupSt) : List GroupSt := ((List.range (max n (g + 1))).map (groupAt gs)).set g x

/-! ### Evidence, the end and breaks (R63 to R65, R131 to R136) -/

/-- A ping's power and its group's profile, summed over the far window (R133). -/
def farSums (q : Port) (pw prof : List Nat) : Nat × Nat :=
  let e := fld q.refR 0 20
  let w := fun (l : List Nat) => ((l.take (e - 64)).drop (e - 576)).foldl (· + ·) 0
  (w pw, w prof)

/-- BREAK_BIN (R135) from the powers and profiles (units of 2^-4) of the two failing pings. -/
def breakBin (q : Port) (p : Nat) (p1 p2 f1 f2 : List Nat) : Nat :=
  let e := fld q.refR 0 20
  let win := fun (l : List Nat) (z : Nat) => ((l.drop (z - 8)).take 16).foldl (· + ·) 0
  (List.range (e - 64)).foldl (fun b z =>
    if 8 ≤ z ∧ z + 8 ≤ nBins q.plan p ∧ 16 * 2 * (win p1 z + win p2 z) ≥ win f1 z + win f2 z then z else b) 0

/-- Declares a break (R134): BREAK, BREAK_SEEN, BREAK_BIN, emission reduction. -/
def State.declareBreak (s : State) (p : PortIx) (b : Nat) : State :=
  let s1 := s.modPort p fun q => { q with
    stat := setBit (setBit (setBit q.stat 1) 2) 7, brk := setFld q.brk 0 20 b, failRun := 0, failPing := [], failProf := [] }
  (s1.raiseN (96 + p.val)).enterReduction p

/-- The near-field judgement of a group-0 ping (R63 to R65). Until 256 evidencing pings have formed the baseline NF_THR is NF_ABS alone (log entry
118, DESIGN CHOICE); a ping of the plan or epoch before adds nothing to the baseline. -/
def State.judgeEvidence (s : State) (p : PortIx) (tag : PingTag) (pw : List Nat) (vs : List VoidAt) : State :=
  let q := s.ports[p]
  let cfg := q.plan
  let nf := s.settings.port p.val 0x0208
  let nb := planNBin cfg p.val
  let d := max 1 (planD cfg p.val)
  let lo := nf * nb
  let hi := (nf + 64 + 17) * nb - 1 + (if planChirp cfg p.val then cfg.port p.val 0x1005 else 0)
  let near := window vs lo hi
  if bit q.stat 7 || s.groupShut (portGroup s.settings p.val) || !s.running then s
  else if near.any (·.other) then s
  else
    let sum := ((pw.drop nf).take 64).foldl (· + ·) 0
    let evid := near.any (·.ovr) ||
      (decide (64 * d * s.settings.port p.val 0x0209 ≤ sum) && (q.nfCount < 256 || decide (q.nfSum ≤ 4096 * sum)))
    if evid then s.modPort p fun q => { q with
      noEvidence := 0, nfSum := if !tag.old && q.nfCount < 256 then q.nfSum + sum else q.nfSum
      nfCount := if tag.old then q.nfCount else min 256 (q.nfCount + 1) }
    else
      let s1 := s.modPort p fun q => { q with noEvidence := q.noEvidence + 1 }
      if fld s.sdc.ctl 4 12 ≤ s1.ports[p].noEvidence then s1.declareOpen p else s1

/-- The far-window judgement of a ping (R133, R134), and the reference profile's update. While a break is in force no other is declared. -/
def State.judgeBreak (s : State) (p : PortIx) (g : Nat) (pw : List Nat) (void : List Bool) : State :=
  let q := s.ports[p]
  let gs := q.groups
  let x := groupAt gs g
  let e := fld q.refR 0 20
  let active := bit q.refR 20 && decide (1024 ≤ e) && decide (planG q.plan p.val ≤ gs.length) && gs.all fun y => decide (16 ≤ y.profCount)
  let voids := (((void.take (e - 64)).drop (e - 576)).filter id).length
  let (sp, sf) := farSums q pw x.profile
  let fails := active && decide (2 * voids ≤ 512) && decide (256 * sp < sf)
  let passes := active && decide (2 * voids ≤ 512) && !fails
  let prof := if x.profile.isEmpty then pw.map (· * 16)
    else pw.zipIdx.map fun (w, z) => let o := x.profile.getD z 0; ((o : Int) + divOpen ((w : Int) * 16 - o) 16).toNat
  let s1 := if fails then s else s.modPort p fun q => { q with
    groups := groupSet q.groups g (planG q.plan p.val) { groupAt q.groups g with profile := prof, profCount := min 16 ((groupAt q.groups g).profCount + 1) } }
  if bit q.stat 1 then s1
  else if fails then
    if q.failRun ≥ 1 then s1.declareBreak p (breakBin q p.val q.failPing pw q.failProf x.profile)
    else s1.modPort p fun q => { q with failRun := 1, failPing := pw, failProf := x.profile }
  else if passes then s1.modPort p fun q => { q with failRun := 0, failPing := [], failProf := [] }
  else s1

/-- A restart ping's judgement (R62, R136). -/
def State.judgeRestart (s : State) (p : PortIx) (pw : List Nat) : State :=
  let q := s.ports[p]
  let (sp, sf) := farSums q pw (groupAt q.groups 0).profile
  let good := bit q.refR 20 && decide (sf ≤ 64 * sp) && decide (0 < sp)
  let n := if good then q.restartGood + 1 else 0
  s.modPort p fun q => { q with
    restartGood := n, resumePending := q.resumePending || (decide (3 ≤ n) && s.settings.port p.val 0x020A == 1) }

/-! ### Merged samples to the zones -/

/-- The sense instant of point `z` of a ping (R148), gauge 0 for amplitude, to the nearest 2^-16 ns. -/
def senseInstant (cfg : Settings) (p : Nat) (launch : Time) (z gauge : Nat) : Time :=
  let tc4 := if planChirp cfg p then 2 * cfg.port p 0x1005 else 32 * planNBin cfg p
  launch + quarters (cfg.port p 0x100A) + (divEven ((tc4 + (2 * z + gauge + 1) * planNBin cfg p) * sec) (4 * fsHz cfg)).toNat

/-- A merged sample of a port: its launch stamp and that of sample m − 1, strain-rate, strain and amplitude with their flags. -/
structure Merged where
  launch : Time
  prev : Time × Settings          -- of sample m − 1, and its settings; S sample periods earlier where there was none (log entry 92, DEDUCED)
  epoch : BitVec 16
  rate : Option (List Int × List (BitVec 10))
  strain : Option (List Int × List (BitVec 10))
  amp : Option (List Int × List (BitVec 10))

/-- Columns of a zone out of a port's points. -/
def zoneCut {α : Type} (cfg : Settings) (z : Nat) (l : List α) : List α := (l.drop (zoneFirst cfg z)).take (zonePts cfg z)

/-- A merged sample reaches one zone: rows of a NATIVE zone, chain inputs of an EXACT one, band inputs, Vat input blocks (R157 to R160, R416,
R420). -/
def State.toZone (s : State) (cfg : Settings) (z : Nat) (m : Merged) : State :=
  let p := zonePort cfg z
  let f := zoneFirst cfg z
  let tg := senseInstant cfg p m.launch f (planGauge cfg p)
  let tr := (tg + senseInstant m.prev.2 p m.prev.1 f (planGauge m.prev.2 p)) / 2
  let ta := senseInstant cfg p m.launch f 0
  let items : List (Nat × Time × List Int × List (BitVec 10)) :=
    (match m.rate with | some v => if zoneProduct cfg z 0 then [(1, tr, zoneCut cfg z v.1, zoneCut cfg z v.2)] else [] | none => []) ++
    (match m.strain with | some v => if zoneProduct cfg z 1 then [(2, tg, zoneCut cfg z v.1, zoneCut cfg z v.2)] else [] | none => []) ++
    (match m.amp with | some v => if zoneProduct cfg z 2 then [(3, ta, zoneCut cfg z v.1, zoneCut cfg z v.2)] else [] | none => [])
  let native := !(zoneExact cfg z)
  let s1 := items.foldl (fun u it =>
    if native then u.addRow cfg z it.1 0 (frameHead cfg 0 z it.1 m.epoch) { t := it.2.1, vals := it.2.2.1, flags := it.2.2.2 }
    else u.chainInput cfg z it.1 { t := it.2.1, vals := it.2.2.1, flags := it.2.2.2 }) s
  let s2 := if native && !items.isEmpty && s1.forms z then
      let mask := items.foldl (fun n it => n + 2 ^ (it.1 - 1)) 0
      let fl := items.foldl (fun (a : List (BitVec 10)) it => if a.isEmpty then it.2.2.2 else (a.zip it.2.2.2).map fun xy => xy.1 ||| xy.2) []
      s1.formInputs z 1 mask ((items.map fun it => it.2.1).headD 0) m.epoch (items.map fun it => (widthOf it.1, it.2.2.1)) fl
    else s1
  match m.rate with
  | some v =>
    if zoneBands cfg z = 0 then s2
    else s2.modZone z fun r =>
      let n := zoneBands cfg z
      let inst := (List.range (zonePts cfg z)).map fun c => (senseInstant cfg p m.launch (f + c) (planGauge cfg p) +
        senseInstant m.prev.2 p m.prev.1 (f + c) (planGauge m.prev.2 p)) / 2
      let bs := (List.range n).map fun k =>
        let (lo, hi) := bandEdges cfg z k
        let delay := bandDelay lo hi (fsHz cfg) (planS cfg p)
        (r.bands.getD k BandSt.empty).input (bandSections lo hi (fsHz cfg) (planS cfg p)) (inst.map fun (t : Time) => ((t : Int) - delay).toNat)
          (zoneCut cfg z v.1) (zoneCut cfg z v.2)
      { r with bands := bs }
  | none => s2

/-- A row joins a zone's curd-domain ring, which holds LB_DEPTH (R429). -/
def State.historyRow (s : State) (z : Nat) (row : Time × Nat × Byte × List Int) : State :=
  let depth := s.settings.zone z 0x1708 * ms
  if depth = 0 ∨ !s.running then s
  else s.modZone z fun r => { r with
    curdSince := some (r.curdSince.getD row.1)
    curdRows := (r.curdRows ++ [row]).filter fun x => decide (row.1 ≤ x.1 + depth) }

/-! ### The processing of a ping -/

/-- round(sqrt(S / D)), at most 65,535 (R130). -/
def amplitude (s d : Nat) : Nat := min 65535 ((Nat.sqrt (4 * s / max 1 d) + 1) / 2)

/-- Delay phase of a ping (R138): Σ over the last delay bins less Σ over the first, in eighths of an LSB. -/
def delaySum (du : List Int) (f l : Nat) : Int := isum ((du.drop l).take 8) - isum ((du.drop f).take 8)

/-- The delay phase's state over delay bins `f` and `l`: where the bins change it forms Θ_g afresh from the phases, read as signed, and re-seeds the
offsets (log entry 119, DESIGN CHOICE). -/
def DelayPh.over (d : DelayPh) (gs : List GroupSt) (big f l : Nat) : DelayPh :=
  if d.bins = some (f, l) then d
  else
    { theta := (List.range big).map fun g => delaySum ((groupAt gs g).phi.map BitVec.toInt) f l
      ok := List.replicate big false, align := List.replicate big 0, seed := List.replicate big .unseeded, bins := some (f, l) }

/-- The delay phase after a ping of group `g`, and Θ(m) in eighths of an LSB with whether its offset is provisional (R125, R138): Θ is signed with 48 bits. -/
def delayStep (cfg : Settings) (p g : Nat) (launched : Bool) (inc : Int) (bad slip : Bool) (d : DelayPh) : DelayPh × Int × Bool :=
  let big := planG cfg p
  let th := fun (i : Nat) => d.theta.getD i 0
  let now := signed 51 ((th g + inc) % 2 ^ 51).toNat
  let upd := (List.range big).map fun i =>
    let a := d.align.getD i 0
    let sd := d.seed.getD i .unseeded
    if g = 0 ∧ i ≠ 0 then
      let r := alignStep (cfg.port p 0x1205) big a sd (alignErr i big (th i - th 0) (now - th 0) / 8) (d.ok.getD i false && d.ok.getD 0 false && !bad)
      if slip then (r.1, Seed.unseeded) else r
    else if g = i ∧ i ≠ 0 then
      let sd1 := if slip then Seed.unseeded else sd
      if sd1 = .unseeded ∧ launched then ((now - th 0) * 8192, Seed.provisional) else (a, sd1)
    else (a, sd)
  ({ d with
      theta := (List.range big).map fun i => if i = g then now else th i
      ok := (List.range big).map fun i => if i = g then !bad else d.ok.getD i false
      align := upd.map (·.1), seed := upd.map (·.2) },
    now - (if g = 0 then 0 else 8 * divEven ((upd.map (·.1)).getD g 0) 65536), decide (g ≠ 0) && (upd.map (·.2)).getD g .unseeded != .seeded)

/-- The delay instant of a ping (R238). -/
def delayInstant (cfg : Settings) (p : Nat) (launch : Time) (f l : Nat) : Time :=
  let tc4 := if planChirp cfg p then 2 * cfg.port p 0x1005 else 32 * planNBin cfg p
  launch + quarters (cfg.port p 0x100A) + (divEven ((tc4 + (f + l + 8) * planNBin cfg p) * sec) (4 * fsHz cfg)).toNat

/-- Delay tracking's share of a ping: its sample Θ(m), once there is a phase to form it from. -/
def Port.delayPing (q : Port) (cfg : Settings) (p : Nat) (tag : PingTag) (gs : List GroupSt) (bins : Option (Nat × Nat)) (inc : Int)
    (bad degraded : Bool) (slips : Nat) : Port :=
  match bins with
  | none => q
  | some (f, l) =>
    let r := delayStep cfg p tag.group tag.launched inc (bad || decide (0 < slips)) (decide (0 < slips)) (q.dph.over gs (planG cfg p) f l)
    { q with
      dph := r.1
      delay := { q.delay with
        slipCnt := if tag.old then q.delay.slipCnt else q.delay.slipCnt + slips
        samples := q.delay.samples ++ [{
          t := delayInstant cfg p tag.stamp f l, val := r.2.1, bad := bad || decide (0 < slips), degraded := degraded || r.2.2, derived := tag.derived
          slips := slips }] } }

/-- The phases of a kept row of the curd-domain ring (R429, R438): marked bins are held, the others unwrap again. -/
def keptPhase (cfg : Settings) (p : Nat) (g : GroupSt) (d : List Int) : PingPhase :=
  let used := d.map fun x => x != -32768
  let u := unwrapBins (cfg.port p 0x1204) 0 none (d.zip (used.map fun b => !b))
  { d := d, used := used, faded := d.map fun _ => false, wmean := g.wmean, du := u.1, slips := u.2 }

/-- The ping's own processing under the port's plan (R113 to R130) from the bins that the Harp made and the void samples: phases, flags, the merged
sample handed to the zones, history. `kept` is a kept row that a re-analysis takes in place of the bins; `amp` says that it holds amplitudes. -/
def State.pingCore (s : State) (p : PortIx) (tag : PingTag) (raw : List (List ToneBin)) (vs : List VoidAt) (epoch : BitVec 16) (kept : Option (List Int))
    (amp : Bool) : State :=
  let q := s.ports[p]
  let cfg := q.plan
  let pn := p.val
  let g := tag.group
  let big := planG cfg pn
  let n := nBins cfg pn
  let zs := List.range n
  let dead := (List.finRange 4).any fun k => bit (s.lanes[portLane p k]).stat 3
  let bins := zs.map fun z => (raw.getD z []).map ToneBin.clip
  let sat := zs.map fun z => binSat (raw.getD z [])
  let vq := match kept with
    | some k => zs.map fun z => (k.getD z (if amp then 0 else -32768) == (if amp then 0 else -32768), false)
    | none => zs.map fun z => binVoid cfg pn vs dead z
  let void := vq.map (·.1)
  let x := groupAt q.groups g
  let full := cfg.mode pn 0
  let delay := if cfg.mode pn 2 then delayBins cfg pn q else none
  let run := fun (z : Nat) => full || (match delay with
    | some (f, l) => (decide (f ≤ z) && decide (z < f + 8)) || (decide (l ≤ z) && decide (z < l + 8))
    | none => false)
  let phases := full || delay.isSome
  let inc := tag.launched && x.hasPrev && phases
  let ph := match kept with
    | some k => if amp then pingPhase cfg pn x bins void run else keptPhase cfg pn x k
    | none => pingPhase cfg pn x bins void run
  let phi := zs.map fun z => (x.phi.getD z 0) + (if inc then BitVec.ofInt 32 (ph.du.getD z 0) else 0)
  let slips := if inc then ph.slips else []
  let gauge := planGauge cfg pn
  let pts := nPoints cfg pn
  let gam := gaugePhase phi gauge pts
  let noinc := !tag.launched || !x.prevLaunched || !x.hasPrev
  let endOk := bit q.endR 20
  let beyond := fun (z : Nat) => (endOk && decide (fld q.endR 0 20 < z)) || (bit q.stat 1 && (decide (fld q.brk 0 20 < z) || fld q.brk 0 20 == 0))
  let near := fun (z : Nat) => planChirp cfg pn && decide (z * planNBin cfg pn < cfg.port pn 0x1005)
  let usedB := fun (z : Nat) => if inc then ph.used.getD z false else !(void.getD z false)
  let pflag := fun (z : Nat) =>
    let two := fun (f : Nat → Bool) => f z || f (z + gauge)
    let fb := fun (b : Bool) (v : BitVec 10) => if b then v else 0
    fb (two fun i => !(usedB i)) 0x001 ||| fb (two fun i => (vq.getD i (false, false)).2) 0x002 ||| fb (inc && two fun i => ph.faded.getD i false) 0x004 |||
      fb (slips.any fun j => decide (z < j) && decide (j ≤ z + gauge)) 0x008 ||| fb (two near) 0x010 |||
      fb (two fun i => sat.getD i false || x.prevSat.getD i false) 0x020 ||| fb (beyond (z + gauge)) 0x040 ||| fb noinc 0x080
  let flags := (List.range pts).map pflag
  -- alignment (R125)
  let slipAt := fun (z : Nat) => slips.any fun j => decide (z < j) && decide (j ≤ z + gauge)
  let g0 := groupAt q.groups 0
  let xa := x
  let prov := (List.range pts).map fun z =>
    let sd := if slipAt z then Seed.unseeded else xa.seed.getD z .unseeded
    if g = 0 ∨ sd ≠ .unseeded then (xa.align.getD z 0, sd)
    else if tag.launched ∧ !g0.gamma.isEmpty then (wrap32 (gam.getD z 0 - g0.gamma.getD z 0) * 65536, .provisional)
    else (xa.align.getD z 0, .unseeded)
  let align := prov.map (·.1)
  let provQ := prov.map fun a => decide (g ≠ 0) && a.2 != .seeded
  let merged := (List.range pts).map fun z => wrap32 (gam.getD z 0 - (if g = 0 then 0 else divEven (align.getD z 0) 65536))
  let rate := (List.range pts).map fun z => if q.lastGamma.isEmpty then 0 else wrap32 (merged.getD z 0 - q.lastGamma.getD z 0)
  let flags1 := (List.range pts).map fun z =>
    flags.getD z 0 ||| (if provQ.getD z false then 0x002 else 0) ||| (if full && decide (32767 < (rate.getD z 0).natAbs) then 0x020 else 0)
  let ok := flags1.map fun f => !(isInvalid f)
  let gs0 := if g = 0 then alignGroups cfg pn q.groups gam ok else q.groups
  let rflags := flags1.map fun f => f ||| (if q.stepNext then 0x200 else 0)
  let rvals := (List.range pts).map fun z => if isInvalid (rflags.getD z 0) then 0 else rate.getD z 0
  let svals := (List.range pts).map fun z => if isInvalid (flags1.getD z 0) then q.lastValid.getD z 0 else merged.getD z 0
  let pw := bins.map binPower
  let dn := planD cfg pn
  let aflags := zs.map fun z =>
    let fb := fun (b : Bool) (v : BitVec 10) => if b then v else 0
    fb (void.getD z false) 0x001 ||| fb (vq.getD z (false, false)).2 0x002 ||| fb (near z) 0x010 ||| fb (sat.getD z false) 0x020 |||
      fb (beyond z) 0x040 ||| fb noinc 0x080
  let amps := zs.map fun z => if void.getD z false then 0 else match kept with
    | some k => (k.getD z 0).toNat
    | none => amplitude (pw.getD z 0) dn
  let avals := amps.map fun (a : Nat) => (a : Int)
  -- the pipeline's state after the ping
  let reseed := fun (l : List Seed) => (List.range pts).map fun z => if slipAt z then Seed.unseeded else l.getD z .unseeded
  let gs1 := if g = 0 ∧ !slips.isEmpty then gs0.map fun y => { y with seed := reseed y.seed } else gs0
  let xn : GroupSt :=
    if tag.launched then
      { groupAt gs1 g with
        prev := bins, prevVoid := void, prevSat := sat, hasPrev := true, prevLaunched := true, phi := phi
        wmean := if inc then ph.wmean else x.wmean
        gamma := gam, gammaOk := ok
        align := align, seed := prov.map (·.2) }
    else { groupAt gs1 g with prevLaunched := false, gammaOk := [] }
  let s1 := s.modPort p fun q => { q with
    groups := groupSet gs1 g big xn
    lastGamma := if full then merged else q.lastGamma
    lastValid := svals
    lastSense := some (tag.stamp, cfg)
    stepNext := if full then false else q.stepNext
    }
  let inD := fun (z : Nat) => match delay with
    | some (f, l) => (decide (f ≤ z) && decide (z < f + 8)) || (decide (l ≤ z) && decide (z < l + 8))
    | none => false
  let anyD := fun (b : Nat → Bool) => zs.any fun z => inD z && b z
  let slipsD := (slips.filter fun j => match delay with | some (f, l) => decide (f ≤ j) && decide (j ≤ l + 7) | none => false).length
  let s1 := s1.modPort p fun r => r.delayPing cfg pn tag q.groups delay (match delay with | some (f, l) => if inc then delaySum ph.du f l else 0 | none => 0)
    (noinc || anyD (fun z => !(usedB z) || near z || sat.getD z false || x.prevSat.getD z false))
    (anyD fun z => (vq.getD z (false, false)).2 || ph.faded.getD z false || beyond z) slipsD
  let s2 := if tag.launched && sat.any id then s1.portCause p 5 else s1
  let s3 := if slips.isEmpty then s2 else s2.portCause p 6
  let m : Merged := {
    launch := tag.stamp, prev := q.lastSense.getD (tag.stamp - samplesTime cfg (planS cfg pn), cfg), epoch := epoch
    rate := if full then some (rvals, rflags) else none
    strain := if full then some (svals, flags1) else none
    amp := if full || cfg.mode pn 1 then some (avals, aflags) else none }
  let s4 := forEach (zonesOf cfg pn) (fun z u => u.toZone cfg z m) s3
  let ampOnly := !full && cfg.mode pn 1
  let hist := zs.map fun z =>
    if ampOnly then (if void.getD z false then (0 : Int) else max 1 (amps.getD z 0 : Int))
    else if !inc || !(ph.used.getD z false) || ph.faded.getD z false then -32768 else max (-32767) (ph.d.getD z 0)
  let rfl : Byte := BitVec.ofNat 8 (b01 tag.derived + 2 * b01 (!tag.launched) + 4 * b01 ampOnly)
  forEach (zonesOf cfg pn) (fun z u =>
    u.historyRow z (tag.stamp, g, rfl, ((hist.drop (zoneFirst cfg z)).take (zonePts cfg z + gauge)))) s4

/-- The powers of a ping's bins. -/
def pingPowers (cfg : Settings) (p : Nat) (raw : List (List ToneBin)) : List Nat :=
  (List.range (nBins cfg p)).map fun z => binPower ((raw.getD z []).map ToneBin.clip)

/-- The bins of a ping and its void samples (R107 to R117). -/
def pingInput (cfg : Settings) (p : PortIx) (tag : PingTag) (ls : List (List LaneSample)) : List (List ToneBin) × List VoidAt :=
  (harpBins cfg p.val tag.group ls, voidsOf ls (pingSpan cfg p.val))

/-- A ping processed under the port's plan and phase-engine state, and judged for evidence and breaks (R63 to R65, R131 to R136): one that was not
launched is not judged, a restart ping for R62 alone. -/
def State.pingRun (s : State) (p : PortIx) (tag : PingTag) (ls : List (List LaneSample)) (epoch : BitVec 16) : State :=
  let cfg := s.ports[p].plan
  let (raw, vs) := pingInput cfg p tag ls
  let s1 := s.pingCore p tag raw vs epoch none false
  let pw := pingPowers cfg p.val raw
  let dead := (List.finRange 4).any fun k => bit (s.lanes[portLane p k]).stat 3
  let void := (List.range (nBins cfg p.val)).map fun z => (binVoid cfg p.val vs dead z).1
  let keep := fun (u : State) => if tag.group = 0 then
    u.modPort p fun q => { q with group0 := (q.group0 ++ [pw]).drop (q.group0.length + 1 - 16) } else u
  if !tag.launched then s1
  else if tag.restart then (keep s1).judgeRestart p pw
  else
    let s2 := keep (s1.judgeBreak p tag.group pw void)
    if tag.group = 0 then s2.judgeEvidence p tag pw vs else s2

/-- A ping launched in the epoch in force, under the settings that it was launched under; the first one after a change of GAUGE finds the offsets re-seeded
(R125, R128). -/
def State.pingNew (s : State) (p : PortIx) (tag : PingTag) (ls : List (List LaneSample)) : State :=
  match tag.cfg with
  | some c =>
    let now := s.ports[p].plan
    ((s.modPort p fun q => { q with plan := c }).pingRun p tag ls (s.epochOf p.val)).modPort p fun q => { q with plan := now }
  | none =>
    (if s.ports[p].gaugeNext then s.modPort p fun q => { q.newGauge with gaugeNext := false } else s).pingRun p tag ls (s.epochOf p.val)

/-- A ping launched under the plan or epoch before: it is processed and judged under what it was launched under, its samples go where those sent them, and
the phases in force are untouched. -/
def State.pingOld (s : State) (p : PortIx) (o : OldRun) (tag : PingTag) (ls : List (List LaneSample)) : State :=
  let q := s.ports[p]
  let same := samePlan (tag.cfg.getD o.plan) q.plan p.val
  let s1 := s.modPort p fun q => { q with
    plan := tag.cfg.getD o.plan, groups := o.groups, lastGamma := o.lastGamma, lastSense := o.lastSense, lastValid := o.lastValid, dph := o.dph
    refR := o.refR, stepNext := false }
  let s2 := s1.pingRun p tag ls o.epoch
  let r := s2.ports[p]
  s2.modPort p fun x => { x with
    plan := q.plan, groups := q.groups, lastGamma := q.lastGamma, lastSense := q.lastSense, lastValid := q.lastValid, stepNext := q.stepNext
    dph := q.dph, refR := q.refR, group0 := if same then r.group0 else q.group0
    oldRun := some { o with groups := r.groups, lastGamma := r.lastGamma, lastSense := r.lastSense, lastValid := r.lastValid, dph := r.dph } }

/-! ### What else is taken of the samples of a frame -/

/-- A frame's samples, those of group 0's ping, join the accumulation of a pair that its frame counts toward (R90, R91). -/
def Port.accumulate (q : Port) (cfg : Settings) (p : Nat) (w : Pair) (gen : Option Nat) (m0 : Nat) (xi xq : List LaneSample) : Port :=
  let c := q.cal w
  if gen = some c.gen && q.calState w == 1 && !c.restart then
    let guard := 16 * fld q.rxcWin 0 16
    match c.acc.frame (c.frames % 2 == 0) m0 xi xq (calSample cfg p (fld q.rxcCtl 16 4) guard) (calSample cfg p 0 guard) with
    | some a => q.putCal w { c with acc := a, frames := c.frames + 1 }
    | none => q
  else q

/-- The sums of each position of a lane over a frame; those that show a hard failure make their slices suspect (R84). -/
def Lane.takeFrame (l : Lane) (m0 : Nat) (xs : List LaneSample) : Lane :=
  let st := positionSums m0 xs fun _ => true
  let all := st.foldl plusSums SampleSums.zero
  let bad := (List.finRange 8).filter fun i => hardFailing all (st.getD i.val SampleSums.zero)
  { l with
    frame := st
    suspects := l.suspects.filter (fun x => x.2 != .power) ++ bad.map fun i => (l.position[i], SliceCause.power) }

/-- Raw history of a frame (R15, R75, R428): with LOOKBACK set, the sample instants of group 0's ping join the port's raw ring, which holds RAW_DEPTH. -/
def State.keepRaw (s : State) (cfg : Settings) (p : PortIx) (tag : PingTag) (ls : List (List LaneSample)) : State :=
  let depth := s.settings.port p.val 0x0202 * ms
  if !(cfg.mode p.val 3) ∨ depth = 0 then s
  else
    let n := planG cfg p.val * planS cfg p.val
    let t0 := tag.stamp + (sampleTime cfg (sample0 cfg p.val tag.at') - tag.at')
    let chunk : RawChunk := { t := t0, words := (List.range n).map fun i => rawWord (ls.map fun l => l.getD i LaneSample.blank) }
    s.modLook fun k => { k with
      raw := k.raw.set p (((k.raw[p]) ++ [chunk]).filter fun x => decide (t0 ≤ x.t + samplesTime cfg x.words.length + depth)) }

/-- What the HD9624 takes of a frame's samples besides the ping: the calibrators, the slices' sums, raw history. -/
def State.takeFrame (s : State) (p : PortIx) (tag : PingTag) (cfg : Settings) (ls : List (List LaneSample)) : State :=
  let m0 := sample0 cfg p.val tag.at'
  let n := planG cfg p.val * planS cfg p.val
  let fr := ls.map fun l => l.take n
  let x := fun (k : Nat) => fr.getD k []
  let s1 := s.modPort p fun q =>
    (q.accumulate cfg p.val .x tag.calX m0 (x 0) (x 1)).accumulate cfg p.val .y tag.calY m0 (x 2) (x 3)
  let s2 := (List.finRange 4).foldl (fun u k => u.modLane (portLane p k) fun l => l.takeFrame m0 (x k.val)) s1
  s2.keepRaw cfg p tag ls

/-- The Harp hands over a ping of group `g`: the oldest one not yet processed. -/
def pingProcessed (p : PortIx) (g : Fin 16) (dat : PingData) (s : State) : State :=
  let q := s.ports[p]
  match q.pings.find? fun t => t.group == g.val with
  | none => s
  | some tag =>
    let cfg := if tag.old then tag.cfg.getD (match q.oldRun with | some o => o.plan | none => q.plan) else tag.cfg.getD q.plan
    let ls := s.pingSamples cfg p tag.at' dat
    let s0 := s.modPort p fun q => { q with pings := q.pings.erase tag }
    let s1 := if tag.group = 0 then s0.takeFrame p tag cfg ls else s0
    let s2 := if tag.old then
        match q.oldRun with
        | some o => s1.pingOld p o tag ls
        | none => s1
      else s1.pingNew p tag ls
    (s2.pingsDone p).settlePower

/-- PING_PROCESSED (R133). -/
def execPingProcessed (p : PortIx) (g : Fin 16) (d : PingData) (s : State) : Host.Outcome State Fault Refusal := .next (pingProcessed p g d s)

/-! ### END_BIN (R131, R132) -/

/-- N_F of a port: measured under the current plan, or computed from P_DARK (R131). -/
def State.floorOf (s : State) (p : PortIx) (g : Nat) : Nat :=
  let q := s.ports[p]
  if q.floor.isEmpty then
    noiseFloor q.plan p.val g ((List.finRange 4).map fun k => (s.lanes[portLane p k]).pDark)
  else q.floor.getD g 0

/-- Every 16 frames END_BIN is determined from group 0's last 16 pings, restart pings among them. -/
def endDetermination (p : PortIx) (s : State) : State :=
  let q := s.ports[p]
  let n := nBins q.plan p.val
  if q.group0.length < 16 ∨ q.frameNo < q.endFrame + 16 then s
  else
    let s := s.modPort p fun q => { q with endFrame := q.frameNo }
    let sum := (List.range n).map fun z => q.group0.foldl (fun a l => a + l.getD z 0) 0
    let lim := 4 * s.floorOf p 0 * 16 * 16
    let ok := fun (z : Nat) => decide (8 ≤ z) && decide (z + 8 ≤ n) && decide (lim ≤ ((sum.drop (z - 8)).take 16).foldl (· + ·) 0)
    match ((List.range (n + 1)).filter ok).getLast? with
    | none =>
      (s.modPort p fun q => { q with endR := clrBit q.endR 20, endDiff := 0 }).portCause p 4
    | some z =>
      let s1 := s.modPort p fun q => { q with
        endR := setBit (setFld q.endR 0 20 z) 20, stat := clrBit q.stat 4
        refR := if bit q.refR 20 then q.refR else setBit (setFld q.refR 0 20 z) 20 }
      let e := fld s1.ports[p].refR 0 20
      let far := decide (e + 8 < z) || decide (z + 8 < e)
      let k := if far && !(bit q.stat 1) then q.endDiff + 1 else 0
      let s2 := s1.modPort p fun q => { q with endDiff := k }
      if k ≥ 2 then s2.portCause p 3 else s2

/-- END_DETERMINATION (R131). -/
def execEndDetermination (p : PortIx) (s : State) : Host.Outcome State Fault Refusal := .next (endDetermination p s)

/-! ### EXACT outputs (R149, R154, R161 to R164) -/

/-- The output of an instant: one row of each product, and the Vat input blocks. It is formed once its inputs have come, and the frames close where
OUT_GAIN changed since the last one (R156, R385). -/
def exactOutput (z : ZoneIx) (t : Time) (s0 : State) : State :=
  let s := s0.untilDev t
  let zn := z.val
  match s.zoneRt zn with
  | none => s0
  | some r =>
    let cs := r.chains.filter fun c => zoneExact c.cfg zn
    let of := fun (pr : Nat) => cs.filter fun c => c.product == pr
    let prods := [1, 2, 3].filter fun pr => cs.any fun c => c.product == pr
    match chainAt (of (prods.headD 0)) zn 0 t with
    | none => s0
    | some c0 =>
      let fout := c0.cfg.zone zn 0x1302
      let i := gridNo t fout
      let cols := zonePts c0.cfg zn
      let ready := prods.all fun pr => (List.range cols).all fun col => match chainAt (of pr) zn col t with
        | some c => c.ready zn col i fout
        | none => true
      if !(onGrid t fout) || (match r.lastOut with | some l => decide (t ≤ l) | none => false) || !(s.forms zn) || !ready then s0
      else
        let now := s.settings.zone zn 0x1304
        let gain := r.gainAt now t
        let s := match r.lastOut with | some l => if r.gainAt now l = gain then s else s.closeAll zn true | none => s
        let rows := prods.map fun pr =>
          let c := (chainAt (of pr) zn 0 t).getD c0
          let pts := (List.range cols).map fun col => exactPoint gain (r.lastStrain.getD col 0) (of pr) zn pr col fout t
          (pr, c, pts.map (·.1), pts.map (·.2))
        let s1 := rows.foldl (fun u x => u.addRow x.2.1.cfg zn x.1 0 (frameHead x.2.1.cfg gain zn x.1 x.2.1.epoch) { t := t, vals := x.2.2.1, flags := x.2.2.2 }) s
        let mask := rows.foldl (fun n x => n + 2 ^ (x.1 - 1)) 0
        let fl := rows.foldl (fun (a : List (BitVec 10)) (x : Nat × Chain × List Int × List (BitVec 10)) => if a.isEmpty then x.2.2.2 else (a.zip x.2.2.2).map fun xy => xy.1 ||| xy.2) []
        let ep : BitVec 16 := match rows with | x :: _ => x.2.1.epoch | [] => 0
        let s2 := s1.formInputs zn 1 mask t ep (rows.map fun (x : Nat × Chain × List Int × List (BitVec 10)) => (widthOf x.1, x.2.2.1)) fl
        s2.modZone zn fun r => { r with
          lastOut := some t
          gains := r.gains.filter fun g => decide (t < g.1)
          lastStrain := match rows.find? fun x => x.1 == 2 with | some x => x.2.2.1 | none => r.lastStrain
          chains := (r.chains.filter fun c => !c.closed || decide ((8 * fsHz c.cfg * t : Int) < c.colInstant zn cols 1 (c.base + c.ins.length - 1))).map
            fun c => if zoneExact c.cfg zn then c.shed zn cols i fout else c }

/-- EXACT_OUTPUT (R154). -/
def execExactOutput (z : ZoneIx) (t : Time) (s : State) : Host.Outcome State Fault Refusal := .next (exactOutput z t s)

/-! ### Band features (R159, R160) -/

/-- A feature interval of a zone ends: one feature of each band for each point, and a KIND 2 input block. -/
def featureIntervalEnd (z : ZoneIx) (s0 : State) : State :=
  let zn := z.val
  let ss := s0.settings
  let n := zoneBands ss zn
  let f := ss.zone zn 0x1306
  match s0.zoneRt zn with
  | none => s0
  | some r0 =>
    if n = 0 ∨ f = 0 ∨ r0.bands.isEmpty then s0
    else
      let per := sec / f
      let i1 := (match r0.featEnd with | some e => ceilDiv e per | none => s0.time.dev / per) + 1
      let t1 := i1 * per
      let s := s0.untilDev t1
      let t0 := t1 - per
      let mid := t0 + per / 2
      let ep := s.epochOf (zonePort ss zn)
      let rows := (List.range n).map fun k =>
        let (lo, hi) := bandEdges ss zn k
        let pts := (List.range (zonePts ss zn)).map fun c => (r0.bands.getD k BandSt.empty).feature c t0 t1 (warmAt r0.resets lo hi t0 t1)
        (k, pts.map (·.1), pts.map (·.2))
      let s1 := rows.foldl (fun u x => u.addRow ss zn 4 x.1 (frameHead ss 0 zn 4 ep) { t := mid, vals := x.2.1, flags := x.2.2 }) s
      let fl := rows.foldl (fun (a : List (BitVec 10)) x => if a.isEmpty then x.2.2 else (a.zip x.2.2).map fun xy => xy.1 ||| xy.2) []
      let s2 := if s1.forms zn then s1.formInputs zn 2 (2 ^ n - 1) mid ep (rows.map fun (x : Nat × List Int × List (BitVec 10)) => (4, x.2.1)) fl else s1
      s2.modZone zn fun r => { r with
        featEnd := some t1
        resets := r.resets.filter fun x => decide (t1 < x + 5 * sec)
        bands := r.bands.map fun b => { b with out := b.out.filter fun o => o.inst.any fun x => decide (t1 ≤ x) } }

/-- FEATURE_INTERVAL_END (R159). -/
def execFeatureIntervalEnd (z : ZoneIx) (s : State) : Host.Outcome State Fault Refusal := .next (featureIntervalEnd z s)

/-! ### Delay records (R238 to R242) -/

/-- SCALE of R139 in units of 2^-40 fs per LSB: λ_t × 1,000 / (131,072 × c), λ_t in pm; its last unit is open (log entry 5, DESIGN CHOICE). -/
def delayScale (ss : Settings) (p : Nat) : Nat := (divOpen ((probeLambda ss p : Int) * 1000 * 2 ^ 40) (131072 * 299792458)).toNat

/-- D_REL in units of 2^-16 fs: the mean of `n` samples that sum to `sum` eighths of an LSB, times SCALE and K_PG (R238). -/
def delayRel (ss : Settings) (p : Nat) (sum : Int) (n : Nat) : Int :=
  if n = 0 then 0
  else divOpen (sum * (probeLambda ss p * 1000 * ss.port p 0x1509 : Nat)) (8 * n * 131072 * 299792458)

/-- D_REL at an instant: interpolated linearly between the two records that bracket it, latest first (R240); before the first record of the epoch that
record's own (log entry 120, DESIGN CHOICE). -/
def relAt (t : Time) : List (Time × Int) → Int
  | [] => 0
  | (t1, r1) :: rest => match rest with
    | [] => r1
    | (t0, r0) :: _ => if t0 ≤ t then r0 + divOpen ((r1 - r0) * ((t : Int) - t0)) (t1 - t0) else relAt t rest

/-- A record interval of a port ends: its delay record goes to every zone of the port that carries delay records. The samples are those whose delay
instants fall in the interval (R238). -/
def delayRecordIntervalEnd (p : PortIx) (s0 : State) : State :=
  let ss := s0.settings
  let f := ss.port p.val 0x1508
  if !(ss.mode p.val 2) ∨ f = 0 then s0
  else
    let per := sec / f
    let i1 := (match s0.ports[p].delay.lastEnd with | some e => ceilDiv e per | none => s0.time.dev / per) + 1
    let s := s0.untilDev (i1 * per)
    let t0 := (i1 - 1) * per
    let mid := t0 + per / 2
    let d := s.ports[p].delay
    let mine := d.samples.filter fun x => decide (t0 ≤ x.t) && decide (x.t < i1 * per)
    let good := mine.filter fun x => !x.bad
    let n := good.length
    let sum := isum (good.map (·.val))
    let slip := mine.any fun x => decide (0 < x.slips)
    let scale := delayScale ss p.val
    let kpg := ss.port p.val 0x1509
    let theta := if n = 0 then 0 else divOpen (sum * 32) n
    let rel := delayRel ss p.val sum n
    let relValid := decide (0 < n) && decide (mine.length ≤ 2 * n) && !slip
    let recs := (mid, rel) :: d.recs.filter fun x => decide (mid ≤ x.1 + 102 * sec)
    let (d1, taken) := match d.pendingAnchor with
      | some (a, ta) =>
        if ta ≤ mid then
          let dta := relAt ta recs
          let res := match d.anchor, d.inEpoch with
            | some (a0, _, d0), true => a - (a0 + dta - d0)
            | _, _ => 0
          ({ d with anchor := some (a, ta, dta), pendingAnchor := none, anchorSeq := d.anchorSeq + 1, anchorRes := res, inEpoch := true }, true)
        else (d, false)
      | none => (d, false)
    let abs := match d1.anchor, d1.inEpoch with
      | some (a, _, dta), true => a + rel - dta
      | _, _ => 0
    let ext := fld s.tiu.stat 0 2 == 1 && !(d.flags.getLsbD 7)
    let nodata := mine.isEmpty
    let flags : Nat := b01 relValid + 2 * b01 (relValid && d1.inEpoch) + 4 * b01 taken + (d.flags.toNat &&& 0x288) + 16 * b01 slip +
      32 * b01 (good.any (·.degraded)) + 64 * b01 ext + 256 * b01 (good.any (·.derived)) + 1024 * b01 nodata
    let r : DelayRec := {
      port := p.val, flags := BitVec.ofNat 16 flags, nValid := n, tRec := mid, theta := theta, dRel := if nodata then 0 else rel
      dAbs := if nodata then 0 else abs, scale := scale, kPg := kpg, anchorSeq := d1.anchorSeq, anchorRes := d1.anchorRes, slipCnt := d1.slipCnt
      epoch := s.epochOf p.val }
    let s1 := s.modPort p fun q => { q with delay := { d1 with
      samples := d.samples.filter fun x => decide (i1 * per ≤ x.t), lastEnd := some (i1 * per), flags := 0, recs := recs } }
    forEach ((zonesOf ss p.val).filter fun z => zoneProduct ss z 5) (fun z u => u.push (zoneStream z) (some z) (.delay r) 0 false) s1

/-- DELAY_RECORD_INTERVAL_END (R238). -/
def execDelayRecordIntervalEnd (p : PortIx) (s : State) : Host.Outcome State Fault Refusal := .next (delayRecordIntervalEnd p s)

/-! ### The input buffer and pace (R17 to R22) -/

/-- A pipeline's input buffer is full: the drop interval begins, OVERRUN sets (R21, R22). -/
def inputBufferFull (n : PipeIx) (s : State) : State :=
  let x := s.pipes[n]
  if !(bit x.src 5) || x.dropping then s
  else
    let p := fld x.src 0 5
    let s1 := (s.modPipe n fun x => { x with dropping := true }).onPort p fun q => { q with
      droppedFrom := some s.time.dev, drops := openSpan s.time.mono { tag := 3, pos := none, since := s.time.mono, till := none } q.drops }
    match ix 24 p with
    | some i => ((s1.modPort i fun q => { q with stat := setBit q.stat 0 })).raiseN (96 + p)
    | none => s1

/-- INPUT_BUFFER_FULL (R21). -/
def execInputBufferFull (n : PipeIx) (s : State) : Host.Outcome State Fault Refusal := .next (inputBufferFull n s)

/-- The buffer has drained to 8,192 samples: the drop interval ends after `dropped` samples, with a whey record on every zone stream of the
port (R22, R424). -/
def inputResume (n : PipeIx) (dropped : Nat) (s : State) : State :=
  let x := s.pipes[n]
  if !x.dropping then s
  else
    let p := fld x.src 0 5
    let q := s.portN p
    let t0 := q.droppedFrom.getD s.time.dev
    let s1 := (s.modPipe n fun x => { x with dropping := false }).onPort p fun q => { q with
      droppedFrom := none
      drops := q.drops.map fun x => if x.till.isNone then { x with till := some (x.since + samplesTime s.settings dropped) } else x }
    let w := { Whey.blank 1 0xFFFF p with
      tFirst := t0, tLast := t0 + samplesTime s.settings (dropped - 1), count := dropped, nPoints := nPoints q.plan p, lostBytes := 6 * dropped }
    forEach (zonesOf s.settings p) (fun z u => u.whey (zoneStream z) (some z) w) s1

/-- INPUT_RESUME (R21). -/
def execInputResume (n : PipeIx) (dropped : Nat) (s : State) : Host.Outcome State Fault Refusal := .next (inputResume n dropped s)

/-- model of R365, the expected COUNT of a site, with 64 fraction bits. -/
def paceModel (n : Nat) (hk : List Word) : Int :=
  let k := Config.paceK (if n < 26 then 0 else if n < 58 then 1 else if n < 84 then 2 else 3)
  let b := Config.paceAt n
  fixMul (Config.paceBase n) (fixExp (k.1 * (Config.vddFab hk - b.1) + k.2 * (Config.junction hk - b.2)))

/-- The drift of a window in units of 2^-12 (R365). -/
def paceDrift (n : Nat) (hk : List Word) (count : Nat) : Int :=
  let m := paceModel n hk
  divOpen ((m - (count * 2 ^ 64 : Nat)) * 4096) (max 1 m.toNat)

/-- Whether VDD_FAB and the junction temperature lie within the recommended operating conditions: 0.760 V to 0.840 V, −40 °C to 105 °C. -/
def paceTaken (hk : List Word) : Bool :=
  within 760000 (Config.vddFab hk) 840000 && within (-40000) (Config.junction hk) 105000

/-- A pace window ends (R17, R20): COUNT, MARGIN, VALID, LOW; sites 94 and 95 read zero. A window that a CK_REF ramp overlaps is not
reported (R194); a ramp still in progress overlaps the next one too. -/
def paceWindowEnd (n : Fin 96) (count margin : Nat) (s : State) : State :=
  if n.val ≥ 94 then s
  else if s.clk.paceRamp[n] then s.modClk fun c => { c with paceRamp := c.paceRamp.set n (bit c.stat 4) }
  else
    let low := decide (margin < 64)
    let was := bit s.clk.pace[n] 24
    let w := setBit (setFld (setFld s.clk.pace[n] 0 16 (min count 65535)) 16 8 (min margin 255)) 25
    let s1 := s.modClk fun c => { c with pace := c.pace.set n (if low then setBit w 24 else w) }
    let hk := s.axc1.res.toList
    let s2 := match ix 94 n.val with
      | some i => if paceTaken hk then s1.modLadle fun l => { l with drift := l.drift.set i ((l.drift[i]) ++ [paceDrift n.val hk count]) } else s1
      | none => s1
    if low && !was then (s2.faultLog 1 249 n.val (BitVec.ofNat 32 margin)).raise 249 else s2

/-- A write of PACE_STATn (R17): LOW clears. -/
def writePace (n : Fin 96) (v : Word) (s : State) : State :=
  s.modClk fun c => { c with pace := c.pace.set n (wrW1C 0x01000000 c.pace[n] v) }

/-- PACE_WINDOW_END (R17). -/
def execPaceWindowEnd (n : Fin 96) (count margin : Nat) (s : State) : Host.Outcome State Fault Refusal := .next (paceWindowEnd n count margin s)

end Sys2Proof.Machine
end

