-- ==== Sys2Proof/Machine/Lanes.lean ====
section
/-! DEFINITION. Receive lanes: overrange and recovery, slices, trims, and the blind calibrator (R72 to R103). -/

namespace Sys2Proof.Machine

/-! ### Cause bits (R80, R81) -/

/-- A cause bit of RXL_STATn sets; the lane's event is raised when it goes from 0 to 1 and its enable in RXL_CTLn is 1. -/
def State.laneCause (s : State) (n : LaneIx) (i en : Nat) : State :=
  let was := bit s.lanes[n].stat i
  let s1 := s.modLane n fun l => { l with stat := setBit l.stat i }
  if !was && bit s.lanes[n].ctl en then s1.raiseN n.val else s1

/-! ### Start-up and overrange (R72, R76) -/

/-- A lane powers up or down (R72): powered up, its samples are tagged unavailable for 50 µs from now. -/
def Lane.power (l : Lane) (on : Bool) (now : Time) : Lane :=
  if on then { l with
    powered := true, starting := true, startUntil := now + 50 * us
    spans := openSpan now { tag := 3, pos := none, since := now, till := some (now + 50 * us) } l.spans }
  else { l with powered := false, starting := false, recovering := none }

/-- 50 µs after power-up the lanes' samples are no longer tagged unavailable. -/
def laneStartupEnd (p : PortIx) (s0 : State) : State :=
  if (List.finRange 4).all fun k => !(s0.lanes[portLane p k]).starting then s0
  else
    let s := s0.until ((List.finRange 4).foldl (fun t k => max t (s0.lanes[portLane p k]).startUntil) 0)
    (List.finRange 4).foldl (fun u k => u.modLane (portLane p k) fun l => { l with starting := false }) s

/-- LANE_STARTUP_END (R72). -/
def execLaneStartupEnd (p : PortIx) (s : State) : Host.Outcome State Fault Refusal := .next (laneStartupEnd p s)

/-- A span that lasts no longer than to an instant. -/
def TagSpan.endBy (x : TagSpan) (t : Time) : TagSpan := { x with till := some (match x.till with | some e => min e t | none => t) }

/-- Samples of the recovery count that follows a run (R76, R79). -/
def Lane.recovery (l : Lane) (deep : Bool) : Nat := if deep then 4 * fld l.ctl 8 8 else fld l.ctl 0 8

/-- An overrange run of `len` samples that begins `after` samples from now at a powered lane: OVR, OVR_CNT, DEEP; its samples and those of the recovery
count, which starts anew at its end and replaces one in progress (log entry 121, DESIGN CHOICE), carry tag 0b01 (R76). -/
def laneOverrange (n : LaneIx) (deep : Bool) (after len : Nat) (s0 : State) : State :=
  if !s0.lanes[n].powered ∨ len = 0 then s0
  else
    let s := s0.elapse (samplesTime s0.settings after)
    let now := s.time.mono
    let rec' := now + samplesTime s.settings (len + s.lanes[n].recovery deep)
    let s1 := s.modLane n fun l => { l with
      recovering := some deep, recUntil := rec', stat := bumpFld l.stat 16 16
      spans := openSpan now { tag := 1, pos := none, since := now, till := some rec' } (l.spans.map fun x => if x.tag == 1 then x.endBy now else x) }
    let s2 := s1.laneCause n 0 16
    if deep then s2.laneCause n 1 17 else s2

/-- LANE_OVERRANGE (R76). -/
def execLaneOverrange (n : LaneIx) (deep : Bool) (after len : Nat) (s : State) : Host.Outcome State Fault Refusal :=
  .next (laneOverrange n deep after len s)

/-- The recovery count ends. -/
def recoveryCountEnd (n : LaneIx) (s : State) : State :=
  if s.lanes[n].recovering.isNone then s else (s.until s.lanes[n].recUntil).modLane n fun l => { l with recovering := none }

/-- RECOVERY_COUNT_END (R76). -/
def execRecoveryCountEnd (n : LaneIx) (s : State) : Host.Outcome State Fault Refusal := .next (recoveryCountEnd n s)

/-! ### The calibrator's restarts (R89, R92) -/

/-- The pair of a lane within its port. -/
def lanePair (n : LaneIx) : Pair := if n.val % 4 < 2 then .x else .y
/-- The I lane of a pair. -/
def pairI (p : PortIx) (w : Pair) : LaneIx := match w with | .x => portLane p 0 | .y => portLane p 2
/-- The Q lane of a pair. -/
def pairQ (p : PortIx) (w : Pair) : LaneIx := match w with | .x => portLane p 1 | .y => portLane p 3

/-- REASON of a pair replaced (R102). -/
def Port.setReason (q : Port) (w : Pair) (v : Nat) : Port :=
  { q with rxcStat := match w with | .x => setFld q.rxcStat 4 4 v | .y => setFld q.rxcStat 12 4 v }

/-- The accumulation of a pair is discarded, and restarts at the next frame boundary; a walk is abandoned (R89, R92). RESTARTED records that an
accumulation was discarded. Nothing happens while the calibrator is off. -/
def Port.calDiscard (q : Port) (w : Pair) : Port :=
  if q.calMode = 0 then q
  else (if q.calState w = 1 then q.setReason w 8 else q).putCal w ((q.cal w).again true)

/-! ### Slices (R84 to R86) -/

/-- The position of a slice. -/
def Lane.posOf (l : Lane) (sl : Fin 9) : Option (Fin 8) := (List.finRange 8).find? fun i => l.position[i] == sl

/-- At the end of frame F an active slice is found failing for a condition of R84 that it meets: the spare is loaded with its B07 corrections for the
position and shadows it (R85); with none left a hard failure sets SLICE_DEAD (R86), and any other leaves the corrections at their limit. A hard failing
slice's samples carry 0b10 from the frame after F. -/
def sliceFailureDetected (n : LaneIx) (sl : Fin 9) (why : SliceCause) (s : State) : State :=
  let l := s.lanes[n]
  let q := s.ports[lanePort n]
  let from' := q.frameStart.getD s.time.mono
  let hard := why == .power
  let meets := l.suspects.contains (sl, why) || (why == .bitWeight && l.tested)
  match l.posOf sl with
  | none => s
  | some pos =>
    if l.failing.isSome || !meets then s
    else
      let l1 := { l with suspects := l.suspects.filter (fun x => x.1 != sl), tested := l.tested && why != .bitWeight }
      match l.spare with
      | some sp => s.modLane n fun _ => { l1 with
          failing := some { slice := sl, hard := hard, shadow := true, after := q.frameNo }
          slices := l.slices.set sp (l.spareAt.getD pos.val SliceCorr.reset)
          spans := if hard then openSpan s.time.mono { tag := 2, pos := some pos, since := from', till := none } l.spans else l.spans }
      | none =>
        if hard && !(l.dead.any fun d => d.1 == pos) then (s.modLane n fun _ => { l1 with dead := l.dead ++ [(pos, from')] }).laneCause n 3 18
        else s.modLane n fun _ => l1

/-- SLICE_FAILURE_DETECTED (R84). -/
def execSliceFailureDetected (n : LaneIx) (sl : Fin 9) (why : SliceCause) (s : State) : Host.Outcome State Fault Refusal :=
  .next (sliceFailureDetected n sl why s)

/-- The shadow check of R85: the spare's mean and power over frame F + 1 against the lane's, within 1 LSB and 1 %. -/
def shadowOk (lane spare : SampleSums) : Bool :=
  decide (0 < spare.n) && decide (0 < lane.n) && decide ((spare.sum * lane.n - lane.sum * spare.n).natAbs ≤ spare.n * lane.n) &&
    decide (100 * ((spare.sq * lane.n : Int) - lane.sq * spare.n).natAbs ≤ lane.sq * spare.n)

/-- At the start of frame F + 2, the shadow check passed, the spare takes the failing slice's position, and the pair's accumulation restarts (R85, R92).
Where the check does not pass the failing slice stays in its position and the shadow goes on (log entry 122, DESIGN CHOICE). -/
def sliceSwap (n : LaneIx) (spare : SampleSums) (s : State) : State :=
  let l := s.lanes[n]
  match l.failing, l.spare with
  | some f, some sp =>
    match l.posOf f.slice with
    | none => s
    | some pos =>
      if s.ports[lanePort n].frameNo ≤ f.after || !(shadowOk (l.frame.foldl plusSums SampleSums.zero) spare) then s
      else
        let s1 := s.modLane n fun l => { l with
          position := l.position.set pos sp, spare := none, failing := none, stat := setFld l.stat 8 4 f.slice.val
          spans := closeSpans s.time.mono 2 l.spans }
        (s1.laneCause n 2 18).modPort (lanePort n) fun q => q.calDiscard (lanePair n)
  | _, _ => s

/-- SLICE_SWAP (R85). -/
def execSliceSwap (n : LaneIx) (spare : SampleSums) (s : State) : Host.Outcome State Fault Refusal := .next (sliceSwap n spare s)

/-- What B07 leaves of a lane (R82): its slices' corrections, P_DARK and skew trim; the spare takes the position of the first active slice that fails its
bit-weight test, and a lane without eight good slices has dead positions (R530). -/
def Lane.calibrated (l : Lane) (c : LaneCal) : Lane :=
  let corr := fun (x : Int × Int × Int) => ({ offset := x.1, gain := x.2.1, timing := x.2.2 } : SliceCorr)
  let sl := Vector.ofFn fun i : Fin 9 => (c.slices[i.val]?).elim SliceCorr.reset corr
  let at' := c.spareAt.map corr
  let l1 := { l with slices := sl, spareAt := at', pDark := c.pDark, qsk := setFld l.qsk 0 8 (c.skew % 256).toNat }
  let l2 := if c.bad.contains 8 then { l1 with spare := none } else l1
  match (List.finRange 8).filter fun i => c.bad.contains l.position[i] with
  | [] => l2
  | i :: rest => match l2.spare with
    | some sp => { l2 with
        position := l.position.set i sp, spare := none, slices := sl.set sp (at'.getD i.val SliceCorr.reset)
        stat := setFld l.stat 8 4 (l.position[i]).val, dead := rest.map fun j => (j, 0) }
    | none => { l2 with dead := (i :: rest).map fun j => (j, 0) }

/-! ### The estimator's tests (R93, R94) -/

/-- A sum over n as a rational. -/
def ratio (a : Int) (n : Nat) : Rat := (a : Rat) / (n : Rat)

/-- mi of an estimate. -/
def EstSums.mi (e : EstSums) : Rat := ratio e.si e.n
/-- mq of an estimate. -/
def EstSums.mq (e : EstSums) : Rat := ratio e.sq e.n
/-- vi of an estimate. -/
def EstSums.vi (e : EstSums) : Rat := ratio e.pi e.n - EstSums.mi e * EstSums.mi e
/-- vq of an estimate. -/
def EstSums.vq (e : EstSums) : Rat := ratio e.pq e.n - EstSums.mq e * EstSums.mq e
/-- The covariance that rho normalises. -/
def EstSums.cov (e : EstSums) : Rat := ratio e.c e.n - EstSums.mi e * EstSums.mq e
/-- k of an estimate. -/
def EstSums.k (e : EstSums) : Rat := e.ks / (e.kb : Rat)

/-- Whether |√x − √y| exceeds √c, exactly. -/
def rootsApart (x y c : Rat) : Bool := decide (c < x + y) && decide (4 * x * y < (x + y - c) * (x + y - c))

/-- Whether |a/√A − b/√B| exceeds √k, exactly. -/
def rhosApart (a A b B k : Rat) : Bool :=
  let l := a * a / A + b * b / B - k
  let r := 4 * a * a * b * b / (A * B)
  if 0 < a * b then decide (0 < l) && decide (r < l * l) else decide (0 < l) || decide (l * l < r)

/-- A square root to 2^-64, downwards. -/
def root64 (x : Rat) : Rat := ((isqrt ((x * (2 : Rat) ^ (128 : Nat)).floor.toNat) : Nat) : Rat) / (2 : Rat) ^ (64 : Nat)

/-- A rational rounded half away from zero. -/
def roundAway (x : Rat) : Int := divAway x.num x.den

/-- g of an estimate. -/
def EstSums.g (e : EstSums) : Rat := root64 (EstSums.vi e / EstSums.vq e)
/-- rho of an estimate. -/
def EstSums.rho (e : EstSums) : Rat :=
  let c := EstSums.cov e
  let m := root64 (c * c / (EstSums.vi e * EstSums.vq e))
  if c < 0 then -m else m

/-- A signed field of ten bits. -/
def sfld10 (w : Word) (lo : Nat) : Int := signed 10 (fld w lo 10)

/-- The targets of R94 from the lanes' trims: OFFSET of I and Q, GAIN of Q, QC. -/
def estTargets (i q : Lane) (a b : EstSums) : Int × Int × Int × Int :=
  let mi := (EstSums.mi a + EstSums.mi b) / 2
  let mq := (EstSums.mq a + EstSums.mq b) / 2
  let g := (EstSums.g a + EstSums.g b) / 2
  let rho := (EstSums.rho a + EstSums.rho b) / 2
  let gq : Rat := ((sfld10 q.trim 12 : Int) : Rat)
  (sfld10 i.trim 0 - roundAway (8 * mi), sfld10 q.trim 0 - roundAway (8 * mq), roundAway (((1 + gq / 4096) * g - 1) * 4096),
    sfld10 q.qsk 16 + roundAway (4096 * rho))

/-- Whether a target fits a signed field of ten bits. -/
def inTen (v : Int) : Bool := decide (-512 ≤ v) && decide (v ≤ 511)

/-- The reason of R93 for rejecting an estimate pair, 0 for acceptance; test 1 is judged apart. P_DARK in units of 2^-8 LSB². -/
def estReason (d : Accum) (dark : Nat) (pd : Nat) (t : Int × Int × Int × Int) : Nat :=
  let a := d.a
  let b := d.b
  let lim : Rat := ((dark * pd : Nat) : Rat) / 256
  let low := fun (e : EstSums) => decide (EstSums.vi e + EstSums.vq e < lim)
  let apart := fun (ma mb va vb : Rat) => decide (16 * (va / (a.n : Rat) + vb / (b.n : Rat)) < (ma - mb) * (ma - mb))
  let c : Rat := 16 * (1 / (a.n : Rat) + 1 / (b.n : Rat))
  if d.eligible < 4096 * d.overrange then 4
  else if low a || low b then 1
  else if decide (5 * EstSums.k a < 9) || decide (5 * EstSums.k b < 9) then 2
  else if decide (9 < 4 * EstSums.k a) || decide (9 < 4 * EstSums.k b) then 3
  else if apart (EstSums.mi a) (EstSums.mi b) (EstSums.vi a) (EstSums.vi b) || apart (EstSums.mq a) (EstSums.mq b) (EstSums.vq a) (EstSums.vq b) then 5
  else if rootsApart (EstSums.vi a / EstSums.vq a) (EstSums.vi b / EstSums.vq b) c ||
      rhosApart (EstSums.cov a) (EstSums.vi a * EstSums.vq a) (EstSums.cov b) (EstSums.vi b * EstSums.vq b) c then 5
  else if inTen t.1 && inTen t.2.1 && inTen t.2.2.1 && inTen t.2.2.2 then 0
  else 7

/-- Where each active slice's offset (1/16 LSB) and gain (2^-14) would go at an acceptance (R83): toward the lane's mean and power; the step counts are the
model's reading (log entry 64, DEDUCED). -/
def sliceWants (l : Lane) (st : List SampleSums) : List (Fin 9 × Int × Int) :=
  let all := st.foldl plusSums SampleSums.zero
  let mean := ratio all.sum all.n
  let pow := ratio all.sq all.n
  (List.finRange 8).filterMap fun pos =>
    let x := st.getD pos.val SampleSums.zero
    let sl := l.position[pos]
    if x.n = 0 ∨ x.sq = 0 then none
    else some (sl, l.slices[sl].offset + roundAway (16 * (mean - ratio x.sum x.n)),
      l.slices[sl].gain + roundAway (16384 * (root64 (pow / ratio x.sq x.n) - 1)))

/-- Slice targets, held in their ranges of ±8 LSB and ±2 % (R84, R86). -/
def sliceTargets (k : Nat) (l : Lane) (st : List SampleSums) : List (Nat × Nat × Int × Int) :=
  (sliceWants l st).map fun x => (k, x.1.val, max (-128) (min 128 x.2.1), max (-327) (min 327 x.2.2))

/-- A lane's slices whose corrections would leave their range become suspect (R84). -/
def Lane.suspectRange (l : Lane) (st : List SampleSums) : Lane :=
  { l with suspects := l.suspects.filter (fun x => x.2 != .range) ++
      ((sliceWants l st).filter fun x => decide (128 < x.2.1.natAbs) || decide (327 < x.2.2.natAbs)).map fun x => (x.1, SliceCause.range) }

/-- KAPPA of an accumulation in units of 2^-12: the mean of a.k and b.k (R103); its rounding is open (log entry 5, DESIGN CHOICE). -/
def kappa (a b : EstSums) : Nat :=
  let m : Rat := (a.k + b.k) * 2048
  min 65535 (divOpen m.num m.den).toNat

/-- A pair's event: that of its I lane, when EV_CAL is 1 (R81, R99). -/
def State.calEvent (s : State) (p : PortIx) (w : Pair) : State :=
  let n := pairI p w
  if bit s.lanes[n].ctl 19 then s.raiseN n.val else s

/-- Once FRAMES frames have been accumulated the estimate pair is tested (R93 to R96, R99); too few samples go on accumulating up to MAXFR frames. -/
def calibrationEstimate (p : PortIx) (w : Pair) (s : State) : State :=
  let q := s.ports[p]
  let c := q.cal w
  let d := c.acc
  let few := decide (d.a.n < 65536) || decide (d.b.n < 65536)
  if q.calMode = 0 || q.calState w ≠ 1 || c.restart || decide (c.frames < fld q.rxcCtl 8 8) then s
  else if few && decide (c.frames < fld q.rxcWin 16 16) then s
  else
    let i := pairI p w
    let k := pairQ p w
    let li := s.lanes[i]
    let lq := s.lanes[k]
    let t := estTargets li lq d.a d.b
    let r := if few then 6 else estReason d (fld q.rxcCtl 24 8) (li.pDark + lq.pDark) t
    let kp := kappa d.a d.b
    let s1 := s.modPort p fun q => { q with rxcKap := match w with | .x => setFld q.rxcKap 0 16 kp | .y => setFld q.rxcKap 16 16 kp }
    let s2 := s1.modPort p fun q =>
      if r = 0 then
        let q1 := ((q.setCal w 2).setReason w 0).putCal w { c.again false with
          targets := some t, sliceTargets := sliceTargets 0 li d.sliceI ++ sliceTargets 1 lq d.sliceQ }
        { q1 with rxcStat := setBit q1.rxcStat (match w with | .x => 16 | .y => 17) }
      else ((q.setCal w 3).setReason w r).putCal w { c.again false with holdFrames := 16 * fld q.rxcCtl 2 6 }
    let s3 := if r = 0 then (s2.modLane i fun l => l.suspectRange d.sliceI).modLane k fun l => l.suspectRange d.sliceQ else s2
    s3.calEvent p w

/-- CALIBRATION_ESTIMATE (R93). -/
def execCalibrationEstimate (p : PortIx) (w : Pair) (s : State) : Host.Outcome State Fault Refusal := .next (calibrationEstimate p w s)

/-! ### Walking (R83, R95, R96) -/

/-- One step toward a target. -/
def stepTo (x t : Int) : Int := if x < t then x + 1 else if t < x then x - 1 else x

/-- A signed field of ten bits replaced. -/
def setTen (w : Word) (lo : Nat) (v : Int) : Word := setFld w lo 10 (v % 1024).toNat

/-- One step of a lane's slices. -/
def Lane.sliceStep (l : Lane) (ts : List (Nat × Int × Int)) : Lane :=
  ts.foldl (fun (l : Lane) x => match ix 9 x.1 with
    | some i => { l with slices := l.slices.set i { l.slices[i] with offset := stepTo l.slices[i].offset x.2.1, gain := stepTo l.slices[i].gain x.2.2 } }
    | none => l) l

/-- One pair of a walking calibrator at a frame boundary: its four trims and its slices take a step, or, with the four at their targets, the walk ends and
the next accumulation begins. -/
def State.walkPair (s : State) (p : PortIx) (w : Pair) : State :=
  let q := s.ports[p]
  let i := pairI p w
  let k := pairQ p w
  match q.calState w, (q.cal w).targets with
  | 2, some (oi, oq, gq, qc) =>
    let li := s.lanes[i]
    let lq := s.lanes[k]
    if sfld10 li.trim 0 = oi ∧ sfld10 lq.trim 0 = oq ∧ sfld10 lq.trim 12 = gq ∧ sfld10 lq.qsk 16 = qc then
      s.modPort p fun q => (q.setCal w (if q.calMode = 1 then 4 else 1)).putCal w ((q.cal w).again false)
    else
      let st := (q.cal w).sliceTargets
      let of := fun (j : Nat) => (st.filter fun x => x.1 == j).map (·.2)
      let s1 := s.modLane i fun l => { (l.sliceStep (of 0)) with trim := setTen l.trim 0 (stepTo (sfld10 l.trim 0) oi) }
      let s2 := s1.modLane k fun l =>
        ({ (l.sliceStep (of 1)) with
          trim := setTen (setTen l.trim 0 (stepTo (sfld10 l.trim 0) oq)) 12 (stepTo (sfld10 l.trim 12) gq) } : Lane).putQsk s.time.mono
          (setTen l.qsk 16 (stepTo (sfld10 l.qsk 16) qc))
      s2.modPort p fun q => q.putCal w { q.cal w with stepped := true }
  | _, _ => s

/-- A frame boundary of a port whose calibrator walks. With MODE OFF the walk is abandoned. -/
def trimWalkStep (p : PortIx) (s : State) : State :=
  if s.ports[p].calMode = 0 then s.modPort p fun q => (q.calBoundary .x).calBoundary .y
  else (s.walkPair p .x).walkPair p .y

/-- TRIM_WALK_STEP (R95). -/
def execTrimWalkStep (p : PortIx) (s : State) : Host.Outcome State Fault Refusal := .next (trimWalkStep p s)

/-- After RETRY × 16 frames of HOLD, CONTINUOUS accumulates again (R96). -/
def calibrationHoldEnd (p : PortIx) (w : Pair) (s : State) : State :=
  let q := s.ports[p]
  if q.calMode = 2 && q.calState w = 3 && (q.cal w).holdFrames = 0 then s.modPort p fun q => (q.setCal w 1).putCal w ((q.cal w).again false) else s

/-- CALIBRATION_HOLD_END (R96). -/
def execCalibrationHoldEnd (p : PortIx) (w : Pair) (s : State) : Host.Outcome State Fault Refusal := .next (calibrationHoldEnd p w s)

/-- The closed frame ends: P_DARK of the four lanes and N_F of the groups are the measured ones, and launching resumes at the boundary that follows (R98,
R131). -/
def darkFrameEnd (p : PortIx) (powers floor : List Nat) (s0 : State) : State :=
  let q := s0.ports[p]
  if q.dark ≠ .closed ∧ q.dark ≠ .ended then s0
  else
    let s := if q.dark = .closed then s0.until (q.frameStart.getD 0 + frameTime q.plan p.val) else s0
    let s1 := (List.finRange 4).foldl (fun u k => u.modLane (portLane p k) fun l => { l with pDark := powers.getD k.val l.pDark }) s
    s1.modPort p fun r => { r with dark := if q.dark = .closed then .measured else .none, floor := floor }

/-- DARK_FRAME_END (R98). -/
def execDarkFrameEnd (p : PortIx) (powers floor : List Nat) (s : State) : Host.Outcome State Fault Refusal :=
  .next (darkFrameEnd p powers floor s)

/-! ### Registers (R79, R80, R87, R88, R100 to R102) -/

/-- A write of RXL_CTLn. -/
def writeRxlCtl (n : LaneIx) (v : Word) (s : State) : State :=
  s.modLane n fun l =>
    let a := wrChecked (fun x => 8 ≤ x) 0 8 (l.ctl, false) v
    let b := wrChecked (fun x => 16 ≤ x) 8 8 a v
    { l with ctl := wrRW (if n.val % 2 = 0 then 0xF0000 else 0x70000) b.1 v, stat := if b.2 then setBit l.stat 4 else l.stat }

/-- A write of RXL_STATn. -/
def writeRxlStat (n : LaneIx) (v : Word) (s : State) : State := s.modLane n fun l => { l with stat := wrW1C 0x17 l.stat v }

/-- A direct trim write that changes OFFSET, GAIN or QC restarts the pair's accumulation, and sets EXT_WRITE, unless MODE is OFF (R89). -/
def State.trimmed (s : State) (n : LaneIx) : State :=
  s.modPort (lanePort n) fun q =>
    if q.calMode = 0 then q else { (q.calDiscard (lanePair n)) with rxcStat := setBit (q.calDiscard (lanePair n)).rxcStat 18 }

/-- A write of RXL_TRIMn or RXL_QSKn; QC of an I lane ignores it. -/
def trimWrite (n : LaneIx) (qsk : Bool) (v : Word) (s : State) : State :=
  if qsk then
    let m := if n.val % 2 = 0 then 0x000000FF else 0x03FF00FF
    let old := s.lanes[n].qsk
    let s1 := (s.modLane n fun l => l.putQsk s.time.mono (wrRW m l.qsk v)).hazardIf (wrDiffers m old v)
    if n.val % 2 = 0 then s1 else s1.trimmed n
  else
    let old := s.lanes[n].trim
    ((s.modLane n fun l => { l with trim := wrRW 0x003FF3FF l.trim v }).hazardIf (wrDiffers 0x003FF3FF old v)).trimmed n

/-- TRIM_WRITE (R89). -/
def execTrimWrite (n : LaneIx) (qsk : Bool) (v : Word) (s : State) : Host.Outcome State Fault Refusal := 
  .next (s.writtenPort (lanePort n).val (trimWrite n qsk v))

/-- A new RXC_CTLp, field by field (R96, R100). -/
def writeRxcCtl (p : PortIx) (v : Word) (s : State) : State :=
  s.modPort p fun q =>
    let on := q.calMode ≠ 0
    let a := wrRWD on (fun x => x ≠ 0) 2 6 (q.rxcCtl, false) v
    let b := wrRWD on (fun x => 2 ≤ x && x % 2 == 0) 8 8 a v
    let c := wrRWD on (fun x => 4 ≤ x && x ≤ 10) 16 4 b v
    let d := wrRWD on (fun x => x ≠ 0) 24 8 c v
    let e := wrChecked (fun x => x ≠ 3) 0 2 d v
    let q1 := { q with rxcCtl := e.1, rxcStat := if e.2 then setBit q.rxcStat 19 else q.rxcStat }
    let again := fun (w : Pair) (r : Port) =>
      if r.calMode ≠ 0 ∧ r.calMode ≠ q.calMode ∧ (r.calState w = 4 ∨ r.calState w = 3 ∨ r.calState w = 0) then r.putCal w { r.cal w with restart := true } else r
    again .y (again .x q1)

/-- CAL_MODE_WRITE (R96). -/
def execCalModeWrite (p : PortIx) (v : Word) (s : State) : Host.Outcome State Fault Refusal := .next (s.writtenPort p.val (writeRxcCtl p v))

/-- A write of RXC_WINp. -/
def writeRxcWin (p : PortIx) (v : Word) (s : State) : State :=
  s.modPort p fun q =>
    let on := q.calMode ≠ 0
    let a := wrRWD on (fun _ => true) 0 16 (q.rxcWin, false) v
    let b := wrRWD on (fun x => fld q.rxcCtl 8 8 ≤ x) 16 16 a v
    { q with rxcWin := b.1, rxcStat := if b.2 then setBit q.rxcStat 19 else q.rxcStat }

/-- A write of RXC_STATp. -/
def writeRxcStat (p : PortIx) (v : Word) (s : State) : State := s.modPort p fun q => { q with rxcStat := wrW1C 0x000F0000 q.rxcStat v }

end Sys2Proof.Machine
end

