-- ==== Sys2Proof/Machine/Clocks.lean ====
section
/-! DEFINITION. The timing reference: CK_REF and its sources, the sampling and probe loops, clock gating, the frequency counter (R187 to
R217). The Ethernet, memory and auxiliary loops stand with the links. -/

namespace Sys2Proof.Machine

/-! ### CK_REF (R189 to R194) -/

/-- SRC of CLK_STAT (R204). -/
def srcCode : RefSrc → Nat | .internal => 0 | .recovered => 1 | .refin => 2
/-- The source in use. -/
def Clocks.src (c : Clocks) : RefSrc := match fld c.stat 0 2 with | 1 => .recovered | 2 => .refin | _ => .internal
/-- Whether a source is qualified. -/
def Clocks.qualified (c : Clocks) : RefSrc → Bool
  | .internal => true
  | .recovered => bit c.stat 2
  | .refin => bit c.stat 3

/-- The first qualified source in AUTO's order. -/
def Clocks.best (c : Clocks) : RefSrc := if c.qualified .recovered then .recovered else if c.qualified .refin then .refin else .internal

/-- The source that R190 calls for. -/
def Clocks.wanted (c : Clocks) : RefSrc :=
  match fld c.ctl 0 3 with
  | 1 => if c.qualified .recovered then .recovered else .internal
  | 2 => if c.qualified .refin then .refin else .internal
  | 3 => .internal
  | _ => if bit c.ctl 3 || !(c.qualified c.src) then c.best else c.src

/-- WTR in time units. -/
def Clocks.wtr (c : Clocks) : Time := fld c.ctl 8 8 * sec

/-- Whether a ramp of R192 or R196 is in progress. -/
def Clocks.ramping (c : Clocks) : Bool := c.ramp != .none

/-- The clocks as they stand `now`: 3 µs after its request a switch has changed the source, with SRC_CHG (step 4 of R192). -/
def Clocks.settled (c : Clocks) (now : Time) : Clocks :=
  match c.ramp with
  | .ref r false => if c.rampAt + 3 * us ≤ now then { c with ramp := .ref r true, stat := setBit (setFld c.stat 0 2 (srcCode r)) 13 } else c
  | _ => c

/-- A ramp begins: RAMP sets, and a frequency measurement in progress is marked (R214). -/
def Clocks.beginRamp (c : Clocks) (r : Ramp) (now : Time) : Clocks :=
  { c with
    ramp := r, rampAt := now, stat := setBit c.stat 4, fstat := if bit c.fstat 0 then setBit c.fstat 3 else c.fstat }

/-- When a latch pulse in progress ends: SDC_LAT is high for the first four of the eight periods that end a frame (R43, R194). -/
def State.latchUntil (s : State) : Option Time :=
  let d := s.sdc
  if d.phase = .framing ∧ d.waitUntil ≤ s.time.mono + d.periods 8 ∧ s.time.mono + d.periods 4 < d.waitUntil then some (d.waitUntil - d.periods 4)
  else none

/-- A move that is required begins, unless a ramp is in progress (R191, R192) or SDC_LAT is high for a latch pulse (R194): holdover, lane tags up to 2 µs after
step 7, marks on the AXC1 conversion and the pace windows that it overlaps, and a chain frame lengthened by the divided SDC_CLK. -/
def State.startMove (s : State) : State :=
  let c := s.clk
  if c.ramping || c.wanted == c.src || s.latchUntil.isSome then s
  else
    let now := s.time.mono
    let s1 := s.modClk fun c => { (c.beginRamp (.ref c.wanted false) now) with
      stat := setBit (setBit c.stat 4) 15, paceRamp := Vector.replicate 96 true
      spans := openSpan now { tag := 3, pos := none, since := now, till := some (now + 8 * us) } c.spans }
    let s2 := s1.modAxc1 fun a => { a with invalid := a.invalid || a.running.isSome }
    s2.modSdc fun d =>
      let latch := if d.phase = .framing then d.periods 8 else 0
      match d.phase with
      | .framing | .discovering =>
        if now + latch ≤ d.waitUntil then { d with waitUntil := max (now + slowed clkDivs 0 (d.waitUntil - latch - now)) (now + 6 * us) + latch }
        else { d with waitUntil := now + slowed clkDivs 0 (d.waitUntil - now) }
      | _ => d

/-- A move that waited for a ramp, or for SDC_LAT to fall, starts (R191, R192, R194). -/
def ckRefSwitch (s : State) : State := (match s.latchUntil with | some t => s.until t | none => s).startMove
/-- CK_REF_SWITCH (R192). -/
def execCkRefSwitch (s : State) : Host.Outcome State Fault Refusal := .next (ckRefSwitch s)

/-- The event of a source (R202). -/
def State.sourceEvent (s : State) : RefSrc → State
  | .recovered => s.raise 179
  | .refin => s.raise 180
  | .internal => s
/-- RECOV_OK or REFIN_OK of a source. -/
def Clocks.markSource (c : Clocks) (r : RefSrc) (ok : Bool) : Clocks :=
  match r with
  | .recovered => { c with stat := putBit c.stat 2 ok }
  | .refin => { c with stat := putBit c.stat 3 ok }
  | .internal => c

/-- A source is lost (R189, R191). INTERNAL never is. -/
def ckRefSourceLost (r : RefSrc) (s : State) : State :=
  if r = .internal ∨ !(s.clk.qualified r) then s
  else ((s.modClk fun c => c.markSource r false).sourceEvent r).startMove

/-- CK_REF_SOURCE_LOST (R191). -/
def execCkRefSourceLost (r : RefSrc) (s : State) : Host.Outcome State Fault Refusal := .next (ckRefSourceLost r s)

/-- A source qualifies (R189, R190): RECOVERED once the timing port has held synchronisation for WTR seconds. -/
def ckRefSourceQualified (r : RefSrc) (s0 : State) : State :=
  let s := if r = .recovered then s0.until (s0.clk.recovSince + s0.clk.wtr) else s0
  if s.clk.qualified r || (r == .recovered && !s.links.tportUp) then s0
  else ((s.modClk fun c => c.markSource r true).sourceEvent r).startMove

/-- CK_REF_SOURCE_QUALIFIED (R190). -/
def execCkRefSourceQualified (r : RefSrc) (s : State) : Host.Outcome State Fault Refusal := .next (ckRefSourceQualified r s)

/-- The sampling loop's retune begins, and with it the lane tags (R196); it waits for a ramp in progress. -/
def State.startRetune (s : State) : State :=
  if s.clk.ramping then s.modClk fun c => { c with fsWaiting := true }
  else s.modClk fun c => { (c.beginRamp (.fs false) s.time.mono) with
    fsWaiting := false, spans := openSpan s.time.mono { tag := 3, pos := none, since := s.time.mono, till := none } c.spans }

/-- A retune that waited begins. -/
def State.serveRetune (s : State) : State := if s.clk.fsWaiting then s.startRetune else s

/-- Steps 4 to 8 of R192: the new source, RAMP cleared and EV178 at 6 µs, where an f_S change that waited begins, then the end of holdover at 8 µs. -/
def ckRefRampComplete (s0 : State) : State :=
  match s0.clk.ramp with
  | .ref _ _ =>
    let s := s0.until (s0.clk.rampAt + 6 * us)
    let s1 := ((s.modClk fun c => { (c.settled s.time.mono) with ramp := .none, stat := clrBit (c.settled s.time.mono).stat 4 }).raise 178).serveRetune
    (s1.until (s0.clk.rampAt + 8 * us)).modClk fun c => { c with stat := clrBit c.stat 15 }
  | _ => s0

/-- CK_REF_RAMP_COMPLETE (R192). -/
def execCkRefRampComplete (s : State) : Host.Outcome State Fault Refusal := .next (ckRefRampComplete s)

/-- A write of CLK_CTL (R203). -/
def writeClkCtl (v : Word) (s : State) : State :=
  let s1 := s.modClk fun c0 =>
    let c := c0.settled s.time.mono
    let a := wrChecked (fun x => x ≤ 3) 0 3 (c.ctl, false) v
    let b := wrRWD (fld c.stat 0 2 == 2) (fun _ => true) 4 2 a v
    let d := wrChecked (fun x => x ≠ 0) 8 8 b v
    { c with ctl := wrRW 0x8 d.1 v, stat := if d.2 then setBit c.stat 14 else c.stat }
  s1.startMove

/-- A write of CLK_STAT (R204). -/
def writeClkStat (v : Word) (s : State) : State :=
  s.modClk fun c0 =>
    let c := c0.settled s.time.mono
    { c with stat := wrW1C 0x7C00 c.stat v }

/-! ### The sampling loop (R195 to R199) -/

/-- A new f_S takes effect at the commit point (R195, R196): CLK_FS, and the retune. -/
def State.setFs (s : State) (n : Nat) : State := (s.modClk fun c => { c with fs := setFld c.fs 0 13 n }).startRetune

/-- Sampling lock is lost: every lane's samples carry 0b11, launches are suppressed, and each port resumes at its first frame boundary after lock (R198,
R199). -/
def State.loseSampling (s : State) : State :=
  let s1 := s.modClk fun c => { c with stat := setBit (clrBit c.stat 5) 10 }
  (s1.forPorts fun p u => u.modPort p fun q => { q with
    lockResume := q.frameStart.isSome
    spans := openSpan s.time.mono { tag := 3, pos := none, since := s.time.mono, till := none } q.spans }).raise 181

/-- The detector finds the sampling loop out of lock. -/
def samplingLockLost (s : State) : State := if bit s.clk.stat 5 then s.loseSampling else s
/-- SAMPLING_LOCK_LOST (R198). -/
def execSamplingLockLost (s : State) : Host.Outcome State Fault Refusal := .next (samplingLockLost s)

/-- Sampling lock is regained: SMP_LOCK, EV181. -/
def samplingLockRegained (s : State) : State :=
  if bit s.clk.stat 5 then s else (s.modClk fun c => { c with stat := setBit c.stat 5 }).raise 181
/-- SAMPLING_LOCK_REGAINED (R198). -/
def execSamplingLockRegained (s : State) : Host.Outcome State Fault Refusal := .next (samplingLockRegained s)

/-- The retune's loop has not locked by 23 µs: a loss of sampling lock (R196). -/
def fsRetuneTimeout (s0 : State) : State :=
  match s0.clk.ramp with
  | .fs _ =>
    let s := s0.until (s0.clk.rampAt + 23 * us)
    ((s.modClk fun c => { c with
      ramp := .none, stat := clrBit c.stat 4, fsWaiting := false, spans := closeSpans s.time.mono 3 c.spans }).loseSampling)
  | _ => s0
/-- FS_RETUNE_TIMEOUT (R196). -/
def execFsRetuneTimeout (s : State) : Host.Outcome State Fault Refusal := .next (fsRetuneTimeout s)

/-- The retuned loop locks at L, no sooner than the retune itself; 2 µs later CK_SMP is undivided and the lane tags end. A loop that has not locked by 23 µs
has lost lock (R196). -/
def samplingLoopRetuneLock (s0 : State) : State :=
  match s0.clk.ramp with
  | .fs _ =>
    if s0.clk.rampAt + 23 * us < s0.time.mono then fsRetuneTimeout s0
    else
      let s := (s0.until (s0.clk.rampAt + 3 * us)).elapse (2 * us)
      (s.modClk fun c => { c with ramp := .none, stat := clrBit c.stat 4, spans := closeSpans s.time.mono 3 c.spans }).serveRetune
  | _ => s0
/-- SAMPLING_LOOP_RETUNE_LOCK (R196). -/
def execSamplingLoopRetuneLock (s : State) : Host.Outcome State Fault Refusal := .next (samplingLoopRetuneLock s)

/-! ### The probe loop (R200) -/

/-- Probe lock is lost: gates closed, probe outputs at code 0, frame timers frozen. -/
def probeLockLost (s : State) : State :=
  if bit s.clk.stat 6 then
    let s1 := s.modClk fun c => { c with stat := setBit (clrBit c.stat 6) 11 }
    (s1.forPorts fun p u => (closeGate p u).modPort p fun q => { q with frozen := q.frameStart.isSome }).raise 182
  else s
/-- PROBE_LOCK_LOST (R200). -/
def execProbeLockLost (s : State) : Host.Outcome State Fault Refusal := .next (probeLockLost s)

/-- Probe lock is regained; 10 µs later the frozen frame timers restart together with group 0, each port in a new strain epoch. -/
def probeLockRegained (s : State) : State :=
  if bit s.clk.stat 6 then s
  else
    let s1 := ((s.modClk fun c => { c with stat := setBit c.stat 6 }).raise 182).elapse (10 * us)
    s1.forPorts fun p u =>
      if u.ports[p].frozen then
        (u.modPort p fun q => { q with frozen := false, frameStart := some u.time.mono, frameNo := q.frameNo + 1 }).beginEpoch p
      else u
/-- PROBE_LOCK_REGAINED (R200). -/
def execProbeLockRegained (s : State) : Host.Outcome State Fault Refusal := .next (probeLockRegained s)

/-! ### Clock gating (R206 to R211) -/

/-- Whether any port has a probing mode. -/
def State.anyProbing (s : State) : Bool := (List.range 24).any fun p => s.settings.probing p

/-- Whether a vernier converter serves (R209). -/
def State.serving (s : State) (i : Nat) : Bool :=
  (s.tiu.launch == i && s.anyProbing) || (s.tiu.user == i && (s.tiu.run.isSome || !s.tiu.queue.isEmpty))

/-- Whether an Ethernet port carries a route: payload is booked on it. -/
def State.carriesRoute (s : State) (n : Fin 2) : Bool := s.ladle.place.links.any fun x => x.2.1 == .eth n

/-- Whether the block of a CKG_EN0 bit is enabled, carries work, or supplies a clock in use (R207). -/
def State.blockInUse (s : State) (i : Nat) : Bool :=
  match i with
  | 0 | 1 | 2 => s.serving i
  | 3 => bit s.clk.fstat 0
  | 4 => bit s.axc1.ctl 0
  | 5 => s.carriesRoute 0
  | 6 => s.carriesRoute 1
  | 7 => s.clk.src == .recovered
  | 10 => bit s.sdc.ctl 0
  | _ => false

/-- 32 cycles of the clock of a block (R208), a bit of CKG_EN0: CK_PRB for the converters, CK_AUX for AXC1, CK_ETH for the Ethernet and timing ports, CK_REF for
the others (log entry 130, DEDUCED). -/
def ungateTime (i : Nat) : Time :=
  if i < 3 then 16 * ns else if i = 4 then 3125 * ns else if 5 ≤ i ∧ i ≤ 7 then ceilDiv (5120 * sec) 25781250000 else 256 * ns

/-- The 32 cycles of a block that is ungated begin. -/
def Clocks.ungate (c : Clocks) (i : Nat) (now len : Time) : Clocks :=
  { c with settling := (c.settling.filter fun x => x.1 != i && decide (now < x.2)) ++ [(i, now + len)] }

/-- One bit of CKG_EN0: gated, ungated with its 32 cycles, or the clear ignored (R207 to R209). -/
def State.ckgBit (s : State) (v : Word) (i : Nat) : State :=
  let old := bit s.clk.ckg0 i
  if old && !(bit v i) then
    if s.blockInUse i then s.modClk fun c => { c with ckgStat := setBit c.ckgStat 16 }
    else
      let s1 := s.modClk fun c => { c with ckg0 := clrBit c.ckg0 i, ckgStat := setBit c.ckgStat i }
      match ix 3 i with | some k => s1.dropConv k | none => s1
  else if !old && bit v i then
    let s1 := s.modClk fun c => { (c.ungate i s.time.mono (ungateTime i)) with ckg0 := setBit c.ckg0 i, ckgStat := clrBit c.ckgStat i }
    match ix 3 i with | some k => s1.returnConv k | none => s1
  else s

/-- A write of CKG_EN0 or CKG_EN1. -/
def writeCkg (r : CkgReg) (v : Word) (s : State) : State :=
  match r with
  | .en0 => (List.range 11).foldl (fun u i => u.ckgBit v i) s
  | .en1 => (List.range 24).foldl (fun u p =>
      if bit u.clk.ckg1 p && !(bit v p) && u.settings.probing p then u.modClk fun c => { c with ckgStat := setBit c.ckgStat 16 }
      else u.modClk fun c =>
        let c1 := if !(bit c.ckg1 p) && bit v p then c.ungate (11 + p) u.time.mono (ceilDiv (32 * sec) (fsHz u.settings)) else c
        { c1 with ckg1 := putBit c1.ckg1 p (bit v p) }) s

/-- CKG_EN_CLEAR (R207). -/
def execCkgEnClear (r : CkgReg) (v : Word) (s : State) : Host.Outcome State Fault Refusal := .next (s.written (writeCkg r v))
/-- CKG_EN_SET (R208). -/
def execCkgEnSet (r : CkgReg) (v : Word) (s : State) : Host.Outcome State Fault Refusal := .next (s.written (writeCkg r v))

/-- CKG_STAT as it reads: a converter is gated while it holds no role and is not in calibration (R209, R211), and a block while its 32 cycles run (R208). -/
def State.ckgStatRead (s : State) : Word :=
  (List.range 11).foldl (fun w i => if s.settling i then setBit w i else w)
    ((List.range 3).foldl (fun w i => putBit w i (s.tiu.launch != i && s.tiu.user != i && !(s.tiu.convN i).returning)) s.clk.ckgStat)

/-- A write of CKG_STAT. -/
def writeCkgStat (v : Word) (s : State) : State := s.modClk fun c => { c with ckgStat := wrW1C 0x10000 c.ckgStat v }

/-! ### The frequency counter (R212 to R217) -/

/-- A write of FCNT_CTL: RWD fields while BUSY, reserved codes, and START. -/
def writeFcntCtl (v : Word) (s : State) : State :=
  s.modClk fun c =>
    let busy := bit c.fstat 0
    let a := wrRWD busy (fun x => x ≤ 12) 0 4 (c.fctl, false) v
    let b := wrRWD busy (fun x => x ≤ 12) 4 4 a v
    let d := wrRWD busy (fun x => 10 ≤ x && x ≤ 30) 8 5 b v
    let start := bit v 16
    let ign := d.2 || (start && busy)
    let st := if ign then setBit c.fstat 4 else c.fstat
    let st1 := if start && !busy then (if c.ramping then setBit (setBit st 0) 3 else setBit st 0) else st
    { c with fctl := d.1, fstat := st1 }

/-- FCNT_START (R213). -/
def execFcntStart (v : Word) (s : State) : Host.Outcome State Fault Refusal := .next (s.writtenClk 3 (writeFcntCtl v))

/-- A write of FCNT_STAT. -/
def writeFcntStat (v : Word) (s : State) : State := s.modClk fun c => { c with fstat := wrW1C 0x1E c.fstat v }

/-- The counts in their three registers (R217). -/
def Clocks.counts (c : Clocks) (m r : Nat) : Clocks :=
  { c with
    fmlo := BitVec.ofNat 32 m, frlo := BitVec.ofNat 32 r
    fhi := BitVec.ofNat 32 (m / 2 ^ 32 % 256 + r / 2 ^ 32 % 256 * 256) }

/-- The gate closes on the first MEAS edge after REF_CNT has reached 2^GATE_EXP: counts, DONE, EV184. -/
def fcntDone (m r : Nat) (s : State) : State :=
  if bit s.clk.fstat 0 && decide (2 ^ fld s.clk.fctl 8 5 ≤ r) then
    (s.modClk fun c => { (c.counts m r) with fstat := setBit (clrBit c.fstat 0) 1 }).raise 184
  else s
/-- FCNT_DONE (R213). -/
def execFcntDone (m r : Nat) (s : State) : Host.Outcome State Fault Refusal := .next (fcntDone m r s)

/-- An input made no edge for 64 CK_SLOW cycles: NOCLK and DONE; what the counters hold is not stated (free values). -/
def fcntNoclk (s : State) : State :=
  if bit s.clk.fstat 0 then
    let s1 := s.elapse (64 * sec / 32768)
    let (m, s2) := s1.fresh
    let (r, s3) := s2.fresh
    (s3.modClk fun c => { (c.counts m.toNat r.toNat) with fstat := setBit (setBit (clrBit c.fstat 0) 1) 2 }).raise 184
  else s
/-- FCNT_NOCLK (R214). -/
def execFcntNoclk (s : State) : Host.Outcome State Fault Refusal := .next (fcntNoclk s)

end Sys2Proof.Machine
end

