-- ==== Sys2Proof/Machine/Axc1.lean ====
section
/-! DEFINITION. AXC1, the housekeeping converter: its registers, sequencer, urgent requests and results (R288 to R291, R307 to R314). -/

namespace Sys2Proof.Machine

/-- One cycle of CK_AUX, 10.24 MHz. -/
def auxCycle : Time := 6400000

/-- Settling of a reference after its selection (R290): INTERNAL 1 ms, EXTERNAL 100 µs, SUPPLY 10 µs. -/
def axc1Settle (ref : Nat) : Time := match ref with | 0 => ms | 1 => 100 * us | _ => 10 * us

/-- STAT shows the entry, whether a conversion runs, and the requests queued (R310). -/
def Axc1.show (a : Axc1) : Axc1 :=
  { a with stat := setFld (putBit (setFld a.stat 0 5 a.entry) 5 a.running.isSome) 11 3 a.urgQ.length }

/-- Settings of a conversion: those of entry n, or those of the front urgent request. -/
def Axc1.word (a : Axc1) (run : Option Nat) : Word :=
  match run with
  | some n => a.seq.toList.getD n 0
  | none => a.urgQ.headD 0

/-- CK_AUX cycles of a conversion (R307): 2^AVG times its acquisition and 18 cycles, and 21 more after OVER or UNDER. -/
def axc1Cycles (w : Word) (lengthened : Bool) : Nat := 2 ^ fld w 17 4 * (fld w 7 10 + 18) + 21 * b01 lengthened

/-- A conversion starts: its reference is selected, which clears REF_SET when it differs (R290). -/
def Axc1.begin (a : Axc1) (run : Option Nat) (bad : Bool) (t : Time) : Axc1 :=
  let w := a.word run
  let r := fld w 5 2
  ({ a with
    running := some run, startAt := t, cycles := axc1Cycles w a.lengthened, lengthened := false, invalid := bad, ref := r,
    stat := if r = a.ref then a.stat else clrBit a.stat 7 } : Axc1).show

/-- The next conversion: a queued urgent request, unless URG_MAX have run since an entry of the running sequence completed; else the entry in
turn; else AXC1 is idle (R288, R291). -/
def Axc1.startNext (a : Axc1) (bad : Bool) (t : Time) : Axc1 :=
  if !a.urgQ.isEmpty && (!a.seqOn || decide (a.urgRun < fld a.ctl 7 3)) then a.begin none bad t
  else if a.seqOn then a.begin (some a.entry) bad t
  else ({ a with running := none, invalid := false } : Axc1).show

/-- Whether a conversion that starts now overlaps a ramp or a loss of the auxiliary loop (R194, R201, R307). -/
def State.axc1Bad (s : State) : Bool := s.clk.ramping || bit s.clk.stat 15 || !(bit s.clk.stat 9)

/-- A pass begins at entry 0. -/
def Axc1.startPass (a : Axc1) (bad : Bool) (t : Time) : Axc1 := ({ a with seqOn := true, entry := 0, urgRun := 0 } : Axc1).startNext bad t

/-- AXC1 is switched off (R308): the conversion in flight is aborted, queued requests are discarded, results stay. -/
def Axc1.off (a : Axc1) : Axc1 :=
  ({ a with running := none, seqOn := false, entry := 0, urgQ := [], urgRun := 0, invalid := false, stat := clrBit a.stat 7 } : Axc1).show

/-- A write of AXC1_CTL (R309). -/
def writeAxc1Ctl (v : Word) (s : State) : State :=
  s.modAxc1 fun a =>
    let en := bit a.ctl 0
    let busy := bit a.stat 5
    let x := wrRWD en (fun _ => true) 1 1 (a.ctl, false) v
    let y := wrRWD en (fun _ => true) 2 5 x v
    let z := wrRWD en (fun n => n ≠ 0) 7 3 y v
    let ctl := wrRW 1 z.1 v
    let start := bit v 10 && bit ctl 1
    let a1 : Axc1 := { a with ctl := ctl, stat := if z.2 || (start && busy) then setBit a.stat 9 else a.stat }
    if en && !(bit v 0) then a1.off
    else if bit ctl 0 && ((!en && !(bit ctl 1)) || (start && !busy)) then a1.startPass s.axc1Bad s.time.mono
    else a1

/-- Whether a value of AXC1_SEQ or AXC1_URG has no field that its table calls ignored and flagged (R311). -/
def axc1WordOk (v : Word) : Bool := fld v 5 2 ≠ 3 && 8 ≤ fld v 7 10 && fld v 17 4 ≤ 8

/-- A write of AXC1_SEQn (R311). -/
def writeAxc1Seq (n : Fin 32) (v : Word) (s : State) : State :=
  s.modAxc1 fun a =>
    let en := bit a.ctl 0
    let x := wrRWD en (fun _ => true) 0 5 (a.seq[n], false) v
    let y := wrRWD en (fun k => k ≠ 3) 5 2 x v
    let z := wrRWD en (fun k => 8 ≤ k) 7 10 y v
    let u := wrRWD en (fun k => k ≤ 8) 17 4 z v
    let w := wrRWD en (fun _ => true) 21 1 u v
    { a with seq := a.seq.set n w.1, stat := if w.2 then setBit a.stat 9 else a.stat }

/-- A write of AXC1_LIMn (R312). -/
def writeAxc1Lim (n : Fin 32) (v : Word) (s : State) : State := s.modAxc1 fun a => { a with lim := a.lim.set n v }

/-- A write of AXC1_STAT (R310): DONE, URG_OVF, CFG_IGN and LIM. -/
def writeAxc1Stat (v : Word) (s : State) : State := s.modAxc1 fun a => { a with stat := wrW1C 0x740 a.stat v }

/-- A write of AXC1_URG with GO (R291, R314): queued, or URG_OVF with four waiting; it aborts a running entry unless URG_MAX have run. A request
that finds AXC1 disabled, or that carries a value its table calls ignored and flagged, is ignored with CFG_IGN. -/
def writeAxc1Urg (v : Word) (s : State) : State :=
  if !(bit v 31) then s
  else s.modAxc1 fun a =>
    if !(bit a.ctl 0) || !(axc1WordOk v) then { a with stat := setBit a.stat 9 }
    else if 4 ≤ a.urgQ.length then { a with stat := setBit a.stat 8 }
    else
      let a1 : Axc1 := { a with urgQ := a.urgQ ++ [v &&& 0x001FFFFF] }
      match a.running with
      | some none => a1.show
      | some (some _) => if a.urgRun < fld a.ctl 7 3 then a1.startNext s.axc1Bad s.time.mono else a1.show
      | none => a1.startNext s.axc1Bad s.time.mono

/-- A result register (R313): CODE, VALID, OVER, UNDER, NSET, INVAL, LIM, PASS. -/
def axc1Result (code : Nat) (ovr under nset inval lim : Bool) (pass : BitVec 8) : Word :=
  BitVec.ofNat 32 (code % 65536 + 65536 * b01 (!(ovr || under || nset || inval)) + 131072 * b01 ovr + 262144 * b01 under + 524288 * b01 nset +
    1048576 * b01 inval + 2097152 * b01 lim + 4194304 * pass.toNat)

/-- CODE of an entry (R307), with OVER and UNDER: round(65,536 × V / V_REF) of the mean of its conversions' V. -/
def axc1Code (vs : List Int) (vref : Nat) : Nat × Bool × Bool :=
  let c := divAway (65536 * isum vs) (vs.length * vref : Nat)
  if isum vs * 131072 < -(vs.length * vref : Nat) then (0, false, true) else if 65534 < c then (0xFFFF, true, false) else (c.toNat, false, false)

/-- The sequence moves on from its entry: after LAST the pass ends, and in ONCE mode DONE sets and the sequence stops (R288). -/
def Axc1.advance (a : Axc1) : Axc1 :=
  if a.entry = fld a.ctl 2 5 ∨ 31 ≤ a.entry then
    if bit a.ctl 1 then { a with entry := 0, urgRun := 0, pass := a.pass + 1, seqOn := false, stat := setBit a.stat 6 }
    else { a with entry := 0, urgRun := 0, pass := a.pass + 1 }
  else { a with entry := a.entry + 1, urgRun := 0 }

/-- A conversion is complete: its result, its limit check, and what runs next. -/
def axc1Deliver (run : Option Nat) (code : Nat) (ovr under nset inval : Bool) (s : State) : State :=
  let a := s.axc1
  match run with
  | none =>
    let s1 := (s.modAxc1 fun a => { a with
      urgRes := axc1Result code ovr under nset inval false a.pass, urgQ := a.urgQ.tail, urgRun := a.urgRun + 1,
      lengthened := ovr || under }).raise 208
    s1.modAxc1 fun a => a.startNext s1.axc1Bad s1.time.mono
  | some n =>
    match ix 32 n with
    | none => s
    | some i =>
      let checked := bit a.seq[i] 21 && !(ovr || under || nset || inval)
      let outside := decide (code < fld a.lim[i] 0 16) || decide (fld a.lim[i] 16 16 < code)
      let crossed := checked && outside && a.inside[i]
      let s1 := s.modAxc1 fun a => { a with
        res := a.res.set i (axc1Result code ovr under nset inval (checked && outside) a.pass)
        inside := if checked then a.inside.set i (!outside) else a.inside
        stat := if crossed then setBit a.stat 10 else a.stat
        lengthened := ovr || under }
      let s2 := if crossed then s1.raise 207 else s1
      s2.modAxc1 fun a => a.advance.startNext s2.axc1Bad s2.time.mono

/-- An entry or urgent conversion ends (R289, R307): at the end of its acquisitions and conversions, or, with NSET and a code that the spec does not
state (a free value), when the reference has not settled within 1 ms. -/
def axc1EntryComplete (m : Axc1Conv) (s : State) : State :=
  match s.axc1.running with
  | none => s
  | some run =>
    let a := s.axc1
    if m.refSettled then
      let wait := if bit a.stat 7 then 0 else axc1Settle a.ref
      let s1 := (s.until (a.startAt + wait + a.cycles * auxCycle)).modAxc1 fun a => { a with stat := setBit a.stat 7 }
      let (code, ovr, under) := axc1Code m.vs m.vref
      axc1Deliver run code ovr under false a.invalid s1
    else
      let (f, s1) := ((s.until (a.startAt + ms)).modAxc1 fun a => { a with stat := clrBit a.stat 7 }).fresh
      axc1Deliver run f.toNat false false true a.invalid s1

/-- AXC1_ENABLE (R288, R309). -/
def execAxc1Enable (v : Word) (s : State) : Host.Outcome State Fault Refusal := .next (s.writtenClk 4 (writeAxc1Ctl v))
/-- AXC1_DISABLE (R308). -/
def execAxc1Disable (v : Word) (s : State) : Host.Outcome State Fault Refusal := .next (s.writtenClk 4 (writeAxc1Ctl v))
/-- AXC1_START (R309). -/
def execAxc1Start (v : Word) (s : State) : Host.Outcome State Fault Refusal := .next (s.writtenClk 4 (writeAxc1Ctl v))
/-- AXC1_URGENT_REQUEST (R291). -/
def execAxc1UrgentRequest (v : Word) (s : State) : Host.Outcome State Fault Refusal := .next (s.writtenClk 4 (writeAxc1Urg v))
/-- AXC1_ENTRY_COMPLETE (R307). -/
def execAxc1EntryComplete (m : Axc1Conv) (s : State) : Host.Outcome State Fault Refusal := .next (axc1EntryComplete m s)

end Sys2Proof.Machine
end

