-- ==== Sys2Proof/Machine/Deflate.lean ====
section
/-! DEFINITION. The DEFLATE streams of the Press (R389 to R392, RFC 1951): the match search, the blocks, fixed and dynamic codes. The hash, the construction
of the code lengths and their run-length coding are not stated: those are open, within what the format allows (log entry 135, DESIGN CHOICE). -/

namespace Sys2Proof.Machine

/-! ### The match search (R390) -/

/-- A symbol of a stream before coding: a literal, or a copy of `len` bytes from `dist` bytes back. -/
inductive Tok where
  | lit (b : Byte)
  | copy (len dist : Nat)
deriving DecidableEq, Repr

/-- Bytes that a position shares with one `dist` before it, up to `cap`. -/
def sharedLen (bs : Array Byte) (i dist : Nat) : Nat → Nat
  | 0 => 0
  | cap + 1 =>
    let k := sharedLen bs i dist cap
    if k = cap ∧ i + k < bs.size ∧ bs[i + k]? = bs[i + k - dist]? then k + 1 else k

/-- The hash of the three bytes at a position. -/
def hashAt (bs : Array Byte) (i : Nat) : Nat :=
  let g := fun (k : Nat) => (bs.getD (i + k) 0).toNat
  Config.hash3 (g 0 + 256 * g 1 + 65536 * g 2)

/-- The match found at a position: length and distance. Of the positions of the hash chain within the window, nearest first, `depth` are examined; the
longest match stands, the nearest among equals, and 258 bytes end the search. Matches end with the DEFLATE block, at `lim` (log entry 137, DEDUCED). -/
def findMatch (bs : Array Byte) (win depth lim i : Nat) : Option (Nat × Nat) :=
  if lim < i + 3 ∨ bs.size < i + 3 then none
  else
    let h := hashAt bs i
    let chain := (((List.range (min i win)).map (· + 1)).filter fun d => hashAt bs (i - d) == h).take depth
    let best := chain.foldl (fun (b : Nat × Nat) d =>
      if b.1 = 258 then b
      else
        let l := sharedLen bs i d (min 258 (lim - i))
        if b.1 < l then (l, d) else b) (0, 0)
    if 3 ≤ best.1 then some best else none

/-- The symbols of positions `i` to `lim - 1`. -/
def tokensFrom (bs : Array Byte) (isLazy : Bool) (win depth lim : Nat) : Nat → Nat → List Tok
  | 0, _ => []
  | f + 1, i =>
    if lim ≤ i then []
    else
      let lit := Tok.lit (bs.getD i 0)
      match findMatch bs win depth lim i with
      | none => lit :: tokensFrom bs isLazy win depth lim f (i + 1)
      | some (l, d) =>
        let longer := match findMatch bs win depth lim (i + 1) with | some x => decide (l < x.1) | none => false
        if isLazy && longer then lit :: tokensFrom bs isLazy win depth lim f (i + 1)
        else Tok.copy l d :: tokensFrom bs isLazy win depth lim f (i + l)

/-! ### Symbols (RFC 1951, 3.2.5) -/

/-- Length symbol of a copy, and its extra bits as (count, value). -/
def lenSym (l : Nat) : Nat × Nat × Nat :=
  let x := l - 3
  if l = 258 then (285, 0, 0)
  else if x < 8 then (257 + x, 0, 0)
  else
    let e := Nat.log2 x - 2
    (257 + 4 * e + x / 2 ^ e, e, x % 2 ^ e)

/-- Distance symbol of a copy, and its extra bits. -/
def distSym (d : Nat) : Nat × Nat × Nat :=
  let x := d - 1
  if x < 4 then (x, 0, 0)
  else
    let e := Nat.log2 x - 1
    (2 * e + x / 2 ^ e, e, x % 2 ^ e)

/-- Literal and length symbol of a token. -/
def Tok.litSym : Tok → Nat
  | .lit b => b.toNat
  | .copy l _ => (lenSym l).1

/-- How often each of `n` symbols occurs. -/
def countSyms (n : Nat) (l : List Nat) : List Nat := (List.range n).map fun k => l.count k

/-! ### Prefix codes (RFC 1951, 3.2.2) -/

/-- Bits of a number, least significant first. -/
def lowBits (n v : Nat) : List Bool := (List.range n).map fun i => v.testBit i
/-- Bits of a prefix code, most significant first. -/
def codeBits (n v : Nat) : List Bool := (lowBits n v).reverse

/-- The first code of a length. -/
def firstCode (ls : List Nat) : Nat → Nat
  | 0 => 0
  | n + 1 => (firstCode ls n + (if n = 0 then 0 else ls.count n)) * 2

/-- The code of a symbol under code lengths. -/
def symBits (ls : List Nat) (k : Nat) : List Bool :=
  let n := ls.getD k 0
  codeBits n (firstCode ls n + (ls.take k).count n)

/-- Code lengths of one length, or two next to each other, for the symbols that occur: always a complete code. -/
def balancedLengths (counts : List Nat) : List Nat :=
  let used := (List.range counts.length).filter fun k => counts.getD k 0 != 0
  let m := used.length
  let k := Nat.log2 m
  (List.range counts.length).map fun i =>
    if counts.getD i 0 = 0 then 0 else if m = 1 then 1 else if decide (used.idxOf i < 2 ^ (k + 1) - m) then k else k + 1

/-- Whether code lengths suit symbol counts: a length up to `limit` for each symbol that occurs and for no other, and a complete code, or a single symbol of
one bit. -/
def lengthsOk (counts : List Nat) (limit : Nat) (ls : List Nat) : Bool :=
  let used := ls.filter (· != 0)
  ls.length == counts.length && (ls.zip counts).all (fun x => decide (x.1 ≤ limit) && (x.1 != 0) == (x.2 != 0)) &&
    ((used.map fun n => 2 ^ (limit - n)).foldl (· + ·) 0 == 2 ^ limit || used == [1] || used.isEmpty)

/-- Code lengths of at most `limit` for symbol counts; which ones is not stated. -/
def codeLengths (counts : List Nat) (limit : Nat) : List Nat :=
  let ls := Config.codeLengths counts limit
  if lengthsOk counts limit ls then ls else balancedLengths counts

/-- The fixed code lengths (RFC 1951, 3.2.6). -/
def fixedLengths : List Nat := List.replicate 144 8 ++ List.replicate 112 9 ++ List.replicate 24 7 ++ List.replicate 8 8

/-! ### Blocks (R389, R391) -/

/-- The bits of a token under literal and distance code lengths. -/
def Tok.bits (ll dl : List Nat) : Tok → List Bool
  | .lit b => symBits ll b.toNat
  | .copy l d =>
    let x := lenSym l
    let y := distSym d
    symBits ll x.1 ++ lowBits x.2.1 x.2.2 ++ symBits dl y.1 ++ lowBits y.2.1 y.2.2

/-- What run-length symbols stand for (RFC 1951, 3.2.7), each with the value of its extra bits. -/
def runExpand : List (Nat × Nat) → List Nat → List Nat
  | [], acc => acc
  | (s, v) :: r, acc => runExpand r (acc ++ (if s < 16 then [s] else if s = 16 then List.replicate (v + 3) (acc.getLastD 0)
      else if s = 17 then List.replicate (v + 3) 0 else List.replicate (v + 11) 0))

/-- Extra bits of a run-length symbol. -/
def runExtra (s : Nat) : Nat := if s = 16 then 2 else if s = 17 then 3 else if s = 18 then 7 else 0

/-- The run-length symbols of code lengths; which runs are used is not stated. -/
def runSyms (ls : List Nat) : List (Nat × Nat) :=
  let r := Config.runSyms ls
  if (r.all fun x => decide (x.1 < 19) && decide (x.2 < 2 ^ runExtra x.1)) && (r.headD (0, 0)).1 != 16 && runExpand r [] == ls then r
  else ls.map fun n => (n, 0)

/-- The order of the code-length code's lengths. -/
def clOrder : List Nat := [16, 17, 18, 0, 8, 7, 9, 6, 10, 5, 11, 4, 12, 3, 13, 2, 14, 1, 15]

/-- A list of lengths without the zeros at its end, but of at least `n`. -/
def trimLengths (n : Nat) (ls : List Nat) : List Nat := ls.take (max n ((ls.reverse.dropWhile (· == 0)).length))

/-- A block with its own code tables, built from its own symbol counts. -/
def dynamicBlock (ts : List Tok) : List Bool :=
  let lits := ts.map Tok.litSym ++ [256]
  let dists := ts.filterMap fun t => match t with | .copy _ d => some (distSym d).1 | .lit _ => none
  let ll := trimLengths 257 (codeLengths (countSyms 286 lits) 15)
  let dl := trimLengths 1 (codeLengths (countSyms 30 dists) 15)
  let rs := runSyms (ll ++ dl)
  let cl := codeLengths (countSyms 19 (rs.map (·.1))) 7
  let order := trimLengths 4 (clOrder.map fun k => cl.getD k 0)
  lowBits 5 (ll.length - 257) ++ lowBits 5 (dl.length - 1) ++ lowBits 4 (order.length - 4) ++ order.flatMap (lowBits 3) ++
    rs.flatMap (fun x => symBits cl x.1 ++ lowBits (runExtra x.1) x.2) ++ ts.flatMap (Tok.bits ll dl) ++ symBits ll 256

/-- A block of the fixed codes. -/
def fixedBlock (ts : List Tok) : List Bool := ts.flatMap (Tok.bits fixedLengths (List.replicate 30 5)) ++ symBits fixedLengths 256

/-- Bits as bytes, least significant first, the last padded with zero bits. -/
def packBits (l : List Bool) : List Byte :=
  (List.range ((l.length + 7) / 8)).map fun k => BitVec.ofNat 8 ((List.range 8).foldl (fun n i => n + (if l.getD (8 * k + i) false then 2 ^ i else 0)) 0)

/-- Where the DEFLATE blocks of a stream of `n` bytes end: under DYNAMIC at the first row boundary at or after each `sub` bytes, and at the end. -/
def blockEnds (dyn : Bool) (sub row n : Nat) : List Nat :=
  let cuts := if dyn then ((List.range (n / max 1 sub)).map fun k => ((k + 1) * sub + row - 1) / max 1 row * row).eraseDups else []
  (cuts.filter fun c => decide (0 < c) && decide (c < n)) ++ [n]

/-- The raw DEFLATE stream of a residue stream under DYNAMIC, DEPTH, LAZY, WIN_KIB, SUB_KIB and the length of a row. -/
def deflate (dyn : Bool) (depth : Nat) (isLazy : Bool) (winKib subKib row : Nat) (bs : List Byte) : List Byte :=
  let a := bs.toArray
  let ends := blockEnds dyn (subKib * 1024) row bs.length
  packBits ((ends.zip (0 :: ends)).flatMap fun (e, b) =>
    let ts := tokensFrom a isLazy (winKib * 1024) depth e (e - b) b
    [e == bs.length, !dyn, dyn] ++ (if dyn then dynamicBlock ts else fixedBlock ts))

end Sys2Proof.Machine
end

