-- ==== Sys2Proof/Machine/Look.lean ====
section
/-! DEFINITION. Lookback: triggers, captures and their pinning, dumps and re-analysis (R426 to R439). -/

namespace Sys2Proof.Machine

/-! ### Triggers (R431) -/

/-- Member `i` of a trigger: SOURCE, SECTIONS, PRE, POST, HOLDOFF, DETAIL, T_AT. -/
def trigPar (ss : Settings) (t i : Nat) : Nat := (ss.getI .trigger t 0 0x021C i 0).toNat
/-- The zone of a trigger. -/
def trigZone (ss : Settings) (t : Nat) : Nat := ss.get .trigger t 0x0102
/-- Whether a trigger is defined. -/
def trigSet (ss : Settings) (t : Nat) : Bool := ss.has .trigger t 0 0x021C

/-- A change to a trigger's runtime state. -/
def State.modTrig (s : State) (t : Nat) (f : TrigRt → TrigRt) : State :=
  match ix 16 t with
  | some i => s.modLook fun l => { l with trig := l.trig.set i (f l.trig[i]) }
  | none => s

/-- Whether a firing falls within HOLDOFF of the trigger's last capture. -/
def State.heldOff (s : State) (f : Firing) : Bool :=
  match ix 16 f.trigger with
  | some i => match s.look.trig[i].last with
    | some t => decide (f.tTrig < t + trigPar s.settings f.trigger 4 * sec)
    | none => false
  | none => false

/-- A firing opens a capture of [T_TRIG − PRE, T_TRIG + POST] (R432). -/
def State.openCapture (s : State) (f : Firing) : State :=
  let ss := s.settings
  let z := trigZone ss f.trigger
  let src := trigPar ss f.trigger 0
  let c : Capture := {
    id := s.look.nextCapture, zone := z, port := zonePort ss z, trigger := f.trigger, source := src
    detail := if src = 1 ∨ src = 2 then f.detail else 0
    sections := trigPar ss f.trigger 1, tTrig := f.tTrig, tStart := f.tTrig - trigPar ss f.trigger 2 * ms
    tEnd := f.tTrig + trigPar ss f.trigger 3 * ms, held := false, pinnedAt := 0, flags := 0, plan := ss, launches := [], raw := [], curd := []
    rawR := none, curdR := none }
  (s.modLook fun l => { l with captures := l.captures ++ [c], nextCapture := l.nextCapture + 1 }).modTrig f.trigger fun t => { t with
    last := some f.tTrig }

/-- A trigger counts a failed firing: EV240 (R432, R433). -/
def State.trigFails (s : State) (t : Nat) : State := (s.modTrig t fun x => { x with failed := x.failed + 1 }).raise 240

/-- An automatic firing: ignored within HOLDOFF, failing while 64 captures are held (R431, R433). -/
def State.fireAuto (s : State) (f : Firing) : State :=
  if !(trigSet s.settings f.trigger) then s
  else if s.heldOff f then s.modTrig f.trigger fun x => { x with ignored := x.ignored + 1 }
  else if s.look.captures.length ≥ 64 then s.trigFails f.trigger
  else s.openCapture f

/-- The TIME triggers still to fire, with their instants. -/
def State.timeTriggers (s : State) : List (Nat × Time) :=
  ((List.finRange 16).filter fun i => trigSet s.settings i.val && trigPar s.settings i.val 0 == 3 && !s.look.trig[i].timeDone).map fun i =>
    (i.val, unstamp (trigPar s.settings i.val 6))

/-- The next firing that is due: of an EVENT or VAT trigger, or of the earliest TIME trigger at its instant. -/
def triggerFiring (s : State) : State :=
  match s.look.due with
  | f :: rest => (s.modLook fun l => { l with due := rest }).fireAuto f
  | [] =>
    match s.timeTriggers with
    | [] => s
    | x :: xs =>
      let b := xs.foldl (fun (a : Nat × Time) y => if y.2 < a.2 then y else a) x
      ((s.untilDev b.2).modTrig b.1 fun t => { t with timeDone := true }).fireAuto { trigger := b.1, tTrig := b.2, detail := 0 }

/-- TRIGGER_FIRING (R431). -/
def execTriggerFiring (s : State) : Host.Outcome State Fault Refusal := .next (triggerFiring s)

/-! ### Pinning and release (R432 to R434) -/

/-- Byte rate of a port's raw ring as a fraction (R428). -/
def rawRate (ss : Settings) : Nat × Nat := (6 * fsHz ss, 1)
/-- Byte rate of a zone's curd-domain ring as a fraction (R430). -/
def curdRate (ss : Settings) (z : Nat) : Nat × Nat := (fsHz ss * (16 + 2 * curdBins ss z), planS ss (zonePort ss z))

/-- First and last region that a window covers in a ring written at a rate. -/
def regionsOf (rate : Nat × Nat) (a b : Time) : Nat × Nat :=
  let at' := fun (t : Time) => t * rate.1 / (rate.2 * sec * 2097152)
  (at' a, at' b)

/-- How many regions of a span no listed span covers. -/
def uncovered (x : Nat × Nat) (others : List (Nat × Nat)) : Nat :=
  ((List.range (x.2 + 1 - x.1)).filter fun i => !(others.any fun y => decide (y.1 ≤ x.1 + i) && decide (x.1 + i ≤ y.2))).length

/-- Spans held by other captures on a port's raw ring. -/
def rawSpans (cs : List Capture) (p : Nat) : List (Nat × Nat) := (cs.filter fun c => c.port == p).filterMap (·.rawR)
/-- Spans held by other captures on a zone's curd-domain ring. -/
def curdSpans (cs : List Capture) (z : Nat) : List (Nat × Nat) := (cs.filter fun c => c.zone == z).filterMap (·.curdR)

/-- Regions lost by a port's raw ring. -/
def State.rawLost (s : State) (p : Nat) : Nat := match ix 24 p with | some i => s.look.rawShrunk[i] | none => 0
/-- A change to the regions a raw ring has lost. -/
def State.setRawLost (s : State) (p n : Nat) : State :=
  match ix 24 p with | some i => s.modLook fun l => { l with rawShrunk := l.rawShrunk.set i n } | none => s

/-- The instant of the oldest row that a ring of `regions` regions holds, `lost` of them pinned. -/
def oldestRow (now : Time) (since : Option Time) (depth : Time) (regions lost : Nat) (rate : Nat × Nat) : Time :=
  let reach := if lost = 0 then depth else min depth ((regions - lost - 1) * 2097152 * rate.2 * sec / max 1 rate.1)
  match since with
  | some t => max t (now - reach)
  | none => now

/-- Pins the ring regions of a capture's window, or fails the capture (R432, R434). -/
def capturePinning (id : Nat) (s0 : State) : State :=
  match s0.look.captures.find? fun c => c.id == id && !c.held with
  | none => s0
  | some c =>
    let s := s0.untilDev c.tEnd
    let ss := s.settings
    let now := s.time.dev
    let raw := c.sections % 2 == 1 && ss.mode c.port 3
    let curd := c.sections / 2 % 2 == 1 && ss.zone c.zone 0x1708 != 0
    let zr := s.zoneRt c.zone
    let cLost := match zr with | some r => r.curdShrunk | none => 0
    let oldR := oldestRow now (match ix 24 c.port with | some i => s.look.rawSince[i] | none => none) (ss.port c.port 0x0202 * ms)
      (rawRegions ss c.port) (s.rawLost c.port) (rawRate ss)
    let oldC := oldestRow now (zr.bind (·.curdSince)) (ss.zone c.zone 0x1708 * ms) (curdRegions ss c.zone) cLost (curdRate ss c.zone)
    let start := max c.tStart (max (if raw then oldR else 0) (if curd then oldC else 0))
    let others := s.look.captures.filter fun x => x.held
    let rR := regionsOf (rawRate ss) start c.tEnd
    let rC := regionsOf (curdRate ss c.zone) start c.tEnd
    let needR := if raw then uncovered rR (rawSpans others c.port) else 0
    let needC := if curd then uncovered rC (curdSpans others c.zone) else 0
    let avail := ss.dev 0x0215 - s.look.reserveUsed
    let shortR := needR - avail
    let shortC := needC - (avail - needR)
    let fail := (shortR ≠ 0 && decide (rawRegions ss c.port < 16 + s.rawLost c.port + shortR)) ||
      (shortC ≠ 0 && decide (curdRegions ss c.zone < 16 + cLost + shortC))
    if fail then (s.modLook fun l => { l with captures := l.captures.filter fun x => x.id != id }).trigFails c.trigger
    else
      let inWin := fun (t : Time) => decide (start ≤ t) && decide (t ≤ c.tEnd)
      let rows := match zr with | some r => if curd then r.curdRows.filter fun x => inWin x.1 else [] | none => []
      let lead := frameTime ss c.port
      let launches := match ix 24 c.port with
        | some i => (s.look.launches[i]).filter fun t => decide (start ≤ t.stamp + lead) && decide (t.stamp ≤ c.tEnd)
        | none => []
      let gap := s.look.histGap.any fun g => g.1 == c.port && inWin g.2
      let chg := s.look.planChg.any fun g => g.1 == c.port && inWin g.2
      let amp := rows.any fun r => r.2.2.1.getLsbD 2
      let fl := b01 (decide (c.tStart < start)) + 2 * b01 gap + 4 * b01 chg + 8 * b01 raw + 16 * b01 curd + 32 * b01 amp
      let done : Capture := { c with
        tStart := start, held := true, pinnedAt := s.time.mono, flags := BitVec.ofNat 8 fl, plan := ss, launches := launches, curd := rows
        raw := match ix 24 c.port with | some i => (s.look.raw[i]).filter (fun x => decide (start < x.t + x.words.length * sec / fsHz ss) && decide (x.t ≤ c.tEnd)) | none => []
        rawR := if raw then some rR else none, curdR := if curd then some rC else none }
      let s1 := s.modLook fun l => { l with
        captures := l.captures.map fun x => if x.id == id then done else x
        reserveUsed := l.reserveUsed + (needR + needC - shortR - shortC) }
      ((s1.setRawLost c.port (s.rawLost c.port + shortR)).modZone c.zone fun r => { r with curdShrunk := cLost + shortC }).raise 240

/-- CAPTURE_PINNING (R432). -/
def execCapturePinning (c : Nat) (s : State) : Host.Outcome State Fault Refusal := .next (s.cave (capturePinning c))

/-- A capture is released: regions that no other capture holds return to the reserve while it is below LB_RESERVE, else to their ring (R433). -/
def State.releaseCapture (s : State) (id : Nat) : State :=
  match s.look.captures.find? fun c => c.id == id && c.held with
  | none => s
  | some c =>
    let others := s.look.captures.filter fun x => x.held && x.id != id
    let freeR := match c.rawR with | some x => uncovered x (rawSpans others c.port) | none => 0
    let freeC := match c.curdR with | some x => uncovered x (curdSpans others c.zone) | none => 0
    let back := min s.look.reserveUsed (freeR + freeC)
    let ringR := freeR - back
    let ringC := freeC - (back - freeR)
    let s1 := s.modLook fun l => { l with captures := l.captures.filter (fun x => x.id != id), reserveUsed := l.reserveUsed - back }
    (s1.setRawLost c.port (s1.rawLost c.port - ringR)).modZone c.zone fun r => { r with curdShrunk := r.curdShrunk - ringC }

/-- CAP_HOLD after its pinning a capture is released (R433). -/
def capHoldExpiry (id : Nat) (s : State) : State :=
  let hold := s.settings.dev 0x0217
  match s.look.captures.find? fun c => c.id == id && c.held with
  | some c => if hold = 0 then s else (s.until (c.pinnedAt + hold * sec)).releaseCapture id
  | none => s

/-- CAP_HOLD_EXPIRY (R433). -/
def execCapHoldExpiry (c : Nat) (s : State) : Host.Outcome State Fault Refusal := .next (capHoldExpiry c s)

/-- A command trigger fires (R431, R433): the status when it is refused. -/
def State.fireCommand (s : State) (t : Nat) : Status × State :=
  let f : Firing := { trigger := t, tTrig := s.time.dev, detail := 0 }
  let ss := s.settings
  let z := trigZone ss t
  let p := zonePort ss z
  let secs := trigPar ss t 1
  let len := (trigPar ss t 2 + trigPar ss t 3) * ms
  let a := f.tTrig - trigPar ss t 2 * ms
  let others := s.look.captures.filter fun x => x.held
  let needR := if secs % 2 = 1 ∧ ss.mode p 3 then uncovered (regionsOf (rawRate ss) a (a + len)) (rawSpans others p) else 0
  let needC := if secs / 2 % 2 = 1 ∧ ss.zone z 0x1708 ≠ 0 then uncovered (regionsOf (curdRate ss z) a (a + len)) (curdSpans others z) else 0
  let avail := ss.dev 0x0215 - s.look.reserveUsed
  let shortR := needR - avail
  let shortC := needC - (avail - needR)
  let cLost := match s.zoneRt z with | some r => r.curdShrunk | none => 0
  if s.look.captures.length ≥ 64 then (0x030A, s)
  else if s.heldOff f then (0, s.modTrig t fun x => { x with ignored := x.ignored + 1 })
  else if (shortR ≠ 0 && decide (rawRegions ss p < 16 + s.rawLost p + shortR)) ||
      (shortC ≠ 0 && decide (curdRegions ss z < 16 + cLost + shortC)) then (0x0304, s)
  else (0, s.openCapture f)

/-! ### Dumps (R435, R436) -/

/-- Sample instants of a capture's RAW section. -/
def Capture.rawSamples (c : Capture) : Nat := if c.rawR.isSome then (c.tEnd - c.tStart) * fsHz c.plan / sec else 0

/-- SAMPLE0 of a launch: the index in RAW of the first sample at or after its stamp plus PROBE_DELAY (R107, R436). -/
def Capture.sample0 (c : Capture) (t : PingTag) : Int :=
  let d : Int := (t.stamp + quarters (c.plan.port c.port 0x100A) : Nat) - (c.tStart : Int)
  Int.neg (Int.neg (d * fsHz c.plan) / sec)

/-- The LAUNCH section. -/
def Capture.launchBytes (c : Capture) : List Byte :=
  c.launches.flatMap fun t => stampB t.stamp ++ leI 8 (c.sample0 t) ++ le 1 t.group ++ le 1 (b01 t.derived + 2 * b01 (!t.launched)) ++ zeros 2

/-- The CURD section (R429). -/
def Capture.curdBytes (c : Capture) : List Byte :=
  c.curd.flatMap fun r => stampB r.1 ++ le 1 r.2.1 ++ [r.2.2.1] ++ zeros 2 ++ r.2.2.2.flatMap fun v => leI 2 v

/-- The word of a capture's raw history at sample instant `i`: that of the frame which holds the instant; one that no frame of the port covered is open
(log entry 123, DESIGN CHOICE). -/
def Capture.rawWord (c : Capture) (i : Nat) : BitVec 48 :=
  let fs := fsHz c.plan
  let at' := c.tStart + i * sec / fs
  let idx := fun (x : RawChunk) => (2 * (at' - x.t) * fs + sec) / (2 * sec)
  match c.raw.find? fun x => decide (x.t ≤ at') && decide (idx x < x.words.length) with
  | some x => x.words.getD (idx x) 0
  | none => Config.rawHistory c.port c.id i

/-- The RAW section: 6 bytes per sample instant (R428). -/
def Capture.rawBytes (c : Capture) : List Byte := (List.range c.rawSamples).flatMap fun i => le 6 (c.rawWord i).toNat

/-- The lookback header (R435). -/
def Capture.header (c : Capture) : List Byte :=
  let ss := c.plan
  let p := c.port
  let curd := c.curdR.isSome
  le 2 0x0043 ++ [1] ++ [c.flags] ++ le 4 c.id ++ le 2 c.zone ++ le 1 p ++ le 1 c.source ++ le 4 c.detail ++ stampB c.tTrig ++ stampB c.tStart ++
    stampB c.tEnd ++ le 8 c.rawSamples ++ le 2 ss.fsN ++ le 1 (planNBin ss p) ++ le 1 (ss.port p 0x1004) ++ le 1 (planG ss p) ++ le 1 (planD ss p) ++
    le 2 (planGauge ss p) ++ le 4 (planS ss p) ++ le 2 (ss.port p 0x1005) ++ leI 2 (planFOff ss p) ++ le 2 (ss.port p 0x1009) ++
    le 1 (ss.port p 0x100A) ++ [0] ++ le 4 c.launches.length ++ le 4 (if curd then zoneFirst ss c.zone else 0) ++
    le 4 (if curd then curdBins ss c.zone else 0) ++ le 4 c.curd.length ++ le 8 (6 * c.rawSamples) ++ le 8 c.curdBytes.length ++
    le 4 c.launchBytes.length ++ le 2 (ss.port p 0x0204) ++ zeros 10

/-- The lookback data records of a section, each of at most 1 MiB. -/
def sectionRecs (id : Nat) (sc : Section) (bs : List Byte) : List Rec :=
  (List.range (ceilDiv bs.length 1048576)).map fun k => .lookData id sc (k * 1048576) ((bs.drop (k * 1048576)).take 1048576)

/-- The lookback stream of a zone. -/
def lookStream (z : Nat) : Nat := 8192 + z

/-- Delivers a capture on its lookback stream (R435). -/
def State.dumpCapture (s : State) (c : Capture) : State :=
  let recs : List Rec := [.lookHead c.header] ++ sectionRecs c.id .launch c.launchBytes ++ sectionRecs c.id .raw c.rawBytes ++
    sectionRecs c.id .curd c.curdBytes
  recs.foldl (fun u r => u.push (lookStream c.zone) (some c.zone) r 2 false) s

/-! ### Re-analysis (R437 to R439) -/

/-- The settings a re-analysis runs under: those of the capture with its parameters changed, for the capture's port and zone alone. -/
def Capture.jobSettings (c : Capture) (params : Settings) (products : Nat) : Settings :=
  let base : Settings := c.plan.filter fun x =>
    x.key.kind == .device || x.key.kind == .emitter || (x.key.kind == .port && x.key.inst == c.port) || (x.key.kind == .zone && x.key.inst == c.zone)
  let s1 : Settings := params.foldl (fun (u : Settings) x =>
    let k := x.key.code / 256
    u.put { kind := if k = 0x12 then .port else .zone, inst := if k = 0x12 then c.port else c.zone, sub := x.key.sub, code := x.key.code } x.val) base
  let zk := fun (code : Nat) => ({ kind := .zone, inst := c.zone, sub := 0, code := code } : SetKey)
  let last := zoneLast c.plan c.zone + planGauge c.plan c.port - planGauge s1 c.port
  ((((((s1.put (zk 0x1702) [zoneFirst c.plan c.zone, last]).put (zk 0x1703) [products]).put (zk 0x1705) [0]).put (zk 0x1707) [0]).put
    (zk 0x1305) [0]).put (zk 0x170D) [2 ^ 60])

/-- Lane `k` of a launch of a re-analysis from RAW: samples outside the window and void codes are void (R75, R438). -/
def Capture.rawLane (c : Capture) (s0 : Int) (n k : Nat) : List LaneSample :=
  (List.range n).map fun i =>
    let j := s0 + i
    let code := signed 12 ((c.rawWord j.toNat).toNat / 4096 ^ k)
    if j < 0 ∨ (c.rawSamples : Int) ≤ j ∨ code = voidCode then { LaneSample.blank with tag := 3 } else { LaneSample.blank with code := code }

/-- The pings of a re-analysis from RAW: their bins and void samples (R107 to R116). -/
def Capture.rawPings (c : Capture) (cfg : Settings) : List (PingTag × List (List ToneBin) × List VoidAt) :=
  let n := pingSpan cfg c.port
  c.launches.map fun t =>
    let ls := (List.range 4).map (c.rawLane (c.sample0 t) n)
    (t, harpBins cfg c.port t.group ls, voidsOf ls n)

/-- A zone's runtime state for a re-analysis. -/
def ZoneRt.fresh (z : Nat) : ZoneRt :=
  { id := z, state := 0, flags := 0, resetPending := false, frameSeq := [], blockSeq := [], opens := [], chains := [], lastOut := none, lastStrain := [], bands := []
    resets := [], featEnd := none, gains := []
    runs := [], inRun := false, shedAt := none, vatSeq := [], drainUntil := none, gone := [], curdSince := none, curdShrunk := 0, curdRows := [] }

/-- The state that a re-analysis works in: the capture's port and zone as at the start of a strain epoch, with nothing else to deliver to. -/
def State.scratch (s : State) (c : Capture) (cfg : Settings) : State :=
  let s1 : State := { s with
    settings := cfg, zones := [ZoneRt.fresh c.zone], streams := { s.streams with queue := [] }
    ladle := { s.ladle with place := Placement.reset }, boot := { s.boot with pwrStat := 0 } }
  s1.onPort c.port fun q => { q with plan := cfg, groups := [], lastGamma := [], lastSense := none, lastValid := [], dph := DelayPh.reset, stepNext := false }

/-- The output-grid instants of an EXACT job's window (R149). -/
def Capture.instants (c : Capture) (cfg : Settings) : List Time :=
  let f := max 1 (cfg.zone c.zone 0x1302)
  let i0 := (c.tStart * f + sec - 1) / sec
  (List.range (c.tEnd * f / sec + 1 - i0)).map fun k => (divEven (((i0 + k) * sec : Nat) : Int) f).toNat

/-- The curd frames that a re-analysis makes (R438). -/
def State.jobFrames (s : State) (c : Capture) (params : Settings) (source products : Nat) : List CurdFrame :=
  let cfg := c.jobSettings params products
  let s1 := s.scratch c cfg
  match ix 24 c.port, ix 4096 c.zone with
  | some p, some z =>
    let epoch := s.epochOf c.port
    let s2 := if source = 1 then
        (c.rawPings cfg).foldl (fun u x => u.pingCore p x.1 x.2.1 x.2.2 epoch none false) s1
      else
        let f := zoneFirst c.plan c.zone
        c.curd.foldl (fun u r =>
          let amp := r.2.2.1.getLsbD 2
          let mark : Int := if amp then 0 else -32768
          let tag : PingTag := {
            group := r.2.1, old := false, cfg := none, stamp := r.1, at' := 0, calX := none, calY := none, derived := r.2.2.1.getLsbD 0, launched := !(r.2.2.1.getLsbD 1), restart := false }
          u.pingCore p tag [] [] epoch (some (List.replicate f mark ++ r.2.2.2)) amp) s1
    let s3 := s2.modZone c.zone fun r => { r with chains := r.chains.map fun x => { x with closed := true } }
    let s4 := if zoneExact cfg c.zone then (c.instants cfg).foldl (fun u t => exactOutput z t u) s3 else s3
    let s5 := s4.closeAll c.zone false
    s5.streams.queue.filterMap fun it => match it.record with
      | .curd f => some { f with reanalysis := true, capture := c.id }
      | _ => none
  | _, _ => []

/-- A job ends: its frames leave as BULK work on the lookback stream, all of them, or, preempted, those it had made so far (a free
number of them); EV241 (R438, R439). -/
def State.endJob (s : State) (j : Nat × Nat × Settings × Nat × Nat) (preempted : Bool) : State :=
  let (id, _, params, source, products) := j
  let s1 := s.modLook fun l => { l with jobs := l.jobs.erase j }
  match s.look.captures.find? fun c => c.id == id with
  | none => s1.raise 241
  | some c =>
    let fs := s.jobFrames c params source products
    let (v, s2) := if preempted then s1.fresh else (0, s1)
    let out := if preempted then fs.take (v.toNat % (fs.length + 1)) else fs
    (out.foldl (fun u f => u.push (lookStream c.zone) (some c.zone) (.curd f) 2 false) s2).raise 241

/-- The oldest job ends. -/
def reanalysisEnd (preempted : Bool) (s : State) : State :=
  match s.look.jobs with
  | [] => s
  | j :: _ => s.endJob j preempted

/-- REANALYSIS_END (R438). -/
def execReanalysisEnd (preempted : Bool) (s : State) : Host.Outcome State Fault Refusal := .next (s.cave (reanalysisEnd preempted))

/-- The pipeline of a job is needed (R439). -/
def State.preempt (s : State) (pipe : Nat) : State :=
  match s.look.jobs.find? fun j => j.2.1 == pipe with
  | some j => s.endJob j true
  | none => s

end Sys2Proof.Machine
end

