-- ==== Sys2Proof/Machine/Vat.lean ====
section
/-! DEFINITION. The Vat engines: register file, hoops, accumulator, search, control flow, Cave transfers, invocations and faults
(R316 to R353). Each row executes the instruction at its engine's PC when that instruction is the row's own. -/

namespace Sys2Proof.Machine

/-! ### Registers (R319, R320) -/

/-- The accumulator's true value OVC × 2^40 + ACC (R328). -/
def Engine.trueVal (e : Engine) : Int := e.ovc.toInt * 2 ^ 40 + e.acc.toInt

/-- Index of a family of `n` registers from its first number. -/
def regIx (n base r : Nat) : Option (Fin n) := if base ≤ r then ix n (r - base) else none

/-- Value of register number `r` of engine `n` (R319). -/
def Engine.reg (e : Engine) (n r : Nat) : Word16 :=
  match ix 8 r, regIx 8 8 r, regIx 8 16 r, regIx 4 24 r, regIx 4 28 r with
  | some i, _, _, _, _ => e.d[i]
  | _, some i, _, _, _ => (e.p[i]).setWidth 16
  | _, _, some i, _, _ => e.s[i]
  | _, _, _, some i, _ => (e.hb[i]).setWidth 16
  | _, _, _, _, some i => e.hl[i]
  | _, _, _, _, _ =>
    let size := fun (k : Nat) => match ix 4 k with | some i => e.winSize[i] | none => 0
    match r with
    | 32 => e.acc.extractLsb' 0 16
    | 33 => e.acc.extractLsb' 16 16
    | 34 => e.ovc ++ e.acc.extractLsb' 32 8
    | 35 => e.maxv
    | 36 => e.maxi
    | 37 => e.minv
    | 38 => e.mini
    | 39 => e.mmcnt
    | 40 => e.flags
    | 41 => BitVec.ofNat 16 e.opc
    | 42 => BitVec.ofNat 16 (e.opc / 65536)
    | 43 => e.inv.extractLsb' 0 16
    | 44 => e.inv.extractLsb' 16 16
    | 53 => BitVec.ofNat 16 n
    | 54 => match e.loops with | l :: _ => BitVec.ofNat 16 l.count | [] => 0
    | _ =>
      if 45 ≤ r ∧ r ≤ 52 then (if (r - 45) % 2 = 0 then (size ((r - 45) / 2)).extractLsb' 0 16 else (size ((r - 45) / 2)).extractLsb' 16 16)
      else 0

/-- OVC as it becomes `o`: AOV sets when it changes from zero (R328). -/
def Engine.setOvc (e : Engine) (o : BitVec 8) : Engine :=
  { e with ovc := o, flags := if e.ovc = 0 ∧ o ≠ 0 then e.flags ||| 0x20 else e.flags }

/-- Writes register number `r`: none for an RO or reserved number (R320). -/
def Engine.setReg (e : Engine) (r : Nat) (v : Word16) : Option Engine :=
  match ix 8 r, regIx 8 8 r, regIx 8 16 r, regIx 4 24 r, regIx 4 28 r with
  | some i, _, _, _, _ => some { e with d := e.d.set i v }
  | _, some i, _, _, _ => some { e with p := e.p.set i (v.setWidth 15) }
  | _, _, some i, _, _ => some { e with s := e.s.set i v }
  | _, _, _, some i, _ => some { e with hb := e.hb.set i (v.setWidth 15) }
  | _, _, _, _, some i => some { e with hl := e.hl.set i (if 32768 < v.toNat then 32768 else v) }
  | _, _, _, _, _ =>
    match r with
    | 32 => some { e with acc := (e.acc.extractLsb' 16 24) ++ v }
    | 33 => some { e with acc := (e.acc.extractLsb' 32 8) ++ v ++ (e.acc.extractLsb' 0 16) }
    | 34 => some ({ e with acc := (v.extractLsb' 0 8) ++ (e.acc.extractLsb' 0 32) }.setOvc (v.extractLsb' 8 8))
    | 35 => some { e with maxv := v }
    | 36 => some { e with maxi := v }
    | 37 => some { e with minv := v }
    | 38 => some { e with mini := v }
    | 39 => some { e with mmcnt := v }
    | 40 => some { e with flags := v &&& 0x01FF }
    | _ => none

/-- Dn. -/
def Engine.dn (e : Engine) (n : Nat) : Word16 := match ix 8 n with | some i => e.d[i] | none => 0
/-- Dn written. -/
def Engine.setDn (e : Engine) (n : Nat) (v : Word16) : Engine := match ix 8 n with | some i => { e with d := e.d.set i v } | none => e
/-- The pair Dn:Dn+1 as an unsigned number, Dn the low half (log entry 40, DEDUCED). -/
def Engine.pair (e : Engine) (n : Nat) : Nat := (e.dn n).toNat + 65536 * (e.dn (n + 1)).toNat

/-! ### Memory, descriptors, hoops (R322 to R327) -/

/-- Word `a` of data memory, bytes 2a and 2a + 1 (R322). -/
def Engine.word (e : Engine) (a : Nat) : Word16 := (e.dmem.read (2 * a + 1)) ++ (e.dmem.read (2 * a))
/-- Word `a` of data memory written. -/
def Engine.setWord (e : Engine) (a : Nat) (v : Word16) : Engine :=
  { e with dmem := (e.dmem.write (2 * a) (v.extractLsb' 0 8)).write (2 * a + 1) (v.extractLsb' 8 8) }

/-- Pointer of a descriptor. -/
def descPtr (desc : Nat) : Nat := desc / 4
/-- Pp. -/
def Engine.ptr (e : Engine) (p : Nat) : Nat := match ix 8 p with | some i => (e.p[i]).toNat | none => 0

/-- Pointer p moved by `step` (R325, R326). -/
def Engine.moved (e : Engine) (p : Nat) (step : Int) : Nat :=
  let linear := ((e.ptr p + step) % 32768).toNat
  match ix 4 p with
  | none => linear
  | some i =>
    if e.hl[i] = 0 then linear
    else
      let o := ((e.ptr p : Int) - (e.hb[i]).toNat) % 32768
      (((e.hb[i]).toNat + (o + step) % (e.hl[i]).toNat) % 32768).toNat

/-- Step of a descriptor's modify, times `scale`. -/
def Engine.stepOf (e : Engine) (desc : Nat) (scale : Int) : Int :=
  scale * (match desc % 4 with
    | 0 => 0
    | 1 => 1
    | 2 => -1
    | _ => match ix 8 (descPtr desc) with | some i => (e.s[i]).toInt | none => 0)

/-- Whether an access through pointer p lies outside its hoop (R327). -/
def Engine.outside (e : Engine) (p : Nat) : Bool :=
  match ix 4 p with
  | none => false
  | some i => e.hl[i] ≠ 0 && decide ((e.hl[i]).toNat ≤ (((e.ptr p : Int) - (e.hb[i]).toNat) % 32768).toNat)

/-- HOUT for an access through pointer p (R327). -/
def Engine.noteHout (e0 : Engine) (p : Nat) (e : Engine) : Engine := if e0.outside p then { e with flags := e.flags ||| 0x80 } else e

/-- Applies a descriptor's modify, with HOUT for its access. Modify 0b00 leaves the pointer as it stands (R323). -/
def Engine.modify (e0 : Engine) (desc : Nat) (scale : Int) (e : Engine) : Engine :=
  let e1 := e0.noteHout (descPtr desc) e
  if desc % 4 = 0 then e1
  else match ix 8 (descPtr desc) with
    | some i => { e1 with p := e1.p.set i (BitVec.ofNat 15 (e0.moved (descPtr desc) (e0.stepOf desc scale))) }
    | none => e1

/-- Applies the modifies of slot X and slot Y: on one pointer, only slot Y's (R324). Each takes the pointer from before the instruction. -/
def Engine.modify2 (e0 : Engine) (dx dy : Nat) (e : Engine) : Engine :=
  e0.modify dy 1 (if descPtr dx = descPtr dy then e0.noteHout (descPtr dx) e else e0.modify dx 1 e)

/-! ### Operands (R336) -/

/-- A 6-bit operand: memory by descriptor, or a data register; none for a register form with bits [4:3] set. -/
inductive VatOp where
  | mem (desc : Nat)
  | dreg (n : Nat)

/-- Reads a 6-bit operand field. -/
def vatOp (f : Nat) : Option VatOp := if f < 32 then some (.mem f) else if f < 40 then some (.dreg (f - 32)) else none

/-- Value of an operand. -/
def VatOp.val (e : Engine) : VatOp → Word16
  | .mem d => e.word (e.ptr (descPtr d))
  | .dreg n => e.dn n
/-- Addresses that an operand touches, for `scale` words. -/
def VatOp.addrs (e : Engine) (pairs : Bool) : VatOp → List Nat
  | .mem d => if pairs then [e.ptr (descPtr d), e.moved (descPtr d) 1] else [e.ptr (descPtr d)]
  | .dreg _ => []
/-- The modify of an operand. -/
def VatOp.modify (e0 : Engine) (scale : Int) (o : VatOp) (e : Engine) : Engine :=
  match o with
  | .mem d => e0.modify d scale e
  | .dreg _ => e

/-! ### Accumulator (R328 to R331) -/

/-- The true value as it becomes `v`: split into ACC and OVC, OVC held at its limits with ALOST. -/
def Engine.setTrue (e : Engine) (v : Int) : Engine :=
  let o := (v + 2 ^ 39) / 2 ^ 40
  let e1 := { e with acc := BitVec.ofInt 40 v }
  if o > 127 then { e1.setOvc 127 with flags := (e1.setOvc 127).flags ||| 0x40 }
  else if o < -128 then { e1.setOvc (-128) with flags := (e1.setOvc (-128)).flags ||| 0x40 }
  else e1.setOvc (BitVec.ofInt 8 o)

/-- A shifted product (R328): MODE 0 SS, 1 SU, 2 US, 3 UU; PS 0, 2, 4 or 8 bits. -/
def vatProduct (mode ps : Nat) (x y : Word16) : Int :=
  let xv : Int := if mode < 2 then x.toInt else x.toNat
  let yv : Int := if mode % 2 = 0 then y.toInt else y.toNat
  xv * yv / (2 ^ (match ps with | 0 => 0 | 1 => 2 | 2 => 4 | _ => 8) : Int)

/-- floor(V / 2^SH) held within [lo, hi], or the limit on OVC's side when the value is lost (R330); SAT set when it was held. -/
def Engine.accStore (e : Engine) (sh : Nat) (lo hi : Int) : Int × Engine :=
  let q := e.trueVal / (2 ^ sh : Int)
  if e.flags.getLsbD 6 then (if e.ovc.toInt < 0 then lo else hi, { e with flags := e.flags ||| 0x10 })
  else if q < lo then (lo, { e with flags := e.flags ||| 0x10 })
  else if hi < q then (hi, { e with flags := e.flags ||| 0x10 })
  else (q, e)

/-! ### Outcome of an instruction -/

/-- What an instruction comes to: it completes (the engine with its results, the PC that follows unless a loop ends, whether a branch was
taken), it waits, it faults, it ends the invocation with a length of output, or it completes and raises the user event. -/
inductive VatRes where
  | go (e : Engine)
  | jump (e : Engine) (pc : Nat)
  | stall
  | hold
  | fault (code : Nat)
  | halt (len : Nat)
  | user (e : Engine)

/-- Whether a data-memory word lies in the range of an outstanding transfer (R341). -/
def Engine.locked (e : Engine) (a : Nat) : Bool := e.transfers.any fun t => decide ((a + 32768 - t.addr % 32768) % 32768 < t.len)

/-- Completes, unless an access is interlocked (R341). -/
def Engine.guarded (e : Engine) (as : List Nat) (r : VatRes) : VatRes := if as.any e.locked then .stall else r

/-- Bits an opcode's format shows (R336), beside the opcode itself. -/
def vatMask (op : Nat) (w : Word) : Nat :=
  match op with
  | 0x05 | 0x06 | 0x07 => 0x03FFFC00
  | 0x08 | 0x0A | 0x0B | 0x0C => 0x03FF8000
  | 0x09 => 0x03E00000
  | 0x10 | 0x12 => 0x03FC0000
  | 0x11 | 0x13 => 0x03FFFC00
  | 0x14 => 0x03F0FFFF
  | 0x15 => 0x03FFC000
  | 0x18 => 0x03FFE000
  | 0x19 => 0x03FFFFFF
  | 0x1A => 0x03F00000
  | 0x20 => 0x03C01FFF
  | 0x21 => 0x00001FFF
  | 0x23 => if bit w 25 then 0x03FF8007 else 0x03FFFFFF
  | 0x28 => 0x03FFC000
  | 0x29 | 0x01 => 0x00000003
  | 0x02 => 0x000000FF
  | _ => 0

/-- Whether an opcode is defined (R337). -/
def vatDefined (op : Nat) : Bool :=
  [0x00, 0x01, 0x02, 0x04, 0x05, 0x06, 0x07, 0x08, 0x09, 0x0A, 0x0B, 0x0C, 0x10, 0x11, 0x12, 0x13, 0x14, 0x15, 0x18, 0x19, 0x1A, 0x1B, 0x20,
    0x21, 0x22, 0x23, 0x28, 0x29].contains op

/-- Whether a bit is set where R336 shows none. -/
def vatStray (op : Nat) (w : Word) : Bool := (w.toNat % 2 ^ 26) &&& (0x03FFFFFF - vatMask op w) ≠ 0

/-- Whether a BR condition holds (R334). -/
def Engine.cond (e : Engine) (c : Nat) : Bool :=
  let f := e.flags
  let z := f.getLsbD 0; let n := f.getLsbD 1; let cy := f.getLsbD 2; let v := f.getLsbD 3
  match c with
  | 0 => true
  | 1 => z
  | 2 => !z
  | 3 => n
  | 4 => !n
  | 5 => !z && n == v
  | 6 => z || n != v
  | 7 => cy
  | 8 => !cy
  | 9 => v
  | 10 => !v
  | 11 => e.trueVal == 0
  | 12 => e.trueVal != 0
  | 13 => decide (e.trueVal < 0)
  | 14 => f.getLsbD 5
  | _ => !e.transfers.isEmpty

/-- Operations that an instruction costs (R337). -/
def Engine.cost (e : Engine) (op : Nat) (w : Word) : Nat :=
  match op with
  | 0x20 => if e.cond (fld w 22 4) then 2 else 1
  | 0x21 | 0x22 => 2
  | _ => 1

/-! ### Instructions -/

/-- NOP. -/
def vatNop (e : Engine) (_w : Word) : VatRes := .go e

/-- HALT (R342): waits for the outstanding transfers. -/
def vatHalt (e : Engine) (w : Word) : VatRes :=
  if !e.transfers.isEmpty then .hold
  else
    let n := e.pair (2 * fld w 0 2)
    if e.outBytes < n then .fault 6 else .halt n

/-- EVT (R351, R353). -/
def vatEvt (e : Engine) (w : Word) : VatRes := .user { e with stat := setFld (setBit e.stat 4) 16 8 (fld w 0 8) }

/-- CLRA: ACC, OVC and AOV cleared (R321, R328). -/
def vatClra (e : Engine) (_w : Word) : VatRes := .go { e with acc := 0, ovc := 0, flags := e.flags &&& 0xFFDF }

/-- The modifies of two operands, slot X then slot Y. -/
def VatOp.modify2 (e0 : Engine) (x y : VatOp) (e : Engine) : Engine :=
  match x, y with
  | .mem dx, .mem dy => e0.modify2 dx dy e
  | _, _ => y.modify e0 1 (x.modify e0 1 e)

/-- MAC, MSU and MUL over a combination of the true value and the product. -/
def vatMulAcc (f : Int → Int → Int) (e : Engine) (w : Word) : VatRes :=
  match vatOp (fld w 16 6), vatOp (fld w 10 6) with
  | some x, some y =>
    let r := f e.trueVal (vatProduct (fld w 24 2) (fld w 22 2) (x.val e) (y.val e))
    e.guarded (x.addrs e false ++ y.addrs e false) (.go (VatOp.modify2 e x y (e.setTrue r)))
  | _, _ => .fault 3

/-- MAC. -/
def vatMac (e : Engine) (w : Word) : VatRes := vatMulAcc (fun v p => v + p) e w
/-- MSU. -/
def vatMsu (e : Engine) (w : Word) : VatRes := vatMulAcc (fun v p => v - p) e w
/-- MUL. -/
def vatMul (e : Engine) (w : Word) : VatRes := vatMulAcc (fun _ p => p) e w

/-- ADDA (R331). -/
def vatAdda (e : Engine) (w : Word) : VatRes :=
  match vatOp (fld w 15 6) with
  | some x =>
    if fld w 21 5 ≤ 24 then
      e.guarded (x.addrs e false) (.go (x.modify e 1 (e.setTrue (e.trueVal + (x.val e).toInt * 2 ^ fld w 21 5))))
    else .fault 3
  | none => .fault 3

/-- SHA (R331). -/
def vatSha (e : Engine) (w : Word) : VatRes := .go (e.setTrue (e.trueVal / (2 ^ fld w 21 5 : Int)))

/-- STA and STAU: one saturated 16-bit word (R330). -/
def vatStore (lo hi : Int) (e : Engine) (w : Word) : VatRes :=
  match vatOp (fld w 15 6) with
  | some x =>
    let r := e.accStore (fld w 21 5) lo hi
    let v := BitVec.ofInt 16 r.1
    e.guarded (x.addrs e false) (.go (match x with
      | .mem d => e.modify d 1 (r.2.setWord (e.ptr (descPtr d)) v)
      | .dreg n => r.2.setDn n v))
  | none => .fault 3

/-- STA. -/
def vatSta (e : Engine) (w : Word) : VatRes := vatStore (-32768) 32767 e w
/-- STAU. -/
def vatStau (e : Engine) (w : Word) : VatRes := vatStore 0 65535 e w

/-- STAL: a saturated 32-bit value as a pair (R330, R336). -/
def vatStal (e : Engine) (w : Word) : VatRes :=
  match vatOp (fld w 15 6) with
  | some x =>
    let r := e.accStore (fld w 21 5) (-2147483648) 2147483647
    let v := BitVec.ofInt 32 r.1
    let lo := v.extractLsb' 0 16
    let hi := v.extractLsb' 16 16
    match x with
    | .mem d => e.guarded (x.addrs e true)
        (.go (e.modify d 2 ((r.2.setWord (e.ptr (descPtr d)) lo).setWord (e.moved (descPtr d) 1) hi)))
    | .dreg n => if n % 2 = 0 then .go ((r.2.setDn n lo).setDn (n + 1) hi) else .fault 3
  | none => .fault 3

/-- LD. -/
def vatLd (e : Engine) (w : Word) : VatRes :=
  let d := fld w 18 5
  let a := e.ptr (descPtr d)
  e.guarded [a] (.go ((e.modify d 1 e).setDn (fld w 23 3) (e.word a)))

/-- LD2: with Dd = De slot Y's word stays (R336). -/
def vatLd2 (e : Engine) (w : Word) : VatRes :=
  let dx := fld w 18 5
  let dy := fld w 10 5
  let ax := e.ptr (descPtr dx)
  let ay := e.ptr (descPtr dy)
  e.guarded [ax, ay] (.go (((e.modify2 dx dy e).setDn (fld w 23 3) (e.word ax)).setDn (fld w 15 3) (e.word ay)))

/-- ST. -/
def vatSt (e : Engine) (w : Word) : VatRes :=
  let d := fld w 18 5
  let a := e.ptr (descPtr d)
  e.guarded [a] (.go (e.modify d 1 (e.setWord a (e.dn (fld w 23 3)))))

/-- ST2: two writes to one word leave slot Y's value (R323). -/
def vatSt2 (e : Engine) (w : Word) : VatRes :=
  let dx := fld w 18 5
  let dy := fld w 10 5
  let ax := e.ptr (descPtr dx)
  let ay := e.ptr (descPtr dy)
  e.guarded [ax, ay] (.go (e.modify2 dx dy ((e.setWord ax (e.dn (fld w 23 3))).setWord ay (e.dn (fld w 15 3)))))

/-- LDI (R320). -/
def vatLdi (e : Engine) (w : Word) : VatRes :=
  match e.setReg (fld w 20 6) (BitVec.ofNat 16 (fld w 0 16)) with | some e1 => .go e1 | none => .fault 3

/-- MOV (R320). -/
def vatMov (n : Nat) (e : Engine) (w : Word) : VatRes :=
  match e.setReg (fld w 20 6) (e.reg n (fld w 14 6)) with | some e1 => .go e1 | none => .fault 3

/-- ALU and ALUI (R332). -/
def vatAluWith (b : Word16) (e : Engine) (w : Word) : VatRes :=
  match aluFunc (fld w 22 4) (e.dn (fld w 16 3)) b with
  | some o =>
    let e1 := { e with flags := aluFlags e.flags o }
    .go (if o.write then e1.setDn (fld w 19 3) o.res else e1)
  | none => .fault 3

/-- ALU. -/
def vatAlu (e : Engine) (w : Word) : VatRes := vatAluWith (e.dn (fld w 13 3)) e w
/-- ALUI. -/
def vatAlui (e : Engine) (w : Word) : VatRes := vatAluWith (BitVec.ofNat 16 (fld w 0 16)) e w

/-- MMX (R333): with MMCNT full it reads nothing and sets MMOVF. -/
def vatMmx (e : Engine) (w : Word) : VatRes :=
  if e.mmcnt = 0xFFFF then .go { e with flags := e.flags ||| 0x100 }
  else
    let d := fld w 20 5
    let a := e.ptr (descPtr d)
    let v := e.word a
    let num := fun (x : Word16) => if bit w 25 then (x.toNat : Int) else x.toInt
    let e1 := e.modify d 1 e
    let e2 := if e.maxi = 0xFFFF ∨ num e.maxv < num v then { e1 with maxv := v, maxi := e.mmcnt } else e1
    let e3 := if e.mini = 0xFFFF ∨ num v < num e.minv then { e2 with minv := v, mini := e.mmcnt } else e2
    e.guarded [a] (.go { e3 with mmcnt := e.mmcnt + 1 })

/-- MMCLR (R333). -/
def vatMmclr (e : Engine) (_w : Word) : VatRes := .go { e with mmcnt := 0, maxi := 0xFFFF, mini := 0xFFFF }

/-- BR (R334, R335): a taken branch pops every loop whose body does not hold the target. -/
def vatBr (e : Engine) (w : Word) : VatRes :=
  let t := fld w 0 13
  if e.cond (fld w 22 4) then .jump { e with loops := e.loops.filter fun l => decide (l.first ≤ t) && decide (t ≤ l.last) } t else .go e

/-- CALL (R335). -/
def vatCall (e : Engine) (w : Word) : VatRes :=
  if e.calls.length ≥ 8 then .fault 4 else .jump { e with calls := (e.pc + 1) :: e.calls } (fld w 0 13)

/-- RET (R335). -/
def vatRet (e : Engine) (_w : Word) : VatRes :=
  match e.calls with
  | [] => .fault 4
  | r :: cs => .jump { e with calls := cs } r

/-- LOOP (R335): a COUNT of 0 skips the body; a fifth loop is a LOOPSTK fault. -/
def vatLoop (e : Engine) (w : Word) : VatRes :=
  let len := fld w 15 10 + 1
  let count := if bit w 25 then (e.dn (fld w 0 3)).toNat else fld w 0 15
  if count = 0 then .jump e (e.pc + 1 + len)
  else if e.loops.length ≥ 4 then .fault 5
  else .jump { e with loops := { first := e.pc + 1, last := e.pc + len, count := count } :: e.loops } (e.pc + 1)

/-- Whether two ranges of data memory overlap, modulo 32,768. -/
def wrapOverlap (a n b m : Nat) : Bool :=
  n ≠ 0 && m ≠ 0 && (decide ((a + 32768 - b % 32768) % 32768 < m) || decide ((b + 32768 - a % 32768) % 32768 < n))

/-- CAVE (R340, R341): a length of 0 transfers and checks nothing (log entry 41, DEDUCED). -/
def vatCave (e : Engine) (w : Word) : VatRes :=
  let toCave := bit w 25
  let win := fld w 23 2
  let p := fld w 20 3
  let len := (e.dn (fld w 17 3)).toNat
  let pr := 2 * fld w 15 2
  let off := e.pair pr
  let size := match ix 4 win with | some i => (e.winSize[i]).toNat | none => 0
  let a := e.ptr p
  if len = 0 then .go e
  else if len > 4096 ∨ off % 2 = 1 ∨ off + 2 * len > size then .fault 6
  else if toCave ∧ (win = 0 ∨ win = 3) then .fault 7
  else if e.transfers.length ≥ 4 then .stall
  else if e.transfers.any fun t => wrapOverlap a len t.addr t.len ||
      (t.window == win && decide (t.offset < off + 2 * len) && decide (off < t.offset + 2 * t.len)) then .stall
  else
    let e1 := { e with transfers := e.transfers ++ [{ toCave := toCave, window := win, offset := off, addr := a, len := len }] }
    if bit w 14 then
      let e2 := match ix 8 p with | some i => { e1 with p := e1.p.set i (BitVec.ofNat 15 (a + len)) } | none => e1
      .go ((e2.setDn pr (BitVec.ofNat 16 (off + 2 * len))).setDn (pr + 1) (BitVec.ofNat 16 ((off + 2 * len) / 65536)))
    else .go e1

/-- CWAIT (R340). -/
def vatCwait (e : Engine) (w : Word) : VatRes := if e.transfers.length ≤ fld w 0 2 then .go e else .stall

/-! ### Transfers and invocations -/

/-- Carries out one transfer (R340). -/
def Engine.transfer (e : Engine) (t : Transfer) : Engine :=
  match ix 4 t.window with
  | none => e
  | some k =>
    (List.range t.len).foldl (fun e i =>
      let a := (t.addr + i) % 32768
      let o := t.offset + 2 * i
      if t.toCave then
        { e with win := e.win.set k (((e.win[k]).write o (e.dmem.read (2 * a))).write (o + 1) (e.dmem.read (2 * a + 1))) }
      else { e with dmem := (e.dmem.write (2 * a) ((e.win[k]).read o)).write (2 * a + 1) ((e.win[k]).read (o + 1)) }) e

/-- Every outstanding transfer completes, in order. -/
def Engine.drainTransfers (e : Engine) : Engine := { e.transfers.foldl (fun u t => u.transfer t) e with transfers := [] }

/-- Loads a program image (R318, R348, R352): registers zero, MAXI and MINI 0xFFFF, data memory the image's, counters cleared. -/
def Engine.load (e : Engine) (i : Image) : Engine :=
  let f := fun off len => rd i.bytes off len
  let cw := f 4 4
  { Engine.reset with
    ctl := e.ctl
    stat := setFld (setFld e.stat 24 8 0) 0 3 2
    code := (List.range cw).map fun k => BitVec.ofNat 32 (f (48 + 4 * k) 4)
    dmem := Mem.writes [] (2 * f 10 2) (cut i.bytes (48 + 4 * cw) (2 * f 12 2))
    image := i.id
    budget := f 16 4
    waitLim := f 20 4
    outBytes := f 24 4
    stateBytes := f 28 4
    entry := f 8 2
    faultLim := f 14 1
    zone := e.zone
    inst := e.inst
    input := e.input
    blockSeq := e.blockSeq }

/-- STATE of an engine written. -/
def Engine.setState (e : Engine) (st : Nat) : Engine := { e with stat := setFld e.stat 0 3 st }

/-- After an invocation ends, a draining engine loads the image that waits for it, for the instance that the placement gives it, or becomes
IDLE (R347); else it waits for input. -/
def State.afterInvocation (s : State) (n : EngIx) : State :=
  match s.engines[n].nextImage with
  | some none => s.modEng n fun e => { e.setState 1 with zone := none, image := 0, nextImage := none, input := [] }
  | some (some id) => match s.images.find? fun i => i.id == id with
    | some img =>
      let x := s.ladle.place.insts.find? fun x => x.engine == n.val
      s.modEng n fun e => { (e.load img) with
        nextImage := none
        zone := match x with | some y => some y.zone | none => e.zone
        inst := match x with | some y => y.index | none => e.inst }
    | none => s.modEng n fun e => { e.setState 1 with nextImage := none }
  | none => s
/-- The invocation in progress ends without delivery (R345): W1 is not delivered, a whey record covers its input block, the code, PC and OPC
are recorded, EV120 + n is raised; the instance stops after FAULT_LIM in a row (R346). -/
def State.vatFault (s : State) (n : EngIx) (code : Nat) : State :=
  let e := s.engines[n]
  let st := setFld (setBit (bumpFld e.stat 24 8) 3) 8 4 code
  let stop := decide (e.faultLim ≤ e.faultsInRow + 1)
  let s1 := s.modEng n fun e => { e.drainTransfers with
    stat := setFld st 0 3 (if stop then 5 else 2)
    fpc := setFld 0 0 13 e.pc
    fop := BitVec.ofNat 32 e.opc
    lastOp := BitVec.ofNat 32 e.opc
    peakOp := BitVec.ofNat 32 (max e.peakOp.toNat e.opc)
    faultsInRow := e.faultsInRow + 1
    stalledSince := none
    current := none }
  let s2 := match e.current, e.zone with
    | some b, some z =>
      let t := unstamp (rd b.bytes 16 12)
      s1.whey (zoneStream z) (some z) { Whey.blank 4 z (zonePort s.settings z) with
        products := 0x10, tFirst := t, tLast := t, firstPoint := rd b.bytes 8 4, nPoints := rd b.bytes 12 4, count := 1,
        lostBytes := b.bytes.length }
    | _, _ => s1
  let s3 := s2.raiseN (120 + n.val)
  let s4 := match e.zone with
    | some z => if stop then e.input.foldl (fun (u : State) (b : VatIn) => u.discard z 5
        { product := 5, tFirst := b.arrived, tLast := b.arrived, seq := none, size := b.bytes.length })
        (s3.modEng n fun e => { e with input := [] }) else s3
    | none => s3
  s4.afterInvocation n

/-- HALT ends the invocation and delivers `len` bytes of W1 (R342, R421). -/
def State.vatEnd (s : State) (n : EngIx) (len : Nat) : State :=
  let e := s.engines[n]
  let s1 := s.modEng n fun e => { e with
    stat := setFld e.stat 0 3 2
    lastOp := BitVec.ofNat 32 e.opc
    peakOp := BitVec.ofNat 32 (max e.peakOp.toNat e.opc)
    faultsInRow := 0
    current := none
    lastMem := some e.dmem }
  let s2 := match e.current, e.zone with
    | some b, some z =>
      if len = 0 ∨ !(s.forms z) then s1
      else
        let h : FrameHead := {
          gauge := b.gauge, epoch := BitVec.ofNat 16 (rd b.bytes 28 2), scale := 0, outGain := 0, rate := 0, pointStep := 0 }
        s1.emitFrame z 5 0 false false h (rd b.bytes 8 4) 1 len
          [{ t := unstamp (rd b.bytes 16 12), vals := (Mem.reads e.win[(1 : Fin 4)] 0 len).map fun (x : Byte) => (x.toNat : Int), flags := [] }]
    | _, _ => s1
  s2.afterInvocation n

/-- Ends an iteration at address `pc` (R335): loops that end there are ended in turn, innermost first (log entry 42, DEDUCED). -/
def Engine.endIter (e : Engine) (pc next : Nat) : Engine :=
  match e.loops with
  | [] => { e with pc := next }
  | l :: ls =>
    if l.last = pc then
      if l.count ≤ 1 then
        let rest := ls.dropWhile fun m => m.last == pc && decide (m.count ≤ 1)
        match rest with
        | m :: ms => if m.last = pc then { e with loops := { m with count := m.count - 1 } :: ms, pc := m.first } else { e with loops := rest, pc := next }
        | [] => { e with loops := [], pc := next }
      else { e with loops := { l with count := l.count - 1 } :: ls, pc := l.first }
    else { e with pc := next }

/-- Whether an engine executes: RUNNING or DRAINING with an invocation, and not stalled. -/
def Engine.executes (e : Engine) : Bool := (fld e.stat 0 3 == 3 || fld e.stat 0 3 == 4) && e.current.isSome && e.stalledSince.isNone

/-- Triggers of source VAT that name the engine's zone and CODE fire at T of the current input block (R431). -/
def State.fireVat (s : State) (e : Engine) (code : Nat) : State :=
  match e.zone, e.current with
  | some z, some b =>
    let fires := s.settings.filterMap fun x =>
      if x.key.kind == .trigger && x.key.code == 0x021C && x.val.getD 0 0 == 2 && x.val.getD 5 0 == (code : Int) &&
          s.settings.get .trigger x.key.inst 0x0102 == z then
        some ({ trigger := x.key.inst, tTrig := unstamp (rd b.bytes 16 12), detail := code } : Firing)
      else none
    s.modLook fun l => { l with due := l.due ++ fires }
  | _, _ => s

/-- One row: engine `n` executes the instruction at its PC if its opcode is `op` (R335, R337, R338, R343). An undefined opcode or a PC out
of range faults whichever row asks. -/
def State.vatStep (s : State) (n : EngIx) (op : Nat) (body : Engine → Word → VatRes) : State :=
  let e := s.engines[n]
  if !e.executes then s
  else match e.code[e.pc]? with
    | none => s.vatFault n 8
    | some w =>
      let o := fld w 26 6
      if !(vatDefined o) then s.vatFault n 3
      else if o ≠ op then s
      else
        let c := e.cost op w
        if e.opc + c > e.budget then s.vatFault n 1
        else if vatStray op w then s.vatFault n 3
        else match body e w with
          | .go r => s.modEng n fun _ => { r.endIter e.pc (e.pc + 1) with opc := e.opc + c }
          | .jump r pc => s.modEng n fun _ =>
              if op = 0x23 ∧ pc ≠ e.pc + 1 then { r.endIter e.pc pc with opc := e.opc + c } else { r with pc := pc, opc := e.opc + c }
          | .user r =>
            let s1 := s.modEng n fun _ => { r.endIter e.pc (e.pc + 1) with opc := e.opc + c }
            let s2 := s1.fireVat e (fld w 0 8)
            if bit e.ctl 0 then s2.raiseN (120 + n.val) else s2
          | .stall => s.modEng n fun e => { e with stalledSince := some s.time.mono }
          | .hold => s
          | .fault code => s.vatFault n code
          | .halt len => (s.modEng n fun e => { e with opc := e.opc + c }).vatEnd n len

/-- NOP (R337). -/
def execNop (n : EngIx) (s : State) : Host.Outcome State Fault Refusal := .next (s.vatStep n 0x00 vatNop)
/-- HALT (R342). -/
def execHalt (n : EngIx) (s : State) : Host.Outcome State Fault Refusal := .next (s.vatStep n 0x01 vatHalt)
/-- EVT (R353). -/
def execEvt (n : EngIx) (s : State) : Host.Outcome State Fault Refusal := .next (s.vatStep n 0x02 vatEvt)
/-- CLRA (R328). -/
def execClra (n : EngIx) (s : State) : Host.Outcome State Fault Refusal := .next (s.vatStep n 0x04 vatClra)
/-- MAC (R328). -/
def execMac (n : EngIx) (s : State) : Host.Outcome State Fault Refusal := .next (s.vatStep n 0x05 vatMac)
/-- MSU (R328). -/
def execMsu (n : EngIx) (s : State) : Host.Outcome State Fault Refusal := .next (s.vatStep n 0x06 vatMsu)
/-- MUL (R328). -/
def execMul (n : EngIx) (s : State) : Host.Outcome State Fault Refusal := .next (s.vatStep n 0x07 vatMul)
/-- ADDA (R331). -/
def execAdda (n : EngIx) (s : State) : Host.Outcome State Fault Refusal := .next (s.vatStep n 0x08 vatAdda)
/-- SHA (R331). -/
def execSha (n : EngIx) (s : State) : Host.Outcome State Fault Refusal := .next (s.vatStep n 0x09 vatSha)
/-- STA (R330). -/
def execSta (n : EngIx) (s : State) : Host.Outcome State Fault Refusal := .next (s.vatStep n 0x0A vatSta)
/-- STAU (R330). -/
def execStau (n : EngIx) (s : State) : Host.Outcome State Fault Refusal := .next (s.vatStep n 0x0B vatStau)
/-- STAL (R330). -/
def execStal (n : EngIx) (s : State) : Host.Outcome State Fault Refusal := .next (s.vatStep n 0x0C vatStal)
/-- LD (R336). -/
def execLd (n : EngIx) (s : State) : Host.Outcome State Fault Refusal := .next (s.vatStep n 0x10 vatLd)
/-- LD2 (R336). -/
def execLd2 (n : EngIx) (s : State) : Host.Outcome State Fault Refusal := .next (s.vatStep n 0x11 vatLd2)
/-- ST (R336). -/
def execSt (n : EngIx) (s : State) : Host.Outcome State Fault Refusal := .next (s.vatStep n 0x12 vatSt)
/-- ST2 (R336). -/
def execSt2 (n : EngIx) (s : State) : Host.Outcome State Fault Refusal := .next (s.vatStep n 0x13 vatSt2)
/-- LDI (R319). -/
def execLdi (n : EngIx) (s : State) : Host.Outcome State Fault Refusal := .next (s.vatStep n 0x14 vatLdi)
/-- MOV (R319). -/
def execMov (n : EngIx) (s : State) : Host.Outcome State Fault Refusal := .next (s.vatStep n 0x15 (vatMov n.val))
/-- ALU (R332). -/
def execAlu (n : EngIx) (s : State) : Host.Outcome State Fault Refusal := .next (s.vatStep n 0x18 vatAlu)
/-- ALUI (R332). -/
def execAlui (n : EngIx) (s : State) : Host.Outcome State Fault Refusal := .next (s.vatStep n 0x19 vatAlui)
/-- MMX (R333). -/
def execMmx (n : EngIx) (s : State) : Host.Outcome State Fault Refusal := .next (s.vatStep n 0x1A vatMmx)
/-- MMCLR (R333). -/
def execMmclr (n : EngIx) (s : State) : Host.Outcome State Fault Refusal := .next (s.vatStep n 0x1B vatMmclr)
/-- BR (R334). -/
def execBr (n : EngIx) (s : State) : Host.Outcome State Fault Refusal := .next (s.vatStep n 0x20 vatBr)
/-- CALL (R335). -/
def execCall (n : EngIx) (s : State) : Host.Outcome State Fault Refusal := .next (s.vatStep n 0x21 vatCall)
/-- RET (R335). -/
def execRet (n : EngIx) (s : State) : Host.Outcome State Fault Refusal := .next (s.vatStep n 0x22 vatRet)
/-- LOOP (R335). -/
def execLoop (n : EngIx) (s : State) : Host.Outcome State Fault Refusal := .next (s.vatStep n 0x23 vatLoop)
/-- CAVE (R340). -/
def execCave (n : EngIx) (s : State) : Host.Outcome State Fault Refusal := .next (s.vatStep n 0x28 vatCave)
/-- CWAIT (R340). -/
def execCwait (n : EngIx) (s : State) : Host.Outcome State Fault Refusal := .next (s.vatStep n 0x29 vatCwait)

/-- Outstanding transfer `k` completes: its words move, and a stall ends, its whole microseconds counted (R340, R341, R344). -/
def vatTransferDone (n : EngIx) (k : Fin 4) (s : State) : State :=
  match (s.engines[n].transfers)[k.val]? with
  | none => s
  | some t => s.modEng n fun e =>
      let e1 := { e.transfer t with transfers := e.transfers.eraseIdx k.val }
      match e.stalledSince with
      | some t0 => { e1 with stallTotal := e.stallTotal + (s.time.mono - t0) / us, stalledSince := none }
      | none => e1

/-- CAVE_TRANSFER_COMPLETE (R340). -/
def execCaveTransferComplete (n : EngIx) (k : Fin 4) (s : State) : Host.Outcome State Fault Refusal := .next (s.cave (vatTransferDone n k))

/-- The stall in progress passes WAIT_LIM: time reaches that instant and the invocation ends with a WAITLIM fault (R344). -/
def vatWaitLim (n : EngIx) (s : State) : State :=
  let e := s.engines[n]
  match e.stalledSince with
  | none => s
  | some t0 => (s.until (t0 + (e.waitLim + 1 - e.stallTotal) * us)).vatFault n 2

/-- WAITLIM (R344). -/
def execWaitlim (n : EngIx) (s : State) : Host.Outcome State Fault Refusal := .next (vatWaitLim n s)

/-- Bytes of a row of the curd-domain history (R429). -/
def curdRowBytes (r : Time × Nat × Byte × List Int) : List Byte :=
  stampB r.1 ++ le 1 r.2.1 ++ [r.2.2.1] ++ zeros 2 ++ r.2.2.2.flatMap fun v => leI 2 v

/-- An invocation starts (R318, R339): W0 holds the input block, W3 the zone's curd-domain history. -/
def vatInvoke (n : EngIx) (s : State) : State :=
  let e := s.engines[n]
  match e.input, fld e.stat 0 3 with
  | b :: rest, 2 =>
    let hist := match e.zone with
      | some z => if s.settings.zone z 0x1708 = 0 then [] else match s.zoneRt z with | some r => r.curdRows.flatMap curdRowBytes | none => []
      | none => []
    let s1 := if b.inPool then s.modLadle fun l => { l with overflow := l.overflow - b.bytes.length } else s
    s1.modEng n fun e => { e.setState 3 with
      pc := e.entry, calls := [], loops := [], opc := 0, inv := e.invNext, invNext := e.invNext + 1
      winSize := #v[BitVec.ofNat 32 b.bytes.length, BitVec.ofNat 32 e.outBytes, BitVec.ofNat 32 e.stateBytes, BitVec.ofNat 32 hist.length]
      win := (e.win.set 0 (Mem.writes [] 0 b.bytes)).set 3 (Mem.writes [] 0 hist)
      input := rest, current := some b, stallTotal := 0, stalledSince := none }
  | _, _ => s

/-- INVOCATION_START (R318). -/
def execInvocationStart (n : EngIx) (s : State) : Host.Outcome State Fault Refusal := .next (vatInvoke n s)

/-- A write of VAT_CTLn (R350): ABORT ends the running invocation with code 10 and counts under R489. -/
def writeVatCtl (n : EngIx) (v : Word) (s : State) : State :=
  let s1 := (s.modEng n fun e => { e with ctl := wrRW 1 e.ctl v }).hazardIf (bit v 1)
  if bit v 1 && s1.engines[n].current.isSome then s1.vatFault n 10 else s1

/-- VAT_ABORT (R350). -/
def execVatAbort (n : EngIx) (v : Word) (s : State) : Host.Outcome State Fault Refusal := .next (s.written (writeVatCtl n v))

end Sys2Proof.Machine
end

