-- ==== Sys2Proof/Machine/Ladle.lean ====
section
/-! DEFINITION. The Ladle: how a placement takes effect, migrations, lost and retired units, shedding, wear, self-tests, aging, overflow and
drains (R356 to R381). -/

namespace Sys2Proof.Machine

/-! ### LADLE_STAT and PLACE_GEN -/

/-- The counts and states that LADLE_STAT shows (R378). -/
def State.refreshLadle (s : State) : State :=
  let engs := (List.finRange 32).map fun n => fld s.engines[n].stat 0 3
  let reserve := (engs.filter fun x => x == 0).length
  let service := (engs.filter fun x => x != 0 && x != 6).length
  let pipes := ((List.range 26).filter s.pipeOk).length
  let lanes := ((List.range 26).filter s.pressOk).length
  s.modLadle fun l => { l with
    stat := setFld (setFld (setFld (setFld (putBit (putBit l.stat 0 (!l.migrations.isEmpty)) 1 (!l.shed.isEmpty || !l.shedPorts.isEmpty)) 8 6 service)
      16 3 (min 4 reserve)) 19 2 (min 3 (pipes - 24))) 21 2 (min 3 (lanes - 24)) }

/-- Any change to a placement (R359). -/
def State.bumpGen (s : State) : State := s.modLadle fun l => { l with placeGen := l.placeGen + 1 }

/-! ### A placement takes effect -/

/-- PP_SRCn of every pipeline: its port and VALID (R106). A port whose gate waits for a pipeline is connected at its frame boundary (R371); the target of a
shadow frame in progress serves its port beside the source (R104). -/
def State.syncPipes (s : State) (pl : Placement) : State :=
  (List.finRange 26).foldl (fun u n =>
    match pl.pipes.find? fun x => x.2 == n.val with
    | some (p, _) =>
      if (u.portN p).holdGate then u.modPipe n fun x => { x with src := clrBit (clrBit x.src 5) 6 }
      else u.modPipe n fun x => { x with src := setFld (setBit x.src 5) 0 5 p }
    | none =>
      if u.ladle.migrations.any fun m => m.shadow && m.target == .pipeline n then u
      else u.modPipe n fun x => { src := clrBit (clrBit x.src 5) 6, dropping := false }) s

/-- An engine given an instance, or freed: at once when no invocation runs, else once it has drained (R347). -/
def State.syncEngine (s : State) (pl : Placement) (n : EngIx) : State :=
  let e := s.engines[n]
  match pl.insts.find? fun x => x.engine == n.val with
  | some x =>
    let id := s.settings.zone x.zone 0x1705
    if e.zone = some x.zone ∧ e.inst = x.index ∧ e.image = id then s
    else if e.current.isSome then s.modEng n fun e => { e.setState 4 with nextImage := some (some id), input := [] }
    else match s.images.find? fun i => i.id == id with
      | some img => s.modEng n fun e => { ({ e with input := [], blockSeq := 0 } : Engine).load img with zone := some x.zone, inst := x.index }
      | none => s
  | none =>
    if e.zone.isNone then s
    else if e.current.isSome then s.modEng n fun e => { e.setState 4 with nextImage := some none, input := [] }
    else s.modEng n fun e => { e.setState 1 with zone := none, image := 0, input := [] }

/-- SHARES of every Press lane (R408). -/
def State.syncPress (s : State) (pl : Placement) : State :=
  (List.finRange 26).foldl (fun u n => u.modPress n fun l => { l with
    stat := setFld l.stat 8 12 (pl.press.filter fun x => x.2.1 == n.val).length }) s

/-- Whether two lists hold the same entries, in whatever order. -/
def sameEntries {α : Type} [BEq α] (a b : List α) : Bool := a.length == b.length && a.all fun x => b.contains x
/-- Whether two placements book the same. -/
def Placement.same (a b : Placement) : Bool :=
  sameEntries a.pipes b.pipes && sameEntries a.insts b.insts && sameEntries a.press b.press && sameEntries a.cave b.cave &&
    sameEntries a.links b.links && sameEntries a.rings b.rings

/-- The placement becomes `pl`: registers, engines and shares follow, and a re-analysis job leaves a pipeline that a port now holds. -/
def State.applyPlacement (s : State) (pl : Placement) : State :=
  let changed := !(s.ladle.place.same pl)
  let s1 := s.modLadle fun l => { l with place := pl }
  let s2 := s1.look.jobs.foldl (fun u j => if pl.pipes.any fun x => x.2 == j.2.1 then u.endJob j true else u) s1
  let s3 := s2.forEngs fun n u => u.syncEngine pl n
  let s4 := ((s3.syncPipes pl).syncPress pl).refreshLadle
  if changed then s4.bumpGen else s4

/-! ### Whey records and state of shed zones (R372) -/

/-- Frames that a zone would have formed in a span of time: by rows per block, or one each 100 ms (R385, R416). -/
def framesIn (ss : Settings) (z : Nat) (d : Time) : Nat :=
  let (n, den) := outRate ss z
  let one := fun (product num den' : Nat) =>
    let rows := d * num / (max 1 den' * sec)
    let per := if ss.zone z 0x1707 = 1 then blockRows ss z product
      else min (min 65535 (max 1 (1048576 / max 1 (widthOf product * zonePts ss z)))) (max 1 (num / (10 * max 1 den')))
    ceilDiv rows (max 1 per)
  (if zoneProduct ss z 0 then one 1 n den else 0) + (if zoneProduct ss z 1 then one 2 n den else 0) + (if zoneProduct ss z 2 then one 3 n den else 0) +
    zoneBands ss z * one 4 (ss.zone z 0x1306) 1

/-- A zone is shed: its frames close, SHED_BEGIN, EV250; `what` is its FLAGS bit, 15 for a link. -/
def State.shedZone (s : State) (z what : Nat) : State :=
  if s.ladle.shed.any fun x => x.1 == z then s
  else
    let s1 := s.closeAll z true
    let s2 := s1.modZone z fun r => { r with
      state := 3, shedAt := some s.time.dev, flags := if what < 15 then r.flags ||| (1#16 <<< what) else r.flags }
    let s3 := s2.wheyZone z { Whey.blank 9 z 0 with tFirst := s.time.dev, tLast := s.time.dev }
    (s3.modLadle fun l => { l with shed := l.shed ++ [(z, what)] }).raise 250

/-- A shed zone is placed again: SHED_END over the interval, EV250. -/
def State.unshedZone (s : State) (z : Nat) : State :=
  match s.zoneRt z with
  | none => s
  | some r =>
    let t0 := r.shedAt.getD s.time.dev
    let s1 := s.modZone z fun r => { r with state := 0, shedAt := none, flags := r.flags &&& 0xFFE3 }
    (s1.wheyZone z { Whey.blank 10 z 0 with
      tFirst := t0, tLast := s.time.dev, count := framesIn s.settings z (s.time.dev - t0) }).raise 250

/-- Zones in the order they are shed: BULK before REALTIME, higher numbers first. -/
def shedOrder (ss : Settings) (zs : List Nat) : List Nat :=
  let down := sortList (fun a b => decide (b ≤ a)) zs
  (down.filter fun z => ss.zone z 0x170A == 2) ++ down.filter fun z => ss.zone z 0x170A != 2

/-- Bookings of a zone removed from a placement. -/
def Placement.dropZone (pl : Placement) (z : Nat) : Placement :=
  { pl with
    insts := pl.insts.filter fun x => x.zone != z
    press := pl.press.filter fun x => x.1 != z
    links := pl.links.filter fun x => x.1 != z
    rings := pl.rings.filter fun x => x.1 != z
    cave := pl.cave.filter fun c => c.1 != z }

/-- A port is left without a pipeline: its zones carry SHED_PORT (R372). -/
def State.shedPort (s : State) (p : Nat) : State :=
  let s1 := s.modLadle fun l => { l with shedPorts := if l.shedPorts.contains p then l.shedPorts else l.shedPorts ++ [p] }
  let s2 := s1.onPort p fun q => { q with holdGate := true, gateOpen := false, probeOn := false, connectAt := s.time.mono }
  let zs := shedOrder s2.settings (zonesOf s2.settings p)
  let s3 := zs.foldl (fun u z => u.shedZone z 4) s2
  let pl := zs.foldl (fun (a : Placement) z => a.dropZone z) { s3.ladle.place with pipes := s3.ladle.place.pipes.filter fun x => x.1 != p }
  let s4 := s3.applyPlacement pl
  if zs.isEmpty then s4.raise 250 else s4

/-! ### Units: names, retirement -/

/-- The pace site of a unit (R16): pipelines 0 to 25, engines 26 to 57, Press lanes 58 to 83. -/
def siteOf : UnitName → Option (Fin 94)
  | .pipeline n => some ⟨n.val, by omega⟩
  | .engine n => some ⟨26 + n.val, by omega⟩
  | .press n => some ⟨58 + n.val, by omega⟩
  | .lane _ => none
  | .vernier _ => none

/-- A unit becomes RETIRED: its own status register and LADLE_WEARn read so, the retired-unit record keeps it, RETIRED_NEW sets (R368, R378). -/
def State.markRetired (s : State) (u : UnitName) : State :=
  let s1 := match u with
    | .pipeline n => (s.modPipe n fun x => { x with src := clrBit (clrBit (setBit x.src 7) 5) 6 }).modBoot fun b => { b with
        retired := { b.retired with pipes := b.retired.pipes ||| (1#32 <<< n.val) } }
    | .engine n => (s.modEng n fun e => { e.setState 6 with zone := none, input := [], current := none }).modBoot fun b => { b with
        retired := { b.retired with engines := b.retired.engines ||| (1#32 <<< n.val) } }
    | .press n => (s.modPress n fun l => { l with stat := setFld l.stat 0 3 5 }).modBoot fun b => { b with
        retired := { b.retired with press := b.retired.press ||| (1#32 <<< n.val) } }
    | .lane _ => s
    | .vernier n => s.retireConv n
  match siteOf u with
  | none => s1
  | some i =>
    (s1.modLadle fun l => { l with stat := setBit l.stat 5, wear := l.wear.set i (setFld l.wear[i] 17 2 2) }).refreshLadle

/-- A unit is retired, and EV253 is raised (R381). A unit that is lost raises EV252 in its place (log entry 91, DEDUCED). -/
def State.retireUnit (s : State) (u : UnitName) : State :=
  let s1 := s.markRetired u
  if (siteOf u).isSome then s1.raise 253 else s1

/-- Units whose work a placement holds. -/
def Placement.holds (pl : Placement) : UnitName → Bool
  | .pipeline n => pl.pipes.any fun x => x.2 == n.val
  | .engine n => pl.insts.any fun x => x.engine == n.val
  | .press n => pl.press.any fun x => x.2.1 == n.val
  | .lane _ => false
  | .vernier _ => false

/-- Whether a unit is in service, and can take work (engines in reserve are not). -/
def State.unitOk (s : State) : UnitName → Bool
  | .pipeline n => s.pipeOk n.val
  | .engine n => s.engOk n.val
  | .press n => s.pressOk n.val
  | .lane _ => true
  | .vernier n => !(bit s.tiu.stat (14 + n.val))

/-- Whether a pin names a unit (R360). -/
def State.pinned (s : State) (u : UnitName) : Bool :=
  s.settings.any fun x => x.key.kind == .pin && (match u, x.val with
    | .pipeline n, [1, _, k] => k == (n.val : Int)
    | .engine n, [2, _, k] => k == (n.val : Int)
    | .press n, [3, _, k] => k == (n.val : Int)
    | _, _ => false)

/-- Units of the kind of `u`, in index order. -/
def kindUnits : UnitName → List UnitName
  | .pipeline _ => (List.finRange 26).map UnitName.pipeline
  | .engine _ => (List.finRange 32).map UnitName.engine
  | .press _ => (List.finRange 26).map UnitName.press
  | .lane _ => []
  | .vernier _ => []

/-- Whether a unit may take the work of a lost or retired one: free and in service, or an engine in reserve (R357, R371). -/
def State.spareFor (s : State) (u : UnitName) : Bool :=
  let busy := s.ladle.place.holds u || s.ladle.migrations.any fun m => m.target == u || m.source == u
  !busy && (match u with
    | .engine n => fld s.engines[n].stat 0 3 == 0 && !(s.boot.retired.engines.getLsbD n.val)
    | _ => s.unitOk u)

/-- The spare that takes a unit's work: the lowest index; an engine comes from the reserve, else it is the lowest free one in service. A
pinned unit is never chosen. -/
def State.spareOf (s : State) (u : UnitName) : Option UnitName :=
  let free := fun (v : UnitName) => v != u && !(s.pinned v)
  match (kindUnits u).find? fun v => free v && s.spareFor v with
  | some v => some v
  | none => match u with
    | .engine _ => (kindUnits u).find? fun v => free v && s.unitOk v && !(s.ladle.place.holds v) && !(s.ladle.migrations.any fun m => m.target == v)
    | _ => none

/-- The work of one unit moved to another in a placement. -/
def Placement.move (pl : Placement) (a b : UnitName) : Placement :=
  match a, b with
  | .pipeline m, .pipeline n => { pl with pipes := pl.pipes.map fun x => if x.2 = m.val then (x.1, n.val) else x }
  | .engine m, .engine n => { pl with insts := pl.insts.map fun x => if x.engine = m.val then { x with engine := n.val } else x }
  | .press m, .press n => { pl with press := pl.press.map fun x => if x.2.1 = m.val then (x.1, n.val, x.2.2) else x }
  | _, _ => pl

/-! ### Pins of a lost unit (R361) -/

/-- The zones whose pin names a unit. -/
def pinsOf (ss : Settings) (u : UnitName) : List SetKey :=
  (ss.filter fun x => x.key.kind == .pin && (match u, x.val with
    | .pipeline n, [1, _, k] => k == (n.val : Int)
    | .engine n, [2, _, k] => k == (n.val : Int)
    | .press n, [3, _, k] => k == (n.val : Int)
    | _, _ => false)).map (·.key)

/-- Pins that name a unit are lost: PIN_LOST in the zone and in LADLE_STAT, EV250; the work goes on unpinned. -/
def State.losePins (s : State) (u : UnitName) : State :=
  let ks := pinsOf s.settings u
  if ks.isEmpty then s
  else
    let drop := fun (ss : Settings) (k : SetKey) => match ss.val? k with
      | some [a, b, _] => ss.put k [a, b, 255]
      | _ => ss
    let s1 : State := { s with settings := ks.foldl drop s.settings }
    let s2 := ks.foldl (fun u k => u.modZone k.inst fun r => { r with flags := r.flags ||| 1 }) s1
    (s2.modLadle fun l => { l with stat := setBit l.stat 3 }).raise 250

/-! ### Planned migrations (R368 to R370, R374) -/

/-- A change to the STATE of the zones that a unit serves. -/
def State.markUnit (s : State) (u : UnitName) (old new : Nat) : State :=
  let pl := s.ladle.place
  let zs : List Nat := match u with
    | .pipeline n => (pl.pipes.filter fun x => x.2 == n.val).flatMap fun x => zonesOf s.settings x.1
    | .engine n => (pl.insts.filter fun x => x.engine == n.val).map (·.zone)
    | .press n => (pl.press.filter fun x => x.2.1 == n.val).map (·.1)
    | .lane _ => []
    | .vernier _ => []
  zs.foldl (fun t z => t.modZone z fun r => if r.state = old then { r with state := new } else r) s

/-- A migration begins; a pipeline target is self-tested unless it passed a test in the last 24 h. -/
def State.migrate (s : State) (a b : UnitName) (retire reserve : Bool) (tries : Nat) : State :=
  let fresh := s.ladle.tested.any fun x => x.1 == b && decide (s.time.mono ≤ x.2 + 86400 * sec)
  let needsTest := match b with | .pipeline _ => !fresh | _ => false
  let s1 := (s.modLadle fun l => { l with
    migrations := l.migrations ++ [{ source := a, target := b, retire := retire, reserve := reserve, shadow := false, tries := tries }]
    }).startTests (if needsTest then [b] else [])
  let s2 := match b with | .pipeline n => s1.preempt n.val | _ => s1
  (s2.markUnit a 0 1).refreshLadle

/-- What becomes of a unit whose work has left it. -/
def State.leaveUnit (s : State) (m : Migration) : State :=
  if m.retire then s.retireUnit m.source
  else match m.source with
    | .engine n => if m.reserve then (s.modEng n fun e => { (e.setState 0) with zone := none, image := 0 }).refreshLadle
        else (s.modEng n fun e => { (e.setState 1) with zone := none, image := 0 }).refreshLadle
    | _ => s.refreshLadle

/-- A migration hands over: the target has the work, PLACE_GEN, EV251 (R368). -/
def State.handOver (s : State) (m : Migration) : State :=
  let s0 := s.markUnit m.source 1 0
  let s1 := match m.source, m.target with
    | .engine a, .engine b => s0.modEng b fun x => { s0.engines[a] with ctl := x.ctl }
    | .press a, .press b => (s0.modPress b fun l => { l with blocks := l.blocks ++ s0.press[a].blocks }).modPress a fun l => { l with blocks := [] }
    | .pipeline a, .pipeline b => (s0.modPipe a fun x => { src := clrBit (clrBit x.src 5) 6, dropping := false }).modPipe b fun x => { x with
        src := clrBit (setBit x.src 5) 6, dropping := s0.pipes[a].dropping }
    | _, _ => s0
  let moved := s1.commits.map fun c => ({ c with placement := c.placement.move m.source m.target } : Commit)
  let s2 := ({ s1 with commits := moved } : State).modLadle fun l => { l with
    place := l.place.move m.source m.target
    migrations := l.migrations.filter fun x => x.source != m.source
    moved := (l.moved.filter fun x => x.1 != m.target) ++ [(m.target, s.time.mono)] }
  (((s2.leaveUnit m).syncPress (s2.ladle.place)).bumpGen).raise 251

/-- The target failed: it is retired; the next spare is tried once, else the work stays and the old unit is held at WARN (R370). -/
def State.targetFails (s : State) (m : Migration) : State :=
  let s1 := s.modLadle fun l => { l with migrations := l.migrations.filter fun x => x.source != m.source, tests := l.tests.filter fun x => x != m.target }
  let s2 := match m.source with | .pipeline n => s1.modPipe n fun x => { x with src := clrBit x.src 6 } | _ => s1
  let s3 := (s2.markUnit m.source 1 0).retireUnit m.target
  let again := if m.tries = 0 then s3.spareOf m.source else none
  match again with
  | some b => s3.migrate m.source b m.retire m.reserve 1
  | none =>
    let s4 := match siteOf m.source with
      | some i => s3.modLadle fun l => { l with wear := l.wear.set i (setFld l.wear[i] 17 2 1) }
      | none => s3
    (s4.refreshLadle).raise 251

/-- MIG_HOLD: a unit whose work came by a migration gives it up no sooner. -/
def State.holdUntil (s : State) (u : UnitName) : Time :=
  match s.ladle.moved.find? fun x => x.1 == u with
  | some x => x.2 + s.settings.dev 0x0212 * sec
  | none => 0

/-- Whether a migration can hand over: its source holds the work, and its target, unless it is a Press lane, holds none, nor is to hold any once
the waiting commits have passed (R369). -/
def State.roomFor (s : State) (m : Migration) : Bool :=
  let shares := match m.source with | .press _ => true | _ => false
  s.ladle.place.holds m.source && (shares || !(s.ladle.place.holds m.target || s.commits.any fun c => c.placement.holds m.target))

/-- The migration of the named unit's work reaches its handover point. -/
def migrationComplete (u : UnitName) (ok : Bool) (s0 : State) : State :=
  match s0.ladle.migrations.find? fun m => m.source == u with
  | none => s0
  | some m =>
    let s := s0.until (s0.holdUntil u)
    let ready := match m.source with
      | .pipeline _ => m.shadow
      | .engine n => s.engines[n].current.isNone
      | _ => true
    if s.ladle.tests.contains m.target || !ready || !(s.roomFor m) then s0
    else if ok then s.handOver m else s.targetFails m

/-- MIGRATION_COMPLETE (R368). -/
def execMigrationComplete (u : UnitName) (ok : Bool) (s : State) : Host.Outcome State Fault Refusal := .next (migrationComplete u ok s)

/-! ### Lost units (R367, R371, R372) -/

/-- Ports that hold a pipeline, in the order they would be shed. -/
def State.portOrder (s : State) : List Nat :=
  let ports := s.ladle.place.pipes.map (·.1)
  let bare := sortList (fun a b => decide (b ≤ a)) (ports.filter fun p => (zonesOf s.settings p).isEmpty)
  bare ++ ((shedOrder s.settings (s.settings.zones.filter fun z => ports.contains (zonePort s.settings z))).map (zonePort s.settings)).eraseDups

/-- Device time of an instant of elapsed time that has passed or is at hand. -/
def State.devOf (s : State) (t : Time) : Time := (((s.time.dev : Int) + t) - s.time.mono).toNat

/-- A pipeline is lost: its port's samples since the last frame boundary are lost, and its gate stays closed until a pipeline is connected. -/
def State.losePipe (s : State) (n : PipeIx) : State :=
  match s.ladle.place.pipes.find? fun x => x.2 == n.val with
  | none => s
  | some (p, _) =>
    let q := s.portN p
    let ft := max 1 (frameTime q.plan p)
    let f0 := q.frameStart.getD s.time.mono
    let k := ceilDiv (s.time.mono + 100 * us - f0) ft
    let w := { Whey.blank 6 0 p with
      tFirst := s.devOf f0, tLast := s.devOf (f0 + k * ft) - samplesTime q.plan (planS q.plan p), count := k * planG q.plan p }
    let s1 := (zonesOf s.settings p).foldl (fun u z => u.wheyZone z { w with products := BitVec.ofNat 8 (s.settings.zone z 0x1703 % 8) }) s
    let s2a := s1.onPort p fun q => { q with
      holdGate := true, gateOpen := false, probeOn := false, connectAt := s.time.mono + 100 * us
      pings := q.pings.filter fun t => decide (t.stamp < s.devOf f0) }
    let s2 := match ix 24 p with | some i => s2a.pingsDone i | none => s2a
    match s2.spareOf (.pipeline n) with
    | some b => (s2.preempt (match b with | .pipeline m => m.val | _ => 99)).applyPlacement (s2.ladle.place.move (.pipeline n) b)
    | none =>
      match s2.portOrder.head? with
      | none => s2
      | some v =>
        if v = p then s2.shedPort p
        else match s2.ladle.place.pipe? v with
          | none => s2.shedPort p
          | some m =>
            let s3 := s2.shedPort v
            s3.applyPlacement { s3.ladle.place with pipes := (s3.ladle.place.pipes.filter fun x => x.1 != p) ++ [(p, m)] }

/-- An engine is lost: its invocation ends with code 10, and its instance goes to a reserve engine, with the data memory of the last completed
invocation while it can be read (R371). -/
def State.loseEngine (s : State) (n : EngIx) (readable : Bool) : State :=
  match s.ladle.place.insts.find? fun x => x.engine == n.val with
  | none => s
  | some x =>
    let e := s.engines[n]
    let s1 := if e.current.isSome then s.vatFault n 10 else s
    let img := s.images.find? fun i => i.id == s.settings.zone x.zone 0x1705
    let place := fun (u : State) (b : EngIx) =>
      let v := (u.modEng b fun y => match img with
        | some i =>
          let z := ({ y with input := e.input, blockSeq := e.blockSeq } : Engine).load i
          { z with zone := some x.zone, inst := x.index, dmem := if readable then e.lastMem.getD z.dmem else z.dmem, lastMem := e.lastMem }
        | none => y).modEng n fun y => { y with zone := none, input := [] }
      v.applyPlacement (v.ladle.place.move (.engine n) (.engine b))
    match s1.spareOf (.engine n) with
    | some (.engine b) => place s1 b
    | _ =>
      match (shedOrder s1.settings ((s1.ladle.place.insts.map (·.zone)).eraseDups)).head? with
      | none => s1
      | some v =>
        let s2 := s1.shedZone v 2
        let s3 := s2.applyPlacement { s2.ladle.place with insts := s2.ladle.place.insts.filter fun y => y.zone != v }
        if v = x.zone then s3
        else match s3.spareOf (.engine n) with
          | some (.engine b) => place s3 b
          | _ => s3

/-- The Press shares and blocks of a lane go elsewhere: each share to the lowest lane in service with room; without room zones are shed. -/
def State.movePress (s : State) (n : PressIx) : State :=
  let shares := s.ladle.place.press.filter fun x => x.2.1 == n.val
  let s0 := s.modLadle fun l => { l with place := { l.place with press := l.place.press.filter fun x => x.2.1 != n.val } }
  let s1 := shares.foldl (fun u x =>
    let room := (List.range 26).find? fun m => m != n.val && u.pressOk m && decide (u.ladle.place.pressUsed m + x.2.2 ≤ 1800000000)
    match room with
    | some m =>
      let bs := s.press[n].blocks.filter fun b => b.frame.zone == x.1
      (u.modLadle fun l => { l with place := { l.place with press := l.place.press ++ [(x.1, m, x.2.2)] } }).onPress m fun l => { l with
        blocks := l.blocks ++ bs }
    | none => u.shedZone x.1 3) s0
  let s2 := s1.modPress n fun l => { l with blocks := [] }
  let s3 := (s2.syncPress s2.ladle.place).refreshLadle
  if shares.isEmpty then s3 else s3.bumpGen

/-- Host jobs of a lane wait for another (R404, R406). -/
def State.freeJobs (s : State) (n : Nat) : State :=
  { s with jobs := s.jobs.map fun j => if j.lane = some n then { j with lane := none, running := false } else j }

/-- A migration whose target is lost is abandoned: its source carries on, out of the shadow frame, EV251 (R370, R381). -/
def State.abandon (s : State) (m : Migration) : State :=
  let s1 := match m.source with | .pipeline n => s.modPipe n fun x => { x with src := clrBit x.src 6 } | _ => s
  let s2 := (s1.markUnit m.source 1 0).modLadle fun l => { l with
    migrations := l.migrations.filter fun x => x != m, tests := l.tests.filter fun x => x != m.target }
  s2.refreshLadle.raise 251

/-- A unit that reports HWERR or stalls is lost, removed and retired: EV252 (R367, R371, R406). A migration that the loss touches ends as R370
lays down: a lost target abandons it, and a pipeline lost in its shadow frame hands over. -/
def unitLost (u : UnitName) (readable : Bool) (s0 : State) : State :=
  let s := match s0.ladle.migrations.find? fun m => m.target == u with
    | some m => s0.abandon m
    | none => s0
  match s.ladle.migrations.find? fun m => m.source == u && m.shadow with
  | some m => ((s.handOver { m with retire := false }).markRetired u).raise 252
  | none =>
    let s1 := s.modLadle fun l => { l with migrations := l.migrations.filter fun m => m.source != u }
    match u with
    | .pipeline n => (((s1.losePins u).markRetired u).losePipe n).raise 252
    | .engine n => (((s1.losePins u).loseEngine n readable).markRetired u).raise 252
    | .press n =>
      let s2 := ((s1.losePins u).modPress n fun l => { l with stat := setBit l.stat 3 }).raiseN (152 + n.val)
      (((s2.markRetired u).movePress n).freeJobs n.val).raise 252
    | .vernier n => (s1.retireConv n).raise 252
    | .lane _ => s

/-- UNIT_LOST (R371). -/
def execUnitLost (u : UnitName) (readable : Bool) (s : State) : Host.Outcome State Fault Refusal := .next (unitLost u readable s)

/-! ### Shed work is placed again (R372) -/

/-- The latest shed work is tried; the flag says whether it found room. -/
def State.unshedLast (s : State) : State × Bool :=
  match s.ladle.shed.getLast? with
  | some (z, 4) =>
    let p := zonePort s.settings z
    let zs := (s.ladle.shed.filter fun x => x.2 == 4 && zonePort s.settings x.1 == p).map (·.1)
    let t := s.modLadle fun l => { l with shed := l.shed.filter (fun x => !(zs.contains x.1)), shedPorts := l.shedPorts.filter fun x => x != p }
    match placeAll t t.settings t.settings false with
    | .ok pl => ((zs.reverse.foldl (fun u z => u.unshedZone z) (t.applyPlacement pl)).refreshLadle, true)
    | .error _ => (s, false)
  | some (z, _) =>
    let t := s.modLadle fun l => { l with shed := l.shed.dropLast }
    match placeAll t t.settings t.settings false with
    | .ok pl => (((t.applyPlacement pl).unshedZone z).refreshLadle, true)
    | .error _ => (s, false)
  | none =>
    match s.ladle.shedPorts.getLast? with
    | some p =>
      let t := s.modLadle fun l => { l with shedPorts := l.shedPorts.filter fun x => x != p }
      match placeAll t t.settings t.settings false with
      | .ok pl => (((t.applyPlacement pl).refreshLadle).raise 250, true)
      | .error _ => (s, false)
    | none => (s, false)

/-- Shed work is placed again in the reverse order of shedding, as far as it finds room. -/
def State.unshed (fuel : Nat) (s : State) : State :=
  match fuel with
  | 0 => s
  | f + 1 =>
    let r := s.unshedLast
    if r.2 then r.1.unshed f else s

/-- SHED_REPLACEMENT's effect (R372). -/
def shedReplacement (s : State) : State := s.unshed (s.ladle.shed.length + s.ladle.shedPorts.length)

/-- SHED_REPLACEMENT (R372). -/
def execShedReplacement (s : State) : Host.Outcome State Fault Refusal := .next (shedReplacement s)

/-! ### Wear and self-tests (R365 to R367) -/

/-- The median of a day's drifts; of an even number the mean of the middle two (log entry 5, DESIGN CHOICE). -/
def median (l : List Int) : Int :=
  let m := sortList (fun a b => decide (a ≤ b)) l
  let n := m.length
  if n % 2 = 1 then m.getD (n / 2) 0 else divOpen (m.getD (n / 2 - 1) 0 + m.getD (n / 2) 0) 2

/-- The unit of a pace site that has spares. -/
def unitOf (i : Nat) : Option UnitName :=
  if i < 26 then (ix 26 i).map UnitName.pipeline
  else if i < 58 then (ix 32 (i - 26)).map UnitName.engine
  else if i < 84 then (ix 26 (i - 58)).map UnitName.press
  else none

/-- A unit is retired under plan: its work migrates first; idle, it is retired at once; without a spare its work is shed (R366, R372, R374). -/
def State.retirePlanned (s : State) (u : UnitName) : State :=
  if s.ladle.migrations.any fun m => m.source == u then s
  else if s.ladle.place.holds u then
    match s.spareOf u with
    | some b => (s.losePins u).migrate u b true false 0
    | none =>
      match u with
      | .pipeline n => ((s.losePins u).retireUnit u).losePipe n
      | .engine n => ((s.losePins u).loseEngine n true).retireUnit u
      | .press n => (((s.losePins u).retireUnit u).movePress n).freeJobs n.val
      | _ => s
  else s.retireUnit u

/-- One site's daily determination. -/
def State.siteDay (s : State) (i : Fin 94) : State :=
  let ds := s.ladle.drift[i]
  let s1 := s.modLadle fun l => { l with drift := l.drift.set i [] }
  if ds.length < 1000 ∨ !(bit s.ladle.wear[i] 16) then s1
  else
    let d := median ds
    let warn := s.settings.getI .device 0 0 0x0213 0 123
    let ret := s.settings.getI .device 0 0 0x0213 1 205
    let st := fld s.ladle.wear[i] 17 2
    let st1 := if st = 2 then 2 else if warn ≤ d ∨ st = 1 then 1 else 0
    let w := setFld (setFld (bumpFld s.ladle.wear[i] 19 13) 0 16 (d % 65536).toNat) 17 2 st1
    let s2 := s1.modLadle fun l => { l with wear := l.wear.set i w, stat := if st1 = 1 ∧ st ≠ 1 then setBit l.stat 4 else l.stat }
    let s3 := if st1 = 1 ∧ st ≠ 1 then s2.raise 253 else s2
    match unitOf i.val with
    | some u => if ret ≤ d ∧ st ≠ 2 then s3.retirePlanned u else s3
    | none => s3

/-- Midnight of device time: every site's DRIFT (R365, R366). -/
def dailyDrift (s0 : State) : State :=
  let day := 86400 * sec
  let s := s0.untilDev ((s0.time.dev / day + 1) * day)
  (List.finRange 94).foldl (fun u i => u.siteDay i) s

/-- DAILY_DRIFT (R365). -/
def execDailyDrift (s : State) : Host.Outcome State Fault Refusal := .next (dailyDrift s)

/-- The spare units: pipelines and Press lanes in service without work, engines in reserve. -/
def State.spares (s : State) : List UnitName :=
  ((List.finRange 26).map UnitName.pipeline).filter s.spareFor ++ ((List.finRange 32).map UnitName.engine).filter s.spareFor ++
    ((List.finRange 26).map UnitName.press).filter s.spareFor

/-- Once a day each spare is self-tested as BACKGROUND work (R367). -/
def dailySpareSelfTest (s : State) : State := s.startTests s.spares

/-- DAILY_SPARE_SELF_TEST (R367). -/
def execDailySpareSelfTest (s : State) : Host.Outcome State Fault Refusal := .next (dailySpareSelfTest s)

/-- A self-test ends: a unit that passes is fit for 24 h, one that fails is retired, EV253 (R367, R370). That of a converter is its
calibration (R224), which its data judge. -/
def selfTestComplete (u : UnitName) (pass : Bool) (cal : Option VernierCal) (s : State) : State :=
  if !(s.ladle.tests.contains u) then s
  else
    let s1 := s.modLadle fun l => { l with tests := l.tests.filter fun x => x != u }
    let done := fun (v : State) => v.modLadle fun l => { l with tested := (l.tested.filter fun x => x.1 != u) ++ [(u, s.time.mono)] }
    match u, cal with
    | .vernier n, some c => if vernierOk c then done (s1.calibrated n c) else s1.calibrated n c
    | _, _ =>
    if pass then done s1
    else match s1.ladle.migrations.find? fun m => m.target == u with
      | some m => s1.targetFails m
      | none => s1.retireUnit u

/-- SELF_TEST_COMPLETE (R367). -/
def execSelfTestComplete (u : UnitName) (pass : Bool) (cal : Option VernierCal) (s : State) : Host.Outcome State Fault Refusal :=
  .next (selfTestComplete u pass cal s)

/-! ### Aging (R363) -/

/-- AGE_BG, AGE_BULK and AGE_RT of a class (3, 2, 1). -/
def State.ageLimit (s : State) (cls : Nat) : Time := (s.settings.getI .device 0 0 0x0210 (3 - cls) 0).toNat * ms

/-- The work items that may age, each with its class, its arrival and its step to the next higher class: staged records, blocks that await their Press lane,
host jobs that wait, self-tests (R362). -/
def State.agingItems (s : State) : List (Nat × Time × (State → State)) :=
  let tx := s.streams.queue.map fun it => (it.cls, it.arrived, fun (u : State) =>
    ({ u with streams := { u.streams with queue := u.streams.queue.map fun y => if y == it then { it with cls := it.cls - 1 } else y } } : State))
  let blocks := (List.finRange 26).flatMap fun n => s.press[n].blocks.map fun b => (b.cls, b.arrived, fun (u : State) =>
    u.modPress n fun l => { l with blocks := l.blocks.map fun y => if y == b then { b with cls := b.cls - 1 } else y })
  let jobs := (s.jobs.filter fun j => !j.running).map fun j => (j.cls, j.arrived, fun (u : State) =>
    ({ u with jobs := u.jobs.map fun y => if y == j then { j with cls := j.cls - 1 } else y } : State))
  let tests := (s.ladle.testAges.filter fun x => s.ladle.tests.contains x.1).map fun x => (x.2.2, x.2.1, fun (u : State) =>
    u.modLadle fun l => { l with testAges := l.testAges.map fun y => if y == x then (x.1, x.2.1, x.2.2 - 1) else y })
  (tx ++ blocks ++ jobs ++ tests).filter fun x => x.1 != 0

/-- When an item moves up: past the age limit of its class, counted from its arrival (R363). -/
def State.ageDue (s : State) (x : Nat × Time × (State → State)) : Time := x.2.1 + s.ageLimit x.1

/-- The item that exceeds its class's limit first moves to the next higher class. -/
def workItemAged (s0 : State) : State :=
  match s0.agingItems with
  | [] => s0
  | x :: xs =>
    let it := xs.foldl (fun (a : Nat × Time × (State → State)) b => if s0.ageDue b < s0.ageDue a then b else a) x
    let s1 := it.2.2 (s0.until (s0.ageDue it))
    if it.1 = 1 then s1.modLadle fun l => { l with aged := if l.aged = 0xFFFFFFFF then l.aged else l.aged + 1 } else s1

/-- WORK_ITEM_AGED (R363). -/
def execWorkItemAged (s : State) : Host.Outcome State Fault Refusal := .next (workItemAged s)

/-! ### Overflow, runs and drains (R364, R373) -/

/-- A zone's oldest block in the overflow pool has been held for HOST_TO: it is discarded (R364). -/
def overflowBlockTimeout (zi : ZoneIx) (s0 : State) : State :=
  let z := zi.val
  let limit := (s0.zoneCfg z).zone z 0x170C * ms
  let frame := s0.streams.queue.find? fun it => it.zone == some z && it.inPool && it.seq0.isNone
  let vat := (s0.ladle.place.insts.filter fun x => x.zone == z).findSome? fun x =>
    ((s0.engN x.engine).input.find? fun b => b.inPool).map fun b => (x.engine, b)
  match frame, vat with
  | some it, none =>
    let s := s0.until (it.arrived + limit)
    let size := it.record.bytes.length
    let s1 : State := { s with streams := { s.streams with queue := s.streams.queue.erase it } }
    ((s1.modLadle fun l => { l with overflow := l.overflow - size }).discard z 3 it.lost).hostLate z
  | _, some (e, b) =>
    let s := s0.untilDev (b.arrived + limit)
    let size := b.bytes.length
    ((((s.onEng e fun x => { x with input := x.input.erase b }).modLadle fun l => { l with overflow := l.overflow - size }).discard z 3
      { product := 5, tFirst := b.arrived, tLast := b.arrived, seq := none, size := size })).hostLate z
  | none, none => s0

/-- OVERFLOW_BLOCK_TIMEOUT (R364). -/
def execOverflowBlockTimeout (z : ZoneIx) (s : State) : Host.Outcome State Fault Refusal := .next (overflowBlockTimeout z s)

/-- A cause of a zone's run has gathered for 1 s: its record is written, and the run goes on (R364). -/
def discardRunRecord (zi : ZoneIx) (s0 : State) : State :=
  let z := zi.val
  match s0.zoneRt z with
  | none => s0
  | some r =>
    match r.runs with
    | [] => s0
    | x :: xs =>
      let d := xs.foldl (fun (a : DiscardRun) b => if b.since < a.since then b else a) x
      let s := s0.until (d.since + sec)
      (s.modZone z fun r => { r with runs := r.runs.filter fun y => y.cause != d.cause }).wheyZone z d.whey

/-- DISCARD_RUN_RECORD (R364). -/
def execDiscardRunRecord (z : ZoneIx) (s : State) : Host.Outcome State Fault Refusal := .next (discardRunRecord z s)

/-- HOST_TO after a zone was withdrawn, its staged blocks are discarded with one whey record (R373). -/
def drainHostTimeout (zi : ZoneIx) (s0 : State) : State :=
  let z := zi.val
  match (s0.zoneRt z).bind (·.drainUntil) with
  | none => s0
  | some t =>
    let s := s0.until t
    let mine := fun (it : TxItem) => it.zone == some z && !it.urgent && it.seq0.isNone
    let gone := s.streams.queue.filter mine
    let pool := (gone.filter (·.inPool)).foldl (fun n it => n + it.record.bytes.length) 0
    let s1 := ({ s with streams := { s.streams with queue := s.streams.queue.filter fun it => !(mine it) } } : State).modLadle fun l => { l with
      overflow := l.overflow - pool }
    let w := gone.foldl (fun (w : Whey) it =>
      let b := it.lost
      let q := b.seq.getD 0xFFFFFFFF
      { w with
        products := w.products ||| productBit b.product, tFirst := if w.count = 0 then b.tFirst else min w.tFirst b.tFirst
        tLast := max w.tLast b.tLast, count := w.count + 1, lostBytes := w.lostBytes + b.size
        seqFirst := if w.seqFirst = 0xFFFFFFFF then q else w.seqFirst, seqLast := if b.seq.isSome then q else w.seqLast }) (Whey.blank 11 z 0)
    let s2 := if gone.isEmpty then s1 else s1.wheyZone z w
    (s2.modZone z fun r => { r with drainUntil := none }).endDrain z

/-- DRAIN_HOST_TIMEOUT (R373). -/
def execDrainHostTimeout (z : ZoneIx) (s : State) : Host.Outcome State Fault Refusal := .next (drainHostTimeout z s)

end Sys2Proof.Machine
end

