-- ==== Sys2Proof/Machine/Press.lean ====
section
/-! DEFINITION. The Press: prediction and residues, zone blocks, host jobs, lanes disabled, aborted and lost (R382 to R409). -/

namespace Sys2Proof.Machine

/-! ### Prediction and residues (R387, R388) -/

/-- MED: the median of a, b and a + b − c. -/
def medPred (a b c : Int) : Int := if max a b ≤ c then min a b else if c ≤ min a b then max a b else a + b - c

/-- The prediction of an element from a (left), b (above) and c (above left), as far as they exist. -/
def predict (pred : Nat) (a b c : Option Int) : Int :=
  if pred = 0 then 0
  else match a, b, c with
    | some x, some y, some w => match pred with
      | 1 => y
      | 2 => x
      | 3 => x + y - w
      | _ => medPred x y w
    | some x, none, _ => x
    | none, some y, _ => y
    | _, _, _ => 0

/-- The residue of an element, read as signed and mapped to u. -/
def residue (width : Nat) (x p : Int) : Nat :=
  let r := signed (8 * width) ((x - p) % (2 ^ (8 * width) : Int)).toNat
  if 0 ≤ r then (2 * r).toNat else (-2 * r - 1).toNat

/-- u of every element of a row, given the row above. -/
def rowResidues (width pred : Nat) (row : List Int) (above : Option (List Int)) : List Nat :=
  row.zipIdx.map fun xz =>
    let a := if xz.2 = 0 then none else row[xz.2 - 1]?
    let b := above.bind fun l => l[xz.2]?
    let c := if xz.2 = 0 then none else above.bind fun l => l[xz.2 - 1]?
    residue width xz.1 (predict pred a b c)

/-- A row's bytes: split into byte planes, or element by element. -/
def rowBytes (width : Nat) (shuffle : Bool) (us : List Nat) : List Byte :=
  if shuffle then (List.range width).flatMap fun k => us.map fun u => BitVec.ofNat 8 (u / 256 ^ k)
  else us.flatMap fun u => le width u

/-- The residue stream of a block. -/
def residueStream (width pred : Nat) (shuffle : Bool) (rows : List (List Int)) : List Byte :=
  rows.zipIdx.flatMap fun ri =>
    rowBytes width shuffle (rowResidues width pred ri.1 (if ri.2 = 0 then none else rows[ri.2 - 1]?))

/-- The coded stream of rows: PRED, DYNAMIC, DEPTH, LAZY, WIN_KIB, SUB_KIB, SHUFFLE (R389 to R392). -/
def pressStream (pars : List Nat) (width : Nat) (rows : List (List Int)) : List Byte :=
  let g := fun (i : Nat) => pars.getD i 0
  deflate (g 1 == 1) (g 2) (g 3 == 1) (g 4) (g 5) (width * ((rows.map List.length).headD 0))
    (residueStream width (g 0) (g 6 == 1) rows)

/-! ### Counters and state of a lane (R408, R409) -/

/-- IN and OUT advance by bytes. -/
def PressLane.count (l : PressLane) (i o : Nat) : PressLane :=
  let a := l.inRem + i
  let b := l.outRem + o
  { l with inR := l.inR + BitVec.ofNat 32 (a / 65536), inRem := a % 65536, outR := l.outR + BitVec.ofNat 32 (b / 65536), outRem := b % 65536 }

/-- STATE of a lane that works on what it has: ZONE or IDLE; draining, disabled and retired lanes keep theirs. -/
def PressLane.settle (l : PressLane) : PressLane :=
  if fld l.stat 0 3 < 3 then { l with stat := setFld l.stat 0 3 (if l.blocks.isEmpty then 0 else 1) } else l

/-! ### Zone blocks (R393, R394) -/

/-- The 64-byte header and the payload of a block; the flag is RAW. -/
def PressBlk.coded (b : PressBlk) : List Byte × Bool :=
  let f := b.frame
  let rows := f.rows.map (·.vals)
  let raw := elements f.width f.rows
  let z := pressStream b.pars f.width rows
  let isRaw := decide (raw.length ≤ z.length)
  let pay := if isRaw then raw else z
  let g := fun (i : Nat) => b.pars.getD i 0
  let flags := b01 isRaw + 2 * g 1 + 4 * g 6 + 8 * g 3
  (le 2 0x0030 ++ [1] ++ le 1 flags ++ le 1 f.product ++ le 1 (g 0) ++ le 1 f.width ++ le 1 f.band ++ le 2 f.zone ++ le 2 (g 4) ++
    le 4 f.firstPoint ++ le 4 f.nCols ++ le 4 f.rows.length ++ stampB ((f.rows.map (·.t)).headD 0) ++ stampB ((f.rows.map (·.t)).getLastD 0) ++
    le 4 raw.length ++ le 4 pay.length ++ le 4 (crc32 raw) ++ le 4 b.blockSeq.toNat ++ pay, isRaw)

/-- A lane finishes a zone block, the oldest of the highest class that waits (R362), and delivers it to staging, raw if it did not shrink. -/
def pressBlockCoded (n : PressIx) (s : State) : State :=
  match s.press[n].blocks with
  | [] => s
  | x :: xs =>
    let b := xs.foldl (fun (a : PressBlk) y => if y.cls < a.cls then y else a) x
    let rest := s.press[n].blocks.erase b
    let (bytes, isRaw) := b.coded
    let rawLen := (elements b.frame.width b.frame.rows).length
    let s1 := s.modPress n fun l =>
      let l1 := ({ l with blocks := rest } : PressLane).count rawLen (bytes.length - 64)
      if isRaw then { l1 with stat := setBit l1.stat 4, rawCnt := if l1.rawCnt = 0xFFFFFFFF then l1.rawCnt else l1.rawCnt + 1 }.settle
      else l1.settle
    let s2 := if isRaw && bit s1.press[n].ctl 2 then s1.raiseN (152 + n.val) else s1
    let z := b.frame.zone
    (s2.stage z (zoneStream z) (.curd { b.frame with press := some bytes }) (s2.zoneClass z)).endDrain z

/-- PRESS_BLOCK_CODED (R393). -/
def execPressBlockCoded (n : PressIx) (s : State) : Host.Outcome State Fault Refusal := .next (s.cave (pressBlockCoded n))

/-! ### Host jobs (R396 to R403) -/

/-- A number in a descriptor. -/
def jobField (d : List Byte) (off len : Nat) : Nat := rd d off len
/-- Bytes of a job's row. -/
def jobRow (d : List Byte) : Nat := jobField d 16 4 * jobField d 9 1
/-- Its parameters in the order of `pressStream`. -/
def jobPars (d : List Byte) : List Nat :=
  let f := jobField d 10 1
  [jobField d 8 1, f % 2, jobField d 12 2, f / 4 % 2, jobField d 11 1, jobField d 14 1, f / 2 % 2]
/-- SHRINK: 0 stands for its default, 256. -/
def jobShrink (d : List Byte) : Nat := jobField d 20 2

/-- A submission's areas: input, output, state, completion, as (start, length). -/
def jobAreas (d : List Byte) : List (Nat × Nat) :=
  [(jobField d 24 8, jobField d 32 4), (jobField d 40 8, jobField d 36 4), (jobField d 48 8, 2097152), (jobField d 56 8, 32)]

/-- Whether two areas share a byte. -/
def overlap (a b : Nat × Nat) : Bool := decide (a.1 < b.1 + b.2) && decide (b.1 < a.1 + a.2)

/-- Whether every field is in its range and every reserved field is zero (R396). -/
def jobFieldsOk (d : List Byte) : Bool :=
  let f := jobField d
  let row := jobRow d
  f 0 2 == 0x31 && f 2 1 == 1 && (f 3 1 == 1 || f 3 1 == 2) && decide (f 8 1 ≤ 4) && [1, 2, 4].contains (f 9 1) && (f 9 1 != 1 || f 8 1 == 0) &&
    decide (f 10 1 < 16) && decide (1 ≤ f 11 1) && decide (f 11 1 ≤ 32) && decide (1 ≤ f 12 2) && decide (f 12 2 ≤ 4096) && decide (4 ≤ f 14 1) &&
    decide (f 14 1 ≤ 64) && f 15 1 == 0 && decide (1 ≤ f 16 4) && decide (row ≤ 1048576) && decide (1 ≤ f 20 2) && decide (f 20 2 ≤ 256) &&
    f 22 2 == 0 && f 32 4 % (max 1 row) == 0 && decide (f 32 4 ≤ 67108864) && decide (64 ≤ f 36 4) && decide (f 36 4 ≤ 67108864) &&
    f 48 8 % 64 == 0 && f 56 8 % 64 == 0

/-- The fields that a RESUME must share with its COMPRESS (R401). -/
def jobSame (d : List Byte) : List Nat := [jobField d 8 1, jobField d 9 1, jobField d 10 1, jobField d 11 1, jobField d 12 2, jobField d 14 1,
  jobField d 16 4, jobField d 20 2]

/-- The lane that a job goes to: in service, with the most unbooked capacity, the lowest index among equals (R398). -/
def State.jobLane (s : State) : Option Nat :=
  let ok := (List.range 26).filter s.pressOk
  match ok with
  | [] => none
  | x :: xs => some (xs.foldl (fun b n => if s.ladle.place.pressUsed n < s.ladle.place.pressUsed b then n else b) x)

/-- The refusal of a submission, in R397's order; 0 when it stands. -/
def State.jobRefusal (s : State) (d : List Byte) : Status :=
  let size := 2 ^ s.boot.hostAreaLog * 1048576
  let areas := jobAreas d
  let outs := areas.drop 1
  let others := s.jobs.flatMap fun j => jobAreas j.desc
  if !(jobFieldsOk d) then 0x0220
  else if (areas.any fun a => decide (size < a.1 + a.2)) || (outs.any fun a => overlap (areas.headD (0, 0)) a) ||
      (outs.any fun a => others.any fun b => overlap a b) then 0x0221
  else if s.jobs.length ≥ 64 then 0x011D
  else if s.jobLane.isNone then 0x0303
  else if jobField d 3 1 = 2 then
    match s.savedJobs.find? fun x => x.stateOff == jobField d 48 8 with
    | some x => if jobSame x.desc == jobSame d && jobField d 32 4 == x.inLen - x.totalIn then 0 else 0x011E
    | none => 0x011E
  else 0

/-- A free lane in service takes up the oldest job that the Ladle gave it (R398). -/
def hostJobStart (n : PressIx) (s : State) : State :=
  let l := s.press[n]
  let assign : List HostJob := s.jobs.map fun j => if j.lane.isNone then { j with lane := s.jobLane } else j
  if !(s.pressOk n.val) || !l.blocks.isEmpty || (assign.any fun j => j.lane == some n.val && j.running) then { s with jobs := assign }
  else match assign.find? fun j => j.lane == some n.val with
    | none => { s with jobs := assign }
    | some j =>
      ({ s with jobs := assign.map fun x => if x == j then { x with running := true, setAside := false } else x } : State).modPress n fun l => { l with
        stat := setFld l.stat 0 3 2 }

/-- HOST_JOB_START (R398). -/
def execHostJobStart (n : PressIx) (s : State) : Host.Outcome State Fault Refusal := .next (s.cave (hostJobStart n))

/-- What a submission comes to: RESULT, bytes at OUT_OFF, TOTAL_IN, TOTAL_OUT. -/
structure JobEnd where
  result : Nat
  out : List Byte
  totalIn : Nat
  totalOut : Nat

/-- Rows of an input as elements. -/
def jobRows (d : List Byte) (bs : List Byte) : List (List Int) :=
  let w := max 1 (jobField d 9 1)
  let cols := jobField d 16 4
  let isS := jobField d 10 1 / 8 % 2 == 1
  (List.range (bs.length / max 1 (cols * w))).map fun r => splitEqual isS w cols (bs.drop (r * cols * w))

/-- How a job stops when its coder runs: DONE, OUT_FULL or NOSHRINK (R399, R400, R402). `t0` is TOTAL_OUT before, `inLen` the IN_LEN of the
COMPRESS, `whole` the input since the COMPRESS. -/
def jobNatural (d : List Byte) (t0 inLen : Nat) (whole : List Byte) : JobEnd :=
  let z := pressStream (jobPars d) (jobField d 9 1) (jobRows d whole)
  let limit := inLen * jobShrink d / 256
  let cap := t0 + jobField d 36 4
  let stopAt := if limit ≤ z.length ∧ limit - 1 ≤ cap then some (2, limit - 1) else if cap < z.length then some (1, cap) else none
  match stopAt with
  | none => { result := 0, out := z.drop t0, totalIn := whole.length, totalOut := z.length }
  | some (r, k) =>
    let rows := min (whole.length / max 1 (jobRow d)) (Config.coderRows (jobPars d) whole k)
    { result := r, out := (z.take k).drop t0, totalIn := rows * jobRow d, totalOut := max t0 k }

/-- How a cancelled job stops after `rows` rows of this submission (R403). -/
def jobCancelled (d : List Byte) (t0 : Nat) (before whole : List Byte) (rows : Nat) : JobEnd :=
  let z := pressStream (jobPars d) (jobField d 9 1) (jobRows d whole)
  let total := min whole.length (before.length + rows * jobRow d)
  let k := min (t0 + jobField d 36 4) (max t0 (min z.length (Config.coderBytes (jobPars d) whole (total / max 1 (jobRow d)))))
  { result := 3, out := (z.take k).drop t0, totalIn := total, totalOut := k }

/-- The completion record (R399). -/
def jobRecord (d : List Byte) (e : JobEnd) (consumed crc lane piece : Nat) : List Byte :=
  le 2 0x0032 ++ [1] ++ le 1 e.result ++ le 4 (jobField d 4 4) ++ le 4 consumed ++ le 4 e.out.length ++ le 4 e.totalIn ++ le 4 e.totalOut ++
    le 4 crc ++ le 1 lane ++ le 1 piece ++ zeros 2

/-- The job's record is written at COMP_OFF, JOB_DONE sets, and the lane is free (R399). -/
def State.finishJob (s : State) (n : PressIx) (j : HostJob) (e : JobEnd) (consumed crc piece : Nat) : State :=
  let d := j.desc
  let s1 : State := { s with
    jobs := s.jobs.filter fun x => x != j
    hostArea := (s.hostArea.writes (jobField d 40 8) e.out).writes (jobField d 56 8) (jobRecord d e consumed crc n.val piece) }
  let s2 := s1.modPress n fun l =>
    let l1 := l.count consumed e.out.length
    ({ l1 with stat := setBit l1.stat 5 } : PressLane).settle
  if bit s2.press[n].ctl 3 then s2.raiseN (152 + n.val) else s2

/-- The job running on a lane stops. `input` is what the input area holds. -/
def hostJobStop (n : PressIx) (input : List Byte) (how : JobStop) (s : State) : State :=
  match s.jobs.find? fun j => j.lane == some n.val && j.running with
  | none => s
  | some j =>
    let d := j.desc
    let isResume := jobField d 3 1 == 2
    let prior := if isResume then s.savedJobs.find? fun x => x.stateOff == jobField d 48 8 else none
    let before := match prior with | some x => x.input | none => []
    let t0 := match prior with | some x => x.totalOut | none => 0
    let inLen := match prior with | some x => x.inLen | none => jobField d 32 4
    let piece := match prior with | some x => x.piece + 1 | none => 1
    let whole := before ++ cut input 0 (jobField d 32 4)
    let e := match how with
      | .cancelled rows => if j.cancel then jobCancelled d t0 before whole rows else jobNatural d t0 inLen whole
      | .natural => jobNatural d t0 inLen whole
    let s1 := s.finishJob n j e (e.totalIn - before.length) (crc32 (whole.take e.totalIn)) piece
    let others := s1.savedJobs.filter fun x => x.stateOff != jobField d 48 8
    let saved : List SavedJob := if e.result = 1 then
        others ++ [{ desc := d, stateOff := jobField d 48 8, totalIn := e.totalIn, totalOut := e.totalOut, inLen := inLen, piece := piece
                     input := whole.take e.totalIn }]
      else others
    { s1 with savedJobs := saved }

/-- HOST_JOB_STOP (R399). -/
def execHostJobStop (n : PressIx) (input : List Byte) (how : JobStop) (s : State) : Host.Outcome State Fault Refusal :=
  .next (s.cave (hostJobStop n input how))

/-- A job is cancelled (R403): a queued one is removed, one that has begun stops at its next row boundary. -/
def State.cancelJobs (s : State) (tag : Nat) : State :=
  { s with jobs := (s.jobs.filter fun j => jobField j.desc 4 4 != tag || j.running || j.setAside).map fun j =>
      if jobField j.desc 4 4 = tag then { j with cancel := true } else j }

/-! ### Lanes: disabled, aborted, lost (R404 to R406) -/

/-- A host job in progress stops with ABORTED (R405), as far as it had come: how far is not stated, and its counts, CRC and output bytes are free values
within its limits (log entry 4, DESIGN CHOICE). -/
def State.abortJob (s : State) (n : PressIx) : State :=
  match s.jobs.find? fun j => j.lane == some n.val && (j.running || j.setAside) with
  | none => s
  | some j =>
    let d := j.desc
    let prior := if jobField d 3 1 = 2 then s.savedJobs.find? fun x => x.stateOff == jobField d 48 8 else none
    let t0 := match prior with | some x => (x.totalIn, x.totalOut, x.piece) | none => (0, 0, 0)
    let (v, s1) := s.fresh
    let (w, s2) := s1.fresh
    let consumed := v.toNat % (jobField d 32 4 / max 1 (jobRow d) + 1) * jobRow d
    let (out, s2b) := s2.freshBytes (w.toNat % (jobField d 36 4 + 1))
    let (crc, s2c) := s2b.fresh
    let e : JobEnd := { result := 4, out := out, totalIn := t0.1 + consumed, totalOut := t0.2.1 + out.length }
    let s3 := s2c.finishJob n j e consumed (crc.toNat % 2 ^ 32) (t0.2.2 + 1)
    { s3 with savedJobs := s3.savedJobs.filter fun x => x.stateOff != jobField d 48 8 }

/-- A write of PRESS_CTLn: EV_RAW and EV_JOB, ABORT, and EN as R404 lays down. -/
def writePressCtl (n : PressIx) (v : Word) (s : State) : State :=
  let old := s.press[n]
  let s1 := (s.modPress n fun l => { l with ctl := wrRW 0xC l.ctl v }).hazardIf (bit v 1)
  let s2 := if bit v 1 then
      (((s1.movePress n).abortJob n).freeJobs n.val).modPress n fun l => { l with stat := if fld l.stat 0 3 = 5 then l.stat else setFld l.stat 0 3 4 }
    else s1
  if bit old.ctl 0 && !(bit v 0) then
    if fld s2.press[n].stat 8 12 ≠ 0 then s2.modPress n fun l => { l with stat := setBit l.stat 6 }
    else
      let runs := s2.jobs.any fun j => j.lane == some n.val && j.running
      let s3 := s2.modPress n fun l => { l with
        ctl := clrBit l.ctl 0, stat := if fld l.stat 0 3 = 5 then l.stat else setFld l.stat 0 3 (if runs then 3 else 4) }
      let s4 : State := { s3 with jobs := s3.jobs.map fun j => if j.lane = some n.val ∧ !j.running then { j with lane := none } else j }
      (if runs then s4 else s4.raiseN (152 + n.val)).refreshLadle
  else if !(bit old.ctl 0) && bit v 0 then
    (s2.modPress n fun l => ({ l with ctl := setBit l.ctl 0, stat := if fld l.stat 0 3 = 5 then l.stat else setFld l.stat 0 3 0 } : PressLane).settle).refreshLadle
  else s2

/-- PRESS_ABORT (R405). -/
def execPressAbort (n : PressIx) (v : Word) (s : State) : Host.Outcome State Fault Refusal := .next (s.written (writePressCtl n v))
/-- PRESS_DISABLE (R404). -/
def execPressDisable (n : PressIx) (v : Word) (s : State) : Host.Outcome State Fault Refusal := .next (s.written (writePressCtl n v))

/-- A draining lane whose job piece is finished reads DISABLED, and its event is raised (R404, R410). -/
def pressDrainComplete (n : PressIx) (s : State) : State :=
  if fld s.press[n].stat 0 3 = 3 ∧ !(s.jobs.any fun j => j.lane == some n.val && j.running) then
    (s.modPress n fun l => { l with stat := setFld l.stat 0 3 4 }).raiseN (152 + n.val)
  else s

/-- PRESS_DRAIN_COMPLETE (R404). -/
def execPressDrainComplete (n : PressIx) (s : State) : Host.Outcome State Fault Refusal := .next (pressDrainComplete n s)

/-- PRESS_LANE_LOST (R406). -/
def execPressLaneLost (n : PressIx) (s : State) : Host.Outcome State Fault Refusal := .next (unitLost (.press n) true s)

end Sys2Proof.Machine
end

