-- ==== Sys2Proof/Machine/Protocol.lean ====
section
/-! DEFINITION. The Birligrim protocol: replies, sessions, credits, retransmission (R448 to R451), the refusals of R474 and R546, and how a
command is staged or executed (R452). -/

namespace Sys2Proof.Machine

/-- What executing a command comes to: an answer now, an answer still due, or an answer given. -/
inductive Res where
  | done (st : Status) (items : List (List Byte)) (s : State)
  | later (s : State)
  | sent (s : State)                                        -- its reply has left already

/-- A refusal with no items; nothing of the command is applied (R11). -/
def Res.refuse (st : Status) (s : State) : Res := .done st [] s
/-- Success with items. -/
def Res.ok (items : List (List Byte)) (s : State) : Res := .done 0 items s

/-- The class of a status (R10). -/
def statusClass (st : Status) : Nat := st.toNat / 256

/-- The request slot of a command becomes free when its reply has been sent (R503); not while part of it waits for the reply ring. -/
def State.freeSlot (s : State) (t : Transport) (sess : BitVec 8) (seq : BitVec 32) : State :=
  match t with
  | .ring n => s.modCr n fun r =>
      if r.waiting.any fun b => rd b 8 4 == seq.toNat && rd b 3 1 == sess.toNat then r
      else
        let mine := fun (x : BitVec 8 × BitVec 32 × Nat) => x.1 == sess && x.2.1 == seq
        { r with
          busy := (r.slots.filter mine).foldl (fun b x => b &&& ~~~(1#64 <<< x.2.2)) r.busy
          slots := r.slots.filter fun x => !(mine x) }
  | _ => s

/-- Packets of a reply leave on a transport. -/
def State.sendAll (s : State) (t : Transport) (pk : List (List Byte)) : State := pk.foldl (fun u b => u.sendReply t b) s

/-- Answers a command that belongs to no open session, or that is refused before it counts (R442, R448, R449): not kept. -/
def State.answer (s : State) (op : Nat) (k : Packet) (st : Status) (items : List (List Byte)) : State :=
  (s.sendAll k.transport (replyPackets op k st k.txn.toNat false items)).freeSlot k.transport k.session k.seq

/-- A session after a command completes: its reply is kept, the last 64 (R451), unless the session is closed. -/
def Session.keep (y : Session) (seq : BitVec 32) (pk : List (List Byte)) : Session :=
  if y.isOpen then { y with inProgress := none, kept := (y.kept ++ [({ seq := seq, packets := pk } : KeptReply)]).drop (y.kept.length + 1 - 64) }
  else { y with inProgress := none }

/-- Completes a command of session `i`: its reply is sent and kept for retransmission (R451); class 0x06 raises EV248 (R476). A closed
session's reply is discarded (R448). -/
def State.complete (s : State) (i : SessIx) (op : Nat) (k : Packet) (st : Status) (txn : Nat) (staged : Bool) (items : List (List Byte)) : State :=
  let pk := replyPackets op k st txn staged items
  let x := s.sessions[i]
  let s1 := if x.isOpen then s.sendAll x.transport pk else s
  let s2 := s1.freeSlot k.transport k.session k.seq
  let s3 := s2.modSess i fun y => y.keep k.seq pk
  if statusClass st = 6 then s3.raise 248 else s3

/-- Completes a command that was in progress; when its session has closed since, the reply is discarded (R448). -/
def State.finish (s : State) (i : SessIx) (op : BitVec 16) (k : Packet) (st : Status) (items : List (List Byte)) : State :=
  if s.sessions[i].isOpen && s.sessions[i].inProgress == some (op, k) then s.complete i op.toNat k st k.txn.toNat false items
  else
    let s1 := s.freeSlot k.transport k.session k.seq
    if statusClass st = 6 then s1.raise 248 else s1

/-! ### Sessions (R448, R449) -/

/-- The DEVICE item (R445): VARIANT, REVISION "B1", DEVICE_UID, firmware version. -/
def deviceItem (s : State) : List Byte :=
  item 0x0309 (le 1 (b01 s.glb.variantM) ++ [0x42, 0x31, 0] ++ le 8 s.glb.uid.toNat ++ leW s.glb.fwver)

/-- Commands of a session that are outstanding (R449): in progress, waiting, or with a reply held back by a full ring. -/
def State.outstanding (s : State) (i : SessIx) : Nat :=
  let x := s.sessions[i]
  b01 x.inProgress.isSome + x.waiting.length + (match x.transport with
    | .ring n => (s.links.cr[n].waiting.filter fun b => rd b 3 1 == i.val && rd b 2 1 / 8 % 2 == 0).length
    | _ => 0)

/-- Whether a reply of a session still waits for its ring, so that its next command cannot start (R450). -/
def State.replyHeld (s : State) (i : SessIx) : Bool :=
  match s.sessions[i].transport with
  | .ring n => s.links.cr[n].waiting.any fun b => rd b 3 1 == i.val
  | _ => false

/-- The lowest free session. -/
def State.freeSession (s : State) : Option SessIx := (List.finRange 4).find? fun i => !s.sessions[i].isOpen

/-- The request slot of a SESSION_OPEN belongs to the session that it opens. -/
def State.bindSlot (s : State) (k : Packet) (i : SessIx) : State :=
  let mine := fun (x : BitVec 8 × BitVec 32 × Nat) => if x.1 == k.session && x.2.1 == k.seq then (BitVec.ofNat 8 i.val, x.2) else x
  match k.transport with
  | .ring n => s.modCr n fun r => { r with slots := r.slots.map mine }
  | _ => s

/-- Opens the lowest free session on the transport of the command (R448). Its reply carries the session's number (R441, log entry 90, DEDUCED). -/
def openSession (k : Packet) (p : Parsed) (s : State) : State :=
  match s.freeSession with
  | none => s.answer 0x0101 k 0x0102 []
  | some i =>
    let s1 := s.modSess i fun x => { Session.reset with
      isOpen := true, transport := k.transport, timeout := p.getD 0x0221 30, lastRx := s.time.mono, nextTxn := x.nextTxn }
    (s1.bindSlot k i).complete i 0x0101 { k with session := BitVec.ofNat 8 i.val } 0 k.txn.toNat false [item 0x0301 (le 1 i.val), item 0x0302 (le 1 64), deviceItem s1]

/-- Closes a session: its transaction is rolled back; a command in progress completes with its reply discarded, and those not yet started are
dropped (R448). -/
def State.closeSession (s : State) (i : SessIx) : State :=
  let s1 := s.sessions[i].waiting.foldl (fun u c => u.freeSlot c.2.transport c.2.session c.2.seq) s
  s1.modSess i fun x => { x with isOpen := false, txn := none, timedOut := [], kept := [], waiting := [] }

/-! ### Executing (R450 to R453, R474, R546) -/

/-- Whether the device has completed B15. -/
def State.ready (s : State) : Bool := bit s.glb.stat 5
/-- Power state of R543 that decides what is accepted: during a transition, the target's (R546). -/
def State.power (s : State) : Nat := fld s.boot.pwrStat 0 2

/-- Opcodes that IDLE accepts (R546). -/
def idleAccepts (op : Nat) : Bool :=
  [0x01, 0x07, 0x0B, 0x0C].contains (op / 256) ||
    [0x0309, 0x030A, 0x0404, 0x0503, 0x0602, 0x0603, 0x0604, 0x0605, 0x0803, 0x0903, 0x0A04, 0x0A05, 0x0A07].contains op

/-- Refusals that come before the items: unknown opcode, boot, power state (R474, R546). -/
def preCheck (op : Nat) (s : State) : Status :=
  if !(opcodes.contains op) then 0x0201
  else if !s.ready && op / 256 ≠ 0x01 && op / 256 ≠ 0x0B then 0x0105
  else if s.power = 2 ∧ !(idleAccepts op) then 0x0104
  else if s.power = 3 then 0x0104
  else 0

/-- The command's items, with the selectors and items that it must carry (R446). -/
def operands (op : Nat) (k : Packet) : Except Status Parsed :=
  match parse op k.body with
  | .error e => .error e
  | .ok p =>
    if needsSel op && p.sels.isEmpty then .error 0x020D
    else if (required op).any fun c => !(p.items.any fun x => x.1.code == c) then .error 0x020D
    else .ok p

/-- Items of a staged command in bytes, for the limit of R455. -/
def Txn.bytes (t : Txn) : Nat := (t.staged.map (·.bytes)).foldl (· + ·) 0

/-- Settings that the next commit starts from: those of the last waiting commit, or those in force (R460). -/
def State.base (s : State) : Settings := match s.commits.getLast? with | some c => c.target | none => s.settings

/-- A command as it is staged: what it sets and removes, and the generations that it saw (R457). -/
def stagedOf (op : Nat) (k : Packet) (p : Parsed) (base : Settings) : Staged :=
  let removes : List (Kind × Nat) := match op with
    | 0x0306 => (p.named 0x0104).map fun i => (Kind.emitter, i)
    | 0x0402 => (p.named 0x0102).map fun i => (Kind.zone, i)
    | 0x0A02 => (p.named 0x0109).map fun i => (Kind.trigger, i)
    | _ => []
  { seq := k.seq, opcode := BitVec.ofNat 16 op, updates := p.items, removes := removes,
    gens := p.items.map (fun x => (x.1, base.gen x.1)) ++
      ((base.filter fun x => removes.contains (x.key.kind, x.key.inst)).map fun x => (x.key, x.gen)),
    bytes := k.body.length }

/-- Stages a command in its session's open transaction (R452, R455). -/
def stageCmd (i : SessIx) (op : Nat) (k : Packet) (p : Parsed) (s : State) : Status × State :=
  match s.sessions[i].txn with
  | none => (if s.sessions[i].timedOut.contains k.txn.toNat then 0x0502 else 0x0501, s)
  | some t =>
    if t.id ≠ k.txn.toNat then (if s.sessions[i].timedOut.contains k.txn.toNat then 0x0502 else 0x0501, s)
    else
      let c := stagedOf op k p s.base
      if t.staged.length ≥ 256 ∨ t.bytes + c.bytes > 1048576 then (0x0504, s)
      else (0, s.modSess i fun x => { x with txn := some { t with staged := t.staged ++ [c], lastRx := s.time.mono } })

/-- Ports that an immediate command changes, for the wait of R460. -/
def immediatePorts (op : Nat) (p : Parsed) (ss : Settings) : List Nat :=
  match op with
  | 0x0307 => (List.range 24).filter fun n => ss.hasPlan n && (p.named 0x0105).contains (portGroup ss n)
  | 0x0308 => p.named 0x0101
  | 0x0502 => p.named 0x0101
  | 0x0606 => p.named 0x0101
  | 0x0409 => (p.named 0x0102).map (zonePort ss)
  | _ => []

/-- Whether a command waits for the boundary of a waiting commit that touches its instance (R460). -/
def State.held (s : State) (op : Nat) (p : Parsed) : Bool :=
  let ps := immediatePorts op p s.settings
  s.commits.any fun c => ps.any c.touched.contains

/-- Meanings of commands: what a command does once its items stand. -/
abbrev Run := SessIx → Packet → Parsed → State → Res

/-- A command arrived in a session (R448). -/
def Session.heard (y : Session) (now : Time) : Session := { y with lastRx := now }

/-- A command that names the session's open transaction keeps it from its timeout (R455). -/
def Session.heardTxn (x : Session) (txn : Nat) (now : Time) : Session :=
  match x.txn with
  | some t => if t.id = txn then { x with txn := some { t with lastRx := now } } else x
  | none => x

/-- Starts a command of session `i`: refused, staged, answered, or left in progress. -/
def State.start (s : State) (i : SessIx) (op : Nat) (k : Packet) (run : Run) : State :=
  let s0 := s.modSess i fun x => x.heardTxn k.txn.toNat s.time.mono
  let pre := preCheck op s0
  if pre ≠ 0 then s0.complete i op k pre k.txn.toNat false []
  else match operands op k with
    | .error e => s0.complete i op k e k.txn.toNat false []
    | .ok p =>
      if stageable op && stageFlag k then
        let (st, s1) := stageCmd i op k p s0
        s1.complete i op k st k.txn.toNat (st == 0) []
      else if s0.held op p then s0.modSess i fun x => { x with waiting := (BitVec.ofNat 16 op, k) :: x.waiting }
      else match run i k p s0 with
        | .done st items s1 => s1.complete i op k st k.txn.toNat false items
        | .later s1 => s1.modSess i fun x => { x with inProgress := some (BitVec.ofNat 16 op, k) }
        | .sent s1 => s1

/-- A command packet arrives (R440 to R451). While the main partition is in reset nothing receives it. -/
def arrive (op : Nat) (k : Packet) (run : Run) (s : State) : State :=
  if s.boot.inReset then s
  else if !(headerOk k) then s.answer op k 0x020A []
  else if op = 0x0101 then
    match operands op k with
    | .error e => s.answer op k e []
    | .ok p => openSession k p s
  else match ix 4 k.session.toNat with
    | none => s.answer op k 0x0101 []
    | some i =>
      let x := s.sessions[i]
      if !x.isOpen || x.transport ≠ k.transport then s.answer op k 0x0101 []
      else
        let s1 := s.modSess i fun y => y.heard s.time.mono
        match x.kept.find? fun r => r.seq == k.seq with
        | some r => (s1.sendAll x.transport r.packets).freeSlot k.transport k.session k.seq
        | none =>
          if (match x.inProgress with | some c => c.2.seq == k.seq | none => false) || x.waiting.any (fun c => c.2.seq == k.seq) then s1
          else if s.outstanding i ≥ 64 then s1.answer op k 0x0103 []
          else if x.inProgress.isSome || !x.waiting.isEmpty || s1.replyHeld i then
            s1.modSess i fun y => { y with waiting := y.waiting ++ [(BitVec.ofNat 16 op, k)] }
          else s1.start i op k run

end Sys2Proof.Machine
end

