-- ==== Sys2Proof/Machine/Commit.lean ====
section
/-! DEFINITION. Transactions at their commit: the checks of R453, the commit point, and what takes effect at each commit boundary (R453 to
R461, with R27, R38, R42, R57, R92, R128, R132, R147, R161, R196, R347, R355, R373, R428, R429). -/

namespace Sys2Proof.Machine

/-! ### What a commit would make of the settings -/

/-- One staged command applied to settings: what it removes, then what it sets (R454). -/
def applyStaged (ss : Settings) (c : Staged) : Settings :=
  let s1 : Settings := c.removes.foldl (fun (u : Settings) r =>
    let v := u.drop r.1 r.2
    if r.1 = .zone then v.drop .pin r.2 else v) ss
  c.updates.foldl (fun (u : Settings) x => u.put x.1 x.2) s1

/-- Staged commands in SEQ order. -/
def insertSeq (c : Staged) : List Staged → List Staged
  | [] => [c]
  | x :: xs => if c.seq.toNat ≤ x.seq.toNat then c :: x :: xs else x :: insertSeq c xs
/-- Staged commands in SEQ order. -/
def seqOrder (l : List Staged) : List Staged := l.foldr insertSeq []

/-- Instances of a kind that a staged command names in its items. -/
def Staged.insts (c : Staged) (k : Kind) : List Nat := ((c.updates.filter fun x => x.1.kind == k).map (·.1.inst)).eraseDups
/-- Instances that it removes. -/
def Staged.gone (c : Staged) (k : Kind) : List Nat := (c.removes.filter fun x => x.1 == k).map (·.2)

/-! ### Checks at commit (R453) -/

/-- The setting's first member differs between two settings. -/
def differs (a b : Settings) (k : Kind) (i code : Nat) : Bool := a.getI k i 0 code 0 0 != b.getI k i 0 code 0 0

/-- A change of safety group while an emitter of the old or the new group is on (R57). -/
def State.groupMoves (s : State) (old new : Settings) (k : Kind) (i : Nat) : Bool :=
  differs old new k i 0x0105 && (s.groupLit old (old.get k i 0x0105) || s.groupLit old (new.get k i 0x0105))

/-- F_DREC at most f_M / 2 (R237). -/
def drecOk (ss : Settings) (p : Nat) : Bool := !ss.hasPlan p || decide (ss.port p 0x1508 * 2 * planS ss p ≤ fsHz ss)

/-- Zones of a port that exist already (R147): one that the commit brings is judged at its own command. -/
def standing (base ss : Settings) (p : Nat) : List Nat := (zonesOf ss p).filter base.zones.contains

/-- The F_DREC in force beside a plan or f_S that changes (R237); one that the commit itself sets is judged at its own command. -/
def drecStands (base ss : Settings) (p : Nat) : Bool := ss.port p 0x1508 ≠ base.port p 0x1508 || drecOk ss p

/-- Checks of the zones and delay settings that rest on a port's plan (R147, R237, R355). -/
def dependents (base ss : Settings) (p : Nat) : List (Bool × Status) :=
  ((standing base ss p).flatMap fun z => filterChecks ss z ++ [(rangeOk ss z, 0x021F)]) ++ [(drecStands base ss p, 0x0219)]

/-- The checks that an f_S brings (R38, R147). -/
def fsChecks (base ss : Settings) : List (Bool × Status) :=
  ((List.range 24).filter ss.hasPlan).flatMap fun p =>
    [(bandOk ss p, 0x0204), (decide (nRt ss p ≤ planG ss p * planS ss p), 0x0205)] ++
      ((standing base ss p).flatMap (filterChecks ss)) ++ [(drecStands base ss p, 0x0219)]

/-- Whether a trigger's zone keeps the histories that it names, and they are deep enough (R431). -/
def trigChecks (ss : Settings) (t : Nat) : List (Bool × Status) :=
  let z := trigZone ss t
  let secs := trigPar ss t 1
  let raw := secs % 2 == 1
  let curd := secs / 2 % 2 == 1
  let depth := trigPar ss t 2 + trigPar ss t 3
  let p := zonePort ss z
  let hasRaw := ss.mode p 3
  let hasCurd := ss.zone z 0x1708 != 0
  [ (ss.has .trigger t 0 0x0102 && trigSet ss t, 0x020D),
    (ss.zones.contains z, 0x0225),
    ((raw && hasRaw) || (curd && hasCurd), 0x0222),
    (!(raw && hasRaw) || decide (depth ≤ ss.port p 0x0202), 0x0222),
    (!(curd && hasCurd) || decide (depth ≤ ss.zone z 0x1708), 0x0222) ]

/-- The checks of a MODE_SET for a port (R27, R29, R210, R227, R354, R446). -/
def State.modeChecks (s : State) (old new : Settings) (p : Nat) : List (Bool × Status) :=
  [ (!(new.mode p 3) || new.probing p, 0x0111),
    (!(new.probing p) || bit s.clk.ckg1 p, 0x0115),
    (!(new.probing p) || new.hasPlan p, 0x020D),
    (!(new.mode p 3) || new.has .port p 0 0x0202, 0x020D),
    (!(new.mode p 2) || old.mode p 2 || s.tiu.launchHeld, 0x0308),
    ((standing old new p).all fun z => new.zone z 0x1708 == 0 || new.mode p 3, 0x021E) ]

/-- The checks of one staged command, against the settings before it, those after it and those of the whole commit; its generations first
(R457). `base` holds the settings that the commit starts from. -/
def State.stagedChecks (s : State) (base run new : Settings) (c : Staged) : Status :=
  let n := if s.sdc.known then some s.sdc.ndev else none
  let ports := c.insts .port
  let each := fun (l : List Nat) (f : Nat → List (Bool × Status)) => firstFail (l.flatMap f)
  if c.gens.any fun g => base.gen g.1 != g.2 then 0x0503
  else match c.opcode.toNat with
    | 0x0301 => each ports fun p => planChecks new p ++ dependents base new p
    | 0x0302 => each ports fun p => s.modeChecks base new p
    | 0x0303 => each ports fun p => [(!(s.groupMoves base new .port p), 0x0112), (!(new.hasPlan p) || dbOk new p, 0x0213)]
    | 0x0304 => each ports fun p => [(new.has .port p 0 0x1502, 0x020D), (drecOk new p, 0x0219)]
    | 0x0305 => each (c.insts .emitter) fun e =>
        emitterChecks new n e ++ [(!(emDefined base e) || !(s.groupMoves base new .emitter e), 0x0112)]
    | 0x0306 => each (c.gone .emitter) fun e => [(emDefined run e, 0x0225)]
    | 0x0401 => each (c.insts .zone) fun z => zoneChecks new s.images z
    | 0x0402 => each (c.gone .zone) fun z => [(run.zones.contains z, 0x0225)]
    | 0x0403 => each (c.insts .pin) fun z => [(new.zones.contains z, 0x0225)]
    | 0x0501 => each ports fun p => [(new.probing p, 0x0114), (bit s.clk.ckg1 p, 0x0116),
        (decide (new.port p 0x020E / 256 % 256 ≤ new.port p 0x020F / 65536 % 65536), 0x0202)]
    | 0x0601 => firstFail (fsChecks base new)
    | 0x0A01 => each (c.insts .trigger) (trigChecks new)
    | 0x0A02 => each (c.gone .trigger) fun t => [(trigSet run t, 0x0225)]
    | _ => 0

/-- The first failing command in SEQ order, with its status. -/
def State.firstFailing (s : State) (base new : Settings) : Settings → List Staged → Option (Status × BitVec 32)
  | _, [] => none
  | run, c :: cs =>
    let st := s.stagedChecks base run new c
    if st ≠ 0 then some (st, c.seq) else s.firstFailing base new (applyStaged run c) cs

/-! ### Acceptance (R453, R458, R460) -/

/-- Whether a key belongs to a port's tone plan (R32, R33). -/
def planKey (p : Nat) (k : SetKey) : Bool :=
  k.kind == .port && k.inst == p && (k.code / 256 == 0x10 || k.code == 0x0203 || k.code == 0x0204)

/-- The port under which a setting takes effect: a port's own, a zone's and its pins' (R458). -/
def keyPort (old new : Settings) (k : SetKey) : Option Nat :=
  match k.kind with
  | .port => some k.inst
  | .zone | .pin =>
    if new.zones.contains k.inst then some (zonePort new k.inst)
    else if old.zones.contains k.inst then some (zonePort old k.inst) else none
  | _ => none

/-- Ports that a commit touches: their own settings, and zones that they have or had. -/
def touchedPorts (old new : Settings) (keys : List SetKey) (removes : List (Kind × Nat)) : List Nat :=
  (List.range 24).filter fun p =>
    (keys.any fun k => keyPort old new k == some p ||
      ((k.kind == .zone || k.kind == .pin) && old.zones.contains k.inst && zonePort old k.inst == p)) ||
    removes.any fun r => r.1 == .zone && old.zones.contains r.2 && zonePort old r.2 == p

/-- Ports that a commit restarts: a new tone plan, or a probing mode gained (R458). -/
def restartedPorts (old new : Settings) (keys : List SetKey) : List Nat :=
  (List.range 24).filter fun p => keys.any (planKey p) || (!(old.probing p) && new.probing p)

/-- A port's first frame boundary at or after an instant; none with no frame in progress. -/
def State.boundaryAt (s : State) (p : Nat) (t : Time) : Option Time :=
  let q := s.portN p
  match q.frameStart with
  | some f =>
    let ft := max 1 (frameTime q.plan p)
    if q.frozen then none else some (f + ceilDiv (t - f) ft * ft)
  | none => none

/-- Fixes T_C of the first waiting commit at the present instant A (R458). -/
def State.fixFirst (s : State) : State :=
  match s.commits with
  | [] => s
  | c :: cs =>
    if c.fixed then s
    else
      let a1 := s.time.mono + ms
      let tC := (c.restarted.map fun p => (s.boundaryAt p a1).getD a1).foldl max a1
      { s with commits := { c with fixed := true, a1 := a1, tC := tC, tLast := tC } :: cs }

/-- The placement that the next commit starts from. -/
def State.basePlace (s : State) : Placement := match s.commits.getLast? with | some c => c.placement | none => s.ladle.place

/-- After a commit of its own, a session's staged commands carry the generations that it left (R457). -/
def refreshGens (base new : Settings) (c : Staged) : Staged :=
  { c with gens := c.gens.map fun g => if g.2 = base.gen g.1 then (g.1, new.gen g.1) else g }

/-- Takes staged commands to a commit: the waiting commit's state, or the refusal and its FAIL_SEQ (0 for placement). -/
def State.tryCommit (s : State) (staged : List Staged) (owner : Option (SessIx × BitVec 16 × Packet)) : Except (Status × BitVec 32) State :=
  let base := s.base
  let cs := seqOrder staged
  let new := cs.foldl applyStaged base
  match s.firstFailing base new base cs with
  | some f => .error f
  | none =>
    match placeAll (s.modLadle fun l => { l with place := s.basePlace }) base new false with
    | .error st => .error (st, 0)
    | .ok pl =>
      let keys := (cs.flatMap fun c => c.updates.map (·.1)).eraseDups
      let removes := (cs.flatMap (·.removes)).eraseDups
      let c : Commit := {
        owner := owner, target := new, keys := keys, removes := removes, placement := pl, fixed := false, moved := pl != s.basePlace
        a1 := 0, tC := 0, tLast := 0, restarted := restartedPorts base new keys
        touched := ((touchedPorts base new keys removes) ++ restartedPorts base new keys).eraseDups, deviceDone := false }
      let s1 : State := { s with commits := s.commits ++ [c] }
      let s2 := match owner with
        | some (i, _, _) =>
          let again := fun (t : Txn) => ({ t with staged := t.staged.map (refreshGens base new) } : Txn)
          s1.modSess i fun x => { x with txn := x.txn.map again }
        | none => s1
      .ok s2.fixFirst

/-! ### Device-wide settings at T_C -/

/-- Settings with the listed keys, and everything of the listed instances, taken from a commit. -/
def takeKeys (cur target : Settings) (mine : SetKey → Bool) : Settings := (cur.filter fun x => !(mine x.key)) ++ target.filter fun x => mine x.key

/-- Whether a commit sets or removes a key. -/
def Commit.has (c : Commit) (k : SetKey) : Bool :=
  c.keys.contains k || c.removes.contains (k.kind, k.inst) || (k.kind == .pin && c.removes.contains (.zone, k.inst))

/-- Emitters that a commit defines, redefines or deletes. -/
def Commit.emitters (c : Commit) : List Nat :=
  (((c.keys.filter fun k => k.kind == .emitter).map (·.inst)) ++ (c.removes.filter fun r => r.1 == .emitter).map (·.2)).eraseDups

/-- Whether a commit sets a device parameter. -/
def Commit.sets (c : Commit) (code : Nat) : Bool := c.keys.contains { kind := .device, inst := 0, sub := 0, code := code }

/-- The raw ring of a port restarts empty, or ends (R428). -/
def State.restartRaw (s : State) (p : Nat) : State :=
  match ix 24 p with
  | some i => s.modLook fun l => { l with
      rawSince := l.rawSince.set i (if s.settings.mode p 3 then some s.time.dev else none), rawShrunk := l.rawShrunk.set i 0
      raw := l.raw.set i [] }
  | none => s

/-- A plan or f_S change marks the captures that span it (R434). -/
def State.markPlan (s : State) (p : Nat) : State := s.modLook fun l => { l with planChg := l.planChg ++ [(p, s.time.dev)] }

/-- An f_S change reaches a port: its frame timer runs on at the new f_S, its calibrators and filter chains restart, its raw ring empties. -/
def State.portFs (s : State) (p : PortIx) (old new : Nat) : State :=
  let key : SetKey := { kind := .device, inst := 0, sub := 0, code := 0x020B }
  let s1 := s.modPort p fun q =>
    let q1 := { q with
      plan := if q.plan.isEmpty then q.plan else q.plan.put key [(new : Int)]
      frameStart := q.frameStart.map fun f => s.time.mono - (s.time.mono - f) * old / max 1 new
      resetPending := true }
    (q1.calDiscard .x).calDiscard .y
  (s1.restartRaw p.val).markPlan p.val

/-- No safety group changes while an emitter of the old or the new group is on (R25): a change accepted before an emitter came on leaves the group as it was
(log entry 124, DESIGN CHOICE). -/
def State.keepGroups (s : State) (old new : Settings) (k : Kind) (is : List Nat) : Settings :=
  is.foldl (fun (u : Settings) i =>
    if s.groupMoves old new k i then u.put { kind := k, inst := i, sub := 0, code := 0x0105 } [(old.get k i 0x0105 : Int)] else u) new

/-- What touches no port takes effect at T_C. -/
def State.applyDevice (s : State) (c : Commit) : State :=
  let old := s.settings
  let mine := fun (k : SetKey) => c.has k && (match k.kind with | .device | .emitter | .trigger | .stream => true | _ => false)
  let s1 : State := { s with settings := s.keepGroups old (takeKeys old c.target mine) .emitter (c.emitters.filter (emDefined old)) }
  let new := s1.settings
  let lit := fun (p : Nat) => c.emitters.any fun e =>
    (emDefined old e && emRole old e ≤ 1 && emServes old e == p) || (emDefined new e && emRole new e ≤ 1 && emServes new e == p)
  let s2 := s1.forPorts fun p u => if lit p.val then u.modPort p fun q => { q with declared := false } else u
  let trigs := ((c.keys.filter fun k => k.kind == .trigger).map (·.inst) ++ (c.removes.filter fun r => r.1 == .trigger).map (·.2)).eraseDups
  let s3 := trigs.foldl (fun u t => u.modTrig t fun _ => { last := none, ignored := 0, failed := 0, timeDone := false }) s2
  let s4 := if c.sets 0x020C then writeClkCtl (BitVec.ofNat 32 (new.dev 0x020C)) s3 else s3
  let s5t := if c.sets 0x020D then writeTiuCtl (BitVec.ofNat 32 (new.dev 0x020D)) s4 else s4
  let s5 := if differs old new .device 0 0x1B01 || differs old new .device 0 0x1B02 then s5t.unfollow else s5t
  let n := fld s5.clk.fs 0 13
  if c.sets 0x020B && new.fsN != n then (s5.setFs new.fsN).forPorts fun p u => u.portFs p n new.fsN else s5

/-! ### A port's settings at its commit boundary -/

/-- A zone comes into being; one that still drains under its number takes the new recipe. -/
def State.createZone (s : State) (z : Nat) : State :=
  let s1 := match s.zoneRt z with
    | some _ => (s.closeAll z true).modZone z fun r => { r with state := 0, flags := 0, drainUntil := none, gone := [] }
    | none => { s with zones := s.zones ++ [ZoneRt.fresh z] }
  s1.restartCurd z

/-- A zone is withdrawn: it drains, and its frames close once the pings in flight are processed (R373). -/
def State.withdrawZone (s : State) (old : Settings) (z : Nat) : State :=
  s.modZone z fun r => { r with state := 2, drainUntil := some (s.time.mono + old.zone z 0x170C * ms), gone := old }

/-- E_REF under a new N_BIN (R132). -/
def eRefUnder (w : Word) (old new : Nat) : Word :=
  if bit w 20 && old != new && old != 0 && new != 0 then setFld w 0 20 (fld w 0 20 * old / new) else w

/-- A new tone plan at a port: what is in flight keeps the old one; the phase engine starts afresh (R42, R63, R64, R128, R131, R132). -/
def Port.newPlan (q : Port) (p : Nat) (new : Settings) : Port :=
  { q.retireRun with
    gaugeNext := false
    plan := new, groups := [], lastValid := [], group0 := [], floor := [], endDiff := 0, noEvidence := 0, nfSum := 0, nfCount := 0
    declared := false, failRun := 0, failPing := [], failProf := [], stepNext := false
    refR := if q.plan.isEmpty then q.refR else eRefUnder q.refR (planNBin q.plan p) (planNBin new p) }

/-- Registers that a commit's keys overwrite at the boundary (R459). -/
def State.putRxc (s : State) (c : Commit) (p : PortIx) : State :=
  let named := fun (code : Nat) => c.keys.contains { kind := .port, inst := p.val, sub := 0, code := code }
  let val := fun (code : Nat) => BitVec.ofNat 32 (s.settings.port p.val code)
  let s1 := if named 0x020F then s.modPort p fun q => { q with rxcWin := val 0x020F } else s
  if named 0x020E then s1.modPort p fun q =>
    let q1 := { q with rxcCtl := wrRW 0xFF0FFFFF q.rxcCtl (val 0x020E) }
    if q1.calMode = q.calMode then q1
    else (q1.putCal .x { q1.calX with restart := true }).putCal .y { q1.calY with restart := true }
  else s1

/-- Lanes power up with a port's first probing mode, and down with its last (R72). -/
def State.lanePower (s : State) (p : PortIx) (on : Bool) : State :=
  (List.finRange 4).foldl (fun u k => u.modLane (portLane p k) fun l => if on && l.powered then l else l.power on s.time.mono) s

/-- Bookings that join others, each unless its unit is still held (R373). -/
def joinFree {α : Type} (unit : α → Nat) (held add : List α) : List α :=
  add.foldl (fun l x => if l.any fun y => unit y == unit x then l else l ++ [x]) held

/-- Bookings of a port and its zones, taken from a commit's placement. A pipeline or engine that another port's work still holds is taken once it is free
(R104, R373): `late` tells the ports whose boundary has passed, which take then what they wait for. -/
def Placement.take (cur new : Placement) (p : Nat) (zs : List Nat) (late : Nat → Bool) (portOf : Nat → Nat) : Placement :=
  let pick := fun {α : Type} (f : α → Nat) (a b : List α) => (a.filter fun x => !(zs.contains (f x))) ++ b.filter fun x => zs.contains (f x)
  let pipes := cur.pipes.filter fun x => x.1 != p
  let insts := cur.insts.filter fun x => !(zs.contains x.zone)
  { pipes := joinFree (·.2) pipes (new.pipes.filter fun x => (x.1 == p || late x.1) && !(pipes.any fun y => y.1 == x.1))
    insts := joinFree (·.engine) insts (new.insts.filter fun x =>
      (zs.contains x.zone || late (portOf x.zone)) && !(insts.any fun y => y.zone == x.zone && y.index == x.index))
    press := pick (·.1) cur.press new.press
    cave := (cur.cave.filter fun x => !(zs.contains x.1) && x.1 != 4096 + p) ++ new.cave.filter fun x => zs.contains x.1 || x.1 == 4096 + p
    links := pick (·.1) cur.links new.links
    rings := pick (·.1) cur.rings new.rings }

/-- The frame timer of a port at its commit boundary: restarted at T_C, idle without a probing mode, else running on. -/
def State.retime (s : State) (p : PortIx) (restart : Bool) : State :=
  if !(s.settings.probing p.val) then
    (closeGate p s).modPort p fun q => { q with frameStart := none, frozen := false, holdGate := false, lockResume := false }
  else if restart && fld s.boot.pwrStat 0 2 != 0 then
    s.modPort p fun q => { q with frameStart := none, frozen := false, reopen := false, lockResume := false }
  else if restart then
    s.modPort p fun q =>
      let q1 := if q.resumePending then q.leaveReduction else q
      { q1 with
        frameStart := some s.time.mono, frameNo := q.frameNo + 1, frozen := !(bit s.clk.stat 6), reopen := false
        spans := if bit s.clk.stat 5 then closeSpans s.time.mono 3 q.spans else q.spans
        calSkip := bit q1.stat 7 || s.groupShut (portGroup s.settings p.val)
        holdGate := s.ladle.shedPorts.contains p.val, lockResume := !(bit s.clk.stat 5) }
  else s

/-- A port's commit boundary (R42, R128, R161, R458, R459). -/
def State.applyPort (s : State) (c : Commit) (p : PortIx) : State :=
  let old := s.settings
  let pn := p.val
  let mine := fun (k : SetKey) => c.has k && keyPort old c.target k == some pn
  let s1 : State := { s with settings := s.keepGroups old (takeKeys old c.target mine) .port [pn] }
  let new := s1.settings
  let planNew := c.keys.any (planKey pn) && new.hasPlan pn
  let gained := !(old.probing pn) && new.probing pn
  let lost := old.probing pn && !(new.probing pn)
  let gauge := differs old new .port pn 0x1201
  let s2 := s1.modPort p fun q =>
    if planNew then ((q.newPlan pn new).calDiscard .x).calDiscard .y
    else
      let q1 := if !gauge then q else if q.pings.isEmpty then q.newGauge else { q with gaugeNext := true }
      { q1 with pings := q.pings.map (·.keep q.plan), plan := new }
  let s3 := if gained then s2.lanePower p true else if lost then s2.lanePower p false else s2
  let s4 := s3.putRxc c p
  let was := zonesOf old pn
  let now := zonesOf new pn
  let s5 := (was.filter fun z => !(now.contains z) && !(c.target.zones.contains z)).foldl (fun u z => u.withdrawZone old z) s4
  let s6 := (now.filter fun z => !(old.zones.contains z)).foldl (fun u z => u.createZone z) s5
  let s7 := (now.filter fun z => old.zones.contains z && !(was.contains z)).foldl (fun u z => u.rezone old z s.time.dev (planNew || gauge)) s6
  let s7g := (now.filter fun z => old.zones.contains z && zoneChanged old new z [0x1304]).foldl (fun u z =>
    u.modZone z fun r => { r with gains := r.gains ++ [(s.devOf c.tC, old.zone z 0x1304)] }) s7
  let s8 := s7g.retime p (c.restarted.contains pn)
  let fresh := planNew || (s8.ports[p].epochPending && new.probing pn)
  let s9 := (if fresh then s8.startEpoch p else s8).atBoundary p {
    old := old, inst := s.time.dev, reset := fresh || gauge || s8.ports[p].resetPending, ring := planNew || gauge }
  let s10 := s9.modPort p fun q => ({ q with
    epochPending := if fresh then false else q.epochPending || lost, resetPending := false }.calBoundary .x).calBoundary .y
  let s11 := if planNew then s10.markPlan pn else s10
  let s12 := if old.mode pn 3 != new.mode pn 3 || (new.mode pn 3 && differs old new .port pn 0x0202) then s11.restartRaw pn else s11
  let s13 := if !(old.mode pn 2) && new.mode pn 2 then s12.modPort p fun q => { q with delay := { q.delay with anchorAt := s.time.mono, lastEnd := none, samples := [] } } else s12
  let late := fun (x : Nat) => x < 24 && !(c.touched.contains x) && s13.settings.probing x && !(s13.ladle.shedPorts.contains x)
  let pl := s13.ladle.place.take c.placement pn (was ++ now).eraseDups late (zonePort c.target)
  let waits := (c.placement.pipe? pn).isSome && (pl.pipe? pn).isNone
  let s13a := if waits then (closeGate p s13).modPort p fun q => { q with holdGate := true, connectAt := 0 } else s13
  let s14 := s13a.applyPlacement pl
  (was.foldl (fun u z => u.endDrain z) s14).driveInhibit

/-! ### Commit boundaries -/

/-- Whether a port is in a shadow frame (R369). -/
def State.inShadow (s : State) (p : Nat) : Bool :=
  match s.ladle.place.pipe? p with
  | some n => s.ladle.migrations.any fun m => m.shadow && (match m.source with | .pipeline k => k.val == n | _ => false)
  | none => false

/-- Units that were lost or retired while the commit waited: their work recovers or is shed now (R460). -/
def State.rehome (s : State) : State :=
  let s1 := (List.finRange 26).foldl (fun u n =>
    if u.ladle.place.pipes.any (fun x => x.2 == n.val) && !(u.pipeOk n.val) then u.losePipe n else u) s
  let s2 := (List.finRange 32).foldl (fun u n =>
    if u.ladle.place.insts.any (fun x => x.engine == n.val) && u.boot.retired.engines.getLsbD n.val then u.loseEngine n true else u) s1
  (List.finRange 26).foldl (fun u n =>
    if u.ladle.place.press.any (fun x => x.2.1 == n.val) && !(u.pressOk n.val) then u.movePress n else u) s2

/-- The last boundary has passed: the placement stands whole, EV250 when it changed, the reply with T_C and T_LAST and EV255, or the end of the
transition when it is the return to RUN (R545), and the next commit's A is this instant (R460, R461). -/
def State.finishCommit (s : State) : State :=
  match s.commits with
  | [] => s
  | c :: cs =>
    if c.deviceDone && c.touched.isEmpty then
      let s1 := s.applyPlacement c.placement
      let s2 := if c.moved then s1.raise 250 else s1
      let s3 : State := { s2 with commits := cs }
      let s4 := match c.owner with
        | some (i, op, k) =>
          let items := if op.toNat = 0x0202 then
              [item 0x0304 (stampB (s3.devOf c.tC)), item 0x0305 (stampB (s3.devOf c.tLast))] else []
          s3.finish i op k 0 items
        | none => s3
      let s5 := if c.owner.isSome then s4.raise 255 else s4.modBoot fun b => { b with pwrStat := clrBit b.pwrStat 2 }
      (s5.rehome).fixFirst
    else s

/-- A commit boundary: the device-wide one at T_C, or a touched port's. -/
def State.commitAt (s0 : State) (po : Option PortIx) : State :=
  match s0.commits with
  | [] => s0
  | c :: cs =>
    if !c.fixed then s0
    else match po with
      | none =>
        if c.deviceDone then s0
        else
          let s := s0.until c.tC
          ({ (s.applyDevice c) with commits := { c with deviceDone := true } :: cs } : State).finishCommit
      | some p =>
        if !(c.touched.contains p.val) || s0.inShadow p.val then s0
        else
          let t := if c.restarted.contains p.val then c.tC else (s0.boundaryAt p.val c.tC).getD c.tC
          let s := s0.until t
          ({ (s.applyPort c p) with commits := { c with touched := c.touched.filter (fun x => x != p.val), tLast := max c.tLast s.time.mono } :: cs } : State).finishCommit

/-- Every boundary of the first waiting commit in turn: what touches no port, then port by port. -/
def State.commitNow (s : State) : State :=
  match s.commits with
  | [] => s
  | c :: _ => c.touched.foldl (fun u p => match ix 24 p with | some i => u.commitAt (some i) | none => u) (s.commitAt none)

/-- A refused commit: EV255 (R476). -/
def State.commitRefused (s : State) : State := s.raise 255

/-- A stageable command without STAGE: a transaction of its own, opened and committed at once (R452). -/
def runStageable (op : Nat) : Run := fun i k p s =>
  match s.tryCommit [stagedOf op k p s.base] (some (i, BitVec.ofNat 16 op, k)) with
  | .ok t => .later t
  | .error e => .done e.1 [] s.commitRefused

/-- TXN_COMMIT (R453 to R461). -/
def runTxnCommit : Run := fun i k _ s =>
  match s.sessions[i].txn with
  | none => .refuse (if s.sessions[i].timedOut.contains k.txn.toNat then 0x0502 else 0x0501) s
  | some t =>
    if t.id ≠ k.txn.toNat then .refuse (if s.sessions[i].timedOut.contains k.txn.toNat then 0x0502 else 0x0501) s
    else match s.tryCommit t.staged (some (i, 0x0202, k)) with
      | .ok u => .later (u.modSess i fun x => { x with txn := none })
      | .error e => .done e.1 [item 0x0306 (le 4 e.2.toNat)] s.commitRefused

end Sys2Proof.Machine
end

