-- ==== Sys2Proof/Machine/Digest.lean ====
section
/-! DEFINITION. SHA-256, as R264, R274, R535 and R536 use it. Its constants are derived here: the first 32 fraction bits of the square and cube roots
of the first primes. -/

namespace Sys2Proof.Machine

/-- The number that big-endian bytes spell. -/
def unbe (bs : List Byte) : Nat := bs.foldl (fun n b => n * 256 + b.toNat) 0
/-- `n` bytes of a number, big-endian. -/
def be (n v : Nat) : List Byte := (le n v).reverse

/-- The integer k-th root of `n`, its bits below bit `b` still to settle, from `r` on. -/
def rootFrom (k n : Nat) : Nat → Nat → Nat
  | 0, r => r
  | b + 1, r => rootFrom k n b (if (r + 2 ^ b) ^ k ≤ n then r + 2 ^ b else r)

/-- The primes below 324, which a divisor up to 17 would show up: the first 66, of which SHA-256 takes 64. -/
def smallPrimes : List Nat :=
  (List.range 324).filter fun n => decide (2 ≤ n) && ([2, 3, 5, 7, 11, 13, 17] : List Nat).all fun d => n == d || n % d != 0

/-- The first 32 fraction bits of the k-th root of each of the first `m` primes. -/
def rootWords (k m : Nat) : List Word := (smallPrimes.take m).map fun p => BitVec.ofNat 32 (rootFrom k (p * 2 ^ (32 * k)) 38 0)

/-- The sum modulo 2 of a word rotated right by each of `rs`, and of the word shifted right by `sh` where that is not 0. -/
def mixBits (rs : List Nat) (sh : Nat) (x : Word) : Word :=
  rs.foldl (fun acc r => acc ^^^ x.rotateRight r) (if sh = 0 then 0 else x >>> sh)

/-- The message schedule with `n` more words, the latest first: each from the words 16, 15, 7 and 2 before it. -/
def stretch : Nat → List Word → List Word
  | 0, ws => ws
  | n + 1, ws => stretch n (([15, 6].map fun i => ws.getD i 0).foldl (· + ·)
      (mixBits [7, 18] 3 (ws.getD 14 0) + mixBits [17, 19] 10 (ws.getD 1 0)) :: ws)

/-- The hash in progress: the values that the working variables a and e have taken, the latest first, so that b, c, d and f, g, h are the ones
before. -/
structure HashTrail where
  as : List Word
  es : List Word

/-- One step: what h, e, f, g, the round's constant and its message word give goes into e with d, and into a with the part of a, b and c. -/
def HashTrail.step (v : HashTrail) (add : Word) : HashTrail :=
  let pa := fun i => v.as.getD i 0
  let pe := fun i => v.es.getD i 0
  let choose := (pe 0 &&& (pe 1 ^^^ pe 2)) ^^^ pe 2
  let most := (pa 0 &&& pa 1) ||| (pa 2 &&& (pa 0 ||| pa 1))
  let fresh := add + pe 3 + mixBits [6, 11, 25] 0 (pe 0) + choose
  { as := (fresh + mixBits [2, 13, 22] 0 (pa 0) + most) :: v.as, es := (pa 3 + fresh) :: v.es }

/-- The chaining value, eight words, after a block of 64 bytes. -/
def hashBlock (h : List Word) (blk : List Byte) : List Word :=
  let first := (List.range 16).map fun i => BitVec.ofNat 32 (unbe (cut blk (4 * i) 4))
  let adds := List.zipWith (· + ·) (rootWords 3 64) (stretch 48 first.reverse).reverse
  let v := adds.foldl HashTrail.step { as := h.take 4, es := h.drop 4 }
  List.zipWith (· + ·) h (v.as.take 4 ++ v.es.take 4)

/-- SHA-256, 32 bytes: the message, a one bit, zeros, and its length in bits, block after block. -/
def sha256 (bs : List Byte) : List Byte :=
  let m := bs ++ [0x80] ++ zeros ((119 - bs.length % 64) % 64) ++ be 8 (8 * bs.length)
  ((List.range (m.length / 64)).foldl (fun h i => hashBlock h (cut m (64 * i) 64)) (rootWords 2 8)).flatMap fun w => be 4 w.toNat

end Sys2Proof.Machine
end

