-- ==== Sys2Proof/Machine/RindPath.lean ====
section
/-! DEFINITION. The Rind's parameters and PARAM_ID (R172, R262, R263, R292, R293), the results path as the Rind sends on it (R250 to R253),
and the audit trail (R275 to R277). -/

namespace Sys2Proof.Machine

/-! ### Parameters -/

/-- An AXC0 sequence entry at its reset value (R292). -/
def entryReset (n : Nat) : Nat :=
  (if n ≤ 15 then n else 0) + 32 + 256 + 1024 + 5 * 4096 + 10 * 65536 + (if n = 15 then 2 ^ 30 else 0)

/-- The Rind parameter of an instance, in force or default (R172, R292, R293). Factory OFS is 0 and factory GAIN 1 (log entry 70, PRESUMED), both held in
units of 2^-32. -/
def Settings.rindVal (ss : Settings) (kind : Kind) (inst code : Nat) : Option (List Int) :=
  match ss.val? { kind := kind, inst := inst, sub := 0, code := code } with
  | some v => some v
  | none =>
    if code = 0x1410 then some [(inst : Int), (inst : Int) + 4]
    else if code = 0x1901 then some [(entryReset inst : Int)]
    else if code = 0x190B then some [0, 4294967296]
    else (param code).bind (·.dflt)

/-- Member `i` of a Rind parameter, 0 when it has no value. -/
def Settings.rindI (ss : Settings) (kind : Kind) (inst code i : Nat) : Int :=
  match ss.rindVal kind inst code with
  | some v => v.getD i 0
  | none => 0

/-- A device parameter of the thermal path or the front end. -/
def Settings.thDev (ss : Settings) (code : Nat) : Nat := (ss.rindI .device 0 code 0).toNat

/-- The legally relevant parameters in ascending code order: code, kind, number of instances (R172, R262, R293). -/
def lrCodes : List (Nat × Kind × Nat) :=
  ((List.range 11).map fun i => (0x1401 + i, Kind.device, 1)) ++ ((List.range 5).map fun i => (0x140D + i, Kind.thermal, 4)) ++
  ((List.range 3).map fun i => (0x1412 + i, Kind.thermalPort, 24)) ++ [(0x1901, Kind.entry, 32)] ++
  ((List.range 4).map fun i => (0x1902 + i, Kind.device, 1)) ++ ((List.range 6).map fun i => (0x1906 + i, Kind.rtd, 16))

/-- Whether a parameter of the Rind is legally relevant: all but INH_HOLD (R262). -/
def lrCode (code : Nat) : Bool := code ≠ 0x140C

/-- Value bytes of a Rind parameter; OFS and GAIN, which no item carries, as two 8-byte integers (log entry 71, DEDUCED). -/
def rindBytes (code : Nat) (v : List Int) : List Byte :=
  if code = 0x190B then v.flatMap fun x => leI 8 x else paramBytes code v

/-- The bytes of a STEP item (R445). -/
def stepBytes (i : Nat) (x : SchedStep) : List Byte :=
  le 1 i ++ ((List.range 4).flatMap fun c => le 1 (x.ports.getD c 31)) ++ le 1 x.dStep ++ zeros 2

/-- The legally relevant parameter block (R263): ascending by code, the instances of a code in ascending order (log entry 71, DEDUCED). -/
def lrBlock (ss : Settings) (sch : List SchedStep) : List Byte :=
  (sch.zipIdx.flatMap fun xi => le 2 0x021B ++ le 2 8 ++ stepBytes xi.2 xi.1) ++
    lrCodes.flatMap fun c => (List.range c.2.2).flatMap fun i =>
      match ss.rindVal c.2.1 i c.1 with
      | some v => let bs := rindBytes c.1 v; le 2 c.1 ++ le 2 bs.length ++ bs
      | none => []

/-- The schedule accepted last. -/
def Rind.accepted (r : Rind) : List SchedStep := r.nextSchedule.getD r.schedule

/-- PARAM_ID over what is accepted (R263). -/
def Rind.paramIdNow (r : Rind) : BitVec 32 := BitVec.ofNat 32 (crc32 (lrBlock r.params r.accepted))

/-- The first 8 bytes of a value, as an audit record holds them. -/
def first8 (bs : List Byte) : BitVec 64 := BitVec.ofNat 64 (rd bs 0 8)

/-! ### Audit records and messages -/

/-- SEAL_STATE as a number (R266, R274). -/
def SealState.code : SealState → Nat
  | .unsealed => 0
  | .sealed => 1
  | .broken => 2

/-- An audit record's 64 bytes (R276). -/
def AuditRec.bytes (a : AuditRec) : List Byte :=
  let b := le 2 a.recType ++ [1] ++ le 1 a.source ++ leW a.cnt ++ stampB a.t ++ le 1 a.sealNow ++ le 1 (b01 a.timeUnset) ++
    le 2 a.param.toNat ++ leW a.idOld ++ leW a.idNew ++ leW a.count ++ le 8 a.old.toNat ++ le 8 a.new.toNat ++ zeros 8
  b ++ le 4 (crc32 b)

/-- Length of a message's body (R250). -/
def RpBody.size : RpBody → Nat
  | .profile bs _ _ => bs.length
  | .announce _ _ _ => 20
  | .switched _ _ _ => 20
  | .event _ => 2
  | .audit _ => 64
  | .reading bs => bs.length

/-- Body of ANNOUNCE and SWITCHED (R250). -/
def switchBody (step : Nat) (ports : List Nat) (t : Time) : List Byte :=
  le 1 step ++ [0] ++ ((List.range 4).flatMap fun c => le 1 (ports.getD c 31)) ++ zeros 2 ++ stampB t

/-- KIND of a message (R250). -/
def RpBody.kind : RpBody → Nat
  | .profile _ _ _ => 1
  | .announce _ _ _ => 2
  | .switched _ _ _ => 3
  | .event _ => 4
  | .audit _ => 5
  | .reading _ => 6

/-- Body bytes of a message. -/
def RpBody.bytes : RpBody → List Byte
  | .profile bs _ _ => bs
  | .announce n ps t => switchBody n ps t
  | .switched n ps t => switchBody n ps t
  | .event n => le 2 n
  | .audit r => r.bytes
  | .reading bs => bs

/-- A message as it is sent (R250). -/
def RpMsg.bytes (m : RpMsg) : List Byte :=
  let h := le 1 m.body.kind ++ le 1 m.channel ++ zeros 2 ++ le 4 m.body.size ++ leW m.seq
  h ++ le 4 (crc32 (h ++ m.body.bytes)) ++ m.body.bytes

/-- Bytes that the results buffer holds (R253). -/
def Rind.buffered (r : Rind) : Nat := (r.unacked.map fun m => 16 + m.body.size).sum

/-! ### The line (R251) -/

/-- Whether a message goes whole, ahead of what segments divide: ANNOUNCE, SWITCHED and EVENT. -/
def RpMsg.urgent (m : RpMsg) : Bool := m.body.kind == 2 || m.body.kind == 3 || m.body.kind == 4
/-- Segments of a message: its body in pieces of 4,096 bytes. -/
def RpMsg.segments (m : RpMsg) : Nat := max 1 ((m.body.size + 4095) / 4096)
/-- Time of a segment on the line of 800 Mb/s. -/
def segmentTime : Time := 4096 * 10 * ns
/-- A message takes its place behind the urgent ones that wait in front of the others. -/
def behindUrgent (m : RpMsg) (l : List RpMsg) : List RpMsg := (l.takeWhile RpMsg.urgent) ++ m :: l.dropWhile RpMsg.urgent

/-- A message joins the line. An urgent one waits for the end of the segment on the line and of the urgent messages before it; another goes last. -/
def Rind.lineUp (r : Rind) (m : RpMsg) : Rind :=
  match r.wire with
  | [] => { r with wire := [m], lineAt := r.ticks, segs := 0 }
  | h :: l =>
    if !m.urgent then { r with wire := r.wire ++ [m] }
    else if h.urgent then { r with wire := behindUrgent m r.wire }
    else
      let n := r.segs + (r.ticks - r.lineAt) / segmentTime + 1      -- segments of the first message sent once the one on the line ends
      if h.segments ≤ n then { r with wire := h :: behindUrgent m l }
      else { r with wire := m :: r.wire, segs := n, lineAt := r.lineAt + (n - r.segs) * segmentTime }

/-- A message leaves the line, received, lost or discarded. -/
def Rind.offLine (r : Rind) (m : RpMsg) : Rind :=
  let w := r.wire.erase m
  let front := r.wire.head? == some m
  let mine := (r.wire.find? fun x => !x.urgent) == some m
  { r with wire := w, lineAt := if front then r.ticks else r.lineAt, segs := if mine then 0 else r.segs }

/-- The line starts afresh with these messages. -/
def Rind.resend (r : Rind) (l : List RpMsg) : Rind := l.foldl Rind.lineUp { r with wire := [] }

/-- A message joins the results path: numbered, kept, and sent. -/
def Rind.put (r : Rind) (ch : Nat) (b : RpBody) : Rind :=
  let m : RpMsg := { seq := r.rpSeq + 1, channel := ch, body := b }
  ({ r with rpSeq := r.rpSeq + 1, unacked := r.unacked ++ [m] } : Rind).lineUp m

/-- Unexported records (R275). -/
def Rind.unexported (r : Rind) : Nat := (r.auditCnt - r.ackCnt).toNat

/-- Whether the next record sets TRAIL_WARN or TRAIL_FULL, which raises EV222 (R275, R279). -/
def Rind.warns (r : Rind) : Bool := r.unexported + 1 == 3840 || r.unexported + 1 == 4096

/-- An audit record is written and its copy sent (R275). -/
def Rind.record (r : Rind) (ty src param count : Nat) (idOld : BitVec 32) (old new : BitVec 64) : Rind :=
  let a : AuditRec := {
    recType := ty, source := src, cnt := r.auditCnt + 1, t := r.time, sealNow := r.sealSt.code, timeUnset := r.timeUnset,
    param := BitVec.ofNat 16 param, idOld := idOld, idNew := r.paramId, count := BitVec.ofNat 32 count, old := old, new := new }
  ({ r with auditCnt := r.auditCnt + 1, audit := (r.audit ++ [a]).drop (r.audit.length + 1 - 4096) } : Rind).put 0xFF (.audit a)

/-- Whether a message is a profile, with its channel, port and SEQ. -/
def RpMsg.profile? (m : RpMsg) : Option (Nat × Nat × BitVec 32) :=
  match m.body with
  | .profile _ p q => some (m.channel, p, q)
  | _ => none

/-- Discards oldest unacknowledged profiles until `need` more bytes fit the 12 MiB of R253: a RESULT_DISCARD record and EV221 for each, and EV222 when
due. -/
def Rind.makeRoom : Nat → Nat → Rind → Rind
  | 0, _, r => r
  | f + 1, need, r =>
    if r.buffered + need ≤ 12582912 then r
    else match r.unacked.find? fun m => m.profile?.isSome with
      | none => r
      | some m =>
        let (c, p, q) := m.profile?.getD (0, 0, 0)
        let r1 : Rind := ({ r with unacked := r.unacked.erase m } : Rind).offLine m
        let old := BitVec.ofNat 64 (c + 256 * p + 4294967296 * q.toNat)
        let r2 := (r1.record 0x0B 0 0 1 r.paramId old 0).put 0xFF (.event 221)
        makeRoom f need (if r1.warns then r2.put 0xFF (.event 222) else r2)

/-- The Rind sends a message (R250, R253). -/
def Rind.send (r : Rind) (ch : Nat) (b : RpBody) : Rind := (r.makeRoom r.unacked.length (16 + b.size)).put ch b
/-- The Rind forwards an event (R279). -/
def Rind.event (r : Rind) (n : Nat) : Rind := r.send 0xFF (.event n)

/-- Event that a record's type raises (R279). -/
def auditEvent (ty : Nat) : Option Nat :=
  if ty = 0x06 then some 218 else if ty = 0x07 ∨ ty = 0x08 then some 220 else none

/-- The Rind writes an audit record (R275 to R279). -/
def Rind.write (r : Rind) (ty src param count : Nat) (idOld : BitVec 32) (old new : BitVec 64) : Rind :=
  let r1 := r.makeRoom r.unacked.length 80
  let r2 := r1.record ty src param count idOld old new
  let r3 := if r1.warns then r2.event 222 else r2
  match auditEvent ty with
  | some n => r3.event n
  | none => r3

/-- An audit record about no parameter. -/
def Rind.note (r : Rind) (ty src : Nat) (old new : BitVec 64) : Rind := r.write ty src 0 1 r.paramId old new

end Sys2Proof.Machine
end

