-- ==== Sys2Proof/Machine/Thermal.lean ====
section
/-! DEFINITION. The Raman temperature path (chapter 6): the switch schedule, shots and averages, from counts to temperature, profiles and
their seal trailers, the inhibit. -/

namespace Sys2Proof.Machine

/-! ### Parameters that must agree (R172, R173) -/

/-- Whether coil bounds lie within the trace and Z_F lies beyond both coils (R172). -/
def coilsInRange (ss : Settings) : Bool :=
  let last := (ss.thDev 0x1403 : Int) - 1
  (List.range 4).all fun c =>
    let zf := ss.rindVal .thermal c 0x140F
    [0x140D, 0x140E].all fun code =>
      match ss.rindVal .thermal c code with
      | some v => v.all (fun x => x ≤ last) && (match zf with | some z => v.getD 1 0 < z.getD 0 0 | none => true)
      | none => true

/-- The round trip of L_T fits SHOT_PER (R173); a port without L_T does not meet it (log entry 72, DEDUCED). -/
def roundTripOk (ss : Settings) (p : Nat) : Bool :=
  match ss.rindVal .thermalPort p 0x1412 with
  | some v => decide (2 * (ss.thDev 0x1406 : Int) * v.getD 0 0 * 250000000 ≤ (ss.thDev 0x1402 : Int) * 299792458 * 10000)
  | none => false

/-- The conditions of R173. -/
def thermalOk (ss : Settings) (sch : List SchedStep) : Bool :=
  let tpw := (ss.thDev 0x1401 : Int)
  decide (ss.thDev 0x1403 + 256 ≤ ss.thDev 0x1402) &&
  (sch.all fun x =>
    let ps := x.ports.filter fun p => p ≠ 31
    decide (1 ≤ x.dStep) && decide (ps.eraseDups.length = ps.length) && ps.all (roundTripOk ss)) &&
  (List.range 4).all fun c => [0x140D, 0x140E].all fun code =>
    match ss.rindVal .thermal c code with
    | some v => (code == 0x140E && v.getD 0 0 == 0 && v.getD 1 0 == 0) || decide (tpw + 24 ≤ v.getD 1 0 - v.getD 0 0 + 1)
    | none => true

/-- Whether an average over these ports has every value it needs (log entry 72, DEDUCED). -/
def thermalReady (ss : Settings) (ports : List Nat) : Bool :=
  (ss.rindVal .device 0 0x1407).isSome && (ports.zipIdx.all fun pc => pc.1 == 31 ||
    ([0x140D, 0x140F, 0x1411].all (fun code => (ss.rindVal .thermal pc.2 code).isSome) &&
      [0x1412, 0x1413].all (fun code => (ss.rindVal .thermalPort pc.1 code).isSome)))

/-! ### The schedule (R167 to R169) -/

/-- The step in force. -/
def Rind.stepNow (r : Rind) : SchedStep := r.schedule.getD r.step { ports := [31, 31, 31, 31], dStep := 1 }
/-- The shot period. -/
def shotPer (ss : Settings) : Time := ss.thDev 0x1402 * 4 * ns
/-- T_AVG: the duration of one full average. -/
def tAvg (ss : Settings) : Time := ss.thDev 0x1404 * shotPer ss
/-- When the first shot of a step may be fired (R168), under the parameters in force. -/
def Rind.firstShotAt (r : Rind) : Time := r.stepStart + 1012 * us + r.inForce.thDev 0x1408 * ms
/-- A step's time limit under these parameters (R169). -/
def Rind.limitWith (r : Rind) (ss : Settings) : Time := r.stepStart + 1012 * us + ss.thDev 0x1408 * ms + r.stepNow.dStep * tAvg ss
/-- The step's time limit (R169). -/
def Rind.limit (r : Rind) : Time := r.limitWith r.inForce
/-- Whether the Rind runs its schedule. -/
def Rind.running (r : Rind) : Bool := r.powered && !r.halted && r.phase ≠ .stopped

/-- A step begins: ANNOUNCE is sent (R168). -/
def State.beginStep (s : State) (sch : List SchedStep) (i : Nat) : State :=
  s.modRind fun r =>
    let r1 := { r with schedule := sch, nextSchedule := none, step := i, phase := .announced, stepStart := s.time.mono, averagesDone := 0,
                       avg := none, annAcked := false, parked := Vector.replicate 4 false }
    let r2 := r1.send 0xFF (.announce i r1.stepNow.ports r1.time)
    { r2 with annSeq := r2.rpSeq }

/-- The schedule starts at step 0, when there is one and the Rind may run it. -/
def State.startSchedule (s : State) : State :=
  let r := s.rind
  if r.powered && !r.halted && !r.accepted.isEmpty then s.beginStep r.accepted 0 else s

/-- A switch-schedule step ends (R169): at its D_STEP averages, or at its time limit; the next step begins, or step 0 of a new schedule
(R174). While a step's strobes or an average are still to come, it does not end. -/
def stepEnd (s : State) : State :=
  let r := s.rind
  if !r.running || r.phase == .announced || r.avg.isSome then s
  else
    let s1 := if r.stepNow.dStep ≤ r.averagesDone then s else s.until r.limit
    match r.nextSchedule with
    | some sch => s1.beginStep sch 0
    | none => s1.beginStep r.schedule ((r.step + 1) % max 1 r.schedule.length)

/-- The strobe of one channel (R167). -/
def State.strobe (s : State) (c port : Nat) : State :=
  (s.modRind fun r => { r with osw := BitVec.ofNat 8 (port + 32 * c), oswPort := if h : c < 4 then r.oswPort.set c port else r.oswPort }).emit
    (.strobe c port)

/-- 1 ms after ANNOUNCE the four channels are strobed, channel 0 first; SWITCHED is sent with EV225 (R167, R168, R279). -/
def switchStrobes (s : State) : State :=
  let r := s.rind
  if !r.running || r.phase ≠ .announced then s
  else
    let s1 := s.until (r.stepStart + ms)
    let s2 := forEach [0, 1, 2, 3] (fun c t => t.strobe c (r.stepNow.ports.getD c 31)) s1
    (s2.until (r.stepStart + 1012 * us)).modRind fun x =>
      ({ x with phase := .settling } : Rind).send 0xFF (.switched x.step x.stepNow.ports x.time) |>.event 225

/-! ### Shots and averages (R170, R171, R259) -/

/-- An average starts: after settling, acknowledgement of the step's ANNOUNCE and any INH_HOLD, if it can complete before the step's limit
(R168, R169, R174, R186, R259). The parameters accepted take effect with it, and the limit that it must meet is theirs (log entry 131, DEDUCED). -/
def averageStart (s : State) : State :=
  let r := s.rind
  let at0 := max s.time.mono (max r.firstShotAt r.holdUntil)
  if r.running && (r.phase == .settling || r.phase == .waiting) && r.avg.isNone && r.annAcked && !r.inhibit &&
      decide (r.averagesDone < r.stepNow.dStep) && thermalReady r.params r.stepNow.ports && decide (at0 + tAvg r.params ≤ r.limitWith r.params) then
    (s.until at0).modRind fun x =>
      let n := x.params.thDev 0x1403 + 256
      let blank := List.replicate 8 (List.replicate n 0)
      { x with
        phase := .averaging
        inForce := x.params
        avg := some {
          start := at0, shots := 0, tFirst := x.time, tLast := x.time, sealedAll := x.sealSt == .sealed, params := x.params,
          paramId := x.paramIdNow, acc := blank, sat := blank.map fun l => l.map fun _ => false, rtd := [], inhibited := false } }
  else s

/-- One shot: a TPG pulse of TPW samples is fired and the codes of its trace are added to the accumulators, each code an unsigned 14-bit number (R166,
R170, R171). -/
def shot (d : ShotData) (s : State) : State :=
  match s.rind.avg with
  | none => s
  | some a =>
    if !s.rind.running || a.params.thDev 0x1404 ≤ a.shots then s
    else
      let s1 := s.until (a.start + a.shots * shotPer a.params)
      let add := fun (acc codes : List Nat) => acc.zipIdx.map fun xi => xi.1 + codes.getD xi.2 0 % 16384
      let mark := fun (st : List Bool) (codes : List Nat) => st.zipIdx.map fun xi =>
        xi.1 || codes.getD xi.2 1 % 16384 == 16383 || codes.getD xi.2 1 % 16384 == 0
      (s1.emit (.tpg (a.params.thDev 0x1401 * 4 * ns))).modRind fun x => { x with avg := some { a with
        shots := a.shots + 1
        tLast := x.time
        acc := a.acc.zipIdx.map fun li => add li.1 (d.lanes.getD li.2 [])
        sat := a.sat.zipIdx.map fun li => mark li.1 (d.lanes.getD li.2 []) } }

/-! ### From counts to temperature (R175 to R181) -/

/-- Sums of consecutive groups of `c`. -/
def chunkSums (c : Nat) : Nat → List Int → List Int
  | 0, _ => []
  | n + 1, l => isum (l.take c) :: chunkSums c n (l.drop c)

/-- Whether each group of `c` holds a set bit. -/
def chunkAny (c : Nat) : Nat → List Bool → List Bool
  | 0, _ => []
  | n + 1, l => (l.take c).any id :: chunkAny c n (l.drop c)

/-- Mean signal of a lane at samples 0 upwards, times 256 N: 256 A(i) less the sum of the baseline window (R175). -/
def signal (acc : List Nat) : List Int :=
  let b := isum ((acc.take 256).map fun x => (x : Int))
  (acc.drop 256).map fun x => 256 * (x : Int) - b

/-- Numerator of the position of sample i (twice i given), over `posDen`, in metres (R175). -/
def posNum (ss : Settings) (twoI : Int) : Int := (twoI - ss.thDev 0x1401) * 299792458 * 10000
/-- Denominator of a position. -/
def posDen (ss : Settings) : Int := 4 * ss.thDev 0x1406 * 250000000

/-- D(z) times 2^32 posDen (R176), z as its numerator. -/
def lossNum (ss : Settings) (c p : Nat) (z : Int) : Int :=
  let zf := posNum ss (2 * ss.rindI .thermal c 0x140F 0)
  let da := ss.rindI .thermal c 0x1411 0
  let dap := ss.rindI .thermalPort p 0x1413 0
  da * min z zf + (if zf ≤ z then ss.rindI .thermalPort p 0x1414 0 * 256 * posDen ss + dap * (z - zf) else 0)

/-- D(z), with 128 fraction bits. -/
def lossFix (ss : Settings) (c p : Nat) (z : Int) : Int := lossNum ss c p z * 2 ^ 96 / posDen ss
/-- ln of a ratio of two signals, with 128 fraction bits; `free`, in units of 2^-24, where the ratio is not positive. -/
def lnSignal (a b free : Int) : Int := if 0 < a * b then fixLn a.natAbs b.natAbs else free * 2 ^ 104

/-- Sum of a signal over samples `a` to `b`. -/
def rangeSum (sg : List Int) (a b : Int) : Int := isum ((sg.take (b + 1).toNat).drop a.toNat)

/-- Sum and number of an RTD channel's readings between an average's first and last shot (R177): `none` without a reading or with an invalid one
(R179). The instants are elapsed time, which no time word moves (R258). -/
def coilSum (av : Average) (rc : Nat) : Option (Nat × Nat) :=
  let rs := av.rtd.filter fun x =>
    x.1 == rc && decide (av.start ≤ x.2.2.2) && decide (x.2.2.2 ≤ av.start + (av.shots - 1) * shotPer av.params)
  if rs.isEmpty || rs.any (fun x => !x.2.1) then none else some ((rs.map fun x => x.2.2.1).sum, rs.length)
/-- Whether a channel has coil 2 (R178). -/
def hasCoil2 (ss : Settings) (c : Nat) : Bool := !(ss.rindI .thermal c 0x140E 0 == 0 && ss.rindI .thermal c 0x140E 1 == 0)

/-- First bin from which 64 consecutive bins are low, at or beyond `from0`; else the last bin (R181). -/
def endBin (low : List Bool) (from0 : Nat) : Nat :=
  let r := low.zipIdx.foldl (fun (acc : Nat × Option Nat) x =>
    match acc.2 with
    | some _ => acc
    | none => if x.2 < from0 || !x.1 then (0, none) else if acc.1 + 1 = 64 then (64, some (x.2 - 63)) else (acc.1 + 1, none)) (0, none)
  r.2.getD (low.length - 1)

/-- What an average measured on a channel: PFLAGS without EMPTY and INHIBIT, T_COIL1, T_COIL2, LN_C, END_T, elements. -/
structure ThermalOut where
  pflags : Nat
  t1 : Nat
  t2 : Nat
  lnC : Int
  endT : Nat
  bins : List Nat

/-- R175 to R181 for one channel and port, ln and the terms of R176 with 128 fraction bits. `f1`, `f2` and `f3` stand for T_COIL1, ln C (or ln R1),
and T_COIL2 (or coil 2's ln R) where the spec states none (log entry 73, DESIGN CHOICE). -/
def thermalCompute (av : Average) (c p : Nat) (short : Bool) (f1 f2 f3 : BitVec 64) : ThermalOut :=
  let ss := av.params
  let n := av.shots
  let cb := max 1 (ss.thDev 0x1405)
  let tpw := (ss.thDev 0x1401 : Int)
  let gamma := ss.rindI .device 0 0x1407 0
  let sa := signal (av.acc.getD (2 * c) [])
  let st := signal (av.acc.getD (2 * c + 1) [])
  let sat := List.zipWith (fun x y => x || y) ((av.sat.getD (2 * c) []).drop 256) ((av.sat.getD (2 * c + 1) []).drop 256)
  let nb := ss.thDev 0x1403 / cb
  let ba := chunkSums cb nb sa
  let bs := chunkSums cb nb st
  let bx := chunkAny cb nb sat
  let low := bs.map fun x => decide (x < (ss.thDev 0x140A : Int) * n * cb)
  let coil := fun (code : Nat) => (ss.rindI .thermal c code 0 + tpw + 8, ss.rindI .thermal c code 1 - 8)
  let r1 := coil 0x140D
  let z1 := posNum ss (r1.1 + r1.2)
  let m1 := coilSum av (ss.rindI .thermal c 0x1410 0).toNat
  let m2 := coilSum av (ss.rindI .thermal c 0x1410 1).toNat
  let lnC : Int := match m1 with
    | none => signed 32 f2.toNat * 2 ^ 104
    | some (t, k) => lnSignal (rangeSum sa r1.1 r1.2) (rangeSum st r1.1 r1.2) (signed 32 f2.toNat) + gamma * fixOne * k / t + lossFix ss c p z1
  let coil2 := hasCoil2 ss c
  let r2 := coil 0x140E
  let den2 := lnC - lnSignal (rangeSum sa r2.1 r2.2) (rangeSum st r2.1 r2.2) (signed 32 f3.toNat) - lossFix ss c p (posNum ss (r2.1 + r2.2))
  let off2 : Bool := match m2 with
    | none => false
    | some (t, k) => decide (den2 ≤ 0) ||
        decide ((ss.thDev 0x1409 : Int) * 256 * den2 * k < ((gamma * fixOne * k - (t : Int) * den2).natAbs : Int))
  let refFail := m1.isNone
  let mismatch := coil2 && (m2.isNone || off2)
  let coildev := coil2 && off2
  let zf := ss.rindI .thermal c 0x140F 0
  let endT := endBin low ((zf.toNat + cb - 1) / cb)
  let lBin := ((ss.rindI .thermalPort p 0x1412 0 * posDen ss + tpw * 299792458 * 10000) / (2 * 299792458 * 10000) / (cb : Int)).toNat
  let fibreShort := decide (endT + 64 < min lBin (nb - 1))
  let elems := (List.zip (List.zip ba bs) (List.zip bx low)).zipIdx.map fun x =>
    let b := x.2
    let den := lnC - lnSignal x.1.1.1 x.1.1.2 0 - lossFix ss c p (posNum ss ((2 * b * cb + cb - 1 : Nat) : Int))
    let lowsig := x.1.2.2 || decide (x.1.1.1 ≤ 0) || (!refFail && decide (den ≤ 0))
    let flags := b01 x.1.2.1 + 2 * b01 lowsig + 4 * b01 (decide (endT ≤ b)) + 8 * b01 refFail + 16 * b01 coildev + 32 * b01 short
    let t := divEven (gamma * fixOne) (1024 * den).toNat
    let temp := if flags % 16 ≠ 0 then 0 else if t ≤ 65535 then t.toNat else (Config.tempAbove t).toNat
    temp + flags * 65536
  { pflags := b01 short + 2 * b01 refFail + 4 * b01 mismatch + 8 * b01 fibreShort
    t1 := match m1 with | some (t, k) => (divOpen t k).toNat | none => f1.toNat % 2 ^ 32
    t2 := if coil2 then (match m2 with | some (t, k) => (divOpen t k).toNat | none => f3.toNat % 2 ^ 32) else 0
    lnC := divOpen lnC (2 ^ 104)
    endT := endT
    bins := elems }

/-- A profile's bytes (R182), its SEQ still zero. -/
def profileBytes (av : Average) (c p pflags nBins endT t1 t2 : Nat) (lnC : Int) (tEnd : Time) (bins : List Nat) : List Byte :=
  let ss := av.params
  le 2 0x0001 ++ [1] ++ le 1 c ++ le 1 p ++ le 1 pflags ++ le 1 (ss.thDev 0x1405) ++ [0] ++ zeros 4 ++ le 4 nBins ++
    stampB av.tFirst ++ stampB tEnd ++ le 4 av.shots ++ le 4 (ss.thDev 0x1404) ++ le 4 t1 ++ le 4 t2 ++ leI 4 lnC ++
    leI 4 (ss.rindI .device 0 0x1407 0) ++ leW av.paramId ++ le 4 endT ++ zeros 8 ++ bins.flatMap fun x => le 4 x

/-- The profile of a channel waits to be signed (R183). -/
def Rind.queueProfile (r : Rind) (av : Average) (c p : Nat) (bs : List Byte) : Rind :=
  { r with work := r.work ++ [{ channel := c, port := p, bytes := bs, seq := 0, paramId := av.paramId, sealedAll := av.sealedAll }] }

/-- The computed profile of one channel of an average (R175 to R182); a short fibre parks the channel for the rest of the step (R181). -/
def State.profileFull (s : State) (av : Average) (c p : Nat) (short inh : Bool) : State :=
  let (f1, s1) := s.fresh
  let (f2, s2) := s1.fresh
  let (f3, s3) := s2.fresh
  let o := thermalCompute av c p short f1 f2 f3
  let bs := profileBytes av c p (o.pflags + 32 * b01 inh) o.bins.length o.endT o.t1 o.t2 o.lnC
    (av.tLast + av.params.thDev 0x1403 * 4 * ns) o.bins
  let s4 := s3.modRind fun r => { r.queueProfile av c p bs with endT := if h : c < 4 then r.endT.set c o.endT else r.endT }
  if o.pflags / 8 % 2 = 1 then
    (s4.modRind fun r => { r with parked := if h : c < 4 then r.parked.set c true else r.parked }).strobe c 31
  else s4

/-- The profile of an emptied average (R185): the fields without a measurement are free values (log entry 73, DESIGN CHOICE). -/
def State.profileEmpty (s : State) (av : Average) (c p : Nat) : State :=
  let (f1, s1) := s.fresh
  let (f2, s2) := s1.fresh
  let (f3, s3) := s2.fresh
  let tEnd := if av.shots = 0 then f3.toNat else av.tLast + av.params.thDev 0x1403 * 4 * ns
  let bs := profileBytes av c p 48 0 (f1.toNat % 2 ^ 32) (f2.toNat % 2 ^ 32) (if hasCoil2 av.params c then f2.toNat / 2 ^ 32 else 0)
    (signed 32 (f1.toNat / 2 ^ 32)) tEnd []
  s3.modRind fun r => r.queueProfile av c p bs

/-- An average ends: one profile for each channel that reads a port (R182), and one more average done (R169). -/
def State.endAverage (s : State) (av : Average) (short inh : Bool) : State :=
  let r := s.rind
  let empty := inh && !short
  let s1 := s.modRind fun x => { x with avg := none, phase := .waiting, averagesDone := x.averagesDone + 1 }
  forEach [0, 1, 2, 3] (fun c t =>
    let p := r.stepNow.ports.getD c 31
    if p = 31 ∨ r.parked.toList.getD c false then t
    else if empty then t.profileEmpty av c p
    else t.profileFull av c p short inh) s1

/-- A full average ends and temperature is computed (R175). -/
def averageEnd (s : State) : State :=
  match s.rind.avg with
  | none => s
  | some a =>
    if !s.rind.running || a.shots < a.params.thDev 0x1404 then s
    else (s.until (a.start + tAvg a.params)).endAverage a false false

/-! ### Profiles (R183, R274) -/

/-- The seal trailer of a profile (R271, R274). -/
def sealTrailer (s : State) (w : ProfileWork) (prof : List Byte) (nonce : Nat) : List Byte :=
  let r := s.rind
  let st := if r.sealSt == .sealed && !w.sealedAll then 0 else r.sealSt.code
  let head := le 2 0x0010 ++ [1] ++ le 1 st ++ leW r.auditCnt ++ leW w.paramId ++
    [BitVec.ofNat 8 (r.swVer.toNat / 65536), BitVec.ofNat 8 (r.swVer.toNat / 256), BitVec.ofNat 8 r.swVer.toNat] ++
    le 1 (b01 r.timeUnset + 2 * b01 s.glb.variantM) ++ le 8 r.swDig.toNat ++ le 8 s.glb.uid.toNat
  let dig := sha256 (prof ++ head)
  head ++ dig ++ cut (Config.ecdsaSign nonce dig) 0 64

/-- The Rind signs the oldest waiting profile of a channel and issues it (R183, R250, R279). -/
def profileIssue (c : ThermIx) (s : State) : State :=
  match s.rind.work.find? fun w => w.channel == c.val with
  | none => s
  | some w =>
    if !s.rind.powered || s.rind.halted then s
    else
      let q := s.rind.chanSeq[c]
      let prof := w.bytes.take 8 ++ leW q ++ w.bytes.drop 12
      let body := prof ++ sealTrailer s w prof s.free
      ({ s with free := s.free + 1 } : State).modRind fun r =>
        (({ r with work := r.work.erase w, chanSeq := r.chanSeq.set c (q + 1) } : Rind).send c.val (.profile body w.port q)).event 219

/-! ### The inhibit (R184 to R186, R261) -/

/-- The newest INHIBIT record counts one more assertion (R261). -/
def bumpInhibit (l : List AuditRec) : List AuditRec :=
  match l.reverse.findIdx? fun a => a.recType == 7 with
  | some i => l.modify (l.length - 1 - i) fun a => { a with count := a.count + 1 }
  | none => l

/-- The inhibit line asserts (R184, R185): TPG low, the interrupted average issues a SHORT or an EMPTY profile, and the assertion is recorded.
Nothing happens while the line is not driven asserted, or the Rind has seen it already. -/
def ramanInhibitAssert (s : State) : State :=
  let r := s.rind
  if !r.powered || !r.inhibitOuter || r.inhibit then s
  else
    let again := match r.lastRelease with
      | some t => decide (s.time.mono - t < sec) && r.audit.any fun a => a.recType == 7
      | none => false
    let s1 := s.modRind fun x =>
      let y := { x with inhibit := true, tpg := false }
      if again then { y with audit := bumpInhibit y.audit } else y.note 0x07 3 0 0
    match r.avg with
    | none => s1
    | some a =>
      let short := decide (0 < a.shots) && decide (a.params.thDev 0x1404 * a.params.thDev 0x140B ≤ a.shots * 256)
      s1.endAverage a short true

/-- The line is released (R186): INH_HOLD begins, and the release is recorded. -/
def ramanInhibitRelease (s : State) : State :=
  let r := s.rind
  if !r.powered || r.inhibitOuter || !r.inhibit then s
  else s.modRind fun x => ({ x with
    inhibit := false, holdUntil := s.time.mono + x.inForce.thDev 0x140C * ms, lastRelease := some s.time.mono } : Rind).note 0x08 3 0 0

/-! ### The rows -/

/-- STEP_END. -/
def execStepEnd (s : State) : Host.Outcome State Fault Refusal := .next (stepEnd s)
/-- SWITCH_STROBES. -/
def execSwitchStrobes (s : State) : Host.Outcome State Fault Refusal := .next (switchStrobes s)
/-- AVERAGE_START. -/
def execAverageStart (s : State) : Host.Outcome State Fault Refusal := .next (averageStart s)
/-- SHOT. -/
def execShot (d : ShotData) (s : State) : Host.Outcome State Fault Refusal := .next (shot d s)
/-- AVERAGE_END. -/
def execAverageEnd (s : State) : Host.Outcome State Fault Refusal := .next (averageEnd s)
/-- PROFILE_ISSUE. -/
def execProfileIssue (c : ThermIx) (s : State) : Host.Outcome State Fault Refusal := .next (profileIssue c s)
/-- RAMAN_INHIBIT_ASSERT. -/
def execRamanInhibitAssert (s : State) : Host.Outcome State Fault Refusal := .next (ramanInhibitAssert s)
/-- RAMAN_INHIBIT_RELEASE. -/
def execRamanInhibitRelease (s : State) : Host.Outcome State Fault Refusal := .next (ramanInhibitRelease s)

end Sys2Proof.Machine
end

