-- ==== Sys2Proof/Machine/Front.lean ====
section
/-! DEFINITION. The reference front end and AXC0 (chapter 10): entries, urgent conversions, lead steps, autoranging, faults, readings, and
system calibration. -/

namespace Sys2Proof.Machine

/-! ### Entries (R292) -/

/-- Sequence entry n in these settings. -/
def Settings.entryWord (ss : Settings) (n : Nat) : Nat := (ss.rindI .entry n 0x1901 0).toNat
/-- SRC of an entry. -/
def entSrc (e : Nat) : Nat := e % 32
/-- RANGE. -/
def entRange (e : Nat) : Nat := e / 32 % 8
/-- NOTCH. -/
def entNotch (e : Nat) : Nat := e / 256 % 4
/-- REF, forced to INTERNAL for RC0 to RC3. -/
def entRef (e : Nat) : Nat := if entSrc e ≤ 3 then 0 else e / 1024 % 4
/-- IEXC in µA. -/
def entIexc (e : Nat) : Nat := [0, 50, 100, 250, 500, 1000].getD (e / 4096 % 16) 0
/-- T_SET in 0.1 ms. -/
def entSet (e : Nat) : Nat := e / 65536 % 1024
/-- LEAD_PER. -/
def entLead (e : Nat) : Nat := e / 67108864 % 16
/-- LAST. -/
def entLast (e : Nat) : Bool := e / 1073741824 % 2 = 1
/-- Whether an entry uses sine drive (R286). -/
def entSine (e : Nat) : Bool := decide (entSrc e ≤ 3)

/-- LAST of the sequence: the lowest entry that carries it (R288). -/
def Settings.seqLast (ss : Settings) : Nat := ((List.range 32).find? fun n => entLast (ss.entryWord n)).getD 31

/-- Whether an entry stands under R286 and R293. -/
def entryAllowed (ss : Settings) (e : Nat) : Bool :=
  let rref := ss.thDev 0x1902
  let lead := if entSrc e ≤ 15 then (ss.rindI .rtd (entSrc e) 0x1908 0).toNat else 0
  let k := 2 ^ entRange e
  decide (entIexc e * (rref * k + rref + 512 * lead * k) ≤ 2500000 * 65536 * k) &&
    (!entSine e || ((entNotch e == 1 || entNotch e == 2) && decide (40000 ≤ entSet e * ss.thDev 0x1903)))

/-! ### Timing (R283, R285, R286, R295) -/

/-- T_W of NOTCH (R283). -/
def notchWin (notch : Nat) : Time := match notch with | 0 => ms | 1 => 100 * ms | _ => 200 * ms
/-- T_W of a conversion: the notch's, or the fast window of AUTO. -/
def convWin (ss : Settings) (e : Nat) (auto : Bool) : Time :=
  if auto then (if entSine e then sec / max 1 (ss.thDev 0x1903) else ms) else notchWin (entNotch e)
/-- From the start of a conversion to its averaging window: T_MUX, T_SET, T_REC when served, T_FLT; in AUTO only what R295 leaves. -/
def convLead (e : Nat) (rec first rchg : Bool) : Time :=
  if first then 50 * us + entSet e * 100 * us + (if rec then 2 * ms else 0) + 500 * us
  else if rchg then 100 * us + 500 * us else 0
/-- Length of the averaging window, or of the three windows of a sine conversion. -/
def convSpan (e : Nat) (w : Time) (auto : Bool) : Time := if entSine e && !auto then 3 * w + 2 * 550 * us else w

/-! ### The sequencer (R288, R291, R302) -/

/-- The entry being converted: an urgent request's or the sequence's. -/
def Axc0.current (a : Axc0) : Option Nat :=
  match a.running with
  | some (some n) => some n
  | some none => a.urgent.head?
  | none => none

/-- A change to the front end of the Rind. -/
def State.modAxc0 (s : State) (f : Axc0 → Axc0) : State := s.modRind fun r => { r with axc0 := f r.axc0 }
/-- A change to an RTD channel; other sources have none. -/
def Axc0.modRtd (a : Axc0) (c : Nat) (f : Rtd → Rtd) : Axc0 := if h : c < 16 then { a with rtd := a.rtd.set c (f a.rtd[c]) } else a
/-- The next conversion starts from step 1 of R289: a queued urgent request, unless URG_MAX have run since an entry completed; else the entry in turn. It
serves T_REC when that is owed (R302). -/
def Axc0.startNext (a : Axc0) (ss : Settings) (t : Time) : Axc0 :=
  let urgent := !a.urgent.isEmpty && decide (a.urgRun < ss.thDev 0x1905)
  let n := if urgent then a.urgent.headD 0 else a.entry
  { (a.modRtd (entSrc (ss.entryWord n)) fun x => { x with slot := 0, rchg := false }) with
    running := some (if urgent then none else some a.entry), recNow := a.recOwed, recOwed := false, startAt := t }

/-- An RTD channel; other sources have none. -/
def Axc0.chan (a : Axc0) (c : Nat) : Rtd := a.rtd.toList.getD c { Rtd.reset with state := .normal }
/-- Whether AXC0 is running. -/
def Rind.axcOn (r : Rind) : Bool := r.powered && r.axc0.running.isSome

/-- Excitation sources that failed at the start of a pass (R287): a failing source in use is replaced by a spare that passes. -/
def Rind.sources (r : Rind) (bad : List (Fin 4)) : Rind :=
  let a := r.axc0
  let ok : Vector Bool 4 := Vector.ofFn fun i => !bad.contains i
  let free := ([2, 3, 0, 1] : List (Fin 4)).filter fun i => i != a.pulsedSrc && i != a.sineSrc && ok[i]
  let (pul, free1) := if ok[a.pulsedSrc] then (a.pulsedSrc, free) else match free with | x :: xs => (x, xs) | [] => (a.pulsedSrc, [])
  let sin := if ok[a.sineSrc] then a.sineSrc else free1.headD a.sineSrc
  let mark := fun (lo hi : Nat) (b : Bool) (x : Axc0) =>
    if b then (List.range 16).foldl (fun y c => if lo ≤ c && c ≤ hi then y.modRtd c fun t => { t with xswap := true } else y) x else x
  let a1 : Axc0 := { a with sourceOk := ok, pulsedSrc := pul, sineSrc := sin }
  let a2 := mark 0 3 (sin != a.sineSrc) (mark 4 15 (pul != a.pulsedSrc) a1)
  let r1 : Rind := { r with axc0 := a2 }
  let worse := fun (i : Fin 4) => a.sourceOk[i] && !ok[i]
  if worse a.pulsedSrc || worse a.sineSrc || pul != a.pulsedSrc || sin != a.sineSrc then r1.event 228 else r1

/-- The sequence moves on from entry `n`; at the end of a pass, changed parameters take effect (R293). -/
def Rind.advance (r : Rind) (n : Nat) (t : Time) : Rind :=
  if n = r.front.seqLast ∨ 31 ≤ n then
    { r with front := r.params, axc0 := ({ r.axc0 with entry := 0, urgRun := 0 } : Axc0).startNext r.params t }
  else { r with axc0 := ({ r.axc0 with entry := n + 1, urgRun := 0 } : Axc0).startNext r.front t }

/-- What follows a delivered conversion: the next urgent request or entry. -/
def Rind.nextConv (r : Rind) (t : Time) : Rind :=
  match r.axc0.running with
  | some (some n) => r.advance n t
  | some none =>
    { r with axc0 := ({ r.axc0 with urgent := r.axc0.urgent.tail, urgRun := r.axc0.urgRun + 1 } : Axc0).startNext r.front t }
  | none => r

/-! ### Readings (R303, R304) -/

/-- A READING: FLAGS bits are OPEN 0, OVER 1, REF_BAD 2, NSET 3, AUTO 4, CALIB 5, RCHG 6, URGENT 7, FACTORY 8, LEAD_HIGH 9, QUAD 10,
XSWAP 11. -/
structure Reading where
  src : Nat
  range : Nat
  flags : Nat
  code : Int
  res : Nat
  temp : Nat
  leadA : Nat
  leadB : Nat
  tConv : Time
  at0 : Time                      -- elapsed time of that instant; of the conversion's end where it has no window

/-- Body of a READING message (R304). -/
def Reading.bytes (x : Reading) : List Byte :=
  le 1 x.src ++ le 1 x.range ++ le 2 x.flags ++ leI 4 x.code ++ le 4 x.res ++ le 4 x.temp ++ le 2 x.leadA ++ le 2 x.leadB ++ stampB x.tConv

/-- Whether a reading carries an invalid flag. -/
def Reading.invalid (x : Reading) : Bool := x.flags % 64 ≠ 0

/-- A reading is delivered: a READING message, and the thermal average in progress notes it (R177). -/
def Rind.deliver (r : Rind) (x : Reading) : Rind :=
  let r1 := r.send 0xFF (.reading x.bytes)
  match r1.avg with
  | some a => if x.src ≤ 15 then { r1 with avg := some { a with rtd := a.rtd ++ [(x.src, !x.invalid, x.temp, x.at0)] } } else r1
  | none => r1

/-- The reserved codes (R282): the code delivered, and whether it is OVER. -/
def overCode (v : Int) : Int × Bool :=
  if 8388600 < v then (0x7FFFFF, true) else if v < -8388600 then (-8388607, true) else (v, false)

/-- The resistance of a code in range k, code × R_REF_NOM / 2^(23 + k) of R282, in units of 2^-46 Ω. -/
def codeOhms (ss : Settings) (k : Nat) (code : Int) : Int := code * (ss.thDev 0x1902 : Int) * (2 ^ (7 - k) : Int)

/-- The code of a conversion before the reserved codes apply (R282, R286); of a lead step too, over the same reference (R281). -/
def convCode (k : Nat) (v ref : Int) : Int := divAway (2 ^ 23 * 2 ^ k * v) ref

/-- R_x of R280 out of R_raw, in units of 2^-46 Ω; none while a 3-wire channel has no R_LEAD yet. -/
def resistance (ss : Settings) (c : Nat) (lead : Option Int) (raw : Int) : Option Int :=
  match ss.rindI .rtd c 0x1906 0 with
  | 4 => some raw
  | 3 => lead.map fun l => raw - l
  | _ => some (raw - 2 * ss.rindI .rtd c 0x1907 0 * 2 ^ 30)

/-- R_RTD in units of 2^-78 Ω (R303). -/
def rtdOhms (ss : Settings) (c : Nat) (rx : Int) : Int := ss.rindI .rtd c 0x190B 1 * (rx - ss.rindI .rtd c 0x190B 0 * 16384)

/-- The resistance of a sensor at `t` units of 2^-16 K, over R_NOM, by the relations of R303. -/
def cvdRatio (a b c : Rat) (t : Nat) : Rat :=
  let x : Rat := mkRat t 65536 - mkRat 27315 100
  1 + a * x + b * x * x + (if x < 0 then c * (x - 100) * x * x * x else 0)

/-- TEMP of R303 in units of 2^-16 K, from R_RTD in 2^-78 Ω: none where the relations have no solution from 0 to 4,096 K. -/
def rtdTemp (r : Int) (nom : Nat) (ca cb cc : BitVec 32) : Option Nat :=
  match binary32 ca, binary32 cb, binary32 cc with
  | some a, some b, some c =>
    let ratio := mkRat r (nom * 2 ^ 62)
    let reach := fun (t : Nat) => decide (ratio ≤ cvdRatio a b c t)
    if reach 0 || !reach (2 ^ 28) then none else some (bisect reach 28 0 + Config.rtdSlack r nom % 15 - 7)
  | _, _, _ => none

/-- RES and TEMP of a valid conversion: free values where the spec states none (log entry 74, DESIGN CHOICE): a source other than an RTD channel and the check
standards, a pulsed channel against a reference other than EXTERNAL, a 3-wire channel before its first lead step, a negative resistance, relations of R303 with
no solution. -/
def resTemp (ss : Settings) (e : Nat) (rx : Option Int) (free : BitVec 64) : Nat × Nat :=
  let src := entSrc e
  let open' := (free.toNat % 2 ^ 32, if src ≤ 15 then free.toNat / 2 ^ 32 else 0)
  if 18 ≤ src || (!entSine e && entRef e ≠ 1) then open'
  else match rx with
    | none => open'
    | some x =>
      let ohms := if src ≤ 15 then divOpen (rtdOhms ss src x) (2 ^ 62) else divOpen x (2 ^ 30)
      if ohms < 0 then open'
      else
        let cvd := fun i => BitVec.ofInt 32 (ss.rindI .rtd src 0x190A i)
        (ohms.toNat % 2 ^ 32,
          if src ≤ 15 then (rtdTemp (rtdOhms ss src x) (ss.rindI .rtd src 0x1909 0).toNat (cvd 0) (cvd 1) (cvd 2)).getD (free.toNat / 2 ^ 32)
          else 0)

/-! ### States of a channel (R294 to R296, R298) -/

/-- A channel enters AUTO at range 0; EV230 (R294, R296). -/
def Rind.enterAuto (r : Rind) (c : Nat) : Rind :=
  if c ≤ 15 then
    ({ r with axc0 := r.axc0.modRtd c fun t =>
      { t with state := .auto, range := 0, low := 0, good := 0, slot := 0, cleanProbes := 0, lead := none, leadCount := 0, rchg := false } } : Rind).event
      230
  else r

/-- A channel whose reading was OVER or REF_BAD goes to AUTO when it was in NORMAL (R300, R301). -/
def Rind.autoIfNormal (r : Rind) (c : Nat) : Rind :=
  if c ≤ 15 && (r.axc0.chan c).state == .normal then r.enterAuto c else r

/-- The next range of AUTO (R295): range, consecutive low conversions. -/
def nextRange (k low top : Nat) (ovr : Bool) (code : Int) : Nat × Nat :=
  if ovr then (0, 0)
  else if 7549740 < code.natAbs then (k - 1, 0)
  else if code.natAbs < 3355440 ∧ k < top then (if low = 1 then (k + 1, 0) else (k, 1))
  else (k, 0)

/-! ### System calibration (R305, R306) -/

/-- The first entry of the sequence that converts an RTD channel. -/
def Settings.entryOf (ss : Settings) (c : Nat) : Option Nat :=
  ((List.range (ss.seqLast + 1)).map ss.entryWord).find? fun e => entSrc e == c

/-- Full scale of a range, in 2^-16 Ω, times 2^7. -/
def fullScale7 (ss : Settings) (k : Nat) : Nat := ss.thDev 0x1902 * 2 ^ (7 - k)

/-- Whether the standard deviation of these readings exceeds a bound (R306); what it divides by is not stated (log entry 5, DESIGN CHOICE). -/
def unsteady (rs : List Int) (bound : Int) : Bool :=
  let n : Int := rs.length
  decide (bound * bound * n * (if Config.sampleDev then n - 1 else n) < n * isum (rs.map fun x => x * x) - isum rs * isum rs)

/-- REASON of a refused measuring step (R306), 0 when it stands: its 16 readings in 2^-46 Ω. -/
def stepReason (ss : Settings) (c : CalOpen) (full : Bool) (rs : List Int) (bad : Bool) : Nat :=
  let k := match ss.entryOf c.rc with | some e => entRange e | none => 1
  let nom := (if full then c.fNom else c.zNom : Nat)
  let off := (isum rs - (nom : Int) * 16 * 2 ^ 30).natAbs
  if bad then 4
  else if fullScale7 ss k * 16 * 2 ^ 23 < off * 100 then (if full then 2 else 1)
  else if unsteady (rs.map fun x => x * 1000000) (20 * fullScale7 ss k * 2 ^ 23) then 3
  else 0

/-- A normal conversion of the channel under calibration: the sixteenth ends the step, whose answer is then due (R305). -/
def Rind.calReading (r : Rind) (c : Nat) (rx : Option Int) (bad : Bool) : Rind × Option Nat :=
  match r.axc0.cal with
  | none => (r, none)
  | some o =>
    match o.collecting with
    | none => (r, none)
    | some full =>
      if o.rc ≠ c then (r, none)
      else
        let rs := o.readings ++ [rx.getD 0]
        let bd := o.bad || bad || rx.isNone
        if rs.length < 16 then ({ r with axc0 := { r.axc0 with cal := some { o with readings := rs, bad := bd } } }, none)
        else
          let why := stepReason r.front o full rs bd
          let o1 : CalOpen := { o with collecting := none, readings := [], bad := false }
          let o2 : CalOpen := if why ≠ 0 then o1 else if full then { o1 with fMeas := some (isum rs) } else { o1 with zMeas := some (isum rs) }
          (({ r with axc0 := { r.axc0 with cal := some o2 } } : Rind).event 229, some why)

/-! ### A conversion completes (R289) -/

/-- A conversion of AUTO (R295, R296): the range moves; after two good conversions at RANGE the channel is NORMAL and its slot completes with a
normal conversion; a slot of 16 ends. -/
def Rind.autoConv (r : Rind) (c e : Nat) (ovr : Bool) (code : Int) (t : Time) : Rind :=
  let ch := r.axc0.chan c
  let top := entRange e
  let (k, low) := nextRange ch.range ch.low top ovr code
  let good := if !ovr && ch.range == top && decide (code.natAbs ≤ 7549740) then ch.good + 1 else 0
  let slot := ch.slot + 1
  if good = 2 then
    let r1 : Rind := { r with axc0 := r.axc0.modRtd c fun x => { x with state := .normal, good := 0, low := 0, slot := slot, rchg := false } }
    ({ r1 with axc0 := { r1.axc0 with startAt := t } } : Rind).event 230
  else
    let fin := decide (16 ≤ slot)
    let r1 : Rind := { r with axc0 := r.axc0.modRtd c fun x =>
      { x with range := k, low := low, good := good, slot := if fin then 0 else slot, rchg := !fin && k != ch.range } }
    if fin || r1.axc0.running == some none then r1.nextConv t else { r1 with axc0 := { r1.axc0 with startAt := t } }

/-- A lead step is due with this conversion (R281). -/
def leadDue (e : Nat) (ch : Rtd) : Bool := entLead e ≠ 0 && decide (entLead e ≤ ch.leadCount + 1)

/-- R_LEAD after a lead step A (R281). -/
def leadMean (old : Option Int) (a : Int) : Int :=
  match old with
  | none => a
  | some l => l + divOpen (a - l) 4

/-- The sources of which a test failed (R287): in compliance, or a current more than 2 % from the programmed one. -/
def failingSources (tests : List (Bool × Nat)) : List (Fin 4) :=
  (List.finRange 4).filter fun i =>
    let x := tests.getD i.val (false, 1000000)
    x.1 || decide (x.2 < 980000) || decide (1020000 < x.2)

/-- The wait for REF_SET of a reference just selected, or since Rind start (R290); EXTERNAL has no time of its own. -/
def refWait (ref : Nat) (switched : Bool) (ticks : Time) : Time :=
  if ref = 0 then 2 * ms - ticks else if ref = 2 ∧ switched then 50 * us else 0

/-- An entry's conversion completes and delivers a READING (R280 to R296, R301 to R304); the answer of a calibration step that it ends. -/
def axc0Convert (m : Axc0Conv) (s : State) : State × Option Nat :=
  match s.rind.axc0.current with
  | none => (s, none)
  | some n =>
    let ss := s.rind.front
    let e := ss.entryWord n
    let c := entSrc e
    let ch0 := s.rind.axc0.chan c
    if !s.rind.axcOn || ch0.state == .opened then (s, none)
    else
      -- the sources were tested at the start of the pass (R287)
      let s0 := if s.rind.axc0.running == some (some 0) then s.modRind fun r => r.sources (failingSources m.sources) else s
      -- the reference: REF_SET clears when it differs from the entry before, and follows what was found (R289, R290)
      let s1 := s0.modRind fun r =>
        let r1 := if entRef e ≠ r.axc0.refSel && r.axc0.refSet then
          ({ r with axc0 := { r.axc0 with refSet := false } } : Rind).event 231 else r
        let r2 : Rind := { r1 with axc0 := { r1.axc0 with refSel := entRef e } }
        if m.refSettled != r2.axc0.refSet then ({ r2 with axc0 := { r2.axc0 with refSet := m.refSettled } } : Rind).event 231 else r2
      let a := s1.rind.axc0
      let ch := a.chan c
      let urgent := a.running == some none
      let auto := c ≤ 15 && ch.state == .auto
      if !m.refSettled then
        -- INVALID with NSET (R289); it has no averaging window (log entry 74, DESIGN CHOICE)
        let s2 := s1.until (a.startAt + 10 * ms)
        let (f, s3) := s2.fresh
        let x : Reading := {
          src := c, range := if auto then ch.range else entRange e, flags := 8 + 16 * b01 auto + 128 * b01 urgent, code := 0x7FFFFD, res := 0,
          temp := 0, leadA := 0, leadB := 0, tConv := f.toNat, at0 := s2.time.mono }
        let s4 := s3.modRind fun r => r.deliver x
        let q := if auto then (s4.rind, none) else s4.rind.calReading c none true
        (({ s4 with rind := q.1.nextConv s4.time.mono } : State), q.2)
      else
        let first := ch.slot == 0
        let k := if auto then ch.range else entRange e
        let w := convWin ss e auto
        let due := !auto && c ≤ 15 && leadDue e ch
        let wiring := ss.rindI .rtd c 0x1906 0
        let nLead := if due then (if wiring = 4 then 2 else if wiring = 3 then 1 else 0) else 0
        let wait := refWait (entRef e) (entRef e != s0.rind.axc0.refSel) (s0.rind.ticks - (s0.time.mono - a.startAt))
        let open0 := a.startAt + wait + convLead e a.recNow first ch.rchg
        let span := convSpan e w auto
        let s2 := s1.until (open0 + span + nLead * (500 * us + w))
        let tConv := s2.rind.time - (s2.time.mono - (open0 + span / 2))
        let (a1, a2, a3) := m.inPhase
        let (code, ovr) := overCode (if entSine e then convCode k (a1 + a3) (2 * a2) else convCode k m.vs m.vref)
        let quad := entSine e && (decide (a1.natAbs < 20 * m.quadrature.1.natAbs) || decide (a3.natAbs < 20 * m.quadrature.2.natAbs))
        let ohms := fun (i : Nat) => if i < nLead then codeOhms ss k (overCode (convCode k (m.leads.getD i 0) (if entSine e then a2 else m.vref))).1 else 0
        let word := fun (x : Int) => min 65535 (divOpen x (2 ^ 38)).toNat     -- beyond its 16 bits: log entry 74, DESIGN CHOICE
        let lead := if 1 ≤ nLead then some (leadMean ch.lead (ohms 0)) else ch.lead
        let leadMax := ss.rindI .rtd c 0x1908 0 * 2 ^ 38
        let high := c ≤ 15 && (decide (leadMax < ohms 0) || decide (leadMax < ohms 1))
        let calib := match a.cal with | some o => o.rc == c | none => false
        let factory := (c ≤ 15 && !(ss.has .rtd c 0 0x190B)) || ss.thDev 0x1904 == 0
        let flags := 2 * b01 ovr + 16 * b01 auto + 32 * b01 calib + 64 * b01 (auto && ch.rchg) + 128 * b01 urgent + 256 * b01 factory +
          512 * b01 high + 1024 * b01 quad + 2048 * b01 ch.xswap
        let rx := if c ≤ 15 then resistance ss c lead (codeOhms ss k code) else some (codeOhms ss k code)
        let (f, s3) := s2.fresh
        let rt := if flags % 64 ≠ 0 then (0, 0) else resTemp ss e rx f
        let x : Reading := {
          src := c, range := k, flags := flags, code := code, res := rt.1, temp := rt.2, leadA := word (ohms 0), leadB := word (ohms 1), tConv := tConv
          at0 := open0 + span / 2 }
        let s4 := s3.modRind fun r =>
          let r1 := r.deliver x
          { r1 with axc0 := r1.axc0.modRtd c fun t => { t with
              xswap := false, slot := if auto then t.slot else 0, lead := lead, leadCount := if auto then t.leadCount else if due then 0 else t.leadCount + 1 } }
        let now := s4.time.mono
        if auto then
          let r1 : Rind := { s4.rind with axc0 := { s4.rind.axc0 with recOwed := s4.rind.axc0.recOwed || ovr } }
          ({ s4 with rind := r1.autoConv c e ovr code now }, none)
        else
          let q := s4.rind.calReading c rx ovr
          let r1 : Rind := { q.1 with axc0 := { q.1.axc0 with recOwed := q.1.axc0.recOwed || ovr } }
          let r2 := if ovr && c ≤ 15 then (r1.event 227).autoIfNormal c else if ovr then r1.event 227 else r1
          ({ s4 with rind := r2.nextConv now }, q.2)

/-! ### Faults (R297 to R302) -/

/-- A reading that ends a conversion without a window: OPEN, REF_BAD or a probe. -/
def State.endedReading (s : State) (c e flag : Nat) (code : Int) : State :=
  let a := s.rind.axc0
  let ch := a.chan c
  let auto := c ≤ 15 && ch.state == .auto
  let calib := match a.cal with | some o => o.rc == c | none => false
  let (f, s1) := s.fresh
  let x : Reading := {
    src := c, range := if auto then ch.range else entRange e
    flags := flag + 16 * b01 auto + 32 * b01 calib + 128 * b01 (a.running == some none) + 2048 * b01 ch.xswap
    code := code, res := 0, temp := 0, leadA := 0, leadB := 0, tConv := f.toNat, at0 := s.time.mono }
  s1.modRind fun r => let r1 := r.deliver x; { r1 with axc0 := r1.axc0.modRtd c fun t => { t with xswap := false } }

/-- A wire break ends the conversion OPEN; the channel enters OPEN with EV226, and T_REC is owed (R298, R302). On an OPEN channel the probes
find breaks, not this row. -/
def wireBreak (s : State) : State × Option Nat :=
  match s.rind.axc0.current with
  | none => (s, none)
  | some n =>
    let e := s.rind.front.entryWord n
    let c := entSrc e
    let st := (s.rind.axc0.chan c).state
    if !s.rind.axcOn || st == .opened then (s, none)
    else
      let s1 := s.endedReading c e 1 (-8388608)
      let q := if st == .normal then s1.rind.calReading c none true else (s1.rind, none)
      let r1 := if c ≤ 15 then
          let r2 := ({ q.1 with axc0 := q.1.axc0.modRtd c fun t => { t with state := .opened, cleanProbes := 0 } } : Rind).event 226
          if st == .auto then r2.event 230 else r2
        else q.1
      let r3 : Rind := { r1 with axc0 := { r1.axc0 with recOwed := true } }
      (({ s1 with rind := r3.nextConv s1.time.mono } : State), q.2)

/-- A 200 µs probe of an OPEN channel (R299): an OPEN reading; the second clean probe in a row moves the channel to AUTO with EV226. -/
def openProbe (broken : Bool) (s : State) : State :=
  match s.rind.axc0.current with
  | none => s
  | some n =>
    let e := s.rind.front.entryWord n
    let c := entSrc e
    let ch := s.rind.axc0.chan c
    if !s.rind.axcOn || ch.state ≠ .opened then s
    else
      let s1 := (s.until (s.rind.axc0.startAt + 200 * us)).endedReading c e 1 (-8388608)
      let clean := if broken then 0 else ch.cleanProbes + 1
      s1.modRind fun r =>
        let r1 : Rind := { r with axc0 := r.axc0.modRtd c fun t => { t with cleanProbes := clean } }
        let r2 := if 2 ≤ clean then (r1.event 226).enterAuto c else r1
        r2.nextConv s1.time.mono

/-- The reference leaves its window (R300): REF_BAD, REF_SET clears, EV227 with EV231, AUTO for a channel in NORMAL; T_REC is owed (R302). -/
def referenceOutOfWindow (s : State) : State × Option Nat :=
  match s.rind.axc0.current with
  | none => (s, none)
  | some n =>
    let e := s.rind.front.entryWord n
    let c := entSrc e
    let st := (s.rind.axc0.chan c).state
    if !s.rind.axcOn || st == .opened then (s, none)
    else
      let s1 := s.endedReading c e 4 0x7FFFFE
      let q := if st == .normal then s1.rind.calReading c none true else (s1.rind, none)
      let r1 := (({ q.1 with axc0 := { q.1.axc0 with refSet := false, recOwed := true } } : Rind).event 227).event 231
      (({ s1 with rind := (r1.autoIfNormal c).nextConv s1.time.mono } : State), q.2)

/-- V_REF has been within its window for 1 ms: REF_SET sets again, with EV231 (R300). -/
def referenceSettled (s : State) : State :=
  if !s.rind.axcOn || s.rind.axc0.refSet then s
  else (s.elapse ms).modRind fun r => ({ r with axc0 := { r.axc0 with refSet := true } } : Rind).event 231

/-! ### Urgent conversions and calibration requests -/

/-- An urgent conversion of an entry is queued (R291): 0x011C when four wait. A sequence entry in progress is aborted, unless URG_MAX urgent
conversions have run since an entry completed. -/
def axc0Urgent (n : Nat) (s : State) : Status × State :=
  let a := s.rind.axc0
  if 4 ≤ a.urgent.length then (0x011C, s)
  else (0, s.modAxc0 fun x =>
    let y := { x with urgent := x.urgent ++ [n] }
    match y.running with
    | some (some _) => if y.urgRun < s.rind.front.thDev 0x1905 then y.startNext s.rind.front s.time.mono else y
    | _ => y)

/-- Closes the open calibration without applying it. -/
def Rind.calClose (r : Rind) : Rind := { r with axc0 := { r.axc0 with cal := none } }

/-- CAL_BEGIN (R305), once the seal allows it. -/
def calBegin (rc z f : Nat) (s : State) : Status × State :=
  let ss := s.rind.params
  match s.rind.axc0.cal, ss.entryOf rc with
  | some _, _ => (0x011B, s)
  | none, none => (0x021B, s)
  | none, some e =>
    let fs := fullScale7 ss (entRange e)
    if fs < f * 128 ∨ fs < z * 128 ∨ (f : Int) * 512 - (z : Int) * 512 < fs then (0x021B, s)
    else (0, s.modAxc0 fun a => { a with cal := some {
      rc := rc, zNom := z, fNom := f, zMeas := none, fMeas := none, collecting := none, readings := [], bad := false,
      lastRequest := s.time.mono, caller := none } })

/-- CAL_ZERO or CAL_FULL is accepted: the channel's next 16 normal conversions are taken (R305). None without an open calibration of it. -/
def calMeasure (rc : Nat) (full : Bool) (s : State) : Option State :=
  match s.rind.axc0.cal with
  | none => none
  | some o =>
    if o.rc ≠ rc then none
    else some (s.modAxc0 fun a => { a with cal := some { o with
      collecting := some full, readings := [], bad := false, lastRequest := s.time.mono } })

/-- CAL_APPLY (R305, R306): status, REASON when refused. -/
def calApply (rc : Nat) (s : State) : Status × Option Nat × State :=
  match s.rind.axc0.cal with
  | none => (0x011B, none, s)
  | some o =>
    match o.zMeas, o.fMeas with
    | some zs, some fs =>
      if o.rc ≠ rc then (0x011B, none, s)
      else
        let ss := s.rind.params
        let k := match ss.entryOf rc with | some e => entRange e | none => 1
        let dn := ((o.fNom : Int) - o.zNom) * 17179869184     -- (F_NOM − Z_NOM) × 16 × 2^30
        let dm := fs - zs
        let num := zs * ((o.fNom : Int) - o.zNom) - (o.zNom : Int) * dm   -- OFS × 16 × 2^30 × (F_NOM − Z_NOM)
        let touched := s.modAxc0 fun a => { a with cal := some { o with lastRequest := s.time.mono } }
        if dm ≤ 0 || decide (dn * 100 < 98 * dm) || decide (102 * dm < dn * 100) ||
            decide ((fullScale7 ss k : Int) * dn < (num.natAbs : Int) * 12800) then
          (0x021C, some 6, touched.modRind fun r => r.event 229)
        else
          let gain := divOpen (dn * 4294967296) dm.toNat
          let ofs := divOpen (num * 65536) dn.toNat
          let key : SetKey := { kind := .rtd, inst := rc, sub := 0, code := 0x190B }
          let old := rindBytes 0x190B ((ss.rindVal .rtd rc 0x190B).getD [0, 0])
          (0, none, s.modRind fun r =>
            let r1 : Rind := { r with params := r.params.put key [ofs, gain] }
            let r2 : Rind := { r1 with paramId := r1.paramIdNow }
            ((r2.calClose).write 0x0D 1 0x190B 1 r.paramId (first8 old) (first8 (rindBytes 0x190B [ofs, gain]))).event 229)
    | _, _ => (0x011B, none, s)

/-- One hour without a calibration request closes the open calibration; a measuring step that it cuts short is answered by the mailbox's own
rules (R305). -/
def calibrationIdleTimeout (s : State) : State :=
  match s.rind.axc0.cal with
  | none => s
  | some o => (s.until (o.lastRequest + 3600 * sec)).modRind Rind.calClose

/-- OPEN_PROBE. -/
def execOpenProbe (broken : Bool) (s : State) : Host.Outcome State Fault Refusal := .next (openProbe broken s)
/-- REFERENCE_SETTLED. -/
def execReferenceSettled (s : State) : Host.Outcome State Fault Refusal := .next (referenceSettled s)

end Sys2Proof.Machine
end

