-- ==== Sys2Proof/Machine/Rind.lean ====
section
/-! DEFINITION. The Rind: requests of the mailbox (R255 to R257, R468, R469), the seal (R266 to R273), its starts (R249, R265), tamper inputs
(R270), time (R260), and the main side's end of the results path (R252 to R254, R279). -/

namespace Sys2Proof.Machine

/-! ### Legally relevant changes (R268, R275) -/

/-- A refused attempt on a parameter: a WRITE_REFUSED record at the first, counted in its window after that (R268). -/
def Rind.attempt (now : Time) (r : Rind) (a : Nat × BitVec 64 × BitVec 64) : Rind :=
  let c := BitVec.ofNat 16 a.1
  if r.windows.any fun w => w.1 == c then
    { r with windows := r.windows.map fun w => if w.1 == c then (w.1, w.2.1, w.2.2.1 + 1, a.2.1, a.2.2) else w }
  else
    let r1 := r.write 0x05 1 a.1 1 r.paramId a.2.1 a.2.2
    { r1 with windows := r1.windows ++ [(c, now, 0, a.2.1, a.2.2)] }

/-- A request that names legally relevant parameters, each with its value in force and the value attempted: 0x0401 while SEALED, counted once
(R268); 0x011A while the trail is full (R275); else 0. -/
def lrGate (attempts : List (Nat × BitVec 64 × BitVec 64)) (s : State) : Status × State :=
  let codes := (attempts.map (·.1)).eraseDups
  if attempts.isEmpty then (0, s)
  else if s.rind.sealSt == .sealed then
    (0x0401, s.modRind fun r =>
      let r1 := (codes.filterMap fun c => attempts.find? fun a => a.1 == c).foldl (Rind.attempt s.time.mono) r
      ({ r1 with refused := r1.refused + 1 } : Rind).event 217)
  else if 4096 ≤ s.rind.unexported then (0x011A, s)
  else (0, s)

/-- At the end of a 60 s window the attempts after the first are written as one record (R268), by a Rind that has power. -/
def writeRefusedWindowEnd (param : BitVec 16) (s : State) : State :=
  match s.rind.windows.find? fun w => w.1 == param with
  | none => s
  | some w =>
    if !s.rind.powered then s
    else (s.until (w.2.1 + 60 * sec)).modRind fun r =>
      let r1 : Rind := { r with windows := r.windows.filter fun x => x.1 != param }
      if w.2.2.1 = 0 then r1 else r1.write 0x05 1 param.toNat w.2.2.1 r1.paramId w.2.2.2.1 w.2.2.2.2

/-! ### What a request answers -/

/-- The outcome of a request: an answer, or an answer that follows a measurement (R255). -/
inductive RindRes where
  | done (st : Status) (items : List (List Byte)) (s : State)
  | waits (s : State)

/-- Value bytes of a key in the Rind, as an audit record holds them. -/
def keyFirst8 (ss : Settings) (k : SetKey) : BitVec 64 := first8 (rindBytes k.code ((ss.rindVal k.kind k.inst k.code).getD []))

/-- The attempts of the legally relevant items of a command. -/
def lrAttempts (ss : Settings) (items : List (SetKey × List Int)) : List (Nat × BitVec 64 × BitVec 64) :=
  (items.filter fun x => lrCode x.1.code).map fun x => (x.1.code, keyFirst8 ss x.1, first8 (rindBytes x.1.code x.2))

/-- New parameters are accepted: PARAM_ID is recomputed and a PARAM_CHANGE record written for each legally relevant parameter that changed
(R263, R277). -/
def Rind.acceptParams (r : Rind) (items : List (SetKey × List Int)) : Rind :=
  let r1 : Rind := { r with params := items.foldl (fun ss x => ss.put x.1 x.2) r.params }
  let r2 : Rind := { r1 with paramId := r1.paramIdNow }
  (items.filter fun x => lrCode x.1.code && r.params.rindVal x.1.kind x.1.inst x.1.code != some x.2).foldl
    (fun q x => q.write 0x04 1 x.1.code 1 r.paramId (keyFirst8 r.params x.1) (first8 (rindBytes x.1.code x.2))) r2

/-- Parameters without a default that a THERMAL_SET needs for what it names (R172, R446). -/
def thermalMissing (ss : Settings) (items : List (SetKey × List Int)) : Bool :=
  items.any fun x =>
    let need := match x.1.kind with
      | .device => [0x1407]
      | .thermal => [0x140D, 0x140F, 0x1411]
      | _ => [0x1412, 0x1413]
    need.any fun c => (ss.rindVal x.1.kind x.1.inst c).isNone

/-- THERMAL_SET (R172, R173). -/
def thermalSet (p : Parsed) (s : State) : RindRes :=
  let g := lrGate (lrAttempts s.rind.params p.items) s
  let cand := p.items.foldl (fun ss x => ss.put x.1 x.2) s.rind.params
  if g.1 ≠ 0 then .done g.1 [] g.2
  else if thermalMissing cand p.items then .done 0x020D [] s
  else if !coilsInRange cand then .done 0x0216 [] s
  else if !thermalOk cand s.rind.accepted then .done 0x0217 [] s
  else .done 0 [] (s.modRind fun r => r.acceptParams p.items)

/-- Steps of a SCHEDULE_SET, step 0 first; none when their numbers leave a gap (R468). -/
def stepsOf (p : Parsed) : Option (List SchedStep) :=
  let its := p.items.filter fun x => x.1.code == 0x021B
  let one := fun (i : Nat) => (its.find? fun x => x.1.sub == i).map fun x =>
    ({ ports := ((x.2.drop 1).take 4).map (·.toNat), dStep := (x.2.getD 5 0).toNat } : SchedStep)
  (List.range its.length).mapM one

/-- SCHEDULE_SET (R167, R173, R174). -/
def scheduleSet (p : Parsed) (s : State) : RindRes :=
  match stepsOf p with
  | none => .done 0x0202 [] s
  | some sch =>
    let r := s.rind
    let old := first8 (match r.accepted with | x :: _ => stepBytes 0 x | [] => [])
    let new := first8 (match sch with | x :: _ => stepBytes 0 x | [] => [])
    let g := lrGate [(0x021B, old, new)] s
    if g.1 ≠ 0 then .done g.1 [] g.2
    else if !thermalOk r.params sch then .done 0x0217 [] s
    else
      let s1 := s.modRind fun x =>
        let y : Rind := { x with nextSchedule := some sch }
        let z : Rind := { y with paramId := y.paramIdNow }
        if sch = r.accepted then z else z.write 0x04 1 0x021B 1 r.paramId old new
      .done 0 [] (if s1.rind.phase == .stopped then s1.startSchedule else s1)

/-- FRONT_END_SET (R293); the checks are those of the entries that it names (log entry 75, DEDUCED). -/
def frontEndSet (p : Parsed) (s : State) : RindRes :=
  let g := lrGate (lrAttempts s.rind.params p.items) s
  let cand := p.items.foldl (fun ss x => ss.put x.1 x.2) s.rind.params
  if g.1 ≠ 0 then .done g.1 [] g.2
  else if (p.items.any fun x => x.1.code == 0x1901 && !entryAllowed cand (cand.entryWord x.1.inst)) ||
      !((List.range 32).any fun n => entLast (cand.entryWord n)) then .done 0x021B [] s
  else .done 0 [] (s.modRind fun r => r.acceptParams p.items)

/-- RIND_IDENTIFY (R264, R274). -/
def rindIdentify (s : State) : RindRes :=
  let r := s.rind
  .done 0 [item 0x0308 (le 8 s.glb.uid.toNat ++ cut Config.publicKey 0 64 ++ cut Config.endorsement 0 64 ++
    [BitVec.ofNat 8 (r.swVer.toNat / 65536), BitVec.ofNat 8 (r.swVer.toNat / 256), BitVec.ofNat 8 r.swVer.toNat] ++ le 8 r.swDig.toNat)] s

/-- The items in force of one instance, behind its selector (R446, R447). -/
def instItems (ss : Settings) (kind : Kind) (sel : Option Nat) (i : Nat) : List (List Byte) :=
  let all := ss.filter fun x => x.key.kind == kind && x.key.inst == i && !x.val.isEmpty && x.key.code ≠ 0x190B
  let own := sortList (fun a b => decide (a.key.code < b.key.code) || (a.key.code == b.key.code && decide (a.key.sub ≤ b.key.sub))) all
  if own.isEmpty then []
  else (match sel with | some c => [item c (le 1 i)] | none => []) ++ own.map fun x => item x.key.code (paramBytes x.key.code x.val)

/-- RIND_QUERY (R468): the items in force, the schedule, and PARAM_ID. -/
def rindQuery (s : State) : RindRes :=
  let ss := s.rind.params
  let per := fun (kind : Kind) (sel n : Nat) => (List.range n).flatMap (instItems ss kind (some sel))
  .done 0 (instItems ss .device none 0 ++ per .thermal 0x0106 4 ++ per .thermalPort 0x0101 24 ++ per .entry 0x0108 32 ++ per .rtd 0x0107 16 ++
    (s.rind.accepted.zipIdx.map fun x => item 0x021B (stepBytes x.2 x.1)) ++ [item 0x0308 (leW s.rind.paramId)]) s

/-! ### The seal (R266 to R273) -/

/-- A refused seal or break request: a SEAL_REFUSED record whose NEW holds the status (R267, R269). -/
def sealRefuse (st : Status) (s : State) : RindRes :=
  .done st [] (s.modRind fun r => r.note 0x0F 1 (BitVec.ofNat 64 r.sealSt.code) (st.setWidth 64))

/-- What the scan instruction in force does to the Rind's pins: nothing while the Rind is SEALED or unpowered (R246, R248). -/
def State.syncScan (s : State) : State :=
  s.modLinks fun l => { l with rindPins := if s.rind.sealSt == .sealed || !s.rind.powered then .functional else l.scanPins }

/-- SEAL (R267, R273): the refusals in the order of the table, but for HALTED, which answers 0x0601 before all (R265). -/
def sealSet (p : Parsed) (s : State) : RindRes :=
  let r := s.rind
  let v := (p.val? 0x0224).getD []
  if r.halted then sealRefuse 0x0601 s
  else if !s.glb.variantM then sealRefuse 0x0118 s
  else if r.sealSt == .sealed then sealRefuse 0x0402 s
  else if v ≠ [(r.paramId.toNat : Int), (r.swDig.toNat : Int)] then sealRefuse 0x021A s
  else if 4096 ≤ r.unexported then sealRefuse 0x011A s
  else if !thermalOk r.params r.accepted then sealRefuse 0x0217 s
  else .done 0 [] (s.modRind fun x =>
    (({ x with sealSt := .sealed, sealedDig := x.swDig, sealedParamId := x.paramId } : Rind).calClose.note 0x02 1
      (BitVec.ofNat 64 x.sealSt.code) 1).event 216).syncScan

/-- SEAL_BREAK (R269): only while SEALED, and while SEAL_BRK has been active for 1 s. A profile whose average or signing saw the break no longer
counts as sealed throughout (R271). -/
def sealBreak (s : State) : RindRes :=
  let r := s.rind
  if r.halted then sealRefuse 0x0601 s
  else if r.sealSt ≠ .sealed then sealRefuse 0x011F s
  else if 4096 ≤ r.unexported then sealRefuse 0x011A s
  else if !(s.aon.sealBrk && decide (s.aon.sealBrkSince + sec ≤ s.time.mono)) then sealRefuse 0x0119 s
  else .done 0 [] (s.modRind fun x =>
    (({ x with
      sealSt := .broken
      avg := x.avg.map fun a => { a with sealedAll := false }
      work := x.work.map fun w => { w with sealedAll := false } } : Rind).note 0x03 1 1 2).event 216).syncScan

/-! ### Audit trail and firmware -/

/-- AUDIT_READ: up to 15 records from FROM (R275). -/
def auditRead (p : Parsed) (s : State) : RindRes :=
  .done 0 (((s.rind.audit.filter fun a => decide (p.getD 0x0226 0 ≤ a.cnt.toNat)).take 15).map fun a => item 0x0308 a.bytes) s

/-- AUDIT_ACK (R275): ACK_CNT advances to FROM; a FROM outside ACK_CNT to AUDIT_CNT is refused with 0x0202 (log entry 76, DEDUCED). -/
def auditAck (p : Parsed) (s : State) : RindRes :=
  let n := p.getD 0x0226 0
  if n < s.rind.ackCnt.toNat ∨ s.rind.auditCnt.toNat < n then .done 0x0202 [] s
  else .done 0 [] (s.modRind fun r => ({ r with ackCnt := BitVec.ofNat 32 n } : Rind).note 0x0E 1 (r.ackCnt.setWidth 64) (BitVec.ofNat 64 n))

/-- RIND_FW_LOAD (R272): a piece of an image; a piece that neither starts a load nor continues it is refused with 0x0202 (log entry 77, DEDUCED). -/
def rindFwLoad (p : Parsed) (s : State) : RindRes :=
  let v := (p.val? 0x021E).getD []
  let off := (v.getD 0 0).toNat
  let total := (v.getD 1 0).toNat
  let bs := (v.drop 2).map fun x => BitVec.ofInt 8 x
  let g := lrGate [(0x021E, s.rind.swDig, first8 bs)] s
  if g.1 ≠ 0 then .done g.1 [] g.2
  else if total < off + bs.length then .done 0x0202 [] s
  else if off = 0 then .done 0 [] (s.modRind fun r => { r with fwImage := bs, fwTotal := total })
  else if off = s.rind.fwImage.length ∧ total = s.rind.fwTotal then .done 0 [] (s.modRind fun r => { r with fwImage := r.fwImage ++ bs })
  else .done 0x0202 [] s

/-- A firmware load completes (R272): a correctly signed image is recorded and runs from the next power cycle; an EVENT message reports, whose
number the spec does not state (log entry 78, DESIGN CHOICE). -/
def rindFwLoadComplete (s : State) : State :=
  let r := s.rind
  if !r.powered || r.fwImage.isEmpty || r.fwImage.length ≠ r.fwTotal then s
  else
    let (f, s1) := s.fresh
    let dig := BitVec.ofNat 64 (rd (sha256 r.fwImage) 0 8)
    s1.modRind fun x =>
      let y : Rind := { x with fwImage := [], fwTotal := 0 }
      let z := if Config.signatureOk r.fwImage then
          ({ y with nextFw := some dig, nextFwVer := BitVec.ofNat 24 (f.toNat / 65536) } : Rind).note 0x09 1 x.swDig dig
        else y
      z.event (f.toNat % 65536)

/-! ### Executing a request (R255, R257) -/

/-- Opcodes that a HALTED Rind answers (R265). -/
def haltedAnswers (r : Rind) (op : Nat) : Bool :=
  op == 0x0704 || op == 0x0705 || op == 0x0706 || op == 0x0707 || op == 0x0708 || (op == 0x070A && r.sealSt != .sealed)

/-- A calibration request is refused while SEALED (R268, R305); any such request keeps an open calibration from its idle timeout. -/
def calGate (s : State) (k : State → RindRes) : RindRes :=
  if s.rind.sealSt == .sealed then let g := lrGate [(0x190B, 0, 0)] s; .done g.1 [] g.2
  else k (s.modAxc0 fun a => { a with cal := a.cal.map fun o => { o with lastRequest := s.time.mono } })

/-- REASON of a refused step (R306). -/
def reasonItem (n : Nat) : List Byte := item 0x0307 (le 1 n)

/-- Several urgent requests, all or none. -/
def urgentAll (s : State) : List Nat → State → RindRes
  | [], t => .done 0 [] t
  | n :: ns, t => let u := axc0Urgent n t; if u.1 = 0 then urgentAll s ns u.2 else .done u.1 [] s

/-- A request, executed completely or not at all (R255). -/
def rindServe (op : Nat) (p : Parsed) (s : State) : RindRes :=
  let rc := (p.named 0x0107).headD 0
  if s.rind.halted && !(haltedAnswers s.rind op) then .done 0x0601 [] s
  else match op with
  | 0x0701 => thermalSet p s
  | 0x0702 => scheduleSet p s
  | 0x0703 => frontEndSet p s
  | 0x0704 => rindIdentify s
  | 0x0705 => rindQuery s
  | 0x0706 => sealSet p s
  | 0x0707 => sealBreak s
  | 0x0708 => auditRead p s
  | 0x0709 => auditAck p s
  | 0x070A => rindFwLoad p s
  | 0x070B => calGate s fun t =>
      let v := (p.val? 0x0225).getD []
      let r := calBegin rc (v.getD 0 0).toNat (v.getD 1 0).toNat t
      .done r.1 [] r.2
  | 0x070C => calGate s fun t => match calMeasure rc false t with | some u => .waits u | none => .done 0x011B [] t
  | 0x070D => calGate s fun t => match calMeasure rc true t with | some u => .waits u | none => .done 0x011B [] t
  | 0x070E => calGate s fun t =>
      let r := calApply rc t
      .done r.1 (match r.2.1 with | some n => [reasonItem n] | none => []) r.2.2
  | 0x070F => match s.rind.axc0.cal with | some _ => .done 0 [] (s.modRind Rind.calClose) | none => .done 0x011B [] s
  | _ => urgentAll s (p.named 0x0108) s

/-- A slot of the mailbox: code, length, TAG, parameters or results (R255); how what exceeds its 1,024 bytes passes is not stated, and only they are held
(log entry 132, DESIGN CHOICE). -/
def mbxSlot (code : Nat) (tag : BitVec 16) (body : List Byte) : List Byte :=
  (le 2 code ++ le 2 body.length ++ le 2 tag.toNat ++ zeros 2 ++ body).take 1024

/-- A request goes into the mailbox, which an unpowered Rind leaves empty (R246, R255). -/
def Rind.post (r : Rind) (x : SessIx × BitVec 16 × Packet) : Rind :=
  { r with request := some x, slot := if r.powered then mbxSlot x.2.1.toNat (r.tag + 1) x.2.2.body else [] }

/-- The reply of the request executed, with its TAG and STATUS (R255, R257). -/
def Rind.executed (r : Rind) (st : Status) (items : List (List Byte)) : Rind :=
  { r with tag := r.tag + 1, lastTag := r.tag + 1, lastStatus := st, slot := [], reply := mbxSlot st.toNat (r.tag + 1) items.flatten }

/-- A 0x07 command passes to the mailbox (R255, R256, R468): the Rind executes it at once when it is powered and its request slot is free;
otherwise it waits, in the slot or with the Supervisor. -/
def runRind (op : Nat) : Run := fun i k p s =>
  let x := (i, BitVec.ofNat 16 op, k)
  if s.rind.request.isSome then .later (s.modRind fun r => { r with held := r.held ++ [x] })
  else if !s.rind.powered then .later (s.modRind fun r => r.post x)
  else match rindServe op p s with
    | .done st items t => .done st items (t.modRind fun r => r.executed st items)
    | .waits t => .later (t.modRind fun r => r.post x)

/-- The request in the slot is answered, and the slot is free. -/
def State.answerRind (s : State) (st : Status) (items : List (List Byte)) : State :=
  match s.rind.request with
  | none => s
  | some (i, op, k) => (s.modRind fun r => { (r.executed st items) with request := none }).finish i op k st items

/-- Whether the request in the slot waits for its sixteenth conversion. -/
def Rind.measuring (r : Rind) : Bool := match r.axc0.cal with | some o => o.collecting.isSome | none => false

/-- The Rind takes the request that waits in its slot, then those that the Supervisor holds, until one has to wait. -/
def serveMailbox : Nat → State → State
  | 0, s => s
  | n + 1, s =>
    match s.rind.request with
    | some (_, op, k) =>
      if !s.rind.powered || s.rind.slot.isEmpty || s.rind.measuring then s
      else match operands op.toNat k with
        | .error e => serveMailbox n (s.answerRind e [])
        | .ok p => match rindServe op.toNat p s with
          | .done st items t => serveMailbox n (t.answerRind st items)
          | .waits t => t
    | none => match s.rind.held with
      | [] => s
      | h :: hs => serveMailbox n (s.modRind fun r => ({ r with held := hs } : Rind).post h)

/-- Enough turns for every waiting request. -/
def State.serveAll (s : State) : State := serveMailbox (2 * s.rind.held.length + 2) s

/-- A calibration step ended: its request is answered (R305, R306), and held requests follow. -/
def calAnswer (r : State × Option Nat) : State :=
  match r.2 with
  | none => r.1
  | some 0 => (r.1.answerRind 0 []).serveAll
  | some why => (r.1.answerRind 0x021C [reasonItem why]).serveAll

/-- No reply within 50 ms (R469): the command is answered with 0x0602, unless it waits for its sixteenth conversion. -/
def mailboxTimeout (s : State) : State :=
  match s.rind.request with
  | none => s
  | some (i, op, k) =>
    if s.rind.measuring then s
    else
      let s1 := ((s.elapse (50 * ms)).modRind fun r => { r with request := none, slot := [] }).finish i op k 0x0602 []
      match s1.rind.held with
      | [] => s1
      | h :: hs => (s1.modRind fun r => ({ r with held := hs } : Rind).post h).serveAll

/-! ### Starts of the Rind (R249, R265, R270, R550) -/

/-- What any start of the Rind resets: time, averages, profiles still unsigned, AXC0. -/
def Rind.restart (r : Rind) (now : Time) : Rind :=
  { r with
    timeUnset := true, started := false, tpg := false, avg := none, work := [], phase := .stopped, inForce := r.params, front := r.params, axc0 :=
      { Axc0.reset with running := some (some 0), startAt := now } }

/-- TAMPER records for the activations that SEAL_CNT gained since the Rind last looked, and one with COUNT 0xFFFF_FFFF when the island lost its
supply (R270, R550). The latches clear. -/
def State.recordTamper (s : State) (lost : Bool) : State :=
  let gained := (s.aon.sealCnt - s.rind.sealCntRef).toNat
  let one := fun (n : Nat) (r : Rind) => r.write 0x06 2 0 n r.paramId 0 0
  let s1 := s.modRind fun r =>
    let r1 := if lost then one 0xFFFFFFFF r else (List.range gained).foldl (fun q _ => one 1 q) r
    { r1 with sealCntRef := s.aon.sealCnt }
  s1.modAon fun a => { a with tamp0 := false, tamp1 := false }

/-- What a start of the Rind records of the island: the unknown count that B00 found, or the activations since; nothing before B00 has looked at an
island that was reset (R270, R550). -/
def State.tellTamper (s : State) : State :=
  if s.aon.untold then (s.recordTamper true).modAon fun a => { a with untold := false }
  else if s.aon.lost then s
  else s.recordTamper false

/-- The Rind powers on (R265): a loaded image takes over (R272), the checks of B01 run, POWER_ON is recorded with EV224 and the schedule starts;
or the Rind enters HALTED with SW_FAULT and EV223. -/
def rindPowerOn (imageOk : Bool) (s : State) : State :=
  let now := s.time.mono
  let s1 := s.modRind fun r =>
    let r1 : Rind := { r with
      powered := true, halted := false, time := 0, unacked := [], wire := [], ackLate := false, ackAt := now, sentAt := now, inhibit := r.inhibitOuter
      swDig := r.nextFw.getD r.swDig, swVer := if r.nextFw.isSome then r.nextFwVer else r.swVer, nextFw := none, fwImage := [], fwTotal := 0
      osw := 0x1F, oswPort := Vector.replicate 4 31 }
    r1.restart now
  let r := s1.rind
  let ok := imageOk && (r.sealSt != .sealed || r.swDig == r.sealedDig) && r.paramIdNow == r.paramId
  if ok then
    let s2 := ((s1.modRind fun x => (x.note 0x01 0 0 (x.swDig)).event 224).tellTamper).startSchedule.syncScan
    s2.modBoot fun b => { b with thermalB01 := 0 }
  else
    let s2 := (s1.modRind fun x => ((({ x with halted := true } : Rind).note 0x0A 0 x.sealedDig x.swDig).event 223).event 224).syncScan
    s2.modBoot fun b => { b with thermalB01 := 1 }

/-- The Rind's watchdog trips (R249): the interrupted average gives no profile, WATCHDOG is recorded with EV224, and the schedule restarts at
step 0. -/
def rindWatchdog (s : State) : State :=
  if !s.rind.powered then s
  else ((s.modRind fun r => ((r.restart s.time.mono).note 0x10 0 0 0).event 224)).startSchedule

/-- TAMP0, TAMP1 or SEAL_BRK activates (R270): SEAL_CNT increments, the latch sets; a running Rind records it within 10 ms. -/
def tamperActivation (w : TamperPin) (s : State) : State :=
  let s1 := s.modAon fun a =>
    let b := { a with sealCnt := a.sealCnt + 1 }
    match w with
    | .tamp0 => { b with tamp0 := true }
    | .tamp1 => { b with tamp1 := true }
    | .sealBrk => { b with sealBrk := true, sealBrkSince := s.time.mono }
  if s1.rind.powered && !s1.aon.lost && !s1.aon.untold then s1.recordTamper false else s1

/-- The time word (R260): written at the next whole second of the device clock. The Rind steps to it when it is its first since the Rind started
or lies more than 1 s away, with a TIME_STEP record; else it slews by at most 100 µs in the second (log entry 79, DEDUCED). -/
def timeWord (s : State) : State :=
  let s1 := s.untilDev ((s.time.dev + sec - 1) / sec * sec)
  let w := s1.time.dev / sec * sec
  if s1.boot.inReset || !s1.rind.powered then s1
  else s1.modRind fun r0 =>
    let r : Rind := { r0 with timeWord := some w }
    let diff := (w : Int) - r.time
    if !r.started || sec < diff.natAbs then
      ({ r with time := w, started := true, timeUnset := false } : Rind).note 0x0C 1 (first8 (stampB r.time)) (first8 (stampB w))
    else { r with time := ((r.time : Int) + max (-(100 * us : Nat) : Int) (min (100 * us : Nat) diff)).toNat }

/-! ### The results path at the main side (R250 to R254, R279) -/

/-- The message whose turn it is on the line arrives and leaves it (R251); one that fails its CRC and one already received are discarded, and nothing is
read while the main partition is down (R14). A good one is acknowledged at once (R252). Nothing happens when the row names another message. -/
def receive (kind : Nat) (m : RpArrival) (s : State) : Option RpMsg × State :=
  match s.rind.wire.head?.filter fun x => x.seq == m.seq && x.body.kind == kind with
  | none => (none, s)
  | some x =>
    let s1 := s.modRind fun r => r.offLine x
    if s1.boot.inReset || !m.crcOk then (none, s1)
    else
      let s2 := s1.modRind fun r => { r with
        unacked := r.unacked.filter fun y => y.seq != m.seq
        ackWord := m.seq, ackLate := r.ackLate || decide (r.ackAt + sec ≤ s.time.mono), ackAt := s.time.mono
        annAcked := r.annAcked || r.annSeq == m.seq }
      if s2.rindMain.seen.contains m.seq then (none, s2)
      else (some x, s2.modRm fun q => { q with lastSeq := some m.seq, seen := q.seen ++ [m.seq] })

/-- Whether profile SEQ `a` comes before `b`, the count running modulo 2^32 (R182). -/
def seqBefore (a b : BitVec 32) : Bool := a != b && decide ((b - a).toNat < 2 ^ 31)

/-- Whether a profile received has none of its channel before it, received or still to come (R252): one lost or discarded is not waited for. -/
def State.nextProfile (s : State) (x : Nat × BitVec 32 × List Byte) : Bool :=
  !(s.rindMain.early.any fun y => y.1 == x.1 && seqBefore y.2.1 x.2.1) &&
    !(s.rind.unacked.any fun m => match m.profile? with | some (c, _, q) => c == x.1 && seqBefore q x.2.1 | none => false)

/-- Forwards the profiles received on stream 1, each once, in the order of their SEQ within a channel (R183, R252). -/
def forwardProfiles : Nat → State → State
  | 0, s => s
  | n + 1, s =>
    match s.rindMain.early.find? s.nextProfile with
    | some x => forwardProfiles n ((s.modRm fun rm => { rm with early := rm.early.erase x }).push 1 none (.profile x.2.2) 0 false)
    | none => s

/-- A PROFILE message (R183, R252). -/
def profileArrives (m : RpArrival) (s : State) : State :=
  match receive 1 m s with
  | (some { channel := c, body := .profile bs _ q, .. }, t) =>
    let t1 := t.modRm fun rm => { rm with early := rm.early ++ [(c, q, bs)] }
    forwardProfiles t1.rindMain.early.length t1
  | (_, t) => t

/-- ANNOUNCE (R168): the new step's ports become THERMAL-ASSIGNED; those of the old step stay so. -/
def announceArrives (m : RpArrival) (s : State) : State :=
  match receive 2 m s with
  | (some { body := .announce _ ps _, .. }, t) =>
    let t1 := t.modRm fun rm => { rm with newPorts := ps }
    (t1.forPorts fun p u => if ps.contains p.val then u.modPort p fun q => { q with thermal := true } else u).driveInhibit
  | (_, t) => t

/-- SWITCHED (R168, R254): THERMAL-ASSIGNED is what the message's ports say. -/
def switchedArrives (m : RpArrival) (s : State) : State :=
  match receive 3 m s with
  | (some { body := .switched _ ps _, .. }, t) =>
    (t.forPorts fun p u => u.modPort p fun q => { q with thermal := ps.contains p.val }).driveInhibit
  | (_, t) => t

/-- An EVENT message: the event is raised (R279). -/
def eventArrives (m : RpArrival) (s : State) : State :=
  match receive 4 m s with
  | (some { body := .event n, .. }, t) => t.raiseN n
  | (_, t) => t

/-- An AUDIT copy: that of a RESULT_DISCARD is declared on stream 1 (R253, R424); its BYTES are not stated (log entry 80, DESIGN CHOICE). -/
def auditArrives (m : RpArrival) (s : State) : State :=
  match receive 5 m s with
  | (some { body := .audit a, .. }, t) =>
    if a.recType ≠ 0x0B then t
    else
      let old := a.old.toNat
      let c := old % 256
      let q := BitVec.ofNat 32 (old / 4294967296)
      let (f, t1) := t.fresh
      let t2 := t1.whey 1 none { Whey.blank 12 0xFFFF (old / 256 % 256) with
        products := 0x80, firstPoint := c, count := 1, tFirst := a.t, tLast := a.t, seqFirst := q, seqLast := q, lostBytes := f.toNat % 2 ^ 32 }
      forwardProfiles t2.rindMain.early.length t2
  | (_, t) => t

/-- A READING message (R304): the main side keeps the newest of each source. -/
def readingArrives (m : RpArrival) (s : State) : State :=
  match receive 6 m s with
  | (some { body := .reading bs, .. }, t) =>
    t.modRm fun rm => { rm with lastReading := (rm.lastReading.filter fun x => x.headD 0 != bs.headD 0) ++ [bs] }
  | (_, t) => t

/-- 100 ms without an advancing acknowledgement: the Rind sends again from the oldest unacknowledged message (R252). -/
def rpRetransmit (s : State) : State :=
  if !s.rind.powered || s.rind.unacked.isEmpty then s
  else
    let s1 := s.until (max s.rind.ackAt s.rind.sentAt + 100 * ms)
    s1.modRind fun r => ({ r with sentAt := s1.time.mono } : Rind).resend r.unacked

/-- The acknowledgement has advanced after 1 s or more of silence: a SWITCHED message for the step in force goes out ahead of the buffered messages
(R254). -/
def ackAfterSilence (s : State) : State :=
  let r := s.rind
  if !r.running || !r.ackLate then s
  else s.modRind fun x =>
    let m : RpMsg := { seq := x.rpSeq + 1, channel := 0xFF, body := .switched x.step x.stepNow.ports x.time }
    (({ x with ackLate := false, sentAt := s.time.mono, rpSeq := x.rpSeq + 1, unacked := m :: x.unacked } : Rind).resend (m :: x.unacked)).event 225

/-! ### The rows -/

/-- PROFILE. -/
def execProfile (m : RpArrival) (s : State) : Host.Outcome State Fault Refusal := .next (profileArrives m s)
/-- ANNOUNCE. -/
def execAnnounce (m : RpArrival) (s : State) : Host.Outcome State Fault Refusal := .next (announceArrives m s)
/-- SWITCHED. -/
def execSwitched (m : RpArrival) (s : State) : Host.Outcome State Fault Refusal := .next (switchedArrives m s)
/-- EVENT_MESSAGE. -/
def execEventMessage (m : RpArrival) (s : State) : Host.Outcome State Fault Refusal := .next (eventArrives m s)
/-- AUDIT. -/
def execAudit (m : RpArrival) (s : State) : Host.Outcome State Fault Refusal := .next (auditArrives m s)
/-- READING. -/
def execReading (m : RpArrival) (s : State) : Host.Outcome State Fault Refusal := .next (readingArrives m s)
/-- RP_RETRANSMIT. -/
def execRpRetransmit (s : State) : Host.Outcome State Fault Refusal := .next (rpRetransmit s)
/-- ACK_AFTER_SILENCE. -/
def execAckAfterSilence (s : State) : Host.Outcome State Fault Refusal := .next (ackAfterSilence s)
/-- TIME_WORD. -/
def execTimeWord (s : State) : Host.Outcome State Fault Refusal := .next (timeWord s)
/-- WRITE_REFUSED_WINDOW_END. -/
def execWriteRefusedWindowEnd (param : BitVec 16) (s : State) : Host.Outcome State Fault Refusal := .next (writeRefusedWindowEnd param s)
/-- TAMPER_ACTIVATION. -/
def execTamperActivation (w : TamperPin) (s : State) : Host.Outcome State Fault Refusal := .next (tamperActivation w s)
/-- RIND_WATCHDOG. -/
def execRindWatchdog (s : State) : Host.Outcome State Fault Refusal := .next (rindWatchdog s)
/-- RIND_FW_LOAD_COMPLETE. -/
def execRindFwLoadComplete (s : State) : Host.Outcome State Fault Refusal := .next (rindFwLoadComplete s)

end Sys2Proof.Machine
end

