-- ==== Sys2Proof/Machine/Links.lean ====
section
/-! DEFINITION. The links (chapter 17): PCI Express and its rings, Ethernet and its failover, the timing port and its servo, I²C, the Cave's
errors; and the loops of R201. -/

namespace Sys2Proof.Machine

/-! ### Work that a link no longer carries (R372, R502, R512) -/

/-- Zones are shed until a link's booked payload fits it. -/
def State.trimLink (l : Link) : Nat → State → State
  | 0, s => s
  | f + 1, s =>
    if s.ladle.place.linkUsed l ≤ s.linkCap l then s
    else match (shedOrder s.settings (((s.ladle.place.links.filter fun x => x.2.1 == l).map (·.1)).eraseDups)).head? with
      | none => s
      | some z =>
        let s1 := s.shedZone z 15
        State.trimLink l f (s1.applyPlacement (s1.ladle.place.dropZone z))

/-! ### PCI Express (R502, R505, R521) -/

/-- A reset of the PCIe island (R525, R529): the command and stream rings, the MSI-X table and its enables; sessions on the rings close. -/
def State.pcieReset (s : State) : State :=
  let s1 := (List.finRange 4).foldl (fun u i => match u.sessions[i].isOpen, u.sessions[i].transport with
    | true, .ring _ => u.closeSession i
    | _, _ => u) s
  s1.modLinks fun l => { l.crossReset .pcie with
    cr := Vector.ofFn fun i => CmdRing.reset i.val, sr := Vector.ofFn fun i => StreamRing.reset i.val
    msixTable := Links.reset.msixTable, msixEnable := false, msixFuncMask := false, pba := 0 }

/-- The link comes up, goes down with a reset of the island, or retrains: EV232, EV233; a lower width or rate sets DEGRADED and rebooks every PCIe route. -/
def pcieLinkChange (l : PcieLink) (s : State) : State :=
  let old := s.links
  if l.width = old.pcieWidth ∧ l.rate = old.pcieRate then s
  else
    let was := old.pcieUp
    let up := decide (l.width ≠ 0)
    let lower := was && up && (decide (l.width < old.pcieWidth) || decide (l.rate < old.pcieRate))
    let full := decide (8 ≤ l.width) && decide (64 ≤ l.rate)
    let s1 := s.modLinks fun x => { x with
      pcieWidth := l.width, pcieRate := l.rate
      pcieDegraded := if lower then true else if full then false else x.pcieDegraded }
    if was && !up then s1.pcieReset.raise 232
    else if !was && up then (s1.modLinks fun x => x.release .pcie).raise 232
    else if was && up then State.trimLink .pcie s1.ladle.place.links.length (s1.raise 233)
    else s1

/-- PCIE_LINK_CHANGE (R502). -/
def execPcieLinkChange (l : PcieLink) (s : State) : Host.Outcome State Fault Refusal := .next (pcieLinkChange l s)

/-- AER_ERROR_LOGGED (R521). -/
def execAerErrorLogged (s : State) : Host.Outcome State Fault Refusal := .next (s.raise 234)

/-! ### Command rings (R503, R506) -/

/-- Replies that wait go into the slots that are free; a slot of the request ring is free once the last packet of its reply has gone. -/
def drainCr (n : Fin 4) : Nat → State → State
  | 0, s => s
  | f + 1, s =>
    match s.links.cr[n].waiting with
    | [] => s
    | b :: bs =>
      if s.links.cr[n].full then s
      else
        let r := (s.modCr n fun r => { r with waiting := bs }).ringPut n b
        let s1 := if r.2 then r.1.raise 245 else r.1
        drainCr n f (if rd b 2 1 / 8 % 2 = 0 then s1.freeSlot (.ring n) (BitVec.ofNat 8 (rd b 3 1)) (BitVec.ofNat 32 (rd b 8 4)) else s1)

/-- A write of CR_RTAILn frees slots. -/
def crRtailWrite (n : Fin 4) (v : Word) (s : State) : State :=
  let s1 := s.modCr n fun r => { r with rtail := wrRW 0x7FF r.rtail v }
  drainCr n s1.links.cr[n].waiting.length s1

/-- Whether a number is a power of two between two others. -/
def pow2In (lo hi x : Nat) : Bool := decide (lo ≤ x) && decide (x ≤ hi) && (List.range 17).any fun k => x == 2 ^ k

/-- An RWD field of a command ring pair, with CFG_IGN. -/
def crRwd (n : Fin 4) (get : CmdRing → Word) (put : CmdRing → Word → CmdRing) (ok : Nat → Bool) (len : Nat) (v : Word) (s : State) : State :=
  s.modCr n fun r =>
    let a := wrRWD (bit r.ctl 0) ok 0 len (get r, false) v
    { put r a.1 with stat := if a.2 then setBit r.stat 1 else r.stat }

/-- A write of a command ring register other than the doorbell, by its offset (R506). -/
def writeCr (n : Fin 4) (off : Nat) (v : Word) (s : State) : State :=
  match off with
  | 0x08 => crRwd n (·.rbaseLo) (fun r w => { r with rbaseLo := w }) (fun x => x % 65536 == 0) 32 v s
  | 0x0C => crRwd n (·.rbaseHi) (fun r w => { r with rbaseHi := w }) (fun _ => true) 32 v s
  | 0x10 => crRwd n (·.rsize) (fun r w => { r with rsize := w }) (pow2In 16 1024) 0x00B v s
  | 0x18 => crRtailWrite n v s
  | 0x1C => s.modCr n fun r => { r with stat := wrW1C 3 r.stat v }
  | 0x20 =>
    let s1 := s.modCr n fun r => { r with ctl := wrRW 0xFF01 r.ctl v }
    drainCr n s1.links.cr[n].waiting.length s1
  | _ => s

/-! ### Stream rings (R504 to R506) -/

/-- Descriptors of a stream ring. -/
def StreamRing.entries (r : StreamRing) : Nat := max 1 (fld r.size 0 17)

/-- Whether the next descriptor is the HD9624's. -/
def StreamRing.ready (r : StreamRing) : Bool := match r.descs with | d :: _ => d.own | [] => false

/-- A ring that is enabled and has no buffer starves: EV239 once for each starved period. -/
def State.checkStarved (s : State) (n : Fin 64) : State :=
  let r := s.links.sr[n]
  if r.ready || !(bit r.ctl 0) then s.modSr n fun r => { r with starved := none }
  else if r.starved.isSome then s
  else (s.modSr n fun r => { r with starved := some s.time.mono }).raise 239

/-- A write of SR_TAILn hands over the descriptors up to the new TAIL, as the host wrote them. -/
def srTailWrite (n : Fin 64) (v : Word) (ds : List SrDesc) (s : State) : State :=
  let r := s.links.sr[n]
  let k := (fld v 0 16 + r.entries - fld r.tail 0 16 % r.entries) % r.entries
  let unowned : SrDesc := { addr := 0, len := 0, own := false }
  let got := (List.range k).map fun i => ds.getD i unowned
  (s.modSr n fun r => { r with tail := wrRW 0xFFFF r.tail v, descs := r.descs ++ got }).checkStarved n

/-- SR_TAIL_WRITE (R504). -/
def execSrTailWrite (n : Fin 64) (v : Word) (ds : List SrDesc) (s : State) : Host.Outcome State Fault Refusal :=
  .next (s.written (srTailWrite n v ds))

/-- The record whose next unit a ring takes. -/
def State.nextForRing (s : State) (n : Nat) : Option TxItem :=
  let mine := s.streams.queue.filter fun it => it.links.contains .pcie && it.ring == n
  match mine.find? fun it => it.sent ≠ 0 with
  | some it => some it
  | none => (txOrder mine).head?

/-- A waiting record replaced by itself after a unit; one newly numbered goes behind those that have numbers. -/
def requeue (q : List TxItem) (old new : TxItem) : List TxItem :=
  if old.seq0.isSome then
    (if new.links.isEmpty then q.erase old else q.map fun x => if x == old then new else x)
  else
    let r := q.erase old
    if new.links.isEmpty then r else (r.filter fun x => x.seq0.isSome) ++ [new] ++ r.filter fun x => x.seq0.isNone

/-- Units go into a buffer of `room` bytes until the next would not fit, or none waits: the bytes used, and whether it is full. -/
def fillBuffer (n room : Nat) : Nat → Nat → State → State × Nat × Bool
  | 0, used, s => (s, used, false)
  | f + 1, used, s =>
    match s.nextForRing n with
    | none => (s, used, false)
    | some it =>
      let (s1, it1) := s.number it
      let bs := it1.unit it1.sent
      if room < used + bs.length then (s, used, true)
      else
        let last := decide (unitCount it1.record.bytes.length it1.cut ≤ it1.sent + 1)
        let it2 : TxItem := { it1 with
          sent := if last then 0 else it1.sent + 1, links := if last then it1.links.filter fun x => x != .pcie else it1.links }
        let s2 : State := { s1 with streams := { s1.streams with queue := requeue s1.streams.queue it it2 } }
        fillBuffer n room f (used + bs.length) (s2.emit (.unit .pcie bs))

/-- A bound on the units that wait. -/
def State.unitsWaiting (s : State) : Nat := (s.streams.queue.map fun it => it.record.bytes.length + 1).sum

/-- The ring's MSI-X request, unless MOD holds it back (R505). -/
def State.srRequest (s : State) (n : Fin 64) : State :=
  let r := s.links.sr[n]
  if r.lastMsix + fld r.ctl 16 8 * 10 * us ≤ s.time.mono then
    (s.modSr n fun r => { r with modHeld := false, lastMsix := s.time.mono }).msix (BitVec.ofNat 8 (fld r.ctl 8 8))
  else s.modSr n fun r => { r with modHeld := true }

/-- Withdrawn zones whose last records have left leave too (R373). -/
def State.endDrains (s : State) : State := s.zones.foldl (fun u r => u.endDrain r.id) s

/-- Waiting records leave on Ethernet, and drained zones with them. -/
def State.flushDrained (s : State) : State := s.flushEth.endDrains

/-- A stream buffer is done: full, or 1 ms after its first unit (R505). Nothing happens while the ring is disabled or starved, the link is down,
or no unit waits. -/
def streamBufferDone (n : Fin 64) (s : State) : State :=
  let r := s.links.sr[n]
  match r.descs, s.nextForRing n.val with
  | d :: ds, some it =>
    if !(bit r.ctl 0) || !d.own || !s.links.pcieUp then s
    else
      let (s1, used, full) := fillBuffer n.val d.len.toNat s.unitsWaiting 0 s
      let s2 := if full then s1 else s1.until (it.arrived + ms)
      let h := fld r.head 0 16
      let s3 := (s2.emit (.descriptor n.val h used (!full))).modSr n fun r => { r with
        descs := ds, head := setFld r.head 0 16 ((h + 1) % r.entries) }
      ((s3.srRequest n).checkStarved n).endDrains
  | _, _ => s

/-- STREAM_BUFFER_DONE (R505). -/
def execStreamBufferDone (n : Fin 64) (s : State) : Host.Outcome State Fault Refusal := .next (streamBufferDone n s)

/-- MOD has run out for a request held back (R505). -/
def streamRingModerationExpiry (n : Fin 64) (s : State) : State :=
  let r := s.links.sr[n]
  if r.modHeld then (s.until (r.lastMsix + fld r.ctl 16 8 * 10 * us)).srRequest n else s

/-- STREAM_RING_MODERATION_EXPIRY (R505). -/
def execStreamRingModerationExpiry (n : Fin 64) (s : State) : Host.Outcome State Fault Refusal := .next (streamRingModerationExpiry n s)

/-- A write of a stream ring register, by its offset (R506); through the window alone, TAIL hands over descriptors without OWN. -/
def writeSr (n : Fin 64) (off : Nat) (v : Word) (s : State) : State :=
  let rwd := fun (ok : Nat → Bool) (len : Nat) (old : Word) => (wrRWD (bit s.links.sr[n].ctl 0) ok 0 len (old, false) v).1
  match off with
  | 0x00 => s.modSr n fun r => { r with baseLo := rwd (fun x => x % 16 == 0) 32 r.baseLo }
  | 0x04 => s.modSr n fun r => { r with baseHi := rwd (fun _ => true) 32 r.baseHi }
  | 0x08 => s.modSr n fun r => { r with size := rwd (pow2In 64 65536) 17 r.size }
  | 0x10 => srTailWrite n v [] s
  | 0x14 => (s.modSr n fun r => { r with ctl := wrRW 0xFFFF01 r.ctl v }).checkStarved n
  | _ => s

/-! ### Ethernet: service and failover (R511, R512) -/

/-- Since when a port has been up, unpaused and resolved. -/
def Eth.regood (e : Eth) (t : Time) : Eth :=
  { e with goodSince := if bit e.link 27 && bit e.stat 0 && !(bit e.stat 2) && e.resolvedNow then some (e.goodSince.getD t) else none }

/-- One Ethernet port changed, its good time followed. -/
def State.modEthG (s : State) (n : Fin 2) (f : Eth → Eth) : State := s.modEth n fun e => (f e).regood s.time.mono

/-- Streams move from one Ethernet port to another: bookings of the listed zones, and their records that wait. -/
def State.moveStreams (s : State) (a b : Fin 2) (zones : Nat → Bool) (device : Bool) : State :=
  let pl := s.ladle.place
  let links := (pl.links.filter fun x => !(x.2.1 == .eth a && zones x.1 && pl.links.any fun y => y.1 == x.1 && y.2.1 == .eth b)).map fun x =>
    if x.2.1 == .eth a && zones x.1 then (x.1, Link.eth b, x.2.2) else x
  let items := s.streams.queue.map fun it =>
    if (match it.zone with | some z => zones z | none => device) then
      { it with links := (it.links.map fun l => if l == .eth a then Link.eth b else l).eraseDups }
    else it
  ({ s with streams := { s.streams with queue := items } } : State).applyPlacement { pl with links := links }

/-- The streams of a port that is not in service move to the other, when that one is (R512); zones that do not fit it are shed. -/
def State.failOver (s : State) (n : Fin 2) : State :=
  if s.links.eth[1 - n].inService then
    let zs := (s.ladle.place.links.filter fun x => x.2.1 == .eth n).map (·.1)
    let s1 := s.modEth n fun e => { e with moved := (e.moved ++ zs).eraseDups }
    let s2 := s1.moveStreams n (1 - n) (fun _ => true) true
    (State.trimLink (.eth (1 - n)) s2.ladle.place.links.length s2).flushDrained
  else s

/-- A port fails for routing: FAILED, EV237, failover. -/
def State.ethFail (s : State) (n : Fin 2) : State :=
  if bit s.links.eth[n].stat 1 then s
  else ((s.modEth n fun e => { e with stat := setBit e.stat 1 }).failOver n).raise 237

/-- UP changes: EV235 for port 0, EV236 for port 1 (R511). -/
def ethPortUpChange (n : Fin 2) (up : Bool) (s : State) : State :=
  if bit s.links.eth[n].stat 0 = up then s
  else
    let s1 := s.modEthG n fun e => { e with stat := putBit e.stat 0 up, downSince := if up then e.downSince else s.time.mono }
    let s2 := if up then s1.modLinks fun l => l.release (.eth n) else s1
    (s2.raiseN (235 + n.val)).flushDrained

/-- ETH_PORT_UP_CHANGE (R511). -/
def execEthPortUpChange (n : Fin 2) (up : Bool) (s : State) : Host.Outcome State Fault Refusal := .next (ethPortUpChange n up s)

/-- A port that has not been up for 1 ms, or whose destination has not resolved for 1 s, fails for routing. -/
def ethPortFailed (n : Fin 2) (s : State) : State :=
  let e := s.links.eth[n]
  if !e.inService then s
  else if !(bit e.stat 0) then (s.until (e.downSince + ms)).ethFail n
  else if !e.resolvedNow then (s.until (e.unresSince + sec)).ethFail n
  else s

/-- ETH_PORT_FAILED (R512). -/
def execEthPortFailed (n : Fin 2) (s : State) : Host.Outcome State Fault Refusal := .next (ethPortFailed n s)

/-- After 10 s up, unpaused and resolved a port is in service again: its streams move back, EV237; streams of a port that is still failed move
here. -/
def ethPortReturn (n : Fin 2) (s : State) : State :=
  let e := s.links.eth[n]
  match e.goodSince with
  | none => s
  | some t =>
    if !(bit e.stat 1) then s
    else
      let s1 := (s.until (t + 10 * sec)).modEth n fun e => { e with stat := clrBit e.stat 1, moved := [] }
      let s2 := s1.moveStreams (1 - n) n (fun z => e.moved.contains z) (n == 0)
      let s3 := if s2.links.eth[1 - n].inService then s2 else s2.failOver (1 - n)
      s3.flushDrained.raise 237

/-- ETH_PORT_RETURN (R512). -/
def execEthPortReturn (n : Fin 2) (s : State) : Host.Outcome State Fault Refusal := .next (ethPortReturn n s)

/-! ### PAUSE (R377, R507, R511) -/

/-- The pause is over: transmission resumes. -/
def State.unpause (s : State) (n : Fin 2) : State :=
  (s.modEthG n fun e => { e with stat := clrBit e.stat 2, pauseFail := false, pauseQuanta := 0 }).flushDrained

/-- A PAUSE frame: holds transmission for its quanta of 512 bit times; zero quanta release it. -/
def pauseReceived (n : Fin 2) (quanta : BitVec 16) (s : State) : State :=
  let e := s.links.eth[n]
  if !(bit e.stat 0) || !(bit e.link 27) then s
  else if quanta = 0 then s.unpause n
  else s.modEthG n fun e => { e with
    stat := setBit e.stat 2, pausedSince := if bit e.stat 2 then e.pausedSince else s.time.mono, pauseAt := s.time.mono, pauseQuanta := quanta.toNat }

/-- PAUSE_RECEIVED (R507). -/
def execPauseReceived (n : Fin 2) (quanta : BitVec 16) (s : State) : Host.Outcome State Fault Refusal := .next (pauseReceived n quanta s)

/-- The pause time of the last frame runs out: 5.12 ns per quantum at 100 Gb/s. -/
def pauseQuantaExpiry (n : Fin 2) (s : State) : State :=
  let e := s.links.eth[n]
  if bit e.stat 2 then (s.until (e.pauseAt + e.pauseQuanta * 33554432 / 100)).unpause n else s

/-- PAUSE_QUANTA_EXPIRY (R507). -/
def execPauseQuantaExpiry (n : Fin 2) (s : State) : Host.Outcome State Fault Refusal := .next (pauseQuantaExpiry n s)

/-- A hold exceeds PAUSE_LIM: EV238, LADLE_STAT.PAUSE_LIM, and the port fails for routing. -/
def pauseLimExceeded (n : Fin 2) (s : State) : State :=
  let e := s.links.eth[n]
  if !(bit e.stat 2) || e.pauseFail then s
  else
    let s1 := (s.until (e.pausedSince + s.settings.dev 0x0211 * ms)).modEth n fun e => { e with pauseFail := true }
    ((s1.modLadle fun l => { l with stat := setBit l.stat 6 }).raise 238).ethFail n

/-- PAUSE_LIM_EXCEEDED (R377). -/
def execPauseLimExceeded (n : Fin 2) (s : State) : Host.Outcome State Fault Refusal := .next (pauseLimExceeded n s)

/-! ### Neighbours, echo, discarded datagrams (R508, R509) -/

/-- An address register read whole. -/
def addr128 (v : Vector Word 4) : BitVec 128 := v[3] ++ v[2] ++ v[1] ++ v[0]
/-- Whether an address is an IPv4 address, ::ffff:a.b.c.d. -/
def isV4 (a : BitVec 128) : Bool := a.extractLsb' 32 96 == 0xFFFF#96
/-- The address that must resolve: the gateway, or the destination when the gateway is 0. -/
def Eth.nextHop (e : Eth) : BitVec 128 := if addr128 e.gw = 0 then addr128 e.dst else addr128 e.gw

/-- A port learns an address. -/
def Eth.learn (e : Eth) (a : BitVec 128) (mac : BitVec 48) : Eth :=
  { e with neighbours := (e.neighbours.filter fun x => x.1 != a) ++ [(a, mac)], resolved := if a = e.nextHop then some mac else e.resolved }

/-- An ARP or Neighbour Discovery message: a request for the port's own address is answered, a reply resolves its sender; both teach the sender's
address. -/
def neighbourResolution (n : Fin 2) (m : NeighbourMsg) (s : State) : State :=
  let e := s.links.eth[n]
  if !(bit e.stat 0) || !(bit e.link 27) then s
  else match m with
    | .request target sender mac =>
      if target = addr128 e.ip then ((s.modEthG n fun e => e.learn sender mac).emit (.neighbour n.val target)).flushDrained else s
    | .reply sender mac => (s.modEthG n fun e => e.learn sender mac).flushDrained

/-- NEIGHBOUR_RESOLUTION (R508). -/
def execNeighbourResolution (n : Fin 2) (m : NeighbourMsg) (s : State) : Host.Outcome State Fault Refusal := .next (neighbourResolution n m s)

/-- An echo request to the port's own address is answered. -/
def icmpEcho (n : Fin 2) (v6 : Bool) (src : BitVec 128) (payload : List Byte) (s : State) : State :=
  let e := s.links.eth[n]
  if bit e.stat 0 && bit e.link 27 && v6 != isV4 (addr128 e.ip) then s.emit (.echo n.val src payload) else s

/-- ICMP_ECHO (R508). -/
def execIcmpEcho (n : Fin 2) (v6 : Bool) (src : BitVec 128) (payload : List Byte) (s : State) : Host.Outcome State Fault Refusal :=
  .next (icmpEcho n v6 src payload s)

/-- A datagram is discarded and counted; the count saturates. -/
def udpDatagramDiscard (n : Fin 2) (s : State) : State :=
  if bit s.links.eth[n].stat 0 && bit s.links.eth[n].link 27 then
    s.modEth n fun e => { e with rxdrop := if e.rxdrop = 0xFFFFFFFF then e.rxdrop else e.rxdrop + 1 }
  else s

/-- UDP_DATAGRAM_DISCARD (R509). -/
def execUdpDatagramDiscard (n : Fin 2) (s : State) : Host.Outcome State Fault Refusal := .next (udpDatagramDiscard n s)

/-- A word of a register of four. -/
def set4 (v : Vector Word 4) (i : Nat) (w : Word) : Vector Word 4 := match ix 4 i with | some k => v.set k w | none => v

/-- A write of an Ethernet register, by its offset (R510). -/
def writeEth (n : Fin 2) (off : Nat) (v : Word) (s : State) : State :=
  let e := s.links.eth[n]
  let en := bit e.link 27
  let ign := fun (b : Bool) (e : Eth) => if b then { e with stat := setBit e.stat 3 } else e
  let word := fun (len : Nat) (old : Word) (put : Eth → Word → Eth) =>
    let a := wrRWD en (fun _ => true) 0 len (old, false) v
    s.modEth n fun e => ign a.2 (put e a.1)
  let quad := fun (old : Vector Word 4) (i : Nat) (put : Eth → Vector Word 4 → Eth) =>
    word 32 (old.toList.getD i 0) fun e w => put e (set4 old i w)
  let lost := fun (e : Eth) => if en then e else { e with resolved := none, unresSince := s.time.mono }
  match off with
  | 0x00 => word 32 e.macLo fun e w => { e with macLo := w }
  | 0x04 => word 16 e.macHi fun e w => { e with macHi := w }
  | 0x10 => quad e.ip 0 fun e q => { e with ip := q }
  | 0x14 => quad e.ip 1 fun e q => { e with ip := q }
  | 0x18 => quad e.ip 2 fun e q => { e with ip := q }
  | 0x1C => quad e.ip 3 fun e q => { e with ip := q }
  | 0x20 => quad e.dst 0 fun e q => lost { e with dst := q }
  | 0x24 => quad e.dst 1 fun e q => lost { e with dst := q }
  | 0x28 => quad e.dst 2 fun e q => lost { e with dst := q }
  | 0x2C => quad e.dst 3 fun e q => lost { e with dst := q }
  | 0x30 => quad e.gw 0 fun e q => lost { e with gw := q }
  | 0x34 => quad e.gw 1 fun e q => lost { e with gw := q }
  | 0x38 => quad e.gw 2 fun e q => lost { e with gw := q }
  | 0x3C => quad e.gw 3 fun e q => lost { e with gw := q }
  | 0x40 =>
    let a := wrRWD en (fun _ => true) 0 16 (e.ports, false) v
    let b := wrRWD en (fun _ => true) 16 16 a v
    s.modEth n fun e => ign b.2 { e with ports := b.1 }
  | 0x44 =>
    let a := wrRWD en (fun x => 1500 ≤ x && x ≤ 9000) 0 14 (e.link, false) v
    let b := wrRWD en (fun _ => true) 14 12 a v
    let c := wrRWD en (fun _ => true) 26 1 b v
    let s1 := s.modEthG n fun e => ign c.2 { e with
      link := wrRW 0x08000000 c.1 v, unresSince := if !en && bit v 27 then s.time.mono else e.unresSince }
    if en && !(bit v 27) then s1.ethFail n else s1
  | 0x48 => s.modEth n fun e => { e with stat := wrW1C 0x8 e.stat v }
  | _ => s

/-! ### The timing port and the servo (R513 to R516) -/

/-- The timing port's link: EV193; without it the time receiver follows no transmitter, EV194. -/
def timingPortLinkChange (up : Bool) (s : State) : State :=
  if s.links.tportUp = up then s
  else
    let s0 := if up then s.modClk fun c => { c with recovSince := s.time.mono } else s
    let s1 := (s0.modLinks fun l => { (if up then l.release .timing else l) with tportUp := up }).raise 193
    if up then s1 else s1.unfollow

/-- TIMING_PORT_LINK_CHANGE (R513). -/
def execTimingPortLinkChange (up : Bool) (s : State) : Host.Outcome State Fault Refusal := .next (timingPortLinkChange up s)

/-- A measured offset of the device clock, in units of 2^-16 ns (R516): stepped beyond STEP_THR with EV196, else steered at a rate that the spec does
not state (a free value within ±500 ppm); lock is 60 s within 100 ns, EV195; EV199 beyond half of STEP_THR while locked. -/
def State.servo (s : State) (off : Int) : State :=
  let thr := s.settings.dev 0x1B06 * 65536
  let s1 : State := { s with time := { s.time with offset := off } }
  let s2 := if s.time.locked && decide (thr < 2 * off.natAbs) then s1.raise 199 else s1
  let s3 := if thr < off.natAbs then
      ({ s2 with time := { s2.time with dev := ((s2.time.dev : Int) - off).toNat, devSet := true } } : State).raise 196
    else
      let (f, u) := s2.fresh
      ({ u with time := { u.time with rate := ((f.toNat % 1000000000001 : Nat) : Int) - 500000000000, devSet := true } } : State)
  let good := decide (off.natAbs ≤ 100 * ns)
  let since := if good then some (s.time.goodSince.getD s.time.mono) else none
  let locked := good && (s.time.locked || (match since with | some t => decide (t + 60 * sec ≤ s.time.mono) | none => false))
  let s4 : State := { s3 with time := { s3.time with goodSince := since, locked := locked } }
  if locked != s.time.locked then s4.raise 195 else s4

/-- The first difference of two rankings decides: whether `x` comes before `y`. -/
def ranksBefore : List Nat → List Nat → Bool
  | a :: as, b :: bs => if a = b then ranksBefore as bs else decide (a < b)
  | _, _ => false

/-- Whether the default best timeTransmitter clock algorithm prefers one announce message to another: by the quality of the grandmaster, or, where both name the
same one, by the steps to it, and then by the sender (R513; the order of IEEE 1588-2019, log entry 148, PRESUMED). -/
def announceBetter (x y : Announce) : Bool :=
  let rank := fun (a : Announce) => [a.priority1.toNat, a.clockClass.toNat, a.accuracy.toNat, a.variance.toNat, a.priority2.toNat, a.grandmaster.toNat]
  let near := fun (a : Announce) => [a.steps.toNat, a.sender.toNat]
  if x.grandmaster = y.grandmaster then ranksBefore (near x) (near y) else ranksBefore (rank x) (rank y)

/-- The best of the transmitters heard. -/
def bestMaster (ms : List Announce) : Option Announce :=
  ms.foldl (fun b a => match b with | some x => if announceBetter a x then some a else b | none => some a) none

/-- A PTP message of the servo's domain, under SRC = PTP (R513, R516). An announce message takes part in the choice of the transmitter: EV197 when the choice
changes, and EV194 when the receiver begins to follow one. An exchange with the transmitter that is followed measures the offset, half the difference of
the two one-way times, less the entered asymmetry. -/
def ptpMessage (m : PtpMsg) (s : State) : State :=
  if s.settings.dev 0x1B01 ≠ 1 || !s.links.tportUp then s
  else match m with
    | .announce dom a =>
      if dom ≠ s.settings.dev 0x1B02 then s
      else
        let heard := (s.time.masters.filter fun x => x.sender != a.sender) ++ [a]
        let tx := (bestMaster heard).map (·.sender)
        let s1 : State := { s with time := { s.time with masters := heard, transmitter := tx, receiving := true } }
        let s2 := if s.time.transmitter = tx then s1 else s1.raise 197
        if s.time.receiving then s2 else s2.raise 194
    | .exchange dom from' t1 t2 t3 t4 =>
      if dom ≠ s.settings.dev 0x1B02 || s.time.transmitter ≠ some from' then s
      else s.servo (Int.fdiv ((t2 - t1) - (t4 - t3)) 2 - s.settings.getI .device 0 0 0x1B05 0 0)

/-- PTP_MESSAGE (R514). -/
def execPtpMessage (m : PtpMsg) (s : State) : Host.Outcome State Fault Refusal := .next (ptpMessage m s)

/-- Announce or sync messages time out: EV198; the receiver follows no transmitter, EV194. -/
def announceSyncTimeout (s : State) : State :=
  if s.settings.dev 0x1B01 ≠ 1 || !s.time.receiving then s
  else
    let s1 := s.raise 198
    s1.unfollow

/-- ANNOUNCE_SYNC_TIMEOUT (R516). -/
def execAnnounceSyncTimeout (s : State) : Host.Outcome State Fault Refusal := .next (announceSyncTimeout s)

/-- A PPS_IN edge at elapsed time `t`, the number of the REF10 edge nearest to it and how far it lies from that edge (R221, R222, R516). A pulse within 20 ns of
an edge is good, and continues the run when that edge is 10,000,000 periods after the last. Its distance from the nearest whole second of the
device clock decides whether that is near enough for EXTERNAL; while PPS_IN is qualified the edge begins a second, numbered with the device-clock
second nearest to it. Under SRC = PPS the pulse is the servo's measurement. -/
def ppsPulse (t : Time) (edge : Nat) (off : Int) (s0 : State) : State :=
  let s := s0.until t
  let r := s.time.dev % sec
  let d : Int := if 2 * r < sec then (r : Int) else (r : Int) - (sec : Int)
  let near := decide (d.natAbs ≤ 100 * ms)
  let second := (s.time.dev + sec / 2) / sec
  let good := decide (off.natAbs ≤ 20 * ns)
  let onTime := match s.tiu.ppsLast with | some l => l.1 + 10000000 == edge | none => false
  let s1 := if bit s.tiu.stat 2 then s.modTiu fun u => { u with
      ppsNear := near, ppsAt := s.time.mono, ppsRun := if !good then 0 else if onTime then u.ppsRun + 1 else 1
      ppsLast := if good then some (edge, second) else none
      secondEdge := if good && onTime && bit u.stat 3 then some (edge, second) else u.secondEdge }
    else s.modTiu fun u => { u with ppsRun := 0, ppsLast := none }
  let s2 := if bit s.tiu.stat 2 && near != s.tiu.ppsNear then s1.followInputs false else s1
  if s.settings.dev 0x1B01 = 2 then s2.servo d else s2

/-- PPS_PULSE (R516). -/
def execPpsPulse (t : Time) (edge : Nat) (off : Int) (s : State) : Host.Outcome State Fault Refusal := .next (ppsPulse t edge off s)

/-! ### I²C and SPI replies (R517, R518) -/

/-- A write-then-read transaction of up to 32 bytes each way; a missing acknowledgement or a clock held for more than 25 ms sets the error bit and raises
EV247. With its clock gated the controller runs none. -/
def i2cTransaction (x : I2cXfer) (s : State) : State :=
  if s.boot.inReset || !(bit s.clk.ckg0 8) then s
  else if x.failed || 32 < x.wr.length || 32 < x.rd.length then (s.modLinks fun l => { l with i2cError := true }).raise 247
  else s.emit (.i2c x.addr x.rd)

/-- I2C_TRANSACTION (R518). -/
def execI2cTransaction (x : I2cXfer) (s : State) : Host.Outcome State Fault Refusal := .next (i2cTransaction x s)

/-- SPI command 0x41: the next reply or event packet, or 16 zero bytes. -/
def spiReplyFetch (s : State) : State :=
  if s.boot.inReset then s
  else match s.links.spiWaiting with
    | [] => s.emit (.spiPacket (zeros 16))
    | b :: bs => (s.modLinks fun l => { l with spiWaiting := bs }).emit (.spiPacket b)

/-- SPI_REPLY_FETCH (R517). -/
def execSpiReplyFetch (s : State) : Host.Outcome State Fault Refusal := .next (spiReplyFetch s)

/-- SPI_ATTN: low while a reply or event packet waits (R517). -/
def State.spiAttnLow (s : State) : Bool := !s.links.spiWaiting.isEmpty

/-! ### Errors of the Cave (R371, R424, R521) -/

/-- Staged blocks of a zone that a lost region held: one CAVE_LOST record. -/
def State.loseStaging (s : State) (z : Nat) : State :=
  let mine := fun (it : TxItem) => it.zone == some z && !it.urgent && it.seq0.isNone && !it.inPool
  let gone := s.streams.queue.filter mine
  if gone.isEmpty then s
  else
    let s1 : State := { s with streams := { s.streams with queue := s.streams.queue.filter fun it => !(mine it) } }
    let w := gone.foldl (fun (w : Whey) it =>
      let b := it.lost
      let q := b.seq.getD 0xFFFFFFFF
      { w with
        products := w.products ||| productBit b.product, tFirst := if w.count = 0 then b.tFirst else min w.tFirst b.tFirst
        tLast := max w.tLast b.tLast, count := w.count + 1, lostBytes := w.lostBytes + b.size
        seqFirst := if w.seqFirst = 0xFFFFFFFF then q else w.seqFirst, seqLast := if b.seq.isSome then q else w.seqLast }) (Whey.blank 7 z 0)
    s1.wheyZone z w

/-- The HIST_GAP record of a history that restarts empty: its bytes and its span. -/
def gapWhey (z p bytes : Nat) (t0 t1 : Time) : Whey :=
  { Whey.blank 8 z p with tFirst := t0, tLast := t1, count := bytes, lostBytes := bytes }

/-- An uncorrectable error loses its region (R371): EV243. -/
def caveError (r : CaveRegion) (s0 : State) : State :=
  let s := s0.raise 243
  match r with
  | .staging z => s.loseStaging z.val
  | .vatWindow n =>
    let e := s.engines[n]
    let s1 := s.modEng n fun e => { e with win := Vector.replicate 4 [] }
    match e.zone, e.current with
    | some z, some b => s1.wheyZone z { Whey.blank 7 z 0 with
        products := 0x10, tFirst := s.devOf b.arrived, tLast := s.devOf b.arrived, count := 1, lostBytes := b.bytes.length }
    | _, _ => s1
  | .pressWindow _ => s
  | .rawHistory p =>
    match s.look.rawSince[p] with
    | none => s
    | some t =>
      let t0 := max t (s.time.dev - s.settings.port p.val 0x0202 * ms)
      let bytes := (s.time.dev - t0) * 6 * fsHz s.settings / sec
      let s1 := s.modLook fun l => { l with rawSince := l.rawSince.set p (some s.time.dev), histGap := l.histGap ++ [(p.val, s.time.dev)] }
      (zonesOf s.settings p.val).foldl (fun u z => u.wheyZone z (gapWhey z p.val bytes t0 s.time.dev)) s1
  | .curdHistory z =>
    match s.zoneRt z.val with
    | none => s
    | some rt =>
      let bytes := (rt.curdRows.map fun x => 16 + 2 * x.2.2.2.length).sum
      let t0 := (rt.curdRows.map (·.1)).headD s.time.dev
      let p := zonePort s.settings z.val
      let s1 := (s.modZone z.val fun r => { r with curdRows := [], curdSince := some s.time.dev }).modLook fun l => { l with
        histGap := l.histGap ++ [(p, s.time.dev)] }
      s1.wheyZone z.val (gapWhey z.val p bytes t0 s.time.dev)
  | .hostArea => { s with hostArea := [] }
  | .free => s

/-- CAVE_ERROR (R521). -/
def execCaveError (r : CaveRegion) (s : State) : Host.Outcome State Fault Refusal := .next (caveError r s)

/-- A corrected error: EV242 when more than 1,000 have come within one second; EV244 when a spare row or channel is brought into service. -/
def caveCorrectedError (spareUsed : Bool) (s : State) : State :=
  let recent := (s.links.corrected.filter fun t => decide (s.time.mono < t + sec)) ++ [s.time.mono]
  let s1 := s.modLinks fun l => { l with corrected := recent }
  let s2 := if recent.length = 1001 then s1.raise 242 else s1
  if spareUsed then s2.raise 244 else s2

/-- CAVE_CORRECTED_ERROR (R521). -/
def execCaveCorrectedError (spareUsed : Bool) (s : State) : Host.Outcome State Fault Refusal := .next (caveCorrectedError spareUsed s)

/-! ### The other loops (R201) -/

/-- Lock bit of a loop in CLK_STAT (R204). -/
def loopBit : Loop → Nat | .memory => 7 | .ethernet => 8 | .auxiliary => 9

/-- Loss of lock: OTHER_LOST and EV183. Memory: the stacks wait in self-refresh. Ethernet: both ports and the timing port go link-down and RECOVERED is
lost. Auxiliary: AXC1's conversion is invalid and all groups shut down. -/
def otherLoopLockLost (l : Loop) (s : State) : State :=
  if !(bit s.clk.stat (loopBit l)) then s
  else
    let s1 := (s.modClk fun c => { c with stat := setBit (clrBit c.stat (loopBit l)) 12 }).raise 183
    match l with
    | .memory => s1.modClk fun c => { c with memLostAt := s.time.mono }
    | .ethernet => ckRefSourceLost .recovered (timingPortLinkChange false (ethPortUpChange 1 false (ethPortUpChange 0 false s1)))
    | .auxiliary => (s1.modAxc1 fun a => { a with invalid := a.invalid || a.running.isSome }).auxLost

/-- OTHER_LOOP_LOCK_LOST (R201). -/
def execOtherLoopLockLost (l : Loop) (s : State) : Host.Outcome State Fault Refusal := .next (otherLoopLockLost l s)

/-- Lock regained: EV183; the auxiliary loop's cause of R571 ends. -/
def otherLoopLockRegained (l : Loop) (s : State) : State :=
  if bit s.clk.stat (loopBit l) then s
  else
    let s1 := (s.modClk fun c => { c with stat := setBit c.stat (loopBit l) }).raise 183
    match l with
    | .auxiliary => (s1.modSdc fun c => { c with causeAux := false }).causeCleared
    | .memory => (s1.modLinks fun l => l.release .memory).modLadle fun l => { l with memFault := false }
    | _ => s1

/-- OTHER_LOOP_LOCK_REGAINED (R201). -/
def execOtherLoopLockRegained (l : Loop) (s : State) : Host.Outcome State Fault Refusal := .next (otherLoopLockRegained l s)

/-- Memory lock has not come back within 1 ms: EV183, and a hardware fault reported to the Ladle. -/
def memoryLockTimeout (s : State) : State :=
  if bit s.clk.stat 7 then s else ((s.until (s.clk.memLostAt + ms)).modLadle fun l => { l with memFault := true }).raise 183

/-- MEMORY_LOCK_TIMEOUT (R201). -/
def execMemoryLockTimeout (s : State) : Host.Outcome State Fault Refusal := .next (memoryLockTimeout s)

end Sys2Proof.Machine
end

