-- ==== Sys2Proof/Machine/Commands.lean ====
section
/-! DEFINITION. The Birligrim commands (R462 to R473): what each does once its items stand, the commands that wait in a session (R450), and the
rows after which a waiting command goes on: commit boundaries, the mailbox, calibration steps. -/

namespace Sys2Proof.Machine

/-- A RECORD item (R445). -/
def record (bs : List Byte) : List Byte := item 0x0308 bs

/-! ### Group 0x01: sessions (R462) -/

/-- SESSION_CLOSE: answered, then the session closes (R448). -/
def runSessionClose : Run := fun i k _ s => .sent ((s.complete i 0x0102 k 0 k.txn.toNat false []).closeSession i)

/-- SESSION_PING. -/
def runSessionPing : Run := fun _ _ _ s => .ok [item 0x030A (stampB s.time.dev)] s

/-- EVENT_SUBSCRIBE: the session's EVENT_MASK (R475). -/
def runEventSubscribe : Run := fun i _ p s =>
  let bs := ((p.val? 0x0222).getD []).map fun v => BitVec.ofInt 8 v
  .ok [] (s.modSess i fun x => { x with eventMask := BitVec.ofNat 256 (unle bs) })

/-- IDENTIFY. -/
def runIdentify : Run := fun _ _ _ s => .ok [deviceItem s] s

/-! ### Group 0x02: transactions (R455, R463) -/

/-- TXN_BEGIN: identifiers run from 1 upward for each session, modulo 65,535. -/
def runTxnBegin : Run := fun i _ p s =>
  let x := s.sessions[i]
  if x.txn.isSome then .refuse 0x0505 s
  else .ok [item 0x0303 (le 2 x.nextTxn)] (s.modSess i fun y => { y with
    txn := some { id := x.nextTxn, timeout := p.getD 0x0220 10, lastRx := s.time.mono, staged := [] }
    nextTxn := x.nextTxn % 65535 + 1 })

/-- The open transaction that a command names, or why there is none (R452). -/
def State.txnOf (s : State) (i : SessIx) (k : Packet) : Except Status Txn :=
  let none' : Status := if s.sessions[i].timedOut.contains k.txn.toNat then 0x0502 else 0x0501
  match s.sessions[i].txn with
  | some t => if t.id = k.txn.toNat then .ok t else .error none'
  | none => .error none'

/-- TXN_ROLLBACK. -/
def runTxnRollback : Run := fun i k _ s =>
  match s.txnOf i k with
  | .error e => .refuse e s
  | .ok _ => .ok [] (s.modSess i fun x => { x with txn := none })

/-- TXN_QUERY: one RECORD per staged command. -/
def runTxnQuery : Run := fun i k _ s =>
  match s.txnOf i k with
  | .error e => .refuse e s
  | .ok t => .ok (t.staged.map fun c => record (le 4 c.seq.toNat ++ le 2 c.opcode.toNat ++ zeros 2)) s

/-! ### Group 0x03: ports and emitters (R464) -/

/-- REARM (R60): every named group, or none. -/
def runRearm : Run := fun _ _ p s =>
  let gs := p.named 0x0105
  if gs.all s.rearmOk then .ok [] (gs.foldl (fun u g => u.rearm g) s) else .refuse 0x0113 s

/-- END_REBASE (R132): E_REF becomes END_BIN; every named port, or none. -/
def runEndRebase : Run := fun _ _ p s =>
  let ps := p.named 0x0101
  if ps.all fun n => bit (s.portN n).endR 20 then
    .ok [] (ps.foldl (fun u n => u.onPort n fun q => { q with refR := setBit (setFld q.refR 0 20 (fld q.endR 0 20)) 20 }) s)
  else .refuse 0x0122 s

/-- PORT_QUERY: the port's items in force behind its selector, and PORT_STATp. -/
def runPortQuery : Run := fun _ _ p s =>
  .ok ((p.named 0x0101).flatMap fun n => [item 0x0101 (le 1 n)] ++ instItems s.settings .port none n ++ [record (leW (s.portN n).stat)]) s

/-- EMITTER_QUERY: the emitter's items in force behind its selector, and the last status word of its driver. -/
def runEmitterQuery : Run := fun _ _ p s =>
  let es := p.named 0x0104
  if es.all (emDefined s.settings) then
    .ok (es.flatMap fun e => [item 0x0104 (le 1 e)] ++ instItems s.settings .emitter none e ++
      [record (le 8 (s.sdc.status.getD (e / 4) 0).toNat)]) s
  else .refuse 0x0225 s

/-! ### Group 0x04: placement (R465) -/

/-- PLACE_QUERY (R359): the named zones, or every zone, those that still drain among them. -/
def runPlaceQuery : Run := fun _ _ p s =>
  let known := sortNat (s.settings.zones ++ ((s.zones.map (·.id)).filter fun z => !(s.settings.zones.contains z)))
  let zs := p.named 0x0102
  if zs.all known.contains then .ok ((if zs.isEmpty then known else zs).map fun z => record (placeRecord s z)) s else .refuse 0x0225 s

/-- Begins the migrations of a re-placement: a unit's work goes straight to its new unit, or, where units trade places, one of them by way of a
free unit. Without a free unit they stay. -/
def State.moveAll : Nat → List (UnitName × UnitName) → State → State
  | 0, _, s => s
  | n + 1, ms, s =>
    match ms.find? fun m => !(ms.any fun x => x.1 == m.2) with
    | some m => State.moveAll n (ms.erase m) (s.migrate m.1 m.2 false false 0)
    | none => match ms with
      | [] => s
      | m :: rest =>
        match (kindUnits m.1).find? fun u => s.unitOk u && !(s.ladle.place.holds u) && !(s.pinned u) && !(ms.any fun x => x.2 == u) &&
            !(s.ladle.migrations.any fun y => y.target == u || y.source == u) with
        | some t => State.moveAll n (rest ++ [(t, m.2)]) (s.migrate m.1 t false false 0)
        | none => s

/-- What a re-placement moves: pipelines and engines, by unit. -/
def unitMoves (old new : Placement) : List (UnitName × UnitName) :=
  (old.pipes.filterMap fun x => match new.pipe? x.1, ix 26 x.2 with
    | some b, some a => if a.val = b then none else (ix 26 b).map fun b' => (UnitName.pipeline a, UnitName.pipeline b')
    | _, _ => none) ++
  old.insts.filterMap fun x => match new.insts.find? fun y => y.zone == x.zone && y.index == x.index, ix 32 x.engine with
    | some y, some a => if a.val = y.engine then none else (ix 32 y.engine).map fun b => (UnitName.engine a, UnitName.engine b)
    | _, _ => none

/-- REBALANCE (R358): all unpinned work is placed as if new; each item that changes place migrates. Press shares change lane at their next
block, Cave regions, links and rings at once (R368). Work that would not all fit anew stays. -/
def runRebalance : Run := fun _ _ _ s =>
  match placeAll s s.settings s.settings true with
  | .error _ => .ok [] s
  | .ok new =>
    let old := s.ladle.place
    let ms := (unitMoves old new).filter fun m => !(s.ladle.migrations.any fun y => y.source == m.1 || y.target == m.2)
    let now : Placement := { old with press := new.press, cave := new.cave, links := new.links, rings := new.rings }
    let s1 := if now = old then s else (s.applyPlacement now).raise 251
    .ok [] (State.moveAll (2 * ms.length) ms s1)

/-- CAPACITY (R374): VAT_RESERVE, 0 to 4. Reserve engines come into service at once, lowest first; engines leave service highest first, each
instance migrating before. -/
def runCapacity : Run := fun _ _ p s =>
  let want := p.getD 0x0218 0
  let all := List.finRange 32
  let reserve := all.filter fun n => fld s.engines[n].stat 0 3 == 0 && !(s.boot.retired.engines.getLsbD n.val)
  let service := all.filter fun n => s.engOk n.val
  if want ≤ reserve.length then
    .ok [] ((reserve.take (reserve.length - want)).foldl (fun u n => u.modEng n fun e => e.setState 1) s).refreshLadle
  else
    let out := service.drop (service.length - (want - reserve.length))
    let busy := out.filter fun n => s.ladle.place.holds (.engine n)
    let room := service.filter fun n => !(out.contains n) && !(s.ladle.place.holds (.engine n)) && !(s.pinned (.engine n)) &&
      !(s.ladle.migrations.any fun m => m.target == .engine n)
    if room.length < busy.length ∨ service.length < want - reserve.length then .refuse 0x0302 s
    else
      let s1 := (busy.zip room).foldl (fun u ab => (u.losePins (.engine ab.1)).migrate (.engine ab.1) (.engine ab.2) false true 0) s
      .ok [] ((out.filter fun n => !(busy.contains n)).foldl (fun u n => u.modEng n fun e => e.setState 0) s1).refreshLadle

/-- The unit that a UNIT item names: 1 pipeline, 2 engine, 3 Press lane, 4 lane, 5 vernier converter. -/
def unitNamed (p : Parsed) : Option UnitName :=
  match (p.val? 0x021A).getD [] with
  | [1, n] => (ix 26 n.toNat).map UnitName.pipeline
  | [2, n] => (ix 32 n.toNat).map UnitName.engine
  | [3, n] => (ix 26 n.toNat).map UnitName.press
  | [4, n] => (ix 96 n.toNat).map UnitName.lane
  | [5, n] => (ix 3 n.toNat).map UnitName.vernier
  | _ => none

/-- Whether a unit is retired (R374). -/
def State.isRetired (s : State) : UnitName → Bool
  | .pipeline n => bit s.pipes[n].src 7 || s.boot.retired.pipes.getLsbD n.val
  | .engine n => fld s.engines[n].stat 0 3 == 6 || s.boot.retired.engines.getLsbD n.val
  | .press n => s.boot.retired.press.getLsbD n.val
  | .lane _ => false
  | .vernier n => bit s.tiu.stat (14 + n.val)

/-- RETIRE (R374): a pipeline, engine or Press lane. -/
def runRetire : Run := fun _ _ p s =>
  match unitNamed p with
  | some (.pipeline n) => .ok [] (if s.isRetired (.pipeline n) then s else s.retirePlanned (.pipeline n))
  | some (.engine n) => .ok [] (if s.isRetired (.engine n) then s else s.retirePlanned (.engine n))
  | some (.press n) => .ok [] (if s.isRetired (.press n) then s else s.retirePlanned (.press n))
  | _ => .refuse 0x0202 s

/-- SYNC_RESET (R161): the zones' chains are reset at their ports' next frame boundary. -/
def runSyncReset : Run := fun _ _ p s =>
  let zs := p.named 0x0102
  if zs.all s.settings.zones.contains then .ok [] (zs.foldl (fun u z => u.modZone z fun r => { r with resetPending := true }) s)
  else .refuse 0x0225 s

/-- Words of an Ethernet port's network settings (R510). -/
def Eth.netWords (e : Eth) : List Word := [e.macLo, e.macHi] ++ e.ip.toList ++ e.dst.toList ++ e.gw.toList ++ [e.ports, e.link]

/-- Whether CONFIG_SAVE keeps a setting: port, emitter, zone, trigger, Ladle and stream settings, with the zones' pins. -/
def savedKey (k : SetKey) : Bool :=
  match k.kind with
  | .port | .emitter | .zone | .trigger | .stream | .pin => true
  | .device => decide (0x0210 ≤ k.code) && decide (k.code ≤ 0x0217)
  | _ => false

/-- CONFIG_SAVE (R465, R510): refused when the images that the saved zones name exceed 1 MiB; a failed write is answered with
0x0603. -/
def runConfigSave : Run := fun _ _ _ s =>
  let names := (s.settings.zones.map fun z => s.settings.zone z 0x1705).filter (· ≠ 0)
  let imgs := s.images.filter fun i => names.contains i.id
  if 1048576 < (imgs.map fun i => i.bytes.length).sum then .refuse 0x030B s
  else if s.boot.nvBad then .refuse 0x0603 s
  else .ok [] (s.modBoot fun b => { b with
    saved := s.settings.filter fun x => savedKey x.key && !x.val.isEmpty
    savedImages := imgs
    savedNet := (s.links.eth.toList).flatMap Eth.netWords })

/-! ### Group 0x05: calibration (R466) -/

/-- The ports that a calibration command names all have a probing mode, and their islands run (R97, R206): the status otherwise. -/
def State.calPorts (s : State) (ps : List Nat) : Status :=
  if !(ps.all s.settings.probing) then 0x0114 else if !(ps.all fun n => bit s.clk.ckg1 n) then 0x0116 else 0

/-- DARK_FLOOR (R98, R210): every named port closes its gate for one frame. -/
def runDarkFloor : Run := fun _ _ p s =>
  let ps := p.named 0x0101
  if s.calPorts ps ≠ 0 then .refuse (s.calPorts ps) s
  else .ok [] (ps.foldl (fun u n => u.onPort n fun q => { q with dark := .armed }) s)

/-- RXCAL_QUERY: one RECORD per port. -/
def runRxcalQuery : Run := fun _ _ p s =>
  if s.calPorts (p.named 0x0101) ≠ 0 then .refuse (s.calPorts (p.named 0x0101)) s
  else .ok ((p.named 0x0101).map fun n =>
    let q := s.portN n
    record (leW q.rxcStat ++ leW q.rxcKap ++ (List.range 4).flatMap fun k => leW (s.laneN (4 * n + k)).trim ++ leW (s.laneN (4 * n + k)).qsk)) s

/-! ### Group 0x06: time (R467) -/

/-- TIME_QUERY. -/
def runTimeQuery : Run := fun _ _ _ s => .ok [item 0x030A (stampB s.time.dev), record (leW s.clk.stat ++ leW s.tiu.stat)] s

/-- Whether a measurement's parameters agree (R229): a source is not the arming input, the digital inputs are not prescaled, and the window does
not lie more than 10 s in the past. -/
def measOk (m : MeasReq) (dev : Time) : Bool :=
  let arm := (m.par 5 0).toNat
  let srcs := (m.par 2 0).toNat :: (if m.mode = 1 then [(m.par 2 1).toNat] else [])
  let open' := (m.par 8 0).toNat
  (arm == 2 || !(srcs.contains (8 + arm))) &&
    (decide ((m.par 2 0).toNat < 8) || m.par 4 0 == 1) && (m.mode ≠ 1 || decide ((m.par 2 1).toNat < 8) || m.par 4 1 == 1) &&
    (open' == 0 || decide (dev ≤ unstamp open' + 10 * sec))

/-- MEAS_START (R229, R230, R235). -/
def runMeasStart : Run := fun _ _ p s =>
  let (id, s1) := s.freshId 16 s.tiu.ids
  let m : MeasReq := {
    id := BitVec.ofNat 16 id, anchorPort := none, params := p.items.map fun x => (x.1.code % 256, x.2), asked := s.time.dev }
  if !(measOk m s.unitNow) then .refuse 0x0219 s
  else if s.tiu.user = 3 then .refuse 0x0309 s
  else if 8 ≤ s.tiu.depth then .refuse 0x0117 s
  else .ok [item 0x022A (le 2 id)] (s1.modTiu fun t => { t with queue := t.queue ++ [m] }).nextMeas

/-- MEAS_CANCEL (R230, R234): the running measurement ends, or a waiting one is dropped, with CANCELLED. -/
def runMeasCancel : Run := fun _ _ p s =>
  let id := BitVec.ofNat 16 (p.getD 0x022A 0)
  match s.tiu.run, s.tiu.queue.find? fun m => m.anchorPort.isNone && m.id == id with
  | some r, w =>
    if r.req.anchorPort.isNone && r.req.id == id then .ok [] (s.endMeas 0x200 s.unitNow)
    else match w with
      | some m => .ok [] ((s.modTiu fun t => ({ t with queue := t.queue.erase m } : Tiu).show).dropMeas m 0x200)
      | none => .refuse 0x0225 s
  | none, some m => .ok [] ((s.modTiu fun t => ({ t with queue := t.queue.erase m } : Tiu).show).dropMeas m 0x200)
  | none, none => .refuse 0x0225 s

/-- ANCHOR (R239): an anchor of each named port. -/
def runAnchor : Run := fun _ _ p s => .ok [] ((p.named 0x0101).foldl (fun u n => u.queueAnchor n) s)

/-! ### Group 0x08: Vat programs (R348, R349, R470) -/

/-- Whether an image stands under R348 and R349. -/
def imageOk (bs : List Byte) : Bool :=
  let code := rd bs 4 4
  let addr := rd bs 10 2
  let init := rd bs 12 2
  rd bs 0 2 == 0x0020 && rd bs 2 1 == 1 && rd bs 3 1 == 0 && decide (1 ≤ code) && decide (code ≤ 8192) && decide (rd bs 8 2 < code) &&
    decide (init + addr ≤ 32768) && decide (1 ≤ rd bs 14 1) && rd bs 15 1 == 0 && decide (1 ≤ rd bs 16 4) && decide (rd bs 16 4 ≤ 2 ^ 30) &&
    decide (1 ≤ rd bs 20 4) && decide (rd bs 20 4 ≤ 1000000) && rd bs 24 4 % 64 == 0 && decide (rd bs 24 4 ≤ 67108864) && rd bs 28 4 % 64 == 0 &&
    decide (rd bs 28 4 ≤ 268435456) && rd bs 36 4 == 0 && rd bs 40 4 == 0 && rd bs 44 4 == 0 && bs.length == 48 + 4 * code + 2 * init

/-- A piece put into an image that is being loaded. -/
def imagePiece (old : List Byte) (off : Nat) (piece : List Byte) : List Byte := old.take off ++ piece ++ old.drop (off + piece.length)

/-- IMAGE_LOAD: the piece with OFFSET 0 begins a load, the piece that reaches TOTAL ends it. -/
def runImageLoad : Run := fun _ _ p s =>
  match (p.val? 0x021E).getD [] with
  | o :: t :: rest =>
    let off := o.toNat
    let total := t.toNat
    let piece := rest.map fun v => BitVec.ofInt 8 v
    let used := s.images.map (·.id) ++ s.loads.map (·.2.id)
    if off = 0 then
      if 64 ≤ used.length then .refuse 0x0121 s
      else if total < piece.length then .refuse 0x0202 s
      else
        let (id, s1) := s.freshId 32 used
        let reply := [item 0x021D (le 4 id)]
        if piece.length < total then .ok reply { s1 with loads := s1.loads ++ [(total, { id := id, bytes := piece })] }
        else if imageOk piece then .ok reply { s1 with images := s1.images ++ [{ id := id, bytes := piece }] }
        else .refuse 0x021D s
    else match p.val? 0x021D with
      | none => .refuse 0x020D s
      | some v =>
        match s.loads.find? fun x => x.2.id == (v.getD 0 0).toNat with
        | none => .refuse 0x0225 s
        | some l =>
          if l.1 ≠ total ∨ l.2.bytes.length < off ∨ total < off + piece.length then .refuse 0x0202 s
          else
            let bs := imagePiece l.2.bytes off piece
            let img : Image := { id := l.2.id, bytes := bs }
            if off + piece.length < total then .ok [] { s with loads := s.loads.map fun x => if x == l then (l.1, img) else x }
            else if imageOk bs then .ok [] { s with loads := s.loads.erase l, images := s.images ++ [img] }
            else .refuse 0x021D s
  | _ => .refuse 0x020E s

/-- Whether a committed or staged zone names an image. -/
def State.imageUsed (s : State) (id : Nat) : Bool :=
  let names := fun (ss : Settings) => ss.zones.any fun z => ss.zone z 0x1705 == id
  names s.settings || names s.base || s.sessions.toList.any fun x => match x.txn with
    | some t => t.staged.any fun c => c.updates.any fun u => u.1.kind == .zone && u.1.code == 0x1705 && u.2 == [(id : Int)]
    | none => false

/-- IMAGE_DELETE. -/
def runImageDelete : Run := fun _ _ p s =>
  let id := p.getD 0x021D 0
  if !(s.images.any fun i => i.id == id) && !(s.loads.any fun x => x.2.id == id) then .refuse 0x0225 s
  else if s.imageUsed id then .refuse 0x0120 s
  else .ok [] { s with images := s.images.filter fun i => i.id != id, loads := s.loads.filter fun x => x.2.id != id }

/-- IMAGE_QUERY: bytes 0 to 47. -/
def runImageQuery : Run := fun _ _ p s =>
  match s.images.find? fun i => i.id == p.getD 0x021D 0 with
  | none => .refuse 0x0225 s
  | some i => .ok [record (cut i.bytes 0 48)] s

/-! ### Group 0x09: the Press (R396 to R403, R471) -/

/-- JOB_SUBMIT. -/
def runJobSubmit : Run := fun _ _ p s =>
  let d := ((p.val? 0x021F).getD []).map fun v => BitVec.ofInt 8 v
  let st := s.jobRefusal d
  if st ≠ 0 then .refuse st s
  else .ok [] { s with jobs := s.jobs ++ [{ desc := d, lane := none, running := false, setAside := false, cancel := false, cls := 2, arrived := s.time.mono }] }

/-- JOB_CANCEL: every job with the tag. -/
def runJobCancel : Run := fun _ _ p s =>
  let tag := p.getD 0x022B 0
  if s.jobs.any fun j => jobField j.desc 4 4 == tag then .ok [] (s.cancelJobs tag) else .refuse 0x0225 s

/-- PRESS_QUERY: a RECORD per lane. -/
def runPressQuery : Run := fun _ _ _ s =>
  .ok (s.press.toList.map fun l => record (leW l.stat ++ leW l.inR ++ leW l.outR ++ leW l.rawCnt)) s

/-! ### Group 0x0A: lookback (R431 to R439, R472) -/

/-- TRIGGER_FIRE for each named trigger in turn: all, or none. -/
def fireAll (s0 : State) : List Nat → List (List Byte) → State → Res
  | [], items, s => .ok items s
  | t :: ts, items, s =>
    if !(trigSet s0.settings t) then .refuse 0x0225 s0
    else if trigPar s0.settings t 0 ≠ 0 then .refuse 0x0222 s0
    else
      let r := s.fireCommand t
      if r.1 ≠ 0 then .refuse r.1 s0
      else
        let made := r.2.look.captures.length ≠ s.look.captures.length
        fireAll s0 ts (items ++ if made then [item 0x0227 (le 4 s.look.nextCapture)] else []) r.2

/-- TRIGGER_FIRE (R431, R433). -/
def runTriggerFire : Run := fun _ _ p s => fireAll s (p.named 0x0109) [] s

/-- A capture of a number. -/
def State.capture? (s : State) (id : Nat) : Option Capture := s.look.captures.find? fun c => c.id == id

/-- CAPTURE_RELEASE (R433). -/
def runCaptureRelease : Run := fun _ _ p s =>
  match s.capture? (p.getD 0x0227 0) with
  | none => .refuse 0x0225 s
  | some c => .ok [] (s.releaseCapture c.id)

/-- DUMP (R435). -/
def runDump : Run := fun _ _ p s =>
  match s.capture? (p.getD 0x0227 0) with
  | some c => if c.held then .ok [] (s.dumpCapture c) else .refuse 0x0225 s
  | none => .refuse 0x0225 s

/-- Pipelines that serve no port and that no job or migration holds (R438). -/
def State.idlePipe (s : State) : Option Nat :=
  (List.range 26).find? fun n => s.pipeOk n && !(s.ladle.place.pipes.any fun x => x.2 == n) && !(s.look.jobs.any fun j => j.2.1 == n) &&
    !(s.ladle.migrations.any fun m => match m.target with | .pipeline k => k.val == n | _ => false)

/-- Whether the parameters of a re-analysis may be changed and lie in their ranges (R146, R437). -/
def jobParamsOk (c : Capture) (ps : List (SetKey × List Int)) (raw : Bool) (products : Nat) : Bool :=
  let params : Settings := ps.map fun x => { key := x.1, val := x.2, gen := 0 }
  let cfg := c.jobSettings params products
  let g := planGauge cfg c.port
  (ps.all fun x => x.1.code / 256 == 0x13 || x.1.code == 0x1201 || x.1.code == 0x1204 || x.1.code == 0x1205 || (raw && x.1.code == 0x1203)) &&
    decide (zoneFirst cfg c.zone ≤ zoneLast cfg c.zone) && (if raw then decide (g < nBins cfg c.port) else decide (g < curdBins c.plan c.zone)) &&
    firstFail (filterChecks cfg c.zone) == 0 && (products / 4 % 2 == 0 || raw || c.flags.getLsbD 5)

/-- REANALYSE (R437). -/
def runReanalyse : Run := fun _ _ p s =>
  let spec := (p.val? 0x0228).getD []
  let raw := spec.getD 0 0 == 1
  let products := (spec.getD 1 0).toNat
  let ps := p.items.filter fun x => x.1.code / 256 == 0x12 || x.1.code / 256 == 0x13
  match s.capture? (p.getD 0x0227 0) with
  | none => .refuse 0x0223 s
  | some c =>
    if !c.held || (if raw then c.rawR.isNone else c.curdR.isNone) then .refuse 0x0223 s
    else if !(jobParamsOk c ps raw products) then .refuse 0x0222 s
    else if c.flags.getLsbD 2 then .refuse 0x0224 s
    else match s.idlePipe with
      | none => .refuse 0x0301 s
      | some n =>
        let params : Settings := ps.map fun x => { key := x.1, val := x.2, gen := 0 }
        .ok [] (s.modLook fun l => { l with jobs := l.jobs ++ [(c.id, n, params, if raw then 1 else 2, products)] })

/-- CAPTURE_QUERY: the header of the named capture, or of every held one. -/
def runCaptureQuery : Run := fun _ _ p s =>
  match p.val? 0x0227 with
  | none => .ok ((s.look.captures.filter (·.held)).map fun c => record c.header) s
  | some v => match s.capture? (v.getD 0 0).toNat with
    | some c => if c.held then .ok [record c.header] s else .refuse 0x0225 s
    | none => .refuse 0x0225 s

/-! ### Group 0x0B: diagnostics (R473, R539 to R541) -/

/-- SLICE_TEST (R84, R206, R474): of a lane; a slice that fails it is found failing later. -/
def runSliceTest : Run := fun _ _ p s =>
  match unitNamed p with
  | some (.lane n) =>
    if !(bit s.clk.ckg1 (lanePort n).val) then .refuse 0x0116 s else .ok [] (s.modLane n fun l => { l with tested := true })
  | _ => .refuse 0x0202 s

/-- SELF_TEST (R367, R473): of a pipeline, engine, Press lane or vernier converter that is not in service. -/
def runSelfTest : Run := fun _ _ p s =>
  match unitNamed p with
  | none => .refuse 0x0202 s
  | some u =>
    let isLane := match u with | .lane _ => true | _ => false
    if isLane || s.unitOk u then .refuse 0x0202 s
    else .ok [] (s.startTests [u])

/-- FAULT_LOG: up to 64 entries from index FROM onwards. -/
def runFaultLog : Run := fun _ _ p s =>
  .ok (((s.boot.faultLog.filter fun e => decide (p.getD 0x0226 0 ≤ e.index.toNat)).take 64).map fun e => record e.bytes) s

/-- A boot record's 128 bytes (R539). -/
def BootRec.bytes (r : BootRec) : List Byte :=
  let o := (List.range 16).flatMap fun n => let x := r.outcomes.getD n (0, 0, 0); le 1 x.1 ++ le 1 x.2.1 ++ le 2 x.2.2
  let b := le 2 0x0050 ++ [1] ++ le 1 r.result ++ le 4 r.bootCnt.toNat ++ stampB r.tStart ++ [r.cause, r.fwSlot] ++ le 1 r.lastStep ++ [0] ++
    le 4 r.fwVer.toNat ++ zeros 4 ++ o ++ stampB r.tReady ++ zeros 16
  b ++ le 4 (crc32 b)

/-- The retired-unit record's 32 bytes (R540). -/
def Retired.bytes (r : Retired) : List Byte :=
  let b := le 2 0x0052 ++ [1, 0] ++ le 4 r.pipes.toNat ++ le 4 r.engines.toNat ++ le 4 r.press.toNat ++ [r.verniers, r.memStacks] ++ zeros 10
  b ++ le 4 (crc32 b)

/-- JOURNAL_READ: the boot records newest first, then the retired-unit record. -/
def runJournalRead : Run := fun _ _ _ s => .ok (s.boot.journal.map (fun r => record r.bytes) ++ [record s.boot.retired.bytes]) s

/-- JOURNAL_CLEAR empties both. -/
def runJournalClear : Run := fun _ _ _ s => .ok [] (s.modBoot fun b => { b with journal := [], retired := Retired.reset })

/-! ### Group 0x0C: power states (R543 to R547) -/

/-- The sampling and probe loops and the lanes of probing ports come up (R543, R545). -/
def State.loopsOn (s : State) : State :=
  (s.modClk fun c => { c with stat := setBit (setBit c.stat 5) 6 }).forPorts fun p u => if u.settings.probing p.val then u.lanePower p true else u

/-- A power state other than RUN is entered: each port completes its frame; one whose timer is frozen stops at once. -/
def State.leaveRun (s : State) (target : Nat) : State :=
  let s1 := (s.modBoot fun b => { b with pwrStat := setBit (setFld b.pwrStat 0 2 target) 2, standbyAt := s.time.mono }).forPorts fun p u =>
    u.modPort p fun q => if q.frozen then { q with frameStart := none, frozen := false } else q
  let s2 : State := { s1 with commits := s1.commits.filter fun c => c.owner.isSome }
  (s2.fixFirst.driveInhibit).settlePower

/-- The return to RUN (R545): every probing port restarts as R458 defines, the history rings anew. -/
def State.returnToRun (s : State) : State :=
  let probing := (List.range 24).filter s.base.probing
  let s1 := s.modBoot fun b => { b with pwrStat := putBit (setFld b.pwrStat 0 2 0) 2 (!probing.isEmpty) }
  let s2 := (s1.zones.map (·.id)).foldl (fun u z => u.restartCurd z) (probing.foldl (fun u p => u.restartRaw p) s1)
  let c : Commit := {
    owner := none, target := s2.base, keys := [], removes := [], placement := s2.basePlace, fixed := false, moved := false, a1 := 0, tC := 0
    tLast := 0, restarted := probing, touched := probing, deviceDone := false }
  if probing.isEmpty then s2.driveInhibit else ({ s2 with commits := s2.commits ++ [c] } : State).fixFirst.driveInhibit

/-- POWER_SET. -/
def runPowerSet : Run := fun i k p s =>
  let target := p.getD 0x0229 0
  let now := s.power
  if 3 < target then .refuse 0x0202 s
  else if target = now then .ok [] s
  else
    let up := if now = 2 ∧ target < 2 then s.loopsOn else s
    if target = 0 then .ok [] up.returnToRun
    else if target = 3 then .sent ((s.complete i 0x0C01 k 0 k.txn.toNat false []).leaveRun 3)
    else .ok [] (up.leaveRun target)

/-- POWER_QUERY. -/
def runPowerQuery : Run := fun _ _ _ s => .ok [item 0x0229 (le 1 s.power)] s

/-! ### Every opcode, and the commands that wait (R450) -/

/-- What an opcode does. -/
def runOf (op : Nat) : Run :=
  if op / 256 = 0x07 then runRind op
  else if stageable op then runStageable op
  else match op with
  | 0x0102 => runSessionClose
  | 0x0103 => runSessionPing
  | 0x0104 => runEventSubscribe
  | 0x0105 => runIdentify
  | 0x0201 => runTxnBegin
  | 0x0202 => runTxnCommit
  | 0x0203 => runTxnRollback
  | 0x0204 => runTxnQuery
  | 0x0307 => runRearm
  | 0x0308 => runEndRebase
  | 0x0309 => runPortQuery
  | 0x030A => runEmitterQuery
  | 0x0404 => runPlaceQuery
  | 0x0405 => runRebalance
  | 0x0406 => runCapacity
  | 0x0407 => runRetire
  | 0x0409 => runSyncReset
  | 0x040B => runConfigSave
  | 0x0502 => runDarkFloor
  | 0x0503 => runRxcalQuery
  | 0x0603 => runTimeQuery
  | 0x0604 => runMeasStart
  | 0x0605 => runMeasCancel
  | 0x0606 => runAnchor
  | 0x0801 => runImageLoad
  | 0x0802 => runImageDelete
  | 0x0803 => runImageQuery
  | 0x0901 => runJobSubmit
  | 0x0902 => runJobCancel
  | 0x0903 => runPressQuery
  | 0x0A03 => runTriggerFire
  | 0x0A04 => runCaptureRelease
  | 0x0A05 => runDump
  | 0x0A06 => runReanalyse
  | 0x0A07 => runCaptureQuery
  | 0x0B01 => runSliceTest
  | 0x0B02 => runSelfTest
  | 0x0B03 => runFaultLog
  | 0x0B04 => runJournalRead
  | 0x0B05 => runJournalClear
  | 0x0C01 => runPowerSet
  | 0x0C02 => runPowerQuery
  | _ => fun _ _ _ s => .refuse 0x0201 s

/-- The commands of a session that wait start in order, until one stays in progress, is held (R460), or has its reply held back. -/
def pumpSession (i : SessIx) : Nat → State → State
  | 0, s => s
  | n + 1, s =>
    let x := s.sessions[i]
    if !x.isOpen || x.inProgress.isSome || s.replyHeld i then s
    else match x.waiting with
      | [] => s
      | c :: rest =>
        let s1 := (s.modSess i fun y => { y with waiting := rest }).start i c.1.toNat c.2 (runOf c.1.toNat)
        if s1.sessions[i].waiting.length ≤ rest.length then pumpSession i n s1 else s1

/-- Every session's waiting commands. -/
def State.pump (s : State) : State := (List.finRange 4).foldl (fun u i => pumpSession i (u.sessions[i].waiting.length + 1) u) s

/-- A packet as its bytes stand: the header, and the body that LENGTH counts, or, on a transport that ends a packet itself, all that came. -/
def packetOf (t : Transport) (bs : List Byte) (whole : Bool) : Nat × Packet :=
  let len := rd bs 12 4
  (rd bs 0 2, {
    transport := t, flags := BitVec.ofNat 8 (rd bs 2 1), session := BitVec.ofNat 8 (rd bs 3 1), txn := BitVec.ofNat 16 (rd bs 4 2)
    status := BitVec.ofNat 16 (rd bs 6 2), seq := BitVec.ofNat 32 (rd bs 8 4), length := BitVec.ofNat 32 len
    body := if whole then bs.drop 16 else if 16 ≤ len ∧ len ≤ 65536 then cut bs 16 (len - 16) else [] })

/-- A packet arrives as bytes. -/
def arriveBytes (t : Transport) (bs : List Byte) (whole : Bool) (s : State) : State :=
  let p := packetOf t bs whole
  arrive p.1 p.2 (runOf p.1) s

/-! ### Rows after which a waiting command may go on -/

/-- COMMIT_BOUNDARY (R458, R460). -/
def execCommitBoundary (p : Option PortIx) (s : State) : Host.Outcome State Fault Refusal := .next (s.commitAt p).pump
/-- MAILBOX_REQUEST (R255): the Rind takes what waits. -/
def execMailboxRequest (s : State) : Host.Outcome State Fault Refusal := .next s.serveAll.pump
/-- MAILBOX_TIMEOUT (R469). -/
def execMailboxTimeout (s : State) : Host.Outcome State Fault Refusal := .next (mailboxTimeout s).pump
/-- RIND_POWER_ON (R265): requests that waited are served. -/
def execRindPowerOn (imageOk : Bool) (s : State) : Host.Outcome State Fault Refusal := .next (rindPowerOn imageOk s).serveAll.pump
/-- AXC0_ENTRY_COMPLETE (R282). -/
def execAxc0EntryComplete (m : Axc0Conv) (s : State) : Host.Outcome State Fault Refusal := .next (calAnswer (axc0Convert m s)).pump
/-- WIRE_BREAK (R301). -/
def execWireBreak (s : State) : Host.Outcome State Fault Refusal := .next (calAnswer (wireBreak s)).pump
/-- REFERENCE_OUT_OF_WINDOW (R291). -/
def execReferenceOutOfWindow (s : State) : Host.Outcome State Fault Refusal := .next (calAnswer (referenceOutOfWindow s)).pump

/-- An open calibration closes one hour after its last request (R305); a step that was collecting is answered with 0x011B. -/
def calIdle (s : State) : State :=
  let waits := s.rind.measuring
  let t := calibrationIdleTimeout s
  if waits && t.rind.axc0.cal.isNone then (t.answerRind 0x011B []).serveAll else t
/-- CALIBRATION_IDLE_TIMEOUT (R305). -/
def execCalibrationIdleTimeout (s : State) : Host.Outcome State Fault Refusal := .next (calIdle s).pump

/-- CR_RTAIL_WRITE (R503): a session whose reply waited goes on. -/
def execCrRtailWrite (n : Fin 4) (v : Word) (s : State) : Host.Outcome State Fault Refusal := .next (s.written (crRtailWrite n v)).pump

/-- A doorbell (R503): the slot's packet is submitted; a slot that is not free sets DB_ERR. A ring pair that is not enabled takes none. -/
def crDoorbell (n : Fin 4) (v : Word) (bytes : List Byte) (s : State) : State :=
  let r := s.links.cr[n]
  let slot := fld v 0 6
  if !(bit r.ctl 0) then s
  else if r.busy.getLsbD slot then s.modCr n fun r => { r with stat := setBit r.stat 0 }
  else
    let held := bytes ++ ((assoc r.req slot).getD []).drop bytes.length
    let s1 := s.modCr n fun r => { r with
      busy := r.busy ||| (1#64 <<< slot), req := assocSet r.req slot held
      slots := r.slots ++ [(BitVec.ofNat 8 (rd held 3 1), BitVec.ofNat 32 (rd held 8 4), slot)] }
    arriveBytes (.ring n) held false s1
/-- CR_DOORBELL (R503). -/
def execCrDoorbell (n : Fin 4) (v : Word) (bytes : List Byte) (s : State) : Host.Outcome State Fault Refusal :=
  .next (s.written (crDoorbell n v bytes))

/-! ### Timeouts (R448, R455) -/

/-- TXN_TO after the last command received in it, a transaction is rolled back: EV255 (R455). -/
def txnTimeout (n : SessIx) (s : State) : State :=
  match s.sessions[n].txn with
  | none => s
  | some t =>
    let s1 := s.until (t.lastRx + t.timeout * sec)
    (s1.modSess n fun x => { x with txn := none, timedOut := x.timedOut ++ [t.id] }).raise 255
/-- TXN_TIMEOUT (R455). -/
def execTxnTimeout (n : SessIx) (s : State) : Host.Outcome State Fault Refusal := .next (txnTimeout n s)

/-- SESSION_TO after the last command received, a session closes: EV248 (R448). -/
def sessionTimeout (n : SessIx) (s : State) : State :=
  if s.sessions[n].isOpen then
    let s1 := s.until (s.sessions[n].lastRx + s.sessions[n].timeout * sec)
    (s1.closeSession n).raise 248
  else s
/-- SESSION_TIMEOUT (R448). -/
def execSessionTimeout (n : SessIx) (s : State) : Host.Outcome State Fault Refusal := .next (sessionTimeout n s)

/-! ### The rows of R462 to R473 -/

/-- UNKNOWN_OPCODE (R474). -/
def execUnknownOpcode (op : BitVec 16) (k : Packet) (s : State) : Host.Outcome State Fault Refusal := .next (arrive op.toNat k (runOf op.toNat) s)
/-- SESSION_OPEN (R462). -/
def execSessionOpen (k : Packet) (s : State) : Host.Outcome State Fault Refusal := .next (arrive 0x0101 k (runOf 0x0101) s)
/-- SESSION_CLOSE (R462). -/
def execSessionClose (k : Packet) (s : State) : Host.Outcome State Fault Refusal := .next (arrive 0x0102 k runSessionClose s)
/-- SESSION_PING (R462). -/
def execSessionPing (k : Packet) (s : State) : Host.Outcome State Fault Refusal := .next (arrive 0x0103 k runSessionPing s)
/-- EVENT_SUBSCRIBE (R462). -/
def execEventSubscribe (k : Packet) (s : State) : Host.Outcome State Fault Refusal := .next (arrive 0x0104 k runEventSubscribe s)
/-- IDENTIFY (R462). -/
def execIdentify (k : Packet) (s : State) : Host.Outcome State Fault Refusal := .next (arrive 0x0105 k runIdentify s)
/-- TXN_BEGIN (R463). -/
def execTxnBegin (k : Packet) (s : State) : Host.Outcome State Fault Refusal := .next (arrive 0x0201 k runTxnBegin s)
/-- TXN_COMMIT (R463). -/
def execTxnCommit (k : Packet) (s : State) : Host.Outcome State Fault Refusal := .next (arrive 0x0202 k runTxnCommit s)
/-- TXN_ROLLBACK (R463). -/
def execTxnRollback (k : Packet) (s : State) : Host.Outcome State Fault Refusal := .next (arrive 0x0203 k runTxnRollback s)
/-- TXN_QUERY (R463). -/
def execTxnQuery (k : Packet) (s : State) : Host.Outcome State Fault Refusal := .next (arrive 0x0204 k runTxnQuery s)
/-- PLAN_SET (R464). -/
def execPlanSet (k : Packet) (s : State) : Host.Outcome State Fault Refusal := .next (arrive 0x0301 k (runStageable 0x0301) s)
/-- MODE_SET (R464). -/
def execModeSet (k : Packet) (s : State) : Host.Outcome State Fault Refusal := .next (arrive 0x0302 k (runStageable 0x0302) s)
/-- PORT_SAFETY (R464). -/
def execPortSafety (k : Packet) (s : State) : Host.Outcome State Fault Refusal := .next (arrive 0x0303 k (runStageable 0x0303) s)
/-- DELAY_SET (R464). -/
def execDelaySet (k : Packet) (s : State) : Host.Outcome State Fault Refusal := .next (arrive 0x0304 k (runStageable 0x0304) s)
/-- EMITTER_SET (R464). -/
def execEmitterSet (k : Packet) (s : State) : Host.Outcome State Fault Refusal := .next (arrive 0x0305 k (runStageable 0x0305) s)
/-- EMITTER_DELETE (R464). -/
def execEmitterDelete (k : Packet) (s : State) : Host.Outcome State Fault Refusal := .next (arrive 0x0306 k (runStageable 0x0306) s)
/-- REARM (R464). -/
def execRearm (k : Packet) (s : State) : Host.Outcome State Fault Refusal := .next (arrive 0x0307 k runRearm s)
/-- END_REBASE (R464). -/
def execEndRebase (k : Packet) (s : State) : Host.Outcome State Fault Refusal := .next (arrive 0x0308 k runEndRebase s)
/-- PORT_QUERY (R464). -/
def execPortQuery (k : Packet) (s : State) : Host.Outcome State Fault Refusal := .next (arrive 0x0309 k runPortQuery s)
/-- EMITTER_QUERY (R464). -/
def execEmitterQuery (k : Packet) (s : State) : Host.Outcome State Fault Refusal := .next (arrive 0x030A k runEmitterQuery s)
/-- ZONE_SET (R465). -/
def execZoneSet (k : Packet) (s : State) : Host.Outcome State Fault Refusal := .next (arrive 0x0401 k (runStageable 0x0401) s)
/-- ZONE_DELETE (R465). -/
def execZoneDelete (k : Packet) (s : State) : Host.Outcome State Fault Refusal := .next (arrive 0x0402 k (runStageable 0x0402) s)
/-- PIN_SET (R465). -/
def execPinSet (k : Packet) (s : State) : Host.Outcome State Fault Refusal := .next (arrive 0x0403 k (runStageable 0x0403) s)
/-- PLACE_QUERY (R465). -/
def execPlaceQuery (k : Packet) (s : State) : Host.Outcome State Fault Refusal := .next (arrive 0x0404 k runPlaceQuery s)
/-- REBALANCE (R465). -/
def execRebalance (k : Packet) (s : State) : Host.Outcome State Fault Refusal := .next (arrive 0x0405 k runRebalance s)
/-- CAPACITY (R465). -/
def execCapacity (k : Packet) (s : State) : Host.Outcome State Fault Refusal := .next (arrive 0x0406 k runCapacity s)
/-- RETIRE (R465). -/
def execRetire (k : Packet) (s : State) : Host.Outcome State Fault Refusal := .next (arrive 0x0407 k runRetire s)
/-- LADLE_SET (R465). -/
def execLadleSet (k : Packet) (s : State) : Host.Outcome State Fault Refusal := .next (arrive 0x0408 k (runStageable 0x0408) s)
/-- SYNC_RESET (R465). -/
def execSyncReset (k : Packet) (s : State) : Host.Outcome State Fault Refusal := .next (arrive 0x0409 k runSyncReset s)
/-- STREAM_ROUTE (R465). -/
def execStreamRoute (k : Packet) (s : State) : Host.Outcome State Fault Refusal := .next (arrive 0x040A k (runStageable 0x040A) s)
/-- CONFIG_SAVE (R465). -/
def execConfigSave (k : Packet) (s : State) : Host.Outcome State Fault Refusal := .next (arrive 0x040B k runConfigSave s)
/-- RXCAL_SET (R466). -/
def execRxcalSet (k : Packet) (s : State) : Host.Outcome State Fault Refusal := .next (arrive 0x0501 k (runStageable 0x0501) s)
/-- DARK_FLOOR (R466). -/
def execDarkFloor (k : Packet) (s : State) : Host.Outcome State Fault Refusal := .next (arrive 0x0502 k runDarkFloor s)
/-- RXCAL_QUERY (R466). -/
def execRxcalQuery (k : Packet) (s : State) : Host.Outcome State Fault Refusal := .next (arrive 0x0503 k runRxcalQuery s)
/-- CLOCK_SET (R467). -/
def execClockSet (k : Packet) (s : State) : Host.Outcome State Fault Refusal := .next (arrive 0x0601 k (runStageable 0x0601) s)
/-- TIU_SET (R467). -/
def execTiuSet (k : Packet) (s : State) : Host.Outcome State Fault Refusal := .next (arrive 0x0602 k (runStageable 0x0602) s)
/-- TIME_QUERY (R467). -/
def execTimeQuery (k : Packet) (s : State) : Host.Outcome State Fault Refusal := .next (arrive 0x0603 k runTimeQuery s)
/-- MEAS_START (R467). -/
def execMeasStart (k : Packet) (s : State) : Host.Outcome State Fault Refusal := .next (arrive 0x0604 k runMeasStart s)
/-- MEAS_CANCEL (R467). -/
def execMeasCancel (k : Packet) (s : State) : Host.Outcome State Fault Refusal := .next (arrive 0x0605 k runMeasCancel s)
/-- ANCHOR (R467). -/
def execAnchor (k : Packet) (s : State) : Host.Outcome State Fault Refusal := .next (arrive 0x0606 k runAnchor s)
/-- SERVO_SET (R467). -/
def execServoSet (k : Packet) (s : State) : Host.Outcome State Fault Refusal := .next (arrive 0x0607 k (runStageable 0x0607) s)
/-- THERMAL_SET (R468). -/
def execThermalSet (k : Packet) (s : State) : Host.Outcome State Fault Refusal := .next (arrive 0x0701 k (runRind 0x0701) s)
/-- SCHEDULE_SET (R468). -/
def execScheduleSet (k : Packet) (s : State) : Host.Outcome State Fault Refusal := .next (arrive 0x0702 k (runRind 0x0702) s)
/-- FRONT_END_SET (R468). -/
def execFrontEndSet (k : Packet) (s : State) : Host.Outcome State Fault Refusal := .next (arrive 0x0703 k (runRind 0x0703) s)
/-- RIND_IDENTIFY (R468). -/
def execRindIdentify (k : Packet) (s : State) : Host.Outcome State Fault Refusal := .next (arrive 0x0704 k (runRind 0x0704) s)
/-- RIND_QUERY (R468). -/
def execRindQuery (k : Packet) (s : State) : Host.Outcome State Fault Refusal := .next (arrive 0x0705 k (runRind 0x0705) s)
/-- SEAL (R468). -/
def execSealSet (k : Packet) (s : State) : Host.Outcome State Fault Refusal := .next (arrive 0x0706 k (runRind 0x0706) s)
/-- SEAL_BREAK (R468). -/
def execSealBreak (k : Packet) (s : State) : Host.Outcome State Fault Refusal := .next (arrive 0x0707 k (runRind 0x0707) s)
/-- AUDIT_READ (R468). -/
def execAuditRead (k : Packet) (s : State) : Host.Outcome State Fault Refusal := .next (arrive 0x0708 k (runRind 0x0708) s)
/-- AUDIT_ACK (R468). -/
def execAuditAck (k : Packet) (s : State) : Host.Outcome State Fault Refusal := .next (arrive 0x0709 k (runRind 0x0709) s)
/-- RIND_FW_LOAD (R468). -/
def execRindFwLoad (k : Packet) (s : State) : Host.Outcome State Fault Refusal := .next (arrive 0x070A k (runRind 0x070A) s)
/-- CAL_BEGIN (R468). -/
def execCalBegin (k : Packet) (s : State) : Host.Outcome State Fault Refusal := .next (arrive 0x070B k (runRind 0x070B) s)
/-- CAL_ZERO (R468). -/
def execCalZero (k : Packet) (s : State) : Host.Outcome State Fault Refusal := .next (arrive 0x070C k (runRind 0x070C) s)
/-- CAL_FULL (R468). -/
def execCalFull (k : Packet) (s : State) : Host.Outcome State Fault Refusal := .next (arrive 0x070D k (runRind 0x070D) s)
/-- CAL_APPLY (R468). -/
def execCalApply (k : Packet) (s : State) : Host.Outcome State Fault Refusal := .next (arrive 0x070E k (runRind 0x070E) s)
/-- CAL_CANCEL (R468). -/
def execCalCancel (k : Packet) (s : State) : Host.Outcome State Fault Refusal := .next (arrive 0x070F k (runRind 0x070F) s)
/-- AXC0_URGENT (R468). -/
def execAxc0Urgent (k : Packet) (s : State) : Host.Outcome State Fault Refusal := .next (arrive 0x0710 k (runRind 0x0710) s)
/-- IMAGE_LOAD (R470). -/
def execImageLoad (k : Packet) (s : State) : Host.Outcome State Fault Refusal := .next (arrive 0x0801 k runImageLoad s)
/-- IMAGE_DELETE (R470). -/
def execImageDelete (k : Packet) (s : State) : Host.Outcome State Fault Refusal := .next (arrive 0x0802 k runImageDelete s)
/-- IMAGE_QUERY (R470). -/
def execImageQuery (k : Packet) (s : State) : Host.Outcome State Fault Refusal := .next (arrive 0x0803 k runImageQuery s)
/-- JOB_SUBMIT (R471). -/
def execJobSubmit (k : Packet) (s : State) : Host.Outcome State Fault Refusal := .next (arrive 0x0901 k runJobSubmit s)
/-- JOB_CANCEL (R471). -/
def execJobCancel (k : Packet) (s : State) : Host.Outcome State Fault Refusal := .next (arrive 0x0902 k runJobCancel s)
/-- PRESS_QUERY (R471). -/
def execPressQuery (k : Packet) (s : State) : Host.Outcome State Fault Refusal := .next (arrive 0x0903 k runPressQuery s)
/-- TRIGGER_SET (R472). -/
def execTriggerSet (k : Packet) (s : State) : Host.Outcome State Fault Refusal := .next (arrive 0x0A01 k (runStageable 0x0A01) s)
/-- TRIGGER_DELETE (R472). -/
def execTriggerDelete (k : Packet) (s : State) : Host.Outcome State Fault Refusal := .next (arrive 0x0A02 k (runStageable 0x0A02) s)
/-- TRIGGER_FIRE (R472). -/
def execTriggerFire (k : Packet) (s : State) : Host.Outcome State Fault Refusal := .next (arrive 0x0A03 k runTriggerFire s)
/-- CAPTURE_RELEASE (R472). -/
def execCaptureRelease (k : Packet) (s : State) : Host.Outcome State Fault Refusal := .next (arrive 0x0A04 k runCaptureRelease s)
/-- DUMP (R472). -/
def execDump (k : Packet) (s : State) : Host.Outcome State Fault Refusal := .next (arrive 0x0A05 k runDump s)
/-- REANALYSE (R472). -/
def execReanalyse (k : Packet) (s : State) : Host.Outcome State Fault Refusal := .next (arrive 0x0A06 k runReanalyse s)
/-- CAPTURE_QUERY (R472). -/
def execCaptureQuery (k : Packet) (s : State) : Host.Outcome State Fault Refusal := .next (arrive 0x0A07 k runCaptureQuery s)
/-- SLICE_TEST (R473). -/
def execSliceTest (k : Packet) (s : State) : Host.Outcome State Fault Refusal := .next (arrive 0x0B01 k runSliceTest s)
/-- SELF_TEST (R473). -/
def execSelfTest (k : Packet) (s : State) : Host.Outcome State Fault Refusal := .next (arrive 0x0B02 k runSelfTest s)
/-- FAULT_LOG (R473). -/
def execFaultLog (k : Packet) (s : State) : Host.Outcome State Fault Refusal := .next (arrive 0x0B03 k runFaultLog s)
/-- JOURNAL_READ (R473). -/
def execJournalRead (k : Packet) (s : State) : Host.Outcome State Fault Refusal := .next (arrive 0x0B04 k runJournalRead s)
/-- JOURNAL_CLEAR (R473). -/
def execJournalClear (k : Packet) (s : State) : Host.Outcome State Fault Refusal := .next (arrive 0x0B05 k runJournalClear s)
/-- POWER_SET (R473). -/
def execPowerSet (k : Packet) (s : State) : Host.Outcome State Fault Refusal := .next (arrive 0x0C01 k runPowerSet s)
/-- POWER_QUERY (R473). -/
def execPowerQuery (k : Packet) (s : State) : Host.Outcome State Fault Refusal := .next (arrive 0x0C02 k runPowerQuery s)

end Sys2Proof.Machine
end

