-- ==== Sys2Proof/Machine/Reset.lean ====
section
/-! DEFINITION. Resets of the main partition (R524, R525): what each leaves, and what survives it. -/

namespace Sys2Proof.Machine

/-- The main partition in reset: every register, buffer and setting of it at its reset value, sessions closed, gates closed, SDC_LAT at its
shutdown level and the Raman inhibit asserted (R524). The Rind, the always-on island with PWR_WAKE, and the non-volatile store keep theirs; a
warm reset keeps HZ_CNT, RST_CAUSE, the host area and the jobs saved in it too (R525). While the interlock loop reads open, every group is shut
again (R58). After a loss of power the mailbox reads empty (R246). -/
def mainReset (warm : Bool) (s : State) : State :=
  { State.reset with
    pending := s.pending, out := s.out, free := s.free
    time := { TimeSt.reset with mono := s.time.mono }
    glb := { Glb.reset with
      variantM := s.glb.variantM, uid := s.glb.uid, hzCnt := if warm then s.glb.hzCnt else 0, lastSlow := s.glb.lastSlow
      lastRefresh := s.time.mono }
    sdc := { Sdc.reset with causeIntlk := s.sdc.causeIntlk }
    shut := Vector.replicate 16 s.sdc.causeIntlk
    rind := { s.rind with
      held := [], inhibitOuter := true, request := if warm then s.rind.request else none, ackWord := if warm then s.rind.ackWord else 0
      slot := if warm then s.rind.slot else [], reply := if warm then s.rind.reply else [], timeWord := if warm then s.rind.timeWord else none }
    hostArea := if warm then s.hostArea else [], savedJobs := if warm then s.savedJobs else []
    boot := { s.boot with
      inReset := true, bootStat := 0, pwrStat := 0, rstCause := if warm then s.boot.rstCause else 1 }
    aon := s.aon }

/-- A warm reset begins, its cause set in RST_CAUSE: 1 RST_N, 2 RST_CTL, 3 the watchdog, 4 a boot step over its limit (R525, R526). -/
def enterReset (cause : Nat) (s : State) : State := (mainReset true s).modBoot fun b => { b with rstCause := setBit b.rstCause cause }

/-- RST_CTL_WARM (R527). -/
def execRstCtlWarm (s : State) : Host.Outcome State Fault Refusal := .next (s.written (enterReset 2))

/-- SUPERVISOR_WATCHDOG (R525). -/
def execSupervisorWatchdog (s : State) : Host.Outcome State Fault Refusal := .next (s.written (enterReset 3))

end Sys2Proof.Machine
end

