-- ==== Sys2Proof/Machine/Regs.lean ====
section
/-! DEFINITION. The register window (R478 to R491): its map, reads, writes, access errors; mirror refreshes (R278, R486 to R488); the event
registers (R493 to R497) and MSI-X (R498); SPI frames (R517). -/

namespace Sys2Proof.Machine

/-! ### Reads (R206, R478, R480, R483, R490) -/

/-- A word of a byte-indexed list of words. -/
def wordAt {n : Nat} (v : Vector Word n) (i : Nat) : Word := match ix n i with | some k => v[k] | none => 0

/-- Word `k` of a 256-bit register. -/
def word256 (w : BitVec 256) (k : Nat) : Word := BitVec.ofNat 32 (w.toNat / 2 ^ (32 * k))

/-- The global block (R485, R490). -/
def readGlobal (s : State) (o : Nat) : Word :=
  let g := s.glb
  match o with
  | 0x00 => 0x96241E4C
  | 0x04 => putBit 0x3142 16 g.variantM
  | 0x08 => BitVec.ofNat 32 g.uid.toNat
  | 0x0C => BitVec.ofNat 32 (g.uid.toNat / 2 ^ 32)
  | 0x10 => g.fwver
  | 0x14 => g.stat
  | 0x18 => g.mepoch
  | 0x1C => g.hzCnt
  | 0x20 => g.accErr
  | 0x24 => g.accAddr
  | 0x28 => g.scratch
  | 0x30 => g.time0
  | 0x34 => g.time1
  | 0x38 => g.time2
  | 0x40 => g.aonStat
  | _ => 0

/-- Clock gating, clocks, frequency counter (R203 to R217). -/
def readClocks (s : State) (b o : Nat) : Word :=
  let c := s.clk
  match b, o with
  | 1, 0 => c.ckg0
  | 1, 4 => c.ckg1
  | 1, 8 => s.ckgStatRead
  | 2, 0 => c.ctl
  | 2, 4 => (c.settled s.time.mono).stat
  | 2, 8 => c.fs
  | 3, 0 => c.fctl
  | 3, 4 => c.fstat
  | 3, 8 => c.fmlo
  | 3, 0xC => c.frlo
  | 3, 0x10 => c.fhi
  | _, _ => 0

/-- Source Drive Chain (R66 to R69). -/
def readSdc (c : Sdc) (o : Nat) : Word :=
  if o = 0 then c.ctl
  else if o = 4 then c.stat
  else if 0x100 ≤ o ∧ o < 0x200 then wordAt c.raw ((o - 0x100) / 4)
  else if 0x200 ≤ o ∧ o < 0x400 then wordAt c.ovr ((o - 0x200) / 4)
  else 0

/-- AXC1 (R309 to R314). -/
def readAxc1 (a : Axc1) (o : Nat) : Word :=
  if o = 0 then a.ctl
  else if o = 4 then a.stat
  else if o = 0xC then a.urgRes
  else if 0x100 ≤ o ∧ o < 0x180 then wordAt a.seq ((o - 0x100) / 4)
  else if 0x180 ≤ o ∧ o < 0x200 then wordAt a.lim ((o - 0x180) / 4)
  else if 0x200 ≤ o ∧ o < 0x280 then wordAt a.res ((o - 0x200) / 4)
  else 0

/-- A receive lane (R79, R80, R87, R88). -/
def readLane (l : Lane) (o : Nat) : Word := match o with | 0 => l.ctl | 4 => l.stat | 8 => l.trim | 0xC => l.qsk | _ => 0
/-- Lane calibration of a port (R100 to R103). -/
def readCal (q : Port) (o : Nat) : Word := match o with | 0 => q.rxcCtl | 4 => q.rxcWin | 8 => q.rxcStat | 0xC => q.rxcKap | _ => 0
/-- A port (R140 to R144). -/
def readPort (q : Port) (o : Nat) : Word :=
  match o with | 0 => q.stat | 4 => q.even | 8 => q.endR | 0xC => q.refR | 0x10 => q.brk | _ => 0
/-- A Vat engine (R350 to R352). -/
def readEngine (e : Engine) (o : Nat) : Word :=
  match o with | 0 => e.ctl | 4 => e.stat | 8 => e.fpc | 0xC => e.fop | 0x10 => e.lastOp | 0x14 => e.peakOp | _ => 0
/-- A Press lane (R407 to R409). -/
def readPress (l : PressLane) (o : Nat) : Word :=
  match o with | 0 => l.ctl | 4 => l.stat | 8 => l.inR | 0xC => l.outR | 0x10 => l.rawCnt | _ => 0
/-- The Ladle (R378 to R380). -/
def readLadle (l : Ladle) (o : Nat) : Word :=
  if o = 0 then l.stat else if o = 4 then l.aged else if 0x100 ≤ o then wordAt l.wear ((o - 0x100) / 4) else 0
/-- The Rind mirrors (R278). -/
def readMirror (r : RindMain) (o : Nat) : Word :=
  match o with
  | 0x00 => r.stat
  | 0x04 => r.audCnt
  | 0x08 => r.ackCnt
  | 0x0C => r.refused
  | 0x10 => r.paramId
  | 0x14 => r.swVer
  | 0x18 => r.swDig0
  | 0x1C => r.swDig1
  | 0x20 => r.mbx
  | 0x24 => r.sealCnt
  | _ => 0

/-- EV_CFGn (R493). -/
def EvCfg.word (c : EvCfg) : Word :=
  BitVec.ofNat 32 (c.vector.toNat + 256 * b01 c.msix + 512 * b01 c.packet + 65536 * c.count.toNat)
/-- The event block (R493). -/
def readEvents (e : Events) (o : Nat) : Word :=
  if o < 0x20 then word256 e.pend (o / 4)
  else if o < 0x40 then word256 e.en ((o - 0x20) / 4)
  else if 0x400 ≤ o ∧ o < 0x800 then (match ix 256 ((o - 0x400) / 4) with | some n => e.cfg[n].word | none => 0)
  else 0

/-- A command ring pair (R506). -/
def readCr (r : CmdRing) (o : Nat) : Word :=
  match o with
  | 0x08 => r.rbaseLo
  | 0x0C => r.rbaseHi
  | 0x10 => r.rsize
  | 0x14 => r.rhead
  | 0x18 => r.rtail
  | 0x1C => r.stat
  | 0x20 => r.ctl
  | _ => 0
/-- A stream ring (R506). -/
def readSr (r : StreamRing) (o : Nat) : Word :=
  match o with | 0 => r.baseLo | 4 => r.baseHi | 8 => r.size | 0xC => r.head | 0x10 => r.tail | 0x14 => r.ctl | _ => 0
/-- An Ethernet port (R510). -/
def readEth (e : Eth) (o : Nat) : Word :=
  if o = 0 then e.macLo
  else if o = 4 then e.macHi
  else if 0x10 ≤ o ∧ o < 0x20 then wordAt e.ip ((o - 0x10) / 4)
  else if 0x20 ≤ o ∧ o < 0x30 then wordAt e.dst ((o - 0x20) / 4)
  else if 0x30 ≤ o ∧ o < 0x40 then wordAt e.gw ((o - 0x30) / 4)
  else match o with | 0x40 => e.ports | 0x44 => e.link | 0x48 => e.stat | 0x4C => e.rxdrop | _ => 0
/-- Boot, resets and power (R526, R527, R542, R551). -/
def readBoot (b : Boot) (o : Nat) : Word :=
  match o with | 0 => b.rstCause | 8 => b.bootStat | 0xC => b.pwrStat | 0x10 => b.wake0 | 0x14 => b.wake1 | _ => 0

/-- The MSI-X table and pending-bit array (R498). -/
def readMsix (l : Links) (b o : Nat) : Word :=
  if b = 0x50 then (match ix 256 (o / 16) with | some n => wordAt l.msixTable[n] (o % 16 / 4) | none => 0)
  else if o < 32 then word256 l.pba (o / 4) else 0

/-- Whether the window is served: the main partition is out of reset and B02 has passed (R533). -/
def State.windowOpen (s : State) : Bool := !s.boot.inReset && decide (2 < fld s.glb.stat 0 5)

/-- The word at an aligned offset, as an agent reads it: zero where nothing is implemented (R483), while the block is gated (R206), and for
SPI at the MSI-X structures (R479). -/
def State.readReg (s : State) (ag : Agent) (off : Nat) : Word :=
  let b := off / 0x1000
  let o := off % 0x1000
  let clk := fun (i : Nat) (w : Word) => if s.clkOpen i then w else 0
  let isl := fun (p : Nat) (w : Word) => if s.portOpen p then w else 0
  if !s.windowOpen then 0
  else match b with
  | 0x00 => readGlobal s o
  | 0x01 => readClocks s 1 o
  | 0x02 => readClocks s 2 o
  | 0x03 => clk 3 (readClocks s 3 o)
  | 0x04 => wordAt s.clk.pace (o / 4)
  | 0x05 => if o = 0 then s.tiu.ctl else if o = 4 then s.tiu.stat else 0
  | 0x06 => clk 10 (readSdc s.sdc o)
  | 0x08 => clk 4 (readAxc1 s.axc1 o)
  | 0x10 => isl (o / 0x40) (match ix 96 (o / 0x10) with | some n => readLane s.lanes[n] (o % 0x10) | none => 0)
  | 0x11 => isl (o / 0x10) (match ix 24 (o / 0x10) with | some p => readCal s.ports[p] (o % 0x10) | none => 0)
  | 0x12 => match ix 24 (o / 0x20) with | some p => readPort s.ports[p] (o % 0x20) | none => 0
  | 0x13 => match ix 26 (o / 4) with | some n => s.pipes[n].src | none => 0
  | 0x20 => match ix 32 (o / 0x20) with | some n => readEngine s.engines[n] (o % 0x20) | none => 0
  | 0x21 => match ix 26 (o / 0x20) with | some n => readPress s.press[n] (o % 0x20) | none => 0
  | 0x22 => readLadle s.ladle o
  | 0x30 => readMirror s.rindMain o
  | 0x40 => readEvents s.ev o
  | 0x50 => if ag = .spi then 0 else readMsix s.links 0x50 o
  | 0x51 => if ag = .spi then 0 else readMsix s.links 0x51 o
  | 0x90 => match ix 4 (o / 0x40) with | some n => readCr s.links.cr[n] (o % 0x40) | none => 0
  | 0xA0 => match ix 64 (o / 0x40) with | some n => readSr s.links.sr[n] (o % 0x40) | none => 0
  | 0xB0 => clk 5 (readEth s.links.eth[(0 : Fin 2)] o)
  | 0xB8 => clk 6 (readEth s.links.eth[(1 : Fin 2)] o)
  | 0x100 => readBoot s.boot o
  | _ => 0

/-! ### Events and MSI-X (R493 to R498) -/

/-- A pending bit clears. -/
def State.clearPend (s : State) (n : Nat) : State :=
  { s with ev := { s.ev with
      pend := s.ev.pend &&& ~~~(1#256 <<< n)
      clearAt := s.ev.clearAt.filter fun x => x.1 != n } }

/-- A write of EV_PENDk, with the occurrences of the same instant: each of those prevails over its clear (R497). -/
def evPendClear (k : Fin 8) (v occ : Word) (s : State) : State :=
  let bits := fun (w : Word) => (List.range 32).filter fun j => bit w j
  let s1 := (bits v).foldl (fun u j => u.clearPend (32 * k.val + j)) s
  (bits occ).foldl (fun u j => u.raiseN (32 * k.val + j)) s1

/-- The MSI-X message of a pending event whose route has just opened (R495). -/
def State.lateMsix (s : State) (n : EvIx) : State :=
  if s.ev.pend.getLsbD n.val && s.ev.en.getLsbD n.val && s.ev.cfg[n].msix then s.msix s.ev.cfg[n].vector else s

/-- A write of EV_ENk or EV_CFGn: a route that opens over a pending event requests its message; an MSIX that goes to 0 over one has the bit clear
itself 10 µs later (R495, R496). -/
def evRouteWrite (r : EvReg) (v : Word) (s : State) : State :=
  match r with
  | .en k =>
    let old := word256 s.ev.en k.val
    let s1 : State := { s with ev := { s.ev with
      en := (s.ev.en &&& ~~~(0xFFFFFFFF#256 <<< (32 * k.val))) ||| (v.setWidth 256 <<< (32 * k.val)) } }
    ((List.range 32).filter fun j => bit v j && !(bit old j)).foldl (fun u j => match ix 256 (32 * k.val + j) with
      | some n => u.lateMsix n
      | none => u) s1
  | .cfg n =>
    let c := s.ev.cfg[n]
    let on := bit v 8
    let later := s.ev.clearAt.filter fun x => x.1 != n.val
    let s1 : State := { s with ev := { s.ev with
      cfg := s.ev.cfg.set n { c with vector := BitVec.ofNat 8 (fld v 0 8), msix := on, packet := bit v 9 }
      clearAt := if on then later
        else if c.msix && s.ev.pend.getLsbD n.val then later ++ [(n.val, s.time.mono + 10 * us)] else s.ev.clearAt } }
    if on && !c.msix then s1.lateMsix n else s1

/-- A pending bit that was set with MSIX 0 clears itself (R496); an occurrence of the same instant prevails (R497). -/
def pendingSelfClear (e : EvIx) (occ : Bool) (s : State) : State :=
  match assoc s.ev.clearAt e.val with
  | none => if occ then s.raise e else s
  | some t =>
    let s1 := (s.until t).clearPend e.val
    if occ then s1.raise e else s1

/-- MSI-X Enable is set: one message for each vector with an event pending, enabled and routed to it (R498). -/
def msixEnable (s : State) : State :=
  if s.links.msixEnable then s
  else
    let s1 := s.modLinks fun l => { l with msixEnable := true }
    let vs := ((List.finRange 256).filter fun n => s.ev.pend.getLsbD n.val && s.ev.en.getLsbD n.val && s.ev.cfg[n].msix).map fun n =>
      s.ev.cfg[n].vector
    vs.eraseDups.foldl (fun u v => u.msix v) s1

/-- A write of the MSI-X table: unmasking a vector whose pending bit is set sends its message (R498). -/
def writeMsix (o : Nat) (v : Word) (s : State) : State :=
  match ix 256 (o / 16), ix 4 (o % 16 / 4) with
  | some n, some i =>
    let s1 := s.modLinks fun l => { l with msixTable := l.msixTable.set n (l.msixTable[n].set i (if i.val = 3 then v &&& 1 else v)) }
    let vec := BitVec.ofNat 8 n.val
    if s1.links.pba.getLsbD n.val && !(s1.links.masked vec) && s1.links.msixEnable && s1.links.pcieUp then
      (s1.modLinks fun l => { l with pba := l.pba &&& ~~~(1#256 <<< n.val) }).emit (.msix n.val)
    else s1
  | _, _ => s

/-- EV_PEND_CLEAR (R497). -/
def execEvPendClear (k : Fin 8) (v : Word) (occ : Word) (s : State) : Host.Outcome State Fault Refusal := .next (s.written (evPendClear k v occ))
/-- EV_ROUTE_WRITE (R495). -/
def execEvRouteWrite (r : EvReg) (v : Word) (s : State) : Host.Outcome State Fault Refusal := .next (s.written (evRouteWrite r v))
/-- MSIX_ENABLE (R498). -/
def execMsixEnable (s : State) : Host.Outcome State Fault Refusal := .next (s.written msixEnable)
/-- PENDING_SELF_CLEAR (R496). -/
def execPendingSelfClear (e : EvIx) (occ : Bool) (s : State) : Host.Outcome State Fault Refusal := .next (pendingSelfClear e occ s)

/-! ### Writes (R206, R480 to R485, R490, R491) -/

/-- The device time is captured into GLB_TIME0 to 2: zeros while the device clock is unset (R491). -/
def timeCapture (s : State) : State :=
  let t := if s.time.devSet then stamp96 s.time.dev else 0
  s.modGlb fun g => { g with
    time0 := BitVec.ofNat 32 t, time1 := BitVec.ofNat 32 (t / 2 ^ 32), time2 := BitVec.ofNat 32 (t / 2 ^ 64) }
/-- TIME_CAPTURE (R491). -/
def execTimeCapture (s : State) : Host.Outcome State Fault Refusal := .next (s.written timeCapture)

/-- The global block. -/
def writeGlobal (o : Nat) (v : Word) (s : State) : State :=
  match o with
  | 0x14 => s.modGlb fun g => { g with stat := wrW1C 0x80 g.stat v }
  | 0x20 => s.modGlb fun g => { g with accErr := wrW1C 7 g.accErr v }
  | 0x28 => s.modGlb fun g => { g with scratch := v }
  | 0x2C => if bit v 0 then timeCapture s else s
  | _ => s

/-- The Source Drive Chain. -/
def writeSdc (o : Nat) (v : Word) (s : State) : State :=
  if o = 0 then writeSdcCtl v s
  else if o = 4 then writeSdcStat v s
  else if 0x100 ≤ o ∧ o < 0x200 then (match ix 64 ((o - 0x100) / 4) with | some n => writeSdcRaw n v s | none => s)
  else if 0x200 ≤ o ∧ o < 0x400 then (match ix 128 ((o - 0x200) / 4) with | some n => writeEmiOvr n v s | none => s)
  else s

/-- AXC1. -/
def writeAxc1 (o : Nat) (v : Word) (s : State) : State :=
  if o = 0 then writeAxc1Ctl v s
  else if o = 4 then writeAxc1Stat v s
  else if o = 8 then writeAxc1Urg v s
  else if 0x100 ≤ o ∧ o < 0x180 then (match ix 32 ((o - 0x100) / 4) with | some n => writeAxc1Seq n v s | none => s)
  else if 0x180 ≤ o ∧ o < 0x200 then (match ix 32 ((o - 0x180) / 4) with | some n => writeAxc1Lim n v s | none => s)
  else s

/-- A receive lane. -/
def writeLane (n : LaneIx) (o : Nat) (v : Word) (s : State) : State :=
  match o with
  | 0 => writeRxlCtl n v s
  | 4 => writeRxlStat n v s
  | 8 => trimWrite n false v s
  | 0xC => trimWrite n true v s
  | _ => s

/-- Lane calibration of a port. -/
def writeCal (p : PortIx) (o : Nat) (v : Word) (s : State) : State :=
  match o with
  | 0 => writeRxcCtl p v s
  | 4 => writeRxcWin p v s
  | 8 => writeRxcStat p v s
  | _ => s

/-- A port (R140, R141). -/
def writePort (p : PortIx) (o : Nat) (v : Word) (s : State) : State :=
  match o with
  | 0 => s.modPort p fun q => { q with stat := wrW1C 0x6D q.stat v }
  | 4 => s.modPort p fun q => { q with even := wrRW 0x78 q.even v }
  | _ => s

/-- A Vat engine. -/
def writeEngine (n : EngIx) (o : Nat) (v : Word) (s : State) : State :=
  match o with
  | 0 => writeVatCtl n v s
  | 4 => s.modEng n fun e => { e with stat := wrW1C 0x38 e.stat v }
  | _ => s

/-- A Press lane. -/
def writePress (n : PressIx) (o : Nat) (v : Word) (s : State) : State :=
  match o with
  | 0 => writePressCtl n v s
  | 4 => s.modPress n fun l => { l with stat := wrW1C 0xF8 l.stat v }
  | _ => s

/-- The event block. -/
def writeEvents (o : Nat) (v : Word) (s : State) : State :=
  if o < 0x20 then (match ix 8 (o / 4) with | some k => evPendClear k v 0 s | none => s)
  else if o < 0x40 then (match ix 8 ((o - 0x20) / 4) with | some k => evRouteWrite (.en k) v s | none => s)
  else if 0x400 ≤ o ∧ o < 0x800 then (match ix 256 ((o - 0x400) / 4) with | some n => evRouteWrite (.cfg n) v s | none => s)
  else s

/-- Boot, resets and power: RST_CAUSE, RST_CTL, PWR_WAKE. -/
def writeBoot (o : Nat) (v : Word) (s : State) : State :=
  match o with
  | 0 => s.modBoot fun b => { b with rstCause := wrW1C 0x3F b.rstCause v }
  | 4 => if fld v 0 8 = 0xA5 then enterReset 2 s else s
  | 0x10 => s.modBoot fun b => { b with wake0 := v }
  | 0x14 => s.modBoot fun b => { b with wake1 := wrRW 0xFFFF b.wake1 v }
  | _ => s

/-- A 32-bit write at an aligned offset. -/
def writeReg (ag : Agent) (off : Nat) (v : Word) (s : State) : State :=
  let b := off / 0x1000
  let o := off % 0x1000
  if !s.windowOpen then s
  else match b with
  | 0x00 => writeGlobal o v s
  | 0x01 => match o with | 0 => writeCkg .en0 v s | 4 => writeCkg .en1 v s | 8 => writeCkgStat v s | _ => s
  | 0x02 => match o with | 0 => writeClkCtl v s | 4 => writeClkStat v s | _ => s
  | 0x03 => s.writtenClk 3 fun u => match o with | 0 => writeFcntCtl v u | 4 => writeFcntStat v u | _ => u
  | 0x04 => match ix 96 (o / 4) with | some n => writePace n v s | none => s
  | 0x05 => match o with | 0 => writeTiuCtl v s | 4 => writeTiuStat v s | _ => s
  | 0x06 => s.writtenClk 10 (writeSdc o v)
  | 0x08 => s.writtenClk 4 (writeAxc1 o v)
  | 0x10 => match ix 96 (o / 0x10) with | some n => s.writtenPort (n.val / 4) (writeLane n (o % 0x10) v) | none => s
  | 0x11 => match ix 24 (o / 0x10) with | some p => s.writtenPort p.val (writeCal p (o % 0x10) v) | none => s
  | 0x12 => match ix 24 (o / 0x20) with | some p => writePort p (o % 0x20) v s | none => s
  | 0x20 => match ix 32 (o / 0x20) with | some n => writeEngine n (o % 0x20) v s | none => s
  | 0x21 => match ix 26 (o / 0x20) with | some n => writePress n (o % 0x20) v s | none => s
  | 0x22 => if o = 0 then s.modLadle fun l => { l with stat := wrW1C 0x7C l.stat v } else s
  | 0x40 => writeEvents o v s
  | 0x50 => if ag = .spi then s else writeMsix o v s
  | 0x90 => match ix 4 (o / 0x40) with
    | some n => if o % 0x40 = 0 then crDoorbell n v [] s else (writeCr n (o % 0x40) v s).pump
    | none => s
  | 0xA0 => match ix 64 (o / 0x40) with | some n => writeSr n (o % 0x40) v s | none => s
  | 0xB0 => s.writtenClk 5 (writeEth 0 o v)
  | 0xB8 => s.writtenClk 6 (writeEth 1 o v)
  | 0x100 => writeBoot o v s
  | _ => s

/-- An access error: its ACC_ERR bit, the agent, ERR_CNT and ACC_ADDR (R485). -/
def State.accError (s : State) (ag : Agent) (off i : Nat) : State :=
  s.modGlb fun g => { g with
    accErr := bumpFld (putBit (setBit g.accErr i) 3 (ag == .spi)) 16 16, accAddr := BitVec.ofNat 32 (off % 2 ^ 24) }

/-- How an access of up to 8 bytes is treated as a write (R480): `none` applies it, else the ACC_ERR bit: 0 UNALIGNED, 1 NARROW, 2 WIDE. -/
def writeFault (off : Nat) (enables : BitVec 8) : Option Nat :=
  let on := (List.range 8).filter fun i => enables.getLsbD i
  match on with
  | [] => some 2
  | f :: _ =>
    let n := on.length
    let a := off + f
    if on ≠ (List.range n).map (f + ·) then some 1
    else if n = 4 ∨ n = 8 then (if a % n = 0 then none else some 0)
    else if n = 1 ∨ n = 2 then (if a % n = 0 then some 1 else some 0)
    else if a / 8 = (a + n - 1) / 8 then some 1 else some 0

/-- A write through the window (R480 to R484). Byte i of `data` goes to offset `off` + i where its enable is set; no enable set stands for a
request longer than 8 bytes. An access in flight when the PCIe island is reset is lost (R529). -/
def registerWrite (ag : Agent) (off : BitVec 24) (enables : BitVec 8) (data : BitVec 64) (s : State) : State :=
  if !s.windowOpen || (ag == .pcie && s.links.inReset .pcie) then s
  else match writeFault off.toNat enables with
  | some i => s.accError ag off.toNat i
  | none =>
    let f := ((List.range 8).find? fun i => enables.getLsbD i).getD 0
    let a := off.toNat + f
    let lo := BitVec.ofNat 32 (data.toNat / 2 ^ (8 * f))
    let s1 := writeReg ag a lo s
    if enables = 0xFF then writeReg ag (a + 4) (BitVec.ofNat 32 (data.toNat / 2 ^ 32)) s1 else s1
/-- REGISTER_WRITE (R480). -/
def execRegisterWrite (ag : Agent) (off : BitVec 24) (enables : BitVec 8) (data : BitVec 64) (s : State) : Host.Outcome State Fault Refusal :=
  .next (registerWrite ag off enables data s)

/-! ### SPI frames (R517) -/

/-- Offset of the `k`-th word of a frame, within the 16 MiB of the window. -/
def spiOff (addr : BitVec 24) (k : Nat) : Nat := (addr.toNat + 4 * k) % 2 ^ 24

/-- An SPI frame: words read or written one by one at ascending addresses, each judged on its own (R480); a packet submitted; one that is
malformed raises EV246 (R521). -/
def spiFrame (f : SpiFrame) (s : State) : State :=
  match f with
  | .read addr n =>
    let bad := addr.toNat % 4 ≠ 0
    let words := (List.range n).map fun k => if bad then 0 else s.readReg .spi (spiOff addr k)
    let s1 := if bad && s.windowOpen then (List.range n).foldl (fun u k => u.accError .spi (spiOff addr k) 0) s else s
    s1.emit (.spiData words)
  | .write addr ws => ws.zipIdx.foldl (fun u w => registerWrite .spi (BitVec.ofNat 24 (spiOff addr w.2)) 0x0F (w.1.setWidth 64) u) s
  | .packet bs => arriveBytes .spi bs true s
  | .malformed => if s.boot.inReset then s else s.raise 246
/-- SPI_FRAME (R517). -/
def execSpiFrame (f : SpiFrame) (s : State) : Host.Outcome State Fault Refusal := .next (s.written (spiFrame f))

/-! ### Mirrors (R278, R486 to R488) -/

/-- Fields of RIND_STAT as the Rind holds them (R278). -/
def Rind.statWord (r : Rind) (variantM : Bool) : Word :=
  BitVec.ofNat 32 (r.sealSt.code + 4 * b01 variantM + 8 * b01 r.halted + 16 * b01 r.inhibit + 32 * b01 (decide (3840 ≤ r.unexported)) +
    64 * b01 (decide (4096 ≤ r.unexported)) + 128 * b01 (decide (3 * 3145728 < r.buffered)) + 256 * (r.step % 32) + 8192)

/-- AON_STAT as the island holds it (R490). -/
def Aon.statWord (a : Aon) : Word := BitVec.ofNat 32 (b01 a.tamp0 + 2 * b01 a.tamp1 + 4 * b01 a.sealBrk + 8 * b01 a.vbatLow)

/-- The mirrors take the Rind's snapshot. -/
def RindMain.take (q : RindMain) (r : Rind) (variantM : Bool) : RindMain :=
  { q with
    stat := r.statWord variantM, audCnt := r.auditCnt, ackCnt := r.ackCnt, refused := r.refused, paramId := r.paramId
    swVer := r.swVer.setWidth 32, swDig0 := BitVec.ofNat 32 r.swDig.toNat, swDig1 := BitVec.ofNat 32 (r.swDig.toNat / 2 ^ 32)
    mbx := BitVec.ofNat 32 (r.lastTag.toNat + 65536 * r.lastStatus.toNat) }

/-- A refresh: every mirror copied, the Rind's only when its snapshot arrived, and MEPOCH advanced (R486). -/
def State.refresh (s : State) (snapshot : Bool) : State :=
  if s.boot.inReset then s
  else
    let s1 := s.modRm fun q => { q with sealCnt := s.aon.sealCnt.setWidth 32 }
    let s2 := if snapshot && s.rind.powered then s1.modRm fun q => q.take s.rind s.glb.variantM else s1
    s2.modGlb fun g => { g with aonStat := s.aon.statWord, mepoch := g.mepoch + 1, lastRefresh := s.time.mono }

/-- A refresh at a rising edge of CK_SLOW, 30.52 µs after the last one (R486). -/
def mirrorRefresh (snapshot : Bool) (s : State) : State :=
  let s1 := s.until (s.glb.lastRefresh + 3052 * us / 100)
  (s1.refresh snapshot).modGlb fun g => { g with
    lastSlow := s1.time.mono, slowBack := if bit g.stat 6 && g.slowBack.isNone then some s1.time.mono else g.slowBack }
/-- MIRROR_REFRESH (R486). -/
def execMirrorRefresh (snapshot : Bool) (s : State) : Host.Outcome State Fault Refusal := .next (mirrorRefresh snapshot s)

/-- A substitute refresh, 30.6 µs after the last edge's refresh, then every 30.52 µs (R488). The Rind still sends its snapshots (R278). -/
def substituteRefresh (s : State) : State :=
  let wait := if s.glb.lastRefresh ≤ s.glb.lastSlow then 306 * us / 10 else 3052 * us / 100
  ((s.until (s.glb.lastRefresh + wait)).refresh true).modGlb fun g => { g with slowBack := none }
/-- SUBSTITUTE_REFRESH (R488). -/
def execSubstituteRefresh (s : State) : Host.Outcome State Fault Refusal := .next (substituteRefresh s)

/-- No CK_SLOW edge for 100 µs: SLOW_FAIL, a fault-log entry and EV248 (R488). -/
def slowFail (s : State) : State :=
  if s.boot.inReset || bit s.glb.stat 6 then s
  else
    let s1 := s.until (s.glb.lastSlow + 100 * us)
    (s1.modGlb fun g => { g with stat := setBit g.stat 6, slowBack := none }).faultLog 1 248 0xFFFF 0
/-- SLOW_FAIL (R488). -/
def execSlowFail (s : State) : Host.Outcome State Fault Refusal := .next (slowFail s)

/-- SLOW_FAIL clears 1 s after CK_SLOW returned (R488). -/
def slowFailClear (s : State) : State :=
  match s.glb.slowBack with
  | none => s
  | some t =>
    let s1 := s.until (t + sec)
    s1.modGlb fun g => { g with stat := clrBit g.stat 6, slowBack := none }
/-- SLOW_FAIL_CLEAR (R488). -/
def execSlowFailClear (s : State) : Host.Outcome State Fault Refusal := .next (slowFailClear s)

/-- No snapshot for 100 µs: the Rind's mirrors read zero, PRESENT included; RIND_SEALCNT stays (R278). -/
def rindSnapshotLoss (s : State) : State :=
  if s.boot.inReset then s
  else (s.elapse (100 * us)).modRm fun q => { q with
    stat := 0, audCnt := 0, ackCnt := 0, refused := 0, paramId := 0, swVer := 0, swDig0 := 0, swDig1 := 0, mbx := 0 }
/-- RIND_SNAPSHOT_LOSS (R278). -/
def execRindSnapshotLoss (s : State) : Host.Outcome State Fault Refusal := .next (rindSnapshotLoss s)

end Sys2Proof.Machine
end

