-- ==== Sys2Proof/Machine/Boot.lean ====
section
/-! DEFINITION. Start-up (R530 to R542): the boot steps, their records and what each leaves; the resets of R525 that start it; supplies, the
always-on island, wake-up and boundary scan. -/

namespace Sys2Proof.Machine

/-! ### The boot record (R538, R539) -/

/-- The current boot record changed. -/
def State.modRec (s : State) (f : BootRec → BootRec) : State :=
  s.modBoot fun b => { b with journal := match b.journal with | r :: rs => f r :: rs | [] => [] }

/-- A step's OUTCOME, REASON and DETAIL written, with the bits of BOOT_STAT that an outcome sets (R542). -/
def State.stepDone (s : State) (n outcome reason detail : Nat) : State :=
  let s1 := s.modRec fun r => { r with outcomes := r.outcomes.set n (outcome, reason, detail) }
  s1.modBoot fun b => { b with bootStat := match outcome with
    | 2 => setBit b.bootStat 1
    | 3 => setBit b.bootStat 2
    | 4 => setBit b.bootStat 3
    | _ => b.bootStat }

/-- BOOT_STEP of GLB_STAT. -/
def State.atStep (s : State) (n : Nat) : State :=
  (s.modGlb fun g => { g with stat := setFld g.stat 0 5 n }).modRec fun r => { r with lastStep := n }

/-- Whether a step is mandatory (R530). -/
def mandatoryStep (n : Nat) : Bool := n == 2 || n == 4 || n == 6
/-- Whether a step has an alternative (R530). -/
def hasAlternative (n : Nat) : Bool := n == 2 || n == 4 || n == 5 || n == 14

/-- What the previous records make the Supervisor do before a step (R531). -/
inductive StepPlan where
  | run
  | alt
  | skip
  | halt
deriving DecidableEq, Repr

/-- The plan for step `n` from the records of the previous starts, newest first (R531). -/
def stepPlan (prev : List BootRec) (n : Nat) : StepPlan :=
  let outs := (prev.take 3).map fun r => (r.outcomes.getD n (0, 0, 0)).1
  if outs.length = 3 && outs.all (fun o => o == 5 || o == 6) then (if mandatoryStep n then .halt else .skip)
  else match outs.headD 0 with
    | 5 => if hasAlternative n then .alt else .run
    | 6 => if mandatoryStep n then .alt else .skip
    | _ => .run

/-- A step's limit (R530). -/
def stepLimit (n : Nat) : Time :=
  match n with
  | 0 => 10 * ms | 1 => 3 * sec | 2 => 500 * ms | 3 => 200 * ms | 4 => 400 * ms | 5 => 800 * ms | 6 => 100 * ms | 7 => 300 * ms
  | 8 => 100 * ms | 9 => 100 * ms | 10 => 100 * ms | 11 => 10 * ms | 12 => 200 * ms | 13 => 50 * ms | 14 => sec | _ => 0

/-- What a step came to: outcome, reason, detail, the state, and whether the start halts there. -/
structure StepOut where
  outcome : Nat
  reason : Nat
  detail : Nat
  s : State
  halt : Bool

/-- A step passed, with its alternative or not. -/
def passed (pl : StepPlan) (n : Nat) (s : State) : StepOut :=
  { outcome := if pl = .alt && hasAlternative n then 2 else 1, reason := 0, detail := 0, s := s, halt := false }
/-- A step passed whose own action had failed. -/
def passedAlt (r : StepResult) (s : State) : StepOut := { outcome := 2, reason := r.reason, detail := r.detail, s := s, halt := false }
/-- A step ended REDUCED. -/
def reduced (reason detail : Nat) (s : State) : StepOut := { outcome := 3, reason := reason, detail := detail, s := s, halt := false }
/-- A step failed. -/
def failed (halt : Bool) (reason detail : Nat) (s : State) : StepOut := { outcome := 5, reason := reason, detail := detail, s := s, halt := halt }

/-! ### B00 to B06 -/

/-- B00: an island that was reset sets AON_LOST; the Rind records the unknown count (R550). -/
def bootB00 (r : StepResult) (pl : StepPlan) (s : State) : StepOut :=
  if s.aon.lost then
    let s1 := (s.modBoot fun b => { b with rstCause := setBit b.rstCause 6 }).modAon fun a => { a with lost := false, untold := true }
    failed false (if r.reason = 0 then 2 else r.reason) r.detail (if s1.rind.powered then s1.tellTamper else s1)
  else if r.reason = 0 then passed pl 0 s
  else failed false r.reason r.detail (s.modBoot fun b => { b with rstCause := setBit b.rstCause 6 })

/-- B01: the Rind's report (R265). -/
def bootB01 (pl : StepPlan) (s : State) : StepOut :=
  match s.boot.thermalB01 with
  | 0 => passed pl 1 s
  | 1 => failed false 2 0 s
  | _ => failed false 1 0 s

/-- SEC_VER of an image header (R535). -/
def slotSecVer (f : FlashSlot) : Nat := rd f.bytes 4 2
/-- FW_VER of an image header. -/
def slotFwVer (f : FlashSlot) : Nat := rd f.bytes 8 4
/-- BODY_LEN of an image header. -/
def slotBodyLen (f : FlashSlot) : Nat := rd f.bytes 12 4

/-- Whether a slot passes B02 (R535, R536): a good key, a good signature, the body's digest, and a SEC_VER not below the rollback floor. A body that its
slot does not hold whole has no digest. -/
def slotPasses (f : FlashSlot) (floor : Nat) : Bool :=
  decide (rd f.bytes 3 1 ≤ 3) && f.keyIntact && f.signed && decide (slotBodyLen f ≤ 127 * 2 ^ 20 - 256) &&
    decide (256 + slotBodyLen f ≤ f.bytes.length) && sha256 (cut f.bytes 256 (slotBodyLen f)) == cut f.bytes 16 32 && decide (floor ≤ slotSecVer f)

/-- A slot of the flash; one that is not given is empty. -/
def slotOf (b : BootEnv) (n : Nat) : FlashSlot := b.slots.getD n { bytes := [], keyIntact := false, signed := false }

/-- The slot that passed B02 last, by the records of the previous starts, newest first. -/
def lastPassed (prev : List BootRec) : Option Nat :=
  (prev.find? fun r => ([1, 2, 3] : List Nat).contains (r.outcomes.getD 2 (0, 0, 0)).1 && decide (r.fwSlot.toNat ≤ 1)).map fun r => r.fwSlot.toNat

/-- The order in which B02 tries the slots (R534): the higher SEC_VER, then the higher FW_VER, then slot A; with its alternative, the slot that passed last
goes first (R530). -/
def slotOrder (b : BootEnv) (prev : List BootRec) (pl : StepPlan) : List Nat :=
  let x := slotOf b 0
  let y := slotOf b 1
  match pl, lastPassed prev with
  | .alt, some n => [n, 1 - n]
  | _, _ => if slotSecVer x < slotSecVer y || (slotSecVer x == slotSecVer y && decide (slotFwVer x < slotFwVer y)) then [1, 0] else [0, 1]

/-- The slot that B02 uses, if any passes. -/
def usedSlot (b : BootEnv) (prev : List BootRec) (pl : StepPlan) (floor : Nat) : Option Nat :=
  (slotOrder b prev pl).find? fun n => slotPasses (slotOf b n) floor

/-- B02: the first slot in order that passes is used, with its FW_VER (R534 to R536). A start whose first slot failed ran with its alternative (log
entry 126, DEDUCED). -/
def bootB02 (b : BootEnv) (prev : List BootRec) (r : StepResult) (pl : StepPlan) (s : State) : StepOut :=
  match usedSlot b prev pl s.boot.rollback with
  | some n =>
    let v := BitVec.ofNat 32 (slotFwVer (slotOf b n))
    let s1 := (s.modGlb fun g => { g with fwver := v }).modBoot fun x => { x with bootStat := putBit x.bootStat 4 (n == 1) }
    let s2 := s1.modRec fun x => { x with fwSlot := BitVec.ofNat 8 n, fwVer := v }
    if (slotOrder b prev pl).head? == some n then { passed pl 2 s2 with detail := r.detail }
    else
      let (f, s3) := s2.fresh
      passedAlt { r with reason := 2 } (s3.elapse (f.toNat % (stepLimit 2 + 1)))
  | none => failed true 2 r.detail s

/-- Units of the retired-unit table show RETIRED from the start; the other engines 0 to 27 are in service (R351, R374, R530). -/
def State.loadRetired (s : State) : State :=
  let t := s.boot.retired
  let s1 := (List.finRange 26).foldl (fun u n => if t.pipes.getLsbD n.val then u.modPipe n fun x => { x with src := setBit x.src 7 } else u) s
  let s2 := s1.forEngs fun n u => u.modEng n fun e => e.setState (if t.engines.getLsbD n.val then 6 else if n.val < 28 then 1 else 0)
  let s3 := (List.finRange 26).foldl (fun u n =>
    if t.press.getLsbD n.val then u.modPress n fun l => { l with stat := setFld l.stat 0 3 5 } else u) s2
  let wear := (Vector.finRange 94).map fun i =>
    let gone := if i.val < 26 then t.pipes.getLsbD i.val else if i.val < 58 then t.engines.getLsbD (i.val - 26)
      else if i.val < 84 then t.press.getLsbD (i.val - 58) else false
    if gone then setFld s3.ladle.wear[i] 17 2 2 else s3.ladle.wear[i]
  (s3.modLadle fun l => { l with wear := wear }).refreshLadle

/-- Whether a start has a record of the non-volatile region: B03 ran, and found it or its backup copy. -/
def nvHas (b : BootEnv) (loaded : Bool) (r : NvRecord) : Bool := loaded && !(b.lost.contains r)

/-- The saved settings that a start has: a lost binning record is missing from its emitter. -/
def savedSettings (b : BootEnv) (loaded : Bool) (s : State) : Settings :=
  if nvHas b loaded .settings then s.boot.saved.filter fun x => !(x.key.kind == .emitter && x.key.code / 256 == 0x1A) || nvHas b loaded (.binning x.key.inst) else []

/-- B03: the non-volatile records (R530). One that fails comes from its backup copy, or else from defaults. -/
def bootB03 (b : BootEnv) (r : StepResult) (pl : StepPlan) (s : State) : StepOut :=
  let s1 := (s.modBoot fun x => { x with
    hostAreaLog := ((savedSettings b true s).getI .device 0 0 0x0216 0 10).toNat, nvBad := b.nvBad
    retired := if nvHas b true .retired then x.retired else Retired.reset }).modLadle fun l => { l with wear := l.wear.map fun w => setBit w 16 }
  if !b.lost.isEmpty then failed false (if r.reason = 0 then 2 else r.reason) r.detail s1
  else if r.reason = 0 then passed pl 3 s1
  else reduced r.reason r.detail s1

/-- B04: the memory stacks that train, one at least; a repair from spare rows or channels raises EV244. -/
def bootB04 (b : BootEnv) (r : StepResult) (pl : StepPlan) (s0 : State) : StepOut :=
  let s := if b.repaired then s0.raise 244 else s0
  if b.stacksUp = 0 then failed true (if r.reason = 0 then 3 else r.reason) r.detail s
  else if b.stacksUp = 1 then
    reduced (if r.reason = 0 then 3 else r.reason) r.detail (s.modBoot fun x => { x with pwrStat := setBit x.pwrStat 3 })
  else if r.reason = 0 then passed pl 4 s
  else passedAlt r s

/-- The saved network settings of an Ethernet port (R510). -/
def Eth.load (e : Eth) (ws : List Word) : Eth :=
  if ws.length < 16 then e
  else
    let four := fun (k : Nat) => Vector.ofFn fun (i : Fin 4) => ws.getD (k + i.val) 0
    { e with
      macLo := ws.getD 0 0, macHi := ws.getD 1 0, ip := four 2, dst := four 6, gw := four 10, ports := ws.getD 14 0, link := ws.getD 15 0 }

/-- B05: network settings from the saved record, then the links that train. -/
def bootB05 (b : BootEnv) (loaded : Bool) (r : StepResult) (pl : StepPlan) (s : State) : StepOut :=
  let ws := if nvHas b loaded .network then s.boot.savedNet else []
  let s1 := (s.modEth 0 fun e => e.load (ws.take 16)).modEth 1 fun e => e.load (ws.drop 16)
  let s2 := pcieLinkChange b.pcie s1
  let s3 := ethPortUpChange 1 (b.ethUp.getD 1 false) (ethPortUpChange 0 (b.ethUp.getD 0 false) s2)
  let s4 := timingPortLinkChange b.tportUp s3
  if r.reason = 0 then passed pl 5 s4
  else if r.alternative then passedAlt r s4
  else if s4.links.pcieUp || b.ethUp.any (fun x => x) || b.tportUp then reduced r.reason r.detail s4
  else failed false r.reason r.detail s4

/-- B06: CK_REF goes to the best source that has qualified (R189), and the loops lock; one that does not leaves its islands gated. RECOVERED qualifies only once
the timing port has held synchronisation for WTR (R189). -/
def bootB06 (b : BootEnv) (r : StepResult) (pl : StepPlan) (s : State) : StepOut :=
  let no := fun n => b.noLock.contains n
  let s0 := ([.recovered, .refin] : List RefSrc).foldl (fun u r =>
    if b.sources.contains r && (r != .recovered || (u.links.tportUp && decide (u.clk.recovSince + u.clk.wtr ≤ u.time.mono))) then
      (u.modClk fun c => c.markSource r true).sourceEvent r else u) s
  let s1 := s0.modClk fun c0 =>
    let c := if c0.wanted = c0.src then c0 else { c0 with stat := setBit (setFld c0.stat 0 2 (srcCode c0.wanted)) 13 }
    let stat := ([5, 6, 7, 8, 9] : List Nat).foldl (fun w n => putBit w n (!(no n))) c.stat
    let g0 := if no 8 then clrBit (clrBit (clrBit c.ckg0 5) 6) 7 else c.ckg0
    { c with
      stat := stat, ckg0 := if no 9 then clrBit g0 4 else g0
      ckgStat := (if no 9 then [4] else []).foldl setBit ((if no 8 then [5, 6, 7] else []).foldl setBit c.ckgStat)
      ckg1 := if no 5 || no 6 then 0 else c.ckg1 }
  if b.noLock.isEmpty then passed pl 6 s1 else reduced (if r.reason = 0 then 3 else r.reason) r.detail s1

/-! ### B07 to B13 -/

/-- B07: the slices and the dark power of every lane as it measures them (R82): the spare in the place of a bad slice, SLICE_DEAD where a lane lacks eight
good ones. -/
def bootB07 (b : BootEnv) (r : StepResult) (pl : StepPlan) (s : State) : StepOut :=
  let s1 : State := { s with lanes := (Vector.finRange 96).map fun n => match b.lanes[n.val]? with
    | some c => (s.lanes[n]).calibrated c
    | none => s.lanes[n] }
  let s2 := (List.finRange 96).foldl (fun u n =>
    let bad := match b.lanes[n.val]? with | some c => c.bad | none => []
    let u1 := if (u.lanes[n]).spare.isNone && !bad.contains 8 then u.laneCause n 2 18 else u
    if (u1.lanes[n]).dead.isEmpty then u1 else u1.laneCause n 3 18) s1
  if (List.finRange 96).all (fun n => (s2.lanes[n]).dead.isEmpty) && r.reason == 0 then passed pl 7 s2
  else reduced (if r.reason = 0 then 2 else r.reason) r.detail s2

/-- A self-test of units: those that fail and are not in the table are retired. -/
def bootUnits (us : List UnitName) (n : Nat) (r : StepResult) (pl : StepPlan) (s : State) : StepOut :=
  let bad := us.filter fun u => !(s.isRetired u)
  let s1 := bad.foldl State.retireUnit s
  if bad.isEmpty then passed pl n s1 else reduced (if r.reason = 0 then 4 else r.reason) r.detail s1

/-- B11: the chain's discovery (R53); without it the chain has failed and every group shuts down. -/
def bootB11 (b : BootEnv) (r : StepResult) (pl : StepPlan) (s : State) : StepOut :=
  let s1 := (s.startDiscovery true).finishDiscovery b.discovery
  if s1.sdc.chainFailed then failed false (if r.reason = 0 then 1 else r.reason) r.detail s1 else passed pl 11 s1

/-- B12: the converters; one that fails, or is in the table, is retired (R224, R226). -/
def bootB12 (b : BootEnv) (r : StepResult) (pl : StepPlan) (s : State) : StepOut :=
  let old := fun (i : Fin 3) => s.boot.retired.verniers.getLsbD i.val
  let cal := fun (i : Fin 3) => b.verniers[i.val]?
  let bad := (List.finRange 3).filter fun i => !(old i) && !((cal i).any vernierOk)
  let s1 := s.modTiu fun t =>
    { t with conv := Vector.ofFn fun i => match cal i, old i with | some c, false => Conv.reset.calibrate c | _, _ => Conv.reset }
  let s2 := (List.finRange 3).foldl (fun u i => if old i then u.modTiu fun t =>
    { (t.release i.val) with stat := setBit (t.release i.val).stat (14 + i.val) } else u) s1
  let s3 := bad.foldl State.retireConv s2
  if bad.isEmpty then passed pl 12 s3 else reduced (if r.reason = 0 then 4 else r.reason) r.detail s3

/-- B13: the device clock from the real-time clock, unless AON_LOST stands. -/
def bootB13 (r : StepResult) (pl : StepPlan) (s : State) : StepOut :=
  let s1 : State := if bit s.boot.rstCause 6 then s else { s with time := { s.time with dev := s.aon.rtc, devSet := true } }
  if r.reason = 0 && !(bit s.boot.rstCause 6) then passed pl 13 s1 else failed false (if r.reason = 0 then 1 else r.reason) r.detail s1

/-! ### B14: the saved configuration (R537) -/

/-- The command that carries a setting. -/
def opOfKey (ss : Settings) (k : SetKey) : Nat :=
  match k.kind with
  | .port => match ([0x0301, 0x0303, 0x0304, 0x0501] : List Nat).find? fun op => kindOf op k.code == some Kind.port with
    | some 0x0501 => if ss.probing k.inst then 0x0501 else 0x0302
    | some op => op
    | none => 0x0302
  | .emitter => 0x0305
  | .zone => 0x0401
  | .pin => 0x0403
  | .stream => 0x040A
  | .trigger => 0x0A01
  | _ => 0x0408

/-- The commands of a saved configuration, in the order in which they are staged. -/
def stagedSaved (ss : Settings) (base : Settings) : List Staged :=
  ([0x0408, 0x040A, 0x0305, 0x0301, 0x0302, 0x0303, 0x0304, 0x0501, 0x0401, 0x0403, 0x0A01] : List Nat).filterMap fun op =>
    let mine := ss.filter fun x => opOfKey ss x.key == op
    if mine.isEmpty then none
    else some {
      seq := 0, opcode := BitVec.ofNat 16 op, updates := mine.map fun x => (x.key, x.val), removes := []
      gens := mine.map fun x => (x.key, base.gen x.key), bytes := 0 }

/-- Commits settings at once, if they stand. -/
def State.bootCommit (s : State) (ss : Settings) : Option State :=
  if ss.isEmpty then some s
  else match s.tryCommit (stagedSaved ss s.settings) none with
    | .ok t => some t.commitNow
    | .error _ => none

/-- Whether a key belongs to a port, its zones or their pins. -/
def portOwns (ss : Settings) (p : Nat) (k : SetKey) : Bool :=
  match k.kind with
  | .port => k.inst == p
  | .zone | .pin => ss.zones.contains k.inst && zonePort ss k.inst == p
  | _ => false

/-- A port's settings without LOOKBACK and its zones' LB_DEPTH. -/
def noLookback (ss : Settings) : Settings :=
  (ss.filter fun x => !(x.key.kind == .zone && x.key.code == 0x1708)).map fun x =>
    if x.key.kind == .port && x.key.code == 0x0201 then { x with val := x.val.map fun v => if v / 8 % 2 = 1 then v - 8 else v } else x

/-- A port's own settings with no probing mode. -/
def noProbing (ss : Settings) : Settings :=
  (ss.filter fun x => x.key.kind == .port).map fun x =>
    if x.key.code == 0x0201 then { x with val := x.val.map fun v => v / 16 * 16 } else x

/-- One port of the saved configuration: whole, without lookback, or without probing. The count goes up unless it stands whole. -/
def bootPort (ss : Settings) (acc : State × Nat) (p : Nat) : State × Nat :=
  let mine := ss.filter fun x => portOwns ss p x.key
  match acc.1.bootCommit mine with
  | some t => (t, acc.2)
  | none => match acc.1.bootCommit (noLookback mine) with
    | some t => (t, acc.2 + 1)
    | none => ((acc.1.bootCommit (noProbing mine)).getD acc.1, acc.2 + 1)

/-- A part of the saved configuration that belongs to no port; refused, it is left out. -/
def bootPart (ss : Settings) (s : State) (own : SetKey → Bool) : State := (s.bootCommit (ss.filter fun x => own x.key)).getD s

/-- B14: the images, then one commit, or port by port in ascending order. -/
def bootB14 (b : BootEnv) (loaded : Bool) (r : StepResult) (pl : StepPlan) (s : State) : StepOut :=
  if pl = .alt then { outcome := 4, reason := 0, detail := 0, s := s, halt := false }
  else
    let imgs := s.boot.savedImages.filter fun i => nvHas b loaded (.image i.id) && imageOk i.bytes
    let saved := savedSettings b loaded s
    let s1 : State := { s with images := imgs }
    let ids := imgs.map (·.id)
    let bad := saved.zones.filter fun z => saved.zone z 0x1705 ≠ 0 && !(ids.contains (saved.zone z 0x1705))
    let ss : Settings := saved.filter fun x => !(x.key.kind == .zone && x.key.code == 0x1705 && bad.contains x.key.inst)
    let t := match s1.bootCommit ss with
      | some t => (t, 0)
      | none =>
        let u := ss.emitters.foldl (fun a e => bootPart ss a fun (k : SetKey) => k.kind == Kind.emitter && k.inst == e)
          (bootPart ss s1 fun (k : SetKey) => k.kind == Kind.device || k.kind == Kind.stream)
        let v := (List.range 24).foldl (bootPort ss) (u, 0)
        ((List.range 16).foldl (fun a n => bootPart ss a fun (k : SetKey) => k.kind == Kind.trigger && k.inst == n) v.1, v.2)
    let n := t.2 + bad.length
    if n = 0 then (if r.reason = 0 then passed pl 14 t.1 else failed false r.reason r.detail t.1) else reduced 5 n (t.1.raise 250)

/-! ### The start -/

/-- A step's action. `loaded`: B03 was not skipped. -/
def bootAction (b : BootEnv) (n : Nat) (loaded : Bool) (r : StepResult) (pl : StepPlan) (s : State) : StepOut :=
  match n with
  | 0 => bootB00 r pl s
  | 1 => bootB01 pl s
  | 2 => bootB02 b s.boot.journal.tail r pl s
  | 3 => bootB03 b r pl s
  | 4 => bootB04 b r pl s
  | 5 => bootB05 b loaded r pl s
  | 6 => bootB06 b r pl s
  | 7 => bootB07 b r pl s
  | 8 => bootUnits ((b.badPipes.filterMap (ix 26)).map .pipeline) 8 r pl s
  | 9 => bootUnits ((b.badEngines.filterMap (ix 32)).map .engine) 9 r pl s
  | 10 => bootUnits ((b.badPress.filterMap (ix 26)).map .press) 10 r pl s
  | 11 => bootB11 b r pl s
  | 12 => bootB12 b r pl s
  | 13 => bootB13 r pl s
  | _ => bootB14 b loaded r pl s

/-- The pool, the capture reserve and the Press windows have their regions from the start (R426), whatever is placed. -/
def State.placeFixed (s : State) : State :=
  if s.ladle.place ≠ Placement.reset then s
  else match placeAll s s.settings s.settings false with
    | .ok pl => s.modLadle fun l => { l with place := pl }
    | .error _ => s

/-- B15: READY, the rollback floor raised, the record closed (R530, R536, R539). -/
def bootB15 (b : BootEnv) (s : State) : State :=
  let s1 := (s.modGlb fun g => { g with stat := setBit (setFld g.stat 0 5 15) 5 }).modBoot fun x => { x with rollback := max x.rollback (slotSecVer (slotOf b (fld x.bootStat 4 1))) }
  ((s1.modRec fun r => { r with result := 1, lastStep := 15, tReady := s1.time.dev }).stepDone 15 1 0 0).placeFixed.refreshLadle

/-- The start halts at its step: HALTED (R532). -/
def State.bootHalt (s : State) : State :=
  (s.modBoot fun b => { b with bootStat := setBit b.bootStat 0 }).modRec fun r => { r with result := 2 }

/-- The steps left to run, from `n` on. Each takes a time within its limit that is not stated (a free value); one that exceeds it stays in
progress. -/
def bootFrom (b : BootEnv) (prev : List BootRec) : List Nat → Bool → State → State
  | [], _, s => bootB15 b s
  | n :: rest, loaded, s =>
    let s0 := if n = 4 then s.loadRetired else s
    let s1 := s0.atStep n
    let r := b.steps.getD n { reason := 0, detail := 0, timedOut := false, alternative := true }
    match stepPlan prev n with
    | .halt => s1.bootHalt
    | .skip => bootFrom b prev rest (loaded && n ≠ 3) (s1.stepDone n 4 0 0)
    | pl =>
      if r.timedOut then s1
      else
        let f := s1.fresh
        let o := bootAction b n loaded r pl (f.2.elapse (f.1.toNat % (stepLimit n + 1)))
        let s2 := o.s.stepDone n o.outcome o.reason o.detail
        if o.halt then s2.bootHalt else bootFrom b prev rest loaded s2

/-- The main partition leaves reset and its start begins: a new boot record, then B00 onwards. -/
def bootUp (b : BootEnv) (s : State) : State :=
  let prev := s.boot.journal
  let r : BootRec := {
    result := 0, bootCnt := s.boot.bootCnt + 1, tStart := if s.aon.lost then 0 else s.aon.rtc
    cause := s.boot.rstCause.extractLsb' 0 8, fwSlot := 0xFF, lastStep := 0, fwVer := 0, outcomes := List.replicate 16 (0, 0, 0), tReady := 0 }
  let s1 := s.modBoot fun x => { x with inReset := false, bootCnt := x.bootCnt + 1, journal := (r :: prev).take 16 }
  bootFrom b prev (List.range 15) true s1

/-! ### The resets of R525 -/

/-- The main rails are in range and PWRGD is high for 10 ms: POR, and WAKE after deep standby (R523, R526, R548). -/
def mainPowerOnReset (b : BootEnv) (s : State) : State :=
  let s1 := mainReset false (s.elapse (10 * ms))
  bootUp b (s1.modBoot fun x => { x with
    railsOff := false, standbyExit := false, rstCause := putBit (setBit x.rstCause 0) 5 s.boot.standbyExit })
/-- MAIN_POWER_ON_RESET (R523). -/
def execMainPowerOnReset (b : BootEnv) (s : State) : Host.Outcome State Fault Refusal := .next (mainPowerOnReset b s)

/-- RST_CAUSE bit of a warm reset (R526). -/
def causeBit : WarmCause → Nat
  | .pin => 1
  | .ctl => 2
  | .watchdog => 3
  | .bootTimeout => 4

/-- A warm reset ends and the start begins (R525). With a main rail out of range the partition stays in power-on reset (R523). -/
def warmReset (w : WarmCause) (b : BootEnv) (s : State) : State :=
  if s.boot.railsOff then s
  else bootUp b (if s.boot.inReset then s.modBoot fun x => { x with rstCause := setBit x.rstCause (causeBit w) } else enterReset (causeBit w) s)
/-- WARM_RESET (R525). -/
def execWarmReset (w : WarmCause) (b : BootEnv) (s : State) : Host.Outcome State Fault Refusal := .next (warmReset w b s)

/-- A boot step exceeds its limit: TIMED_OUT, and a warm reset with BOOT_TO (R530). -/
def bootStepTimeout (s : State) : State :=
  if s.boot.inReset || bit s.glb.stat 5 || bit s.boot.bootStat 0 then s
  else
    let n := fld s.glb.stat 0 5
    enterReset 4 ((s.elapse (stepLimit n)).stepDone n 6 0 0)
/-- BOOT_STEP_TIMEOUT (R530). -/
def execBootStepTimeout (s : State) : Host.Outcome State Fault Refusal := .next (bootStepTimeout s)

/-- PERST_N low or a reset of the PCIe standard: the island, the rings and the MSI-X table (R525); the link goes down, EV232. -/
def pcieFundamentalReset (s : State) : State :=
  if s.boot.inReset then s
  else if s.links.pcieUp then pcieLinkChange { width := 0, rate := 0 } s else s.pcieReset
/-- PCIE_FUNDAMENTAL_RESET (R525). -/
def execPcieFundamentalReset (s : State) : Host.Outcome State Fault Refusal := .next (pcieFundamentalReset s)

/-- The Supervisor resets one island (R525, R528, R529): an Ethernet port or the timing port goes down, and its crossing is reset until it is up again. The
memory interface loses nothing: Cave accesses wait until its loop is in lock. -/
def islandReset (i : Island) (s : State) : State :=
  if s.boot.inReset then s
  else match i with
    | .eth n => ((ethPortUpChange n false s).modEth n fun e => { e with
        stat := clrBit e.stat 2, resolved := none, neighbours := [], pauseQuanta := 0, pauseFail := false, goodSince := none
        unresSince := s.time.mono }).modLinks fun l => l.crossReset (.eth n)
    | .timing => (timingPortLinkChange false s).modLinks fun l => l.crossReset .timing
    | .memory => s.modLinks fun l => if bit s.clk.stat 7 then (l.crossReset .memory).release .memory else l.crossReset .memory
/-- ISLAND_RESET (R525). -/
def execIslandReset (i : Island) (s : State) : Host.Outcome State Fault Refusal := .next (islandReset i s)

/-! ### Supplies and the always-on island (R523 to R525, R546 to R550) -/

/-- VBAT rises through 1.6 V: the island's clock, latches, SEAL_CNT and wake second are reset. -/
def vbatPowerOn (s : State) : State :=
  { s with
    aon := { Aon.reset with sealBrk := s.aon.sealBrk, sealBrkSince := s.aon.sealBrkSince, untold := s.aon.untold }
    boot := { s.boot with wake0 := 0, wake1 := 0 } }
/-- VBAT_POWER_ON (R525). -/
def execVbatPowerOn (s : State) : Host.Outcome State Fault Refusal := .next (vbatPowerOn s)

/-- VBAT falls: while the main rails are off the island loses what it holds; otherwise VDD_IO feeds it (R523). -/
def vbatLoss (s : State) : State :=
  if s.boot.railsOff then s.modAon fun a => { a with rtc := 0, sealCnt := 0, tamp0 := false, tamp1 := false, lost := true } else s
/-- VBAT_LOSS (R525). -/
def execVbatLoss (s : State) : Host.Outcome State Fault Refusal := .next (vbatLoss s)

/-- A main rail leaves its range or PWRGD falls: the main partition is in power-on reset (R523). -/
def mainSupplyLoss (s : State) : State := (mainReset false s).modBoot fun b => { b with railsOff := true }
/-- MAIN_SUPPLY_LOSS (R523). -/
def execMainSupplyLoss (s : State) : Host.Outcome State Fault Refusal := .next (mainSupplyLoss s)

/-- The Rind's rails are removed (R246): it stops; the isolation cells present fixed values, and its mailbox reads empty, so a request
outstanding gets no reply but 0x0602. -/
def rindSupplyLoss (s : State) : State :=
  (s.modRind fun r => { r with
    powered := false, halted := false, phase := .stopped, avg := none, work := [], tpg := false, wire := [], inhibit := true
    slot := [], reply := [], timeWord := none, ackWord := 0, axc0 := Axc0.reset, started := false }).syncScan.modBoot fun b => { b with thermalB01 := 2 }
/-- RIND_SUPPLY_LOSS (R246). -/
def execRindSupplyLoss (s : State) : Host.Outcome State Fault Refusal := .next (rindSupplyLoss s)

/-- WAKE_N low for 1 ms, or the real-time clock at PWR_WAKE, ends deep standby: the island drives both supply enables (R548). -/
def wakeUp (byAlarm : Bool) (s : State) : State :=
  if s.aon.pwrEnMain then s
  else
    let w := fld s.boot.wake1 0 16 * 2 ^ 32 + s.boot.wake0.toNat
    let on := fun (u : State) => (u.modAon fun a => { a with pwrEnMain := true, pwrEnRind := true }).modBoot fun b => { b with standbyExit := true }
    if !byAlarm then on (s.elapse ms)
    else if w = 0 then s
    else on (s.elapse (w * sec - s.aon.rtc))
/-- WAKE (R548). -/
def execWake (byAlarm : Bool) (s : State) : Host.Outcome State Fault Refusal := .next (wakeUp byAlarm s)

/-! ### Boundary scan (R248, R520) -/

/-- What an instruction of the chain does to the pins. -/
def scanDrive : JtagInstr → ScanDrive
  | .extest p | .clamp p => .driven p
  | .highz => .floating
  | .bypass | .sample | .idcode => .functional

/-- An instruction of the chain: IDCODE and SAMPLE shift bits out, the pins' levels being free values; EXTEST, CLAMP and HIGHZ act on the pins, but on no
Rind pin while SEALED or unpowered. -/
def boundaryScan (j : JtagInstr) (s : State) : State :=
  let t := (s.modLinks fun l => { l with scan := j, scanPins := scanDrive j }).syncScan
  match j with
  | .sample => let f := t.fresh; f.2.emit (.scan f.1)
  | .idcode => t.emit (.scan 0x196249CF)
  | _ => t
/-- BOUNDARY_SCAN_INSTRUCTION (R248). -/
def execBoundaryScanInstruction (j : JtagInstr) (s : State) : Host.Outcome State Fault Refusal := .next (boundaryScan j s)

end Sys2Proof.Machine
end

