-- ==== Sys2Proof/Machine/Dispatch.lean ====
section
/-! DEFINITION. One arm per command: a direct call of its meaning, or a refusal by name. -/

namespace Sys2Proof.Machine

/-- The effect of a command on everything but the queue. -/
def exec (i : Instr) (s : State) : Host.Outcome State Fault Refusal :=
  match i with
  | .sessionOpen k => Sys2Proof.Machine.execSessionOpen k s
  | .sessionClose k => Sys2Proof.Machine.execSessionClose k s
  | .sessionPing k => Sys2Proof.Machine.execSessionPing k s
  | .eventSubscribe k => Sys2Proof.Machine.execEventSubscribe k s
  | .identify k => Sys2Proof.Machine.execIdentify k s
  | .unknownOpcode op k => Sys2Proof.Machine.execUnknownOpcode op k s
  | .txnBegin k => Sys2Proof.Machine.execTxnBegin k s
  | .txnCommit k => Sys2Proof.Machine.execTxnCommit k s
  | .txnRollback k => Sys2Proof.Machine.execTxnRollback k s
  | .txnQuery k => Sys2Proof.Machine.execTxnQuery k s
  | .planSet k => Sys2Proof.Machine.execPlanSet k s
  | .modeSet k => Sys2Proof.Machine.execModeSet k s
  | .portSafety k => Sys2Proof.Machine.execPortSafety k s
  | .delaySet k => Sys2Proof.Machine.execDelaySet k s
  | .emitterSet k => Sys2Proof.Machine.execEmitterSet k s
  | .emitterDelete k => Sys2Proof.Machine.execEmitterDelete k s
  | .rearm k => Sys2Proof.Machine.execRearm k s
  | .endRebase k => Sys2Proof.Machine.execEndRebase k s
  | .portQuery k => Sys2Proof.Machine.execPortQuery k s
  | .emitterQuery k => Sys2Proof.Machine.execEmitterQuery k s
  | .zoneSet k => Sys2Proof.Machine.execZoneSet k s
  | .zoneDelete k => Sys2Proof.Machine.execZoneDelete k s
  | .pinSet k => Sys2Proof.Machine.execPinSet k s
  | .placeQuery k => Sys2Proof.Machine.execPlaceQuery k s
  | .rebalance k => Sys2Proof.Machine.execRebalance k s
  | .capacity k => Sys2Proof.Machine.execCapacity k s
  | .retire k => Sys2Proof.Machine.execRetire k s
  | .ladleSet k => Sys2Proof.Machine.execLadleSet k s
  | .syncReset k => Sys2Proof.Machine.execSyncReset k s
  | .streamRoute k => Sys2Proof.Machine.execStreamRoute k s
  | .configSave k => Sys2Proof.Machine.execConfigSave k s
  | .rxcalSet k => Sys2Proof.Machine.execRxcalSet k s
  | .darkFloor k => Sys2Proof.Machine.execDarkFloor k s
  | .rxcalQuery k => Sys2Proof.Machine.execRxcalQuery k s
  | .clockSet k => Sys2Proof.Machine.execClockSet k s
  | .tiuSet k => Sys2Proof.Machine.execTiuSet k s
  | .timeQuery k => Sys2Proof.Machine.execTimeQuery k s
  | .measStart k => Sys2Proof.Machine.execMeasStart k s
  | .measCancel k => Sys2Proof.Machine.execMeasCancel k s
  | .anchor k => Sys2Proof.Machine.execAnchor k s
  | .servoSet k => Sys2Proof.Machine.execServoSet k s
  | .thermalSet k => Sys2Proof.Machine.execThermalSet k s
  | .scheduleSet k => Sys2Proof.Machine.execScheduleSet k s
  | .frontEndSet k => Sys2Proof.Machine.execFrontEndSet k s
  | .rindIdentify k => Sys2Proof.Machine.execRindIdentify k s
  | .rindQuery k => Sys2Proof.Machine.execRindQuery k s
  | .sealSet k => Sys2Proof.Machine.execSealSet k s
  | .sealBreak k => Sys2Proof.Machine.execSealBreak k s
  | .auditRead k => Sys2Proof.Machine.execAuditRead k s
  | .auditAck k => Sys2Proof.Machine.execAuditAck k s
  | .rindFwLoad k => Sys2Proof.Machine.execRindFwLoad k s
  | .calBegin k => Sys2Proof.Machine.execCalBegin k s
  | .calZero k => Sys2Proof.Machine.execCalZero k s
  | .calFull k => Sys2Proof.Machine.execCalFull k s
  | .calApply k => Sys2Proof.Machine.execCalApply k s
  | .calCancel k => Sys2Proof.Machine.execCalCancel k s
  | .axc0Urgent k => Sys2Proof.Machine.execAxc0Urgent k s
  | .imageLoad k => Sys2Proof.Machine.execImageLoad k s
  | .imageDelete k => Sys2Proof.Machine.execImageDelete k s
  | .imageQuery k => Sys2Proof.Machine.execImageQuery k s
  | .jobSubmit k => Sys2Proof.Machine.execJobSubmit k s
  | .jobCancel k => Sys2Proof.Machine.execJobCancel k s
  | .pressQuery k => Sys2Proof.Machine.execPressQuery k s
  | .triggerSet k => Sys2Proof.Machine.execTriggerSet k s
  | .triggerDelete k => Sys2Proof.Machine.execTriggerDelete k s
  | .triggerFire k => Sys2Proof.Machine.execTriggerFire k s
  | .captureRelease k => Sys2Proof.Machine.execCaptureRelease k s
  | .dump k => Sys2Proof.Machine.execDump k s
  | .reanalyse k => Sys2Proof.Machine.execReanalyse k s
  | .captureQuery k => Sys2Proof.Machine.execCaptureQuery k s
  | .sliceTest k => Sys2Proof.Machine.execSliceTest k s
  | .selfTest k => Sys2Proof.Machine.execSelfTest k s
  | .faultLog k => Sys2Proof.Machine.execFaultLog k s
  | .journalRead k => Sys2Proof.Machine.execJournalRead k s
  | .journalClear k => Sys2Proof.Machine.execJournalClear k s
  | .powerSet k => Sys2Proof.Machine.execPowerSet k s
  | .powerQuery k => Sys2Proof.Machine.execPowerQuery k s
  | .commitBoundary p => Sys2Proof.Machine.execCommitBoundary p s
  | .txnTimeout n => Sys2Proof.Machine.execTxnTimeout n s
  | .sessionTimeout n => Sys2Proof.Machine.execSessionTimeout n s
  | .nop e => Sys2Proof.Machine.execNop e s
  | .halt e => Sys2Proof.Machine.execHalt e s
  | .evt e => Sys2Proof.Machine.execEvt e s
  | .clra e => Sys2Proof.Machine.execClra e s
  | .mac e => Sys2Proof.Machine.execMac e s
  | .msu e => Sys2Proof.Machine.execMsu e s
  | .mul e => Sys2Proof.Machine.execMul e s
  | .adda e => Sys2Proof.Machine.execAdda e s
  | .sha e => Sys2Proof.Machine.execSha e s
  | .sta e => Sys2Proof.Machine.execSta e s
  | .stau e => Sys2Proof.Machine.execStau e s
  | .stal e => Sys2Proof.Machine.execStal e s
  | .ld e => Sys2Proof.Machine.execLd e s
  | .ld2 e => Sys2Proof.Machine.execLd2 e s
  | .st e => Sys2Proof.Machine.execSt e s
  | .st2 e => Sys2Proof.Machine.execSt2 e s
  | .ldi e => Sys2Proof.Machine.execLdi e s
  | .mov e => Sys2Proof.Machine.execMov e s
  | .alu e => Sys2Proof.Machine.execAlu e s
  | .alui e => Sys2Proof.Machine.execAlui e s
  | .mmx e => Sys2Proof.Machine.execMmx e s
  | .mmclr e => Sys2Proof.Machine.execMmclr e s
  | .br e => Sys2Proof.Machine.execBr e s
  | .call e => Sys2Proof.Machine.execCall e s
  | .ret e => Sys2Proof.Machine.execRet e s
  | .loop e => Sys2Proof.Machine.execLoop e s
  | .cave e => Sys2Proof.Machine.execCave e s
  | .cwait e => Sys2Proof.Machine.execCwait e s
  | .caveTransferComplete e k => Sys2Proof.Machine.execCaveTransferComplete e k s
  | .waitlim e => Sys2Proof.Machine.execWaitlim e s
  | .invocationStart e => Sys2Proof.Machine.execInvocationStart e s
  | .vatAbort e v => Sys2Proof.Machine.execVatAbort e v s
  | .pressAbort n v => Sys2Proof.Machine.execPressAbort n v s
  | .pressDisable n v => Sys2Proof.Machine.execPressDisable n v s
  | .pressDrainComplete n => Sys2Proof.Machine.execPressDrainComplete n s
  | .sdcEnable v => Sys2Proof.Machine.execSdcEnable v s
  | .sdcDisable v => Sys2Proof.Machine.execSdcDisable v s
  | .ckgEnClear r v => Sys2Proof.Machine.execCkgEnClear r v s
  | .ckgEnSet r v => Sys2Proof.Machine.execCkgEnSet r v s
  | .rstCtlWarm => Sys2Proof.Machine.execRstCtlWarm s
  | .timeCapture => Sys2Proof.Machine.execTimeCapture s
  | .fcntStart v => Sys2Proof.Machine.execFcntStart v s
  | .fcntDone measCnt refCnt => Sys2Proof.Machine.execFcntDone measCnt refCnt s
  | .fcntNoclk => Sys2Proof.Machine.execFcntNoclk s
  | .axc1Enable v => Sys2Proof.Machine.execAxc1Enable v s
  | .axc1Disable v => Sys2Proof.Machine.execAxc1Disable v s
  | .axc1Start v => Sys2Proof.Machine.execAxc1Start v s
  | .axc1UrgentRequest v => Sys2Proof.Machine.execAxc1UrgentRequest v s
  | .axc1EntryComplete m => Sys2Proof.Machine.execAxc1EntryComplete m s
  | .trimWrite n qsk v => Sys2Proof.Machine.execTrimWrite n qsk v s
  | .calModeWrite p v => Sys2Proof.Machine.execCalModeWrite p v s
  | .evPendClear k v occ => Sys2Proof.Machine.execEvPendClear k v occ s
  | .evRouteWrite r v => Sys2Proof.Machine.execEvRouteWrite r v s
  | .crDoorbell n v bytes => Sys2Proof.Machine.execCrDoorbell n v bytes s
  | .crRtailWrite n v => Sys2Proof.Machine.execCrRtailWrite n v s
  | .srTailWrite n v descs => Sys2Proof.Machine.execSrTailWrite n v descs s
  | .registerWrite ag off enables data => Sys2Proof.Machine.execRegisterWrite ag off enables data s
  | .msixEnable => Sys2Proof.Machine.execMsixEnable s
  | .pendingSelfClear e occ => Sys2Proof.Machine.execPendingSelfClear e occ s
  | .groupLaunch p g tap => Sys2Proof.Machine.execGroupLaunch p g tap s
  | .frameBoundary p => Sys2Proof.Machine.execFrameBoundary p s
  | .laneStartupEnd p => Sys2Proof.Machine.execLaneStartupEnd p s
  | .laneOverrange n deep after len => Sys2Proof.Machine.execLaneOverrange n deep after len s
  | .recoveryCountEnd n => Sys2Proof.Machine.execRecoveryCountEnd n s
  | .sliceFailureDetected n slice why => Sys2Proof.Machine.execSliceFailureDetected n slice why s
  | .sliceSwap n spare => Sys2Proof.Machine.execSliceSwap n spare s
  | .calibrationEstimate p w => Sys2Proof.Machine.execCalibrationEstimate p w s
  | .trimWalkStep p => Sys2Proof.Machine.execTrimWalkStep p s
  | .calibrationHoldEnd p w => Sys2Proof.Machine.execCalibrationHoldEnd p w s
  | .darkFrameEnd p powers floor => Sys2Proof.Machine.execDarkFrameEnd p powers floor s
  | .inputBufferFull n => Sys2Proof.Machine.execInputBufferFull n s
  | .inputResume n dropped => Sys2Proof.Machine.execInputResume n dropped s
  | .paceWindowEnd n count margin => Sys2Proof.Machine.execPaceWindowEnd n count margin s
  | .pingProcessed p g d => Sys2Proof.Machine.execPingProcessed p g d s
  | .endDetermination p => Sys2Proof.Machine.execEndDetermination p s
  | .exactOutput z t => Sys2Proof.Machine.execExactOutput z t s
  | .featureIntervalEnd z => Sys2Proof.Machine.execFeatureIntervalEnd z s
  | .delayRecordIntervalEnd p => Sys2Proof.Machine.execDelayRecordIntervalEnd p s
  | .sdcFrameEnd rx => Sys2Proof.Machine.execSdcFrameEnd rx s
  | .sdcDiscoveryStart => Sys2Proof.Machine.execSdcDiscoveryStart s
  | .sdcDiscoveryEnd blocks => Sys2Proof.Machine.execSdcDiscoveryEnd blocks s
  | .sdcDiscoveryRetry => Sys2Proof.Machine.execSdcDiscoveryRetry s
  | .interlockOpen => Sys2Proof.Machine.execInterlockOpen s
  | .interlockClosed => Sys2Proof.Machine.execInterlockClosed s
  | .ckRefSourceLost r => Sys2Proof.Machine.execCkRefSourceLost r s
  | .ckRefSourceQualified r => Sys2Proof.Machine.execCkRefSourceQualified r s
  | .ckRefSwitch => Sys2Proof.Machine.execCkRefSwitch s
  | .ckRefRampComplete => Sys2Proof.Machine.execCkRefRampComplete s
  | .fsRetuneTimeout => Sys2Proof.Machine.execFsRetuneTimeout s
  | .samplingLockLost => Sys2Proof.Machine.execSamplingLockLost s
  | .samplingLockRegained => Sys2Proof.Machine.execSamplingLockRegained s
  | .probeLockLost => Sys2Proof.Machine.execProbeLockLost s
  | .probeLockRegained => Sys2Proof.Machine.execProbeLockRegained s
  | .otherLoopLockLost l => Sys2Proof.Machine.execOtherLoopLockLost l s
  | .otherLoopLockRegained l => Sys2Proof.Machine.execOtherLoopLockRegained l s
  | .memoryLockTimeout => Sys2Proof.Machine.execMemoryLockTimeout s
  | .ref10StateChange o => Sys2Proof.Machine.execRef10StateChange o s
  | .ppsStateChange => Sys2Proof.Machine.execPpsStateChange s
  | .timescaleChange => Sys2Proof.Machine.execTimescaleChange s
  | .converterRotation cal shadow again => Sys2Proof.Machine.execConverterRotation cal shadow again s
  | .measArmEdge t => Sys2Proof.Machine.execMeasArmEdge t s
  | .measWindowOpen => Sys2Proof.Machine.execMeasWindowOpen s
  | .armTimeout => Sys2Proof.Machine.execArmTimeout s
  | .measEdge d => Sys2Proof.Machine.execMeasEdge d s
  | .measGateClose => Sys2Proof.Machine.execMeasGateClose s
  | .anchorPeriodExpiry p => Sys2Proof.Machine.execAnchorPeriodExpiry p s
  | .stepEnd => Sys2Proof.Machine.execStepEnd s
  | .switchStrobes => Sys2Proof.Machine.execSwitchStrobes s
  | .averageStart => Sys2Proof.Machine.execAverageStart s
  | .shot d => Sys2Proof.Machine.execShot d s
  | .averageEnd => Sys2Proof.Machine.execAverageEnd s
  | .profileIssue c => Sys2Proof.Machine.execProfileIssue c s
  | .ramanInhibitAssert => Sys2Proof.Machine.execRamanInhibitAssert s
  | .ramanInhibitRelease => Sys2Proof.Machine.execRamanInhibitRelease s
  | .profile m => Sys2Proof.Machine.execProfile m s
  | .announce m => Sys2Proof.Machine.execAnnounce m s
  | .switched m => Sys2Proof.Machine.execSwitched m s
  | .eventMessage m => Sys2Proof.Machine.execEventMessage m s
  | .audit m => Sys2Proof.Machine.execAudit m s
  | .reading m => Sys2Proof.Machine.execReading m s
  | .rpRetransmit => Sys2Proof.Machine.execRpRetransmit s
  | .ackAfterSilence => Sys2Proof.Machine.execAckAfterSilence s
  | .mailboxRequest => Sys2Proof.Machine.execMailboxRequest s
  | .mailboxTimeout => Sys2Proof.Machine.execMailboxTimeout s
  | .timeWord => Sys2Proof.Machine.execTimeWord s
  | .writeRefusedWindowEnd param => Sys2Proof.Machine.execWriteRefusedWindowEnd param s
  | .tamperActivation w => Sys2Proof.Machine.execTamperActivation w s
  | .rindWatchdog => Sys2Proof.Machine.execRindWatchdog s
  | .rindPowerOn imageOk => Sys2Proof.Machine.execRindPowerOn imageOk s
  | .rindFwLoadComplete => Sys2Proof.Machine.execRindFwLoadComplete s
  | .axc0EntryComplete m => Sys2Proof.Machine.execAxc0EntryComplete m s
  | .wireBreak => Sys2Proof.Machine.execWireBreak s
  | .openProbe broken => Sys2Proof.Machine.execOpenProbe broken s
  | .referenceOutOfWindow => Sys2Proof.Machine.execReferenceOutOfWindow s
  | .referenceSettled => Sys2Proof.Machine.execReferenceSettled s
  | .calibrationIdleTimeout => Sys2Proof.Machine.execCalibrationIdleTimeout s
  | .mirrorRefresh snapshot => Sys2Proof.Machine.execMirrorRefresh snapshot s
  | .substituteRefresh => Sys2Proof.Machine.execSubstituteRefresh s
  | .slowFail => Sys2Proof.Machine.execSlowFail s
  | .slowFailClear => Sys2Proof.Machine.execSlowFailClear s
  | .rindSnapshotLoss => Sys2Proof.Machine.execRindSnapshotLoss s
  | .dailyDrift => Sys2Proof.Machine.execDailyDrift s
  | .dailySpareSelfTest => Sys2Proof.Machine.execDailySpareSelfTest s
  | .unitLost u readable => Sys2Proof.Machine.execUnitLost u readable s
  | .shedReplacement => Sys2Proof.Machine.execShedReplacement s
  | .migrationComplete u comparisonOk => Sys2Proof.Machine.execMigrationComplete u comparisonOk s
  | .workItemAged => Sys2Proof.Machine.execWorkItemAged s
  | .overflowBlockTimeout z => Sys2Proof.Machine.execOverflowBlockTimeout z s
  | .discardRunRecord z => Sys2Proof.Machine.execDiscardRunRecord z s
  | .pressBlockCoded n => Sys2Proof.Machine.execPressBlockCoded n s
  | .hostJobStart n => Sys2Proof.Machine.execHostJobStart n s
  | .hostJobStop n input how => Sys2Proof.Machine.execHostJobStop n input how s
  | .pressLaneLost n => Sys2Proof.Machine.execPressLaneLost n s
  | .triggerFiring => Sys2Proof.Machine.execTriggerFiring s
  | .capturePinning c => Sys2Proof.Machine.execCapturePinning c s
  | .capHoldExpiry c => Sys2Proof.Machine.execCapHoldExpiry c s
  | .reanalysisEnd preempted => Sys2Proof.Machine.execReanalysisEnd preempted s
  | .pcieLinkChange l => Sys2Proof.Machine.execPcieLinkChange l s
  | .streamBufferDone n => Sys2Proof.Machine.execStreamBufferDone n s
  | .ethPortUpChange n up => Sys2Proof.Machine.execEthPortUpChange n up s
  | .ethPortFailed n => Sys2Proof.Machine.execEthPortFailed n s
  | .ethPortReturn n => Sys2Proof.Machine.execEthPortReturn n s
  | .pauseReceived n quanta => Sys2Proof.Machine.execPauseReceived n quanta s
  | .pauseLimExceeded n => Sys2Proof.Machine.execPauseLimExceeded n s
  | .neighbourResolution n m => Sys2Proof.Machine.execNeighbourResolution n m s
  | .icmpEcho n v6 src payload => Sys2Proof.Machine.execIcmpEcho n v6 src payload s
  | .udpDatagramDiscard n => Sys2Proof.Machine.execUdpDatagramDiscard n s
  | .ptpMessage m => Sys2Proof.Machine.execPtpMessage m s
  | .timingPortLinkChange up => Sys2Proof.Machine.execTimingPortLinkChange up s
  | .announceSyncTimeout => Sys2Proof.Machine.execAnnounceSyncTimeout s
  | .spiFrame f => Sys2Proof.Machine.execSpiFrame f s
  | .spiReplyFetch => Sys2Proof.Machine.execSpiReplyFetch s
  | .i2cTransaction x => Sys2Proof.Machine.execI2cTransaction x s
  | .caveError r => Sys2Proof.Machine.execCaveError r s
  | .dieTemperatureSample sensors => Sys2Proof.Machine.execDieTemperatureSample sensors s
  | .vbatPowerOn => Sys2Proof.Machine.execVbatPowerOn s
  | .mainPowerOnReset b => Sys2Proof.Machine.execMainPowerOnReset b s
  | .warmReset w b => Sys2Proof.Machine.execWarmReset w b s
  | .supervisorWatchdog => Sys2Proof.Machine.execSupervisorWatchdog s
  | .pcieFundamentalReset => Sys2Proof.Machine.execPcieFundamentalReset s
  | .islandReset isl => Sys2Proof.Machine.execIslandReset isl s
  | .bootStepTimeout => Sys2Proof.Machine.execBootStepTimeout s
  | .wake byAlarm => Sys2Proof.Machine.execWake byAlarm s
  | .samplingLoopRetuneLock => Sys2Proof.Machine.execSamplingLoopRetuneLock s
  | .ppsPulse t edge off => Sys2Proof.Machine.execPpsPulse t edge off s
  | .boundaryScanInstruction j => Sys2Proof.Machine.execBoundaryScanInstruction j s
  | .mainSupplyLoss => Sys2Proof.Machine.execMainSupplyLoss s
  | .rindSupplyLoss => Sys2Proof.Machine.execRindSupplyLoss s
  | .vbatLoss => Sys2Proof.Machine.execVbatLoss s
  | .selfTestComplete u pass cal => Sys2Proof.Machine.execSelfTestComplete u pass cal s
  | .drainHostTimeout z => Sys2Proof.Machine.execDrainHostTimeout z s
  | .pauseQuantaExpiry n => Sys2Proof.Machine.execPauseQuantaExpiry n s
  | .streamRingModerationExpiry n => Sys2Proof.Machine.execStreamRingModerationExpiry n s
  | .aerErrorLogged => Sys2Proof.Machine.execAerErrorLogged s
  | .caveCorrectedError spareUsed => Sys2Proof.Machine.execCaveCorrectedError spareUsed s

end Sys2Proof.Machine
end

