-- ==== Sys2Proof/Safety.lean ====
section
/-! DEFINITION. What a safe run is, in the terms that the statements use: every command answers a next state, every byte memory keeps its
canonical form, and an event or a reply leaves the block's work alone. -/

namespace Sys2Proof.Machine

/-- The byte memories of a state keep their canonical form: the host area of the Cave, and every engine's data memory, windows and state kept
from its last invocation. -/
def State.memOk (s : State) : Prop :=
  s.hostArea.wf = true ∧
    ∀ e : EngIx, s.engines[e].dmem.wf = true ∧ (∀ w : Fin 4, s.engines[e].win[w].wf = true) ∧ ∀ m, s.engines[e].lastMem = some m → m.wf = true

/-- A step that goes on. -/
def State.goesOn (s : State) : Prop := ∃ t, step s = .next t

/-- `t` differs from `s` at most where events, records and replies go: the outputs, the event block, the sessions' reply and event state, the
links, the streams and the triggers that an event fires. Everything else is the same. -/
structure SameWork (s t : State) : Prop where
  pending : t.pending = s.pending
  free : t.free = s.free
  time : t.time = s.time
  glb : t.glb = s.glb
  settings : t.settings = s.settings
  commits : t.commits = s.commits
  ports : t.ports = s.ports
  lanes : t.lanes = s.lanes
  pipes : t.pipes = s.pipes
  sdc : t.sdc = s.sdc
  shut : t.shut = s.shut
  emOn : t.emOn = s.emOn
  clk : t.clk = s.clk
  tiu : t.tiu = s.tiu
  axc1 : t.axc1 = s.axc1
  rind : t.rind = s.rind
  rindMain : t.rindMain = s.rindMain
  engines : t.engines = s.engines
  images : t.images = s.images
  loads : t.loads = s.loads
  press : t.press = s.press
  jobs : t.jobs = s.jobs
  savedJobs : t.savedJobs = s.savedJobs
  hostArea : t.hostArea = s.hostArea
  zones : t.zones = s.zones
  ladle : t.ladle = s.ladle
  boot : t.boot = s.boot
  aon : t.aon = s.aon

/-! ### Commands over the protocol -/

/-- The opcode and packet of a Birligrim command (R462 to R474). -/
def request : Instr → Option (Nat × Packet)
  | .sessionOpen k => some (0x0101, k)
  | .sessionClose k => some (0x0102, k)
  | .sessionPing k => some (0x0103, k)
  | .eventSubscribe k => some (0x0104, k)
  | .identify k => some (0x0105, k)
  | .unknownOpcode op k => some (op.toNat, k)
  | .txnBegin k => some (0x0201, k)
  | .txnCommit k => some (0x0202, k)
  | .txnRollback k => some (0x0203, k)
  | .txnQuery k => some (0x0204, k)
  | .planSet k => some (0x0301, k)
  | .modeSet k => some (0x0302, k)
  | .portSafety k => some (0x0303, k)
  | .delaySet k => some (0x0304, k)
  | .emitterSet k => some (0x0305, k)
  | .emitterDelete k => some (0x0306, k)
  | .rearm k => some (0x0307, k)
  | .endRebase k => some (0x0308, k)
  | .portQuery k => some (0x0309, k)
  | .emitterQuery k => some (0x030A, k)
  | .zoneSet k => some (0x0401, k)
  | .zoneDelete k => some (0x0402, k)
  | .pinSet k => some (0x0403, k)
  | .placeQuery k => some (0x0404, k)
  | .rebalance k => some (0x0405, k)
  | .capacity k => some (0x0406, k)
  | .retire k => some (0x0407, k)
  | .ladleSet k => some (0x0408, k)
  | .syncReset k => some (0x0409, k)
  | .streamRoute k => some (0x040A, k)
  | .configSave k => some (0x040B, k)
  | .rxcalSet k => some (0x0501, k)
  | .darkFloor k => some (0x0502, k)
  | .rxcalQuery k => some (0x0503, k)
  | .clockSet k => some (0x0601, k)
  | .tiuSet k => some (0x0602, k)
  | .timeQuery k => some (0x0603, k)
  | .measStart k => some (0x0604, k)
  | .measCancel k => some (0x0605, k)
  | .anchor k => some (0x0606, k)
  | .servoSet k => some (0x0607, k)
  | .thermalSet k => some (0x0701, k)
  | .scheduleSet k => some (0x0702, k)
  | .frontEndSet k => some (0x0703, k)
  | .rindIdentify k => some (0x0704, k)
  | .rindQuery k => some (0x0705, k)
  | .sealSet k => some (0x0706, k)
  | .sealBreak k => some (0x0707, k)
  | .auditRead k => some (0x0708, k)
  | .auditAck k => some (0x0709, k)
  | .rindFwLoad k => some (0x070A, k)
  | .calBegin k => some (0x070B, k)
  | .calZero k => some (0x070C, k)
  | .calFull k => some (0x070D, k)
  | .calApply k => some (0x070E, k)
  | .calCancel k => some (0x070F, k)
  | .axc0Urgent k => some (0x0710, k)
  | .imageLoad k => some (0x0801, k)
  | .imageDelete k => some (0x0802, k)
  | .imageQuery k => some (0x0803, k)
  | .jobSubmit k => some (0x0901, k)
  | .jobCancel k => some (0x0902, k)
  | .pressQuery k => some (0x0903, k)
  | .triggerSet k => some (0x0A01, k)
  | .triggerDelete k => some (0x0A02, k)
  | .triggerFire k => some (0x0A03, k)
  | .captureRelease k => some (0x0A04, k)
  | .dump k => some (0x0A05, k)
  | .reanalyse k => some (0x0A06, k)
  | .captureQuery k => some (0x0A07, k)
  | .sliceTest k => some (0x0B01, k)
  | .selfTest k => some (0x0B02, k)
  | .faultLog k => some (0x0B03, k)
  | .journalRead k => some (0x0B04, k)
  | .journalClear k => some (0x0B05, k)
  | .powerSet k => some (0x0C01, k)
  | .powerQuery k => some (0x0C02, k)
  | _ => none

/-- A command of session `i` that the session takes up at once (R442, R448 to R451): the packet is well formed and no retransmission, the session
is open on its transport, and nothing of it is in progress, waits, or waits to be answered. -/
structure Listens (i : SessIx) (op : Nat) (k : Packet) (s : State) : Prop where
  running : s.boot.inReset = false
  notOpen : op ≠ 0x0101
  header : headerOk k = true
  session : k.session.toNat = i.val
  isOpen : s.sessions[i].isOpen = true
  transport : s.sessions[i].transport = k.transport
  fresh : ∀ r ∈ s.sessions[i].kept, r.seq ≠ k.seq
  idle : s.sessions[i].inProgress = none
  first : s.sessions[i].waiting = []
  ring : s.replyHeld i = false

/-- A command that executes at once: taken up, allowed by boot and power state (R474, R546), its items standing as `p` (R446), not to be staged
(R452), and not waiting for a commit (R460). -/
structure Accepted (i : SessIx) (op : Nat) (k : Packet) (p : Parsed) (s : State) : Prop where
  listens : Listens i op k s
  allowed : preCheck op s = 0
  items : operands op k = .ok p
  now : (stageable op && stageFlag k) = false
  free : s.held op p = false

/-- A command ends in a next state, of which `P` holds. -/
def Completes (c : Instr) (s : State) (P : State → Prop) : Prop := ∃ t, exec c s = .next t ∧ P t

/-- The session's timers start again at a command: its own, and that of its open transaction when the command names it (R448, R455). -/
def State.heard (s : State) (i : SessIx) (k : Packet) : State :=
  (s.modSess i fun y => y.heard s.time.mono).modSess i fun x => x.heardTxn k.txn.toNat s.time.mono

/-- The sessions of `t` are those of `u`, but for event sequence numbers. -/
def SameSess (u t : State) : Prop := ∀ i : SessIx, ∃ q, t.sessions[i] = { u.sessions[i] with evSeq := q }

/-- `t` is `u` after session `i` has answered a command: the reply is the newest one kept for retransmission (R451), nothing is in progress,
and nothing else differs but where events and replies go. -/
structure Replies (i : SessIx) (op : Nat) (k : Packet) (st : Status) (items : List (List Byte)) (u t : State) : Prop where
  work : SameWork u t
  session : ∃ q, t.sessions[i] = { u.sessions[i].keep k.seq (replyPackets op k st k.txn.toNat false items) with evSeq := q }
  others : ∀ j, j ≠ i → ∃ q, t.sessions[j] = { u.sessions[j] with evSeq := q }

end Sys2Proof.Machine
end

