-- ==== Sys2Proof/WellFormed.lean ====
section
/-! DEFINITION. Which commands are well formed: the values that reach the block from outside have the lengths and ranges that the spec
gives their sources. The machine gives every command a meaning; these are the ones that a board can produce. -/

namespace Sys2Proof

/-- A packet no longer than a ring slot (R503): 65,536 bytes with its header. -/
def Packet.wf (k : Packet) : Bool := decide (k.body.length ≤ 65520)

/-- A ping: four lanes of output codes (R73). -/
def PingData.wf (d : PingData) : Bool := decide (d.lanes.length = 4) && d.lanes.all fun l => l.all fun x => decide (-2047 ≤ x ∧ x ≤ 2047)

/-- What B07 measures of a lane: nine slices, and the spare in eight positions (R82). -/
def LaneCal.wf (l : LaneCal) : Bool := decide (l.slices.length = 9 ∧ l.spareAt.length = 8) && decide (-128 ≤ l.skew ∧ l.skew ≤ 127)

/-- A shot: eight lanes of 14-bit codes, all of one length, at least 256 samples before the trace (R170, R171). -/
def ShotData.wf (d : ShotData) : Bool :=
  decide (d.lanes.length = 8) && d.lanes.all (fun l => decide (256 < l.length)) && d.lanes.all (fun l => l.all fun x => decide (x < 16384)) &&
    d.lanes.all fun l => decide (l.length = (d.lanes.headD []).length)

/-- A calibration of a converter: 2^20 hits on each channel, and a reading for each of the 36 pads (R224). -/
def VernierCal.wf (c : VernierCal) : Bool :=
  decide (c.a.hits.foldl (· + ·) 0 = 1048576 ∧ c.b.hits.foldl (· + ·) 0 = 1048576 ∧ c.a.pads.length = 36 ∧ c.b.pads.length = 36)

/-- What a start finds: a result for each of B00 to B15, one or two stacks, two Ethernet ports, two image slots, three converters. -/
def BootEnv.wf (b : BootEnv) : Bool :=
  decide (b.steps.length = 16 ∧ b.stacksUp ≤ 2 ∧ b.ethUp.length = 2 ∧ b.lanes.length = 96 ∧ b.slots.length = 2 ∧ b.verniers.length = 3) && b.badPipes.all (fun n => decide (n < 26)) &&
    b.badEngines.all (fun n => decide (n < 32)) && b.badPress.all (fun n => decide (n < 26)) && b.verniers.all VernierCal.wf &&
    b.lanes.all LaneCal.wf && (b.noLock.all fun n => decide (5 ≤ n ∧ n ≤ 9))

/-- An I²C transaction writes and reads at most 32 bytes (R518). -/
def I2cXfer.wf (x : I2cXfer) : Bool := decide (x.wr.length ≤ 32 ∧ x.rd.length ≤ 32)

/-- A descriptor of a stream ring (R504): an address on 4 KiB and a length that is a multiple of 64 KiB up to 16 MiB. -/
def SrDesc.wf (d : SrDesc) : Bool :=
  d.addr.toNat % 4096 == 0 && d.len.toNat % 65536 == 0 && decide (65536 ≤ d.len.toNat ∧ d.len.toNat ≤ 16777216)

/-- A command that a board can produce. -/
def Instr.wf : Instr → Bool
  | .sessionOpen k | .sessionClose k | .sessionPing k | .eventSubscribe k | .identify k | .txnBegin k | .txnCommit k | .txnRollback k
  | .txnQuery k | .planSet k | .modeSet k | .portSafety k | .delaySet k | .emitterSet k | .emitterDelete k | .rearm k | .endRebase k
  | .portQuery k | .emitterQuery k | .zoneSet k | .zoneDelete k | .pinSet k | .placeQuery k | .rebalance k | .capacity k | .retire k
  | .ladleSet k | .syncReset k | .streamRoute k | .configSave k | .rxcalSet k | .darkFloor k | .rxcalQuery k | .clockSet k | .tiuSet k
  | .timeQuery k | .measStart k | .measCancel k | .anchor k | .servoSet k | .thermalSet k | .scheduleSet k | .frontEndSet k
  | .rindIdentify k | .rindQuery k | .sealSet k | .sealBreak k | .auditRead k | .auditAck k | .rindFwLoad k | .calBegin k | .calZero k
  | .calFull k | .calApply k | .calCancel k | .axc0Urgent k | .imageLoad k | .imageDelete k | .imageQuery k | .jobSubmit k | .jobCancel k
  | .pressQuery k | .triggerSet k | .triggerDelete k | .triggerFire k | .captureRelease k | .dump k | .reanalyse k | .captureQuery k
  | .sliceTest k | .selfTest k | .faultLog k | .journalRead k | .journalClear k | .powerSet k | .powerQuery k => k.wf
  | .unknownOpcode _ k => k.wf
  | .crDoorbell _ _ bs => decide (bs.length ≤ 65536)
  | .srTailWrite _ _ ds => ds.all SrDesc.wf
  | .laneOverrange _ _ _ len => decide (0 < len)
  | .sliceSwap _ d => decide (d.sum * d.sum ≤ d.n * d.sq)
  | .darkFrameEnd _ pw fl => decide (pw.length = 4 ∧ fl.length ≤ 16)
  | .paceWindowEnd _ c m => decide (c < 65536 ∧ m < 256)
  | .pingProcessed _ _ d => d.wf
  | .sdcFrameEnd rx => decide (rx.length ≤ 33)
  | .sdcDiscoveryEnd bs => decide (bs.length = 34)
  | .fcntDone m r => decide (m < 2 ^ 40 ∧ r < 2 ^ 40)
  | .shot d => d.wf
  | .hostJobStop _ bs _ => decide (bs.length < 2 ^ 32)
  | .spiFrame f => (match f with | .packet bs => decide (bs.length ≤ 65536) | .read _ _ | .write _ _ | .malformed => true)
  | .i2cTransaction x => x.wf
  | .converterRotation c _ d => c.wf && d.wf
  | .selfTestComplete u _ c => (match u, c with | .vernier _, some v => v.wf | .vernier _, none => false | _, c => c.isNone)
  | .dieTemperatureSample ts => !ts.isEmpty
  | .mainPowerOnReset b | .warmReset _ b => b.wf
  | .commitBoundary _ | .txnTimeout _ | .sessionTimeout _ | .nop _ | .halt _ | .evt _ | .clra _ | .mac _ | .msu _ | .mul _ | .adda _ | .sha _
  | .sta _ | .stau _ | .stal _ | .ld _ | .ld2 _ | .st _ | .st2 _ | .ldi _ | .mov _ | .alu _ | .alui _ | .mmx _ | .mmclr _ | .br _ | .call _
  | .ret _ | .loop _ | .cave _ | .cwait _ | .caveTransferComplete _ _ | .waitlim _ | .invocationStart _ | .vatAbort _ _ | .pressAbort _ _
  | .pressDisable _ _ | .pressDrainComplete _ | .sdcEnable _ | .sdcDisable _ | .ckgEnClear _ _ | .ckgEnSet _ _ | .rstCtlWarm | .timeCapture
  | .fcntStart _ | .fcntNoclk | .axc1Enable _ | .axc1Disable _ | .axc1Start _ | .axc1UrgentRequest _ | .axc1EntryComplete _ | .trimWrite _ _ _
  | .calModeWrite _ _ | .evPendClear _ _ _ | .evRouteWrite _ _ | .crRtailWrite _ _ | .registerWrite _ _ _ _ | .msixEnable | .pendingSelfClear _ _
  | .groupLaunch _ _ _ | .frameBoundary _ | .laneStartupEnd _ | .recoveryCountEnd _ | .sliceFailureDetected _ _ _
  | .calibrationEstimate _ _ | .trimWalkStep _ | .calibrationHoldEnd _ _ | .inputBufferFull _ | .inputResume _ _ | .endDetermination _ | .exactOutput _ _
  | .featureIntervalEnd _ | .delayRecordIntervalEnd _ | .sdcDiscoveryStart | .sdcDiscoveryRetry | .interlockOpen | .interlockClosed
  | .ckRefSourceLost _ | .ckRefSourceQualified _ | .ckRefSwitch | .ckRefRampComplete | .fsRetuneTimeout | .samplingLockLost | .samplingLockRegained
  | .probeLockLost | .probeLockRegained | .otherLoopLockLost _ | .otherLoopLockRegained _ | .memoryLockTimeout | .ref10StateChange _
  | .ppsStateChange | .timescaleChange | .measWindowOpen | .measArmEdge _ | .armTimeout | .measEdge _ | .measGateClose
  | .anchorPeriodExpiry _ | .stepEnd | .switchStrobes | .averageStart | .averageEnd | .profileIssue _ | .ramanInhibitAssert | .ramanInhibitRelease
  | .profile _ | .announce _ | .switched _ | .eventMessage _ | .audit _ | .reading _ | .rpRetransmit | .ackAfterSilence | .mailboxRequest
  | .mailboxTimeout | .timeWord | .writeRefusedWindowEnd _ | .tamperActivation _ | .rindWatchdog | .rindPowerOn _ | .rindFwLoadComplete
  | .axc0EntryComplete _ | .wireBreak | .openProbe _ | .referenceOutOfWindow | .referenceSettled | .calibrationIdleTimeout | .mirrorRefresh _
  | .substituteRefresh | .slowFail | .slowFailClear | .rindSnapshotLoss | .dailyDrift | .dailySpareSelfTest | .unitLost _ _ | .shedReplacement
  | .migrationComplete _ _ | .workItemAged | .overflowBlockTimeout _ | .discardRunRecord _ | .pressBlockCoded _ | .hostJobStart _
  | .pressLaneLost _ | .triggerFiring | .capturePinning _ | .capHoldExpiry _ | .reanalysisEnd _ | .pcieLinkChange _ | .streamBufferDone _
  | .ethPortUpChange _ _ | .ethPortFailed _ | .ethPortReturn _ | .pauseReceived _ _ | .pauseLimExceeded _ | .neighbourResolution _ _
  | .icmpEcho _ _ _ _ | .udpDatagramDiscard _ | .ptpMessage _ | .timingPortLinkChange _ | .announceSyncTimeout | .spiReplyFetch | .caveError _
  | .vbatPowerOn | .supervisorWatchdog | .pcieFundamentalReset | .islandReset _ | .bootStepTimeout | .wake _ | .samplingLoopRetuneLock
  | .boundaryScanInstruction _ | .ppsPulse _ _ _ | .mainSupplyLoss | .rindSupplyLoss | .vbatLoss | .drainHostTimeout _
  | .pauseQuantaExpiry _ | .streamRingModerationExpiry _ | .aerErrorLogged | .caveCorrectedError _ => true

end Sys2Proof
end

