-- ==== Sys2Proof/Certificates/Slice0/Obligations.lean ====
section
/-! DEFINITION. The statements for the provers. Each says what a command or the machine does by the numbered rules of the specification. -/

open Sys2Proof Sys2Proof.Machine

namespace Sys2Proof.Claims
open Sys2Proof.Machine

/-- The commands that may be staged, with their opcodes (R464 to R473). -/
def stageables (k : Packet) : List (Nat × Instr) :=
  [(0x0301, .planSet k), (0x0302, .modeSet k), (0x0303, .portSafety k), (0x0304, .delaySet k), (0x0305, .emitterSet k),
   (0x0306, .emitterDelete k), (0x0401, .zoneSet k), (0x0402, .zoneDelete k), (0x0403, .pinSet k), (0x0408, .ladleSet k),
   (0x040A, .streamRoute k), (0x0501, .rxcalSet k), (0x0601, .clockSet k), (0x0602, .tiuSet k), (0x0607, .servoSet k),
   (0x0A01, .triggerSet k), (0x0A02, .triggerDelete k)]

/-- The zones that PLACE_QUERY knows, in order: those committed, and those that still drain (R359, R465). -/
def knownZones (s : State) : List Nat :=
  sortNat (s.settings.zones ++ ((s.zones.map (·.id)).filter fun z => !(s.settings.zones.contains z)))

/-- Bytes of the images that the zones name (R465). -/
def namedImageBytes (s : State) : Nat :=
  ((s.images.filter fun x => ((s.settings.zones.map fun z => s.settings.zone z 0x1705).filter (· ≠ 0)).contains x.id).map fun x => x.bytes.length).sum

/-- Engines held in reserve, in order (R374). -/
def reserveEngines (s : State) : List EngIx :=
  (List.finRange 32).filter fun n => fld s.engines[n].stat 0 3 == 0 && !(s.boot.retired.engines.getLsbD n.val)

/-- Engines in service, in order (R374). -/
def enginesInService (s : State) : List EngIx := (List.finRange 32).filter fun n => s.engOk n.val

/-- The engines, the highest in service, that leave it when a reserve of `want` engines is asked for (R374). -/
def enginesOut (s : State) (want : Nat) : List EngIx :=
  (enginesInService s).drop ((enginesInService s).length - (want - (reserveEngines s).length))

/-- The free engines that stay in service beside those that leave (R374). -/
def engineRoom (s : State) (out : List EngIx) : List EngIx :=
  (enginesInService s).filter fun n => !(out.contains n) && !(s.ladle.place.holds (.engine n)) && !(s.pinned (.engine n)) &&
    !(s.ladle.migrations.any fun m => m.target == .engine n)
/-- The commands that pass to the Rind's mailbox, with their opcodes (R468). -/
def rindCommands (k : Packet) : List (Nat × Instr) :=
  [(0x0701, .thermalSet k), (0x0702, .scheduleSet k), (0x0703, .frontEndSet k), (0x0704, .rindIdentify k), (0x0705, .rindQuery k),
   (0x0706, .sealSet k), (0x0707, .sealBreak k), (0x0708, .auditRead k), (0x0709, .auditAck k), (0x070A, .rindFwLoad k),
   (0x070B, .calBegin k), (0x070C, .calZero k), (0x070D, .calFull k), (0x070E, .calApply k), (0x070F, .calCancel k), (0x0710, .axc0Urgent k)]

/-- A command that a powered Rind, not halted, with a free request slot, executes at once (R255, R265). -/
structure Served (i : SessIx) (op : Nat) (k : Packet) (p : Parsed) (s : State) : Prop where
  accepted : Accepted i op k p s
  free : s.rind.request = none
  powered : s.rind.powered = true
  notHalted : s.rind.halted = false

/-- The Rind takes a change of its legally relevant parameters: not SEALED, and room in the trail (R268, R275). -/
def MayChange (s : State) : Prop := s.rind.sealSt ≠ .sealed ∧ s.rind.unexported < 4096

/-- The command is answered with `st`, and beside events and replies only the Rind has changed. -/
def RindOnly (i : SessIx) (op : Nat) (k : Packet) (st : Status) (s t : State) : Prop :=
  SameWork { s with rind := t.rind } t ∧ t.rind.lastStatus = st ∧ t.sessions[i].inProgress = none ∧
    ∃ items, (t.sessions[i].kept.getLast?) = some ({ seq := k.seq, packets := replyPackets op k st k.txn.toNat false items } : KeptReply)

/-- The items of RIND_QUERY (R468): those in force, the schedule, PARAM_ID. -/
def rindItems (r : Rind) : List (List Byte) :=
  instItems r.params .device none 0 ++ ((List.range 4).flatMap (instItems r.params .thermal (some 0x0106))) ++
    ((List.range 24).flatMap (instItems r.params .thermalPort (some 0x0101))) ++ ((List.range 32).flatMap (instItems r.params .entry (some 0x0108))) ++
    ((List.range 16).flatMap (instItems r.params .rtd (some 0x0107))) ++
    (r.accepted.zipIdx.map fun x => item 0x021B (stepBytes x.2 x.1)) ++ [item 0x0308 (leW r.paramId)]

/-- The RECORD of RIND_IDENTIFY (R264, R274): DEVICE_UID, the public key and its endorsement, SW_VER and SW_DIG. -/
def rindRecord (s : State) : List Byte :=
  le 8 s.glb.uid.toNat ++ cut Config.publicKey 0 64 ++ cut Config.endorsement 0 64 ++
    [BitVec.ofNat 8 (s.rind.swVer.toNat / 65536), BitVec.ofNat 8 (s.rind.swVer.toNat / 256), BitVec.ofNat 8 s.rind.swVer.toNat] ++
    le 8 s.rind.swDig.toNat

/-- Whether the two sums of a calibration stand (R306): full above zero, the gain within 2 % of 1, the offset within 1 % of full scale. -/
def calStands (ss : Settings) (range zNom fNom : Nat) (zs fs : Int) : Prop :=
  let dn : Int := ((fNom : Int) - zNom) * 2 ^ 34
  let dm : Int := fs - zs
  let num : Int := zs * ((fNom : Int) - zNom) - (zNom : Int) * dm
  0 < dm ∧ 98 * dm ≤ dn * 100 ∧ dn * 100 ≤ 102 * dm ∧ (num.natAbs : Int) * 12800 ≤ (fullScale7 ss range : Int) * dn

/-- A Rind command is refused: nothing changes but what the mailbox shows of the last request. -/
def RindRefused (i : SessIx) (op : Nat) (k : Packet) (st : Status) (s : State) : State → Prop :=
  Replies i op k st [] ((s.heard i k).modRind fun r => r.executed st [])

/-- A message of the results path that the main side takes in: first on the wire, of the row's kind, its CRC right, the main partition up, and not
received before (R251, R252). -/
structure Arrives (kind : Nat) (m : RpArrival) (x : RpMsg) (s : State) : Prop where
  wire : s.rind.wire.head? = some x
  seq : x.seq = m.seq
  kind : x.body.kind = kind
  up : s.boot.inReset = false
  crc : m.crcOk = true
  first : m.seq ∉ s.rindMain.seen
/-- Engine `n` executes, and the instruction at its PC is `w`: of opcode `op`, no bit set that its format does not show, within the budget
(R335 to R338, R343). -/
structure Runs (n : EngIx) (op : Nat) (w : Word) (s : State) : Prop where
  executes : s.engines[n].executes = true
  fetch : s.engines[n].code[s.engines[n].pc]? = some w
  opcode : fld w 26 6 = op
  exact : vatStray op w = false
  budget : s.engines[n].opc + s.engines[n].cost op w ≤ s.engines[n].budget

/-- The end of an iteration at address `pc` (R335): the innermost loop that ends there goes around again, or ends and the next one is asked; with none left
the PC goes to `next`. -/
def loopEnd (pc next : Nat) : List LoopFrame → Nat × List LoopFrame
  | [] => (next, [])
  | l :: ls => if l.last = pc then (if 1 < l.count then (l.first, { l with count := l.count - 1 } :: ls) else loopEnd pc next ls) else (next, l :: ls)

/-- The end of an instruction without a taken branch (R335): the next address, or, at the last address of loops, another iteration of the innermost that has
one left. -/
def Advances (e u : Engine) : Prop := (u.pc, u.loops) = loopEnd e.pc (e.pc + 1) e.loops

/-- Only engine `n` has changed: it is `x`, with PC and loops at the end of an instruction of one operation. -/
def Ran (n : EngIx) (s t : State) (x : Engine) : Prop :=
  t = s.modEng n (fun _ => t.engines[n]) ∧ Advances s.engines[n] t.engines[n] ∧
    t.engines[n] = { x with pc := t.engines[n].pc, loops := t.engines[n].loops, opc := s.engines[n].opc + 1 }

/-- The descriptor of an operand in memory. -/
def descOf : VatOp → List Nat
  | .mem d => [d]
  | .dreg _ => []

/-- Pointer `i` after accesses by the descriptors `ds`, slot X before slot Y, their steps times `k`: the last that names it decides (R323, R324). -/
def ptrAfter (e : Engine) (k : Int) (ds : List Nat) (i : Fin 8) : BitVec 15 :=
  match ds.reverse.find? fun d => d / 4 == i.val with
  | some d => if d % 4 = 0 then e.p[i] else BitVec.ofNat 15 (e.moved i.val (e.stepOf d k))
  | none => e.p[i]

/-- The pointers and HOUT of `u` after accesses by the descriptors `ds` (R325 to R327). -/
def Walks (e u : Engine) (k : Int) (ds : List Nat) : Prop :=
  (∀ i : Fin 8, u.p[i] = ptrAfter e k ds i) ∧ u.flags.getLsbD 7 = (e.flags.getLsbD 7 || ds.any fun d => e.outside (d / 4))

/-- No access of the instruction meets an outstanding transfer (R341). -/
def Unlocked (e : Engine) (as : List Nat) : Prop := ∀ a ∈ as, e.locked a = false

/-- A transfer and a new one share no word of data memory, modulo 32,768, and no byte of a window (R341). -/
def Apart (x : Transfer) (k : Fin 4) (off addr len : Nat) : Prop :=
  wrapOverlap addr len x.addr x.len = false ∧ (x.window = k.val → off + 2 * len ≤ x.offset ∨ x.offset + 2 * x.len ≤ off)

/-- The flags but those of `l` are as they were. -/
def FlagsKept (e u : Engine) (l : List Nat) : Prop := ∀ i, i ∉ l → u.flags.getLsbD i = e.flags.getLsbD i

/-- The true value becomes `r` (R328): exact while OVC can hold it, at OVC's limit with ALOST beyond. -/
def TakesValue (e u : Engine) (r : Int) : Prop :=
  u.acc = BitVec.ofInt 40 r ∧
  (-(2 ^ 47) - 2 ^ 39 ≤ r → r < 2 ^ 47 - 2 ^ 39 → u.trueVal = r) ∧
  (2 ^ 47 - 2 ^ 39 ≤ r → u.ovc = 127) ∧ (r < -(2 ^ 47) - 2 ^ 39 → u.ovc = -128) ∧
  u.flags.getLsbD 6 = (e.flags.getLsbD 6 || decide (2 ^ 47 - 2 ^ 39 ≤ r) || decide (r < -(2 ^ 47) - 2 ^ 39)) ∧
  u.flags.getLsbD 5 = (e.flags.getLsbD 5 || (e.ovc == 0 && u.ovc != 0))

/-- A product shifted right by PS bits (R328). -/
def shifted (mode ps : Nat) (x y : Word16) : Int :=
  (if mode < 2 then x.toInt else (x.toNat : Int)) * (if mode % 2 = 0 then y.toInt else (y.toNat : Int)) / [1, 4, 16, 256].getD ps 1

/-- What a store delivers (R330), and whether it sets SAT. -/
def delivered (e : Engine) (sh : Nat) (lo hi : Int) : Int × Bool :=
  if e.flags.getLsbD 6 then (if e.ovc.toInt < 0 then lo else hi, true)
  else (max lo (min hi (e.trueVal / 2 ^ sh)), decide (e.trueVal / 2 ^ sh < lo) || decide (hi < e.trueVal / 2 ^ sh))

/-- The value that a register holds after `v` is written to it (R320, R321). -/
def heldBy (r : Nat) (v : Word16) : Word16 :=
  if 8 ≤ r ∧ r < 16 ∨ 24 ≤ r ∧ r < 28 then v &&& 0x7FFF
  else if 28 ≤ r ∧ r < 32 then (if 32768 < v.toNat then 32768 else v)
  else if r = 40 then v &&& 0x01FF
  else v

/-- Every row of a Vat instruction, with its opcode (R337). -/
def vatRows (n : EngIx) : List (Nat × Instr) :=
  [(0x00, .nop n), (0x01, .halt n), (0x02, .evt n), (0x04, .clra n), (0x05, .mac n), (0x06, .msu n), (0x07, .mul n), (0x08, .adda n),
   (0x09, .sha n), (0x0A, .sta n), (0x0B, .stau n), (0x0C, .stal n), (0x10, .ld n), (0x11, .ld2 n), (0x12, .st n), (0x13, .st2 n),
   (0x14, .ldi n), (0x15, .mov n), (0x18, .alu n), (0x19, .alui n), (0x1A, .mmx n), (0x1B, .mmclr n), (0x20, .br n), (0x21, .call n),
   (0x22, .ret n), (0x23, .loop n), (0x28, .cave n), (0x29, .cwait n)]

/-- The invocation ends with a fault of `code` (R345, R346): the registers and data memory stay, PC and OPC are recorded, FAULTED and FAULT set,
the event is pending, and the engine waits, or is stopped at FAULT_LIM faults in a row. -/
def Faulted (n : EngIx) (code : Nat) (s t : State) : Prop :=
  (∃ u, t.engines[n] = u ∧ u = { s.engines[n] with
    stat := u.stat, fpc := u.fpc, fop := u.fop, lastOp := u.lastOp, peakOp := u.peakOp, faultsInRow := s.engines[n].faultsInRow + 1,
    stalledSince := none, current := none, input := u.input } ∧
    fld u.stat 8 4 = code ∧ bit u.stat 3 = true ∧ fld u.fpc 0 13 = s.engines[n].pc % 8192 ∧ u.fop = BitVec.ofNat 32 s.engines[n].opc ∧
    (s.engines[n].faultsInRow + 1 < s.engines[n].faultLim → fld u.stat 0 3 = 2 ∧ u.input = s.engines[n].input) ∧
    (s.engines[n].faultLim ≤ s.engines[n].faultsInRow + 1 → fld u.stat 0 3 = 5) ∧
    fld u.stat 24 8 = min 255 (fld s.engines[n].stat 24 8 + 1)) ∧
  (∀ m, m ≠ n → t.engines[m] = s.engines[m]) ∧
  t.ev.pend.getLsbD (120 + n.val) = true ∧ t.settings = s.settings ∧ t.ports = s.ports ∧ t.rind = s.rind ∧ t.time = s.time
/-- The main partition is out of reset, the clock of CKG_EN0 bit `i` runs and its first 32 cycles are over: a register write reaches its block (R206, R208). -/
def Reaches (s : State) (i : Nat) : Prop := s.boot.inReset = false ∧ s.clkOpen i = true

/-- The same of the island of a port. -/
def ReachesPort (s : State) (p : PortIx) : Prop := s.boot.inReset = false ∧ s.portOpen p.val = true

/-- The values that the table of RXC_CTLp lets a field take (R100). -/
def rxcLegal (lo x : Nat) : Bool :=
  match lo with
  | 8 => 2 ≤ x && x % 2 == 0
  | 16 => 4 ≤ x && x ≤ 10
  | _ => x ≠ 0

/-- The bits of `w` but those of `l` are those of `v`. -/
def BitsKept (v w : Word) (l : List Nat) : Prop := ∀ i, i ∉ l → bit w i = bit v i

/-- The pair of a port accumulates, and has accumulated FRAMES frames (R91 to R93). -/
def Accumulates (q : Port) (w : Pair) : Prop :=
  q.calMode ≠ 0 ∧ q.calState w = 1 ∧ (q.cal w).restart = false ∧ fld q.rxcCtl 8 8 ≤ (q.cal w).frames

/-- One of an accumulation's two estimates has fewer than 65,536 samples (test 1 of R93). -/
def Few (d : Accum) : Prop := d.a.n < 65536 ∨ d.b.n < 65536

/-- A slice is found failing for a cause that it meets (R84). -/
def Meets (l : Lane) (sl : Fin 9) (why : SliceCause) : Prop := (sl, why) ∈ l.suspects ∨ (why = .bitWeight ∧ l.tested = true)
/-- Every safety group is shut down, no emitter is on, and SDC_LAT is at its shutdown level, for a wait (R58, R571). -/
def AllShut (t : State) : Prop :=
  (∀ g : Fin 16, t.shut[g] = true) ∧ (∀ e : Fin 128, t.emOn[e] = false) ∧ bit t.sdc.stat 16 = true ∧ t.sdc.phase ≠ .framing ∧ t.sdc.phase ≠ .discovering

/-- `t` is `s` with another clock block, but for events and replies. -/
def ClkOnly (s t : State) : Prop := SameWork { s with clk := t.clk } t

/-- No cause that holds SDC_LAT at its shutdown level stands, but EN and a failed chain (R571). -/
def NoCause (s : State) : Prop := s.sdc.causeIntlk = false ∧ s.sdc.causeAux = false ∧ s.sdc.causeTemp = false

/-- The status of device `d` in a received frame is good (R51). -/
def GoodStatus (s : State) (rx : List (BitVec 64)) (d : Nat) : Prop :=
  statusOk ((rx.take (fld s.sdc.stat 0 6)).reverse.getD d 0) (s.sdc.latched.getD d 0) (s.sdc.ids.getD d 0) = true

/-- A received frame passes the integrity check (R51): a block of each device, all good, and one of zeros. -/
def Passes (s : State) (rx : List (BitVec 64)) : Prop :=
  rx.length = fld s.sdc.stat 0 6 + 1 ∧ rx.getD (fld s.sdc.stat 0 6) 1 = 0 ∧ ∀ d < fld s.sdc.stat 0 6, GoodStatus s rx d

/-- A good status of the frame shows emitter `e` in electrical fault (R58). -/
def Faulty (s : State) (rx : List (BitVec 64)) (e : Nat) : Prop :=
  ∃ d < fld s.sdc.stat 0 6, GoodStatus s rx d ∧ e ∈ faultsOf ((rx.take (fld s.sdc.stat 0 6)).reverse.getD d 0) (s.sdc.latched.getD d 0) d

/-- The groups of the emitters in electrical fault shut down, and no others (R58). -/
def FaultsShut (s : State) (rx : List (BitVec 64)) (t : State) : Prop :=
  (∀ g : Fin 16, t.shut[g] = true ↔ s.shut[g] = true ∨ ∃ e, Faulty s rx e ∧ g.val = emGroup s.settings e) ∧
    (∀ (e : Nat) (g : Fin 16), Faulty s rx e → g.val = emGroup s.settings e → s.shut[g] = false → s.boot.inReset = false →
      t.ev.pend.getLsbD 204 = true ∧ t.ev.pend.getLsbD 202 = true)

/-- A discovery found nothing that the chain can run with: the chain has failed (R53, R58), for the first time or again. -/
def DiscoveryFails (s t : State) : Prop :=
  t.sdc.chainFailed = true ∧ t.sdc.known = false ∧ bit t.sdc.stat 16 = true ∧ t.sdc.phase ≠ .framing ∧ t.sdc.phase ≠ .discovering ∧
    (∀ e : Fin 128, t.emOn[e] = false) ∧ t.sdc.waitUntil = t.time.mono + 10 * ms ∧ t.settings = s.settings ∧
    (s.sdc.chainFailed = true → t.shut = s.shut ∧ t.ev = s.ev) ∧
    (s.sdc.chainFailed = false → AllShut t ∧ t.rind.inhibitOuter = true ∧
      (s.boot.inReset = false → t.ev.pend.getLsbD 204 = true ∧ t.ev.pend.getLsbD 201 = true))

/-- A source's OK bit of CLK_STAT (R204). -/
def sourceBit (r : RefSrc) : Nat := if r = .recovered then 2 else 3

/-- From `u` on, CK_REF moves to the source that R190 calls for, unless it stands there, a ramp runs or a latch pulse is in progress (R191 to R194). -/
def Moves (u t : State) : Prop :=
  (u.clk.ramp ≠ .none ∨ u.clk.wanted = u.clk.src ∨ u.latchUntil ≠ none → t.clk = u.clk ∧ t.axc1 = u.axc1 ∧ t.sdc = u.sdc) ∧
  (u.clk.ramp = .none → u.clk.wanted ≠ u.clk.src → u.latchUntil = none →
    t.clk.ramp = .ref u.clk.wanted false ∧ t.clk.rampAt = u.time.mono ∧ bit t.clk.stat 4 = true ∧ bit t.clk.stat 15 = true ∧
    (∀ i, i ≠ 4 → i ≠ 15 → bit t.clk.stat i = bit u.clk.stat i) ∧ (bit u.clk.fstat 0 = true → bit t.clk.fstat 3 = true) ∧
    (∀ i : Fin 96, t.clk.paceRamp[i] = true) ∧ (u.axc1.running.isSome = true → t.axc1.invalid = true) ∧
    ({ tag := 3, pos := none, since := u.time.mono, till := some (u.time.mono + 8 * us) } : TagSpan) ∈ t.clk.spans ∧
    t.sdc = { u.sdc with waitUntil := t.sdc.waitUntil } ∧
    (u.sdc.phase ≠ .framing → u.sdc.phase ≠ .discovering → t.sdc = u.sdc) ∧
    (u.sdc.phase = .framing ∨ u.sdc.phase = .discovering → u.sdc.waitUntil ≤ t.sdc.waitUntil))

/-- A loop's lock bit of CLK_STAT (R204). -/
def lockBit : Loop → Nat | .memory => 7 | .ethernet => 8 | .auxiliary => 9

/-- A REF10 window of `hz` is good (R221): within 100 ppm of 10 MHz, with REF_EN 1. -/
def goodWindow (s : State) (hz : Nat) : Bool := 9999000 ≤ hz && hz ≤ 10001000 && bit s.tiu.ctl 0

/-- The running measurement has ended in `t`, at the time of `u`: EV185, and the next one that waits has the converter (R230, R234, R235). -/
def MeasEnds (u t : State) : Prop :=
  t.time = u.time ∧ t.ev.pend.getLsbD 185 = true ∧ t.tiu.conv = u.tiu.conv ∧ t.settings = u.settings ∧ t.lanes = u.lanes ∧
    (u.tiu.queue = [] ∨ u.tiu.user = 3 → t.tiu.run = none ∧ t.tiu.queue = u.tiu.queue) ∧
    (∀ m rest, u.tiu.queue = m :: rest → u.tiu.user ≠ 3 → t.tiu.run.map (·.req) = some m ∧ t.tiu.queue = rest)

/-- The gate of `r` opens in `u` with a length and a flag: `q` (R230). -/
def GateOpens (u : State) (r q : MeasRun) (len : Option Time) : Prop :=
  q.isOpen = true ∧ q.done = r.done ∧ q.tOpen = u.unitNow ∧ q.gateAt = u.time.mono ∧ q.gateLen = len ∧ q.req = r.req ∧ q.results = r.results ∧
    q.edgesA = 0 ∧ q.edgesB = 0 ∧ (bit u.tiu.stat 4 = true → q.flags.getLsbD 4 = true)
/-- No command waits in any session. -/
def NoneWaits (s : State) : Prop := ∀ i : SessIx, s.sessions[i].waiting = []

/-- The main partition is in reset: the settings, sessions, engines, ports, lanes, events and links are as after reset, every group is shut while the
interlock loop reads open, and the Raman inhibit is asserted; the always-on island and the Rind's own state are as in `s`, but that the Supervisor's held
commands go, and after a loss of power what the mailbox held (R246, R524). -/
structure InReset (warm : Bool) (s t : State) : Prop where
  inReset : t.boot.inReset = true
  settings : t.settings = State.reset.settings
  sessions : t.sessions = State.reset.sessions
  ports : t.ports = State.reset.ports
  lanes : t.lanes = State.reset.lanes
  engines : t.engines = State.reset.engines
  press : t.press = State.reset.press
  events : t.ev = State.reset.ev
  links : t.links = State.reset.links
  streams : t.streams = State.reset.streams
  clocks : t.clk = State.reset.clk
  shut : ∀ g : Fin 16, t.shut[g] = s.sdc.causeIntlk
  dark : t.emOn = State.reset.emOn
  inhibit : t.rind.inhibitOuter = true
  rind : t.rind = if warm then { s.rind with held := [], inhibitOuter := true }
    else { s.rind with held := [], inhibitOuter := true, request := none, ackWord := 0, slot := [], reply := [], timeWord := none }
  island : t.aon = s.aon
  journal : t.boot.journal = s.boot.journal ∧ t.boot.retired = s.boot.retired ∧ t.boot.saved = s.boot.saved ∧ t.boot.faultLog = s.boot.faultLog
/-- The conditions of a launch of group `g` (R26, R40, R61, R62, R98, R198, R200): power state RUN, a probing mode and a plan in force, the gate
waiting for no boundary, the frame timer running, no dark-floor frame, the safety group armed, both loops in lock, and in emission reduction
the restart ping alone. -/
def MayLaunch (s : State) (p : PortIx) (g : Nat) : Prop :=
  s.running = true ∧ s.ports[p].plan.probing p.val = true ∧ s.ports[p].plan.hasPlan p.val = true ∧ s.ports[p].reopen = false ∧
    s.ports[p].frozen = false ∧ s.ports[p].lockResume = false ∧ s.groupShut (portGroup s.settings p.val) = false ∧
    bit s.clk.stat 5 = true ∧ bit s.clk.stat 6 = true ∧ s.ports[p].dark ≠ .closed ∧ s.ports[p].dark ≠ .measured ∧
    (bit s.ports[p].stat 7 = true → g = 0 ∧ s.ports[p].redFrames % 64 = 0)

/-- Whether bin `z` lies where the summed power of group 0's last 16 pings over bins z − 8 to z + 7 is at least four times the floor (R131). -/
def AboveFloor (s : State) (p : PortIx) (z : Nat) : Prop :=
  8 ≤ z ∧ z + 8 ≤ nBins s.ports[p].plan p.val ∧ 4 * s.floorOf p 0 * 16 * 16 ≤
    ((((List.range (nBins s.ports[p].plan p.val)).map fun y => s.ports[p].group0.foldl (fun a l => a + l.getD y 0) 0).drop (z - 8)).take 16).foldl (· + ·) 0

/-- The EXACT chains of a zone's product `pr` (R154). -/
def chainsOf (r : ZoneRt) (z pr : Nat) : List Chain := (r.chains.filter fun c => zoneExact c.cfg z).filter fun c => c.product == pr

/-- The chain that serves column 0 of the zone's first product at instant `i`: its settings give the output grid (R149, R162). -/
def GridChain (r : ZoneRt) (z : Nat) (i : Time) : Option Chain :=
  chainAt (chainsOf r z (([1, 2, 3].filter fun pr => (r.chains.filter fun c => zoneExact c.cfg z).any fun c => c.product == pr).headD 0)) z 0 i

/-- Every column of every product has the inputs that its output at `i` takes (R154). -/
def InputsThere (r : ZoneRt) (z : Nat) (c0 : Chain) (i : Time) : Prop :=
  ∀ pr, (1 ≤ pr ∧ pr ≤ 3) → ∀ col, col < zonePts c0.cfg z → ∀ c, chainAt (chainsOf r z pr) z col i = some c →
    c.ready z col (gridNo i (c0.cfg.zone z 0x1302)) (c0.cfg.zone z 0x1302) = true

/-- The end of the interval that follows the one that ended last, or else holds the device time (R159, R238). -/
def nextEnd (last : Option Time) (now per : Time) : Time := ((match last with | some e => ceilDiv e per | none => now / per) + 1) * per

/-- The Cave's accesses go on: the memory loop is in lock and the interface out of reset (R201, R529). -/
def CaveOpen (s : State) : Prop := bit s.clk.stat 7 = true ∧ CrossId.memory ∉ s.links.resetFlags

/-- The host jobs once the Ladle has given each one without a lane the lane of R398. -/
def GivenJobs (s : State) : List HostJob := s.jobs.map fun j => if j.lane.isNone then { j with lane := s.jobLane } else j

/-- Whether a migration's source has reached its handover point (R368): a pipeline's shadow frame, an engine between invocations. -/
def AtHandover (s : State) (m : Migration) : Prop :=
  match m.source with
  | .pipeline _ => m.shadow = true
  | .engine n => s.engines[n].current = none
  | _ => True

/-- The status of a unit reads RETIRED, and the retired-unit record keeps it (R368, R378, R541). -/
def ReadsRetired (u : UnitName) (t : State) : Prop :=
  match u with
  | .pipeline n => bit t.pipes[n].src 7 = true ∧ t.boot.retired.pipes.getLsbD n.val = true
  | .engine n => fld t.engines[n].stat 0 3 = 6 ∧ t.boot.retired.engines.getLsbD n.val = true
  | .press n => fld t.press[n].stat 0 3 = 5 ∧ t.boot.retired.press.getLsbD n.val = true
  | .vernier n => bit t.tiu.stat (14 + n.val) = true ∧ t.boot.retired.verniers.getLsbD n.val = true
  | .lane _ => True

/-- Nothing of the zone waits in its staging region (R371, R373). -/
def Unstaged (t : State) (z : Nat) : Prop := ∀ it ∈ t.streams.queue, it.zone = some z → it.urgent = true ∨ it.seq0.isSome = true ∨ it.inPool = true

end Sys2Proof.Claims

open Sys2Proof.Claims

/-- A step takes the command at the front of the queue and runs it on the rest. The idle tick: the model's choice, log entry 1. -/
def Obligations.StepRunsTheFrontCommand : Prop :=
  (∀ (s : State) (c : Instr) (cs : List Instr), step { s with pending := c :: cs } = exec c { s with pending := cs }) ∧
  (∀ s : State, s.pending = [] → ∃ t, step s = .next t ∧ t.time.mono = s.time.mono + us ∧ t.rind.time = s.rind.time + us ∧
    t.aon.rtc = s.aon.rtc + us ∧ t = { s with time := t.time, rind := { s.rind with time := t.rind.time }, aon := { s.aon with rtc := t.aon.rtc } })

/-- Every command goes on and leaves the queue alone. -/
def Obligations.NoCommandTouchesTheQueue : Prop :=
  ∀ (c : Instr) (s : State), ∃ t, exec c s = .next t ∧ t.pending = s.pending

/-- Every byte memory keeps its canonical form over every step. -/
def Obligations.EveryStepKeepsMemoryCanonical : Prop :=
  ∀ s t : State, s.memOk → step s = .next t → t.memOk

/-- Reset has the invariant of EveryStepKeepsMemoryCanonical, for every byte memory. -/
def Obligations.ResetMemoryIsCanonical : Prop :=
  State.reset.memOk ∧ State.reset.pending = []

/-- R442, R448: packets that reach no session. `State.answer` sends the reply and frees the request slot. -/
def Obligations.MalformedOrStrayPacketsChangeNothing : Prop :=
  ∀ (s : State) (c : Instr) (op : Nat) (k : Packet), request c = some (op, k) → s.boot.inReset = false →
    (headerOk k = false → exec c s = .next (s.answer op k 0x020A []) ∧ SameWork s (s.answer op k 0x020A []) ∧
      SameSess s (s.answer op k 0x020A [])) ∧
    (headerOk k = true → op ≠ 0x0101 →
      (∀ i : SessIx, k.session.toNat = i.val → s.sessions[i].isOpen = false ∨ s.sessions[i].transport ≠ k.transport) →
      exec c s = .next (s.answer op k 0x0101 []) ∧ SameWork s (s.answer op k 0x0101 []) ∧ SameSess s (s.answer op k 0x0101 []))

/-- R446, R474, R546. -/
def Obligations.CommandsRefusedBeforeTheyRun : Prop :=
  (∀ (s : State) (c : Instr) (op : Nat) (k : Packet) (i : SessIx), request c = some (op, k) → Listens i op k s →
    (preCheck op s ≠ 0 → Completes c s (Replies i op k (preCheck op s) [] (s.heard i k))) ∧
    (∀ e, preCheck op s = 0 → operands op k = .error e → Completes c s (Replies i op k e [] (s.heard i k)))) ∧
  (∀ (s : State) (op : BitVec 16) (k : Packet) (i : SessIx), Listens i op.toNat k s → opcodes.contains op.toNat = false →
    Completes (.unknownOpcode op k) s (Replies i op.toNat k 0x0201 [] (s.heard i k))) ∧
  (∀ (s : State) (op : Nat), opcodes.contains op = true → s.ready = false → op / 256 ≠ 1 → op / 256 ≠ 11 → preCheck op s = 0x0105) ∧
  (∀ (s : State) (op : Nat), opcodes.contains op = true → s.ready = true → (s.power = 3 ∨ (s.power = 2 ∧ idleAccepts op = false)) →
    preCheck op s = 0x0104)

/-- R451. R449, R450. -/
def Obligations.RetransmittedAndWaitingCommands : Prop :=
  (∀ (s : State) (c : Instr) (op : Nat) (k : Packet) (i : SessIx) (r : KeptReply), request c = some (op, k) → s.boot.inReset = false →
    headerOk k = true → op ≠ 0x0101 → k.session.toNat = i.val → s.sessions[i].isOpen = true → s.sessions[i].transport = k.transport →
    s.sessions[i].kept.find? (fun x => x.seq == k.seq) = some r →
    Completes c s fun t =>
      t = (((s.modSess i fun y => y.heard s.time.mono).sendAll k.transport r.packets).freeSlot k.transport k.session k.seq) ∧
      SameWork s t ∧ SameSess (s.modSess i fun y => y.heard s.time.mono) t) ∧
  (∀ (s : State) (c : Instr) (op : Nat) (k : Packet) (i : SessIx) (a : BitVec 16 × Packet), request c = some (op, k) → s.boot.inReset = false →
    headerOk k = true → op ≠ 0x0101 → k.session.toNat = i.val → s.sessions[i].isOpen = true → s.sessions[i].transport = k.transport →
    (∀ r ∈ s.sessions[i].kept, r.seq ≠ k.seq) → s.sessions[i].inProgress = some a → a.2.seq ≠ k.seq →
    (∀ w ∈ s.sessions[i].waiting, w.2.seq ≠ k.seq) →
    (64 ≤ s.outstanding i → exec c s = .next ((s.modSess i fun y => y.heard s.time.mono).answer op k 0x0103 [])) ∧
    (s.outstanding i < 64 → exec c s = .next ((s.modSess i fun y => y.heard s.time.mono).modSess i fun y =>
      { y with waiting := y.waiting ++ [(BitVec.ofNat 16 op, k)] })))

/-- R448, R462. -/
def Obligations.SessionCommandsAnswer : Prop :=
  (∀ (s : State) (k : Packet) (i : SessIx) (p : Parsed), Accepted i 0x0103 k p s →
    Completes (.sessionPing k) s (Replies i 0x0103 k 0 [item 0x030A (stampB s.time.dev)] (s.heard i k))) ∧
  (∀ (s : State) (k : Packet) (i : SessIx) (p : Parsed), Accepted i 0x0105 k p s →
    Completes (.identify k) s (Replies i 0x0105 k 0 [deviceItem s] (s.heard i k))) ∧
  (∀ (s : State) (k : Packet) (i : SessIx) (p : Parsed) (v : List Int), Accepted i 0x0104 k p s → p.val? 0x0222 = some v →
    Completes (.eventSubscribe k) s (Replies i 0x0104 k 0 [] ((s.heard i k).modSess i fun x =>
      { x with eventMask := BitVec.ofNat 256 (unle (v.map fun b => BitVec.ofInt 8 b)) }))) ∧
  (∀ (s : State) (k : Packet) (i : SessIx) (p : Parsed), Accepted i 0x0102 k p s →
    Completes (.sessionClose k) s fun t => SameWork s t ∧ t.sessions[i].isOpen = false ∧ t.sessions[i].txn = none ∧
      t.sessions[i].kept = [] ∧ t.sessions[i].waiting = [] ∧ ∀ j, j ≠ i → ∃ q, t.sessions[j] = { s.sessions[j] with evSeq := q }) ∧
  (∀ (s : State) (k : Packet) (i : SessIx) (p : Parsed), s.boot.inReset = false → headerOk k = true → operands 0x0101 k = .ok p →
    s.sessions[i].isOpen = false → (∀ j, j < i → s.sessions[j].isOpen = true) →
    Completes (.sessionOpen k) s fun t => SameWork s t ∧ t.sessions[i].isOpen = true ∧ t.sessions[i].transport = k.transport ∧
      t.sessions[i].timeout = p.getD 0x0221 30 ∧ t.sessions[i].txn = none ∧ t.sessions[i].eventMask = 0 ∧
      t.sessions[i].lastRx = s.time.mono ∧ t.sessions[i].kept.length = 1 ∧
      ∀ j, j ≠ i → ∃ q, t.sessions[j] = { s.sessions[j] with evSeq := q }) ∧
  (∀ (s : State) (k : Packet) (p : Parsed), s.boot.inReset = false → headerOk k = true → operands 0x0101 k = .ok p →
    (∀ j : SessIx, s.sessions[j].isOpen = true) → exec (.sessionOpen k) s = .next (s.answer 0x0101 k 0x0102 []))

/-- R452, R455 to R457, R463. R448, R455, R476. -/
def Obligations.TransactionsAnswerAndTimeOut : Prop :=
  ((∀ (s : State) (k : Packet) (i : SessIx) (p : Parsed), Accepted i 0x0201 k p s → s.sessions[i].txn = none →
    Completes (.txnBegin k) s (Replies i 0x0201 k 0 [item 0x0303 (le 2 s.sessions[i].nextTxn)] ((s.heard i k).modSess i fun y => { y with
      txn := some { id := s.sessions[i].nextTxn, timeout := p.getD 0x0220 10, lastRx := s.time.mono, staged := [] }
      nextTxn := s.sessions[i].nextTxn % 65535 + 1 }))) ∧
  (∀ (s : State) (k : Packet) (i : SessIx) (p : Parsed), Accepted i 0x0201 k p s → s.sessions[i].txn ≠ none →
    Completes (.txnBegin k) s (Replies i 0x0201 k 0x0505 [] (s.heard i k))) ∧
  (∀ (s : State) (k : Packet) (i : SessIx) (p : Parsed) (x : Txn), Accepted i 0x0203 k p s → s.sessions[i].txn = some x → x.id = k.txn.toNat →
    Completes (.txnRollback k) s (Replies i 0x0203 k 0 [] ((s.heard i k).modSess i fun y => { y with txn := none }))) ∧
  (∀ (s : State) (k : Packet) (i : SessIx) (p : Parsed) (x : Txn), Accepted i 0x0204 k p s → s.sessions[i].txn = some x → x.id = k.txn.toNat →
    Completes (.txnQuery k) s (Replies i 0x0204 k 0 (x.staged.map fun c => record (le 4 c.seq.toNat ++ le 2 c.opcode.toNat ++ zeros 2))
      (s.heard i k))) ∧
  (∀ (s : State) (k : Packet) (i : SessIx) (p : Parsed), Accepted i 0x0203 k p s → s.sessions[i].txn = none →
    Completes (.txnRollback k) s (Replies i 0x0203 k (if s.sessions[i].timedOut.contains k.txn.toNat then 0x0502 else 0x0501) [] (s.heard i k))) ∧
  (∀ (s u : State) (k : Packet) (i : SessIx) (p : Parsed) (x : Txn), Accepted i 0x0202 k p s → (s.heard i k).sessions[i].txn = some x →
    x.id = k.txn.toNat → (s.heard i k).tryCommit x.staged (some (i, 0x0202, k)) = .ok u →
    Completes (.txnCommit k) s fun t => t.sessions[i].txn = none ∧ t.sessions[i].inProgress = some (0x0202, k) ∧ t.settings = s.settings ∧
      t.commits.length = s.commits.length + 1 ∧ (t.commits.getLast?).map (·.target) = some ((seqOrder x.staged).foldl applyStaged s.base)) ∧
  (∀ (s : State) (k : Packet) (i : SessIx) (p : Parsed) (x : Txn) (e : Status × BitVec 32), Accepted i 0x0202 k p s →
    (s.heard i k).sessions[i].txn = some x → x.id = k.txn.toNat → (s.heard i k).tryCommit x.staged (some (i, 0x0202, k)) = .error e →
    Completes (.txnCommit k) s (Replies i 0x0202 k e.1 [item 0x0306 (le 4 e.2.toNat)] ((s.heard i k).raise 255)))) ∧
  ((∀ (s : State) (n : SessIx) (x : Txn), s.boot.inReset = false → s.sessions[n].txn = some x →
    Completes (.txnTimeout n) s fun t => SameWork (s.until (x.lastRx + x.timeout * sec)) t ∧
      t.time.mono = max s.time.mono (x.lastRx + x.timeout * sec) ∧ t.sessions[n].txn = none ∧
      t.sessions[n].timedOut = s.sessions[n].timedOut ++ [x.id] ∧ t.ev.pend.getLsbD 255 = true ∧
      ∀ j, j ≠ n → ∃ q, t.sessions[j] = { s.sessions[j] with evSeq := q }) ∧
  (∀ (s : State) (n : SessIx), s.sessions[n].txn = none → exec (.txnTimeout n) s = .next s) ∧
  (∀ (s : State) (n : SessIx), s.boot.inReset = false → s.sessions[n].isOpen = true →
    Completes (.sessionTimeout n) s fun t => SameWork (s.until (s.sessions[n].lastRx + s.sessions[n].timeout * sec)) t ∧
      t.time.mono = max s.time.mono (s.sessions[n].lastRx + s.sessions[n].timeout * sec) ∧ t.sessions[n].isOpen = false ∧
      t.sessions[n].txn = none ∧ t.sessions[n].kept = [] ∧ t.ev.pend.getLsbD 248 = true) ∧
  (∀ (s : State) (n : SessIx), s.sessions[n].isOpen = false → exec (.sessionTimeout n) s = .next s))

/-- R452, R455. R452 to R454, R460, R476. -/
def Obligations.SettingCommandsStageOrQueueTheirCommit : Prop :=
  (∀ (s : State) (k : Packet) (i : SessIx) (p : Parsed) (op : Nat) (c : Instr), (op, c) ∈ stageables k → Listens i op k s → preCheck op s = 0 →
    operands op k = .ok p → stageFlag k = true →
    (∀ x, s.sessions[i].txn = some x → x.id = k.txn.toNat → x.staged.length < 256 → x.bytes + k.body.length ≤ 1048576 →
      Completes c s fun t => SameWork s t ∧
        t.sessions[i].txn = some { x with staged := x.staged ++ [stagedOf op k p s.base], lastRx := s.time.mono } ∧
        t.sessions[i].kept.getLast? = some { seq := k.seq, packets := replyPackets op k 0 k.txn.toNat true [] }) ∧
    (∀ x, s.sessions[i].txn = some x → x.id = k.txn.toNat → (256 ≤ x.staged.length ∨ 1048576 < x.bytes + k.body.length) →
      Completes c s (Replies i op k 0x0504 [] (s.heard i k))) ∧
    ((∀ x, s.sessions[i].txn = some x → x.id ≠ k.txn.toNat) →
      Completes c s (Replies i op k (if s.sessions[i].timedOut.contains k.txn.toNat then 0x0502 else 0x0501) [] (s.heard i k)))) ∧
  (∀ (s : State) (k : Packet) (i : SessIx) (p : Parsed) (op : Nat) (c : Instr), (op, c) ∈ stageables k → Accepted i op k p s →
    (∀ u, (s.heard i k).tryCommit [stagedOf op k p s.base] (some (i, BitVec.ofNat 16 op, k)) = .ok u →
      Completes c s fun t => t.sessions[i].inProgress = some (BitVec.ofNat 16 op, k) ∧ t.commits.length = s.commits.length + 1 ∧
        (t.commits.getLast?).map (·.target) = some (applyStaged s.base (stagedOf op k p s.base)) ∧
        t.settings = s.settings ∧ t.ports = s.ports ∧ t.zones = s.zones ∧ t.ladle = s.ladle ∧ t.out = s.out ∧ t.ev = s.ev) ∧
    (∀ e, (s.heard i k).tryCommit [stagedOf op k p s.base] (some (i, BitVec.ofNat 16 op, k)) = .error e →
      Completes c s fun t => Replies i op k e.1 [] ((s.heard i k).raise 255) t ∧ SameWork s t))

/-- R454: the value of a setting under `applyStaged`. -/
def Obligations.SettingsTakeWhatACommandSets : Prop :=
  (∀ (ss : Settings) (c : Staged) (key : SetKey), (∀ x ∈ c.updates, x.1 ≠ key) → (∀ r ∈ c.removes, r ≠ (key.kind, key.inst)) →
    (key.kind = .pin → (Kind.zone, key.inst) ∉ c.removes) → (applyStaged ss c).val? key = ss.val? key) ∧
  (∀ (ss : Settings) (c : Staged) (key : SetKey) (v : List Int), v ≠ [] → (key, v) ∈ c.updates → (∀ x ∈ c.updates, x.1 = key → x.2 = v) →
    (applyStaged ss c).val? key = some v)

/-- R464 to R473. -/
def Obligations.QueriesAnswerAndChangeNothing : Prop :=
  ∀ (s : State) (k : Packet) (i : SessIx) (p : Parsed),
    (Accepted i 0x0309 k p s → Completes (.portQuery k) s (Replies i 0x0309 k 0 ((p.named 0x0101).flatMap fun n =>
      [item 0x0101 (le 1 n)] ++ instItems s.settings .port none n ++ [record (leW (s.portN n).stat)]) (s.heard i k))) ∧
    (Accepted i 0x030A k p s → (∀ e ∈ p.named 0x0104, emDefined s.settings e = true) →
      Completes (.emitterQuery k) s (Replies i 0x030A k 0 ((p.named 0x0104).flatMap fun e => [item 0x0104 (le 1 e)] ++
        instItems s.settings .emitter none e ++ [record (le 8 (s.sdc.status.getD (e / 4) 0).toNat)]) (s.heard i k))) ∧
    (Accepted i 0x030A k p s → (∃ e ∈ p.named 0x0104, emDefined s.settings e = false) →
      Completes (.emitterQuery k) s (Replies i 0x030A k 0x0225 [] (s.heard i k))) ∧
    (Accepted i 0x0404 k p s → (∀ z ∈ p.named 0x0102, z ∈ knownZones s) →
      Completes (.placeQuery k) s (Replies i 0x0404 k 0 ((if p.named 0x0102 = [] then knownZones s else p.named 0x0102).map fun z =>
        record (placeRecord (s.heard i k) z)) (s.heard i k))) ∧
    (Accepted i 0x0404 k p s → (∃ z ∈ p.named 0x0102, z ∉ knownZones s) →
      Completes (.placeQuery k) s (Replies i 0x0404 k 0x0225 [] (s.heard i k))) ∧
    (Accepted i 0x0503 k p s → (∀ n ∈ p.named 0x0101, s.settings.probing n = true ∧ bit s.clk.ckg1 n = true) →
      Completes (.rxcalQuery k) s (Replies i 0x0503 k 0 ((p.named 0x0101).map fun n =>
        record (leW (s.portN n).rxcStat ++ leW (s.portN n).rxcKap ++
          (List.range 4).flatMap fun l => leW (s.laneN (4 * n + l)).trim ++ leW (s.laneN (4 * n + l)).qsk)) (s.heard i k))) ∧
    (Accepted i 0x0503 k p s → (∃ n ∈ p.named 0x0101, s.settings.probing n = false) →
      Completes (.rxcalQuery k) s (Replies i 0x0503 k 0x0114 [] (s.heard i k))) ∧
    (Accepted i 0x0503 k p s → (∀ n ∈ p.named 0x0101, s.settings.probing n = true) → (∃ n ∈ p.named 0x0101, bit s.clk.ckg1 n = false) →
      Completes (.rxcalQuery k) s (Replies i 0x0503 k 0x0116 [] (s.heard i k))) ∧
    (Accepted i 0x0603 k p s → Completes (.timeQuery k) s (Replies i 0x0603 k 0
      [item 0x030A (stampB s.time.dev), record (leW s.clk.stat ++ leW s.tiu.stat)] (s.heard i k))) ∧
    (∀ img, Accepted i 0x0803 k p s → s.images.find? (fun x => x.id == p.getD 0x021D 0) = some img →
      Completes (.imageQuery k) s (Replies i 0x0803 k 0 [record (cut img.bytes 0 48)] (s.heard i k))) ∧
    (Accepted i 0x0803 k p s → s.images.find? (fun x => x.id == p.getD 0x021D 0) = none →
      Completes (.imageQuery k) s (Replies i 0x0803 k 0x0225 [] (s.heard i k))) ∧
    (Accepted i 0x0903 k p s → Completes (.pressQuery k) s (Replies i 0x0903 k 0
      (s.press.toList.map fun l => record (leW l.stat ++ leW l.inR ++ leW l.outR ++ leW l.rawCnt)) (s.heard i k))) ∧
    (Accepted i 0x0A07 k p s → p.val? 0x0227 = none → Completes (.captureQuery k) s (Replies i 0x0A07 k 0
      ((s.look.captures.filter (·.held)).map fun c => record c.header) (s.heard i k))) ∧
    (∀ v c, Accepted i 0x0A07 k p s → p.val? 0x0227 = some v → s.capture? (v.getD 0 0).toNat = some c → c.held = true →
      Completes (.captureQuery k) s (Replies i 0x0A07 k 0 [record c.header] (s.heard i k))) ∧
    (∀ v, Accepted i 0x0A07 k p s → p.val? 0x0227 = some v → (∀ c, s.capture? (v.getD 0 0).toNat = some c → c.held = false) →
      Completes (.captureQuery k) s (Replies i 0x0A07 k 0x0225 [] (s.heard i k))) ∧
    (Accepted i 0x0B03 k p s → Completes (.faultLog k) s (Replies i 0x0B03 k 0
      (((s.boot.faultLog.filter fun e => decide (p.getD 0x0226 0 ≤ e.index.toNat)).take 64).map fun e => record e.bytes) (s.heard i k))) ∧
    (Accepted i 0x0B04 k p s → Completes (.journalRead k) s (Replies i 0x0B04 k 0
      (s.boot.journal.map (fun r => record r.bytes) ++ [record s.boot.retired.bytes]) (s.heard i k))) ∧
    (Accepted i 0x0C02 k p s → Completes (.powerQuery k) s (Replies i 0x0C02 k 0 [item 0x0229 (le 1 s.power)] (s.heard i k)))

/-- R60, R98, R132, R161, R206, R229, R230, R239. -/
def Obligations.PortAndTimeCommandsAct : Prop :=
  ∀ (s : State) (k : Packet) (i : SessIx) (p : Parsed),
    (Accepted i 0x0307 k p s → (∀ g ∈ p.named 0x0105, s.rearmOk g = true) →
      Completes (.rearm k) s (Replies i 0x0307 k 0 [] ((p.named 0x0105).foldl (fun u g => u.rearm g) (s.heard i k)))) ∧
    (Accepted i 0x0307 k p s → (∃ g ∈ p.named 0x0105, s.rearmOk g = false) →
      Completes (.rearm k) s (Replies i 0x0307 k 0x0113 [] (s.heard i k))) ∧
    (Accepted i 0x0308 k p s → (∀ n ∈ p.named 0x0101, bit (s.portN n).endR 20 = true) →
      Completes (.endRebase k) s (Replies i 0x0308 k 0 [] ((p.named 0x0101).foldl (fun u n => u.onPort n fun q =>
        { q with refR := setBit (setFld q.refR 0 20 (fld q.endR 0 20)) 20 }) (s.heard i k)))) ∧
    (Accepted i 0x0308 k p s → (∃ n ∈ p.named 0x0101, bit (s.portN n).endR 20 = false) →
      Completes (.endRebase k) s (Replies i 0x0308 k 0x0122 [] (s.heard i k))) ∧
    (Accepted i 0x0409 k p s → (∀ z ∈ p.named 0x0102, z ∈ s.settings.zones) → Completes (.syncReset k) s
      (Replies i 0x0409 k 0 [] ((p.named 0x0102).foldl (fun u z => u.modZone z fun r => { r with resetPending := true }) (s.heard i k)))) ∧
    (Accepted i 0x0409 k p s → (∃ z ∈ p.named 0x0102, z ∉ s.settings.zones) →
      Completes (.syncReset k) s (Replies i 0x0409 k 0x0225 [] (s.heard i k))) ∧
    (Accepted i 0x0502 k p s → (∀ n ∈ p.named 0x0101, s.settings.probing n = true ∧ bit s.clk.ckg1 n = true) → Completes (.darkFloor k) s
      (Replies i 0x0502 k 0 [] ((p.named 0x0101).foldl (fun u n => u.onPort n fun q => { q with dark := .armed }) (s.heard i k)))) ∧
    (Accepted i 0x0502 k p s → (∃ n ∈ p.named 0x0101, s.settings.probing n = false) →
      Completes (.darkFloor k) s (Replies i 0x0502 k 0x0114 [] (s.heard i k))) ∧
    (Accepted i 0x0502 k p s → (∀ n ∈ p.named 0x0101, s.settings.probing n = true) → (∃ n ∈ p.named 0x0101, bit s.clk.ckg1 n = false) →
      Completes (.darkFloor k) s (Replies i 0x0502 k 0x0116 [] (s.heard i k))) ∧
    (Accepted i 0x0606 k p s → Completes (.anchor k) s
      (Replies i 0x0606 k 0 [] ((p.named 0x0101).foldl (fun u n => u.queueAnchor n) (s.heard i k)))) ∧
    (∀ m : MeasReq, Accepted i 0x0604 k p s → m.params = p.items.map (fun x => (x.1.code % 256, x.2)) → m.anchorPort = none →
      m.asked = s.time.dev → m.id = BitVec.ofNat 16 (s.freshId 16 s.tiu.ids).1 →
      (measOk m s.unitNow = true → s.tiu.user ≠ 3 → s.tiu.depth < 8 →
        Completes (.measStart k) s (Replies i 0x0604 k 0 [item 0x022A (le 2 (s.freshId 16 s.tiu.ids).1)]
          (((s.heard i k).freshId 16 s.tiu.ids).2.modTiu fun t => { t with queue := t.queue ++ [m] }).nextMeas)) ∧
      (measOk m s.unitNow = false → Completes (.measStart k) s (Replies i 0x0604 k 0x0219 [] (s.heard i k))) ∧
      (measOk m s.unitNow = true → s.tiu.user = 3 → Completes (.measStart k) s (Replies i 0x0604 k 0x0309 [] (s.heard i k))) ∧
      (measOk m s.unitNow = true → s.tiu.user ≠ 3 → 8 ≤ s.tiu.depth →
        Completes (.measStart k) s (Replies i 0x0604 k 0x0117 [] (s.heard i k)))) ∧
    (∀ r : MeasRun, Accepted i 0x0605 k p s → s.tiu.run = some r → r.req.anchorPort = none → r.req.id = BitVec.ofNat 16 (p.getD 0x022A 0) →
      Completes (.measCancel k) s (Replies i 0x0605 k 0 [] ((s.heard i k).endMeas 0x200 s.unitNow))) ∧
    (Accepted i 0x0605 k p s →
      (∀ r, s.tiu.run = some r → (r.req.anchorPort.isNone && r.req.id == BitVec.ofNat 16 (p.getD 0x022A 0)) = false) →
      (∀ m : MeasReq, s.tiu.queue.find? (fun m => m.anchorPort.isNone && m.id == BitVec.ofNat 16 (p.getD 0x022A 0)) = some m →
        Completes (.measCancel k) s (Replies i 0x0605 k 0 []
          (((s.heard i k).modTiu fun t => ({ t with queue := t.queue.erase m } : Tiu).show).dropMeas m 0x200))) ∧
      (s.tiu.queue.find? (fun m => m.anchorPort.isNone && m.id == BitVec.ofNat 16 (p.getD 0x022A 0)) = none →
        Completes (.measCancel k) s (Replies i 0x0605 k 0x0225 [] (s.heard i k))))

/-- R84, R206, R358, R367, R374, R465, R473, R510. -/
def Obligations.PlacementAndDiagnosticCommandsAct : Prop :=
  ∀ (s : State) (k : Packet) (i : SessIx) (p : Parsed),
    (Accepted i 0x040B k p s → namedImageBytes s ≤ 1048576 → s.boot.nvBad = false →
      Completes (.configSave k) s (Replies i 0x040B k 0 [] ((s.heard i k).modBoot fun b => { b with
        saved := s.settings.filter fun x => savedKey x.key && !x.val.isEmpty
        savedImages := s.images.filter fun x => ((s.settings.zones.map fun z => s.settings.zone z 0x1705).filter (· ≠ 0)).contains x.id
        savedNet := (s.links.eth.toList).flatMap Eth.netWords }))) ∧
    (Accepted i 0x040B k p s → 1048576 < namedImageBytes s → Completes (.configSave k) s (Replies i 0x040B k 0x030B [] (s.heard i k))) ∧
    (Accepted i 0x040B k p s → namedImageBytes s ≤ 1048576 → s.boot.nvBad = true →
      Completes (.configSave k) s (Replies i 0x040B k 0x0603 [] (s.heard i k))) ∧
    (Accepted i 0x0B05 k p s → Completes (.journalClear k) s (Replies i 0x0B05 k 0 []
      ((s.heard i k).modBoot fun b => { b with journal := [], retired := Retired.reset }))) ∧
    (∀ n, Accepted i 0x0B01 k p s → unitNamed p = some (.lane n) → bit s.clk.ckg1 (lanePort n).val = true →
      Completes (.sliceTest k) s (Replies i 0x0B01 k 0 [] ((s.heard i k).modLane n fun l => { l with tested := true }))) ∧
    (∀ n, Accepted i 0x0B01 k p s → unitNamed p = some (.lane n) → bit s.clk.ckg1 (lanePort n).val = false →
      Completes (.sliceTest k) s (Replies i 0x0B01 k 0x0116 [] (s.heard i k))) ∧
    (Accepted i 0x0B01 k p s → (∀ n, unitNamed p ≠ some (.lane n)) → Completes (.sliceTest k) s (Replies i 0x0B01 k 0x0202 [] (s.heard i k))) ∧
    (∀ u, Accepted i 0x0B02 k p s → unitNamed p = some u → (∀ n, u ≠ .lane n) → s.unitOk u = false →
      Completes (.selfTest k) s (Replies i 0x0B02 k 0 [] ((s.heard i k).startTests [u]))) ∧
    (∀ u, Accepted i 0x0B02 k p s → unitNamed p = some u → (s.unitOk u = true ∨ ∃ n, u = .lane n) →
      Completes (.selfTest k) s (Replies i 0x0B02 k 0x0202 [] (s.heard i k))) ∧
    (∀ u, Accepted i 0x0407 k p s → unitNamed p = some u → (∀ n, u ≠ .lane n) → (∀ n, u ≠ .vernier n) →
      Completes (.retire k) s (Replies i 0x0407 k 0 [] (if s.isRetired u then s.heard i k else (s.heard i k).retirePlanned u))) ∧
    (∀ u, Accepted i 0x0407 k p s → unitNamed p = some u → ((∃ n, u = .lane n) ∨ ∃ n, u = .vernier n) →
      Completes (.retire k) s (Replies i 0x0407 k 0x0202 [] (s.heard i k))) ∧
    (Accepted i 0x0406 k p s → p.getD 0x0218 0 ≤ (reserveEngines s).length → Completes (.capacity k) s (Replies i 0x0406 k 0 []
      (((reserveEngines s).take ((reserveEngines s).length - p.getD 0x0218 0)).foldl (fun u n => u.modEng n fun e => e.setState 1)
        (s.heard i k)).refreshLadle)) ∧
    (Accepted i 0x0406 k p s → (reserveEngines s).length < p.getD 0x0218 0 →
      let out := enginesOut s (p.getD 0x0218 0)
      let busy := out.filter fun n => s.ladle.place.holds (.engine n)
      (engineRoom s out).length < busy.length ∨ (enginesInService s).length < p.getD 0x0218 0 - (reserveEngines s).length →
      Completes (.capacity k) s (Replies i 0x0406 k 0x0302 [] (s.heard i k))) ∧
    (Accepted i 0x0406 k p s → (reserveEngines s).length < p.getD 0x0218 0 →
      let out := enginesOut s (p.getD 0x0218 0)
      let busy := out.filter fun n => s.ladle.place.holds (.engine n)
      busy.length ≤ (engineRoom s out).length → p.getD 0x0218 0 - (reserveEngines s).length ≤ (enginesInService s).length →
      Completes (.capacity k) s (Replies i 0x0406 k 0 []
        ((out.filter fun n => !(busy.contains n)).foldl (fun u n => u.modEng n fun e => e.setState 0)
          ((busy.zip (engineRoom s out)).foldl (fun u ab => (u.losePins (.engine ab.1)).migrate (.engine ab.1) (.engine ab.2) false true 0)
            (s.heard i k))).refreshLadle)) ∧
    (∀ e, Accepted i 0x0405 k p s → placeAll (s.heard i k) s.settings s.settings true = .error e →
      Completes (.rebalance k) s (Replies i 0x0405 k 0 [] (s.heard i k))) ∧
    (∀ new, Accepted i 0x0405 k p s → placeAll (s.heard i k) s.settings s.settings true = .ok new →
      let now : Placement := { s.ladle.place with press := new.press, cave := new.cave, links := new.links, rings := new.rings }
      let ms := (unitMoves s.ladle.place new).filter fun m => !(s.ladle.migrations.any fun y => y.source == m.1 || y.target == m.2)
      Completes (.rebalance k) s (Replies i 0x0405 k 0 [] (State.moveAll (2 * ms.length) ms
        (if now = s.ladle.place then s.heard i k else ((s.heard i k).applyPlacement now).raise 251))))

/-- R348, R349, R396 to R403, R470, R471. -/
def Obligations.StoreCommandsKeepWhatTheyAreGiven : Prop :=
  ∀ (s : State) (k : Packet) (i : SessIx) (p : Parsed),
    (∀ (t : Int) (bs : List Int) (piece : List Byte), Accepted i 0x0801 k p s → p.val? 0x021E = some (0 :: t :: bs) →
      piece = bs.map (fun v => BitVec.ofInt 8 v) →
      let used := s.images.map (·.id) ++ s.loads.map (·.2.id)
      let id := (s.freshId 32 used).1
      (64 ≤ used.length → Completes (.imageLoad k) s (Replies i 0x0801 k 0x0121 [] (s.heard i k))) ∧
      (used.length < 64 → t.toNat = piece.length → imageOk piece = true → Completes (.imageLoad k) s (Replies i 0x0801 k 0 [item 0x021D (le 4 id)]
        { ((s.heard i k).freshId 32 used).2 with images := s.images ++ [{ id := id, bytes := piece }] })) ∧
      (used.length < 64 → t.toNat = piece.length → imageOk piece = false →
        Completes (.imageLoad k) s (Replies i 0x0801 k 0x021D [] (s.heard i k))) ∧
      (used.length < 64 → piece.length < t.toNat → Completes (.imageLoad k) s (Replies i 0x0801 k 0 [item 0x021D (le 4 id)]
        { ((s.heard i k).freshId 32 used).2 with loads := s.loads ++ [(t.toNat, { id := id, bytes := piece })] })) ∧
      (used.length < 64 → t.toNat < piece.length → Completes (.imageLoad k) s (Replies i 0x0801 k 0x0202 [] (s.heard i k)))) ∧
    (∀ (o t : Int) (bs : List Int), Accepted i 0x0801 k p s → p.val? 0x021E = some (o :: t :: bs) → 0 < o.toNat →
      (p.val? 0x021D = none → Completes (.imageLoad k) s (Replies i 0x0801 k 0x020D [] (s.heard i k))) ∧
      (∀ v, p.val? 0x021D = some v → s.loads.find? (fun x => x.2.id == (v.getD 0 0).toNat) = none →
        Completes (.imageLoad k) s (Replies i 0x0801 k 0x0225 [] (s.heard i k))) ∧
      (∀ v l, p.val? 0x021D = some v → s.loads.find? (fun x => x.2.id == (v.getD 0 0).toNat) = some l →
        (l.1 ≠ t.toNat ∨ l.2.bytes.length < o.toNat ∨ t.toNat < o.toNat + bs.length) →
        Completes (.imageLoad k) s (Replies i 0x0801 k 0x0202 [] (s.heard i k)))) ∧
    (∀ (o t : Int) (bs v : List Int) (piece whole : List Byte) (l : Nat × Image), Accepted i 0x0801 k p s →
      p.val? 0x021E = some (o :: t :: bs) → 0 < o.toNat → piece = bs.map (fun v => BitVec.ofInt 8 v) → p.val? 0x021D = some v →
      s.loads.find? (fun x => x.2.id == (v.getD 0 0).toNat) = some l → l.1 = t.toNat → o.toNat ≤ l.2.bytes.length →
      whole = imagePiece l.2.bytes o.toNat piece →
      (o.toNat + piece.length < t.toNat → Completes (.imageLoad k) s (Replies i 0x0801 k 0 [] { (s.heard i k) with
        loads := s.loads.map fun x => if x == l then (l.1, { id := l.2.id, bytes := whole }) else x })) ∧
      (o.toNat + piece.length = t.toNat → imageOk whole = true → Completes (.imageLoad k) s (Replies i 0x0801 k 0 [] { (s.heard i k) with
        loads := s.loads.erase l, images := s.images ++ [{ id := l.2.id, bytes := whole }] })) ∧
      (o.toNat + piece.length = t.toNat → imageOk whole = false →
        Completes (.imageLoad k) s (Replies i 0x0801 k 0x021D [] (s.heard i k)))) ∧
    (Accepted i 0x0802 k p s → ((∃ x ∈ s.images, x.id = p.getD 0x021D 0) ∨ ∃ x ∈ s.loads, x.2.id = p.getD 0x021D 0) →
      s.imageUsed (p.getD 0x021D 0) = false →
      Completes (.imageDelete k) s (Replies i 0x0802 k 0 [] { (s.heard i k) with
        images := s.images.filter fun x => x.id != p.getD 0x021D 0, loads := s.loads.filter fun x => x.2.id != p.getD 0x021D 0 })) ∧
    (Accepted i 0x0802 k p s → (∃ x ∈ s.images, x.id = p.getD 0x021D 0) → s.imageUsed (p.getD 0x021D 0) = true →
      Completes (.imageDelete k) s (Replies i 0x0802 k 0x0120 [] (s.heard i k))) ∧
    (Accepted i 0x0802 k p s → (∀ x ∈ s.images, x.id ≠ p.getD 0x021D 0) → (∀ x ∈ s.loads, x.2.id ≠ p.getD 0x021D 0) →
      Completes (.imageDelete k) s (Replies i 0x0802 k 0x0225 [] (s.heard i k))) ∧
    (∀ v : List Int, Accepted i 0x0901 k p s → p.val? 0x021F = some v →
      (s.jobRefusal (v.map fun b => BitVec.ofInt 8 b) = 0 → Completes (.jobSubmit k) s (Replies i 0x0901 k 0 [] { (s.heard i k) with
        jobs := s.jobs ++ [{
          desc := v.map fun b => BitVec.ofInt 8 b, lane := none, running := false, setAside := false, cancel := false
          cls := 2, arrived := s.time.mono }] })) ∧
      (s.jobRefusal (v.map fun b => BitVec.ofInt 8 b) ≠ 0 → Completes (.jobSubmit k) s
        (Replies i 0x0901 k (s.jobRefusal (v.map fun b => BitVec.ofInt 8 b)) [] (s.heard i k)))) ∧
    (Accepted i 0x0902 k p s → (∃ j ∈ s.jobs, jobField j.desc 4 4 = p.getD 0x022B 0) →
      Completes (.jobCancel k) s (Replies i 0x0902 k 0 [] { (s.heard i k) with
        jobs := (s.jobs.filter fun j => jobField j.desc 4 4 != p.getD 0x022B 0 || j.running || j.setAside).map fun j =>
          if jobField j.desc 4 4 = p.getD 0x022B 0 then { j with cancel := true } else j })) ∧
    (Accepted i 0x0902 k p s → (∀ j ∈ s.jobs, jobField j.desc 4 4 ≠ p.getD 0x022B 0) →
      Completes (.jobCancel k) s (Replies i 0x0902 k 0x0225 [] (s.heard i k)))

/-- R431, R433, R435, R437, R438, R472. -/
def Obligations.LookbackCommandsAct : Prop :=
  ∀ (s : State) (k : Packet) (i : SessIx) (p : Parsed),
    (∀ n, Accepted i 0x0A03 k p s → p.named 0x0109 = [n] → trigSet s.settings n = true → trigPar s.settings n 0 = 0 →
      ((s.heard i k).fireCommand n).1 = 0 → Completes (.triggerFire k) s (Replies i 0x0A03 k 0
        (if ((s.heard i k).fireCommand n).2.look.captures.length ≠ s.look.captures.length then [item 0x0227 (le 4 s.look.nextCapture)] else [])
        ((s.heard i k).fireCommand n).2)) ∧
    (∀ st items u, Accepted i 0x0A03 k p s → fireAll (s.heard i k) (p.named 0x0109) [] (s.heard i k) = .done st items u →
      Completes (.triggerFire k) s (Replies i 0x0A03 k st items u)) ∧
    (∀ n, Accepted i 0x0A03 k p s → p.named 0x0109 = [n] → trigSet s.settings n = false →
      Completes (.triggerFire k) s (Replies i 0x0A03 k 0x0225 [] (s.heard i k))) ∧
    (∀ n, Accepted i 0x0A03 k p s → p.named 0x0109 = [n] → trigSet s.settings n = true → trigPar s.settings n 0 ≠ 0 →
      Completes (.triggerFire k) s (Replies i 0x0A03 k 0x0222 [] (s.heard i k))) ∧
    (∀ c, Accepted i 0x0A04 k p s → s.capture? (p.getD 0x0227 0) = some c → c.held = true →
      Completes (.captureRelease k) s fun t => Replies i 0x0A04 k 0 [] ((s.heard i k).releaseCapture c.id) t ∧
        ((s.heard i k).releaseCapture c.id).capture? c.id = none ∧
        ∀ x ∈ s.look.captures, x.id ≠ c.id → ((s.heard i k).releaseCapture c.id).capture? x.id ≠ none) ∧
    (Accepted i 0x0A04 k p s → s.capture? (p.getD 0x0227 0) = none →
      Completes (.captureRelease k) s (Replies i 0x0A04 k 0x0225 [] (s.heard i k))) ∧
    (∀ c, Accepted i 0x0A05 k p s → s.capture? (p.getD 0x0227 0) = some c → c.held = true →
      Completes (.dump k) s fun t => Replies i 0x0A05 k 0 [] ((s.heard i k).dumpCapture c) t ∧ SameWork s t) ∧
    (∀ c, Accepted i 0x0A05 k p s → s.capture? (p.getD 0x0227 0) = some c → c.held = false →
      Completes (.dump k) s (Replies i 0x0A05 k 0x0225 [] (s.heard i k))) ∧
    (Accepted i 0x0A06 k p s → s.capture? (p.getD 0x0227 0) = none →
      Completes (.reanalyse k) s (Replies i 0x0A06 k 0x0223 [] (s.heard i k))) ∧
    (∀ c v, Accepted i 0x0A06 k p s → s.capture? (p.getD 0x0227 0) = some c → p.val? 0x0228 = some v →
      let raw := v.getD 0 0 == 1
      let ps := p.items.filter fun x => x.1.code / 256 == 0x12 || x.1.code / 256 == 0x13
      let has := c.held && !(if raw then c.rawR.isNone else c.curdR.isNone)
      let okay := jobParamsOk c ps raw (v.getD 1 0).toNat
      (has = false → Completes (.reanalyse k) s (Replies i 0x0A06 k 0x0223 [] (s.heard i k))) ∧
      (has = true → okay = false → Completes (.reanalyse k) s (Replies i 0x0A06 k 0x0222 [] (s.heard i k))) ∧
      (has = true → okay = true → c.flags.getLsbD 2 = true → Completes (.reanalyse k) s (Replies i 0x0A06 k 0x0224 [] (s.heard i k))) ∧
      (has = true → okay = true → c.flags.getLsbD 2 = false → s.idlePipe = none →
        Completes (.reanalyse k) s (Replies i 0x0A06 k 0x0301 [] (s.heard i k))) ∧
      (∀ n, has = true → okay = true → c.flags.getLsbD 2 = false → s.idlePipe = some n →
        Completes (.reanalyse k) s (Replies i 0x0A06 k 0 [] ((s.heard i k).modLook fun l => { l with
          jobs := l.jobs ++ [(c.id, n, ps.map fun x => { key := x.1, val := x.2, gen := 0 }, if raw then 1 else 2, (v.getD 1 0).toNat)] }))))

/-- R473, R543 to R546. -/
def Obligations.PowerSetChangesTheState : Prop :=
  ∀ (s : State) (k : Packet) (i : SessIx) (p : Parsed),
    (Accepted i 0x0C01 k p s → p.getD 0x0229 0 ≤ 3 → p.getD 0x0229 0 = s.power →
      Completes (.powerSet k) s (Replies i 0x0C01 k 0 [] (s.heard i k))) ∧
    (Accepted i 0x0C01 k p s → 3 < p.getD 0x0229 0 → Completes (.powerSet k) s (Replies i 0x0C01 k 0x0202 [] (s.heard i k))) ∧
    (Accepted i 0x0C01 k p s → p.getD 0x0229 0 = 0 → s.power ≠ 0 → Completes (.powerSet k) s (Replies i 0x0C01 k 0 []
      (if s.power = 2 then (s.heard i k).loopsOn else s.heard i k).returnToRun)) ∧
    (Accepted i 0x0C01 k p s → p.getD 0x0229 0 = 1 → s.power ≠ 1 → Completes (.powerSet k) s (Replies i 0x0C01 k 0 []
      ((if s.power = 2 then (s.heard i k).loopsOn else s.heard i k).leaveRun 1))) ∧
    (Accepted i 0x0C01 k p s → p.getD 0x0229 0 = 2 → s.power ≠ 2 →
      Completes (.powerSet k) s (Replies i 0x0C01 k 0 [] ((s.heard i k).leaveRun 2))) ∧
    (Accepted i 0x0C01 k p s → s.power ≠ 3 → p.getD 0x0229 0 = 3 → exec (.powerSet k) s =
      .next (((s.heard i k).complete i 0x0C01 k 0 k.txn.toNat false []).leaveRun 3))

/-- R255, R257, R265, R468. R257, R275, R468. -/
def Obligations.MailboxServesOneRequestAtATime : Prop :=
  (∀ (s : State) (k : Packet) (i : SessIx) (p : Parsed) (op : Nat) (c : Instr), (op, c) ∈ rindCommands k → Accepted i op k p s →
    (s.rind.request.isSome = true → exec c s = .next (((s.heard i k).modRind fun r =>
      { r with held := r.held ++ [(i, BitVec.ofNat 16 op, k)] }).modSess i fun x => { x with inProgress := some (BitVec.ofNat 16 op, k) })) ∧
    (s.rind.request = none → s.rind.powered = false → exec c s = .next (((s.heard i k).modRind fun r =>
      r.post (i, BitVec.ofNat 16 op, k)).modSess i fun x => { x with inProgress := some (BitVec.ofNat 16 op, k) })) ∧
    (s.rind.request = none → s.rind.powered = true → s.rind.halted = true → haltedAnswers s.rind op = false →
      Completes c s (RindRefused i op k 0x0601 s))) ∧
  (∀ (s : State) (k : Packet) (i : SessIx) (p : Parsed),
    (Served i 0x0704 k p s → Completes (.rindIdentify k) s
      (Replies i 0x0704 k 0 [item 0x0308 (rindRecord s)] ((s.heard i k).modRind fun r => r.executed 0 [item 0x0308 (rindRecord s)]))) ∧
    (Served i 0x0705 k p s → Completes (.rindQuery k) s
      (Replies i 0x0705 k 0 (rindItems s.rind) ((s.heard i k).modRind fun r => r.executed 0 (rindItems s.rind)))) ∧
    (∀ items, Served i 0x0708 k p s →
      items = (((s.rind.audit.filter fun a => decide (p.getD 0x0226 0 ≤ a.cnt.toNat)).take 15).map fun a => item 0x0308 a.bytes) →
      Completes (.auditRead k) s (Replies i 0x0708 k 0 items ((s.heard i k).modRind fun r => r.executed 0 items))))

/-- R172, R173, R263, R268, R272, R293, R468. -/
def Obligations.RindParametersChangeOnlyUnsealed : Prop :=
  ∀ (s : State) (k : Packet) (i : SessIx) (p : Parsed),
    (Served i 0x0701 k p s → (MayChange s ∨ ∀ x ∈ p.items, lrCode x.1.code = false) → ∀ cand : Settings, cand = p.items.foldl (fun ss x => ss.put x.1 x.2) s.rind.params →
      thermalMissing cand p.items = false → coilsInRange cand = true → thermalOk cand s.rind.accepted = true →
      Completes (.thermalSet k) s fun t => RindOnly i 0x0701 k 0 s t ∧ t.rind.params = cand ∧ t.rind.paramId = t.rind.paramIdNow) ∧
    (Served i 0x0702 k p s → MayChange s → ∀ sch, stepsOf p = some sch → thermalOk s.rind.params sch = true →
      Completes (.scheduleSet k) s fun t => RindOnly i 0x0702 k 0 s t ∧ t.rind.accepted = sch ∧ t.rind.paramId = t.rind.paramIdNow) ∧
    (Served i 0x0703 k p s → MayChange s → ∀ cand : Settings, cand = p.items.foldl (fun ss x => ss.put x.1 x.2) s.rind.params →
      (∀ x ∈ p.items, x.1.code = 0x1901 → entryAllowed cand (cand.entryWord x.1.inst) = true) →
      (∃ n < 32, entLast (cand.entryWord n) = true) →
      Completes (.frontEndSet k) s fun t => RindOnly i 0x0703 k 0 s t ∧ t.rind.params = cand ∧ t.rind.paramId = t.rind.paramIdNow) ∧
    (Served i 0x070A k p s → MayChange s → ∀ (n : Int) (bs : List Int), p.val? 0x021E = some (0 :: n :: bs) → bs.length ≤ n.toNat →
      Completes (.rindFwLoad k) s fun t => RindOnly i 0x070A k 0 s t ∧ t.rind.fwImage = bs.map (fun x => BitVec.ofInt 8 x) ∧
        t.rind.fwTotal = n.toNat ∧ t.rind.swDig = s.rind.swDig) ∧
    (Served i 0x070A k p s → MayChange s → ∀ (o n : Int) (bs : List Int), p.val? 0x021E = some (o :: n :: bs) → 0 < o.toNat →
      o.toNat = s.rind.fwImage.length → n.toNat = s.rind.fwTotal → o.toNat + bs.length ≤ n.toNat →
      Completes (.rindFwLoad k) s fun t => RindOnly i 0x070A k 0 s t ∧ t.rind.fwImage = s.rind.fwImage ++ bs.map (fun x => BitVec.ofInt 8 x) ∧
        t.rind.fwTotal = s.rind.fwTotal ∧ t.rind.swDig = s.rind.swDig) ∧
    (∀ c op, (op, c) ∈ [(0x0701, Instr.thermalSet k), (0x0703, .frontEndSet k)] → Served i op k p s → s.rind.sealSt = .sealed →
      (∃ x ∈ p.items, lrCode x.1.code = true) → Completes c s fun t => RindOnly i op k 0x0401 s t ∧ t.rind.params = s.rind.params ∧
        t.rind.paramId = s.rind.paramId ∧ t.rind.refused = s.rind.refused + 1) ∧
    (∀ sch, Served i 0x0702 k p s → s.rind.sealSt = .sealed → stepsOf p = some sch → Completes (.scheduleSet k) s fun t =>
      RindOnly i 0x0702 k 0x0401 s t ∧ t.rind.accepted = s.rind.accepted ∧ t.rind.refused = s.rind.refused + 1) ∧
    (Served i 0x070A k p s → s.rind.sealSt = .sealed → Completes (.rindFwLoad k) s fun t =>
      RindOnly i 0x070A k 0x0401 s t ∧ t.rind.fwImage = s.rind.fwImage ∧ t.rind.nextFw = s.rind.nextFw)

/-- R267, R269, R271, R273, R275. -/
def Obligations.SealIsSetAndBrokenAsTheTablesSay : Prop :=
  ∀ (s : State) (k : Packet) (i : SessIx) (p : Parsed),
    (Served i 0x0706 k p s → s.glb.variantM = true → MayChange s →
      p.val? 0x0224 = some [(s.rind.paramId.toNat : Int), (s.rind.swDig.toNat : Int)] → thermalOk s.rind.params s.rind.accepted = true →
      Completes (.sealSet k) s fun t => RindOnly i 0x0706 k 0 s t ∧ t.rind.sealSt = .sealed ∧ t.rind.sealedParamId = s.rind.paramId ∧
        t.rind.sealedDig = s.rind.swDig ∧ t.rind.axc0.cal = none) ∧
    (Served i 0x0706 k p s → s.glb.variantM = false → Completes (.sealSet k) s fun t =>
      RindOnly i 0x0706 k 0x0118 s t ∧ t.rind.sealSt = s.rind.sealSt) ∧
    (Served i 0x0706 k p s → s.glb.variantM = true → s.rind.sealSt = .sealed → Completes (.sealSet k) s fun t =>
      RindOnly i 0x0706 k 0x0402 s t ∧ t.rind.sealSt = .sealed) ∧
    (Served i 0x0706 k p s → s.glb.variantM = true → s.rind.sealSt ≠ .sealed →
      p.val? 0x0224 ≠ some [(s.rind.paramId.toNat : Int), (s.rind.swDig.toNat : Int)] → Completes (.sealSet k) s fun t =>
        RindOnly i 0x0706 k 0x021A s t ∧ t.rind.sealSt = s.rind.sealSt) ∧
    (Served i 0x0706 k p s → s.glb.variantM = true → s.rind.sealSt ≠ .sealed →
      p.val? 0x0224 = some [(s.rind.paramId.toNat : Int), (s.rind.swDig.toNat : Int)] →
      (4096 ≤ s.rind.unexported → Completes (.sealSet k) s fun t => RindOnly i 0x0706 k 0x011A s t ∧ t.rind.sealSt = s.rind.sealSt) ∧
      (s.rind.unexported < 4096 → thermalOk s.rind.params s.rind.accepted = false → Completes (.sealSet k) s fun t =>
        RindOnly i 0x0706 k 0x0217 s t ∧ t.rind.sealSt = s.rind.sealSt)) ∧
    (Served i 0x0707 k p s → s.rind.sealSt = .sealed → 4096 ≤ s.rind.unexported → Completes (.sealBreak k) s fun t =>
      RindOnly i 0x0707 k 0x011A s t ∧ t.rind.sealSt = .sealed) ∧
    (Served i 0x0707 k p s → s.rind.sealSt = .sealed → s.rind.unexported < 4096 → s.aon.sealBrk = true →
      s.aon.sealBrkSince + sec ≤ s.time.mono → Completes (.sealBreak k) s fun t => RindOnly i 0x0707 k 0 s t ∧ t.rind.sealSt = .broken) ∧
    (Served i 0x0707 k p s → s.rind.sealSt = .sealed → s.rind.unexported < 4096 →
      (s.aon.sealBrk = false ∨ s.time.mono < s.aon.sealBrkSince + sec) → Completes (.sealBreak k) s fun t =>
        RindOnly i 0x0707 k 0x0119 s t ∧ t.rind.sealSt = .sealed) ∧
    (Served i 0x0707 k p s → s.rind.sealSt ≠ .sealed → Completes (.sealBreak k) s fun t =>
      RindOnly i 0x0707 k 0x011F s t ∧ t.rind.sealSt = s.rind.sealSt) ∧
    (Served i 0x0709 k p s → s.rind.ackCnt.toNat ≤ p.getD 0x0226 0 → p.getD 0x0226 0 ≤ s.rind.auditCnt.toNat →
      Completes (.auditAck k) s fun t => RindOnly i 0x0709 k 0 s t ∧ t.rind.ackCnt = BitVec.ofNat 32 (p.getD 0x0226 0)) ∧
    (Served i 0x0709 k p s → (p.getD 0x0226 0 < s.rind.ackCnt.toNat ∨ s.rind.auditCnt.toNat < p.getD 0x0226 0) →
      Completes (.auditAck k) s (RindRefused i 0x0709 k 0x0202 s))

/-- R291, R305, R306. -/
def Obligations.CalibrationRequestsAct : Prop :=
  ∀ (s : State) (k : Packet) (i : SessIx) (p : Parsed) (rc : Nat), rc = (p.named 0x0107).headD 0 →
    (Served i 0x070B k p s → s.rind.sealSt ≠ .sealed → s.rind.axc0.cal = none → ∀ (e z f : Nat), s.rind.params.entryOf rc = some e →
      p.val? 0x0225 = some [(z : Int), (f : Int)] → f * 128 ≤ fullScale7 s.rind.params (entRange e) →
      z * 128 ≤ fullScale7 s.rind.params (entRange e) → (fullScale7 s.rind.params (entRange e) : Int) ≤ (f : Int) * 512 - (z : Int) * 512 →
      Completes (.calBegin k) s fun t => RindOnly i 0x070B k 0 s t ∧ ∃ o, t.rind.axc0.cal = some o ∧ o.rc = rc ∧ o.zNom = z ∧ o.fNom = f ∧
        o.zMeas = none ∧ o.fMeas = none) ∧
    (Served i 0x070B k p s → s.rind.sealSt ≠ .sealed → s.rind.axc0.cal ≠ none → Completes (.calBegin k) s fun t =>
      RindOnly i 0x070B k 0x011B s t ∧ t.rind.axc0.cal = s.rind.axc0.cal.map fun o => { o with lastRequest := s.time.mono }) ∧
    (∀ c op full, (op, c, full) ∈ [(0x070C, Instr.calZero k, false), (0x070D, .calFull k, true)] → Served i op k p s →
      s.rind.sealSt ≠ .sealed →
      (∀ o, s.rind.axc0.cal = some o → o.rc = rc → Completes c s fun t => SameWork { s with rind := t.rind } t ∧
        t.rind.request = some (i, BitVec.ofNat 16 op, k) ∧ t.rind.measuring = true ∧ t.sessions[i].inProgress = some (BitVec.ofNat 16 op, k) ∧
        t.rind.axc0.cal = some { o with collecting := some full, readings := [], bad := false, lastRequest := s.time.mono }) ∧
      ((∀ o, s.rind.axc0.cal = some o → o.rc ≠ rc) → Completes c s fun t => RindOnly i op k 0x011B s t ∧
        t.rind.axc0.cal = s.rind.axc0.cal.map fun o => { o with lastRequest := s.time.mono })) ∧
    (∀ (o : CalOpen) (zs fs : Int) (e : Nat), Served i 0x070E k p s → s.rind.sealSt ≠ .sealed → s.rind.axc0.cal = some o → o.rc = rc →
      o.zMeas = some zs → o.fMeas = some fs → s.rind.params.entryOf rc = some e →
      (calStands s.rind.params (entRange e) o.zNom o.fNom zs fs →
        Completes (.calApply k) s fun t => RindOnly i 0x070E k 0 s t ∧ t.rind.axc0.cal = none ∧ t.rind.paramId = t.rind.paramIdNow ∧
          t.rind.params.rindI .rtd rc 0x190B 1 = divOpen (((o.fNom : Int) - o.zNom) * 2 ^ 66) (fs - zs).toNat) ∧
      (¬ calStands s.rind.params (entRange e) o.zNom o.fNom zs fs →
        Completes (.calApply k) s fun t => RindOnly i 0x070E k 0x021C s t ∧ t.rind.params = s.rind.params ∧
          t.rind.axc0.cal = some { o with lastRequest := s.time.mono })) ∧
    (Served i 0x070E k p s → s.rind.sealSt ≠ .sealed → (∀ o, s.rind.axc0.cal = some o → o.rc ≠ rc ∨ o.zMeas = none ∨ o.fMeas = none) →
      Completes (.calApply k) s fun t => RindOnly i 0x070E k 0x011B s t ∧ t.rind.params = s.rind.params ∧
        t.rind.axc0.cal = s.rind.axc0.cal.map fun o => { o with lastRequest := s.time.mono }) ∧
    (∀ c op, (op, c) ∈ [(0x070B, Instr.calBegin k), (0x070C, .calZero k), (0x070D, .calFull k), (0x070E, .calApply k)] → Served i op k p s →
      s.rind.sealSt = .sealed → Completes c s fun t => RindOnly i op k 0x0401 s t ∧ t.rind.axc0 = s.rind.axc0 ∧
        t.rind.refused = s.rind.refused + 1) ∧
    (Served i 0x070F k p s → s.rind.axc0.cal ≠ none → Completes (.calCancel k) s
      (Replies i 0x070F k 0 [] ((s.heard i k).modRind fun r => (r.calClose).executed 0 []))) ∧
    (Served i 0x070F k p s → s.rind.axc0.cal = none → Completes (.calCancel k) s (RindRefused i 0x070F k 0x011B s)) ∧
    (Served i 0x0710 k p s → s.rind.axc0.urgent.length + (p.named 0x0108).length ≤ 4 → Completes (.axc0Urgent k) s fun t =>
      RindOnly i 0x0710 k 0 s t ∧ t.rind.axc0.urgent = s.rind.axc0.urgent ++ p.named 0x0108) ∧
    (Served i 0x0710 k p s → p.named 0x0108 ≠ [] → 4 < s.rind.axc0.urgent.length + (p.named 0x0108).length →
      Completes (.axc0Urgent k) s (RindRefused i 0x0710 k 0x011C s))

/-- R282, R290, R298 to R302, R305. -/
def Obligations.FrontEndFollowsItsEvents : Prop :=
  ∀ s : State, s.rind.powered = true → (s.rind.request = none ∨ s.rind.measuring = true) → s.rind.held = [] →
    (∀ j : SessIx, s.sessions[j].waiting = []) →
    (∀ (m : Axc0Conv) (n : Nat), s.rind.axc0.current = some n → (s.rind.axc0.chan (entSrc (s.rind.front.entryWord n))).state = .normal →
      (s.rind.axc0.running = some none → Completes (.axc0EntryComplete m) s fun t => t.rind.axc0.urgent = s.rind.axc0.urgent.tail ∧
        t.rind.axc0.urgRun = s.rind.axc0.urgRun + 1 ∧ s.time.mono ≤ t.time.mono ∧ t.free = s.free + 1 ∧ t.ports = s.ports ∧
        t.settings = s.settings) ∧
      (s.rind.axc0.running = some (some n) → Completes (.axc0EntryComplete m) s fun t => t.rind.axc0.urgent = s.rind.axc0.urgent ∧
        t.rind.axc0.entry = (if n = s.rind.front.seqLast ∨ 31 ≤ n then 0 else n + 1) ∧ t.rind.axc0.urgRun = 0 ∧
        s.time.mono ≤ t.time.mono ∧ t.free = s.free + 1 ∧ t.ports = s.ports ∧ t.settings = s.settings)) ∧
    (∀ (m : Axc0Conv) (n : Nat) (o : CalOpen) (full : Bool), s.rind.axc0.current = some n → s.rind.axc0.cal = some o → o.collecting = some full →
      entSrc (s.rind.front.entryWord n) = o.rc → (s.rind.axc0.chan o.rc).state = .normal → o.readings.length = 15 → s.rind.request.isSome = true →
      Completes (.axc0EntryComplete m) s fun t => t.rind.request = none ∧ t.rind.measuring = false ∧
        (t.rind.lastStatus = 0 ∨ t.rind.lastStatus = 0x021C) ∧ t.rind.lastTag = s.rind.tag + 1) ∧
    (∀ n, s.rind.axc0.current = some n → entSrc (s.rind.front.entryWord n) < 16 →
      (s.rind.axc0.chan (entSrc (s.rind.front.entryWord n))).state ≠ .opened → Completes .wireBreak s fun t =>
        (t.rind.axc0.chan (entSrc (s.rind.front.entryWord n))).state = .opened ∧ t.rind.axc0.recNow = true ∧ t.time = s.time ∧
        SameWork { s with rind := t.rind, free := s.free + 1 } t) ∧
    (∀ n, s.rind.axc0.current = some n → entSrc (s.rind.front.entryWord n) < 16 → ∀ ch, ch = s.rind.axc0.chan (entSrc (s.rind.front.entryWord n)) →
      ch.state = .opened →
      (Completes (.openProbe true) s fun t => (t.rind.axc0.chan (entSrc (s.rind.front.entryWord n))).state = .opened ∧
        (t.rind.axc0.chan (entSrc (s.rind.front.entryWord n))).cleanProbes = 0) ∧
      (ch.cleanProbes = 0 → Completes (.openProbe false) s fun t => (t.rind.axc0.chan (entSrc (s.rind.front.entryWord n))).state = .opened ∧
        (t.rind.axc0.chan (entSrc (s.rind.front.entryWord n))).cleanProbes = 1) ∧
      (1 ≤ ch.cleanProbes → Completes (.openProbe false) s fun t => (t.rind.axc0.chan (entSrc (s.rind.front.entryWord n))).state = .auto ∧
        (t.rind.axc0.chan (entSrc (s.rind.front.entryWord n))).range = 0 ∧
        t.time.mono = max s.time.mono (s.rind.axc0.startAt + 200 * us))) ∧
    (∀ n, s.rind.axc0.current = some n → (s.rind.axc0.chan (entSrc (s.rind.front.entryWord n))).state ≠ .opened →
      Completes .referenceOutOfWindow s fun t => t.rind.axc0.refSet = false ∧ t.rind.axc0.recNow = true ∧ t.time = s.time ∧
        (entSrc (s.rind.front.entryWord n) < 16 → (t.rind.axc0.chan (entSrc (s.rind.front.entryWord n))).state = .auto)) ∧
    (s.rind.axc0.running.isSome = true → s.rind.axc0.refSet = false → Completes .referenceSettled s fun t =>
      t.rind.axc0.refSet = true ∧ t.time = (s.elapse ms).time ∧ SameWork { (s.elapse ms) with rind := t.rind } t) ∧
    (∀ o, s.rind.axc0.cal = some o → Completes .calibrationIdleTimeout s fun t => t.rind.axc0.cal = none ∧
      t.time.mono = max s.time.mono (o.lastRequest + 3600 * sec) ∧ t.rind.params = s.rind.params ∧
      (o.collecting.isSome = true → s.rind.request.isSome = true → t.rind.request = none ∧ t.rind.lastStatus = 0x011B))

/-- R166 to R171, R174, R182 to R186. -/
def Obligations.ThermalScheduleRuns : Prop :=
  ∀ s : State,
    (s.rind.running = true → s.rind.phase ≠ .announced → s.rind.avg = none → s.rind.nextSchedule = none → Completes .stepEnd s fun t =>
      t.rind.step = (s.rind.step + 1) % max 1 s.rind.schedule.length ∧ t.rind.schedule = s.rind.schedule ∧ t.rind.phase = .announced ∧
      t.rind.stepStart = t.time.mono ∧ t.rind.averagesDone = 0 ∧ t.ports = s.ports) ∧
    (∀ sch, s.rind.running = true → s.rind.phase ≠ .announced → s.rind.avg = none → s.rind.nextSchedule = some sch → Completes .stepEnd s fun t =>
      t.rind.step = 0 ∧ t.rind.schedule = sch ∧ t.rind.nextSchedule = none ∧ t.rind.phase = .announced) ∧
    (s.rind.running = true → s.rind.phase = .announced → Completes .switchStrobes s fun t => t.rind.phase = .settling ∧
      t.out = s.out ++ (List.range 4).map (fun c => Output.strobe c (s.rind.stepNow.ports.getD c 31)) ∧
      t.rind.oswPort.toList = (List.range 4).map (fun c => s.rind.stepNow.ports.getD c 31) ∧ s.rind.stepStart + 1012 * us ≤ t.time.mono) ∧
    (s.rind.running = true → (s.rind.phase = .settling ∨ s.rind.phase = .waiting) → s.rind.avg = none → s.rind.annAcked = true →
      s.rind.inhibit = false → s.rind.averagesDone < s.rind.stepNow.dStep → thermalReady s.rind.params s.rind.stepNow.ports = true →
      max s.time.mono (max s.rind.firstShotAt s.rind.holdUntil) + tAvg s.rind.params ≤ s.rind.limitWith s.rind.params →
        Completes .averageStart s fun t => t.rind.phase = .averaging ∧ t.rind.inForce = s.rind.params ∧ ∃ a, t.rind.avg = some a ∧ a.shots = 0 ∧ a.start = max s.time.mono (max s.rind.firstShotAt s.rind.holdUntil) ∧
          a.params = s.rind.params ∧ a.paramId = s.rind.paramIdNow ∧ a.sealedAll = decide (s.rind.sealSt = .sealed)) ∧
    (∀ (d : ShotData) (a : Average), s.rind.avg = some a → s.rind.running = true → a.shots < a.params.thDev 0x1404 →
      Completes (.shot d) s fun t => ∃ b, t.rind.avg = some b ∧ b.shots = a.shots + 1 ∧ b.start = a.start ∧ b.params = a.params ∧
        b.tLast = t.rind.time ∧ t.out = s.out ++ [.tpg (a.params.thDev 0x1401 * 4 * ns)] ∧ t.time.mono = max s.time.mono (a.start + a.shots * shotPer a.params) ∧
        ∀ l n, l < a.acc.length → n < (a.acc.getD l []).length →
          (b.acc.getD l []).getD n 0 = (a.acc.getD l []).getD n 0 + (d.lanes.getD l []).getD n 0 % 16384) ∧
    (∀ a : Average, s.rind.avg = some a → s.rind.running = true → a.params.thDev 0x1404 ≤ a.shots → Completes .averageEnd s fun t =>
      t.rind.avg = none ∧ t.rind.phase = .waiting ∧ t.rind.averagesDone = s.rind.averagesDone + 1 ∧
      t.time.mono = max s.time.mono (a.start + tAvg a.params) ∧ t.rind.chanSeq = s.rind.chanSeq) ∧
    (∀ (c : ThermIx) (w : ProfileWork), s.rind.work.find? (fun w => w.channel == c.val) = some w → s.rind.powered = true →
      s.rind.halted = false → Completes (.profileIssue c) s fun t => t.rind.work = s.rind.work.erase w ∧
        t.rind.chanSeq = s.rind.chanSeq.set c (s.rind.chanSeq[c] + 1) ∧ SameWork { s with rind := t.rind, free := s.free + 1 } t) ∧
    (s.rind.powered = true → s.rind.inhibitOuter = true → s.rind.inhibit = false → Completes .ramanInhibitAssert s fun t =>
      t.rind.inhibit = true ∧ t.rind.tpg = false ∧ t.rind.avg = none ∧ t.time = s.time) ∧
    (s.rind.powered = true → s.rind.inhibitOuter = false → s.rind.inhibit = true → Completes .ramanInhibitRelease s fun t =>
      t.rind.inhibit = false ∧ t.rind.holdUntil = s.time.mono + s.rind.inForce.thDev 0x140C * ms ∧ t.rind.avg = s.rind.avg ∧
      SameWork { s with rind := t.rind } t)

/-- R168, R183, R250 to R253, R279, R304. -/
def Obligations.ResultsPathDeliversEachMessage : Prop :=
  ∀ (s : State) (m : RpArrival) (x : RpMsg),
    (∀ kind c, (kind, c) ∈ [(1, Instr.profile m), (2, .announce m), (3, .switched m), (4, .eventMessage m), (5, .audit m), (6, .reading m)] →
      Arrives kind m x s → Completes c s fun t => t.rind.ackWord = m.seq ∧ (∀ y ∈ t.rind.unacked, y.seq ≠ m.seq) ∧
        t.rind.wire = s.rind.wire.erase x ∧ t.rindMain.lastSeq = some m.seq ∧ t.rindMain.seen = s.rindMain.seen ++ [m.seq] ∧ t.time = s.time) ∧
    (∀ n ps tm, Arrives 2 m x s → x.body = .announce n ps tm → Completes (.announce m) s fun t =>
      (∀ p : PortIx, t.ports[p] = { s.ports[p] with thermal := s.ports[p].thermal || ps.contains p.val }) ∧ t.rindMain.newPorts = ps) ∧
    (∀ n ps tm, Arrives 3 m x s → x.body = .switched n ps tm → Completes (.switched m) s fun t =>
      ∀ p : PortIx, t.ports[p] = { s.ports[p] with thermal := ps.contains p.val }) ∧
    (∀ n : EvIx, Arrives 4 m x s → x.body = .event n.val → Completes (.eventMessage m) s fun t => t.ev.pend.getLsbD n.val = true) ∧
    (∀ a : AuditRec, Arrives 5 m x s → x.body = .audit a → (a.recType ≠ 0x0B → Completes (.audit m) s fun t => t.streams = s.streams ∧ t.ev = s.ev) ∧
      (a.recType = 0x0B → Completes (.audit m) s fun t => t.streams.wheySeq = s.streams.wheySeq + 1)) ∧
    (∀ bs, Arrives 6 m x s → x.body = .reading bs → Completes (.reading m) s fun t => t.rindMain.lastReading.getLast? = some bs) ∧
    (∀ bs p q, Arrives 1 m x s → x.body = .profile bs p q → s.rindMain.early = [] →
      ((∀ y ∈ s.rind.unacked, ∀ p' q', y.seq ≠ m.seq → y.profile? = some (x.channel, p', q') → seqBefore q' q = false) →
        Completes (.profile m) s fun t => t.rindMain.early = [] ∧
          ∃ u : State, u.streams = s.streams ∧ u.links = s.links ∧ t = u.push 1 none (.profile bs) 0 false) ∧
      ((∃ y ∈ s.rind.unacked, ∃ p' q', y.seq ≠ m.seq ∧ y.profile? = some (x.channel, p', q') ∧ seqBefore q' q = true) →
        Completes (.profile m) s fun t => t.rindMain.early = [(x.channel, q, bs)] ∧ t.streams = s.streams)) ∧
    (∀ kind c, (kind, c) ∈ [(1, Instr.profile m), (2, .announce m), (3, .switched m), (4, .eventMessage m), (5, .audit m), (6, .reading m)] →
      s.rind.wire.head? = some x → x.seq = m.seq → x.body.kind = kind →
      (m.crcOk = false ∨ s.boot.inReset = true → exec c s = .next (s.modRind fun r => r.offLine x)) ∧
      (m.crcOk = true → s.boot.inReset = false → m.seq ∈ s.rindMain.seen → Completes c s fun t => t.rind.ackWord = m.seq ∧
        t.rindMain = s.rindMain ∧ SameWork { s with rind := t.rind } t ∧ t.streams = s.streams ∧ t.ev = s.ev))

/-- R249, R252, R254, R255, R260, R265, R268, R270, R272, R469. -/
def Obligations.RindPathAndStartRows : Prop :=
  ∀ s : State,
    (s.rind.powered = true → s.rind.unacked ≠ [] → Completes .rpRetransmit s fun t => (∀ m, m ∈ t.rind.wire ↔ m ∈ s.rind.unacked) ∧
      t.rind.unacked = s.rind.unacked ∧ t.rind.sentAt = t.time.mono ∧ t.time.mono = max s.time.mono (max s.rind.ackAt s.rind.sentAt + 100 * ms) ∧
      SameWork { s.until (max s.rind.ackAt s.rind.sentAt + 100 * ms) with rind := t.rind } t) ∧
    (s.rind.running = true → s.rind.ackLate = true → Completes .ackAfterSilence s fun t => t.rind.ackLate = false ∧ t.rind.sentAt = s.time.mono ∧
      (t.rind.wire.head?).map (·.body) = some (.switched s.rind.step s.rind.stepNow.ports s.rind.time) ∧
      SameWork { s with rind := t.rind } t) ∧
    (∀ i op k, s.rind.request = some (i, op, k) → s.rind.held = [] → s.rind.powered = true → s.rind.slot ≠ [] → s.rind.measuring = false →
      op ≠ 0x070C → op ≠ 0x070D → s.sessions[i].isOpen = true → s.sessions[i].inProgress = some (op, k) →
      (∀ j : SessIx, s.sessions[j].waiting = []) → Completes .mailboxRequest s fun t => t.rind.request = none ∧ t.rind.slot = [] ∧
        t.rind.lastTag = s.rind.tag + 1 ∧ t.sessions[i].inProgress = none ∧ (t.sessions[i].kept.getLast?).map (·.seq) = some k.seq ∧
        SameWork { s with rind := t.rind } t) ∧
    (∀ i op k, s.rind.request = some (i, op, k) → s.rind.held = [] → s.rind.measuring = false → s.boot.inReset = false →
      s.sessions[i].isOpen = true → s.sessions[i].inProgress = some (op, k) → (∀ j : SessIx, s.sessions[j].waiting = []) →
      Completes .mailboxTimeout s fun t => t.rind.request = none ∧ t.sessions[i].inProgress = none ∧ t.ev.pend.getLsbD 248 = true ∧
        t.sessions[i].kept.getLast? = some { seq := k.seq, packets := replyPackets op.toNat k 0x0602 k.txn.toNat false [] } ∧
        t.time = (s.elapse (50 * ms)).time) ∧
    (s.boot.inReset = false → s.rind.powered = true → s.rind.started = false → Completes .timeWord s fun t => t.rind.started = true ∧
      t.rind.timeUnset = false ∧ t.rind.time = t.time.dev / sec * sec) ∧
    (∀ param w, s.rind.powered = true → s.rind.buffered + 98 ≤ 12582912 → s.rind.windows.find? (fun w => w.1 == param) = some w → Completes (.writeRefusedWindowEnd param) s fun t =>
      t.rind.windows = s.rind.windows.filter (fun x => x.1 != param) ∧ t.time.mono = max s.time.mono (w.2.1 + 60 * sec) ∧
      (w.2.2.1 = 0 → t.rind.audit = s.rind.audit) ∧ (w.2.2.1 ≠ 0 → (t.rind.audit.getLast?).map (fun a => (a.recType, a.param, a.count)) =
        some (5, param, BitVec.ofNat 32 w.2.2.1))) ∧
    (∀ w, Completes (.tamperActivation w) s fun t => t.aon.sealCnt = s.aon.sealCnt + 1 ∧
      (w = .sealBrk → t.aon.sealBrk = true ∧ t.aon.sealBrkSince = s.time.mono) ∧ SameWork { s with rind := t.rind, aon := t.aon } t) ∧
    (s.rind.powered = true → Completes .rindWatchdog s fun t => t.rind.timeUnset = true ∧ t.rind.started = false ∧ t.rind.avg = none ∧
      t.rind.work = [] ∧ SameWork { s with rind := t.rind } t) ∧
    (s.rind.request = none → s.rind.held = [] → (∀ j : SessIx, s.sessions[j].waiting = []) →
      (Completes (.rindPowerOn false) s fun t => t.rind.powered = true ∧ t.rind.halted = true ∧ t.rind.time = 0 ∧ t.rind.timeUnset = true) ∧
      (s.rind.nextFw = none → (s.rind.sealSt = .sealed → s.rind.swDig = s.rind.sealedDig) → s.rind.paramIdNow = s.rind.paramId →
        Completes (.rindPowerOn true) s fun t => t.rind.powered = true ∧ t.rind.halted = false ∧ t.rind.sealSt = s.rind.sealSt)) ∧
    (s.rind.powered = true → s.rind.fwImage ≠ [] → s.rind.fwImage.length = s.rind.fwTotal → Completes .rindFwLoadComplete s fun t =>
      t.rind.fwImage = [] ∧ t.rind.swDig = s.rind.swDig ∧ t.free = s.free + 1 ∧
      t.rind.nextFw = if Config.signatureOk s.rind.fwImage then some (BitVec.ofNat 64 (rd (sha256 s.rind.fwImage) 0 8)) else s.rind.nextFw)

/-- R278, R486, R488. -/
def Obligations.MirrorsRefreshAtEveryEdge : Prop :=
  ∀ s : State, s.boot.inReset = false →
    (∀ b, Completes (.mirrorRefresh b) s fun t => t.glb.mepoch = s.glb.mepoch + 1 ∧ t.rindMain.sealCnt = s.aon.sealCnt.setWidth 32 ∧
      t.glb.aonStat = s.aon.statWord ∧ t.time.mono = max s.time.mono (s.glb.lastRefresh + 3052 * us / 100) ∧
      t.glb.lastRefresh = t.time.mono ∧
      (b = true → s.rind.powered = true → t.rindMain.audCnt = s.rind.auditCnt ∧ t.rindMain.ackCnt = s.rind.ackCnt ∧
        t.rindMain.refused = s.rind.refused ∧ t.rindMain.paramId = s.rind.paramId ∧ t.rindMain.stat = s.rind.statWord s.glb.variantM) ∧
      (b = false → t.rindMain = { s.rindMain with sealCnt := s.aon.sealCnt.setWidth 32 })) ∧
    (Completes .substituteRefresh s fun t => t.glb.mepoch = s.glb.mepoch + 1 ∧ t.rindMain.sealCnt = s.aon.sealCnt.setWidth 32 ∧
      (s.glb.lastRefresh ≤ s.glb.lastSlow → t.time.mono = max s.time.mono (s.glb.lastRefresh + 306 * us / 10)) ∧
      (s.glb.lastSlow < s.glb.lastRefresh → t.time.mono = max s.time.mono (s.glb.lastRefresh + 3052 * us / 100)) ∧
      t.glb.lastSlow = s.glb.lastSlow) ∧
    (bit s.glb.stat 6 = false → Completes .slowFail s fun t => bit t.glb.stat 6 = true ∧ t.ev.pend.getLsbD 248 = true ∧
      t.boot.faultIndex = s.boot.faultIndex + 1 ∧ t.time.mono = max s.time.mono (s.glb.lastSlow + 100 * us)) ∧
    (∀ x, s.glb.slowBack = some x → Completes .slowFailClear s fun t => bit t.glb.stat 6 = false ∧ t.time.mono = max s.time.mono (x + sec) ∧
      t.boot = s.boot ∧ t.ev = s.ev) ∧
    (Completes .rindSnapshotLoss s fun t => t.rindMain.stat = 0 ∧ t.rindMain.audCnt = 0 ∧ t.rindMain.ackCnt = 0 ∧ t.rindMain.refused = 0 ∧
      t.rindMain.paramId = 0 ∧ t.rindMain.mbx = 0 ∧ t.rindMain.sealCnt = s.rindMain.sealCnt ∧ t.glb = s.glb)

/-- R325, R326. -/
def Obligations.PointersWalkHoops : Prop :=
  ∀ (e : Engine) (p : Nat) (step : Int), p < 8 →
    ((4 ≤ p ∨ ∃ h : p < 4, e.hl[p] = 0) → (e.moved p step : Int) = ((e.ptr p : Int) + step) % 32768) ∧
    (∀ h : p < 4, e.hl[p] ≠ 0 → (e.hl[p]).toNat ≤ 32768 →
      (e.moved p step : Int) = ((e.hb[p]).toNat + (((e.ptr p : Int) - (e.hb[p]).toNat) % 32768 + step) % (e.hl[p]).toNat) % 32768 ∧
      ((e.moved p step : Int) - (e.hb[p]).toNat) % 32768 < (e.hl[p]).toNat) ∧
    (∀ h : p < 4, e.hl[p] ≠ 0 → (e.hb[p]).toNat + (e.hl[p]).toNat ≤ 32768 → e.ptr p + 1 = (e.hb[p]).toNat + (e.hl[p]).toNat →
      e.moved p 1 = (e.hb[p]).toNat)

/-- R323 to R328, R331, R336, R337. -/
def Obligations.AccumulatorTakesEachResult : Prop :=
  ∀ (s : State) (n : EngIx) (w : Word),
    (∀ (op : Nat) (c : Instr) (f : Int → Int → Int) (x y : VatOp),
      (op, c, f) ∈ [(0x05, Instr.mac n, fun v p => v + p), (0x06, .msu n, fun v p => v - p), (0x07, .mul n, fun _ p => p)] →
      Runs n op w s → vatOp (fld w 16 6) = some x → vatOp (fld w 10 6) = some y →
      Unlocked s.engines[n] (x.addrs s.engines[n] false ++ y.addrs s.engines[n] false) →
      Completes c s fun t => ∃ u, u = { s.engines[n] with acc := u.acc, ovc := u.ovc, flags := u.flags, p := u.p } ∧ Ran n s t u ∧
        TakesValue s.engines[n] u (f s.engines[n].trueVal (shifted (fld w 24 2) (fld w 22 2) (x.val s.engines[n]) (y.val s.engines[n]))) ∧
        Walks s.engines[n] u 1 (descOf x ++ descOf y) ∧ FlagsKept s.engines[n] u [5, 6, 7]) ∧
    (∀ x : VatOp, Runs n 0x08 w s → vatOp (fld w 15 6) = some x → fld w 21 5 ≤ 24 → Unlocked s.engines[n] (x.addrs s.engines[n] false) →
      Completes (.adda n) s fun t => ∃ u, u = { s.engines[n] with acc := u.acc, ovc := u.ovc, flags := u.flags, p := u.p } ∧ Ran n s t u ∧
        TakesValue s.engines[n] u (s.engines[n].trueVal + (x.val s.engines[n]).toInt * 2 ^ fld w 21 5) ∧
        Walks s.engines[n] u 1 (descOf x) ∧ FlagsKept s.engines[n] u [5, 6, 7]) ∧
    (Runs n 0x09 w s → Completes (.sha n) s fun t => ∃ u, u = { s.engines[n] with acc := u.acc, ovc := u.ovc, flags := u.flags } ∧ Ran n s t u ∧
        TakesValue s.engines[n] u (s.engines[n].trueVal / 2 ^ fld w 21 5) ∧ FlagsKept s.engines[n] u [5, 6]) ∧
    (Runs n 0x04 w s → Completes (.clra n) s fun t => ∃ u, u = { s.engines[n] with acc := 0, ovc := 0, flags := u.flags } ∧ Ran n s t u ∧
        u.flags.getLsbD 5 = false ∧ FlagsKept s.engines[n] u [5])

/-- R322 to R327, R330, R336. -/
def Obligations.VatStoresWriteTheirWordsOnly : Prop :=
  ∀ (s : State) (n : EngIx) (w : Word), s.engines[n].dmem.wf = true →
    (∀ (op : Nat) (c : Instr) (lo hi : Int), (op, c, lo, hi) ∈ [(0x0A, Instr.sta n, -32768, 32767), (0x0B, .stau n, 0, 65535)] → Runs n op w s →
      (∀ dsc, vatOp (fld w 15 6) = some (.mem dsc) → Unlocked s.engines[n] [s.engines[n].ptr (dsc / 4)] → Completes c s fun t =>
        ∃ u, u = { s.engines[n] with dmem := u.dmem, flags := u.flags, p := u.p } ∧ Ran n s t u ∧
          (∀ a, u.word a = if a = s.engines[n].ptr (dsc / 4) then BitVec.ofInt 16 (delivered s.engines[n] (fld w 21 5) lo hi).1
            else s.engines[n].word a) ∧
          u.flags.getLsbD 4 = (s.engines[n].flags.getLsbD 4 || (delivered s.engines[n] (fld w 21 5) lo hi).2) ∧
          Walks s.engines[n] u 1 [dsc] ∧ FlagsKept s.engines[n] u [4, 7]) ∧
      (∀ k, vatOp (fld w 15 6) = some (.dreg k) → Completes c s fun t =>
        ∃ u, u = { s.engines[n] with d := u.d, flags := u.flags } ∧ Ran n s t u ∧
          (∀ j, u.dn j = if j = k then BitVec.ofInt 16 (delivered s.engines[n] (fld w 21 5) lo hi).1 else s.engines[n].dn j) ∧
          u.flags.getLsbD 4 = (s.engines[n].flags.getLsbD 4 || (delivered s.engines[n] (fld w 21 5) lo hi).2) ∧ FlagsKept s.engines[n] u [4])) ∧
    (∀ v, Runs n 0x0C w s → v = delivered s.engines[n] (fld w 21 5) (-2147483648) 2147483647 →
      (∀ dsc, vatOp (fld w 15 6) = some (.mem dsc) →
        Unlocked s.engines[n] [s.engines[n].ptr (dsc / 4), s.engines[n].moved (dsc / 4) 1] → Completes (.stal n) s fun t =>
        ∃ u, u = { s.engines[n] with dmem := u.dmem, flags := u.flags, p := u.p } ∧ Ran n s t u ∧
          (∀ a, u.word a = if a = s.engines[n].moved (dsc / 4) 1 then (BitVec.ofInt 32 v.1).extractLsb' 16 16
            else if a = s.engines[n].ptr (dsc / 4) then (BitVec.ofInt 32 v.1).extractLsb' 0 16 else s.engines[n].word a) ∧
          u.flags.getLsbD 4 = (s.engines[n].flags.getLsbD 4 || v.2) ∧ Walks s.engines[n] u 2 [dsc] ∧ FlagsKept s.engines[n] u [4, 7]) ∧
      (∀ k, vatOp (fld w 15 6) = some (.dreg k) → k % 2 = 0 → Completes (.stal n) s fun t =>
        ∃ u, u = { s.engines[n] with d := u.d, flags := u.flags } ∧ Ran n s t u ∧
          (∀ j, u.dn j = if j = k then (BitVec.ofInt 32 v.1).extractLsb' 0 16
            else if j = k + 1 then (BitVec.ofInt 32 v.1).extractLsb' 16 16 else s.engines[n].dn j) ∧
          u.flags.getLsbD 4 = (s.engines[n].flags.getLsbD 4 || v.2) ∧ FlagsKept s.engines[n] u [4])) ∧
    (Runs n 0x12 w s → Unlocked s.engines[n] [s.engines[n].ptr (fld w 18 5 / 4)] → Completes (.st n) s fun t =>
      ∃ u, u = { s.engines[n] with dmem := u.dmem, flags := u.flags, p := u.p } ∧ Ran n s t u ∧
        (∀ a, u.word a = if a = s.engines[n].ptr (fld w 18 5 / 4) then s.engines[n].dn (fld w 23 3) else s.engines[n].word a) ∧
        Walks s.engines[n] u 1 [fld w 18 5] ∧ FlagsKept s.engines[n] u [7]) ∧
    (Runs n 0x13 w s → Unlocked s.engines[n] [s.engines[n].ptr (fld w 18 5 / 4), s.engines[n].ptr (fld w 10 5 / 4)] → Completes (.st2 n) s fun t =>
      ∃ u, u = { s.engines[n] with dmem := u.dmem, flags := u.flags, p := u.p } ∧ Ran n s t u ∧
        (∀ a, u.word a = if a = s.engines[n].ptr (fld w 10 5 / 4) then s.engines[n].dn (fld w 15 3)
          else if a = s.engines[n].ptr (fld w 18 5 / 4) then s.engines[n].dn (fld w 23 3) else s.engines[n].word a) ∧
        Walks s.engines[n] u 1 [fld w 18 5, fld w 10 5] ∧ FlagsKept s.engines[n] u [7])

/-- R319, R320, R321, R323, R324, R336. -/
def Obligations.VatLoadsWriteTheirRegistersOnly : Prop :=
  ∀ (s : State) (n : EngIx) (w : Word),
    (Runs n 0x10 w s → Unlocked s.engines[n] [s.engines[n].ptr (fld w 18 5 / 4)] → Completes (.ld n) s fun t =>
      ∃ u, u = { s.engines[n] with d := u.d, flags := u.flags, p := u.p } ∧ Ran n s t u ∧
        (∀ j, u.dn j = if j = fld w 23 3 then s.engines[n].word (s.engines[n].ptr (fld w 18 5 / 4)) else s.engines[n].dn j) ∧
        Walks s.engines[n] u 1 [fld w 18 5] ∧ FlagsKept s.engines[n] u [7]) ∧
    (Runs n 0x11 w s → Unlocked s.engines[n] [s.engines[n].ptr (fld w 18 5 / 4), s.engines[n].ptr (fld w 10 5 / 4)] → Completes (.ld2 n) s fun t =>
      ∃ u, u = { s.engines[n] with d := u.d, flags := u.flags, p := u.p } ∧ Ran n s t u ∧
        (∀ j, u.dn j = if j = fld w 15 3 then s.engines[n].word (s.engines[n].ptr (fld w 10 5 / 4))
          else if j = fld w 23 3 then s.engines[n].word (s.engines[n].ptr (fld w 18 5 / 4)) else s.engines[n].dn j) ∧
        Walks s.engines[n] u 1 [fld w 18 5, fld w 10 5] ∧ FlagsKept s.engines[n] u [7]) ∧
    (∀ (op : Nat) (c : Instr) (v : Word16), (op, c, v) ∈ [(0x14, Instr.ldi n, BitVec.ofNat 16 (fld w 0 16)),
        (0x15, .mov n, s.engines[n].reg n.val (fld w 14 6))] → Runs n op w s → fld w 20 6 ≤ 40 → Completes c s fun t =>
      ∃ u, u = { s.engines[n] with
          d := u.d, p := u.p, s := u.s, hb := u.hb, hl := u.hl, acc := u.acc, ovc := u.ovc, maxv := u.maxv,
          maxi := u.maxi, minv := u.minv, mini := u.mini, mmcnt := u.mmcnt, flags := u.flags } ∧ Ran n s t u ∧
        u.reg n.val (fld w 20 6) = heldBy (fld w 20 6) v ∧
        (∀ q, q ≠ fld w 20 6 → (q = 40 → fld w 20 6 ≠ 34) → u.reg n.val q = s.engines[n].reg n.val q) ∧
        (fld w 20 6 = 34 → FlagsKept s.engines[n] u [5] ∧
          u.flags.getLsbD 5 = (s.engines[n].flags.getLsbD 5 || (s.engines[n].ovc == 0 && v.extractLsb' 8 8 != 0)))) ∧
    (Runs n 0x00 w s → Completes (.nop n) s fun t => Ran n s t s.engines[n])

/-- R332, R333. -/
def Obligations.VatArithmeticAndSearch : Prop :=
  (∀ (s : State) (n : EngIx) (w : Word),
    (∀ (op : Nat) (c : Instr) (b : Word16) (o : AluOut), (op, c, b) ∈ [(0x18, Instr.alu n, s.engines[n].dn (fld w 13 3)),
        (0x19, .alui n, BitVec.ofNat 16 (fld w 0 16))] → Runs n op w s →
      aluFunc (fld w 22 4) (s.engines[n].dn (fld w 16 3)) b = some o → Completes c s fun t =>
        ∃ u, u = { s.engines[n] with d := u.d, flags := u.flags } ∧ Ran n s t u ∧
          (∀ j, u.dn j = if j = fld w 19 3 ∧ fld w 22 4 ≠ 13 then o.res else s.engines[n].dn j) ∧
          u.flags.getLsbD 0 = (o.res == 0) ∧ u.flags.getLsbD 1 = o.res.getLsbD 15 ∧ u.flags.getLsbD 2 = o.c ∧ u.flags.getLsbD 3 = o.v ∧
          u.flags.getLsbD 4 = (s.engines[n].flags.getLsbD 4 || o.sat) ∧ FlagsKept s.engines[n] u [0, 1, 2, 3, 4]) ∧
    (Runs n 0x1B w s → Completes (.mmclr n) s fun t => Ran n s t { s.engines[n] with mmcnt := 0, maxi := 0xFFFF, mini := 0xFFFF }) ∧
    (Runs n 0x1A w s → s.engines[n].mmcnt = 0xFFFF → Completes (.mmx n) s fun t =>
      Ran n s t { s.engines[n] with flags := s.engines[n].flags ||| 0x100 }) ∧
    (∀ num : Word16 → Int, num = (fun x => if bit w 25 then (x.toNat : Int) else x.toInt) → Runs n 0x1A w s → s.engines[n].mmcnt ≠ 0xFFFF →
      Unlocked s.engines[n] [s.engines[n].ptr (fld w 20 5 / 4)] → Completes (.mmx n) s fun t => ∃ u v,
        v = s.engines[n].word (s.engines[n].ptr (fld w 20 5 / 4)) ∧
        u = { s.engines[n] with
          maxv := u.maxv, maxi := u.maxi, minv := u.minv, mini := u.mini, mmcnt := s.engines[n].mmcnt + 1,
          flags := u.flags, p := u.p } ∧ Ran n s t u ∧
        (u.maxv, u.maxi) = (if s.engines[n].maxi = 0xFFFF ∨ num s.engines[n].maxv < num v then (v, s.engines[n].mmcnt)
          else (s.engines[n].maxv, s.engines[n].maxi)) ∧
        (u.minv, u.mini) = (if s.engines[n].mini = 0xFFFF ∨ num v < num s.engines[n].minv then (v, s.engines[n].mmcnt)
          else (s.engines[n].minv, s.engines[n].mini)) ∧
        Walks s.engines[n] u 1 [fld w 20 5] ∧ FlagsKept s.engines[n] u [7])) ∧
  (∀ a b : Word16,
    (∀ f < 15, (aluFunc f a b).isSome = true) ∧ aluFunc 15 a b = none ∧
    (∀ o, aluFunc 0 a b = some o → o.res.toNat + 65536 * b01 o.c = a.toNat + b.toNat ∧ (o.v = true ↔ o.res.toInt ≠ a.toInt + b.toInt)) ∧
    (∀ o, aluFunc 1 a b = some o → o.res.toInt = max (-32768) (min 32767 (a.toInt + b.toInt)) ∧ (o.sat = true ↔ o.res.toInt ≠ a.toInt + b.toInt)) ∧
    (∀ f o, f = 2 ∨ f = 13 → aluFunc f a b = some o → (o.c = true ↔ b.toNat ≤ a.toNat) ∧
      (o.v = true ↔ o.res.toInt ≠ a.toInt - b.toInt) ∧ (o.res.toNat : Int) = ((a.toNat : Int) - b.toNat) % 65536) ∧
    (∀ o, aluFunc 3 a b = some o → o.res.toInt = max (-32768) (min 32767 (a.toInt - b.toInt)) ∧ (o.sat = true ↔ o.res.toInt ≠ a.toInt - b.toInt)) ∧
    (∀ o, aluFunc 9 a b = some o → o.res.toInt = a.toInt / 2 ^ (b.toNat % 16) ∧ o.v = false) ∧
    (∀ o, aluFunc 10 a b = some o → o.res.toInt = min a.toInt b.toInt ∧ o.c = false ∧ o.v = false) ∧
    (∀ o, aluFunc 12 a b = some o → o.res.toInt = min 32767 (a.toInt.natAbs : Int) ∧ (o.sat = true ↔ a.toInt = -32768)))

/-- R334, R335, R337, R340, R341, R353. -/
def Obligations.VatControlFlow : Prop :=
  ∀ (s : State) (n : EngIx) (w : Word) (e : Engine), e = s.engines[n] →
    (∀ (z neg cy v : Bool), z = e.flags.getLsbD 0 → neg = e.flags.getLsbD 1 → cy = e.flags.getLsbD 2 → v = e.flags.getLsbD 3 → Runs n 0x20 w s →
      (([true, z, !z, neg, !neg, !z && neg == v, z || neg != v, cy, !cy, v, !v, e.trueVal == 0, e.trueVal != 0, decide (e.trueVal < 0),
          e.flags.getLsbD 5, !e.transfers.isEmpty].getD (fld w 22 4) false = true →
        exec (.br n) s = .next (s.modEng n fun e => { e with
          pc := fld w 0 13, opc := e.opc + 2,
          loops := e.loops.filter fun l => decide (l.first ≤ fld w 0 13) && decide (fld w 0 13 ≤ l.last) })) ∧
       ([true, z, !z, neg, !neg, !z && neg == v, z || neg != v, cy, !cy, v, !v, e.trueVal == 0, e.trueVal != 0, decide (e.trueVal < 0),
          e.flags.getLsbD 5, !e.transfers.isEmpty].getD (fld w 22 4) false = false → Completes (.br n) s fun t => Ran n s t e))) ∧
    (Runs n 0x21 w s → e.calls.length < 8 → exec (.call n) s = .next (s.modEng n fun e =>
      { e with pc := fld w 0 13, opc := e.opc + 2, calls := (e.pc + 1) :: e.calls })) ∧
    (∀ r cs, Runs n 0x22 w s → e.calls = r :: cs → exec (.ret n) s = .next (s.modEng n fun e => { e with pc := r, opc := e.opc + 2, calls := cs })) ∧
    (∀ count, count = (if bit w 25 then (e.dn (fld w 0 3)).toNat else fld w 0 15) → Runs n 0x23 w s →
      (0 < count → e.loops.length < 4 → exec (.loop n) s = .next (s.modEng n fun e => { e with
        pc := e.pc + 1, opc := e.opc + 1,
        loops := { first := e.pc + 1, last := e.pc + fld w 15 10 + 1, count := count } :: e.loops })) ∧
      (count = 0 → exec (.loop n) s = .next (s.modEng n fun e => { e with
        opc := e.opc + 1,
        pc := (loopEnd e.pc (e.pc + fld w 15 10 + 2) e.loops).1, loops := (loopEnd e.pc (e.pc + fld w 15 10 + 2) e.loops).2 }))) ∧
    (Runs n 0x02 w s → Completes (.evt n) s fun t => SameWork { s with engines := t.engines } t ∧
      (∀ m, m ≠ n → t.engines[m] = s.engines[m]) ∧ Advances e t.engines[n] ∧ t.engines[n] = { e with
        stat := t.engines[n].stat,
        pc := t.engines[n].pc, loops := t.engines[n].loops, opc := e.opc + 1 } ∧
      bit t.engines[n].stat 4 = true ∧ fld t.engines[n].stat 16 8 = fld w 0 8 ∧
      (∀ i < 32, i ≠ 4 → ¬(16 ≤ i ∧ i < 24) → bit t.engines[n].stat i = bit e.stat i) ∧
      (bit e.ctl 0 = false → t.ev = s.ev) ∧ (bit e.ctl 0 = true → s.boot.inReset = false → t.ev.pend.getLsbD (120 + n.val) = true)) ∧
    (∀ (len off : Nat) (k : Fin 4), Runs n 0x28 w s → len = (e.dn (fld w 17 3)).toNat → k.val = fld w 23 2 →
      off = (e.dn (2 * fld w 15 2)).toNat + 65536 * (e.dn (2 * fld w 15 2 + 1)).toNat → 0 < len → len ≤ 4096 → off % 2 = 0 →
      off + 2 * len ≤ (e.winSize[k]).toNat → (bit w 25 = true → k = 1 ∨ k = 2) →
      (e.transfers.length < 4 → (∀ x ∈ e.transfers, Apart x k off (e.ptr (fld w 20 3)) len) → Completes (.cave n) s fun t => ∃ u,
        u = { e with d := u.d, p := u.p
                     transfers := e.transfers ++ [{ toCave := bit w 25, window := k, offset := off, addr := e.ptr (fld w 20 3), len := len }] } ∧
          Ran n s t u ∧ (bit w 14 = false → u.d = e.d ∧ u.p = e.p) ∧
          (bit w 14 = true → (∀ i : Fin 8, u.p[i] = if i.val = fld w 20 3 then BitVec.ofNat 15 (e.ptr (fld w 20 3) + len) else e.p[i]) ∧
            u.pair (2 * fld w 15 2) = (off + 2 * len) % 2 ^ 32 ∧
            ∀ j, j ≠ 2 * fld w 15 2 → j ≠ 2 * fld w 15 2 + 1 → u.dn j = e.dn j)) ∧
      (4 ≤ e.transfers.length ∨ (∃ x ∈ e.transfers, ¬ Apart x k off (e.ptr (fld w 20 3)) len) →
        exec (.cave n) s = .next (s.modEng n fun e => { e with stalledSince := some s.time.mono }))) ∧
    (Runs n 0x28 w s → (e.dn (fld w 17 3)).toNat = 0 → Completes (.cave n) s fun t => Ran n s t e) ∧
    (∀ op c as, (op, c, as) ∈ [(0x10, Instr.ld n, [e.ptr (fld w 18 5 / 4)]), (0x12, .st n, [e.ptr (fld w 18 5 / 4)]),
        (0x11, .ld2 n, [e.ptr (fld w 18 5 / 4), e.ptr (fld w 10 5 / 4)]), (0x13, .st2 n, [e.ptr (fld w 18 5 / 4), e.ptr (fld w 10 5 / 4)])] →
      Runs n op w s → (∃ a ∈ as, e.locked a = true) → exec c s = .next (s.modEng n fun e => { e with stalledSince := some s.time.mono })) ∧
    (Runs n 0x29 w s → (e.transfers.length ≤ fld w 0 2 → Completes (.cwait n) s fun t => Ran n s t e) ∧
      (fld w 0 2 < e.transfers.length → exec (.cwait n) s = .next (s.modEng n fun e => { e with stalledSince := some s.time.mono })))

/-- R318, R339, R340, R342, R344, R345, R350. -/
def Obligations.VatInvocationsRunTheirCourse : Prop :=
  ∀ (s : State) (n : EngIx) (e : Engine), e = s.engines[n] →
    (∀ b rest, e.input = b :: rest → fld e.stat 0 3 = 2 → Completes (.invocationStart n) s fun t => ∃ u, t.engines[n] = u ∧
      u = { e with
        stat := u.stat, pc := e.entry, calls := [], loops := [], opc := 0, inv := e.invNext, invNext := e.invNext + 1,
        winSize := u.winSize, win := u.win, input := rest, current := some b, stallTotal := 0, stalledSince := none } ∧
      fld u.stat 0 3 = 3 ∧ (∀ i < 32, 3 ≤ i → bit u.stat i = bit e.stat i) ∧ u.winSize[(0 : Fin 4)] = BitVec.ofNat 32 b.bytes.length ∧
      u.winSize[(1 : Fin 4)] = BitVec.ofNat 32 e.outBytes ∧ u.winSize[(2 : Fin 4)] = BitVec.ofNat 32 e.stateBytes ∧
      (∀ i, (u.win[(0 : Fin 4)]).read i = b.bytes.getD i 0) ∧ u.win[(1 : Fin 4)] = e.win[(1 : Fin 4)] ∧ u.win[(2 : Fin 4)] = e.win[(2 : Fin 4)] ∧
      (∀ m, m ≠ n → t.engines[m] = s.engines[m]) ∧ (b.inPool = false → t = s.modEng n fun _ => u)) ∧
    (∀ (w : Word) (len : Nat), Runs n 0x01 w s → len = (e.dn (2 * fld w 0 2)).toNat + 65536 * (e.dn (2 * fld w 0 2 + 1)).toNat →
      (e.transfers = [] → len ≤ e.outBytes → e.nextImage = none → Completes (.halt n) s fun t => ∃ u, t.engines[n] = u ∧
        u = { e with
          stat := u.stat, opc := e.opc + 1, lastOp := BitVec.ofNat 32 (e.opc + 1),
          peakOp := BitVec.ofNat 32 (max e.peakOp.toNat (e.opc + 1)), faultsInRow := 0, current := none, lastMem := some e.dmem } ∧
        fld u.stat 0 3 = 2 ∧ (∀ i < 32, 3 ≤ i → bit u.stat i = bit e.stat i) ∧ (∀ m, m ≠ n → t.engines[m] = s.engines[m]) ∧
        t.settings = s.settings ∧ t.time = s.time ∧ (len = 0 → t = s.modEng n fun _ => u)) ∧
      (e.transfers ≠ [] → exec (.halt n) s = .next s)) ∧
    (∀ (k : Fin 4) (x : Transfer), e.transfers[k.val]? = some x → bit s.clk.stat 7 = true → CrossId.memory ∉ s.links.resetFlags → Completes (.caveTransferComplete n k) s fun t =>
      t = s.modEng n (fun _ => t.engines[n]) ∧ ∃ u, t.engines[n] = u ∧ u = { e with
        dmem := u.dmem, win := u.win,
        transfers := e.transfers.eraseIdx k.val, stallTotal := u.stallTotal, stalledSince := none } ∧
        (x.toCave = true → u.dmem = e.dmem) ∧ (x.toCave = false → u.win = e.win) ∧
        (∀ t0, e.stalledSince = some t0 → u.stallTotal = e.stallTotal + (s.time.mono - t0) / us)) ∧
    (∀ t0, e.stalledSince = some t0 → e.transfers = [] → e.nextImage = none → s.boot.inReset = false → Completes (.waitlim n) s
      (Faulted n 2 (s.until (t0 + (e.waitLim + 1 - e.stallTotal) * us)))) ∧
    (∀ v, bit v 1 = false → s.boot.inReset = false → exec (.vatAbort n v) s = .next (s.modEng n fun e => { e with ctl := wrRW 1 e.ctl v })) ∧
    (∀ v, bit v 1 = true → e.current.isSome = true → e.transfers = [] → e.nextImage = none → s.boot.inReset = false →
      Completes (.vatAbort n v) s (Faulted n 10 ((s.modEng n fun e => { e with ctl := wrRW 1 e.ctl v }).hazard)))

/-- R320, R335, R337, R338, R340, R342, R343, R345, R346. -/
def Obligations.VatFaultsEndTheInvocation : Prop :=
  ∀ (s : State) (n : EngIx) (e : Engine), e = s.engines[n] →
    (∀ r ∈ vatRows n, (e.executes = false → exec r.2 s = .next s) ∧
      (∀ w, e.code[e.pc]? = some w → vatDefined (fld w 26 6) = true → fld w 26 6 ≠ r.1 → exec r.2 s = .next s)) ∧
    (e.executes = true → e.transfers = [] → e.nextImage = none → s.boot.inReset = false →
      (∀ r ∈ vatRows n,
        (e.code.length ≤ e.pc → Completes r.2 s (Faulted n 8 s)) ∧
        (∀ w, e.code[e.pc]? = some w → vatDefined (fld w 26 6) = false → Completes r.2 s (Faulted n 3 s)) ∧
        (∀ w, e.code[e.pc]? = some w → fld w 26 6 = r.1 → e.budget < e.opc + e.cost r.1 w → Completes r.2 s (Faulted n 1 s)) ∧
        (∀ w, e.code[e.pc]? = some w → fld w 26 6 = r.1 → e.opc + e.cost r.1 w ≤ e.budget → vatStray r.1 w = true →
          Completes r.2 s (Faulted n 3 s))) ∧
      (∀ w, (Runs n 0x14 w s → 40 < fld w 20 6 → Completes (.ldi n) s (Faulted n 3 s)) ∧
        (Runs n 0x15 w s → 40 < fld w 20 6 → Completes (.mov n) s (Faulted n 3 s)) ∧
        (Runs n 0x18 w s → fld w 22 4 = 15 → Completes (.alu n) s (Faulted n 3 s)) ∧
        (Runs n 0x19 w s → fld w 22 4 = 15 → Completes (.alui n) s (Faulted n 3 s)) ∧
        (Runs n 0x08 w s → 24 < fld w 21 5 → Completes (.adda n) s (Faulted n 3 s)) ∧
        (Runs n 0x0C w s → 32 ≤ fld w 15 6 → fld w 15 6 % 2 = 1 → Completes (.stal n) s (Faulted n 3 s)) ∧
        (Runs n 0x0A w s → 40 ≤ fld w 15 6 → Completes (.sta n) s (Faulted n 3 s)) ∧
        (Runs n 0x21 w s → 8 ≤ e.calls.length → Completes (.call n) s (Faulted n 4 s)) ∧
        (Runs n 0x22 w s → e.calls = [] → Completes (.ret n) s (Faulted n 4 s)) ∧
        (Runs n 0x23 w s → 4 ≤ e.loops.length → 0 < (if bit w 25 then (e.dn (fld w 0 3)).toNat else fld w 0 15) →
          Completes (.loop n) s (Faulted n 5 s)) ∧
        (Runs n 0x28 w s → 4096 < (e.dn (fld w 17 3)).toNat → Completes (.cave n) s (Faulted n 6 s)) ∧
        (∀ k : Fin 4, Runs n 0x28 w s → k.val = fld w 23 2 → bit w 25 = true → (k = 0 ∨ k = 3) → 0 < (e.dn (fld w 17 3)).toNat →
          (e.dn (fld w 17 3)).toNat ≤ 4096 → e.pair (2 * fld w 15 2) % 2 = 0 →
          e.pair (2 * fld w 15 2) + 2 * (e.dn (fld w 17 3)).toNat ≤ (e.winSize[k]).toNat → Completes (.cave n) s (Faulted n 7 s)) ∧
        (Runs n 0x01 w s → e.outBytes < e.pair (2 * fld w 0 2) → Completes (.halt n) s (Faulted n 6 s))))

/-- R494. -/
def Obligations.EventsAreCountedAndCoalesced : Prop :=
  ∀ (s : State) (n : EvIx), s.boot.inReset = false →
    ((s.occur n).1.ev.cfg[n]).count = (if (s.ev.cfg[n]).count = 0xFFFF then 0xFFFF else (s.ev.cfg[n]).count + 1) ∧
    (s.ev.pend.getLsbD n.val = false → (∀ m : EvIx, (s.occur n).1.ev.pend.getLsbD m.val = (s.ev.pend.getLsbD m.val || m == n)) ∧
      (s.occur n).1.ev.tEvent[n] = s.time.dev ∧ SameWork s (s.occur n).1) ∧
    (s.ev.pend.getLsbD n.val = true → (s.occur n).1 = s.modEv (fun e => { e with cfg := (s.occur n).1.ev.cfg }) ∧
      (∀ m, m ≠ n → (s.occur n).1.ev.cfg[m] = s.ev.cfg[m]) ∧
      (s.occur n).1.ev.cfg[n] = { s.ev.cfg[n] with count := ((s.occur n).1.ev.cfg[n]).count })

/-- R495 to R498. -/
def Obligations.EventRegistersRouteAndClear : Prop :=
  ∀ s : State, s.boot.inReset = false →
    (∀ (k : Fin 8) (v : Word), Completes (.evPendClear k v 0) s fun t => SameWork s t ∧ t.ev.cfg = s.ev.cfg ∧ t.ev.en = s.ev.en ∧
      t.links = s.links ∧ ∀ n : EvIx, t.ev.pend.getLsbD n.val =
        (s.ev.pend.getLsbD n.val && !(decide (n.val / 32 = k.val) && bit v (n.val % 32)))) ∧
    (∀ (k : Fin 8) (v occ : Word), Completes (.evPendClear k v occ) s fun t => SameWork s t ∧
      ∀ n : EvIx, n.val / 32 = k.val → bit occ (n.val % 32) = true → t.ev.pend.getLsbD n.val = true) ∧
    (∀ (k : Fin 8) (v : Word), Completes (.evRouteWrite (.en k) v) s fun t => SameWork s t ∧ t.ev.pend = s.ev.pend ∧ t.ev.cfg = s.ev.cfg ∧
      ∀ n : EvIx, t.ev.en.getLsbD n.val = if n.val / 32 = k.val then bit v (n.val % 32) else s.ev.en.getLsbD n.val) ∧
    (∀ (n : EvIx) (v : Word), Completes (.evRouteWrite (.cfg n) v) s fun t => ∃ u : State, u = s.modEv (fun _ => u.ev) ∧
      u.ev.cfg[n] = { vector := BitVec.ofNat 8 (fld v 0 8), msix := bit v 8, packet := bit v 9, count := (s.ev.cfg[n]).count } ∧
      (∀ m, m ≠ n → u.ev.cfg[m] = s.ev.cfg[m]) ∧ u.ev.pend = s.ev.pend ∧ u.ev.en = s.ev.en ∧
      ((s.ev.cfg[n]).msix = true → bit v 8 = false → s.ev.pend.getLsbD n.val = true → (n.val, s.time.mono + 10 * us) ∈ u.ev.clearAt) ∧
      t = if bit v 8 && !(s.ev.cfg[n]).msix && s.ev.pend.getLsbD n.val && s.ev.en.getLsbD n.val then u.msix (BitVec.ofNat 8 (fld v 0 8)) else u) ∧
    (∀ (n : EvIx) (t0 : Time), assoc s.ev.clearAt n.val = some t0 →
      (Completes (.pendingSelfClear n false) s fun t => SameWork (s.until t0) t ∧ ∀ m : EvIx, t.ev.pend.getLsbD m.val =
        (s.ev.pend.getLsbD m.val && m != n)) ∧
      (Completes (.pendingSelfClear n true) s fun t => SameWork (s.until t0) t ∧ t.ev.pend.getLsbD n.val = true ∧
        t.ev.tEvent[n] = (s.until t0).time.dev)) ∧
    (s.links.msixEnable = false → Completes .msixEnable s fun t => SameWork s t ∧ t.links.msixEnable = true ∧ t.ev = s.ev ∧
      ∀ n : EvIx, s.ev.pend.getLsbD n.val = true → s.ev.en.getLsbD n.val = true → (s.ev.cfg[n]).msix = true → s.links.pcieWidth ≠ 0 →
        (s.links.masked (s.ev.cfg[n]).vector = true → t.links.pba.getLsbD (s.ev.cfg[n]).vector.toNat = true) ∧
        (s.links.masked (s.ev.cfg[n]).vector = false → Output.msix (s.ev.cfg[n]).vector.toNat ∈ t.out))

/-- R72, R76, R84 to R89, R489. Log entries 121 and 122. -/
def Obligations.LanesRecoverAndSwap : Prop :=
  ∀ s : State,
    (∀ p : PortIx, ((∀ k : Fin 4, (s.lanes[portLane p k]).starting = false) → exec (.laneStartupEnd p) s = .next s) ∧
      ((∃ k : Fin 4, (s.lanes[portLane p k]).starting = true) → Completes (.laneStartupEnd p) s fun t => ∃ e : Time,
        (∀ k : Fin 4, (s.lanes[portLane p k]).startUntil ≤ e) ∧ (∃ k : Fin 4, (s.lanes[portLane p k]).startUntil = e) ∧
        t = { s.until e with lanes := t.lanes } ∧
        ∀ n : LaneIx, t.lanes[n] = if n.val / 4 = p.val then { s.lanes[n] with starting := false } else s.lanes[n])) ∧
    (∀ (n : LaneIx) (deep : Bool) (after len : Nat),
      (s.lanes[n].powered = false ∨ len = 0 → exec (.laneOverrange n deep after len) s = .next s) ∧
      (∀ (u : State) (e : Time), s.lanes[n].powered = true → len ≠ 0 → u = s.elapse (samplesTime s.settings after) →
        e = u.time.mono + samplesTime s.settings (len + if deep then 4 * fld s.lanes[n].ctl 8 8 else fld s.lanes[n].ctl 0 8) →
        Completes (.laneOverrange n deep after len) s fun t => SameWork { u with lanes := t.lanes } t ∧ (∀ m, m ≠ n → t.lanes[m] = s.lanes[m]) ∧
          t.lanes[n] = { s.lanes[n] with recovering := some deep, recUntil := e, stat := t.lanes[n].stat, spans := t.lanes[n].spans } ∧
          ({ tag := 1, pos := none, since := u.time.mono, till := some e } : TagSpan) ∈ t.lanes[n].spans ∧
          bit t.lanes[n].stat 0 = true ∧ bit t.lanes[n].stat 1 = (deep || bit s.lanes[n].stat 1) ∧
          fld t.lanes[n].stat 16 16 = min 65535 (fld s.lanes[n].stat 16 16 + 1) ∧
          (bit s.lanes[n].stat 0 = false → bit s.lanes[n].ctl 16 = true → s.boot.inReset = false → t.ev.pend.getLsbD n.val = true))) ∧
    (∀ n : LaneIx, (s.lanes[n].recovering = none → exec (.recoveryCountEnd n) s = .next s) ∧
      (s.lanes[n].recovering ≠ none → exec (.recoveryCountEnd n) s =
        .next ((s.until s.lanes[n].recUntil).modLane n fun l => { l with recovering := none }))) ∧
    (∀ (n : LaneIx) (sl : Fin 9) (why : SliceCause),
      (s.lanes[n].posOf sl = none ∨ s.lanes[n].failing ≠ none ∨ ¬Meets s.lanes[n] sl why → exec (.sliceFailureDetected n sl why) s = .next s) ∧
      (∀ pos : Fin 8, s.lanes[n].posOf sl = some pos → s.lanes[n].failing = none → Meets s.lanes[n] sl why →
        Completes (.sliceFailureDetected n sl why) s fun t => SameWork { s with lanes := t.lanes } t ∧ (∀ m, m ≠ n → t.lanes[m] = s.lanes[m]) ∧
          (∀ w, (sl, w) ∉ t.lanes[n].suspects) ∧
          (∀ sp, s.lanes[n].spare = some sp →
            t.lanes[n] = { s.lanes[n] with
              failing := some { slice := sl, hard := why == .power, shadow := true, after := (s.ports[lanePort n]).frameNo }
              slices := s.lanes[n].slices.set sp (s.lanes[n].spareAt.getD pos.val SliceCorr.reset)
              suspects := t.lanes[n].suspects, tested := t.lanes[n].tested, spans := t.lanes[n].spans } ∧
            (why ≠ .power → t.lanes[n].spans = s.lanes[n].spans) ∧
            (why = .power → ({ tag := 2, pos := some pos, since := (s.ports[lanePort n]).frameStart.getD s.time.mono, till := none } : TagSpan) ∈
              t.lanes[n].spans)) ∧
          (s.lanes[n].spare = none → why = .power → (∀ d ∈ s.lanes[n].dead, d.1 ≠ pos) →
            t.lanes[n] = { s.lanes[n] with
              dead := s.lanes[n].dead ++ [(pos, (s.ports[lanePort n]).frameStart.getD s.time.mono)], stat := setBit s.lanes[n].stat 3
              suspects := t.lanes[n].suspects, tested := t.lanes[n].tested } ∧
            (bit s.lanes[n].stat 3 = false → bit s.lanes[n].ctl 18 = true → s.boot.inReset = false → t.ev.pend.getLsbD n.val = true)) ∧
          (s.lanes[n].spare = none → why ≠ .power ∨ (∃ d ∈ s.lanes[n].dead, d.1 = pos) →
            t.lanes[n] = { s.lanes[n] with suspects := t.lanes[n].suspects, tested := t.lanes[n].tested }))) ∧
    (∀ (n : LaneIx) (x : SampleSums),
      (s.lanes[n].failing = none ∨ s.lanes[n].spare = none → exec (.sliceSwap n x) s = .next s) ∧
      (∀ f sp, s.lanes[n].failing = some f → s.lanes[n].spare = some sp →
        (s.lanes[n].posOf f.slice = none ∨ (s.ports[lanePort n]).frameNo ≤ f.after ∨
          shadowOk (s.lanes[n].frame.foldl plusSums SampleSums.zero) x = false → exec (.sliceSwap n x) s = .next s) ∧
        (∀ pos, s.lanes[n].posOf f.slice = some pos → f.after < (s.ports[lanePort n]).frameNo →
          shadowOk (s.lanes[n].frame.foldl plusSums SampleSums.zero) x = true →
          Completes (.sliceSwap n x) s fun t => SameWork { s with lanes := t.lanes, ports := t.ports } t ∧
            t.lanes[n] = { s.lanes[n] with
              position := s.lanes[n].position.set pos sp, spare := none, failing := none, stat := t.lanes[n].stat, spans := t.lanes[n].spans } ∧
            fld t.lanes[n].stat 8 4 = f.slice.val ∧ bit t.lanes[n].stat 2 = true ∧ (∀ m, m ≠ n → t.lanes[m] = s.lanes[m]) ∧
            (∀ y ∈ t.lanes[n].spans, y.tag = 2 → y.till ≠ none) ∧ (∀ p, p ≠ lanePort n → t.ports[p] = s.ports[p]) ∧
            ((s.ports[lanePort n]).calMode = 0 → t.ports[lanePort n] = s.ports[lanePort n]) ∧
            ((s.ports[lanePort n]).calMode ≠ 0 → ((t.ports[lanePort n]).cal (lanePair n)).restart = true ∧
              ((t.ports[lanePort n]).cal (lanePair n)).targets = none)))) ∧
    (∀ (n : LaneIx) (v : Word), ReachesPort s (lanePort n) →
      (Completes (.trimWrite n false v) s fun t => t = { s with lanes := t.lanes, glb := t.glb, ports := t.ports } ∧
        t.lanes[n] = { s.lanes[n] with trim := (s.lanes[n].trim &&& 0xFFC00C00) ||| (v &&& 0x003FF3FF) } ∧
        (∀ m, m ≠ n → t.lanes[m] = s.lanes[m]) ∧ (∀ p, p ≠ lanePort n → t.ports[p] = s.ports[p]) ∧
        t.glb = (if (s.lanes[n].trim ^^^ v) &&& 0x003FF3FF = 0 then s.glb else s.hazard.glb) ∧
        ((s.ports[lanePort n]).calMode = 0 → t.ports[lanePort n] = s.ports[lanePort n]) ∧
        ((s.ports[lanePort n]).calMode ≠ 0 → bit (t.ports[lanePort n]).rxcStat 18 = true ∧
          ((t.ports[lanePort n]).cal (lanePair n)).restart = true ∧ ((t.ports[lanePort n]).cal (lanePair n)).targets = none)) ∧
      (Completes (.trimWrite n true v) s fun t => t = { s with lanes := t.lanes, glb := t.glb, ports := t.ports } ∧
        t.lanes[n] = { s.lanes[n] with qsk := t.lanes[n].qsk, qcs := t.lanes[n].qcs } ∧ fld t.lanes[n].qsk 0 8 = fld v 0 8 ∧
        fld t.lanes[n].qsk 16 10 = (if n.val % 2 = 0 then fld s.lanes[n].qsk 16 10 else fld v 16 10) ∧
        (∀ m, m ≠ n → t.lanes[m] = s.lanes[m]) ∧ (∀ p, p ≠ lanePort n → t.ports[p] = s.ports[p]) ∧
        (n.val % 2 = 0 ∨ (s.ports[lanePort n]).calMode = 0 → t.ports[lanePort n] = s.ports[lanePort n]) ∧
        (n.val % 2 ≠ 0 → (s.ports[lanePort n]).calMode ≠ 0 → bit (t.ports[lanePort n]).rxcStat 18 = true ∧
          ((t.ports[lanePort n]).cal (lanePair n)).restart = true ∧ ((t.ports[lanePort n]).cal (lanePair n)).targets = none)))

/-- R91 to R103, R131. -/
def Obligations.CalibratorAcceptsWalksAndHolds : Prop :=
  ∀ (s : State) (p : PortIx) (w : Pair),
    (∀ v : Word, ReachesPort s p → Completes (.calModeWrite p v) s fun t => t = s.modPort p (fun _ => t.ports[p]) ∧
      fld t.ports[p].rxcCtl 0 2 = (if fld v 0 2 = 3 then fld s.ports[p].rxcCtl 0 2 else fld v 0 2) ∧
      (∀ f ∈ [(2, 6), (8, 8), (16, 4), (24, 8)], fld t.ports[p].rxcCtl f.1 f.2 =
        if s.ports[p].calMode ≠ 0 ∨ rxcLegal f.1 (fld v f.1 f.2) = false then fld s.ports[p].rxcCtl f.1 f.2 else fld v f.1 f.2) ∧
      (bit t.ports[p].rxcStat 19 = true ↔ bit s.ports[p].rxcStat 19 = true ∨ fld v 0 2 = 3 ∨
        ∃ f ∈ [(2, 6), (8, 8), (16, 4), (24, 8)], fld v f.1 f.2 ≠ fld s.ports[p].rxcCtl f.1 f.2 ∧
          (s.ports[p].calMode ≠ 0 ∨ rxcLegal f.1 (fld v f.1 f.2) = false))) ∧
    (¬Accumulates s.ports[p] w → exec (.calibrationEstimate p w) s = .next s) ∧
    (Accumulates s.ports[p] w → Few (s.ports[p].cal w).acc → (s.ports[p].cal w).frames < fld s.ports[p].rxcWin 16 16 →
      exec (.calibrationEstimate p w) s = .next s) ∧
    (∀ (d : Accum) (tg : Int × Int × Int × Int) (r : Nat), Accumulates s.ports[p] w → d = (s.ports[p].cal w).acc →
      (Few d → fld s.ports[p].rxcWin 16 16 ≤ (s.ports[p].cal w).frames) → tg = estTargets s.lanes[pairI p w] s.lanes[pairQ p w] d.a d.b →
      (Few d → r = 6) →
      (¬Few d → r = estReason d (fld s.ports[p].rxcCtl 24 8) (s.lanes[pairI p w].pDark + s.lanes[pairQ p w].pDark) tg) →
      Completes (.calibrationEstimate p w) s fun t => SameWork { s with ports := t.ports, lanes := t.lanes } t ∧ (∀ m, m ≠ p → t.ports[m] = s.ports[m]) ∧
        (∀ n : LaneIx, t.lanes[n] = { s.lanes[n] with suspects := t.lanes[n].suspects }) ∧
        fld t.ports[p].rxcKap (match w with | .x => 0 | .y => 16) 16 = kappa d.a d.b ∧
        (r = 0 → t.ports[p].calState w = 2 ∧ (t.ports[p].cal w).targets = some tg) ∧
        (r ≠ 0 → t.ports[p].calState w = 3 ∧ (t.ports[p].cal w).targets = none ∧
          (t.ports[p].cal w).holdFrames = 16 * fld s.ports[p].rxcCtl 2 6 ∧ t.lanes = s.lanes) ∧
        fld t.ports[p].rxcStat (match w with | .x => 4 | .y => 12) 4 = r) ∧
    (s.ports[p].calMode = 0 → Completes (.trimWalkStep p) s fun t => t = s.modPort p (fun _ => t.ports[p]) ∧
      t.ports[p].calState w = 0 ∧ (t.ports[p].cal w).targets = none) ∧
    (s.ports[p].calMode ≠ 0 → (∀ v : Pair, s.ports[p].calState v ≠ 2 ∨ (s.ports[p].cal v).targets = none) →
      exec (.trimWalkStep p) s = .next s) ∧
    (∀ oi oq gq qc : Int, s.ports[p].calMode ≠ 0 → s.ports[p].calState w = 2 → (s.ports[p].cal w).targets = some (oi, oq, gq, qc) →
      (inTen oi && inTen oq && inTen gq && inTen qc) = true → Completes (.trimWalkStep p) s fun t =>
        t = { s with lanes := t.lanes, ports := t.ports } ∧ (∀ m, m ≠ p → t.ports[m] = s.ports[m]) ∧
        (∀ n : LaneIx, n.val / 4 ≠ p.val → t.lanes[n] = s.lanes[n]) ∧
        sfld10 t.lanes[pairI p w].trim 0 = stepTo (sfld10 s.lanes[pairI p w].trim 0) oi ∧
        sfld10 t.lanes[pairQ p w].trim 0 = stepTo (sfld10 s.lanes[pairQ p w].trim 0) oq ∧
        sfld10 t.lanes[pairQ p w].trim 12 = stepTo (sfld10 s.lanes[pairQ p w].trim 12) gq ∧
        sfld10 t.lanes[pairQ p w].qsk 16 = stepTo (sfld10 s.lanes[pairQ p w].qsk 16) qc ∧
        (sfld10 s.lanes[pairI p w].trim 0 = oi → sfld10 s.lanes[pairQ p w].trim 0 = oq → sfld10 s.lanes[pairQ p w].trim 12 = gq →
          sfld10 s.lanes[pairQ p w].qsk 16 = qc → t.ports[p].calState w = (if s.ports[p].calMode = 1 then 4 else 1) ∧
            (t.ports[p].cal w).targets = none) ∧
        (¬(sfld10 s.lanes[pairI p w].trim 0 = oi ∧ sfld10 s.lanes[pairQ p w].trim 0 = oq ∧ sfld10 s.lanes[pairQ p w].trim 12 = gq ∧
          sfld10 s.lanes[pairQ p w].qsk 16 = qc) → t.ports[p].calState w = 2 ∧ (t.ports[p].cal w).targets = some (oi, oq, gq, qc) ∧
            (t.ports[p].cal w).stepped = true)) ∧
    (s.ports[p].calMode = 2 → s.ports[p].calState w = 3 → (s.ports[p].cal w).holdFrames = 0 → Completes (.calibrationHoldEnd p w) s fun t =>
      t = s.modPort p (fun _ => t.ports[p]) ∧ t.ports[p].calState w = 1 ∧ (t.ports[p].cal w).restart = false ∧ (t.ports[p].cal w).frames = 0) ∧
    (s.ports[p].calMode ≠ 2 ∨ s.ports[p].calState w ≠ 3 ∨ (s.ports[p].cal w).holdFrames ≠ 0 → exec (.calibrationHoldEnd p w) s = .next s) ∧
    (∀ powers floor, (s.ports[p].dark ≠ .closed → s.ports[p].dark ≠ .ended → exec (.darkFrameEnd p powers floor) s = .next s) ∧
      (∀ (u : State) (x : DarkSt),
        (s.ports[p].dark = .closed ∧ x = .measured ∧ u = s.until ((s.ports[p]).frameStart.getD 0 + frameTime s.ports[p].plan p.val)) ∨
          (s.ports[p].dark = .ended ∧ x = .none ∧ u = s) → Completes (.darkFrameEnd p powers floor) s fun t =>
        t = { u with lanes := t.lanes, ports := t.ports } ∧ t.ports = s.ports.set p { s.ports[p] with dark := x, floor := floor } ∧
        (∀ k : Fin 4, t.lanes[portLane p k] = { s.lanes[portLane p k] with pDark := powers.getD k.val s.lanes[portLane p k].pDark }) ∧
        ∀ n : LaneIx, n.val / 4 ≠ p.val → t.lanes[n] = s.lanes[n]))

/-- R288 to R291, R307 to R314. -/
def Obligations.Axc1RunsItsSequence : Prop :=
  ∀ s : State,
    (∀ v : Word, Reaches s 4 → s.axc1.urgQ = [] →
      (bit s.axc1.ctl 0 = false → bit v 0 = true → Completes (.axc1Enable v) s fun t =>
        t = s.modAxc1 (fun _ => t.axc1) ∧ bit t.axc1.ctl 0 = true ∧ bit t.axc1.ctl 1 = bit v 1 ∧ fld t.axc1.ctl 2 5 = fld v 2 5 ∧
        fld t.axc1.ctl 7 3 = (if fld v 7 3 = 0 then fld s.axc1.ctl 7 3 else fld v 7 3) ∧ t.axc1.res = s.axc1.res ∧ t.axc1.seq = s.axc1.seq ∧
        (bit v 1 = false ∨ (bit v 10 = true ∧ bit s.axc1.stat 5 = false) → t.axc1.running = some (some 0) ∧ t.axc1.entry = 0 ∧
          t.axc1.seqOn = true ∧ t.axc1.startAt = s.time.mono ∧ bit t.axc1.stat 5 = true) ∧
        (bit v 1 = true → bit v 10 = false → t.axc1.running = s.axc1.running ∧ t.axc1.seqOn = s.axc1.seqOn)) ∧
      (bit s.axc1.ctl 0 = true → bit v 0 = true → bit v 10 = true → Completes (.axc1Start v) s fun t => t = s.modAxc1 (fun _ => t.axc1) ∧
        (bit s.axc1.ctl 1 = true → bit s.axc1.stat 5 = false →
          t.axc1.running = some (some 0) ∧ t.axc1.seqOn = true ∧ t.axc1.startAt = s.time.mono ∧ bit t.axc1.stat 5 = true) ∧
        (bit s.axc1.ctl 1 = true → bit s.axc1.stat 5 = true → t.axc1.running = s.axc1.running ∧ bit t.axc1.stat 9 = true) ∧
        (bit s.axc1.ctl 1 = false → t.axc1.running = s.axc1.running))) ∧
    (∀ v : Word, Reaches s 4 → bit s.axc1.ctl 0 = true → bit v 0 = false → Completes (.axc1Disable v) s fun t =>
      t = s.modAxc1 (fun _ => t.axc1) ∧ bit t.axc1.ctl 0 = false ∧ t.axc1.running = none ∧ t.axc1.urgQ = [] ∧ t.axc1.seqOn = false ∧
      bit t.axc1.stat 5 = false ∧ bit t.axc1.stat 7 = false ∧ t.axc1.res = s.axc1.res ∧ t.axc1.urgRes = s.axc1.urgRes ∧ t.axc1.seq = s.axc1.seq) ∧
    (∀ v : Word, Reaches s 4 →
      (bit v 31 = false → exec (.axc1UrgentRequest v) s = .next s) ∧
      (bit v 31 = true → bit s.axc1.ctl 0 = false ∨ axc1WordOk v = false →
        exec (.axc1UrgentRequest v) s = .next (s.modAxc1 fun a => { a with stat := setBit a.stat 9 })) ∧
      (bit v 31 = true → bit s.axc1.ctl 0 = true → axc1WordOk v = true →
        (4 ≤ s.axc1.urgQ.length → exec (.axc1UrgentRequest v) s = .next (s.modAxc1 fun a => { a with stat := setBit a.stat 8 })) ∧
        (s.axc1.urgQ.length < 4 → s.axc1.running = some none ∨ (s.axc1.running.isSome = true ∧ fld s.axc1.ctl 7 3 ≤ s.axc1.urgRun) →
          Completes (.axc1UrgentRequest v) s fun t => t = s.modAxc1 fun a => { a with urgQ := s.axc1.urgQ ++ [v &&& 0x001FFFFF], stat := t.axc1.stat }) ∧
        (∀ n, s.axc1.urgQ = [] → (s.axc1.running = none ∧ s.axc1.seqOn = false) ∨
            (s.axc1.running = some (some n) ∧ s.axc1.urgRun < fld s.axc1.ctl 7 3) →
          Completes (.axc1UrgentRequest v) s fun t => t = s.modAxc1 (fun _ => t.axc1) ∧ t.axc1.running = some none ∧
            t.axc1.urgQ = [v &&& 0x001FFFFF] ∧ t.axc1.startAt = s.time.mono ∧ bit t.axc1.stat 5 = true ∧ t.axc1.res = s.axc1.res))) ∧
    (∀ m : Axc1Conv, s.axc1.running = none → exec (.axc1EntryComplete m) s = .next s) ∧
    (∀ (m : Axc1Conv) (run : Option Nat) (u : State), s.axc1.running = some run → (∀ k, run = some k → k < 32) →
      (m.refSettled = true → u = s.until (s.axc1.startAt + (if bit s.axc1.stat 7 then 0 else axc1Settle s.axc1.ref) + s.axc1.cycles * auxCycle)) →
      (m.refSettled = false → ∃ w, u = { s.until (s.axc1.startAt + ms) with free := w }) →
      Completes (.axc1EntryComplete m) s fun t => SameWork { u with axc1 := t.axc1, free := t.free } t ∧
        (m.refSettled = true → t.free = s.free) ∧ t.axc1.ctl = s.axc1.ctl ∧ t.axc1.seq = s.axc1.seq ∧
        ∀ (code : Nat) (ovr und : Bool), axc1Code m.vs m.vref = (code, ovr, und) →
          (∀ n : Fin 32, run = some n.val → (∀ i, i ≠ n → t.axc1.res[i] = s.axc1.res[i]) ∧ t.axc1.urgRes = s.axc1.urgRes ∧
            (m.refSettled = true → fld t.axc1.res[n] 0 16 = code ∧ bit t.axc1.res[n] 16 = !(ovr || und || s.axc1.invalid) ∧
              bit t.axc1.res[n] 17 = ovr ∧ bit t.axc1.res[n] 18 = und ∧ bit t.axc1.res[n] 19 = false ∧ bit t.axc1.res[n] 20 = s.axc1.invalid) ∧
            (m.refSettled = false → bit t.axc1.res[n] 16 = false ∧ bit t.axc1.res[n] 19 = true)) ∧
          (run = none → t.axc1.res = s.axc1.res ∧ t.axc1.urgQ = s.axc1.urgQ.tail ∧ (s.boot.inReset = false → t.ev.pend.getLsbD 208 = true) ∧
            (m.refSettled = true → fld t.axc1.urgRes 0 16 = code ∧ bit t.axc1.urgRes 16 = !(ovr || und || s.axc1.invalid)) ∧
            (m.refSettled = false → bit t.axc1.urgRes 16 = false ∧ bit t.axc1.urgRes 19 = true)))

/-- R206 to R209, R212 to R217, R491. Log entries 129 and 130. -/
def Obligations.ClockGatesCountersAndCapture : Prop :=
  ∀ s : State, s.boot.inReset = false →
    (∀ (v : Word) (c : Instr), c = .ckgEnClear .en0 v ∨ c = .ckgEnSet .en0 v → (∀ i, i < 3 → bit v i = bit s.clk.ckg0 i) →
      Completes c s fun t => t = s.modClk (fun _ => t.clk) ∧ t.clk.ckg1 = s.clk.ckg1 ∧
        t.clk = { s.clk with ckg0 := t.clk.ckg0, ckgStat := t.clk.ckgStat, settling := t.clk.settling } ∧
        (∀ i, i < 11 → bit t.clk.ckg0 i = (bit v i || (bit s.clk.ckg0 i && s.blockInUse i))) ∧
        (∀ i, 11 ≤ i → bit t.clk.ckg0 i = bit s.clk.ckg0 i) ∧
        ((∃ i, 3 ≤ i ∧ i < 11 ∧ bit s.clk.ckg0 i = true ∧ bit v i = false ∧ s.blockInUse i = true) → bit t.clk.ckgStat 16 = true) ∧
        (∀ i, 3 ≤ i → i < 11 → bit s.clk.ckg0 i = true → bit v i = false → s.blockInUse i = false → bit t.clk.ckgStat i = true) ∧
        (∀ i, 3 ≤ i → i < 11 → bit s.clk.ckg0 i = false → bit v i = true →
          bit t.clk.ckgStat i = false ∧ (i, s.time.mono + ungateTime i) ∈ t.clk.settling)) ∧
    (∀ i, i < 3 → bit s.clk.ckg0 i = true → s.serving i = true →
      exec (.ckgEnClear .en0 (clrBit s.clk.ckg0 i)) s = .next (s.modClk fun c => { c with ckgStat := setBit c.ckgStat 16 })) ∧
    (∀ i, i < 3 → bit s.clk.ckg0 i = true → s.serving i = false → (s.tiu.spare = i → s.tiu.launch ≠ i ∧ s.tiu.user ≠ i) →
      (s.tiu.launch = i → s.tiu.user ≠ i) → Completes (.ckgEnClear .en0 (clrBit s.clk.ckg0 i)) s fun t =>
      t.clk.ckg0 = clrBit s.clk.ckg0 i ∧ bit t.clk.ckgStat i = true ∧ t.tiu.launch ≠ i ∧ t.tiu.user ≠ i ∧ t.settings = s.settings) ∧
    (∀ i : Fin 3, bit s.clk.ckg0 i.val = false → Completes (.ckgEnSet .en0 (setBit s.clk.ckg0 i.val)) s fun t =>
      t.clk.ckg0 = setBit s.clk.ckg0 i.val ∧ (i.val, s.time.mono + ungateTime i.val) ∈ t.clk.settling ∧
      (bit s.tiu.stat (14 + i.val) = true → t = s.modClk (fun _ => t.clk)) ∧
      (bit s.tiu.stat (14 + i.val) = false → UnitName.vernier i ∈ t.ladle.tests ∧ (t.tiu.conv[i]).returning = true ∧
        t = { s with clk := t.clk, tiu := t.tiu, ladle := t.ladle })) ∧
    (∀ (v : Word) (c : Instr), c = .ckgEnClear .en1 v ∨ c = .ckgEnSet .en1 v → Completes c s fun t => t = s.modClk (fun _ => t.clk) ∧
      t.clk = { s.clk with ckg1 := t.clk.ckg1, ckgStat := t.clk.ckgStat, settling := t.clk.settling } ∧
      (∀ p : PortIx, bit t.clk.ckg1 p.val = (bit v p.val || (bit s.clk.ckg1 p.val && s.settings.probing p.val))) ∧
      ((∃ p : PortIx, bit s.clk.ckg1 p.val = true ∧ bit v p.val = false ∧ s.settings.probing p.val = true) → bit t.clk.ckgStat 16 = true) ∧
      (∀ p : PortIx, 0 < fsHz s.settings → bit s.clk.ckg1 p.val = false → bit v p.val = true →
        (11 + p.val, s.time.mono + ceilDiv (32 * sec) (fsHz s.settings)) ∈ t.clk.settling)) ∧
    (∀ v : Word, s.clkOpen 3 = true → bit v 16 = true → Completes (.fcntStart v) s fun t => t = s.modClk (fun _ => t.clk) ∧
      bit t.clk.fstat 0 = true ∧ (bit s.clk.fstat 0 = true → bit t.clk.fstat 4 = true ∧ t.clk.fctl = s.clk.fctl) ∧
      (bit s.clk.fstat 0 = false → (bit t.clk.fstat 3 = (bit s.clk.fstat 3 || s.clk.ramping)) ∧
        fld t.clk.fctl 0 4 = (if fld v 0 4 ≤ 12 then fld v 0 4 else fld s.clk.fctl 0 4) ∧
        fld t.clk.fctl 4 4 = (if fld v 4 4 ≤ 12 then fld v 4 4 else fld s.clk.fctl 4 4) ∧
        fld t.clk.fctl 8 5 = (if 10 ≤ fld v 8 5 ∧ fld v 8 5 ≤ 30 then fld v 8 5 else fld s.clk.fctl 8 5))) ∧
    (∀ m r : Nat, bit s.clk.fstat 0 = true → 2 ^ fld s.clk.fctl 8 5 ≤ r → m < 2 ^ 40 → r < 2 ^ 40 →
      Completes (.fcntDone m r) s fun t => SameWork { s with clk := t.clk } t ∧
        t.clk.fmlo.toNat + 2 ^ 32 * fld t.clk.fhi 0 8 = m ∧ t.clk.frlo.toNat + 2 ^ 32 * fld t.clk.fhi 8 8 = r ∧
        bit t.clk.fstat 0 = false ∧ bit t.clk.fstat 1 = true ∧ t.ev.pend.getLsbD 184 = true) ∧
    (∀ m r : Nat, bit s.clk.fstat 0 = false ∨ r < 2 ^ fld s.clk.fctl 8 5 → exec (.fcntDone m r) s = .next s) ∧
    (bit s.clk.fstat 0 = true → Completes .fcntNoclk s fun t => bit t.clk.fstat 0 = false ∧ bit t.clk.fstat 1 = true ∧ bit t.clk.fstat 2 = true ∧
      SameWork { s.elapse (64 * sec / 32768) with clk := t.clk, free := s.free + 2 } t ∧ t.ev.pend.getLsbD 184 = true) ∧
    (bit s.clk.fstat 0 = false → exec .fcntNoclk s = .next s) ∧
    (∃ x : Nat, (s.time.devSet = true → x = s.time.dev / sec * 2 ^ 48 + s.time.dev % sec) ∧ (s.time.devSet = false → x = 0) ∧
      exec .timeCapture s = .next (s.modGlb fun g => { g with
        time0 := BitVec.ofNat 32 x, time1 := BitVec.ofNat 32 (x / 2 ^ 32), time2 := BitVec.ofNat 32 (x / 2 ^ 64) }))

/-- R45, R51 to R54, R58, R66, R571. -/
def Obligations.SourceDriveChainRuns : Prop :=
  ∀ s : State,
    (∀ v : Word, Reaches s 10 → bit s.sdc.ctl 0 = false → bit v 0 = true →
      Completes (.sdcEnable v) s fun t => t = { s with sdc := t.sdc, glb := t.glb } ∧
        t.glb = (if bit v 3 = bit s.sdc.ctl 3 then s.glb else s.hazard.glb) ∧ bit t.sdc.ctl 0 = true ∧ bit t.sdc.ctl 3 = bit v 3 ∧
        fld t.sdc.ctl 1 2 = (if fld v 1 2 = 3 then fld s.sdc.ctl 1 2 else fld v 1 2) ∧
        fld t.sdc.ctl 4 12 = (if fld v 4 12 = 0 then fld s.sdc.ctl 4 12 else fld v 4 12) ∧
        (fld v 4 12 = 0 ∨ (fld v 1 2 = 3 ∧ fld s.sdc.ctl 1 2 ≠ 3) → bit t.sdc.stat 17 = true) ∧ t.sdc.raw = s.sdc.raw ∧ t.sdc.ovr = s.sdc.ovr ∧
        (NoCause s → t.sdc.phase = .discovering ∧ bit t.sdc.stat 16 = false ∧ t.sdc.clkInUse.toNat = fld t.sdc.ctl 1 2 ∧
          t.sdc.waitUntil = s.chainEnd (2176 * sec / t.sdc.hz) 0) ∧
        (¬NoCause s → t.sdc.phase = .waiting ∧ bit t.sdc.stat 16 = true)) ∧
    (∀ v : Word, Reaches s 10 → bit s.sdc.ctl 0 = true → bit v 0 = false → Completes (.sdcDisable v) s fun t =>
      t = { s with sdc := t.sdc, emOn := t.emOn, glb := t.glb } ∧ t.sdc.phase = .idle ∧ bit t.sdc.ctl 0 = false ∧ bit t.sdc.stat 16 = true ∧
      t.sdc.sent = [] ∧ fld t.sdc.ctl 1 2 = fld s.sdc.ctl 1 2 ∧ ∀ e : Fin 128, t.emOn[e] = false) ∧
    (s.sdc.phase ≠ .framing → ∀ rx, exec (.sdcFrameEnd rx) s = .next s) ∧
    (∀ rx : List (BitVec 64), s.sdc.phase = .framing → Passes s rx →
      Completes (.sdcFrameEnd rx) s fun t => t.sdc.latched = s.sdc.sent ∧ t.sdc.phase = .framing ∧ t.sdc.failedRun = 0 ∧
        t.sdc.passes = s.sdc.passes + 1 ∧ t.sdc.seq = s.sdc.seq + 1 ∧ .chainFrame s.sdc.sent ∈ t.out ∧
        (∀ e : Fin 128, t.emOn[e] = (s.sdc.sent.getD (e.val / 4) 0).getLsbD (12 + e.val % 4)) ∧ FaultsShut s rx t ∧
        ((∀ e, ¬Faulty s rx e) → t.ports = s.ports ∧ t.ev = s.ev ∧ t.out = s.out ++ [.chainFrame s.sdc.sent]) ∧
        t.settings = s.settings ∧ t.time.mono = max s.time.mono s.sdc.waitUntil) ∧
    (∀ rx : List (BitVec 64), s.sdc.phase = .framing → ¬Passes s rx → s.sdc.failedRun = 0 →
      Completes (.sdcFrameEnd rx) s fun t => t.sdc.latched = s.sdc.sent ∧ t.sdc.phase = .framing ∧
        t.sdc.failedRun = 1 ∧ t.sdc.passes = 0 ∧ fld t.sdc.stat 8 8 = min 255 (fld s.sdc.stat 8 8 + 1) ∧ FaultsShut s rx t ∧ t.settings = s.settings) ∧
    (∀ rx : List (BitVec 64), s.sdc.phase = .framing → ¬Passes s rx → 1 ≤ s.sdc.failedRun → s.sdc.chainFailed = false → s.boot.inReset = false →
      Completes (.sdcFrameEnd rx) s fun t =>
        AllShut t ∧ t.sdc.chainFailed = true ∧ bit t.sdc.stat 7 = true ∧ t.sdc.latched = s.sdc.latched ∧ t.rind.inhibitOuter = true ∧
        t.ev.pend.getLsbD 204 = true ∧ t.ev.pend.getLsbD 201 = true ∧ t.settings = s.settings) ∧
    (s.sdc.phase = .waiting → bit s.sdc.ctl 0 = true → NoCause s →
      (s.sdc.waitUntil ≤ s.time.mono → Completes .sdcDiscoveryStart s fun t => t = s.modSdc (fun _ => t.sdc) ∧ t.sdc.phase = .discovering ∧
        bit t.sdc.stat 16 = false ∧ t.sdc.clkInUse.toNat = fld s.sdc.ctl 1 2) ∧
      (s.sdc.chainFailed = true → Completes .sdcDiscoveryRetry s fun t => t.sdc.phase = .discovering ∧ bit t.sdc.stat 16 = false ∧
        t.time.mono = max s.time.mono s.sdc.waitUntil ∧ t.emOn = s.emOn ∧ t.shut = s.shut)) ∧
    (s.sdc.phase ≠ .waiting ∨ bit s.sdc.ctl 0 = false ∨ ¬NoCause s →
      exec .sdcDiscoveryStart s = .next s ∧ exec .sdcDiscoveryRetry s = .next s) ∧
    (s.time.mono < s.sdc.waitUntil → exec .sdcDiscoveryStart s = .next s) ∧
    (s.sdc.chainFailed = false → exec .sdcDiscoveryRetry s = .next s) ∧
    (∀ blocks, s.sdc.phase ≠ .discovering → exec (.sdcDiscoveryEnd blocks) s = .next s) ∧
    (∀ (blocks : List (BitVec 64)) (k : Nat), s.sdc.phase = .discovering → (blocks.take 34).findIdx? (fun b => b == 0) = some k →
      (s.sdc.clkInUse.toNat = 2 → k ≤ 20) →
      Completes (.sdcDiscoveryEnd blocks) s fun t => fld t.sdc.stat 0 6 = k ∧ t.sdc.chainFailed = false ∧ t.sdc.known = true ∧
        t.sdc.prevCount = some k ∧ t.sdc.ids = ((blocks.take k).reverse).map (fun b => b.extractLsb' 8 8) ∧ t.sdc.latched = List.replicate k 0 ∧
        (∀ e : Fin 128, t.emOn[e] = false) ∧ t.shut = s.shut ∧
        (s.sdc.bootDiscovery = false ∨ (NoCause s ∧ bit s.sdc.ctl 0 = true) → t.sdc.phase = .framing) ∧
        (s.sdc.bootDiscovery = true → ¬(NoCause s ∧ bit s.sdc.ctl 0 = true) → bit t.sdc.stat 16 = true ∧ t.sdc.phase ≠ .framing) ∧
        (s.sdc.prevCount = none ∨ s.sdc.prevCount = some k → t.settings = s.settings) ∧
        (∀ m, s.sdc.prevCount = some m → m ≠ k → (s.boot.inReset = false → t.ev.pend.getLsbD 206 = true) ∧
          ∀ e, emDefined t.settings e = (decide (e < 4 * k) && emDefined s.settings e))) ∧
    (∀ blocks : List (BitVec 64), s.sdc.phase = .discovering → (blocks.take 34).findIdx? (fun b => b == 0) = none →
      Completes (.sdcDiscoveryEnd blocks) s fun t => DiscoveryFails s t ∧ bit t.sdc.stat 6 = true ∧ fld t.sdc.stat 0 6 = 0) ∧
    (∀ (blocks : List (BitVec 64)) (k : Nat), s.sdc.phase = .discovering → (blocks.take 34).findIdx? (fun b => b == 0) = some k →
      s.sdc.clkInUse.toNat = 2 → 20 < k →
      Completes (.sdcDiscoveryEnd blocks) s fun t => DiscoveryFails s t ∧ bit t.sdc.stat 18 = true ∧ fld t.sdc.stat 0 6 = k)

/-- R58, R59, R571. -/
def Obligations.InterlockShutsEverythingDown : Prop :=
  ∀ s : State,
    (s.sdc.causeIntlk = false → s.boot.inReset = false → Completes .interlockOpen s fun t => AllShut t ∧ t.sdc.causeIntlk = true ∧
      (∀ p : PortIx, portGroup s.settings p.val < 16 → t.ports[p].gateOpen = false ∧ t.ports[p].probeOn = false) ∧ t.rind.inhibitOuter = true ∧
      t.ev.pend.getLsbD 204 = true ∧ t.ev.pend.getLsbD 200 = true ∧ t.time = s.time ∧ t.settings = s.settings ∧ t.lanes = s.lanes) ∧
    (s.sdc.causeIntlk = true → exec .interlockOpen s = .next s ∧ Completes .interlockClosed s fun t =>
      t = { s with sdc := t.sdc, rind := t.rind } ∧ t.sdc.causeIntlk = false ∧ t.sdc.phase = s.sdc.phase ∧ t.sdc.chainFailed = s.sdc.chainFailed) ∧
    (s.sdc.causeIntlk = false → exec .interlockClosed s = .next s)

/-- R189 to R194, R202 to R204. -/
def Obligations.ReferenceClockMoves : Prop :=
  ∀ s : State,
    (∀ r : RefSrc, (r = .internal ∨ s.clk.qualified r = false → exec (.ckRefSourceLost r) s = .next s) ∧
      (s.clk.qualified r = true ∨ (r = .recovered ∧ s.links.tportUp = false) → exec (.ckRefSourceQualified r) s = .next s)) ∧
    (∀ (r : RefSrc) (ok : Bool) (c : Instr) (u v : State),
      (c = .ckRefSourceLost r ∧ ok = false ∧ r ≠ .internal ∧ v = s) ∨
        (c = .ckRefSourceQualified r ∧ ok = true ∧ ((r = .refin ∧ v = s) ∨
          (r = .recovered ∧ s.links.tportUp = true ∧ v = s.until (s.clk.recovSince + fld s.clk.ctl 8 8 * sec)))) →
      s.clk.qualified r = (!ok) → u = v.modClk (fun c => { c with stat := putBit c.stat (sourceBit r) ok }) →
      Completes c s fun t => SameWork { u with clk := t.clk, axc1 := t.axc1, sdc := t.sdc } t ∧
        (s.boot.inReset = false → t.ev.pend.getLsbD (if r = .recovered then 179 else 180) = true) ∧ Moves u t) ∧
    (∀ u : State, (s.latchUntil = none → u = s) → (∀ e, s.latchUntil = some e → u = s.until e) →
      Completes .ckRefSwitch s fun t => t = { u with clk := t.clk, axc1 := t.axc1, sdc := t.sdc } ∧ Moves u t) ∧
    ((∀ r b, s.clk.ramp ≠ .ref r b) → exec .ckRefRampComplete s = .next s) ∧
    (∀ r b, s.clk.ramp = .ref r b → Completes .ckRefRampComplete s fun t =>
      SameWork { s.until (s.clk.rampAt + 6 * us) with clk := t.clk, time := t.time, rind := t.rind, aon := t.aon } t ∧
      t.time.mono = max s.time.mono (s.clk.rampAt + 8 * us) ∧ bit t.clk.stat 15 = false ∧ (s.boot.inReset = false → t.ev.pend.getLsbD 178 = true) ∧
      (b = false → fld t.clk.stat 0 2 = (match r with | .internal => 0 | .recovered => 1 | .refin => 2) ∧ bit t.clk.stat 13 = true) ∧
      (b = true → fld t.clk.stat 0 2 = fld s.clk.stat 0 2 ∧ bit t.clk.stat 13 = bit s.clk.stat 13) ∧
      (s.clk.fsWaiting = false → t.clk.ramp = .none ∧ bit t.clk.stat 4 = false) ∧
      (s.clk.fsWaiting = true → t.clk.ramp = .fs false ∧ bit t.clk.stat 4 = true ∧ t.clk.fsWaiting = false ∧
        t.clk.rampAt = max s.time.mono (s.clk.rampAt + 6 * us)))

/-- R195 to R202, R204. -/
def Obligations.LoopLocksAreLostAndRegained : Prop :=
  ∀ s : State, s.boot.inReset = false →
    (bit s.clk.stat 5 = true → exec .samplingLockRegained s = .next s ∧
      Completes .samplingLockLost s fun t => SameWork { s with clk := t.clk, ports := t.ports } t ∧
      t.clk = { s.clk with stat := setBit (clrBit s.clk.stat 5) 10 } ∧ t.ev.pend.getLsbD 181 = true ∧
      ∀ p : PortIx, t.ports[p] = { s.ports[p] with lockResume := s.ports[p].frameStart.isSome, spans := t.ports[p].spans } ∧
        ({ tag := 3, pos := none, since := s.time.mono, till := none } : TagSpan) ∈ t.ports[p].spans) ∧
    (bit s.clk.stat 5 = false → exec .samplingLockLost s = .next s ∧
      Completes .samplingLockRegained s fun t => ClkOnly s t ∧ t.clk = { s.clk with stat := setBit s.clk.stat 5 } ∧ t.ev.pend.getLsbD 181 = true) ∧
    (bit s.clk.stat 6 = true → exec .probeLockRegained s = .next s ∧
      Completes .probeLockLost s fun t => SameWork { s with clk := t.clk, ports := t.ports } t ∧
      t.clk = { s.clk with stat := setBit (clrBit s.clk.stat 6) 11 } ∧ t.ev.pend.getLsbD 182 = true ∧
      ∀ p : PortIx, t.ports[p] = { s.ports[p] with
        gateOpen := false, probeOn := false, frozen := s.ports[p].frameStart.isSome, pings := t.ports[p].pings }) ∧
    (bit s.clk.stat 6 = false → exec .probeLockLost s = .next s ∧
      Completes .probeLockRegained s fun t => bit t.clk.stat 6 = true ∧ t.ev.pend.getLsbD 182 = true ∧
      t.time = (s.elapse (10 * us)).time ∧ t.lanes = s.lanes ∧
      ∀ p : PortIx, s.ports[p].frozen = true → t.ports[p].frozen = false ∧ t.ports[p].frameStart = some t.time.mono ∧
        fld t.ports[p].stat 16 16 = (fld s.ports[p].stat 16 16 + 1) % 65536) ∧
    ((∀ b, s.clk.ramp ≠ .fs b) → exec .fsRetuneTimeout s = .next s ∧ exec .samplingLoopRetuneLock s = .next s) ∧
    (∀ b, s.clk.ramp = .fs b →
      (Completes .fsRetuneTimeout s fun t => t.clk.ramp = .none ∧ bit t.clk.stat 4 = false ∧ bit t.clk.stat 5 = false ∧ bit t.clk.stat 10 = true ∧
        t.time = (s.until (s.clk.rampAt + 23 * us)).time ∧ t.ev.pend.getLsbD 181 = true ∧
        ∀ p : PortIx, t.ports[p].lockResume = s.ports[p].frameStart.isSome) ∧
      (s.clk.rampAt + 23 * us < s.time.mono → exec .samplingLoopRetuneLock s = exec .fsRetuneTimeout s) ∧
      (∀ u : State, s.time.mono ≤ s.clk.rampAt + 23 * us → u = (s.until (s.clk.rampAt + 3 * us)).elapse (2 * us) →
        Completes .samplingLoopRetuneLock s fun t => t = u.modClk (fun _ => t.clk) ∧
          (s.clk.fsWaiting = false → t.clk = { s.clk with ramp := .none, stat := clrBit s.clk.stat 4, spans := t.clk.spans } ∧
            ∀ x ∈ t.clk.spans, x.tag = 3 → x.till ≠ none) ∧
          (s.clk.fsWaiting = true → t.clk.ramp = .fs false ∧ t.clk.rampAt = u.time.mono ∧ t.clk.fsWaiting = false ∧ bit t.clk.stat 4 = true))) ∧
    (∀ l : Loop, (bit s.clk.stat (lockBit l) = false → exec (.otherLoopLockLost l) s = .next s) ∧
      (bit s.clk.stat (lockBit l) = true → exec (.otherLoopLockRegained l) s = .next s)) ∧
    (bit s.clk.stat 7 = true → exec .memoryLockTimeout s = .next s ∧ Completes (.otherLoopLockLost .memory) s fun t => ClkOnly s t ∧
      t.clk = { s.clk with stat := setBit (clrBit s.clk.stat 7) 12, memLostAt := s.time.mono } ∧ t.ev.pend.getLsbD 183 = true) ∧
    (bit s.clk.stat 8 = true → Completes (.otherLoopLockLost .ethernet) s fun t => bit t.clk.stat 8 = false ∧ bit t.clk.stat 12 = true ∧
      t.ev.pend.getLsbD 183 = true ∧ t.links.tportUp = false ∧ bit t.clk.stat 2 = false ∧
      bit t.links.eth[(0 : Fin 2)].stat 0 = false ∧ bit t.links.eth[(1 : Fin 2)].stat 0 = false ∧ t.settings = s.settings ∧ t.shut = s.shut) ∧
    (bit s.clk.stat 9 = true → Completes (.otherLoopLockLost .auxiliary) s fun t => bit t.clk.stat 9 = false ∧ bit t.clk.stat 12 = true ∧
      t.ev.pend.getLsbD 183 = true ∧ AllShut t ∧ t.sdc.causeAux = true ∧ (s.axc1.running.isSome = true → t.axc1.invalid = true)) ∧
    (∀ l : Loop, bit s.clk.stat (lockBit l) = false →
      Completes (.otherLoopLockRegained l) s fun t => SameWork { s with clk := t.clk, sdc := t.sdc, ladle := t.ladle } t ∧
        t.clk = { s.clk with stat := setBit s.clk.stat (lockBit l) } ∧ t.ev.pend.getLsbD 183 = true ∧
        (l = .auxiliary → t.sdc.causeAux = false) ∧ (l ≠ .auxiliary → t.sdc = s.sdc) ∧ (l ≠ .memory → t.ladle = s.ladle) ∧
        (l = .memory → t.ladle = { s.ladle with memFault := false } ∧ CrossId.memory ∉ t.links.resetFlags)) ∧
    (bit s.clk.stat 7 = false → Completes .memoryLockTimeout s fun t =>
      SameWork ((s.until (s.clk.memLostAt + ms)).modLadle fun l => { l with memFault := true }) t ∧ t.ev.pend.getLsbD 183 = true)

/-- R220 to R227, R235, R239. -/
def Obligations.TimescaleAndConvertersChange : Prop :=
  ∀ s : State, s.boot.inReset = false →
    (exec (.ref10StateChange (.windows [])) s = .next s ∧
      (∀ (hz : Nat) (l : List Nat), Completes (.ref10StateChange (.windows [hz])) s fun t => exec (.ref10StateChange (.windows (hz :: l))) s =
        exec (.ref10StateChange (.windows l)) t) ∧
      (∀ hz : Nat, goodWindow s hz = true → Completes (.ref10StateChange (.windows [hz])) s fun t => t.time = (s.elapse ms).time ∧
        t.settings = s.settings ∧ t.tiu.refRun = s.tiu.refRun + 1 ∧
        bit t.tiu.stat 2 = (bit s.tiu.stat 2 || decide (9 ≤ s.tiu.refRun)) ∧
        (bit s.tiu.stat 2 = false → 9 ≤ s.tiu.refRun → t.ev.pend.getLsbD 186 = true)) ∧
      (∀ hz : Nat, goodWindow s hz = false → Completes (.ref10StateChange (.windows [hz])) s fun t => t.time = (s.elapse ms).time ∧
        t.settings = s.settings ∧ t.tiu.refRun = 0 ∧ bit t.tiu.stat 2 = false ∧
        (bit s.tiu.stat 2 = true → bit t.tiu.stat 5 = true ∧ t.ev.pend.getLsbD 186 = true)) ∧
      (∀ len, len < 200 * ns → exec (.ref10StateChange (.silence len)) s = .next (s.elapse len)) ∧
      (∀ len, 200 * ns ≤ len → Completes (.ref10StateChange (.silence len)) s fun t =>
        t.time = ((s.elapse (200 * ns)).elapse (len - 200 * ns)).time ∧ t.settings = s.settings ∧ t.tiu.refRun = 0 ∧ bit t.tiu.stat 2 = false ∧
        (bit s.tiu.stat 2 = true → bit t.tiu.stat 5 = true ∧ t.ev.pend.getLsbD 186 = true))) ∧
    (bit s.tiu.stat 3 = false →
      (bit s.tiu.ctl 0 = true → bit s.tiu.stat 2 = true → 3 ≤ s.tiu.ppsRun → Completes .ppsStateChange s fun t =>
        bit t.tiu.stat 3 = true ∧ t.tiu.secondEdge = s.tiu.ppsLast ∧ t.ev.pend.getLsbD 187 = true ∧ t.settings = s.settings ∧ t.time = s.time) ∧
      (bit s.tiu.ctl 0 = false ∨ bit s.tiu.stat 2 = false ∨ s.tiu.ppsRun < 3 → exec .ppsStateChange s = .next s)) ∧
    (∀ u : State, bit s.tiu.stat 3 = true → (s.tiu.ppsRun ≤ 1 → u = s) → (2 ≤ s.tiu.ppsRun → u = s.until (s.tiu.ppsAt + 1100 * ms)) →
      Completes .ppsStateChange s fun t => bit t.tiu.stat 3 = false ∧ bit t.tiu.stat 6 = true ∧ t.tiu.ppsRun ≤ 1 ∧
        t.ev.pend.getLsbD 187 = true ∧ t.settings = s.settings ∧ t.time = u.time) ∧
    (∀ w, w = (if bit s.tiu.ctl 0 = false ∨ bit s.tiu.stat 2 = false then 0
        else if bit s.tiu.stat 3 then (if fld s.tiu.stat 0 2 = 1 ∨ s.tiu.ppsNear = true then 1 else 0)
        else if fld s.tiu.stat 0 2 ≠ 0 then 2 else 0) →
      (w = fld s.tiu.stat 0 2 ∨ (s.tiu.gateOpen = true ∧ bit s.tiu.stat 4 = false) → exec .timescaleChange s = .next s) ∧
      (∀ u : State, w ≠ fld s.tiu.stat 0 2 → (s.tiu.gateOpen = false → u = s) →
        (s.tiu.gateOpen = true → bit s.tiu.stat 4 = true ∧ u = s.until (s.tiu.holdSince + sec)) →
        Completes .timescaleChange s fun t => fld t.tiu.stat 0 2 = w ∧ bit t.tiu.stat 7 = true ∧ bit t.tiu.stat 4 = false ∧
          t.ev.pend.getLsbD 188 = true ∧ t.time = u.time ∧ t.settings = s.settings ∧ t.tiu.conv = s.tiu.conv ∧ t.tiu.queue = s.tiu.queue)) ∧
    (fld s.tiu.ctl 4 12 = 0 → ∀ cal sh again, exec (.converterRotation cal sh again) s = .next s) ∧
    (∀ (i : Fin 3) (per due : Time) (cal again : VernierCal) (sh : List ShadowEdge), per = fld s.tiu.ctl 4 12 * 10 * sec → per ≠ 0 →
      due = s.tiu.lastRotation + max 1 ((s.time.mono - s.tiu.lastRotation) / per) * per → fld s.tiu.stat 12 2 = i.val →
      s.tiu.conv[i].returning = false →
      (bit s.clk.ckg0 i.val = false → Completes (.converterRotation cal sh again) s fun t => bit t.tiu.stat 17 = true ∧
        t.time.mono = max s.time.mono due ∧ t.tiu.conv = s.tiu.conv ∧ t.tiu.lastRotation = due) ∧
      (bit s.clk.ckg0 i.val = true → vernierOk cal = false → Completes (.converterRotation cal sh again) s fun t =>
        bit t.tiu.stat (14 + i.val) = true ∧ fld t.tiu.stat 12 2 ≠ i.val ∧ t.ev.pend.getLsbD 190 = true ∧ t.tiu.conv[i].calibrated = false ∧
        t.time.mono = max s.time.mono due + 20 * ms) ∧
      (∀ (lo out : Nat), bit s.clk.ckg0 i.val = true → vernierOk cal = true → lo = (if s.tiu.nextUser then 10 else 8) →
        out = fld s.tiu.stat lo 2 → out ≠ i.val →
        (shadowAgrees (s.tiu.conv[i].calibrate cal) (s.tiu.convN out) sh = false → Completes (.converterRotation cal sh again) s fun t =>
          t.tiu.conv[i].failures = s.tiu.conv[i].failures + 1 ∧ (1 ≤ s.tiu.conv[i].failures → bit t.tiu.stat (14 + i.val) = true) ∧
          (s.tiu.conv[i].failures = 0 → fld t.tiu.stat 8 6 = fld s.tiu.stat 8 6) ∧ t.time.mono = max s.time.mono due + 21 * ms) ∧
        (shadowAgrees (s.tiu.conv[i].calibrate cal) (s.tiu.convN out) sh = true → Completes (.converterRotation cal sh again) s fun t =>
          t.ev.pend.getLsbD 189 = true ∧ t.tiu.nextUser = (!s.tiu.nextUser) ∧ t.tiu.conv[i].calibrated = true ∧ t.tiu.lastRotation = due ∧
          t.tiu.rotatedAt = max s.time.mono due + 21 * ms ∧ bit t.tiu.stat 18 = false ∧
          (out = 3 → fld t.tiu.stat lo 2 = i.val ∧ fld t.tiu.stat 12 2 = 3 ∧ t.time.mono = max s.time.mono due + 21 * ms) ∧
          (∀ j : Fin 3, out = j.val → s.tiu.conv[j].returning = false → t.time.mono = max s.time.mono due + 121 * ms ∧
            (vernierOk again = true → fld t.tiu.stat lo 2 = i.val ∧ fld t.tiu.stat 12 2 = j.val ∧
              fld t.tiu.stat (18 - lo) 2 = fld s.tiu.stat (18 - lo) 2 ∧ t.tiu.conv[j].calibrated = true) ∧
            (vernierOk again = false → bit t.tiu.stat (14 + j.val) = true ∧ fld t.tiu.stat 12 2 = 3 ∧ t.ev.pend.getLsbD 190 = true))))) ∧
    (∀ p : PortIx, (s.settings.port p.val 0x1507 = 0 ∨ s.settings.mode p.val 2 = false → exec (.anchorPeriodExpiry p) s = .next s) ∧
      (∀ u : State, s.settings.port p.val 0x1507 ≠ 0 → s.settings.mode p.val 2 = true →
        u = s.until (s.ports[p].delay.anchorAt + s.settings.port p.val 0x1507 * sec) →
        (s.settings.port p.val 0x1501 ≠ 1 → Completes (.anchorPeriodExpiry p) s fun t =>
          t = u.modPort p fun q => { q with delay := { q.delay with anchorAt := u.time.mono } }) ∧
        (s.settings.port p.val 0x1501 = 1 → Completes (.anchorPeriodExpiry p) s fun t => t.time = u.time ∧
          t.ports[p].delay.anchorAt = u.time.mono ∧
          (fld s.tiu.stat 10 2 ≠ 3 → ∃ m : MeasReq, m.anchorPort = some p.val ∧ (t.tiu.run.map (·.req) = some m ∨ m ∈ t.tiu.queue)) ∧
          (fld s.tiu.stat 10 2 = 3 → t.tiu.queue = [] ∧ t.ev.pend.getLsbD 191 = true))))

/-- R219, R222, R226, R228 to R234. -/
def Obligations.MeasurementsRunTheirCourse : Prop :=
  (∀ (q : MeasRun) (x : Int),
    (∀ a, (q.starts.filter fun y => decide (y.1 ≤ x + 1048)).getLast? = some (a, false) → x ≤ a + q.req.par 11 0 * ns →
      (q.pair x).results = q.results ++ [(q.results.length, x - a - q.req.par 14 0)] ∧ (q.pair x).orphan = q.orphan) ∧
    (∀ a, (q.starts.filter fun y => decide (y.1 ≤ x + 1048)).getLast? = some (a, false) → a + q.req.par 11 0 * ns < x →
      q.pair x = { q with orphan := q.orphan + 1 }) ∧
    ((∀ a, (q.starts.filter fun y => decide (y.1 ≤ x + 1048)).getLast? ≠ some (a, false)) → q.pair x = { q with orphan := q.orphan + 1 })) ∧
  (∀ (q : MeasRun) (stopCh : Bool) (raw x : Int) (n : Nat), n = (if stopCh then q.edgesB else q.edgesA) + 1 → q.done = false →
    (n % max 1 (q.req.par 4 (b01 stopCh)).toNat ≠ 0 →
      q.offer stopCh raw x = (if stopCh then { q with edgesB := n } else { q with edgesA := n })) ∧
    (q.req.mode = 2 → n / max 1 (q.req.par 4 (b01 stopCh)).toNat % max 1 (q.req.par 12 0).toNat ≠ 0 →
      q.offer stopCh raw x = (if stopCh then { q with edgesB := n } else { q with edgesA := n })) ∧
    (∀ (r : MeasRun) (last : Option Int), n % max 1 (q.req.par 4 (b01 stopCh)).toNat = 0 →
      (q.req.mode = 2 → n / max 1 (q.req.par 4 (b01 stopCh)).toNat % max 1 (q.req.par 12 0).toNat = 0) →
      r = (if stopCh then { q with edgesB := n } else { q with edgesA := n } : MeasRun).settle (some x) →
      last = (if stopCh then q.lastB else q.lastA) →
      ((∃ l, last = some l ∧ raw < l + 8 * ns) → (q.offer stopCh raw x).dead = r.dead + 1 ∧ (q.offer stopCh raw x).results = r.results ∧
        (q.offer stopCh raw x).starts = r.starts ∧ (q.offer stopCh raw x).stops = r.stops) ∧
      ((∀ l, last = some l → l + 8 * ns ≤ raw) → (q.offer stopCh raw x).dead = r.dead ∧
        (stopCh = true → (q.offer stopCh raw x).stops = r.stops ++ [x] ∧ (q.offer stopCh raw x).results = r.results) ∧
        (stopCh = false → q.req.mode = 1 → (q.offer stopCh raw x).starts = r.starts ++ [(x, false)] ∧
          (q.offer stopCh raw x).nStarts = r.nStarts + 1 ∧ (q.offer stopCh raw x).results = r.results) ∧
        (stopCh = false → q.req.mode ≠ 1 → (q.offer stopCh raw x).results =
          r.results ++ [(n / max 1 (q.req.par 4 (b01 stopCh)).toNat, x)])) ∧
      ((q.offer stopCh raw x).done = true ↔ q.req.nMax ≤ (q.offer stopCh raw x).results.length))) ∧
  (∀ s : State, s.tiu.run = none → (∀ e, exec (.measArmEdge e) s = .next s) ∧ (∀ d, exec (.measEdge d) s = .next s) ∧
    exec .measWindowOpen s = .next s ∧ exec .armTimeout s = .next s ∧ exec .measGateClose s = .next s) ∧
  ∀ (s : State) (r : MeasRun), s.tiu.run = some r → s.boot.inReset = false →
    (∀ e : Time, (r.isOpen = true ∨ r.done = true ∨ r.req.window = true → exec (.measArmEdge e) s = .next s) ∧
      (∀ u : State, r.isOpen = false → r.done = false → r.req.window = false → u = s.until e → Completes (.measArmEdge e) s fun t => ∃ q,
        t = u.modTiu (fun x => { x with run := some q }) ∧
        GateOpens u r q (if r.req.par 6 0 = 1 then some ((r.req.par 7 0).toNat * ns) else none))) ∧
    (r.isOpen = true ∨ r.done = true ∨ r.opensAt = none → exec .measWindowOpen s = .next s) ∧
    (∀ (t0 : Time) (u : State), r.isOpen = false → r.done = false → r.opensAt = some t0 → u = s.elapse (t0 - s.unitNow) →
      Completes .measWindowOpen s fun t => ∃ q, t = u.modTiu (fun x => { x with run := some q }) ∧
        GateOpens u r q (some ((r.req.par 7 1).toNat * ns))) ∧
    (r.isOpen = true ∨ r.done = true ∨ r.req.window = true ∨ r.req.par 9 0 = 0 → exec .armTimeout s = .next s) ∧
    (∀ u, r.isOpen = false → r.done = false → r.req.window = false → r.req.par 9 0 ≠ 0 → u = s.until (r.armedAt + (r.req.par 9 0).toNat * ms) →
      (r.req.par 10 0 = 1 → Completes .armTimeout s fun t => ∃ q, t = u.modTiu (fun x => { x with run := some q }) ∧ q.flags.getLsbD 0 = true ∧
        GateOpens u r q (some ((r.req.par 7 1).toNat * ns))) ∧
      (r.req.par 10 0 ≠ 1 → Completes .armTimeout s (MeasEnds u))) ∧
    (∀ d : EdgeIn, (r.isOpen = false ∨ r.done = true → exec (.measEdge d) s = .next s) ∧
      (∀ (u : State) (xa xb : Int), r.isOpen = true → r.done = false → u = (s.until (d.a.coarse * prb)).takeFit d.ref →
        xa = (s.tiu.convN s.tiu.user).a.raw d.src d.a → xb = (s.tiu.convN s.tiu.user).b.raw d.src d.b →
        (r.takes false d = false ∨ r.within xa = false → r.takes true d = false ∨ r.within xb = false → exec (.measEdge d) s = .next u) ∧
        (r.takes false d = true → r.within xa = true → cellFault d.a = false → r.takes true d = false ∨ r.within xb = false →
          exec (.measEdge d) s = .next (u.modTiu fun x => { x with run := some (r.offer false xa (u.unitTime xa)) })) ∧
        (r.takes false d = false ∨ r.within xa = false → r.takes true d = true → r.within xb = true → cellFault d.b = false →
          exec (.measEdge d) s = .next (u.modTiu fun x => { x with run := some (r.offer true xb (u.unitTime xb)) })) ∧
        (r.takes false d = true → r.within xa = true → cellFault d.a = false → r.takes true d = true → r.within xb = true → cellFault d.b = false →
          (r.offer false xa (u.unitTime xa)).done = false → exec (.measEdge d) s =
            .next (u.modTiu fun x => { x with run := some ((r.offer false xa (u.unitTime xa)).offer true xb (u.unitTime xb)) })) ∧
        (∀ i : Fin 3, fld s.tiu.stat 10 2 = i.val → r.takes false d = true → r.within xa = true → cellFault d.a = true →
          r.takes true d = false → Completes (.measEdge d) s fun t => bit t.tiu.stat (14 + i.val) = true ∧ t.ev.pend.getLsbD 190 = true ∧
            t.time = u.time))) ∧
    (r.isOpen = false → r.done = false → exec .measGateClose s = .next s) ∧
    (∀ (u : State) (wait : Time), wait = (if fld s.tiu.stat 0 2 = 0 then 0 else 3200 * ns) → r.isOpen = true ∨ r.done = true →
      (r.done = true → u = s) → (r.done = false → ∀ l, r.gateLen = some l → u = s.until (r.gateAt + l)) →
      (r.done = false → r.gateLen = none → u = s) → Completes .measGateClose s (MeasEnds (u.elapse wait)))

/-- R478 to R485, R490, R491, R517, R521. -/
def Obligations.RegisterWindowTakesWrites : Prop :=
  ∀ (s : State) (ag : Agent) (off : BitVec 24) (data : BitVec 64),
    (s.windowOpen = false ∨ (ag = .pcie ∧ s.links.inReset .pcie = true) → ∀ en, exec (.registerWrite ag off en data) s = .next s) ∧
    (s.windowOpen = true → (ag = .pcie → s.links.inReset .pcie = false) →
      (∀ (en : BitVec 8) (i : Nat), (en, i) ∈ [((0x00 : BitVec 8), 2), (0x01, 1), (0x0F, 0)] → (en = 0x0F → off.toNat % 4 ≠ 0) →
        Completes (.registerWrite ag off en data) s fun t => t = s.modGlb (fun g => { g with accErr := t.glb.accErr, accAddr := t.glb.accAddr }) ∧
          bit t.glb.accErr i = true ∧ bit t.glb.accErr 3 = (ag == .spi) ∧ t.glb.accAddr.toNat = off.toNat ∧
          fld t.glb.accErr 16 16 = min 65535 (fld s.glb.accErr 16 16 + 1) ∧ ∀ j < 3, j ≠ i → bit t.glb.accErr j = bit s.glb.accErr j) ∧
      exec (.registerWrite ag 0x28 0x0F data) s = .next (s.modGlb fun g => { g with scratch := BitVec.ofNat 32 data.toNat }) ∧
      exec (.registerWrite ag 0x00 0x0F data) s = .next s ∧ s.readReg ag 0 = 0x96241E4C ∧
      (data.getLsbD 0 = true → exec (.registerWrite ag 0x2C 0x0F data) s = exec .timeCapture s) ∧
      (off.toNat % 8 = 0 → Completes (.registerWrite ag off 0x0F data) s fun u =>
        exec (.registerWrite ag off 0xFF data) s = exec (.registerWrite ag (off + 4) 0x0F (data >>> 32)) u)) ∧
    (s.boot.inReset = true → ∀ f, exec (.spiFrame f) s = .next s) ∧
    (s.boot.inReset = false →
      (∀ n, off.toNat % 4 = 0 → exec (.spiFrame (.read off n)) s =
        .next (s.emit (.spiData ((List.range n).map fun k => s.readReg .spi ((off.toNat + 4 * k) % 2 ^ 24))))) ∧
      (∀ n, off.toNat % 4 ≠ 0 → Completes (.spiFrame (.read off n)) s fun t =>
        t = (s.modGlb (fun g => { g with accErr := t.glb.accErr, accAddr := t.glb.accAddr })).emit (.spiData (List.replicate n 0)) ∧
        (s.windowOpen = true → n ≠ 0 → bit t.glb.accErr 0 = true ∧ fld t.glb.accErr 16 16 = min 65535 (fld s.glb.accErr 16 16 + n)) ∧
        (s.windowOpen = false → t.glb = s.glb)) ∧
      exec (.spiFrame (.write off [])) s = .next s ∧
      (∀ (w : Word) (ws : List Word), Completes (.registerWrite .spi off 0x0F (w.setWidth 64)) s fun u =>
        exec (.spiFrame (.write off (w :: ws))) s = exec (.spiFrame (.write (off + 4) ws)) u) ∧
      Completes (.spiFrame .malformed) s fun t => SameWork s t ∧ t.ev.pend.getLsbD 246 = true ∧
        (s.ev.pend.getLsbD 246 = false → t.ev.tEvent[(246 : EvIx)] = s.time.dev))

/-- R440, R441, R503, R517, R518. -/
def Obligations.CommandsArriveOnEveryTransport : Prop :=
  ∀ s : State, s.boot.inReset = false →
    (∀ (n : Fin 4) (v : Word) (bytes held : List Byte),
      (bit s.links.cr[n].ctl 0 = false → exec (.crDoorbell n v bytes) s = .next s) ∧
      (bit s.links.cr[n].ctl 0 = true → s.links.cr[n].busy.getLsbD (fld v 0 6) = true →
        exec (.crDoorbell n v bytes) s = .next (s.modCr n fun r => { r with stat := setBit r.stat 0 })) ∧
      (bit s.links.cr[n].ctl 0 = true → s.links.cr[n].busy.getLsbD (fld v 0 6) = false →
        held = bytes ++ ((assoc s.links.cr[n].req (fld v 0 6)).getD []).drop bytes.length →
        ∀ c, request c = some (packetOf (.ring n) held false) → Completes (.crDoorbell n v bytes) s fun t => ∃ u : State, u.links.cr[n].busy.getLsbD (fld v 0 6) = true ∧
          u = s.modCr n (fun _ => u.links.cr[n]) ∧ u.links.cr[n].ctl = s.links.cr[n].ctl ∧ u.links.cr[n].rtail = s.links.cr[n].rtail ∧
          exec c u = .next t)) ∧
    (∀ (bs : List Byte) (c : Instr), request c = some (packetOf .spi bs true) → Completes (.spiFrame (.packet bs)) s fun t => exec c s = .next t) ∧
    (∀ (n : Fin 4) (v : Word), NoneWaits s →
      (s.links.cr[n].waiting = [] → exec (.crRtailWrite n v) s =
        .next (s.modCr n fun r => { r with rtail := (r.rtail &&& 0xFFFFF800) ||| (v &&& 0x7FF) })) ∧
      (∀ b bs, s.links.cr[n].waiting = b :: bs → ({ s.links.cr[n] with rtail := (s.links.cr[n].rtail &&& 0xFFFFF800) ||| (v &&& 0x7FF) } : CmdRing).full = false →
        Completes (.crRtailWrite n v) s fun t => Output.packet (.ring n) b ∈ t.out ∧ t.settings = s.settings ∧ t.time = s.time)) ∧
    (s.links.spiWaiting = [] → exec .spiReplyFetch s = .next (s.emit (.spiPacket (List.replicate 16 0)))) ∧
    (∀ b bs, s.links.spiWaiting = b :: bs → exec .spiReplyFetch s = .next ((s.modLinks fun l => { l with spiWaiting := bs }).emit (.spiPacket b))) ∧
    (∀ x : I2cXfer,
      (bit s.clk.ckg0 8 = false → exec (.i2cTransaction x) s = .next s) ∧
      (bit s.clk.ckg0 8 = true → x.failed = false → x.wr.length ≤ 32 → x.rd.length ≤ 32 →
        exec (.i2cTransaction x) s = .next (s.emit (.i2c x.addr x.rd))) ∧
      (bit s.clk.ckg0 8 = true → x.failed = true ∨ 32 < x.wr.length ∨ 32 < x.rd.length → Completes (.i2cTransaction x) s fun t =>
        SameWork s t ∧ t.links.i2cError = true ∧ t.ev.pend.getLsbD 247 = true))

/-- R502 to R506, R521, R525, R528. -/
def Obligations.PcieLinkAndStreamRings : Prop :=
  ∀ s : State, s.boot.inReset = false →
    (∀ l : PcieLink,
      (l.width = s.links.pcieWidth → l.rate = s.links.pcieRate → exec (.pcieLinkChange l) s = .next s) ∧
      (s.links.pcieWidth = 0 → l.width = 0 → exec (.pcieLinkChange l) s = .next (s.modLinks fun x => { x with pcieRate := l.rate })) ∧
      (s.links.pcieWidth = 0 → l.width ≠ 0 → Completes (.pcieLinkChange l) s fun t => SameWork s t ∧ t.links.pcieWidth = l.width ∧
        t.links.pcieRate = l.rate ∧ t.ev.pend.getLsbD 232 = true ∧ t.links.cr = s.links.cr ∧ CrossId.pcie ∉ t.links.resetFlags) ∧
      (s.links.pcieWidth ≠ 0 → l.width = 0 → Completes (.pcieLinkChange l) s fun t => SameWork s t ∧ t.links.pcieWidth = 0 ∧
        t.ev.pend.getLsbD 232 = true ∧ t.links.msixEnable = false ∧ t.links.sr = State.reset.links.sr ∧ CrossId.pcie ∈ t.links.resetFlags ∧
        ∀ (i : SessIx) (r : Fin 4), s.sessions[i].isOpen = true → s.sessions[i].transport = .ring r → t.sessions[i].isOpen = false) ∧
      (s.links.pcieWidth ≠ 0 → l.width ≠ 0 → (l.width ≠ s.links.pcieWidth ∨ l.rate ≠ s.links.pcieRate) →
        Completes (.pcieLinkChange l) s fun t => t.links.pcieWidth = l.width ∧ t.links.pcieRate = l.rate ∧ t.ev.pend.getLsbD 233 = true ∧
          t.settings = s.settings ∧ ((l.width < s.links.pcieWidth ∨ l.rate < s.links.pcieRate) → t.links.pcieDegraded = true) ∧
          (s.ladle.place.linkUsed .pcie ≤ (s.modLinks fun x => { x with pcieWidth := l.width, pcieRate := l.rate }).linkCap .pcie → SameWork s t))) ∧
    (Completes .aerErrorLogged s fun t => SameWork s t ∧ t.ev.pend.getLsbD 234 = true) ∧
    (∀ (n : Fin 64) (v : Word) (ds : List SrDesc) (k : Nat),
      k = (fld v 0 16 + s.links.sr[n].entries - fld s.links.sr[n].tail 0 16 % s.links.sr[n].entries) % s.links.sr[n].entries →
      Completes (.srTailWrite n v ds) s fun t => SameWork s t ∧ fld t.links.sr[n].tail 0 16 = fld v 0 16 ∧
        t.links.sr[n].descs = s.links.sr[n].descs ++ (List.range k).map (fun i => ds.getD i { addr := 0, len := 0, own := false }) ∧
        t.links.sr[n].head = s.links.sr[n].head ∧ (∀ m, m ≠ n → t.links.sr[m] = s.links.sr[m]) ∧
        (bit s.links.sr[n].ctl 0 = true → s.links.sr[n].starved = none → t.links.sr[n].ready = false →
          t.links.sr[n].starved = some s.time.mono ∧ t.ev.pend.getLsbD 239 = true) ∧
        (t.links.sr[n].ready = true → t.links.sr[n].starved = none ∧ t.ev = s.ev)) ∧
    (∀ (n : Fin 64), bit s.links.sr[n].ctl 0 = false ∨ s.links.sr[n].ready = false ∨ s.links.pcieWidth = 0 ∨ s.nextForRing n.val = none →
      exec (.streamBufferDone n) s = .next s) ∧
    (∀ (n : Fin 64) d ds it, bit s.links.sr[n].ctl 0 = true → s.links.sr[n].descs = d :: ds → d.own = true → s.links.pcieWidth ≠ 0 →
      s.nextForRing n.val = some it → Completes (.streamBufferDone n) s fun t => t.links.sr[n].descs = ds ∧
        fld t.links.sr[n].head 0 16 = (fld s.links.sr[n].head 0 16 + 1) % s.links.sr[n].entries % 65536 ∧
        (∃ used cut, Output.descriptor n.val (fld s.links.sr[n].head 0 16) used cut ∈ t.out ∧ used ≤ d.len.toNat) ∧ t.settings = s.settings ∧
        t.ports = s.ports ∧ s.time.mono ≤ t.time.mono) ∧
    (∀ n : Fin 64, (s.links.sr[n].modHeld = false → exec (.streamRingModerationExpiry n) s = .next s) ∧
      (s.links.sr[n].modHeld = true → Completes (.streamRingModerationExpiry n) s fun t => t.links.sr[n].modHeld = false ∧
        t.time.mono = max s.time.mono (s.links.sr[n].lastMsix + fld s.links.sr[n].ctl 16 8 * 10 * us) ∧
        t.links.sr[n].lastMsix = t.time.mono ∧ t.settings = s.settings ∧ t.ev = s.ev))

/-- R377, R507 to R512. -/
def Obligations.EthernetPortsFailAndReturn : Prop :=
  ∀ (s : State) (n : Fin 2), s.boot.inReset = false →
    (∀ up, bit s.links.eth[n].stat 0 = up → exec (.ethPortUpChange n up) s = .next s) ∧
    (∀ up, bit s.links.eth[n].stat 0 = (!up) → Completes (.ethPortUpChange n up) s fun t => bit t.links.eth[n].stat 0 = up ∧
      t.ev.pend.getLsbD (235 + n.val) = true ∧ t.links.eth[1 - n] = s.links.eth[1 - n] ∧ t.settings = s.settings ∧ t.time = s.time ∧
      t.engines = s.engines ∧ (up = false → t.links.eth[n].downSince = s.time.mono) ∧ (up = true → CrossId.eth n ∉ t.links.resetFlags)) ∧
    (∀ u : State, s.links.eth[n].inService = true →
      (bit s.links.eth[n].stat 0 = false ∧ u = s.until (s.links.eth[n].downSince + ms)) ∨
        (bit s.links.eth[n].stat 0 = true ∧ s.links.eth[n].resolvedNow = false ∧ u = s.until (s.links.eth[n].unresSince + sec)) →
      Completes (.ethPortFailed n) s fun t => bit t.links.eth[n].stat 1 = true ∧ t.ev.pend.getLsbD 237 = true ∧ t.settings = s.settings ∧
        t.time = u.time) ∧
    (s.links.eth[n].inService = false ∨ (bit s.links.eth[n].stat 0 = true ∧ s.links.eth[n].resolvedNow = true) →
      exec (.ethPortFailed n) s = .next s) ∧
    (s.links.eth[n].goodSince = none ∨ bit s.links.eth[n].stat 1 = false → exec (.ethPortReturn n) s = .next s) ∧
    (∀ t0, s.links.eth[n].goodSince = some t0 → bit s.links.eth[n].stat 1 = true → Completes (.ethPortReturn n) s fun t =>
      bit t.links.eth[n].stat 1 = false ∧ t.ev.pend.getLsbD 237 = true ∧ t.settings = s.settings ∧
      t.time.mono = max s.time.mono (t0 + 10 * sec)) ∧
    (bit s.links.eth[n].stat 0 = false ∨ bit s.links.eth[n].link 27 = false →
      (∀ q, exec (.pauseReceived n q) s = .next s) ∧ (∀ m, exec (.neighbourResolution n m) s = .next s) ∧
      exec (.udpDatagramDiscard n) s = .next s) ∧
    (∀ q : BitVec 16, bit s.links.eth[n].stat 0 = true → bit s.links.eth[n].link 27 = true →
      (q ≠ 0 → Completes (.pauseReceived n q) s fun t => t = s.modEth n (fun _ => t.links.eth[n]) ∧ bit t.links.eth[n].stat 2 = true ∧
        t.links.eth[n].pauseQuanta = q.toNat ∧ t.links.eth[n].pauseAt = s.time.mono ∧ t.links.eth[n].goodSince = none ∧
        t.links.eth[n].pausedSince = (if bit s.links.eth[n].stat 2 then s.links.eth[n].pausedSince else s.time.mono) ∧
        t.links.eth[n].link = s.links.eth[n].link) ∧
      (q = 0 → Completes (.pauseReceived n q) s fun t => bit t.links.eth[n].stat 2 = false ∧ t.settings = s.settings ∧ t.time = s.time)) ∧
    (bit s.links.eth[n].stat 2 = true → Completes (.pauseQuantaExpiry n) s fun t => bit t.links.eth[n].stat 2 = false ∧
      t.time.mono = max s.time.mono (s.links.eth[n].pauseAt + s.links.eth[n].pauseQuanta * 33554432 / 100) ∧ t.settings = s.settings) ∧
    (bit s.links.eth[n].stat 2 = false → exec (.pauseQuantaExpiry n) s = .next s ∧ exec (.pauseLimExceeded n) s = .next s) ∧
    (s.links.eth[n].pauseFail = true → exec (.pauseLimExceeded n) s = .next s) ∧
    (bit s.links.eth[n].stat 2 = true → s.links.eth[n].pauseFail = false → Completes (.pauseLimExceeded n) s fun t =>
      bit t.ladle.stat 6 = true ∧ t.ev.pend.getLsbD 238 = true ∧ bit t.links.eth[n].stat 1 = true ∧
      t.time.mono = max s.time.mono (s.links.eth[n].pausedSince + s.settings.dev 0x0211 * ms) ∧ t.settings = s.settings) ∧
    (∀ sender mac, bit s.links.eth[n].stat 0 = true → bit s.links.eth[n].link 27 = true →
      (Completes (.neighbourResolution n (.request (addr128 s.links.eth[n].ip) sender mac)) s fun t =>
        Output.neighbour n.val (addr128 s.links.eth[n].ip) ∈ t.out ∧ (sender, mac) ∈ t.links.eth[n].neighbours ∧ t.settings = s.settings) ∧
      (∀ target, target ≠ addr128 s.links.eth[n].ip → exec (.neighbourResolution n (.request target sender mac)) s = .next s) ∧
      (Completes (.neighbourResolution n (.reply sender mac)) s fun t => (sender, mac) ∈ t.links.eth[n].neighbours ∧
        t.links.eth[n].resolved = (if sender = s.links.eth[n].nextHop then some mac else s.links.eth[n].resolved) ∧
        t.settings = s.settings ∧ t.time = s.time)) ∧
    (∀ v6 src pay, exec (.icmpEcho n v6 src pay) s = .next (if bit s.links.eth[n].stat 0 && bit s.links.eth[n].link 27 &&
      (v6 == !(isV4 (addr128 s.links.eth[n].ip))) then s.emit (.echo n.val src pay) else s)) ∧
    (bit s.links.eth[n].stat 0 = true → bit s.links.eth[n].link 27 = true → Completes (.udpDatagramDiscard n) s fun t =>
      t = s.modEth n (fun e => { e with rxdrop := t.links.eth[n].rxdrop }) ∧
      t.links.eth[n].rxdrop.toNat = min 4294967295 (s.links.eth[n].rxdrop.toNat + 1))

/-- R221, R222, R513 to R516; the order of announce messages is log entry 148 (PRESUMED), the steering rate log entry 4's free value. -/
def Obligations.TimingPortDisciplinesTheClock : Prop :=
  ∀ s : State, s.boot.inReset = false →
    (∀ m : PtpMsg, s.settings.dev 0x1B01 ≠ 1 ∨ s.links.tportUp = false → exec (.ptpMessage m) s = .next s) ∧
    (∀ dom a, dom ≠ s.settings.dev 0x1B02 → exec (.ptpMessage (.announce dom a)) s = .next s) ∧
    (∀ (a : Announce) (heard : List Announce), s.settings.dev 0x1B01 = 1 → s.links.tportUp = true →
      heard = (s.time.masters.filter fun x => x.sender != a.sender) ++ [a] →
      Completes (.ptpMessage (.announce (s.settings.dev 0x1B02) a)) s fun t => SameWork { s with time := t.time } t ∧
        (∃ b ∈ heard, bestMaster heard = some b ∧
          t.time = { s.time with masters := heard, transmitter := some b.sender, receiving := true } ∧
          (s.time.transmitter ≠ some b.sender → t.ev.pend.getLsbD 197 = true)) ∧
        (s.time.receiving = false → t.ev.pend.getLsbD 194 = true)) ∧
    (∀ dom tx t1 t2 t3 t4, dom ≠ s.settings.dev 0x1B02 ∨ s.time.transmitter ≠ some tx →
      exec (.ptpMessage (.exchange dom tx t1 t2 t3 t4)) s = .next s) ∧
    (∀ (tx : BitVec 64) (t1 t2 t3 t4 o : Int), s.settings.dev 0x1B01 = 1 → s.links.tportUp = true → s.time.transmitter = some tx →
      o = Int.fdiv ((t2 - t1) - (t4 - t3)) 2 - s.settings.getI .device 0 0 0x1B05 0 0 →
      Completes (.ptpMessage (.exchange (s.settings.dev 0x1B02) tx t1 t2 t3 t4)) s fun t =>
        SameWork { s with time := t.time, free := t.free } t ∧ t.time.mono = s.time.mono ∧ t.time.devSet = true ∧ t.time.offset = o ∧
        (s.settings.dev 0x1B06 * 65536 < o.natAbs → t.time.dev = ((s.time.dev : Int) - o).toNat ∧ t.ev.pend.getLsbD 196 = true ∧
          t.time.rate = s.time.rate ∧ t.free = s.free) ∧
        (o.natAbs ≤ s.settings.dev 0x1B06 * 65536 → t.time.dev = s.time.dev ∧ t.time.rate.natAbs ≤ 500000000000 ∧ t.free = s.free + 1) ∧
        (100 * ns < o.natAbs → t.time.locked = false) ∧
        (∀ g, o.natAbs ≤ 100 * ns → s.time.goodSince = some g → g + 60 * sec ≤ s.time.mono → t.time.locked = true) ∧
        (t.time.locked ≠ s.time.locked → t.ev.pend.getLsbD 195 = true) ∧
        (s.time.locked = true → s.settings.dev 0x1B06 * 65536 < 2 * o.natAbs → t.ev.pend.getLsbD 199 = true)) ∧
    (∀ up, s.links.tportUp = up → exec (.timingPortLinkChange up) s = .next s) ∧
    (∀ up, s.links.tportUp = (!up) → Completes (.timingPortLinkChange up) s fun t =>
      SameWork { s with time := t.time, clk := t.clk } t ∧ t.links.tportUp = up ∧ t.ev.pend.getLsbD 193 = true ∧
      (up = true → t.time = s.time ∧ t.clk = { s.clk with recovSince := s.time.mono } ∧ CrossId.timing ∉ t.links.resetFlags) ∧
      (up = false → t.clk = s.clk ∧ (s.time.receiving = false → t.time = { s.time with masters := [] }) ∧
        (s.time.receiving = true → t.time = { s.time with receiving := false, transmitter := none, masters := [] } ∧
          t.ev.pend.getLsbD 194 = true))) ∧
    (s.settings.dev 0x1B01 = 1 → s.time.receiving = true → Completes .announceSyncTimeout s fun t => SameWork { s with time := t.time } t ∧
      t.time = { s.time with receiving := false, transmitter := none, masters := [] } ∧ t.ev.pend.getLsbD 198 = true ∧
      t.ev.pend.getLsbD 194 = true) ∧
    (s.settings.dev 0x1B01 ≠ 1 ∨ s.time.receiving = false → exec .announceSyncTimeout s = .next s) ∧
    (∀ (t0 : Time) (edge : Nat) (off : Int) (u : State) (d : Int) (here : Nat × Nat) (good onTime : Bool), u = s.until t0 →
      d = (if 2 * (u.time.dev % sec) < sec then ((u.time.dev % sec : Nat) : Int) else ((u.time.dev % sec : Nat) : Int) - (sec : Nat)) →
      here = (edge, (u.time.dev + sec / 2) / sec) → good = decide (off.natAbs ≤ 20 * ns) →
      onTime = decide (s.tiu.ppsLast.map (fun l => l.1 + 10000000) = some edge) →
      Completes (.ppsPulse t0 edge off) s fun t => t.settings = s.settings ∧ t.time.mono = u.time.mono ∧
        (bit s.tiu.stat 2 = false → t.tiu = { s.tiu with ppsRun := 0, ppsLast := none }) ∧
        (bit s.tiu.stat 2 = true → t.tiu.ppsNear = decide (d.natAbs ≤ 100 * ms) ∧ t.tiu.ppsAt = u.time.mono ∧
          t.tiu.ppsRun = (if !good then 0 else if onTime then s.tiu.ppsRun + 1 else 1) ∧ t.tiu.ppsLast = (if good then some here else none) ∧
          t.tiu.secondEdge = (if good && onTime && bit s.tiu.stat 3 then some here else s.tiu.secondEdge)) ∧
        (s.settings.dev 0x1B01 ≠ 2 → t.time = u.time) ∧
        (s.settings.dev 0x1B01 = 2 → t.time.offset = d ∧ t.time.devSet = true ∧
          (s.settings.dev 0x1B06 * 65536 < d.natAbs → t.time.dev = ((u.time.dev : Int) - d).toNat ∧ t.ev.pend.getLsbD 196 = true) ∧
          (d.natAbs ≤ s.settings.dev 0x1B06 * 65536 → t.time.dev = u.time.dev ∧ t.time.rate.natAbs ≤ 500000000000)))

/-- R246, R248, R523 to R530. -/
def Obligations.ResetsLeaveWhatTheTableSays : Prop :=
  ∀ s : State,
    (∀ c i, (c, i) ∈ [(Instr.rstCtlWarm, 2), (.supervisorWatchdog, 3)] → s.boot.inReset = false → Completes c s fun t => InReset true s t ∧
      t.boot.rstCause = setBit s.boot.rstCause i ∧ t.glb.hzCnt = s.glb.hzCnt ∧ t.hostArea = s.hostArea ∧ t.savedJobs = s.savedJobs ∧
      t.time.mono = s.time.mono) ∧
    (s.boot.inReset = true → exec .rstCtlWarm s = .next s ∧ exec .supervisorWatchdog s = .next s ∧ exec .bootStepTimeout s = .next s ∧
      exec .pcieFundamentalReset s = .next s ∧ ∀ i, exec (.islandReset i) s = .next s) ∧
    (bit s.glb.stat 5 = true ∨ bit s.boot.bootStat 0 = true → exec .bootStepTimeout s = .next s) ∧
    (s.boot.inReset = false → bit s.glb.stat 5 = false → bit s.boot.bootStat 0 = false → Completes .bootStepTimeout s fun t =>
      t.boot.inReset = true ∧ bit t.boot.rstCause 4 = true ∧ t.settings = State.reset.settings ∧ t.hostArea = s.hostArea ∧
      t.time.mono = s.time.mono + stepLimit (fld s.glb.stat 0 5) ∧
      (∀ r rs, s.boot.journal = r :: rs → t.boot.journal = { r with outcomes := r.outcomes.set (fld s.glb.stat 0 5) (6, 0, 0) } :: rs)) ∧
    (Completes .mainSupplyLoss s fun t => InReset false s t ∧ t.boot.railsOff = true ∧ t.glb.hzCnt = 0 ∧ t.hostArea = [] ∧ t.savedJobs = [] ∧
      t.boot.rstCause = 1) ∧
    (Completes .rindSupplyLoss s fun t => t = { s with rind := t.rind, boot := t.boot, links := t.links } ∧ t.rind.powered = false ∧
      t.rind.inhibit = true ∧ t.rind.tpg = false ∧ t.rind.slot = [] ∧ t.rind.reply = [] ∧ t.rind.sealSt = s.rind.sealSt ∧
      t.rind.audit = s.rind.audit ∧ t.rind.params = s.rind.params ∧ t.links = { s.links with rindPins := .functional } ∧
      t.boot = { s.boot with thermalB01 := 2 }) ∧
    (Completes .vbatPowerOn s fun t => t = { s with aon := t.aon, boot := t.boot } ∧ t.aon.rtc = 0 ∧ t.aon.sealCnt = 0 ∧ t.aon.tamp0 = false ∧
      t.aon.tamp1 = false ∧ t.aon.sealBrk = s.aon.sealBrk ∧ t.boot = { s.boot with wake0 := 0, wake1 := 0 }) ∧
    (s.boot.railsOff = true → Completes .vbatLoss s fun t => t = s.modAon (fun _ => t.aon) ∧ t.aon.rtc = 0 ∧ t.aon.sealCnt = 0 ∧
      t.aon.lost = true ∧ t.aon.tamp0 = false ∧ t.aon.tamp1 = false) ∧
    (s.boot.railsOff = false → exec .vbatLoss s = .next s) ∧
    (s.boot.inReset = false → Completes .pcieFundamentalReset s fun t => SameWork s t ∧ t.links.pcieWidth = 0 ∧
      t.links.cr = State.reset.links.cr ∧ t.links.sr = State.reset.links.sr ∧ t.links.msixTable = State.reset.links.msixTable ∧
      CrossId.pcie ∈ t.links.resetFlags ∧ (s.links.pcieWidth ≠ 0 → t.ev.pend.getLsbD 232 = true) ∧ (s.links.pcieWidth = 0 → t.ev = s.ev)) ∧
    (∀ n : Fin 2, s.boot.inReset = false → Completes (.islandReset (.eth n)) s fun t => bit t.links.eth[n].stat 0 = false ∧
      bit t.links.eth[n].stat 2 = false ∧ t.links.eth[n].resolved = none ∧ t.links.eth[n].neighbours = [] ∧
      t.links.eth[1 - n] = s.links.eth[1 - n] ∧ t.settings = s.settings ∧ CrossId.eth n ∈ t.links.resetFlags) ∧
    (s.boot.inReset = false → Completes (.islandReset .timing) s fun t => SameWork { s with time := t.time } t ∧ t.links.tportUp = false ∧
      t.time.receiving = (s.time.receiving && !s.links.tportUp) ∧ (s.links.tportUp = true → t.ev.pend.getLsbD 193 = true) ∧
      CrossId.timing ∈ t.links.resetFlags) ∧
    (s.boot.inReset = false → Completes (.islandReset .memory) s fun t => t = { s with links := t.links } ∧
      t.links = { s.links with resetFlags := t.links.resetFlags, owed := t.links.owed } ∧
      (CrossId.memory ∈ t.links.resetFlags ↔ bit s.clk.stat 7 = false))

/-- R248, R520, R523 to R535, R539, R548. -/
def Obligations.StartsBootTheBlock : Prop :=
  ∀ s : State,
    (∀ b : BootEnv, Completes (.mainPowerOnReset b) s fun t => t.boot.inReset = false ∧ t.boot.bootCnt = s.boot.bootCnt + 1 ∧
      bit t.boot.rstCause 0 = true ∧ t.boot.railsOff = false ∧ s.time.mono + 10 * ms ≤ t.time.mono ∧
      ((∀ r ∈ b.steps, r.timedOut = false) →
        (∀ r ∈ s.boot.journal.take 3, ∀ n, (r.outcomes.getD n (0, 0, 0)).1 ≠ 5 ∧ (r.outcomes.getD n (0, 0, 0)).1 ≠ 6) →
        (usedSlot b s.boot.journal .run s.boot.rollback ≠ none → b.stacksUp ≠ 0 →
          bit t.glb.stat 5 = true ∧ fld t.glb.stat 0 5 = 15 ∧ bit t.boot.bootStat 0 = false ∧
          ∃ rc rest, t.boot.journal = rc :: rest ∧ rc.result = 1 ∧ rc.bootCnt = s.boot.bootCnt + 1) ∧
        (usedSlot b s.boot.journal .run s.boot.rollback = none →
          bit t.glb.stat 5 = false ∧ fld t.glb.stat 0 5 = 2 ∧ bit t.boot.bootStat 0 = true))) ∧
    (∀ (w : WarmCause) (b : BootEnv), s.boot.railsOff = true → exec (.warmReset w b) s = .next s) ∧
    (∀ (w : WarmCause) (b : BootEnv), s.boot.railsOff = false → Completes (.warmReset w b) s fun t => t.boot.inReset = false ∧
      t.boot.bootCnt = s.boot.bootCnt + 1 ∧ bit t.boot.rstCause (match w with | .pin => 1 | .ctl => 2 | .watchdog => 3 | .bootTimeout => 4) = true ∧
      s.time.mono ≤ t.time.mono) ∧
    (∀ byAlarm, s.aon.pwrEnMain = true → exec (.wake byAlarm) s = .next s) ∧
    (s.aon.pwrEnMain = false →
      (Completes (.wake false) s fun t => t.aon.pwrEnMain = true ∧ t.aon.pwrEnRind = true ∧ t.boot.standbyExit = true ∧
        t.time = (s.elapse ms).time ∧ t.settings = s.settings) ∧
      (fld s.boot.wake1 0 16 * 2 ^ 32 + s.boot.wake0.toNat ≠ 0 → Completes (.wake true) s fun t => t.aon.pwrEnMain = true ∧
        t.aon.pwrEnRind = true ∧ t.boot.standbyExit = true ∧
        t.aon.rtc = max s.aon.rtc ((fld s.boot.wake1 0 16 * 2 ^ 32 + s.boot.wake0.toNat) * sec)) ∧
      (fld s.boot.wake1 0 16 * 2 ^ 32 + s.boot.wake0.toNat = 0 → exec (.wake true) s = .next s)) ∧
    (∀ (j : JtagInstr) (d : ScanDrive) (u : State), d = (match j with
        | .extest p | .clamp p => .driven p
        | .highz => .floating
        | .bypass | .sample | .idcode => .functional) →
      u = s.modLinks (fun l => { l with
        scan := j, scanPins := d, rindPins := if s.rind.sealSt = .sealed ∨ s.rind.powered = false then .functional else d }) →
      (j ≠ .idcode → j ≠ .sample → exec (.boundaryScanInstruction j) s = .next u) ∧
      (j = .idcode → exec (.boundaryScanInstruction j) s = .next (u.emit (.scan 0x196249CF))) ∧
      (j = .sample → Completes (.boundaryScanInstruction j) s fun t => ∃ x, t = ({ u with free := s.free + 1 } : State).emit (.scan x)))

/-- R17 to R22, R26, R40 to R42, R61, R62. -/
def Obligations.FramesLaunchAndBuffersDrop : Prop :=
  ∀ s : State,
    (∀ (p : PortIx) (g : Fin 16) (tap : TapStamp),
      ((s.ports[p].frameStart = none ∨ planG s.ports[p].plan p.val ≤ g.val ∨ s.ports[p].holdGate = true) → exec (.groupLaunch p g tap) s = .next s) ∧
      (∀ f, s.ports[p].frameStart = some f → g.val < planG s.ports[p].plan p.val → s.ports[p].holdGate = false →
        Completes (.groupLaunch p g tap) s fun t => ∃ tag : PingTag,
          t.ports[p].pings = s.ports[p].pings ++ [tag] ∧ tag.group = g.val ∧ tag.old = false ∧ (tag.launched = true ↔ MayLaunch s p g.val) ∧
          (tag.restart = true ↔ tag.launched = true ∧ bit s.ports[p].stat 7 = true) ∧
          t.ports[p].gateOpen = tag.launched ∧ t.ports[p].probeOn = tag.launched ∧
          t.ports[p].probe = (if tag.launched then probeCodes s.ports[p].plan p.val g.val else []) ∧
          t.time = (s.until (f + samplesTime s.ports[p].plan (g.val * planS s.ports[p].plan p.val))).time ∧
          t.ports[p].probeFrom = t.time.mono + quarters (s.ports[p].plan.port p.val 0x100A) ∧
          t.ports[p].probeUntil = t.ports[p].probeFrom + samplesTime s.ports[p].plan (toneSamples s.ports[p].plan p.val) ∧
          t.ports[p].gateUntil = t.ports[p].probeUntil + quarters (s.ports[p].plan.port p.val 0x100B) ∧
          (tag.launched = true →
            (tag.derived = false ↔ s.tiu.launchHeld = true ∧ cellFault tap.read = false ∧
              inDead (s.tiu.lastTap.map (·.raw)) ((s.tiu.convN s.tiu.launch).a.raw (12 + p.val) tap.read) = false) ∧
            (tag.derived = false → tag.stamp = (t.unitTime ((s.tiu.convN s.tiu.launch).a.raw (12 + p.val) tap.read)).toNat) ∧
            (∀ l, tag.derived = true → s.tiu.lastTap = some l → tag.stamp =
              ((l.stamp : Int) + t.time.mono - l.at' + (s.tiu.convN l.conv).a.offs.getD (12 + p.val) 0).toNat) ∧
            (cellFault tap.read = false →
              t.out = s.out ++ [.launch p.val g.val tag.restart (groupTones s.ports[p].plan p.val g.val)])) ∧
          (tag.launched = false → t.out = s.out) ∧
          ((tag.launched = false ∨ cellFault tap.read = false) → t.ev = s.ev ∧ t.streams = s.streams ∧ ∀ r : PortIx, r ≠ p → t.ports[r] = s.ports[r]) ∧
          t.ports[p].stat = s.ports[p].stat ∧ t.ports[p].frameStart = some f ∧
          t.settings = s.settings ∧ t.lanes = s.lanes ∧ t.shut = s.shut ∧ t.emOn = s.emOn)) ∧
    (∀ p : PortIx,
      ((s.ports[p].frameStart = none ∨ s.ports[p].frozen = true) → exec (.frameBoundary p) s = .next s) ∧
      (∀ f, s.ports[p].frameStart = some f → s.ports[p].frozen = false → Completes (.frameBoundary p) s fun t =>
        t.ports[p].frameStart = (if s.heldForCommit p (f + frameTime s.ports[p].plan p.val) = true ∨ s.leaving = true then none
          else some (f + frameTime s.ports[p].plan p.val)) ∧
        t.ports[p].frameNo = s.ports[p].frameNo + 1 ∧ t.ports[p].reopen = false ∧ t.ports[p].epochPending = false ∧
        t.settings = s.settings ∧ t.shut = s.shut ∧
        (s.leaving = false → t.time = (s.until (f + frameTime s.ports[p].plan p.val)).time ∧ t.lanes = s.lanes) ∧
        (s.ports[p].resumePending = true → bit t.ports[p].stat 7 = false ∧ bit t.ports[p].stat 1 = false) ∧
        ((s.ports[p].epochPending = true ∨ s.ports[p].resumePending = true) →
          fld t.ports[p].stat 16 16 = (fld s.ports[p].stat 16 16 + 1) % 65536) ∧
        (bit s.clk.stat 5 = true → t.ports[p].lockResume = false) ∧ (s.ports[p].dark = .closed → t.ports[p].dark = .ended) ∧
        (s.ports[p].dark = .measured → t.ports[p].dark = .none) ∧
        (s.ports[p].dark = .armed → s.leaving = false → s.heldForCommit p (f + frameTime s.ports[p].plan p.val) = false → t.ports[p].dark = .closed))) ∧
    (∀ n : PipeIx,
      ((bit s.pipes[n].src 5 = false ∨ s.pipes[n].dropping = true) → exec (.inputBufferFull n) s = .next s) ∧
      (∀ p : PortIx, bit s.pipes[n].src 5 = true → s.pipes[n].dropping = false → fld s.pipes[n].src 0 5 = p.val →
        Completes (.inputBufferFull n) s fun t => SameWork { s with pipes := t.pipes, ports := t.ports } t ∧ t.pipes[n].dropping = true ∧
          t.ports[p] = { s.ports[p] with stat := setBit s.ports[p].stat 0, droppedFrom := some s.time.dev, drops := t.ports[p].drops } ∧
          (∃ d ∈ t.ports[p].drops, d.since = s.time.mono ∧ d.till = none) ∧
          (∀ r : PortIx, r ≠ p → t.ports[r] = s.ports[r]) ∧ (∀ m : PipeIx, m ≠ n → t.pipes[m] = s.pipes[m]) ∧
          (∀ e : EvIx, e.val = 96 + p.val → s.boot.inReset = false → t.ev.pend.getLsbD e.val = true))) ∧
    (∀ (n : PipeIx) (k : Nat),
      (s.pipes[n].dropping = false → exec (.inputResume n k) s = .next s) ∧
      (s.pipes[n].dropping = true → Completes (.inputResume n k) s fun t => SameWork { s with pipes := t.pipes, ports := t.ports } t ∧
        t.pipes[n] = { s.pipes[n] with dropping := false } ∧ (∀ m : PipeIx, m ≠ n → t.pipes[m] = s.pipes[m]) ∧
        (∀ p : PortIx, p.val = fld s.pipes[n].src 0 5 → t.ports[p] = { s.ports[p] with droppedFrom := none, drops := t.ports[p].drops } ∧
          ∀ d ∈ t.ports[p].drops, d.till ≠ none) ∧
        (∀ r : PortIx, r.val ≠ fld s.pipes[n].src 0 5 → t.ports[r] = s.ports[r]) ∧
        t.streams.wheySeq = s.streams.wheySeq + BitVec.ofNat 32 (zonesOf s.settings (fld s.pipes[n].src 0 5)).length)) ∧
    (∀ (n : Fin 96) (count margin : Nat),
      (94 ≤ n.val → exec (.paceWindowEnd n count margin) s = .next s) ∧
      (n.val < 94 → s.clk.paceRamp[n] = true → exec (.paceWindowEnd n count margin) s =
        .next (s.modClk fun c => { c with paceRamp := c.paceRamp.set n (bit c.stat 4) })) ∧
      (n.val < 94 → s.clk.paceRamp[n] = false → Completes (.paceWindowEnd n count margin) s fun t =>
        SameWork { s with clk := t.clk, ladle := t.ladle, boot := t.boot } t ∧ t.clk = { s.clk with pace := t.clk.pace } ∧
        t.ladle = { s.ladle with drift := t.ladle.drift } ∧ (margin ≥ 64 → t.boot = s.boot) ∧
        fld t.clk.pace[n] 0 16 = min count 65535 ∧ fld t.clk.pace[n] 16 8 = min margin 255 ∧ bit t.clk.pace[n] 25 = true ∧
        bit t.clk.pace[n] 24 = (decide (margin < 64) || bit s.clk.pace[n] 24) ∧ (∀ m : Fin 96, m ≠ n → t.clk.pace[m] = s.clk.pace[m]) ∧
        (s.boot.inReset = false → margin < 64 → bit s.clk.pace[n] 24 = false → t.ev.pend.getLsbD 249 = true ∧ t.ev.pend.getLsbD 248 = true)))

/-- R107 to R165, R236 to R242. -/
def Obligations.PingsAndIntervalsAreProcessed : Prop :=
  ∀ s : State,
    (∀ (p : PortIx) (g : Fin 16) (x : PingData),
      (s.ports[p].pings.find? (fun t => t.group == g.val) = none → exec (.pingProcessed p g x) s = .next s) ∧
      (∀ tag, s.ports[p].pings.find? (fun t => t.group == g.val) = some tag → Completes (.pingProcessed p g x) s fun t =>
        t.ports[p].pings.map (·.stamp) = (s.ports[p].pings.erase tag).map (·.stamp) ∧ t.settings = s.settings ∧ t.sdc.ctl = s.sdc.ctl ∧
        (tag.old = false → t.ports[p].lastSense = some (tag.stamp, tag.cfg.getD s.ports[p].plan)) ∧
        (tag.old = true → t.ports[p].lastSense = s.ports[p].lastSense) ∧
        t.ports[p].plan = s.ports[p].plan ∧ t.ports[p].frameStart = s.ports[p].frameStart ∧ t.ports[p].frameNo = s.ports[p].frameNo ∧
        (s.leaving = false → t.time = s.time ∧
          (∀ n : LaneIx, t.lanes[n] = { s.lanes[n] with frame := t.lanes[n].frame, suspects := t.lanes[n].suspects }) ∧
          (g.val ≠ 0 → t.lanes = s.lanes) ∧
          (tag.launched = false → t.ports[p].pings = s.ports[p].pings.erase tag ∧ t.shut = s.shut ∧ ∀ r : PortIx, r ≠ p → t.ports[r] = s.ports[r])))) ∧
    (∀ p : PortIx,
      ((s.ports[p].group0.length < 16 ∨ s.ports[p].frameNo < s.ports[p].endFrame + 16) → exec (.endDetermination p) s = .next s) ∧
      (16 ≤ s.ports[p].group0.length → s.ports[p].endFrame + 16 ≤ s.ports[p].frameNo → Completes (.endDetermination p) s fun t =>
        SameWork { s with ports := t.ports } t ∧ (∀ r : PortIx, r ≠ p → t.ports[r] = s.ports[r]) ∧ t.ports[p].endFrame = s.ports[p].frameNo ∧
        t.ports[p].group0 = s.ports[p].group0 ∧ t.ports[p].plan = s.ports[p].plan ∧
        ((∀ z, ¬ AboveFloor s p z) → bit t.ports[p].endR 20 = false ∧ bit t.ports[p].stat 4 = true ∧ t.ports[p].refR = s.ports[p].refR ∧
          (∀ e : EvIx, e.val = 96 + p.val → s.boot.inReset = false → bit s.ports[p].stat 4 = false → bit s.ports[p].even 4 = true →
            t.ev.pend.getLsbD e.val = true)) ∧
        (∀ z, AboveFloor s p z → (∀ y, z < y → ¬ AboveFloor s p y) → bit t.ports[p].endR 20 = true ∧ fld t.ports[p].endR 0 20 = z % 2 ^ 20 ∧
          bit t.ports[p].stat 4 = false ∧ bit t.ports[p].refR 20 = true ∧ (bit s.ports[p].refR 20 = true → t.ports[p].refR = s.ports[p].refR) ∧
          (bit s.ports[p].refR 20 = false → fld t.ports[p].refR 0 20 = z % 2 ^ 20) ∧
          t.ports[p].endDiff = (if (fld t.ports[p].refR 0 20 + 8 < z ∨ z + 8 < fld t.ports[p].refR 0 20) ∧ bit s.ports[p].stat 1 = false
            then s.ports[p].endDiff + 1 else 0) ∧ (2 ≤ t.ports[p].endDiff → bit t.ports[p].stat 3 = true)))) ∧
    (∀ (z : ZoneIx) (i : Time),
      (s.zoneRt z.val = none → exec (.exactOutput z i) s = .next s) ∧
      (∀ r, s.zoneRt z.val = some r → GridChain r z.val i = none → exec (.exactOutput z i) s = .next s) ∧
      (∀ r c, s.zoneRt z.val = some r → GridChain r z.val i = some c →
        ((onGrid i (c.cfg.zone z.val 0x1302) = false ∨ (∃ l, r.lastOut = some l ∧ i ≤ l) ∨ s.forms z.val = false ∨ ¬ InputsThere r z.val c i) →
          exec (.exactOutput z i) s = .next s) ∧
        (onGrid i (c.cfg.zone z.val 0x1302) = true → (∀ l, r.lastOut = some l → l < i) → s.forms z.val = true → InputsThere r z.val c i →
          Completes (.exactOutput z i) s fun t =>
            (∃ q, t.zoneRt z.val = some q ∧ q.lastOut = some i ∧ q.gains = r.gains.filter fun g => decide (i < g.1)) ∧
            t.time = (s.untilDev i).time ∧ t.settings = s.settings ∧ t.ports = s.ports ∧ t.lanes = s.lanes ∧ t.shut = s.shut))) ∧
    (∀ z : ZoneIx,
      ((s.zoneRt z.val = none ∨ zoneBands s.settings z.val = 0 ∨ s.settings.zone z.val 0x1306 = 0 ∨ ∃ r, s.zoneRt z.val = some r ∧ r.bands = []) →
        exec (.featureIntervalEnd z) s = .next s) ∧
      (∀ r e, s.zoneRt z.val = some r → r.bands ≠ [] → zoneBands s.settings z.val ≠ 0 → s.settings.zone z.val 0x1306 ≠ 0 →
        e = nextEnd r.featEnd s.time.dev (sec / s.settings.zone z.val 0x1306) → Completes (.featureIntervalEnd z) s fun t =>
          (∃ q, t.zoneRt z.val = some q ∧ q.featEnd = some e ∧ q.resets = r.resets.filter (fun x => decide (e < x + 5 * sec)) ∧
            q.bands = r.bands.map fun b => { b with out := b.out.filter fun o => o.inst.any fun x => decide (e ≤ x) }) ∧
          t.time = (s.untilDev e).time ∧ t.settings = s.settings ∧ t.ports = s.ports ∧ t.lanes = s.lanes ∧ t.shut = s.shut)) ∧
    (∀ p : PortIx,
      ((s.settings.mode p.val 2 = false ∨ s.settings.port p.val 0x1508 = 0) → exec (.delayRecordIntervalEnd p) s = .next s) ∧
      (∀ per e, s.settings.mode p.val 2 = true → s.settings.port p.val 0x1508 ≠ 0 → per = sec / s.settings.port p.val 0x1508 →
        e = nextEnd s.ports[p].delay.lastEnd s.time.dev per →
        Completes (.delayRecordIntervalEnd p) s fun t => SameWork { s.untilDev e with ports := t.ports } t ∧
          (∀ r : PortIx, r ≠ p → t.ports[r] = s.ports[r]) ∧ t.ports[p] = { s.ports[p] with delay := t.ports[p].delay } ∧
          t.ports[p].delay.lastEnd = some e ∧ t.ports[p].delay.flags = 0 ∧ t.ports[p].delay.slipCnt = s.ports[p].delay.slipCnt ∧
          t.ports[p].delay.samples = s.ports[p].delay.samples.filter (fun x => decide (e ≤ x.t)) ∧
          (∃ rel, t.ports[p].delay.recs = (e - per + per / 2, rel) :: s.ports[p].delay.recs.filter (fun x => decide (e - per + per / 2 ≤ x.1 + 102 * sec)) ∧
            ∀ good, good = s.ports[p].delay.samples.filter (fun x => decide (e - per ≤ x.t) && decide (x.t < e) && !x.bad) →
              rel = delayRel s.settings p.val (isum (good.map (·.val))) good.length) ∧
          ((∀ a ta, s.ports[p].delay.pendingAnchor = some (a, ta) → e - per + per / 2 < ta) → t.ports[p].delay.anchor = s.ports[p].delay.anchor ∧
            t.ports[p].delay.anchorSeq = s.ports[p].delay.anchorSeq ∧ t.ports[p].delay.pendingAnchor = s.ports[p].delay.pendingAnchor) ∧
          (∀ a ta, s.ports[p].delay.pendingAnchor = some (a, ta) → ta ≤ e - per + per / 2 →
            t.ports[p].delay.pendingAnchor = none ∧ t.ports[p].delay.anchorSeq = s.ports[p].delay.anchorSeq + 1 ∧ t.ports[p].delay.inEpoch = true ∧
            t.ports[p].delay.anchor = some (a, ta, relAt ta t.ports[p].delay.recs))))

/-- R201, R393, R398 to R406, R529. -/
def Obligations.PressLanesCodeAndRunJobs : Prop :=
  ∀ (s : State) (n : PressIx),
    (¬ CaveOpen s → exec (.pressBlockCoded n) s = .next s ∧ exec (.hostJobStart n) s = .next s ∧
      ∀ inp how, exec (.hostJobStop n inp how) s = .next s) ∧
    (s.press[n].blocks = [] → exec (.pressBlockCoded n) s = .next s) ∧
    (CaveOpen s → s.press[n].blocks ≠ [] → Completes (.pressBlockCoded n) s fun t => ∃ b ∈ s.press[n].blocks,
      (∀ y ∈ s.press[n].blocks, b.cls ≤ y.cls) ∧
      t.press[n].blocks = s.press[n].blocks.erase b ∧ t.press[n].ctl = s.press[n].ctl ∧ (∀ m : PressIx, m ≠ n → t.press[m] = s.press[m]) ∧
      t.press[n].rawCnt = (if b.coded.2 && s.press[n].rawCnt ≠ 0xFFFFFFFF then s.press[n].rawCnt + 1 else s.press[n].rawCnt) ∧
      (b.coded.2 = true → bit t.press[n].stat 4 = true) ∧ t.settings = s.settings ∧ t.ports = s.ports ∧ t.engines = s.engines ∧
      t.hostArea = s.hostArea ∧ t.jobs = s.jobs ∧ t.time = s.time) ∧
    (CaveOpen s → (s.pressOk n.val = false ∨ s.press[n].blocks ≠ [] ∨ (∃ j ∈ GivenJobs s, j.lane = some n.val ∧ j.running = true) ∨
      (∀ j ∈ GivenJobs s, j.lane ≠ some n.val)) → exec (.hostJobStart n) s = .next { s with jobs := GivenJobs s }) ∧
    (∀ j, CaveOpen s → s.pressOk n.val = true → s.press[n].blocks = [] → (∀ x ∈ GivenJobs s, x.lane = some n.val → x.running = false) →
      (GivenJobs s).find? (fun x => x.lane == some n.val) = some j → Completes (.hostJobStart n) s fun t =>
        t = { s with jobs := t.jobs, press := t.press } ∧
        t.jobs = (GivenJobs s).map (fun x => if x = j then { j with running := true, setAside := false } else x) ∧
        fld t.press[n].stat 0 3 = 2 ∧ (∀ m : PressIx, m ≠ n → t.press[m] = s.press[m])) ∧
    (∀ (inp : List Byte) (how : JobStop),
      (s.jobs.find? (fun j => j.lane == some n.val && j.running) = none → exec (.hostJobStop n inp how) s = .next s) ∧
      (∀ j, CaveOpen s → s.jobs.find? (fun j => j.lane == some n.val && j.running) = some j → Completes (.hostJobStop n inp how) s fun t =>
        t.jobs = s.jobs.filter (fun x => x != j) ∧ bit t.press[n].stat 5 = true ∧ t.press[n].blocks = s.press[n].blocks ∧
        (∃ (e : JobEnd) (consumed crc piece : Nat), t.hostArea = (s.hostArea.writes (jobField j.desc 40 8) e.out).writes (jobField j.desc 56 8)
          (jobRecord j.desc e consumed crc n.val piece) ∧ (how = .natural → e.result ≤ 2) ∧ (∀ k, how = .cancelled k → j.cancel = true → e.result = 3) ∧
          (e.result = 1 ↔ ∃ x ∈ t.savedJobs, x.stateOff = jobField j.desc 48 8)) ∧
        (s.boot.inReset = false → bit s.press[n].ctl 3 = true → ∀ e : EvIx, e.val = 152 + n.val → t.ev.pend.getLsbD e.val = true) ∧
        t.settings = s.settings ∧ t.ports = s.ports ∧ t.time = s.time ∧ t.ladle = s.ladle)) ∧
    (∀ v : Word, exec (.pressAbort n v) s = exec (.pressDisable n v) s ∧ (s.boot.inReset = true → exec (.pressAbort n v) s = .next s)) ∧
    (∀ v : Word, s.boot.inReset = false → bit v 1 = true → Completes (.pressAbort n v) s fun t =>
      t.press[n].blocks = [] ∧ (∀ x ∈ t.ladle.place.press, x.2.1 ≠ n.val) ∧ (∀ j ∈ t.jobs, j.lane ≠ some n.val) ∧
      (bit v 0 = bit s.press[n].ctl 0 → bit t.press[n].ctl 0 = bit v 0 ∧ fld t.press[n].stat 0 3 = (if fld s.press[n].stat 0 3 = 5 then 5 else 4)) ∧
      t.settings = s.settings ∧ t.ports = s.ports ∧ t.time = s.time) ∧
    (∀ v : Word, s.boot.inReset = false → bit v 1 = false → Completes (.pressDisable n v) s fun t =>
      t.settings = s.settings ∧ t.ports = s.ports ∧ t.time = s.time ∧ t.press[n].blocks = s.press[n].blocks ∧
      bit t.press[n].ctl 2 = bit v 2 ∧ bit t.press[n].ctl 3 = bit v 3 ∧ (∀ m : PressIx, m ≠ n → t.press[m] = s.press[m]) ∧
      (bit v 0 = bit s.press[n].ctl 0 → bit t.press[n].ctl 0 = bit v 0 ∧ t.press[n].stat = s.press[n].stat ∧ t.jobs = s.jobs) ∧
      (bit s.press[n].ctl 0 = false → bit v 0 = true → bit t.press[n].ctl 0 = true ∧ t.jobs = s.jobs ∧ fld t.press[n].stat 0 3 =
        (if fld s.press[n].stat 0 3 = 5 then 5 else if s.press[n].blocks.isEmpty then 0 else 1)) ∧
      (bit s.press[n].ctl 0 = true → bit v 0 = false → fld s.press[n].stat 8 12 ≠ 0 → bit t.press[n].ctl 0 = true ∧ bit t.press[n].stat 6 = true ∧
        t.jobs = s.jobs ∧ fld t.press[n].stat 0 3 = fld s.press[n].stat 0 3) ∧
      (bit s.press[n].ctl 0 = true → bit v 0 = false → fld s.press[n].stat 8 12 = 0 → bit t.press[n].ctl 0 = false ∧ fld t.press[n].stat 0 3 =
        (if fld s.press[n].stat 0 3 = 5 then 5 else if s.jobs.any (fun j => j.lane == some n.val && j.running) then 3 else 4) ∧
        (∀ j ∈ t.jobs, j.lane = some n.val → j.running = true) ∧
        ((∀ j ∈ s.jobs, j.lane = some n.val → j.running = false) → ∀ e : EvIx, e.val = 152 + n.val → t.ev.pend.getLsbD e.val = true))) ∧
    ((fld s.press[n].stat 0 3 = 3 ∧ (∀ j ∈ s.jobs, j.lane = some n.val → j.running = false)) → Completes (.pressDrainComplete n) s fun t =>
      SameWork (s.modPress n fun l => { l with stat := setFld l.stat 0 3 4 }) t ∧
      (s.boot.inReset = false → ∀ e : EvIx, e.val = 152 + n.val → t.ev.pend.getLsbD e.val = true)) ∧
    (¬ (fld s.press[n].stat 0 3 = 3 ∧ (∀ j ∈ s.jobs, j.lane = some n.val → j.running = false)) → exec (.pressDrainComplete n) s = .next s) ∧
    (s.boot.inReset = false → (∀ m ∈ s.ladle.migrations, m.source = .press n → m.shadow = false) → Completes (.pressLaneLost n) s fun t =>
      exec (.unitLost (.press n) true) s = .next t ∧ bit t.press[n].stat 3 = true ∧ fld t.press[n].stat 0 3 = 5 ∧ t.press[n].blocks = [] ∧
      (∀ x ∈ t.ladle.place.press, x.2.1 ≠ n.val) ∧ (∀ j ∈ t.jobs, j.lane ≠ some n.val) ∧ t.boot.retired.press.getLsbD n.val = true ∧
      t.ev.pend.getLsbD 252 = true ∧ t.ports = s.ports ∧ t.time = s.time)

/-- R365 to R372, R460, R461. What becomes of a change of safety group at a boundary is R25 and log entry 124. -/
def Obligations.LadleMovesWork : Prop :=
  ∀ s : State,
    (∀ (u : UnitName) (b : Bool), s.boot.inReset = false → (∀ m ∈ s.ladle.migrations, m.source = u → m.shadow = false) →
      (∀ n : LaneIx, u ≠ .lane n) → Completes (.unitLost u b) s fun t => ReadsRetired u t ∧ t.ev.pend.getLsbD 252 = true ∧ t.time = s.time ∧
        t.shut = s.shut ∧ t.lanes = s.lanes ∧ (∀ m ∈ t.ladle.migrations, m.source ≠ u) ∧
        (∀ n : PipeIx, u = .pipeline n → ∀ (p : PortIx) (k : Nat), s.ladle.place.pipes.find? (fun x => x.2 == n.val) = some (p.val, k) →
          t.ports[p].holdGate = true ∧ t.ports[p].gateOpen = false ∧ t.ports[p].probeOn = false) ∧
        (∀ n : EngIx, u = .engine n → t.ports = s.ports) ∧ (∀ n : Fin 3, u = .vernier n → t.ev.pend.getLsbD 190 = true ∧ t.settings = s.settings)) ∧
    (∀ (n : PipeIx) (b : Bool) (m : Migration), s.boot.inReset = false → (∀ x ∈ s.ladle.migrations, x.target ≠ .pipeline n) →
      s.ladle.migrations.find? (fun x => x.source == .pipeline n && x.shadow) = some m → Completes (.unitLost (.pipeline n) b) s fun t =>
        ReadsRetired (.pipeline n) t ∧ t.ladle.place = s.ladle.place.move m.source m.target ∧ t.ev.pend.getLsbD 252 = true ∧
        t.ev.pend.getLsbD 251 = true ∧ t.ports = s.ports) ∧
    (∀ (n : LaneIx) (b : Bool), (∀ m ∈ s.ladle.migrations, m.target ≠ .lane n ∧ m.source ≠ .lane n) → exec (.unitLost (.lane n) b) s = .next s) ∧
    (∀ (u : UnitName) (b : Bool) (c : Option VernierCal), u ∉ s.ladle.tests → exec (.selfTestComplete u b c) s = .next s) ∧
    (∀ (u : UnitName) (c : Option VernierCal), u ∈ s.ladle.tests → (c = none ∨ siteOf u ≠ none) →
      (Completes (.selfTestComplete u true c) s fun t => t = s.modLadle (fun l => { l with tests := t.ladle.tests, tested := t.ladle.tested }) ∧
        (∀ x, x ∈ t.ladle.tests ↔ x ∈ s.ladle.tests ∧ x ≠ u) ∧ (u, s.time.mono) ∈ t.ladle.tested) ∧
      (s.boot.inReset = false → (∀ m ∈ s.ladle.migrations, m.target ≠ u) → Completes (.selfTestComplete u false c) s fun t =>
        u ∉ t.ladle.tests ∧ ReadsRetired u t ∧ (siteOf u ≠ none → t.ev.pend.getLsbD 253 = true ∧ t.ports = s.ports) ∧ t.settings = s.settings)) ∧
    (∀ (n : Fin 3) (b : Bool) (c : VernierCal), UnitName.vernier n ∈ s.ladle.tests → Completes (.selfTestComplete (.vernier n) b (some c)) s fun t =>
      UnitName.vernier n ∉ t.ladle.tests ∧ t.settings = s.settings ∧
      (vernierOk c = true → t.tiu.conv[n].calibrated = true ∧ (UnitName.vernier n, s.time.mono) ∈ t.ladle.tested) ∧
      (vernierOk c = false → ReadsRetired (.vernier n) t)) ∧
    (Completes .dailySpareSelfTest s fun t => t = s.modLadle (fun l => { l with tests := t.ladle.tests, testAges := t.ladle.testAges }) ∧
      (∀ u, u ∈ t.ladle.tests ↔ u ∈ s.ladle.tests ∨ u ∈ s.spares) ∧
      ∀ u ∈ s.spares, u ∉ s.ladle.tests → (u, s.time.mono, 3) ∈ t.ladle.testAges) ∧
    (∀ m, m = (s.time.dev / (86400 * sec) + 1) * (86400 * sec) →
      (Completes .dailyDrift s fun t => (∀ i : Fin 94, t.ladle.drift[i] = []) ∧ t.time = (s.untilDev m).time ∧ t.lanes = s.lanes ∧ t.shut = s.shut ∧
        ∀ i : Fin 94, 1000 ≤ s.ladle.drift[i].length → bit s.ladle.wear[i] 16 = true →
          fld t.ladle.wear[i] 0 16 = (median s.ladle.drift[i] % 65536).toNat) ∧
      ((∀ i : Fin 94, s.ladle.drift[i].length < 1000) → exec .dailyDrift s =
        .next ((s.untilDev m).modLadle fun l => { l with drift := Vector.replicate 94 [] }))) ∧
    (∀ (u : UnitName) (b : Bool), (∀ m ∈ s.ladle.migrations, m.source ≠ u) → exec (.migrationComplete u b) s = .next s) ∧
    (∀ m : Migration, s.ladle.migrations.find? (fun x => x.source == m.source) = some m →
      (∀ b, (m.target ∈ s.ladle.tests ∨ ¬ AtHandover s m ∨ s.roomFor m = false) → exec (.migrationComplete m.source b) s = .next s) ∧
      (s.boot.inReset = false → m.target ∉ s.ladle.tests → AtHandover s m → s.roomFor m = true →
        (Completes (.migrationComplete m.source true) s fun t => t.ladle.place = s.ladle.place.move m.source m.target ∧
          (∀ x ∈ t.ladle.migrations, x.source ≠ m.source) ∧ t.ladle.placeGen = s.ladle.placeGen + 1 ∧ t.ev.pend.getLsbD 251 = true ∧
          t.time = (s.until (s.holdUntil m.source)).time ∧ t.settings = s.settings ∧ t.ports = s.ports) ∧
        (∀ i, m.source ≠ m.target → siteOf m.target = some i → Completes (.migrationComplete m.source false) s fun t =>
          fld t.ladle.wear[i] 17 2 = 2 ∧ t.ev.pend.getLsbD 253 = true ∧ t.ladle.place = s.ladle.place ∧
          t.time = (s.until (s.holdUntil m.source)).time ∧ t.settings = s.settings ∧ t.ports = s.ports))) ∧
    (s.ladle.shed = [] → s.ladle.shedPorts = [] → exec .shedReplacement s = .next s) ∧
    (Completes .shedReplacement s fun t => t.settings = s.settings ∧ t.ports = s.ports ∧ t.lanes = s.lanes ∧ t.time = s.time ∧
      (∀ x ∈ t.ladle.shed, x ∈ s.ladle.shed) ∧ (∀ x ∈ t.ladle.shedPorts, x ∈ s.ladle.shedPorts) ∧
      (∀ l z w pl, s.ladle.shed = l ++ [(z, w)] → w ≠ 4 →
        placeAll (s.modLadle fun x => { x with shed := l }) s.settings s.settings false = .ok pl → t.ladle.shed.length < s.ladle.shed.length)) ∧
    (NoneWaits s →
      (∀ po, (s.commits = [] ∨ (∃ c cs, s.commits = c :: cs ∧ c.fixed = false)) → exec (.commitBoundary po) s = .next s) ∧
      (∀ c cs, s.commits = c :: cs → c.fixed = true → c.deviceDone = false → c.touched ≠ [] → Completes (.commitBoundary none) s fun t =>
        t.commits = { c with deviceDone := true } :: cs ∧ t.time = (s.until c.tC).time ∧
        (∀ k : SetKey, k.code ≠ 0x0105 → t.settings.val? k =
          if c.has k = true ∧ (k.kind = .device ∨ k.kind = .emitter ∨ k.kind = .trigger ∨ k.kind = .stream) then c.target.val? k else s.settings.val? k)) ∧
      (∀ c cs, s.commits = c :: cs → c.deviceDone = true → exec (.commitBoundary none) s = .next s) ∧
      (∀ c cs (p : PortIx), s.commits = c :: cs → (p.val ∉ c.touched ∨ s.inShadow p.val = true) → exec (.commitBoundary (some p)) s = .next s) ∧
      (∀ c cs (p : PortIx), s.commits = c :: cs → c.fixed = true → p.val ∈ c.touched → s.inShadow p.val = false →
        (c.deviceDone = false ∨ ∃ x ∈ c.touched, x ≠ p.val) → Completes (.commitBoundary (some p)) s fun t =>
          t.commits = { c with touched := c.touched.filter (fun x => x != p.val), tLast := max c.tLast t.time.mono } :: cs ∧
          t.time = (s.until (if c.restarted.contains p.val then c.tC else (s.boundaryAt p.val c.tC).getD c.tC)).time ∧
          (∀ k : SetKey, k.code ≠ 0x0105 → t.settings.val? k =
            if c.has k = true ∧ keyPort s.settings c.target k = some p.val then c.target.val? k else s.settings.val? k)) ∧
      (∀ c cs po, s.commits = c :: cs → c.fixed = true → c.owner ≠ none → s.boot.inReset = false →
        ((po = none ∧ c.deviceDone = false ∧ c.touched = []) ∨ (∃ p : PortIx, po = some p ∧ c.deviceDone = true ∧ s.inShadow p.val = false ∧
          p.val ∈ c.touched ∧ ∀ x ∈ c.touched, x = p.val)) →
        Completes (.commitBoundary po) s fun t => t.commits.length = cs.length ∧ t.ev.pend.getLsbD 255 = true))

/-- R363, R364, R371, R373, R521, R555. -/
def Obligations.StagedWorkAgesAndIsDiscarded : Prop :=
  ∀ s : State,
    ((∀ it ∈ s.streams.queue, it.cls = 0) → (∀ n : PressIx, ∀ b ∈ s.press[n].blocks, b.cls = 0) → (∀ j ∈ s.jobs, j.running = true ∨ j.cls = 0) →
      (∀ x ∈ s.ladle.testAges, x.1 ∈ s.ladle.tests → x.2.2 = 0) → exec .workItemAged s = .next s) ∧
    (s.agingItems ≠ [] → Completes .workItemAged s fun t => ∃ x ∈ s.agingItems, x.1 ≠ 0 ∧ (∀ y ∈ s.agingItems, s.ageDue x ≤ s.ageDue y) ∧
      t = (x.2.2 (s.until (s.ageDue x))).modLadle (fun l => { l with aged := if x.1 = 1 ∧ l.aged ≠ 0xFFFFFFFF then l.aged + 1 else l.aged })) ∧
    (∀ it ∈ s.streams.queue, it.cls ≠ 0 → (∀ y ∈ s.agingItems, it.arrived + s.ageLimit it.cls ≤ s.ageDue y) →
      (∀ y ∈ s.streams.queue, y.cls ≠ 0 → y = it ∨ it.arrived + s.ageLimit it.cls < y.arrived + s.ageLimit y.cls) →
      Completes .workItemAged s fun t => t = { s.until (it.arrived + s.ageLimit it.cls) with streams := t.streams, ladle := t.ladle } ∧
        t.streams = { s.streams with queue := s.streams.queue.map fun y => if y = it then { it with cls := it.cls - 1 } else y } ∧
        t.ladle = { s.ladle with aged := if it.cls = 1 ∧ s.ladle.aged ≠ 0xFFFFFFFF then s.ladle.aged + 1 else s.ladle.aged }) ∧
    (∀ z : ZoneIx, (∀ it ∈ s.streams.queue, it.zone = some z.val → it.inPool = false ∨ it.seq0.isSome = true) →
      (∀ x ∈ s.ladle.place.insts, x.zone = z.val → ∀ b ∈ (s.engN x.engine).input, b.inPool = false) → exec (.overflowBlockTimeout z) s = .next s) ∧
    (∀ (z : ZoneIx) (it : TxItem), s.streams.queue.find? (fun x => x.zone == some z.val && x.inPool && x.seq0.isNone) = some it →
      (∀ x ∈ s.ladle.place.insts, x.zone = z.val → ∀ b ∈ (s.engN x.engine).input, b.inPool = false) → Completes (.overflowBlockTimeout z) s fun t =>
        t.ladle.overflow = s.ladle.overflow - it.record.bytes.length ∧ bit t.ladle.stat 2 = true ∧
        (s.zoneRt z.val ≠ none → ∃ q, t.zoneRt z.val = some q ∧ q.flags.getLsbD 1 = true) ∧
        t.time = (s.until (it.arrived + (s.zoneCfg z.val).zone z.val 0x170C * ms)).time ∧
        t.settings = s.settings ∧ t.ports = s.ports ∧ t.engines = s.engines) ∧
    (∀ (z : ZoneIx) (n : EngIx) (b : VatIn), (s.ladle.place.insts.filter (fun x => x.zone == z.val)).findSome? (fun x =>
        ((s.engN x.engine).input.find? fun b => b.inPool).map fun b => (x.engine, b)) = some (n.val, b) → Completes (.overflowBlockTimeout z) s fun t =>
        t.ladle.overflow = s.ladle.overflow - b.bytes.length ∧ bit t.ladle.stat 2 = true ∧ t.engines[n].input = s.engines[n].input.erase b ∧
        (s.zoneRt z.val ≠ none → ∃ q, t.zoneRt z.val = some q ∧ q.flags.getLsbD 1 = true) ∧
        t.time = (s.untilDev (b.arrived + (s.zoneCfg z.val).zone z.val 0x170C * ms)).time ∧
        t.settings = s.settings ∧ t.ports = s.ports ∧ (∀ m : EngIx, m ≠ n → t.engines[m] = s.engines[m])) ∧
    (∀ z : ZoneIx, (s.zoneRt z.val = none ∨ ∃ r, s.zoneRt z.val = some r ∧ r.runs = []) → exec (.discardRunRecord z) s = .next s) ∧
    (∀ (z : ZoneIx) (r : ZoneRt), s.zoneRt z.val = some r → r.runs ≠ [] → Completes (.discardRunRecord z) s fun t => ∃ d ∈ r.runs,
      (∀ y ∈ r.runs, d.since ≤ y.since) ∧ t.time = (s.until (d.since + sec)).time ∧
      t.zoneRt z.val = some { r with runs := r.runs.filter fun y => y.cause != d.cause } ∧
      t.streams.wheySeq = s.streams.wheySeq + 1 ∧ t.settings = s.settings ∧ t.ports = s.ports) ∧
    (∀ z : ZoneIx, (s.zoneRt z.val).bind (·.drainUntil) = none → exec (.drainHostTimeout z) s = .next s) ∧
    (∀ (z : ZoneIx) (d : Time), (s.zoneRt z.val).bind (·.drainUntil) = some d → Completes (.drainHostTimeout z) s fun t =>
      t.time = (s.until d).time ∧ (∀ it ∈ t.streams.queue, it.zone = some z.val → it.urgent = true ∨ it.seq0.isSome = true) ∧
      (∀ q, t.zoneRt z.val = some q → q.drainUntil = none) ∧ t.settings = s.settings ∧ t.ports = s.ports ∧ t.engines = s.engines) ∧
    (∀ c : CaveRegion, Completes (.caveError c) s fun t => (s.boot.inReset = false → t.ev.pend.getLsbD 243 = true) ∧
      t.settings = s.settings ∧ t.ports = s.ports ∧ t.time = s.time ∧ t.press = s.press ∧
      (match c with
        | .staging z => Unstaged t z.val ∧ SameWork s t
        | .vatWindow n => t.engines[n] = { s.engines[n] with win := Vector.replicate 4 [] } ∧ SameWork { s with engines := t.engines } t ∧
            (∀ m : EngIx, m ≠ n → t.engines[m] = s.engines[m])
        | .rawHistory p => t.look.rawSince[p] = (s.look.rawSince[p]).map (fun _ => s.time.dev) ∧ SameWork s t
        | .curdHistory z => (∀ q, t.zoneRt z.val = some q → q.curdRows = []) ∧ SameWork { s with zones := t.zones } t
        | .hostArea => t.hostArea = [] ∧ SameWork { s with hostArea := t.hostArea } t
        | .pressWindow _ => SameWork s t
        | .free => SameWork s t)) ∧
    (∀ b : Bool, Completes (.caveCorrectedError b) s fun t => SameWork s t ∧
      (s.boot.inReset = false → (b = true → t.ev.pend.getLsbD 244 = true) ∧
        ((s.links.corrected.filter fun x => decide (s.time.mono < x + sec)).length = 1000 → t.ev.pend.getLsbD 242 = true)) ∧
      t.links.corrected = (s.links.corrected.filter fun x => decide (s.time.mono < x + sec)) ++ [s.time.mono]) ∧
    (∀ ts : List Int, Completes (.dieTemperatureSample ts) s fun t =>
      (t.sdc.hot = true ↔ ∃ x ∈ ts, 105 * 256 < x) ∧ t.settings = s.settings ∧ t.lanes = s.lanes ∧ t.time = s.time ∧
      (s.sdc.causeTemp = false → (∃ x ∈ ts, 115 * 256 ≤ x) → AllShut t ∧ t.sdc.causeTemp = true ∧
        (s.boot.inReset = false → t.ev.pend.getLsbD 204 = true ∧ t.ev.pend.getLsbD 201 = true ∧ t.ev.pend.getLsbD 248 = true)) ∧
      (s.sdc.causeTemp = true → (∀ x ∈ ts, x ≤ 105 * 256) → t = { s with sdc := t.sdc } ∧ t.sdc.causeTemp = false ∧ t.sdc.phase = s.sdc.phase) ∧
      (s.sdc.causeTemp = true → (∃ x ∈ ts, 105 * 256 < x) → t.sdc.causeTemp = true ∧ t.shut = s.shut ∧ t.ports = s.ports) ∧
      (s.sdc.causeTemp = false → (∀ x ∈ ts, x < 115 * 256) → t.sdc.causeTemp = false ∧ t.shut = s.shut ∧ t.ports = s.ports) ∧
      (s.sdc.warned = false → (∃ x ∈ ts, 110 * 256 ≤ x) → s.boot.inReset = false → t.ev.pend.getLsbD 248 = true) ∧
      (s.sdc.causeTemp = false → (∀ x ∈ ts, x < 110 * 256) → t = s.modSdc (fun c => { c with hot := t.sdc.hot, warned := false })))

/-- R201, R431 to R434, R438, R529. -/
def Obligations.CapturesOpenPinAndLeave : Prop :=
  ∀ s : State,
    (s.look.due = [] → s.timeTriggers = [] → exec .triggerFiring s = .next s) ∧
    (∀ (f : Firing) (rest : List Firing) (i : Fin 16), s.look.due = f :: rest → f.trigger = i.val →
      (trigSet s.settings f.trigger = false → exec .triggerFiring s = .next (s.modLook fun l => { l with due := rest })) ∧
      (trigSet s.settings f.trigger = true → (∃ l, s.look.trig[i].last = some l ∧ f.tTrig < l + trigPar s.settings f.trigger 4 * sec) →
        exec .triggerFiring s = .next (s.modLook fun l => { l with
          due := rest, trig := l.trig.set i { l.trig[i] with ignored := l.trig[i].ignored + 1 } })) ∧
      (trigSet s.settings f.trigger = true → (∀ l, s.look.trig[i].last = some l → l + trigPar s.settings f.trigger 4 * sec ≤ f.tTrig) →
        (64 ≤ s.look.captures.length → s.boot.inReset = false → Completes .triggerFiring s fun t => t.ev.pend.getLsbD 240 = true ∧
          t.look.captures = s.look.captures ∧ t.look.trig[i].failed = s.look.trig[i].failed + 1 ∧ t.time = s.time ∧ t.settings = s.settings) ∧
        (s.look.captures.length < 64 → Completes .triggerFiring s fun t => t = { s with look := t.look } ∧ t.look.due = rest ∧
          t.look.nextCapture = s.look.nextCapture + 1 ∧ t.look.trig[i].last = some f.tTrig ∧
          ∃ c : Capture, t.look.captures = s.look.captures ++ [c] ∧ c.id = s.look.nextCapture ∧ c.held = false ∧ c.trigger = i.val ∧
            c.tTrig = f.tTrig ∧ c.tStart = f.tTrig - trigPar s.settings i.val 2 * ms ∧ c.tEnd = f.tTrig + trigPar s.settings i.val 3 * ms))) ∧
    (s.look.due = [] → s.timeTriggers ≠ [] → Completes .triggerFiring s fun t => ∃ b ∈ s.timeTriggers, (∀ y ∈ s.timeTriggers, b.2 ≤ y.2) ∧
      t.time = (s.untilDev b.2).time ∧ (∀ i : Fin 16, i.val = b.1 → t.look.trig[i].timeDone = true) ∧ t.settings = s.settings ∧ t.ports = s.ports) ∧
    (∀ id, s.look.captures.find? (fun c => c.id == id && !c.held) = none → exec (.capturePinning id) s = .next s) ∧
    (¬ CaveOpen s → (∀ id, exec (.capturePinning id) s = .next s) ∧ ∀ b, exec (.reanalysisEnd b) s = .next s) ∧
    (∀ id c, CaveOpen s → s.look.captures.find? (fun c => c.id == id && !c.held) = some c → Completes (.capturePinning id) s fun t =>
      ((∃ x ∈ t.look.captures, x.id = id ∧ x.held = true ∧ x.tEnd = c.tEnd ∧ x.tTrig = c.tTrig ∧ c.tStart ≤ x.tStart) ∨
        ((∀ x ∈ t.look.captures, x.id ≠ id) ∧ ∀ i : Fin 16, i.val = c.trigger → t.look.trig[i].failed = s.look.trig[i].failed + 1)) ∧
      (c.sections = 0 → ∃ x ∈ t.look.captures, x.id = id ∧ x.held = true ∧ x.tStart = c.tStart ∧ x.tEnd = c.tEnd) ∧
      (s.boot.inReset = false → t.ev.pend.getLsbD 240 = true) ∧ t.time = (s.untilDev c.tEnd).time ∧ t.settings = s.settings ∧ t.ports = s.ports) ∧
    (∀ id, (s.look.captures.find? (fun c => c.id == id && c.held) = none ∨ s.settings.dev 0x0217 = 0) → exec (.capHoldExpiry id) s = .next s) ∧
    (∀ id c, s.look.captures.find? (fun c => c.id == id && c.held) = some c → s.settings.dev 0x0217 ≠ 0 → Completes (.capHoldExpiry id) s fun t =>
      t.look.captures = s.look.captures.filter (fun x => x.id != id) ∧ t.look.reserveUsed ≤ s.look.reserveUsed ∧
      t.time.mono = max s.time.mono (c.pinnedAt + s.settings.dev 0x0217 * sec) ∧ t.settings = s.settings ∧ t.ports = s.ports ∧ t.ev = s.ev) ∧
    (∀ b, s.look.jobs = [] → exec (.reanalysisEnd b) s = .next s) ∧
    (∀ b j js, CaveOpen s → s.look.jobs = j :: js → Completes (.reanalysisEnd b) s fun t => t.look.jobs = js ∧ (s.boot.inReset = false → t.ev.pend.getLsbD 241 = true) ∧
      t.settings = s.settings ∧ t.ports = s.ports ∧ t.zones = s.zones ∧ t.time = s.time ∧ t.look.captures = s.look.captures)

/-- The reset columns of the register tables; LAT_SHUT as R571 has it (log entry 155, DEDUCED). -/
def Obligations.ResetRegisterValues : Prop :=
  State.reset.sdc.ctl = 0x400 ∧ State.reset.sdc.stat = 0x10000 ∧ (∀ p : PortIx, State.reset.ports[p].rxcCtl = 0x04062012 ∧
    State.reset.ports[p].rxcWin = 0x01000050 ∧ State.reset.ports[p].even = 0x1D ∧ State.reset.ports[p].gateOpen = false) ∧
  State.reset.clk.ctl = 0xA08 ∧ State.reset.clk.fs = 0xFA0 ∧ State.reset.clk.ckg0 = 0x7FF ∧ State.reset.clk.ckg1 = 0xFFFFFF ∧
  State.reset.clk.fctl = 0x1409 ∧ State.reset.tiu.ctl = 0x3C1 ∧ State.reset.axc1.ctl = 0x200 ∧
  (∀ i : Fin 32, fld State.reset.axc1.seq[i] 0 8 = i.val ∧ State.reset.axc1.lim[i] = 0xFFFF0000) ∧
  (∀ n : PressIx, State.reset.press[n].ctl = 9) ∧ State.reset.ladle.stat = 0x541C00 ∧ State.reset.ev.pend = 0 ∧ State.reset.ev.en = 0 ∧
  State.reset.boot.inReset = true ∧ State.reset.boot.pwrStat = 0 ∧ (∀ g : Fin 16, State.reset.shut[g] = false) ∧
  (∀ e : Fin 128, State.reset.emOn[e] = false)
end

