-- ==== Sys2Proof/Laws/State.lean ====
section
/-! SUPPORT. What each named update of the state leaves in each field: one lemma per field per update. -/

namespace Sys2Proof.Machine

variable (s : State)

/-! ### `modPort` -/

@[simp] theorem State.modPort_pending (p : PortIx) (f : Port → Port) : (s.modPort p f).pending = s.pending := rfl
@[simp] theorem State.modPort_out (p : PortIx) (f : Port → Port) : (s.modPort p f).out = s.out := rfl
@[simp] theorem State.modPort_free (p : PortIx) (f : Port → Port) : (s.modPort p f).free = s.free := rfl
@[simp] theorem State.modPort_time (p : PortIx) (f : Port → Port) : (s.modPort p f).time = s.time := rfl
@[simp] theorem State.modPort_glb (p : PortIx) (f : Port → Port) : (s.modPort p f).glb = s.glb := rfl
@[simp] theorem State.modPort_ev (p : PortIx) (f : Port → Port) : (s.modPort p f).ev = s.ev := rfl
@[simp] theorem State.modPort_settings (p : PortIx) (f : Port → Port) : (s.modPort p f).settings = s.settings := rfl
@[simp] theorem State.modPort_commits (p : PortIx) (f : Port → Port) : (s.modPort p f).commits = s.commits := rfl
@[simp] theorem State.modPort_sessions (p : PortIx) (f : Port → Port) : (s.modPort p f).sessions = s.sessions := rfl
@[simp] theorem State.modPort_ports (p : PortIx) (f : Port → Port) : (s.modPort p f).ports = s.ports.set p (f s.ports[p]) := rfl
@[simp] theorem State.modPort_lanes (p : PortIx) (f : Port → Port) : (s.modPort p f).lanes = s.lanes := rfl
@[simp] theorem State.modPort_pipes (p : PortIx) (f : Port → Port) : (s.modPort p f).pipes = s.pipes := rfl
@[simp] theorem State.modPort_sdc (p : PortIx) (f : Port → Port) : (s.modPort p f).sdc = s.sdc := rfl
@[simp] theorem State.modPort_shut (p : PortIx) (f : Port → Port) : (s.modPort p f).shut = s.shut := rfl
@[simp] theorem State.modPort_emOn (p : PortIx) (f : Port → Port) : (s.modPort p f).emOn = s.emOn := rfl
@[simp] theorem State.modPort_clk (p : PortIx) (f : Port → Port) : (s.modPort p f).clk = s.clk := rfl
@[simp] theorem State.modPort_tiu (p : PortIx) (f : Port → Port) : (s.modPort p f).tiu = s.tiu := rfl
@[simp] theorem State.modPort_axc1 (p : PortIx) (f : Port → Port) : (s.modPort p f).axc1 = s.axc1 := rfl
@[simp] theorem State.modPort_rind (p : PortIx) (f : Port → Port) : (s.modPort p f).rind = s.rind := rfl
@[simp] theorem State.modPort_rindMain (p : PortIx) (f : Port → Port) : (s.modPort p f).rindMain = s.rindMain := rfl
@[simp] theorem State.modPort_engines (p : PortIx) (f : Port → Port) : (s.modPort p f).engines = s.engines := rfl
@[simp] theorem State.modPort_images (p : PortIx) (f : Port → Port) : (s.modPort p f).images = s.images := rfl
@[simp] theorem State.modPort_loads (p : PortIx) (f : Port → Port) : (s.modPort p f).loads = s.loads := rfl
@[simp] theorem State.modPort_press (p : PortIx) (f : Port → Port) : (s.modPort p f).press = s.press := rfl
@[simp] theorem State.modPort_jobs (p : PortIx) (f : Port → Port) : (s.modPort p f).jobs = s.jobs := rfl
@[simp] theorem State.modPort_savedJobs (p : PortIx) (f : Port → Port) : (s.modPort p f).savedJobs = s.savedJobs := rfl
@[simp] theorem State.modPort_hostArea (p : PortIx) (f : Port → Port) : (s.modPort p f).hostArea = s.hostArea := rfl
@[simp] theorem State.modPort_zones (p : PortIx) (f : Port → Port) : (s.modPort p f).zones = s.zones := rfl
@[simp] theorem State.modPort_ladle (p : PortIx) (f : Port → Port) : (s.modPort p f).ladle = s.ladle := rfl
@[simp] theorem State.modPort_look (p : PortIx) (f : Port → Port) : (s.modPort p f).look = s.look := rfl
@[simp] theorem State.modPort_links (p : PortIx) (f : Port → Port) : (s.modPort p f).links = s.links := rfl
@[simp] theorem State.modPort_streams (p : PortIx) (f : Port → Port) : (s.modPort p f).streams = s.streams := rfl
@[simp] theorem State.modPort_boot (p : PortIx) (f : Port → Port) : (s.modPort p f).boot = s.boot := rfl
@[simp] theorem State.modPort_aon (p : PortIx) (f : Port → Port) : (s.modPort p f).aon = s.aon := rfl

/-! ### `modLane` -/

@[simp] theorem State.modLane_pending (n : LaneIx) (f : Lane → Lane) : (s.modLane n f).pending = s.pending := rfl
@[simp] theorem State.modLane_out (n : LaneIx) (f : Lane → Lane) : (s.modLane n f).out = s.out := rfl
@[simp] theorem State.modLane_free (n : LaneIx) (f : Lane → Lane) : (s.modLane n f).free = s.free := rfl
@[simp] theorem State.modLane_time (n : LaneIx) (f : Lane → Lane) : (s.modLane n f).time = s.time := rfl
@[simp] theorem State.modLane_glb (n : LaneIx) (f : Lane → Lane) : (s.modLane n f).glb = s.glb := rfl
@[simp] theorem State.modLane_ev (n : LaneIx) (f : Lane → Lane) : (s.modLane n f).ev = s.ev := rfl
@[simp] theorem State.modLane_settings (n : LaneIx) (f : Lane → Lane) : (s.modLane n f).settings = s.settings := rfl
@[simp] theorem State.modLane_commits (n : LaneIx) (f : Lane → Lane) : (s.modLane n f).commits = s.commits := rfl
@[simp] theorem State.modLane_sessions (n : LaneIx) (f : Lane → Lane) : (s.modLane n f).sessions = s.sessions := rfl
@[simp] theorem State.modLane_ports (n : LaneIx) (f : Lane → Lane) : (s.modLane n f).ports = s.ports := rfl
@[simp] theorem State.modLane_lanes (n : LaneIx) (f : Lane → Lane) : (s.modLane n f).lanes = s.lanes.set n (f s.lanes[n]) := rfl
@[simp] theorem State.modLane_pipes (n : LaneIx) (f : Lane → Lane) : (s.modLane n f).pipes = s.pipes := rfl
@[simp] theorem State.modLane_sdc (n : LaneIx) (f : Lane → Lane) : (s.modLane n f).sdc = s.sdc := rfl
@[simp] theorem State.modLane_shut (n : LaneIx) (f : Lane → Lane) : (s.modLane n f).shut = s.shut := rfl
@[simp] theorem State.modLane_emOn (n : LaneIx) (f : Lane → Lane) : (s.modLane n f).emOn = s.emOn := rfl
@[simp] theorem State.modLane_clk (n : LaneIx) (f : Lane → Lane) : (s.modLane n f).clk = s.clk := rfl
@[simp] theorem State.modLane_tiu (n : LaneIx) (f : Lane → Lane) : (s.modLane n f).tiu = s.tiu := rfl
@[simp] theorem State.modLane_axc1 (n : LaneIx) (f : Lane → Lane) : (s.modLane n f).axc1 = s.axc1 := rfl
@[simp] theorem State.modLane_rind (n : LaneIx) (f : Lane → Lane) : (s.modLane n f).rind = s.rind := rfl
@[simp] theorem State.modLane_rindMain (n : LaneIx) (f : Lane → Lane) : (s.modLane n f).rindMain = s.rindMain := rfl
@[simp] theorem State.modLane_engines (n : LaneIx) (f : Lane → Lane) : (s.modLane n f).engines = s.engines := rfl
@[simp] theorem State.modLane_images (n : LaneIx) (f : Lane → Lane) : (s.modLane n f).images = s.images := rfl
@[simp] theorem State.modLane_loads (n : LaneIx) (f : Lane → Lane) : (s.modLane n f).loads = s.loads := rfl
@[simp] theorem State.modLane_press (n : LaneIx) (f : Lane → Lane) : (s.modLane n f).press = s.press := rfl
@[simp] theorem State.modLane_jobs (n : LaneIx) (f : Lane → Lane) : (s.modLane n f).jobs = s.jobs := rfl
@[simp] theorem State.modLane_savedJobs (n : LaneIx) (f : Lane → Lane) : (s.modLane n f).savedJobs = s.savedJobs := rfl
@[simp] theorem State.modLane_hostArea (n : LaneIx) (f : Lane → Lane) : (s.modLane n f).hostArea = s.hostArea := rfl
@[simp] theorem State.modLane_zones (n : LaneIx) (f : Lane → Lane) : (s.modLane n f).zones = s.zones := rfl
@[simp] theorem State.modLane_ladle (n : LaneIx) (f : Lane → Lane) : (s.modLane n f).ladle = s.ladle := rfl
@[simp] theorem State.modLane_look (n : LaneIx) (f : Lane → Lane) : (s.modLane n f).look = s.look := rfl
@[simp] theorem State.modLane_links (n : LaneIx) (f : Lane → Lane) : (s.modLane n f).links = s.links := rfl
@[simp] theorem State.modLane_streams (n : LaneIx) (f : Lane → Lane) : (s.modLane n f).streams = s.streams := rfl
@[simp] theorem State.modLane_boot (n : LaneIx) (f : Lane → Lane) : (s.modLane n f).boot = s.boot := rfl
@[simp] theorem State.modLane_aon (n : LaneIx) (f : Lane → Lane) : (s.modLane n f).aon = s.aon := rfl

/-! ### `modPipe` -/

@[simp] theorem State.modPipe_pending (n : PipeIx) (f : Pipe → Pipe) : (s.modPipe n f).pending = s.pending := rfl
@[simp] theorem State.modPipe_out (n : PipeIx) (f : Pipe → Pipe) : (s.modPipe n f).out = s.out := rfl
@[simp] theorem State.modPipe_free (n : PipeIx) (f : Pipe → Pipe) : (s.modPipe n f).free = s.free := rfl
@[simp] theorem State.modPipe_time (n : PipeIx) (f : Pipe → Pipe) : (s.modPipe n f).time = s.time := rfl
@[simp] theorem State.modPipe_glb (n : PipeIx) (f : Pipe → Pipe) : (s.modPipe n f).glb = s.glb := rfl
@[simp] theorem State.modPipe_ev (n : PipeIx) (f : Pipe → Pipe) : (s.modPipe n f).ev = s.ev := rfl
@[simp] theorem State.modPipe_settings (n : PipeIx) (f : Pipe → Pipe) : (s.modPipe n f).settings = s.settings := rfl
@[simp] theorem State.modPipe_commits (n : PipeIx) (f : Pipe → Pipe) : (s.modPipe n f).commits = s.commits := rfl
@[simp] theorem State.modPipe_sessions (n : PipeIx) (f : Pipe → Pipe) : (s.modPipe n f).sessions = s.sessions := rfl
@[simp] theorem State.modPipe_ports (n : PipeIx) (f : Pipe → Pipe) : (s.modPipe n f).ports = s.ports := rfl
@[simp] theorem State.modPipe_lanes (n : PipeIx) (f : Pipe → Pipe) : (s.modPipe n f).lanes = s.lanes := rfl
@[simp] theorem State.modPipe_pipes (n : PipeIx) (f : Pipe → Pipe) : (s.modPipe n f).pipes = s.pipes.set n (f s.pipes[n]) := rfl
@[simp] theorem State.modPipe_sdc (n : PipeIx) (f : Pipe → Pipe) : (s.modPipe n f).sdc = s.sdc := rfl
@[simp] theorem State.modPipe_shut (n : PipeIx) (f : Pipe → Pipe) : (s.modPipe n f).shut = s.shut := rfl
@[simp] theorem State.modPipe_emOn (n : PipeIx) (f : Pipe → Pipe) : (s.modPipe n f).emOn = s.emOn := rfl
@[simp] theorem State.modPipe_clk (n : PipeIx) (f : Pipe → Pipe) : (s.modPipe n f).clk = s.clk := rfl
@[simp] theorem State.modPipe_tiu (n : PipeIx) (f : Pipe → Pipe) : (s.modPipe n f).tiu = s.tiu := rfl
@[simp] theorem State.modPipe_axc1 (n : PipeIx) (f : Pipe → Pipe) : (s.modPipe n f).axc1 = s.axc1 := rfl
@[simp] theorem State.modPipe_rind (n : PipeIx) (f : Pipe → Pipe) : (s.modPipe n f).rind = s.rind := rfl
@[simp] theorem State.modPipe_rindMain (n : PipeIx) (f : Pipe → Pipe) : (s.modPipe n f).rindMain = s.rindMain := rfl
@[simp] theorem State.modPipe_engines (n : PipeIx) (f : Pipe → Pipe) : (s.modPipe n f).engines = s.engines := rfl
@[simp] theorem State.modPipe_images (n : PipeIx) (f : Pipe → Pipe) : (s.modPipe n f).images = s.images := rfl
@[simp] theorem State.modPipe_loads (n : PipeIx) (f : Pipe → Pipe) : (s.modPipe n f).loads = s.loads := rfl
@[simp] theorem State.modPipe_press (n : PipeIx) (f : Pipe → Pipe) : (s.modPipe n f).press = s.press := rfl
@[simp] theorem State.modPipe_jobs (n : PipeIx) (f : Pipe → Pipe) : (s.modPipe n f).jobs = s.jobs := rfl
@[simp] theorem State.modPipe_savedJobs (n : PipeIx) (f : Pipe → Pipe) : (s.modPipe n f).savedJobs = s.savedJobs := rfl
@[simp] theorem State.modPipe_hostArea (n : PipeIx) (f : Pipe → Pipe) : (s.modPipe n f).hostArea = s.hostArea := rfl
@[simp] theorem State.modPipe_zones (n : PipeIx) (f : Pipe → Pipe) : (s.modPipe n f).zones = s.zones := rfl
@[simp] theorem State.modPipe_ladle (n : PipeIx) (f : Pipe → Pipe) : (s.modPipe n f).ladle = s.ladle := rfl
@[simp] theorem State.modPipe_look (n : PipeIx) (f : Pipe → Pipe) : (s.modPipe n f).look = s.look := rfl
@[simp] theorem State.modPipe_links (n : PipeIx) (f : Pipe → Pipe) : (s.modPipe n f).links = s.links := rfl
@[simp] theorem State.modPipe_streams (n : PipeIx) (f : Pipe → Pipe) : (s.modPipe n f).streams = s.streams := rfl
@[simp] theorem State.modPipe_boot (n : PipeIx) (f : Pipe → Pipe) : (s.modPipe n f).boot = s.boot := rfl
@[simp] theorem State.modPipe_aon (n : PipeIx) (f : Pipe → Pipe) : (s.modPipe n f).aon = s.aon := rfl

/-! ### `modEng` -/

@[simp] theorem State.modEng_pending (n : EngIx) (f : Engine → Engine) : (s.modEng n f).pending = s.pending := rfl
@[simp] theorem State.modEng_out (n : EngIx) (f : Engine → Engine) : (s.modEng n f).out = s.out := rfl
@[simp] theorem State.modEng_free (n : EngIx) (f : Engine → Engine) : (s.modEng n f).free = s.free := rfl
@[simp] theorem State.modEng_time (n : EngIx) (f : Engine → Engine) : (s.modEng n f).time = s.time := rfl
@[simp] theorem State.modEng_glb (n : EngIx) (f : Engine → Engine) : (s.modEng n f).glb = s.glb := rfl
@[simp] theorem State.modEng_ev (n : EngIx) (f : Engine → Engine) : (s.modEng n f).ev = s.ev := rfl
@[simp] theorem State.modEng_settings (n : EngIx) (f : Engine → Engine) : (s.modEng n f).settings = s.settings := rfl
@[simp] theorem State.modEng_commits (n : EngIx) (f : Engine → Engine) : (s.modEng n f).commits = s.commits := rfl
@[simp] theorem State.modEng_sessions (n : EngIx) (f : Engine → Engine) : (s.modEng n f).sessions = s.sessions := rfl
@[simp] theorem State.modEng_ports (n : EngIx) (f : Engine → Engine) : (s.modEng n f).ports = s.ports := rfl
@[simp] theorem State.modEng_lanes (n : EngIx) (f : Engine → Engine) : (s.modEng n f).lanes = s.lanes := rfl
@[simp] theorem State.modEng_pipes (n : EngIx) (f : Engine → Engine) : (s.modEng n f).pipes = s.pipes := rfl
@[simp] theorem State.modEng_sdc (n : EngIx) (f : Engine → Engine) : (s.modEng n f).sdc = s.sdc := rfl
@[simp] theorem State.modEng_shut (n : EngIx) (f : Engine → Engine) : (s.modEng n f).shut = s.shut := rfl
@[simp] theorem State.modEng_emOn (n : EngIx) (f : Engine → Engine) : (s.modEng n f).emOn = s.emOn := rfl
@[simp] theorem State.modEng_clk (n : EngIx) (f : Engine → Engine) : (s.modEng n f).clk = s.clk := rfl
@[simp] theorem State.modEng_tiu (n : EngIx) (f : Engine → Engine) : (s.modEng n f).tiu = s.tiu := rfl
@[simp] theorem State.modEng_axc1 (n : EngIx) (f : Engine → Engine) : (s.modEng n f).axc1 = s.axc1 := rfl
@[simp] theorem State.modEng_rind (n : EngIx) (f : Engine → Engine) : (s.modEng n f).rind = s.rind := rfl
@[simp] theorem State.modEng_rindMain (n : EngIx) (f : Engine → Engine) : (s.modEng n f).rindMain = s.rindMain := rfl
@[simp] theorem State.modEng_engines (n : EngIx) (f : Engine → Engine) : (s.modEng n f).engines = s.engines.set n (f s.engines[n]) := rfl
@[simp] theorem State.modEng_images (n : EngIx) (f : Engine → Engine) : (s.modEng n f).images = s.images := rfl
@[simp] theorem State.modEng_loads (n : EngIx) (f : Engine → Engine) : (s.modEng n f).loads = s.loads := rfl
@[simp] theorem State.modEng_press (n : EngIx) (f : Engine → Engine) : (s.modEng n f).press = s.press := rfl
@[simp] theorem State.modEng_jobs (n : EngIx) (f : Engine → Engine) : (s.modEng n f).jobs = s.jobs := rfl
@[simp] theorem State.modEng_savedJobs (n : EngIx) (f : Engine → Engine) : (s.modEng n f).savedJobs = s.savedJobs := rfl
@[simp] theorem State.modEng_hostArea (n : EngIx) (f : Engine → Engine) : (s.modEng n f).hostArea = s.hostArea := rfl
@[simp] theorem State.modEng_zones (n : EngIx) (f : Engine → Engine) : (s.modEng n f).zones = s.zones := rfl
@[simp] theorem State.modEng_ladle (n : EngIx) (f : Engine → Engine) : (s.modEng n f).ladle = s.ladle := rfl
@[simp] theorem State.modEng_look (n : EngIx) (f : Engine → Engine) : (s.modEng n f).look = s.look := rfl
@[simp] theorem State.modEng_links (n : EngIx) (f : Engine → Engine) : (s.modEng n f).links = s.links := rfl
@[simp] theorem State.modEng_streams (n : EngIx) (f : Engine → Engine) : (s.modEng n f).streams = s.streams := rfl
@[simp] theorem State.modEng_boot (n : EngIx) (f : Engine → Engine) : (s.modEng n f).boot = s.boot := rfl
@[simp] theorem State.modEng_aon (n : EngIx) (f : Engine → Engine) : (s.modEng n f).aon = s.aon := rfl

/-! ### `modPress` -/

@[simp] theorem State.modPress_pending (n : PressIx) (f : PressLane → PressLane) : (s.modPress n f).pending = s.pending := rfl
@[simp] theorem State.modPress_out (n : PressIx) (f : PressLane → PressLane) : (s.modPress n f).out = s.out := rfl
@[simp] theorem State.modPress_free (n : PressIx) (f : PressLane → PressLane) : (s.modPress n f).free = s.free := rfl
@[simp] theorem State.modPress_time (n : PressIx) (f : PressLane → PressLane) : (s.modPress n f).time = s.time := rfl
@[simp] theorem State.modPress_glb (n : PressIx) (f : PressLane → PressLane) : (s.modPress n f).glb = s.glb := rfl
@[simp] theorem State.modPress_ev (n : PressIx) (f : PressLane → PressLane) : (s.modPress n f).ev = s.ev := rfl
@[simp] theorem State.modPress_settings (n : PressIx) (f : PressLane → PressLane) : (s.modPress n f).settings = s.settings := rfl
@[simp] theorem State.modPress_commits (n : PressIx) (f : PressLane → PressLane) : (s.modPress n f).commits = s.commits := rfl
@[simp] theorem State.modPress_sessions (n : PressIx) (f : PressLane → PressLane) : (s.modPress n f).sessions = s.sessions := rfl
@[simp] theorem State.modPress_ports (n : PressIx) (f : PressLane → PressLane) : (s.modPress n f).ports = s.ports := rfl
@[simp] theorem State.modPress_lanes (n : PressIx) (f : PressLane → PressLane) : (s.modPress n f).lanes = s.lanes := rfl
@[simp] theorem State.modPress_pipes (n : PressIx) (f : PressLane → PressLane) : (s.modPress n f).pipes = s.pipes := rfl
@[simp] theorem State.modPress_sdc (n : PressIx) (f : PressLane → PressLane) : (s.modPress n f).sdc = s.sdc := rfl
@[simp] theorem State.modPress_shut (n : PressIx) (f : PressLane → PressLane) : (s.modPress n f).shut = s.shut := rfl
@[simp] theorem State.modPress_emOn (n : PressIx) (f : PressLane → PressLane) : (s.modPress n f).emOn = s.emOn := rfl
@[simp] theorem State.modPress_clk (n : PressIx) (f : PressLane → PressLane) : (s.modPress n f).clk = s.clk := rfl
@[simp] theorem State.modPress_tiu (n : PressIx) (f : PressLane → PressLane) : (s.modPress n f).tiu = s.tiu := rfl
@[simp] theorem State.modPress_axc1 (n : PressIx) (f : PressLane → PressLane) : (s.modPress n f).axc1 = s.axc1 := rfl
@[simp] theorem State.modPress_rind (n : PressIx) (f : PressLane → PressLane) : (s.modPress n f).rind = s.rind := rfl
@[simp] theorem State.modPress_rindMain (n : PressIx) (f : PressLane → PressLane) : (s.modPress n f).rindMain = s.rindMain := rfl
@[simp] theorem State.modPress_engines (n : PressIx) (f : PressLane → PressLane) : (s.modPress n f).engines = s.engines := rfl
@[simp] theorem State.modPress_images (n : PressIx) (f : PressLane → PressLane) : (s.modPress n f).images = s.images := rfl
@[simp] theorem State.modPress_loads (n : PressIx) (f : PressLane → PressLane) : (s.modPress n f).loads = s.loads := rfl
@[simp] theorem State.modPress_press (n : PressIx) (f : PressLane → PressLane) : (s.modPress n f).press = s.press.set n (f s.press[n]) := rfl
@[simp] theorem State.modPress_jobs (n : PressIx) (f : PressLane → PressLane) : (s.modPress n f).jobs = s.jobs := rfl
@[simp] theorem State.modPress_savedJobs (n : PressIx) (f : PressLane → PressLane) : (s.modPress n f).savedJobs = s.savedJobs := rfl
@[simp] theorem State.modPress_hostArea (n : PressIx) (f : PressLane → PressLane) : (s.modPress n f).hostArea = s.hostArea := rfl
@[simp] theorem State.modPress_zones (n : PressIx) (f : PressLane → PressLane) : (s.modPress n f).zones = s.zones := rfl
@[simp] theorem State.modPress_ladle (n : PressIx) (f : PressLane → PressLane) : (s.modPress n f).ladle = s.ladle := rfl
@[simp] theorem State.modPress_look (n : PressIx) (f : PressLane → PressLane) : (s.modPress n f).look = s.look := rfl
@[simp] theorem State.modPress_links (n : PressIx) (f : PressLane → PressLane) : (s.modPress n f).links = s.links := rfl
@[simp] theorem State.modPress_streams (n : PressIx) (f : PressLane → PressLane) : (s.modPress n f).streams = s.streams := rfl
@[simp] theorem State.modPress_boot (n : PressIx) (f : PressLane → PressLane) : (s.modPress n f).boot = s.boot := rfl
@[simp] theorem State.modPress_aon (n : PressIx) (f : PressLane → PressLane) : (s.modPress n f).aon = s.aon := rfl

/-! ### `modSess` -/

@[simp] theorem State.modSess_pending (n : SessIx) (f : Session → Session) : (s.modSess n f).pending = s.pending := rfl
@[simp] theorem State.modSess_out (n : SessIx) (f : Session → Session) : (s.modSess n f).out = s.out := rfl
@[simp] theorem State.modSess_free (n : SessIx) (f : Session → Session) : (s.modSess n f).free = s.free := rfl
@[simp] theorem State.modSess_time (n : SessIx) (f : Session → Session) : (s.modSess n f).time = s.time := rfl
@[simp] theorem State.modSess_glb (n : SessIx) (f : Session → Session) : (s.modSess n f).glb = s.glb := rfl
@[simp] theorem State.modSess_ev (n : SessIx) (f : Session → Session) : (s.modSess n f).ev = s.ev := rfl
@[simp] theorem State.modSess_settings (n : SessIx) (f : Session → Session) : (s.modSess n f).settings = s.settings := rfl
@[simp] theorem State.modSess_commits (n : SessIx) (f : Session → Session) : (s.modSess n f).commits = s.commits := rfl
@[simp] theorem State.modSess_sessions (n : SessIx) (f : Session → Session) : (s.modSess n f).sessions = s.sessions.set n (f s.sessions[n]) := rfl
@[simp] theorem State.modSess_ports (n : SessIx) (f : Session → Session) : (s.modSess n f).ports = s.ports := rfl
@[simp] theorem State.modSess_lanes (n : SessIx) (f : Session → Session) : (s.modSess n f).lanes = s.lanes := rfl
@[simp] theorem State.modSess_pipes (n : SessIx) (f : Session → Session) : (s.modSess n f).pipes = s.pipes := rfl
@[simp] theorem State.modSess_sdc (n : SessIx) (f : Session → Session) : (s.modSess n f).sdc = s.sdc := rfl
@[simp] theorem State.modSess_shut (n : SessIx) (f : Session → Session) : (s.modSess n f).shut = s.shut := rfl
@[simp] theorem State.modSess_emOn (n : SessIx) (f : Session → Session) : (s.modSess n f).emOn = s.emOn := rfl
@[simp] theorem State.modSess_clk (n : SessIx) (f : Session → Session) : (s.modSess n f).clk = s.clk := rfl
@[simp] theorem State.modSess_tiu (n : SessIx) (f : Session → Session) : (s.modSess n f).tiu = s.tiu := rfl
@[simp] theorem State.modSess_axc1 (n : SessIx) (f : Session → Session) : (s.modSess n f).axc1 = s.axc1 := rfl
@[simp] theorem State.modSess_rind (n : SessIx) (f : Session → Session) : (s.modSess n f).rind = s.rind := rfl
@[simp] theorem State.modSess_rindMain (n : SessIx) (f : Session → Session) : (s.modSess n f).rindMain = s.rindMain := rfl
@[simp] theorem State.modSess_engines (n : SessIx) (f : Session → Session) : (s.modSess n f).engines = s.engines := rfl
@[simp] theorem State.modSess_images (n : SessIx) (f : Session → Session) : (s.modSess n f).images = s.images := rfl
@[simp] theorem State.modSess_loads (n : SessIx) (f : Session → Session) : (s.modSess n f).loads = s.loads := rfl
@[simp] theorem State.modSess_press (n : SessIx) (f : Session → Session) : (s.modSess n f).press = s.press := rfl
@[simp] theorem State.modSess_jobs (n : SessIx) (f : Session → Session) : (s.modSess n f).jobs = s.jobs := rfl
@[simp] theorem State.modSess_savedJobs (n : SessIx) (f : Session → Session) : (s.modSess n f).savedJobs = s.savedJobs := rfl
@[simp] theorem State.modSess_hostArea (n : SessIx) (f : Session → Session) : (s.modSess n f).hostArea = s.hostArea := rfl
@[simp] theorem State.modSess_zones (n : SessIx) (f : Session → Session) : (s.modSess n f).zones = s.zones := rfl
@[simp] theorem State.modSess_ladle (n : SessIx) (f : Session → Session) : (s.modSess n f).ladle = s.ladle := rfl
@[simp] theorem State.modSess_look (n : SessIx) (f : Session → Session) : (s.modSess n f).look = s.look := rfl
@[simp] theorem State.modSess_links (n : SessIx) (f : Session → Session) : (s.modSess n f).links = s.links := rfl
@[simp] theorem State.modSess_streams (n : SessIx) (f : Session → Session) : (s.modSess n f).streams = s.streams := rfl
@[simp] theorem State.modSess_boot (n : SessIx) (f : Session → Session) : (s.modSess n f).boot = s.boot := rfl
@[simp] theorem State.modSess_aon (n : SessIx) (f : Session → Session) : (s.modSess n f).aon = s.aon := rfl

/-! ### `modSdc` -/

@[simp] theorem State.modSdc_pending (f : Sdc → Sdc) : (s.modSdc f).pending = s.pending := rfl
@[simp] theorem State.modSdc_out (f : Sdc → Sdc) : (s.modSdc f).out = s.out := rfl
@[simp] theorem State.modSdc_free (f : Sdc → Sdc) : (s.modSdc f).free = s.free := rfl
@[simp] theorem State.modSdc_time (f : Sdc → Sdc) : (s.modSdc f).time = s.time := rfl
@[simp] theorem State.modSdc_glb (f : Sdc → Sdc) : (s.modSdc f).glb = s.glb := rfl
@[simp] theorem State.modSdc_ev (f : Sdc → Sdc) : (s.modSdc f).ev = s.ev := rfl
@[simp] theorem State.modSdc_settings (f : Sdc → Sdc) : (s.modSdc f).settings = s.settings := rfl
@[simp] theorem State.modSdc_commits (f : Sdc → Sdc) : (s.modSdc f).commits = s.commits := rfl
@[simp] theorem State.modSdc_sessions (f : Sdc → Sdc) : (s.modSdc f).sessions = s.sessions := rfl
@[simp] theorem State.modSdc_ports (f : Sdc → Sdc) : (s.modSdc f).ports = s.ports := rfl
@[simp] theorem State.modSdc_lanes (f : Sdc → Sdc) : (s.modSdc f).lanes = s.lanes := rfl
@[simp] theorem State.modSdc_pipes (f : Sdc → Sdc) : (s.modSdc f).pipes = s.pipes := rfl
@[simp] theorem State.modSdc_sdc (f : Sdc → Sdc) : (s.modSdc f).sdc = f s.sdc := rfl
@[simp] theorem State.modSdc_shut (f : Sdc → Sdc) : (s.modSdc f).shut = s.shut := rfl
@[simp] theorem State.modSdc_emOn (f : Sdc → Sdc) : (s.modSdc f).emOn = s.emOn := rfl
@[simp] theorem State.modSdc_clk (f : Sdc → Sdc) : (s.modSdc f).clk = s.clk := rfl
@[simp] theorem State.modSdc_tiu (f : Sdc → Sdc) : (s.modSdc f).tiu = s.tiu := rfl
@[simp] theorem State.modSdc_axc1 (f : Sdc → Sdc) : (s.modSdc f).axc1 = s.axc1 := rfl
@[simp] theorem State.modSdc_rind (f : Sdc → Sdc) : (s.modSdc f).rind = s.rind := rfl
@[simp] theorem State.modSdc_rindMain (f : Sdc → Sdc) : (s.modSdc f).rindMain = s.rindMain := rfl
@[simp] theorem State.modSdc_engines (f : Sdc → Sdc) : (s.modSdc f).engines = s.engines := rfl
@[simp] theorem State.modSdc_images (f : Sdc → Sdc) : (s.modSdc f).images = s.images := rfl
@[simp] theorem State.modSdc_loads (f : Sdc → Sdc) : (s.modSdc f).loads = s.loads := rfl
@[simp] theorem State.modSdc_press (f : Sdc → Sdc) : (s.modSdc f).press = s.press := rfl
@[simp] theorem State.modSdc_jobs (f : Sdc → Sdc) : (s.modSdc f).jobs = s.jobs := rfl
@[simp] theorem State.modSdc_savedJobs (f : Sdc → Sdc) : (s.modSdc f).savedJobs = s.savedJobs := rfl
@[simp] theorem State.modSdc_hostArea (f : Sdc → Sdc) : (s.modSdc f).hostArea = s.hostArea := rfl
@[simp] theorem State.modSdc_zones (f : Sdc → Sdc) : (s.modSdc f).zones = s.zones := rfl
@[simp] theorem State.modSdc_ladle (f : Sdc → Sdc) : (s.modSdc f).ladle = s.ladle := rfl
@[simp] theorem State.modSdc_look (f : Sdc → Sdc) : (s.modSdc f).look = s.look := rfl
@[simp] theorem State.modSdc_links (f : Sdc → Sdc) : (s.modSdc f).links = s.links := rfl
@[simp] theorem State.modSdc_streams (f : Sdc → Sdc) : (s.modSdc f).streams = s.streams := rfl
@[simp] theorem State.modSdc_boot (f : Sdc → Sdc) : (s.modSdc f).boot = s.boot := rfl
@[simp] theorem State.modSdc_aon (f : Sdc → Sdc) : (s.modSdc f).aon = s.aon := rfl

/-! ### `modClk` -/

@[simp] theorem State.modClk_pending (f : Clocks → Clocks) : (s.modClk f).pending = s.pending := rfl
@[simp] theorem State.modClk_out (f : Clocks → Clocks) : (s.modClk f).out = s.out := rfl
@[simp] theorem State.modClk_free (f : Clocks → Clocks) : (s.modClk f).free = s.free := rfl
@[simp] theorem State.modClk_time (f : Clocks → Clocks) : (s.modClk f).time = s.time := rfl
@[simp] theorem State.modClk_glb (f : Clocks → Clocks) : (s.modClk f).glb = s.glb := rfl
@[simp] theorem State.modClk_ev (f : Clocks → Clocks) : (s.modClk f).ev = s.ev := rfl
@[simp] theorem State.modClk_settings (f : Clocks → Clocks) : (s.modClk f).settings = s.settings := rfl
@[simp] theorem State.modClk_commits (f : Clocks → Clocks) : (s.modClk f).commits = s.commits := rfl
@[simp] theorem State.modClk_sessions (f : Clocks → Clocks) : (s.modClk f).sessions = s.sessions := rfl
@[simp] theorem State.modClk_ports (f : Clocks → Clocks) : (s.modClk f).ports = s.ports := rfl
@[simp] theorem State.modClk_lanes (f : Clocks → Clocks) : (s.modClk f).lanes = s.lanes := rfl
@[simp] theorem State.modClk_pipes (f : Clocks → Clocks) : (s.modClk f).pipes = s.pipes := rfl
@[simp] theorem State.modClk_sdc (f : Clocks → Clocks) : (s.modClk f).sdc = s.sdc := rfl
@[simp] theorem State.modClk_shut (f : Clocks → Clocks) : (s.modClk f).shut = s.shut := rfl
@[simp] theorem State.modClk_emOn (f : Clocks → Clocks) : (s.modClk f).emOn = s.emOn := rfl
@[simp] theorem State.modClk_clk (f : Clocks → Clocks) : (s.modClk f).clk = f s.clk := rfl
@[simp] theorem State.modClk_tiu (f : Clocks → Clocks) : (s.modClk f).tiu = s.tiu := rfl
@[simp] theorem State.modClk_axc1 (f : Clocks → Clocks) : (s.modClk f).axc1 = s.axc1 := rfl
@[simp] theorem State.modClk_rind (f : Clocks → Clocks) : (s.modClk f).rind = s.rind := rfl
@[simp] theorem State.modClk_rindMain (f : Clocks → Clocks) : (s.modClk f).rindMain = s.rindMain := rfl
@[simp] theorem State.modClk_engines (f : Clocks → Clocks) : (s.modClk f).engines = s.engines := rfl
@[simp] theorem State.modClk_images (f : Clocks → Clocks) : (s.modClk f).images = s.images := rfl
@[simp] theorem State.modClk_loads (f : Clocks → Clocks) : (s.modClk f).loads = s.loads := rfl
@[simp] theorem State.modClk_press (f : Clocks → Clocks) : (s.modClk f).press = s.press := rfl
@[simp] theorem State.modClk_jobs (f : Clocks → Clocks) : (s.modClk f).jobs = s.jobs := rfl
@[simp] theorem State.modClk_savedJobs (f : Clocks → Clocks) : (s.modClk f).savedJobs = s.savedJobs := rfl
@[simp] theorem State.modClk_hostArea (f : Clocks → Clocks) : (s.modClk f).hostArea = s.hostArea := rfl
@[simp] theorem State.modClk_zones (f : Clocks → Clocks) : (s.modClk f).zones = s.zones := rfl
@[simp] theorem State.modClk_ladle (f : Clocks → Clocks) : (s.modClk f).ladle = s.ladle := rfl
@[simp] theorem State.modClk_look (f : Clocks → Clocks) : (s.modClk f).look = s.look := rfl
@[simp] theorem State.modClk_links (f : Clocks → Clocks) : (s.modClk f).links = s.links := rfl
@[simp] theorem State.modClk_streams (f : Clocks → Clocks) : (s.modClk f).streams = s.streams := rfl
@[simp] theorem State.modClk_boot (f : Clocks → Clocks) : (s.modClk f).boot = s.boot := rfl
@[simp] theorem State.modClk_aon (f : Clocks → Clocks) : (s.modClk f).aon = s.aon := rfl

/-! ### `modTiu` -/

@[simp] theorem State.modTiu_pending (f : Tiu → Tiu) : (s.modTiu f).pending = s.pending := rfl
@[simp] theorem State.modTiu_out (f : Tiu → Tiu) : (s.modTiu f).out = s.out := rfl
@[simp] theorem State.modTiu_free (f : Tiu → Tiu) : (s.modTiu f).free = s.free := rfl
@[simp] theorem State.modTiu_time (f : Tiu → Tiu) : (s.modTiu f).time = s.time := rfl
@[simp] theorem State.modTiu_glb (f : Tiu → Tiu) : (s.modTiu f).glb = s.glb := rfl
@[simp] theorem State.modTiu_ev (f : Tiu → Tiu) : (s.modTiu f).ev = s.ev := rfl
@[simp] theorem State.modTiu_settings (f : Tiu → Tiu) : (s.modTiu f).settings = s.settings := rfl
@[simp] theorem State.modTiu_commits (f : Tiu → Tiu) : (s.modTiu f).commits = s.commits := rfl
@[simp] theorem State.modTiu_sessions (f : Tiu → Tiu) : (s.modTiu f).sessions = s.sessions := rfl
@[simp] theorem State.modTiu_ports (f : Tiu → Tiu) : (s.modTiu f).ports = s.ports := rfl
@[simp] theorem State.modTiu_lanes (f : Tiu → Tiu) : (s.modTiu f).lanes = s.lanes := rfl
@[simp] theorem State.modTiu_pipes (f : Tiu → Tiu) : (s.modTiu f).pipes = s.pipes := rfl
@[simp] theorem State.modTiu_sdc (f : Tiu → Tiu) : (s.modTiu f).sdc = s.sdc := rfl
@[simp] theorem State.modTiu_shut (f : Tiu → Tiu) : (s.modTiu f).shut = s.shut := rfl
@[simp] theorem State.modTiu_emOn (f : Tiu → Tiu) : (s.modTiu f).emOn = s.emOn := rfl
@[simp] theorem State.modTiu_clk (f : Tiu → Tiu) : (s.modTiu f).clk = s.clk := rfl
@[simp] theorem State.modTiu_tiu (f : Tiu → Tiu) : (s.modTiu f).tiu = f s.tiu := rfl
@[simp] theorem State.modTiu_axc1 (f : Tiu → Tiu) : (s.modTiu f).axc1 = s.axc1 := rfl
@[simp] theorem State.modTiu_rind (f : Tiu → Tiu) : (s.modTiu f).rind = s.rind := rfl
@[simp] theorem State.modTiu_rindMain (f : Tiu → Tiu) : (s.modTiu f).rindMain = s.rindMain := rfl
@[simp] theorem State.modTiu_engines (f : Tiu → Tiu) : (s.modTiu f).engines = s.engines := rfl
@[simp] theorem State.modTiu_images (f : Tiu → Tiu) : (s.modTiu f).images = s.images := rfl
@[simp] theorem State.modTiu_loads (f : Tiu → Tiu) : (s.modTiu f).loads = s.loads := rfl
@[simp] theorem State.modTiu_press (f : Tiu → Tiu) : (s.modTiu f).press = s.press := rfl
@[simp] theorem State.modTiu_jobs (f : Tiu → Tiu) : (s.modTiu f).jobs = s.jobs := rfl
@[simp] theorem State.modTiu_savedJobs (f : Tiu → Tiu) : (s.modTiu f).savedJobs = s.savedJobs := rfl
@[simp] theorem State.modTiu_hostArea (f : Tiu → Tiu) : (s.modTiu f).hostArea = s.hostArea := rfl
@[simp] theorem State.modTiu_zones (f : Tiu → Tiu) : (s.modTiu f).zones = s.zones := rfl
@[simp] theorem State.modTiu_ladle (f : Tiu → Tiu) : (s.modTiu f).ladle = s.ladle := rfl
@[simp] theorem State.modTiu_look (f : Tiu → Tiu) : (s.modTiu f).look = s.look := rfl
@[simp] theorem State.modTiu_links (f : Tiu → Tiu) : (s.modTiu f).links = s.links := rfl
@[simp] theorem State.modTiu_streams (f : Tiu → Tiu) : (s.modTiu f).streams = s.streams := rfl
@[simp] theorem State.modTiu_boot (f : Tiu → Tiu) : (s.modTiu f).boot = s.boot := rfl
@[simp] theorem State.modTiu_aon (f : Tiu → Tiu) : (s.modTiu f).aon = s.aon := rfl

/-! ### `modAxc1` -/

@[simp] theorem State.modAxc1_pending (f : Axc1 → Axc1) : (s.modAxc1 f).pending = s.pending := rfl
@[simp] theorem State.modAxc1_out (f : Axc1 → Axc1) : (s.modAxc1 f).out = s.out := rfl
@[simp] theorem State.modAxc1_free (f : Axc1 → Axc1) : (s.modAxc1 f).free = s.free := rfl
@[simp] theorem State.modAxc1_time (f : Axc1 → Axc1) : (s.modAxc1 f).time = s.time := rfl
@[simp] theorem State.modAxc1_glb (f : Axc1 → Axc1) : (s.modAxc1 f).glb = s.glb := rfl
@[simp] theorem State.modAxc1_ev (f : Axc1 → Axc1) : (s.modAxc1 f).ev = s.ev := rfl
@[simp] theorem State.modAxc1_settings (f : Axc1 → Axc1) : (s.modAxc1 f).settings = s.settings := rfl
@[simp] theorem State.modAxc1_commits (f : Axc1 → Axc1) : (s.modAxc1 f).commits = s.commits := rfl
@[simp] theorem State.modAxc1_sessions (f : Axc1 → Axc1) : (s.modAxc1 f).sessions = s.sessions := rfl
@[simp] theorem State.modAxc1_ports (f : Axc1 → Axc1) : (s.modAxc1 f).ports = s.ports := rfl
@[simp] theorem State.modAxc1_lanes (f : Axc1 → Axc1) : (s.modAxc1 f).lanes = s.lanes := rfl
@[simp] theorem State.modAxc1_pipes (f : Axc1 → Axc1) : (s.modAxc1 f).pipes = s.pipes := rfl
@[simp] theorem State.modAxc1_sdc (f : Axc1 → Axc1) : (s.modAxc1 f).sdc = s.sdc := rfl
@[simp] theorem State.modAxc1_shut (f : Axc1 → Axc1) : (s.modAxc1 f).shut = s.shut := rfl
@[simp] theorem State.modAxc1_emOn (f : Axc1 → Axc1) : (s.modAxc1 f).emOn = s.emOn := rfl
@[simp] theorem State.modAxc1_clk (f : Axc1 → Axc1) : (s.modAxc1 f).clk = s.clk := rfl
@[simp] theorem State.modAxc1_tiu (f : Axc1 → Axc1) : (s.modAxc1 f).tiu = s.tiu := rfl
@[simp] theorem State.modAxc1_axc1 (f : Axc1 → Axc1) : (s.modAxc1 f).axc1 = f s.axc1 := rfl
@[simp] theorem State.modAxc1_rind (f : Axc1 → Axc1) : (s.modAxc1 f).rind = s.rind := rfl
@[simp] theorem State.modAxc1_rindMain (f : Axc1 → Axc1) : (s.modAxc1 f).rindMain = s.rindMain := rfl
@[simp] theorem State.modAxc1_engines (f : Axc1 → Axc1) : (s.modAxc1 f).engines = s.engines := rfl
@[simp] theorem State.modAxc1_images (f : Axc1 → Axc1) : (s.modAxc1 f).images = s.images := rfl
@[simp] theorem State.modAxc1_loads (f : Axc1 → Axc1) : (s.modAxc1 f).loads = s.loads := rfl
@[simp] theorem State.modAxc1_press (f : Axc1 → Axc1) : (s.modAxc1 f).press = s.press := rfl
@[simp] theorem State.modAxc1_jobs (f : Axc1 → Axc1) : (s.modAxc1 f).jobs = s.jobs := rfl
@[simp] theorem State.modAxc1_savedJobs (f : Axc1 → Axc1) : (s.modAxc1 f).savedJobs = s.savedJobs := rfl
@[simp] theorem State.modAxc1_hostArea (f : Axc1 → Axc1) : (s.modAxc1 f).hostArea = s.hostArea := rfl
@[simp] theorem State.modAxc1_zones (f : Axc1 → Axc1) : (s.modAxc1 f).zones = s.zones := rfl
@[simp] theorem State.modAxc1_ladle (f : Axc1 → Axc1) : (s.modAxc1 f).ladle = s.ladle := rfl
@[simp] theorem State.modAxc1_look (f : Axc1 → Axc1) : (s.modAxc1 f).look = s.look := rfl
@[simp] theorem State.modAxc1_links (f : Axc1 → Axc1) : (s.modAxc1 f).links = s.links := rfl
@[simp] theorem State.modAxc1_streams (f : Axc1 → Axc1) : (s.modAxc1 f).streams = s.streams := rfl
@[simp] theorem State.modAxc1_boot (f : Axc1 → Axc1) : (s.modAxc1 f).boot = s.boot := rfl
@[simp] theorem State.modAxc1_aon (f : Axc1 → Axc1) : (s.modAxc1 f).aon = s.aon := rfl

/-! ### `modRind` -/

@[simp] theorem State.modRind_pending (f : Rind → Rind) : (s.modRind f).pending = s.pending := rfl
@[simp] theorem State.modRind_out (f : Rind → Rind) : (s.modRind f).out = s.out := rfl
@[simp] theorem State.modRind_free (f : Rind → Rind) : (s.modRind f).free = s.free := rfl
@[simp] theorem State.modRind_time (f : Rind → Rind) : (s.modRind f).time = s.time := rfl
@[simp] theorem State.modRind_glb (f : Rind → Rind) : (s.modRind f).glb = s.glb := rfl
@[simp] theorem State.modRind_ev (f : Rind → Rind) : (s.modRind f).ev = s.ev := rfl
@[simp] theorem State.modRind_settings (f : Rind → Rind) : (s.modRind f).settings = s.settings := rfl
@[simp] theorem State.modRind_commits (f : Rind → Rind) : (s.modRind f).commits = s.commits := rfl
@[simp] theorem State.modRind_sessions (f : Rind → Rind) : (s.modRind f).sessions = s.sessions := rfl
@[simp] theorem State.modRind_ports (f : Rind → Rind) : (s.modRind f).ports = s.ports := rfl
@[simp] theorem State.modRind_lanes (f : Rind → Rind) : (s.modRind f).lanes = s.lanes := rfl
@[simp] theorem State.modRind_pipes (f : Rind → Rind) : (s.modRind f).pipes = s.pipes := rfl
@[simp] theorem State.modRind_sdc (f : Rind → Rind) : (s.modRind f).sdc = s.sdc := rfl
@[simp] theorem State.modRind_shut (f : Rind → Rind) : (s.modRind f).shut = s.shut := rfl
@[simp] theorem State.modRind_emOn (f : Rind → Rind) : (s.modRind f).emOn = s.emOn := rfl
@[simp] theorem State.modRind_clk (f : Rind → Rind) : (s.modRind f).clk = s.clk := rfl
@[simp] theorem State.modRind_tiu (f : Rind → Rind) : (s.modRind f).tiu = s.tiu := rfl
@[simp] theorem State.modRind_axc1 (f : Rind → Rind) : (s.modRind f).axc1 = s.axc1 := rfl
@[simp] theorem State.modRind_rind (f : Rind → Rind) : (s.modRind f).rind = f s.rind := rfl
@[simp] theorem State.modRind_rindMain (f : Rind → Rind) : (s.modRind f).rindMain = s.rindMain := rfl
@[simp] theorem State.modRind_engines (f : Rind → Rind) : (s.modRind f).engines = s.engines := rfl
@[simp] theorem State.modRind_images (f : Rind → Rind) : (s.modRind f).images = s.images := rfl
@[simp] theorem State.modRind_loads (f : Rind → Rind) : (s.modRind f).loads = s.loads := rfl
@[simp] theorem State.modRind_press (f : Rind → Rind) : (s.modRind f).press = s.press := rfl
@[simp] theorem State.modRind_jobs (f : Rind → Rind) : (s.modRind f).jobs = s.jobs := rfl
@[simp] theorem State.modRind_savedJobs (f : Rind → Rind) : (s.modRind f).savedJobs = s.savedJobs := rfl
@[simp] theorem State.modRind_hostArea (f : Rind → Rind) : (s.modRind f).hostArea = s.hostArea := rfl
@[simp] theorem State.modRind_zones (f : Rind → Rind) : (s.modRind f).zones = s.zones := rfl
@[simp] theorem State.modRind_ladle (f : Rind → Rind) : (s.modRind f).ladle = s.ladle := rfl
@[simp] theorem State.modRind_look (f : Rind → Rind) : (s.modRind f).look = s.look := rfl
@[simp] theorem State.modRind_links (f : Rind → Rind) : (s.modRind f).links = s.links := rfl
@[simp] theorem State.modRind_streams (f : Rind → Rind) : (s.modRind f).streams = s.streams := rfl
@[simp] theorem State.modRind_boot (f : Rind → Rind) : (s.modRind f).boot = s.boot := rfl
@[simp] theorem State.modRind_aon (f : Rind → Rind) : (s.modRind f).aon = s.aon := rfl

/-! ### `modRm` -/

@[simp] theorem State.modRm_pending (f : RindMain → RindMain) : (s.modRm f).pending = s.pending := rfl
@[simp] theorem State.modRm_out (f : RindMain → RindMain) : (s.modRm f).out = s.out := rfl
@[simp] theorem State.modRm_free (f : RindMain → RindMain) : (s.modRm f).free = s.free := rfl
@[simp] theorem State.modRm_time (f : RindMain → RindMain) : (s.modRm f).time = s.time := rfl
@[simp] theorem State.modRm_glb (f : RindMain → RindMain) : (s.modRm f).glb = s.glb := rfl
@[simp] theorem State.modRm_ev (f : RindMain → RindMain) : (s.modRm f).ev = s.ev := rfl
@[simp] theorem State.modRm_settings (f : RindMain → RindMain) : (s.modRm f).settings = s.settings := rfl
@[simp] theorem State.modRm_commits (f : RindMain → RindMain) : (s.modRm f).commits = s.commits := rfl
@[simp] theorem State.modRm_sessions (f : RindMain → RindMain) : (s.modRm f).sessions = s.sessions := rfl
@[simp] theorem State.modRm_ports (f : RindMain → RindMain) : (s.modRm f).ports = s.ports := rfl
@[simp] theorem State.modRm_lanes (f : RindMain → RindMain) : (s.modRm f).lanes = s.lanes := rfl
@[simp] theorem State.modRm_pipes (f : RindMain → RindMain) : (s.modRm f).pipes = s.pipes := rfl
@[simp] theorem State.modRm_sdc (f : RindMain → RindMain) : (s.modRm f).sdc = s.sdc := rfl
@[simp] theorem State.modRm_shut (f : RindMain → RindMain) : (s.modRm f).shut = s.shut := rfl
@[simp] theorem State.modRm_emOn (f : RindMain → RindMain) : (s.modRm f).emOn = s.emOn := rfl
@[simp] theorem State.modRm_clk (f : RindMain → RindMain) : (s.modRm f).clk = s.clk := rfl
@[simp] theorem State.modRm_tiu (f : RindMain → RindMain) : (s.modRm f).tiu = s.tiu := rfl
@[simp] theorem State.modRm_axc1 (f : RindMain → RindMain) : (s.modRm f).axc1 = s.axc1 := rfl
@[simp] theorem State.modRm_rind (f : RindMain → RindMain) : (s.modRm f).rind = s.rind := rfl
@[simp] theorem State.modRm_rindMain (f : RindMain → RindMain) : (s.modRm f).rindMain = f s.rindMain := rfl
@[simp] theorem State.modRm_engines (f : RindMain → RindMain) : (s.modRm f).engines = s.engines := rfl
@[simp] theorem State.modRm_images (f : RindMain → RindMain) : (s.modRm f).images = s.images := rfl
@[simp] theorem State.modRm_loads (f : RindMain → RindMain) : (s.modRm f).loads = s.loads := rfl
@[simp] theorem State.modRm_press (f : RindMain → RindMain) : (s.modRm f).press = s.press := rfl
@[simp] theorem State.modRm_jobs (f : RindMain → RindMain) : (s.modRm f).jobs = s.jobs := rfl
@[simp] theorem State.modRm_savedJobs (f : RindMain → RindMain) : (s.modRm f).savedJobs = s.savedJobs := rfl
@[simp] theorem State.modRm_hostArea (f : RindMain → RindMain) : (s.modRm f).hostArea = s.hostArea := rfl
@[simp] theorem State.modRm_zones (f : RindMain → RindMain) : (s.modRm f).zones = s.zones := rfl
@[simp] theorem State.modRm_ladle (f : RindMain → RindMain) : (s.modRm f).ladle = s.ladle := rfl
@[simp] theorem State.modRm_look (f : RindMain → RindMain) : (s.modRm f).look = s.look := rfl
@[simp] theorem State.modRm_links (f : RindMain → RindMain) : (s.modRm f).links = s.links := rfl
@[simp] theorem State.modRm_streams (f : RindMain → RindMain) : (s.modRm f).streams = s.streams := rfl
@[simp] theorem State.modRm_boot (f : RindMain → RindMain) : (s.modRm f).boot = s.boot := rfl
@[simp] theorem State.modRm_aon (f : RindMain → RindMain) : (s.modRm f).aon = s.aon := rfl

/-! ### `modLadle` -/

@[simp] theorem State.modLadle_pending (f : Ladle → Ladle) : (s.modLadle f).pending = s.pending := rfl
@[simp] theorem State.modLadle_out (f : Ladle → Ladle) : (s.modLadle f).out = s.out := rfl
@[simp] theorem State.modLadle_free (f : Ladle → Ladle) : (s.modLadle f).free = s.free := rfl
@[simp] theorem State.modLadle_time (f : Ladle → Ladle) : (s.modLadle f).time = s.time := rfl
@[simp] theorem State.modLadle_glb (f : Ladle → Ladle) : (s.modLadle f).glb = s.glb := rfl
@[simp] theorem State.modLadle_ev (f : Ladle → Ladle) : (s.modLadle f).ev = s.ev := rfl
@[simp] theorem State.modLadle_settings (f : Ladle → Ladle) : (s.modLadle f).settings = s.settings := rfl
@[simp] theorem State.modLadle_commits (f : Ladle → Ladle) : (s.modLadle f).commits = s.commits := rfl
@[simp] theorem State.modLadle_sessions (f : Ladle → Ladle) : (s.modLadle f).sessions = s.sessions := rfl
@[simp] theorem State.modLadle_ports (f : Ladle → Ladle) : (s.modLadle f).ports = s.ports := rfl
@[simp] theorem State.modLadle_lanes (f : Ladle → Ladle) : (s.modLadle f).lanes = s.lanes := rfl
@[simp] theorem State.modLadle_pipes (f : Ladle → Ladle) : (s.modLadle f).pipes = s.pipes := rfl
@[simp] theorem State.modLadle_sdc (f : Ladle → Ladle) : (s.modLadle f).sdc = s.sdc := rfl
@[simp] theorem State.modLadle_shut (f : Ladle → Ladle) : (s.modLadle f).shut = s.shut := rfl
@[simp] theorem State.modLadle_emOn (f : Ladle → Ladle) : (s.modLadle f).emOn = s.emOn := rfl
@[simp] theorem State.modLadle_clk (f : Ladle → Ladle) : (s.modLadle f).clk = s.clk := rfl
@[simp] theorem State.modLadle_tiu (f : Ladle → Ladle) : (s.modLadle f).tiu = s.tiu := rfl
@[simp] theorem State.modLadle_axc1 (f : Ladle → Ladle) : (s.modLadle f).axc1 = s.axc1 := rfl
@[simp] theorem State.modLadle_rind (f : Ladle → Ladle) : (s.modLadle f).rind = s.rind := rfl
@[simp] theorem State.modLadle_rindMain (f : Ladle → Ladle) : (s.modLadle f).rindMain = s.rindMain := rfl
@[simp] theorem State.modLadle_engines (f : Ladle → Ladle) : (s.modLadle f).engines = s.engines := rfl
@[simp] theorem State.modLadle_images (f : Ladle → Ladle) : (s.modLadle f).images = s.images := rfl
@[simp] theorem State.modLadle_loads (f : Ladle → Ladle) : (s.modLadle f).loads = s.loads := rfl
@[simp] theorem State.modLadle_press (f : Ladle → Ladle) : (s.modLadle f).press = s.press := rfl
@[simp] theorem State.modLadle_jobs (f : Ladle → Ladle) : (s.modLadle f).jobs = s.jobs := rfl
@[simp] theorem State.modLadle_savedJobs (f : Ladle → Ladle) : (s.modLadle f).savedJobs = s.savedJobs := rfl
@[simp] theorem State.modLadle_hostArea (f : Ladle → Ladle) : (s.modLadle f).hostArea = s.hostArea := rfl
@[simp] theorem State.modLadle_zones (f : Ladle → Ladle) : (s.modLadle f).zones = s.zones := rfl
@[simp] theorem State.modLadle_ladle (f : Ladle → Ladle) : (s.modLadle f).ladle = f s.ladle := rfl
@[simp] theorem State.modLadle_look (f : Ladle → Ladle) : (s.modLadle f).look = s.look := rfl
@[simp] theorem State.modLadle_links (f : Ladle → Ladle) : (s.modLadle f).links = s.links := rfl
@[simp] theorem State.modLadle_streams (f : Ladle → Ladle) : (s.modLadle f).streams = s.streams := rfl
@[simp] theorem State.modLadle_boot (f : Ladle → Ladle) : (s.modLadle f).boot = s.boot := rfl
@[simp] theorem State.modLadle_aon (f : Ladle → Ladle) : (s.modLadle f).aon = s.aon := rfl

/-! ### `modLook` -/

@[simp] theorem State.modLook_pending (f : Lookback → Lookback) : (s.modLook f).pending = s.pending := rfl
@[simp] theorem State.modLook_out (f : Lookback → Lookback) : (s.modLook f).out = s.out := rfl
@[simp] theorem State.modLook_free (f : Lookback → Lookback) : (s.modLook f).free = s.free := rfl
@[simp] theorem State.modLook_time (f : Lookback → Lookback) : (s.modLook f).time = s.time := rfl
@[simp] theorem State.modLook_glb (f : Lookback → Lookback) : (s.modLook f).glb = s.glb := rfl
@[simp] theorem State.modLook_ev (f : Lookback → Lookback) : (s.modLook f).ev = s.ev := rfl
@[simp] theorem State.modLook_settings (f : Lookback → Lookback) : (s.modLook f).settings = s.settings := rfl
@[simp] theorem State.modLook_commits (f : Lookback → Lookback) : (s.modLook f).commits = s.commits := rfl
@[simp] theorem State.modLook_sessions (f : Lookback → Lookback) : (s.modLook f).sessions = s.sessions := rfl
@[simp] theorem State.modLook_ports (f : Lookback → Lookback) : (s.modLook f).ports = s.ports := rfl
@[simp] theorem State.modLook_lanes (f : Lookback → Lookback) : (s.modLook f).lanes = s.lanes := rfl
@[simp] theorem State.modLook_pipes (f : Lookback → Lookback) : (s.modLook f).pipes = s.pipes := rfl
@[simp] theorem State.modLook_sdc (f : Lookback → Lookback) : (s.modLook f).sdc = s.sdc := rfl
@[simp] theorem State.modLook_shut (f : Lookback → Lookback) : (s.modLook f).shut = s.shut := rfl
@[simp] theorem State.modLook_emOn (f : Lookback → Lookback) : (s.modLook f).emOn = s.emOn := rfl
@[simp] theorem State.modLook_clk (f : Lookback → Lookback) : (s.modLook f).clk = s.clk := rfl
@[simp] theorem State.modLook_tiu (f : Lookback → Lookback) : (s.modLook f).tiu = s.tiu := rfl
@[simp] theorem State.modLook_axc1 (f : Lookback → Lookback) : (s.modLook f).axc1 = s.axc1 := rfl
@[simp] theorem State.modLook_rind (f : Lookback → Lookback) : (s.modLook f).rind = s.rind := rfl
@[simp] theorem State.modLook_rindMain (f : Lookback → Lookback) : (s.modLook f).rindMain = s.rindMain := rfl
@[simp] theorem State.modLook_engines (f : Lookback → Lookback) : (s.modLook f).engines = s.engines := rfl
@[simp] theorem State.modLook_images (f : Lookback → Lookback) : (s.modLook f).images = s.images := rfl
@[simp] theorem State.modLook_loads (f : Lookback → Lookback) : (s.modLook f).loads = s.loads := rfl
@[simp] theorem State.modLook_press (f : Lookback → Lookback) : (s.modLook f).press = s.press := rfl
@[simp] theorem State.modLook_jobs (f : Lookback → Lookback) : (s.modLook f).jobs = s.jobs := rfl
@[simp] theorem State.modLook_savedJobs (f : Lookback → Lookback) : (s.modLook f).savedJobs = s.savedJobs := rfl
@[simp] theorem State.modLook_hostArea (f : Lookback → Lookback) : (s.modLook f).hostArea = s.hostArea := rfl
@[simp] theorem State.modLook_zones (f : Lookback → Lookback) : (s.modLook f).zones = s.zones := rfl
@[simp] theorem State.modLook_ladle (f : Lookback → Lookback) : (s.modLook f).ladle = s.ladle := rfl
@[simp] theorem State.modLook_look (f : Lookback → Lookback) : (s.modLook f).look = f s.look := rfl
@[simp] theorem State.modLook_links (f : Lookback → Lookback) : (s.modLook f).links = s.links := rfl
@[simp] theorem State.modLook_streams (f : Lookback → Lookback) : (s.modLook f).streams = s.streams := rfl
@[simp] theorem State.modLook_boot (f : Lookback → Lookback) : (s.modLook f).boot = s.boot := rfl
@[simp] theorem State.modLook_aon (f : Lookback → Lookback) : (s.modLook f).aon = s.aon := rfl

/-! ### `modLinks` -/

@[simp] theorem State.modLinks_pending (f : Links → Links) : (s.modLinks f).pending = s.pending := rfl
@[simp] theorem State.modLinks_out (f : Links → Links) : (s.modLinks f).out = s.out := rfl
@[simp] theorem State.modLinks_free (f : Links → Links) : (s.modLinks f).free = s.free := rfl
@[simp] theorem State.modLinks_time (f : Links → Links) : (s.modLinks f).time = s.time := rfl
@[simp] theorem State.modLinks_glb (f : Links → Links) : (s.modLinks f).glb = s.glb := rfl
@[simp] theorem State.modLinks_ev (f : Links → Links) : (s.modLinks f).ev = s.ev := rfl
@[simp] theorem State.modLinks_settings (f : Links → Links) : (s.modLinks f).settings = s.settings := rfl
@[simp] theorem State.modLinks_commits (f : Links → Links) : (s.modLinks f).commits = s.commits := rfl
@[simp] theorem State.modLinks_sessions (f : Links → Links) : (s.modLinks f).sessions = s.sessions := rfl
@[simp] theorem State.modLinks_ports (f : Links → Links) : (s.modLinks f).ports = s.ports := rfl
@[simp] theorem State.modLinks_lanes (f : Links → Links) : (s.modLinks f).lanes = s.lanes := rfl
@[simp] theorem State.modLinks_pipes (f : Links → Links) : (s.modLinks f).pipes = s.pipes := rfl
@[simp] theorem State.modLinks_sdc (f : Links → Links) : (s.modLinks f).sdc = s.sdc := rfl
@[simp] theorem State.modLinks_shut (f : Links → Links) : (s.modLinks f).shut = s.shut := rfl
@[simp] theorem State.modLinks_emOn (f : Links → Links) : (s.modLinks f).emOn = s.emOn := rfl
@[simp] theorem State.modLinks_clk (f : Links → Links) : (s.modLinks f).clk = s.clk := rfl
@[simp] theorem State.modLinks_tiu (f : Links → Links) : (s.modLinks f).tiu = s.tiu := rfl
@[simp] theorem State.modLinks_axc1 (f : Links → Links) : (s.modLinks f).axc1 = s.axc1 := rfl
@[simp] theorem State.modLinks_rind (f : Links → Links) : (s.modLinks f).rind = s.rind := rfl
@[simp] theorem State.modLinks_rindMain (f : Links → Links) : (s.modLinks f).rindMain = s.rindMain := rfl
@[simp] theorem State.modLinks_engines (f : Links → Links) : (s.modLinks f).engines = s.engines := rfl
@[simp] theorem State.modLinks_images (f : Links → Links) : (s.modLinks f).images = s.images := rfl
@[simp] theorem State.modLinks_loads (f : Links → Links) : (s.modLinks f).loads = s.loads := rfl
@[simp] theorem State.modLinks_press (f : Links → Links) : (s.modLinks f).press = s.press := rfl
@[simp] theorem State.modLinks_jobs (f : Links → Links) : (s.modLinks f).jobs = s.jobs := rfl
@[simp] theorem State.modLinks_savedJobs (f : Links → Links) : (s.modLinks f).savedJobs = s.savedJobs := rfl
@[simp] theorem State.modLinks_hostArea (f : Links → Links) : (s.modLinks f).hostArea = s.hostArea := rfl
@[simp] theorem State.modLinks_zones (f : Links → Links) : (s.modLinks f).zones = s.zones := rfl
@[simp] theorem State.modLinks_ladle (f : Links → Links) : (s.modLinks f).ladle = s.ladle := rfl
@[simp] theorem State.modLinks_look (f : Links → Links) : (s.modLinks f).look = s.look := rfl
@[simp] theorem State.modLinks_links (f : Links → Links) : (s.modLinks f).links = f s.links := rfl
@[simp] theorem State.modLinks_streams (f : Links → Links) : (s.modLinks f).streams = s.streams := rfl
@[simp] theorem State.modLinks_boot (f : Links → Links) : (s.modLinks f).boot = s.boot := rfl
@[simp] theorem State.modLinks_aon (f : Links → Links) : (s.modLinks f).aon = s.aon := rfl

/-! ### `modGlb` -/

@[simp] theorem State.modGlb_pending (f : Glb → Glb) : (s.modGlb f).pending = s.pending := rfl
@[simp] theorem State.modGlb_out (f : Glb → Glb) : (s.modGlb f).out = s.out := rfl
@[simp] theorem State.modGlb_free (f : Glb → Glb) : (s.modGlb f).free = s.free := rfl
@[simp] theorem State.modGlb_time (f : Glb → Glb) : (s.modGlb f).time = s.time := rfl
@[simp] theorem State.modGlb_glb (f : Glb → Glb) : (s.modGlb f).glb = f s.glb := rfl
@[simp] theorem State.modGlb_ev (f : Glb → Glb) : (s.modGlb f).ev = s.ev := rfl
@[simp] theorem State.modGlb_settings (f : Glb → Glb) : (s.modGlb f).settings = s.settings := rfl
@[simp] theorem State.modGlb_commits (f : Glb → Glb) : (s.modGlb f).commits = s.commits := rfl
@[simp] theorem State.modGlb_sessions (f : Glb → Glb) : (s.modGlb f).sessions = s.sessions := rfl
@[simp] theorem State.modGlb_ports (f : Glb → Glb) : (s.modGlb f).ports = s.ports := rfl
@[simp] theorem State.modGlb_lanes (f : Glb → Glb) : (s.modGlb f).lanes = s.lanes := rfl
@[simp] theorem State.modGlb_pipes (f : Glb → Glb) : (s.modGlb f).pipes = s.pipes := rfl
@[simp] theorem State.modGlb_sdc (f : Glb → Glb) : (s.modGlb f).sdc = s.sdc := rfl
@[simp] theorem State.modGlb_shut (f : Glb → Glb) : (s.modGlb f).shut = s.shut := rfl
@[simp] theorem State.modGlb_emOn (f : Glb → Glb) : (s.modGlb f).emOn = s.emOn := rfl
@[simp] theorem State.modGlb_clk (f : Glb → Glb) : (s.modGlb f).clk = s.clk := rfl
@[simp] theorem State.modGlb_tiu (f : Glb → Glb) : (s.modGlb f).tiu = s.tiu := rfl
@[simp] theorem State.modGlb_axc1 (f : Glb → Glb) : (s.modGlb f).axc1 = s.axc1 := rfl
@[simp] theorem State.modGlb_rind (f : Glb → Glb) : (s.modGlb f).rind = s.rind := rfl
@[simp] theorem State.modGlb_rindMain (f : Glb → Glb) : (s.modGlb f).rindMain = s.rindMain := rfl
@[simp] theorem State.modGlb_engines (f : Glb → Glb) : (s.modGlb f).engines = s.engines := rfl
@[simp] theorem State.modGlb_images (f : Glb → Glb) : (s.modGlb f).images = s.images := rfl
@[simp] theorem State.modGlb_loads (f : Glb → Glb) : (s.modGlb f).loads = s.loads := rfl
@[simp] theorem State.modGlb_press (f : Glb → Glb) : (s.modGlb f).press = s.press := rfl
@[simp] theorem State.modGlb_jobs (f : Glb → Glb) : (s.modGlb f).jobs = s.jobs := rfl
@[simp] theorem State.modGlb_savedJobs (f : Glb → Glb) : (s.modGlb f).savedJobs = s.savedJobs := rfl
@[simp] theorem State.modGlb_hostArea (f : Glb → Glb) : (s.modGlb f).hostArea = s.hostArea := rfl
@[simp] theorem State.modGlb_zones (f : Glb → Glb) : (s.modGlb f).zones = s.zones := rfl
@[simp] theorem State.modGlb_ladle (f : Glb → Glb) : (s.modGlb f).ladle = s.ladle := rfl
@[simp] theorem State.modGlb_look (f : Glb → Glb) : (s.modGlb f).look = s.look := rfl
@[simp] theorem State.modGlb_links (f : Glb → Glb) : (s.modGlb f).links = s.links := rfl
@[simp] theorem State.modGlb_streams (f : Glb → Glb) : (s.modGlb f).streams = s.streams := rfl
@[simp] theorem State.modGlb_boot (f : Glb → Glb) : (s.modGlb f).boot = s.boot := rfl
@[simp] theorem State.modGlb_aon (f : Glb → Glb) : (s.modGlb f).aon = s.aon := rfl

/-! ### `modBoot` -/

@[simp] theorem State.modBoot_pending (f : Boot → Boot) : (s.modBoot f).pending = s.pending := rfl
@[simp] theorem State.modBoot_out (f : Boot → Boot) : (s.modBoot f).out = s.out := rfl
@[simp] theorem State.modBoot_free (f : Boot → Boot) : (s.modBoot f).free = s.free := rfl
@[simp] theorem State.modBoot_time (f : Boot → Boot) : (s.modBoot f).time = s.time := rfl
@[simp] theorem State.modBoot_glb (f : Boot → Boot) : (s.modBoot f).glb = s.glb := rfl
@[simp] theorem State.modBoot_ev (f : Boot → Boot) : (s.modBoot f).ev = s.ev := rfl
@[simp] theorem State.modBoot_settings (f : Boot → Boot) : (s.modBoot f).settings = s.settings := rfl
@[simp] theorem State.modBoot_commits (f : Boot → Boot) : (s.modBoot f).commits = s.commits := rfl
@[simp] theorem State.modBoot_sessions (f : Boot → Boot) : (s.modBoot f).sessions = s.sessions := rfl
@[simp] theorem State.modBoot_ports (f : Boot → Boot) : (s.modBoot f).ports = s.ports := rfl
@[simp] theorem State.modBoot_lanes (f : Boot → Boot) : (s.modBoot f).lanes = s.lanes := rfl
@[simp] theorem State.modBoot_pipes (f : Boot → Boot) : (s.modBoot f).pipes = s.pipes := rfl
@[simp] theorem State.modBoot_sdc (f : Boot → Boot) : (s.modBoot f).sdc = s.sdc := rfl
@[simp] theorem State.modBoot_shut (f : Boot → Boot) : (s.modBoot f).shut = s.shut := rfl
@[simp] theorem State.modBoot_emOn (f : Boot → Boot) : (s.modBoot f).emOn = s.emOn := rfl
@[simp] theorem State.modBoot_clk (f : Boot → Boot) : (s.modBoot f).clk = s.clk := rfl
@[simp] theorem State.modBoot_tiu (f : Boot → Boot) : (s.modBoot f).tiu = s.tiu := rfl
@[simp] theorem State.modBoot_axc1 (f : Boot → Boot) : (s.modBoot f).axc1 = s.axc1 := rfl
@[simp] theorem State.modBoot_rind (f : Boot → Boot) : (s.modBoot f).rind = s.rind := rfl
@[simp] theorem State.modBoot_rindMain (f : Boot → Boot) : (s.modBoot f).rindMain = s.rindMain := rfl
@[simp] theorem State.modBoot_engines (f : Boot → Boot) : (s.modBoot f).engines = s.engines := rfl
@[simp] theorem State.modBoot_images (f : Boot → Boot) : (s.modBoot f).images = s.images := rfl
@[simp] theorem State.modBoot_loads (f : Boot → Boot) : (s.modBoot f).loads = s.loads := rfl
@[simp] theorem State.modBoot_press (f : Boot → Boot) : (s.modBoot f).press = s.press := rfl
@[simp] theorem State.modBoot_jobs (f : Boot → Boot) : (s.modBoot f).jobs = s.jobs := rfl
@[simp] theorem State.modBoot_savedJobs (f : Boot → Boot) : (s.modBoot f).savedJobs = s.savedJobs := rfl
@[simp] theorem State.modBoot_hostArea (f : Boot → Boot) : (s.modBoot f).hostArea = s.hostArea := rfl
@[simp] theorem State.modBoot_zones (f : Boot → Boot) : (s.modBoot f).zones = s.zones := rfl
@[simp] theorem State.modBoot_ladle (f : Boot → Boot) : (s.modBoot f).ladle = s.ladle := rfl
@[simp] theorem State.modBoot_look (f : Boot → Boot) : (s.modBoot f).look = s.look := rfl
@[simp] theorem State.modBoot_links (f : Boot → Boot) : (s.modBoot f).links = s.links := rfl
@[simp] theorem State.modBoot_streams (f : Boot → Boot) : (s.modBoot f).streams = s.streams := rfl
@[simp] theorem State.modBoot_boot (f : Boot → Boot) : (s.modBoot f).boot = f s.boot := rfl
@[simp] theorem State.modBoot_aon (f : Boot → Boot) : (s.modBoot f).aon = s.aon := rfl

/-! ### `modAon` -/

@[simp] theorem State.modAon_pending (f : Aon → Aon) : (s.modAon f).pending = s.pending := rfl
@[simp] theorem State.modAon_out (f : Aon → Aon) : (s.modAon f).out = s.out := rfl
@[simp] theorem State.modAon_free (f : Aon → Aon) : (s.modAon f).free = s.free := rfl
@[simp] theorem State.modAon_time (f : Aon → Aon) : (s.modAon f).time = s.time := rfl
@[simp] theorem State.modAon_glb (f : Aon → Aon) : (s.modAon f).glb = s.glb := rfl
@[simp] theorem State.modAon_ev (f : Aon → Aon) : (s.modAon f).ev = s.ev := rfl
@[simp] theorem State.modAon_settings (f : Aon → Aon) : (s.modAon f).settings = s.settings := rfl
@[simp] theorem State.modAon_commits (f : Aon → Aon) : (s.modAon f).commits = s.commits := rfl
@[simp] theorem State.modAon_sessions (f : Aon → Aon) : (s.modAon f).sessions = s.sessions := rfl
@[simp] theorem State.modAon_ports (f : Aon → Aon) : (s.modAon f).ports = s.ports := rfl
@[simp] theorem State.modAon_lanes (f : Aon → Aon) : (s.modAon f).lanes = s.lanes := rfl
@[simp] theorem State.modAon_pipes (f : Aon → Aon) : (s.modAon f).pipes = s.pipes := rfl
@[simp] theorem State.modAon_sdc (f : Aon → Aon) : (s.modAon f).sdc = s.sdc := rfl
@[simp] theorem State.modAon_shut (f : Aon → Aon) : (s.modAon f).shut = s.shut := rfl
@[simp] theorem State.modAon_emOn (f : Aon → Aon) : (s.modAon f).emOn = s.emOn := rfl
@[simp] theorem State.modAon_clk (f : Aon → Aon) : (s.modAon f).clk = s.clk := rfl
@[simp] theorem State.modAon_tiu (f : Aon → Aon) : (s.modAon f).tiu = s.tiu := rfl
@[simp] theorem State.modAon_axc1 (f : Aon → Aon) : (s.modAon f).axc1 = s.axc1 := rfl
@[simp] theorem State.modAon_rind (f : Aon → Aon) : (s.modAon f).rind = s.rind := rfl
@[simp] theorem State.modAon_rindMain (f : Aon → Aon) : (s.modAon f).rindMain = s.rindMain := rfl
@[simp] theorem State.modAon_engines (f : Aon → Aon) : (s.modAon f).engines = s.engines := rfl
@[simp] theorem State.modAon_images (f : Aon → Aon) : (s.modAon f).images = s.images := rfl
@[simp] theorem State.modAon_loads (f : Aon → Aon) : (s.modAon f).loads = s.loads := rfl
@[simp] theorem State.modAon_press (f : Aon → Aon) : (s.modAon f).press = s.press := rfl
@[simp] theorem State.modAon_jobs (f : Aon → Aon) : (s.modAon f).jobs = s.jobs := rfl
@[simp] theorem State.modAon_savedJobs (f : Aon → Aon) : (s.modAon f).savedJobs = s.savedJobs := rfl
@[simp] theorem State.modAon_hostArea (f : Aon → Aon) : (s.modAon f).hostArea = s.hostArea := rfl
@[simp] theorem State.modAon_zones (f : Aon → Aon) : (s.modAon f).zones = s.zones := rfl
@[simp] theorem State.modAon_ladle (f : Aon → Aon) : (s.modAon f).ladle = s.ladle := rfl
@[simp] theorem State.modAon_look (f : Aon → Aon) : (s.modAon f).look = s.look := rfl
@[simp] theorem State.modAon_links (f : Aon → Aon) : (s.modAon f).links = s.links := rfl
@[simp] theorem State.modAon_streams (f : Aon → Aon) : (s.modAon f).streams = s.streams := rfl
@[simp] theorem State.modAon_boot (f : Aon → Aon) : (s.modAon f).boot = s.boot := rfl
@[simp] theorem State.modAon_aon (f : Aon → Aon) : (s.modAon f).aon = f s.aon := rfl

/-! ### `modEth` -/

@[simp] theorem State.modEth_pending (n : Fin 2) (f : Eth → Eth) : (s.modEth n f).pending = s.pending := rfl
@[simp] theorem State.modEth_out (n : Fin 2) (f : Eth → Eth) : (s.modEth n f).out = s.out := rfl
@[simp] theorem State.modEth_free (n : Fin 2) (f : Eth → Eth) : (s.modEth n f).free = s.free := rfl
@[simp] theorem State.modEth_time (n : Fin 2) (f : Eth → Eth) : (s.modEth n f).time = s.time := rfl
@[simp] theorem State.modEth_glb (n : Fin 2) (f : Eth → Eth) : (s.modEth n f).glb = s.glb := rfl
@[simp] theorem State.modEth_ev (n : Fin 2) (f : Eth → Eth) : (s.modEth n f).ev = s.ev := rfl
@[simp] theorem State.modEth_settings (n : Fin 2) (f : Eth → Eth) : (s.modEth n f).settings = s.settings := rfl
@[simp] theorem State.modEth_commits (n : Fin 2) (f : Eth → Eth) : (s.modEth n f).commits = s.commits := rfl
@[simp] theorem State.modEth_sessions (n : Fin 2) (f : Eth → Eth) : (s.modEth n f).sessions = s.sessions := rfl
@[simp] theorem State.modEth_ports (n : Fin 2) (f : Eth → Eth) : (s.modEth n f).ports = s.ports := rfl
@[simp] theorem State.modEth_lanes (n : Fin 2) (f : Eth → Eth) : (s.modEth n f).lanes = s.lanes := rfl
@[simp] theorem State.modEth_pipes (n : Fin 2) (f : Eth → Eth) : (s.modEth n f).pipes = s.pipes := rfl
@[simp] theorem State.modEth_sdc (n : Fin 2) (f : Eth → Eth) : (s.modEth n f).sdc = s.sdc := rfl
@[simp] theorem State.modEth_shut (n : Fin 2) (f : Eth → Eth) : (s.modEth n f).shut = s.shut := rfl
@[simp] theorem State.modEth_emOn (n : Fin 2) (f : Eth → Eth) : (s.modEth n f).emOn = s.emOn := rfl
@[simp] theorem State.modEth_clk (n : Fin 2) (f : Eth → Eth) : (s.modEth n f).clk = s.clk := rfl
@[simp] theorem State.modEth_tiu (n : Fin 2) (f : Eth → Eth) : (s.modEth n f).tiu = s.tiu := rfl
@[simp] theorem State.modEth_axc1 (n : Fin 2) (f : Eth → Eth) : (s.modEth n f).axc1 = s.axc1 := rfl
@[simp] theorem State.modEth_rind (n : Fin 2) (f : Eth → Eth) : (s.modEth n f).rind = s.rind := rfl
@[simp] theorem State.modEth_rindMain (n : Fin 2) (f : Eth → Eth) : (s.modEth n f).rindMain = s.rindMain := rfl
@[simp] theorem State.modEth_engines (n : Fin 2) (f : Eth → Eth) : (s.modEth n f).engines = s.engines := rfl
@[simp] theorem State.modEth_images (n : Fin 2) (f : Eth → Eth) : (s.modEth n f).images = s.images := rfl
@[simp] theorem State.modEth_loads (n : Fin 2) (f : Eth → Eth) : (s.modEth n f).loads = s.loads := rfl
@[simp] theorem State.modEth_press (n : Fin 2) (f : Eth → Eth) : (s.modEth n f).press = s.press := rfl
@[simp] theorem State.modEth_jobs (n : Fin 2) (f : Eth → Eth) : (s.modEth n f).jobs = s.jobs := rfl
@[simp] theorem State.modEth_savedJobs (n : Fin 2) (f : Eth → Eth) : (s.modEth n f).savedJobs = s.savedJobs := rfl
@[simp] theorem State.modEth_hostArea (n : Fin 2) (f : Eth → Eth) : (s.modEth n f).hostArea = s.hostArea := rfl
@[simp] theorem State.modEth_zones (n : Fin 2) (f : Eth → Eth) : (s.modEth n f).zones = s.zones := rfl
@[simp] theorem State.modEth_ladle (n : Fin 2) (f : Eth → Eth) : (s.modEth n f).ladle = s.ladle := rfl
@[simp] theorem State.modEth_look (n : Fin 2) (f : Eth → Eth) : (s.modEth n f).look = s.look := rfl
@[simp] theorem State.modEth_links (n : Fin 2) (f : Eth → Eth) : (s.modEth n f).links = { s.links with eth := s.links.eth.set n (f s.links.eth[n]) } := rfl
@[simp] theorem State.modEth_streams (n : Fin 2) (f : Eth → Eth) : (s.modEth n f).streams = s.streams := rfl
@[simp] theorem State.modEth_boot (n : Fin 2) (f : Eth → Eth) : (s.modEth n f).boot = s.boot := rfl
@[simp] theorem State.modEth_aon (n : Fin 2) (f : Eth → Eth) : (s.modEth n f).aon = s.aon := rfl

/-! ### `modCr` -/

@[simp] theorem State.modCr_pending (n : Fin 4) (f : CmdRing → CmdRing) : (s.modCr n f).pending = s.pending := rfl
@[simp] theorem State.modCr_out (n : Fin 4) (f : CmdRing → CmdRing) : (s.modCr n f).out = s.out := rfl
@[simp] theorem State.modCr_free (n : Fin 4) (f : CmdRing → CmdRing) : (s.modCr n f).free = s.free := rfl
@[simp] theorem State.modCr_time (n : Fin 4) (f : CmdRing → CmdRing) : (s.modCr n f).time = s.time := rfl
@[simp] theorem State.modCr_glb (n : Fin 4) (f : CmdRing → CmdRing) : (s.modCr n f).glb = s.glb := rfl
@[simp] theorem State.modCr_ev (n : Fin 4) (f : CmdRing → CmdRing) : (s.modCr n f).ev = s.ev := rfl
@[simp] theorem State.modCr_settings (n : Fin 4) (f : CmdRing → CmdRing) : (s.modCr n f).settings = s.settings := rfl
@[simp] theorem State.modCr_commits (n : Fin 4) (f : CmdRing → CmdRing) : (s.modCr n f).commits = s.commits := rfl
@[simp] theorem State.modCr_sessions (n : Fin 4) (f : CmdRing → CmdRing) : (s.modCr n f).sessions = s.sessions := rfl
@[simp] theorem State.modCr_ports (n : Fin 4) (f : CmdRing → CmdRing) : (s.modCr n f).ports = s.ports := rfl
@[simp] theorem State.modCr_lanes (n : Fin 4) (f : CmdRing → CmdRing) : (s.modCr n f).lanes = s.lanes := rfl
@[simp] theorem State.modCr_pipes (n : Fin 4) (f : CmdRing → CmdRing) : (s.modCr n f).pipes = s.pipes := rfl
@[simp] theorem State.modCr_sdc (n : Fin 4) (f : CmdRing → CmdRing) : (s.modCr n f).sdc = s.sdc := rfl
@[simp] theorem State.modCr_shut (n : Fin 4) (f : CmdRing → CmdRing) : (s.modCr n f).shut = s.shut := rfl
@[simp] theorem State.modCr_emOn (n : Fin 4) (f : CmdRing → CmdRing) : (s.modCr n f).emOn = s.emOn := rfl
@[simp] theorem State.modCr_clk (n : Fin 4) (f : CmdRing → CmdRing) : (s.modCr n f).clk = s.clk := rfl
@[simp] theorem State.modCr_tiu (n : Fin 4) (f : CmdRing → CmdRing) : (s.modCr n f).tiu = s.tiu := rfl
@[simp] theorem State.modCr_axc1 (n : Fin 4) (f : CmdRing → CmdRing) : (s.modCr n f).axc1 = s.axc1 := rfl
@[simp] theorem State.modCr_rind (n : Fin 4) (f : CmdRing → CmdRing) : (s.modCr n f).rind = s.rind := rfl
@[simp] theorem State.modCr_rindMain (n : Fin 4) (f : CmdRing → CmdRing) : (s.modCr n f).rindMain = s.rindMain := rfl
@[simp] theorem State.modCr_engines (n : Fin 4) (f : CmdRing → CmdRing) : (s.modCr n f).engines = s.engines := rfl
@[simp] theorem State.modCr_images (n : Fin 4) (f : CmdRing → CmdRing) : (s.modCr n f).images = s.images := rfl
@[simp] theorem State.modCr_loads (n : Fin 4) (f : CmdRing → CmdRing) : (s.modCr n f).loads = s.loads := rfl
@[simp] theorem State.modCr_press (n : Fin 4) (f : CmdRing → CmdRing) : (s.modCr n f).press = s.press := rfl
@[simp] theorem State.modCr_jobs (n : Fin 4) (f : CmdRing → CmdRing) : (s.modCr n f).jobs = s.jobs := rfl
@[simp] theorem State.modCr_savedJobs (n : Fin 4) (f : CmdRing → CmdRing) : (s.modCr n f).savedJobs = s.savedJobs := rfl
@[simp] theorem State.modCr_hostArea (n : Fin 4) (f : CmdRing → CmdRing) : (s.modCr n f).hostArea = s.hostArea := rfl
@[simp] theorem State.modCr_zones (n : Fin 4) (f : CmdRing → CmdRing) : (s.modCr n f).zones = s.zones := rfl
@[simp] theorem State.modCr_ladle (n : Fin 4) (f : CmdRing → CmdRing) : (s.modCr n f).ladle = s.ladle := rfl
@[simp] theorem State.modCr_look (n : Fin 4) (f : CmdRing → CmdRing) : (s.modCr n f).look = s.look := rfl
@[simp] theorem State.modCr_links (n : Fin 4) (f : CmdRing → CmdRing) : (s.modCr n f).links = { s.links with cr := s.links.cr.set n (f s.links.cr[n]) } := rfl
@[simp] theorem State.modCr_streams (n : Fin 4) (f : CmdRing → CmdRing) : (s.modCr n f).streams = s.streams := rfl
@[simp] theorem State.modCr_boot (n : Fin 4) (f : CmdRing → CmdRing) : (s.modCr n f).boot = s.boot := rfl
@[simp] theorem State.modCr_aon (n : Fin 4) (f : CmdRing → CmdRing) : (s.modCr n f).aon = s.aon := rfl

/-! ### `modSr` -/

@[simp] theorem State.modSr_pending (n : Fin 64) (f : StreamRing → StreamRing) : (s.modSr n f).pending = s.pending := rfl
@[simp] theorem State.modSr_out (n : Fin 64) (f : StreamRing → StreamRing) : (s.modSr n f).out = s.out := rfl
@[simp] theorem State.modSr_free (n : Fin 64) (f : StreamRing → StreamRing) : (s.modSr n f).free = s.free := rfl
@[simp] theorem State.modSr_time (n : Fin 64) (f : StreamRing → StreamRing) : (s.modSr n f).time = s.time := rfl
@[simp] theorem State.modSr_glb (n : Fin 64) (f : StreamRing → StreamRing) : (s.modSr n f).glb = s.glb := rfl
@[simp] theorem State.modSr_ev (n : Fin 64) (f : StreamRing → StreamRing) : (s.modSr n f).ev = s.ev := rfl
@[simp] theorem State.modSr_settings (n : Fin 64) (f : StreamRing → StreamRing) : (s.modSr n f).settings = s.settings := rfl
@[simp] theorem State.modSr_commits (n : Fin 64) (f : StreamRing → StreamRing) : (s.modSr n f).commits = s.commits := rfl
@[simp] theorem State.modSr_sessions (n : Fin 64) (f : StreamRing → StreamRing) : (s.modSr n f).sessions = s.sessions := rfl
@[simp] theorem State.modSr_ports (n : Fin 64) (f : StreamRing → StreamRing) : (s.modSr n f).ports = s.ports := rfl
@[simp] theorem State.modSr_lanes (n : Fin 64) (f : StreamRing → StreamRing) : (s.modSr n f).lanes = s.lanes := rfl
@[simp] theorem State.modSr_pipes (n : Fin 64) (f : StreamRing → StreamRing) : (s.modSr n f).pipes = s.pipes := rfl
@[simp] theorem State.modSr_sdc (n : Fin 64) (f : StreamRing → StreamRing) : (s.modSr n f).sdc = s.sdc := rfl
@[simp] theorem State.modSr_shut (n : Fin 64) (f : StreamRing → StreamRing) : (s.modSr n f).shut = s.shut := rfl
@[simp] theorem State.modSr_emOn (n : Fin 64) (f : StreamRing → StreamRing) : (s.modSr n f).emOn = s.emOn := rfl
@[simp] theorem State.modSr_clk (n : Fin 64) (f : StreamRing → StreamRing) : (s.modSr n f).clk = s.clk := rfl
@[simp] theorem State.modSr_tiu (n : Fin 64) (f : StreamRing → StreamRing) : (s.modSr n f).tiu = s.tiu := rfl
@[simp] theorem State.modSr_axc1 (n : Fin 64) (f : StreamRing → StreamRing) : (s.modSr n f).axc1 = s.axc1 := rfl
@[simp] theorem State.modSr_rind (n : Fin 64) (f : StreamRing → StreamRing) : (s.modSr n f).rind = s.rind := rfl
@[simp] theorem State.modSr_rindMain (n : Fin 64) (f : StreamRing → StreamRing) : (s.modSr n f).rindMain = s.rindMain := rfl
@[simp] theorem State.modSr_engines (n : Fin 64) (f : StreamRing → StreamRing) : (s.modSr n f).engines = s.engines := rfl
@[simp] theorem State.modSr_images (n : Fin 64) (f : StreamRing → StreamRing) : (s.modSr n f).images = s.images := rfl
@[simp] theorem State.modSr_loads (n : Fin 64) (f : StreamRing → StreamRing) : (s.modSr n f).loads = s.loads := rfl
@[simp] theorem State.modSr_press (n : Fin 64) (f : StreamRing → StreamRing) : (s.modSr n f).press = s.press := rfl
@[simp] theorem State.modSr_jobs (n : Fin 64) (f : StreamRing → StreamRing) : (s.modSr n f).jobs = s.jobs := rfl
@[simp] theorem State.modSr_savedJobs (n : Fin 64) (f : StreamRing → StreamRing) : (s.modSr n f).savedJobs = s.savedJobs := rfl
@[simp] theorem State.modSr_hostArea (n : Fin 64) (f : StreamRing → StreamRing) : (s.modSr n f).hostArea = s.hostArea := rfl
@[simp] theorem State.modSr_zones (n : Fin 64) (f : StreamRing → StreamRing) : (s.modSr n f).zones = s.zones := rfl
@[simp] theorem State.modSr_ladle (n : Fin 64) (f : StreamRing → StreamRing) : (s.modSr n f).ladle = s.ladle := rfl
@[simp] theorem State.modSr_look (n : Fin 64) (f : StreamRing → StreamRing) : (s.modSr n f).look = s.look := rfl
@[simp] theorem State.modSr_links (n : Fin 64) (f : StreamRing → StreamRing) : (s.modSr n f).links = { s.links with sr := s.links.sr.set n (f s.links.sr[n]) } := rfl
@[simp] theorem State.modSr_streams (n : Fin 64) (f : StreamRing → StreamRing) : (s.modSr n f).streams = s.streams := rfl
@[simp] theorem State.modSr_boot (n : Fin 64) (f : StreamRing → StreamRing) : (s.modSr n f).boot = s.boot := rfl
@[simp] theorem State.modSr_aon (n : Fin 64) (f : StreamRing → StreamRing) : (s.modSr n f).aon = s.aon := rfl

/-! ### `modZone` -/

@[simp] theorem State.modZone_pending (z : Nat) (f : ZoneRt → ZoneRt) : (s.modZone z f).pending = s.pending := rfl
@[simp] theorem State.modZone_out (z : Nat) (f : ZoneRt → ZoneRt) : (s.modZone z f).out = s.out := rfl
@[simp] theorem State.modZone_free (z : Nat) (f : ZoneRt → ZoneRt) : (s.modZone z f).free = s.free := rfl
@[simp] theorem State.modZone_time (z : Nat) (f : ZoneRt → ZoneRt) : (s.modZone z f).time = s.time := rfl
@[simp] theorem State.modZone_glb (z : Nat) (f : ZoneRt → ZoneRt) : (s.modZone z f).glb = s.glb := rfl
@[simp] theorem State.modZone_ev (z : Nat) (f : ZoneRt → ZoneRt) : (s.modZone z f).ev = s.ev := rfl
@[simp] theorem State.modZone_settings (z : Nat) (f : ZoneRt → ZoneRt) : (s.modZone z f).settings = s.settings := rfl
@[simp] theorem State.modZone_commits (z : Nat) (f : ZoneRt → ZoneRt) : (s.modZone z f).commits = s.commits := rfl
@[simp] theorem State.modZone_sessions (z : Nat) (f : ZoneRt → ZoneRt) : (s.modZone z f).sessions = s.sessions := rfl
@[simp] theorem State.modZone_ports (z : Nat) (f : ZoneRt → ZoneRt) : (s.modZone z f).ports = s.ports := rfl
@[simp] theorem State.modZone_lanes (z : Nat) (f : ZoneRt → ZoneRt) : (s.modZone z f).lanes = s.lanes := rfl
@[simp] theorem State.modZone_pipes (z : Nat) (f : ZoneRt → ZoneRt) : (s.modZone z f).pipes = s.pipes := rfl
@[simp] theorem State.modZone_sdc (z : Nat) (f : ZoneRt → ZoneRt) : (s.modZone z f).sdc = s.sdc := rfl
@[simp] theorem State.modZone_shut (z : Nat) (f : ZoneRt → ZoneRt) : (s.modZone z f).shut = s.shut := rfl
@[simp] theorem State.modZone_emOn (z : Nat) (f : ZoneRt → ZoneRt) : (s.modZone z f).emOn = s.emOn := rfl
@[simp] theorem State.modZone_clk (z : Nat) (f : ZoneRt → ZoneRt) : (s.modZone z f).clk = s.clk := rfl
@[simp] theorem State.modZone_tiu (z : Nat) (f : ZoneRt → ZoneRt) : (s.modZone z f).tiu = s.tiu := rfl
@[simp] theorem State.modZone_axc1 (z : Nat) (f : ZoneRt → ZoneRt) : (s.modZone z f).axc1 = s.axc1 := rfl
@[simp] theorem State.modZone_rind (z : Nat) (f : ZoneRt → ZoneRt) : (s.modZone z f).rind = s.rind := rfl
@[simp] theorem State.modZone_rindMain (z : Nat) (f : ZoneRt → ZoneRt) : (s.modZone z f).rindMain = s.rindMain := rfl
@[simp] theorem State.modZone_engines (z : Nat) (f : ZoneRt → ZoneRt) : (s.modZone z f).engines = s.engines := rfl
@[simp] theorem State.modZone_images (z : Nat) (f : ZoneRt → ZoneRt) : (s.modZone z f).images = s.images := rfl
@[simp] theorem State.modZone_loads (z : Nat) (f : ZoneRt → ZoneRt) : (s.modZone z f).loads = s.loads := rfl
@[simp] theorem State.modZone_press (z : Nat) (f : ZoneRt → ZoneRt) : (s.modZone z f).press = s.press := rfl
@[simp] theorem State.modZone_jobs (z : Nat) (f : ZoneRt → ZoneRt) : (s.modZone z f).jobs = s.jobs := rfl
@[simp] theorem State.modZone_savedJobs (z : Nat) (f : ZoneRt → ZoneRt) : (s.modZone z f).savedJobs = s.savedJobs := rfl
@[simp] theorem State.modZone_hostArea (z : Nat) (f : ZoneRt → ZoneRt) : (s.modZone z f).hostArea = s.hostArea := rfl
@[simp] theorem State.modZone_zones (z : Nat) (f : ZoneRt → ZoneRt) : (s.modZone z f).zones = s.zones.map fun r => if r.id == z then f r else r := rfl
@[simp] theorem State.modZone_ladle (z : Nat) (f : ZoneRt → ZoneRt) : (s.modZone z f).ladle = s.ladle := rfl
@[simp] theorem State.modZone_look (z : Nat) (f : ZoneRt → ZoneRt) : (s.modZone z f).look = s.look := rfl
@[simp] theorem State.modZone_links (z : Nat) (f : ZoneRt → ZoneRt) : (s.modZone z f).links = s.links := rfl
@[simp] theorem State.modZone_streams (z : Nat) (f : ZoneRt → ZoneRt) : (s.modZone z f).streams = s.streams := rfl
@[simp] theorem State.modZone_boot (z : Nat) (f : ZoneRt → ZoneRt) : (s.modZone z f).boot = s.boot := rfl
@[simp] theorem State.modZone_aon (z : Nat) (f : ZoneRt → ZoneRt) : (s.modZone z f).aon = s.aon := rfl

/-! ### `modEv` -/

@[simp] theorem State.modEv_pending (f : Events → Events) : (s.modEv f).pending = s.pending := rfl
@[simp] theorem State.modEv_out (f : Events → Events) : (s.modEv f).out = s.out := rfl
@[simp] theorem State.modEv_free (f : Events → Events) : (s.modEv f).free = s.free := rfl
@[simp] theorem State.modEv_time (f : Events → Events) : (s.modEv f).time = s.time := rfl
@[simp] theorem State.modEv_glb (f : Events → Events) : (s.modEv f).glb = s.glb := rfl
@[simp] theorem State.modEv_ev (f : Events → Events) : (s.modEv f).ev = f s.ev := rfl
@[simp] theorem State.modEv_settings (f : Events → Events) : (s.modEv f).settings = s.settings := rfl
@[simp] theorem State.modEv_commits (f : Events → Events) : (s.modEv f).commits = s.commits := rfl
@[simp] theorem State.modEv_sessions (f : Events → Events) : (s.modEv f).sessions = s.sessions := rfl
@[simp] theorem State.modEv_ports (f : Events → Events) : (s.modEv f).ports = s.ports := rfl
@[simp] theorem State.modEv_lanes (f : Events → Events) : (s.modEv f).lanes = s.lanes := rfl
@[simp] theorem State.modEv_pipes (f : Events → Events) : (s.modEv f).pipes = s.pipes := rfl
@[simp] theorem State.modEv_sdc (f : Events → Events) : (s.modEv f).sdc = s.sdc := rfl
@[simp] theorem State.modEv_shut (f : Events → Events) : (s.modEv f).shut = s.shut := rfl
@[simp] theorem State.modEv_emOn (f : Events → Events) : (s.modEv f).emOn = s.emOn := rfl
@[simp] theorem State.modEv_clk (f : Events → Events) : (s.modEv f).clk = s.clk := rfl
@[simp] theorem State.modEv_tiu (f : Events → Events) : (s.modEv f).tiu = s.tiu := rfl
@[simp] theorem State.modEv_axc1 (f : Events → Events) : (s.modEv f).axc1 = s.axc1 := rfl
@[simp] theorem State.modEv_rind (f : Events → Events) : (s.modEv f).rind = s.rind := rfl
@[simp] theorem State.modEv_rindMain (f : Events → Events) : (s.modEv f).rindMain = s.rindMain := rfl
@[simp] theorem State.modEv_engines (f : Events → Events) : (s.modEv f).engines = s.engines := rfl
@[simp] theorem State.modEv_images (f : Events → Events) : (s.modEv f).images = s.images := rfl
@[simp] theorem State.modEv_loads (f : Events → Events) : (s.modEv f).loads = s.loads := rfl
@[simp] theorem State.modEv_press (f : Events → Events) : (s.modEv f).press = s.press := rfl
@[simp] theorem State.modEv_jobs (f : Events → Events) : (s.modEv f).jobs = s.jobs := rfl
@[simp] theorem State.modEv_savedJobs (f : Events → Events) : (s.modEv f).savedJobs = s.savedJobs := rfl
@[simp] theorem State.modEv_hostArea (f : Events → Events) : (s.modEv f).hostArea = s.hostArea := rfl
@[simp] theorem State.modEv_zones (f : Events → Events) : (s.modEv f).zones = s.zones := rfl
@[simp] theorem State.modEv_ladle (f : Events → Events) : (s.modEv f).ladle = s.ladle := rfl
@[simp] theorem State.modEv_look (f : Events → Events) : (s.modEv f).look = s.look := rfl
@[simp] theorem State.modEv_links (f : Events → Events) : (s.modEv f).links = s.links := rfl
@[simp] theorem State.modEv_streams (f : Events → Events) : (s.modEv f).streams = s.streams := rfl
@[simp] theorem State.modEv_boot (f : Events → Events) : (s.modEv f).boot = s.boot := rfl
@[simp] theorem State.modEv_aon (f : Events → Events) : (s.modEv f).aon = s.aon := rfl

/-! ### `modStreams` -/

@[simp] theorem State.modStreams_pending (f : Streams → Streams) : (s.modStreams f).pending = s.pending := rfl
@[simp] theorem State.modStreams_out (f : Streams → Streams) : (s.modStreams f).out = s.out := rfl
@[simp] theorem State.modStreams_free (f : Streams → Streams) : (s.modStreams f).free = s.free := rfl
@[simp] theorem State.modStreams_time (f : Streams → Streams) : (s.modStreams f).time = s.time := rfl
@[simp] theorem State.modStreams_glb (f : Streams → Streams) : (s.modStreams f).glb = s.glb := rfl
@[simp] theorem State.modStreams_ev (f : Streams → Streams) : (s.modStreams f).ev = s.ev := rfl
@[simp] theorem State.modStreams_settings (f : Streams → Streams) : (s.modStreams f).settings = s.settings := rfl
@[simp] theorem State.modStreams_commits (f : Streams → Streams) : (s.modStreams f).commits = s.commits := rfl
@[simp] theorem State.modStreams_sessions (f : Streams → Streams) : (s.modStreams f).sessions = s.sessions := rfl
@[simp] theorem State.modStreams_ports (f : Streams → Streams) : (s.modStreams f).ports = s.ports := rfl
@[simp] theorem State.modStreams_lanes (f : Streams → Streams) : (s.modStreams f).lanes = s.lanes := rfl
@[simp] theorem State.modStreams_pipes (f : Streams → Streams) : (s.modStreams f).pipes = s.pipes := rfl
@[simp] theorem State.modStreams_sdc (f : Streams → Streams) : (s.modStreams f).sdc = s.sdc := rfl
@[simp] theorem State.modStreams_shut (f : Streams → Streams) : (s.modStreams f).shut = s.shut := rfl
@[simp] theorem State.modStreams_emOn (f : Streams → Streams) : (s.modStreams f).emOn = s.emOn := rfl
@[simp] theorem State.modStreams_clk (f : Streams → Streams) : (s.modStreams f).clk = s.clk := rfl
@[simp] theorem State.modStreams_tiu (f : Streams → Streams) : (s.modStreams f).tiu = s.tiu := rfl
@[simp] theorem State.modStreams_axc1 (f : Streams → Streams) : (s.modStreams f).axc1 = s.axc1 := rfl
@[simp] theorem State.modStreams_rind (f : Streams → Streams) : (s.modStreams f).rind = s.rind := rfl
@[simp] theorem State.modStreams_rindMain (f : Streams → Streams) : (s.modStreams f).rindMain = s.rindMain := rfl
@[simp] theorem State.modStreams_engines (f : Streams → Streams) : (s.modStreams f).engines = s.engines := rfl
@[simp] theorem State.modStreams_images (f : Streams → Streams) : (s.modStreams f).images = s.images := rfl
@[simp] theorem State.modStreams_loads (f : Streams → Streams) : (s.modStreams f).loads = s.loads := rfl
@[simp] theorem State.modStreams_press (f : Streams → Streams) : (s.modStreams f).press = s.press := rfl
@[simp] theorem State.modStreams_jobs (f : Streams → Streams) : (s.modStreams f).jobs = s.jobs := rfl
@[simp] theorem State.modStreams_savedJobs (f : Streams → Streams) : (s.modStreams f).savedJobs = s.savedJobs := rfl
@[simp] theorem State.modStreams_hostArea (f : Streams → Streams) : (s.modStreams f).hostArea = s.hostArea := rfl
@[simp] theorem State.modStreams_zones (f : Streams → Streams) : (s.modStreams f).zones = s.zones := rfl
@[simp] theorem State.modStreams_ladle (f : Streams → Streams) : (s.modStreams f).ladle = s.ladle := rfl
@[simp] theorem State.modStreams_look (f : Streams → Streams) : (s.modStreams f).look = s.look := rfl
@[simp] theorem State.modStreams_links (f : Streams → Streams) : (s.modStreams f).links = s.links := rfl
@[simp] theorem State.modStreams_streams (f : Streams → Streams) : (s.modStreams f).streams = f s.streams := rfl
@[simp] theorem State.modStreams_boot (f : Streams → Streams) : (s.modStreams f).boot = s.boot := rfl
@[simp] theorem State.modStreams_aon (f : Streams → Streams) : (s.modStreams f).aon = s.aon := rfl

/-! ### `emit` -/

@[simp] theorem State.emit_pending (o : Output) : (s.emit o).pending = s.pending := rfl
@[simp] theorem State.emit_out (o : Output) : (s.emit o).out = s.out ++ [o] := rfl
@[simp] theorem State.emit_free (o : Output) : (s.emit o).free = s.free := rfl
@[simp] theorem State.emit_time (o : Output) : (s.emit o).time = s.time := rfl
@[simp] theorem State.emit_glb (o : Output) : (s.emit o).glb = s.glb := rfl
@[simp] theorem State.emit_ev (o : Output) : (s.emit o).ev = s.ev := rfl
@[simp] theorem State.emit_settings (o : Output) : (s.emit o).settings = s.settings := rfl
@[simp] theorem State.emit_commits (o : Output) : (s.emit o).commits = s.commits := rfl
@[simp] theorem State.emit_sessions (o : Output) : (s.emit o).sessions = s.sessions := rfl
@[simp] theorem State.emit_ports (o : Output) : (s.emit o).ports = s.ports := rfl
@[simp] theorem State.emit_lanes (o : Output) : (s.emit o).lanes = s.lanes := rfl
@[simp] theorem State.emit_pipes (o : Output) : (s.emit o).pipes = s.pipes := rfl
@[simp] theorem State.emit_sdc (o : Output) : (s.emit o).sdc = s.sdc := rfl
@[simp] theorem State.emit_shut (o : Output) : (s.emit o).shut = s.shut := rfl
@[simp] theorem State.emit_emOn (o : Output) : (s.emit o).emOn = s.emOn := rfl
@[simp] theorem State.emit_clk (o : Output) : (s.emit o).clk = s.clk := rfl
@[simp] theorem State.emit_tiu (o : Output) : (s.emit o).tiu = s.tiu := rfl
@[simp] theorem State.emit_axc1 (o : Output) : (s.emit o).axc1 = s.axc1 := rfl
@[simp] theorem State.emit_rind (o : Output) : (s.emit o).rind = s.rind := rfl
@[simp] theorem State.emit_rindMain (o : Output) : (s.emit o).rindMain = s.rindMain := rfl
@[simp] theorem State.emit_engines (o : Output) : (s.emit o).engines = s.engines := rfl
@[simp] theorem State.emit_images (o : Output) : (s.emit o).images = s.images := rfl
@[simp] theorem State.emit_loads (o : Output) : (s.emit o).loads = s.loads := rfl
@[simp] theorem State.emit_press (o : Output) : (s.emit o).press = s.press := rfl
@[simp] theorem State.emit_jobs (o : Output) : (s.emit o).jobs = s.jobs := rfl
@[simp] theorem State.emit_savedJobs (o : Output) : (s.emit o).savedJobs = s.savedJobs := rfl
@[simp] theorem State.emit_hostArea (o : Output) : (s.emit o).hostArea = s.hostArea := rfl
@[simp] theorem State.emit_zones (o : Output) : (s.emit o).zones = s.zones := rfl
@[simp] theorem State.emit_ladle (o : Output) : (s.emit o).ladle = s.ladle := rfl
@[simp] theorem State.emit_look (o : Output) : (s.emit o).look = s.look := rfl
@[simp] theorem State.emit_links (o : Output) : (s.emit o).links = s.links := rfl
@[simp] theorem State.emit_streams (o : Output) : (s.emit o).streams = s.streams := rfl
@[simp] theorem State.emit_boot (o : Output) : (s.emit o).boot = s.boot := rfl
@[simp] theorem State.emit_aon (o : Output) : (s.emit o).aon = s.aon := rfl

/-! ### Time and the counter of free values -/

@[simp] theorem State.elapse_pending (d : Nat) : (s.elapse d).pending = s.pending := rfl
@[simp] theorem State.until_pending (t : Time) : (s.until t).pending = s.pending := rfl
@[simp] theorem State.untilDev_pending (t : Time) : (s.untilDev t).pending = s.pending := rfl
@[simp] theorem State.elapse_out (d : Nat) : (s.elapse d).out = s.out := rfl
@[simp] theorem State.until_out (t : Time) : (s.until t).out = s.out := rfl
@[simp] theorem State.untilDev_out (t : Time) : (s.untilDev t).out = s.out := rfl
@[simp] theorem State.elapse_free (d : Nat) : (s.elapse d).free = s.free := rfl
@[simp] theorem State.until_free (t : Time) : (s.until t).free = s.free := rfl
@[simp] theorem State.untilDev_free (t : Time) : (s.untilDev t).free = s.free := rfl
@[simp] theorem State.elapse_glb (d : Nat) : (s.elapse d).glb = s.glb := rfl
@[simp] theorem State.until_glb (t : Time) : (s.until t).glb = s.glb := rfl
@[simp] theorem State.untilDev_glb (t : Time) : (s.untilDev t).glb = s.glb := rfl
@[simp] theorem State.elapse_ev (d : Nat) : (s.elapse d).ev = s.ev := rfl
@[simp] theorem State.until_ev (t : Time) : (s.until t).ev = s.ev := rfl
@[simp] theorem State.untilDev_ev (t : Time) : (s.untilDev t).ev = s.ev := rfl
@[simp] theorem State.elapse_settings (d : Nat) : (s.elapse d).settings = s.settings := rfl
@[simp] theorem State.until_settings (t : Time) : (s.until t).settings = s.settings := rfl
@[simp] theorem State.untilDev_settings (t : Time) : (s.untilDev t).settings = s.settings := rfl
@[simp] theorem State.elapse_commits (d : Nat) : (s.elapse d).commits = s.commits := rfl
@[simp] theorem State.until_commits (t : Time) : (s.until t).commits = s.commits := rfl
@[simp] theorem State.untilDev_commits (t : Time) : (s.untilDev t).commits = s.commits := rfl
@[simp] theorem State.elapse_sessions (d : Nat) : (s.elapse d).sessions = s.sessions := rfl
@[simp] theorem State.until_sessions (t : Time) : (s.until t).sessions = s.sessions := rfl
@[simp] theorem State.untilDev_sessions (t : Time) : (s.untilDev t).sessions = s.sessions := rfl
@[simp] theorem State.elapse_ports (d : Nat) : (s.elapse d).ports = s.ports := rfl
@[simp] theorem State.until_ports (t : Time) : (s.until t).ports = s.ports := rfl
@[simp] theorem State.untilDev_ports (t : Time) : (s.untilDev t).ports = s.ports := rfl
@[simp] theorem State.elapse_lanes (d : Nat) : (s.elapse d).lanes = s.lanes := rfl
@[simp] theorem State.until_lanes (t : Time) : (s.until t).lanes = s.lanes := rfl
@[simp] theorem State.untilDev_lanes (t : Time) : (s.untilDev t).lanes = s.lanes := rfl
@[simp] theorem State.elapse_pipes (d : Nat) : (s.elapse d).pipes = s.pipes := rfl
@[simp] theorem State.until_pipes (t : Time) : (s.until t).pipes = s.pipes := rfl
@[simp] theorem State.untilDev_pipes (t : Time) : (s.untilDev t).pipes = s.pipes := rfl
@[simp] theorem State.elapse_sdc (d : Nat) : (s.elapse d).sdc = s.sdc := rfl
@[simp] theorem State.until_sdc (t : Time) : (s.until t).sdc = s.sdc := rfl
@[simp] theorem State.untilDev_sdc (t : Time) : (s.untilDev t).sdc = s.sdc := rfl
@[simp] theorem State.elapse_shut (d : Nat) : (s.elapse d).shut = s.shut := rfl
@[simp] theorem State.until_shut (t : Time) : (s.until t).shut = s.shut := rfl
@[simp] theorem State.untilDev_shut (t : Time) : (s.untilDev t).shut = s.shut := rfl
@[simp] theorem State.elapse_emOn (d : Nat) : (s.elapse d).emOn = s.emOn := rfl
@[simp] theorem State.until_emOn (t : Time) : (s.until t).emOn = s.emOn := rfl
@[simp] theorem State.untilDev_emOn (t : Time) : (s.untilDev t).emOn = s.emOn := rfl
@[simp] theorem State.elapse_clk (d : Nat) : (s.elapse d).clk = s.clk := rfl
@[simp] theorem State.until_clk (t : Time) : (s.until t).clk = s.clk := rfl
@[simp] theorem State.untilDev_clk (t : Time) : (s.untilDev t).clk = s.clk := rfl
@[simp] theorem State.elapse_tiu (d : Nat) : (s.elapse d).tiu = s.tiu := rfl
@[simp] theorem State.until_tiu (t : Time) : (s.until t).tiu = s.tiu := rfl
@[simp] theorem State.untilDev_tiu (t : Time) : (s.untilDev t).tiu = s.tiu := rfl
@[simp] theorem State.elapse_axc1 (d : Nat) : (s.elapse d).axc1 = s.axc1 := rfl
@[simp] theorem State.until_axc1 (t : Time) : (s.until t).axc1 = s.axc1 := rfl
@[simp] theorem State.untilDev_axc1 (t : Time) : (s.untilDev t).axc1 = s.axc1 := rfl
@[simp] theorem State.elapse_rindMain (d : Nat) : (s.elapse d).rindMain = s.rindMain := rfl
@[simp] theorem State.until_rindMain (t : Time) : (s.until t).rindMain = s.rindMain := rfl
@[simp] theorem State.untilDev_rindMain (t : Time) : (s.untilDev t).rindMain = s.rindMain := rfl
@[simp] theorem State.elapse_engines (d : Nat) : (s.elapse d).engines = s.engines := rfl
@[simp] theorem State.until_engines (t : Time) : (s.until t).engines = s.engines := rfl
@[simp] theorem State.untilDev_engines (t : Time) : (s.untilDev t).engines = s.engines := rfl
@[simp] theorem State.elapse_images (d : Nat) : (s.elapse d).images = s.images := rfl
@[simp] theorem State.until_images (t : Time) : (s.until t).images = s.images := rfl
@[simp] theorem State.untilDev_images (t : Time) : (s.untilDev t).images = s.images := rfl
@[simp] theorem State.elapse_loads (d : Nat) : (s.elapse d).loads = s.loads := rfl
@[simp] theorem State.until_loads (t : Time) : (s.until t).loads = s.loads := rfl
@[simp] theorem State.untilDev_loads (t : Time) : (s.untilDev t).loads = s.loads := rfl
@[simp] theorem State.elapse_press (d : Nat) : (s.elapse d).press = s.press := rfl
@[simp] theorem State.until_press (t : Time) : (s.until t).press = s.press := rfl
@[simp] theorem State.untilDev_press (t : Time) : (s.untilDev t).press = s.press := rfl
@[simp] theorem State.elapse_jobs (d : Nat) : (s.elapse d).jobs = s.jobs := rfl
@[simp] theorem State.until_jobs (t : Time) : (s.until t).jobs = s.jobs := rfl
@[simp] theorem State.untilDev_jobs (t : Time) : (s.untilDev t).jobs = s.jobs := rfl
@[simp] theorem State.elapse_savedJobs (d : Nat) : (s.elapse d).savedJobs = s.savedJobs := rfl
@[simp] theorem State.until_savedJobs (t : Time) : (s.until t).savedJobs = s.savedJobs := rfl
@[simp] theorem State.untilDev_savedJobs (t : Time) : (s.untilDev t).savedJobs = s.savedJobs := rfl
@[simp] theorem State.elapse_hostArea (d : Nat) : (s.elapse d).hostArea = s.hostArea := rfl
@[simp] theorem State.until_hostArea (t : Time) : (s.until t).hostArea = s.hostArea := rfl
@[simp] theorem State.untilDev_hostArea (t : Time) : (s.untilDev t).hostArea = s.hostArea := rfl
@[simp] theorem State.elapse_zones (d : Nat) : (s.elapse d).zones = s.zones := rfl
@[simp] theorem State.until_zones (t : Time) : (s.until t).zones = s.zones := rfl
@[simp] theorem State.untilDev_zones (t : Time) : (s.untilDev t).zones = s.zones := rfl
@[simp] theorem State.elapse_ladle (d : Nat) : (s.elapse d).ladle = s.ladle := rfl
@[simp] theorem State.until_ladle (t : Time) : (s.until t).ladle = s.ladle := rfl
@[simp] theorem State.untilDev_ladle (t : Time) : (s.untilDev t).ladle = s.ladle := rfl
@[simp] theorem State.elapse_look (d : Nat) : (s.elapse d).look = s.look := rfl
@[simp] theorem State.until_look (t : Time) : (s.until t).look = s.look := rfl
@[simp] theorem State.untilDev_look (t : Time) : (s.untilDev t).look = s.look := rfl
@[simp] theorem State.elapse_links (d : Nat) : (s.elapse d).links = s.links := rfl
@[simp] theorem State.until_links (t : Time) : (s.until t).links = s.links := rfl
@[simp] theorem State.untilDev_links (t : Time) : (s.untilDev t).links = s.links := rfl
@[simp] theorem State.elapse_streams (d : Nat) : (s.elapse d).streams = s.streams := rfl
@[simp] theorem State.until_streams (t : Time) : (s.until t).streams = s.streams := rfl
@[simp] theorem State.untilDev_streams (t : Time) : (s.untilDev t).streams = s.streams := rfl
@[simp] theorem State.elapse_boot (d : Nat) : (s.elapse d).boot = s.boot := rfl
@[simp] theorem State.until_boot (t : Time) : (s.until t).boot = s.boot := rfl
@[simp] theorem State.untilDev_boot (t : Time) : (s.untilDev t).boot = s.boot := rfl
@[simp] theorem State.fresh_pending : s.fresh.2.pending = s.pending := rfl
@[simp] theorem State.fresh_out : s.fresh.2.out = s.out := rfl
@[simp] theorem State.fresh_time : s.fresh.2.time = s.time := rfl
@[simp] theorem State.fresh_glb : s.fresh.2.glb = s.glb := rfl
@[simp] theorem State.fresh_ev : s.fresh.2.ev = s.ev := rfl
@[simp] theorem State.fresh_settings : s.fresh.2.settings = s.settings := rfl
@[simp] theorem State.fresh_commits : s.fresh.2.commits = s.commits := rfl
@[simp] theorem State.fresh_sessions : s.fresh.2.sessions = s.sessions := rfl
@[simp] theorem State.fresh_ports : s.fresh.2.ports = s.ports := rfl
@[simp] theorem State.fresh_lanes : s.fresh.2.lanes = s.lanes := rfl
@[simp] theorem State.fresh_pipes : s.fresh.2.pipes = s.pipes := rfl
@[simp] theorem State.fresh_sdc : s.fresh.2.sdc = s.sdc := rfl
@[simp] theorem State.fresh_shut : s.fresh.2.shut = s.shut := rfl
@[simp] theorem State.fresh_emOn : s.fresh.2.emOn = s.emOn := rfl
@[simp] theorem State.fresh_clk : s.fresh.2.clk = s.clk := rfl
@[simp] theorem State.fresh_tiu : s.fresh.2.tiu = s.tiu := rfl
@[simp] theorem State.fresh_axc1 : s.fresh.2.axc1 = s.axc1 := rfl
@[simp] theorem State.fresh_rind : s.fresh.2.rind = s.rind := rfl
@[simp] theorem State.fresh_rindMain : s.fresh.2.rindMain = s.rindMain := rfl
@[simp] theorem State.fresh_engines : s.fresh.2.engines = s.engines := rfl
@[simp] theorem State.fresh_images : s.fresh.2.images = s.images := rfl
@[simp] theorem State.fresh_loads : s.fresh.2.loads = s.loads := rfl
@[simp] theorem State.fresh_press : s.fresh.2.press = s.press := rfl
@[simp] theorem State.fresh_jobs : s.fresh.2.jobs = s.jobs := rfl
@[simp] theorem State.fresh_savedJobs : s.fresh.2.savedJobs = s.savedJobs := rfl
@[simp] theorem State.fresh_hostArea : s.fresh.2.hostArea = s.hostArea := rfl
@[simp] theorem State.fresh_zones : s.fresh.2.zones = s.zones := rfl
@[simp] theorem State.fresh_ladle : s.fresh.2.ladle = s.ladle := rfl
@[simp] theorem State.fresh_look : s.fresh.2.look = s.look := rfl
@[simp] theorem State.fresh_links : s.fresh.2.links = s.links := rfl
@[simp] theorem State.fresh_streams : s.fresh.2.streams = s.streams := rfl
@[simp] theorem State.fresh_boot : s.fresh.2.boot = s.boot := rfl
@[simp] theorem State.fresh_aon : s.fresh.2.aon = s.aon := rfl
@[simp] theorem State.fresh_free : s.fresh.2.free = s.free + 1 := rfl

/-- A clock that is advanced to an instant stands there, or later when the instant had passed. -/
theorem State.until_mono (t : Time) : (s.until t).time.mono = max s.time.mono t := by
  have h : ∀ a b : Nat, a + (b - a) = max a b := by omega
  exact h _ _

@[simp] theorem State.onPort_pending (n : Nat) (f : Port → Port) : (s.onPort n f).pending = s.pending := by unfold State.onPort; split <;> rfl
@[simp] theorem State.onPort_out (n : Nat) (f : Port → Port) : (s.onPort n f).out = s.out := by unfold State.onPort; split <;> rfl
@[simp] theorem State.onPort_free (n : Nat) (f : Port → Port) : (s.onPort n f).free = s.free := by unfold State.onPort; split <;> rfl
@[simp] theorem State.onPort_time (n : Nat) (f : Port → Port) : (s.onPort n f).time = s.time := by unfold State.onPort; split <;> rfl
@[simp] theorem State.onPort_glb (n : Nat) (f : Port → Port) : (s.onPort n f).glb = s.glb := by unfold State.onPort; split <;> rfl
@[simp] theorem State.onPort_ev (n : Nat) (f : Port → Port) : (s.onPort n f).ev = s.ev := by unfold State.onPort; split <;> rfl
@[simp] theorem State.onPort_settings (n : Nat) (f : Port → Port) : (s.onPort n f).settings = s.settings := by unfold State.onPort; split <;> rfl
@[simp] theorem State.onPort_commits (n : Nat) (f : Port → Port) : (s.onPort n f).commits = s.commits := by unfold State.onPort; split <;> rfl
@[simp] theorem State.onPort_sessions (n : Nat) (f : Port → Port) : (s.onPort n f).sessions = s.sessions := by unfold State.onPort; split <;> rfl
@[simp] theorem State.onPort_lanes (n : Nat) (f : Port → Port) : (s.onPort n f).lanes = s.lanes := by unfold State.onPort; split <;> rfl
@[simp] theorem State.onPort_pipes (n : Nat) (f : Port → Port) : (s.onPort n f).pipes = s.pipes := by unfold State.onPort; split <;> rfl
@[simp] theorem State.onPort_sdc (n : Nat) (f : Port → Port) : (s.onPort n f).sdc = s.sdc := by unfold State.onPort; split <;> rfl
@[simp] theorem State.onPort_shut (n : Nat) (f : Port → Port) : (s.onPort n f).shut = s.shut := by unfold State.onPort; split <;> rfl
@[simp] theorem State.onPort_emOn (n : Nat) (f : Port → Port) : (s.onPort n f).emOn = s.emOn := by unfold State.onPort; split <;> rfl
@[simp] theorem State.onPort_clk (n : Nat) (f : Port → Port) : (s.onPort n f).clk = s.clk := by unfold State.onPort; split <;> rfl
@[simp] theorem State.onPort_tiu (n : Nat) (f : Port → Port) : (s.onPort n f).tiu = s.tiu := by unfold State.onPort; split <;> rfl
@[simp] theorem State.onPort_axc1 (n : Nat) (f : Port → Port) : (s.onPort n f).axc1 = s.axc1 := by unfold State.onPort; split <;> rfl
@[simp] theorem State.onPort_rind (n : Nat) (f : Port → Port) : (s.onPort n f).rind = s.rind := by unfold State.onPort; split <;> rfl
@[simp] theorem State.onPort_rindMain (n : Nat) (f : Port → Port) : (s.onPort n f).rindMain = s.rindMain := by unfold State.onPort; split <;> rfl
@[simp] theorem State.onPort_engines (n : Nat) (f : Port → Port) : (s.onPort n f).engines = s.engines := by unfold State.onPort; split <;> rfl
@[simp] theorem State.onPort_images (n : Nat) (f : Port → Port) : (s.onPort n f).images = s.images := by unfold State.onPort; split <;> rfl
@[simp] theorem State.onPort_loads (n : Nat) (f : Port → Port) : (s.onPort n f).loads = s.loads := by unfold State.onPort; split <;> rfl
@[simp] theorem State.onPort_press (n : Nat) (f : Port → Port) : (s.onPort n f).press = s.press := by unfold State.onPort; split <;> rfl
@[simp] theorem State.onPort_jobs (n : Nat) (f : Port → Port) : (s.onPort n f).jobs = s.jobs := by unfold State.onPort; split <;> rfl
@[simp] theorem State.onPort_savedJobs (n : Nat) (f : Port → Port) : (s.onPort n f).savedJobs = s.savedJobs := by unfold State.onPort; split <;> rfl
@[simp] theorem State.onPort_hostArea (n : Nat) (f : Port → Port) : (s.onPort n f).hostArea = s.hostArea := by unfold State.onPort; split <;> rfl
@[simp] theorem State.onPort_zones (n : Nat) (f : Port → Port) : (s.onPort n f).zones = s.zones := by unfold State.onPort; split <;> rfl
@[simp] theorem State.onPort_ladle (n : Nat) (f : Port → Port) : (s.onPort n f).ladle = s.ladle := by unfold State.onPort; split <;> rfl
@[simp] theorem State.onPort_look (n : Nat) (f : Port → Port) : (s.onPort n f).look = s.look := by unfold State.onPort; split <;> rfl
@[simp] theorem State.onPort_links (n : Nat) (f : Port → Port) : (s.onPort n f).links = s.links := by unfold State.onPort; split <;> rfl
@[simp] theorem State.onPort_streams (n : Nat) (f : Port → Port) : (s.onPort n f).streams = s.streams := by unfold State.onPort; split <;> rfl
@[simp] theorem State.onPort_boot (n : Nat) (f : Port → Port) : (s.onPort n f).boot = s.boot := by unfold State.onPort; split <;> rfl
@[simp] theorem State.onPort_aon (n : Nat) (f : Port → Port) : (s.onPort n f).aon = s.aon := by unfold State.onPort; split <;> rfl
@[simp] theorem State.onEng_pending (n : Nat) (f : Engine → Engine) : (s.onEng n f).pending = s.pending := by unfold State.onEng; split <;> rfl
@[simp] theorem State.onEng_out (n : Nat) (f : Engine → Engine) : (s.onEng n f).out = s.out := by unfold State.onEng; split <;> rfl
@[simp] theorem State.onEng_free (n : Nat) (f : Engine → Engine) : (s.onEng n f).free = s.free := by unfold State.onEng; split <;> rfl
@[simp] theorem State.onEng_time (n : Nat) (f : Engine → Engine) : (s.onEng n f).time = s.time := by unfold State.onEng; split <;> rfl
@[simp] theorem State.onEng_glb (n : Nat) (f : Engine → Engine) : (s.onEng n f).glb = s.glb := by unfold State.onEng; split <;> rfl
@[simp] theorem State.onEng_ev (n : Nat) (f : Engine → Engine) : (s.onEng n f).ev = s.ev := by unfold State.onEng; split <;> rfl
@[simp] theorem State.onEng_settings (n : Nat) (f : Engine → Engine) : (s.onEng n f).settings = s.settings := by unfold State.onEng; split <;> rfl
@[simp] theorem State.onEng_commits (n : Nat) (f : Engine → Engine) : (s.onEng n f).commits = s.commits := by unfold State.onEng; split <;> rfl
@[simp] theorem State.onEng_sessions (n : Nat) (f : Engine → Engine) : (s.onEng n f).sessions = s.sessions := by unfold State.onEng; split <;> rfl
@[simp] theorem State.onEng_ports (n : Nat) (f : Engine → Engine) : (s.onEng n f).ports = s.ports := by unfold State.onEng; split <;> rfl
@[simp] theorem State.onEng_lanes (n : Nat) (f : Engine → Engine) : (s.onEng n f).lanes = s.lanes := by unfold State.onEng; split <;> rfl
@[simp] theorem State.onEng_pipes (n : Nat) (f : Engine → Engine) : (s.onEng n f).pipes = s.pipes := by unfold State.onEng; split <;> rfl
@[simp] theorem State.onEng_sdc (n : Nat) (f : Engine → Engine) : (s.onEng n f).sdc = s.sdc := by unfold State.onEng; split <;> rfl
@[simp] theorem State.onEng_shut (n : Nat) (f : Engine → Engine) : (s.onEng n f).shut = s.shut := by unfold State.onEng; split <;> rfl
@[simp] theorem State.onEng_emOn (n : Nat) (f : Engine → Engine) : (s.onEng n f).emOn = s.emOn := by unfold State.onEng; split <;> rfl
@[simp] theorem State.onEng_clk (n : Nat) (f : Engine → Engine) : (s.onEng n f).clk = s.clk := by unfold State.onEng; split <;> rfl
@[simp] theorem State.onEng_tiu (n : Nat) (f : Engine → Engine) : (s.onEng n f).tiu = s.tiu := by unfold State.onEng; split <;> rfl
@[simp] theorem State.onEng_axc1 (n : Nat) (f : Engine → Engine) : (s.onEng n f).axc1 = s.axc1 := by unfold State.onEng; split <;> rfl
@[simp] theorem State.onEng_rind (n : Nat) (f : Engine → Engine) : (s.onEng n f).rind = s.rind := by unfold State.onEng; split <;> rfl
@[simp] theorem State.onEng_rindMain (n : Nat) (f : Engine → Engine) : (s.onEng n f).rindMain = s.rindMain := by unfold State.onEng; split <;> rfl
@[simp] theorem State.onEng_images (n : Nat) (f : Engine → Engine) : (s.onEng n f).images = s.images := by unfold State.onEng; split <;> rfl
@[simp] theorem State.onEng_loads (n : Nat) (f : Engine → Engine) : (s.onEng n f).loads = s.loads := by unfold State.onEng; split <;> rfl
@[simp] theorem State.onEng_press (n : Nat) (f : Engine → Engine) : (s.onEng n f).press = s.press := by unfold State.onEng; split <;> rfl
@[simp] theorem State.onEng_jobs (n : Nat) (f : Engine → Engine) : (s.onEng n f).jobs = s.jobs := by unfold State.onEng; split <;> rfl
@[simp] theorem State.onEng_savedJobs (n : Nat) (f : Engine → Engine) : (s.onEng n f).savedJobs = s.savedJobs := by unfold State.onEng; split <;> rfl
@[simp] theorem State.onEng_hostArea (n : Nat) (f : Engine → Engine) : (s.onEng n f).hostArea = s.hostArea := by unfold State.onEng; split <;> rfl
@[simp] theorem State.onEng_zones (n : Nat) (f : Engine → Engine) : (s.onEng n f).zones = s.zones := by unfold State.onEng; split <;> rfl
@[simp] theorem State.onEng_ladle (n : Nat) (f : Engine → Engine) : (s.onEng n f).ladle = s.ladle := by unfold State.onEng; split <;> rfl
@[simp] theorem State.onEng_look (n : Nat) (f : Engine → Engine) : (s.onEng n f).look = s.look := by unfold State.onEng; split <;> rfl
@[simp] theorem State.onEng_links (n : Nat) (f : Engine → Engine) : (s.onEng n f).links = s.links := by unfold State.onEng; split <;> rfl
@[simp] theorem State.onEng_streams (n : Nat) (f : Engine → Engine) : (s.onEng n f).streams = s.streams := by unfold State.onEng; split <;> rfl
@[simp] theorem State.onEng_boot (n : Nat) (f : Engine → Engine) : (s.onEng n f).boot = s.boot := by unfold State.onEng; split <;> rfl
@[simp] theorem State.onEng_aon (n : Nat) (f : Engine → Engine) : (s.onEng n f).aon = s.aon := by unfold State.onEng; split <;> rfl
@[simp] theorem State.onPipe_pending (n : Nat) (f : Pipe → Pipe) : (s.onPipe n f).pending = s.pending := by unfold State.onPipe; split <;> rfl
@[simp] theorem State.onPipe_out (n : Nat) (f : Pipe → Pipe) : (s.onPipe n f).out = s.out := by unfold State.onPipe; split <;> rfl
@[simp] theorem State.onPipe_free (n : Nat) (f : Pipe → Pipe) : (s.onPipe n f).free = s.free := by unfold State.onPipe; split <;> rfl
@[simp] theorem State.onPipe_time (n : Nat) (f : Pipe → Pipe) : (s.onPipe n f).time = s.time := by unfold State.onPipe; split <;> rfl
@[simp] theorem State.onPipe_glb (n : Nat) (f : Pipe → Pipe) : (s.onPipe n f).glb = s.glb := by unfold State.onPipe; split <;> rfl
@[simp] theorem State.onPipe_ev (n : Nat) (f : Pipe → Pipe) : (s.onPipe n f).ev = s.ev := by unfold State.onPipe; split <;> rfl
@[simp] theorem State.onPipe_settings (n : Nat) (f : Pipe → Pipe) : (s.onPipe n f).settings = s.settings := by unfold State.onPipe; split <;> rfl
@[simp] theorem State.onPipe_commits (n : Nat) (f : Pipe → Pipe) : (s.onPipe n f).commits = s.commits := by unfold State.onPipe; split <;> rfl
@[simp] theorem State.onPipe_sessions (n : Nat) (f : Pipe → Pipe) : (s.onPipe n f).sessions = s.sessions := by unfold State.onPipe; split <;> rfl
@[simp] theorem State.onPipe_ports (n : Nat) (f : Pipe → Pipe) : (s.onPipe n f).ports = s.ports := by unfold State.onPipe; split <;> rfl
@[simp] theorem State.onPipe_lanes (n : Nat) (f : Pipe → Pipe) : (s.onPipe n f).lanes = s.lanes := by unfold State.onPipe; split <;> rfl
@[simp] theorem State.onPipe_sdc (n : Nat) (f : Pipe → Pipe) : (s.onPipe n f).sdc = s.sdc := by unfold State.onPipe; split <;> rfl
@[simp] theorem State.onPipe_shut (n : Nat) (f : Pipe → Pipe) : (s.onPipe n f).shut = s.shut := by unfold State.onPipe; split <;> rfl
@[simp] theorem State.onPipe_emOn (n : Nat) (f : Pipe → Pipe) : (s.onPipe n f).emOn = s.emOn := by unfold State.onPipe; split <;> rfl
@[simp] theorem State.onPipe_clk (n : Nat) (f : Pipe → Pipe) : (s.onPipe n f).clk = s.clk := by unfold State.onPipe; split <;> rfl
@[simp] theorem State.onPipe_tiu (n : Nat) (f : Pipe → Pipe) : (s.onPipe n f).tiu = s.tiu := by unfold State.onPipe; split <;> rfl
@[simp] theorem State.onPipe_axc1 (n : Nat) (f : Pipe → Pipe) : (s.onPipe n f).axc1 = s.axc1 := by unfold State.onPipe; split <;> rfl
@[simp] theorem State.onPipe_rind (n : Nat) (f : Pipe → Pipe) : (s.onPipe n f).rind = s.rind := by unfold State.onPipe; split <;> rfl
@[simp] theorem State.onPipe_rindMain (n : Nat) (f : Pipe → Pipe) : (s.onPipe n f).rindMain = s.rindMain := by unfold State.onPipe; split <;> rfl
@[simp] theorem State.onPipe_engines (n : Nat) (f : Pipe → Pipe) : (s.onPipe n f).engines = s.engines := by unfold State.onPipe; split <;> rfl
@[simp] theorem State.onPipe_images (n : Nat) (f : Pipe → Pipe) : (s.onPipe n f).images = s.images := by unfold State.onPipe; split <;> rfl
@[simp] theorem State.onPipe_loads (n : Nat) (f : Pipe → Pipe) : (s.onPipe n f).loads = s.loads := by unfold State.onPipe; split <;> rfl
@[simp] theorem State.onPipe_press (n : Nat) (f : Pipe → Pipe) : (s.onPipe n f).press = s.press := by unfold State.onPipe; split <;> rfl
@[simp] theorem State.onPipe_jobs (n : Nat) (f : Pipe → Pipe) : (s.onPipe n f).jobs = s.jobs := by unfold State.onPipe; split <;> rfl
@[simp] theorem State.onPipe_savedJobs (n : Nat) (f : Pipe → Pipe) : (s.onPipe n f).savedJobs = s.savedJobs := by unfold State.onPipe; split <;> rfl
@[simp] theorem State.onPipe_hostArea (n : Nat) (f : Pipe → Pipe) : (s.onPipe n f).hostArea = s.hostArea := by unfold State.onPipe; split <;> rfl
@[simp] theorem State.onPipe_zones (n : Nat) (f : Pipe → Pipe) : (s.onPipe n f).zones = s.zones := by unfold State.onPipe; split <;> rfl
@[simp] theorem State.onPipe_ladle (n : Nat) (f : Pipe → Pipe) : (s.onPipe n f).ladle = s.ladle := by unfold State.onPipe; split <;> rfl
@[simp] theorem State.onPipe_look (n : Nat) (f : Pipe → Pipe) : (s.onPipe n f).look = s.look := by unfold State.onPipe; split <;> rfl
@[simp] theorem State.onPipe_links (n : Nat) (f : Pipe → Pipe) : (s.onPipe n f).links = s.links := by unfold State.onPipe; split <;> rfl
@[simp] theorem State.onPipe_streams (n : Nat) (f : Pipe → Pipe) : (s.onPipe n f).streams = s.streams := by unfold State.onPipe; split <;> rfl
@[simp] theorem State.onPipe_boot (n : Nat) (f : Pipe → Pipe) : (s.onPipe n f).boot = s.boot := by unfold State.onPipe; split <;> rfl
@[simp] theorem State.onPipe_aon (n : Nat) (f : Pipe → Pipe) : (s.onPipe n f).aon = s.aon := by unfold State.onPipe; split <;> rfl
@[simp] theorem State.onPress_pending (n : Nat) (f : PressLane → PressLane) : (s.onPress n f).pending = s.pending := by unfold State.onPress; split <;> rfl
@[simp] theorem State.onPress_out (n : Nat) (f : PressLane → PressLane) : (s.onPress n f).out = s.out := by unfold State.onPress; split <;> rfl
@[simp] theorem State.onPress_free (n : Nat) (f : PressLane → PressLane) : (s.onPress n f).free = s.free := by unfold State.onPress; split <;> rfl
@[simp] theorem State.onPress_time (n : Nat) (f : PressLane → PressLane) : (s.onPress n f).time = s.time := by unfold State.onPress; split <;> rfl
@[simp] theorem State.onPress_glb (n : Nat) (f : PressLane → PressLane) : (s.onPress n f).glb = s.glb := by unfold State.onPress; split <;> rfl
@[simp] theorem State.onPress_ev (n : Nat) (f : PressLane → PressLane) : (s.onPress n f).ev = s.ev := by unfold State.onPress; split <;> rfl
@[simp] theorem State.onPress_settings (n : Nat) (f : PressLane → PressLane) : (s.onPress n f).settings = s.settings := by unfold State.onPress; split <;> rfl
@[simp] theorem State.onPress_commits (n : Nat) (f : PressLane → PressLane) : (s.onPress n f).commits = s.commits := by unfold State.onPress; split <;> rfl
@[simp] theorem State.onPress_sessions (n : Nat) (f : PressLane → PressLane) : (s.onPress n f).sessions = s.sessions := by unfold State.onPress; split <;> rfl
@[simp] theorem State.onPress_ports (n : Nat) (f : PressLane → PressLane) : (s.onPress n f).ports = s.ports := by unfold State.onPress; split <;> rfl
@[simp] theorem State.onPress_lanes (n : Nat) (f : PressLane → PressLane) : (s.onPress n f).lanes = s.lanes := by unfold State.onPress; split <;> rfl
@[simp] theorem State.onPress_pipes (n : Nat) (f : PressLane → PressLane) : (s.onPress n f).pipes = s.pipes := by unfold State.onPress; split <;> rfl
@[simp] theorem State.onPress_sdc (n : Nat) (f : PressLane → PressLane) : (s.onPress n f).sdc = s.sdc := by unfold State.onPress; split <;> rfl
@[simp] theorem State.onPress_shut (n : Nat) (f : PressLane → PressLane) : (s.onPress n f).shut = s.shut := by unfold State.onPress; split <;> rfl
@[simp] theorem State.onPress_emOn (n : Nat) (f : PressLane → PressLane) : (s.onPress n f).emOn = s.emOn := by unfold State.onPress; split <;> rfl
@[simp] theorem State.onPress_clk (n : Nat) (f : PressLane → PressLane) : (s.onPress n f).clk = s.clk := by unfold State.onPress; split <;> rfl
@[simp] theorem State.onPress_tiu (n : Nat) (f : PressLane → PressLane) : (s.onPress n f).tiu = s.tiu := by unfold State.onPress; split <;> rfl
@[simp] theorem State.onPress_axc1 (n : Nat) (f : PressLane → PressLane) : (s.onPress n f).axc1 = s.axc1 := by unfold State.onPress; split <;> rfl
@[simp] theorem State.onPress_rind (n : Nat) (f : PressLane → PressLane) : (s.onPress n f).rind = s.rind := by unfold State.onPress; split <;> rfl
@[simp] theorem State.onPress_rindMain (n : Nat) (f : PressLane → PressLane) : (s.onPress n f).rindMain = s.rindMain := by unfold State.onPress; split <;> rfl
@[simp] theorem State.onPress_engines (n : Nat) (f : PressLane → PressLane) : (s.onPress n f).engines = s.engines := by unfold State.onPress; split <;> rfl
@[simp] theorem State.onPress_images (n : Nat) (f : PressLane → PressLane) : (s.onPress n f).images = s.images := by unfold State.onPress; split <;> rfl
@[simp] theorem State.onPress_loads (n : Nat) (f : PressLane → PressLane) : (s.onPress n f).loads = s.loads := by unfold State.onPress; split <;> rfl
@[simp] theorem State.onPress_jobs (n : Nat) (f : PressLane → PressLane) : (s.onPress n f).jobs = s.jobs := by unfold State.onPress; split <;> rfl
@[simp] theorem State.onPress_savedJobs (n : Nat) (f : PressLane → PressLane) : (s.onPress n f).savedJobs = s.savedJobs := by unfold State.onPress; split <;> rfl
@[simp] theorem State.onPress_hostArea (n : Nat) (f : PressLane → PressLane) : (s.onPress n f).hostArea = s.hostArea := by unfold State.onPress; split <;> rfl
@[simp] theorem State.onPress_zones (n : Nat) (f : PressLane → PressLane) : (s.onPress n f).zones = s.zones := by unfold State.onPress; split <;> rfl
@[simp] theorem State.onPress_ladle (n : Nat) (f : PressLane → PressLane) : (s.onPress n f).ladle = s.ladle := by unfold State.onPress; split <;> rfl
@[simp] theorem State.onPress_look (n : Nat) (f : PressLane → PressLane) : (s.onPress n f).look = s.look := by unfold State.onPress; split <;> rfl
@[simp] theorem State.onPress_links (n : Nat) (f : PressLane → PressLane) : (s.onPress n f).links = s.links := by unfold State.onPress; split <;> rfl
@[simp] theorem State.onPress_streams (n : Nat) (f : PressLane → PressLane) : (s.onPress n f).streams = s.streams := by unfold State.onPress; split <;> rfl
@[simp] theorem State.onPress_boot (n : Nat) (f : PressLane → PressLane) : (s.onPress n f).boot = s.boot := by unfold State.onPress; split <;> rfl
@[simp] theorem State.onPress_aon (n : Nat) (f : PressLane → PressLane) : (s.onPress n f).aon = s.aon := by unfold State.onPress; split <;> rfl
@[simp] theorem State.onLane_pending (n : Nat) (f : Lane → Lane) : (s.onLane n f).pending = s.pending := by unfold State.onLane; split <;> rfl
@[simp] theorem State.onLane_out (n : Nat) (f : Lane → Lane) : (s.onLane n f).out = s.out := by unfold State.onLane; split <;> rfl
@[simp] theorem State.onLane_free (n : Nat) (f : Lane → Lane) : (s.onLane n f).free = s.free := by unfold State.onLane; split <;> rfl
@[simp] theorem State.onLane_time (n : Nat) (f : Lane → Lane) : (s.onLane n f).time = s.time := by unfold State.onLane; split <;> rfl
@[simp] theorem State.onLane_glb (n : Nat) (f : Lane → Lane) : (s.onLane n f).glb = s.glb := by unfold State.onLane; split <;> rfl
@[simp] theorem State.onLane_ev (n : Nat) (f : Lane → Lane) : (s.onLane n f).ev = s.ev := by unfold State.onLane; split <;> rfl
@[simp] theorem State.onLane_settings (n : Nat) (f : Lane → Lane) : (s.onLane n f).settings = s.settings := by unfold State.onLane; split <;> rfl
@[simp] theorem State.onLane_commits (n : Nat) (f : Lane → Lane) : (s.onLane n f).commits = s.commits := by unfold State.onLane; split <;> rfl
@[simp] theorem State.onLane_sessions (n : Nat) (f : Lane → Lane) : (s.onLane n f).sessions = s.sessions := by unfold State.onLane; split <;> rfl
@[simp] theorem State.onLane_ports (n : Nat) (f : Lane → Lane) : (s.onLane n f).ports = s.ports := by unfold State.onLane; split <;> rfl
@[simp] theorem State.onLane_pipes (n : Nat) (f : Lane → Lane) : (s.onLane n f).pipes = s.pipes := by unfold State.onLane; split <;> rfl
@[simp] theorem State.onLane_sdc (n : Nat) (f : Lane → Lane) : (s.onLane n f).sdc = s.sdc := by unfold State.onLane; split <;> rfl
@[simp] theorem State.onLane_shut (n : Nat) (f : Lane → Lane) : (s.onLane n f).shut = s.shut := by unfold State.onLane; split <;> rfl
@[simp] theorem State.onLane_emOn (n : Nat) (f : Lane → Lane) : (s.onLane n f).emOn = s.emOn := by unfold State.onLane; split <;> rfl
@[simp] theorem State.onLane_clk (n : Nat) (f : Lane → Lane) : (s.onLane n f).clk = s.clk := by unfold State.onLane; split <;> rfl
@[simp] theorem State.onLane_tiu (n : Nat) (f : Lane → Lane) : (s.onLane n f).tiu = s.tiu := by unfold State.onLane; split <;> rfl
@[simp] theorem State.onLane_axc1 (n : Nat) (f : Lane → Lane) : (s.onLane n f).axc1 = s.axc1 := by unfold State.onLane; split <;> rfl
@[simp] theorem State.onLane_rind (n : Nat) (f : Lane → Lane) : (s.onLane n f).rind = s.rind := by unfold State.onLane; split <;> rfl
@[simp] theorem State.onLane_rindMain (n : Nat) (f : Lane → Lane) : (s.onLane n f).rindMain = s.rindMain := by unfold State.onLane; split <;> rfl
@[simp] theorem State.onLane_engines (n : Nat) (f : Lane → Lane) : (s.onLane n f).engines = s.engines := by unfold State.onLane; split <;> rfl
@[simp] theorem State.onLane_images (n : Nat) (f : Lane → Lane) : (s.onLane n f).images = s.images := by unfold State.onLane; split <;> rfl
@[simp] theorem State.onLane_loads (n : Nat) (f : Lane → Lane) : (s.onLane n f).loads = s.loads := by unfold State.onLane; split <;> rfl
@[simp] theorem State.onLane_press (n : Nat) (f : Lane → Lane) : (s.onLane n f).press = s.press := by unfold State.onLane; split <;> rfl
@[simp] theorem State.onLane_jobs (n : Nat) (f : Lane → Lane) : (s.onLane n f).jobs = s.jobs := by unfold State.onLane; split <;> rfl
@[simp] theorem State.onLane_savedJobs (n : Nat) (f : Lane → Lane) : (s.onLane n f).savedJobs = s.savedJobs := by unfold State.onLane; split <;> rfl
@[simp] theorem State.onLane_hostArea (n : Nat) (f : Lane → Lane) : (s.onLane n f).hostArea = s.hostArea := by unfold State.onLane; split <;> rfl
@[simp] theorem State.onLane_zones (n : Nat) (f : Lane → Lane) : (s.onLane n f).zones = s.zones := by unfold State.onLane; split <;> rfl
@[simp] theorem State.onLane_ladle (n : Nat) (f : Lane → Lane) : (s.onLane n f).ladle = s.ladle := by unfold State.onLane; split <;> rfl
@[simp] theorem State.onLane_look (n : Nat) (f : Lane → Lane) : (s.onLane n f).look = s.look := by unfold State.onLane; split <;> rfl
@[simp] theorem State.onLane_links (n : Nat) (f : Lane → Lane) : (s.onLane n f).links = s.links := by unfold State.onLane; split <;> rfl
@[simp] theorem State.onLane_streams (n : Nat) (f : Lane → Lane) : (s.onLane n f).streams = s.streams := by unfold State.onLane; split <;> rfl
@[simp] theorem State.onLane_boot (n : Nat) (f : Lane → Lane) : (s.onLane n f).boot = s.boot := by unfold State.onLane; split <;> rfl
@[simp] theorem State.onLane_aon (n : Nat) (f : Lane → Lane) : (s.onLane n f).aon = s.aon := by unfold State.onLane; split <;> rfl

end Sys2Proof.Machine
end

