-- ==== Sys2Proof/Laws/Events.lean ====
section
/-! SUPPORT. What raising an event, writing a record and sending a packet can do: they leave the block's work alone, and of the sessions they
change the event sequence numbers only. -/

namespace Sys2Proof.Machine

theorem SameWork.refl (s : State) : SameWork s s := by constructor <;> rfl

theorem SameWork.trans {a b c : State} (h : SameWork a b) (k : SameWork b c) : SameWork a c := by
  constructor
  all_goals first
    | exact k.pending.trans h.pending | exact k.free.trans h.free | exact k.time.trans h.time | exact k.glb.trans h.glb
    | exact k.settings.trans h.settings | exact k.commits.trans h.commits | exact k.ports.trans h.ports | exact k.lanes.trans h.lanes
    | exact k.pipes.trans h.pipes | exact k.sdc.trans h.sdc | exact k.shut.trans h.shut | exact k.emOn.trans h.emOn
    | exact k.clk.trans h.clk | exact k.tiu.trans h.tiu | exact k.axc1.trans h.axc1 | exact k.rind.trans h.rind
    | exact k.rindMain.trans h.rindMain | exact k.engines.trans h.engines | exact k.images.trans h.images | exact k.loads.trans h.loads
    | exact k.press.trans h.press | exact k.jobs.trans h.jobs | exact k.savedJobs.trans h.savedJobs
    | exact k.hostArea.trans h.hostArea | exact k.zones.trans h.zones | exact k.ladle.trans h.ladle | exact k.boot.trans h.boot
    | exact k.aon.trans h.aon

/-- A fold of steps that leave the work alone leaves it alone. -/
theorem SameWork.foldl {α : Type} (f : State → α → State) (h : ∀ s a, SameWork s (f s a)) (l : List α) (s : State) :
    SameWork s (l.foldl f s) := by
  induction l generalizing s with
  | nil => exact .refl s
  | cons a l ih => exact (h s a).trans (ih _)

theorem modLinks_same (s : State) (f : Links → Links) : SameWork s (s.modLinks f) := by constructor <;> rfl
theorem modCr_same (s : State) (n : Fin 4) (f : CmdRing → CmdRing) : SameWork s (s.modCr n f) := modLinks_same _ _
theorem modSess_same (s : State) (i : SessIx) (f : Session → Session) : SameWork s (s.modSess i f) := by constructor <;> rfl
theorem modLook_same (s : State) (f : Lookback → Lookback) : SameWork s (s.modLook f) := by constructor <;> rfl
theorem emit_same (s : State) (o : Output) : SameWork s (s.emit o) := by constructor <;> rfl
theorem modStreams_same (s : State) (f : Streams → Streams) : SameWork s (s.modStreams f) := by constructor <;> rfl
theorem modEv_same (s : State) (f : Events → Events) : SameWork s (s.modEv f) := by constructor <;> rfl

theorem msix_same (s : State) (v : BitVec 8) : SameWork s (s.msix v) := by
  unfold State.msix
  split
  · split
    · exact modLinks_same _ _
    · exact emit_same _ _
  · exact .refl _

theorem ringPut_same (s : State) (n : Fin 4) (bs : List Byte) : SameWork s (s.ringPut n bs).1 := by
  simp only [State.ringPut]
  exact ((modCr_same _ _ _).trans (emit_same _ _)).trans (msix_same _ _)

theorem sendEvent_same (s : State) (t : Transport) (bs : List Byte) : SameWork s (s.sendEvent t bs).1 := by
  unfold State.sendEvent
  split
  · split
    · exact .refl _
    · exact ringPut_same _ _ _
  · split
    · exact emit_same _ _
    · exact .refl _
  · dsimp only; exact modLinks_same _ _

theorem number_same (s : State) (it : TxItem) : SameWork s (s.number it).1 := by
  unfold State.number
  split
  · exact .refl _
  · dsimp only; exact modStreams_same _ _

theorem sendUnits_same (s : State) (it : TxItem) (l : Link) : SameWork s (s.sendUnits it l).1 := by
  simp only [State.sendUnits]
  exact (number_same s it).trans (SameWork.foldl _ (fun _ _ => emit_same _ _) _ _)

theorem flushStep_same (s : State) (acc : State × List TxItem) (it : TxItem) (h : SameWork s acc.1) : SameWork s (flushStep acc it).1 := by
  unfold flushStep
  split
  · exact h.trans (sendUnits_same _ _ _)
  · exact h

/-- A fold of steps over a state and a tally that leave the work alone leaves it alone. -/
theorem SameWork.foldl_fst {α β : Type} (f : State × β → α → State × β) (s : State) (h : ∀ acc a, SameWork s acc.1 → SameWork s (f acc a).1)
    (l : List α) (acc : State × β) (k : SameWork s acc.1) : SameWork s (l.foldl f acc).1 := by
  induction l generalizing acc with
  | nil => exact k
  | cons a l ih => exact ih _ (h _ _ k)

theorem flushEth_same (s : State) : SameWork s s.flushEth := by
  simp only [State.flushEth]
  split
  · exact .refl _
  · exact (SameWork.foldl_fst _ s (flushStep_same s) _ _ (.refl s)).trans (modStreams_same _ _)

theorem push_same (s : State) (n : Nat) (z : Option Nat) (r : Rec) (c : Nat) (b : Bool) : SameWork s (s.push n z r c b) := by
  unfold State.push
  exact (modStreams_same _ _).trans (flushEth_same _)

theorem eventPacketTo_same (s : State) (n : EvIx) (bs : List Byte) (acc : State × Bool) (i : SessIx) (h : SameWork s acc.1) :
    SameWork s (eventPacketTo n bs acc i).1 := by
  simp only [eventPacketTo]
  split
  · exact (h.trans (modSess_same _ _ _)).trans (sendEvent_same _ _ _)
  · exact h

theorem eventPackets_same (s : State) (n : EvIx) (bs : List Byte) : SameWork s (s.eventPackets n bs).1 :=
  SameWork.foldl_fst _ s (eventPacketTo_same s n bs) _ _ (.refl s)

theorem deliver_same (s : State) (n : EvIx) : SameWork s (s.deliver n).1 := by
  have h1 : SameWork s (if s.ev.cfg[n].msix then s.msix s.ev.cfg[n].vector else s) := by
    split
    · exact msix_same _ _
    · exact .refl _
  simp only [State.deliver]
  split
  · exact ((h1.trans (modEv_same _ _)).trans (push_same _ _ _ _ _ _)).trans (eventPackets_same _ _ _)
  · exact h1

theorem fireEvent_same (s : State) (n : Nat) : SameWork s (s.fireEvent n) := by unfold State.fireEvent; exact modLook_same _ _

theorem occur_same (s : State) (n : EvIx) : SameWork s (s.occur n).1 := by
  have h := (modEv_same s fun e => (e.counted n).setPending n s.time.dev s.time.mono).trans (fireEvent_same _ n.val)
  simp only [State.occur]
  split
  · exact .refl _
  · split
    · dsimp only; exact modEv_same _ _
    · split
      · exact h.trans (deliver_same _ _)
      · exact h

/-- An event leaves the block's work alone. -/
theorem raise_same (s : State) (n : EvIx) : SameWork s (s.raise n) := by
  have h := occur_same s n
  unfold State.raise
  dsimp only
  split
  · split
    · exact (h.trans (occur_same _ _)).trans (occur_same _ _)
    · exact h.trans (occur_same _ _)
  · exact h

theorem raiseN_same (s : State) (n : Nat) : SameWork s (s.raiseN n) := by
  unfold State.raiseN
  split
  · exact raise_same _ _
  · exact .refl _

theorem sendReply_same (s : State) (t : Transport) (bs : List Byte) : SameWork s (s.sendReply t bs) := by
  unfold State.sendReply
  split
  · split
    · exact modCr_same _ _ _
    · dsimp only
      split
      · exact (ringPut_same _ _ _).trans (raise_same _ _)
      · exact ringPut_same _ _ _
  · exact emit_same _ _
  · exact modLinks_same _ _

theorem whey_same (s : State) (n : Nat) (z : Option Nat) (w : Whey) : SameWork s (s.whey n z w) := by
  unfold State.whey
  exact (modStreams_same _ _).trans (push_same _ _ _ _ _ _)

theorem wheyZone_same (s : State) (z : Nat) (w : Whey) : SameWork s (s.wheyZone z w) := whey_same _ _ _ _

/-! ### The sessions -/

theorem SameSess.refl (s : State) : SameSess s s := fun i => ⟨s.sessions[i].evSeq, rfl⟩
theorem SameSess.of_eq {s t : State} (h : t.sessions = s.sessions) : SameSess s t := fun i => ⟨s.sessions[i].evSeq, by rw [h]⟩
theorem SameSess.trans {a b c : State} (h : SameSess a b) (k : SameSess b c) : SameSess a c := fun i => by
  obtain ⟨p, hp⟩ := h i
  obtain ⟨q, hq⟩ := k i
  exact ⟨q, by rw [hq, hp]⟩

theorem msix_sessions (s : State) (v : BitVec 8) : (s.msix v).sessions = s.sessions := by
  unfold State.msix
  repeat' split
  all_goals rfl
theorem ringPut_sessions (s : State) (n : Fin 4) (bs : List Byte) : (s.ringPut n bs).1.sessions = s.sessions := by
  simp [State.ringPut, msix_sessions]
theorem sendEvent_sessions (s : State) (t : Transport) (bs : List Byte) : (s.sendEvent t bs).1.sessions = s.sessions := by
  unfold State.sendEvent
  repeat' split
  all_goals first | rfl | simp [ringPut_sessions]
theorem number_sessions (s : State) (it : TxItem) : (s.number it).1.sessions = s.sessions := by unfold State.number; split <;> rfl
theorem sendUnits_sessions (s : State) (it : TxItem) (l : Link) : (s.sendUnits it l).1.sessions = s.sessions := by
  simp only [State.sendUnits]
  refine Eq.trans ?_ (number_sessions s it)
  generalize (s.number it).1 = u
  generalize List.range _ = l'
  induction l' generalizing u with
  | nil => rfl
  | cons a l ih => exact ih _
theorem flushEth_sessions (s : State) : s.flushEth.sessions = s.sessions := by
  simp only [State.flushEth]
  split
  · rfl
  · rw [State.modStreams_sessions]
    generalize txOrder _ = l
    suffices h : ∀ (l : List TxItem) (acc : State × List TxItem), acc.1.sessions = s.sessions → (l.foldl flushStep acc).1.sessions = s.sessions from
      h l (s, []) rfl
    intro l
    induction l with
    | nil => exact fun _ h => h
    | cons it l ih =>
      intro acc h
      refine ih _ ?_
      unfold flushStep
      split
      · exact (sendUnits_sessions _ _ _).trans h
      · exact h
theorem push_sessions (s : State) (n : Nat) (z : Option Nat) (r : Rec) (c : Nat) (b : Bool) : (s.push n z r c b).sessions = s.sessions := by
  unfold State.push; rw [flushEth_sessions]; rfl

theorem evSeq_same (s : State) (i : SessIx) : SameSess s (s.modSess i fun x => { x with evSeq := x.evSeq + 1 }) := fun j => by
  by_cases h : i = j
  · subst h
    exact ⟨s.sessions[i].evSeq + 1, by simp [State.modSess]⟩
  · refine ⟨s.sessions[j].evSeq, ?_⟩
    have hv : i.val ≠ j.val := fun e => h (Fin.ext e)
    simp [State.modSess, hv]

theorem eventPackets_sess (s : State) (n : EvIx) (bs : List Byte) : SameSess s (s.eventPackets n bs).1 := by
  unfold State.eventPackets
  suffices h : ∀ (l : List SessIx) (acc : State × Bool), SameSess s acc.1 → SameSess s (l.foldl (eventPacketTo n bs) acc).1 from h _ _ (.refl s)
  intro l
  induction l with
  | nil => exact fun _ h => h
  | cons i l ih =>
    intro acc h
    refine ih _ ?_
    simp only [eventPacketTo]
    split
    · exact (h.trans (evSeq_same _ _)).trans (.of_eq (sendEvent_sessions _ _ _))
    · exact h

theorem deliver_sess (s : State) (n : EvIx) : SameSess s (s.deliver n).1 := by
  have h1 : (if s.ev.cfg[n].msix then s.msix s.ev.cfg[n].vector else s).sessions = s.sessions := by
    split
    · exact msix_sessions _ _
    · rfl
  simp only [State.deliver]
  split
  · refine SameSess.trans (.of_eq ?_) (eventPackets_sess _ _ _)
    rw [push_sessions, State.modEv_sessions, h1]
  · exact .of_eq h1

theorem occur_sess (s : State) (n : EvIx) : SameSess s (s.occur n).1 := by
  simp only [State.occur]
  split
  · exact .refl _
  · split
    · exact .of_eq rfl
    · split
      · exact (SameSess.of_eq rfl).trans (deliver_sess _ _)
      · exact .of_eq rfl

/-- Of the sessions, an event changes the event sequence numbers only. -/
theorem raise_sess (s : State) (n : EvIx) : SameSess s (s.raise n) := by
  have h := occur_sess s n
  unfold State.raise
  dsimp only
  split
  · split
    · exact (h.trans (occur_sess _ _)).trans (occur_sess _ _)
    · exact h.trans (occur_sess _ _)
  · exact h

theorem sendReply_sess (s : State) (t : Transport) (bs : List Byte) : SameSess s (s.sendReply t bs) := by
  unfold State.sendReply
  split
  · split
    · exact .of_eq rfl
    · dsimp only
      split
      · exact (SameSess.of_eq (ringPut_sessions _ _ _)).trans (raise_sess _ _)
      · exact .of_eq (ringPut_sessions _ _ _)
  · exact .of_eq rfl
  · exact .of_eq rfl

/-! ### The pending bits -/

theorem msix_ev (s : State) (v : BitVec 8) : (s.msix v).ev = s.ev := by
  unfold State.msix
  repeat' split
  all_goals rfl
theorem ringPut_ev (s : State) (n : Fin 4) (bs : List Byte) : (s.ringPut n bs).1.ev = s.ev := by simp [State.ringPut, msix_ev]
theorem sendEvent_ev (s : State) (t : Transport) (bs : List Byte) : (s.sendEvent t bs).1.ev = s.ev := by
  unfold State.sendEvent
  repeat' split
  all_goals first | rfl | simp [ringPut_ev]
theorem number_ev (s : State) (it : TxItem) : (s.number it).1.ev = s.ev := by unfold State.number; split <;> rfl
theorem sendUnits_ev (s : State) (it : TxItem) (l : Link) : (s.sendUnits it l).1.ev = s.ev := by
  simp only [State.sendUnits]
  refine Eq.trans ?_ (number_ev s it)
  generalize (s.number it).1 = u
  generalize List.range _ = l'
  induction l' generalizing u with
  | nil => rfl
  | cons a l ih => exact ih _
theorem flushEth_ev (s : State) : s.flushEth.ev = s.ev := by
  simp only [State.flushEth]
  split
  · rfl
  · rw [State.modStreams_ev]
    generalize txOrder _ = l
    suffices h : ∀ (l : List TxItem) (acc : State × List TxItem), acc.1.ev = s.ev → (l.foldl flushStep acc).1.ev = s.ev from
      h l (s, []) rfl
    intro l
    induction l with
    | nil => exact fun _ h => h
    | cons it l ih =>
      intro acc h
      refine ih _ ?_
      unfold flushStep
      split
      · exact (sendUnits_ev _ _ _).trans h
      · exact h
theorem push_ev (s : State) (n : Nat) (z : Option Nat) (r : Rec) (c : Nat) (b : Bool) : (s.push n z r c b).ev = s.ev := by
  unfold State.push; rw [flushEth_ev]; rfl
theorem eventPackets_ev (s : State) (n : EvIx) (bs : List Byte) : (s.eventPackets n bs).1.ev = s.ev := by
  unfold State.eventPackets
  suffices h : ∀ (l : List SessIx) (acc : State × Bool), acc.1.ev = s.ev → (l.foldl (eventPacketTo n bs) acc).1.ev = s.ev from h _ _ rfl
  intro l
  induction l with
  | nil => exact fun _ h => h
  | cons i l ih =>
    intro acc h
    refine ih _ ?_
    simp only [eventPacketTo]
    split
    · exact (sendEvent_ev _ _ _).trans h
    · exact h

theorem deliver_pend (s : State) (n : EvIx) : (s.deliver n).1.ev.pend = s.ev.pend ∧ (s.deliver n).1.ev.en = s.ev.en := by
  have h1 : (if s.ev.cfg[n].msix then s.msix s.ev.cfg[n].vector else s).ev = s.ev := by
    split
    · exact msix_ev _ _
    · rfl
  simp only [State.deliver]
  split
  · rw [eventPackets_ev, push_ev, State.modEv_ev, h1]; exact ⟨rfl, rfl⟩
  · rw [h1]; exact ⟨rfl, rfl⟩

/-- An occurrence sets its pending bit, and no other. -/
theorem occur_pend (s : State) (n : EvIx) (h : s.boot.inReset = false) : (s.occur n).1.ev.pend = s.ev.pend ||| (1#256 <<< n.val) := by
  have hb : s.ev.pend.getLsbD n.val = true → s.ev.pend = s.ev.pend ||| (1#256 <<< n.val) := by
    intro hp
    apply BitVec.eq_of_getLsbD_eq
    intro j hj
    simp only [BitVec.getLsbD_or, BitVec.getLsbD_shiftLeft, BitVec.getLsbD_one]
    by_cases e : j = n.val
    · subst e; simp [hp]
    · have : j < n.val ∨ ¬ (j - n.val = 0) := by omega
      rcases this with h | h <;> simp [h]
  simp only [State.occur]
  rw [if_neg (by simp [h])]
  split
  · rename_i hp; exact hb hp
  · split
    · rw [(deliver_pend _ _).1]; rfl
    · rfl

/-- An event sets its pending bit, and clears none. -/
theorem raise_pend (s : State) (n m : EvIx) (h : s.boot.inReset = false) (k : m = n ∨ s.ev.pend.getLsbD m.val = true) :
    (s.raise n).ev.pend.getLsbD m.val = true := by
  have mono : ∀ (u : State) (a : EvIx), u.boot.inReset = false → (m = a ∨ u.ev.pend.getLsbD m.val = true) →
      (u.occur a).1.ev.pend.getLsbD m.val = true := by
    intro u a hu hk
    rw [occur_pend u a hu]
    rcases hk with rfl | hk
    · simp
    · simp [hk]
  have ib : ∀ (u : State) (a : EvIx), u.boot.inReset = false → (u.occur a).1.boot.inReset = false := fun u a hu => by
    rw [(occur_same u a).boot]; exact hu
  have h1 := mono s n h k
  have b1 := ib s n h
  unfold State.raise
  dsimp only
  split
  · split
    · exact mono _ _ (ib _ _ b1) (.inr (mono _ _ b1 (.inr h1)))
    · exact mono _ _ b1 (.inr h1)
  · exact h1

end Sys2Proof.Machine
end

