-- ==== Sys2Proof/Laws/Memory.lean ====
section
/-! SUPPORT. The laws of the sparse byte memories: reads after writes, and the canonical form. -/

namespace Sys2Proof.Laws

open Sys2Proof.Machine

/-- A memory of one cell or more, taken apart. -/
theorem wf_cons (c : Host.Cell) (m : Mem) :
    Mem.wf (c :: m) = true ↔ c.2 ≠ 0 ∧ (∀ d ∈ m, c.1 < d.1) ∧ Mem.wf m = true := by
  induction m generalizing c with
  | nil => simp [Mem.wf]
  | cons d r ih =>
    simp only [Mem.wf, Bool.and_eq_true, decide_eq_true_eq, List.mem_cons, forall_eq_or_imp]
    constructor
    · rintro ⟨⟨h1, h2⟩, h3⟩
      exact ⟨h1, ⟨h2, fun e he => Nat.lt_trans h2 (((ih d).1 h3).2.1 e he)⟩, h3⟩
    · rintro ⟨h1, ⟨h2, _⟩, h3⟩
      exact ⟨⟨h1, h2⟩, h3⟩

/-- Below every listed address a memory reads 0. -/
theorem read_below (m : Mem) (a : Nat) (h : ∀ d ∈ m, a < d.1) : m.read a = 0 := by
  cases m with
  | nil => rfl
  | cons c cs =>
    have hc := h c (List.mem_cons_self ..)
    simp [Mem.read, Nat.ne_of_gt hc, hc]

/-- Every cell after a write is the one written or was listed before. -/
theorem mem_write (m : Mem) (a : Nat) (v : Byte) (d : Host.Cell) (h : d ∈ m.write a v) : d = (a, v) ∨ d ∈ m := by
  induction m with
  | nil =>
    simp only [Mem.write] at h
    split at h <;> simp_all
  | cons c cs ih =>
    simp only [Mem.write] at h
    split at h
    · split at h
      · exact .inr (List.mem_cons_of_mem _ h)
      · rcases List.mem_cons.1 h with h | h
        · exact .inl h
        · exact .inr (List.mem_cons_of_mem _ h)
    · split at h
      · split at h
        · exact .inr h
        · rcases List.mem_cons.1 h with h | h
          · exact .inl h
          · exact .inr h
      · rcases List.mem_cons.1 h with h | h
        · exact .inr (h ▸ List.mem_cons_self ..)
        · exact (ih h).imp_right (List.mem_cons_of_mem _)

/-- A write keeps the canonical form. -/
theorem write_wf (m : Mem) (a : Nat) (v : Byte) (h : m.wf = true) : (m.write a v).wf = true := by
  induction m with
  | nil =>
    simp only [Mem.write]
    split <;> simp_all [Mem.wf]
  | cons c cs ih =>
    have hc := (wf_cons c cs).1 h
    simp only [Mem.write]
    split
    · rename_i he
      split
      · exact hc.2.2
      · rename_i hv
        exact (wf_cons _ _).2 ⟨hv, fun d hd => he ▸ hc.2.1 d hd, hc.2.2⟩
    · split
      · rename_i hl
        split
        · exact h
        · rename_i hv
          refine (wf_cons _ _).2 ⟨hv, fun d hd => ?_, h⟩
          rcases List.mem_cons.1 hd with hd | hd
          · exact hd ▸ hl
          · exact Nat.lt_trans hl (hc.2.1 d hd)
      · rename_i hn hl
        refine (wf_cons _ _).2 ⟨hc.1, fun d hd => ?_, ih hc.2.2⟩
        rcases mem_write _ _ _ _ hd with hd | hd
        · subst hd; show c.1 < a; omega
        · exact hc.2.1 d hd

/-- Writing bytes from an address upwards keeps the canonical form. -/
theorem writes_wf (m : Mem) (a : Nat) (l : List Byte) (h : m.wf = true) : (m.writes a l).wf = true := by
  induction l generalizing m a with
  | nil => exact h
  | cons b bs ih => exact ih _ _ (write_wf m a b h)

/-- Reading the address just written gives the byte written. -/
theorem read_write (m : Mem) (a : Nat) (v : Byte) (h : m.wf = true) : (m.write a v).read a = v := by
  induction m with
  | nil => simp only [Mem.write]; split <;> simp_all [Mem.read]
  | cons c cs ih =>
    have hc := (wf_cons c cs).1 h
    simp only [Mem.write]
    split
    · rename_i he
      split
      · rename_i hv
        rw [hv]; exact read_below _ _ fun d hd => he ▸ hc.2.1 d hd
      · simp [Mem.read]
    · split
      · rename_i hn hl
        split
        · rename_i hv; simp [Mem.read, hn, hl, hv]
        · simp [Mem.read]
      · rename_i hn hl; simp [Mem.read, hn, hl, ih hc.2.2]

/-- Reading any other address gives what it gave before. -/
theorem read_write_of_ne (m : Mem) (a b : Nat) (v : Byte) (h : m.wf = true) (hb : b ≠ a) : (m.write a v).read b = m.read b := by
  induction m with
  | nil => simp only [Mem.write]; split <;> simp_all [Mem.read, Ne.symm hb]
  | cons c cs ih =>
    have hc := (wf_cons c cs).1 h
    simp only [Mem.write]
    split
    · rename_i he
      split
      · by_cases hl : b < c.1
        · rw [read_below cs b fun d hd => Nat.lt_trans hl (hc.2.1 d hd)]; simp [Mem.read, hl, show ¬ c.1 = b by omega]
        · simp [Mem.read, hl, show ¬ c.1 = b by omega]
      · by_cases hl : b < a
        · simp [Mem.read, he ▸ hl, hl, Ne.symm hb, show ¬ c.1 = b by omega]
        · simp [Mem.read, he ▸ hl, hl, Ne.symm hb, show ¬ c.1 = b by omega]
    · split
      · rename_i hn hl
        split
        · rfl
        · by_cases hl' : b < a
          · simp [Mem.read, hl', Ne.symm hb, show b < c.1 by omega, show ¬ c.1 = b by omega]
          · simp [Mem.read, hl', Ne.symm hb]
      · simp only [Mem.read, ih hc.2.2]

/-- Addresses outside the bytes written read as before. -/
theorem read_writes_outside (m : Mem) (a b : Nat) (l : List Byte) (h : m.wf = true) (hb : b < a ∨ a + l.length ≤ b) :
    (m.writes a l).read b = m.read b := by
  induction l generalizing m a with
  | nil => rfl
  | cons x xs ih =>
    simp only [List.length_cons] at hb
    rw [Mem.writes, ih _ _ (write_wf m a x h) (by omega), read_write_of_ne m a b x h (by omega)]

/-- Reading where bytes were written gives them. -/
theorem read_writes (m : Mem) (a i : Nat) (l : List Byte) (h : m.wf = true) (hi : i < l.length) : (m.writes a l).read (a + i) = l[i] := by
  induction l generalizing m a i with
  | nil => simp at hi
  | cons x xs ih =>
    cases i with
    | zero => rw [Mem.writes, read_writes_outside _ _ _ _ (write_wf m a x h) (by omega)]; simpa using read_write m a x h
    | succ k =>
      have := ih (m.write a x) (a + 1) k (write_wf m a x h) (by simpa using hi)
      simpa [Mem.writes, Nat.add_assoc, Nat.add_comm 1 k] using this

end Sys2Proof.Laws
end

