-- ==== Sys2Proof/Laws/PerInstr.lean ====
section
/-! SUPPORT. The family `Requests`, per command: a row that carries a packet has an opcode of R462, and is well formed exactly when its packet is. -/

namespace Sys2Proof.Laws.Requests

open Sys2Proof Sys2Proof.Machine Sys2Proof.Laws

/-- What the family says of a command; UNKNOWN_OPCODE's opcode is any. -/
def Statement (i : Instr) : Prop :=
  ∀ op k, request i = some (op, k) → (op ∈ opcodes ∨ ∃ o, i = .unknownOpcode o k) ∧ i.wf = k.wf

/-- The family of a packet row with a listed opcode. -/
theorem of_request (i : Instr) (n : Nat) (x : Packet) (h : request i = some (n, x)) (hn : opcodes.contains n = true) (hw : i.wf = x.wf) : Statement i := by
  intro op k hk
  rw [h] at hk
  cases hk
  exact ⟨.inl (List.contains_iff_mem.1 hn), hw⟩

/-- The family of a row without a packet. -/
theorem of_none (i : Instr) (h : request i = none) : Statement i := by
  intro op k hk
  rw [h] at hk
  cases hk

theorem sessionOpen : ∀ x0, Statement (.sessionOpen x0) := fun x0 => of_request _ _ x0 rfl (by decide) rfl
theorem sessionClose : ∀ x0, Statement (.sessionClose x0) := fun x0 => of_request _ _ x0 rfl (by decide) rfl
theorem sessionPing : ∀ x0, Statement (.sessionPing x0) := fun x0 => of_request _ _ x0 rfl (by decide) rfl
theorem eventSubscribe : ∀ x0, Statement (.eventSubscribe x0) := fun x0 => of_request _ _ x0 rfl (by decide) rfl
theorem identify : ∀ x0, Statement (.identify x0) := fun x0 => of_request _ _ x0 rfl (by decide) rfl
theorem unknownOpcode : ∀ x0 x1, Statement (.unknownOpcode x0 x1) := fun x0 _ op k h => by
  cases h; exact ⟨.inr ⟨x0, rfl⟩, rfl⟩
theorem txnBegin : ∀ x0, Statement (.txnBegin x0) := fun x0 => of_request _ _ x0 rfl (by decide) rfl
theorem txnCommit : ∀ x0, Statement (.txnCommit x0) := fun x0 => of_request _ _ x0 rfl (by decide) rfl
theorem txnRollback : ∀ x0, Statement (.txnRollback x0) := fun x0 => of_request _ _ x0 rfl (by decide) rfl
theorem txnQuery : ∀ x0, Statement (.txnQuery x0) := fun x0 => of_request _ _ x0 rfl (by decide) rfl
theorem planSet : ∀ x0, Statement (.planSet x0) := fun x0 => of_request _ _ x0 rfl (by decide) rfl
theorem modeSet : ∀ x0, Statement (.modeSet x0) := fun x0 => of_request _ _ x0 rfl (by decide) rfl
theorem portSafety : ∀ x0, Statement (.portSafety x0) := fun x0 => of_request _ _ x0 rfl (by decide) rfl
theorem delaySet : ∀ x0, Statement (.delaySet x0) := fun x0 => of_request _ _ x0 rfl (by decide) rfl
theorem emitterSet : ∀ x0, Statement (.emitterSet x0) := fun x0 => of_request _ _ x0 rfl (by decide) rfl
theorem emitterDelete : ∀ x0, Statement (.emitterDelete x0) := fun x0 => of_request _ _ x0 rfl (by decide) rfl
theorem rearm : ∀ x0, Statement (.rearm x0) := fun x0 => of_request _ _ x0 rfl (by decide) rfl
theorem endRebase : ∀ x0, Statement (.endRebase x0) := fun x0 => of_request _ _ x0 rfl (by decide) rfl
theorem portQuery : ∀ x0, Statement (.portQuery x0) := fun x0 => of_request _ _ x0 rfl (by decide) rfl
theorem emitterQuery : ∀ x0, Statement (.emitterQuery x0) := fun x0 => of_request _ _ x0 rfl (by decide) rfl
theorem zoneSet : ∀ x0, Statement (.zoneSet x0) := fun x0 => of_request _ _ x0 rfl (by decide) rfl
theorem zoneDelete : ∀ x0, Statement (.zoneDelete x0) := fun x0 => of_request _ _ x0 rfl (by decide) rfl
theorem pinSet : ∀ x0, Statement (.pinSet x0) := fun x0 => of_request _ _ x0 rfl (by decide) rfl
theorem placeQuery : ∀ x0, Statement (.placeQuery x0) := fun x0 => of_request _ _ x0 rfl (by decide) rfl
theorem rebalance : ∀ x0, Statement (.rebalance x0) := fun x0 => of_request _ _ x0 rfl (by decide) rfl
theorem capacity : ∀ x0, Statement (.capacity x0) := fun x0 => of_request _ _ x0 rfl (by decide) rfl
theorem retire : ∀ x0, Statement (.retire x0) := fun x0 => of_request _ _ x0 rfl (by decide) rfl
theorem ladleSet : ∀ x0, Statement (.ladleSet x0) := fun x0 => of_request _ _ x0 rfl (by decide) rfl
theorem syncReset : ∀ x0, Statement (.syncReset x0) := fun x0 => of_request _ _ x0 rfl (by decide) rfl
theorem streamRoute : ∀ x0, Statement (.streamRoute x0) := fun x0 => of_request _ _ x0 rfl (by decide) rfl
theorem configSave : ∀ x0, Statement (.configSave x0) := fun x0 => of_request _ _ x0 rfl (by decide) rfl
theorem rxcalSet : ∀ x0, Statement (.rxcalSet x0) := fun x0 => of_request _ _ x0 rfl (by decide) rfl
theorem darkFloor : ∀ x0, Statement (.darkFloor x0) := fun x0 => of_request _ _ x0 rfl (by decide) rfl
theorem rxcalQuery : ∀ x0, Statement (.rxcalQuery x0) := fun x0 => of_request _ _ x0 rfl (by decide) rfl
theorem clockSet : ∀ x0, Statement (.clockSet x0) := fun x0 => of_request _ _ x0 rfl (by decide) rfl
theorem tiuSet : ∀ x0, Statement (.tiuSet x0) := fun x0 => of_request _ _ x0 rfl (by decide) rfl
theorem timeQuery : ∀ x0, Statement (.timeQuery x0) := fun x0 => of_request _ _ x0 rfl (by decide) rfl
theorem measStart : ∀ x0, Statement (.measStart x0) := fun x0 => of_request _ _ x0 rfl (by decide) rfl
theorem measCancel : ∀ x0, Statement (.measCancel x0) := fun x0 => of_request _ _ x0 rfl (by decide) rfl
theorem anchor : ∀ x0, Statement (.anchor x0) := fun x0 => of_request _ _ x0 rfl (by decide) rfl
theorem servoSet : ∀ x0, Statement (.servoSet x0) := fun x0 => of_request _ _ x0 rfl (by decide) rfl
theorem thermalSet : ∀ x0, Statement (.thermalSet x0) := fun x0 => of_request _ _ x0 rfl (by decide) rfl
theorem scheduleSet : ∀ x0, Statement (.scheduleSet x0) := fun x0 => of_request _ _ x0 rfl (by decide) rfl
theorem frontEndSet : ∀ x0, Statement (.frontEndSet x0) := fun x0 => of_request _ _ x0 rfl (by decide) rfl
theorem rindIdentify : ∀ x0, Statement (.rindIdentify x0) := fun x0 => of_request _ _ x0 rfl (by decide) rfl
theorem rindQuery : ∀ x0, Statement (.rindQuery x0) := fun x0 => of_request _ _ x0 rfl (by decide) rfl
theorem sealSet : ∀ x0, Statement (.sealSet x0) := fun x0 => of_request _ _ x0 rfl (by decide) rfl
theorem sealBreak : ∀ x0, Statement (.sealBreak x0) := fun x0 => of_request _ _ x0 rfl (by decide) rfl
theorem auditRead : ∀ x0, Statement (.auditRead x0) := fun x0 => of_request _ _ x0 rfl (by decide) rfl
theorem auditAck : ∀ x0, Statement (.auditAck x0) := fun x0 => of_request _ _ x0 rfl (by decide) rfl
theorem rindFwLoad : ∀ x0, Statement (.rindFwLoad x0) := fun x0 => of_request _ _ x0 rfl (by decide) rfl
theorem calBegin : ∀ x0, Statement (.calBegin x0) := fun x0 => of_request _ _ x0 rfl (by decide) rfl
theorem calZero : ∀ x0, Statement (.calZero x0) := fun x0 => of_request _ _ x0 rfl (by decide) rfl
theorem calFull : ∀ x0, Statement (.calFull x0) := fun x0 => of_request _ _ x0 rfl (by decide) rfl
theorem calApply : ∀ x0, Statement (.calApply x0) := fun x0 => of_request _ _ x0 rfl (by decide) rfl
theorem calCancel : ∀ x0, Statement (.calCancel x0) := fun x0 => of_request _ _ x0 rfl (by decide) rfl
theorem axc0Urgent : ∀ x0, Statement (.axc0Urgent x0) := fun x0 => of_request _ _ x0 rfl (by decide) rfl
theorem imageLoad : ∀ x0, Statement (.imageLoad x0) := fun x0 => of_request _ _ x0 rfl (by decide) rfl
theorem imageDelete : ∀ x0, Statement (.imageDelete x0) := fun x0 => of_request _ _ x0 rfl (by decide) rfl
theorem imageQuery : ∀ x0, Statement (.imageQuery x0) := fun x0 => of_request _ _ x0 rfl (by decide) rfl
theorem jobSubmit : ∀ x0, Statement (.jobSubmit x0) := fun x0 => of_request _ _ x0 rfl (by decide) rfl
theorem jobCancel : ∀ x0, Statement (.jobCancel x0) := fun x0 => of_request _ _ x0 rfl (by decide) rfl
theorem pressQuery : ∀ x0, Statement (.pressQuery x0) := fun x0 => of_request _ _ x0 rfl (by decide) rfl
theorem triggerSet : ∀ x0, Statement (.triggerSet x0) := fun x0 => of_request _ _ x0 rfl (by decide) rfl
theorem triggerDelete : ∀ x0, Statement (.triggerDelete x0) := fun x0 => of_request _ _ x0 rfl (by decide) rfl
theorem triggerFire : ∀ x0, Statement (.triggerFire x0) := fun x0 => of_request _ _ x0 rfl (by decide) rfl
theorem captureRelease : ∀ x0, Statement (.captureRelease x0) := fun x0 => of_request _ _ x0 rfl (by decide) rfl
theorem dump : ∀ x0, Statement (.dump x0) := fun x0 => of_request _ _ x0 rfl (by decide) rfl
theorem reanalyse : ∀ x0, Statement (.reanalyse x0) := fun x0 => of_request _ _ x0 rfl (by decide) rfl
theorem captureQuery : ∀ x0, Statement (.captureQuery x0) := fun x0 => of_request _ _ x0 rfl (by decide) rfl
theorem sliceTest : ∀ x0, Statement (.sliceTest x0) := fun x0 => of_request _ _ x0 rfl (by decide) rfl
theorem selfTest : ∀ x0, Statement (.selfTest x0) := fun x0 => of_request _ _ x0 rfl (by decide) rfl
theorem faultLog : ∀ x0, Statement (.faultLog x0) := fun x0 => of_request _ _ x0 rfl (by decide) rfl
theorem journalRead : ∀ x0, Statement (.journalRead x0) := fun x0 => of_request _ _ x0 rfl (by decide) rfl
theorem journalClear : ∀ x0, Statement (.journalClear x0) := fun x0 => of_request _ _ x0 rfl (by decide) rfl
theorem powerSet : ∀ x0, Statement (.powerSet x0) := fun x0 => of_request _ _ x0 rfl (by decide) rfl
theorem powerQuery : ∀ x0, Statement (.powerQuery x0) := fun x0 => of_request _ _ x0 rfl (by decide) rfl
theorem commitBoundary : ∀ x0, Statement (.commitBoundary x0) := fun _ => of_none _ rfl
theorem txnTimeout : ∀ x0, Statement (.txnTimeout x0) := fun _ => of_none _ rfl
theorem sessionTimeout : ∀ x0, Statement (.sessionTimeout x0) := fun _ => of_none _ rfl
theorem nop : ∀ x0, Statement (.nop x0) := fun _ => of_none _ rfl
theorem halt : ∀ x0, Statement (.halt x0) := fun _ => of_none _ rfl
theorem evt : ∀ x0, Statement (.evt x0) := fun _ => of_none _ rfl
theorem clra : ∀ x0, Statement (.clra x0) := fun _ => of_none _ rfl
theorem mac : ∀ x0, Statement (.mac x0) := fun _ => of_none _ rfl
theorem msu : ∀ x0, Statement (.msu x0) := fun _ => of_none _ rfl
theorem mul : ∀ x0, Statement (.mul x0) := fun _ => of_none _ rfl
theorem adda : ∀ x0, Statement (.adda x0) := fun _ => of_none _ rfl
theorem sha : ∀ x0, Statement (.sha x0) := fun _ => of_none _ rfl
theorem sta : ∀ x0, Statement (.sta x0) := fun _ => of_none _ rfl
theorem stau : ∀ x0, Statement (.stau x0) := fun _ => of_none _ rfl
theorem stal : ∀ x0, Statement (.stal x0) := fun _ => of_none _ rfl
theorem ld : ∀ x0, Statement (.ld x0) := fun _ => of_none _ rfl
theorem ld2 : ∀ x0, Statement (.ld2 x0) := fun _ => of_none _ rfl
theorem st : ∀ x0, Statement (.st x0) := fun _ => of_none _ rfl
theorem st2 : ∀ x0, Statement (.st2 x0) := fun _ => of_none _ rfl
theorem ldi : ∀ x0, Statement (.ldi x0) := fun _ => of_none _ rfl
theorem mov : ∀ x0, Statement (.mov x0) := fun _ => of_none _ rfl
theorem alu : ∀ x0, Statement (.alu x0) := fun _ => of_none _ rfl
theorem alui : ∀ x0, Statement (.alui x0) := fun _ => of_none _ rfl
theorem mmx : ∀ x0, Statement (.mmx x0) := fun _ => of_none _ rfl
theorem mmclr : ∀ x0, Statement (.mmclr x0) := fun _ => of_none _ rfl
theorem br : ∀ x0, Statement (.br x0) := fun _ => of_none _ rfl
theorem call : ∀ x0, Statement (.call x0) := fun _ => of_none _ rfl
theorem ret : ∀ x0, Statement (.ret x0) := fun _ => of_none _ rfl
theorem loop : ∀ x0, Statement (.loop x0) := fun _ => of_none _ rfl
theorem cave : ∀ x0, Statement (.cave x0) := fun _ => of_none _ rfl
theorem cwait : ∀ x0, Statement (.cwait x0) := fun _ => of_none _ rfl
theorem caveTransferComplete : ∀ x0 x1, Statement (.caveTransferComplete x0 x1) := fun _ _ => of_none _ rfl
theorem waitlim : ∀ x0, Statement (.waitlim x0) := fun _ => of_none _ rfl
theorem invocationStart : ∀ x0, Statement (.invocationStart x0) := fun _ => of_none _ rfl
theorem vatAbort : ∀ x0 x1, Statement (.vatAbort x0 x1) := fun _ _ => of_none _ rfl
theorem pressAbort : ∀ x0 x1, Statement (.pressAbort x0 x1) := fun _ _ => of_none _ rfl
theorem pressDisable : ∀ x0 x1, Statement (.pressDisable x0 x1) := fun _ _ => of_none _ rfl
theorem pressDrainComplete : ∀ x0, Statement (.pressDrainComplete x0) := fun _ => of_none _ rfl
theorem sdcEnable : ∀ x0, Statement (.sdcEnable x0) := fun _ => of_none _ rfl
theorem sdcDisable : ∀ x0, Statement (.sdcDisable x0) := fun _ => of_none _ rfl
theorem ckgEnClear : ∀ x0 x1, Statement (.ckgEnClear x0 x1) := fun _ _ => of_none _ rfl
theorem ckgEnSet : ∀ x0 x1, Statement (.ckgEnSet x0 x1) := fun _ _ => of_none _ rfl
theorem rstCtlWarm : Statement .rstCtlWarm := of_none _ rfl
theorem timeCapture : Statement .timeCapture := of_none _ rfl
theorem fcntStart : ∀ x0, Statement (.fcntStart x0) := fun _ => of_none _ rfl
theorem fcntDone : ∀ x0 x1, Statement (.fcntDone x0 x1) := fun _ _ => of_none _ rfl
theorem fcntNoclk : Statement .fcntNoclk := of_none _ rfl
theorem axc1Enable : ∀ x0, Statement (.axc1Enable x0) := fun _ => of_none _ rfl
theorem axc1Disable : ∀ x0, Statement (.axc1Disable x0) := fun _ => of_none _ rfl
theorem axc1Start : ∀ x0, Statement (.axc1Start x0) := fun _ => of_none _ rfl
theorem axc1UrgentRequest : ∀ x0, Statement (.axc1UrgentRequest x0) := fun _ => of_none _ rfl
theorem axc1EntryComplete : ∀ x0, Statement (.axc1EntryComplete x0) := fun _ => of_none _ rfl
theorem trimWrite : ∀ x0 x1 x2, Statement (.trimWrite x0 x1 x2) := fun _ _ _ => of_none _ rfl
theorem calModeWrite : ∀ x0 x1, Statement (.calModeWrite x0 x1) := fun _ _ => of_none _ rfl
theorem evPendClear : ∀ x0 x1 x2, Statement (.evPendClear x0 x1 x2) := fun _ _ _ => of_none _ rfl
theorem evRouteWrite : ∀ x0 x1, Statement (.evRouteWrite x0 x1) := fun _ _ => of_none _ rfl
theorem crDoorbell : ∀ x0 x1 x2, Statement (.crDoorbell x0 x1 x2) := fun _ _ _ => of_none _ rfl
theorem crRtailWrite : ∀ x0 x1, Statement (.crRtailWrite x0 x1) := fun _ _ => of_none _ rfl
theorem srTailWrite : ∀ x0 x1 x2, Statement (.srTailWrite x0 x1 x2) := fun _ _ _ => of_none _ rfl
theorem registerWrite : ∀ x0 x1 x2 x3, Statement (.registerWrite x0 x1 x2 x3) := fun _ _ _ _ => of_none _ rfl
theorem msixEnable : Statement .msixEnable := of_none _ rfl
theorem pendingSelfClear : ∀ x0 x1, Statement (.pendingSelfClear x0 x1) := fun _ _ => of_none _ rfl
theorem groupLaunch : ∀ x0 x1 x2, Statement (.groupLaunch x0 x1 x2) := fun _ _ _ => of_none _ rfl
theorem frameBoundary : ∀ x0, Statement (.frameBoundary x0) := fun _ => of_none _ rfl
theorem laneStartupEnd : ∀ x0, Statement (.laneStartupEnd x0) := fun _ => of_none _ rfl
theorem laneOverrange : ∀ x0 x1 x2 x3, Statement (.laneOverrange x0 x1 x2 x3) := fun _ _ _ _ => of_none _ rfl
theorem recoveryCountEnd : ∀ x0, Statement (.recoveryCountEnd x0) := fun _ => of_none _ rfl
theorem sliceFailureDetected : ∀ x0 x1 x2, Statement (.sliceFailureDetected x0 x1 x2) := fun _ _ _ => of_none _ rfl
theorem sliceSwap : ∀ x0 x1, Statement (.sliceSwap x0 x1) := fun _ _ => of_none _ rfl
theorem calibrationEstimate : ∀ x0 x1, Statement (.calibrationEstimate x0 x1) := fun _ _ => of_none _ rfl
theorem trimWalkStep : ∀ x0, Statement (.trimWalkStep x0) := fun _ => of_none _ rfl
theorem calibrationHoldEnd : ∀ x0 x1, Statement (.calibrationHoldEnd x0 x1) := fun _ _ => of_none _ rfl
theorem darkFrameEnd : ∀ x0 x1 x2, Statement (.darkFrameEnd x0 x1 x2) := fun _ _ _ => of_none _ rfl
theorem inputBufferFull : ∀ x0, Statement (.inputBufferFull x0) := fun _ => of_none _ rfl
theorem inputResume : ∀ x0 x1, Statement (.inputResume x0 x1) := fun _ _ => of_none _ rfl
theorem paceWindowEnd : ∀ x0 x1 x2, Statement (.paceWindowEnd x0 x1 x2) := fun _ _ _ => of_none _ rfl
theorem pingProcessed : ∀ x0 x1 x2, Statement (.pingProcessed x0 x1 x2) := fun _ _ _ => of_none _ rfl
theorem endDetermination : ∀ x0, Statement (.endDetermination x0) := fun _ => of_none _ rfl
theorem exactOutput : ∀ x0 x1, Statement (.exactOutput x0 x1) := fun _ _ => of_none _ rfl
theorem featureIntervalEnd : ∀ x0, Statement (.featureIntervalEnd x0) := fun _ => of_none _ rfl
theorem delayRecordIntervalEnd : ∀ x0, Statement (.delayRecordIntervalEnd x0) := fun _ => of_none _ rfl
theorem sdcFrameEnd : ∀ x0, Statement (.sdcFrameEnd x0) := fun _ => of_none _ rfl
theorem sdcDiscoveryStart : Statement .sdcDiscoveryStart := of_none _ rfl
theorem sdcDiscoveryEnd : ∀ x0, Statement (.sdcDiscoveryEnd x0) := fun _ => of_none _ rfl
theorem sdcDiscoveryRetry : Statement .sdcDiscoveryRetry := of_none _ rfl
theorem interlockOpen : Statement .interlockOpen := of_none _ rfl
theorem interlockClosed : Statement .interlockClosed := of_none _ rfl
theorem ckRefSourceLost : ∀ x0, Statement (.ckRefSourceLost x0) := fun _ => of_none _ rfl
theorem ckRefSourceQualified : ∀ x0, Statement (.ckRefSourceQualified x0) := fun _ => of_none _ rfl
theorem ckRefSwitch : Statement .ckRefSwitch := of_none _ rfl
theorem ckRefRampComplete : Statement .ckRefRampComplete := of_none _ rfl
theorem fsRetuneTimeout : Statement .fsRetuneTimeout := of_none _ rfl
theorem samplingLockLost : Statement .samplingLockLost := of_none _ rfl
theorem samplingLockRegained : Statement .samplingLockRegained := of_none _ rfl
theorem probeLockLost : Statement .probeLockLost := of_none _ rfl
theorem probeLockRegained : Statement .probeLockRegained := of_none _ rfl
theorem otherLoopLockLost : ∀ x0, Statement (.otherLoopLockLost x0) := fun _ => of_none _ rfl
theorem otherLoopLockRegained : ∀ x0, Statement (.otherLoopLockRegained x0) := fun _ => of_none _ rfl
theorem memoryLockTimeout : Statement .memoryLockTimeout := of_none _ rfl
theorem ref10StateChange : ∀ x0, Statement (.ref10StateChange x0) := fun _ => of_none _ rfl
theorem ppsStateChange : Statement .ppsStateChange := of_none _ rfl
theorem timescaleChange : Statement .timescaleChange := of_none _ rfl
theorem converterRotation : ∀ x0 x1 x2, Statement (.converterRotation x0 x1 x2) := fun _ _ _ => of_none _ rfl
theorem measArmEdge : ∀ x0, Statement (.measArmEdge x0) := fun _ => of_none _ rfl
theorem measWindowOpen : Statement .measWindowOpen := of_none _ rfl
theorem armTimeout : Statement .armTimeout := of_none _ rfl
theorem measEdge : ∀ x0, Statement (.measEdge x0) := fun _ => of_none _ rfl
theorem measGateClose : Statement .measGateClose := of_none _ rfl
theorem anchorPeriodExpiry : ∀ x0, Statement (.anchorPeriodExpiry x0) := fun _ => of_none _ rfl
theorem stepEnd : Statement .stepEnd := of_none _ rfl
theorem switchStrobes : Statement .switchStrobes := of_none _ rfl
theorem averageStart : Statement .averageStart := of_none _ rfl
theorem shot : ∀ x0, Statement (.shot x0) := fun _ => of_none _ rfl
theorem averageEnd : Statement .averageEnd := of_none _ rfl
theorem profileIssue : ∀ x0, Statement (.profileIssue x0) := fun _ => of_none _ rfl
theorem ramanInhibitAssert : Statement .ramanInhibitAssert := of_none _ rfl
theorem ramanInhibitRelease : Statement .ramanInhibitRelease := of_none _ rfl
theorem profile : ∀ x0, Statement (.profile x0) := fun _ => of_none _ rfl
theorem announce : ∀ x0, Statement (.announce x0) := fun _ => of_none _ rfl
theorem switched : ∀ x0, Statement (.switched x0) := fun _ => of_none _ rfl
theorem eventMessage : ∀ x0, Statement (.eventMessage x0) := fun _ => of_none _ rfl
theorem audit : ∀ x0, Statement (.audit x0) := fun _ => of_none _ rfl
theorem reading : ∀ x0, Statement (.reading x0) := fun _ => of_none _ rfl
theorem rpRetransmit : Statement .rpRetransmit := of_none _ rfl
theorem ackAfterSilence : Statement .ackAfterSilence := of_none _ rfl
theorem mailboxRequest : Statement .mailboxRequest := of_none _ rfl
theorem mailboxTimeout : Statement .mailboxTimeout := of_none _ rfl
theorem timeWord : Statement .timeWord := of_none _ rfl
theorem writeRefusedWindowEnd : ∀ x0, Statement (.writeRefusedWindowEnd x0) := fun _ => of_none _ rfl
theorem tamperActivation : ∀ x0, Statement (.tamperActivation x0) := fun _ => of_none _ rfl
theorem rindWatchdog : Statement .rindWatchdog := of_none _ rfl
theorem rindPowerOn : ∀ x0, Statement (.rindPowerOn x0) := fun _ => of_none _ rfl
theorem rindFwLoadComplete : Statement .rindFwLoadComplete := of_none _ rfl
theorem axc0EntryComplete : ∀ x0, Statement (.axc0EntryComplete x0) := fun _ => of_none _ rfl
theorem wireBreak : Statement .wireBreak := of_none _ rfl
theorem openProbe : ∀ x0, Statement (.openProbe x0) := fun _ => of_none _ rfl
theorem referenceOutOfWindow : Statement .referenceOutOfWindow := of_none _ rfl
theorem referenceSettled : Statement .referenceSettled := of_none _ rfl
theorem calibrationIdleTimeout : Statement .calibrationIdleTimeout := of_none _ rfl
theorem mirrorRefresh : ∀ x0, Statement (.mirrorRefresh x0) := fun _ => of_none _ rfl
theorem substituteRefresh : Statement .substituteRefresh := of_none _ rfl
theorem slowFail : Statement .slowFail := of_none _ rfl
theorem slowFailClear : Statement .slowFailClear := of_none _ rfl
theorem rindSnapshotLoss : Statement .rindSnapshotLoss := of_none _ rfl
theorem dailyDrift : Statement .dailyDrift := of_none _ rfl
theorem dailySpareSelfTest : Statement .dailySpareSelfTest := of_none _ rfl
theorem unitLost : ∀ x0 x1, Statement (.unitLost x0 x1) := fun _ _ => of_none _ rfl
theorem shedReplacement : Statement .shedReplacement := of_none _ rfl
theorem migrationComplete : ∀ x0 x1, Statement (.migrationComplete x0 x1) := fun _ _ => of_none _ rfl
theorem workItemAged : Statement .workItemAged := of_none _ rfl
theorem overflowBlockTimeout : ∀ x0, Statement (.overflowBlockTimeout x0) := fun _ => of_none _ rfl
theorem discardRunRecord : ∀ x0, Statement (.discardRunRecord x0) := fun _ => of_none _ rfl
theorem pressBlockCoded : ∀ x0, Statement (.pressBlockCoded x0) := fun _ => of_none _ rfl
theorem hostJobStart : ∀ x0, Statement (.hostJobStart x0) := fun _ => of_none _ rfl
theorem hostJobStop : ∀ x0 x1 x2, Statement (.hostJobStop x0 x1 x2) := fun _ _ _ => of_none _ rfl
theorem pressLaneLost : ∀ x0, Statement (.pressLaneLost x0) := fun _ => of_none _ rfl
theorem triggerFiring : Statement .triggerFiring := of_none _ rfl
theorem capturePinning : ∀ x0, Statement (.capturePinning x0) := fun _ => of_none _ rfl
theorem capHoldExpiry : ∀ x0, Statement (.capHoldExpiry x0) := fun _ => of_none _ rfl
theorem reanalysisEnd : ∀ x0, Statement (.reanalysisEnd x0) := fun _ => of_none _ rfl
theorem pcieLinkChange : ∀ x0, Statement (.pcieLinkChange x0) := fun _ => of_none _ rfl
theorem streamBufferDone : ∀ x0, Statement (.streamBufferDone x0) := fun _ => of_none _ rfl
theorem ethPortUpChange : ∀ x0 x1, Statement (.ethPortUpChange x0 x1) := fun _ _ => of_none _ rfl
theorem ethPortFailed : ∀ x0, Statement (.ethPortFailed x0) := fun _ => of_none _ rfl
theorem ethPortReturn : ∀ x0, Statement (.ethPortReturn x0) := fun _ => of_none _ rfl
theorem pauseReceived : ∀ x0 x1, Statement (.pauseReceived x0 x1) := fun _ _ => of_none _ rfl
theorem pauseLimExceeded : ∀ x0, Statement (.pauseLimExceeded x0) := fun _ => of_none _ rfl
theorem neighbourResolution : ∀ x0 x1, Statement (.neighbourResolution x0 x1) := fun _ _ => of_none _ rfl
theorem icmpEcho : ∀ x0 x1 x2 x3, Statement (.icmpEcho x0 x1 x2 x3) := fun _ _ _ _ => of_none _ rfl
theorem udpDatagramDiscard : ∀ x0, Statement (.udpDatagramDiscard x0) := fun _ => of_none _ rfl
theorem ptpMessage : ∀ x0, Statement (.ptpMessage x0) := fun _ => of_none _ rfl
theorem timingPortLinkChange : ∀ x0, Statement (.timingPortLinkChange x0) := fun _ => of_none _ rfl
theorem announceSyncTimeout : Statement .announceSyncTimeout := of_none _ rfl
theorem spiFrame : ∀ x0, Statement (.spiFrame x0) := fun _ => of_none _ rfl
theorem spiReplyFetch : Statement .spiReplyFetch := of_none _ rfl
theorem i2cTransaction : ∀ x0, Statement (.i2cTransaction x0) := fun _ => of_none _ rfl
theorem caveError : ∀ x0, Statement (.caveError x0) := fun _ => of_none _ rfl
theorem dieTemperatureSample : ∀ x0, Statement (.dieTemperatureSample x0) := fun _ => of_none _ rfl
theorem vbatPowerOn : Statement .vbatPowerOn := of_none _ rfl
theorem mainPowerOnReset : ∀ x0, Statement (.mainPowerOnReset x0) := fun _ => of_none _ rfl
theorem warmReset : ∀ x0 x1, Statement (.warmReset x0 x1) := fun _ _ => of_none _ rfl
theorem supervisorWatchdog : Statement .supervisorWatchdog := of_none _ rfl
theorem pcieFundamentalReset : Statement .pcieFundamentalReset := of_none _ rfl
theorem islandReset : ∀ x0, Statement (.islandReset x0) := fun _ => of_none _ rfl
theorem bootStepTimeout : Statement .bootStepTimeout := of_none _ rfl
theorem wake : ∀ x0, Statement (.wake x0) := fun _ => of_none _ rfl
theorem samplingLoopRetuneLock : Statement .samplingLoopRetuneLock := of_none _ rfl
theorem ppsPulse : ∀ x0 x1 x2, Statement (.ppsPulse x0 x1 x2) := fun _ _ _ => of_none _ rfl
theorem boundaryScanInstruction : ∀ x0, Statement (.boundaryScanInstruction x0) := fun _ => of_none _ rfl
theorem mainSupplyLoss : Statement .mainSupplyLoss := of_none _ rfl
theorem rindSupplyLoss : Statement .rindSupplyLoss := of_none _ rfl
theorem vbatLoss : Statement .vbatLoss := of_none _ rfl
theorem selfTestComplete : ∀ x0 x1 x2, Statement (.selfTestComplete x0 x1 x2) := fun _ _ _ => of_none _ rfl
theorem drainHostTimeout : ∀ x0, Statement (.drainHostTimeout x0) := fun _ => of_none _ rfl
theorem pauseQuantaExpiry : ∀ x0, Statement (.pauseQuantaExpiry x0) := fun _ => of_none _ rfl
theorem streamRingModerationExpiry : ∀ x0, Statement (.streamRingModerationExpiry x0) := fun _ => of_none _ rfl
theorem aerErrorLogged : Statement .aerErrorLogged := of_none _ rfl
theorem caveCorrectedError : ∀ x0, Statement (.caveCorrectedError x0) := fun _ => of_none _ rfl

end Sys2Proof.Laws.Requests
end

