-- ==== Sys2Proof/Laws/Protocol.lean ====
section
/-! SUPPORT. What the protocol's shared operations can do: replies, and the path of a command that executes at once. -/

namespace Sys2Proof.Machine

theorem freeSlot_same (s : State) (t : Transport) (a : BitVec 8) (q : BitVec 32) : SameWork s (s.freeSlot t a q) := by
  unfold State.freeSlot
  split
  · exact modCr_same _ _ _
  · exact .refl _

theorem freeSlot_sessions (s : State) (t : Transport) (a : BitVec 8) (q : BitVec 32) : (s.freeSlot t a q).sessions = s.sessions := by
  unfold State.freeSlot
  split <;> rfl

theorem sendAll_same (s : State) (t : Transport) (pk : List (List Byte)) : SameWork s (s.sendAll t pk) :=
  SameWork.foldl _ (fun _ _ => sendReply_same _ _ _) _ _

theorem sendAll_sess (s : State) (t : Transport) (pk : List (List Byte)) : SameSess s (s.sendAll t pk) := by
  unfold State.sendAll
  induction pk generalizing s with
  | nil => exact .refl s
  | cons b pk ih => exact (sendReply_sess _ _ _).trans (ih _)

theorem answer_same (s : State) (op : Nat) (k : Packet) (st : Status) (items : List (List Byte)) : SameWork s (s.answer op k st items) := by
  unfold State.answer
  exact (sendAll_same _ _ _).trans (freeSlot_same _ _ _ _)

theorem answer_sess (s : State) (op : Nat) (k : Packet) (st : Status) (items : List (List Byte)) : SameSess s (s.answer op k st items) := by
  unfold State.answer
  exact (sendAll_sess _ _ _).trans (.of_eq (freeSlot_sessions _ _ _ _))

/-- A completed command leaves the block's work alone. -/
theorem complete_same (s : State) (i : SessIx) (op : Nat) (k : Packet) (st : Status) (txn : Nat) (b : Bool) (items : List (List Byte)) :
    SameWork s (s.complete i op k st txn b items) := by
  have h1 : SameWork s (if s.sessions[i].isOpen then s.sendAll s.sessions[i].transport (replyPackets op k st txn b items) else s) := by
    split
    · exact sendAll_same _ _ _
    · exact .refl _
  simp only [State.complete]
  split
  · exact ((h1.trans (freeSlot_same _ _ _ _)).trans (modSess_same _ _ _)).trans (raise_same _ _)
  · exact (h1.trans (freeSlot_same _ _ _ _)).trans (modSess_same _ _ _)

theorem modSess_get (s : State) (i : SessIx) (f : Session → Session) : (s.modSess i f).sessions[i] = f s.sessions[i] := by simp
theorem modSess_get_ne (s : State) (i j : SessIx) (f : Session → Session) (h : j ≠ i) : (s.modSess i f).sessions[j] = s.sessions[j] := by
  have hv : i.val ≠ j.val := fun e => h (Fin.ext e.symm)
  simp [hv]

/-- EV248, raised by some statuses, changes the sessions' event sequence numbers only. -/
theorem raiseIf_sess (v : State) (st : Status) : SameSess v (if statusClass st = 6 then v.raise 248 else v) := by
  split
  · exact raise_sess _ _
  · exact .refl _

/-- The session of a completed command: its reply is kept, and nothing is in progress. -/
theorem complete_session (s : State) (i : SessIx) (op : Nat) (k : Packet) (st : Status) (txn : Nat) (b : Bool) (items : List (List Byte))
    (h : s.sessions[i].isOpen = true) : ∃ q, (s.complete i op k st txn b items).sessions[i] =
      { s.sessions[i].keep k.seq (replyPackets op k st txn b items) with evSeq := q } := by
  obtain ⟨q, hq⟩ := sendAll_sess s s.sessions[i].transport (replyPackets op k st txn b items) i
  obtain ⟨r, hr⟩ := raiseIf_sess ((((if s.sessions[i].isOpen then s.sendAll s.sessions[i].transport (replyPackets op k st txn b items) else s).freeSlot
    k.transport k.session k.seq)).modSess i fun y => y.keep k.seq (replyPackets op k st txn b items)) st i
  refine ⟨r, ?_⟩
  unfold State.complete
  refine hr.trans ?_
  rw [modSess_get, freeSlot_sessions, if_pos h, hq]
  clear hr hq
  revert h
  generalize s.sessions[i] = y
  intro h
  unfold Session.keep
  rw [if_pos h]
  dsimp only
  rw [if_pos h]

theorem complete_session_ne (s : State) (i j : SessIx) (op : Nat) (k : Packet) (st : Status) (txn : Nat) (b : Bool) (items : List (List Byte))
    (h : j ≠ i) : ∃ q, (s.complete i op k st txn b items).sessions[j] = { s.sessions[j] with evSeq := q } := by
  have h1 : SameSess s (if s.sessions[i].isOpen then s.sendAll s.sessions[i].transport (replyPackets op k st txn b items) else s) := by
    split
    · exact sendAll_sess _ _ _
    · exact .refl _
  obtain ⟨q, hq⟩ := h1 j
  obtain ⟨r, hr⟩ := raiseIf_sess ((((if s.sessions[i].isOpen then s.sendAll s.sessions[i].transport (replyPackets op k st txn b items) else s).freeSlot
    k.transport k.session k.seq)).modSess i fun y => y.keep k.seq (replyPackets op k st txn b items)) st j
  refine ⟨r, ?_⟩
  unfold State.complete
  refine hr.trans ?_
  rw [modSess_get_ne _ _ _ _ h, freeSlot_sessions, hq]

/-- A completed command is answered. -/
theorem complete_replies (s : State) (i : SessIx) (op : Nat) (k : Packet) (st : Status) (items : List (List Byte))
    (h : s.sessions[i].isOpen = true) : Replies i op k st items s (s.complete i op k st k.txn.toNat false items) :=
  ⟨complete_same _ _ _ _ _ _ _ _, complete_session s i op k st k.txn.toNat false items h,
    fun _ hj => complete_session_ne _ _ _ _ _ _ _ _ _ hj⟩

/-- A reply that has been given is the newest one kept. -/
theorem Replies.kept {i : SessIx} {op : Nat} {k : Packet} {st : Status} {items : List (List Byte)} {u t : State} (h : Replies i op k st items u t)
    (ho : u.sessions[i].isOpen = true) : t.sessions[i].kept.getLast? =
      some ({ seq := k.seq, packets := replyPackets op k st k.txn.toNat false items } : KeptReply) := by
  obtain ⟨q, hq⟩ := h.session
  rw [hq]
  clear hq h
  revert ho
  generalize u.sessions[i] = y
  intro ho
  have hd : y.kept.length + 1 - 64 ≤ y.kept.length := by omega
  unfold Session.keep
  rw [if_pos ho]
  dsimp only
  rw [List.drop_append_of_le_length hd, List.getLast?_concat]

theorem heard_same (s : State) (i : SessIx) (k : Packet) : SameWork s (s.heard i k) := (modSess_same _ _ _).trans (modSess_same _ _ _)

/-- What a session holds after a command is heard: its own timer, and its transaction's, start again. -/
theorem heard_session (s : State) (i : SessIx) (k : Packet) : (s.heard i k).sessions[i] =
    { s.sessions[i] with
      lastRx := s.time.mono
      txn := s.sessions[i].txn.map fun t => if t.id = k.txn.toNat then { t with lastRx := s.time.mono } else t } := by
  unfold State.heard
  rw [modSess_get, modSess_get]
  unfold Session.heardTxn Session.heard
  cases h : s.sessions[i].txn with
  | none => simp
  | some t => by_cases e : t.id = k.txn.toNat <;> simp [e]

/-- A command that its session takes up starts. -/
theorem arrive_listens (i : SessIx) (op : Nat) (k : Packet) (run : Run) (s : State) (h : Listens i op k s) :
    arrive op k run s = (s.modSess i fun y => y.heard s.time.mono).start i op k run := by
  have hi : ix 4 k.session.toNat = some i := by
    unfold ix
    rw [dif_pos (by rw [h.session]; exact i.isLt)]
    exact congrArg some (Fin.ext h.session)
  have hf : s.sessions[i].kept.find? (fun r => r.seq == k.seq) = none := by
    rw [List.find?_eq_none]
    intro r hr
    simp [h.fresh r hr]
  have ho : s.outstanding i = 0 := by
    have hr := h.ring
    unfold State.replyHeld at hr
    unfold State.outstanding
    dsimp only
    rw [h.idle, h.first]
    cases ht : s.sessions[i].transport with
    | ring n =>
      rw [ht] at hr
      have hr' : (s.links.cr[n].waiting.any fun b => rd b 3 1 == i.val) = false := hr
      rw [List.any_eq_false] at hr'
      have : (s.links.cr[n].waiting.filter fun b => rd b 3 1 == i.val && rd b 2 1 / 8 % 2 == 0) = [] := by
        rw [List.filter_eq_nil_iff]
        intro b hb
        simp [hr' b hb]
      dsimp only
      rw [this]
      rfl
    | udp a b c => simp [b01]
    | spi => simp [b01]
  have hrh : (s.modSess i fun y => y.heard s.time.mono).replyHeld i = false := by
    have := h.ring
    unfold State.replyHeld at this ⊢
    rw [modSess_get]
    exact this
  unfold arrive
  rw [if_neg (by simp [h.running]), if_neg (by simp [h.header]), if_neg h.notOpen, hi]
  dsimp only
  rw [if_neg (by rw [h.isOpen, h.transport]; simp), hf]
  dsimp only
  rw [if_neg (by rw [h.idle, h.first]; simp), if_neg (by rw [ho]; decide), if_neg (by rw [hrh, h.idle, h.first]; simp)]

theorem heard_isOpen {i : SessIx} {op : Nat} {k : Packet} {s : State} (h : Listens i op k s) : (s.heard i k).sessions[i].isOpen = true := by
  rw [heard_session]; exact h.isOpen

/-- A command that boot or the power state does not allow, or whose opcode is unknown, is answered with that status. -/
theorem arrive_pre (i : SessIx) (op : Nat) (k : Packet) (run : Run) (s : State) (h : Listens i op k s) (hp : preCheck op s ≠ 0) :
    arrive op k run s = (s.heard i k).complete i op k (preCheck op s) k.txn.toNat false [] := by
  rw [arrive_listens i op k run s h]
  have hpre : preCheck op (s.heard i k) = preCheck op s := rfl
  have he : ((s.modSess i fun y => y.heard s.time.mono).modSess i fun x =>
      x.heardTxn k.txn.toNat (s.modSess i fun y => y.heard s.time.mono).time.mono) = s.heard i k := rfl
  unfold State.start
  rw [he]
  dsimp only
  rw [hpre, if_pos hp]

/-- A command whose items do not stand is answered with that status. -/
theorem arrive_bad (i : SessIx) (op : Nat) (k : Packet) (run : Run) (s : State) (e : Status) (h : Listens i op k s) (hp : preCheck op s = 0)
    (hk : operands op k = .error e) : arrive op k run s = (s.heard i k).complete i op k e k.txn.toNat false [] := by
  rw [arrive_listens i op k run s h]
  have hpre : preCheck op (s.heard i k) = 0 := hp
  have he : ((s.modSess i fun y => y.heard s.time.mono).modSess i fun x =>
      x.heardTxn k.txn.toNat (s.modSess i fun y => y.heard s.time.mono).time.mono) = s.heard i k := rfl
  unfold State.start
  rw [he]
  dsimp only
  rw [hpre, hk]
  rfl

/-- A command with STAGE set joins its session's transaction, or is refused. -/
theorem arrive_stage (i : SessIx) (op : Nat) (k : Packet) (run : Run) (s : State) (p : Parsed) (h : Listens i op k s) (hp : preCheck op s = 0)
    (hk : operands op k = .ok p) (hs : (stageable op && stageFlag k) = true) : arrive op k run s =
      (stageCmd i op k p (s.heard i k)).2.complete i op k (stageCmd i op k p (s.heard i k)).1 k.txn.toNat
        ((stageCmd i op k p (s.heard i k)).1 == 0) [] := by
  rw [arrive_listens i op k run s h]
  have hpre : preCheck op (s.heard i k) = 0 := hp
  have he : ((s.modSess i fun y => y.heard s.time.mono).modSess i fun x =>
      x.heardTxn k.txn.toNat (s.modSess i fun y => y.heard s.time.mono).time.mono) = s.heard i k := rfl
  unfold State.start
  rw [he]
  dsimp only
  rw [hpre, hk]
  simp only [ne_eq, not_true_eq_false, if_false, hs, if_true]

/-- A command that is accepted runs: it answers now, stays in progress, or has answered. -/
theorem arrive_run (i : SessIx) (op : Nat) (k : Packet) (p : Parsed) (run : Run) (s : State) (h : Accepted i op k p s) :
    arrive op k run s = (match run i k p (s.heard i k) with
      | .done st items s1 => s1.complete i op k st k.txn.toNat false items
      | .later s1 => s1.modSess i fun x => { x with inProgress := some (BitVec.ofNat 16 op, k) }
      | .sent s1 => s1) := by
  rw [arrive_listens i op k run s h.listens]
  have hpre : preCheck op (s.heard i k) = 0 := h.allowed
  have hheld : (s.heard i k).held op p = false := h.free
  have he : ((s.modSess i fun y => y.heard s.time.mono).modSess i fun x =>
      x.heardTxn k.txn.toNat (s.modSess i fun y => y.heard s.time.mono).time.mono) = s.heard i k := rfl
  unfold State.start
  rw [he]
  dsimp only
  rw [hpre, h.items]
  simp only [ne_eq, not_true_eq_false, if_false, h.now, Bool.false_eq_true]
  rw [hheld]
  rfl

/-- A command that is accepted and answers now. -/
theorem arrive_done (i : SessIx) (op : Nat) (k : Packet) (p : Parsed) (run : Run) (s : State) (h : Accepted i op k p s) (st : Status)
    (items : List (List Byte)) (u : State) (hr : run i k p (s.heard i k) = .done st items u) (ho : u.sessions[i].isOpen = true) :
    Replies i op k st items u (arrive op k run s) := by
  rw [arrive_run i op k p run s h, hr]
  exact complete_replies _ _ _ _ _ _ ho

end Sys2Proof.Machine
end

