-- ==== Sys2Proof/Tests/Slice0.lean ====
section
/-! SUPPORT. Named tests: the refusals of WellFormed, words and constants of the spec, and for every statement with hypotheses a state and
operands that meet them, clause by clause. -/

namespace Sys2Proof.Tests

open Sys2Proof Sys2Proof.Machine Sys2Proof.Claims

set_option Elab.async false

/-! ### WellFormed: an ill-formed term for each check -/

/-- A packet of session 0 on SPI with a body. -/
def pkt (body : List Byte) : Packet :=
  { transport := .spi, flags := 0, session := 0, txn := 0, status := 0, seq := 7, length := BitVec.ofNat 32 (16 + body.length), body := body }

/-- A cell's reading of nothing. -/
def blankRead : CellRead := { coarse := 0, code := 0, late := false }
/-- A channel whose 128 codes are equally wide. -/
def goodChan : ChanCal := { hits := List.replicate 128 8192, pads := List.replicate 36 blankRead }
/-- A converter that passes its calibration. -/
def goodVernier : VernierCal := { a := goodChan, b := goodChan, common := 0 }
/-- A lane of nine good slices. -/
def goodLane : LaneCal := { slices := List.replicate 9 (0, 0, 0), spareAt := List.replicate 8 (0, 0, 0), bad := [], pDark := 0, skew := 0 }
/-- A flash slot with an empty body. -/
def goodSlot : FlashSlot :=
  { bytes := List.replicate 16 0 ++ sha256 [] ++ List.replicate 208 0, keyIntact := true, signed := true }

/-- A start at which everything passes. -/
def goodBoot : BootEnv :=
  { steps := List.replicate 16 { reason := 0, detail := 0, timedOut := false, alternative := true }, badPipes := [], badEngines := []
    badPress := [], verniers := List.replicate 3 goodVernier, stacksUp := 2, lanes := List.replicate 96 goodLane, slots := [goodSlot, goodSlot]
    sources := [], pcie := { width := 16, rate := 5 }, ethUp := [true, true], tportUp := true, noLock := [], discovery := [0], lost := []
    repaired := false, nvBad := false }

/-- A shot of eight lanes with the same codes. -/
def shotOf (l : List Nat) : ShotData := { lanes := List.replicate 8 l }

theorem test_wf_packet_long : (Instr.sessionPing (pkt (List.replicate 65521 0))).wf = false := by decide +kernel
theorem test_wf_packet : (Instr.sessionPing (pkt [])).wf = true := by decide
theorem test_wf_unknown : (Instr.unknownOpcode 0x0A08 (pkt (List.replicate 65521 0))).wf = false := by decide +kernel
theorem test_wf_ping_lanes : (Instr.pingProcessed 0 0 { lanes := List.replicate 3 [] }).wf = false := by decide
theorem test_wf_ping_code : (Instr.pingProcessed 0 0 { lanes := List.replicate 4 [2048] }).wf = false := by decide
theorem test_wf_shot_lanes : (Instr.shot { lanes := List.replicate 7 (List.replicate 300 5) }).wf = false := by decide +kernel
theorem test_wf_shot_short : (Instr.shot (shotOf (List.replicate 256 5))).wf = false := by decide +kernel
theorem test_wf_shot_code : (Instr.shot (shotOf (List.replicate 300 16384))).wf = false := by decide +kernel
theorem test_wf_shot_uneven : (Instr.shot { lanes := List.replicate 300 1 :: List.replicate 7 (List.replicate 301 1) }).wf = false := by
  decide +kernel
theorem test_wf_shot : (Instr.shot (shotOf (List.replicate 300 16383))).wf = true := by decide +kernel
theorem test_wf_boot : (Instr.mainPowerOnReset goodBoot).wf = true := by decide +kernel
theorem test_wf_boot_steps : (Instr.mainPowerOnReset { goodBoot with steps := [] }).wf = false := by decide +kernel
theorem test_wf_boot_stacks : (Instr.warmReset .pin { goodBoot with stacksUp := 3 }).wf = false := by decide +kernel
theorem test_wf_boot_eth : (Instr.mainPowerOnReset { goodBoot with ethUp := [true] }).wf = false := by decide +kernel
theorem test_wf_boot_lanes : (Instr.mainPowerOnReset { goodBoot with lanes := [goodLane] }).wf = false := by decide +kernel
theorem test_wf_boot_slices : (Instr.mainPowerOnReset { goodBoot with lanes := List.replicate 96 { goodLane with slices := [] } }).wf = false := by
  decide +kernel
theorem test_wf_boot_slots : (Instr.mainPowerOnReset { goodBoot with slots := [goodSlot] }).wf = false := by decide +kernel
theorem test_wf_boot_pipe : (Instr.mainPowerOnReset { goodBoot with badPipes := [26] }).wf = false := by decide +kernel
theorem test_wf_boot_engine : (Instr.mainPowerOnReset { goodBoot with badEngines := [32] }).wf = false := by decide +kernel
theorem test_wf_boot_press : (Instr.mainPowerOnReset { goodBoot with badPress := [26] }).wf = false := by decide +kernel
theorem test_wf_boot_verniers : (Instr.mainPowerOnReset { goodBoot with verniers := [] }).wf = false := by decide +kernel
theorem test_wf_boot_hits : (Instr.mainPowerOnReset
    { goodBoot with verniers := List.replicate 3 { goodVernier with a := { goodChan with hits := [] } } }).wf = false := by decide +kernel
theorem test_wf_boot_loop : (Instr.mainPowerOnReset { goodBoot with noLock := [4] }).wf = false := by decide +kernel
theorem test_wf_i2c : (Instr.i2cTransaction { addr := 1, wr := List.replicate 33 0, rd := [], failed := false }).wf = false := by decide
theorem test_wf_i2c_read : (Instr.i2cTransaction { addr := 1, wr := [], rd := List.replicate 33 0, failed := false }).wf = false := by decide
theorem test_wf_desc_addr : (Instr.srTailWrite 0 1 [{ addr := 1, len := 65536, own := true }]).wf = false := by decide
theorem test_wf_desc_len : (Instr.srTailWrite 0 1 [{ addr := 0, len := 65537, own := true }]).wf = false := by decide
theorem test_wf_desc_zero : (Instr.srTailWrite 0 1 [{ addr := 0, len := 0, own := true }]).wf = false := by decide
theorem test_wf_desc : (Instr.srTailWrite 0 1 [{ addr := 4096, len := 65536, own := true }]).wf = true := by decide
theorem test_wf_doorbell : (Instr.crDoorbell 0 0 (List.replicate 65537 0)).wf = false := by decide +kernel
theorem test_wf_overrange : (Instr.laneOverrange 0 false 0 0).wf = false := by decide
theorem test_wf_rotation : (Instr.converterRotation { goodVernier with common := 5, b := { goodChan with pads := [] } } [] goodVernier).wf = false := by
  decide +kernel
theorem test_wf_self_test : (Instr.selfTestComplete (.vernier 0) true none).wf = false ∧
    (Instr.selfTestComplete (.pipeline 0) true (some goodVernier)).wf = false := by decide
theorem test_wf_dark : (Instr.darkFrameEnd 0 [0, 0, 0] []).wf = false := by decide
theorem test_wf_dark_floor : (Instr.darkFrameEnd 0 [0, 0, 0, 0] (List.replicate 17 0)).wf = false := by decide
theorem test_wf_pace : (Instr.paceWindowEnd 0 65536 0).wf = false := by decide
theorem test_wf_pace_margin : (Instr.paceWindowEnd 0 0 256).wf = false := by decide
theorem test_wf_frame : (Instr.sdcFrameEnd (List.replicate 34 0)).wf = false := by decide
theorem test_wf_discovery : (Instr.sdcDiscoveryEnd []).wf = false := by decide
theorem test_wf_fcnt : (Instr.fcntDone (2 ^ 40) 0).wf = false := by decide
theorem test_wf_spi : (Instr.spiFrame (.packet (List.replicate 65537 0))).wf = false := by decide +kernel
theorem test_wf_temperature : (Instr.dieTemperatureSample []).wf = false := by decide

/-! ### Constants and words of the spec -/

/-- The table gives its rows no bits, so no word spells a command. -/
theorem test_no_word : decodeTableWord 32 0x12345678 = none ∧ State.reset.withFetchWord 32 0 = State.reset := ⟨rfl, rfl⟩
/-- R393: CRC-32 of the nine bytes "123456789". -/
theorem test_crc32 : crc32 [0x31, 0x32, 0x33, 0x34, 0x35, 0x36, 0x37, 0x38, 0x39] = 0xCBF43926 := by decide +kernel
/-- R443: an item of one byte is padded to four. -/
theorem test_item : item 0x0101 [5] = [0x01, 0x01, 0x01, 0x00, 0x05, 0, 0, 0] := by decide
/-- R443, R446: such an item names port 5. -/
theorem test_parse : (parse 0x0309 (item 0x0101 [5])).toOption.map (·.named 0x0101) = some [5] := by decide +kernel
/-- R446: port 24 does not exist. -/
theorem test_parse_range : (parse 0x0309 (item 0x0101 [24])).toOption = none := by decide +kernel
/-- R387: MED of 3, 5 and 4 is 4. -/
theorem test_median_prediction : medPred 3 5 4 = 4 ∧ medPred 3 5 9 = 3 ∧ medPred 3 5 1 = 5 := by decide
/-- R388: residues of −1, 0, 1 are 1, 0, 2. -/
theorem test_residue : residue 2 (-1) 0 = 1 ∧ residue 2 0 0 = 0 ∧ residue 2 1 0 = 2 := by decide
/-- R332: 0x7FFF + 1 overflows to 0x8000. -/
theorem test_alu_add : (aluFunc 0 0x7FFF 1).map (fun o => (o.res, o.c, o.v)) = some (0x8000, false, true) := by decide
/-- R332: saturating addition stays at 0x7FFF. -/
theorem test_alu_adds : (aluFunc 1 0x7FFF 1).map (fun o => (o.res, o.sat)) = some (0x7FFF, true) := by decide

/-! ### States that the witnesses start from -/

/-- The block has booted: power state RUN, every clock gate open, session 0 open on SPI, the Rind powered. -/
def up : State :=
  { State.reset with
    boot := { State.reset.boot with inReset := false }
    glb := { State.reset.glb with stat := 0x2F }
    sessions := State.reset.sessions.set 0 { Session.reset with isOpen := true, transport := .spi }
    rind := { State.reset.rind with powered := true } }

/-- R481: the identification register. -/
theorem test_id_word : up.readReg .pcie 0 = 0x96241E4C := by decide +kernel

/-- Session 0 of a state. -/
def sess (s : State) (f : Session → Session) : State := s.modSess 0 f
/-- The operands of a packet; an empty list where they do not stand. -/
def pars (op : Nat) (k : Packet) : Parsed := match operands op k with | .ok p => p | .error _ => { items := [], sels := [] }
/-- The conditions of `Listens` for session 0, to be evaluated. -/
def listensB (op : Nat) (k : Packet) (s : State) : Bool :=
  !s.boot.inReset && op != 0x0101 && headerOk k && k.session.toNat == 0 && s.sessions[(0 : SessIx)].isOpen &&
    s.sessions[(0 : SessIx)].transport == k.transport && s.sessions[(0 : SessIx)].kept.all (fun r => r.seq != k.seq) &&
    s.sessions[(0 : SessIx)].inProgress.isNone && s.sessions[(0 : SessIx)].waiting.isEmpty && !s.replyHeld 0
/-- Whether the items stand. -/
def okOps (op : Nat) (k : Packet) : Bool := match operands op k with | .ok _ => true | .error _ => false

theorem listens {op : Nat} {k : Packet} {s : State} (h : listensB op k s = true) : Listens 0 op k s := by
  simp only [listensB, Bool.and_eq_true, Bool.not_eq_true', bne_iff_ne, beq_iff_eq, List.all_eq_true, Option.isNone_iff_eq_none,
    List.isEmpty_iff] at h
  obtain ⟨⟨⟨⟨⟨⟨⟨⟨⟨h1, h2⟩, h3⟩, h4⟩, h5⟩, h6⟩, h7⟩, h8⟩, h9⟩, h10⟩ := h
  exact ⟨h1, h2, h3, h4, h5, h6, h7, h8, h9, h10⟩

theorem ops_ok {op : Nat} {k : Packet} (h : okOps op k = true) : operands op k = .ok (pars op k) := by
  unfold okOps at h
  unfold pars
  split at h
  · rename_i p hp; rw [hp]
  · cases h

/-- The conditions of `Accepted`, to be evaluated. -/
def acceptB (op : Nat) (k : Packet) (s : State) : Bool :=
  listensB op k s && preCheck op s == 0 && okOps op k && !(stageable op && stageFlag k) && !s.held op (pars op k)

theorem accepted {op : Nat} {k : Packet} {s : State} (h : acceptB op k s = true) : Accepted 0 op k (pars op k) s := by
  simp only [acceptB, Bool.and_eq_true, Bool.not_eq_true', beq_iff_eq] at h
  obtain ⟨⟨⟨⟨h1, h2⟩, h3⟩, h4⟩, h5⟩ := h
  exact ⟨listens h1, h2, ops_ok h3, by simpa using h4, h5⟩

theorem served {op : Nat} {k : Packet} {s : State} (h : acceptB op k s = true)
    (h2 : (s.rind.request.isNone && s.rind.powered && !s.rind.halted) = true) : Served 0 op k (pars op k) s := by
  simp only [Bool.and_eq_true, Bool.not_eq_true', Option.isNone_iff_eq_none] at h2
  exact ⟨accepted h, h2.1.1, h2.1.2, h2.2⟩

/-- An item of one byte, of two, of four. -/
def i1 (c v : Nat) : List Byte := item c (le 1 v)
def i2 (c v : Nat) : List Byte := item c (le 2 v)
def i4 (c v : Nat) : List Byte := item c (le 4 v)

/-- Whether a commit stands. -/
def commitOk (s : State) (l : List Staged) (o : Option (SessIx × BitVec 16 × Packet)) : Bool :=
  match s.tryCommit l o with | .ok _ => true | .error _ => false
theorem commit_ok {s : State} {l : List Staged} {o : Option (SessIx × BitVec 16 × Packet)} (h : commitOk s l o = true) :
    ∃ u, s.tryCommit l o = .ok u := by
  unfold commitOk at h
  split at h
  · exact ⟨_, ‹_›⟩
  · cases h
theorem commit_bad {s : State} {l : List Staged} {o : Option (SessIx × BitVec 16 × Packet)} (h : commitOk s l o = false) :
    ∃ e, s.tryCommit l o = .error e := by
  unfold commitOk at h
  split at h
  · cases h
  · exact ⟨_, ‹_›⟩

/-! ### Witnesses: the queue, the protocol, transactions -/

theorem witness_StepRunsTheFrontCommand : State.reset.pending = [] ∧ { up with pending := [Instr.interlockOpen] }.pending ≠ [] := by
  exact ⟨rfl, by simp⟩

theorem witness_EveryStepKeepsMemoryCanonical : State.reset.memOk ∧ ∃ t, step State.reset = .next t := by
  refine ⟨⟨rfl, fun e => ?_⟩, _, rfl⟩
  have h : State.reset.engines[e] = Engine.reset := by simp [State.reset]
  rw [h]
  refine ⟨rfl, fun w => ?_, fun m hm => ?_⟩
  · simp [Engine.reset, Mem.wf]
  · simp [Engine.reset] at hm

theorem witness_MalformedOrStrayPacketsChangeNothing :
    (∃ (s : State) (c : Instr) (op : Nat) (k : Packet), request c = some (op, k) ∧ s.boot.inReset = false ∧ headerOk k = false) ∧
    (∃ (s : State) (c : Instr) (op : Nat) (k : Packet), request c = some (op, k) ∧ s.boot.inReset = false ∧ headerOk k = true ∧ op ≠ 0x0101 ∧
      ∀ i : SessIx, k.session.toNat = i.val → s.sessions[i].isOpen = false ∨ s.sessions[i].transport ≠ k.transport) :=
  ⟨⟨up, .timeQuery { pkt [] with length := 15 }, 0x0603, _, rfl, rfl, by decide⟩,
   ⟨up, .timeQuery { pkt [] with session := 1 }, 0x0603, _, rfl, rfl, by decide +kernel⟩⟩

theorem witness_CommandsRefusedBeforeTheyRun :
    (∃ (s : State) (c : Instr) (op : Nat) (k : Packet) (i : SessIx), request c = some (op, k) ∧ Listens i op k s ∧ preCheck op s ≠ 0) ∧
    (∃ (s : State) (c : Instr) (op : Nat) (k : Packet) (i : SessIx) (e : Status), request c = some (op, k) ∧ Listens i op k s ∧ preCheck op s = 0 ∧
      operands op k = .error e) ∧
    (∃ (s : State) (op : BitVec 16) (k : Packet) (i : SessIx), Listens i op.toNat k s ∧ opcodes.contains op.toNat = false) ∧
    (∃ (s : State) (op : Nat), opcodes.contains op = true ∧ s.ready = false ∧ op / 256 ≠ 1 ∧ op / 256 ≠ 11) ∧
    (∃ (s : State) (op : Nat), opcodes.contains op = true ∧ s.ready = true ∧ (s.power = 3 ∨ (s.power = 2 ∧ idleAccepts op = false))) ∧
    (∃ (s : State) (op : Nat), opcodes.contains op = true ∧ s.ready = true ∧ s.power = 2 ∧ idleAccepts op = false) :=
  ⟨⟨{ up with glb := { up.glb with stat := 0 } }, .timeQuery (pkt []), 0x0603, _, 0, rfl, listens (by decide +kernel), by decide +kernel⟩,
   ⟨up, .portQuery (pkt []), 0x0309, _, 0, 0x020D, rfl, listens (by decide +kernel), by decide +kernel, rfl⟩,
   ⟨up, 0x0A08, pkt [], 0, listens (by decide +kernel), by decide⟩,
   ⟨{ up with glb := { up.glb with stat := 0 } }, 0x0301, by decide +kernel⟩,
   ⟨up.modBoot fun b => { b with pwrStat := 3 }, 0x0C02, by decide +kernel⟩,
   ⟨up.modBoot fun b => { b with pwrStat := 2 }, 0x0301, by decide +kernel⟩⟩

theorem witness_RetransmittedAndWaitingCommands :
    (∃ (s : State) (c : Instr) (op : Nat) (k : Packet) (i : SessIx) (r : KeptReply), request c = some (op, k) ∧ s.boot.inReset = false ∧
      headerOk k = true ∧ op ≠ 0x0101 ∧ k.session.toNat = i.val ∧ s.sessions[i].isOpen = true ∧ s.sessions[i].transport = k.transport ∧
      s.sessions[i].kept.find? (fun x => x.seq == k.seq) = some r) ∧
    (∃ (s : State) (c : Instr) (op : Nat) (k : Packet) (i : SessIx) (a : BitVec 16 × Packet), request c = some (op, k) ∧ s.boot.inReset = false ∧
      headerOk k = true ∧ op ≠ 0x0101 ∧ k.session.toNat = i.val ∧ s.sessions[i].isOpen = true ∧ s.sessions[i].transport = k.transport ∧
      (∀ r ∈ s.sessions[i].kept, r.seq ≠ k.seq) ∧ s.sessions[i].inProgress = some a ∧ a.2.seq ≠ k.seq ∧
      (∀ w ∈ s.sessions[i].waiting, w.2.seq ≠ k.seq) ∧ 64 ≤ s.outstanding i) ∧
    (∃ (s : State) (c : Instr) (op : Nat) (k : Packet) (i : SessIx) (a : BitVec 16 × Packet), request c = some (op, k) ∧ s.boot.inReset = false ∧
      headerOk k = true ∧ op ≠ 0x0101 ∧ k.session.toNat = i.val ∧ s.sessions[i].isOpen = true ∧ s.sessions[i].transport = k.transport ∧
      (∀ r ∈ s.sessions[i].kept, r.seq ≠ k.seq) ∧ s.sessions[i].inProgress = some a ∧ a.2.seq ≠ k.seq ∧
      (∀ w ∈ s.sessions[i].waiting, w.2.seq ≠ k.seq) ∧ s.outstanding i < 64) :=
  ⟨⟨sess up fun y => { y with kept := [{ seq := 7, packets := [] }] }, .timeQuery (pkt []), 0x0603, _, 0, { seq := 7, packets := [] },
     rfl, rfl, by decide +kernel⟩,
   ⟨sess up fun y => { y with
      inProgress := some (0x0603, { pkt [] with seq := 1 }), waiting := List.replicate 63 (0x0603, { pkt [] with seq := 2 }) },
     .timeQuery (pkt []), 0x0603, _, 0, (0x0603, { pkt [] with seq := 1 }), rfl, rfl, by decide +kernel⟩,
   ⟨sess up fun y => { y with
      inProgress := some (0x0603, { pkt [] with seq := 1 }), waiting := List.replicate 62 (0x0603, { pkt [] with seq := 2 }) },
     .timeQuery (pkt []), 0x0603, _, 0, (0x0603, { pkt [] with seq := 1 }), rfl, rfl, by decide +kernel⟩⟩

/-- A subscription to every event. -/
def subscribe : Packet := pkt (item 0x0222 (List.replicate 32 0xFF))

theorem witness_SessionCommandsAnswer :
    (∃ (s : State) (k : Packet) (i : SessIx) (p : Parsed), Accepted i 0x0103 k p s) ∧
    (∃ (s : State) (k : Packet) (i : SessIx) (p : Parsed), Accepted i 0x0105 k p s) ∧
    (∃ (s : State) (k : Packet) (i : SessIx) (p : Parsed) (v : List Int), Accepted i 0x0104 k p s ∧ p.val? 0x0222 = some v) ∧
    (∃ (s : State) (k : Packet) (i : SessIx) (p : Parsed), Accepted i 0x0102 k p s) ∧
    (∃ (s : State) (k : Packet) (i : SessIx) (p : Parsed), s.boot.inReset = false ∧ headerOk k = true ∧ operands 0x0101 k = .ok p ∧
      s.sessions[i].isOpen = false ∧ ∀ j, j < i → s.sessions[j].isOpen = true) ∧
    (∃ (s : State) (k : Packet) (p : Parsed), s.boot.inReset = false ∧ headerOk k = true ∧ operands 0x0101 k = .ok p ∧
      ∀ j : SessIx, s.sessions[j].isOpen = true) :=
  ⟨⟨up, pkt [], 0, _, accepted (by decide +kernel)⟩, ⟨up, pkt [], 0, _, accepted (by decide +kernel)⟩,
   ⟨up, subscribe, 0, _, List.replicate 32 255, accepted (by decide +kernel), by decide +kernel⟩,
   ⟨up, pkt [], 0, _, accepted (by decide +kernel)⟩,
   ⟨up, pkt [], 1, pars 0x0101 (pkt []), rfl, by decide, ops_ok (by decide +kernel), by decide +kernel⟩,
   ⟨{ up with sessions := Vector.replicate 4 { Session.reset with isOpen := true } }, pkt [], pars 0x0101 (pkt []), rfl, by decide,
     ops_ok (by decide +kernel), by decide +kernel⟩⟩

/-- A staged command that sets nothing. -/
def emptySet (op : BitVec 16) (rm : List (Kind × Nat)) : Staged := { seq := 3, opcode := op, updates := [], removes := rm, gens := [], bytes := 0 }
/-- A transaction with `n` staged commands of no items. -/
def txnOf (n : Nat) : Txn :=
  { id := 1, timeout := 10, lastRx := 0, staged := List.replicate n (emptySet 0x0408 []) }
/-- A transaction that stages a removal of a zone that does not exist. -/
def txnBad : Txn :=
  { id := 1, timeout := 10, lastRx := 0, staged := [{ seq := 3, opcode := 0x0402, updates := [], removes := [(.zone, 5)], gens := [], bytes := 0 }] }
/-- Session 0 with a transaction. -/
def withTxn (x : Txn) : State := sess up fun y => { y with txn := some x }
/-- A packet of transaction 1. -/
def tpkt (fl : BitVec 8) (body : List Byte) : Packet := { pkt body with txn := 1, flags := fl }

/-! ### Witnesses: transactions, settings, queries -/

theorem witness_TransactionsAnswerAndTimeOut :
    (∃ (s : State) (k : Packet) (i : SessIx) (p : Parsed), Accepted i 0x0201 k p s ∧ s.sessions[i].txn = none) ∧
    (∃ (s : State) (k : Packet) (i : SessIx) (p : Parsed), Accepted i 0x0201 k p s ∧ s.sessions[i].txn ≠ none) ∧
    (∃ (s : State) (k : Packet) (i : SessIx) (p : Parsed) (x : Txn), Accepted i 0x0203 k p s ∧ s.sessions[i].txn = some x ∧ x.id = k.txn.toNat) ∧
    (∃ (s : State) (k : Packet) (i : SessIx) (p : Parsed) (x : Txn), Accepted i 0x0204 k p s ∧ s.sessions[i].txn = some x ∧ x.id = k.txn.toNat) ∧
    (∃ (s : State) (k : Packet) (i : SessIx) (p : Parsed), Accepted i 0x0203 k p s ∧ s.sessions[i].txn = none) ∧
    (∃ (s u : State) (k : Packet) (i : SessIx) (p : Parsed) (x : Txn), Accepted i 0x0202 k p s ∧ (s.heard i k).sessions[i].txn = some x ∧
      x.id = k.txn.toNat ∧ (s.heard i k).tryCommit x.staged (some (i, 0x0202, k)) = .ok u) ∧
    (∃ (s : State) (k : Packet) (i : SessIx) (p : Parsed) (x : Txn) (e : Status × BitVec 32), Accepted i 0x0202 k p s ∧
      (s.heard i k).sessions[i].txn = some x ∧ x.id = k.txn.toNat ∧ (s.heard i k).tryCommit x.staged (some (i, 0x0202, k)) = .error e) ∧
    (∃ (s : State) (n : SessIx) (x : Txn), s.boot.inReset = false ∧ s.sessions[n].txn = some x) ∧
    (∃ (s : State) (n : SessIx), s.sessions[n].txn = none) ∧
    (∃ (s : State) (n : SessIx), s.boot.inReset = false ∧ s.sessions[n].isOpen = true) ∧
    (∃ (s : State) (n : SessIx), s.sessions[n].isOpen = false) := by
  refine ⟨⟨up, pkt [], 0, _, accepted (by decide +kernel), by decide +kernel⟩,
    ⟨withTxn (txnOf 1), pkt [], 0, _, accepted (by decide +kernel), by decide +kernel⟩,
    ⟨withTxn (txnOf 1), tpkt 0 [], 0, _, txnOf 1, accepted (by decide +kernel), by decide +kernel, by decide⟩,
    ⟨withTxn (txnOf 1), tpkt 0 [], 0, _, txnOf 1, accepted (by decide +kernel), by decide +kernel, by decide⟩,
    ⟨up, tpkt 0 [], 0, _, accepted (by decide +kernel), by decide +kernel⟩, ?_, ?_,
    ⟨withTxn (txnOf 1), 0, txnOf 1, by decide +kernel⟩, ⟨up, 0, by decide +kernel⟩, ⟨up, 0, by decide +kernel⟩, ⟨up, 1, by decide +kernel⟩⟩
  · obtain ⟨u, hu⟩ := commit_ok (s := (withTxn (txnOf 0)).heard 0 (tpkt 0 [])) (l := (txnOf 0).staged) (o := some (0, 0x0202, tpkt 0 []))
      (by decide +kernel)
    exact ⟨withTxn (txnOf 0), u, tpkt 0 [], 0, _, txnOf 0, accepted (by decide +kernel), by decide +kernel, by decide, hu⟩
  · obtain ⟨e, he⟩ := commit_bad (s := (withTxn txnBad).heard 0 (tpkt 0 [])) (l := txnBad.staged) (o := some (0, 0x0202, tpkt 0 []))
      (by decide +kernel)
    exact ⟨withTxn txnBad, tpkt 0 [], 0, _, txnBad, e, accepted (by decide +kernel), by decide +kernel, by decide, he⟩

/-- LADLE_SET with one setting, and ZONE_DELETE of a zone. -/
def setLadle : List Byte := i2 0x0212 60
def deleteZone : List Byte := i1 0x0102 5

theorem witness_SettingCommandsStageOrQueueTheirCommit :
    (∃ (s : State) (k : Packet) (i : SessIx) (p : Parsed) (op : Nat) (c : Instr) (x : Txn), (op, c) ∈ stageables k ∧ Listens i op k s ∧
      preCheck op s = 0 ∧ operands op k = .ok p ∧ stageFlag k = true ∧ s.sessions[i].txn = some x ∧ x.id = k.txn.toNat ∧
      x.staged.length < 256 ∧ x.bytes + k.body.length ≤ 1048576) ∧
    (∃ (s : State) (k : Packet) (i : SessIx) (p : Parsed) (op : Nat) (c : Instr) (x : Txn), (op, c) ∈ stageables k ∧ Listens i op k s ∧
      preCheck op s = 0 ∧ operands op k = .ok p ∧ stageFlag k = true ∧ s.sessions[i].txn = some x ∧ x.id = k.txn.toNat ∧
      (256 ≤ x.staged.length ∨ 1048576 < x.bytes + k.body.length)) ∧
    (∃ (s : State) (k : Packet) (i : SessIx) (p : Parsed) (op : Nat) (c : Instr), (op, c) ∈ stageables k ∧ Listens i op k s ∧
      preCheck op s = 0 ∧ operands op k = .ok p ∧ stageFlag k = true ∧ ∀ x, s.sessions[i].txn = some x → x.id ≠ k.txn.toNat) ∧
    (∃ (s u : State) (k : Packet) (i : SessIx) (p : Parsed) (op : Nat) (c : Instr), (op, c) ∈ stageables k ∧ Accepted i op k p s ∧
      (s.heard i k).tryCommit [stagedOf op k p s.base] (some (i, BitVec.ofNat 16 op, k)) = .ok u) ∧
    (∃ (s : State) (k : Packet) (i : SessIx) (p : Parsed) (op : Nat) (c : Instr) (e : Status × BitVec 32), (op, c) ∈ stageables k ∧
      Accepted i op k p s ∧ (s.heard i k).tryCommit [stagedOf op k p s.base] (some (i, BitVec.ofNat 16 op, k)) = .error e) := by
  refine ⟨⟨withTxn (txnOf 1), tpkt 4 setLadle, 0, _, 0x0408, .ladleSet (tpkt 4 setLadle), txnOf 1, by simp [stageables], listens (by decide +kernel),
      by decide +kernel, ops_ok (by decide +kernel), by decide, by decide +kernel⟩,
    ⟨withTxn (txnOf 256), tpkt 4 setLadle, 0, _, 0x0408, .ladleSet (tpkt 4 setLadle), txnOf 256, by simp [stageables], listens (by decide +kernel),
      by decide +kernel, ops_ok (by decide +kernel), by decide, by decide +kernel⟩,
    ⟨up, tpkt 4 setLadle, 0, _, 0x0408, .ladleSet (tpkt 4 setLadle), by simp [stageables], listens (by decide +kernel),
      by decide +kernel, ops_ok (by decide +kernel), by decide, by
        have h : up.sessions[(0 : SessIx)].txn = none := by decide +kernel
        rw [h]; simp⟩, ?_, ?_⟩
  · obtain ⟨u, hu⟩ := commit_ok (s := up.heard 0 (pkt setLadle)) (l := [stagedOf 0x0408 (pkt setLadle) (pars 0x0408 (pkt setLadle)) up.base])
      (o := some (0, BitVec.ofNat 16 0x0408, pkt setLadle)) (by decide +kernel)
    exact ⟨up, u, _, 0, _, 0x0408, .ladleSet (pkt setLadle), by simp [stageables], accepted (by decide +kernel), hu⟩
  · obtain ⟨e, he⟩ := commit_bad (s := up.heard 0 (pkt deleteZone)) (l := [stagedOf 0x0402 (pkt deleteZone) (pars 0x0402 (pkt deleteZone)) up.base])
      (o := some (0, BitVec.ofNat 16 0x0402, pkt deleteZone)) (by decide +kernel)
    exact ⟨up, _, 0, _, 0x0402, .zoneDelete (pkt deleteZone), e, by simp [stageables], accepted (by decide +kernel), he⟩

/-- A setting command's content that sets one parameter. -/
def setsOne : Staged :=
  { seq := 3, opcode := 0x0408, updates := [({ kind := .device, inst := 0, sub := 0, code := 0x0212 }, [60])], removes := [], gens := [], bytes := 0 }

theorem witness_SettingsTakeWhatACommandSets :
    (∃ (c : Staged) (key : SetKey), (∀ x ∈ c.updates, x.1 ≠ key) ∧ (∀ r ∈ c.removes, r ≠ (key.kind, key.inst)) ∧
      (key.kind = .pin → (Kind.zone, key.inst) ∉ c.removes)) ∧
    (∃ (c : Staged) (key : SetKey) (v : List Int), v ≠ [] ∧ (key, v) ∈ c.updates ∧ ∀ x ∈ c.updates, x.1 = key → x.2 = v) :=
  ⟨⟨setsOne, { kind := .device, inst := 0, sub := 0, code := 0x0213 }, by decide, by decide, by decide⟩,
   ⟨setsOne, { kind := .device, inst := 0, sub := 0, code := 0x0212 }, [60], by decide, by simp [setsOne], by decide⟩⟩

/-- `up` with zone 5 and emitter 0 named by some setting. -/
def upSet : State := { up with settings := [{ key := { kind := .emitter, inst := 0, sub := 0, code := 0x0205 }, val := [1], gen := 1 },
  { key := { kind := .zone, inst := 5, sub := 0, code := 0x1701 }, val := [0], gen := 1 }] }
/-- `up` with one stored image. -/
def upImage : State := { up with images := [{ id := 1, bytes := zeros 48 }] }

/-! ### Witnesses: ports, placement, stores, lookback, power -/

/-- `up` with settings. -/
def upWith (l : Settings) : State := { up with settings := l }
/-- A setting of a port, a zone, a trigger. -/
def setting (kind : Kind) (inst code : Nat) (v : List Int) : Setting :=
  { key := { kind := kind, inst := inst, sub := 0, code := code }, val := v, gen := 1 }
/-- Ports that probe in mode DAS-PHASE. -/
def upProbing : State := upWith [setting .port 0 0x0201 [1]]
/-- The chain has made 16 clean passes, and no interlock cause stands. -/
def upArmed : State := { up with sdc := { up.sdc with passes := 16 } }
/-- The items that MEAS_START must carry. -/
def measArmed (arm src : Nat) : List Byte :=
  i1 0x1601 0 ++ item 0x1602 (le 1 src ++ [2]) ++ i1 0x1605 arm ++ i1 0x1606 0 ++ item 0x1607 (le 8 1000 ++ le 8 1000) ++ item 0x1608 (zeros 12) ++ i1 0x1609 0 ++ i1 0x160D 1
/-- Those of a measurement that waits for a window. -/
def measItems : List Byte := measArmed 2 1

/-- The measurement that a packet asks of a state. -/
def asks (s : State) (body : List Byte) : MeasReq :=
  { id := BitVec.ofNat 16 (s.freshId 16 s.tiu.ids).1, anchorPort := none
    params := (pars 0x0604 (pkt body)).items.map (fun x => (x.1.code % 256, x.2)), asked := s.time.dev }
/-- A waiting measurement. -/
def waitingMeas : MeasReq := { id := 3, anchorPort := none, params := [], asked := 0 }
/-- `up` with measurements that wait. -/
def upMeas (n : Nat) : State := up.modTiu fun t => { t with queue := List.replicate n waitingMeas }

theorem witness_PortAndTimeCommandsAct :
    (∃ s k i p, Accepted i 0x0307 k p s ∧ ∀ g ∈ p.named 0x0105, s.rearmOk g = true) ∧
    (∃ s k i p, Accepted i 0x0307 k p s ∧ ∃ g ∈ p.named 0x0105, s.rearmOk g = false) ∧
    (∃ s k i p, ∃ q : PortIx, Accepted i 0x0308 k p s ∧ p.named 0x0101 = [q.val] ∧ bit s.ports[q].endR 20 = true) ∧
    (∃ s k i p, ∃ q : PortIx, Accepted i 0x0308 k p s ∧ q.val ∈ p.named 0x0101 ∧ bit s.ports[q].endR 20 = false) ∧
    (∃ s k i p, Accepted i 0x0409 k p s ∧ ∀ z ∈ p.named 0x0102, z ∈ s.settings.zones) ∧
    (∃ s k i p, Accepted i 0x0409 k p s ∧ ∃ z ∈ p.named 0x0102, z ∉ s.settings.zones) ∧
    (∃ s k i p, Accepted i 0x0502 k p s ∧ ∀ n ∈ p.named 0x0101, s.settings.probing n = true ∧ bit s.clk.ckg1 n = true) ∧
    (∃ s k i p, Accepted i 0x0502 k p s ∧ ∃ n ∈ p.named 0x0101, s.settings.probing n = false) ∧
    (∃ s k i p, Accepted i 0x0502 k p s ∧ (∀ n ∈ p.named 0x0101, s.settings.probing n = true) ∧ ∃ n ∈ p.named 0x0101, bit s.clk.ckg1 n = false) ∧
    (∃ s k i p, Accepted i 0x0606 k p s) ∧
    (∃ s k i p, ∃ m : MeasReq, Accepted i 0x0604 k p s ∧ m = asks s k.body ∧ measOk m s.unitNow = true ∧ s.tiu.user ≠ 3 ∧ s.tiu.depth < 8) ∧
    (∃ s k i p, ∃ m : MeasReq, Accepted i 0x0604 k p s ∧ m = asks s k.body ∧ measOk m s.unitNow = false) ∧
    (∃ s k i p, ∃ m : MeasReq, Accepted i 0x0604 k p s ∧ m = asks s k.body ∧ measOk m s.unitNow = true ∧ s.tiu.user = 3) ∧
    (∃ s k i p, ∃ m : MeasReq, Accepted i 0x0604 k p s ∧ m = asks s k.body ∧ measOk m s.unitNow = true ∧ s.tiu.user ≠ 3 ∧ 8 ≤ s.tiu.depth) ∧
    (∃ s k i p r, Accepted i 0x0605 k p s ∧ s.tiu.run = some r ∧ r.req.anchorPort = none ∧ r.req.id = BitVec.ofNat 16 (p.getD 0x022A 0)) ∧
    (∃ s k i p m, Accepted i 0x0605 k p s ∧ s.tiu.run = none ∧
      s.tiu.queue.find? (fun m => m.anchorPort.isNone && m.id == BitVec.ofNat 16 (p.getD 0x022A 0)) = some m) ∧
    (∃ s k i p, Accepted i 0x0605 k p s ∧ s.tiu.run = none ∧
      s.tiu.queue.find? (fun m => m.anchorPort.isNone && m.id == BitVec.ofNat 16 (p.getD 0x022A 0)) = none) :=
  ⟨⟨upArmed, pkt (i1 0x0105 0), 0, _, accepted (by decide +kernel), by decide +kernel⟩,
    ⟨up, pkt (i1 0x0105 0), 0, _, accepted (by decide +kernel), by decide +kernel⟩,
    ⟨up.modPort 0 fun q => { q with endR := 0x00100000 }, pkt (i1 0x0101 0), 0, _, 0, accepted (by decide +kernel), by decide +kernel⟩,
    ⟨up, pkt (i1 0x0101 0), 0, _, 0, accepted (by decide +kernel), by decide +kernel⟩,
    ⟨upSet, pkt (i1 0x0102 5), 0, _, accepted (by decide +kernel), by decide +kernel⟩,
    ⟨up, pkt (i1 0x0102 5), 0, _, accepted (by decide +kernel), by decide +kernel⟩,
    ⟨upProbing, pkt (i1 0x0101 0), 0, _, accepted (by decide +kernel), by decide +kernel⟩,
    ⟨up, pkt (i1 0x0101 0), 0, _, accepted (by decide +kernel), by decide +kernel⟩,
    ⟨upProbing.modClk fun c => { c with ckg1 := 0 }, pkt (i1 0x0101 0), 0, _, accepted (by decide +kernel), by decide +kernel⟩,
    ⟨up, pkt (i1 0x0101 0), 0, _, accepted (by decide +kernel)⟩,
    ⟨up, pkt measItems, 0, _, _, accepted (by decide +kernel), rfl, by decide +kernel⟩,
    ⟨up, pkt (measArmed 1 9), 0, _, _, accepted (by decide +kernel), rfl, by decide +kernel⟩,
    ⟨up.modTiu fun t => { t with stat := setFld t.stat 10 2 3 }, pkt measItems, 0, _, _, accepted (by decide +kernel), rfl, by decide +kernel⟩,
    ⟨upMeas 8, pkt measItems, 0, _, _, accepted (by decide +kernel), rfl, by decide +kernel⟩,
    ⟨up.modTiu fun t => { t with run := some (MeasRun.begin waitingMeas 0 0) }, pkt (i2 0x022A 3), 0, _, MeasRun.begin waitingMeas 0 0,
      accepted (by decide +kernel), by decide +kernel⟩,
    ⟨upMeas 1, pkt (i2 0x022A 3), 0, _, waitingMeas, accepted (by decide +kernel), by decide +kernel⟩,
    ⟨up, pkt (i2 0x022A 3), 0, _, accepted (by decide +kernel), by decide +kernel⟩⟩

/-- Port 0 probes, and every pipeline is lost. -/
def upNoPipes : State := { upProbing with pipes := Vector.replicate 26 { src := 0x80, dropping := false } }

/-- The placement of a block without zones: the pools and the Press's working memory. -/
def upPlaced : State := up.modLadle fun l => { l with place := { l.place with cave := [(8000, 4, 0, 512), (8001, 4, 1, 512), (8002, 3, 0, 26)] } }

/-- A zone that runs an image of `n` bytes. -/
def upBig (n : Nat) : State := { upWith [setting .zone 5 0x1701 [0], setting .zone 5 0x1705 [1]] with images := [{ id := 1, bytes := zeros n }] }
theorem upBig_bytes (n : Nat) : namedImageBytes (upBig n) = n := by
  have hz : (((upBig n).settings.zones.map fun z => (upBig n).settings.zone z 0x1705).filter (· ≠ 0)) = [1] := rfl
  rw [namedImageBytes, hz]
  simp [upBig, zeros]
/-- Engines 0 to 27 in service, the others in reserve. -/
def upEngines : State := { up with engines := Vector.ofFn fun i : EngIx => { Engine.reset with stat := if i.val < 28 then 1 else 0 } }

theorem witness_PlacementAndDiagnosticCommandsAct :
    (∃ s k i p, Accepted i 0x040B k p s ∧ namedImageBytes s ≤ 1048576 ∧ s.boot.nvBad = false) ∧
    (∃ s k i p, Accepted i 0x040B k p s ∧ 1048576 < namedImageBytes s) ∧
    (∃ s k i p, Accepted i 0x040B k p s ∧ namedImageBytes s ≤ 1048576 ∧ s.boot.nvBad = true) ∧
    (∃ s k i p, Accepted i 0x0B05 k p s) ∧
    (∃ s k i p n, Accepted i 0x0B01 k p s ∧ unitNamed p = some (.lane n) ∧ bit s.clk.ckg1 (lanePort n).val = true) ∧
    (∃ s k i p n, Accepted i 0x0B01 k p s ∧ unitNamed p = some (.lane n) ∧ bit s.clk.ckg1 (lanePort n).val = false) ∧
    (∃ s k i p, Accepted i 0x0B01 k p s ∧ ∀ n, unitNamed p ≠ some (.lane n)) ∧
    (∃ s k i p u, Accepted i 0x0B02 k p s ∧ unitNamed p = some u ∧ (∀ n, u ≠ .lane n) ∧ s.unitOk u = false) ∧
    (∃ s k i p u, Accepted i 0x0B02 k p s ∧ unitNamed p = some u ∧ s.unitOk u = true) ∧
    (∃ s k i p u, Accepted i 0x0407 k p s ∧ unitNamed p = some u ∧ (∀ n, u ≠ .lane n) ∧ (∀ n, u ≠ .vernier n) ∧ s.isRetired u = false) ∧
    (∃ s k i p n, Accepted i 0x0407 k p s ∧ (unitNamed p = some (.lane n) ∨ ∃ m, unitNamed p = some (.vernier m))) ∧
    (∃ s k i p, Accepted i 0x0406 k p s ∧ p.getD 0x0218 0 ≤ (reserveEngines s).length) ∧
    (∃ s k i p, Accepted i 0x0406 k p s ∧ (reserveEngines s).length < p.getD 0x0218 0 ∧
      (enginesInService s).length < p.getD 0x0218 0 - (reserveEngines s).length) ∧
    (∃ s k i p, Accepted i 0x0406 k p s ∧ (reserveEngines s).length < p.getD 0x0218 0 ∧
      (enginesOut s (p.getD 0x0218 0)).filter (fun n => s.ladle.place.holds (.engine n)) = [] ∧
      p.getD 0x0218 0 - (reserveEngines s).length ≤ (enginesInService s).length) ∧
    (∃ s k i p e, Accepted i 0x0405 k p s ∧ placeAll (s.heard i k) s.settings s.settings true = .error e) ∧
    (∃ s k i p, Accepted i 0x0405 k p s ∧ placeAll (s.heard i k) s.settings s.settings true = .ok s.ladle.place ∧
      unitMoves s.ladle.place s.ladle.place = []) := by
  refine ⟨⟨up, pkt [], 0, _, accepted (by decide +kernel), by decide +kernel⟩,
    ⟨upBig 1048577, pkt [], 0, _, accepted (by decide +kernel), by rw [upBig_bytes]; decide⟩,
    ⟨up.modBoot fun b => { b with nvBad := true }, pkt [], 0, _, accepted (by decide +kernel), by decide +kernel⟩,
    ⟨up, pkt [], 0, _, accepted (by decide +kernel)⟩,
    ⟨up, pkt (item 0x021A [4, 0]), 0, _, 0, accepted (by decide +kernel), by decide +kernel⟩,
    ⟨up.modClk fun c => { c with ckg1 := 0 }, pkt (item 0x021A [4, 0]), 0, _, 0, accepted (by decide +kernel), by decide +kernel⟩,
    ⟨up, pkt (item 0x021A [1, 0]), 0, _, accepted (by decide +kernel), by decide +kernel⟩,
    ⟨upNoPipes, pkt (item 0x021A [1, 0]), 0, _, .pipeline 0, accepted (by decide +kernel), by decide +kernel, by simp, by decide +kernel⟩,
    ⟨up, pkt (item 0x021A [1, 0]), 0, _, .pipeline 0, accepted (by decide +kernel), by decide +kernel, by decide +kernel⟩,
    ⟨up, pkt (item 0x021A [1, 0]), 0, _, .pipeline 0, accepted (by decide +kernel), by decide +kernel, by simp, by simp, by decide +kernel⟩,
    ⟨up, pkt (item 0x021A [4, 0]), 0, _, 0, accepted (by decide +kernel), .inl (by decide +kernel)⟩,
    ⟨upEngines, pkt (i1 0x0218 0), 0, _, accepted (by decide +kernel), by decide +kernel⟩,
    ⟨{ up with engines := Vector.replicate 32 { Engine.reset with stat := 6 } }, pkt (i1 0x0218 1), 0, _, accepted (by decide +kernel), by decide +kernel⟩,
    ⟨{ up with engines := Vector.replicate 32 { Engine.reset with stat := 1 } }, pkt (i1 0x0218 4), 0, _, accepted (by decide +kernel), by decide +kernel⟩,
    ?_, ?_⟩
  · have h : (match placeAll (upNoPipes.heard 0 (pkt [])) upNoPipes.settings upNoPipes.settings true with | .ok _ => false | .error _ => true) = true := by
      decide +kernel
    split at h
    · cases h
    · exact ⟨upNoPipes, pkt [], 0, _, _, accepted (by decide +kernel), ‹_›⟩
  · have h : (match placeAll (upPlaced.heard 0 (pkt [])) upPlaced.settings upPlaced.settings true with
        | .ok x => decide (x = upPlaced.ladle.place) | .error _ => false) = true := by decide +kernel
    split at h
    · have h2 := of_decide_eq_true h
      subst h2
      exact ⟨upPlaced, pkt [], 0, _, accepted (by decide +kernel), ‹_›, by decide +kernel⟩
    · cases h

/-- The smallest program image: one instruction, entry 0, budget 1. -/
def image : List Byte :=
  le 2 0x20 ++ le 1 1 ++ le 1 0 ++ le 4 1 ++ le 2 0 ++ le 2 0 ++ le 2 0 ++ le 1 1 ++ le 1 0 ++ le 4 1 ++ le 4 1 ++ le 4 0 ++ le 4 0 ++ le 4 0 ++ zeros 12 ++ zeros 4
/-- A job descriptor that stands. -/
def job (tag : Nat) : List Byte :=
  le 2 0x31 ++ le 1 1 ++ le 1 1 ++ le 4 tag ++ le 1 0 ++ le 1 1 ++ le 1 0 ++ le 1 1 ++ le 2 1 ++ le 1 4 ++ le 1 0 ++ le 4 1 ++ le 2 1 ++ le 2 0 ++ le 8 0 ++
    le 4 0 ++ le 4 64 ++ le 8 128 ++ le 8 256 ++ le 8 512
/-- The pieces of an image of 52 bytes, and of 4 bytes that no image has. -/
def loadImage : List Byte := item 0x021E (le 4 0 ++ le 4 52 ++ image)
def loadBad : List Byte := item 0x021E (le 4 0 ++ le 4 4 ++ [1, 2, 3, 4])
/-- A later piece at an offset. -/
def laterPiece (o t : Nat) (bs : List Byte) : List Byte := i4 0x021D 9 ++ item 0x021E (le 4 o ++ le 4 t ++ bs)
/-- `up` with a load under way, of which `n` bytes are there. -/
def upLoad (n : Nat) : State := { up with loads := [(52, { id := 9, bytes := image.take n })] }
/-- `up` whose zone 5 runs image 1. -/
def upUsed : State := { upWith [setting .zone 5 0x1701 [0], setting .zone 5 0x1705 [1]] with images := [{ id := 1, bytes := image }] }
/-- `up` with a host job of tag 7. -/
def upJob : State := { up with jobs := [{ desc := job 7, lane := none, running := false, setAside := false, cancel := false, cls := 2, arrived := 0 }] }

theorem witness_StoreCommandsKeepWhatTheyAreGiven :
    (∃ s k i p, ∃ (t : Int) (bs : List Int) (img : List Byte), Accepted i 0x0801 k p s ∧ p.val? 0x021E = some (0 :: t :: bs) ∧
      img = bs.map (fun v => BitVec.ofInt 8 v) ∧ t.toNat = img.length ∧ (s.images.map (·.id) ++ s.loads.map (·.2.id)).length < 64 ∧
      imageOk img = true) ∧
    (∃ s k i p, ∃ (t : Int) (bs : List Int) (img : List Byte), Accepted i 0x0801 k p s ∧ p.val? 0x021E = some (0 :: t :: bs) ∧
      img = bs.map (fun v => BitVec.ofInt 8 v) ∧ t.toNat = img.length ∧ (s.images.map (·.id) ++ s.loads.map (·.2.id)).length < 64 ∧
      imageOk img = false) ∧
    (∃ s k i p, ∃ bs : List Int, Accepted i 0x0801 k p s ∧ p.val? 0x021E = some (0 :: 52 :: bs) ∧ bs.length < 52) ∧
    (∃ s k i p, ∃ bs : List Int, Accepted i 0x0801 k p s ∧ p.val? 0x021E = some (0 :: 4 :: bs) ∧ 4 < bs.length) ∧
    (∃ s k i p, ∃ bs : List Int, Accepted i 0x0801 k p s ∧ p.val? 0x021E = some (0 :: 52 :: bs) ∧ 64 ≤ s.images.length) ∧
    (∃ s k i p, ∃ bs : List Int, Accepted i 0x0801 k p s ∧ p.val? 0x021E = some (48 :: 52 :: bs) ∧ p.val? 0x021D = none) ∧
    (∃ s k i p, ∃ bs : List Int, Accepted i 0x0801 k p s ∧ p.val? 0x021E = some (48 :: 52 :: bs) ∧ p.val? 0x021D = some [9] ∧ s.loads = []) ∧
    (∃ s k i p, ∃ (bs : List Int) (l : Nat × Image), Accepted i 0x0801 k p s ∧ p.val? 0x021E = some (48 :: 52 :: bs) ∧ p.val? 0x021D = some [9] ∧
      s.loads.find? (fun x => x.2.id == 9) = some l ∧ l.2.bytes.length < 48) ∧
    (∃ s k i p, ∃ (bs : List Int) (l : Nat × Image), Accepted i 0x0801 k p s ∧ p.val? 0x021E = some (48 :: 52 :: bs) ∧ p.val? 0x021D = some [9] ∧
      s.loads.find? (fun x => x.2.id == 9) = some l ∧ l.1 = 52 ∧ 48 ≤ l.2.bytes.length ∧ bs.length = 4 ∧
      imageOk (imagePiece l.2.bytes 48 (bs.map fun v => BitVec.ofInt 8 v)) = true) ∧
    (∃ s k i p, ∃ (bs : List Int) (l : Nat × Image), Accepted i 0x0801 k p s ∧ p.val? 0x021E = some (8 :: 52 :: bs) ∧ p.val? 0x021D = some [9] ∧
      s.loads.find? (fun x => x.2.id == 9) = some l ∧ l.1 = 52 ∧ 8 ≤ l.2.bytes.length ∧ 8 + bs.length < 52) ∧
    (∃ s k i p, ∃ (bs : List Int) (l : Nat × Image), Accepted i 0x0801 k p s ∧ p.val? 0x021E = some (48 :: 52 :: bs) ∧ p.val? 0x021D = some [9] ∧
      s.loads.find? (fun x => x.2.id == 9) = some l ∧ l.1 = 52 ∧ 48 ≤ l.2.bytes.length ∧ bs.length = 4 ∧
      imageOk (imagePiece l.2.bytes 48 (bs.map fun v => BitVec.ofInt 8 v)) = false) ∧
    (∃ s k i p, Accepted i 0x0802 k p s ∧ (∀ x ∈ s.images, x.id ≠ p.getD 0x021D 0) ∧ ∀ x ∈ s.loads, x.2.id ≠ p.getD 0x021D 0) ∧
    (∃ s k i p, Accepted i 0x0802 k p s ∧ (∃ x ∈ s.images, x.id = p.getD 0x021D 0) ∧ s.imageUsed (p.getD 0x021D 0) = false) ∧
    (∃ s k i p, Accepted i 0x0802 k p s ∧ (∃ x ∈ s.images, x.id = p.getD 0x021D 0) ∧ s.imageUsed (p.getD 0x021D 0) = true) ∧
    (∃ s k i p, ∃ v : List Int, Accepted i 0x0901 k p s ∧ p.val? 0x021F = some v ∧ s.jobRefusal (v.map fun b => BitVec.ofInt 8 b) = 0) ∧
    (∃ s k i p, ∃ v : List Int, Accepted i 0x0901 k p s ∧ p.val? 0x021F = some v ∧ s.jobRefusal (v.map fun b => BitVec.ofInt 8 b) ≠ 0) ∧
    (∃ s k i p, Accepted i 0x0902 k p s ∧ ∃ j ∈ s.jobs, jobField j.desc 4 4 = p.getD 0x022B 0) ∧
    (∃ s k i p, Accepted i 0x0902 k p s ∧ ∀ j ∈ s.jobs, jobField j.desc 4 4 ≠ p.getD 0x022B 0) :=
  ⟨⟨up, pkt loadImage, 0, _, 52, image.map (fun b => (b.toNat : Int)), image, accepted (by decide +kernel), by decide +kernel⟩,
   ⟨up, pkt loadBad, 0, _, 4, [1, 2, 3, 4], [1, 2, 3, 4], accepted (by decide +kernel), by decide +kernel⟩,
   ⟨up, pkt (item 0x021E (le 4 0 ++ le 4 52 ++ [1])), 0, _, [1], accepted (by decide +kernel), by decide +kernel⟩,
   ⟨up, pkt (item 0x021E (le 4 0 ++ le 4 4 ++ [1, 2, 3, 4, 5])), 0, _, [1, 2, 3, 4, 5], accepted (by decide +kernel), by decide +kernel⟩,
   ⟨{ up with images := List.replicate 64 { id := 1, bytes := [] } }, pkt (item 0x021E (le 4 0 ++ le 4 52 ++ [1])), 0, _, [1],
     accepted (by decide +kernel), by decide +kernel⟩,
   ⟨up, pkt (item 0x021E (le 4 48 ++ le 4 52 ++ zeros 4)), 0, _, [0, 0, 0, 0], accepted (by decide +kernel), by decide +kernel⟩,
   ⟨up, pkt (laterPiece 48 52 (zeros 4)), 0, _, [0, 0, 0, 0], accepted (by decide +kernel), by decide +kernel⟩,
   ⟨upLoad 47, pkt (laterPiece 48 52 (zeros 4)), 0, _, [0, 0, 0, 0], (52, { id := 9, bytes := image.take 47 }), accepted (by decide +kernel), by decide +kernel⟩,
   ⟨upLoad 48, pkt (laterPiece 48 52 (zeros 4)), 0, _, [0, 0, 0, 0], (52, { id := 9, bytes := image.take 48 }), accepted (by decide +kernel), by decide +kernel⟩,
   ⟨upLoad 48, pkt (laterPiece 8 52 [7]), 0, _, [7], (52, { id := 9, bytes := image.take 48 }), accepted (by decide +kernel), by decide +kernel⟩,
   ⟨{ up with loads := [(52, { id := 9, bytes := zeros 48 })] }, pkt (laterPiece 48 52 (zeros 4)), 0, _, [0, 0, 0, 0], (52, { id := 9, bytes := zeros 48 }),
     accepted (by decide +kernel), by decide +kernel⟩,
   ⟨up, pkt (i1 0x021D 1), 0, _, accepted (by decide +kernel), by decide +kernel⟩,
   ⟨upImage, pkt (i1 0x021D 1), 0, _, accepted (by decide +kernel), by decide +kernel⟩,
   ⟨upUsed, pkt (i1 0x021D 1), 0, _, accepted (by decide +kernel), by decide +kernel⟩,
   ⟨up, pkt (item 0x021F (job 7)), 0, _, (job 7).map (fun b => (b.toNat : Int)), accepted (by decide +kernel), by decide +kernel⟩,
   ⟨up, pkt (item 0x021F (zeros 64)), 0, _, (zeros 64).map (fun b => (b.toNat : Int)), accepted (by decide +kernel), by decide +kernel⟩,
   ⟨upJob, pkt (i1 0x022B 7), 0, _, accepted (by decide +kernel), by decide +kernel⟩,
   ⟨up, pkt (i1 0x022B 7), 0, _, accepted (by decide +kernel), by decide +kernel⟩⟩

/-- A trigger of source 0 and of source 1 (SOURCE, SECTIONS, PRE, POST, HOLDOFF, DETAIL, T_AT). -/
def upTrig (src : Int) : State := upWith [setting .trigger 0 0x021C [src, 3, 100, 100, 1, 0, 0], setting .trigger 0 0x0102 [5]]
/-- A capture, held or not. -/
def capture (held : Bool) : Capture :=
  { id := 4, zone := 5, port := 0, trigger := 0, source := 0, detail := 0, sections := 1, tTrig := 0, tStart := 0, tEnd := 0, held :=
    held, pinnedAt := 0,
    flags := 0, launches := [], raw := [], curd := [], rawR := some (0, 1), curdR := none,
    plan := [setting .port 0 0x1001 [4], setting .port 0 0x1002 [4], setting .port 0 0x1003 [16], setting .port 0 0x1004 [0],
      setting .port 0 0x1005 [64],
      setting .port 0 0x1006 [65536], setting .port 0 0x1008 [10000], setting .zone 5 0x1701 [0], setting .zone 5 0x1702 [10, 20],
        setting .zone 5 0x1703 [1]] }
/-- `up` with the capture. -/
def upCap (held : Bool) : State := up.modLook fun l => { l with captures := [capture held] }
/-- REANALYSE of capture 4 from raw data, for strain. -/
def reanalyse : List Byte := i1 0x0227 4 ++ item 0x0228 [1, 1, 0, 0]

theorem witness_LookbackCommandsAct :
    (∃ s k i p n, Accepted i 0x0A03 k p s ∧ p.named 0x0109 = [n] ∧ trigSet s.settings n = true ∧ trigPar s.settings n 0 = 0 ∧
      ((s.heard i k).fireCommand n).1 = 0) ∧
    (∃ s k i p st items u, Accepted i 0x0A03 k p s ∧ fireAll (s.heard i k) (p.named 0x0109) [] (s.heard i k) = .done st items u) ∧
    (∃ s k i p n, Accepted i 0x0A03 k p s ∧ p.named 0x0109 = [n] ∧ trigSet s.settings n = false) ∧
    (∃ s k i p n, Accepted i 0x0A03 k p s ∧ p.named 0x0109 = [n] ∧ trigSet s.settings n = true ∧ trigPar s.settings n 0 ≠ 0) ∧
    (∃ s k i p c, Accepted i 0x0A04 k p s ∧ s.capture? (p.getD 0x0227 0) = some c ∧ c.held = true) ∧
    (∃ s k i p, Accepted i 0x0A04 k p s ∧ s.capture? (p.getD 0x0227 0) = none) ∧
    (∃ s k i p c, Accepted i 0x0A05 k p s ∧ s.capture? (p.getD 0x0227 0) = some c ∧ c.held = true) ∧
    (∃ s k i p c, Accepted i 0x0A05 k p s ∧ s.capture? (p.getD 0x0227 0) = some c ∧ c.held = false) ∧
    (∃ s k i p, Accepted i 0x0A06 k p s ∧ s.capture? (p.getD 0x0227 0) = none) ∧
    (∃ s k i p c n v, Accepted i 0x0A06 k p s ∧ s.capture? (p.getD 0x0227 0) = some c ∧ c.held = true ∧ p.val? 0x0228 = some v ∧ v.getD 0 0 = 1 ∧
      c.rawR ≠ none ∧ c.flags.getLsbD 2 = false ∧ s.idlePipe = some n ∧
      jobParamsOk c (p.items.filter fun x => x.1.code / 256 == 0x12 || x.1.code / 256 == 0x13) true (v.getD 1 0).toNat = true) ∧
    (∃ s k i p c v, Accepted i 0x0A06 k p s ∧ s.capture? (p.getD 0x0227 0) = some c ∧ p.val? 0x0228 = some v ∧ v.getD 0 0 = 1 ∧ c.held = false) ∧
    (∃ s k i p c v, Accepted i 0x0A06 k p s ∧ s.capture? (p.getD 0x0227 0) = some c ∧ c.held = true ∧ p.val? 0x0228 = some v ∧ v.getD 0 0 = 1 ∧
      c.rawR ≠ none ∧ jobParamsOk c (p.items.filter fun x => x.1.code / 256 == 0x12 || x.1.code / 256 == 0x13) true (v.getD 1 0).toNat = false) ∧
    (∃ s k i p c v, Accepted i 0x0A06 k p s ∧ s.capture? (p.getD 0x0227 0) = some c ∧ c.held = true ∧ p.val? 0x0228 = some v ∧ v.getD 0 0 = 1 ∧
      c.rawR ≠ none ∧ c.flags.getLsbD 2 = true ∧
      jobParamsOk c (p.items.filter fun x => x.1.code / 256 == 0x12 || x.1.code / 256 == 0x13) true (v.getD 1 0).toNat = true) ∧
    (∃ s k i p c v, Accepted i 0x0A06 k p s ∧ s.capture? (p.getD 0x0227 0) = some c ∧ c.held = true ∧ p.val? 0x0228 = some v ∧ v.getD 0 0 = 1 ∧
      c.rawR ≠ none ∧ c.flags.getLsbD 2 = false ∧ s.idlePipe = none ∧
      jobParamsOk c (p.items.filter fun x => x.1.code / 256 == 0x12 || x.1.code / 256 == 0x13) true (v.getD 1 0).toNat = true) :=
  ⟨⟨upTrig 0, pkt (i1 0x0109 0), 0, _, 0, accepted (by decide +kernel), by decide +kernel⟩,
   ⟨up, pkt (i1 0x0109 0), 0, _, 0x0225, [], _, accepted (by decide +kernel), rfl⟩,
   ⟨up, pkt (i1 0x0109 0), 0, _, 0, accepted (by decide +kernel), by decide +kernel⟩,
   ⟨upTrig 1, pkt (i1 0x0109 0), 0, _, 0, accepted (by decide +kernel), by decide +kernel⟩,
   ⟨upCap true, pkt (i1 0x0227 4), 0, _, capture true, accepted (by decide +kernel), by decide +kernel⟩,
   ⟨up, pkt (i1 0x0227 4), 0, _, accepted (by decide +kernel), by decide +kernel⟩,
   ⟨upCap true, pkt (i1 0x0227 4), 0, _, capture true, accepted (by decide +kernel), by decide +kernel⟩,
   ⟨upCap false, pkt (i1 0x0227 4), 0, _, capture false, accepted (by decide +kernel), by decide +kernel⟩,
   ⟨up, pkt reanalyse, 0, _, accepted (by decide +kernel), by decide +kernel⟩,
   ⟨upCap true, pkt reanalyse, 0, _, capture true, 0, [1, 1], accepted (by decide +kernel), by decide +kernel⟩,
   ⟨upCap false, pkt reanalyse, 0, _, capture false, [1, 1], accepted (by decide +kernel), by decide +kernel⟩,
   ⟨upCap true, pkt (reanalyse ++ i4 0x1202 40000), 0, _, capture true, [1, 1], accepted (by decide +kernel), by decide +kernel⟩,
   ⟨up.modLook fun l => { l with captures := [{ capture true with flags := 4 }] }, pkt reanalyse, 0, _, { capture true with flags := 4 }, [1, 1],
     accepted (by decide +kernel), by decide +kernel⟩,
   ⟨{ upCap true with pipes := Vector.replicate 26 { src := 0x80, dropping := false } }, pkt reanalyse, 0, _, capture true, [1, 1],
     accepted (by decide +kernel), by decide +kernel⟩⟩

theorem witness_QueriesAnswerAndChangeNothing :
    (∃ s k i p, Accepted i 0x0309 k p s) ∧
    (∃ s k i p, Accepted i 0x030A k p s ∧ ∀ e ∈ p.named 0x0104, emDefined s.settings e = true) ∧
    (∃ s k i p, Accepted i 0x030A k p s ∧ ∃ e ∈ p.named 0x0104, emDefined s.settings e = false) ∧
    (∃ s k i p, Accepted i 0x0404 k p s ∧ p.named 0x0102 ≠ [] ∧ ∀ z ∈ p.named 0x0102, z ∈ knownZones s) ∧
    (∃ s k i p, Accepted i 0x0404 k p s ∧ ∃ z ∈ p.named 0x0102, z ∉ knownZones s) ∧
    (∃ s k i p, Accepted i 0x0503 k p s ∧ ∀ n ∈ p.named 0x0101, s.settings.probing n = true ∧ bit s.clk.ckg1 n = true) ∧
    (∃ s k i p, Accepted i 0x0503 k p s ∧ ∃ n ∈ p.named 0x0101, s.settings.probing n = false) ∧
    (∃ s k i p, Accepted i 0x0503 k p s ∧ (∀ n ∈ p.named 0x0101, s.settings.probing n = true) ∧ ∃ n ∈ p.named 0x0101, bit s.clk.ckg1 n = false) ∧
    (∃ s k i p, Accepted i 0x0603 k p s) ∧
    (∃ s k i p img, Accepted i 0x0803 k p s ∧ s.images.find? (fun x => x.id == p.getD 0x021D 0) = some img) ∧
    (∃ s k i p, Accepted i 0x0803 k p s ∧ s.images.find? (fun x => x.id == p.getD 0x021D 0) = none) ∧
    (∃ s k i p, Accepted i 0x0903 k p s) ∧
    (∃ s k i p, Accepted i 0x0A07 k p s ∧ p.val? 0x0227 = none) ∧
    (∃ s k i p v c, Accepted i 0x0A07 k p s ∧ p.val? 0x0227 = some v ∧ s.capture? (v.getD 0 0).toNat = some c ∧ c.held = true) ∧
    (∃ s k i p v, Accepted i 0x0A07 k p s ∧ p.val? 0x0227 = some v ∧ s.capture? (v.getD 0 0).toNat = none) ∧
    (∃ s k i p, Accepted i 0x0B03 k p s) ∧
    (∃ s k i p, Accepted i 0x0B04 k p s) ∧
    (∃ s k i p, Accepted i 0x0C02 k p s) :=
  ⟨⟨up, pkt (i1 0x0101 3), 0, _, accepted (by decide +kernel)⟩,
   ⟨upSet, pkt (i1 0x0104 0), 0, _, accepted (by decide +kernel), by decide +kernel⟩,
   ⟨up, pkt (i1 0x0104 0), 0, _, accepted (by decide +kernel), by decide +kernel⟩,
   ⟨upSet, pkt (i1 0x0102 5), 0, _, accepted (by decide +kernel), by decide +kernel⟩,
   ⟨up, pkt (i1 0x0102 5), 0, _, accepted (by decide +kernel), by decide +kernel⟩,
   ⟨upProbing, pkt (i1 0x0101 0), 0, _, accepted (by decide +kernel), by decide +kernel⟩,
   ⟨up, pkt (i1 0x0101 3), 0, _, accepted (by decide +kernel), by decide +kernel⟩,
   ⟨upProbing.modClk fun c => { c with ckg1 := 0 }, pkt (i1 0x0101 0), 0, _, accepted (by decide +kernel), by decide +kernel⟩,
   ⟨up, pkt [], 0, _, accepted (by decide +kernel)⟩,
   ⟨upImage, pkt (i1 0x021D 1), 0, _, { id := 1, bytes := zeros 48 }, accepted (by decide +kernel), by decide +kernel⟩,
   ⟨up, pkt (i1 0x021D 1), 0, _, accepted (by decide +kernel), by decide +kernel⟩,
   ⟨up, pkt [], 0, _, accepted (by decide +kernel)⟩,
   ⟨up, pkt [], 0, _, accepted (by decide +kernel), by decide +kernel⟩,
   ⟨upCap true, pkt (i1 0x0227 4), 0, _, [4], capture true, accepted (by decide +kernel), by decide +kernel⟩,
   ⟨up, pkt (i1 0x0227 4), 0, _, [4], accepted (by decide +kernel), by decide +kernel⟩,
   ⟨up, pkt (i4 0x0226 0), 0, _, accepted (by decide +kernel)⟩,
   ⟨up, pkt [], 0, _, accepted (by decide +kernel)⟩,
   ⟨up, pkt [], 0, _, accepted (by decide +kernel)⟩⟩

/-- The power state stands at `v`. -/
def upPower (v : Word) : State := up.modBoot fun b => { b with pwrStat := v }

theorem witness_PowerSetChangesTheState :
    (∃ s k i p, Accepted i 0x0C01 k p s ∧ p.getD 0x0229 0 ≤ 3 ∧ p.getD 0x0229 0 = s.power) ∧
    (∃ s k i p, Accepted i 0x0C01 k p s ∧ 3 < p.getD 0x0229 0) ∧
    (∃ s k i p, Accepted i 0x0C01 k p s ∧ s.power = 0 ∧ p.getD 0x0229 0 = 1) ∧
    (∃ s k i p, Accepted i 0x0C01 k p s ∧ s.power ≠ 3 ∧ p.getD 0x0229 0 = 3) ∧
    (∃ s k i p, Accepted i 0x0C01 k p s ∧ s.power = 0 ∧ p.getD 0x0229 0 = 2) ∧
    (∃ s k i p, Accepted i 0x0C01 k p s ∧ s.power = 2 ∧ p.getD 0x0229 0 = 0) :=
  ⟨⟨up, pkt (i1 0x0229 0), 0, _, accepted (by decide +kernel), by decide +kernel⟩,
   ⟨up, pkt (i1 0x0229 4), 0, _, accepted (by decide +kernel), by decide +kernel⟩,
   ⟨up, pkt (i1 0x0229 1), 0, _, accepted (by decide +kernel), by decide +kernel⟩,
   ⟨up, pkt (i1 0x0229 3), 0, _, accepted (by decide +kernel), by decide +kernel⟩,
   ⟨up, pkt (i1 0x0229 2), 0, _, accepted (by decide +kernel), by decide +kernel⟩,
   ⟨upPower 2, pkt (i1 0x0229 0), 0, _, accepted (by decide +kernel), by decide +kernel⟩⟩

/-! ### Witnesses: the Rind -/

/-- `up` with a Rind. -/
def upR (f : Rind → Rind) : State := { up with rind := f up.rind }
/-- A front-end entry: channel 4, last of the sequence. -/
def lastEntry : Nat := 0x40000004
/-- Coil and zone settings that THERMAL_SET needs for the device: GAMMA. -/
def setGamma : List Byte := i4 0x1407 40000000
/-- A schedule of one step that parks every channel. -/
def oneStep : List Byte := item 0x021B [0, 31, 31, 31, 31, 1, 0, 0]
/-- A piece that is a whole image of four bytes. -/
def fwPiece : List Byte := item 0x021E (le 4 0 ++ le 4 4 ++ [1, 2, 3, 4])
/-- The Rind SEALED. -/
def upSealed : State := upR fun r => { r with sealSt := .sealed }

theorem witness_MailboxTakesOneRequestAtATime :
    (∃ s k i p op c, (op, c) ∈ rindCommands k ∧ Accepted i op k p s ∧ s.rind.request.isSome = true) ∧
    (∃ s k i p op c, (op, c) ∈ rindCommands k ∧ Accepted i op k p s ∧ s.rind.request = none ∧ s.rind.powered = false) ∧
    (∃ s k i p op c, (op, c) ∈ rindCommands k ∧ Accepted i op k p s ∧ s.rind.request = none ∧ s.rind.powered = true ∧ s.rind.halted = true ∧
      haltedAnswers s.rind op = false) :=
  ⟨⟨upR fun r => { r with request := some (1, 0x0704, pkt []) }, pkt [], 0, _, 0x0704, .rindIdentify (pkt []), by simp [rindCommands],
     accepted (by decide +kernel), by decide +kernel⟩,
   ⟨upR fun r => { r with powered := false }, pkt [], 0, _, 0x0704, .rindIdentify (pkt []), by simp [rindCommands],
     accepted (by decide +kernel), by decide +kernel⟩,
   ⟨upR fun r => { r with halted := true }, pkt (i1 0x0108 0), 0, _, 0x0710, .axc0Urgent (pkt (i1 0x0108 0)), by simp [rindCommands],
     accepted (by decide +kernel), by decide +kernel⟩⟩

theorem witness_RindReadsAnswer :
    (∃ s k i p, Served i 0x0704 k p s) ∧ (∃ s k i p, Served i 0x0705 k p s) ∧ (∃ s k i p, Served i 0x0708 k p s) :=
  ⟨⟨up, pkt [], 0, _, served (by decide +kernel) (by decide +kernel)⟩, ⟨up, pkt [], 0, _, served (by decide +kernel) (by decide +kernel)⟩,
   ⟨up, pkt (i4 0x0226 0), 0, _, served (by decide +kernel) (by decide +kernel)⟩⟩

/-- FRONT_END_SET of entry 0, as the only and last one. -/
def setEntry : List Byte := i1 0x0108 0 ++ i4 0x1901 lastEntry
/-- INH_HOLD, which is not legally relevant. -/
def setHold : List Byte := i2 0x140C 100
/-- A piece of two bytes from offset 2 of an image of four. -/
def fwNext : List Byte := item 0x021E (le 4 2 ++ le 4 4 ++ [3, 4])
/-- `s` with GAMMA set. -/
def gammaSet : Settings := [setting .device 0 0x1407 [40000000]]

theorem witness_RindParametersChangeOnlyUnsealed :
    (∃ s k i p, Served i 0x0701 k p s ∧ MayChange s ∧ ∃ cand : Settings, cand = p.items.foldl (fun ss x => ss.put x.1 x.2) s.rind.params ∧
      thermalMissing cand p.items = false ∧ coilsInRange cand = true ∧ thermalOk cand s.rind.accepted = true) ∧
    (∃ s k i p, Served i 0x0702 k p s ∧ MayChange s ∧ ∃ sch, stepsOf p = some sch ∧ thermalOk s.rind.params sch = true) ∧
    (∃ s k i p, Served i 0x0703 k p s ∧ MayChange s ∧ ∃ cand : Settings, cand = p.items.foldl (fun ss x => ss.put x.1 x.2) s.rind.params ∧
      (∀ x ∈ p.items, x.1.code = 0x1901 → entryAllowed cand (cand.entryWord x.1.inst) = true) ∧ ∃ n < 32, entLast (cand.entryWord n) = true) ∧
    (∃ s k i p, Served i 0x070A k p s ∧ MayChange s ∧ ∃ (n : Int) (bs : List Int), p.val? 0x021E = some (0 :: n :: bs) ∧ bs.length ≤ n.toNat) ∧
    (∃ s k i p, Served i 0x0701 k p s ∧ s.rind.sealSt = .sealed ∧ (∀ x ∈ p.items, lrCode x.1.code = false) ∧ ∃ cand : Settings,
      cand = p.items.foldl (fun ss x => ss.put x.1 x.2) s.rind.params ∧
      thermalMissing cand p.items = false ∧ coilsInRange cand = true ∧ thermalOk cand s.rind.accepted = true) ∧
    (∃ s k i p, Served i 0x070A k p s ∧ MayChange s ∧ ∃ (o n : Int) (bs : List Int), p.val? 0x021E = some (o :: n :: bs) ∧ 0 < o.toNat ∧
      o.toNat = s.rind.fwImage.length ∧ n.toNat = s.rind.fwTotal ∧ o.toNat + bs.length ≤ n.toNat) ∧
    (∃ s k i p c op, (op, c) ∈ [(0x0701, Instr.thermalSet k), (0x0703, .frontEndSet k)] ∧ Served i op k p s ∧ s.rind.sealSt = .sealed ∧
      ∃ x ∈ p.items, lrCode x.1.code = true) ∧
    (∃ s k i p sch, Served i 0x0702 k p s ∧ s.rind.sealSt = .sealed ∧ stepsOf p = some sch) ∧
    (∃ s k i p, Served i 0x070A k p s ∧ s.rind.sealSt = .sealed) := by
  refine ⟨⟨up, pkt setGamma, 0, _, served (by decide +kernel) (by decide +kernel), ⟨by decide +kernel, by decide +kernel⟩, _, rfl,
      by decide +kernel⟩,
    ⟨up, pkt oneStep, 0, _, served (by decide +kernel) (by decide +kernel), ⟨by decide +kernel, by decide +kernel⟩,
      [{ ports := [31, 31, 31, 31], dStep := 1 }], by decide +kernel⟩,
    ⟨up, pkt setEntry, 0, _, served (by decide +kernel) (by decide +kernel), ⟨by decide +kernel, by decide +kernel⟩, _, rfl,
      by decide +kernel, 0, by decide, by decide +kernel⟩,
    ⟨up, pkt fwPiece, 0, _, served (by decide +kernel) (by decide +kernel), ⟨by decide +kernel, by decide +kernel⟩, 4, [1, 2, 3, 4],
      by decide +kernel⟩,
    ⟨{ upSealed with rind := { upSealed.rind with params := gammaSet } }, pkt setHold, 0, _, served (by decide +kernel) (by decide +kernel),
      by decide +kernel, by decide +kernel, _, rfl, by decide +kernel⟩,
    ⟨upR fun r => { r with fwImage := [1, 2], fwTotal := 4 }, pkt fwNext, 0, _, served (by decide +kernel) (by decide +kernel),
      ⟨by decide +kernel, by decide +kernel⟩, 2, 4, [3, 4], by decide +kernel⟩,
    ⟨upSealed, pkt setGamma, 0, _, .thermalSet (pkt setGamma), 0x0701, by simp, served (by decide +kernel) (by decide +kernel),
      by decide +kernel, by decide +kernel⟩,
    ⟨upSealed, pkt oneStep, 0, _, [{ ports := [31, 31, 31, 31], dStep := 1 }], served (by decide +kernel) (by decide +kernel), by decide +kernel⟩,
    ⟨upSealed, pkt fwPiece, 0, _, served (by decide +kernel) (by decide +kernel), by decide +kernel⟩⟩

/-- A sealing request with the identifiers of the Rind after reset, variant M fitted. -/
def upM : State := { up with glb := { up.glb with variantM := true } }
/-- Its trail full, a legally relevant parameter missing from what its schedule needs, and SEALED. -/
def upMFull : State := { upM with rind := { upM.rind with auditCnt := 4096 } }
def upMBad : State := { upM with rind := { upM.rind with nextSchedule := some [{ ports := [0, 31, 31, 31], dStep := 1 }] } }
def upMSealed : State := { upM with rind := { upM.rind with sealSt := .sealed } }
def sealItem : List Byte := item 0x0224 (le 4 up.rind.paramId.toNat ++ le 8 up.rind.swDig.toNat)
/-- SEALED, with the seal contact broken since the start. -/
def upBroken : State := { upSealed with aon := { upSealed.aon with sealBrk := true, sealBrkSince := 0 }, time := { upSealed.time with mono :=
  2 * sec } }

theorem witness_SealIsSetAndBrokenAsTheTablesSay :
    (∃ s k i p, Served i 0x0706 k p s ∧ s.glb.variantM = true ∧ MayChange s ∧
      p.val? 0x0224 = some [(s.rind.paramId.toNat : Int), (s.rind.swDig.toNat : Int)] ∧ thermalOk s.rind.params s.rind.accepted = true) ∧
    (∃ s k i p, Served i 0x0706 k p s ∧ s.glb.variantM = false) ∧
    (∃ s k i p, Served i 0x0706 k p s ∧ s.glb.variantM = true ∧ s.rind.sealSt = .sealed) ∧
    (∃ s k i p, Served i 0x0706 k p s ∧ s.glb.variantM = true ∧ s.rind.sealSt ≠ .sealed ∧
      p.val? 0x0224 ≠ some [(s.rind.paramId.toNat : Int), (s.rind.swDig.toNat : Int)]) ∧
    (∃ s k i p, Served i 0x0706 k p s ∧ s.glb.variantM = true ∧ s.rind.sealSt ≠ .sealed ∧
      p.val? 0x0224 = some [(s.rind.paramId.toNat : Int), (s.rind.swDig.toNat : Int)] ∧ 4096 ≤ s.rind.unexported) ∧
    (∃ s k i p, Served i 0x0706 k p s ∧ s.glb.variantM = true ∧ s.rind.sealSt ≠ .sealed ∧
      p.val? 0x0224 = some [(s.rind.paramId.toNat : Int), (s.rind.swDig.toNat : Int)] ∧ s.rind.unexported < 4096 ∧
      thermalOk s.rind.params s.rind.accepted = false) ∧
    (∃ s k i p, Served i 0x0707 k p s ∧ s.rind.sealSt = .sealed ∧ 4096 ≤ s.rind.unexported) ∧
    (∃ s k i p, Served i 0x0707 k p s ∧ s.rind.sealSt = .sealed ∧ s.rind.unexported < 4096 ∧ s.aon.sealBrk = true ∧
      s.aon.sealBrkSince + sec ≤ s.time.mono) ∧
    (∃ s k i p, Served i 0x0707 k p s ∧ s.rind.sealSt = .sealed ∧ s.rind.unexported < 4096 ∧
      (s.aon.sealBrk = false ∨ s.time.mono < s.aon.sealBrkSince + sec)) ∧
    (∃ s k i p, Served i 0x0707 k p s ∧ s.rind.sealSt ≠ .sealed) ∧
    (∃ s k i p, Served i 0x0709 k p s ∧ s.rind.ackCnt.toNat ≤ p.getD 0x0226 0 ∧ p.getD 0x0226 0 ≤ s.rind.auditCnt.toNat) ∧
    (∃ s k i p, Served i 0x0709 k p s ∧ (p.getD 0x0226 0 < s.rind.ackCnt.toNat ∨ s.rind.auditCnt.toNat < p.getD 0x0226 0)) :=
  ⟨⟨upM, pkt sealItem, 0, _, served (by decide +kernel) (by decide +kernel), by decide +kernel, ⟨by decide +kernel, by decide +kernel⟩,
     by decide +kernel⟩,
   ⟨up, pkt sealItem, 0, _, served (by decide +kernel) (by decide +kernel), by decide +kernel⟩,
   ⟨upMSealed, pkt sealItem, 0, _, served (by decide +kernel) (by decide +kernel), by decide +kernel⟩,
   ⟨upM, pkt (item 0x0224 (zeros 12)), 0, _, served (by decide +kernel) (by decide +kernel), by decide +kernel⟩,
   ⟨upMFull, pkt sealItem, 0, _, served (by decide +kernel) (by decide +kernel), by decide +kernel⟩,
   ⟨upMBad, pkt sealItem, 0, _, served (by decide +kernel) (by decide +kernel), by decide +kernel⟩,
   ⟨{ upMFull with rind := { upMFull.rind with sealSt := .sealed } }, pkt [], 0, _, served (by decide +kernel) (by decide +kernel),
     by decide +kernel⟩,
   ⟨upBroken, pkt [], 0, _, served (by decide +kernel) (by decide +kernel), by decide +kernel⟩,
   ⟨upSealed, pkt [], 0, _, served (by decide +kernel) (by decide +kernel), by decide +kernel⟩,
   ⟨up, pkt [], 0, _, served (by decide +kernel) (by decide +kernel), by decide +kernel⟩,
   ⟨up, pkt (i4 0x0226 0), 0, _, served (by decide +kernel) (by decide +kernel), by decide +kernel⟩,
   ⟨up, pkt (i4 0x0226 9), 0, _, served (by decide +kernel) (by decide +kernel), by decide +kernel⟩⟩

/-- A calibration of channel 4 that is open, its two standards measured or not. -/
def calOpen (z f : Option Int) : CalOpen :=
  { rc := 4, zNom := 0, fNom := 20000000, zMeas := z, fMeas := f, collecting := none, readings := [], bad := false, lastRequest := 0, caller := none }
def upCal (z f : Option Int) : State := upR fun r => { r with axc0 := { r.axc0 with cal := some (calOpen z f) }, params :=
  [setting .entry 0 0x1901 [lastEntry]] }
def rtd0 : List Byte := i1 0x0107 4
def begin0 (z f : Nat) : List Byte := rtd0 ++ item 0x0225 (le 4 z ++ le 4 f)
/-- Entry 0 measures channel 4. -/
def upEntry : State := upR fun r => { r with params := [setting .entry 0 0x1901 [lastEntry]] }

theorem witness_CalibrationRequestsAct :
    (∃ s k i p rc, rc = (p.named 0x0107).headD 0 ∧ Served i 0x070B k p s ∧ s.rind.sealSt ≠ .sealed ∧ s.rind.axc0.cal = none ∧
      ∃ (e z f : Nat), s.rind.params.entryOf rc = some e ∧
      p.val? 0x0225 = some [(z : Int), (f : Int)] ∧ f * 128 ≤ fullScale7 s.rind.params (entRange e) ∧
      z * 128 ≤ fullScale7 s.rind.params (entRange e) ∧ (fullScale7 s.rind.params (entRange e) : Int) ≤ (f : Int) * 512 - (z : Int) * 512) ∧
    (∃ s k i p, Served i 0x070B k p s ∧ s.rind.sealSt ≠ .sealed ∧ s.rind.axc0.cal ≠ none) ∧
    (∃ s k i p rc c op full o, rc = (p.named 0x0107).headD 0 ∧ (op, c, full) ∈ [(0x070C, Instr.calZero k, false), (0x070D, .calFull k, true)] ∧
      Served i op k p s ∧ s.rind.sealSt ≠ .sealed ∧ s.rind.axc0.cal = some o ∧ o.rc = rc) ∧
    (∃ s k i p rc c op full, rc = (p.named 0x0107).headD 0 ∧ (op, c, full) ∈ [(0x070C, Instr.calZero k, false), (0x070D, .calFull k, true)] ∧
      Served i op k p s ∧ s.rind.sealSt ≠ .sealed ∧ ∀ o, s.rind.axc0.cal = some o → o.rc ≠ rc) ∧
    (∃ s k i p rc o zs fs e, rc = (p.named 0x0107).headD 0 ∧ Served i 0x070E k p s ∧ s.rind.sealSt ≠ .sealed ∧ s.rind.axc0.cal = some o ∧
      o.rc = rc ∧ o.zMeas = some zs ∧ o.fMeas = some fs ∧ s.rind.params.entryOf rc = some e ∧
      calStands s.rind.params (entRange e) o.zNom o.fNom zs fs) ∧
    (∃ s k i p rc o zs fs e, rc = (p.named 0x0107).headD 0 ∧ Served i 0x070E k p s ∧ s.rind.sealSt ≠ .sealed ∧ s.rind.axc0.cal = some o ∧
      o.rc = rc ∧ o.zMeas = some zs ∧ o.fMeas = some fs ∧ s.rind.params.entryOf rc = some e ∧
      ¬ calStands s.rind.params (entRange e) o.zNom o.fNom zs fs) ∧
    (∃ s k i p rc, rc = (p.named 0x0107).headD 0 ∧ Served i 0x070E k p s ∧ s.rind.sealSt ≠ .sealed ∧
      ∀ o, s.rind.axc0.cal = some o → o.rc ≠ rc ∨ o.zMeas = none ∨ o.fMeas = none) ∧
    (∃ s k i p c op, (op, c) ∈ [(0x070B, Instr.calBegin k), (0x070C, .calZero k), (0x070D, .calFull k), (0x070E, .calApply k)] ∧ Served i op k p s ∧
      s.rind.sealSt = .sealed) ∧
    (∃ s k i p, Served i 0x070F k p s ∧ s.rind.axc0.cal ≠ none) ∧
    (∃ s k i p, Served i 0x070F k p s ∧ s.rind.axc0.cal = none) ∧
    (∃ s k i p, Served i 0x0710 k p s ∧ s.rind.axc0.urgent.length + (p.named 0x0108).length ≤ 4) ∧
    (∃ s k i p, Served i 0x0710 k p s ∧ p.named 0x0108 ≠ [] ∧ 4 < s.rind.axc0.urgent.length + (p.named 0x0108).length) := by
  refine ⟨⟨upEntry, pkt (begin0 0 20000000), 0, _, _, rfl, served (by decide +kernel) (by decide +kernel), by decide +kernel, by decide +kernel,
      lastEntry, 0, 20000000, by decide +kernel⟩,
    ⟨upCal none none, pkt (begin0 0 20000000), 0, _, served (by decide +kernel) (by decide +kernel), by decide +kernel⟩,
    ⟨upCal none none, pkt rtd0, 0, _, _, .calZero (pkt rtd0), 0x070C, false, calOpen none none, rfl, by simp,
      served (by decide +kernel) (by decide +kernel), by decide +kernel⟩,
    ⟨up, pkt rtd0, 0, _, _, .calZero (pkt rtd0), 0x070C, false, rfl, by simp, served (by decide +kernel) (by decide +kernel),
      by decide +kernel, ?_⟩,
    ⟨upCal (some 0) (some 343597383680000000), pkt rtd0, 0, _, _, calOpen (some 0) (some 343597383680000000), 0, 343597383680000000, lastEntry,
      rfl, served (by decide +kernel) (by decide +kernel), by unfold calStands; decide +kernel⟩,
    ⟨upCal (some 0) (some 1), pkt rtd0, 0, _, _, calOpen (some 0) (some 1), 0, 1, lastEntry,
      rfl, served (by decide +kernel) (by decide +kernel), by unfold calStands; decide +kernel⟩,
    ⟨up, pkt rtd0, 0, _, _, rfl, served (by decide +kernel) (by decide +kernel), by decide +kernel, ?_⟩,
    ⟨upSealed, pkt rtd0, 0, _, .calZero (pkt rtd0), 0x070C, by simp, served (by decide +kernel) (by decide +kernel), rfl⟩,
    ⟨upCal none none, pkt rtd0, 0, _, served (by decide +kernel) (by decide +kernel), by decide +kernel⟩,
    ⟨up, pkt rtd0, 0, _, served (by decide +kernel) (by decide +kernel), by decide +kernel⟩,
    ⟨up, pkt (i1 0x0108 0), 0, _, served (by decide +kernel) (by decide +kernel), by decide +kernel⟩,
    ⟨upR fun r => { r with axc0 := { r.axc0 with urgent :=
      [1, 2, 3, 4] } }, pkt (i1 0x0108 0), 0, _, served (by decide +kernel) (by decide +kernel),
      by decide +kernel⟩⟩
  · have h : up.rind.axc0.cal = none := by decide +kernel
    intro o ho; rw [h] at ho; cases ho
  · have h : up.rind.axc0.cal = none := by decide +kernel
    intro o ho; rw [h] at ho; cases ho

/-! ### Witnesses: the Rind's events and paths -/

/-- AXC0 runs entry `e`, which the sequence takes with word `w`. -/
def axc0On (run : Option Nat) (w : Nat) : State := upR fun r => { r with
  front := [setting .entry 0 0x1901 [(w : Int)]], axc0 := { r.axc0 with running := some run } }
/-- Channel 4 in state `st`, with `n` clean probes, when entry 0 measures it. -/
def chan4 (st : RtdState) (n : Nat) : State :=
  { axc0On (some 0) 0x40000004 with rind := { (axc0On (some 0) 0x40000004).rind with
      axc0 := (axc0On (some 0) 0x40000004).rind.axc0.modRtd 4 fun _ => { Rtd.reset with state := st, cleanProbes := n } } }
/-- What every clause of `FrontEndFollowsItsEvents` asks. -/
def quiet (s : State) : Prop := s.rind.powered = true ∧ (s.rind.request = none ∨ s.rind.measuring = true) ∧ s.rind.held = [] ∧
  ∀ j : SessIx, s.sessions[j].waiting = []
/-- The last conversion of CAL_ZERO of channel 4: fifteen readings collected, the request in the slot. -/
def lastCal : CalOpen := { calOpen none none with collecting := some false, readings := List.replicate 15 0 }
def lastConv : State :=
  let s := chan4 .normal 0
  let a := { s.rind.axc0 with cal := some lastCal }
  { s with rind := { s.rind with request := some (0, 0x070C, pkt rtd0), axc0 := a } }

theorem witness_FrontEndFollowsItsEvents :
    (∃ s n, quiet s ∧ s.rind.axc0.current = some n ∧ (s.rind.axc0.chan (entSrc (s.rind.front.entryWord n))).state = .normal ∧
      s.rind.axc0.running = some none) ∧
    (∃ s n, quiet s ∧ s.rind.axc0.current = some n ∧ (s.rind.axc0.chan (entSrc (s.rind.front.entryWord n))).state = .normal ∧
      s.rind.axc0.running = some (some n)) ∧
    (∃ s n o full, quiet s ∧ s.rind.axc0.current = some n ∧ s.rind.axc0.cal = some o ∧ o.collecting = some full ∧
      entSrc (s.rind.front.entryWord n) = o.rc ∧ (s.rind.axc0.chan o.rc).state = .normal ∧ o.readings.length = 15 ∧
      s.rind.request.isSome = true) ∧
    (∃ s n, quiet s ∧ s.rind.axc0.current = some n ∧ entSrc (s.rind.front.entryWord n) < 16 ∧
      (s.rind.axc0.chan (entSrc (s.rind.front.entryWord n))).state ≠ .opened) ∧
    (∃ s n ch, quiet s ∧ s.rind.axc0.current = some n ∧ entSrc (s.rind.front.entryWord n) < 16 ∧
      ch = s.rind.axc0.chan (entSrc (s.rind.front.entryWord n)) ∧ ch.state = .opened ∧ ch.cleanProbes = 0) ∧
    (∃ s n ch, quiet s ∧ s.rind.axc0.current = some n ∧ entSrc (s.rind.front.entryWord n) < 16 ∧
      ch = s.rind.axc0.chan (entSrc (s.rind.front.entryWord n)) ∧ ch.state = .opened ∧ 1 ≤ ch.cleanProbes) ∧
    (∃ s n, quiet s ∧ s.rind.axc0.current = some n ∧ (s.rind.axc0.chan (entSrc (s.rind.front.entryWord n))).state ≠ .opened) ∧
    (∃ s, quiet s ∧ s.rind.axc0.running.isSome = true ∧ s.rind.axc0.refSet = false) ∧
    (∃ s o, quiet s ∧ s.rind.axc0.cal = some o ∧ o.collecting.isSome = true ∧ s.rind.request.isSome = true) :=
  ⟨⟨{ axc0On none 0x40000010 with rind := { (axc0On none 0x40000010).rind with axc0 := { (axc0On none 0x40000010).rind.axc0 with urgent := [0] } } },
      0, by unfold quiet; decide +kernel⟩,
   ⟨chan4 .normal 0, 0, by unfold quiet; decide +kernel⟩,
   ⟨lastConv, 0, lastCal, false, by unfold quiet; decide +kernel, by decide +kernel, by decide +kernel, by decide +kernel⟩,
   ⟨chan4 .normal 0, 0, by unfold quiet; decide +kernel⟩,
   ⟨chan4 .opened 0, 0, _, by unfold quiet; decide +kernel, by decide +kernel, by decide +kernel, rfl, by decide +kernel⟩,
   ⟨chan4 .opened 1, 0, _, by unfold quiet; decide +kernel, by decide +kernel, by decide +kernel, rfl, by decide +kernel⟩,
   ⟨chan4 .normal 0, 0, by unfold quiet; decide +kernel⟩,
   ⟨axc0On (some 0) 0x40000010, by unfold quiet; decide +kernel⟩,
   ⟨lastConv, lastCal, by unfold quiet; decide +kernel, by decide +kernel, by decide +kernel⟩⟩

/-- A running schedule of one step that parks every channel, in phase `ph`. -/
def sched (ph : StepPhase) : State := upR fun r => { r with
  schedule := [{ ports := [31, 31, 31, 31], dStep := 2 }], phase := ph, annAcked := true, inhibit := false, holdUntil := 0, params :=
    [setting .device 0 0x1407 [40000000]] }
/-- An average under way with `n` shots taken. -/
def average (n : Nat) : Average :=
  { start := 0, shots := n, tFirst := 0, tLast := 0, sealedAll := false, params := [], paramId := 0, acc := [], sat := [], rtd := [], inhibited :=
    false }
def averaging (n : Nat) : State := { sched .averaging with rind := { (sched .averaging).rind with avg := some (average n) } }
/-- A computed profile of channel 0. -/
def work0 : ProfileWork := { channel := 0, port := 0, bytes := [], seq := 0, paramId := 0, sealedAll := false }

theorem witness_ThermalScheduleRuns :
    (∃ s : State, s.rind.running = true ∧ s.rind.phase ≠ .announced ∧ s.rind.avg = none ∧ s.rind.nextSchedule = none) ∧
    (∃ (s : State) (sch : List SchedStep), s.rind.running = true ∧ s.rind.phase ≠ .announced ∧ s.rind.avg = none ∧ s.rind.nextSchedule = some sch) ∧
    (∃ s : State, s.rind.running = true ∧ s.rind.phase = .announced) ∧
    (∃ s : State, s.rind.running = true ∧ (s.rind.phase = .settling ∨ s.rind.phase = .waiting) ∧ s.rind.avg = none ∧ s.rind.annAcked = true ∧
      s.rind.inhibit = false ∧ s.rind.averagesDone < s.rind.stepNow.dStep ∧ thermalReady s.rind.params s.rind.stepNow.ports = true ∧
      max s.time.mono (max s.rind.firstShotAt s.rind.holdUntil) + tAvg s.rind.params ≤ s.rind.limitWith s.rind.params) ∧
    (∃ (s : State) (a : Average), s.rind.avg = some a ∧ s.rind.running = true ∧ a.shots < a.params.thDev 0x1404) ∧
    (∃ (s : State) (a : Average), s.rind.avg = some a ∧ s.rind.running = true ∧ a.params.thDev 0x1404 ≤ a.shots) ∧
    (∃ (s : State) (c : ThermIx) (w : ProfileWork), s.rind.work.find? (fun w => w.channel == c.val) = some w ∧ s.rind.powered = true ∧
      s.rind.halted = false) ∧
    (∃ s : State, s.rind.powered = true ∧ s.rind.inhibitOuter = true ∧ s.rind.inhibit = false) ∧
    (∃ s : State, s.rind.powered = true ∧ s.rind.inhibitOuter = false ∧ s.rind.inhibit = true) :=
  ⟨⟨sched .waiting, by decide +kernel⟩,
   ⟨{ sched .waiting with rind := { (sched .waiting).rind with nextSchedule := some [] } }, [], by decide +kernel⟩,
   ⟨sched .announced, by decide +kernel⟩, ⟨sched .settling, by decide +kernel⟩,
   ⟨averaging 0, average 0, by decide +kernel⟩, ⟨averaging 65536, average 65536, by decide +kernel⟩,
   ⟨upR fun r => { r with work := [work0] }, 0, work0, by decide +kernel⟩,
   ⟨upR fun r => { r with inhibitOuter := true, inhibit := false }, by decide +kernel⟩,
   ⟨upR fun r => { r with inhibitOuter := false, inhibit := true }, by decide +kernel⟩⟩

/-- Message 5 on the wire, with others not yet acknowledged. -/
def wiredWith (b : RpBody) (l : List RpMsg) : State := upR fun r => { r with
  wire := [{ seq := 5, channel := 0, body := b }], unacked := l ++ [{ seq := 5, channel := 0, body := b }] }
def wired (b : RpBody) : State := wiredWith b []
theorem arrivesWith (b : RpBody) (l : List RpMsg) :
    Arrives b.kind { seq := 5, crcOk := true } { seq := 5, channel := 0, body := b } (wiredWith b l) :=
  ⟨rfl, rfl, rfl, by show up.boot.inReset = false; decide +kernel, rfl, by show (5 : BitVec 32) ∉ up.rindMain.seen; decide +kernel⟩
theorem arrives (b : RpBody) : Arrives b.kind { seq := 5, crcOk := true } { seq := 5, channel := 0, body := b } (wired b) := arrivesWith b []
/-- An audit record of type `t`. -/
def auditOf (t : Nat) : AuditRec :=
  { recType := t, source := 1, cnt := 1, t := 0, sealNow := 0, timeUnset := false, param := 0, idOld := 0, idNew := 0, count := 0, old := 0, new :=
    0 }

theorem witness_ResultsPathDeliversEachMessage :
    (∃ s m x kind c, (kind, c) ∈ [(1, Instr.profile m), (2, .announce m), (3, .switched m), (4, .eventMessage m), (5, .audit m), (6, .reading m)] ∧
      Arrives kind m x s) ∧
    (∃ s m x n ps tm, Arrives 2 m x s ∧ x.body = .announce n ps tm) ∧ (∃ s m x n ps tm, Arrives 3 m x s ∧ x.body = .switched n ps tm) ∧
    (∃ s m x, ∃ n : EvIx, Arrives 4 m x s ∧ x.body = .event n.val) ∧
    (∃ s m x, ∃ a : AuditRec, Arrives 5 m x s ∧ x.body = .audit a ∧ a.recType ≠ 0x0B) ∧
    (∃ s m x, ∃ a : AuditRec, Arrives 5 m x s ∧ x.body = .audit a ∧ a.recType = 0x0B) ∧
    (∃ s m x bs, Arrives 6 m x s ∧ x.body = .reading bs) ∧
    (∃ s m x bs p q, Arrives 1 m x s ∧ x.body = .profile bs p q ∧ s.rindMain.early = [] ∧
      ∀ y ∈ s.rind.unacked, ∀ p' q', y.seq ≠ m.seq → y.profile? = some (x.channel, p', q') → seqBefore q' q = false) ∧
    (∃ s m x bs p q, Arrives 1 m x s ∧ x.body = .profile bs p q ∧ s.rindMain.early = [] ∧
      ∃ y ∈ s.rind.unacked, ∃ p' q', y.seq ≠ m.seq ∧ y.profile? = some (x.channel, p', q') ∧ seqBefore q' q = true) ∧
    (∃ (s : State) (m : RpArrival) (x : RpMsg) (kind : Nat) (c : Instr),
      (kind, c) ∈ [(1, Instr.profile m), (2, .announce m), (3, .switched m), (4, .eventMessage m), (5, .audit m), (6, .reading m)] ∧
      s.rind.wire.head? = some x ∧ x.seq = m.seq ∧ x.body.kind = kind ∧ (m.crcOk = false ∨ s.boot.inReset = true)) ∧
    (∃ (s : State) (m : RpArrival) (x : RpMsg) (kind : Nat) (c : Instr),
      (kind, c) ∈ [(1, Instr.profile m), (2, .announce m), (3, .switched m), (4, .eventMessage m), (5, .audit m), (6, .reading m)] ∧
      s.rind.wire.head? = some x ∧ x.seq = m.seq ∧ x.body.kind = kind ∧ m.crcOk = true ∧ s.boot.inReset = false ∧ m.seq ∈ s.rindMain.seen) :=
  ⟨⟨_, _, _, 6, .reading { seq := 5, crcOk := true }, by simp, arrives (.reading [])⟩, ⟨_, _, _, 0, [], 0, arrives (.announce 0 [] 0), rfl⟩,
   ⟨_, _, _, 0, [], 0, arrives (.switched 0 [] 0), rfl⟩, ⟨_, _, _, 229, arrives (.event 229), rfl⟩,
   ⟨_, _, _, auditOf 1, arrives (.audit (auditOf 1)), rfl, by decide⟩, ⟨_, _, _, auditOf 0x0B, arrives (.audit (auditOf 0x0B)), rfl, by decide⟩,
   ⟨_, _, _, [], arrives (.reading []), rfl⟩,
   ⟨_, _, _, [], 0, 0, arrives (.profile [] 0 0), rfl, by decide +kernel, by
     intro y hy p' q' hne
     have : y = { seq := 5, channel := 0, body := .profile [] 0 0 } := by simpa [wired, wiredWith, upR] using hy
     subst this; exact absurd rfl hne⟩,
   ⟨_, _, _, [], 0, 1, arrivesWith (.profile [] 0 1) [{ seq := 4, channel := 0, body := .profile [] 0 0 }], rfl, by decide +kernel,
     { seq := 4, channel := 0, body := .profile [] 0 0 }, by simp [wiredWith, upR], 0, 0, by decide, rfl, by decide⟩,
   ⟨wired (.reading []), { seq := 5, crcOk := false }, _, 6, .reading { seq := 5, crcOk := false }, by simp, rfl, rfl, rfl, .inl rfl⟩,
   ⟨{ wired (.reading []) with rindMain := { up.rindMain with seen := [5] } }, { seq := 5, crcOk := true }, _, 6,
     .reading { seq := 5, crcOk := true }, by simp, rfl, rfl, rfl, rfl, by decide +kernel, by decide⟩⟩

/-- A request waits in the mailbox's slot, of session 0. -/
def asked : State :=
  let s := upR fun r => { r with request := some (0, 0x0704, pkt []), slot := [0] }
  s.modSess 0 fun y => { y with inProgress := some (0x0704, pkt []) }

/-- PARAM_ID does not depend on the identifier kept. -/
theorem idNow_same (s : State) : ({ s with rind := { s.rind with paramId := s.rind.paramIdNow } } : State).rind.paramIdNow =
    ({ s with rind := { s.rind with paramId := s.rind.paramIdNow } } : State).rind.paramId := by unfold Rind.paramIdNow; rfl

theorem witness_RindPathAndStartRows :
    (∃ s : State, s.rind.powered = true ∧ s.rind.unacked ≠ []) ∧
    (∃ s : State, s.rind.running = true ∧ s.rind.ackLate = true) ∧
    (∃ (s : State) (i : SessIx) (op : BitVec 16) (k : Packet),
      s.rind.request = some (i, op, k) ∧ s.rind.held = [] ∧ s.rind.powered = true ∧ s.rind.slot ≠ [] ∧ s.rind.measuring = false ∧
      op ≠ 0x070C ∧ op ≠ 0x070D ∧ s.sessions[i].isOpen = true ∧ s.sessions[i].inProgress = some (op, k) ∧
      ∀ j : SessIx, s.sessions[j].waiting = []) ∧
    (∃ (s : State) (i : SessIx) (op : BitVec 16) (k : Packet), s.rind.request = some (i, op, k) ∧ s.rind.held = [] ∧ s.rind.measuring = false ∧
      s.boot.inReset = false ∧ s.sessions[i].isOpen = true ∧ s.sessions[i].inProgress = some (op, k) ∧ ∀ j : SessIx, s.sessions[j].waiting = []) ∧
    (∃ s : State, s.boot.inReset = false ∧ s.rind.powered = true ∧ s.rind.started = false) ∧
    (∃ (s : State) (param : BitVec 16) (w : BitVec 16 × Time × Nat × BitVec 64 × BitVec 64), s.rind.powered = true ∧
      s.rind.buffered + 98 ≤ 12582912 ∧ s.rind.windows.find? (fun w => w.1 == param) = some w ∧
      w.2.2.1 = 0) ∧
    (∃ (s : State) (param : BitVec 16) (w : BitVec 16 × Time × Nat × BitVec 64 × BitVec 64), s.rind.powered = true ∧
      s.rind.buffered + 98 ≤ 12582912 ∧ s.rind.windows.find? (fun w => w.1 == param) = some w ∧
      w.2.2.1 ≠ 0) ∧
    (∃ s : State, s.rind.powered = true) ∧
    (∃ s : State, s.rind.request = none ∧ s.rind.held = [] ∧ (∀ j : SessIx, s.sessions[j].waiting = []) ∧ s.rind.nextFw = none ∧
      (s.rind.sealSt = .sealed → s.rind.swDig = s.rind.sealedDig) ∧ s.rind.paramIdNow = s.rind.paramId) ∧
    (∃ s : State, s.rind.powered = true ∧ s.rind.fwImage ≠ [] ∧ s.rind.fwImage.length = s.rind.fwTotal) := by
  have h0 : ∀ j : SessIx, up.sessions[j].waiting = [] := by decide +kernel
  refine ⟨⟨wired (.reading []), by decide +kernel⟩,
    ⟨{ sched .waiting with rind := { (sched .waiting).rind with ackLate := true } }, by decide +kernel⟩,
    ⟨asked, 0, 0x0704, pkt [], by decide +kernel⟩, ⟨asked, 0, 0x0704, pkt [], by decide +kernel⟩, ⟨upR fun r => { r with started := false }, by decide +kernel⟩,
    ⟨upR fun r => { r with windows := [(0x1407, 0, 0, 0, 0)] }, 0x1407, _, by decide +kernel, by decide +kernel, rfl, rfl⟩,
    ⟨upR fun r => { r with windows := [(0x1407, 0, 2, 0, 0)] }, 0x1407, _, by decide +kernel, by decide +kernel, rfl, by decide⟩, ⟨up, by decide +kernel⟩,
    ⟨upR fun r => { r with paramId := r.paramIdNow }, rfl, rfl, fun j => h0 j, rfl, fun h => absurd h (by decide +kernel), idNow_same up⟩,
    ⟨upR fun r => { r with fwImage := [1], fwTotal := 1 }, by decide +kernel⟩⟩

theorem witness_MirrorsRefreshAtEveryEdge :
    (∃ s : State, s.boot.inReset = false ∧ s.rind.powered = true) ∧
    (∃ s : State, s.boot.inReset = false ∧ s.glb.lastRefresh ≤ s.glb.lastSlow) ∧
    (∃ s : State, s.boot.inReset = false ∧ s.glb.lastSlow < s.glb.lastRefresh) ∧
    (∃ s : State, s.boot.inReset = false ∧ bit s.glb.stat 6 = false) ∧
    (∃ (s : State) (x : Time), s.boot.inReset = false ∧ s.glb.slowBack = some x) :=
  ⟨⟨up, by decide +kernel⟩, ⟨up, by decide +kernel⟩, ⟨{ up with glb := { up.glb with lastRefresh := 1 } }, by decide +kernel⟩,
    ⟨up, by decide +kernel⟩,
   ⟨{ up with glb := { up.glb with slowBack := some 3 } }, 3, by decide +kernel⟩⟩

/-! ### Witnesses: the Vat -/

/-- An input block of no bytes. -/
def block : VatIn := { bytes := [], gauge := 0, arrived := 0, inPool := false }
/-- Engine 0 runs, with `w` at address 0 and a change of its own. -/
def upEng (w : Word) (f : Engine → Engine) : State :=
  up.modEng 0 fun _ => f { Engine.reset with stat := 3, code := [w], budget := 100, current := some block }
/-- An instruction word: the opcode and the rest. -/
def word (op rest : Nat) : Word := BitVec.ofNat 32 (op * 2 ^ 26 + rest)

/-- The conditions of `Runs` for engine 0, to be evaluated. -/
def runsB (op : Nat) (w : Word) (s : State) : Bool :=
  s.engines[(0 : EngIx)].executes && decide (s.engines[(0 : EngIx)].code[s.engines[(0 : EngIx)].pc]? = some w) && fld w 26 6 == op && !vatStray op w &&
    decide (s.engines[(0 : EngIx)].opc + s.engines[(0 : EngIx)].cost op w ≤ s.engines[(0 : EngIx)].budget)
theorem runs {op : Nat} {w : Word} {s : State} (h : runsB op w s = true) : Runs 0 op w s := by
  simp only [runsB, Bool.and_eq_true, Bool.not_eq_true', decide_eq_true_eq, beq_iff_eq] at h
  exact ⟨h.1.1.1.1, h.1.1.1.2, h.1.1.2, h.1.2, h.2⟩
/-- No change. -/
def same (e : Engine) : Engine := e

theorem witness_PointersWalkHoops :
    (∃ p : Nat, p < 8 ∧ 4 ≤ p) ∧ (∃ (e : Engine) (p : Nat), p < 8 ∧ ∃ h : p < 4, e.hl[p] = 0) ∧
    (∃ (e : Engine) (p : Nat), ∃ h : p < 4, e.hl[p] ≠ 0 ∧ (e.hl[p]).toNat ≤ 32768) ∧
    (∃ (e : Engine) (p : Nat), ∃ h : p < 4, e.hl[p] ≠ 0 ∧ (e.hb[p]).toNat + (e.hl[p]).toNat ≤ 32768 ∧
      e.ptr p + 1 = (e.hb[p]).toNat + (e.hl[p]).toNat) :=
  ⟨⟨7, by decide⟩, ⟨Engine.reset, 0, by decide +kernel⟩,
   ⟨{ Engine.reset with hl := Vector.replicate 4 32768 }, 3, by decide +kernel⟩,
   ⟨{ Engine.reset with hl := Vector.replicate 4 1 }, 0, by decide +kernel⟩⟩

theorem witness_AccumulatorTakesEachResult :
    (∃ (s : State) (n : EngIx) (w : Word) (op : Nat) (c : Instr) (f : Int → Int → Int) (x y : VatOp),
      (op, c, f) ∈ [(0x05, Instr.mac n, fun v p => v + p), (0x06, .msu n, fun v p => v - p), (0x07, .mul n, fun _ p => p)] ∧
      Runs n op w s ∧ vatOp (fld w 16 6) = some x ∧ vatOp (fld w 10 6) = some y ∧
      Unlocked s.engines[n] (x.addrs s.engines[n] false ++ y.addrs s.engines[n] false)) ∧
    (∃ (s : State) (n : EngIx) (w : Word) (x : VatOp), Runs n 0x08 w s ∧ vatOp (fld w 15 6) = some x ∧ fld w 21 5 ≤ 24 ∧
      Unlocked s.engines[n] (x.addrs s.engines[n] false)) ∧
    (∃ (s : State) (n : EngIx) (w : Word), Runs n 0x09 w s) ∧ (∃ (s : State) (n : EngIx) (w : Word), Runs n 0x04 w s) :=
  ⟨⟨upEng (word 0x05 0x00020400) same, 0, word 0x05 0x00020400, 0x05, .mac 0, fun v p => v + p, .mem 2, .mem 1, by simp, runs (by decide +kernel),
     rfl, rfl, by unfold Unlocked; decide +kernel⟩,
   ⟨upEng (word 0x08 (24 * 2 ^ 21)) same, 0, word 0x08 (24 * 2 ^ 21), .mem 0, runs (by decide +kernel), rfl, by decide +kernel,
     by unfold Unlocked; decide +kernel⟩,
   ⟨upEng (word 0x09 0x03E00000) same, 0, word 0x09 0x03E00000, runs (by decide +kernel)⟩,
   ⟨upEng (word 0x04 0) same, 0, word 0x04 0, runs (by decide +kernel)⟩⟩

theorem witness_VatStoresWriteTheirWordsOnly :
    (∃ (s : State) (w : Word) (dsc : Nat), s.engines[(0 : EngIx)].dmem.wf = true ∧ Runs 0 0x0A w s ∧ vatOp (fld w 15 6) = some (.mem dsc) ∧
      Unlocked s.engines[(0 : EngIx)] [s.engines[(0 : EngIx)].ptr (dsc / 4)]) ∧
    (∃ (s : State) (w : Word) (k : Nat), s.engines[(0 : EngIx)].dmem.wf = true ∧ Runs 0 0x0B w s ∧ vatOp (fld w 15 6) = some (.dreg k)) ∧
    (∃ (s : State) (w : Word) (dsc : Nat), s.engines[(0 : EngIx)].dmem.wf = true ∧ Runs 0 0x0C w s ∧ vatOp (fld w 15 6) = some (.mem dsc) ∧
      Unlocked s.engines[(0 : EngIx)] [s.engines[(0 : EngIx)].ptr (dsc / 4), s.engines[(0 : EngIx)].moved (dsc / 4) 1]) ∧
    (∃ (s : State) (w : Word) (k : Nat), s.engines[(0 : EngIx)].dmem.wf = true ∧ Runs 0 0x0C w s ∧ vatOp (fld w 15 6) = some (.dreg k) ∧ k % 2 = 0) ∧
    (∃ (s : State) (w : Word), s.engines[(0 : EngIx)].dmem.wf = true ∧ Runs 0 0x12 w s ∧
      Unlocked s.engines[(0 : EngIx)] [s.engines[(0 : EngIx)].ptr (fld w 18 5 / 4)]) ∧
    (∃ (s : State) (w : Word), s.engines[(0 : EngIx)].dmem.wf = true ∧ Runs 0 0x13 w s ∧
      Unlocked s.engines[(0 : EngIx)] [s.engines[(0 : EngIx)].ptr (fld w 18 5 / 4), s.engines[(0 : EngIx)].ptr (fld w 10 5 / 4)]) :=
  ⟨⟨upEng (word 0x0A (31 * 2 ^ 15)) same, word 0x0A (31 * 2 ^ 15), 31, by decide +kernel, runs (by decide +kernel), rfl,
     by unfold Unlocked; decide +kernel⟩,
   ⟨upEng (word 0x0B (39 * 2 ^ 15)) same, word 0x0B (39 * 2 ^ 15), 7, by decide +kernel, runs (by decide +kernel), rfl⟩,
   ⟨upEng (word 0x0C 0) same, word 0x0C 0, 0, by decide +kernel, runs (by decide +kernel), rfl, by unfold Unlocked; decide +kernel⟩,
   ⟨upEng (word 0x0C (38 * 2 ^ 15)) same, word 0x0C (38 * 2 ^ 15), 6, by decide +kernel, runs (by decide +kernel), rfl, rfl⟩,
   ⟨upEng (word 0x12 0) same, word 0x12 0, by decide +kernel, runs (by decide +kernel), by unfold Unlocked; decide +kernel⟩,
   ⟨upEng (word 0x13 0) same, word 0x13 0, by decide +kernel, runs (by decide +kernel), by unfold Unlocked; decide +kernel⟩⟩

theorem witness_VatLoadsWriteTheirRegistersOnly :
    (∃ (s : State) (w : Word), Runs 0 0x10 w s ∧ Unlocked s.engines[(0 : EngIx)] [s.engines[(0 : EngIx)].ptr (fld w 18 5 / 4)]) ∧
    (∃ (s : State) (w : Word), Runs 0 0x11 w s ∧
      Unlocked s.engines[(0 : EngIx)] [s.engines[(0 : EngIx)].ptr (fld w 18 5 / 4), s.engines[(0 : EngIx)].ptr (fld w 10 5 / 4)]) ∧
    (∃ (s : State) (w : Word), Runs 0 0x14 w s ∧ fld w 20 6 = 40) ∧ (∃ (s : State) (w : Word), Runs 0 0x15 w s ∧ fld w 20 6 = 34) ∧
    (∃ (s : State) (w : Word), Runs 0 0x00 w s) :=
  ⟨⟨upEng (word 0x10 0) same, word 0x10 0, runs (by decide +kernel), by unfold Unlocked; decide +kernel⟩,
   ⟨upEng (word 0x11 0) same, word 0x11 0, runs (by decide +kernel), by unfold Unlocked; decide +kernel⟩,
   ⟨upEng (word 0x14 (40 * 2 ^ 20)) same, word 0x14 (40 * 2 ^ 20), runs (by decide +kernel), by decide +kernel⟩,
   ⟨upEng (word 0x15 (34 * 2 ^ 20)) same, word 0x15 (34 * 2 ^ 20), runs (by decide +kernel), by decide +kernel⟩,
   ⟨upEng 0 same, 0, runs (by decide +kernel)⟩⟩

theorem witness_VatArithmeticAndSearch :
    (∃ (s : State) (w : Word) (o : AluOut), Runs 0 0x18 w s ∧
      aluFunc (fld w 22 4) (s.engines[(0 : EngIx)].dn (fld w 16 3)) (s.engines[(0 : EngIx)].dn (fld w 13 3)) = some o) ∧
    (∃ (s : State) (w : Word) (o : AluOut), Runs 0 0x19 w s ∧
      aluFunc (fld w 22 4) (s.engines[(0 : EngIx)].dn (fld w 16 3)) (BitVec.ofNat 16 (fld w 0 16)) = some o) ∧
    (∃ (s : State) (w : Word), Runs 0 0x1B w s) ∧ (∃ (s : State) (w : Word), Runs 0 0x1A w s ∧ s.engines[(0 : EngIx)].mmcnt = 0xFFFF) ∧
    (∃ (s : State) (w : Word), Runs 0 0x1A w s ∧ s.engines[(0 : EngIx)].mmcnt ≠ 0xFFFF ∧
      Unlocked s.engines[(0 : EngIx)] [s.engines[(0 : EngIx)].ptr (fld w 20 5 / 4)]) ∧
    (∃ o, aluFunc 12 (0x8000 : Word16) 0 = some o) :=
  ⟨⟨upEng (word 0x18 0) same, word 0x18 0, _, runs (by decide +kernel), rfl⟩,
    ⟨upEng (word 0x19 0xFFFF) same, word 0x19 0xFFFF, _, runs (by decide +kernel), rfl⟩,
   ⟨upEng (word 0x1B 0) same, word 0x1B 0, runs (by decide +kernel)⟩,
   ⟨upEng (word 0x1A 0) (fun e => { e with mmcnt := 0xFFFF }), word 0x1A 0, runs (by decide +kernel), by decide +kernel⟩,
   ⟨upEng (word 0x1A 0) same, word 0x1A 0, runs (by decide +kernel), by decide +kernel, by unfold Unlocked; decide +kernel⟩, ⟨_, rfl⟩⟩

/-- A transfer under way. -/
def transfer : Transfer := { toCave := false, window := 0, offset := 0, addr := 0, len := 4 }
/-- A CAVE load of four words by D0 from W0. -/
def caveLoad : Word := word 0x28 0x4000

/-- Its engine: offset 4, length 4, all of every window. -/
def caveEng (l : List Transfer) (e : Engine) : Engine :=
  { e with d := Vector.replicate 8 4, winSize := Vector.replicate 4 0x100000, transfers := l }

/-- The branch conditions of an engine, by CC. -/
def ccs (e : Engine) : List Bool :=
  let z := e.flags.getLsbD 0; let n := e.flags.getLsbD 1; let c := e.flags.getLsbD 2; let v := e.flags.getLsbD 3
  [true, z, !z, n, !n, !z && n == v, z || n != v, c, !c, v, !v, e.trueVal == 0, e.trueVal != 0, decide (e.trueVal < 0), e.flags.getLsbD 5,
   !e.transfers.isEmpty]

theorem witness_VatControlFlow :
    (∃ s w, Runs 0 0x20 w s ∧ (ccs s.engines[(0 : EngIx)]).getD (fld w 22 4) false = true) ∧
    (∃ s w, Runs 0 0x20 w s ∧ (ccs s.engines[(0 : EngIx)]).getD (fld w 22 4) false = false) ∧
    (∃ s w, Runs 0 0x21 w s ∧ s.engines[(0 : EngIx)].calls.length < 8) ∧ (∃ s w r cs, Runs 0 0x22 w s ∧ s.engines[(0 : EngIx)].calls = r :: cs) ∧
    (∃ (s : State) (w : Word) (e : Engine) (count : Nat), e = s.engines[(0 : EngIx)] ∧
      count = (if bit w 25 then (e.dn (fld w 0 3)).toNat else fld w 0 15) ∧ Runs 0 0x23 w s ∧ 0 < count ∧ e.loops.length < 4) ∧
    (∃ (s : State) (w : Word) (e : Engine) (count : Nat), e = s.engines[(0 : EngIx)] ∧
      count = (if bit w 25 then (e.dn (fld w 0 3)).toNat else fld w 0 15) ∧ Runs 0 0x23 w s ∧ count = 0) ∧
    (∃ s w, Runs 0 0x02 w s ∧ bit s.engines[(0 : EngIx)].ctl 0 = false) ∧
    (∃ s w, Runs 0 0x02 w s ∧ bit s.engines[(0 : EngIx)].ctl 0 = true ∧ s.boot.inReset = false) ∧
    (∃ (s : State) (w : Word) (e : Engine) (len off : Nat) (k : Fin 4), e = s.engines[(0 : EngIx)] ∧ Runs 0 0x28 w s ∧
      len = (e.dn (fld w 17 3)).toNat ∧ k.val = fld w 23 2 ∧
      off = (e.dn (2 * fld w 15 2)).toNat + 65536 * (e.dn (2 * fld w 15 2 + 1)).toNat ∧ 0 < len ∧ len ≤ 4096 ∧ off % 2 = 0 ∧
      off + 2 * len ≤ (e.winSize[k]).toNat ∧ (bit w 25 = true → k = 1 ∨ k = 2) ∧ e.transfers.length < 4 ∧
      ∀ x ∈ e.transfers, Apart x k off (e.ptr (fld w 20 3)) len) ∧
    (∃ (s : State) (w : Word) (e : Engine) (len off : Nat) (k : Fin 4), e = s.engines[(0 : EngIx)] ∧ Runs 0 0x28 w s ∧
      len = (e.dn (fld w 17 3)).toNat ∧ k.val = fld w 23 2 ∧
      off = (e.dn (2 * fld w 15 2)).toNat + 65536 * (e.dn (2 * fld w 15 2 + 1)).toNat ∧ 0 < len ∧ len ≤ 4096 ∧ off % 2 = 0 ∧
      off + 2 * len ≤ (e.winSize[k]).toNat ∧ (bit w 25 = true → k = 1 ∨ k = 2) ∧ 4 ≤ e.transfers.length) ∧
    (∃ (s : State) (w : Word) (e : Engine) (len off : Nat) (k : Fin 4), e = s.engines[(0 : EngIx)] ∧ Runs 0 0x28 w s ∧
      len = (e.dn (fld w 17 3)).toNat ∧ k.val = fld w 23 2 ∧
      off = (e.dn (2 * fld w 15 2)).toNat + 65536 * (e.dn (2 * fld w 15 2 + 1)).toNat ∧ 0 < len ∧ len ≤ 4096 ∧ off % 2 = 0 ∧
      off + 2 * len ≤ (e.winSize[k]).toNat ∧ (bit w 25 = true → k = 1 ∨ k = 2) ∧
      ∃ x ∈ e.transfers, ¬ Apart x k off (e.ptr (fld w 20 3)) len) ∧
    (∃ s w, Runs 0 0x28 w s ∧ (s.engines[(0 : EngIx)].dn (fld w 17 3)).toNat = 0) ∧
    (∃ (s : State) (w : Word) (e : Engine), e = s.engines[(0 : EngIx)] ∧ Runs 0 0x10 w s ∧ ∃ a ∈ [e.ptr (fld w 18 5 / 4)], e.locked a = true) ∧
    (∃ s w, Runs 0 0x29 w s ∧ s.engines[(0 : EngIx)].transfers.length ≤ fld w 0 2) ∧
    (∃ s w, Runs 0 0x29 w s ∧ fld w 0 2 < s.engines[(0 : EngIx)].transfers.length) := by
  refine ⟨⟨upEng (word 0x20 5) same, word 0x20 5, runs (by decide +kernel), by decide +kernel⟩,
    ⟨upEng (word 0x20 0x00400005) same, word 0x20 0x00400005, runs (by decide +kernel), by decide +kernel⟩,
    ⟨upEng (word 0x21 5) same, word 0x21 5, runs (by decide +kernel), by decide +kernel⟩,
    ⟨upEng (word 0x22 0) (fun e => { e with calls := [7] }), word 0x22 0, 7, [], runs (by decide +kernel), by decide +kernel⟩,
    ⟨upEng (word 0x23 3) same, word 0x23 3, _, _, rfl, rfl, runs (by decide +kernel), by decide +kernel⟩,
    ⟨upEng (word 0x23 0) same, word 0x23 0, _, _, rfl, rfl, runs (by decide +kernel), by decide +kernel⟩,
    ⟨upEng (word 0x02 9) same, word 0x02 9, runs (by decide +kernel), by decide +kernel⟩,
    ⟨upEng (word 0x02 9) (fun e => { e with ctl := 1 }), word 0x02 9, runs (by decide +kernel), by decide +kernel⟩,
    ⟨upEng caveLoad (caveEng []), caveLoad, _, _, _, 0, rfl, runs (by decide +kernel), rfl, by decide +kernel, rfl,
      by unfold Apart; decide +kernel⟩,
    ⟨upEng caveLoad (caveEng (List.replicate 4 transfer)), caveLoad, _, _, _, 0, rfl, runs (by decide +kernel), rfl, by decide +kernel, rfl,
      by decide +kernel⟩,
    ⟨upEng caveLoad (caveEng [transfer]), caveLoad, _, _, _, 0, rfl, runs (by decide +kernel), rfl, by decide +kernel, rfl,
      by unfold Apart; decide +kernel⟩,
    ⟨upEng caveLoad same, caveLoad, runs (by decide +kernel), by decide +kernel⟩,
    ⟨upEng (word 0x10 0) (fun e => { e with transfers := [transfer] }), word 0x10 0, _, rfl, runs (by decide +kernel), by decide +kernel⟩,
    ⟨upEng (word 0x29 0) same, word 0x29 0, runs (by decide +kernel), by decide +kernel⟩,
    ⟨upEng (word 0x29 0) (fun e => { e with transfers := [transfer] }), word 0x29 0, runs (by decide +kernel), by decide +kernel⟩⟩

theorem witness_VatInvocationsRunTheirCourse :
    (∃ (s : State) (b : VatIn) (rest : List VatIn), s.engines[(0 : EngIx)].input = b :: rest ∧ fld s.engines[(0 : EngIx)].stat 0 3 = 2 ∧
      b.inPool = false) ∧
    (∃ (s : State) (e : Engine) (w : Word) (len : Nat), e = s.engines[(0 : EngIx)] ∧ Runs 0 0x01 w s ∧
      len = (e.dn (2 * fld w 0 2)).toNat + 65536 * (e.dn (2 * fld w 0 2 + 1)).toNat ∧ e.transfers = [] ∧ len ≤ e.outBytes ∧ e.nextImage = none) ∧
    (∃ (s : State) (w : Word), Runs 0 0x01 w s ∧ s.engines[(0 : EngIx)].transfers ≠ []) ∧
    (∃ (s : State) (k : Fin 4) (x : Transfer), s.engines[(0 : EngIx)].transfers[k.val]? = some x ∧ bit s.clk.stat 7 = true ∧
      CrossId.memory ∉ s.links.resetFlags) ∧
    (∃ (s : State) (t0 : Time), s.engines[(0 : EngIx)].stalledSince = some t0 ∧ s.engines[(0 : EngIx)].transfers = [] ∧
      s.engines[(0 : EngIx)].nextImage = none ∧ s.boot.inReset = false) ∧
    (∃ (s : State) (v : Word), bit v 1 = false ∧ s.boot.inReset = false) ∧
    (∃ (s : State) (v : Word), bit v 1 = true ∧ s.engines[(0 : EngIx)].current.isSome = true ∧ s.engines[(0 : EngIx)].transfers = [] ∧
      s.engines[(0 : EngIx)].nextImage = none ∧ s.boot.inReset = false) :=
  ⟨⟨upEng 0 fun e => { e with stat := 2, input := [block] }, block, [], by decide +kernel⟩,
   ⟨upEng (word 0x01 0) same, _, word 0x01 0, _, rfl, runs (by decide +kernel), rfl, by decide +kernel⟩,
   ⟨upEng (word 0x01 0) fun e => { e with transfers := [transfer] }, word 0x01 0, runs (by decide +kernel), by decide +kernel⟩,
   ⟨(upEng 0 fun e => { e with transfers := [transfer] }).modClk fun c => { c with stat := setBit c.stat 7 }, 0, transfer, by decide +kernel⟩,
   ⟨upEng 0 fun e => { e with stalledSince := some 0 }, 0, by decide +kernel⟩, ⟨up, 1, by decide +kernel⟩, ⟨upEng 0 same, 2, by decide +kernel⟩⟩

/-- What the clauses of `VatFaultsEndTheInvocation` about a fault ask of engine 0. -/
def mayFault (s : State) : Prop := s.engines[(0 : EngIx)].executes = true ∧ s.engines[(0 : EngIx)].transfers = [] ∧
  s.engines[(0 : EngIx)].nextImage = none ∧ s.boot.inReset = false

theorem witness_VatFaultsEndTheInvocation :
    (∃ s : State, s.engines[(0 : EngIx)].executes = false) ∧
    (∃ (s : State) (w : Word), ∃ r ∈ vatRows 0, s.engines[(0 : EngIx)].code[s.engines[(0 : EngIx)].pc]? = some w ∧ vatDefined (fld w 26 6) = true ∧
      fld w 26 6 ≠ r.1) ∧
    (∃ s : State, mayFault s ∧ s.engines[(0 : EngIx)].code.length ≤ s.engines[(0 : EngIx)].pc) ∧
    (∃ (s : State) (w : Word), mayFault s ∧ s.engines[(0 : EngIx)].code[s.engines[(0 : EngIx)].pc]? = some w ∧ vatDefined (fld w 26 6) = false) ∧
    (∃ (s : State) (w : Word), mayFault s ∧ ∃ r ∈ vatRows 0, s.engines[(0 : EngIx)].code[s.engines[(0 : EngIx)].pc]? = some w ∧ fld w 26 6 = r.1 ∧
      s.engines[(0 : EngIx)].budget < s.engines[(0 : EngIx)].opc + s.engines[(0 : EngIx)].cost r.1 w) ∧
    (∃ (s : State) (w : Word), mayFault s ∧ ∃ r ∈ vatRows 0, s.engines[(0 : EngIx)].code[s.engines[(0 : EngIx)].pc]? = some w ∧ fld w 26 6 = r.1 ∧
      s.engines[(0 : EngIx)].opc + s.engines[(0 : EngIx)].cost r.1 w ≤ s.engines[(0 : EngIx)].budget ∧ vatStray r.1 w = true) ∧
    (∃ s w, mayFault s ∧ Runs 0 0x14 w s ∧ 40 < fld w 20 6) ∧ (∃ s w, mayFault s ∧ Runs 0 0x15 w s ∧ 40 < fld w 20 6) ∧
    (∃ s w, mayFault s ∧ Runs 0 0x18 w s ∧ fld w 22 4 = 15) ∧ (∃ s w, mayFault s ∧ Runs 0 0x19 w s ∧ fld w 22 4 = 15) ∧
    (∃ s w, mayFault s ∧ Runs 0 0x08 w s ∧ 24 < fld w 21 5) ∧ (∃ s w, mayFault s ∧ Runs 0 0x0C w s ∧ 32 ≤ fld w 15 6 ∧ fld w 15 6 % 2 = 1) ∧
    (∃ s w, mayFault s ∧ Runs 0 0x0A w s ∧ 40 ≤ fld w 15 6) ∧ (∃ s w, mayFault s ∧ Runs 0 0x21 w s ∧ 8 ≤ s.engines[(0 : EngIx)].calls.length) ∧
    (∃ s w, mayFault s ∧ Runs 0 0x22 w s ∧ s.engines[(0 : EngIx)].calls = []) ∧
    (∃ s w, mayFault s ∧ Runs 0 0x23 w s ∧ 4 ≤ s.engines[(0 : EngIx)].loops.length ∧
      0 < (if bit w 25 then (s.engines[(0 : EngIx)].dn (fld w 0 3)).toNat else fld w 0 15)) ∧
    (∃ s w, mayFault s ∧ Runs 0 0x28 w s ∧ 4096 < (s.engines[(0 : EngIx)].dn (fld w 17 3)).toNat) ∧
    (∃ (s : State) (w : Word) (e : Engine) (k : Fin 4), mayFault s ∧ e = s.engines[(0 : EngIx)] ∧ Runs 0 0x28 w s ∧ k.val = fld w 23 2 ∧
      bit w 25 = true ∧
      (k = 0 ∨ k = 3) ∧ 0 < (e.dn (fld w 17 3)).toNat ∧ (e.dn (fld w 17 3)).toNat ≤ 4096 ∧ e.pair (2 * fld w 15 2) % 2 = 0 ∧
      e.pair (2 * fld w 15 2) + 2 * (e.dn (fld w 17 3)).toNat ≤ (e.winSize[k]).toNat) ∧
    (∃ s w, mayFault s ∧ Runs 0 0x01 w s ∧ s.engines[(0 : EngIx)].outBytes < s.engines[(0 : EngIx)].pair (2 * fld w 0 2)) := by
  exact ⟨⟨up, by decide +kernel⟩, ⟨upEng 0 same, 0, (0x01, .halt 0), by simp [vatRows], by decide +kernel⟩,
    ⟨upEng 0 fun e => { e with pc := 1 }, by unfold mayFault; decide +kernel⟩,
    ⟨upEng (word 0x3F 0) same, word 0x3F 0, by unfold mayFault; decide +kernel⟩,
    ⟨upEng 0 fun e => { e with opc := 100 }, 0, by unfold mayFault; decide +kernel, (0x00, .nop 0), by simp [vatRows], by decide +kernel⟩,
    ⟨upEng 1 same, 1, by unfold mayFault; decide +kernel, (0x00, .nop 0), by simp [vatRows], by decide +kernel⟩,
    ⟨upEng (word 0x14 (41 * 2 ^ 20)) same, word 0x14 (41 * 2 ^ 20), by unfold mayFault; decide +kernel, runs (by decide +kernel), by decide +kernel⟩,
    ⟨upEng (word 0x15 (41 * 2 ^ 20)) same, word 0x15 (41 * 2 ^ 20), by unfold mayFault; decide +kernel, runs (by decide +kernel), by decide +kernel⟩,
    ⟨upEng (word 0x18 (15 * 2 ^ 22)) same, word 0x18 (15 * 2 ^ 22), by unfold mayFault; decide +kernel, runs (by decide +kernel), by decide +kernel⟩,
    ⟨upEng (word 0x19 (15 * 2 ^ 22)) same, word 0x19 (15 * 2 ^ 22), by unfold mayFault; decide +kernel, runs (by decide +kernel), by decide +kernel⟩,
    ⟨upEng (word 0x08 (25 * 2 ^ 21)) same, word 0x08 (25 * 2 ^ 21), by unfold mayFault; decide +kernel, runs (by decide +kernel), by decide +kernel⟩,
    ⟨upEng (word 0x0C (33 * 2 ^ 15)) same, word 0x0C (33 * 2 ^ 15), by unfold mayFault; decide +kernel, runs (by decide +kernel), by decide +kernel⟩,
    ⟨upEng (word 0x0A (40 * 2 ^ 15)) same, word 0x0A (40 * 2 ^ 15), by unfold mayFault; decide +kernel, runs (by decide +kernel), by decide +kernel⟩,
    ⟨upEng (word 0x21 0) (fun e => { e with calls := List.replicate 8 0 }), word 0x21 0, by unfold mayFault; decide +kernel, runs (by decide +kernel),
      by decide +kernel⟩,
    ⟨upEng (word 0x22 0) same, word 0x22 0, by unfold mayFault; decide +kernel, runs (by decide +kernel), by decide +kernel⟩,
    ⟨upEng (word 0x23 1) (fun e => { e with loops := List.replicate 4 { first := 0, last := 9, count := 2 } }), word 0x23 1,
      by unfold mayFault; decide +kernel,
      runs (by decide +kernel), by decide +kernel⟩,
    ⟨upEng caveLoad (fun e => { e with d := Vector.replicate 8 4097 }), caveLoad, by unfold mayFault; decide +kernel, runs (by decide +kernel),
      by decide +kernel⟩,
    ⟨upEng (word 0x28 0x02004000) (fun e => { e with d := Vector.replicate 8 4, winSize := Vector.replicate 4 0x100000 }), word 0x28 0x02004000, _, 0,
      by unfold mayFault; decide +kernel, rfl, runs (by decide +kernel), by decide +kernel⟩,
    ⟨upEng (word 0x01 0) (fun e => { e with d := Vector.replicate 8 1 }), word 0x01 0, by unfold mayFault; decide +kernel, runs (by decide +kernel),
      by decide +kernel⟩⟩

/-! ### Witnesses: events, lanes, calibrators, the converters, clocks -/

/-- `up` with one part changed. -/
def upP (f : Port → Port) : State := up.modPort 0 f
def upL (f : Lane → Lane) : State := up.modLane 0 f
def upClk (f : Clocks → Clocks) : State := up.modClk f
def upTiu (f : Tiu → Tiu) : State := up.modTiu f
def upSdc (f : Sdc → Sdc) : State := up.modSdc f
def upAxc (f : Axc1 → Axc1) : State := up.modAxc1 f
def upEv (f : Events → Events) : State := up.modEv f
def upLinks (f : Links → Links) : State := up.modLinks f
/-- Event 5 pends, enabled, with an MSI-X request. -/
def upEvent : State := upEv fun e => { e with pend := 0x20, en := 0x20, cfg := e.cfg.set 5 { vector := 3, msix := true, packet := false, count :=
  1 } }

theorem witness_EventsAreCountedAndCoalesced :
    (∃ (s : State) (n : EvIx), s.boot.inReset = false ∧ s.ev.pend.getLsbD n.val = false) ∧
    (∃ (s : State) (n : EvIx), s.boot.inReset = false ∧ s.ev.pend.getLsbD n.val = true) ∧
    (∃ (s : State) (n : EvIx), s.boot.inReset = false ∧ (s.ev.cfg[n]).count = 0xFFFF) :=
  ⟨⟨up, 5, by decide +kernel⟩, ⟨upEvent, 5, by decide +kernel⟩,
   ⟨upEv fun e => { e with cfg := e.cfg.set 5 { vector := 3, msix := true, packet := false, count := 0xFFFF } }, 5, by decide +kernel⟩⟩

theorem witness_EventRegistersRouteAndClear :
    (∃ (k : Fin 8) (occ : Word), ∃ n : EvIx, n.val / 32 = k.val ∧ bit occ (n.val % 32) = true) ∧
    (∃ (s : State) (n : EvIx) (v : Word), s.boot.inReset = false ∧ (s.ev.cfg[n]).msix = true ∧ bit v 8 = false ∧ s.ev.pend.getLsbD n.val = true) ∧
    (∃ (s : State) (n : EvIx) (t0 : Time), s.boot.inReset = false ∧ assoc s.ev.clearAt n.val = some t0) ∧
    (∃ (s : State) (n : EvIx), s.boot.inReset = false ∧ s.links.msixEnable = false ∧ s.ev.pend.getLsbD n.val = true ∧ s.ev.en.getLsbD n.val = true ∧
      (s.ev.cfg[n]).msix = true ∧ s.links.pcieWidth ≠ 0 ∧ s.links.masked (s.ev.cfg[n]).vector = true) ∧
    (∃ (s : State) (n : EvIx), s.boot.inReset = false ∧ s.links.msixEnable = false ∧ s.ev.pend.getLsbD n.val = true ∧ s.ev.en.getLsbD n.val = true ∧
      (s.ev.cfg[n]).msix = true ∧ s.links.pcieWidth ≠ 0 ∧ s.links.masked (s.ev.cfg[n]).vector = false) :=
  ⟨⟨0, 0x80000000, 31, by decide⟩, ⟨upEvent, 5, 0, by decide +kernel⟩, ⟨upEv fun e => { e with clearAt := [(5, 9)] }, 5, 9, by decide +kernel⟩,
   ⟨upEvent.modLinks fun l => { l with pcieWidth := 8 }, 5, by decide +kernel⟩,
   ⟨upEvent.modLinks fun l => { l with pcieWidth := 8, msixTable := Vector.replicate 256 #v[0, 0, 0, 0] }, 5, by decide +kernel⟩⟩

/-- A lane with its spare or not, and a slice found failing or not. -/
def laneFail (sp : Option (Fin 9)) (f : Option FailingSlice) : State := upL fun l => { l with spare := sp, failing := f }
/-- Slice 3 is suspect: of its power, and of its range. -/
def laneSuspect (sp : Option (Fin 9)) : State := upL fun l => { l with spare := sp, suspects := [(3, .power), (3, .range)] }
/-- Slice 3 fails since frame 0. -/
def failing3 : FailingSlice := { slice := 3, hard := true, shadow := true, after := 0 }
/-- Sums of a position over a frame: `n` codes of 10. -/
def tens (n : Nat) : SampleSums := { n := n, sum := 10 * n, sq := 100 * n, lo := 10, hi := 10 }
/-- The lane's spare in shadow, in frame `fr` of its port, MODE as `m`. -/
def shadowing (fr : Nat) (m : Word) : State :=
  (upL fun l => { l with spare := some 8, failing := some failing3, frame := List.replicate 8 (tens 64) }).modPort 0 fun q =>
    { q with frameNo := fr, rxcCtl := m }
/-- All port islands run. -/
def isles : State := upClk fun c => { c with ckg1 := 0xFFFFFF, settling := [] }
theorem isles_open (f : Port → Port) : ReachesPort (isles.modPort 0 f) 0 := ⟨by show up.boot.inReset = false; decide +kernel, by
  show isles.portOpen 0 = true; decide +kernel⟩

theorem witness_LanesRecoverAndSwap :
    (∃ (s : State) (p : PortIx), ∀ k : Fin 4, (s.lanes[portLane p k]).starting = false) ∧
    (∃ (s : State) (p : PortIx), ∃ k : Fin 4, (s.lanes[portLane p k]).starting = true) ∧
    (∃ (s : State) (n : LaneIx), s.lanes[n].powered = false) ∧
    (∃ (s : State) (n : LaneIx) (u : State) (e : Time) (deep : Bool) (after len : Nat), s.lanes[n].powered = true ∧ len ≠ 0 ∧
      u = s.elapse (samplesTime s.settings after) ∧
      e = u.time.mono + samplesTime s.settings (len + if deep then 4 * fld s.lanes[n].ctl 8 8 else fld s.lanes[n].ctl 0 8) ∧
      bit s.lanes[n].stat 0 = false ∧ bit s.lanes[n].ctl 16 = true ∧ s.boot.inReset = false) ∧
    (∃ (s : State) (n : LaneIx), s.lanes[n].recovering = none) ∧ (∃ (s : State) (n : LaneIx), s.lanes[n].recovering ≠ none) ∧
    (∃ (s : State) (n : LaneIx) (sl : Fin 9) (why : SliceCause), ¬Meets s.lanes[n] sl why) ∧
    (∃ (s : State) (n : LaneIx) (sl : Fin 9) (pos : Fin 8) (sp : Fin 9), s.lanes[n].posOf sl = some pos ∧ s.lanes[n].failing = none ∧
      Meets s.lanes[n] sl .power ∧ s.lanes[n].spare = some sp) ∧
    (∃ (s : State) (n : LaneIx) (sl : Fin 9) (pos : Fin 8) (sp : Fin 9), s.lanes[n].posOf sl = some pos ∧ s.lanes[n].failing = none ∧
      Meets s.lanes[n] sl .range ∧ s.lanes[n].spare = some sp) ∧
    (∃ (s : State) (n : LaneIx) (sl : Fin 9) (pos : Fin 8), s.lanes[n].posOf sl = some pos ∧ s.lanes[n].failing = none ∧
      Meets s.lanes[n] sl .power ∧ s.lanes[n].spare = none ∧ (∀ d ∈ s.lanes[n].dead, d.1 ≠ pos) ∧ bit s.lanes[n].stat 3 = false ∧
      bit s.lanes[n].ctl 18 = true ∧ s.boot.inReset = false) ∧
    (∃ (s : State) (n : LaneIx) (sl : Fin 9) (pos : Fin 8), s.lanes[n].posOf sl = some pos ∧ s.lanes[n].failing = none ∧
      Meets s.lanes[n] sl .range ∧ s.lanes[n].spare = none) ∧
    (∃ (s : State) (n : LaneIx), s.lanes[n].failing = none ∨ s.lanes[n].spare = none) ∧
    (∃ (s : State) (n : LaneIx) (f : FailingSlice) (sp : Fin 9), s.lanes[n].failing = some f ∧ s.lanes[n].spare = some sp ∧
      (s.ports[lanePort n]).frameNo ≤ f.after) ∧
    (∃ (s : State) (n : LaneIx) (x : SampleSums) (f : FailingSlice) (sp : Fin 9), s.lanes[n].failing = some f ∧ s.lanes[n].spare = some sp ∧
      shadowOk (s.lanes[n].frame.foldl plusSums SampleSums.zero) x = false) ∧
    (∃ (s : State) (n : LaneIx) (x : SampleSums) (f : FailingSlice) (sp : Fin 9) (pos : Fin 8), s.lanes[n].failing = some f ∧
      s.lanes[n].spare = some sp ∧ s.lanes[n].posOf f.slice = some pos ∧ f.after < (s.ports[lanePort n]).frameNo ∧
      shadowOk (s.lanes[n].frame.foldl plusSums SampleSums.zero) x = true ∧ (s.ports[lanePort n]).calMode = 0) ∧
    (∃ (s : State) (n : LaneIx) (x : SampleSums) (f : FailingSlice) (sp : Fin 9) (pos : Fin 8), s.lanes[n].failing = some f ∧
      s.lanes[n].spare = some sp ∧ s.lanes[n].posOf f.slice = some pos ∧ f.after < (s.ports[lanePort n]).frameNo ∧
      shadowOk (s.lanes[n].frame.foldl plusSums SampleSums.zero) x = true ∧ (s.ports[lanePort n]).calMode ≠ 0) ∧
    (∃ (s : State) (n : LaneIx), ReachesPort s (lanePort n) ∧ n.val % 2 = 0 ∧ (s.ports[lanePort n]).calMode = 0) ∧
    (∃ (s : State) (n : LaneIx), ReachesPort s (lanePort n) ∧ n.val % 2 ≠ 0 ∧ (s.ports[lanePort n]).calMode ≠ 0) :=
  ⟨⟨up, 0, by decide +kernel⟩, ⟨upL fun l => { l with starting := true }, 0, 0, by decide +kernel⟩,
   ⟨upL fun l => { l with powered := false }, 0, by decide +kernel⟩,
   ⟨upL fun l => { l with powered := true, stat := 0, ctl := 0x10000 }, 0, _, _, true, 3, 1, by decide +kernel, by decide, rfl, rfl,
     by decide +kernel⟩,
   ⟨upL fun l => { l with recovering := none }, 0, by decide +kernel⟩, ⟨upL fun l => { l with recovering := some true }, 0, by decide +kernel⟩,
   ⟨laneSuspect none, 0, 4, .power, by unfold Meets; decide +kernel⟩,
   ⟨laneSuspect (some 8), 0, 3, 3, 8, by unfold Meets; decide +kernel⟩, ⟨laneSuspect (some 8), 0, 3, 3, 8, by unfold Meets; decide +kernel⟩,
   ⟨(laneSuspect none).modLane 0 fun l => { l with dead := [], stat := 0, ctl := 0x40000 }, 0, 3, 3, by unfold Meets; decide +kernel⟩,
   ⟨laneSuspect none, 0, 3, 3, by unfold Meets; decide +kernel⟩,
   ⟨laneFail none none, 0, by decide +kernel⟩, ⟨shadowing 0 0, 0, failing3, 8, by decide +kernel⟩,
   ⟨shadowing 1 0, 0, SampleSums.zero, failing3, 8, by decide +kernel⟩,
   ⟨shadowing 1 0, 0, tens 64, failing3, 8, 3, by decide +kernel⟩, ⟨shadowing 1 1, 0, tens 64, failing3, 8, 3, by decide +kernel⟩,
   ⟨isles.modPort 0 fun q => { q with rxcCtl := 0 }, 0, isles_open _, by decide +kernel⟩,
   ⟨isles.modPort 0 fun q => { q with rxcCtl := 1 }, 1, isles_open _, by decide +kernel⟩⟩

/-- An estimate of `n` samples of zero mean, power 100 in each lane, no correlation, and a kurtosis ratio of 2. -/
def est (n : Nat) : EstSums := { n := n, si := 0, sq := 0, pi := 100 * n, pq := 100 * n, c := 0, ks := 2, kb := 1 }
/-- An accumulation of two such estimates, `o` of its samples in overrange. -/
def accum (n o : Nat) : Accum := { Accum.zero with a := est n, b := est n, eligible := 2 * n, overrange := o }
/-- Port 0's calibrator in mode `m`, its X pair in state `st` after `fr` frames, with targets. -/
def calOf (m st : Word) (fr : Nat) (d : Accum) (tg : Option (Int × Int × Int × Int)) : State :=
  upP fun q => { q with rxcCtl := m, rxcStat := st, calX := { q.calX with targets := tg, restart := false, frames := fr, acc := d, holdFrames := 0 } }

theorem witness_CalibratorAcceptsWalksAndHolds :
    (∃ (s : State) (p : PortIx), ReachesPort s p ∧ s.ports[p].calMode = 0) ∧
    (∃ (s : State) (p : PortIx), ReachesPort s p ∧ s.ports[p].calMode ≠ 0) ∧
    (∃ (s : State) (p : PortIx) (w : Pair), ¬Accumulates s.ports[p] w) ∧
    (∃ (s : State) (p : PortIx) (w : Pair), Accumulates s.ports[p] w ∧ Few (s.ports[p].cal w).acc ∧
      (s.ports[p].cal w).frames < fld s.ports[p].rxcWin 16 16) ∧
    (∃ (s : State) (p : PortIx) (w : Pair) (d : Accum) (tg : Int × Int × Int × Int) (r : Nat), Accumulates s.ports[p] w ∧
      d = (s.ports[p].cal w).acc ∧ Few d ∧ fld s.ports[p].rxcWin 16 16 ≤ (s.ports[p].cal w).frames ∧
      tg = estTargets s.lanes[pairI p w] s.lanes[pairQ p w] d.a d.b ∧ r = 6) ∧
    (∃ (s : State) (p : PortIx) (w : Pair) (d : Accum) (tg : Int × Int × Int × Int) (r : Nat), Accumulates s.ports[p] w ∧
      d = (s.ports[p].cal w).acc ∧ ¬Few d ∧ tg = estTargets s.lanes[pairI p w] s.lanes[pairQ p w] d.a d.b ∧
      r = estReason d (fld s.ports[p].rxcCtl 24 8) (s.lanes[pairI p w].pDark + s.lanes[pairQ p w].pDark) tg ∧ r = 0) ∧
    (∃ (s : State) (p : PortIx) (w : Pair) (d : Accum) (tg : Int × Int × Int × Int) (r : Nat), Accumulates s.ports[p] w ∧
      d = (s.ports[p].cal w).acc ∧ ¬Few d ∧ tg = estTargets s.lanes[pairI p w] s.lanes[pairQ p w] d.a d.b ∧
      r = estReason d (fld s.ports[p].rxcCtl 24 8) (s.lanes[pairI p w].pDark + s.lanes[pairQ p w].pDark) tg ∧ r ≠ 0) ∧
    (∃ (s : State) (p : PortIx), s.ports[p].calMode = 0) ∧
    (∃ (s : State) (p : PortIx), s.ports[p].calMode ≠ 0 ∧ ∀ v : Pair, s.ports[p].calState v ≠ 2 ∨ (s.ports[p].cal v).targets = none) ∧
    (∃ (s : State) (p : PortIx) (w : Pair) (oi oq gq qc : Int), s.ports[p].calMode ≠ 0 ∧ s.ports[p].calState w = 2 ∧
      (s.ports[p].cal w).targets = some (oi, oq, gq, qc) ∧ (inTen oi && inTen oq && inTen gq && inTen qc) = true ∧
      sfld10 s.lanes[pairI p w].trim 0 = oi ∧ sfld10 s.lanes[pairQ p w].trim 0 = oq ∧ sfld10 s.lanes[pairQ p w].trim 12 = gq ∧
      sfld10 s.lanes[pairQ p w].qsk 16 = qc) ∧
    (∃ (s : State) (p : PortIx) (w : Pair) (oi oq gq qc : Int), s.ports[p].calMode ≠ 0 ∧ s.ports[p].calState w = 2 ∧
      (s.ports[p].cal w).targets = some (oi, oq, gq, qc) ∧ (inTen oi && inTen oq && inTen gq && inTen qc) = true ∧
      ¬(sfld10 s.lanes[pairI p w].trim 0 = oi ∧ sfld10 s.lanes[pairQ p w].trim 0 = oq ∧ sfld10 s.lanes[pairQ p w].trim 12 = gq ∧
      sfld10 s.lanes[pairQ p w].qsk 16 = qc)) ∧
    (∃ (s : State) (p : PortIx) (w : Pair), s.ports[p].calMode = 2 ∧ s.ports[p].calState w = 3 ∧ (s.ports[p].cal w).holdFrames = 0) ∧
    (∃ (s : State) (p : PortIx), s.ports[p].calMode ≠ 2) ∧
    (∃ (s : State) (p : PortIx), s.ports[p].dark ≠ .closed ∧ s.ports[p].dark ≠ .ended) ∧
    (∃ (s : State) (p : PortIx) (u : State), s.ports[p].dark = .closed ∧
      u = s.until ((s.ports[p]).frameStart.getD 0 + frameTime s.ports[p].plan p.val)) ∧
    (∃ (s : State) (p : PortIx), s.ports[p].dark = .ended) := by
  refine ⟨⟨isles.modPort 0 fun q => { q with rxcCtl := 0 }, 0, isles_open _, by decide +kernel⟩,
   ⟨isles.modPort 0 fun q => { q with rxcCtl := 1 }, 0, isles_open _, by decide +kernel⟩,
   ⟨calOf 0x04062011 0 0 Accum.zero none, 0, .x, by unfold Accumulates; decide +kernel⟩,
   ⟨calOf 0x04062011 1 0x20 Accum.zero none, 0, .x, by unfold Accumulates Few; decide +kernel⟩,
   ⟨calOf 0x04062011 1 0xFFFF Accum.zero none, 0, .x, _, _, _, by unfold Accumulates; decide +kernel, rfl, by unfold Few; decide +kernel,
     by decide +kernel, rfl, rfl⟩,
   ⟨calOf 0x04062011 1 0x20 (accum 65536 0) none, 0, .x, _, _, _, by unfold Accumulates; decide +kernel, rfl, by unfold Few; decide +kernel,
     rfl, rfl, by decide +kernel⟩,
   ⟨calOf 0x04062011 1 0x20 (accum 65536 33) none, 0, .x, _, _, _, by unfold Accumulates; decide +kernel, rfl, by unfold Few; decide +kernel,
     rfl, rfl, by decide +kernel⟩,
   ⟨calOf 0x04062010 0 0 Accum.zero none, 0, by decide +kernel⟩, ⟨calOf 0x04062011 0x101 0 Accum.zero none, 0, by decide +kernel, ?_⟩,
   ⟨calOf 0x04062011 0x102 0 Accum.zero (some (0, 0, 0, 0)), 0, .x, 0, 0, 0, 0, by decide +kernel⟩,
   ⟨calOf 0x04062011 0x102 0 Accum.zero (some (-512, 511, 0, 0)), 0, .x, -512, 511, 0, 0, by decide +kernel⟩,
   ⟨calOf 0x04062012 3 0 Accum.zero none, 0, .x, by decide +kernel⟩, ⟨calOf 0x04062011 3 0 Accum.zero none, 0, by decide +kernel⟩,
   ⟨upP fun q => { q with dark := .armed }, 0, by decide +kernel⟩,
   ⟨upP fun q => { q with dark := .closed }, 0, _, by decide +kernel, rfl⟩, ⟨upP fun q => { q with dark := .ended }, 0, by decide +kernel⟩⟩
  intro v; cases v <;> exact .inl (by decide +kernel)

/-- AXC1 runs entry 0, or is enabled and idle. -/
def axc1On (run : Option (Option Nat)) (ctl stat : Word) : State := upAxc fun a => { a with ctl := ctl, stat := stat, running := run, urgQ := [], seqOn := false }

theorem axc1_reached (run : Option (Option Nat)) (ctl stat : Word) (q : List Word) :
    Reaches ((axc1On run ctl stat).modAxc1 fun a => { a with urgQ := q }) 4 :=
  ⟨by show up.boot.inReset = false; decide +kernel, by show up.clkOpen 4 = true; decide +kernel⟩
/-- The same with requests queued. -/
def axc1Q (run : Option (Option Nat)) (ctl stat : Word) (q : List Word) : State := (axc1On run ctl stat).modAxc1 fun a => { a with urgQ := q }
/-- A conversion of one reading, of a reference that settled or not. -/
def conv1 (v : Int) (ok : Bool) : Axc1Conv := { vs := [v], vref := 65536, refSettled := ok }

theorem witness_Axc1RunsItsSequence :
    (∃ (s : State) (v : Word), Reaches s 4 ∧ s.axc1.urgQ = [] ∧ bit s.axc1.ctl 0 = false ∧ bit v 0 = true ∧ bit v 1 = false) ∧
    (∃ (s : State) (v : Word), Reaches s 4 ∧ s.axc1.urgQ = [] ∧ bit s.axc1.ctl 0 = false ∧ bit v 0 = true ∧ bit v 1 = true ∧
      bit v 10 = false) ∧
    (∃ (s : State) (v : Word), Reaches s 4 ∧ s.axc1.urgQ = [] ∧ bit s.axc1.ctl 0 = true ∧ bit v 0 = true ∧ bit v 10 = true ∧
      bit s.axc1.ctl 1 = true ∧ bit s.axc1.stat 5 = false) ∧
    (∃ (s : State) (v : Word), Reaches s 4 ∧ s.axc1.urgQ = [] ∧ bit s.axc1.ctl 0 = true ∧ bit v 0 = true ∧ bit v 10 = true ∧
      bit s.axc1.ctl 1 = true ∧ bit s.axc1.stat 5 = true) ∧
    (∃ (s : State) (v : Word), Reaches s 4 ∧ s.axc1.urgQ = [] ∧ bit s.axc1.ctl 0 = true ∧ bit v 0 = true ∧ bit v 10 = true ∧
      bit s.axc1.ctl 1 = false) ∧
    (∃ (s : State) (v : Word), Reaches s 4 ∧ bit s.axc1.ctl 0 = true ∧ bit v 0 = false) ∧
    (∃ (s : State) (v : Word), Reaches s 4 ∧ bit v 31 = false) ∧
    (∃ (s : State) (v : Word), Reaches s 4 ∧ bit v 31 = true ∧ bit s.axc1.ctl 0 = false) ∧
    (∃ (s : State) (v : Word), Reaches s 4 ∧ bit v 31 = true ∧ axc1WordOk v = false) ∧
    (∃ (s : State) (v : Word), Reaches s 4 ∧ bit v 31 = true ∧ bit s.axc1.ctl 0 = true ∧ axc1WordOk v = true ∧ 4 ≤ s.axc1.urgQ.length) ∧
    (∃ (s : State) (v : Word), Reaches s 4 ∧ bit v 31 = true ∧ bit s.axc1.ctl 0 = true ∧ axc1WordOk v = true ∧ s.axc1.urgQ.length < 4 ∧
      s.axc1.running = some none) ∧
    (∃ (s : State) (v : Word), Reaches s 4 ∧ bit v 31 = true ∧ bit s.axc1.ctl 0 = true ∧ axc1WordOk v = true ∧ s.axc1.urgQ.length < 4 ∧
      s.axc1.running.isSome = true ∧ fld s.axc1.ctl 7 3 ≤ s.axc1.urgRun) ∧
    (∃ (s : State) (v : Word), Reaches s 4 ∧ bit v 31 = true ∧ bit s.axc1.ctl 0 = true ∧ axc1WordOk v = true ∧ s.axc1.urgQ = [] ∧
      s.axc1.running = none ∧ s.axc1.seqOn = false) ∧
    (∃ (s : State) (v : Word) (n : Option Nat), Reaches s 4 ∧ bit v 31 = true ∧ bit s.axc1.ctl 0 = true ∧ axc1WordOk v = true ∧ s.axc1.urgQ = [] ∧
      s.axc1.running = some n ∧ s.axc1.urgRun < fld s.axc1.ctl 7 3) ∧
    (∃ s : State, s.axc1.running = none) ∧
    (∃ (s : State) (m : Axc1Conv) (n : Fin 32) (u : State), s.axc1.running = some (some n.val) ∧ m.refSettled = true ∧
      u = s.until (s.axc1.startAt + (if bit s.axc1.stat 7 then 0 else axc1Settle s.axc1.ref) + s.axc1.cycles * auxCycle) ∧
      axc1Code m.vs m.vref = (65534, false, false)) ∧
    (∃ (s : State) (m : Axc1Conv) (n : Fin 32) (u : State), s.axc1.running = some (some n.val) ∧ m.refSettled = false ∧
      ∃ w, u = { s.until (s.axc1.startAt + ms) with free := w }) ∧
    (∃ (s : State) (m : Axc1Conv) (u : State), s.axc1.running = some none ∧ m.refSettled = true ∧
      u = s.until (s.axc1.startAt + (if bit s.axc1.stat 7 then 0 else axc1Settle s.axc1.ref) + s.axc1.cycles * auxCycle) ∧
      s.boot.inReset = false) :=
  ⟨⟨axc1Q none 0 0 [], 1, axc1_reached .., by decide +kernel⟩, ⟨axc1Q none 0 0 [], 3, axc1_reached .., by decide +kernel⟩,
   ⟨axc1Q none 3 0 [], 0x401, axc1_reached .., by decide +kernel⟩, ⟨axc1Q none 3 0x20 [], 0x401, axc1_reached .., by decide +kernel⟩,
   ⟨axc1Q none 1 0x20 [], 0x401, axc1_reached .., by decide +kernel⟩, ⟨axc1Q none 1 0 [], 0, axc1_reached .., by decide +kernel⟩,
   ⟨axc1Q none 1 0 [], 0, axc1_reached .., by decide +kernel⟩, ⟨axc1Q none 0 0 [], 0x80000400, axc1_reached .., by decide +kernel⟩,
   ⟨axc1Q none 1 0 [], 0x800000FF, axc1_reached .., by decide +kernel⟩,
   ⟨axc1Q none 1 0 [0, 0, 0, 0], 0x80000400, axc1_reached .., by decide +kernel⟩,
   ⟨axc1Q (some none) 1 0 [0, 0, 0], 0x80000400, axc1_reached .., by decide +kernel⟩,
   ⟨axc1Q (some (some 0)) 1 0 [], 0x80000400, axc1_reached .., by decide +kernel⟩,
   ⟨axc1Q none 1 0 [], 0x80000400, axc1_reached .., by decide +kernel⟩,
   ⟨axc1Q (some (some 0)) 0x81 0 [], 0x80000400, some 0, axc1_reached .., by decide +kernel⟩,
   ⟨axc1Q none 1 0 [], by decide +kernel⟩,
   ⟨axc1Q (some (some 31)) 1 0x20 [], conv1 65534 true, 31, _, by decide +kernel, rfl, rfl, by decide +kernel⟩,
   ⟨axc1Q (some (some 31)) 1 0x20 [], conv1 65534 false, 31, _, by decide +kernel, rfl, 7, rfl⟩,
   ⟨axc1Q (some none) 1 0x20 [0], conv1 0 true, _, by decide +kernel, rfl, rfl, by decide +kernel⟩⟩

/-- Gates of CKG_EN0 as `v`. -/
def gates (v : Word) : State := upClk fun c => { c with ckg0 := v }

theorem witness_ClockGatesCountersAndCapture :
    (∃ (s : State) (v : Word), s.boot.inReset = false ∧ (∀ i, i < 3 → bit v i = bit s.clk.ckg0 i) ∧
      (∃ i, 3 ≤ i ∧ i < 11 ∧ bit s.clk.ckg0 i = true ∧ bit v i = false ∧ s.blockInUse i = true) ∧
      ∃ i, 3 ≤ i ∧ i < 11 ∧ bit s.clk.ckg0 i = true ∧ bit v i = false ∧ s.blockInUse i = false) ∧
    (∃ (s : State) (v : Word), s.boot.inReset = false ∧ (∀ i, i < 3 → bit v i = bit s.clk.ckg0 i) ∧
      ∃ i, 3 ≤ i ∧ i < 11 ∧ bit s.clk.ckg0 i = false ∧ bit v i = true) ∧
    (∃ (s : State) (i : Nat), s.boot.inReset = false ∧ i < 3 ∧ bit s.clk.ckg0 i = true ∧ s.serving i = true) ∧
    (∃ (s : State) (i : Nat), s.boot.inReset = false ∧ i < 3 ∧ bit s.clk.ckg0 i = true ∧ s.serving i = false ∧
      (s.tiu.spare = i → s.tiu.launch ≠ i ∧ s.tiu.user ≠ i) ∧ (s.tiu.launch = i → s.tiu.user ≠ i)) ∧
    (∃ (s : State) (i : Fin 3), s.boot.inReset = false ∧ bit s.clk.ckg0 i.val = false ∧ bit s.tiu.stat (14 + i.val) = true) ∧
    (∃ (s : State) (i : Fin 3), s.boot.inReset = false ∧ bit s.clk.ckg0 i.val = false ∧ bit s.tiu.stat (14 + i.val) = false) ∧
    (∃ (s : State) (v : Word) (p : PortIx), s.boot.inReset = false ∧ bit s.clk.ckg1 p.val = true ∧ bit v p.val = false ∧
      s.settings.probing p.val = true) ∧
    (∃ (s : State) (v : Word) (p : PortIx), s.boot.inReset = false ∧ 0 < fsHz s.settings ∧ bit s.clk.ckg1 p.val = false ∧ bit v p.val = true) ∧
    (∃ (s : State) (v : Word), s.boot.inReset = false ∧ s.clkOpen 3 = true ∧ bit v 16 = true ∧ bit s.clk.fstat 0 = true) ∧
    (∃ (s : State) (v : Word), s.boot.inReset = false ∧ s.clkOpen 3 = true ∧ bit v 16 = true ∧ bit s.clk.fstat 0 = false ∧ fld v 0 4 ≤ 12 ∧
      fld v 4 4 ≤ 12 ∧ 10 ≤ fld v 8 5 ∧ fld v 8 5 ≤ 30) ∧
    (∃ (s : State) (m r : Nat), s.boot.inReset = false ∧ bit s.clk.fstat 0 = true ∧ 2 ^ fld s.clk.fctl 8 5 ≤ r ∧ m < 2 ^ 40 ∧ r < 2 ^ 40) ∧
    (∃ (s : State) (r : Nat), s.boot.inReset = false ∧ r < 2 ^ fld s.clk.fctl 8 5) ∧
    (∃ s : State, s.boot.inReset = false ∧ bit s.clk.fstat 0 = false) ∧
    (∃ s : State, s.boot.inReset = false ∧ s.time.devSet = true) ∧ (∃ s : State, s.boot.inReset = false ∧ s.time.devSet = false) :=
  ⟨⟨(gates 0x7FF).modClk fun c => { c with fstat := 1 }, 0x3F7, by decide +kernel, by
      intro i hi; match i, hi with | 0, _ => decide +kernel | 1, _ => decide +kernel | 2, _ => decide +kernel,
      ⟨3, by decide, by decide, by decide +kernel⟩, 10, by decide, by decide, by decide +kernel⟩,
   ⟨gates 0x7, 0x7FF, by decide +kernel, by
      intro i hi; match i, hi with | 0, _ => decide +kernel | 1, _ => decide +kernel | 2, _ => decide +kernel,
      3, by decide, by decide, by decide +kernel⟩,
   ⟨{ upProbing with clk := { upProbing.clk with ckg0 := 0x7FF } }, upProbing.tiu.launch, by decide +kernel⟩,
   ⟨gates 0x7FF, 0, by decide +kernel⟩,
   ⟨(gates 0x7F8).modTiu fun t => { t with stat := setBit t.stat 14 }, 0, by decide +kernel⟩,
   ⟨(gates 0x7F8).modTiu fun t => { t with stat := clrBit t.stat 16 }, 2, by decide +kernel⟩,
   ⟨{ upProbing with clk := { upProbing.clk with ckg1 := 0xFFFFFF } }, 0, 0, by decide +kernel⟩,
   ⟨upClk fun c => { c with ckg1 := 0 }, 0xFFFFFF, 23, by decide +kernel⟩,
   ⟨(gates 0x7FF).modClk fun c => { c with fstat := 1, settling := [] }, 0x10000, by decide +kernel⟩,
   ⟨(gates 0x7FF).modClk fun c => { c with fstat := 0, settling := [] }, 0x11ECC, by decide +kernel⟩,
   ⟨upClk fun c => { c with fstat := 1, fctl := 0x1E00 }, 0xFFFFFFFFFF, 0x40000000, by decide +kernel⟩,
   ⟨upClk fun c => { c with fstat := 1, fctl := 0x1E00 }, 0x3FFFFFFF, by decide +kernel⟩,
   ⟨upClk fun c => { c with fstat := 0 }, by decide +kernel⟩,
   ⟨{ up with time := { up.time with devSet := true } }, by decide +kernel⟩,
     ⟨{ up with time := { up.time with devSet := false } }, by decide +kernel⟩⟩

/-! ### Witnesses: the chain, safety, clocks, measurement -/

/-- The chain in phase `ph`, CTL as `ctl`. -/
def chain (ph : ChainPhase) (ctl : Word) (f : Sdc → Sdc) : State := upSdc fun c => f { c with phase := ph, ctl := ctl }

/-- What device 9 shifts back when nothing is wrong. -/
def statusWord : BitVec 64 := sealWord 0xA000000000000900 0

/-- A chain of one device, number 9. -/
def chain1 (f : Sdc → Sdc) : State := chain .framing 1 fun c => f { c with stat := 1, ids := [9], latched := [0] }
theorem reached10 (f : Sdc → Sdc) : Reaches (upSdc f) 10 := ⟨by show up.boot.inReset = false; decide +kernel, by show up.clkOpen 10 = true; decide +kernel⟩

theorem witness_SourceDriveChainRuns :
    (∃ (s : State) (v : Word), Reaches s 10 ∧ bit s.sdc.ctl 0 = false ∧ bit v 0 = true ∧ NoCause s) ∧
    (∃ (s : State) (v : Word), Reaches s 10 ∧ bit s.sdc.ctl 0 = false ∧ bit v 0 = true ∧ ¬ NoCause s) ∧
    (∃ (s : State) (v : Word), Reaches s 10 ∧ bit s.sdc.ctl 0 = true ∧ bit v 0 = false) ∧
    (∃ s : State, s.sdc.phase ≠ .framing) ∧
    (∃ (s : State) (rx : List (BitVec 64)), s.sdc.phase = .framing ∧ Passes s rx) ∧
    (∃ (s : State) (rx : List (BitVec 64)), s.sdc.phase = .framing ∧ ¬Passes s rx ∧ s.sdc.failedRun = 0) ∧
    (∃ (s : State) (rx : List (BitVec 64)), s.sdc.phase = .framing ∧ ¬Passes s rx ∧ 1 ≤ s.sdc.failedRun ∧ s.sdc.chainFailed = false ∧
      s.boot.inReset = false) ∧
    (∃ s : State, s.sdc.phase = .waiting ∧ bit s.sdc.ctl 0 = true ∧ NoCause s ∧ s.sdc.waitUntil ≤ s.time.mono) ∧
    (∃ s : State, s.sdc.phase = .waiting ∧ bit s.sdc.ctl 0 = true ∧ NoCause s ∧ s.sdc.chainFailed = true) ∧
    (∃ s : State, s.sdc.phase ≠ .waiting) ∧ (∃ s : State, s.time.mono < s.sdc.waitUntil) ∧ (∃ s : State, s.sdc.chainFailed = false) ∧
    (∃ s : State, s.sdc.phase ≠ .discovering) ∧
    (∃ (s : State) (blocks : List (BitVec 64)) (k : Nat), s.sdc.phase = .discovering ∧ (blocks.take 34).findIdx? (fun b => b == 0) = some k ∧
      (s.sdc.clkInUse.toNat = 2 → k ≤ 20) ∧ s.sdc.bootDiscovery = false ∧ (s.sdc.prevCount = none ∨ s.sdc.prevCount = some k)) ∧
    (∃ (s : State) (blocks : List (BitVec 64)) (k m : Nat), s.sdc.phase = .discovering ∧ (blocks.take 34).findIdx? (fun b => b == 0) = some k ∧
      (s.sdc.clkInUse.toNat = 2 → k ≤ 20) ∧ s.sdc.bootDiscovery = true ∧ bit s.sdc.ctl 0 = false ∧ s.sdc.prevCount = some m ∧ m ≠ k ∧
      s.boot.inReset = false) ∧
    (∃ (s : State) (blocks : List (BitVec 64)), s.sdc.phase = .discovering ∧ (blocks.take 34).findIdx? (fun b => b == 0) = none ∧
      s.sdc.chainFailed = false ∧ s.boot.inReset = false) ∧
    (∃ (s : State) (blocks : List (BitVec 64)), s.sdc.phase = .discovering ∧ (blocks.take 34).findIdx? (fun b => b == 0) = none ∧
      s.sdc.chainFailed = true) ∧
    (∃ (s : State) (blocks : List (BitVec 64)) (k : Nat), s.sdc.phase = .discovering ∧ (blocks.take 34).findIdx? (fun b => b == 0) = some k ∧
      s.sdc.clkInUse.toNat = 2 ∧ 20 < k) :=
  ⟨⟨upSdc fun c => { c with ctl := 0, causeIntlk := false }, 1, reached10 _, by decide +kernel, by decide, by unfold NoCause; decide +kernel⟩,
   ⟨upSdc fun c => { c with ctl := 0, causeIntlk := true }, 1, reached10 _, by decide +kernel, by decide, by unfold NoCause; decide +kernel⟩,
   ⟨chain .framing 1 id, 0, reached10 _, by decide +kernel⟩, ⟨up, by decide +kernel⟩,
   ⟨chain1 id, [statusWord, 0], by unfold Passes GoodStatus; decide +kernel⟩,
   ⟨chain1 id, [statusWord, 1], by unfold Passes GoodStatus; decide +kernel⟩,
   ⟨chain1 fun c => { c with failedRun := 1 }, [], by unfold Passes GoodStatus; decide +kernel⟩,
   ⟨chain .waiting 1 id, by unfold NoCause; decide +kernel⟩,
   ⟨chain .waiting 1 fun c => { c with chainFailed := true }, by unfold NoCause; decide +kernel⟩,
   ⟨chain .framing 1 id, by decide +kernel⟩, ⟨chain .waiting 1 fun c => { c with waitUntil := 1 }, by decide +kernel⟩,
   ⟨chain .waiting 1 id, by decide +kernel⟩, ⟨chain .framing 1 id, by decide +kernel⟩,
   ⟨chain .discovering 1 fun c => { c with bootDiscovery := false }, [0x900, 0], 1, by decide +kernel⟩,
   ⟨chain .discovering 0 fun c => { c with bootDiscovery := true, prevCount := some 3 }, [0], 0, 3, by decide +kernel⟩,
   ⟨chain .discovering 1 id, List.replicate 34 1, by decide +kernel⟩,
   ⟨chain .discovering 1 fun c => { c with chainFailed := true }, [], by decide +kernel⟩,
   ⟨chain .discovering 1 fun c => { c with clkInUse := 2 }, List.replicate 21 1 ++ [0], 21, by decide +kernel⟩⟩

theorem witness_InterlockShutsEverythingDown :
    (∃ (s : State) (p : PortIx), s.sdc.causeIntlk = false ∧ s.boot.inReset = false ∧ portGroup s.settings p.val < 16) ∧
    (∃ s : State, s.sdc.causeIntlk = true) ∧ (∃ s : State, s.sdc.causeIntlk = false) :=
  ⟨⟨up, 0, by decide +kernel⟩, ⟨upSdc fun c => { c with causeIntlk := true }, by decide +kernel⟩, ⟨up, by decide +kernel⟩⟩

/-- CLK_CTL and CLK_STAT as given, no ramp. -/
def clock (ctl stat : Word) (r : Ramp) : State := upClk fun c => { c with ctl := ctl, stat := stat, ramp := r, fsWaiting := false }

/-- A latch pulse of the chain is in progress: six periods before the end of a frame. -/
def latching : State := chain .framing 1 fun c => { c with waitUntil := c.periods 6 }
theorem latching_until : latching.latchUntil ≠ none := by decide +kernel

theorem witness_ReferenceClockMoves :
    (∃ (s : State) (r : RefSrc), r ≠ .internal ∧ s.clk.qualified r = false) ∧
    (∃ (s : State) (r : RefSrc), s.clk.qualified r = true) ∧
    (∃ s : State, s.links.tportUp = false) ∧
    (∃ (s : State) (r : RefSrc) (u : State), r ≠ .internal ∧ s.clk.qualified r = (!false) ∧
      u = s.modClk (fun c => { c with stat := putBit c.stat (sourceBit r) false }) ∧ u.clk.ramp = .none ∧ u.clk.wanted ≠ u.clk.src ∧
      u.latchUntil = none ∧ bit u.clk.fstat 0 = true ∧ u.axc1.running.isSome = true) ∧
    (∃ (s : State) (u : State), s.clk.qualified .refin = (!true) ∧
      u = s.modClk (fun c => { c with stat := putBit c.stat (sourceBit .refin) true }) ∧ u.clk.ramp ≠ .none) ∧
    (∃ (s : State) (u v : State), s.links.tportUp = true ∧ v = s.until (s.clk.recovSince + fld s.clk.ctl 8 8 * sec) ∧
      s.clk.qualified .recovered = (!true) ∧ u = v.modClk (fun c => { c with stat := putBit c.stat (sourceBit .recovered) true }) ∧
      s.boot.inReset = false) ∧
    (∃ s : State, s.latchUntil = none) ∧ (∃ (s : State) (e : Time), s.latchUntil = some e) ∧
    (∃ s : State, ∀ r b, s.clk.ramp ≠ .ref r b) ∧
    (∃ (s : State) (r : RefSrc), s.clk.ramp = .ref r false ∧ s.clk.fsWaiting = false ∧ s.boot.inReset = false) ∧
    (∃ (s : State) (r : RefSrc), s.clk.ramp = .ref r true ∧ s.clk.fsWaiting = true) :=
  ⟨⟨clock 0xA08 0 .none, .refin, by decide, by decide +kernel⟩, ⟨clock 0xA08 8 .none, .refin, by decide +kernel⟩,
   ⟨upLinks fun l => { l with tportUp := false }, by decide +kernel⟩,
   ⟨{ clock 0xA08 0xA .none with axc1 := { up.axc1 with running := some none }, clk := { (clock 0xA08 0xA .none).clk with fstat := 1 } },
     .refin, _, by decide, by decide +kernel, rfl, by decide +kernel⟩,
   ⟨clock 0xA08 0 (.ref .refin false), _, by decide +kernel, rfl, by decide +kernel⟩,
   ⟨(clock 0xA08 0 .none).modLinks fun l => { l with tportUp := true }, _, _, by decide +kernel, rfl, by decide +kernel, rfl, by decide +kernel⟩,
   ⟨up, by decide +kernel⟩, ⟨latching, Option.ne_none_iff_exists'.mp latching_until⟩,
   ⟨clock 0xA08 0 .none, by intro r b h; cases h⟩,
   ⟨clock 0xA08 0 (.ref .refin false), .refin, by decide +kernel⟩,
   ⟨(clock 0xA08 0 (.ref .refin true)).modClk fun c => { c with fsWaiting := true }, .refin, by decide +kernel⟩⟩

theorem witness_LoopLocksAreLostAndRegained :
    (∃ s : State, s.boot.inReset = false ∧ bit s.clk.stat 5 = true ∧ bit s.clk.stat 6 = true ∧ bit s.clk.stat 7 = true ∧ bit s.clk.stat 8 = true ∧
      bit s.clk.stat 9 = true ∧ s.axc1.running.isSome = true) ∧
    (∃ s : State, s.boot.inReset = false ∧ bit s.clk.stat 5 = false ∧ bit s.clk.stat 6 = false ∧ s.ports[(0 : PortIx)].frozen = true ∧
      bit s.clk.stat 7 = false ∧ bit s.clk.stat 8 = false ∧ bit s.clk.stat 9 = false) ∧
    (∃ s : State, s.boot.inReset = false ∧ ∀ b, s.clk.ramp ≠ .fs b) ∧
    (∃ (s : State) (b : Bool), s.boot.inReset = false ∧ s.clk.ramp = .fs b ∧ s.time.mono ≤ s.clk.rampAt + 23 * us ∧ s.clk.fsWaiting = false) ∧
    (∃ (s : State) (b : Bool), s.boot.inReset = false ∧ s.clk.ramp = .fs b ∧ s.time.mono ≤ s.clk.rampAt + 23 * us ∧ s.clk.fsWaiting = true) ∧
    (∃ (s : State) (b : Bool), s.boot.inReset = false ∧ s.clk.ramp = .fs b ∧ s.clk.rampAt + 23 * us < s.time.mono) :=
  ⟨⟨{ clock 0xA08 0x3E0 .none with axc1 := { up.axc1 with running := some none } }, by decide +kernel⟩,
   ⟨(clock 0xA08 0 .none).modPort 0 fun q => { q with frozen := true }, by decide +kernel⟩,
   ⟨clock 0xA08 0 .none, by decide +kernel, by intro b h; cases h⟩, ⟨clock 0xA08 0 (.fs true), true, by decide +kernel⟩,
   ⟨(clock 0xA08 0 (.fs true)).modClk fun c => { c with fsWaiting := true }, true, by decide +kernel⟩,
   ⟨{ clock 0xA08 0 (.fs false) with time := { up.time with mono := 1000 * ms } }, false, by decide +kernel⟩⟩

/-- TIU_CTL and TIU_STAT as given. -/
def tiu (ctl stat : Word) (r : Option MeasRun) : State := upTiu fun t => { t with ctl := ctl, stat := stat, run := r }
/-- A measurement of mode `mode` that has the converter. -/
def measRun (isOpen : Bool) (ps : List (Nat × List Int)) : MeasRun :=
  { req := { id := 3, anchorPort := none, params := ps, asked := 0 }, isOpen := isOpen, done := false, tOpen := 0, tClose := 0, armedAt := 0
    gateAt := 0, gateLen := some (1000 * ns), opensAt := some 7, flags := 0, edgesA := 0, edgesB := 0, lastA := none, lastB := none, starts := []
    stops := [], lostAt := [], nStarts := 0, results := [], mids := 0, dead := 0, orphan := 0, sawExternal := false }
/-- Port 0 tracks delay, with an anchor period, anchored by command or by the converter. -/
def anchoring (src : Int) : State :=
  { tiu 1 0 none with settings := [setting .port 0 0x0201 [4], setting .port 0 0x1507 [60], setting .port 0 0x1501 [src]] }

/-- A calibration that fails: a code wider than 7.8 ps. -/
def badVernier : VernierCal := { goodVernier with a := { goodChan with hits := 16384 :: 0 :: List.replicate 126 8192 } }
/-- What the inputs call for (R222). -/
def called (s : State) : Nat :=
  if bit s.tiu.ctl 0 = false ∨ bit s.tiu.stat 2 = false then 0
  else if bit s.tiu.stat 3 then (if fld s.tiu.stat 0 2 = 1 ∨ s.tiu.ppsNear = true then 1 else 0)
  else if fld s.tiu.stat 0 2 ≠ 0 then 2 else 0
/-- ROT_PER 60; LAUNCH held by converter `l`, USER by 1, the spare 2 being next for LAUNCH or USER; all clocks run. -/
def rotating (l : Nat) (user : Bool) (f : Conv → Conv) : State :=
  ((tiu 0x3C1 (BitVec.ofNat 32 (0x2400 + 256 * l)) none).modClk fun c => { c with ckg0 := 0x7FF }).modTiu fun t =>
    { t with nextUser := user, conv := t.conv.set 2 (f t.conv[2]) }
/-- An edge that two cells read apart. -/
def apart : ShadowEdge := { pad := 0, chB := false, spare := { blankRead with coarse := 1000 }, role := blankRead }
/-- One that they read alike. -/
def alike : ShadowEdge := { apart with spare := blankRead }

/-- When a rotation is due. -/
def dueAt (s : State) (per : Time) : Time := s.tiu.lastRotation + max 1 ((s.time.mono - s.tiu.lastRotation) / per) * per

theorem witness_TimescaleAndConvertersChange :
    (∃ s : State, s.boot.inReset = false ∧ goodWindow s 10000000 = true ∧ bit s.tiu.stat 2 = false ∧ 9 ≤ s.tiu.refRun) ∧
    (∃ s : State, s.boot.inReset = false ∧ goodWindow s 9998999 = false ∧ bit s.tiu.stat 2 = true) ∧
    (∃ len : Time, len < 200 * ns) ∧ (∃ len : Time, 200 * ns ≤ len) ∧
    (∃ s : State, s.boot.inReset = false ∧ bit s.tiu.stat 3 = false ∧ bit s.tiu.ctl 0 = true ∧ bit s.tiu.stat 2 = true ∧ 3 ≤ s.tiu.ppsRun) ∧
    (∃ s : State, s.boot.inReset = false ∧ bit s.tiu.stat 3 = false ∧ s.tiu.ppsRun < 3) ∧
    (∃ s : State, s.boot.inReset = false ∧ bit s.tiu.stat 3 = true ∧ s.tiu.ppsRun ≤ 1) ∧
    (∃ s : State, s.boot.inReset = false ∧ bit s.tiu.stat 3 = true ∧ 2 ≤ s.tiu.ppsRun) ∧
    (∃ s : State, s.boot.inReset = false ∧ called s = fld s.tiu.stat 0 2) ∧
    (∃ s : State, s.boot.inReset = false ∧ s.tiu.gateOpen = true ∧ bit s.tiu.stat 4 = false) ∧
    (∃ s : State, s.boot.inReset = false ∧ called s ≠ fld s.tiu.stat 0 2 ∧ s.tiu.gateOpen = false) ∧
    (∃ s : State, s.boot.inReset = false ∧ called s ≠ fld s.tiu.stat 0 2 ∧ s.tiu.gateOpen = true ∧ bit s.tiu.stat 4 = true) ∧
    (∃ s : State, s.boot.inReset = false ∧ fld s.tiu.ctl 4 12 = 0) ∧
    (∃ (s : State) (i : Fin 3) (per due : Time), s.boot.inReset = false ∧ per = fld s.tiu.ctl 4 12 * 10 * sec ∧ per ≠ 0 ∧ due = dueAt s per ∧
      fld s.tiu.stat 12 2 = i.val ∧ s.tiu.conv[i].returning = false ∧ bit s.clk.ckg0 i.val = false) ∧
    (∃ (s : State) (i : Fin 3) (per due : Time), s.boot.inReset = false ∧ per = fld s.tiu.ctl 4 12 * 10 * sec ∧ per ≠ 0 ∧ due = dueAt s per ∧
      fld s.tiu.stat 12 2 = i.val ∧ s.tiu.conv[i].returning = false ∧ bit s.clk.ckg0 i.val = true ∧ vernierOk badVernier = false) ∧
    (∃ (s : State) (i : Fin 3) (sh : List ShadowEdge) (lo out : Nat), s.boot.inReset = false ∧ fld s.tiu.ctl 4 12 * 10 * sec ≠ 0 ∧
      fld s.tiu.stat 12 2 = i.val ∧ s.tiu.conv[i].returning = false ∧ bit s.clk.ckg0 i.val = true ∧ vernierOk goodVernier = true ∧
      lo = (if s.tiu.nextUser then 10 else 8) ∧ out = fld s.tiu.stat lo 2 ∧ out ≠ i.val ∧
      shadowAgrees (s.tiu.conv[i].calibrate goodVernier) (s.tiu.convN out) sh = false ∧ s.tiu.conv[i].failures = 0) ∧
    (∃ (s : State) (i : Fin 3) (sh : List ShadowEdge) (lo out : Nat), s.boot.inReset = false ∧ fld s.tiu.ctl 4 12 * 10 * sec ≠ 0 ∧
      fld s.tiu.stat 12 2 = i.val ∧ s.tiu.conv[i].returning = false ∧ bit s.clk.ckg0 i.val = true ∧ vernierOk goodVernier = true ∧
      lo = (if s.tiu.nextUser then 10 else 8) ∧ out = fld s.tiu.stat lo 2 ∧ out ≠ i.val ∧
      shadowAgrees (s.tiu.conv[i].calibrate goodVernier) (s.tiu.convN out) sh = false ∧ 1 ≤ s.tiu.conv[i].failures) ∧
    (∃ (s : State) (i j : Fin 3) (sh : List ShadowEdge) (lo out : Nat), s.boot.inReset = false ∧ fld s.tiu.ctl 4 12 * 10 * sec ≠ 0 ∧
      fld s.tiu.stat 12 2 = i.val ∧ s.tiu.conv[i].returning = false ∧ bit s.clk.ckg0 i.val = true ∧ vernierOk goodVernier = true ∧
      lo = (if s.tiu.nextUser then 10 else 8) ∧ out = fld s.tiu.stat lo 2 ∧ out ≠ i.val ∧
      shadowAgrees (s.tiu.conv[i].calibrate goodVernier) (s.tiu.convN out) sh = true ∧ out = j.val ∧ s.tiu.conv[j].returning = false) ∧
    (∃ (s : State) (i : Fin 3) (sh : List ShadowEdge) (lo out : Nat), s.boot.inReset = false ∧ fld s.tiu.ctl 4 12 * 10 * sec ≠ 0 ∧
      fld s.tiu.stat 12 2 = i.val ∧ s.tiu.conv[i].returning = false ∧ bit s.clk.ckg0 i.val = true ∧ vernierOk goodVernier = true ∧
      lo = (if s.tiu.nextUser then 10 else 8) ∧ out = fld s.tiu.stat lo 2 ∧ out ≠ i.val ∧
      shadowAgrees (s.tiu.conv[i].calibrate goodVernier) (s.tiu.convN out) sh = true ∧ out = 3) ∧
    (∃ (s : State) (p : PortIx), s.boot.inReset = false ∧ s.settings.port p.val 0x1507 = 0) ∧
    (∃ (s : State) (p : PortIx), s.boot.inReset = false ∧ s.settings.port p.val 0x1507 ≠ 0 ∧ s.settings.mode p.val 2 = true ∧
      s.settings.port p.val 0x1501 ≠ 1) ∧
    (∃ (s : State) (p : PortIx), s.boot.inReset = false ∧ s.settings.port p.val 0x1507 ≠ 0 ∧ s.settings.mode p.val 2 = true ∧
      s.settings.port p.val 0x1501 = 1 ∧ fld s.tiu.stat 10 2 ≠ 3) ∧
    (∃ (s : State) (p : PortIx), s.boot.inReset = false ∧ s.settings.port p.val 0x1507 ≠ 0 ∧ s.settings.mode p.val 2 = true ∧
      s.settings.port p.val 0x1501 = 1 ∧ fld s.tiu.stat 10 2 = 3) :=
  ⟨⟨(tiu 1 0 none).modTiu fun t => { t with refRun := 9 }, by decide +kernel⟩, ⟨tiu 1 4 none, by decide +kernel⟩, ⟨199 * ns, by decide⟩,
   ⟨200 * ns, by decide⟩, ⟨(tiu 1 4 none).modTiu fun t => { t with ppsRun := 3 }, by decide +kernel⟩,
   ⟨(tiu 1 4 none).modTiu fun t => { t with ppsRun := 2 }, by decide +kernel⟩,
   ⟨(tiu 1 0xC none).modTiu fun t => { t with ppsRun := 1 }, by decide +kernel⟩,
   ⟨(tiu 1 0xC none).modTiu fun t => { t with ppsRun := 2 }, by decide +kernel⟩,
   ⟨tiu 0 0 none, by decide +kernel⟩, ⟨tiu 0 1 (some (measRun true [])), by decide +kernel⟩, ⟨tiu 0 1 none, by decide +kernel⟩,
   ⟨tiu 0 0x11 (some (measRun true [])), by decide +kernel⟩, ⟨tiu 1 0 none, by decide +kernel⟩,
   ⟨(rotating 0 false id).modClk fun c => { c with ckg0 := 0 }, 2, _, _, by decide +kernel, rfl, by decide +kernel, rfl, by decide +kernel⟩,
   ⟨rotating 0 false id, 2, _, _, by decide +kernel, rfl, by decide +kernel, rfl, by decide +kernel⟩,
   ⟨rotating 0 false id, 2, [apart], _, _, by decide +kernel, by decide +kernel, by decide +kernel, by decide +kernel, by decide +kernel,
     by decide +kernel, rfl, rfl, by decide +kernel⟩,
   ⟨rotating 0 true fun c => { c with failures := 1 }, 2, [apart], _, _, by decide +kernel, by decide +kernel, by decide +kernel,
     by decide +kernel, by decide +kernel, by decide +kernel, rfl, rfl, by decide +kernel⟩,
   ⟨(rotating 0 false id).modTiu fun t => { t with conv := t.conv.set 0 (t.conv[0].calibrate goodVernier) }, 2, 0, [alike], _, _,
     by decide +kernel, by decide +kernel, by decide +kernel, by decide +kernel, by decide +kernel, by decide +kernel, rfl, rfl, by decide +kernel⟩,
   ⟨rotating 3 false id, 2, [], _, _, by decide +kernel, by decide +kernel, by decide +kernel, by decide +kernel, by decide +kernel,
     by decide +kernel, rfl, rfl, by decide +kernel⟩,
   ⟨upWith [setting .port 0 0x1507 [0]], 0, by decide +kernel⟩, ⟨anchoring 0, 0, by decide +kernel⟩, ⟨anchoring 1, 0, by decide +kernel⟩,
   ⟨(anchoring 1).modTiu fun t => { t with stat := 0xC00 }, 0, by decide +kernel⟩⟩

/-- A measurement that runs on the converter 0. -/
def measuring (q : MeasRun) : State := tiu 0 0 (some q)
/-- MODE INTERVAL between TI0 and TI1, rising edges, MAX_INT 1 ms. -/
def interval : List (Nat × List Int) := [(1, [1]), (2, [0, 1]), (3, [0, 0]), (4, [1, 1]), (11, [1000000]), (6, [1])]
/-- An edge of TI`n`, read by both channels. -/
def edge (n code : Nat) : EdgeIn :=
  { src := n, falling := false, a := { blankRead with code := code }, b := { blankRead with code := code }, ref := { first := 0, reads := [] } }
/-- Its raw stamps on the two channels. -/
def rawA (s : State) (d : EdgeIn) : Int := (s.tiu.convN s.tiu.user).a.raw d.src d.a
def rawB (s : State) (d : EdgeIn) : Int := (s.tiu.convN s.tiu.user).b.raw d.src d.b

theorem witness_MeasurementsRunTheirCourse :
    (∃ (q : MeasRun) (x a : Int), (q.starts.filter fun y => decide (y.1 ≤ x + 1048)).getLast? = some (a, false) ∧ x ≤ a + q.req.par 11 0 * ns) ∧
    (∃ (q : MeasRun) (x a : Int), (q.starts.filter fun y => decide (y.1 ≤ x + 1048)).getLast? = some (a, false) ∧ a + q.req.par 11 0 * ns < x) ∧
    (∃ (q : MeasRun) (x : Int), ∀ a, (q.starts.filter fun y => decide (y.1 ≤ x + 1048)).getLast? ≠ some (a, false)) ∧
    (∃ (q : MeasRun) (stopCh : Bool) (n : Nat), n = (if stopCh then q.edgesB else q.edgesA) + 1 ∧ q.done = false ∧
      n % max 1 (q.req.par 4 (b01 stopCh)).toNat ≠ 0) ∧
    (∃ (q : MeasRun) (stopCh : Bool) (n : Nat), n = (if stopCh then q.edgesB else q.edgesA) + 1 ∧ q.done = false ∧ q.req.mode = 2 ∧
      n / max 1 (q.req.par 4 (b01 stopCh)).toNat % max 1 (q.req.par 12 0).toNat ≠ 0) ∧
    (∃ (q : MeasRun) (stopCh : Bool) (raw x : Int) (n : Nat) (r : MeasRun) (last : Option Int), n = (if stopCh then q.edgesB else q.edgesA) + 1 ∧
      q.done = false ∧ n % max 1 (q.req.par 4 (b01 stopCh)).toNat = 0 ∧
      (q.req.mode = 2 → n / max 1 (q.req.par 4 (b01 stopCh)).toNat % max 1 (q.req.par 12 0).toNat = 0) ∧
      r = (if stopCh then { q with edgesB := n } else { q with edgesA := n } : MeasRun).settle (some x) ∧
      last = (if stopCh then q.lastB else q.lastA) ∧ ∃ l, last = some l ∧ raw < l + 8 * ns) ∧
    (∃ (q : MeasRun) (stopCh : Bool) (raw x : Int) (n : Nat) (r : MeasRun) (last : Option Int), n = (if stopCh then q.edgesB else q.edgesA) + 1 ∧
      q.done = false ∧ n % max 1 (q.req.par 4 (b01 stopCh)).toNat = 0 ∧
      (q.req.mode = 2 → n / max 1 (q.req.par 4 (b01 stopCh)).toNat % max 1 (q.req.par 12 0).toNat = 0) ∧
      r = (if stopCh then { q with edgesB := n } else { q with edgesA := n } : MeasRun).settle (some x) ∧
      last = (if stopCh then q.lastB else q.lastA) ∧ (∀ l, last = some l → l + 8 * ns ≤ raw)) ∧
    (∃ s : State, s.tiu.run = none) ∧
    (∃ (s : State) (r : MeasRun), s.tiu.run = some r ∧ s.boot.inReset = false ∧ r.isOpen = true ∧ r.done = false) ∧
    (∃ (s : State) (r : MeasRun), s.tiu.run = some r ∧ s.boot.inReset = false ∧ r.isOpen = false ∧ r.done = false ∧ r.req.window = false ∧
      r.req.par 6 0 = 1) ∧
    (∃ (s : State) (r : MeasRun) (t0 : Time) (u : State), s.tiu.run = some r ∧ s.boot.inReset = false ∧ r.isOpen = false ∧ r.done = false ∧
      r.opensAt = some t0 ∧ u = s.elapse (t0 - s.unitNow)) ∧
    (∃ (s : State) (r : MeasRun) (u : State), s.tiu.run = some r ∧ s.boot.inReset = false ∧ r.isOpen = false ∧ r.done = false ∧
      r.req.window = false ∧ r.req.par 9 0 ≠ 0 ∧ u = s.until (r.armedAt + (r.req.par 9 0).toNat * ms) ∧ r.req.par 10 0 = 1) ∧
    (∃ (s : State) (r : MeasRun) (u : State), s.tiu.run = some r ∧ s.boot.inReset = false ∧ r.isOpen = false ∧ r.done = false ∧
      r.req.window = false ∧ r.req.par 9 0 ≠ 0 ∧ u = s.until (r.armedAt + (r.req.par 9 0).toNat * ms) ∧ r.req.par 10 0 ≠ 1) ∧
    (∃ (s : State) (r : MeasRun) (d : EdgeIn), s.tiu.run = some r ∧ s.boot.inReset = false ∧ r.isOpen = true ∧ r.done = false ∧
      r.takes false d = false ∧ r.takes true d = false) ∧
    (∃ (s : State) (r : MeasRun) (d : EdgeIn), s.tiu.run = some r ∧ s.boot.inReset = false ∧ r.isOpen = true ∧ r.done = false ∧
      r.takes false d = true ∧ r.within (rawA s d) = true ∧ cellFault d.a = false ∧ r.takes true d = false) ∧
    (∃ (s : State) (r : MeasRun) (d : EdgeIn), s.tiu.run = some r ∧ s.boot.inReset = false ∧ r.isOpen = true ∧ r.done = false ∧
      r.takes false d = false ∧ r.takes true d = true ∧ r.within (rawB s d) = true ∧ cellFault d.b = false) ∧
    (∃ (s : State) (r : MeasRun) (d : EdgeIn) (u : State), s.tiu.run = some r ∧ s.boot.inReset = false ∧ r.isOpen = true ∧ r.done = false ∧
      u = (s.until (d.a.coarse * prb)).takeFit d.ref ∧ r.takes false d = true ∧ r.within (rawA s d) = true ∧ cellFault d.a = false ∧
      r.takes true d = true ∧ r.within (rawB s d) = true ∧ cellFault d.b = false ∧ (r.offer false (rawA s d) (u.unitTime (rawA s d))).done = false) ∧
    (∃ (s : State) (r : MeasRun) (d : EdgeIn) (i : Fin 3), s.tiu.run = some r ∧ s.boot.inReset = false ∧ r.isOpen = true ∧ r.done = false ∧
      fld s.tiu.stat 10 2 = i.val ∧ r.takes false d = true ∧ r.within (rawA s d) = true ∧ cellFault d.a = true ∧ r.takes true d = false) ∧
    (∃ (s : State) (r : MeasRun), s.tiu.run = some r ∧ s.boot.inReset = false ∧ r.isOpen = false ∧ r.done = false) ∧
    (∃ (s : State) (r : MeasRun) (l : Time), s.tiu.run = some r ∧ s.boot.inReset = false ∧ r.isOpen = true ∧ r.done = false ∧
      r.gateLen = some l ∧ s.tiu.queue = []) ∧
    (∃ (s : State) (r : MeasRun) (m : MeasReq) (rest : List MeasReq), s.tiu.run = some r ∧ s.boot.inReset = false ∧ r.done = true ∧
      s.tiu.queue = m :: rest ∧ s.tiu.user ≠ 3) :=
  ⟨⟨{ measRun true interval with starts := [(0, false)] }, 1000000 * ns, 0, by decide +kernel⟩,
   ⟨{ measRun true interval with starts := [(0, false)] }, 1000000 * ns + 1, 0, by decide +kernel⟩,
   ⟨measRun true interval, 0, by intro a h; cases h⟩,
   ⟨measRun true [(4, [2, 1])], false, _, rfl, by decide +kernel⟩, ⟨measRun true [(1, [2]), (4, [1, 1]), (12, [3])], false, _, rfl, by decide +kernel⟩,
   ⟨{ measRun true interval with lastA := some 0 }, false, 8 * ns - 1, 5, _, _, _, rfl, rfl, by decide +kernel, by decide +kernel, rfl, rfl,
     0, rfl, by decide⟩,
   ⟨{ measRun true interval with lastB := some 0 }, true, 8 * ns, 5, _, _, _, rfl, rfl, by decide +kernel, by decide +kernel, rfl, rfl,
     by intro l h; cases h; decide⟩,
   ⟨tiu 0 0 none, by decide +kernel⟩, ⟨measuring (measRun true []), _, rfl, by decide +kernel⟩,
   ⟨measuring (measRun false interval), _, rfl, by decide +kernel⟩,
   ⟨measuring (measRun false interval), _, 7, _, rfl, by decide +kernel, rfl, rfl, rfl, rfl⟩,
   ⟨measuring (measRun false [(1, [1]), (9, [5]), (10, [1])]), _, _, rfl, by decide +kernel, rfl, rfl, by decide +kernel, by decide +kernel, rfl,
     by decide +kernel⟩,
   ⟨measuring (measRun false [(1, [1]), (9, [5]), (10, [0])]), _, _, rfl, by decide +kernel, rfl, rfl, by decide +kernel, by decide +kernel, rfl,
     by decide +kernel⟩,
   ⟨measuring (measRun true interval), _, edge 2 0, rfl, by decide +kernel⟩,
   ⟨measuring (measRun true interval), _, edge 0 0, rfl, by decide +kernel⟩,
   ⟨measuring (measRun true interval), _, edge 1 0, rfl, by decide +kernel⟩,
   ⟨measuring (measRun true ((2, [0, 0]) :: (13, [1000]) :: interval)), _, edge 0 0, _, rfl, by decide +kernel, rfl, rfl, rfl, by decide +kernel⟩,
   ⟨measuring (measRun true interval), _, edge 0 130, 0, rfl, by decide +kernel⟩,
   ⟨measuring (measRun false interval), _, rfl, by decide +kernel⟩,
   ⟨measuring (measRun true interval), _, 1000 * ns, rfl, by decide +kernel⟩,
   ⟨(measuring { measRun true interval with done := true }).modTiu fun t => { t with queue := [waitingMeas] }, _, waitingMeas, [], rfl,
     by decide +kernel⟩⟩

/-! ### Witnesses: registers, transports, links, resets, starts -/

/-- The PCIe link is up at ×16, 32 GT/s. -/
def upPcie : State := upLinks fun l => { l with pcieWidth := 16, pcieRate := 32, resetFlags := [] }

theorem witness_RegisterWindowTakesWrites :
    (∃ s : State, s.windowOpen = false) ∧
    (∃ (s : State) (ag : Agent), ag = .pcie ∧ s.links.inReset .pcie = true) ∧
    (∃ (s : State) (ag : Agent) (off : BitVec 24) (data : BitVec 64), s.windowOpen = true ∧ (ag = .pcie → s.links.inReset .pcie = false) ∧
      off.toNat % 4 ≠ 0 ∧ data.getLsbD 0 = true) ∧
    (∃ (s : State) (ag : Agent) (off : BitVec 24), s.windowOpen = true ∧ (ag = .pcie → s.links.inReset .pcie = false) ∧ off.toNat % 8 = 0) ∧
    (∃ s : State, s.boot.inReset = true) ∧ (∃ (s : State) (off : BitVec 24), s.boot.inReset = false ∧ off.toNat % 4 = 0) ∧
    (∃ (s : State) (off : BitVec 24) (n : Nat), s.boot.inReset = false ∧ off.toNat % 4 ≠ 0 ∧ s.windowOpen = true ∧ n ≠ 0) ∧
    (∃ (s : State) (off : BitVec 24), s.boot.inReset = false ∧ off.toNat % 4 ≠ 0 ∧ s.windowOpen = false) ∧
    (∃ s : State, s.boot.inReset = false ∧ s.ev.pend.getLsbD 246 = false) :=
  ⟨⟨State.reset, by decide +kernel⟩, ⟨upLinks fun l => { l with resetFlags := [.pcie] }, .pcie, rfl, by decide +kernel⟩,
   ⟨upPcie, .pcie, 0xFFFFFF, 1, by decide +kernel⟩, ⟨up, .spi, 0xFFFFF8, by decide +kernel⟩,
   ⟨State.reset, by decide +kernel⟩, ⟨up, 0xFFFFFC, by decide +kernel⟩, ⟨up, 1, 1, by decide +kernel⟩,
   ⟨{ up with glb := { up.glb with stat := 2 } }, 2, by decide +kernel⟩, ⟨upEv fun e => { e with pend := 0 }, by decide +kernel⟩⟩

/-- Command ring 0 changed. -/
def upCr (f : CmdRing → CmdRing) : State := up.modCr 0 f
/-- The bytes of TIME_QUERY as a host writes them. -/
def timeBytes : List Byte := le 2 0x0603 ++ zeros 10 ++ le 4 16

theorem witness_CommandsArriveOnEveryTransport :
    (∃ (s : State) (n : Fin 4), s.boot.inReset = false ∧ bit s.links.cr[n].ctl 0 = false) ∧
    (∃ (s : State) (n : Fin 4) (v : Word), s.boot.inReset = false ∧ bit s.links.cr[n].ctl 0 = true ∧ s.links.cr[n].busy.getLsbD (fld v 0 6) = true) ∧
    (∃ (s : State) (n : Fin 4) (v : Word) (bytes held : List Byte) (c : Instr), s.boot.inReset = false ∧ bit s.links.cr[n].ctl 0 = true ∧
      s.links.cr[n].busy.getLsbD (fld v 0 6) = false ∧ held = bytes ++ ((assoc s.links.cr[n].req (fld v 0 6)).getD []).drop bytes.length ∧
      request c = some (packetOf (.ring n) held false)) ∧
    (∃ (bs : List Byte) (c : Instr), request c = some (packetOf .spi bs true)) ∧
    (∃ (s : State) (n : Fin 4), s.boot.inReset = false ∧ NoneWaits s ∧ s.links.cr[n].waiting = []) ∧
    (∃ (s : State) (n : Fin 4) (v : Word) (b : List Byte) (bs : List (List Byte)), s.boot.inReset = false ∧ NoneWaits s ∧
      s.links.cr[n].waiting = b :: bs ∧
      ({ s.links.cr[n] with rtail := (s.links.cr[n].rtail &&& 0xFFFFF800) ||| (v &&& 0x7FF) } : CmdRing).full = false) ∧
    (∃ s : State, s.boot.inReset = false ∧ s.links.spiWaiting = []) ∧
    (∃ (s : State) (b : List Byte) (bs : List (List Byte)), s.boot.inReset = false ∧ s.links.spiWaiting = b :: bs) ∧
    (∃ (s : State) (x : I2cXfer), s.boot.inReset = false ∧ bit s.clk.ckg0 8 = false ∧ x.failed = true) ∧
    (∃ (s : State) (x : I2cXfer), s.boot.inReset = false ∧ bit s.clk.ckg0 8 = true ∧ x.failed = false ∧ x.wr.length ≤ 32 ∧ x.rd.length ≤ 32) ∧
    (∃ (s : State) (x : I2cXfer), s.boot.inReset = false ∧ bit s.clk.ckg0 8 = true ∧ x.failed = true) ∧
    (∃ (s : State) (x : I2cXfer), s.boot.inReset = false ∧ bit s.clk.ckg0 8 = true ∧ x.failed = false ∧ 32 < x.wr.length) :=
  ⟨⟨upCr fun r => { r with ctl := 0 }, 0, by decide +kernel⟩, ⟨upCr fun r => { r with ctl := 1, busy := 1 }, 0, 0, by decide +kernel⟩,
   ⟨upCr fun r => { r with ctl := 1, busy := 0 }, 0, 0, timeBytes, timeBytes, .timeQuery (packetOf (.ring 0) timeBytes false).2,
     by decide +kernel, by decide +kernel,
     by decide +kernel, by decide +kernel, by decide +kernel⟩,
   ⟨timeBytes, .timeQuery (packetOf .spi timeBytes true).2, by decide +kernel⟩,
     ⟨up, 0, by decide +kernel, by unfold NoneWaits; decide +kernel, by decide +kernel⟩,
   ⟨upCr fun r => { r with waiting := [[1]], rsize := 4, ctl := 1 }, 0, 3, [1], [], by decide +kernel, by unfold NoneWaits; decide +kernel,
     by decide +kernel⟩,
   ⟨up, by decide +kernel⟩, ⟨upLinks fun l => { l with spiWaiting := [[1]] }, [1], [], by decide +kernel⟩,
   ⟨gates 0, { addr := 0x50, wr := [], rd := [], failed := true }, by decide +kernel⟩,
   ⟨gates 0x7FF, { addr := 0x50, wr := [], rd := [], failed := false }, by decide +kernel⟩,
   ⟨gates 0x7FF, { addr := 0x50, wr := [], rd := [], failed := true }, by decide +kernel⟩,
   ⟨gates 0x7FF, { addr := 0x50, wr := List.replicate 33 0, rd := [], failed := false }, by decide +kernel⟩⟩

/-- A stream ring with a descriptor that the device owns. -/
def upSr : State := upPcie.modLinks fun l => { l with sr := l.sr.set 0 { l.sr[0] with ctl := 1, descs := [{ addr := 0, len := 65536, own := true }], modHeld := true } }
/-- A record that waits for stream ring 0. -/
def waiting : TxItem :=
  { stream := 0, zone := none, record := .profile [1, 2, 3, 4], urgent := true, bulk := false, arrived := 0, links := [.pcie], seq0 := none, cut :=
    0, ring := 0,
    sent := 0, inPool := false, cls := 0 }

/-- A stream ring changed. -/
def upRing (f : StreamRing → StreamRing) : State := upPcie.modLinks fun l => { l with sr := l.sr.set 0 (f l.sr[0]) }

theorem witness_PcieLinkAndStreamRings :
    (∃ (s : State) (l : PcieLink), s.boot.inReset = false ∧ l.width = s.links.pcieWidth ∧ l.rate = s.links.pcieRate) ∧
    (∃ (s : State) (l : PcieLink), s.boot.inReset = false ∧ s.links.pcieWidth = 0 ∧ l.width = 0) ∧
    (∃ (s : State) (l : PcieLink), s.boot.inReset = false ∧ s.links.pcieWidth = 0 ∧ l.width ≠ 0) ∧
    (∃ (s : State) (l : PcieLink) (i : SessIx) (r : Fin 4), s.boot.inReset = false ∧ s.links.pcieWidth ≠ 0 ∧ l.width = 0 ∧
      s.sessions[i].isOpen = true ∧
      s.sessions[i].transport = .ring r) ∧
    (∃ (s : State) (l : PcieLink), s.boot.inReset = false ∧ s.links.pcieWidth ≠ 0 ∧ l.width ≠ 0 ∧
      (l.width ≠ s.links.pcieWidth ∨ l.rate ≠ s.links.pcieRate) ∧
      s.ladle.place.linkUsed .pcie ≤ (s.modLinks fun x => { x with pcieWidth := l.width, pcieRate := l.rate }).linkCap .pcie ∧
      (l.width < s.links.pcieWidth ∨ l.rate < s.links.pcieRate)) ∧
    (∃ (s : State) (n : Fin 64) (v : Word) (k : Nat), s.boot.inReset = false ∧
      k = (fld v 0 16 + s.links.sr[n].entries - fld s.links.sr[n].tail 0 16 % s.links.sr[n].entries) % s.links.sr[n].entries ∧
      bit s.links.sr[n].ctl 0 = true ∧ s.links.sr[n].starved = none ∧ s.links.sr[n].descs = [] ∧ k = 0) ∧
    (∃ (s : State) (n : Fin 64) (v : Word) (k : Nat), s.boot.inReset = false ∧
      k = (fld v 0 16 + s.links.sr[n].entries - fld s.links.sr[n].tail 0 16 % s.links.sr[n].entries) % s.links.sr[n].entries ∧
      s.links.sr[n].ready = true ∧ k = 1) ∧
    (∃ (s : State) (n : Fin 64), s.boot.inReset = false ∧ bit s.links.sr[n].ctl 0 = false) ∧
    (∃ (s : State) (n : Fin 64) (d : SrDesc) (ds : List SrDesc) (it : TxItem), s.boot.inReset = false ∧ bit s.links.sr[n].ctl 0 = true ∧
      s.links.sr[n].descs = d :: ds ∧ d.own = true ∧ s.links.pcieWidth ≠ 0 ∧ s.nextForRing n.val = some it) ∧
    (∃ (s : State) (n : Fin 64), s.boot.inReset = false ∧ s.links.sr[n].modHeld = false) ∧
    (∃ (s : State) (n : Fin 64), s.boot.inReset = false ∧ s.links.sr[n].modHeld = true) :=
  ⟨⟨up, { width := up.links.pcieWidth, rate := up.links.pcieRate }, by decide +kernel⟩, ⟨up, { width := 0, rate := 32 }, by decide +kernel⟩,
   ⟨up, { width := 16, rate := 32 }, by decide +kernel⟩,
   ⟨upPcie.modSess 0 fun y => { y with transport := .ring 0 }, { width := 0, rate := 0 }, 0, 0, by decide +kernel⟩,
   ⟨upPcie, { width := 8, rate := 32 }, by decide +kernel⟩,
   ⟨upRing fun r => { r with ctl := 1, size := 4, tail := 3, starved := none, descs := [] }, 0, 3, _, by decide +kernel, rfl, by decide +kernel⟩,
   ⟨upRing fun r => { r with ctl := 1, size := 4, tail := 0xF, descs := [{ addr := 0, len := 64, own := true }] }, 0, 0, _, by decide +kernel, rfl,
     by decide +kernel⟩,
   ⟨upRing fun r => { r with ctl := 0 }, 0, by decide +kernel⟩,
   ⟨{ upSr with streams := { upSr.streams with queue := [waiting] } }, 0, { addr := 0, len := 65536, own := true }, [], waiting, by decide +kernel⟩,
   ⟨upRing fun r => { r with modHeld := false }, 0, by decide +kernel⟩, ⟨upRing fun r => { r with modHeld := true }, 0, by decide +kernel⟩⟩

/-- Ethernet port 0 changed. -/
def upEth (f : Eth → Eth) : State := up.modEth 0 f

theorem witness_EthernetPortsFailAndReturn :
    (∃ (s : State) (n : Fin 2), s.boot.inReset = false ∧ bit s.links.eth[n].stat 0 = true ∧ bit s.links.eth[n].link 27 = true) ∧
    (∃ (s : State) (n : Fin 2) (u : State), s.boot.inReset = false ∧ s.links.eth[n].inService = true ∧ bit s.links.eth[n].stat 0 = false ∧
      u = s.until (s.links.eth[n].downSince + ms)) ∧
    (∃ (s : State) (n : Fin 2) (u : State), s.boot.inReset = false ∧ s.links.eth[n].inService = true ∧ bit s.links.eth[n].stat 0 = true ∧
      s.links.eth[n].resolvedNow = false ∧ u = s.until (s.links.eth[n].unresSince + sec)) ∧
    (∃ (s : State) (n : Fin 2), s.boot.inReset = false ∧ s.links.eth[n].inService = false) ∧
    (∃ (s : State) (n : Fin 2), s.boot.inReset = false ∧ bit s.links.eth[n].stat 0 = true ∧ s.links.eth[n].resolvedNow = true) ∧
    (∃ (s : State) (n : Fin 2), s.boot.inReset = false ∧ s.links.eth[n].goodSince = none) ∧
    (∃ (s : State) (n : Fin 2) (t0 : Time), s.boot.inReset = false ∧ s.links.eth[n].goodSince = some t0 ∧ bit s.links.eth[n].stat 1 = true) ∧
    (∃ (s : State) (n : Fin 2), s.boot.inReset = false ∧ bit s.links.eth[n].stat 0 = false) ∧
    (∃ (s : State) (n : Fin 2), s.boot.inReset = false ∧ bit s.links.eth[n].stat 2 = false) ∧
    (∃ (s : State) (n : Fin 2), s.boot.inReset = false ∧ s.links.eth[n].pauseFail = true) ∧
    (∃ (s : State) (n : Fin 2), s.boot.inReset = false ∧ bit s.links.eth[n].stat 2 = true ∧ s.links.eth[n].pauseFail = false) ∧
    (∃ (s : State) (n : Fin 2) (target : BitVec 128), s.boot.inReset = false ∧ bit s.links.eth[n].stat 0 = true ∧ bit s.links.eth[n].link 27 = true ∧
      target ≠ addr128 s.links.eth[n].ip) := by
  refine ⟨⟨upEth fun e => { e with stat := 1, link := 0x08000000 }, 0, by decide +kernel⟩,
    ⟨upEth fun e => { e with stat := 0, link := 0x08000000 }, 0, _, by decide +kernel, by decide +kernel, by decide +kernel, rfl⟩,
    ⟨upEth fun e => { e with stat := 1, link := 0x08000000, resolved := none }, 0, _, by decide +kernel, by decide +kernel, by decide +kernel,
      by decide +kernel, rfl⟩,
    ⟨upEth fun e => { e with stat := 3, link := 0x08000000 }, 0, by decide +kernel⟩,
    ⟨upEth fun e => { e with stat := 1, resolved := some 5 }, 0, by decide +kernel⟩,
    ⟨upEth fun e => { e with goodSince := none }, 0, by decide +kernel⟩,
    ⟨upEth fun e => { e with stat := 3, goodSince := some 4 }, 0, 4, by decide +kernel⟩,
    ⟨upEth fun e => { e with stat := 0 }, 0, by decide +kernel⟩, ⟨upEth fun e => { e with stat := 3 }, 0, by decide +kernel⟩,
    ⟨upEth fun e => { e with pauseFail := true }, 0, by decide +kernel⟩,
      ⟨upEth fun e => { e with stat := 5, pauseFail := false }, 0, by decide +kernel⟩,
    ⟨upEth fun e => { e with stat := 1, link := 0x08000000 }, 0, 77, by decide +kernel⟩⟩

/-- The device clock follows PTP. -/
def upPtp : State := { upWith [setting .device 0 0x1B01 [1]] with links := { up.links with tportUp := true }, time := { up.time with receiving :=
  true } }

/-- An announce message of sender `n`. -/
def announced (n : BitVec 64) : Announce :=
  { sender := n, priority1 := 128, clockClass := 6, accuracy := 0x21, variance := 0, priority2 := 128, grandmaster := n, steps := 0 }
/-- The receiver follows sender 7; the offset is good since 0. -/
def upFollow : State := { upPtp with time := { upPtp.time with transmitter := some 7, masters := [announced 7], goodSince := some 0, locked := true
                                                               mono := 60 * sec } }
/-- The servo follows PPS, with REF10 qualified. -/
def upPps : State := { (tiu 1 0xC none) with settings := [setting .device 0 0x1B01 [2]] }
/-- What the offset is that an exchange shows. -/
def shown (s : State) (t1 t2 t3 t4 : Int) : Int := Int.fdiv ((t2 - t1) - (t4 - t3)) 2 - s.settings.getI .device 0 0 0x1B05 0 0

theorem witness_TimingPortDisciplinesTheClock :
    (∃ s : State, s.boot.inReset = false ∧ s.settings.dev 0x1B01 ≠ 1) ∧ (∃ s : State, s.boot.inReset = false ∧ s.links.tportUp = false) ∧
    (∃ (s : State) (dom : Nat), s.boot.inReset = false ∧ dom ≠ s.settings.dev 0x1B02) ∧
    (∃ (s : State) (a : Announce) (heard : List Announce), s.boot.inReset = false ∧ s.settings.dev 0x1B01 = 1 ∧ s.links.tportUp = true ∧
      heard = (s.time.masters.filter fun x => x.sender != a.sender) ++ [a] ∧ bestMaster heard = some a ∧
      s.time.transmitter ≠ some a.sender ∧ s.time.receiving = false) ∧
    (∃ (s : State) (tx : BitVec 64), s.boot.inReset = false ∧ s.time.transmitter ≠ some tx) ∧
    (∃ (s : State) (tx : BitVec 64) (t1 t2 t3 t4 : Int), s.boot.inReset = false ∧ s.settings.dev 0x1B01 = 1 ∧ s.links.tportUp = true ∧
      s.time.transmitter = some tx ∧ s.settings.dev 0x1B06 * 65536 < (shown s t1 t2 t3 t4).natAbs ∧ 100 * ns < (shown s t1 t2 t3 t4).natAbs) ∧
    (∃ (s : State) (tx : BitVec 64) (t1 t2 t3 t4 : Int) (g : Time), s.boot.inReset = false ∧ s.settings.dev 0x1B01 = 1 ∧ s.links.tportUp = true ∧
      s.time.transmitter = some tx ∧ (shown s t1 t2 t3 t4).natAbs ≤ s.settings.dev 0x1B06 * 65536 ∧ (shown s t1 t2 t3 t4).natAbs ≤ 100 * ns ∧
      s.time.goodSince = some g ∧ g + 60 * sec ≤ s.time.mono) ∧
    (∃ (s : State) (tx : BitVec 64) (t1 t2 t3 t4 : Int), s.boot.inReset = false ∧ s.settings.dev 0x1B01 = 1 ∧ s.links.tportUp = true ∧
      s.time.transmitter = some tx ∧ s.time.locked = true ∧ s.settings.dev 0x1B06 * 65536 < 2 * (shown s t1 t2 t3 t4).natAbs) ∧
    (∃ (s : State) (up : Bool), s.boot.inReset = false ∧ s.links.tportUp = (!up) ∧ up = true) ∧
    (∃ (s : State) (up : Bool), s.boot.inReset = false ∧ s.links.tportUp = (!up) ∧ up = false ∧ s.time.receiving = true) ∧
    (∃ (s : State) (up : Bool), s.boot.inReset = false ∧ s.links.tportUp = (!up) ∧ up = false ∧ s.time.receiving = false) ∧
    (∃ s : State, s.boot.inReset = false ∧ s.settings.dev 0x1B01 = 1 ∧ s.time.receiving = true) ∧
    (∃ s : State, s.boot.inReset = false ∧ s.time.receiving = false) ∧
    (∃ (s : State) (t0 : Time) (edge : Nat) (off : Int) (u : State) (d : Int) (here : Nat × Nat) (good onTime : Bool), s.boot.inReset = false ∧
      u = s.until t0 ∧
      d = (if 2 * (u.time.dev % sec) < sec then ((u.time.dev % sec : Nat) : Int) else ((u.time.dev % sec : Nat) : Int) - (sec : Nat)) ∧
      here = (edge, (u.time.dev + sec / 2) / sec) ∧ good = decide (off.natAbs ≤ 20 * ns) ∧
      onTime = decide (s.tiu.ppsLast.map (fun l => l.1 + 10000000) = some edge) ∧ bit s.tiu.stat 2 = true ∧ s.settings.dev 0x1B01 = 2 ∧
      d.natAbs ≤ s.settings.dev 0x1B06 * 65536) ∧
    (∃ s : State, s.boot.inReset = false ∧ bit s.tiu.stat 2 = false ∧ s.settings.dev 0x1B01 ≠ 2) :=
  ⟨⟨upPps, by decide +kernel⟩, ⟨upLinks fun l => { l with tportUp := false }, by decide +kernel⟩, ⟨up, 255, by decide +kernel⟩,
   ⟨{ upPtp with time := { upPtp.time with receiving := false, transmitter := none } }, announced 9, _, by decide +kernel, by decide +kernel,
     by decide +kernel, rfl, by decide +kernel⟩,
   ⟨upFollow, 8, by decide +kernel⟩, ⟨upFollow, 7, 0, 13107200000, 0, 0, by decide +kernel⟩,
   ⟨upFollow, 7, 0, 0, 0, 0, 0, by decide +kernel⟩, ⟨upFollow, 7, 0, 0, 0, 13107200000, by decide +kernel⟩,
   ⟨upLinks fun l => { l with tportUp := false }, true, by decide +kernel⟩, ⟨upFollow, false, by decide +kernel⟩,
   ⟨{ upPtp with time := { upPtp.time with receiving := false } }, false, by decide +kernel⟩, ⟨upFollow, by decide +kernel⟩,
   ⟨{ upPtp with time := { upPtp.time with receiving := false } }, by decide +kernel⟩,
   ⟨upPps, 0, 5, 0, _, _, _, _, _, by decide +kernel, rfl, rfl, rfl, rfl, rfl, by decide +kernel⟩, ⟨tiu 1 0 none, by decide +kernel⟩⟩

/-- A boot record in progress. -/
def bootRec : BootRec :=
  { result := 0, bootCnt := 1, tStart := 0, cause := 0, fwSlot := 0, lastStep := 3, fwVer := 0, outcomes := [], tReady := 0 }

theorem witness_ResetsLeaveWhatTheTableSays :
    (∃ s : State, s.boot.inReset = false ∧ s.links.pcieWidth ≠ 0) ∧ (∃ s : State, s.boot.inReset = false ∧ s.links.pcieWidth = 0) ∧
    (∃ s : State, s.boot.inReset = true) ∧
    (∃ (s : State) (r : BootRec) (rs : List BootRec), s.boot.inReset = false ∧ bit s.glb.stat 5 = false ∧ bit s.boot.bootStat 0 = false ∧
      s.boot.journal = r :: rs) ∧
    (∃ s : State, bit s.glb.stat 5 = true) ∧ (∃ s : State, s.boot.railsOff = true) ∧ (∃ s : State, s.boot.railsOff = false) ∧
    (∃ s : State, s.boot.inReset = false ∧ s.links.tportUp = true) := by
  refine ⟨⟨upPcie, by decide +kernel⟩, ⟨up, by decide +kernel⟩, ⟨State.reset, by decide +kernel⟩, ?_, ⟨up, by decide +kernel⟩,
    ⟨up.modBoot fun b => { b with railsOff := true }, by decide +kernel⟩, ⟨up, by decide +kernel⟩, ⟨upPtp, by decide +kernel⟩⟩
  exact ⟨{ up with glb := { up.glb with stat := 3 }, boot := { up.boot with bootStat := 0, journal := [bootRec] } }, bootRec, [],
    by decide +kernel, by decide +kernel, by decide +kernel, rfl⟩

/-- A slot that passes no check. -/
def badSlot : FlashSlot := { goodSlot with signed := false }

theorem witness_StartsBootTheBlock :
    (∃ (s : State) (b : BootEnv), (∀ r ∈ b.steps, r.timedOut = false) ∧ s.boot.journal = [] ∧
      (usedSlot b s.boot.journal .run s.boot.rollback).isSome = true ∧ b.stacksUp ≠ 0) ∧
    (∃ (s : State) (b : BootEnv), (∀ r ∈ b.steps, r.timedOut = false) ∧ s.boot.journal = [] ∧
      (usedSlot b s.boot.journal .run s.boot.rollback).isSome = false) ∧
    (∃ s : State, s.boot.railsOff = true) ∧ (∃ s : State, s.boot.railsOff = false) ∧ (∃ s : State, s.aon.pwrEnMain = true) ∧
    (∃ s : State, s.aon.pwrEnMain = false ∧ fld s.boot.wake1 0 16 * 2 ^ 32 + s.boot.wake0.toNat ≠ 0) ∧
    (∃ s : State, s.aon.pwrEnMain = false ∧ fld s.boot.wake1 0 16 * 2 ^ 32 + s.boot.wake0.toNat = 0) ∧
    (∃ (s : State) (p : BitVec 64) (u : State), u = s.modLinks (fun l => { l with
      scan := .extest p, scanPins := .driven p, rindPins := if s.rind.sealSt = .sealed ∨ s.rind.powered = false then .functional else .driven p })) :=
  ⟨⟨State.reset, goodBoot, by decide +kernel⟩, ⟨State.reset, { goodBoot with slots := [badSlot, badSlot] }, by decide +kernel⟩,
   ⟨up.modBoot fun b => { b with railsOff := true }, by decide +kernel⟩, ⟨up, by decide +kernel⟩,
   ⟨{ up with aon := { up.aon with pwrEnMain := true } }, by decide +kernel⟩,
   ⟨{ up with aon := { up.aon with pwrEnMain := false }, boot := { up.boot with wake0 := 1 } }, by decide +kernel⟩,
   ⟨{ up with aon := { up.aon with pwrEnMain := false }, boot := { up.boot with wake0 := 0, wake1 := 0 } }, by decide +kernel⟩, ⟨up, 0, _, rfl⟩⟩

/-! ### Witnesses: frames, pings, the Press, the Ladle, captures -/

/-- Port 0 in a frame under a plan of two groups. -/
def plan2 : Settings := [setting .port 0 0x1001 [2], setting .port 0 0x1002 [2], setting .port 0 0x1003 [16], setting .port 0 0x1006 [65536],
  setting .port 0 0x1005 [64]]
def framing (f : Port → Port) : State := upP fun q => f { q with plan := plan2, frameStart := some 0, holdGate := false, frozen := false }
/-- Pipeline 0 serves port 0. -/
def upPipe (src : Word) (d : Bool) : State := { up with pipes := up.pipes.set 0 { src := src, dropping := d } }

/-- A state in which group 0 of port 0 may launch, its tap read by converter 0. -/
def lit : State :=
  { (framing fun q => { q with plan := q.plan ++ [setting .port 0 0x0201 [1]], reopen := false, lockResume := false, dark := .none, stat := 0 }) with
    clk := { up.clk with stat := 0x60 } }
def tap0 : TapStamp := { read := blankRead, ref := { first := 0, reads := [] } }

theorem witness_FramesLaunchAndBuffersDrop :
    (∃ (s : State) (p : PortIx) (g : Fin 16), s.ports[p].frameStart = none ∨ planG s.ports[p].plan p.val ≤ g.val ∨ s.ports[p].holdGate = true) ∧
    (∃ (s : State) (p : PortIx) (g : Fin 16) (f : Time), s.ports[p].frameStart = some f ∧ g.val < planG s.ports[p].plan p.val ∧
      s.ports[p].holdGate = false ∧ ¬ MayLaunch s p g.val) ∧
    (∃ (s : State) (p : PortIx) (g : Fin 16) (tap : TapStamp) (f : Time), s.ports[p].frameStart = some f ∧ g.val < planG s.ports[p].plan p.val ∧
      s.ports[p].holdGate = false ∧ MayLaunch s p g.val ∧ s.tiu.launchHeld = true ∧ cellFault tap.read = false ∧
      inDead (s.tiu.lastTap.map (·.raw)) ((s.tiu.convN s.tiu.launch).a.raw (12 + p.val) tap.read) = false) ∧
    (∃ (s : State) (p : PortIx) (g : Fin 16) (tap : TapStamp) (f : Time) (l : LastTap), s.ports[p].frameStart = some f ∧
      g.val < planG s.ports[p].plan p.val ∧ s.ports[p].holdGate = false ∧ MayLaunch s p g.val ∧ cellFault tap.read = false ∧
      s.tiu.lastTap = some l ∧ inDead (s.tiu.lastTap.map (·.raw)) ((s.tiu.convN s.tiu.launch).a.raw (12 + p.val) tap.read) = true) ∧
    (∃ (s : State) (p : PortIx), s.ports[p].frozen = true) ∧
    (∃ (s : State) (p : PortIx) (f : Time), s.ports[p].frameStart = some f ∧ s.ports[p].frozen = false ∧
      s.heldForCommit p (f + frameTime s.ports[p].plan p.val) = false ∧ s.leaving = false ∧
      s.ports[p].resumePending = true ∧ s.ports[p].epochPending = true ∧ s.ports[p].dark = .armed ∧ bit s.clk.stat 5 = true) ∧
    (∃ (s : State) (p : PortIx) (f : Time), s.ports[p].frameStart = some f ∧ s.ports[p].frozen = false ∧ s.leaving = true) ∧
    (∃ (s : State) (n : PipeIx), bit s.pipes[n].src 5 = false ∧ s.pipes[n].dropping = false) ∧
    (∃ (s : State) (n : PipeIx) (p : PortIx), bit s.pipes[n].src 5 = true ∧ s.pipes[n].dropping = false ∧ fld s.pipes[n].src 0 5 = p.val) ∧
    (∃ (s : State) (n : PipeIx), s.pipes[n].dropping = true) ∧
    (∃ (s : State) (n : Fin 96), n.val < 94 ∧ s.clk.paceRamp[n] = true) ∧
    (∃ (s : State) (n : Fin 96) (margin : Nat), n.val < 94 ∧ s.clk.paceRamp[n] = false ∧ s.boot.inReset = false ∧ margin < 64 ∧
      bit s.clk.pace[n] 24 = false) ∧
    (∃ (s : State) (n : Fin 96), 94 ≤ n.val ∧ s.boot.inReset = false) :=
  ⟨⟨up, 0, 0, by decide +kernel⟩, ⟨framing id, 0, 1, 0, by decide +kernel, by decide +kernel, by decide +kernel, fun h => absurd h.2.1 (by decide +kernel)⟩,
   ⟨lit, 0, 0, tap0, 0, by decide +kernel, by decide +kernel, by decide +kernel, by unfold MayLaunch; decide +kernel, by decide +kernel⟩,
   ⟨lit.modTiu fun t => { t with lastTap := some { raw := 0, at' := 0, stamp := 0, conv := 0 } }, 0, 0, tap0, 0,
     { raw := 0, at' := 0, stamp := 0, conv := 0 }, by decide +kernel, by decide +kernel, by decide +kernel, by unfold MayLaunch; decide +kernel,
     by decide +kernel⟩,
   ⟨upP fun q => { q with frozen := true }, 0, by decide +kernel⟩,
   ⟨(framing fun q => { q with resumePending := true, epochPending := true, dark := .armed }).modClk fun c => { c with stat := 0x60 }, 0, 0,
     by decide +kernel⟩,
   ⟨(framing id).modBoot fun b => { b with pwrStat := 5 }, 0, 0, by decide +kernel⟩,
   ⟨upPipe 0 false, 0, by decide +kernel⟩,
   ⟨upPipe 0x20 false, 0, 0, by decide +kernel⟩, ⟨upPipe 0x20 true, 0, by decide +kernel⟩,
   ⟨upClk fun c => { c with paceRamp := Vector.replicate 96 true }, 93, by decide +kernel⟩,
   ⟨upClk fun c => { c with paceRamp := Vector.replicate 96 false }, 93, 63, by decide +kernel⟩, ⟨up, 94, by decide +kernel⟩⟩

/-- A ping in flight. -/
def ping (old launched : Bool) : PingTag :=
  { group := 0, old := old, cfg := none, stamp := 5, at' := 0, calX := none, calY := none, derived := false, launched := launched, restart := false }
/-- A zone at the exact rate, on the raster of 1 kHz, with a chain and a band. -/
def exactSet : Settings := plan2 ++ [setting .zone 5 0x1701 [0], setting .zone 5 0x1703 [47], setting .zone 5 0x1301 [1], setting .zone 5 0x1302 [10000],
  setting .zone 5 0x1305 [1], setting .zone 5 0x1306 [10]]
def upZone (chains : List Chain) (last : Option Time) : State :=
  { upWith exactSet with zones := [{ ZoneRt.fresh 5 with chains := chains, lastOut := last, bands := [{ filt := [], out := [] }] }] }
/-- A chain of strain-rate with the inputs `ins`. -/
def exactChain (ins : List Sample) : Chain := { product := 1, cfg := exactSet, epoch := 0, base := 0, ins := ins, closed := false }
def late : List Sample := [{ t := sec, vals := [7], flags := [0] }]

/-- Every column of every product has its inputs, to be evaluated. -/
def inputsB (r : ZoneRt) (z : Nat) (c0 : Chain) (i : Time) : Bool :=
  [1, 2, 3].all fun pr => (List.range (zonePts c0.cfg z)).all fun col =>
    match chainAt (chainsOf r z pr) z col i with
    | some c => c.ready z col (gridNo i (c0.cfg.zone z 0x1302)) (c0.cfg.zone z 0x1302)
    | none => true
theorem inputs_there {r : ZoneRt} {z : Nat} {c0 : Chain} {i : Time} (h : inputsB r z c0 i = true) : InputsThere r z c0 i := by
  intro pr hpr col hcol c hc
  rw [inputsB, List.all_eq_true] at h
  have h1 := h pr (by simp; omega)
  rw [List.all_eq_true] at h1
  have h2 := h1 col (List.mem_range.mpr hcol)
  rw [hc] at h2
  exact h2
theorem inputs_missing {r : ZoneRt} {z : Nat} {c0 : Chain} {i : Time} (pr col : Nat) (c : Chain) (h : (1 ≤ pr ∧ pr ≤ 3) ∧ col < zonePts c0.cfg z ∧
    chainAt (chainsOf r z pr) z col i = some c ∧ c.ready z col (gridNo i (c0.cfg.zone z 0x1302)) (c0.cfg.zone z 0x1302) = false) :
    ¬ InputsThere r z c0 i := by
  intro k
  have := k pr h.1 col h.2.1 c h.2.2.1
  rw [h.2.2.2] at this
  cases this
/-- Port 0 tracks delay, with delay records, and an anchor to take in. -/
def delaying (a : Option (Int × Time)) : State :=
  { upP (fun q => { q with delay := { q.delay with pendingAnchor := a } }) with settings :=
    [setting .port 0 0x0201 [4], setting .port 0 0x1508 [10]] }

/-- Sixteen pings of power 100 in 20 bins and none beyond, over a floor of 0: every bin that has its window within the ping stands above it. -/
def ended : State :=
  (framing fun q => { q with group0 := List.replicate 16 (List.replicate 20 100), frameNo := 16, endFrame := 0 })

/-- The last bin above the floor, to be evaluated. -/
def aboveB (s : State) (z : Nat) : Bool :=
  decide (8 ≤ z) && decide (z + 8 ≤ nBins s.ports[(0 : PortIx)].plan 0) && decide (4 * s.floorOf (0 : PortIx) 0 * 16 * 16 ≤
    ((((List.range (nBins s.ports[(0 : PortIx)].plan 0)).map fun y =>
      s.ports[(0 : PortIx)].group0.foldl (fun a l => a + l.getD y 0) 0).drop (z - 8)).take 16).foldl (· + ·) 0)
theorem above_iff (s : State) (z : Nat) : AboveFloor s 0 z ↔ aboveB s z = true := by
  simp [AboveFloor, aboveB, and_assoc]

theorem witness_PingsAndIntervalsAreProcessed :
    (∃ (s : State) (p : PortIx) (g : Fin 16), s.ports[p].pings.find? (fun t => t.group == g.val) = none) ∧
    (∃ (s : State) (p : PortIx) (g : Fin 16) (tag : PingTag), s.ports[p].pings.find? (fun t => t.group == g.val) = some tag ∧ tag.old = false ∧
      tag.launched = false ∧ s.leaving = false) ∧
    (∃ (s : State) (p : PortIx) (g : Fin 16) (tag : PingTag), s.ports[p].pings.find? (fun t => t.group == g.val) = some tag ∧ tag.old = true ∧
      s.leaving = false) ∧
    (∃ (s : State) (p : PortIx) (g : Fin 16) (tag : PingTag), s.ports[p].pings.find? (fun t => t.group == g.val) = some tag ∧ g.val ≠ 0 ∧
      s.leaving = false) ∧
    (∃ (s : State) (p : PortIx), s.ports[p].group0.length < 16) ∧ (∃ (s : State) (p : PortIx), s.ports[p].frameNo < s.ports[p].endFrame + 16) ∧
    (∃ (s : State) (p : PortIx), 16 ≤ s.ports[p].group0.length ∧ s.ports[p].endFrame + 16 ≤ s.ports[p].frameNo ∧ ∀ z, ¬ AboveFloor s p z) ∧
    (∃ (s : State) (p : PortIx) (z : Nat), 16 ≤ s.ports[p].group0.length ∧ s.ports[p].endFrame + 16 ≤ s.ports[p].frameNo ∧ AboveFloor s p z ∧
      ∀ y, z < y → ¬ AboveFloor s p y) ∧
    (∃ (s : State) (z : ZoneIx), s.zoneRt z.val = none) ∧
    (∃ (s : State) (z : ZoneIx) (r : ZoneRt) (i : Time), s.zoneRt z.val = some r ∧ GridChain r z.val i = none) ∧
    (∃ (s : State) (z : ZoneIx) (i : Time) (r : ZoneRt) (c : Chain), s.zoneRt z.val = some r ∧ GridChain r z.val i = some c ∧
      onGrid i (c.cfg.zone z.val 0x1302) = false) ∧
    (∃ (s : State) (z : ZoneIx) (i : Time) (r : ZoneRt) (c : Chain) (l : Time), s.zoneRt z.val = some r ∧ GridChain r z.val i = some c ∧
      r.lastOut = some l ∧ i ≤ l) ∧
    (∃ (s : State) (z : ZoneIx) (i : Time) (r : ZoneRt) (c : Chain), s.zoneRt z.val = some r ∧ GridChain r z.val i = some c ∧
      ¬ InputsThere r z.val c i) ∧
    (∃ (s : State) (z : ZoneIx) (i : Time) (r : ZoneRt) (c : Chain), s.zoneRt z.val = some r ∧ GridChain r z.val i = some c ∧
      onGrid i (c.cfg.zone z.val 0x1302) = true ∧ (∀ l, r.lastOut = some l → l < i) ∧ s.forms z.val = true ∧ InputsThere r z.val c i) ∧
    (∃ (s : State) (z : ZoneIx) (r : ZoneRt), s.zoneRt z.val = some r ∧ r.bands = []) ∧
    (∃ (s : State) (z : ZoneIx) (r : ZoneRt) (e : Time), s.zoneRt z.val = some r ∧ r.bands ≠ [] ∧ zoneBands s.settings z.val ≠ 0 ∧
      s.settings.zone z.val 0x1306 ≠ 0 ∧ e = nextEnd r.featEnd s.time.dev (sec / s.settings.zone z.val 0x1306)) ∧
    (∃ (s : State) (p : PortIx), s.settings.mode p.val 2 = false ∨ s.settings.port p.val 0x1508 = 0) ∧
    (∃ (s : State) (p : PortIx) (per e : Nat) (a : Int) (ta : Time), s.settings.mode p.val 2 = true ∧ s.settings.port p.val 0x1508 ≠ 0 ∧
      per = sec / s.settings.port p.val 0x1508 ∧ e = nextEnd s.ports[p].delay.lastEnd s.time.dev per ∧
      s.ports[p].delay.pendingAnchor = some (a, ta) ∧ ta ≤ e - per + per / 2) ∧
    (∃ (s : State) (p : PortIx) (per e : Nat) (a : Int) (ta : Time), s.settings.mode p.val 2 = true ∧ s.settings.port p.val 0x1508 ≠ 0 ∧
      per = sec / s.settings.port p.val 0x1508 ∧ e = nextEnd s.ports[p].delay.lastEnd s.time.dev per ∧
      s.ports[p].delay.pendingAnchor = some (a, ta) ∧ e - per + per / 2 < ta) := by
  refine ⟨⟨up, 0, 0, by decide +kernel⟩, ⟨upP fun q => { q with pings := [ping false false] }, 0, 0, ping false false, by decide +kernel⟩,
    ⟨upP fun q => { q with pings := [ping true true] }, 0, 0, ping true true, by decide +kernel⟩,
    ⟨upP fun q => { q with pings := [{ ping true true with group := 15 }] }, 0, 15, { ping true true with group := 15 }, by decide +kernel⟩,
    ⟨up, 0, by decide +kernel⟩, ⟨upP fun q => { q with frameNo := 15, endFrame := 0 }, 0, by decide +kernel⟩,
    ⟨upP fun q => { q with group0 := List.replicate 16 [], frameNo := 16, endFrame := 0 }, 0, by decide +kernel, by decide +kernel, ?_⟩,
    ⟨ended, 0, 8184, by decide +kernel, by decide +kernel, (above_iff _ _).mpr (by decide +kernel), ?_⟩, ⟨up, 5, by decide +kernel⟩,
    ⟨upZone [] none, 5, _, 0, rfl, by decide +kernel⟩, ⟨upZone [exactChain []] none, 5, 1, _, exactChain [], rfl, by decide +kernel⟩,
    ⟨upZone [exactChain []] (some 0), 5, 0, _, exactChain [], 0, rfl, by decide +kernel, rfl, by decide⟩,
    ⟨upZone [exactChain []] none, 5, 0, _, exactChain [], rfl, by decide +kernel, inputs_missing 1 0 (exactChain []) (by decide +kernel)⟩,
    ⟨upZone [exactChain late] none, 5, 0, _, exactChain late, rfl, by decide +kernel, by decide +kernel, (by intro l h; cases h), by decide +kernel,
      inputs_there (by decide +kernel)⟩,
    ⟨{ up with zones := [ZoneRt.fresh 5] }, 5, _, rfl, rfl⟩,
    ⟨upZone [] none, 5, _, _, rfl, by simp, by decide +kernel, by decide +kernel, rfl⟩, ⟨up, 0, by decide +kernel⟩,
    ⟨delaying (some (0, 0)), 0, _, _, 0, 0, by decide +kernel, by decide +kernel, rfl, rfl, by decide +kernel⟩,
    ⟨delaying (some (0, 10 * sec)), 0, _, _, 0, 10 * sec, by decide +kernel, by decide +kernel, rfl, rfl, by decide +kernel⟩⟩
  · intro z h
    have hb : nBins (upP fun q => { q with group0 := List.replicate 16 [], frameNo := 16, endFrame := 0 }).ports[(0 : PortIx)].plan 0 = 0 := by
      decide +kernel
    have h2 := h.2.1
    simp only [Fin.val_zero] at h2
    omega
  · have hb : nBins ended.ports[(0 : PortIx)].plan 0 = 8192 := by decide +kernel
    intro y hy h
    have h2 := h.2.1
    simp only [Fin.val_zero] at h2
    omega

/-- A frame of curd data of zone 5 of no rows, at a Press lane. -/
def frame0 : CurdFrame :=
  { product := 0, zone := 5, port := 0, band := 0, native := (true), earlyClose := false, reanalysis := false, width := 4,
    head := { gauge := 10, epoch := 0, scale := 0, outGain := 0, rate := 0, pointStep := 1 }, firstPoint := 0, nCols := 0, frameSeq :=
      0, capture := 0, rows := [], press := none }
/-- Press lane 0 changed. -/
def upLane (f : PressLane → PressLane) : State := up.modPress 0 f
/-- A lane in service without work, and one that drains. -/
def free0 (l : PressLane) : PressLane := { l with ctl := 9, stat := 0, blocks := [] }
def laneJob (lane : Option Nat) (running : Bool) : HostJob :=
  { desc := job 7, lane := lane, running := running, setAside := false, cancel := false, cls := 2, arrived := 0 }
/-- The Cave's accesses go on, or stand still. -/
def caved (s : State) : State := { s with clk := { s.clk with stat := 0x80 }, links := { s.links with resetFlags := [] } }
def uncaved : State := upClk fun c => { c with stat := 0 }

theorem witness_PressLanesCodeAndRunJobs :
    (∃ s : State, ¬ CaveOpen s) ∧ (∃ (s : State) (n : PressIx), s.press[n].blocks = []) ∧
    (∃ (s : State) (n : PressIx), CaveOpen s ∧ s.press[n].blocks ≠ []) ∧
    (∃ (s : State) (n : PressIx), CaveOpen s ∧ s.pressOk n.val = false) ∧
    (∃ (s : State) (n : PressIx), CaveOpen s ∧ ∃ j ∈ GivenJobs s, j.lane = some n.val ∧ j.running = true) ∧
    (∃ (s : State) (n : PressIx), CaveOpen s ∧ ∀ j ∈ GivenJobs s, j.lane ≠ some n.val) ∧
    (∃ (s : State) (n : PressIx) (j : HostJob), CaveOpen s ∧ s.pressOk n.val = true ∧ s.press[n].blocks = [] ∧
      (∀ x ∈ GivenJobs s, x.lane = some n.val → x.running = false) ∧ (GivenJobs s).find? (fun x => x.lane == some n.val) = some j) ∧
    (∃ (s : State) (n : PressIx), s.jobs.find? (fun j => j.lane == some n.val && j.running) = none) ∧
    (∃ (s : State) (n : PressIx) (j : HostJob), CaveOpen s ∧ s.jobs.find? (fun j => j.lane == some n.val && j.running) = some j ∧
      s.boot.inReset = false ∧ bit s.press[n].ctl 3 = true) ∧
    (∃ s : State, s.boot.inReset = true) ∧
    (∃ (s : State) (n : PressIx) (v : Word), s.boot.inReset = false ∧ bit v 1 = true ∧ bit v 0 = bit s.press[n].ctl 0) ∧
    (∃ (s : State) (n : PressIx) (v : Word), s.boot.inReset = false ∧ bit v 1 = false ∧ bit v 0 = bit s.press[n].ctl 0) ∧
    (∃ (s : State) (n : PressIx) (v : Word), s.boot.inReset = false ∧ bit v 1 = false ∧ bit s.press[n].ctl 0 = false ∧ bit v 0 = true) ∧
    (∃ (s : State) (n : PressIx) (v : Word), s.boot.inReset = false ∧ bit s.press[n].ctl 0 = true ∧ bit v 0 = false ∧ bit v 1 = false ∧
      fld s.press[n].stat 8 12 ≠ 0) ∧
    (∃ (s : State) (n : PressIx) (v : Word), s.boot.inReset = false ∧ bit s.press[n].ctl 0 = true ∧ bit v 0 = false ∧ bit v 1 = false ∧
      fld s.press[n].stat 8 12 = 0 ∧ ∀ j ∈ s.jobs, j.lane = some n.val → j.running = false) ∧
    (∃ (s : State) (n : PressIx), (fld s.press[n].stat 0 3 = 3 ∧ ∀ j ∈ s.jobs, j.lane = some n.val → j.running = false) ∧ s.boot.inReset = false) ∧
    (∃ (s : State) (n : PressIx), ¬ (fld s.press[n].stat 0 3 = 3 ∧ ∀ j ∈ s.jobs, j.lane = some n.val → j.running = false)) ∧
    (∃ (s : State) (n : PressIx), s.boot.inReset = false ∧ ∀ m ∈ s.ladle.migrations, m.source = .press n → m.shadow = false) :=
  ⟨⟨uncaved, fun h => absurd h.1 (by decide +kernel)⟩, ⟨up, 0, by decide +kernel⟩,
   ⟨caved (upLane fun l => { l with blocks := [{ frame := frame0, blockSeq := 0, pars := [], cls := 1, arrived := 0 }] }), 0,
     by unfold CaveOpen; decide +kernel, (by intro h; cases h)⟩,
   ⟨caved (upLane fun l => { l with ctl := 0 }), 0, by unfold CaveOpen; decide +kernel, by decide +kernel⟩,
   ⟨caved { up with jobs := [laneJob (some 0) true] }, 0, by unfold CaveOpen; decide +kernel, by unfold GivenJobs; decide +kernel⟩,
   ⟨caved { up with jobs := [laneJob (some 1) false] }, 0, by unfold CaveOpen; decide +kernel, by unfold GivenJobs; decide +kernel⟩,
   ⟨caved { upLane free0 with jobs := [laneJob (some 0) false] }, 0, laneJob (some 0) false, by unfold CaveOpen; decide +kernel,
     by unfold GivenJobs; decide +kernel⟩,
   ⟨up, 0, by decide +kernel⟩,
   ⟨caved { upLane free0 with jobs := [laneJob (some 0) true] }, 0, laneJob (some 0) true, by unfold CaveOpen; decide +kernel, by decide +kernel⟩,
   ⟨State.reset, by decide +kernel⟩,
   ⟨upLane free0, 0, 3, by decide +kernel⟩, ⟨upLane free0, 0, 9, by decide +kernel⟩, ⟨upLane fun l => { l with ctl := 8 }, 0, 9, by decide +kernel⟩,
   ⟨upLane fun l => { l with ctl := 9, stat := 0x100 }, 0, 0, by decide +kernel⟩, ⟨upLane free0, 0, 0, by decide +kernel⟩,
   ⟨upLane fun l => { l with stat := 3 }, 0, by decide +kernel⟩,
   ⟨upLane fun l => { l with stat := 0 }, 0, fun h => absurd h.1 (by decide +kernel)⟩, ⟨up, 0, by decide +kernel⟩⟩

/-- The Ladle changed. -/
def upLadle (f : Ladle → Ladle) : State := up.modLadle f
/-- A migration of a Press lane's work. -/
def migrating : Migration := { source := .press 0, target := .press 1, retire := false, reserve := false, shadow := false, tries := 0 }
/-- A commit whose instants stand. -/
def commitOf (done : Bool) (touched : List Nat) : Commit :=
  { owner := none, target := [], keys := [], removes := [], placement := { pipes := [], insts := [], press := [], cave := [], links := [], rings :=
    [] },
    fixed := true, moved := false, a1 := 0, tC := 0, tLast := 0, restarted := [], touched := touched, deviceDone := done }

def commitFree : Commit := { (commitOf false [0]) with fixed := false }
def commitOwned (done : Bool) (touched : List Nat) : Commit := { (commitOf done touched) with owner := some (0, 0x0301, pkt []) }

/-- Waiting migrations, with the work that they move. -/
def moving (l : List Migration) : State := upLadle fun x => { x with migrations := l, place := { x.place with press := [(5, 0, 1000)], pipes := [(0, 0)] } }
/-- A pipeline in its shadow frame. -/
def shadowed : Migration := { migrating with source := .pipeline 0, target := .pipeline 1, shadow := true }

/-- Everything that is set finds its place, to be evaluated. -/
def placedOk (s : State) : Bool := match placeAll s s.settings s.settings false with | .ok _ => true | .error _ => false
theorem placed_ok {s : State} (h : placedOk s = true) : ∃ pl, placeAll s s.settings s.settings false = .ok pl := by
  unfold placedOk at h
  split at h
  · exact ⟨_, ‹_›⟩
  · cases h

theorem witness_LadleMovesWork :
    (∃ (s : State) (n : PipeIx) (p : PortIx) (k : Nat), s.boot.inReset = false ∧ (∀ m ∈ s.ladle.migrations, m.source = .pipeline n → m.shadow = false) ∧
      s.ladle.place.pipes.find? (fun x => x.2 == n.val) = some (p.val, k)) ∧
    (∃ (s : State) (u : UnitName), s.boot.inReset = false ∧ (∀ m ∈ s.ladle.migrations, m.source = u → m.shadow = false) ∧
      (∀ n : LaneIx, u ≠ .lane n) ∧ u = .vernier 2) ∧
    (∃ (s : State) (n : PipeIx) (m : Migration), s.boot.inReset = false ∧ (∀ x ∈ s.ladle.migrations, x.target ≠ .pipeline n) ∧
      s.ladle.migrations.find? (fun x => x.source == .pipeline n && x.shadow) = some m) ∧
    (∃ (s : State) (n : LaneIx), ∀ m ∈ s.ladle.migrations, m.target ≠ .lane n ∧ m.source ≠ .lane n) ∧
    (∃ (s : State) (u : UnitName), u ∉ s.ladle.tests) ∧
    (∃ (s : State) (u : UnitName), u ∈ s.ladle.tests ∧ siteOf u ≠ none ∧ s.boot.inReset = false ∧ ∀ m ∈ s.ladle.migrations, m.target ≠ u) ∧
    (∃ (s : State) (n : Fin 3), UnitName.vernier n ∈ s.ladle.tests ∧ vernierOk goodVernier = true ∧ vernierOk badVernier = false) ∧
    (∃ (s : State) (i : Fin 94), 1000 ≤ s.ladle.drift[i].length ∧ bit s.ladle.wear[i] 16 = true) ∧
    (∃ s : State, ∀ i : Fin 94, s.ladle.drift[i].length < 1000) ∧
    (∃ (s : State) (u : UnitName), ∀ m ∈ s.ladle.migrations, m.source ≠ u) ∧
    (∃ (s : State) (m : Migration), s.ladle.migrations.find? (fun x => x.source == m.source) = some m ∧ m.target ∈ s.ladle.tests) ∧
    (∃ (s : State) (m : Migration), s.ladle.migrations.find? (fun x => x.source == m.source) = some m ∧ ¬ AtHandover s m) ∧
    (∃ (s : State) (m : Migration), s.ladle.migrations.find? (fun x => x.source == m.source) = some m ∧ s.roomFor m = false) ∧
    (∃ (s : State) (m : Migration) (i : Fin 94), s.boot.inReset = false ∧ s.ladle.migrations.find? (fun x => x.source == m.source) = some m ∧
      m.target ∉ s.ladle.tests ∧ AtHandover s m ∧ s.roomFor m = true ∧ m.source ≠ m.target ∧ siteOf m.target = some i) ∧
    (∃ s : State, s.ladle.shed = [] ∧ s.ladle.shedPorts = []) ∧
    (∃ (s : State) (l : List (Nat × Nat)) (z w : Nat) (pl : Placement), s.ladle.shed = l ++ [(z, w)] ∧ w ≠ 4 ∧
      placeAll (s.modLadle fun x => { x with shed := l }) s.settings s.settings false = .ok pl) ∧
    (∃ s : State, NoneWaits s ∧ s.commits = []) ∧
    (∃ (s : State) (c : Commit) (cs : List Commit), NoneWaits s ∧ s.commits = c :: cs ∧ c.fixed = false) ∧
    (∃ (s : State) (c : Commit) (cs : List Commit), NoneWaits s ∧ s.commits = c :: cs ∧ c.fixed = true ∧ c.deviceDone = false ∧ c.touched ≠ []) ∧
    (∃ (s : State) (c : Commit) (cs : List Commit) (p : PortIx), NoneWaits s ∧ s.commits = c :: cs ∧ c.deviceDone = true ∧ p.val ∉ c.touched) ∧
    (∃ (s : State) (c : Commit) (cs : List Commit) (p : PortIx), NoneWaits s ∧ s.commits = c :: cs ∧ c.fixed = true ∧ p.val ∈ c.touched ∧
      s.inShadow p.val = false ∧ c.deviceDone = false) ∧
    (∃ (s : State) (c : Commit) (cs : List Commit), NoneWaits s ∧ s.commits = c :: cs ∧ c.fixed = true ∧ c.owner ≠ none ∧ s.boot.inReset = false ∧
      c.deviceDone = false ∧ c.touched = []) ∧
    (∃ (s : State) (c : Commit) (cs : List Commit) (p : PortIx), NoneWaits s ∧ s.commits = c :: cs ∧ c.fixed = true ∧ c.owner ≠ none ∧
      s.boot.inReset = false ∧ c.deviceDone = true ∧ s.inShadow p.val = false ∧ p.val ∈ c.touched ∧ ∀ x ∈ c.touched, x = p.val) := by
  refine ⟨⟨upLadle fun l => { l with place := { l.place with pipes := [(0, 0)] } }, 0, 0, 0, by decide +kernel⟩,
   ⟨up, .vernier 2, by decide +kernel, (by decide +kernel), (fun n h => by cases h), rfl⟩,
   ⟨moving [shadowed], 0, shadowed, by decide +kernel⟩, ⟨up, 0, by decide +kernel⟩, ⟨up, .pipeline 0, by decide +kernel⟩,
   ⟨upLadle fun l => { l with tests := [.pipeline 0] }, .pipeline 0, by decide +kernel⟩,
   ⟨upLadle fun l => { l with tests := [.vernier 1] }, 1, by decide +kernel⟩,
   ⟨upLadle fun l => { l with drift := l.drift.set 93 (List.replicate 1000 5), wear := l.wear.set 93 0x10000 }, 93, by decide +kernel⟩,
   ⟨up, by decide +kernel⟩, ⟨up, .pipeline 0, by decide +kernel⟩,
   ⟨(moving [migrating]).modLadle fun l => { l with tests := [.press 1] }, migrating, by decide +kernel⟩,
   ⟨moving [{ shadowed with shadow := false }], { shadowed with shadow := false }, by decide +kernel, (by intro h; cases h)⟩,
   ⟨upLadle fun l => { l with migrations := [shadowed], place := { l.place with pipes := [(0, 0), (1, 1)] } }, shadowed,
     by decide +kernel⟩,
   ⟨moving [migrating], migrating, _, by decide +kernel, by decide +kernel, by decide +kernel, trivial, by decide +kernel,
     by decide, rfl⟩,
   ⟨up, by decide +kernel⟩, ?_, ⟨up, by unfold NoneWaits; decide +kernel, by decide +kernel⟩,
   ⟨{ up with commits := [commitFree] }, commitFree, [], by unfold NoneWaits; decide +kernel, rfl, rfl⟩,
   ⟨{ up with commits := [commitOf false [0]] }, commitOf false [0], [], by unfold NoneWaits; decide +kernel, rfl, by decide +kernel⟩,
   ⟨{ up with commits := [commitOf true [0]] }, commitOf true [0], [], 1, by unfold NoneWaits; decide +kernel, rfl, by decide +kernel⟩,
   ⟨{ up with commits := [commitOf false [0]] }, commitOf false [0], [], 0, by unfold NoneWaits; decide +kernel, rfl, by decide +kernel⟩,
   ⟨{ up with commits := [commitOwned false []] }, commitOwned false [], [], by unfold NoneWaits; decide +kernel, rfl,
     by decide +kernel⟩,
   ⟨{ up with commits := [commitOwned true [0]] }, commitOwned true [0], [], 0, by unfold NoneWaits; decide +kernel, rfl,
     by decide +kernel⟩⟩
  have h : placedOk ((upLadle fun x => { x with shed := [(5, 1)] }).modLadle fun x => { x with shed := [] }) = true := by decide +kernel
  obtain ⟨pl, hp⟩ := placed_ok h
  exact ⟨upLadle fun x => { x with shed := [(5, 1)] }, [], 5, 1, pl, by decide +kernel, by decide, hp⟩

/-- A record of zone 5 staged as BULK, in the overflow pool or not. -/
def bulk (inPool : Bool) : TxItem := { waiting with zone := some 5, urgent := false, cls := 1, inPool := inPool }
def staged (it : TxItem) : State := { upZone [] none with streams := { up.streams with queue := [it] } }
/-- A run of discards of zone 5. -/
def run0 : DiscardRun := { cause := 1, since := 0, count := 1, bytes := 4, tFirst := 0, tLast := 0, products := 0, seqFirst := 0, seqLast := 0 }
/-- Zone 5 changed. -/
def zone5 (f : ZoneRt → ZoneRt) : State := { upWith exactSet with zones := [f (ZoneRt.fresh 5)] }

/-- An instance of zone 5 on engine 3, an input block of it in the overflow pool. -/
def inst5 : InstPlace := { zone := 5, index := 0, firstPoint := 0, nPoints := 1, engine := 3 }
def poolBlock : VatIn := { block with inPool := true }
def upInst : State := (upLadle fun l => { l with place := { l.place with insts := [inst5] } }).modEng 3 fun e => { e with input := [poolBlock] }

theorem witness_StagedWorkAgesAndIsDiscarded :
    (∃ s : State, (∀ it ∈ s.streams.queue, it.cls = 0) ∧ (∀ n : PressIx, ∀ b ∈ s.press[n].blocks, b.cls = 0) ∧ (∀ j ∈ s.jobs, j.running = true ∨ j.cls = 0) ∧
      ∀ x ∈ s.ladle.testAges, x.1 ∈ s.ladle.tests → x.2.2 = 0) ∧
    (∃ s : State, s.agingItems ≠ []) ∧
    (∃ s : State, ∃ it ∈ s.streams.queue, it.cls ≠ 0 ∧ (∀ y ∈ s.agingItems, it.arrived + s.ageLimit it.cls ≤ s.ageDue y) ∧
      ∀ y ∈ s.streams.queue, y.cls ≠ 0 → y = it ∨ it.arrived + s.ageLimit it.cls < y.arrived + s.ageLimit y.cls) ∧
    (∃ (s : State) (z : ZoneIx), (∀ it ∈ s.streams.queue, it.zone = some z.val → it.inPool = false ∨ it.seq0.isSome = true) ∧
      ∀ x ∈ s.ladle.place.insts, x.zone = z.val → ∀ b ∈ (s.engN x.engine).input, b.inPool = false) ∧
    (∃ (s : State) (z : ZoneIx) (it : TxItem),
      s.streams.queue.find? (fun x => x.zone == some z.val && x.inPool && x.seq0.isNone) = some it ∧
      (∀ x ∈ s.ladle.place.insts, x.zone = z.val → ∀ b ∈ (s.engN x.engine).input, b.inPool = false) ∧ s.zoneRt z.val ≠ none) ∧
    (∃ (s : State) (z : ZoneIx) (n : EngIx) (b : VatIn), (s.ladle.place.insts.filter (fun x => x.zone == z.val)).findSome? (fun x =>
        ((s.engN x.engine).input.find? fun b => b.inPool).map fun b => (x.engine, b)) = some (n.val, b)) ∧
    (∃ (s : State) (z : ZoneIx), s.zoneRt z.val = none) ∧
    (∃ (s : State) (z : ZoneIx) (r : ZoneRt), s.zoneRt z.val = some r ∧ r.runs = []) ∧
    (∃ (s : State) (z : ZoneIx) (r : ZoneRt), s.zoneRt z.val = some r ∧ r.runs ≠ []) ∧
    (∃ (s : State) (z : ZoneIx), (s.zoneRt z.val).bind (·.drainUntil) = none) ∧
    (∃ (s : State) (z : ZoneIx) (d : Time), (s.zoneRt z.val).bind (·.drainUntil) = some d) ∧
    (∃ s : State, s.boot.inReset = false ∧ (s.links.corrected.filter fun x => decide (s.time.mono < x + sec)).length = 1000) ∧
    (∃ (s : State) (ts : List Int), s.boot.inReset = false ∧ s.sdc.causeTemp = false ∧ ∃ x ∈ ts, 115 * 256 ≤ x) ∧
    (∃ (s : State) (ts : List Int), s.sdc.causeTemp = true ∧ ∀ x ∈ ts, x ≤ 105 * 256) ∧
    (∃ (s : State) (ts : List Int), s.sdc.causeTemp = true ∧ ∃ x ∈ ts, 105 * 256 < x) ∧
    (∃ (s : State) (ts : List Int), s.sdc.warned = false ∧ s.sdc.causeTemp = false ∧ (∃ x ∈ ts, 110 * 256 ≤ x) ∧ ∀ x ∈ ts, x < 115 * 256) ∧
    (∃ (s : State) (ts : List Int), s.sdc.causeTemp = false ∧ ∀ x ∈ ts, x < 110 * 256) := by
  have hq : (staged (bulk false)).agingItems.length = 1 := by decide +kernel
  refine ⟨⟨up, by decide +kernel⟩, ⟨staged (bulk false), fun h => by rw [h] at hq; cases hq⟩,
   ⟨staged (bulk false), bulk false, by simp [staged], by decide, ?_, by intro y hy _; left; simpa [staged] using hy⟩,
   ⟨staged (bulk false), 5, by decide +kernel⟩,
   ⟨staged (bulk true), 5, bulk true, by decide +kernel, by decide +kernel, by decide +kernel⟩, ⟨upInst, 5, 3, poolBlock, by decide +kernel⟩,
   ⟨up, 5, by decide +kernel⟩,
   ⟨zone5 id, 5, _, rfl, rfl⟩, ⟨zone5 fun r => { r with runs := [run0] }, 5, _, rfl, by decide +kernel⟩,
   ⟨up, 5, by decide +kernel⟩, ⟨zone5 fun r => { r with drainUntil := some 9 }, 5, 9, by decide +kernel⟩,
   ⟨upLinks fun l => { l with corrected := List.replicate 1000 0 }, by decide +kernel⟩, ⟨up, [29440], by decide +kernel⟩,
   ⟨upSdc fun c => { c with causeTemp := true }, [26880], by decide +kernel⟩, ⟨upSdc fun c => { c with causeTemp := true }, [26881], by decide +kernel⟩,
   ⟨upSdc fun c => { c with warned := false, causeTemp := false }, [29439], by decide +kernel⟩, ⟨up, [28159], by decide +kernel⟩⟩
  have ha : (staged (bulk false)).agingItems.all (fun y =>
      decide ((bulk false).arrived + (staged (bulk false)).ageLimit (bulk false).cls ≤ (staged (bulk false)).ageDue y)) = true := by decide +kernel
  intro y hy
  exact of_decide_eq_true (List.all_eq_true.mp ha y hy)

/-- Trigger 0 of source 2 has fired; it last captured at `l`. -/
def fired (l : Option Time) (n : Nat) (src : Int) : State :=
  (upTrig src).modLook fun k => { k with
    due := [{ trigger := 0, tTrig := sec, detail := 0 }], trig := k.trig.set 0 { k.trig[0] with last := l }, captures :=
      List.replicate n (capture true) }

theorem witness_CapturesOpenPinAndLeave :
    (∃ s : State, s.look.due = [] ∧ s.timeTriggers = []) ∧
    (∃ (s : State) (f : Firing) (rest : List Firing) (i : Fin 16), s.look.due = f :: rest ∧ f.trigger = i.val ∧
      trigSet s.settings f.trigger = false) ∧
    (∃ (s : State) (f : Firing) (rest : List Firing) (i : Fin 16) (l : Time), s.look.due = f :: rest ∧ f.trigger = i.val ∧
      trigSet s.settings f.trigger = true ∧ s.look.trig[i].last = some l ∧ f.tTrig < l + trigPar s.settings f.trigger 4 * sec) ∧
    (∃ (s : State) (f : Firing) (rest : List Firing) (i : Fin 16) (l : Time), s.look.due = f :: rest ∧ f.trigger = i.val ∧
      trigSet s.settings f.trigger = true ∧ s.look.trig[i].last = some l ∧ l + trigPar s.settings f.trigger 4 * sec ≤ f.tTrig ∧
      64 ≤ s.look.captures.length ∧ s.boot.inReset = false) ∧
    (∃ (s : State) (f : Firing) (rest : List Firing) (i : Fin 16), s.look.due = f :: rest ∧ f.trigger = i.val ∧ trigSet s.settings f.trigger = true ∧
      s.look.trig[i].last = none ∧ s.look.captures.length < 64) ∧
    (∃ s : State, s.look.due = [] ∧ s.timeTriggers ≠ []) ∧
    (∃ (s : State) (id : Nat), s.look.captures.find? (fun c => c.id == id && !c.held) = none) ∧ (∃ s : State, ¬ CaveOpen s) ∧
    (∃ (s : State) (id : Nat) (c : Capture), CaveOpen s ∧ s.look.captures.find? (fun c => c.id == id && !c.held) = some c ∧ c.sections ≠ 0 ∧
      s.boot.inReset = false) ∧
    (∃ (s : State) (id : Nat) (c : Capture), CaveOpen s ∧ s.look.captures.find? (fun c => c.id == id && !c.held) = some c ∧ c.sections = 0) ∧
    (∃ (s : State) (id : Nat), s.look.captures.find? (fun c => c.id == id && c.held) = none) ∧ (∃ s : State, s.settings.dev 0x0217 = 0) ∧
    (∃ (s : State) (id : Nat) (c : Capture), s.look.captures.find? (fun c => c.id == id && c.held) = some c ∧ s.settings.dev 0x0217 ≠ 0) ∧
    (∃ s : State, s.look.jobs = []) ∧ (∃ s : State, CaveOpen s ∧ s.look.jobs ≠ [] ∧ s.boot.inReset = false) :=
  ⟨⟨up, by decide +kernel⟩, ⟨upR id |>.modLook fun k => { k with due := [{ trigger := 0, tTrig := 0, detail := 0 }] }, _, [], 0, rfl, rfl,
    by decide +kernel⟩,
   ⟨fired (some sec) 0 2, _, [], 0, sec, rfl, rfl, by decide +kernel⟩, ⟨fired (some 0) 64 2, _, [], 0, 0, rfl, rfl, by decide +kernel⟩,
   ⟨fired none 63 2, _, [], 0, rfl, rfl, by decide +kernel⟩, ⟨upTrig 3, by decide +kernel⟩, ⟨up, 4, by decide +kernel⟩,
   ⟨uncaved, fun h => absurd h.1 (by decide +kernel)⟩, ⟨caved (upCap false), 4, capture false, by unfold CaveOpen; decide +kernel, by decide +kernel⟩,
   ⟨caved (up.modLook fun l => { l with captures := [{ capture false with sections := 0 }] }), 4, { capture false with sections := 0 },
     by unfold CaveOpen; decide +kernel, by decide +kernel⟩,
   ⟨up, 4, by decide +kernel⟩, ⟨upWith [setting .device 0 0x0217 [0]], by decide +kernel⟩,
   ⟨upCap true, 4, capture true, by decide +kernel⟩, ⟨up, by decide +kernel⟩,
     ⟨caved (up.modLook fun k => { k with jobs := [(4, 0, [], 1, 1)] }), by unfold CaveOpen; decide +kernel, by decide +kernel⟩⟩
end Sys2Proof.Tests
end

/-! SUPPORT. Pointer modifies of the Vat engines (R325, R326): the equations of `Engine.moved`, and the obligation about them. -/

namespace Sys2Proof.Proofs

open Sys2Proof Sys2Proof.Machine

/-- A number below `n` is its own index. -/
theorem ix_of_lt {n v : Nat} (h : v < n) : ix n v = some ⟨v, h⟩ := dif_pos h

/-- A number of `n` or more is no index. -/
theorem ix_of_le {n v : Nat} (h : n ≤ v) : ix n v = none := dif_neg (Nat.not_lt.2 h)

/-- R325: a pointer without a hoop of its own walks linearly. -/
theorem moved_of_four_le (e : Engine) {p : Nat} (step : Int) (h : 4 ≤ p) :
    (e.moved p step : Int) = ((e.ptr p : Int) + step) % 32768 := by
  simp only [Engine.moved, ix_of_le h]
  exact Int.toNat_of_nonneg (Int.emod_nonneg _ (by decide))

/-- R325: a hoop of length 0 leaves its pointer linear. -/
theorem moved_of_hl_eq_zero (e : Engine) {p : Nat} (step : Int) (h : p < 4) (h0 : e.hl[p] = 0) :
    (e.moved p step : Int) = ((e.ptr p : Int) + step) % 32768 := by
  simp only [Engine.moved, ix_of_lt h, Fin.getElem_fin, h0, if_true]
  exact Int.toNat_of_nonneg (Int.emod_nonneg _ (by decide))

/-- R326: the new offset in the hoop, counted from its base. -/
theorem moved_of_hl_ne_zero (e : Engine) {p : Nat} (step : Int) (h : p < 4) (h0 : e.hl[p] ≠ 0) :
    (e.moved p step : Int) =
      ((e.hb[p]).toNat + (((e.ptr p : Int) - (e.hb[p]).toNat) % 32768 + step) % (e.hl[p]).toNat) % 32768 := by
  simp only [Engine.moved, ix_of_lt h, Fin.getElem_fin, if_neg h0]
  exact Int.toNat_of_nonneg (Int.emod_nonneg _ (by decide))

/-- A hoop whose length register is not zero holds at least one word. -/
theorem hl_toNat_pos (e : Engine) {p : Nat} (h : p < 4) (h0 : e.hl[p] ≠ 0) : 0 < (e.hl[p]).toNat :=
  Nat.pos_of_ne_zero fun hz => h0 (BitVec.eq_of_toNat_eq hz)

/-- A pointer `b + r` of a hoop based at `b`, taken modulo the memory's size, has offset `r`. -/
theorem offset_of_based (b r : Int) (h0 : 0 ≤ r) (h : r < 32768) : ((b + r) % 32768 - b) % 32768 = r := by
  omega

/-- R326: whatever the step and wherever the pointer stood, the modify leaves it inside the hoop. -/
theorem moved_inside_hoop (e : Engine) {p : Nat} (step : Int) (h : p < 4) (h0 : e.hl[p] ≠ 0) (hmax : (e.hl[p]).toNat ≤ 32768) :
    ((e.moved p step : Int) - (e.hb[p]).toNat) % 32768 < (e.hl[p]).toNat := by
  have hpos : (0 : Int) < (e.hl[p]).toNat := by exact_mod_cast hl_toNat_pos e h h0
  have hlt := Int.emod_lt_of_pos (((e.ptr p : Int) - (e.hb[p]).toNat) % 32768 + step) hpos
  rw [moved_of_hl_ne_zero e step h h0, offset_of_based _ _ (Int.emod_nonneg _ hpos.ne') (by omega)]
  exact hlt

/-- R326: from the last word of a hoop that does not wrap, the offset one further on is the whole length, hence 0. -/
theorem moved_one_of_last (e : Engine) {p : Nat} (h : p < 4) (h0 : e.hl[p] ≠ 0) (hfit : (e.hb[p]).toNat + (e.hl[p]).toNat ≤ 32768)
    (hlast : e.ptr p + 1 = (e.hb[p]).toNat + (e.hl[p]).toNat) : e.moved p 1 = (e.hb[p]).toNat := by
  have hpos := hl_toNat_pos e h h0
  have hoff : ((e.ptr p : Int) - (e.hb[p]).toNat) % 32768 + 1 = (e.hl[p]).toNat := by omega
  have hmoved := moved_of_hl_ne_zero e 1 h h0
  rw [hoff, Int.emod_self] at hmoved
  omega

/-- Settles O27, from the equation of a modify in each of its three cases (P4 to P7, hoop length 0, hoop). -/
theorem pointersWalkHoops : Obligations.PointersWalkHoops := by
  intro e p step _
  refine ⟨?linear, fun h h0 hmax => ⟨moved_of_hl_ne_zero e step h h0, moved_inside_hoop e step h h0 hmax⟩,
    fun h h0 hfit hlast => moved_one_of_last e h h0 hfit hlast⟩
  case linear =>
    rintro (hhigh | ⟨h, h0⟩)
    · exact moved_of_four_le e step hhigh
    · exact moved_of_hl_eq_zero e step h h0

end Sys2Proof.Proofs

/-! SUPPORT. Occurrences of events (R494): the event block after a coalesced and after a fresh occurrence, and the obligation about them. -/

namespace Sys2Proof.Proofs

open Sys2Proof Sys2Proof.Machine

/-- The counter's own saturating step (R494, R496). -/
theorem counted_count (e : Events) (n : EvIx) :
    ((e.counted n).cfg[n]).count = if (e.cfg[n]).count = 0xFFFF then 0xFFFF else (e.cfg[n]).count + 1 := by
  simp only [Events.counted, Fin.getElem_fin, Vector.getElem_set_self]

/-- Counting touches COUNT of the event's configuration and nothing beside it. -/
theorem counted_cfg_self (e : Events) (n : EvIx) :
    (e.counted n).cfg[n] = { e.cfg[n] with count := ((e.counted n).cfg[n]).count } := by
  simp only [Events.counted, Fin.getElem_fin, Vector.getElem_set_self]

theorem counted_cfg_of_ne (e : Events) {n m : EvIx} (h : m ≠ n) : (e.counted n).cfg[m] = e.cfg[m] :=
  Vector.getElem_set_ne n.isLt m.isLt fun hnm => h (Fin.ext hnm.symm)

/-- Delivery of an event moves at most EVENT_SEQ in the event block. -/
theorem deliver_ev (s : State) (n : EvIx) : ∃ q, (s.deliver n).1.ev = { s.ev with seq := q } := by
  have hmsix : (if s.ev.cfg[n].msix then s.msix s.ev.cfg[n].vector else s).ev = s.ev := by
    split
    · exact msix_ev _ _
    · rfl
  simp only [State.deliver]
  split
  · exact ⟨s.ev.seq + 1, by rw [eventPackets_ev, push_ev, State.modEv_ev, hmsix]⟩
  · exact ⟨s.ev.seq, hmsix⟩

/-- An occurrence that finds the pending bit set is coalesced. -/
theorem occur_of_pending (s : State) (n : EvIx) (hr : s.boot.inReset = false) (hp : s.ev.pend.getLsbD n.val = true) :
    (s.occur n).1 = s.modEv fun e => e.counted n := by
  simp [State.occur, hr, hp]

/-- A fresh occurrence counts and sets the pending bit; its delivery moves at most EVENT_SEQ. -/
theorem occur_ev_of_not_pending (s : State) (n : EvIx) (hr : s.boot.inReset = false) (hp : s.ev.pend.getLsbD n.val = false) :
    ∃ q, (s.occur n).1.ev = { (s.ev.counted n).setPending n s.time.dev s.time.mono with seq := q } := by
  simp only [State.occur, hr, hp, Bool.false_eq_true, if_false]
  split
  · exact deliver_ev _ n
  · exact ⟨s.ev.seq, rfl⟩

/-- Pending or not, an occurrence leaves the configurations as counting does. -/
theorem occur_cfg (s : State) (n : EvIx) (hr : s.boot.inReset = false) : (s.occur n).1.ev.cfg = (s.ev.counted n).cfg := by
  cases hp : s.ev.pend.getLsbD n.val with
  | true => rw [occur_of_pending s n hr hp, State.modEv_ev]
  | false =>
    obtain ⟨q, hev⟩ := occur_ev_of_not_pending s n hr hp
    rw [hev]
    rfl

/-- T_EVENT of a fresh occurrence is its instant in device time. -/
theorem occur_tEvent_of_not_pending (s : State) (n : EvIx) (hr : s.boot.inReset = false) (hp : s.ev.pend.getLsbD n.val = false) :
    (s.occur n).1.ev.tEvent[n] = s.time.dev := by
  obtain ⟨q, hev⟩ := occur_ev_of_not_pending s n hr hp
  simp only [hev, Events.setPending, Fin.getElem_fin, Vector.getElem_set_self]

/-- Bit by bit: the occurrence adds its own pending bit to those that were set. -/
theorem occur_pend_getLsbD (s : State) (n m : EvIx) (hr : s.boot.inReset = false) :
    (s.occur n).1.ev.pend.getLsbD m.val = (s.ev.pend.getLsbD m.val || m == n) := by
  have hone : (1#256 <<< n.val).getLsbD m.val = (m == n) := by
    rw [Bool.eq_iff_iff, beq_iff_eq, Fin.ext_iff]
    simp only [BitVec.getLsbD_shiftLeft, BitVec.getLsbD_one, Bool.and_eq_true, Bool.not_eq_true', decide_eq_true_eq, decide_eq_false_iff_not]
    omega
  rw [occur_pend s n hr, BitVec.getLsbD_or, hone]

/-- Settles O35, by whether the occurrence finds its pending bit set; counting is the same in both cases. -/
theorem eventsAreCountedAndCoalesced : Obligations.EventsAreCountedAndCoalesced := by
  intro s n hr
  have hcfg := occur_cfg s n hr
  refine ⟨?count, ?fresh, ?coalesced⟩
  case count => rw [hcfg]; exact counted_count s.ev n
  case fresh =>
    intro hp
    exact ⟨fun m => occur_pend_getLsbD s n m hr, occur_tEvent_of_not_pending s n hr hp, occur_same s n⟩
  case coalesced =>
    intro hp
    refine ⟨?_, fun m hm => ?_, ?_⟩
    · rw [hcfg]; exact occur_of_pending s n hr hp
    · rw [hcfg]; exact counted_cfg_of_ne s.ev hm
    · rw [hcfg]; exact counted_cfg_self s.ev n

end Sys2Proof.Proofs

/-! SUPPORT. The queue and the byte memories: every operation of the model leaves the queue as it was and the memories in canonical form. -/

namespace Sys2Proof.Proofs

open Sys2Proof Sys2Proof.Machine Sys2Proof.Claims

/-! ### Links and triggers, but for what packets, messages and events move -/

/-- The links but for reply rings, pending messages and waiting SPI packets, and the lookback but for the firings due, stand as they did, and no output
is withdrawn. -/
structure Calm (s t : State) : Prop where
  links : t.links = { s.links with cr := t.links.cr, pba := t.links.pba, spiWaiting := t.links.spiWaiting }
  look : t.look = { s.look with due := t.look.due }
  out : s.out ⊆ t.out

theorem Calm.refl (s : State) : Calm s s := ⟨rfl, rfl, fun _ h => h⟩
theorem Calm.of_eq {s t : State} (h : t.links = s.links) (k : t.look = s.look) (ho : t.out = s.out := by rfl) : Calm s t :=
  ⟨by rw [h], by rw [k], fun o h => by rw [ho]; exact h⟩
theorem Calm.trans {s t u : State} (h : Calm s t) (k : Calm t u) : Calm s u := by
  refine ⟨?_, ?_, fun o ho => k.out (h.out ho)⟩
  · rw [k.links, h.links]
  · rw [k.look, h.look]

theorem Calm.foldl {α : Type} (f : State → α → State) (h : ∀ s a, Calm s (f s a)) (l : List α) (s : State) : Calm s (l.foldl f s) := by
  induction l generalizing s with
  | nil => exact .refl s
  | cons a l ih => exact (h s a).trans (ih _)

theorem Calm.foldl_fst {α β : Type} (f : State × β → α → State × β) (s : State) (h : ∀ acc a, Calm s acc.1 → Calm s (f acc a).1)
    (l : List α) (acc : State × β) (k : Calm s acc.1) : Calm s (l.foldl f acc).1 := by
  induction l generalizing acc with
  | nil => exact k
  | cons a l ih => exact ih _ (h _ _ k)

theorem emit_calm (s : State) (o : Output) : Calm s (s.emit o) := ⟨rfl, rfl, List.subset_append_left ..⟩

theorem msix_calm (s : State) (v : BitVec 8) : Calm s (s.msix v) := by
  unfold State.msix
  split
  · split
    · exact ⟨rfl, rfl, fun _ h => h⟩
    · exact emit_calm ..
  · exact .refl s

theorem modEv_calm (s : State) (f : Events → Events) : Calm s (s.modEv f) := .of_eq rfl rfl
theorem modCr_calm (s : State) (n : Fin 4) (f : CmdRing → CmdRing) : Calm s (s.modCr n f) := ⟨rfl, rfl, fun _ h => h⟩

theorem ringPut_calm (s : State) (n : Fin 4) (bs : List Byte) : Calm s (s.ringPut n bs).1 := by
  simp only [State.ringPut]
  exact ((modCr_calm _ _ _).trans (emit_calm _ _)).trans (msix_calm _ _)

theorem sendEvent_calm (s : State) (t : Transport) (bs : List Byte) : Calm s (s.sendEvent t bs).1 := by
  unfold State.sendEvent
  split
  · split
    · exact .refl s
    · exact ringPut_calm _ _ _
  · split
    · exact emit_calm ..
    · exact .refl s
  · exact ⟨rfl, rfl, fun _ h => h⟩

theorem number_calm (s : State) (it : TxItem) : Calm s (s.number it).1 := by
  unfold State.number
  split
  · exact .refl s
  · exact .of_eq rfl rfl

theorem sendUnits_calm (s : State) (it : TxItem) (l : Link) : Calm s (s.sendUnits it l).1 := by
  simp only [State.sendUnits]
  exact (number_calm s it).trans (Calm.foldl _ (fun _ _ => emit_calm _ _) _ _)

theorem flushStep_calm (s : State) (acc : State × List TxItem) (it : TxItem) (h : Calm s acc.1) : Calm s (flushStep acc it).1 := by
  unfold flushStep
  split
  · exact h.trans (sendUnits_calm _ _ _)
  · exact h

theorem flushEth_calm (s : State) : Calm s s.flushEth := by
  simp only [State.flushEth]
  split
  · exact .refl s
  · exact (Calm.foldl_fst _ s (flushStep_calm s) _ _ (.refl s)).trans (.of_eq rfl rfl)

theorem push_calm (s : State) (n : Nat) (z : Option Nat) (r : Rec) (c : Nat) (b : Bool) : Calm s (s.push n z r c b) := by
  have h : ∀ f : Streams → Streams, Calm s (s.modStreams f) := fun f => .of_eq rfl rfl
  unfold State.push
  exact (h _).trans (flushEth_calm _)

theorem eventPacketTo_calm (s : State) (n : EvIx) (bs : List Byte) (acc : State × Bool) (i : SessIx) (h : Calm s acc.1) :
    Calm s (eventPacketTo n bs acc i).1 := by
  have hs : ∀ (u : State) (f : Session → Session), Calm u (u.modSess i f) := fun u f => .of_eq rfl rfl
  simp only [eventPacketTo]
  split
  · exact (h.trans (hs _ _)).trans (sendEvent_calm _ _ _)
  · exact h

theorem eventPackets_calm (s : State) (n : EvIx) (bs : List Byte) : Calm s (s.eventPackets n bs).1 :=
  Calm.foldl_fst _ s (eventPacketTo_calm s n bs) _ _ (.refl s)

theorem deliver_calm (s : State) (n : EvIx) : Calm s (s.deliver n).1 := by
  have h1 : Calm s (if s.ev.cfg[n].msix then s.msix s.ev.cfg[n].vector else s) := by
    split
    · exact msix_calm _ _
    · exact .refl s
  simp only [State.deliver]
  split
  · exact ((h1.trans (modEv_calm _ _)).trans (push_calm _ _ _ _ _ _)).trans (eventPackets_calm _ _ _)
  · exact h1

theorem occur_calm (s : State) (n : EvIx) : Calm s (s.occur n).1 := by
  have h : Calm s ((s.modEv fun e => (e.counted n).setPending n s.time.dev s.time.mono).fireEvent n.val) := (modEv_calm _ _).trans ⟨rfl, rfl, fun _ h => h⟩
  simp only [State.occur]
  split
  · exact .refl s
  · split
    · dsimp only
      exact modEv_calm _ _
    · split
      · exact h.trans (deliver_calm _ _)
      · exact h

theorem raise_calm (s : State) (n : EvIx) : Calm s (s.raise n) := by
  have h := occur_calm s n
  unfold State.raise
  dsimp only
  split
  · split
    · exact (h.trans (occur_calm _ _)).trans (occur_calm _ _)
    · exact h.trans (occur_calm _ _)
  · exact h

theorem Calm.resetFlags {s t : State} (h : Calm s t) : t.links.resetFlags = s.links.resetFlags := by rw [h.links]

theorem fireEvent_calm (s : State) (n : Nat) : Calm s (s.fireEvent n) := ⟨rfl, rfl, fun _ h => h⟩

theorem raiseN_calm (s : State) (n : Nat) : Calm s (s.raiseN n) := by
  unfold State.raiseN
  split
  · exact raise_calm ..
  · exact .refl s

theorem modStreams_calm (s : State) (f : Streams → Streams) : Calm s (s.modStreams f) := .of_eq rfl rfl

theorem whey_calm (s : State) (n : Nat) (z : Option Nat) (w : Whey) : Calm s (s.whey n z w) := by
  unfold State.whey
  dsimp only
  exact Calm.trans (modStreams_calm s _) (push_calm ..)

theorem wheyZone_calm (s : State) (z : Nat) (w : Whey) : Calm s (s.wheyZone z w) := whey_calm ..

theorem freeSlot_calm (s : State) (t : Transport) (a : BitVec 8) (q : BitVec 32) : Calm s (s.freeSlot t a q) := by
  unfold State.freeSlot
  split
  · exact modCr_calm ..
  · exact .refl s

theorem sendReply_calm (s : State) (t : Transport) (bs : List Byte) : Calm s (s.sendReply t bs) := by
  unfold State.sendReply
  split
  · split
    · exact modCr_calm ..
    · dsimp only
      split
      · exact (ringPut_calm ..).trans (raise_calm ..)
      · exact ringPut_calm ..
  · exact emit_calm ..
  · exact ⟨rfl, rfl, fun _ h => h⟩

theorem sendAll_calm (s : State) (t : Transport) (pk : List (List Byte)) : Calm s (s.sendAll t pk) := Calm.foldl _ (fun _ _ => sendReply_calm ..) _ _

theorem answer_calm (s : State) (op : Nat) (k : Packet) (st : Status) (items : List (List Byte)) : Calm s (s.answer op k st items) :=
  (sendAll_calm ..).trans (freeSlot_calm ..)

theorem modSess_calm (s : State) (i : SessIx) (f : Session → Session) : Calm s (s.modSess i f) := .of_eq rfl rfl

theorem complete_calm (s : State) (i : SessIx) (op : Nat) (k : Packet) (st : Status) (x : Nat) (b : Bool) (items : List (List Byte)) :
    Calm s (s.complete i op k st x b items) := by
  unfold State.complete
  dsimp only
  generalize replyPackets op k st x b items = pk
  have h1 : Calm s (if s.sessions[i].isOpen = true then s.sendAll s.sessions[i].transport pk else s) := by
    split
    · exact sendAll_calm ..
    · exact .refl s
  have h2 := (h1.trans (freeSlot_calm _ k.transport k.session k.seq)).trans (modSess_calm _ i fun y => y.keep k.seq pk)
  split
  · exact h2.trans (raise_calm ..)
  · exact h2


/-- The byte memories of an engine have their canonical form. -/
def EngineOk (e : Engine) : Prop :=
  e.dmem.wf = true ∧ (∀ w : Fin 4, e.win[w].wf = true) ∧ ∀ m, e.lastMem = some m → m.wf = true

/-- An engine whose memories are those of `e`. -/
theorem EngineOk.keep {e f : Engine} (h : EngineOk e) (hd : f.dmem = e.dmem := by rfl) (hw : f.win = e.win := by rfl)
    (hl : f.lastMem = e.lastMem := by rfl) : EngineOk f := by
  unfold EngineOk
  rw [hd, hw, hl]
  exact h

/-- `t` holds the queue of `s`, and canonical byte memories if `s` does; where `still` says so, no island has entered or left reset. -/
structure Tame (still : Bool) (s t : State) : Prop where
  queue : t.pending = s.pending
  memory : s.memOk → t.memOk
  islands : still = true → t.links.resetFlags = s.links.resetFlags

variable {still : Bool} {s u : State}

theorem Tame.refl (s : State) : Tame still s s := ⟨rfl, id, fun _ => rfl⟩
theorem Tame.trans {a b c : State} (h : Tame still a b) (k : Tame still b c) : Tame still a c :=
  ⟨k.queue.trans h.queue, k.memory ∘ h.memory, fun hs => (k.islands hs).trans (h.islands hs)⟩

/-- What keeps queue, host area, engines and islands is tame. -/
theorem Tame.of_eq {t : State} (h : Tame still s u) (hq : t.pending = u.pending) (hh : t.hostArea = u.hostArea) (he : t.engines = u.engines)
    (hl : still = true → t.links.resetFlags = u.links.resetFlags) : Tame still s t :=
  ⟨hq.trans h.queue, fun hs => by have hu := h.memory hs; unfold State.memOk at hu ⊢; rw [hh, he]; exact hu, fun hs => (hl hs).trans (h.islands hs)⟩

/-- What keeps queue, engines and islands, and the form of the host area, is tame. -/
theorem Tame.of_hostArea {t : State} (h : Tame still s u) (hq : t.pending = u.pending) (he : t.engines = u.engines)
    (hh : u.hostArea.wf = true → t.hostArea.wf = true)
    (hl : still = true → t.links.resetFlags = u.links.resetFlags) : Tame still s t :=
  ⟨hq.trans h.queue, fun hs => by have hu := h.memory hs; unfold State.memOk at hu ⊢; rw [he]; exact ⟨hh hu.1, hu.2⟩,
    fun hs => (hl hs).trans (h.islands hs)⟩

/-- Events, records and replies are tame. -/
theorem Tame.same {t : State} (h : Tame still s u) (k : SameWork u t) (q : Calm u t) : Tame still s t :=
  h.of_eq k.pending k.hostArea k.engines fun _ => q.resetFlags

/-- A change of fields other than the queue, the host area and the engines. -/
theorem mk_tame (h : Tame still s u) {out free time glb ev settings commits sessions ports lanes pipes sdc shut emOn clk tiu axc1 rind rindMain images
    loads press jobs savedJobs zones ladle look streams boot aon} :
    Tame still s (State.mk u.pending out free time glb ev settings commits sessions ports lanes pipes sdc shut emOn clk tiu axc1 rind rindMain
      u.engines images loads press jobs savedJobs u.hostArea zones ladle look u.links streams boot aon) := h.of_eq rfl rfl rfl fun _ => rfl

theorem modPort_tame (h : Tame still s u) {p f} : Tame still s (u.modPort p f) := h.of_eq rfl rfl rfl fun _ => rfl
theorem modLane_tame (h : Tame still s u) {p f} : Tame still s (u.modLane p f) := h.of_eq rfl rfl rfl fun _ => rfl
theorem modPipe_tame (h : Tame still s u) {p f} : Tame still s (u.modPipe p f) := h.of_eq rfl rfl rfl fun _ => rfl
theorem modPress_tame (h : Tame still s u) {p f} : Tame still s (u.modPress p f) := h.of_eq rfl rfl rfl fun _ => rfl
theorem modSess_tame (h : Tame still s u) {p f} : Tame still s (u.modSess p f) := h.of_eq rfl rfl rfl fun _ => rfl
theorem modSdc_tame (h : Tame still s u) {f} : Tame still s (u.modSdc f) := h.of_eq rfl rfl rfl fun _ => rfl
theorem modClk_tame (h : Tame still s u) {f} : Tame still s (u.modClk f) := h.of_eq rfl rfl rfl fun _ => rfl
theorem modTiu_tame (h : Tame still s u) {f} : Tame still s (u.modTiu f) := h.of_eq rfl rfl rfl fun _ => rfl
theorem modAxc1_tame (h : Tame still s u) {f} : Tame still s (u.modAxc1 f) := h.of_eq rfl rfl rfl fun _ => rfl
theorem modRind_tame (h : Tame still s u) {f} : Tame still s (u.modRind f) := h.of_eq rfl rfl rfl fun _ => rfl
theorem modRm_tame (h : Tame still s u) {f} : Tame still s (u.modRm f) := h.of_eq rfl rfl rfl fun _ => rfl
theorem modLadle_tame (h : Tame still s u) {f} : Tame still s (u.modLadle f) := h.of_eq rfl rfl rfl fun _ => rfl
theorem modLook_tame (h : Tame still s u) {f} : Tame still s (u.modLook f) := h.of_eq rfl rfl rfl fun _ => rfl
theorem modLinks_tame (h : Tame still s u) {f} (hl : still = true → (f u.links).resetFlags = u.links.resetFlags) :
    Tame still s (u.modLinks f) := h.of_eq rfl rfl rfl hl
theorem modGlb_tame (h : Tame still s u) {f} : Tame still s (u.modGlb f) := h.of_eq rfl rfl rfl fun _ => rfl
theorem modBoot_tame (h : Tame still s u) {f} : Tame still s (u.modBoot f) := h.of_eq rfl rfl rfl fun _ => rfl
theorem modAon_tame (h : Tame still s u) {f} : Tame still s (u.modAon f) := h.of_eq rfl rfl rfl fun _ => rfl
theorem modEv_tame (h : Tame still s u) {f} : Tame still s (u.modEv f) := h.of_eq rfl rfl rfl fun _ => rfl
theorem modStreams_tame (h : Tame still s u) {f} : Tame still s (u.modStreams f) := h.of_eq rfl rfl rfl fun _ => rfl
theorem modEth_tame (h : Tame still s u) {n f} : Tame still s (u.modEth n f) := h.of_eq rfl rfl rfl fun _ => rfl
theorem modCr_tame (h : Tame still s u) {n f} : Tame still s (u.modCr n f) := h.of_eq rfl rfl rfl fun _ => rfl
theorem modSr_tame (h : Tame still s u) {n f} : Tame still s (u.modSr n f) := h.of_eq rfl rfl rfl fun _ => rfl
theorem modZone_tame (h : Tame still s u) {z f} : Tame still s (u.modZone z f) := h.of_eq rfl rfl rfl fun _ => rfl
theorem emit_tame (h : Tame still s u) {o} : Tame still s (u.emit o) := h.of_eq rfl rfl rfl fun _ => rfl
theorem elapse_tame (h : Tame still s u) {d} : Tame still s (u.elapse d) := h.of_eq rfl rfl rfl fun _ => rfl
theorem until_tame (h : Tame still s u) {t} : Tame still s (u.until t) := elapse_tame h
theorem untilDev_tame (h : Tame still s u) {t} : Tame still s (u.untilDev t) := elapse_tame h
theorem fresh_tame_2 (h : Tame still s u) : Tame still s u.fresh.2 := mk_tame h
theorem freshBytes_tame_2 (h : Tame still s u) {n} : Tame still s (u.freshBytes n).2 := mk_tame h
theorem freshId_tame_2 (h : Tame still s u) {b l} : Tame still s (u.freshId b l).2 := mk_tame h
theorem onPort_tame (h : Tame still s u) {p f} : Tame still s (u.onPort p f) :=
  h.of_eq (State.onPort_pending ..) (State.onPort_hostArea ..) (State.onPort_engines ..) fun _ => by rw [State.onPort_links]
theorem onPipe_tame (h : Tame still s u) {p f} : Tame still s (u.onPipe p f) :=
  h.of_eq (State.onPipe_pending ..) (State.onPipe_hostArea ..) (State.onPipe_engines ..) fun _ => by rw [State.onPipe_links]
theorem onPress_tame (h : Tame still s u) {p f} : Tame still s (u.onPress p f) :=
  h.of_eq (State.onPress_pending ..) (State.onPress_hostArea ..) (State.onPress_engines ..) fun _ => by rw [State.onPress_links]

theorem memOk_iff : s.memOk ↔ s.hostArea.wf = true ∧ ∀ n : EngIx, EngineOk s.engines[n] := Iff.rfl

/-- An engine changed by what keeps its memories canonical. -/
theorem modEng_tame (h : Tame still s u) {n f} (hf : ∀ e, EngineOk e → EngineOk (f e)) : Tame still s (u.modEng n f) := by
  refine ⟨h.queue, fun hs => ?_, h.islands⟩
  obtain ⟨hh, he⟩ := memOk_iff.1 (h.memory hs)
  refine memOk_iff.2 ⟨hh, fun m => ?_⟩
  by_cases hm : n = m
  · subst hm
    simpa using hf _ (he n)
  · have hv : n.val ≠ m.val := fun hv => hm (Fin.ext hv)
    simpa [hv] using he m

theorem onEng_tame (h : Tame still s u) {n f} (hf : ∀ e, EngineOk e → EngineOk (f e)) : Tame still s (u.onEng n f) := by
  unfold State.onEng
  split
  · exact modEng_tame h hf
  · exact h

/-- A choice of two tame states. -/
theorem ite_tame {c : Prop} [Decidable c] {a b : State} (ha : Tame still s a) (hb : Tame still s b) : Tame still s (if c then a else b) := by
  split
  · exact ha
  · exact hb
theorem ite_tame_1 {β : Type} {c : Prop} [Decidable c] {a b : State × β} (ha : Tame still s a.1) (hb : Tame still s b.1) : Tame still s (if c then a else b).1 := by
  split
  · exact ha
  · exact hb
theorem ite_tame_2 {β : Type} {c : Prop} [Decidable c] {a b : β × State} (ha : Tame still s a.2) (hb : Tame still s b.2) : Tame still s (if c then a else b).2 := by
  split
  · exact ha
  · exact hb

/-- A fold of tame steps. -/
theorem foldl_tame {α : Type} {f : State → α → State} (h : Tame still s u) (hf : ∀ v a, Tame still s v → Tame still s (f v a)) {l : List α} :
    Tame still s (l.foldl f u) := by
  induction l generalizing u with
  | nil => exact h
  | cons a l ih => exact ih (hf _ a h)

/-- The same of a fold that carries a tally. -/
theorem foldl_fst_tame {α β : Type} {f : State × β → α → State × β} {acc : State × β} (h : Tame still s acc.1)
    (hf : ∀ v a, Tame still s v.1 → Tame still s (f v a).1) {l : List α} : Tame still s (l.foldl f acc).1 := by
  induction l generalizing acc with
  | nil => exact h
  | cons a l ih => exact ih (hf _ a h)


theorem forEach_tame (h : Tame still s u) {l f} (hf : ∀ n v, Tame still s v → Tame still s (f n v)) : Tame still s (forEach l f u) := foldl_tame h fun v n => hf n v
theorem forPorts_tame (h : Tame still s u) {f} (hf : ∀ n v, Tame still s v → Tame still s (f n v)) : Tame still s (u.forPorts f) := foldl_tame h fun v n => hf n v
theorem forEngs_tame (h : Tame still s u) {f} (hf : ∀ n v, Tame still s v → Tame still s (f n v)) : Tame still s (u.forEngs f) := foldl_tame h fun v n => hf n v

theorem written_tame (h : Tame still s u) {f} (hf : ∀ v, Tame still s v → Tame still s (f v)) : Tame still s (u.written f) := by
  unfold State.written
  split
  · exact h
  · exact hf _ h
theorem writtenClk_tame (h : Tame still s u) {i f} (hf : ∀ v, Tame still s v → Tame still s (f v)) : Tame still s (u.writtenClk i f) :=
  written_tame h fun v hv => by
    split
    · exact hf _ hv
    · exact hv
theorem writtenPort_tame (h : Tame still s u) {i f} (hf : ∀ v, Tame still s v → Tame still s (f v)) : Tame still s (u.writtenPort i f) :=
  written_tame h fun v hv => by
    split
    · exact hf _ hv
    · exact hv
theorem cave_tame (h : Tame still s u) {f} (hf : ∀ v, Tame still s v → Tame still s (f v)) : Tame still s (u.cave f) := by
  unfold State.cave
  split
  · exact hf _ h
  · exact h

theorem msix_tame (h : Tame still s u) {v} : Tame still s (u.msix v) := h.same (msix_same ..) (msix_calm ..)
theorem push_tame (h : Tame still s u) {n z r c b} : Tame still s (u.push n z r c b) := h.same (push_same ..) (push_calm ..)
theorem flushEth_tame (h : Tame still s u) : Tame still s u.flushEth := h.same (flushEth_same ..) (flushEth_calm ..)
theorem fireEvent_tame (h : Tame still s u) {n} : Tame still s (u.fireEvent n) := h.same (fireEvent_same ..) (fireEvent_calm ..)
theorem raise_tame (h : Tame still s u) {n} : Tame still s (u.raise n) := h.same (raise_same ..) (raise_calm ..)
theorem raiseN_tame (h : Tame still s u) {n} : Tame still s (u.raiseN n) := h.same (raiseN_same ..) (raiseN_calm ..)
theorem whey_tame (h : Tame still s u) {n z w} : Tame still s (u.whey n z w) := h.same (whey_same ..) (whey_calm ..)
theorem wheyZone_tame (h : Tame still s u) {z w} : Tame still s (u.wheyZone z w) := h.same (wheyZone_same ..) (wheyZone_calm ..)
theorem number_tame_1 (h : Tame still s u) {i} : Tame still s (u.number i).1 := h.same (number_same ..) (number_calm ..)
theorem freeSlot_tame (h : Tame still s u) {t a q} : Tame still s (u.freeSlot t a q) := h.same (freeSlot_same ..) (freeSlot_calm ..)
theorem sendAll_tame (h : Tame still s u) {t p} : Tame still s (u.sendAll t p) := h.same (sendAll_same ..) (sendAll_calm ..)
theorem answer_tame (h : Tame still s u) {o k st i} : Tame still s (u.answer o k st i) := h.same (answer_same ..) (answer_calm ..)
theorem complete_tame (h : Tame still s u) {i o k st t b l} : Tame still s (u.complete i o k st t b l) := h.same (complete_same ..) (complete_calm ..)

/-- What a command comes to is a tame state. -/
def ResTame (still : Bool) (s : State) : Res → Prop
  | .done _ _ t => Tame still s t
  | .later t => Tame still s t
  | .sent t => Tame still s t

theorem done_tame (h : Tame still s u) {st l} : ResTame still s (.done st l u) := h
theorem later_tame (h : Tame still s u) : ResTame still s (.later u) := h
theorem sent_tame (h : Tame still s u) : ResTame still s (.sent u) := h
theorem ok_tame (h : Tame still s u) {l} : ResTame still s (.ok l u) := h
theorem refuse_tame (h : Tame still s u) {st} : ResTame still s (.refuse st u) := h

/-- The same of what a request to the Rind comes to. -/
def RindTame (still : Bool) (s : State) : RindRes → Prop
  | .done _ _ t => Tame still s t
  | .waits t => Tame still s t

theorem rindDone_tame (h : Tame still s u) {st l} : RindTame still s (.done st l u) := h
theorem waits_tame (h : Tame still s u) : RindTame still s (.waits u) := h

theorem passed_tame (h : Tame still s u) {pl n} : Tame still s (passed pl n u).s := h
theorem passedAlt_tame (h : Tame still s u) {r} : Tame still s (passedAlt r u).s := h
theorem reduced_tame (h : Tame still s u) {a b} : Tame still s (reduced a b u).s := h
theorem failed_tame (h : Tame still s u) {a b c} : Tame still s (failed a b c u).s := h

theorem eventPackets_tame_1 (h : Tame still s u) {n b} : Tame still s (u.eventPackets n b).1 := h.same (eventPackets_same ..) (eventPackets_calm ..)

/-- An engine changed by what keeps its memories canonical while those of the first state are. -/
theorem modEng_tame_of (h : Tame still s u) {n f} (hf : s.memOk → ∀ e, EngineOk e → EngineOk (f e)) : Tame still s (u.modEng n f) :=
  ⟨h.queue, fun hs => (modEng_tame (still := still) (Tame.refl u) (hf hs)).memory (h.memory hs), h.islands⟩

/-! ### The engines' memories -/

/-- The byte memories of an engine. -/
def memories (e : Engine) : Mem × Vector Mem 4 × Option Mem := (e.dmem, e.win, e.lastMem)

theorem EngineOk.of_memories {e f : Engine} (h : EngineOk e) (hm : memories f = memories e) : EngineOk f := by
  simp only [memories, Prod.mk.injEq] at hm
  obtain ⟨hd, hw, hl⟩ := hm
  unfold EngineOk
  rw [hd, hw, hl]
  exact h

theorem engineOk_reset : EngineOk Engine.reset :=
  ⟨rfl, fun w => by simp [Engine.reset, Mem.wf], fun m hm => by simp [Engine.reset] at hm⟩

@[simp] theorem memories_noteHout (e0 e : Engine) (p : Nat) : memories (e0.noteHout p e) = memories e := by
  unfold Engine.noteHout; split <;> rfl
@[simp] theorem memories_modify (e0 e : Engine) (d : Nat) (k : Int) : memories (e0.modify d k e) = memories e := by
  simp only [Engine.modify]
  split
  · exact memories_noteHout ..
  · split
    · exact memories_noteHout ..
    · exact memories_noteHout ..
@[simp] theorem memories_modify2 (e0 e : Engine) (x y : Nat) : memories (e0.modify2 x y e) = memories e := by
  unfold Engine.modify2
  split <;> simp
@[simp] theorem memories_op_modify (e0 e : Engine) (k : Int) (o : VatOp) : memories (o.modify e0 k e) = memories e := by
  cases o with
  | mem d => exact memories_modify ..
  | dreg n => rfl
@[simp] theorem memories_op_modify2 (e0 e : Engine) (x y : VatOp) : memories (VatOp.modify2 e0 x y e) = memories e := by
  unfold VatOp.modify2
  split <;> simp
@[simp] theorem memories_setOvc (e : Engine) (o : BitVec 8) : memories (e.setOvc o) = memories e := rfl
@[simp] theorem memories_setTrue (e : Engine) (v : Int) : memories (e.setTrue v) = memories e := by
  simp only [Engine.setTrue]
  split
  · rfl
  · split <;> rfl
@[simp] theorem memories_accStore (e : Engine) (sh : Nat) (lo hi : Int) : memories (e.accStore sh lo hi).2 = memories e := by
  simp only [Engine.accStore]
  repeat' split
  all_goals rfl
@[simp] theorem memories_setDn (e : Engine) (n : Nat) (v : Word16) : memories (e.setDn n v) = memories e := by
  unfold Engine.setDn; split <;> rfl
theorem memories_setReg {e f : Engine} {r : Nat} {v : Word16} (h : e.setReg r v = some f) : memories f = memories e := by
  unfold Engine.setReg at h
  repeat' split at h
  all_goals first | (cases h; rfl) | cases h
@[simp] theorem memories_endIter (e : Engine) (pc next : Nat) : memories (e.endIter pc next) = memories e := by
  simp only [Engine.endIter]
  repeat' split
  all_goals rfl

/-- A store keeps the canonical form. -/
theorem EngineOk.setWord {e : Engine} (h : EngineOk e) {a v} : EngineOk (e.setWord a v) :=
  ⟨Laws.write_wf _ _ _ (Laws.write_wf _ _ _ h.1), h.2⟩

/-- So does a transfer, either way. -/
theorem EngineOk.transfer {e : Engine} (h : EngineOk e) {t} : EngineOk (e.transfer t) := by
  unfold Engine.transfer
  split
  · exact h
  · rename_i k _
    generalize List.range t.len = l
    induction l generalizing e with
    | nil => exact h
    | cons i l ih =>
      refine ih ?_
      obtain ⟨hd, hw, hl⟩ := h
      dsimp only
      split
      · refine ⟨hd, fun w => ?_, hl⟩
        by_cases hk : k.val = w.val
        · simpa [hk] using Laws.write_wf _ _ _ (Laws.write_wf _ _ _ (hw w))
        · simpa [hk] using hw w
      · exact ⟨Laws.write_wf _ _ _ (Laws.write_wf _ _ _ hd), hw, hl⟩

theorem EngineOk.drainTransfers {e : Engine} (h : EngineOk e) : EngineOk e.drainTransfers := by
  have key : ∀ (l : List Transfer) (e : Engine), EngineOk e → EngineOk (l.foldl (fun u t => u.transfer t) e) := by
    intro l
    induction l with
    | nil => exact fun _ h => h
    | cons t l ih => exact fun _ h => ih _ h.transfer
  exact (key _ _ h).of_memories rfl

theorem engineOk_load (e : Engine) (i : Image) : EngineOk (e.load i) :=
  ⟨Laws.writes_wf _ _ _ rfl, engineOk_reset.2⟩

/-- What an instruction comes to keeps the canonical form. -/
def ResOk : VatRes → Prop
  | .go e => EngineOk e
  | .jump e _ => EngineOk e
  | .user e => EngineOk e
  | _ => True

theorem resOk_guarded {e : Engine} {as : List Nat} {r : VatRes} (h : ResOk r) : ResOk (e.guarded as r) := by
  unfold Engine.guarded
  split
  · trivial
  · exact h

theorem resOk_mulAcc {e : Engine} (h : EngineOk e) {f w} : ResOk (vatMulAcc f e w) := by
  simp only [vatMulAcc]
  split
  · exact resOk_guarded (h.of_memories (by simp))
  · trivial
theorem resOk_adda {e : Engine} (h : EngineOk e) {w} : ResOk (vatAdda e w) := by
  simp only [vatAdda]
  split
  · split
    · exact resOk_guarded (h.of_memories (by simp))
    · trivial
  · trivial
theorem resOk_store {e : Engine} (h : EngineOk e) {lo hi w} : ResOk (vatStore lo hi e w) := by
  simp only [vatStore]
  split
  · refine resOk_guarded ?_
    split
    · exact (EngineOk.setWord (h.of_memories (memories_accStore ..))).of_memories (memories_modify ..)
    · exact h.of_memories (by simp)
  · trivial
theorem resOk_stal {e : Engine} (h : EngineOk e) {w} : ResOk (vatStal e w) := by
  simp only [vatStal]
  split
  · split
    · exact resOk_guarded ((EngineOk.setWord (EngineOk.setWord (h.of_memories (memories_accStore ..)))).of_memories (memories_modify ..))
    · split
      · exact h.of_memories (by simp)
      · trivial
  · trivial
theorem resOk_setReg {e : Engine} (h : EngineOk e) {r v} : ResOk (match e.setReg r v with | some f => .go f | none => .fault 3) := by
  split
  · rename_i f hf
    exact h.of_memories (memories_setReg hf)
  · trivial
theorem resOk_alu {e : Engine} (h : EngineOk e) {b w} : ResOk (vatAluWith b e w) := by
  simp only [vatAluWith]
  split
  · split
    · exact h.of_memories (memories_setDn ..)
    · exact h.of_memories rfl
  · trivial
theorem resOk_mmx {e : Engine} (h : EngineOk e) {w} : ResOk (vatMmx e w) := by
  simp only [vatMmx]
  split
  · exact h.of_memories rfl
  · refine resOk_guarded (h.of_memories ((memories_modify e e (fld w 20 5) 1).symm ▸ ?_))
    repeat' split
    all_goals rfl
theorem resOk_ite {p : Prop} [Decidable p] {a b : VatRes} (ha : ResOk a) (hb : ResOk b) : ResOk (if p then a else b) := by
  split
  · exact ha
  · exact hb
theorem resOk_cave {e : Engine} (h : EngineOk e) {w} : ResOk (vatCave e w) := by
  refine resOk_ite h (resOk_ite trivial (resOk_ite trivial (resOk_ite trivial (resOk_ite trivial (resOk_ite ?_ ?_)))))
  · refine h.of_memories ?_
    rw [memories_setDn, memories_setDn]
    split <;> rfl
  · exact h.of_memories rfl

theorem Tame.engine (h : Tame still s u) (hs : s.memOk) (n : EngIx) : EngineOk u.engines[n] := (memOk_iff.1 (h.memory hs)).2 n

/-- An engine that takes over the memory of the last completed invocation of another (R371). -/
theorem EngineOk.inherit {e f z : Engine} {r : Bool} (he : EngineOk e) (hz : EngineOk z)
    (hd : f.dmem = if r then e.lastMem.getD z.dmem else z.dmem) (hw : f.win = z.win) (hl : f.lastMem = e.lastMem) : EngineOk f := by
  unfold EngineOk
  rw [hd, hw, hl]
  refine ⟨?_, hz.2.1, he.2.2⟩
  split
  · cases hm : e.lastMem with
    | none => exact hz.1
    | some m => exact he.2.2 m hm
  · exact hz.1

/-! ### Operations that leave the sessions too

What moves work and measurements leaves every session as it was, but for the numbers of its events. -/

/-- `t` is tame and its sessions are those of `s`, but for event sequence numbers. -/
structure Quiet (still : Bool) (s t : State) : Prop extends Tame still s t where
  sessions : SameSess s t

theorem Quiet.refl (s : State) : Quiet still s s := ⟨.refl s, .refl s⟩

theorem mk_quiet (h : Quiet still s u) {out free time glb ev settings commits ports lanes pipes sdc shut emOn clk tiu axc1 rind rindMain images
    loads press jobs savedJobs zones ladle look streams boot aon} :
    Quiet still s (State.mk u.pending out free time glb ev settings commits u.sessions ports lanes pipes sdc shut emOn clk tiu axc1 rind rindMain
      u.engines images loads press jobs savedJobs u.hostArea zones ladle look u.links streams boot aon) := ⟨mk_tame h.toTame, h.sessions⟩
theorem modPort_quiet (h : Quiet still s u) {p f} : Quiet still s (u.modPort p f) := ⟨modPort_tame h.toTame, h.sessions⟩
theorem modPipe_quiet (h : Quiet still s u) {p f} : Quiet still s (u.modPipe p f) := ⟨modPipe_tame h.toTame, h.sessions⟩
theorem modPress_quiet (h : Quiet still s u) {p f} : Quiet still s (u.modPress p f) := ⟨modPress_tame h.toTame, h.sessions⟩
theorem modTiu_quiet (h : Quiet still s u) {f} : Quiet still s (u.modTiu f) := ⟨modTiu_tame h.toTame, h.sessions⟩
theorem modRind_quiet (h : Quiet still s u) {f} : Quiet still s (u.modRind f) := ⟨modRind_tame h.toTame, h.sessions⟩
theorem modLadle_quiet (h : Quiet still s u) {f} : Quiet still s (u.modLadle f) := ⟨modLadle_tame h.toTame, h.sessions⟩
theorem modLook_quiet (h : Quiet still s u) {f} : Quiet still s (u.modLook f) := ⟨modLook_tame h.toTame, h.sessions⟩
theorem modBoot_quiet (h : Quiet still s u) {f} : Quiet still s (u.modBoot f) := ⟨modBoot_tame h.toTame, h.sessions⟩
theorem modStreams_quiet (h : Quiet still s u) {f} : Quiet still s (u.modStreams f) := ⟨modStreams_tame h.toTame, h.sessions⟩
theorem modZone_quiet (h : Quiet still s u) {z f} : Quiet still s (u.modZone z f) := ⟨modZone_tame h.toTame, h.sessions⟩
theorem fresh_quiet_2 (h : Quiet still s u) : Quiet still s u.fresh.2 := mk_quiet h
theorem freshId_quiet_2 (h : Quiet still s u) {b l} : Quiet still s (u.freshId b l).2 := mk_quiet h
theorem onPort_quiet (h : Quiet still s u) {p f} : Quiet still s (u.onPort p f) :=
  ⟨onPort_tame h.toTame, h.sessions.trans (.of_eq (State.onPort_sessions ..))⟩
theorem onPress_quiet (h : Quiet still s u) {p f} : Quiet still s (u.onPress p f) :=
  ⟨onPress_tame h.toTame, h.sessions.trans (.of_eq (State.onPress_sessions ..))⟩
theorem modEng_quiet (h : Quiet still s u) {n f} (hf : ∀ e, EngineOk e → EngineOk (f e)) : Quiet still s (u.modEng n f) :=
  ⟨modEng_tame h.toTame hf, h.sessions⟩
theorem ite_quiet {c : Prop} [Decidable c] {a b : State} (ha : Quiet still s a) (hb : Quiet still s b) : Quiet still s (if c then a else b) := by
  split
  · exact ha
  · exact hb
theorem ite_quiet_2 {β : Type} {c : Prop} [Decidable c] {a b : β × State} (ha : Quiet still s a.2) (hb : Quiet still s b.2) :
    Quiet still s (if c then a else b).2 := by
  split
  · exact ha
  · exact hb
theorem foldl_quiet {α : Type} {f : State → α → State} (h : Quiet still s u) (hf : ∀ v a, Quiet still s v → Quiet still s (f v a)) {l : List α} :
    Quiet still s (l.foldl f u) := by
  induction l generalizing u with
  | nil => exact h
  | cons a l ih => exact ih (hf _ a h)
theorem forEach_quiet (h : Quiet still s u) {l f} (hf : ∀ n v, Quiet still s v → Quiet still s (f n v)) : Quiet still s (forEach l f u) := foldl_quiet h fun v n => hf n v
theorem forPorts_quiet (h : Quiet still s u) {f} (hf : ∀ n v, Quiet still s v → Quiet still s (f n v)) : Quiet still s (u.forPorts f) := foldl_quiet h fun v n => hf n v
theorem forEngs_quiet (h : Quiet still s u) {f} (hf : ∀ n v, Quiet still s v → Quiet still s (f n v)) : Quiet still s (u.forEngs f) := foldl_quiet h fun v n => hf n v
theorem push_quiet (h : Quiet still s u) {n z r c b} : Quiet still s (u.push n z r c b) :=
  ⟨push_tame h.toTame, h.sessions.trans (.of_eq (push_sessions ..))⟩
theorem raise_quiet (h : Quiet still s u) {n} : Quiet still s (u.raise n) := ⟨raise_tame h.toTame, h.sessions.trans (raise_sess _ _)⟩
theorem raiseN_quiet (h : Quiet still s u) {n} : Quiet still s (u.raiseN n) := by
  unfold State.raiseN
  split
  · exact raise_quiet h
  · exact h
theorem whey_quiet (h : Quiet still s u) {n z w} : Quiet still s (u.whey n z w) := push_quiet (modStreams_quiet h)
theorem wheyZone_quiet (h : Quiet still s u) {z w} : Quiet still s (u.wheyZone z w) := whey_quiet h
theorem modEng_quiet_of (h : Quiet still s u) {n f} (hf : s.memOk → ∀ e, EngineOk e → EngineOk (f e)) : Quiet still s (u.modEng n f) :=
  ⟨modEng_tame_of h.toTame hf, h.sessions⟩

theorem hostLate_quiet (h : Quiet still s u) {z} : Quiet still s (u.hostLate z) := modLadle_quiet (modZone_quiet h)
theorem discard_quiet (h : Quiet still s u) {z cause b} : Quiet still s (u.discard z cause b) := by
  unfold State.discard
  dsimp only
  split
  · exact ite_quiet (hostLate_quiet h) h
  · exact ite_quiet (modZone_quiet (ite_quiet (hostLate_quiet h) h)) (raise_quiet (modZone_quiet (ite_quiet (hostLate_quiet h) h)))
theorem endRun_quiet (h : Quiet still s u) {z} : Quiet still s (u.endRun z) := by
  unfold State.endRun
  split
  · exact h
  · exact ite_quiet (foldl_quiet (modZone_quiet h) (fun v _ hv => wheyZone_quiet hv)) h
theorem dropOldest_quiet (h : Quiet still s u) {n z a b} : Quiet still s (u.dropOldest n z a b) := by
  induction n generalizing u with
  | zero => exact h
  | succ n ih =>
    unfold State.dropOldest
    split
    · exact h
    · split
      · exact h
      · exact ih (discard_quiet (modStreams_quiet h))
theorem stage_quiet (h : Quiet still s u) {z stream r cls} : Quiet still s (u.stage z stream r cls) := by
  unfold State.stage
  dsimp only
  refine ite_quiet (push_quiet (endRun_quiet h)) ?_
  split
  · exact discard_quiet h
  · exact ite_quiet (push_quiet (dropOldest_quiet h)) (discard_quiet (dropOldest_quiet h))
  · exact ite_quiet (push_quiet (modLadle_quiet (endRun_quiet h))) (discard_quiet h)
theorem startTests_quiet (h : Quiet still s u) {us} : Quiet still s (u.startTests us) := modLadle_quiet h
theorem offerBlock_quiet (h : Quiet still s u) {lane b} : Quiet still s (u.offerBlock lane b) := mk_quiet (onPress_quiet h)
theorem emitFrame_quiet (h : Quiet still s u) {z product band native early head first width nCols rows} : Quiet still s (u.emitFrame z product band native early
    head first width nCols rows) := by
  unfold State.emitFrame
  split
  · exact h
  · dsimp only
    split
    · exact offerBlock_quiet (modZone_quiet (modZone_quiet h))
    · exact stage_quiet (modZone_quiet h)
theorem closeFrame_quiet (h : Quiet still s u) {z product band early} : Quiet still s (u.closeFrame z product band early) := by
  unfold State.closeFrame
  split
  · exact h
  · exact emitFrame_quiet (modZone_quiet h)
theorem closeAll_quiet (h : Quiet still s u) {z early} : Quiet still s (u.closeAll z early) := by
  unfold State.closeAll
  split
  · exact h
  · exact foldl_quiet h (fun v _ hv => closeFrame_quiet hv)
theorem syncReset_quiet (h : Quiet still s u) {z t} : Quiet still s (u.syncReset z t) := modZone_quiet (closeAll_quiet h)
theorem syncResetAny_quiet (h : Quiet still s u) {z t} : Quiet still s (u.syncResetAny z t) := ite_quiet (syncReset_quiet h) (modZone_quiet h)
theorem syncResetPort_quiet (h : Quiet still s u) {p t} : Quiet still s (u.syncResetPort p t) := forEach_quiet h (fun _ _ hv => syncResetAny_quiet hv)
theorem resetNamed_quiet (h : Quiet still s u) {p t} : Quiet still s (u.resetNamed p t) := forEach_quiet h (fun _ _ hv => syncResetAny_quiet hv)
theorem anchorResult_quiet (h : Quiet still s u) {p m want mids} : Quiet still s (u.anchorResult p m want mids) :=
  raise_quiet (ite_quiet (onPort_quiet h) (onPort_quiet h))
theorem nextMeas_quiet (h : Quiet still s u) : Quiet still s u.nextMeas := by
  unfold State.nextMeas
  split
  · exact ite_quiet (modTiu_quiet h) (modTiu_quiet h)
  · exact modTiu_quiet h
theorem issueSummary_quiet (h : Quiet still s u) {r0 close} : Quiet still s (u.issueSummary r0 close) := by
  unfold State.issueSummary
  dsimp only
  split
  · exact anchorResult_quiet (raise_quiet (ite_quiet (foldl_quiet (push_quiet h) (fun v _ hv => push_quiet hv)) (push_quiet h)))
  · exact raise_quiet (ite_quiet (foldl_quiet (push_quiet h) (fun v _ hv => push_quiet hv)) (push_quiet h))
theorem endMeas_quiet (h : Quiet still s u) {flags close} : Quiet still s (u.endMeas flags close) := by
  unfold State.endMeas
  split
  · exact h
  · exact nextMeas_quiet (issueSummary_quiet (modTiu_quiet h))
theorem dropMeas_quiet (h : Quiet still s u) {m flags} : Quiet still s (u.dropMeas m flags) := issueSummary_quiet h
theorem cancelAll_quiet (h : Quiet still s u) : Quiet still s u.cancelAll := by
  unfold State.cancelAll
  refine ite_quiet h ?_
  exact foldl_quiet (modTiu_quiet h) (fun v _ hv => ite_quiet (raise_quiet (dropMeas_quiet hv)) (dropMeas_quiet hv))
theorem queueAnchor_quiet (h : Quiet still s u) {p} : Quiet still s (u.queueAnchor p) := by
  unfold State.queueAnchor
  refine ite_quiet ?_ h
  dsimp only
  exact cancelAll_quiet (nextMeas_quiet (modTiu_quiet (freshId_quiet_2 (b := 16) (l := u.tiu.ids) h)))
theorem afterRelease_quiet (h : Quiet still s u) {old} : Quiet still s (u.afterRelease old) := cancelAll_quiet (ite_quiet (endMeas_quiet h) h)
theorem retireConv_quiet (h : Quiet still s u) {i} : Quiet still s (u.retireConv i) := afterRelease_quiet (raise_quiet (modBoot_quiet (modTiu_quiet h)))
theorem restartCurd_quiet (h : Quiet still s u) {z} : Quiet still s (u.restartCurd z) := modZone_quiet h
theorem closeUnder_quiet (h : Quiet still s u) {old z} : Quiet still s (u.closeUnder old z) := mk_quiet (closeAll_quiet (mk_quiet h))
theorem rezone_quiet (h : Quiet still s u) {old z t ring} : Quiet still s (u.rezone old z t ring) :=
  ite_quiet (restartCurd_quiet (ite_quiet (modZone_quiet (ite_quiet (syncReset_quiet (ite_quiet (closeUnder_quiet h) h)) (ite_quiet
        (closeUnder_quiet h) h)))
      (ite_quiet (syncReset_quiet (ite_quiet (closeUnder_quiet h) h)) (ite_quiet (closeUnder_quiet h) h)))) (ite_quiet (modZone_quiet (ite_quiet
      (syncReset_quiet (ite_quiet (closeUnder_quiet h) h)) (ite_quiet (closeUnder_quiet h) h))) (ite_quiet (syncReset_quiet (ite_quiet
        (closeUnder_quiet h)
      h)) (ite_quiet (closeUnder_quiet h) h)))
theorem zoneWork_quiet (h : Quiet still s u) {p w} : Quiet still s (u.zoneWork p w) :=
  ite_quiet (syncResetPort_quiet (forEach_quiet (forEach_quiet h (fun _ _ hv => closeUnder_quiet hv)) (fun _ _ hv => rezone_quiet hv)))
      (resetNamed_quiet (forEach_quiet (forEach_quiet h (fun _ _ hv => closeUnder_quiet hv)) (fun _ _ hv => rezone_quiet hv)))
theorem endDrain_quiet (h : Quiet still s u) {z} : Quiet still s (u.endDrain z) := by
  unfold State.endDrain
  split
  · refine ite_quiet ?_ h
    exact mk_quiet (endRun_quiet h)
  · exact h
theorem pingsDone_quiet (h : Quiet still s u) {p} : Quiet still s (u.pingsDone p) := by
  unfold State.pingsDone
  dsimp only
  split
  · exact ite_quiet (modPort_quiet h) h
  · exact ite_quiet (ite_quiet (modPort_quiet h) h) (forEach_quiet (zoneWork_quiet (modPort_quiet (ite_quiet (modPort_quiet h) h))) (fun _ v hv =>
        endDrain_quiet hv))
theorem driveInhibit_quiet (h : Quiet still s u) : Quiet still s u.driveInhibit := modRind_quiet h
theorem rearm_quiet (h : Quiet still s u) {g} : Quiet still s (u.rearm g) :=
  driveInhibit_quiet (forPorts_quiet (mk_quiet h) (fun _ _ hv => ite_quiet (modPort_quiet hv) hv))
theorem endJob_quiet (h : Quiet still s u) {j preempted} : Quiet still s (u.endJob j preempted) := by
  unfold State.endJob
  dsimp only
  split
  · exact raise_quiet (modLook_quiet h)
  · refine raise_quiet ?_
    refine foldl_quiet ?_ (fun v _ hv => push_quiet hv)
    refine ite_quiet_2 (fresh_quiet_2 (modLook_quiet h)) ?_
    dsimp only
    exact modLook_quiet h
theorem preempt_quiet (h : Quiet still s u) {pipe} : Quiet still s (u.preempt pipe) := by
  unfold State.preempt
  split
  · exact endJob_quiet h
  · exact h
theorem afterInvocation_quiet (h : Quiet still s u) {n} : Quiet still s (u.afterInvocation n) := by
  unfold State.afterInvocation
  split
  · exact modEng_quiet h (fun _ he => he.keep)
  · split
    · exact modEng_quiet h (fun e _ => (engineOk_load e _).keep)
    · exact modEng_quiet h (fun _ he => he.keep)
  · exact h
theorem vatFault_quiet (h : Quiet still s u) {n code} : Quiet still s (u.vatFault n code) := by
  unfold State.vatFault
  dsimp only
  refine afterInvocation_quiet ?_
  split
  · refine ite_quiet ?_ ?_
    · refine foldl_quiet ?_ (fun v _ hv => discard_quiet hv)
      refine modEng_quiet ?_ (fun _ he => he.keep)
      refine raiseN_quiet ?_
      split
      · exact whey_quiet (modEng_quiet h (fun _ he => he.drainTransfers.keep))
      · exact modEng_quiet h (fun _ he => he.drainTransfers.keep)
    · refine raiseN_quiet ?_
      split
      · exact whey_quiet (modEng_quiet h (fun _ he => he.drainTransfers.keep))
      · exact modEng_quiet h (fun _ he => he.drainTransfers.keep)
  · refine raiseN_quiet ?_
    split
    · exact whey_quiet (modEng_quiet h (fun _ he => he.drainTransfers.keep))
    · exact modEng_quiet h (fun _ he => he.drainTransfers.keep)
theorem refreshLadle_quiet (h : Quiet still s u) : Quiet still s u.refreshLadle := by
  unfold State.refreshLadle
  exact modLadle_quiet h
theorem bumpGen_quiet (h : Quiet still s u) : Quiet still s u.bumpGen := modLadle_quiet h
theorem syncPipes_quiet (h : Quiet still s u) {pl} : Quiet still s (u.syncPipes pl) := by
  unfold State.syncPipes
  refine foldl_quiet h ?_
  intro v _ hv
  split
  · exact ite_quiet (modPipe_quiet hv) (modPipe_quiet hv)
  · exact ite_quiet hv (modPipe_quiet hv)
theorem syncEngine_quiet (h : Quiet still s u) {pl n} : Quiet still s (u.syncEngine pl n) := by
  unfold State.syncEngine
  dsimp only
  split
  · refine ite_quiet h ?_
    refine ite_quiet (modEng_quiet h (fun _ he => he.keep)) ?_
    split
    · exact modEng_quiet h (fun e _ => (engineOk_load { e with input := [], blockSeq := 0 } _).keep)
    · exact h
  · exact ite_quiet h (ite_quiet (modEng_quiet h (fun _ he => he.keep)) (modEng_quiet h (fun _ he => he.keep)))
theorem syncPress_quiet (h : Quiet still s u) {pl} : Quiet still s (u.syncPress pl) := foldl_quiet h (fun _ _ hv => modPress_quiet hv)
theorem applyPlacement_quiet (h : Quiet still s u) {pl} : Quiet still s (u.applyPlacement pl) :=
  ite_quiet (bumpGen_quiet (refreshLadle_quiet (syncPress_quiet (syncPipes_quiet (forEngs_quiet (foldl_quiet (modLadle_quiet h)
        (fun _ _ hv => ite_quiet
      (endJob_quiet hv) hv)) (fun _ _ hv => syncEngine_quiet hv)))))) (refreshLadle_quiet (syncPress_quiet (syncPipes_quiet (forEngs_quiet
        (foldl_quiet
      (modLadle_quiet h) (fun _ _ hv => ite_quiet (endJob_quiet hv) hv)) (fun _ _ hv => syncEngine_quiet hv)))))
theorem shedZone_quiet (h : Quiet still s u) {z what} : Quiet still s (u.shedZone z what) := by
  unfold State.shedZone
  refine ite_quiet h ?_
  exact raise_quiet (modLadle_quiet (wheyZone_quiet (modZone_quiet (closeAll_quiet h))))
theorem shedPort_quiet (h : Quiet still s u) {p} : Quiet still s (u.shedPort p) :=
  ite_quiet (raise_quiet (applyPlacement_quiet (foldl_quiet (onPort_quiet (modLadle_quiet h)) (fun _ _ hv => shedZone_quiet hv))))
        (applyPlacement_quiet
      (foldl_quiet (onPort_quiet (modLadle_quiet h)) (fun _ _ hv => shedZone_quiet hv)))
theorem markRetired_quiet (h : Quiet still s u) {u'} : Quiet still s (u.markRetired u') := by
  unfold State.markRetired
  dsimp only
  split
  · split
    · exact modBoot_quiet (modPipe_quiet h)
    · exact modBoot_quiet (modEng_quiet h (fun _ he => he.keep))
    · exact modBoot_quiet (modPress_quiet h)
    · exact h
    · exact retireConv_quiet h
  · refine refreshLadle_quiet ?_
    refine modLadle_quiet ?_
    split
    · exact modBoot_quiet (modPipe_quiet h)
    · exact modBoot_quiet (modEng_quiet h (fun _ he => he.keep))
    · exact modBoot_quiet (modPress_quiet h)
    · exact h
    · exact retireConv_quiet h
theorem retireUnit_quiet (h : Quiet still s u) {u'} : Quiet still s (u.retireUnit u') := ite_quiet (raise_quiet (markRetired_quiet h)) (markRetired_quiet h)
theorem losePins_quiet (h : Quiet still s u) {u'} : Quiet still s (u.losePins u') :=
  ite_quiet h (raise_quiet (modLadle_quiet (foldl_quiet (mk_quiet h) (fun _ _ hv => modZone_quiet hv))))
theorem markUnit_quiet (h : Quiet still s u) {u' old new} : Quiet still s (u.markUnit u' old new) := foldl_quiet h (fun _ _ hv => modZone_quiet hv)
theorem migrate_quiet (h : Quiet still s u) {a b retire reserve tries} : Quiet still s (u.migrate a b retire reserve tries) := by
  unfold State.migrate
  dsimp only
  refine refreshLadle_quiet ?_
  refine markUnit_quiet ?_
  split
  · exact preempt_quiet (startTests_quiet (modLadle_quiet h))
  · exact startTests_quiet (modLadle_quiet h)
theorem losePipe_quiet (h : Quiet still s u) {n} : Quiet still s (u.losePipe n) := by
  unfold State.losePipe
  split
  · exact h
  · dsimp only
    split
    · refine applyPlacement_quiet ?_
      refine preempt_quiet ?_
      split
      · exact pingsDone_quiet (onPort_quiet (foldl_quiet h (fun v _ hv => wheyZone_quiet hv)))
      · exact onPort_quiet (foldl_quiet h (fun v _ hv => wheyZone_quiet hv))
    · split
      · split
        · exact pingsDone_quiet (onPort_quiet (foldl_quiet h (fun v _ hv => wheyZone_quiet hv)))
        · exact onPort_quiet (foldl_quiet h (fun v _ hv => wheyZone_quiet hv))
      · refine ite_quiet ?_ ?_
        · refine shedPort_quiet ?_
          split
          · exact pingsDone_quiet (onPort_quiet (foldl_quiet h (fun v _ hv => wheyZone_quiet hv)))
          · exact onPort_quiet (foldl_quiet h (fun v _ hv => wheyZone_quiet hv))
        · split
          · refine shedPort_quiet ?_
            split
            · exact pingsDone_quiet (onPort_quiet (foldl_quiet h (fun v _ hv => wheyZone_quiet hv)))
            · exact onPort_quiet (foldl_quiet h (fun v _ hv => wheyZone_quiet hv))
          · refine applyPlacement_quiet ?_
            refine shedPort_quiet ?_
            split
            · exact pingsDone_quiet (onPort_quiet (foldl_quiet h (fun v _ hv => wheyZone_quiet hv)))
            · exact onPort_quiet (foldl_quiet h (fun v _ hv => wheyZone_quiet hv))
theorem loseEngine_quiet (h : Quiet still s u) {n r} : Quiet still s (u.loseEngine n r) := by
  have h1 : Quiet still s (if u.engines[n].current.isSome then u.vatFault n 10 else u) := ite_quiet (vatFault_quiet h) h
  have hf {f : Engine} {y i} (hs : s.memOk) (hd : f.dmem = if r then u.engines[n].lastMem.getD (Engine.load y i).dmem else (Engine.load y i).dmem)
      (hw : f.win = (Engine.load y i).win) (hl : f.lastMem = u.engines[n].lastMem) : EngineOk f :=
    (h.engine hs n).inherit (engineOk_load y i) hd hw hl
  simp only [State.loseEngine]
  split
  · exact h
  split
  · refine applyPlacement_quiet (modEng_quiet (modEng_quiet_of h1 fun hs y hy => ?_) fun _ he => he.keep)
    split
    · exact hf hs rfl rfl rfl
    · exact hy
  split
  · exact h1
  split
  · exact applyPlacement_quiet (shedZone_quiet h1)
  split
  · refine applyPlacement_quiet (modEng_quiet (modEng_quiet_of (applyPlacement_quiet (shedZone_quiet h1)) fun hs y hy => ?_) fun _ he => he.keep)
    split
    · exact hf hs rfl rfl rfl
    · exact hy
  · exact applyPlacement_quiet (shedZone_quiet h1)
theorem movePress_quiet (h : Quiet still s u) {n} : Quiet still s (u.movePress n) := by
  unfold State.movePress
  dsimp only
  refine ite_quiet ?_ ?_
  · refine refreshLadle_quiet ?_
    refine syncPress_quiet ?_
    refine modPress_quiet ?_
    refine foldl_quiet (modLadle_quiet h) ?_
    intro v _ hv
    split
    · exact onPress_quiet (modLadle_quiet hv)
    · exact shedZone_quiet hv
  · refine bumpGen_quiet ?_
    refine refreshLadle_quiet ?_
    refine syncPress_quiet ?_
    refine modPress_quiet ?_
    refine foldl_quiet (modLadle_quiet h) ?_
    intro v _ hv
    split
    · exact onPress_quiet (modLadle_quiet hv)
    · exact shedZone_quiet hv
theorem freeJobs_quiet (h : Quiet still s u) {n} : Quiet still s (u.freeJobs n) := mk_quiet h
theorem retirePlanned_quiet (h : Quiet still s u) {u'} : Quiet still s (u.retirePlanned u') := by
  unfold State.retirePlanned
  refine ite_quiet h ?_
  refine ite_quiet ?_ (retireUnit_quiet h)
  split
  · exact migrate_quiet (losePins_quiet h)
  · split
    · exact losePipe_quiet (retireUnit_quiet (losePins_quiet h))
    · exact retireUnit_quiet (loseEngine_quiet (losePins_quiet h))
    · exact freeJobs_quiet (movePress_quiet (retireUnit_quiet (losePins_quiet h)))
    · exact h
theorem moveAll_quiet (h : Quiet still s u) {n ms} : Quiet still s (State.moveAll n ms u) := by
  induction n generalizing u ms with
  | zero => exact h
  | succ n ih =>
    unfold State.moveAll
    split
    · exact ih (migrate_quiet h)
    · split
      · exact h
      · split
        · exact ih (migrate_quiet h)
        · exact h

/-! What is quiet is tame. -/

theorem Tame.of {v : State} (h : Tame still s u) (k : Quiet still u v) : Tame still s v := h.trans k.toTame

theorem hostLate_tame (h : Tame still s u) {z} : Tame still s (u.hostLate z) := .of h (hostLate_quiet (.refl u))
theorem discard_tame (h : Tame still s u) {z cause b} : Tame still s (u.discard z cause b) := .of h (discard_quiet (.refl u))
theorem endRun_tame (h : Tame still s u) {z} : Tame still s (u.endRun z) := .of h (endRun_quiet (.refl u))
theorem stage_tame (h : Tame still s u) {z stream r cls} : Tame still s (u.stage z stream r cls) := .of h (stage_quiet (.refl u))
theorem startTests_tame (h : Tame still s u) {us} : Tame still s (u.startTests us) := .of h (startTests_quiet (.refl u))
theorem emitFrame_tame (h : Tame still s u) {z product band native early head first width nCols rows} : Tame still s (u.emitFrame z product band native early
    head first width nCols rows) := .of h (emitFrame_quiet (.refl u))
theorem closeFrame_tame (h : Tame still s u) {z product band early} : Tame still s (u.closeFrame z product band early) := .of h (closeFrame_quiet (.refl u))
theorem closeAll_tame (h : Tame still s u) {z early} : Tame still s (u.closeAll z early) := .of h (closeAll_quiet (.refl u))
theorem nextMeas_tame (h : Tame still s u) : Tame still s u.nextMeas := .of h (nextMeas_quiet (.refl u))
theorem endMeas_tame (h : Tame still s u) {flags close} : Tame still s (u.endMeas flags close) := .of h (endMeas_quiet (.refl u))
theorem dropMeas_tame (h : Tame still s u) {m flags} : Tame still s (u.dropMeas m flags) := .of h (dropMeas_quiet (.refl u))
theorem queueAnchor_tame (h : Tame still s u) {p} : Tame still s (u.queueAnchor p) := .of h (queueAnchor_quiet (.refl u))
theorem afterRelease_tame (h : Tame still s u) {old} : Tame still s (u.afterRelease old) := .of h (afterRelease_quiet (.refl u))
theorem retireConv_tame (h : Tame still s u) {i} : Tame still s (u.retireConv i) := .of h (retireConv_quiet (.refl u))
theorem restartCurd_tame (h : Tame still s u) {z} : Tame still s (u.restartCurd z) := .of h (restartCurd_quiet (.refl u))
theorem rezone_tame (h : Tame still s u) {old z t ring} : Tame still s (u.rezone old z t ring) := .of h (rezone_quiet (.refl u))
theorem zoneWork_tame (h : Tame still s u) {p w} : Tame still s (u.zoneWork p w) := .of h (zoneWork_quiet (.refl u))
theorem endDrain_tame (h : Tame still s u) {z} : Tame still s (u.endDrain z) := .of h (endDrain_quiet (.refl u))
theorem pingsDone_tame (h : Tame still s u) {p} : Tame still s (u.pingsDone p) := .of h (pingsDone_quiet (.refl u))
theorem driveInhibit_tame (h : Tame still s u) : Tame still s u.driveInhibit := .of h (driveInhibit_quiet (.refl u))
theorem rearm_tame (h : Tame still s u) {g} : Tame still s (u.rearm g) := .of h (rearm_quiet (.refl u))
theorem endJob_tame (h : Tame still s u) {j preempted} : Tame still s (u.endJob j preempted) := .of h (endJob_quiet (.refl u))
theorem afterInvocation_tame (h : Tame still s u) {n} : Tame still s (u.afterInvocation n) := .of h (afterInvocation_quiet (.refl u))
theorem vatFault_tame (h : Tame still s u) {n code} : Tame still s (u.vatFault n code) := .of h (vatFault_quiet (.refl u))
theorem refreshLadle_tame (h : Tame still s u) : Tame still s u.refreshLadle := .of h (refreshLadle_quiet (.refl u))
theorem bumpGen_tame (h : Tame still s u) : Tame still s u.bumpGen := .of h (bumpGen_quiet (.refl u))
theorem syncPress_tame (h : Tame still s u) {pl} : Tame still s (u.syncPress pl) := .of h (syncPress_quiet (.refl u))
theorem applyPlacement_tame (h : Tame still s u) {pl} : Tame still s (u.applyPlacement pl) := .of h (applyPlacement_quiet (.refl u))
theorem shedZone_tame (h : Tame still s u) {z what} : Tame still s (u.shedZone z what) := .of h (shedZone_quiet (.refl u))
theorem markRetired_tame (h : Tame still s u) {u'} : Tame still s (u.markRetired u') := .of h (markRetired_quiet (.refl u))
theorem retireUnit_tame (h : Tame still s u) {u'} : Tame still s (u.retireUnit u') := .of h (retireUnit_quiet (.refl u))
theorem losePins_tame (h : Tame still s u) {u'} : Tame still s (u.losePins u') := .of h (losePins_quiet (.refl u))
theorem markUnit_tame (h : Tame still s u) {u' old new} : Tame still s (u.markUnit u' old new) := .of h (markUnit_quiet (.refl u))
theorem migrate_tame (h : Tame still s u) {a b retire reserve tries} : Tame still s (u.migrate a b retire reserve tries) := .of h (migrate_quiet (.refl u))
theorem losePipe_tame (h : Tame still s u) {n} : Tame still s (u.losePipe n) := .of h (losePipe_quiet (.refl u))
theorem loseEngine_tame (h : Tame still s u) {n r} : Tame still s (u.loseEngine n r) := .of h (loseEngine_quiet (.refl u))
theorem movePress_tame (h : Tame still s u) {n} : Tame still s (u.movePress n) := .of h (movePress_quiet (.refl u))
theorem freeJobs_tame (h : Tame still s u) {n} : Tame still s (u.freeJobs n) := .of h (freeJobs_quiet (.refl u))
theorem retirePlanned_tame (h : Tame still s u) {u'} : Tame still s (u.retirePlanned u') := .of h (retirePlanned_quiet (.refl u))
theorem moveAll_tame (h : Tame still s u) {n ms} : Tame still s (State.moveAll n ms u) := .of h (moveAll_quiet (.refl u))

/-! ### The rest of the model -/

theorem ringPut_tame_1 (h : Tame still s u) {n bs} : Tame still s (u.ringPut n bs).1 := by
  unfold State.ringPut
  dsimp only
  exact msix_tame (emit_tame (modCr_tame h))
theorem deliver_tame_1 (h : Tame still s u) {n} : Tame still s (u.deliver n).1 := by
  unfold State.deliver
  dsimp only
  refine ite_tame_1 (eventPackets_tame_1 (push_tame (modEv_tame (ite_tame (msix_tame h) h)))) ?_
  dsimp only
  exact ite_tame (msix_tame h) h
theorem unfollow_tame (h : Tame still s u) : Tame still s u.unfollow := ite_tame (raise_tame (mk_tame h)) (mk_tame h)
theorem faultLog_tame (h : Tame still s u) {src ev unit detail} : Tame still s (u.faultLog src ev unit detail) := raise_tame (modBoot_tame h)
theorem addRow_tame (h : Tame still s u) {cfg z product band h' r} : Tame still s (u.addRow cfg z product band h' r) := by
  unfold State.addRow
  refine ite_tame ?_ h
  dsimp only
  split
  · refine modZone_tame ?_
    split
    · exact h
    · split
      · exact closeFrame_tame h
      · exact h
  · refine modZone_tame ?_
    split
    · exact h
    · split
      · exact closeFrame_tame h
      · exact h
theorem takeInput_tame (h : Tame still s u) {x1 b pool} : Tame still s (u.takeInput x1 b pool) :=
  ite_tame (modLadle_tame (onEng_tame h (fun _ he => he.keep))) (onEng_tame h (fun _ he => he.keep))
theorem dropInputs_tame (h : Tame still s u) {n z x a b} : Tame still s (u.dropInputs n z x a b) := by
  induction n generalizing u with
  | zero => exact h
  | succ n ih =>
    unfold State.dropInputs
    split
    · exact h
    · split
      · exact h
      · exact ih (discard_tame (onEng_tame h fun _ he => he.keep))
theorem offerInput_tame (h : Tame still s u) {z x blk t} : Tame still s (u.offerInput z x blk t) := by
  have hdrop {v : State} {c lost} (hv : Tame still s v) : Tame still s ((v.onEng x.engine fun e => { e with blockSeq := e.blockSeq + 1 }).discard z c lost) :=
    discard_tame (onEng_tame hv fun _ he => he.keep)
  unfold State.offerInput
  refine ite_tame (hdrop h) (ite_tame (takeInput_tame (endRun_tame h)) ?_)
  split
  · exact hdrop h
  · exact ite_tame (takeInput_tame (dropInputs_tame h)) (hdrop (dropInputs_tame h))
  · exact ite_tame (takeInput_tame (endRun_tame h)) (hdrop h)
theorem formInputs_tame (h : Tame still s u) {z kind mask t epoch arrays flags} : Tame still s (u.formInputs z kind mask t epoch arrays flags) :=
  foldl_tame h (fun _ _ hv => offerInput_tame hv)
theorem chainInput_tame (h : Tame still s u) {cfg z product x4} : Tame still s (u.chainInput cfg z product x4) := modZone_tame h
theorem hazard_tame (h : Tame still s u) : Tame still s u.hazard := modGlb_tame h
theorem hazardIf_tame (h : Tame still s u) {b} : Tame still s (u.hazardIf b) := ite_tame (hazard_tame h) h
theorem takeFit_tame (h : Tame still s u) {e} : Tame still s (u.takeFit e) := by
  unfold State.takeFit
  refine ite_tame h ?_
  split
  · exact modTiu_tame h
  · exact h
theorem openGate_tame (h : Tame still s u) {len flags} : Tame still s (u.openGate len flags) := by
  unfold State.openGate
  exact modTiu_tame h
theorem measArmEdge_tame (h : Tame still s u) {e} : Tame still s (measArmEdge e u) := by
  unfold measArmEdge
  split
  · exact ite_tame h (openGate_tame (until_tame h))
  · exact h
theorem measWindowOpen_tame (h : Tame still s u) : Tame still s (measWindowOpen u) := by
  unfold measWindowOpen
  split
  · split
    · exact ite_tame h (openGate_tame (elapse_tame h))
    · exact h
  · exact h
theorem armTimeout_tame (h : Tame still s u) : Tame still s (armTimeout u) := by
  unfold armTimeout
  split
  · refine ite_tame h ?_
    exact ite_tame (openGate_tame (until_tame h)) (endMeas_tame (until_tame h))
  · exact h
theorem dropConv_tame (h : Tame still s u) {i} : Tame still s (u.dropConv i) := afterRelease_tame (ite_tame (raise_tame (modTiu_tame h)) (modTiu_tame h))
theorem returnConv_tame (h : Tame still s u) {i} : Tame still s (u.returnConv i) := ite_tame h (startTests_tame (modTiu_tame h))
theorem calibrated_tame (h : Tame still s u) {i c} : Tame still s (u.calibrated i c) :=
  ite_tame (retireConv_tame (modTiu_tame h)) (ite_tame (nextMeas_tame (modTiu_tame (modTiu_tame h))) (modTiu_tame h))
theorem sideEdge_tame (h : Tame still s u) {stopCh d} : Tame still s (u.sideEdge stopCh d) := by
  unfold State.sideEdge
  split
  · exact h
  · dsimp only
    refine ite_tame h ?_
    refine ite_tame ?_ (modTiu_tame h)
    split
    · exact retireConv_tame h
    · exact h
theorem measEdge_tame (h : Tame still s u) {d} : Tame still s (measEdge d u) := ite_tame (sideEdge_tame (sideEdge_tame (takeFit_tame (until_tame h)))) h
theorem measGateClose_tame (h : Tame still s u) : Tame still s (measGateClose u) := by
  unfold measGateClose
  split
  · dsimp only
    refine ite_tame (endMeas_tame (elapse_tame h)) ?_
    refine ite_tame h ?_
    refine endMeas_tame ?_
    refine elapse_tame ?_
    split
    · exact until_tame h
    · exact h
  · exact h
theorem anchorPeriodExpiry_tame (h : Tame still s u) {p} : Tame still s (anchorPeriodExpiry p u) := ite_tame h (queueAnchor_tame (modPort_tame (until_tame h)))
theorem setTimescale_tame (h : Tame still s u) {v} : Tame still s (u.setTimescale v) := raise_tame (forPorts_tame (modTiu_tame h) (fun _ _ hv => modPort_tame hv))
theorem followInputs_tame (h : Tame still s u) {lost} : Tame still s (u.followInputs lost) :=
  ite_tame (modTiu_tame (modTiu_tame h)) (ite_tame (setTimescale_tame (modTiu_tame h)) (ite_tame (modTiu_tame (modTiu_tame h)) (modTiu_tame h)))
theorem setRef10_tame (h : Tame still s u) {ok} : Tame still s (u.setRef10 ok) := by
  unfold State.setRef10
  refine ite_tame h ?_
  exact followInputs_tame (raise_tame (modTiu_tame h))
theorem refWindow_tame (h : Tame still s u) {hz} : Tame still s (u.refWindow hz) :=
  ite_tame (setRef10_tame (modTiu_tame (elapse_tame h))) (ite_tame (setRef10_tame (modTiu_tame (elapse_tame h))) (modTiu_tame (elapse_tame h)))
theorem ref10StateChange_tame (h : Tame still s u) {o} : Tame still s (ref10StateChange o u) := by
  unfold ref10StateChange
  split
  · exact foldl_tame h (fun v _ hv => refWindow_tame hv)
  · exact ite_tame (elapse_tame h) (elapse_tame (setRef10_tame (modTiu_tame (elapse_tame h))))
theorem setPps_tame (h : Tame still s u) {ok} : Tame still s (u.setPps ok) := by
  unfold State.setPps
  refine ite_tame h ?_
  exact followInputs_tame (raise_tame (modTiu_tame h))
theorem ppsStateChange_tame (h : Tame still s u) : Tame still s (ppsStateChange u) :=
  ite_tame (ite_tame (setPps_tame h) h) (ite_tame (setPps_tame h) (setPps_tame (modTiu_tame (until_tame h))))
theorem timescaleChange_tame (h : Tame still s u) : Tame still s (timescaleChange u) :=
  ite_tame h (ite_tame (setTimescale_tame h) (ite_tame (setTimescale_tame (until_tame h)) h))
theorem failConv_tame (h : Tame still s u) {i} : Tame still s (u.failConv i) := ite_tame (retireConv_tame (modTiu_tame h)) (modTiu_tame h)
theorem aged_tame (h : Tame still s u) {per} : Tame still s (u.aged per) := ite_tame (modTiu_tame h) h
theorem converterRotation_tame (h : Tame still s u) {cal shadow again} : Tame still s (converterRotation cal shadow again u) := by
  unfold converterRotation
  dsimp only
  refine ite_tame h ?_
  split
  · exact aged_tame (modTiu_tame (until_tame h))
  · refine ite_tame (aged_tame (modTiu_tame (modTiu_tame (until_tame h)))) ?_
    refine ite_tame (aged_tame (calibrated_tame (elapse_tame (modTiu_tame (until_tame h))))) ?_
    refine ite_tame (aged_tame (failConv_tame (elapse_tame (calibrated_tame (elapse_tame (modTiu_tame (until_tame h))))))) ?_
    split
    · exact nextMeas_tame (raise_tame (modTiu_tame (elapse_tame (calibrated_tame (elapse_tame (modTiu_tame (until_tame h)))))))
    · exact ite_tame (modTiu_tame (calibrated_tame (elapse_tame (raise_tame (modTiu_tame (elapse_tame (calibrated_tame (elapse_tame (modTiu_tame
          (until_tame h)))))))))) (calibrated_tame (elapse_tame (raise_tame (modTiu_tame (elapse_tame (calibrated_tame (elapse_tame (modTiu_tame
          (until_tame h)))))))))
theorem launchStamp_tame_2_2 (h : Tame still s u) {p tap} : Tame still s (u.launchStamp p tap).2.2 := by
  unfold State.launchStamp
  dsimp only
  split
  · dsimp only
    exact modTiu_tame (takeFit_tame h)
  · dsimp only
    refine ite_tame ?_ h
    split
    · exact retireConv_tame h
    · exact h
theorem writeTiuCtl_tame (h : Tame still s u) {v} : Tame still s (writeTiuCtl v u) := ite_tame (modTiu_tame h) (followInputs_tame (modTiu_tame (modTiu_tame h)))
theorem writeTiuStat_tame (h : Tame still s u) {v} : Tame still s (writeTiuStat v u) := modTiu_tame h
theorem closeGate_tame (h : Tame still s u) {p} : Tame still s (closeGate p u) := by
  unfold closeGate
  exact modPort_tame h
theorem atBoundary_tame (h : Tame still s u) {p w} : Tame still s (u.atBoundary p w) := ite_tame (zoneWork_tame h) (modPort_tame h)
theorem startEpoch_tame (h : Tame still s u) {p} : Tame still s (u.startEpoch p) := queueAnchor_tame (modPort_tame h)
theorem beginEpoch_tame (h : Tame still s u) {p} : Tame still s (u.beginEpoch p) := atBoundary_tame (startEpoch_tame h)
theorem enterReduction_tame (h : Tame still s u) {p} : Tame still s (u.enterReduction p) := driveInhibit_tame (raise_tame (modPort_tame h))
theorem shutGroups_tame (h : Tame still s u) {gs} : Tame still s (u.shutGroups gs) := forPorts_tame (mk_tame h) (fun _ _ hv => ite_tame (closeGate_tame hv) hv)
theorem latShutdown_tame (h : Tame still s u) {wait} : Tame still s (u.latShutdown wait) := by
  unfold State.latShutdown
  exact modSdc_tame (mk_tame h)
theorem startFrame_tame (h : Tame still s u) : Tame still s u.startFrame := by
  unfold State.startFrame
  exact modSdc_tame h
theorem chainFails_tame (h : Tame still s u) {integ} : Tame still s (u.chainFails integ) := by
  unfold State.chainFails
  refine ite_tame (latShutdown_tame h) ?_
  exact raise_tame (raise_tame (driveInhibit_tame (shutGroups_tame (latShutdown_tame (modSdc_tame h)))))
theorem electrical_tame (h : Tame still s u) {es} : Tame still s (u.electrical es) := ite_tame h (raise_tame (raise_tame (shutGroups_tame h)))
theorem sdcFrameEnd_tame (h : Tame still s u) {rx} : Tame still s (sdcFrameEnd rx u) := by
  unfold sdcFrameEnd
  refine ite_tame h ?_
  exact ite_tame (startFrame_tame (modSdc_tame (modSdc_tame (mk_tame (emit_tame (electrical_tame (modSdc_tame (until_tame h)))))))) (ite_tame
      (chainFails_tame (modSdc_tame (emit_tame (electrical_tame (modSdc_tame (until_tame h)))))) (startFrame_tame (modSdc_tame (modSdc_tame (mk_tame
      (modSdc_tame (emit_tame (electrical_tame (modSdc_tame (until_tame h))))))))))
theorem startDiscovery_tame (h : Tame still s u) {boot} : Tame still s (u.startDiscovery boot) := modSdc_tame h
theorem sdcDiscoveryStart_tame (h : Tame still s u) : Tame still s (sdcDiscoveryStart u) := ite_tame (startDiscovery_tame h) h
theorem sdcDiscoveryRetry_tame (h : Tame still s u) : Tame still s (sdcDiscoveryRetry u) := ite_tame (startDiscovery_tame (until_tame h)) h
theorem finishDiscovery_tame (h : Tame still s u) {blocks} : Tame still s (u.finishDiscovery blocks) := by
  unfold State.finishDiscovery
  dsimp only
  split
  · exact chainFails_tame (modSdc_tame h)
  · exact ite_tame (chainFails_tame (modSdc_tame h)) (ite_tame (ite_tame (latShutdown_tame (ite_tame (raise_tame (mk_tame (driveInhibit_tame
        (modSdc_tame h)))) (mk_tame (driveInhibit_tame (modSdc_tame h))))) (ite_tame (raise_tame (mk_tame (driveInhibit_tame (modSdc_tame h))))
        (mk_tame (driveInhibit_tame (modSdc_tame h))))) (startFrame_tame (ite_tame (raise_tame (mk_tame (driveInhibit_tame (modSdc_tame h))))
        (mk_tame (driveInhibit_tame (modSdc_tame h))))))
theorem sdcDiscoveryEnd_tame (h : Tame still s u) {blocks} : Tame still s (sdcDiscoveryEnd blocks u) := ite_tame h (finishDiscovery_tame (until_tame h))
theorem writeSdcCtl_tame (h : Tame still s u) {v} : Tame still s (writeSdcCtl v u) :=
  ite_tame (latShutdown_tame (hazardIf_tame (modSdc_tame h))) (ite_tame (modSdc_tame (hazardIf_tame (modSdc_tame h))) (hazardIf_tame (modSdc_tame h)))
theorem writeSdcStat_tame (h : Tame still s u) {v} : Tame still s (writeSdcStat v u) := modSdc_tame h
theorem writeSdcRaw_tame (h : Tame still s u) {n v} : Tame still s (writeSdcRaw n v u) := hazardIf_tame (modSdc_tame h)
theorem writeEmiOvr_tame (h : Tame still s u) {n v} : Tame still s (writeEmiOvr n v u) := hazardIf_tame (modSdc_tame h)
theorem interlockOpen_tame (h : Tame still s u) : Tame still s (interlockOpen u) := by
  unfold interlockOpen
  refine ite_tame h ?_
  exact raise_tame (raise_tame (driveInhibit_tame (latShutdown_tame (shutGroups_tame (modSdc_tame h)))))
theorem causeCleared_tame (h : Tame still s u) : Tame still s u.causeCleared := ite_tame (modSdc_tame h) h
theorem interlockClosed_tame (h : Tame still s u) : Tame still s (interlockClosed u) := ite_tame (causeCleared_tame (driveInhibit_tame (modSdc_tame h))) h
theorem auxLost_tame (h : Tame still s u) : Tame still s u.auxLost := by
  unfold State.auxLost
  exact raise_tame (raise_tame (latShutdown_tame (shutGroups_tame (modSdc_tame h))))
theorem dieTemperature_tame (h : Tame still s u) {ts} : Tame still s (dieTemperature ts u) :=
  ite_tame (causeCleared_tame (modSdc_tame (ite_tame (faultLog_tame (raise_tame (raise_tame (latShutdown_tame (shutGroups_tame (modSdc_tame (ite_tame
      (faultLog_tame (modSdc_tame h)) (modSdc_tame h)))))))) (ite_tame (faultLog_tame (modSdc_tame h)) (modSdc_tame h))))) (ite_tame (faultLog_tame
      (raise_tame (raise_tame (latShutdown_tame (shutGroups_tame (modSdc_tame (ite_tame (faultLog_tame (modSdc_tame h)) (modSdc_tame h))))))))
      (ite_tame (faultLog_tame (modSdc_tame h)) (modSdc_tame h)))
theorem declareOpen_tame (h : Tame still s u) {p} : Tame still s (u.declareOpen p) :=
  ite_tame (faultLog_tame (raise_tame (raise_tame (shutGroups_tame (modPort_tame h))))) (foldl_tame (raise_tame (raise_tame (shutGroups_tame
      (modPort_tame h)))) (fun _ _ hv => faultLog_tame hv))
theorem portCause_tame (h : Tame still s u) {p i} : Tame still s (u.portCause p i) := ite_tame (raiseN_tame (modPort_tame h)) (modPort_tame h)
theorem groupLaunch_tame (h : Tame still s u) {p g tap} : Tame still s (groupLaunch p g tap u) := by
  unfold groupLaunch
  dsimp only
  split
  · exact h
  · refine ite_tame h ?_
    refine modLook_tame ?_
    refine ite_tame ?_ ?_
    · refine emit_tame ?_
      refine modPort_tame ?_
      split
      · exact launchStamp_tame_2_2 (until_tame h)
      · dsimp only
        exact until_tame h
    · refine modPort_tame ?_
      split
      · exact launchStamp_tame_2_2 (until_tame h)
      · dsimp only
        exact until_tame h
theorem openShadow_tame (h : Tame still s u) {p} : Tame still s (u.openShadow p) := by
  unfold State.openShadow
  split
  · exact h
  · split
    · exact h
    · split
      · refine ite_tame h ?_
        exact modLadle_tame (onPipe_tame (onPipe_tame h))
      · exact h
theorem settlePower_tame (h : Tame still s u) : Tame still s u.settlePower := by
  unfold State.settlePower
  refine ite_tame h ?_
  exact ite_tame (ite_tame (driveInhibit_tame (modBoot_tame (foldl_tame h (fun v _ hv => closeAll_tame hv)))) (mk_tame (modClk_tame
      (driveInhibit_tame (modBoot_tame (foldl_tame h (fun v _ hv => closeAll_tame hv))))))) (modAon_tame (until_tame (modBoot_tame (until_tame
      (ite_tame (driveInhibit_tame (modBoot_tame (foldl_tame h (fun v _ hv => closeAll_tame hv)))) (mk_tame (modClk_tame (driveInhibit_tame
      (modBoot_tame (foldl_tame h (fun v _ hv => closeAll_tame hv)))))))))))
theorem frameBoundary_tame (h : Tame still s u) {p} : Tame still s (frameBoundary p u) := by
  unfold frameBoundary
  dsimp only
  split
  · refine settlePower_tame ?_
    refine driveInhibit_tame ?_
    refine openShadow_tame ?_
    refine modPort_tame ?_
    refine ite_tame ?_ ?_
    · refine beginEpoch_tame ?_
      split
      · exact ite_tame (onPipe_tame (modPort_tame (until_tame h))) (modPort_tame (until_tame h))
      · exact modPort_tame (until_tame h)
    · refine ite_tame ?_ ?_
      · refine atBoundary_tame ?_
        split
        · exact ite_tame (onPipe_tame (modPort_tame (until_tame h))) (modPort_tame (until_tame h))
        · exact modPort_tame (until_tame h)
      · split
        · exact ite_tame (onPipe_tame (modPort_tame (until_tame h))) (modPort_tame (until_tame h))
        · exact modPort_tame (until_tame h)
  · exact h
theorem declareBreak_tame (h : Tame still s u) {p b} : Tame still s (u.declareBreak p b) := enterReduction_tame (raiseN_tame (modPort_tame h))
theorem judgeEvidence_tame (h : Tame still s u) {p tag pw vs} : Tame still s (u.judgeEvidence p tag pw vs) :=
  ite_tame h (ite_tame h (ite_tame (modPort_tame h) (ite_tame (declareOpen_tame (modPort_tame h)) (modPort_tame h))))
theorem judgeBreak_tame (h : Tame still s u) {p g pw void} : Tame still s (u.judgeBreak p g pw void) :=
  ite_tame (ite_tame h (modPort_tame h)) (ite_tame (ite_tame (declareBreak_tame (ite_tame h (modPort_tame h))) (modPort_tame (ite_tame h
      (modPort_tame h)))) (ite_tame (modPort_tame (ite_tame h (modPort_tame h))) (ite_tame h (modPort_tame h))))
theorem judgeRestart_tame (h : Tame still s u) {p pw} : Tame still s (u.judgeRestart p pw) := by
  unfold State.judgeRestart
  exact modPort_tame h
theorem toZone_tame (h : Tame still s u) {cfg z m} : Tame still s (u.toZone cfg z m) := by
  unfold State.toZone
  dsimp only
  split
  · exact ite_tame (ite_tame (formInputs_tame (foldl_tame h (fun v _ hv => ite_tame (addRow_tame hv) (chainInput_tame hv)))) (foldl_tame h (fun
        v _ hv => ite_tame (addRow_tame hv) (chainInput_tame hv)))) (modZone_tame (ite_tame (formInputs_tame (foldl_tame h (fun v _ hv =>
        ite_tame (addRow_tame hv) (chainInput_tame hv)))) (foldl_tame h (fun v _ hv => ite_tame (addRow_tame hv) (chainInput_tame hv)))))
  · exact ite_tame (formInputs_tame (foldl_tame h (fun v _ hv => ite_tame (addRow_tame hv) (chainInput_tame hv)))) (foldl_tame h (fun v _ hv =>
        ite_tame (addRow_tame hv) (chainInput_tame hv)))
theorem historyRow_tame (h : Tame still s u) {z row} : Tame still s (u.historyRow z row) := ite_tame h (modZone_tame h)
theorem pingCore_tame (h : Tame still s u) {p tag raw vs epoch kept amp} : Tame still s (u.pingCore p tag raw vs epoch kept amp) :=
  forEach_tame (forEach_tame (ite_tame (ite_tame (portCause_tame (modPort_tame (modPort_tame h))) (modPort_tame (modPort_tame h))) (portCause_tame
      (ite_tame (portCause_tame (modPort_tame (modPort_tame h))) (modPort_tame (modPort_tame h))))) (fun _ _ hv => toZone_tame hv)) (fun _ _ hv =>
      historyRow_tame hv)
theorem pingRun_tame (h : Tame still s u) {p tag ls epoch} : Tame still s (u.pingRun p tag ls epoch) :=
  ite_tame (pingCore_tame h) (ite_tame (judgeRestart_tame (ite_tame (modPort_tame (pingCore_tame h)) (pingCore_tame h))) (ite_tame
      (judgeEvidence_tame (ite_tame (modPort_tame (judgeBreak_tame (pingCore_tame h))) (judgeBreak_tame (pingCore_tame h)))) (ite_tame (modPort_tame
      (judgeBreak_tame (pingCore_tame h))) (judgeBreak_tame (pingCore_tame h)))))
theorem pingNew_tame (h : Tame still s u) {p tag ls} : Tame still s (u.pingNew p tag ls) := by
  unfold State.pingNew
  split
  · exact modPort_tame (pingRun_tame (modPort_tame h))
  · exact pingRun_tame (ite_tame (modPort_tame h) h)
theorem pingOld_tame (h : Tame still s u) {p o tag ls} : Tame still s (u.pingOld p o tag ls) := by
  unfold State.pingOld
  exact modPort_tame (pingRun_tame (modPort_tame h))
theorem keepRaw_tame (h : Tame still s u) {cfg p tag ls} : Tame still s (u.keepRaw cfg p tag ls) := ite_tame h (modLook_tame h)
theorem takeFrame_tame (h : Tame still s u) {p tag cfg ls} : Tame still s (u.takeFrame p tag cfg ls) :=
  keepRaw_tame (foldl_tame (modPort_tame h) (fun _ _ hv => modLane_tame hv))
theorem pingProcessed_tame (h : Tame still s u) {p g dat} : Tame still s (pingProcessed p g dat u) := by
  unfold pingProcessed
  dsimp only
  split
  · exact h
  · refine settlePower_tame ?_
    refine pingsDone_tame ?_
    refine ite_tame ?_ (pingNew_tame (ite_tame (takeFrame_tame (modPort_tame h)) (modPort_tame h)))
    split
    · exact pingOld_tame (ite_tame (takeFrame_tame (modPort_tame h)) (modPort_tame h))
    · exact ite_tame (takeFrame_tame (modPort_tame h)) (modPort_tame h)
theorem endDetermination_tame (h : Tame still s u) {p} : Tame still s (endDetermination p u) := by
  unfold endDetermination
  dsimp only
  refine ite_tame h ?_
  split
  · exact portCause_tame (modPort_tame (modPort_tame h))
  · exact ite_tame (portCause_tame (modPort_tame (modPort_tame (modPort_tame h)))) (modPort_tame (modPort_tame (modPort_tame h)))
theorem exactOutput_tame (h : Tame still s u) {z t} : Tame still s (exactOutput z t u) := by
  unfold exactOutput
  dsimp only
  split
  · exact h
  · split
    · exact h
    · refine ite_tame h ?_
      refine modZone_tame ?_
      refine formInputs_tame ?_
      refine foldl_tame ?_ (fun v _ hv => addRow_tame hv)
      split
      · exact ite_tame (untilDev_tame h) (closeAll_tame (untilDev_tame h))
      · exact untilDev_tame h
theorem featureIntervalEnd_tame (h : Tame still s u) {z} : Tame still s (featureIntervalEnd z u) := by
  unfold featureIntervalEnd
  dsimp only
  split
  · exact h
  · exact ite_tame h (modZone_tame (ite_tame (formInputs_tame (foldl_tame (untilDev_tame h) (fun v _ hv => addRow_tame hv))) (foldl_tame
        (untilDev_tame h) (fun v _ hv => addRow_tame hv))))
theorem delayRecordIntervalEnd_tame (h : Tame still s u) {p} : Tame still s (delayRecordIntervalEnd p u) :=
  ite_tame h (forEach_tame (modPort_tame (untilDev_tame h)) (fun _ _ hv => push_tame hv))
theorem inputBufferFull_tame (h : Tame still s u) {n} : Tame still s (inputBufferFull n u) := by
  unfold inputBufferFull
  dsimp only
  refine ite_tame h ?_
  split
  · exact raiseN_tame (modPort_tame (onPort_tame (modPipe_tame h)))
  · exact onPort_tame (modPipe_tame h)
theorem inputResume_tame (h : Tame still s u) {n dropped} : Tame still s (inputResume n dropped u) :=
  ite_tame h (forEach_tame (onPort_tame (modPipe_tame h)) (fun _ _ hv => whey_tame hv))
theorem paceWindowEnd_tame (h : Tame still s u) {n count margin} : Tame still s (paceWindowEnd n count margin u) := by
  unfold paceWindowEnd
  refine ite_tame h ?_
  refine ite_tame (modClk_tame h) ?_
  dsimp only
  refine ite_tame ?_ ?_
  · refine raise_tame ?_
    refine faultLog_tame ?_
    split
    · exact ite_tame (modLadle_tame (modClk_tame h)) (modClk_tame h)
    · exact modClk_tame h
  · split
    · exact ite_tame (modLadle_tame (modClk_tame h)) (modClk_tame h)
    · exact modClk_tame h
theorem writePace_tame (h : Tame still s u) {n v} : Tame still s (writePace n v u) := modClk_tame h
theorem laneCause_tame (h : Tame still s u) {n i en} : Tame still s (u.laneCause n i en) := ite_tame (raiseN_tame (modLane_tame h)) (modLane_tame h)
theorem laneStartupEnd_tame (h : Tame still s u) {p} : Tame still s (laneStartupEnd p u) := by
  unfold laneStartupEnd
  refine ite_tame h ?_
  exact foldl_tame (until_tame h) (fun v _ hv => modLane_tame hv)
theorem laneOverrange_tame (h : Tame still s u) {n deep after len} : Tame still s (laneOverrange n deep after len u) := by
  unfold laneOverrange
  refine ite_tame h ?_
  exact ite_tame (laneCause_tame (laneCause_tame (modLane_tame (elapse_tame h)))) (laneCause_tame (modLane_tame (elapse_tame h)))
theorem recoveryCountEnd_tame (h : Tame still s u) {n} : Tame still s (recoveryCountEnd n u) := ite_tame h (modLane_tame (until_tame h))
theorem sliceFailureDetected_tame (h : Tame still s u) {n sl why} : Tame still s (sliceFailureDetected n sl why u) := by
  unfold sliceFailureDetected
  dsimp only
  split
  · exact h
  · refine ite_tame h ?_
    split
    · exact modLane_tame h
    · exact ite_tame (laneCause_tame (modLane_tame h)) (modLane_tame h)
theorem sliceSwap_tame (h : Tame still s u) {n spare} : Tame still s (sliceSwap n spare u) := by
  unfold sliceSwap
  dsimp only
  split
  · split
    · exact h
    · exact ite_tame h (modPort_tame (laneCause_tame (modLane_tame h)))
  · exact h
theorem calEvent_tame (h : Tame still s u) {p w} : Tame still s (u.calEvent p w) := ite_tame (raiseN_tame h) h
theorem calibrationEstimate_tame (h : Tame still s u) {p w} : Tame still s (calibrationEstimate p w u) :=
  ite_tame h (ite_tame h (calEvent_tame (ite_tame (modLane_tame (modLane_tame (modPort_tame (modPort_tame h)))) (modPort_tame (modPort_tame h)))))
theorem walkPair_tame (h : Tame still s u) {p w} : Tame still s (u.walkPair p w) := by
  unfold State.walkPair
  dsimp only
  split
  · exact ite_tame (modPort_tame h) (modPort_tame (modLane_tame (modLane_tame h)))
  · exact h
theorem trimWalkStep_tame (h : Tame still s u) {p} : Tame still s (trimWalkStep p u) := ite_tame (modPort_tame h) (walkPair_tame (walkPair_tame h))
theorem calibrationHoldEnd_tame (h : Tame still s u) {p w} : Tame still s (calibrationHoldEnd p w u) := ite_tame (modPort_tame h) h
theorem darkFrameEnd_tame (h : Tame still s u) {p powers floor} : Tame still s (darkFrameEnd p powers floor u) :=
  ite_tame h (modPort_tame (foldl_tame (ite_tame (until_tame h) h) (fun _ _ hv => modLane_tame hv)))
theorem writeRxlCtl_tame (h : Tame still s u) {n v} : Tame still s (writeRxlCtl n v u) := modLane_tame h
theorem writeRxlStat_tame (h : Tame still s u) {n v} : Tame still s (writeRxlStat n v u) := modLane_tame h
theorem trimmed_tame (h : Tame still s u) {n} : Tame still s (u.trimmed n) := modPort_tame h
theorem trimWrite_tame (h : Tame still s u) {n qsk v} : Tame still s (trimWrite n qsk v u) := by
  unfold trimWrite
  refine ite_tame ?_ ?_
  · exact ite_tame (hazardIf_tame (modLane_tame h)) (trimmed_tame (hazardIf_tame (modLane_tame h)))
  · exact trimmed_tame (hazardIf_tame (modLane_tame h))
theorem writeRxcCtl_tame (h : Tame still s u) {p v} : Tame still s (writeRxcCtl p v u) := modPort_tame h
theorem writeRxcWin_tame (h : Tame still s u) {p v} : Tame still s (writeRxcWin p v u) := modPort_tame h
theorem writeRxcStat_tame (h : Tame still s u) {p v} : Tame still s (writeRxcStat p v u) := modPort_tame h
theorem startMove_tame (h : Tame still s u) : Tame still s u.startMove := ite_tame h (modSdc_tame (modAxc1_tame (modClk_tame h)))
theorem ckRefSwitch_tame (h : Tame still s u) : Tame still s (ckRefSwitch u) := by
  unfold ckRefSwitch
  refine startMove_tame ?_
  split
  · exact until_tame h
  · exact h
theorem sourceEvent_tame (h : Tame still s u) {a__internal_hyg0} : Tame still s (u.sourceEvent a__internal_hyg0) := by
  unfold State.sourceEvent
  split
  · exact raise_tame h
  · exact raise_tame h
  · exact h
theorem ckRefSourceLost_tame (h : Tame still s u) {r} : Tame still s (ckRefSourceLost r u) := ite_tame h (startMove_tame (sourceEvent_tame (modClk_tame h)))
theorem ckRefSourceQualified_tame (h : Tame still s u) {r} : Tame still s (ckRefSourceQualified r u) :=
  ite_tame h (startMove_tame (sourceEvent_tame (modClk_tame (ite_tame (until_tame h) h))))
theorem startRetune_tame (h : Tame still s u) : Tame still s u.startRetune := ite_tame (modClk_tame h) (modClk_tame h)
theorem serveRetune_tame (h : Tame still s u) : Tame still s u.serveRetune := ite_tame (startRetune_tame h) h
theorem ckRefRampComplete_tame (h : Tame still s u) : Tame still s (ckRefRampComplete u) := by
  unfold ckRefRampComplete
  split
  · exact modClk_tame (until_tame (serveRetune_tame (raise_tame (modClk_tame (until_tame h)))))
  · exact h
theorem writeClkCtl_tame (h : Tame still s u) {v} : Tame still s (writeClkCtl v u) := startMove_tame (modClk_tame h)
theorem writeClkStat_tame (h : Tame still s u) {v} : Tame still s (writeClkStat v u) := modClk_tame h
theorem setFs_tame (h : Tame still s u) {n} : Tame still s (u.setFs n) := startRetune_tame (modClk_tame h)
theorem loseSampling_tame (h : Tame still s u) : Tame still s u.loseSampling := raise_tame (forPorts_tame (modClk_tame h) (fun _ _ hv => modPort_tame hv))
theorem samplingLockLost_tame (h : Tame still s u) : Tame still s (samplingLockLost u) := ite_tame (loseSampling_tame h) h
theorem samplingLockRegained_tame (h : Tame still s u) : Tame still s (samplingLockRegained u) := ite_tame h (raise_tame (modClk_tame h))
theorem fsRetuneTimeout_tame (h : Tame still s u) : Tame still s (fsRetuneTimeout u) := by
  unfold fsRetuneTimeout
  split
  · exact loseSampling_tame (modClk_tame (until_tame h))
  · exact h
theorem samplingLoopRetuneLock_tame (h : Tame still s u) : Tame still s (samplingLoopRetuneLock u) := by
  unfold samplingLoopRetuneLock
  split
  · refine ite_tame (fsRetuneTimeout_tame h) ?_
    exact serveRetune_tame (modClk_tame (elapse_tame (until_tame h)))
  · exact h
theorem probeLockLost_tame (h : Tame still s u) : Tame still s (probeLockLost u) := by
  unfold probeLockLost
  refine ite_tame ?_ h
  exact raise_tame (forPorts_tame (modClk_tame h) (fun _ v hv => modPort_tame (closeGate_tame hv)))
theorem probeLockRegained_tame (h : Tame still s u) : Tame still s (probeLockRegained u) := by
  unfold probeLockRegained
  refine ite_tame h ?_
  exact forPorts_tame (elapse_tame (raise_tame (modClk_tame h))) (fun _ v hv => ite_tame (beginEpoch_tame (modPort_tame hv)) hv)
theorem ckgBit_tame (h : Tame still s u) {v i} : Tame still s (u.ckgBit v i) := by
  unfold State.ckgBit
  dsimp only
  refine ite_tame ?_ ?_
  · refine ite_tame (modClk_tame h) ?_
    split
    · exact dropConv_tame (modClk_tame h)
    · exact modClk_tame h
  · refine ite_tame ?_ h
    split
    · exact returnConv_tame (modClk_tame h)
    · exact modClk_tame h
theorem writeCkg_tame (h : Tame still s u) {r v} : Tame still s (writeCkg r v u) := by
  unfold writeCkg
  split
  · exact foldl_tame h (fun v _ hv => ckgBit_tame hv)
  · exact foldl_tame h (fun v _ hv => ite_tame (modClk_tame hv) (modClk_tame hv))
theorem writeCkgStat_tame (h : Tame still s u) {v} : Tame still s (writeCkgStat v u) := modClk_tame h
theorem writeFcntCtl_tame (h : Tame still s u) {v} : Tame still s (writeFcntCtl v u) := modClk_tame h
theorem writeFcntStat_tame (h : Tame still s u) {v} : Tame still s (writeFcntStat v u) := modClk_tame h
theorem fcntDone_tame (h : Tame still s u) {m r} : Tame still s (fcntDone m r u) := ite_tame (raise_tame (modClk_tame h)) h
theorem fcntNoclk_tame (h : Tame still s u) : Tame still s (fcntNoclk u) := by
  unfold fcntNoclk
  refine ite_tame ?_ h
  exact raise_tame (modClk_tame (fresh_tame_2 (fresh_tame_2 (elapse_tame h))))
theorem writeAxc1Ctl_tame (h : Tame still s u) {v} : Tame still s (writeAxc1Ctl v u) := modAxc1_tame h
theorem writeAxc1Seq_tame (h : Tame still s u) {n v} : Tame still s (writeAxc1Seq n v u) := modAxc1_tame h
theorem writeAxc1Lim_tame (h : Tame still s u) {n v} : Tame still s (writeAxc1Lim n v u) := modAxc1_tame h
theorem writeAxc1Stat_tame (h : Tame still s u) {v} : Tame still s (writeAxc1Stat v u) := modAxc1_tame h
theorem writeAxc1Urg_tame (h : Tame still s u) {v} : Tame still s (writeAxc1Urg v u) := ite_tame h (modAxc1_tame h)
theorem axc1Deliver_tame (h : Tame still s u) {run code ovr under nset inval} : Tame still s (axc1Deliver run code ovr under nset inval u) := by
  unfold axc1Deliver
  dsimp only
  split
  · exact modAxc1_tame (raise_tame (modAxc1_tame h))
  · split
    · exact h
    · exact modAxc1_tame (ite_tame (raise_tame (modAxc1_tame h)) (modAxc1_tame h))
theorem axc1EntryComplete_tame (h : Tame still s u) {m} : Tame still s (axc1EntryComplete m u) := by
  unfold axc1EntryComplete
  split
  · exact h
  · exact ite_tame (axc1Deliver_tame (modAxc1_tame (until_tame h))) (axc1Deliver_tame (fresh_tame_2 (modAxc1_tame (until_tame h))))
theorem modTrig_tame (h : Tame still s u) {t f} : Tame still s (u.modTrig t f) := by
  unfold State.modTrig
  split
  · exact modLook_tame h
  · exact h
theorem openCapture_tame (h : Tame still s u) {f} : Tame still s (u.openCapture f) := by
  unfold State.openCapture
  exact modTrig_tame (modLook_tame h)
theorem trigFails_tame (h : Tame still s u) {t} : Tame still s (u.trigFails t) := raise_tame (modTrig_tame h)
theorem fireAuto_tame (h : Tame still s u) {f} : Tame still s (u.fireAuto f) :=
  ite_tame h (ite_tame (modTrig_tame h) (ite_tame (trigFails_tame h) (openCapture_tame h)))
theorem triggerFiring_tame (h : Tame still s u) : Tame still s (triggerFiring u) := by
  unfold triggerFiring
  split
  · exact fireAuto_tame (modLook_tame h)
  · split
    · exact h
    · exact fireAuto_tame (modTrig_tame (untilDev_tame h))
theorem setRawLost_tame (h : Tame still s u) {p n} : Tame still s (u.setRawLost p n) := by
  unfold State.setRawLost
  split
  · exact modLook_tame h
  · exact h
theorem capturePinning_tame (h : Tame still s u) {id} : Tame still s (capturePinning id u) := by
  unfold capturePinning
  split
  · exact h
  · exact ite_tame (trigFails_tame (modLook_tame (untilDev_tame h))) (raise_tame (modZone_tame (setRawLost_tame (modLook_tame (untilDev_tame h)))))
theorem releaseCapture_tame (h : Tame still s u) {id} : Tame still s (u.releaseCapture id) := by
  unfold State.releaseCapture
  split
  · exact h
  · exact modZone_tame (setRawLost_tame (modLook_tame h))
theorem capHoldExpiry_tame (h : Tame still s u) {id} : Tame still s (capHoldExpiry id u) := by
  unfold capHoldExpiry
  dsimp only
  split
  · exact ite_tame h (releaseCapture_tame (until_tame h))
  · exact h
theorem fireCommand_tame_2 (h : Tame still s u) {t} : Tame still s (u.fireCommand t).2 := by
  unfold State.fireCommand
  dsimp only
  refine ite_tame_2 h ?_
  refine ite_tame_2 ?_ ?_
  · dsimp only
    exact modTrig_tame h
  · refine ite_tame_2 h ?_
    dsimp only
    exact openCapture_tame h
theorem dumpCapture_tame (h : Tame still s u) {c} : Tame still s (u.dumpCapture c) := foldl_tame h (fun _ _ hv => push_tame hv)
theorem reanalysisEnd_tame (h : Tame still s u) {preempted} : Tame still s (reanalysisEnd preempted u) := by
  unfold reanalysisEnd
  split
  · exact h
  · exact endJob_tame h
theorem vatEnd_tame (h : Tame still s u) {n len} : Tame still s (u.vatEnd n len) := by
  have hf {e f : Engine} (he : EngineOk e) (hd : f.dmem = e.dmem) (hw : f.win = e.win) (hl : f.lastMem = some e.dmem) : EngineOk f := by
    unfold EngineOk
    rw [hd, hw, hl]
    exact ⟨he.1, he.2.1, fun m hm => by cases hm; exact he.1⟩
  unfold State.vatEnd
  refine afterInvocation_tame ?_
  dsimp only
  split
  · refine ite_tame ?_ (emitFrame_tame ?_)
    · exact modEng_tame h fun _ he => hf he rfl rfl rfl
    · exact modEng_tame h fun _ he => hf he rfl rfl rfl
  · exact modEng_tame h fun _ he => hf he rfl rfl rfl
theorem fireVat_tame (h : Tame still s u) {e code} : Tame still s (u.fireVat e code) := by
  unfold State.fireVat
  split
  · exact modLook_tame h
  · exact h
theorem vatStep_tame (h : Tame still s u) {n op body} (hb : ∀ e w, EngineOk e → ResOk (body e w)) : Tame still s (u.vatStep n op body) := by
  have hr {r : VatRes} {w : Word} (hr : body u.engines[n] w = r) (hs : s.memOk) : ResOk r := hr ▸ hb _ _ (h.engine hs n)
  have hgo {r : Engine} {next c} (hr : s.memOk → EngineOk r) :
      Tame still s (u.modEng n fun _ => { r.endIter u.engines[n].pc next with opc := c }) :=
    modEng_tame_of h fun hs _ _ => (EngineOk.of_memories (hr hs) (memories_endIter r u.engines[n].pc next)).keep
  simp only [State.vatStep]
  split
  · exact h
  split
  · exact vatFault_tame h
  split
  · exact vatFault_tame h
  split
  · exact h
  split
  · exact vatFault_tame h
  split
  · exact vatFault_tame h
  split
  next hres => exact hgo (hr hres)
  next hres =>
    split
    · exact hgo (hr hres)
    · exact modEng_tame_of h fun hs _ _ => EngineOk.keep (hr hres hs)
  next hres => exact ite_tame (raiseN_tame (fireVat_tame (hgo (hr hres)))) (fireVat_tame (hgo (hr hres)))
  · exact modEng_tame h fun _ he => he.keep
  · exact h
  · exact vatFault_tame h
  · exact vatEnd_tame (modEng_tame h fun _ he => he.keep)
theorem vatTransferDone_tame (h : Tame still s u) {n k} : Tame still s (vatTransferDone n k u) := by
  unfold vatTransferDone
  split
  · exact h
  next t _ =>
    refine modEng_tame h fun e he => ?_
    dsimp only
    split
    · exact (he.transfer (t := t)).keep
    · exact (he.transfer (t := t)).keep
theorem vatWaitLim_tame (h : Tame still s u) {n} : Tame still s (vatWaitLim n u) := by
  unfold vatWaitLim
  dsimp only
  split
  · exact h
  · exact vatFault_tame (until_tame h)
theorem vatInvoke_tame (h : Tame still s u) {n} : Tame still s (vatInvoke n u) := by
  simp only [vatInvoke]
  split
  · refine modEng_tame ?_ fun e he => ⟨he.1, fun w => ?_, he.2.2⟩
    · split
      · exact modLadle_tame h
      · exact h
    · by_cases h3 : w = 3
      · subst h3; simpa using Laws.writes_wf _ _ _ rfl
      · by_cases h0 : w = 0
        · subst h0; simpa using Laws.writes_wf _ _ _ rfl
        · have h3' : ¬ 3 = w.val := fun hv => h3 (Fin.ext hv.symm)
          have h0' : ¬ 0 = w.val := fun hv => h0 (Fin.ext hv.symm)
          simpa [h3', h0'] using he.2.1 w
  · exact h
theorem writeVatCtl_tame (h : Tame still s u) {n v} : Tame still s (writeVatCtl n v u) :=
  ite_tame (vatFault_tame (hazardIf_tame (modEng_tame h (fun _ he => he.keep)))) (hazardIf_tame (modEng_tame h (fun _ he => he.keep)))
theorem unshedZone_tame (h : Tame still s u) {z} : Tame still s (u.unshedZone z) := by
  unfold State.unshedZone
  split
  · exact h
  · exact raise_tame (wheyZone_tame (modZone_tame h))
theorem leaveUnit_tame (h : Tame still s u) {m} : Tame still s (u.leaveUnit m) := by
  unfold State.leaveUnit
  refine ite_tame (retireUnit_tame h) ?_
  split
  · exact ite_tame (refreshLadle_tame (modEng_tame h (fun _ he => he.keep))) (refreshLadle_tame (modEng_tame h (fun _ he => he.keep)))
  · exact refreshLadle_tame h
theorem handOver_tame (h : Tame still s u) {m} : Tame still s (u.handOver m) := by
  have h0 : Tame still s (u.markUnit m.source 1 0) := markUnit_tame h
  refine raise_tame (bumpGen_tame (syncPress_tame (leaveUnit_tame (modLadle_tame (mk_tame ?_)))))
  split
  · exact modEng_tame_of h0 fun hs _ _ => (h0.engine hs _).keep
  · exact modPress_tame (modPress_tame h0)
  · exact modPipe_tame (modPipe_tame h0)
  · exact h0
theorem targetFails_tame (h : Tame still s u) {m} : Tame still s (u.targetFails m) := by
  unfold State.targetFails
  dsimp only
  split
  · refine migrate_tame ?_
    refine retireUnit_tame ?_
    refine markUnit_tame ?_
    split
    · exact modPipe_tame (modLadle_tame h)
    · exact modLadle_tame h
  · refine raise_tame ?_
    refine refreshLadle_tame ?_
    split
    · refine modLadle_tame ?_
      refine retireUnit_tame ?_
      refine markUnit_tame ?_
      split
      · exact modPipe_tame (modLadle_tame h)
      · exact modLadle_tame h
    · refine retireUnit_tame ?_
      refine markUnit_tame ?_
      split
      · exact modPipe_tame (modLadle_tame h)
      · exact modLadle_tame h
theorem migrationComplete_tame (h : Tame still s u) {u' ok} : Tame still s (migrationComplete u' ok u) := by
  unfold migrationComplete
  split
  · exact h
  · exact ite_tame h (ite_tame (handOver_tame (until_tame h)) (targetFails_tame (until_tame h)))
theorem abandon_tame (h : Tame still s u) {m} : Tame still s (u.abandon m) := by
  unfold State.abandon
  dsimp only
  refine raise_tame ?_
  refine refreshLadle_tame ?_
  refine modLadle_tame ?_
  refine markUnit_tame ?_
  split
  · exact modPipe_tame h
  · exact h
theorem unitLost_tame (h : Tame still s u) {u' readable} : Tame still s (unitLost u' readable u) := by
  unfold unitLost
  dsimp only
  split
  · refine raise_tame ?_
    refine markRetired_tame ?_
    refine handOver_tame ?_
    split
    · exact abandon_tame h
    · exact h
  · split
    · refine raise_tame ?_
      refine losePipe_tame ?_
      refine markRetired_tame ?_
      refine losePins_tame ?_
      refine modLadle_tame ?_
      split
      · exact abandon_tame h
      · exact h
    · refine raise_tame ?_
      refine markRetired_tame ?_
      refine loseEngine_tame ?_
      refine losePins_tame ?_
      refine modLadle_tame ?_
      split
      · exact abandon_tame h
      · exact h
    · refine raise_tame ?_
      refine freeJobs_tame ?_
      refine movePress_tame ?_
      refine markRetired_tame ?_
      refine raiseN_tame ?_
      refine modPress_tame ?_
      refine losePins_tame ?_
      refine modLadle_tame ?_
      split
      · exact abandon_tame h
      · exact h
    · refine raise_tame ?_
      refine retireConv_tame ?_
      refine modLadle_tame ?_
      split
      · exact abandon_tame h
      · exact h
    · split
      · exact abandon_tame h
      · exact h
theorem unshedLast_tame_1 (h : Tame still s u) : Tame still s (u.unshedLast).1 := by
  unfold State.unshedLast
  split
  · dsimp only
    split
    · dsimp only
      exact refreshLadle_tame (foldl_tame (applyPlacement_tame (modLadle_tame h)) (fun v _ hv => unshedZone_tame hv))
    · exact h
  · dsimp only
    split
    · dsimp only
      exact refreshLadle_tame (unshedZone_tame (applyPlacement_tame (modLadle_tame h)))
    · exact h
  · split
    · dsimp only
      split
      · dsimp only
        exact raise_tame (refreshLadle_tame (applyPlacement_tame (modLadle_tame h)))
      · exact h
    · exact h
theorem unshed_tame (h : Tame still s u) {n} : Tame still s (u.unshed n) := by
  induction n generalizing u with
  | zero => exact h
  | succ n ih =>
    simp only [State.unshed]
    split
    · exact ih (unshedLast_tame_1 h)
    · exact h
theorem shedReplacement_tame (h : Tame still s u) : Tame still s (shedReplacement u) := unshed_tame h
theorem siteDay_tame (h : Tame still s u) {i} : Tame still s (u.siteDay i) := by
  unfold State.siteDay
  dsimp only
  refine ite_tame (modLadle_tame h) ?_
  split
  · exact ite_tame (retirePlanned_tame (ite_tame (raise_tame (modLadle_tame (modLadle_tame h))) (modLadle_tame (modLadle_tame h)))) (ite_tame
        (raise_tame (modLadle_tame (modLadle_tame h))) (modLadle_tame (modLadle_tame h)))
  · exact ite_tame (raise_tame (modLadle_tame (modLadle_tame h))) (modLadle_tame (modLadle_tame h))
theorem dailyDrift_tame (h : Tame still s u) : Tame still s (dailyDrift u) := foldl_tame (untilDev_tame h) (fun _ _ hv => siteDay_tame hv)
theorem dailySpareSelfTest_tame (h : Tame still s u) : Tame still s (dailySpareSelfTest u) := startTests_tame h
theorem selfTestComplete_tame (h : Tame still s u) {u' pass cal} : Tame still s (selfTestComplete u' pass cal u) := by
  unfold selfTestComplete
  refine ite_tame h ?_
  dsimp only
  split
  · exact ite_tame (modLadle_tame (calibrated_tame (modLadle_tame h))) (calibrated_tame (modLadle_tame h))
  · refine ite_tame (modLadle_tame (modLadle_tame h)) ?_
    split
    · exact targetFails_tame (modLadle_tame h)
    · exact retireUnit_tame (modLadle_tame h)
/-- Every step of an ageing item is tame. -/
theorem agingItems_tame {x : Nat × Time × (State → State)} (hx : x ∈ u.agingItems) {v : State} (hv : Tame still s v) : Tame still s (x.2.2 v) := by
  simp only [State.agingItems, List.mem_filter, List.mem_append, List.mem_map, List.mem_flatMap] at hx
  obtain ⟨((⟨_, _, rfl⟩ | ⟨_, _, _, _, rfl⟩) | ⟨_, _, rfl⟩) | ⟨_, _, rfl⟩, _⟩ := hx
  all_goals dsimp only
  · exact mk_tame hv
  · exact modPress_tame hv
  · exact mk_tame hv
  · exact modLadle_tame hv
/-- A choice between two, folded over a list, gives one of them. -/
theorem foldl_ite_mem {α : Type} (p : α → α → Prop) [DecidableRel p] (l : List α) (a : α) :
    l.foldl (fun a b => if p b a then b else a) a ∈ a :: l := by
  induction l generalizing a with
  | nil => exact List.mem_cons_self
  | cons b l ih =>
    have hm := ih (if p b a then b else a)
    rw [List.foldl_cons]
    rcases List.mem_cons.1 hm with he | hl
    · rw [he]; split <;> simp
    · exact List.mem_cons_of_mem _ (List.mem_cons_of_mem _ hl)
theorem workItemAged_tame (h : Tame still s u) : Tame still s (workItemAged u) := by
  unfold workItemAged
  split
  · exact h
  next x xs hx =>
    have hm := foldl_ite_mem (fun a b => u.ageDue a < u.ageDue b) xs x
    have h1 := agingItems_tame (hx ▸ hm) (until_tame h (t := u.ageDue (xs.foldl (fun a b => if u.ageDue b < u.ageDue a then b else a) x)))
    dsimp only
    split
    · exact modLadle_tame h1
    · exact h1
theorem overflowBlockTimeout_tame (h : Tame still s u) {zi} : Tame still s (overflowBlockTimeout zi u) := by
  unfold overflowBlockTimeout
  dsimp only
  split
  · exact hostLate_tame (discard_tame (modLadle_tame (mk_tame (until_tame h))))
  · exact hostLate_tame (discard_tame (modLadle_tame (onEng_tame (untilDev_tame h) (fun _ he => he.keep))))
  · exact h
theorem discardRunRecord_tame (h : Tame still s u) {zi} : Tame still s (discardRunRecord zi u) := by
  unfold discardRunRecord
  dsimp only
  split
  · exact h
  · split
    · exact h
    · exact wheyZone_tame (modZone_tame (until_tame h))
theorem drainHostTimeout_tame (h : Tame still s u) {zi} : Tame still s (drainHostTimeout zi u) := by
  unfold drainHostTimeout
  dsimp only
  split
  · exact h
  · exact endDrain_tame (modZone_tame (ite_tame (modLadle_tame (mk_tame (until_tame h))) (wheyZone_tame (modLadle_tame (mk_tame (until_tame h))))))
theorem pressBlockCoded_tame (h : Tame still s u) {n} : Tame still s (pressBlockCoded n u) := by
  unfold pressBlockCoded
  split
  · exact h
  · exact endDrain_tame (stage_tame (ite_tame (raiseN_tame (modPress_tame h)) (modPress_tame h)))
theorem hostJobStart_tame (h : Tame still s u) {n} : Tame still s (hostJobStart n u) := by
  unfold hostJobStart
  dsimp only
  refine ite_tame (mk_tame h) ?_
  split
  · exact mk_tame h
  · exact modPress_tame (mk_tame h)
theorem finishJob_tame (h : Tame still s u) {n j e c r p} : Tame still s (u.finishJob n j e c r p) := by
  have h1 : Tame still s { u with
      jobs := u.jobs.filter fun x => x != j
      hostArea := (u.hostArea.writes (jobField j.desc 40 8) e.out).writes (jobField j.desc 56 8) (jobRecord j.desc e c r n.val p) } :=
    h.of_hostArea rfl rfl (fun hu => by
      dsimp only
      exact Laws.writes_wf _ _ _ (Laws.writes_wf _ _ _ hu)) fun _ => rfl
  unfold State.finishJob
  dsimp only
  split
  · exact raiseN_tame (modPress_tame h1)
  · exact modPress_tame h1
theorem hostJobStop_tame (h : Tame still s u) {n input how} : Tame still s (hostJobStop n input how u) := by
  unfold hostJobStop
  split
  · exact h
  · exact mk_tame (finishJob_tame h)
theorem cancelJobs_tame (h : Tame still s u) {tag} : Tame still s (u.cancelJobs tag) := mk_tame h
theorem abortJob_tame (h : Tame still s u) {n} : Tame still s (u.abortJob n) := by
  unfold State.abortJob
  split
  · exact h
  · exact mk_tame (finishJob_tame (fresh_tame_2 (freshBytes_tame_2 (fresh_tame_2 (fresh_tame_2 h)))))
theorem writePressCtl_tame (h : Tame still s u) {n v} : Tame still s (writePressCtl n v u) :=
  ite_tame (ite_tame (modPress_tame (ite_tame (modPress_tame (freeJobs_tame (abortJob_tame (movePress_tame (hazardIf_tame (modPress_tame h))))))
      (hazardIf_tame (modPress_tame h)))) (refreshLadle_tame (ite_tame (mk_tame (modPress_tame (ite_tame (modPress_tame (freeJobs_tame (abortJob_tame
      (movePress_tame (hazardIf_tame (modPress_tame h)))))) (hazardIf_tame (modPress_tame h))))) (raiseN_tame (mk_tame (modPress_tame (ite_tame
      (modPress_tame (freeJobs_tame (abortJob_tame (movePress_tame (hazardIf_tame (modPress_tame h)))))) (hazardIf_tame (modPress_tame h)))))))))
      (ite_tame (refreshLadle_tame (modPress_tame (ite_tame (modPress_tame (freeJobs_tame (abortJob_tame (movePress_tame (hazardIf_tame
      (modPress_tame h)))))) (hazardIf_tame (modPress_tame h))))) (ite_tame (modPress_tame (freeJobs_tame (abortJob_tame (movePress_tame
      (hazardIf_tame (modPress_tame h)))))) (hazardIf_tame (modPress_tame h))))
theorem pressDrainComplete_tame (h : Tame still s u) {n} : Tame still s (pressDrainComplete n u) := ite_tame (raiseN_tame (modPress_tame h)) h
theorem finish_tame (h : Tame still s u) {i op k st items} : Tame still s (u.finish i op k st items) := by
  unfold State.finish
  refine ite_tame (complete_tame h) ?_
  exact ite_tame (raise_tame (freeSlot_tame h)) (freeSlot_tame h)
theorem bindSlot_tame (h : Tame still s u) {k i} : Tame still s (u.bindSlot k i) := by
  unfold State.bindSlot
  dsimp only
  split
  · exact modCr_tame h
  · exact h
theorem openSession_tame (h : Tame still s u) {k p} : Tame still s (openSession k p u) := by
  unfold openSession
  split
  · exact answer_tame h
  · exact complete_tame (bindSlot_tame (modSess_tame h))
theorem closeSession_tame (h : Tame still s u) {i} : Tame still s (u.closeSession i) := by
  unfold State.closeSession
  exact modSess_tame (foldl_tame h (fun v _ hv => freeSlot_tame hv))
theorem stageCmd_tame_2 (h : Tame still s u) {i op k p} : Tame still s (stageCmd i op k p u).2 := by
  unfold stageCmd
  split
  · exact h
  · refine ite_tame_2 h ?_
    dsimp only
    refine ite_tame_2 h ?_
    dsimp only
    exact modSess_tame h
theorem run_done_tame_of {r : Res} {st l t} (hr : ResTame still s r) (he : r = .done st l t) : Tame still s t := by subst he; exact hr
theorem run_later_tame_of {r : Res} {t} (hr : ResTame still s r) (he : r = .later t) : Tame still s t := by subst he; exact hr
theorem run_sent_tame_of {r : Res} {t} (hr : ResTame still s r) (he : r = .sent t) : Tame still s t := by subst he; exact hr
theorem start_tame (h : Tame still s u) {i op k run} (hr : ∀ i k p v, Tame still s v → ResTame still s (run i k p v)) : Tame still s (u.start i op k run) := by
  unfold State.start
  dsimp only
  split
  · exact complete_tame (modSess_tame h)
  split
  · exact complete_tame (modSess_tame h)
  split
  · exact complete_tame (stageCmd_tame_2 (modSess_tame h))
  split
  · exact modSess_tame (modSess_tame h)
  split
  next hres => exact complete_tame (run_done_tame_of (hr _ _ _ _ (modSess_tame h)) hres)
  next hres => exact modSess_tame (run_later_tame_of (hr _ _ _ _ (modSess_tame h)) hres)
  next hres => exact run_sent_tame_of (hr _ _ _ _ (modSess_tame h)) hres
theorem arrive_tame (h : Tame still s u) {op k run} (hr : ∀ i k p v, Tame still s v → ResTame still s (run i k p v)) : Tame still s (arrive op k run u) := by
  unfold arrive
  split
  · exact h
  split
  · exact answer_tame h
  split
  · split
    · exact answer_tame h
    · exact openSession_tame h
  split
  · exact answer_tame h
  dsimp only
  split
  · exact answer_tame h
  split
  · exact freeSlot_tame (sendAll_tame (modSess_tame h))
  · exact ite_tame (modSess_tame h) (ite_tame (answer_tame (modSess_tame h)) (ite_tame (modSess_tame (modSess_tame h)) (start_tame (modSess_tame h)
        hr)))
theorem fixFirst_tame (h : Tame still s u) : Tame still s u.fixFirst := by
  unfold State.fixFirst
  split
  · exact h
  · refine ite_tame h ?_
    exact mk_tame h
theorem tryCommit_tame_of {t} (h : Tame still s u) {staged owner} (ht : u.tryCommit staged owner = .ok t) : Tame still s t := by
  simp only [State.tryCommit] at ht
  split at ht
  · cases ht
  · split at ht
    · cases ht
    · cases ht
      refine fixFirst_tame ?_
      split
      · exact modSess_tame (mk_tame h)
      · exact mk_tame h
theorem restartRaw_tame (h : Tame still s u) {p} : Tame still s (u.restartRaw p) := by
  unfold State.restartRaw
  split
  · exact modLook_tame h
  · exact h
theorem markPlan_tame (h : Tame still s u) {p} : Tame still s (u.markPlan p) := modLook_tame h
theorem portFs_tame (h : Tame still s u) {p old new} : Tame still s (u.portFs p old new) := markPlan_tame (restartRaw_tame (modPort_tame h))
theorem applyDevice_tame (h : Tame still s u) {c} : Tame still s (u.applyDevice c) :=
  ite_tame (forPorts_tame (setFs_tame (ite_tame (unfollow_tame (ite_tame (writeTiuCtl_tame (ite_tame (writeClkCtl_tame (foldl_tame (forPorts_tame
      (mk_tame h) (fun _ _ hv => ite_tame (modPort_tame hv) hv)) (fun _ _ hv => modTrig_tame hv))) (foldl_tame (forPorts_tame (mk_tame
      h) (fun _ _ hv => ite_tame (modPort_tame hv) hv)) (fun _ _ hv => modTrig_tame hv)))) (ite_tame (writeClkCtl_tame (foldl_tame
      (forPorts_tame (mk_tame h) (fun _ _ hv => ite_tame (modPort_tame hv) hv)) (fun _ _ hv => modTrig_tame hv))) (foldl_tame
      (forPorts_tame (mk_tame h) (fun _ _ hv => ite_tame (modPort_tame hv) hv)) (fun _ _ hv => modTrig_tame hv))))) (ite_tame
      (writeTiuCtl_tame (ite_tame (writeClkCtl_tame (foldl_tame (forPorts_tame (mk_tame h) (fun _ _ hv => ite_tame (modPort_tame hv) hv))
      (fun _ _ hv => modTrig_tame hv))) (foldl_tame (forPorts_tame (mk_tame h) (fun _ _ hv => ite_tame (modPort_tame hv) hv)) (fun _ _
      hv => modTrig_tame hv)))) (ite_tame (writeClkCtl_tame (foldl_tame (forPorts_tame (mk_tame h) (fun _ _ hv => ite_tame (modPort_tame hv)
      hv)) (fun _ _ hv => modTrig_tame hv))) (foldl_tame (forPorts_tame (mk_tame h) (fun _ _ hv => ite_tame (modPort_tame hv) hv)) (fun _ _
      hv => modTrig_tame hv)))))) (fun _ _ hv => portFs_tame hv)) (ite_tame (unfollow_tame (ite_tame (writeTiuCtl_tame (ite_tame (writeClkCtl_tame
      (foldl_tame (forPorts_tame (mk_tame h) (fun _ _ hv => ite_tame (modPort_tame hv) hv)) (fun _ _ hv => modTrig_tame hv))) (foldl_tame
      (forPorts_tame (mk_tame h) (fun _ _ hv => ite_tame (modPort_tame hv) hv)) (fun _ _ hv => modTrig_tame hv)))) (ite_tame (writeClkCtl_tame
      (foldl_tame (forPorts_tame (mk_tame h) (fun _ _ hv => ite_tame (modPort_tame hv) hv)) (fun _ _ hv => modTrig_tame hv))) (foldl_tame
      (forPorts_tame (mk_tame h) (fun _ _ hv => ite_tame (modPort_tame hv) hv)) (fun _ _ hv => modTrig_tame hv))))) (ite_tame
      (writeTiuCtl_tame (ite_tame (writeClkCtl_tame (foldl_tame (forPorts_tame (mk_tame h) (fun _ _ hv => ite_tame (modPort_tame hv) hv)) (fun _
      _ hv => modTrig_tame hv))) (foldl_tame (forPorts_tame (mk_tame h) (fun _ _ hv => ite_tame (modPort_tame hv) hv)) (fun _ _ hv =>
      modTrig_tame hv)))) (ite_tame (writeClkCtl_tame (foldl_tame (forPorts_tame (mk_tame h) (fun _ _ hv => ite_tame (modPort_tame hv) hv)) (fun
      _ _ hv => modTrig_tame hv))) (foldl_tame (forPorts_tame (mk_tame h) (fun _ _ hv => ite_tame (modPort_tame hv) hv)) (fun _ _ hv =>
      modTrig_tame hv)))))
theorem createZone_tame (h : Tame still s u) {z} : Tame still s (u.createZone z) := by
  unfold State.createZone
  dsimp only
  refine restartCurd_tame ?_
  split
  · exact modZone_tame (closeAll_tame h)
  · exact mk_tame h
theorem withdrawZone_tame (h : Tame still s u) {old z} : Tame still s (u.withdrawZone old z) := modZone_tame h
theorem putRxc_tame (h : Tame still s u) {c p} : Tame still s (u.putRxc c p) :=
  ite_tame (modPort_tame (ite_tame (modPort_tame h) h)) (ite_tame (modPort_tame h) h)
theorem lanePower_tame (h : Tame still s u) {p on} : Tame still s (u.lanePower p on) := foldl_tame h (fun _ _ hv => modLane_tame hv)
theorem retime_tame (h : Tame still s u) {p restart} : Tame still s (u.retime p restart) :=
  ite_tame (modPort_tame (closeGate_tame h)) (ite_tame (modPort_tame h) (ite_tame (modPort_tame h) h))
theorem applyPort_tame (h : Tame still s u) {c p} : Tame still s (u.applyPort c p) :=
  driveInhibit_tame (foldl_tame (applyPlacement_tame (ite_tame (modPort_tame (closeGate_tame (ite_tame (modPort_tame (ite_tame (restartRaw_tame
      (ite_tame (markPlan_tame (modPort_tame (atBoundary_tame (ite_tame (startEpoch_tame (retime_tame (foldl_tame (foldl_tame (foldl_tame (foldl_tame
      (putRxc_tame (ite_tame (lanePower_tame (modPort_tame (mk_tame h))) (ite_tame (lanePower_tame (modPort_tame (mk_tame h))) (modPort_tame (mk_tame
      h))))) (fun _ _ hv => withdrawZone_tame hv)) (fun _ _ hv => createZone_tame hv)) (fun _ _ hv => rezone_tame hv)) (fun _ _
      hv => modZone_tame hv)))) (retime_tame (foldl_tame (foldl_tame (foldl_tame (foldl_tame (putRxc_tame (ite_tame (lanePower_tame (modPort_tame
      (mk_tame h))) (ite_tame (lanePower_tame (modPort_tame (mk_tame h))) (modPort_tame (mk_tame h))))) (fun _ _ hv => withdrawZone_tame hv))
      (fun _ _ hv => createZone_tame hv)) (fun _ _ hv => rezone_tame hv)) (fun _ _ hv => modZone_tame hv))))))) (modPort_tame
      (atBoundary_tame (ite_tame (startEpoch_tame (retime_tame (foldl_tame (foldl_tame (foldl_tame (foldl_tame (putRxc_tame (ite_tame (lanePower_tame
      (modPort_tame (mk_tame h))) (ite_tame (lanePower_tame (modPort_tame (mk_tame h))) (modPort_tame (mk_tame h))))) (fun _ _ hv =>
      withdrawZone_tame hv)) (fun _ _ hv => createZone_tame hv)) (fun _ _ hv => rezone_tame hv)) (fun _ _ hv => modZone_tame
      hv)))) (retime_tame (foldl_tame (foldl_tame (foldl_tame (foldl_tame (putRxc_tame (ite_tame (lanePower_tame (modPort_tame (mk_tame h)))
      (ite_tame (lanePower_tame (modPort_tame (mk_tame h))) (modPort_tame (mk_tame h))))) (fun _ _ hv => withdrawZone_tame hv)) (fun _ _ hv
      => createZone_tame hv)) (fun _ _ hv => rezone_tame hv)) (fun _ _ hv => modZone_tame hv)))))))) (ite_tame (markPlan_tame
      (modPort_tame (atBoundary_tame (ite_tame (startEpoch_tame (retime_tame (foldl_tame (foldl_tame (foldl_tame (foldl_tame (putRxc_tame (ite_tame
      (lanePower_tame (modPort_tame (mk_tame h))) (ite_tame (lanePower_tame (modPort_tame (mk_tame h))) (modPort_tame (mk_tame h))))) (fun _ _ hv
      => withdrawZone_tame hv)) (fun _ _ hv => createZone_tame hv)) (fun _ _ hv => rezone_tame hv)) (fun _ _ hv => modZone_tame
      hv)))) (retime_tame (foldl_tame (foldl_tame (foldl_tame (foldl_tame (putRxc_tame (ite_tame (lanePower_tame (modPort_tame (mk_tame h)))
      (ite_tame (lanePower_tame (modPort_tame (mk_tame h))) (modPort_tame (mk_tame h))))) (fun _ _ hv => withdrawZone_tame hv)) (fun _ _ hv
      => createZone_tame hv)) (fun _ _ hv => rezone_tame hv)) (fun _ _ hv => modZone_tame hv))))))) (modPort_tame (atBoundary_tame
      (ite_tame (startEpoch_tame (retime_tame (foldl_tame (foldl_tame (foldl_tame (foldl_tame (putRxc_tame (ite_tame (lanePower_tame (modPort_tame
      (mk_tame h))) (ite_tame (lanePower_tame (modPort_tame (mk_tame h))) (modPort_tame (mk_tame h))))) (fun _ _ hv => withdrawZone_tame hv))
      (fun _ _ hv => createZone_tame hv)) (fun _ _ hv => rezone_tame hv)) (fun _ _ hv => modZone_tame hv)))) (retime_tame
      (foldl_tame (foldl_tame (foldl_tame (foldl_tame (putRxc_tame (ite_tame (lanePower_tame (modPort_tame (mk_tame h))) (ite_tame (lanePower_tame
      (modPort_tame (mk_tame h))) (modPort_tame (mk_tame h))))) (fun _ _ hv => withdrawZone_tame hv)) (fun _ _ hv => createZone_tame hv))
      (fun _ _ hv => rezone_tame hv)) (fun _ _ hv => modZone_tame hv))))))))) (ite_tame (restartRaw_tame (ite_tame (markPlan_tame
      (modPort_tame (atBoundary_tame (ite_tame (startEpoch_tame (retime_tame (foldl_tame (foldl_tame (foldl_tame (foldl_tame (putRxc_tame (ite_tame
      (lanePower_tame (modPort_tame (mk_tame h))) (ite_tame (lanePower_tame (modPort_tame (mk_tame h))) (modPort_tame (mk_tame h))))) (fun _ _ hv
      => withdrawZone_tame hv)) (fun _ _ hv => createZone_tame hv)) (fun _ _ hv => rezone_tame hv)) (fun _ _ hv => modZone_tame
      hv)))) (retime_tame (foldl_tame (foldl_tame (foldl_tame (foldl_tame (putRxc_tame (ite_tame (lanePower_tame (modPort_tame (mk_tame h)))
      (ite_tame (lanePower_tame (modPort_tame (mk_tame h))) (modPort_tame (mk_tame h))))) (fun _ _ hv => withdrawZone_tame hv)) (fun _ _ hv
      => createZone_tame hv)) (fun _ _ hv => rezone_tame hv)) (fun _ _ hv => modZone_tame hv))))))) (modPort_tame (atBoundary_tame
      (ite_tame (startEpoch_tame (retime_tame (foldl_tame (foldl_tame (foldl_tame (foldl_tame (putRxc_tame (ite_tame (lanePower_tame (modPort_tame
      (mk_tame h))) (ite_tame (lanePower_tame (modPort_tame (mk_tame h))) (modPort_tame (mk_tame h))))) (fun _ _ hv => withdrawZone_tame hv))
      (fun _ _ hv => createZone_tame hv)) (fun _ _ hv => rezone_tame hv)) (fun _ _ hv => modZone_tame hv)))) (retime_tame
      (foldl_tame (foldl_tame (foldl_tame (foldl_tame (putRxc_tame (ite_tame (lanePower_tame (modPort_tame (mk_tame h))) (ite_tame (lanePower_tame
      (modPort_tame (mk_tame h))) (modPort_tame (mk_tame h))))) (fun _ _ hv => withdrawZone_tame hv)) (fun _ _ hv => createZone_tame hv))
      (fun _ _ hv => rezone_tame hv)) (fun _ _ hv => modZone_tame hv)))))))) (ite_tame (markPlan_tame (modPort_tame (atBoundary_tame
      (ite_tame (startEpoch_tame (retime_tame (foldl_tame (foldl_tame (foldl_tame (foldl_tame (putRxc_tame (ite_tame (lanePower_tame (modPort_tame
      (mk_tame h))) (ite_tame (lanePower_tame (modPort_tame (mk_tame h))) (modPort_tame (mk_tame h))))) (fun _ _ hv => withdrawZone_tame hv))
      (fun _ _ hv => createZone_tame hv)) (fun _ _ hv => rezone_tame hv)) (fun _ _ hv => modZone_tame hv)))) (retime_tame
      (foldl_tame (foldl_tame (foldl_tame (foldl_tame (putRxc_tame (ite_tame (lanePower_tame (modPort_tame (mk_tame h))) (ite_tame (lanePower_tame
      (modPort_tame (mk_tame h))) (modPort_tame (mk_tame h))))) (fun _ _ hv => withdrawZone_tame hv)) (fun _ _ hv => createZone_tame hv))
      (fun _ _ hv => rezone_tame hv)) (fun _ _ hv => modZone_tame hv))))))) (modPort_tame (atBoundary_tame (ite_tame (startEpoch_tame
      (retime_tame (foldl_tame (foldl_tame (foldl_tame (foldl_tame (putRxc_tame (ite_tame (lanePower_tame (modPort_tame (mk_tame h))) (ite_tame
      (lanePower_tame (modPort_tame (mk_tame h))) (modPort_tame (mk_tame h))))) (fun _ _ hv => withdrawZone_tame hv)) (fun _ _ hv =>
      createZone_tame hv)) (fun _ _ hv => rezone_tame hv)) (fun _ _ hv => modZone_tame hv)))) (retime_tame (foldl_tame (foldl_tame
      (foldl_tame (foldl_tame (putRxc_tame (ite_tame (lanePower_tame (modPort_tame (mk_tame h))) (ite_tame (lanePower_tame (modPort_tame (mk_tame
      h))) (modPort_tame (mk_tame h))))) (fun _ _ hv => withdrawZone_tame hv)) (fun _ _ hv => createZone_tame hv)) (fun _ _ hv =>
      rezone_tame hv)) (fun _ _ hv => modZone_tame hv))))))))))) (ite_tame (modPort_tame (ite_tame (restartRaw_tame (ite_tame (markPlan_tame
      (modPort_tame (atBoundary_tame (ite_tame (startEpoch_tame (retime_tame (foldl_tame (foldl_tame (foldl_tame (foldl_tame (putRxc_tame (ite_tame
      (lanePower_tame (modPort_tame (mk_tame h))) (ite_tame (lanePower_tame (modPort_tame (mk_tame h))) (modPort_tame (mk_tame h))))) (fun _ _ hv
      => withdrawZone_tame hv)) (fun _ _ hv => createZone_tame hv)) (fun _ _ hv => rezone_tame hv)) (fun _ _ hv => modZone_tame
      hv)))) (retime_tame (foldl_tame (foldl_tame (foldl_tame (foldl_tame (putRxc_tame (ite_tame (lanePower_tame (modPort_tame (mk_tame h)))
      (ite_tame (lanePower_tame (modPort_tame (mk_tame h))) (modPort_tame (mk_tame h))))) (fun _ _ hv => withdrawZone_tame hv)) (fun _ _ hv
      => createZone_tame hv)) (fun _ _ hv => rezone_tame hv)) (fun _ _ hv => modZone_tame hv))))))) (modPort_tame (atBoundary_tame
      (ite_tame (startEpoch_tame (retime_tame (foldl_tame (foldl_tame (foldl_tame (foldl_tame (putRxc_tame (ite_tame (lanePower_tame (modPort_tame
      (mk_tame h))) (ite_tame (lanePower_tame (modPort_tame (mk_tame h))) (modPort_tame (mk_tame h))))) (fun _ _ hv => withdrawZone_tame hv))
      (fun _ _ hv => createZone_tame hv)) (fun _ _ hv => rezone_tame hv)) (fun _ _ hv => modZone_tame hv)))) (retime_tame
      (foldl_tame (foldl_tame (foldl_tame (foldl_tame (putRxc_tame (ite_tame (lanePower_tame (modPort_tame (mk_tame h))) (ite_tame (lanePower_tame
      (modPort_tame (mk_tame h))) (modPort_tame (mk_tame h))))) (fun _ _ hv => withdrawZone_tame hv)) (fun _ _ hv => createZone_tame hv))
      (fun _ _ hv => rezone_tame hv)) (fun _ _ hv => modZone_tame hv)))))))) (ite_tame (markPlan_tame (modPort_tame (atBoundary_tame
      (ite_tame (startEpoch_tame (retime_tame (foldl_tame (foldl_tame (foldl_tame (foldl_tame (putRxc_tame (ite_tame (lanePower_tame (modPort_tame
      (mk_tame h))) (ite_tame (lanePower_tame (modPort_tame (mk_tame h))) (modPort_tame (mk_tame h))))) (fun _ _ hv => withdrawZone_tame hv))
      (fun _ _ hv => createZone_tame hv)) (fun _ _ hv => rezone_tame hv)) (fun _ _ hv => modZone_tame hv)))) (retime_tame
      (foldl_tame (foldl_tame (foldl_tame (foldl_tame (putRxc_tame (ite_tame (lanePower_tame (modPort_tame (mk_tame h))) (ite_tame (lanePower_tame
      (modPort_tame (mk_tame h))) (modPort_tame (mk_tame h))))) (fun _ _ hv => withdrawZone_tame hv)) (fun _ _ hv => createZone_tame hv))
      (fun _ _ hv => rezone_tame hv)) (fun _ _ hv => modZone_tame hv))))))) (modPort_tame (atBoundary_tame (ite_tame (startEpoch_tame
      (retime_tame (foldl_tame (foldl_tame (foldl_tame (foldl_tame (putRxc_tame (ite_tame (lanePower_tame (modPort_tame (mk_tame h))) (ite_tame
      (lanePower_tame (modPort_tame (mk_tame h))) (modPort_tame (mk_tame h))))) (fun _ _ hv => withdrawZone_tame hv)) (fun _ _ hv =>
      createZone_tame hv)) (fun _ _ hv => rezone_tame hv)) (fun _ _ hv => modZone_tame hv)))) (retime_tame (foldl_tame (foldl_tame
      (foldl_tame (foldl_tame (putRxc_tame (ite_tame (lanePower_tame (modPort_tame (mk_tame h))) (ite_tame (lanePower_tame (modPort_tame (mk_tame
      h))) (modPort_tame (mk_tame h))))) (fun _ _ hv => withdrawZone_tame hv)) (fun _ _ hv => createZone_tame hv)) (fun _ _ hv =>
      rezone_tame hv)) (fun _ _ hv => modZone_tame hv))))))))) (ite_tame (restartRaw_tame (ite_tame (markPlan_tame (modPort_tame
      (atBoundary_tame (ite_tame (startEpoch_tame (retime_tame (foldl_tame (foldl_tame (foldl_tame (foldl_tame (putRxc_tame (ite_tame (lanePower_tame
      (modPort_tame (mk_tame h))) (ite_tame (lanePower_tame (modPort_tame (mk_tame h))) (modPort_tame (mk_tame h))))) (fun _ _ hv =>
      withdrawZone_tame hv)) (fun _ _ hv => createZone_tame hv)) (fun _ _ hv => rezone_tame hv)) (fun _ _ hv => modZone_tame
      hv)))) (retime_tame (foldl_tame (foldl_tame (foldl_tame (foldl_tame (putRxc_tame (ite_tame (lanePower_tame (modPort_tame (mk_tame h)))
      (ite_tame (lanePower_tame (modPort_tame (mk_tame h))) (modPort_tame (mk_tame h))))) (fun _ _ hv => withdrawZone_tame hv)) (fun _ _ hv
      => createZone_tame hv)) (fun _ _ hv => rezone_tame hv)) (fun _ _ hv => modZone_tame hv))))))) (modPort_tame (atBoundary_tame
      (ite_tame (startEpoch_tame (retime_tame (foldl_tame (foldl_tame (foldl_tame (foldl_tame (putRxc_tame (ite_tame (lanePower_tame (modPort_tame
      (mk_tame h))) (ite_tame (lanePower_tame (modPort_tame (mk_tame h))) (modPort_tame (mk_tame h))))) (fun _ _ hv => withdrawZone_tame hv))
      (fun _ _ hv => createZone_tame hv)) (fun _ _ hv => rezone_tame hv)) (fun _ _ hv => modZone_tame hv)))) (retime_tame
      (foldl_tame (foldl_tame (foldl_tame (foldl_tame (putRxc_tame (ite_tame (lanePower_tame (modPort_tame (mk_tame h))) (ite_tame (lanePower_tame
      (modPort_tame (mk_tame h))) (modPort_tame (mk_tame h))))) (fun _ _ hv => withdrawZone_tame hv)) (fun _ _ hv => createZone_tame hv))
      (fun _ _ hv => rezone_tame hv)) (fun _ _ hv => modZone_tame hv)))))))) (ite_tame (markPlan_tame (modPort_tame (atBoundary_tame
      (ite_tame (startEpoch_tame (retime_tame (foldl_tame (foldl_tame (foldl_tame (foldl_tame (putRxc_tame (ite_tame (lanePower_tame (modPort_tame
      (mk_tame h))) (ite_tame (lanePower_tame (modPort_tame (mk_tame h))) (modPort_tame (mk_tame h))))) (fun _ _ hv => withdrawZone_tame hv))
      (fun _ _ hv => createZone_tame hv)) (fun _ _ hv => rezone_tame hv)) (fun _ _ hv => modZone_tame hv)))) (retime_tame
      (foldl_tame (foldl_tame (foldl_tame (foldl_tame (putRxc_tame (ite_tame (lanePower_tame (modPort_tame (mk_tame h))) (ite_tame (lanePower_tame
      (modPort_tame (mk_tame h))) (modPort_tame (mk_tame h))))) (fun _ _ hv => withdrawZone_tame hv)) (fun _ _ hv => createZone_tame hv))
      (fun _ _ hv => rezone_tame hv)) (fun _ _ hv => modZone_tame hv))))))) (modPort_tame (atBoundary_tame (ite_tame (startEpoch_tame
      (retime_tame (foldl_tame (foldl_tame (foldl_tame (foldl_tame (putRxc_tame (ite_tame (lanePower_tame (modPort_tame (mk_tame h))) (ite_tame
      (lanePower_tame (modPort_tame (mk_tame h))) (modPort_tame (mk_tame h))))) (fun _ _ hv => withdrawZone_tame hv)) (fun _ _ hv =>
      createZone_tame hv)) (fun _ _ hv => rezone_tame hv)) (fun _ _ hv => modZone_tame hv)))) (retime_tame (foldl_tame (foldl_tame
      (foldl_tame (foldl_tame (putRxc_tame (ite_tame (lanePower_tame (modPort_tame (mk_tame h))) (ite_tame (lanePower_tame (modPort_tame (mk_tame
      h))) (modPort_tame (mk_tame h))))) (fun _ _ hv => withdrawZone_tame hv)) (fun _ _ hv => createZone_tame hv)) (fun _ _ hv =>
      rezone_tame hv)) (fun _ _ hv => modZone_tame hv))))))))))) (fun _ _ hv => endDrain_tame hv))
theorem rehome_tame (h : Tame still s u) : Tame still s u.rehome :=
  foldl_tame (foldl_tame (foldl_tame h (fun _ _ hv => ite_tame (losePipe_tame hv) hv)) (fun _ _ hv => ite_tame (loseEngine_tame hv) hv)) (fun _ _
      hv => ite_tame (movePress_tame hv) hv)
theorem finishCommit_tame (h : Tame still s u) : Tame still s u.finishCommit := by
  unfold State.finishCommit
  split
  · exact h
  · refine ite_tame ?_ h
    dsimp only
    refine fixFirst_tame ?_
    refine rehome_tame ?_
    refine ite_tame ?_ ?_
    · refine raise_tame ?_
      split
      · exact finish_tame (mk_tame (ite_tame (raise_tame (applyPlacement_tame h)) (applyPlacement_tame h)))
      · exact mk_tame (ite_tame (raise_tame (applyPlacement_tame h)) (applyPlacement_tame h))
    · refine modBoot_tame ?_
      split
      · exact finish_tame (mk_tame (ite_tame (raise_tame (applyPlacement_tame h)) (applyPlacement_tame h)))
      · exact mk_tame (ite_tame (raise_tame (applyPlacement_tame h)) (applyPlacement_tame h))
theorem commitAt_tame (h : Tame still s u) {po} : Tame still s (u.commitAt po) := by
  unfold State.commitAt
  split
  · exact h
  · refine ite_tame h ?_
    split
    · refine ite_tame h ?_
      exact finishCommit_tame (mk_tame (applyDevice_tame (until_tame h)))
    · refine ite_tame h ?_
      exact finishCommit_tame (mk_tame (applyPort_tame (until_tame h)))
theorem commitNow_tame (h : Tame still s u) : Tame still s u.commitNow := by
  unfold State.commitNow
  split
  · exact h
  · refine foldl_tame (commitAt_tame h) ?_
    intro v _ hv
    split
    · exact commitAt_tame hv
    · exact hv
theorem commitRefused_tame (h : Tame still s u) : Tame still s u.commitRefused := raise_tame h
theorem runStageable_tame (h : Tame still s u) {op i k p} : ResTame still s (runStageable op i k p u) := by
  unfold runStageable
  split
  · exact later_tame (tryCommit_tame_of h ‹_›)
  · exact done_tame (commitRefused_tame h)
theorem runTxnCommit_tame (h : Tame still s u) {i k p} : ResTame still s (runTxnCommit i k p u) := by
  unfold runTxnCommit
  split
  · exact refuse_tame h
  · split
    · exact refuse_tame h
    · split
      · exact later_tame (modSess_tame (tryCommit_tame_of h ‹_›))
      · exact done_tame (commitRefused_tame h)
theorem beginStep_tame (h : Tame still s u) {sch i} : Tame still s (u.beginStep sch i) := modRind_tame h
theorem startSchedule_tame (h : Tame still s u) : Tame still s u.startSchedule := ite_tame (beginStep_tame h) h
theorem stepEnd_tame (h : Tame still s u) : Tame still s (stepEnd u) := by
  unfold stepEnd
  dsimp only
  refine ite_tame h ?_
  split
  · exact beginStep_tame (ite_tame h (until_tame h))
  · exact beginStep_tame (ite_tame h (until_tame h))
theorem strobe_tame (h : Tame still s u) {c port} : Tame still s (u.strobe c port) := emit_tame (modRind_tame h)
theorem switchStrobes_tame (h : Tame still s u) : Tame still s (switchStrobes u) :=
  ite_tame h (modRind_tame (until_tame (forEach_tame (until_tame h) (fun _ _ hv => strobe_tame hv))))
theorem averageStart_tame (h : Tame still s u) : Tame still s (averageStart u) := ite_tame (modRind_tame (until_tame h)) h
theorem shot_tame (h : Tame still s u) {d} : Tame still s (shot d u) := by
  unfold shot
  split
  · exact h
  · refine ite_tame h ?_
    exact modRind_tame (emit_tame (until_tame h))
theorem profileFull_tame (h : Tame still s u) {av c p short inh} : Tame still s (u.profileFull av c p short inh) :=
  ite_tame (strobe_tame (modRind_tame (modRind_tame (fresh_tame_2 (fresh_tame_2 (fresh_tame_2 h)))))) (modRind_tame (fresh_tame_2 (fresh_tame_2
      (fresh_tame_2 h))))
theorem profileEmpty_tame (h : Tame still s u) {av c p} : Tame still s (u.profileEmpty av c p) := by
  unfold State.profileEmpty
  exact modRind_tame (fresh_tame_2 (fresh_tame_2 (fresh_tame_2 h)))
theorem endAverage_tame (h : Tame still s u) {av short inh} : Tame still s (u.endAverage av short inh) := by
  unfold State.endAverage
  exact forEach_tame (modRind_tame h) (fun _ v hv => ite_tame hv (ite_tame (profileEmpty_tame hv) (profileFull_tame hv)))
theorem averageEnd_tame (h : Tame still s u) : Tame still s (averageEnd u) := by
  unfold averageEnd
  split
  · exact h
  · exact ite_tame h (endAverage_tame (until_tame h))
theorem profileIssue_tame (h : Tame still s u) {c} : Tame still s (profileIssue c u) := by
  unfold profileIssue
  split
  · exact h
  · refine ite_tame h ?_
    exact modRind_tame (mk_tame h)
theorem ramanInhibitAssert_tame (h : Tame still s u) : Tame still s (ramanInhibitAssert u) := by
  unfold ramanInhibitAssert
  dsimp only
  refine ite_tame h ?_
  split
  · exact modRind_tame h
  · exact endAverage_tame (modRind_tame h)
theorem ramanInhibitRelease_tame (h : Tame still s u) : Tame still s (ramanInhibitRelease u) := ite_tame h (modRind_tame h)
theorem modAxc0_tame (h : Tame still s u) {f} : Tame still s (u.modAxc0 f) := modRind_tame h
theorem axc0Convert_tame_1 (h : Tame still s u) {m} : Tame still s (axc0Convert m u).1 := by
  unfold axc0Convert
  split
  · exact h
  · dsimp only
    refine ite_tame_1 h ?_
    refine ite_tame_1 ?_ ?_
    · dsimp only
      exact mk_tame (modRind_tame (fresh_tame_2 (until_tame (modRind_tame (ite_tame (modRind_tame h) h)))))
    · refine ite_tame_1 ?_ ?_
      · dsimp only
        exact mk_tame (modRind_tame (fresh_tame_2 (until_tame (modRind_tame (ite_tame (modRind_tame h) h)))))
      · dsimp only
        exact mk_tame (modRind_tame (fresh_tame_2 (until_tame (modRind_tame (ite_tame (modRind_tame h) h)))))
theorem endedReading_tame (h : Tame still s u) {c e flag code} : Tame still s (u.endedReading c e flag code) := by
  unfold State.endedReading
  exact modRind_tame (fresh_tame_2 h)
theorem wireBreak_tame_1 (h : Tame still s u) : Tame still s (wireBreak u).1 := by
  unfold wireBreak
  split
  · exact h
  · dsimp only
    refine ite_tame_1 h ?_
    dsimp only
    exact mk_tame (endedReading_tame h)
theorem openProbe_tame (h : Tame still s u) {broken} : Tame still s (openProbe broken u) := by
  unfold openProbe
  split
  · exact h
  · exact ite_tame h (modRind_tame (endedReading_tame (until_tame h)))
theorem referenceOutOfWindow_tame_1 (h : Tame still s u) : Tame still s (referenceOutOfWindow u).1 := by
  unfold referenceOutOfWindow
  split
  · exact h
  · dsimp only
    refine ite_tame_1 h ?_
    dsimp only
    exact mk_tame (endedReading_tame h)
theorem referenceSettled_tame (h : Tame still s u) : Tame still s (referenceSettled u) := ite_tame h (modRind_tame (elapse_tame h))
theorem axc0Urgent_tame_2 (h : Tame still s u) {n} : Tame still s (axc0Urgent n u).2 := by
  unfold axc0Urgent
  dsimp only
  refine ite_tame_2 h ?_
  dsimp only
  exact modAxc0_tame h
theorem calBegin_tame_2 (h : Tame still s u) {rc z f} : Tame still s (calBegin rc z f u).2 := by
  unfold calBegin
  dsimp only
  split
  · exact h
  · exact h
  · refine ite_tame_2 h ?_
    dsimp only
    exact modAxc0_tame h
theorem calMeasure_tame_of {t} (h : Tame still s u) {rc full} (ht : calMeasure rc full u = some t) : Tame still s t := by
  unfold calMeasure at ht
  split at ht
  · cases ht
  · split at ht
    · cases ht
    · cases ht; exact modAxc0_tame h
theorem calApply_tame_2_2 (h : Tame still s u) {rc} : Tame still s (calApply rc u).2.2 := by
  unfold calApply
  split
  · exact h
  · split
    · split
      · exact h
      · dsimp only
        split
        · split
          · dsimp only
            exact modRind_tame (modAxc0_tame h)
          · dsimp only
            exact modRind_tame h
        · split
          · dsimp only
            exact modRind_tame (modAxc0_tame h)
          · dsimp only
            exact modRind_tame h
    · exact h
theorem calibrationIdleTimeout_tame (h : Tame still s u) : Tame still s (calibrationIdleTimeout u) := by
  unfold calibrationIdleTimeout
  split
  · exact h
  · exact modRind_tame (until_tame h)
theorem lrGate_tame_2 (h : Tame still s u) {attempts} : Tame still s (lrGate attempts u).2 := by
  unfold lrGate
  dsimp only
  refine ite_tame_2 h ?_
  refine ite_tame_2 ?_ (ite_tame_2 h h)
  dsimp only
  exact modRind_tame h
theorem writeRefusedWindowEnd_tame (h : Tame still s u) {param} : Tame still s (writeRefusedWindowEnd param u) := by
  unfold writeRefusedWindowEnd
  split
  · exact h
  · exact ite_tame h (modRind_tame (until_tame h))
theorem thermalSet_tame (h : Tame still s u) {p} : RindTame still s (thermalSet p u) := by
  unfold thermalSet
  dsimp only
  split
  · exact rindDone_tame (lrGate_tame_2 h)
  · split
    · exact rindDone_tame h
    · split
      · exact rindDone_tame h
      · split
        · exact rindDone_tame h
        · exact rindDone_tame (modRind_tame h)
theorem scheduleSet_tame (h : Tame still s u) {p} : RindTame still s (scheduleSet p u) := by
  unfold scheduleSet
  split
  · exact rindDone_tame h
  · dsimp only
    split
    · split
      · split
        · exact rindDone_tame (lrGate_tame_2 h)
        · split
          · exact rindDone_tame h
          · exact rindDone_tame (ite_tame (startSchedule_tame (modRind_tame h)) (modRind_tame h))
      · split
        · exact rindDone_tame (lrGate_tame_2 h)
        · split
          · exact rindDone_tame h
          · exact rindDone_tame (ite_tame (startSchedule_tame (modRind_tame h)) (modRind_tame h))
    · split
      · split
        · exact rindDone_tame (lrGate_tame_2 h)
        · split
          · exact rindDone_tame h
          · exact rindDone_tame (ite_tame (startSchedule_tame (modRind_tame h)) (modRind_tame h))
      · split
        · exact rindDone_tame (lrGate_tame_2 h)
        · split
          · exact rindDone_tame h
          · exact rindDone_tame (ite_tame (startSchedule_tame (modRind_tame h)) (modRind_tame h))
theorem frontEndSet_tame (h : Tame still s u) {p} : RindTame still s (frontEndSet p u) := by
  unfold frontEndSet
  dsimp only
  split
  · exact rindDone_tame (lrGate_tame_2 h)
  · split
    · exact rindDone_tame h
    · exact rindDone_tame (modRind_tame h)
theorem rindIdentify_tame (h : Tame still s u) : RindTame still s (rindIdentify u) := rindDone_tame h
theorem rindQuery_tame (h : Tame still s u) : RindTame still s (rindQuery u) := rindDone_tame h
theorem sealRefuse_tame (h : Tame still s u) {st} : RindTame still s (sealRefuse st u) := rindDone_tame (modRind_tame h)
theorem syncScan_tame (h : Tame still s u) : Tame still s u.syncScan := modLinks_tame h fun _ => rfl
theorem sealSet_tame (h : Tame still s u) {p} : RindTame still s (sealSet p u) := by
  unfold sealSet
  dsimp only
  split
  · exact sealRefuse_tame h
  · split
    · exact sealRefuse_tame h
    · split
      · exact sealRefuse_tame h
      · split
        · exact sealRefuse_tame h
        · split
          · exact sealRefuse_tame h
          · split
            · exact sealRefuse_tame h
            · exact rindDone_tame (syncScan_tame (modRind_tame h))
theorem sealBreak_tame (h : Tame still s u) : RindTame still s (sealBreak u) := by
  unfold sealBreak
  dsimp only
  split
  · exact sealRefuse_tame h
  · split
    · exact sealRefuse_tame h
    · split
      · exact sealRefuse_tame h
      · split
        · exact sealRefuse_tame h
        · exact rindDone_tame (syncScan_tame (modRind_tame h))
theorem auditRead_tame (h : Tame still s u) {p} : RindTame still s (auditRead p u) := rindDone_tame h
theorem auditAck_tame (h : Tame still s u) {p} : RindTame still s (auditAck p u) := by
  unfold auditAck
  dsimp only
  split
  · exact rindDone_tame h
  · exact rindDone_tame (modRind_tame h)
theorem rindFwLoad_tame (h : Tame still s u) {p} : RindTame still s (rindFwLoad p u) := by
  unfold rindFwLoad
  dsimp only
  split
  · exact rindDone_tame (lrGate_tame_2 h)
  · split
    · exact rindDone_tame h
    · split
      · exact rindDone_tame (modRind_tame h)
      · split
        · exact rindDone_tame (modRind_tame h)
        · exact rindDone_tame h
theorem rindFwLoadComplete_tame (h : Tame still s u) : Tame still s (rindFwLoadComplete u) := ite_tame h (modRind_tame (fresh_tame_2 h))
theorem calGate_tame (h : Tame still s u) {k} (hk : ∀ v, Tame still s v → RindTame still s (k v)) : RindTame still s (calGate u k) := by
  unfold calGate
  split
  · exact lrGate_tame_2 h
  · exact hk _ (modAxc0_tame h)
theorem urgentAll_tame {s0} (h0 : Tame still s s0) (h : Tame still s u) {l} : RindTame still s (urgentAll s0 l u) := by
  induction l generalizing u with
  | nil => exact h
  | cons n l ih =>
    unfold urgentAll
    dsimp only
    split
    · exact ih (axc0Urgent_tame_2 h)
    · exact h0
theorem rindServe_tame (h : Tame still s u) {op p} : RindTame still s (rindServe op p u) := by
  unfold rindServe
  dsimp only
  split
  · exact rindDone_tame h
  · split
    · exact thermalSet_tame h
    · exact scheduleSet_tame h
    · exact frontEndSet_tame h
    · exact rindIdentify_tame h
    · exact rindQuery_tame h
    · exact sealSet_tame h
    · exact sealBreak_tame h
    · exact auditRead_tame h
    · exact auditAck_tame h
    · exact rindFwLoad_tame h
    · exact calGate_tame h (fun v hv => rindDone_tame (calBegin_tame_2 hv))
    · refine calGate_tame h ?_
      intro v hv
      split
      · exact waits_tame (calMeasure_tame_of hv ‹_›)
      · exact rindDone_tame hv
    · refine calGate_tame h ?_
      intro v hv
      split
      · exact waits_tame (calMeasure_tame_of hv ‹_›)
      · exact rindDone_tame hv
    · exact calGate_tame h (fun v hv => rindDone_tame (calApply_tame_2_2 hv))
    · split
      · exact rindDone_tame (modRind_tame h)
      · exact rindDone_tame h
    · exact urgentAll_tame h h
theorem rindServe_done_tame_of (h : Tame still s u) {op p st l t} (he : rindServe op p u = .done st l t) : Tame still s t := by
  have hr := rindServe_tame h (op := op) (p := p)
  rw [he] at hr; exact hr
theorem rindServe_waits_tame_of (h : Tame still s u) {op p t} (he : rindServe op p u = .waits t) : Tame still s t := by
  have hr := rindServe_tame h (op := op) (p := p)
  rw [he] at hr; exact hr
theorem runRind_tame (h : Tame still s u) {op i k p} : ResTame still s (runRind op i k p u) := by
  unfold runRind
  dsimp only
  split
  · exact later_tame (modRind_tame h)
  · split
    · exact later_tame (modRind_tame h)
    · split
      · exact done_tame (modRind_tame (rindServe_done_tame_of h ‹_›))
      · exact later_tame (modRind_tame (rindServe_waits_tame_of h ‹_›))
theorem answerRind_tame (h : Tame still s u) {st items} : Tame still s (u.answerRind st items) := by
  unfold State.answerRind
  split
  · exact h
  · exact finish_tame (modRind_tame h)
theorem serveMailbox_tame (h : Tame still s u) {n} : Tame still s (serveMailbox n u) := by
  induction n generalizing u with
  | zero => exact h
  | succ n ih =>
    unfold serveMailbox
    split
    · split
      · exact h
      · split
        · exact ih (answerRind_tame h)
        · split
          · exact ih (answerRind_tame (rindServe_done_tame_of h ‹_›))
          · exact rindServe_waits_tame_of h ‹_›
    · split
      · exact h
      · exact ih (modRind_tame h)
theorem serveAll_tame (h : Tame still s u) : Tame still s u.serveAll := serveMailbox_tame h
theorem calAnswer_tame {r : State × Option Nat} (h : Tame still s r.1) : Tame still s (calAnswer r) := by
  unfold calAnswer
  split
  · exact h
  · exact serveAll_tame (answerRind_tame h)
  · exact serveAll_tame (answerRind_tame h)
theorem mailboxTimeout_tame (h : Tame still s u) : Tame still s (mailboxTimeout u) := by
  unfold mailboxTimeout
  split
  · exact h
  · refine ite_tame h ?_
    dsimp only
    split
    · exact finish_tame (modRind_tame (elapse_tame h))
    · exact serveAll_tame (modRind_tame (finish_tame (modRind_tame (elapse_tame h))))
theorem recordTamper_tame (h : Tame still s u) {lost} : Tame still s (u.recordTamper lost) := by
  unfold State.recordTamper
  exact modAon_tame (modRind_tame h)
theorem tellTamper_tame (h : Tame still s u) : Tame still s u.tellTamper := ite_tame (modAon_tame (recordTamper_tame h)) (ite_tame h (recordTamper_tame h))
theorem rindPowerOn_tame (h : Tame still s u) {imageOk} : Tame still s (rindPowerOn imageOk u) :=
  ite_tame (modBoot_tame (syncScan_tame (startSchedule_tame (tellTamper_tame (modRind_tame (modRind_tame h)))))) (modBoot_tame (syncScan_tame
      (modRind_tame (modRind_tame h))))
theorem rindWatchdog_tame (h : Tame still s u) : Tame still s (rindWatchdog u) := ite_tame h (startSchedule_tame (modRind_tame h))
theorem tamperActivation_tame (h : Tame still s u) {w} : Tame still s (tamperActivation w u) := ite_tame (recordTamper_tame (modAon_tame h)) (modAon_tame h)
theorem timeWord_tame (h : Tame still s u) : Tame still s (timeWord u) := ite_tame (untilDev_tame h) (modRind_tame (untilDev_tame h))
theorem receive_tame_2 (h : Tame still s u) {kind m} : Tame still s (receive kind m u).2 := by
  unfold receive
  split
  · exact h
  · dsimp only
    refine ite_tame_2 ?_ ?_
    · dsimp only
      exact modRind_tame h
    · refine ite_tame_2 ?_ ?_
      · dsimp only
        exact modRind_tame (modRind_tame h)
      · dsimp only
        exact modRm_tame (modRind_tame (modRind_tame h))
theorem receive_tame_of {k m o t} (h : Tame still s u) (hr : receive k m u = (o, t)) : Tame still s t := by
  have := receive_tame_2 h (kind := k) (m := m)
  rwa [hr] at this
theorem forwardProfiles_tame (h : Tame still s u) {n} : Tame still s (forwardProfiles n u) := by
  induction n generalizing u with
  | zero => exact h
  | succ n ih =>
    unfold forwardProfiles
    split
    · exact ih (push_tame (modRm_tame h))
    · exact h
theorem profileArrives_tame (h : Tame still s u) {m} : Tame still s (profileArrives m u) := by
  unfold profileArrives
  split
  · exact forwardProfiles_tame (modRm_tame (receive_tame_of h ‹_›))
  · exact receive_tame_of h ‹_›
theorem announceArrives_tame (h : Tame still s u) {m} : Tame still s (announceArrives m u) := by
  unfold announceArrives
  split
  · exact driveInhibit_tame (forPorts_tame (modRm_tame (receive_tame_of h ‹_›)) (fun _ v hv => ite_tame (modPort_tame hv) hv))
  · exact receive_tame_of h ‹_›
theorem switchedArrives_tame (h : Tame still s u) {m} : Tame still s (switchedArrives m u) := by
  unfold switchedArrives
  split
  · exact driveInhibit_tame (forPorts_tame (receive_tame_of h ‹_›) (fun _ v hv => modPort_tame hv))
  · exact receive_tame_of h ‹_›
theorem eventArrives_tame (h : Tame still s u) {m} : Tame still s (eventArrives m u) := by
  unfold eventArrives
  split
  · exact raiseN_tame (receive_tame_of h ‹_›)
  · exact receive_tame_of h ‹_›
theorem auditArrives_tame (h : Tame still s u) {m} : Tame still s (auditArrives m u) := by
  unfold auditArrives
  split
  · refine ite_tame (receive_tame_of h ‹_›) ?_
    exact forwardProfiles_tame (whey_tame (fresh_tame_2 (receive_tame_of h ‹_›)))
  · exact receive_tame_of h ‹_›
theorem readingArrives_tame (h : Tame still s u) {m} : Tame still s (readingArrives m u) := by
  unfold readingArrives
  split
  · exact modRm_tame (receive_tame_of h ‹_›)
  · exact receive_tame_of h ‹_›
theorem rpRetransmit_tame (h : Tame still s u) : Tame still s (rpRetransmit u) := by
  unfold rpRetransmit
  refine ite_tame h ?_
  exact modRind_tame (until_tame h)
theorem ackAfterSilence_tame (h : Tame still s u) : Tame still s (ackAfterSilence u) := ite_tame h (modRind_tame h)
theorem trimLink_tame (h : Tame still s u) {l n} : Tame still s (State.trimLink l n u) := by
  induction n generalizing u with
  | zero => exact h
  | succ n ih =>
    unfold State.trimLink
    split
    · exact h
    · split
      · exact h
      · exact ih (applyPlacement_tame (shedZone_tame h))
theorem pcieReset_tame (h : Tame false s u) : Tame false s u.pcieReset := by
  unfold State.pcieReset
  dsimp only
  refine modLinks_tame ?_ nofun
  refine foldl_tame h ?_
  intro v _ hv
  split
  · exact closeSession_tame hv
  · exact hv
theorem pcieLinkChange_tame (h : Tame false s u) {l} : Tame false s (pcieLinkChange l u) :=
  ite_tame h (ite_tame (raise_tame (pcieReset_tame (modLinks_tame h fun _ => rfl))) (ite_tame (raise_tame (modLinks_tame (modLinks_tame h fun _ => rfl) nofun)) (ite_tame
      (trimLink_tame (raise_tame (modLinks_tame h fun _ => rfl))) (modLinks_tame h fun _ => rfl))))
theorem drainCr_tame (h : Tame still s u) {n f} : Tame still s (drainCr n f u) := by
  induction f generalizing u with
  | zero => exact h
  | succ f ih =>
    unfold drainCr
    split
    · exact h
    · split
      · exact h
      · refine ih ?_
        split
        · refine freeSlot_tame ?_
          split
          · exact raise_tame (ringPut_tame_1 (modCr_tame h))
          · exact ringPut_tame_1 (modCr_tame h)
        · split
          · exact raise_tame (ringPut_tame_1 (modCr_tame h))
          · exact ringPut_tame_1 (modCr_tame h)
theorem crRtailWrite_tame (h : Tame still s u) {n v} : Tame still s (crRtailWrite n v u) := drainCr_tame (modCr_tame h)
theorem crRwd_tame (h : Tame still s u) {n get put ok len v} : Tame still s (crRwd n get put ok len v u) := modCr_tame h
theorem writeCr_tame (h : Tame still s u) {n off v} : Tame still s (writeCr n off v u) := by
  unfold writeCr
  split
  · exact crRwd_tame h
  · exact crRwd_tame h
  · exact crRwd_tame h
  · exact crRtailWrite_tame h
  · exact modCr_tame h
  · exact drainCr_tame (modCr_tame h)
  · exact h
theorem checkStarved_tame (h : Tame still s u) {n} : Tame still s (u.checkStarved n) := ite_tame (modSr_tame h) (ite_tame h (raise_tame (modSr_tame h)))
theorem srTailWrite_tame (h : Tame still s u) {n v ds} : Tame still s (srTailWrite n v ds u) := checkStarved_tame (modSr_tame h)
theorem fillBuffer_tame_1 (h : Tame still s u) {n room f used} : Tame still s (fillBuffer n room f used u).1 := by
  induction f generalizing u used with
  | zero => exact h
  | succ f ih =>
    unfold fillBuffer
    split
    · exact h
    · dsimp only
      split
      · exact h
      · exact ih (emit_tame (mk_tame (number_tame_1 h)))
theorem srRequest_tame (h : Tame still s u) {n} : Tame still s (u.srRequest n) := ite_tame (msix_tame (modSr_tame h)) (modSr_tame h)
theorem endDrains_tame (h : Tame still s u) : Tame still s u.endDrains := foldl_tame h (fun _ _ hv => endDrain_tame hv)
theorem flushDrained_tame (h : Tame still s u) : Tame still s u.flushDrained := endDrains_tame (flushEth_tame h)
theorem streamBufferDone_tame (h : Tame still s u) {n} : Tame still s (streamBufferDone n u) := by
  unfold streamBufferDone
  dsimp only
  split
  · exact ite_tame h (endDrains_tame (checkStarved_tame (srRequest_tame (modSr_tame (emit_tame (ite_tame (fillBuffer_tame_1 h) (until_tame
        (fillBuffer_tame_1 h))))))))
  · exact h
theorem streamRingModerationExpiry_tame (h : Tame still s u) {n} : Tame still s (streamRingModerationExpiry n u) := ite_tame (srRequest_tame (until_tame h)) h
theorem writeSr_tame (h : Tame still s u) {n off v} : Tame still s (writeSr n off v u) := by
  unfold writeSr
  dsimp only
  split
  · exact modSr_tame h
  · exact modSr_tame h
  · exact modSr_tame h
  · exact srTailWrite_tame h
  · exact checkStarved_tame (modSr_tame h)
  · exact h
theorem modEthG_tame (h : Tame still s u) {n f} : Tame still s (u.modEthG n f) := modEth_tame h
theorem moveStreams_tame (h : Tame still s u) {a b zones device} : Tame still s (u.moveStreams a b zones device) := applyPlacement_tame (mk_tame h)
theorem failOver_tame (h : Tame still s u) {n} : Tame still s (u.failOver n) := by
  unfold State.failOver
  refine ite_tame ?_ h
  exact flushDrained_tame (trimLink_tame (moveStreams_tame (modEth_tame h)))
theorem ethFail_tame (h : Tame still s u) {n} : Tame still s (u.ethFail n) := ite_tame h (raise_tame (failOver_tame (modEth_tame h)))
theorem ethPortUpChange_tame (h : Tame false s u) {n up} : Tame false s (ethPortUpChange n up u) := by
  unfold ethPortUpChange
  refine ite_tame h ?_
  exact flushDrained_tame (raiseN_tame (ite_tame (modLinks_tame (modEthG_tame h) nofun) (modEthG_tame h)))
theorem ethPortFailed_tame (h : Tame still s u) {n} : Tame still s (ethPortFailed n u) :=
  ite_tame h (ite_tame (ethFail_tame (until_tame h)) (ite_tame (ethFail_tame (until_tame h)) h))
theorem ethPortReturn_tame (h : Tame still s u) {n} : Tame still s (ethPortReturn n u) := by
  unfold ethPortReturn
  dsimp only
  split
  · exact h
  · exact ite_tame h (raise_tame (flushDrained_tame (ite_tame (moveStreams_tame (modEth_tame (until_tame h))) (failOver_tame (moveStreams_tame
        (modEth_tame (until_tame h)))))))
theorem unpause_tame (h : Tame still s u) {n} : Tame still s (u.unpause n) := flushDrained_tame (modEthG_tame h)
theorem pauseReceived_tame (h : Tame still s u) {n quanta} : Tame still s (pauseReceived n quanta u) := ite_tame h (ite_tame (unpause_tame h) (modEthG_tame h))
theorem pauseQuantaExpiry_tame (h : Tame still s u) {n} : Tame still s (pauseQuantaExpiry n u) := ite_tame (unpause_tame (until_tame h)) h
theorem pauseLimExceeded_tame (h : Tame still s u) {n} : Tame still s (pauseLimExceeded n u) :=
  ite_tame h (ethFail_tame (raise_tame (modLadle_tame (modEth_tame (until_tame h)))))
theorem neighbourResolution_tame (h : Tame still s u) {n m} : Tame still s (neighbourResolution n m u) := by
  unfold neighbourResolution
  dsimp only
  refine ite_tame h ?_
  split
  · exact ite_tame (flushDrained_tame (emit_tame (modEthG_tame h))) h
  · exact flushDrained_tame (modEthG_tame h)
theorem icmpEcho_tame (h : Tame still s u) {n v src payload} : Tame still s (icmpEcho n v src payload u) := ite_tame (emit_tame h) h
theorem udpDatagramDiscard_tame (h : Tame still s u) {n} : Tame still s (udpDatagramDiscard n u) := ite_tame (modEth_tame h) h
theorem writeEth_tame (h : Tame still s u) {n off v} : Tame still s (writeEth n off v u) := by
  unfold writeEth
  dsimp only
  split
  · exact modEth_tame h
  · exact modEth_tame h
  · exact modEth_tame h
  · exact modEth_tame h
  · exact modEth_tame h
  · exact modEth_tame h
  · exact modEth_tame h
  · exact modEth_tame h
  · exact modEth_tame h
  · exact modEth_tame h
  · exact modEth_tame h
  · exact modEth_tame h
  · exact modEth_tame h
  · exact modEth_tame h
  · exact modEth_tame h
  · exact ite_tame (ethFail_tame (modEthG_tame h)) (modEthG_tame h)
  · exact modEth_tame h
  · exact h
theorem timingPortLinkChange_tame (h : Tame false s u) {up} : Tame false s (timingPortLinkChange up u) := by
  unfold timingPortLinkChange
  refine ite_tame h ?_
  exact ite_tame (raise_tame (modLinks_tame (ite_tame (modClk_tame h) h) nofun)) (unfollow_tame (raise_tame (modLinks_tame (ite_tame (modClk_tame h) h) nofun)))
theorem servo_tame (h : Tame still s u) {off} : Tame still s (u.servo off) :=
  ite_tame (raise_tame (mk_tame (ite_tame (raise_tame (mk_tame (ite_tame (raise_tame (mk_tame h)) (mk_tame h)))) (mk_tame (fresh_tame_2 (ite_tame
      (raise_tame (mk_tame h)) (mk_tame h))))))) (mk_tame (ite_tame (raise_tame (mk_tame (ite_tame (raise_tame (mk_tame h)) (mk_tame h)))) (mk_tame
      (fresh_tame_2 (ite_tame (raise_tame (mk_tame h)) (mk_tame h))))))
theorem ptpMessage_tame (h : Tame still s u) {m} : Tame still s (ptpMessage m u) := by
  unfold ptpMessage
  refine ite_tame h ?_
  split
  · refine ite_tame h ?_
    exact ite_tame (ite_tame (mk_tame h) (raise_tame (mk_tame h))) (raise_tame (ite_tame (mk_tame h) (raise_tame (mk_tame h))))
  · exact ite_tame h (servo_tame h)
theorem announceSyncTimeout_tame (h : Tame still s u) : Tame still s (announceSyncTimeout u) := by
  unfold announceSyncTimeout
  refine ite_tame h ?_
  exact unfollow_tame (raise_tame h)
theorem ppsPulse_tame (h : Tame still s u) {t edge off} : Tame still s (ppsPulse t edge off u) :=
  ite_tame (servo_tame (ite_tame (followInputs_tame (ite_tame (modTiu_tame (until_tame h)) (modTiu_tame (until_tame h)))) (ite_tame (modTiu_tame
      (until_tame h)) (modTiu_tame (until_tame h))))) (ite_tame (followInputs_tame (ite_tame (modTiu_tame (until_tame h)) (modTiu_tame (until_tame
      h)))) (ite_tame (modTiu_tame (until_tame h)) (modTiu_tame (until_tame h))))
theorem i2cTransaction_tame (h : Tame still s u) {x0} : Tame still s (i2cTransaction x0 u) := ite_tame h (ite_tame (raise_tame (modLinks_tame h fun _ => rfl)) (emit_tame h))
theorem spiReplyFetch_tame (h : Tame still s u) : Tame still s (spiReplyFetch u) := by
  unfold spiReplyFetch
  refine ite_tame h ?_
  split
  · exact emit_tame h
  · exact emit_tame (modLinks_tame h fun _ => rfl)
theorem loseStaging_tame (h : Tame still s u) {z} : Tame still s (u.loseStaging z) := ite_tame h (wheyZone_tame (mk_tame h))
theorem caveError_tame (h : Tame still s u) {r} : Tame still s (caveError r u) := by
  have h0 : Tame still s (u.raise 243) := raise_tame h
  unfold caveError
  cases r with
  | staging z => exact loseStaging_tame h0
  | vatWindow n =>
    have h1 : Tame still s ((u.raise 243).modEng n fun e => { e with win := Vector.replicate 4 [] }) :=
      modEng_tame h0 fun e he => ⟨he.1, fun w => by simp [Mem.wf], he.2.2⟩
    dsimp only
    split
    · exact wheyZone_tame h1
    · exact h1
  | pressWindow n => exact h0
  | rawHistory p =>
    dsimp only
    split
    · exact h0
    · exact foldl_tame (modLook_tame h0) fun _ _ hv => wheyZone_tame hv
  | curdHistory z =>
    dsimp only
    split
    · exact h0
    · exact wheyZone_tame (modLook_tame (modZone_tame h0))
  | hostArea => exact h0.of_hostArea rfl rfl (fun _ => rfl) fun _ => rfl
  | free => exact h0
theorem caveCorrectedError_tame (h : Tame still s u) {spareUsed} : Tame still s (caveCorrectedError spareUsed u) :=
  ite_tame (raise_tame (ite_tame (raise_tame (modLinks_tame h fun _ => rfl)) (modLinks_tame h fun _ => rfl))) (ite_tame (raise_tame (modLinks_tame h fun _ => rfl)) (modLinks_tame h fun _ => rfl))
theorem otherLoopLockLost_tame (h : Tame false s u) {l} : Tame false s (otherLoopLockLost l u) := by
  unfold otherLoopLockLost
  refine ite_tame h ?_
  dsimp only
  split
  · exact modClk_tame (raise_tame (modClk_tame h))
  · exact ckRefSourceLost_tame (timingPortLinkChange_tame (ethPortUpChange_tame (ethPortUpChange_tame (raise_tame (modClk_tame h)))))
  · exact auxLost_tame (modAxc1_tame (raise_tame (modClk_tame h)))
theorem otherLoopLockRegained_tame (h : Tame false s u) {l} : Tame false s (otherLoopLockRegained l u) := by
  unfold otherLoopLockRegained
  refine ite_tame h ?_
  dsimp only
  split
  · exact causeCleared_tame (modSdc_tame (raise_tame (modClk_tame h)))
  · exact modLadle_tame (modLinks_tame (raise_tame (modClk_tame h)) nofun)
  · exact raise_tame (modClk_tame h)
theorem memoryLockTimeout_tame (h : Tame still s u) : Tame still s (memoryLockTimeout u) := ite_tame h (raise_tame (modLadle_tame (until_tame h)))
theorem runSessionClose_tame (h : Tame still s u) {i k p} : ResTame still s (runSessionClose i k p u) := sent_tame (closeSession_tame (complete_tame h))
theorem runSessionPing_tame (h : Tame still s u) {i k p} : ResTame still s (runSessionPing i k p u) := ok_tame h
theorem runEventSubscribe_tame (h : Tame still s u) {i k p} : ResTame still s (runEventSubscribe i k p u) := ok_tame (modSess_tame h)
theorem runIdentify_tame (h : Tame still s u) {i k p} : ResTame still s (runIdentify i k p u) := ok_tame h
theorem runTxnBegin_tame (h : Tame still s u) {i k p} : ResTame still s (runTxnBegin i k p u) := by
  unfold runTxnBegin
  dsimp only
  split
  · exact refuse_tame h
  · exact ok_tame (modSess_tame h)
theorem runTxnRollback_tame (h : Tame still s u) {i k p} : ResTame still s (runTxnRollback i k p u) := by
  unfold runTxnRollback
  split
  · exact refuse_tame h
  · exact ok_tame (modSess_tame h)
theorem runTxnQuery_tame (h : Tame still s u) {i k p} : ResTame still s (runTxnQuery i k p u) := by
  unfold runTxnQuery
  split
  · exact refuse_tame h
  · exact ok_tame h
theorem runRearm_tame (h : Tame still s u) {i k p} : ResTame still s (runRearm i k p u) := by
  unfold runRearm
  dsimp only
  split
  · exact ok_tame (foldl_tame h (fun v _ hv => rearm_tame hv))
  · exact refuse_tame h
theorem runEndRebase_tame (h : Tame still s u) {i k p} : ResTame still s (runEndRebase i k p u) := by
  unfold runEndRebase
  dsimp only
  split
  · exact ok_tame (foldl_tame h (fun v _ hv => onPort_tame hv))
  · exact refuse_tame h
theorem runPortQuery_tame (h : Tame still s u) {i k p} : ResTame still s (runPortQuery i k p u) := ok_tame h
theorem runEmitterQuery_tame (h : Tame still s u) {i k p} : ResTame still s (runEmitterQuery i k p u) := by
  unfold runEmitterQuery
  dsimp only
  split
  · exact ok_tame h
  · exact refuse_tame h
theorem runPlaceQuery_tame (h : Tame still s u) {i k p} : ResTame still s (runPlaceQuery i k p u) := by
  unfold runPlaceQuery
  dsimp only
  split
  · exact ok_tame h
  · exact refuse_tame h
theorem runRebalance_tame (h : Tame still s u) {i k p} : ResTame still s (runRebalance i k p u) := by
  unfold runRebalance
  split
  · exact ok_tame h
  · exact ok_tame (moveAll_tame (ite_tame h (raise_tame (applyPlacement_tame h))))
theorem runCapacity_tame (h : Tame still s u) {i k p} : ResTame still s (runCapacity i k p u) := by
  unfold runCapacity
  dsimp only
  split
  · exact ok_tame (refreshLadle_tame (foldl_tame h (fun v _ hv => modEng_tame hv (fun _ he => he.keep))))
  · split
    · exact refuse_tame h
    · exact ok_tame (refreshLadle_tame (foldl_tame (foldl_tame h (fun v _ hv => migrate_tame (losePins_tame hv))) (fun v _ hv => modEng_tame hv
          (fun _ he => he.keep))))
theorem runRetire_tame (h : Tame still s u) {i k p} : ResTame still s (runRetire i k p u) := by
  unfold runRetire
  split
  · exact ok_tame (ite_tame h (retirePlanned_tame h))
  · exact ok_tame (ite_tame h (retirePlanned_tame h))
  · exact ok_tame (ite_tame h (retirePlanned_tame h))
  · exact refuse_tame h
theorem runSyncReset_tame (h : Tame still s u) {i k p} : ResTame still s (runSyncReset i k p u) := by
  unfold runSyncReset
  dsimp only
  split
  · exact ok_tame (foldl_tame h (fun v _ hv => modZone_tame hv))
  · exact refuse_tame h
theorem runConfigSave_tame (h : Tame still s u) {i k p} : ResTame still s (runConfigSave i k p u) := by
  unfold runConfigSave
  dsimp only
  split
  · exact refuse_tame h
  · split
    · exact refuse_tame h
    · exact ok_tame (modBoot_tame h)
theorem runDarkFloor_tame (h : Tame still s u) {i k p} : ResTame still s (runDarkFloor i k p u) := by
  unfold runDarkFloor
  dsimp only
  split
  · exact refuse_tame h
  · exact ok_tame (foldl_tame h (fun v _ hv => onPort_tame hv))
theorem runRxcalQuery_tame (h : Tame still s u) {i k p} : ResTame still s (runRxcalQuery i k p u) := by
  unfold runRxcalQuery
  split
  · exact refuse_tame h
  · exact ok_tame h
theorem runTimeQuery_tame (h : Tame still s u) {i k p} : ResTame still s (runTimeQuery i k p u) := ok_tame h
theorem runMeasStart_tame (h : Tame still s u) {i k p} : ResTame still s (runMeasStart i k p u) := by
  unfold runMeasStart
  dsimp only
  split
  · exact refuse_tame h
  · split
    · exact refuse_tame h
    · split
      · exact refuse_tame h
      · exact ok_tame (nextMeas_tame (modTiu_tame (freshId_tame_2 h)))
theorem runMeasCancel_tame (h : Tame still s u) {i k p} : ResTame still s (runMeasCancel i k p u) := by
  unfold runMeasCancel
  dsimp only
  split
  · split
    · exact ok_tame (endMeas_tame h)
    · split
      · exact ok_tame (dropMeas_tame (modTiu_tame h))
      · exact refuse_tame h
  · exact ok_tame (dropMeas_tame (modTiu_tame h))
  · exact refuse_tame h
theorem runAnchor_tame (h : Tame still s u) {i k p} : ResTame still s (runAnchor i k p u) := ok_tame (foldl_tame h (fun _ _ hv => queueAnchor_tame hv))
theorem runImageLoad_tame (h : Tame still s u) {i k p} : ResTame still s (runImageLoad i k p u) := by
  unfold runImageLoad
  split
  · dsimp only
    split
    · split
      · exact refuse_tame h
      · split
        · exact refuse_tame h
        · split
          · exact ok_tame (mk_tame (freshId_tame_2 h))
          · split
            · exact ok_tame (mk_tame (freshId_tame_2 h))
            · exact refuse_tame h
    · split
      · exact refuse_tame h
      · split
        · exact refuse_tame h
        · split
          · exact refuse_tame h
          · split
            · exact ok_tame (mk_tame h)
            · split
              · exact ok_tame (mk_tame h)
              · exact refuse_tame h
  · exact refuse_tame h
theorem runImageDelete_tame (h : Tame still s u) {i k p} : ResTame still s (runImageDelete i k p u) := by
  unfold runImageDelete
  dsimp only
  split
  · exact refuse_tame h
  · split
    · exact refuse_tame h
    · exact ok_tame (mk_tame h)
theorem runImageQuery_tame (h : Tame still s u) {i k p} : ResTame still s (runImageQuery i k p u) := by
  unfold runImageQuery
  split
  · exact refuse_tame h
  · exact ok_tame h
theorem runJobSubmit_tame (h : Tame still s u) {i k p} : ResTame still s (runJobSubmit i k p u) := by
  unfold runJobSubmit
  dsimp only
  split
  · exact refuse_tame h
  · exact ok_tame (mk_tame h)
theorem runJobCancel_tame (h : Tame still s u) {i k p} : ResTame still s (runJobCancel i k p u) := by
  unfold runJobCancel
  dsimp only
  split
  · exact ok_tame (cancelJobs_tame h)
  · exact refuse_tame h
theorem runPressQuery_tame (h : Tame still s u) {i k p} : ResTame still s (runPressQuery i k p u) := ok_tame h
theorem fireAll_tame {s0} (h0 : Tame still s s0) (h : Tame still s u) {ts items} : ResTame still s (fireAll s0 ts items u) := by
  induction ts generalizing u items with
  | nil => exact h
  | cons t ts ih =>
    unfold fireAll
    split
    · exact h0
    · split
      · exact h0
      · dsimp only
        split
        · exact h0
        · exact ih (fireCommand_tame_2 h)
theorem runTriggerFire_tame (h : Tame still s u) {i k p} : ResTame still s (runTriggerFire i k p u) := fireAll_tame h h
theorem runCaptureRelease_tame (h : Tame still s u) {i k p} : ResTame still s (runCaptureRelease i k p u) := by
  unfold runCaptureRelease
  split
  · exact refuse_tame h
  · exact ok_tame (releaseCapture_tame h)
theorem runDump_tame (h : Tame still s u) {i k p} : ResTame still s (runDump i k p u) := by
  unfold runDump
  split
  · split
    · exact ok_tame (dumpCapture_tame h)
    · exact refuse_tame h
  · exact refuse_tame h
theorem runReanalyse_tame (h : Tame still s u) {i k p} : ResTame still s (runReanalyse i k p u) := by
  unfold runReanalyse
  dsimp only
  split
  · exact refuse_tame h
  · split
    · split
      · exact refuse_tame h
      · split
        · exact refuse_tame h
        · split
          · exact refuse_tame h
          · split
            · exact refuse_tame h
            · exact ok_tame (modLook_tame h)
    · split
      · exact refuse_tame h
      · split
        · exact refuse_tame h
        · split
          · exact refuse_tame h
          · split
            · exact refuse_tame h
            · exact ok_tame (modLook_tame h)
theorem runCaptureQuery_tame (h : Tame still s u) {i k p} : ResTame still s (runCaptureQuery i k p u) := by
  unfold runCaptureQuery
  split
  · exact ok_tame h
  · split
    · split
      · exact ok_tame h
      · exact refuse_tame h
    · exact refuse_tame h
theorem runSliceTest_tame (h : Tame still s u) {i k p} : ResTame still s (runSliceTest i k p u) := by
  unfold runSliceTest
  split
  · split
    · exact refuse_tame h
    · exact ok_tame (modLane_tame h)
  · exact refuse_tame h
theorem runSelfTest_tame (h : Tame still s u) {i k p} : ResTame still s (runSelfTest i k p u) := by
  unfold runSelfTest
  split
  · exact refuse_tame h
  · dsimp only
    split
    · split
      · exact refuse_tame h
      · exact ok_tame (startTests_tame h)
    · split
      · exact refuse_tame h
      · exact ok_tame (startTests_tame h)
theorem runFaultLog_tame (h : Tame still s u) {i k p} : ResTame still s (runFaultLog i k p u) := ok_tame h
theorem runJournalRead_tame (h : Tame still s u) {i k p} : ResTame still s (runJournalRead i k p u) := ok_tame h
theorem runJournalClear_tame (h : Tame still s u) {i k p} : ResTame still s (runJournalClear i k p u) := ok_tame (modBoot_tame h)
theorem loopsOn_tame (h : Tame still s u) : Tame still s u.loopsOn := forPorts_tame (modClk_tame h) (fun _ _ hv => ite_tame (lanePower_tame hv) hv)
theorem leaveRun_tame (h : Tame still s u) {target} : Tame still s (u.leaveRun target) :=
  settlePower_tame (driveInhibit_tame (fixFirst_tame (mk_tame (forPorts_tame (modBoot_tame h) (fun _ _ hv => modPort_tame hv)))))
theorem returnToRun_tame (h : Tame still s u) : Tame still s u.returnToRun :=
  ite_tame (driveInhibit_tame (foldl_tame (foldl_tame (modBoot_tame h) (fun _ _ hv => restartRaw_tame hv)) (fun _ _ hv => restartCurd_tame
      hv))) (driveInhibit_tame (fixFirst_tame (mk_tame (foldl_tame (foldl_tame (modBoot_tame h) (fun _ _ hv => restartRaw_tame hv)) (fun _ _ hv
      => restartCurd_tame hv)))))
theorem runPowerSet_tame (h : Tame still s u) {i k p} : ResTame still s (runPowerSet i k p u) := by
  unfold runPowerSet
  dsimp only
  split
  · exact refuse_tame h
  · split
    · exact ok_tame h
    · split
      · exact ok_tame (returnToRun_tame (ite_tame (loopsOn_tame h) h))
      · split
        · exact sent_tame (leaveRun_tame (complete_tame h))
        · exact ok_tame (leaveRun_tame (ite_tame (loopsOn_tame h) h))
theorem runPowerQuery_tame (h : Tame still s u) {i k p} : ResTame still s (runPowerQuery i k p u) := ok_tame h
theorem runOf_tame (h : Tame still s u) {op i k p} : ResTame still s (runOf op i k p u) := by
  unfold runOf
  split
  · exact runRind_tame h
  · split
    · exact runStageable_tame h
    · split
      · exact runSessionClose_tame h
      · exact runSessionPing_tame h
      · exact runEventSubscribe_tame h
      · exact runIdentify_tame h
      · exact runTxnBegin_tame h
      · exact runTxnCommit_tame h
      · exact runTxnRollback_tame h
      · exact runTxnQuery_tame h
      · exact runRearm_tame h
      · exact runEndRebase_tame h
      · exact runPortQuery_tame h
      · exact runEmitterQuery_tame h
      · exact runPlaceQuery_tame h
      · exact runRebalance_tame h
      · exact runCapacity_tame h
      · exact runRetire_tame h
      · exact runSyncReset_tame h
      · exact runConfigSave_tame h
      · exact runDarkFloor_tame h
      · exact runRxcalQuery_tame h
      · exact runTimeQuery_tame h
      · exact runMeasStart_tame h
      · exact runMeasCancel_tame h
      · exact runAnchor_tame h
      · exact runImageLoad_tame h
      · exact runImageDelete_tame h
      · exact runImageQuery_tame h
      · exact runJobSubmit_tame h
      · exact runJobCancel_tame h
      · exact runPressQuery_tame h
      · exact runTriggerFire_tame h
      · exact runCaptureRelease_tame h
      · exact runDump_tame h
      · exact runReanalyse_tame h
      · exact runCaptureQuery_tame h
      · exact runSliceTest_tame h
      · exact runSelfTest_tame h
      · exact runFaultLog_tame h
      · exact runJournalRead_tame h
      · exact runJournalClear_tame h
      · exact runPowerSet_tame h
      · exact runPowerQuery_tame h
      · exact refuse_tame h
theorem pumpSession_tame (h : Tame still s u) {i n} : Tame still s (pumpSession i n u) := by
  induction n generalizing u with
  | zero => exact h
  | succ n ih =>
    unfold pumpSession
    dsimp only
    split
    · exact h
    · split
      · exact h
      · split
        · exact ih (start_tame (modSess_tame h) fun _ _ _ _ hv => runOf_tame hv)
        · exact start_tame (modSess_tame h) fun _ _ _ _ hv => runOf_tame hv
theorem pump_tame (h : Tame still s u) : Tame still s u.pump := foldl_tame h (fun _ _ hv => pumpSession_tame hv)
theorem arriveBytes_tame (h : Tame still s u) {t bs w} : Tame still s (arriveBytes t bs w u) := arrive_tame h fun _ _ _ _ hv => runOf_tame hv
theorem calIdle_tame (h : Tame still s u) : Tame still s (calIdle u) :=
  ite_tame (serveAll_tame (answerRind_tame (calibrationIdleTimeout_tame h))) (calibrationIdleTimeout_tame h)
theorem crDoorbell_tame (h : Tame still s u) {n v bytes} : Tame still s (crDoorbell n v bytes u) :=
  ite_tame h (ite_tame (modCr_tame h) (arriveBytes_tame (modCr_tame h)))
theorem txnTimeout_tame (h : Tame still s u) {n} : Tame still s (txnTimeout n u) := by
  unfold txnTimeout
  split
  · exact h
  · exact raise_tame (modSess_tame (until_tame h))
theorem sessionTimeout_tame (h : Tame still s u) {n} : Tame still s (sessionTimeout n u) := by
  unfold sessionTimeout
  refine ite_tame ?_ h
  exact raise_tame (closeSession_tame (until_tame h))
theorem mainReset_tame (h : Tame false s u) {w} : Tame false s (mainReset w u) :=
  h.trans ⟨rfl, fun hs => memOk_iff.2 ⟨by cases w; exacts [rfl, hs.1], fun n => by simpa [mainReset, State.reset] using engineOk_reset⟩, nofun⟩
theorem enterReset_tame (h : Tame false s u) {cause} : Tame false s (enterReset cause u) := modBoot_tame (mainReset_tame h)
theorem clearPend_tame (h : Tame still s u) {n} : Tame still s (u.clearPend n) := mk_tame h
theorem evPendClear_tame (h : Tame still s u) {k v occ} : Tame still s (evPendClear k v occ u) :=
  foldl_tame (foldl_tame h (fun _ _ hv => clearPend_tame hv)) (fun _ _ hv => raiseN_tame hv)
theorem lateMsix_tame (h : Tame still s u) {n} : Tame still s (u.lateMsix n) := ite_tame (msix_tame h) h
theorem evRouteWrite_tame (h : Tame still s u) {r v} : Tame still s (evRouteWrite r v u) := by
  unfold evRouteWrite
  split
  · dsimp only
    refine foldl_tame (mk_tame h) ?_
    intro v _ hv
    split
    · exact lateMsix_tame hv
    · exact hv
  · exact ite_tame (lateMsix_tame (mk_tame h)) (mk_tame h)
theorem pendingSelfClear_tame (h : Tame still s u) {e occ} : Tame still s (pendingSelfClear e occ u) := by
  unfold pendingSelfClear
  split
  · exact ite_tame (raise_tame h) h
  · exact ite_tame (raise_tame (clearPend_tame (until_tame h))) (clearPend_tame (until_tame h))
theorem msixEnable_tame (h : Tame still s u) : Tame still s (msixEnable u) := by
  unfold msixEnable
  refine ite_tame h ?_
  exact foldl_tame (modLinks_tame h fun _ => rfl) (fun v _ hv => msix_tame hv)
theorem writeMsix_tame (h : Tame still s u) {o v} : Tame still s (writeMsix o v u) := by
  unfold writeMsix
  split
  · exact ite_tame (emit_tame (modLinks_tame (modLinks_tame h fun _ => rfl) fun _ => rfl)) (modLinks_tame h fun _ => rfl)
  · exact h
theorem timeCapture_tame (h : Tame still s u) : Tame still s (timeCapture u) := by
  unfold timeCapture
  exact modGlb_tame h
theorem writeGlobal_tame (h : Tame still s u) {o v} : Tame still s (writeGlobal o v u) := by
  unfold writeGlobal
  split
  · exact modGlb_tame h
  · exact modGlb_tame h
  · exact modGlb_tame h
  · exact ite_tame (timeCapture_tame h) h
  · exact h
theorem writeSdc_tame (h : Tame still s u) {o v} : Tame still s (writeSdc o v u) := by
  unfold writeSdc
  refine ite_tame (writeSdcCtl_tame h) ?_
  refine ite_tame (writeSdcStat_tame h) ?_
  refine ite_tame ?_ ?_
  · split
    · exact writeSdcRaw_tame h
    · exact h
  · refine ite_tame ?_ h
    split
    · exact writeEmiOvr_tame h
    · exact h
theorem writeAxc1_tame (h : Tame still s u) {o v} : Tame still s (writeAxc1 o v u) := by
  unfold writeAxc1
  refine ite_tame (writeAxc1Ctl_tame h) ?_
  refine ite_tame (writeAxc1Stat_tame h) ?_
  refine ite_tame (writeAxc1Urg_tame h) ?_
  refine ite_tame ?_ ?_
  · split
    · exact writeAxc1Seq_tame h
    · exact h
  · refine ite_tame ?_ h
    split
    · exact writeAxc1Lim_tame h
    · exact h
theorem writeLane_tame (h : Tame still s u) {n o v} : Tame still s (writeLane n o v u) := by
  unfold writeLane
  split
  · exact writeRxlCtl_tame h
  · exact writeRxlStat_tame h
  · exact trimWrite_tame h
  · exact trimWrite_tame h
  · exact h
theorem writeCal_tame (h : Tame still s u) {p o v} : Tame still s (writeCal p o v u) := by
  unfold writeCal
  split
  · exact writeRxcCtl_tame h
  · exact writeRxcWin_tame h
  · exact writeRxcStat_tame h
  · exact h
theorem writePort_tame (h : Tame still s u) {p o v} : Tame still s (writePort p o v u) := by
  unfold writePort
  split
  · exact modPort_tame h
  · exact modPort_tame h
  · exact h
theorem writeEngine_tame (h : Tame still s u) {n o v} : Tame still s (writeEngine n o v u) := by
  unfold writeEngine
  split
  · exact writeVatCtl_tame h
  · exact modEng_tame h (fun _ he => he.keep)
  · exact h
theorem writePress_tame (h : Tame still s u) {n o v} : Tame still s (writePress n o v u) := by
  unfold writePress
  split
  · exact writePressCtl_tame h
  · exact modPress_tame h
  · exact h
theorem writeEvents_tame (h : Tame still s u) {o v} : Tame still s (writeEvents o v u) := by
  unfold writeEvents
  refine ite_tame ?_ ?_
  · split
    · exact evPendClear_tame h
    · exact h
  · refine ite_tame ?_ ?_
    · split
      · exact evRouteWrite_tame h
      · exact h
    · refine ite_tame ?_ h
      split
      · exact evRouteWrite_tame h
      · exact h
theorem writeBoot_tame (h : Tame false s u) {o v} : Tame false s (writeBoot o v u) := by
  unfold writeBoot
  split
  · exact modBoot_tame h
  · exact ite_tame (enterReset_tame h) h
  · exact modBoot_tame h
  · exact modBoot_tame h
  · exact h
/-- A write through the window is tame when one of the boot block's registers is: RST_CTL alone resets. -/
theorem writeReg_tame_of (h : Tame still s u) {ag off v} (hb : off / 0x1000 = 0x100 → Tame still s (writeBoot (off % 0x1000) v u)) :
    Tame still s (writeReg ag off v u) := by
  unfold writeReg
  dsimp only
  refine ite_tame h ?_
  split
  · exact writeGlobal_tame h
  · split
    · exact writeCkg_tame h
    · exact writeCkg_tame h
    · exact writeCkgStat_tame h
    · exact h
  · split
    · exact writeClkCtl_tame h
    · exact writeClkStat_tame h
    · exact h
  · refine writtenClk_tame h ?_
    intro v hv
    split
    · exact writeFcntCtl_tame hv
    · exact writeFcntStat_tame hv
    · exact hv
  · split
    · exact writePace_tame h
    · exact h
  · split
    · exact writeTiuCtl_tame h
    · exact writeTiuStat_tame h
    · exact h
  · exact writtenClk_tame h (fun v hv => writeSdc_tame hv)
  · exact writtenClk_tame h (fun v hv => writeAxc1_tame hv)
  · split
    · exact writtenPort_tame h (fun v hv => writeLane_tame hv)
    · exact h
  · split
    · exact writtenPort_tame h (fun v hv => writeCal_tame hv)
    · exact h
  · split
    · exact writePort_tame h
    · exact h
  · split
    · exact writeEngine_tame h
    · exact h
  · split
    · exact writePress_tame h
    · exact h
  · exact ite_tame (modLadle_tame h) h
  · exact writeEvents_tame h
  · exact ite_tame h (writeMsix_tame h)
  · split
    · exact ite_tame (crDoorbell_tame h) (pump_tame (writeCr_tame h))
    · exact h
  · split
    · exact writeSr_tame h
    · exact h
  · exact writtenClk_tame h (fun v hv => writeEth_tame hv)
  · exact writtenClk_tame h (fun v hv => writeEth_tame hv)
  · exact hb ‹_›
  · exact h
theorem writeReg_tame (h : Tame false s u) {ag off v} : Tame false s (writeReg ag off v u) := writeReg_tame_of h fun _ => writeBoot_tame h
theorem accError_tame (h : Tame still s u) {ag off i} : Tame still s (u.accError ag off i) := modGlb_tame h
theorem registerWrite_tame (h : Tame false s u) {ag off enables data} : Tame false s (registerWrite ag off enables data u) := by
  unfold registerWrite
  refine ite_tame h ?_
  split
  · exact accError_tame h
  · exact ite_tame (writeReg_tame (writeReg_tame h)) (writeReg_tame h)
theorem spiFrame_tame (h : Tame false s u) {f} : Tame false s (spiFrame f u) := by
  unfold spiFrame
  split
  · exact emit_tame (ite_tame (foldl_tame h (fun v _ hv => accError_tame hv)) h)
  · exact foldl_tame h (fun v _ hv => registerWrite_tame hv)
  · exact arriveBytes_tame h
  · exact ite_tame h (raise_tame h)
theorem refresh_tame (h : Tame still s u) {snapshot} : Tame still s (u.refresh snapshot) := by
  unfold State.refresh
  refine ite_tame h ?_
  exact modGlb_tame (ite_tame (modRm_tame (modRm_tame h)) (modRm_tame h))
theorem mirrorRefresh_tame (h : Tame still s u) {snapshot} : Tame still s (mirrorRefresh snapshot u) := by
  unfold mirrorRefresh
  exact modGlb_tame (refresh_tame (until_tame h))
theorem substituteRefresh_tame (h : Tame still s u) : Tame still s (substituteRefresh u) := by
  unfold substituteRefresh
  exact modGlb_tame (refresh_tame (until_tame h))
theorem slowFail_tame (h : Tame still s u) : Tame still s (slowFail u) := by
  unfold slowFail
  refine ite_tame h ?_
  exact faultLog_tame (modGlb_tame (until_tame h))
theorem slowFailClear_tame (h : Tame still s u) : Tame still s (slowFailClear u) := by
  unfold slowFailClear
  split
  · exact h
  · exact modGlb_tame (until_tame h)
theorem rindSnapshotLoss_tame (h : Tame still s u) : Tame still s (rindSnapshotLoss u) := ite_tame h (modRm_tame (elapse_tame h))
theorem modRec_tame (h : Tame still s u) {f} : Tame still s (u.modRec f) := modBoot_tame h
theorem stepDone_tame (h : Tame still s u) {n outcome reason detail} : Tame still s (u.stepDone n outcome reason detail) := by
  unfold State.stepDone
  exact modBoot_tame (modRec_tame h)
theorem atStep_tame (h : Tame still s u) {n} : Tame still s (u.atStep n) := modRec_tame (modGlb_tame h)
theorem bootB00_tame (h : Tame still s u) {r pl} : Tame still s (bootB00 r pl u).s := by
  unfold bootB00
  split
  · dsimp only
    exact failed_tame (ite_tame (tellTamper_tame (modAon_tame (modBoot_tame h))) (modAon_tame (modBoot_tame h)))
  · split
    · exact passed_tame h
    · exact failed_tame (modBoot_tame h)
theorem bootB01_tame (h : Tame still s u) {pl} : Tame still s (bootB01 pl u).s := by
  unfold bootB01
  split
  · exact passed_tame h
  · exact failed_tame h
  · exact failed_tame h
theorem bootB02_tame (h : Tame still s u) {b prev r pl} : Tame still s (bootB02 b prev r pl u).s := by
  unfold bootB02
  split
  · dsimp only
    split
    · exact mk_tame (modBoot_tame (modGlb_tame h))
    · exact passedAlt_tame (elapse_tame (fresh_tame_2 (modRec_tame (modBoot_tame (modGlb_tame h)))))
  · exact failed_tame h
theorem loadRetired_tame (h : Tame still s u) : Tame still s u.loadRetired :=
  refreshLadle_tame (modLadle_tame (foldl_tame (forEngs_tame (foldl_tame h (fun v _ hv => ite_tame (modPipe_tame hv) hv)) (fun _ v hv =>
      modEng_tame hv (fun _ he => he.keep))) (fun v _ hv => ite_tame (modPress_tame hv) hv)))
theorem bootB03_tame (h : Tame still s u) {b r pl} : Tame still s (bootB03 b r pl u).s := by
  unfold bootB03
  dsimp only
  split
  · exact failed_tame (modLadle_tame (modBoot_tame h))
  · split
    · exact passed_tame (modLadle_tame (modBoot_tame h))
    · exact reduced_tame (modLadle_tame (modBoot_tame h))
theorem bootB04_tame (h : Tame still s u) {b r pl} : Tame still s (bootB04 b r pl u).s := by
  unfold bootB04
  dsimp only
  split
  · exact failed_tame (ite_tame (raise_tame h) h)
  · split
    · exact reduced_tame (modBoot_tame (ite_tame (raise_tame h) h))
    · split
      · exact passed_tame (ite_tame (raise_tame h) h)
      · exact passedAlt_tame (ite_tame (raise_tame h) h)
theorem bootB05_tame (h : Tame false s u) {b loaded r pl} : Tame false s (bootB05 b loaded r pl u).s := by
  unfold bootB05
  dsimp only
  split
  · exact passed_tame (timingPortLinkChange_tame (ethPortUpChange_tame (ethPortUpChange_tame (pcieLinkChange_tame (modEth_tame (modEth_tame h))))))
  · split
    · exact passedAlt_tame (timingPortLinkChange_tame (ethPortUpChange_tame (ethPortUpChange_tame (pcieLinkChange_tame (modEth_tame (modEth_tame
          h))))))
    · split
      · split
        · exact reduced_tame (timingPortLinkChange_tame (ethPortUpChange_tame (ethPortUpChange_tame (pcieLinkChange_tame (modEth_tame (modEth_tame
              h))))))
        · exact failed_tame (timingPortLinkChange_tame (ethPortUpChange_tame (ethPortUpChange_tame (pcieLinkChange_tame (modEth_tame (modEth_tame
              h))))))
      · split
        · exact reduced_tame (timingPortLinkChange_tame (ethPortUpChange_tame (ethPortUpChange_tame (pcieLinkChange_tame (modEth_tame (modEth_tame
              h))))))
        · exact failed_tame (timingPortLinkChange_tame (ethPortUpChange_tame (ethPortUpChange_tame (pcieLinkChange_tame (modEth_tame (modEth_tame
              h))))))
theorem bootB06_tame (h : Tame still s u) {b r pl} : Tame still s (bootB06 b r pl u).s := by
  unfold bootB06
  dsimp only
  split
  · exact passed_tame (modClk_tame (foldl_tame h (fun v _ hv => ite_tame (sourceEvent_tame (modClk_tame hv)) hv)))
  · exact reduced_tame (modClk_tame (foldl_tame h (fun v _ hv => ite_tame (sourceEvent_tame (modClk_tame hv)) hv)))
theorem out_ite_tame {c : Prop} [Decidable c] {a b : StepOut} (ha : Tame still s a.s) (hb : Tame still s b.s) : Tame still s (if c then a else b).s := by
  split
  · exact ha
  · exact hb
theorem bootB07_tame (h : Tame still s u) {b r pl} : Tame still s (bootB07 b r pl u).s := by
  unfold bootB07
  refine out_ite_tame (passed_tame ?_) (reduced_tame ?_)
  all_goals exact foldl_tame (mk_tame h) fun v n hv =>
    ite_tame (ite_tame (laneCause_tame hv) hv) (laneCause_tame (ite_tame (laneCause_tame hv) hv))
theorem bootUnits_tame (h : Tame still s u) {us n r pl} : Tame still s (bootUnits us n r pl u).s := by
  unfold bootUnits
  dsimp only
  exact out_ite_tame (passed_tame (foldl_tame h (fun v _ hv => retireUnit_tame hv))) (reduced_tame (foldl_tame h (fun v _ hv => retireUnit_tame
      hv)))
theorem bootB11_tame (h : Tame still s u) {b r pl} : Tame still s (bootB11 b r pl u).s := by
  unfold bootB11
  dsimp only
  exact out_ite_tame (failed_tame (finishDiscovery_tame (startDiscovery_tame h))) (passed_tame (finishDiscovery_tame (startDiscovery_tame h)))
theorem bootB12_tame (h : Tame still s u) {b r pl} : Tame still s (bootB12 b r pl u).s := by
  unfold bootB12
  dsimp only
  exact out_ite_tame (passed_tame (foldl_tame (foldl_tame (modTiu_tame h) (fun v _ hv => ite_tame (modTiu_tame hv) hv)) (fun v _ hv =>
      retireConv_tame hv))) (reduced_tame (foldl_tame (foldl_tame (modTiu_tame h) (fun v _ hv => ite_tame (modTiu_tame hv) hv)) (fun v _ hv =>
      retireConv_tame hv)))
theorem bootB13_tame (h : Tame still s u) {r pl} : Tame still s (bootB13 r pl u).s := by
  unfold bootB13
  dsimp only
  exact out_ite_tame (passed_tame (ite_tame h (mk_tame h))) (failed_tame (ite_tame h (mk_tame h)))
theorem bootCommit_tame_of {t} (h : Tame still s u) {ss} (ht : u.bootCommit ss = some t) : Tame still s t := by
  unfold State.bootCommit at ht
  split at ht
  · cases ht; exact h
  · split at ht
    · cases ht; exact commitNow_tame (tryCommit_tame_of h ‹_›)
    · cases ht
theorem bootCommit_getD_tame (h : Tame still s u) {ss} : Tame still s ((u.bootCommit ss).getD u) := by
  cases hc : u.bootCommit ss with
  | none => exact h
  | some t => exact bootCommit_tame_of h hc
theorem bootPort_tame_1 {acc : State × Nat} (h : Tame still s acc.1) {ss p} : Tame still s (bootPort ss acc p).1 := by
  unfold bootPort
  dsimp only
  split
  · exact bootCommit_tame_of h ‹_›
  · split
    · exact bootCommit_tame_of h ‹_›
    · exact bootCommit_getD_tame h
theorem bootPart_tame (h : Tame still s u) {ss own} : Tame still s (bootPart ss u own) := bootCommit_getD_tame h
theorem bootB14_tame (h : Tame still s u) {b loaded r pl} : Tame still s (bootB14 b loaded r pl u).s := by
  unfold bootB14
  refine out_ite_tame h ?_
  dsimp only
  refine out_ite_tame ?_ ?_
  · refine out_ite_tame ?_ ?_
    · refine passed_tame ?_
      split
      · dsimp only
        exact bootCommit_tame_of (mk_tame h) ‹_›
      · dsimp only
        refine foldl_tame ?_ (fun v _ hv => bootPart_tame hv)
        refine foldl_fst_tame ?_ (fun v _ hv => bootPort_tame_1 hv)
        dsimp only
        exact foldl_tame (bootPart_tame (mk_tame h)) (fun v _ hv => bootPart_tame hv)
    · refine failed_tame ?_
      split
      · dsimp only
        exact bootCommit_tame_of (mk_tame h) ‹_›
      · dsimp only
        refine foldl_tame ?_ (fun v _ hv => bootPart_tame hv)
        refine foldl_fst_tame ?_ (fun v _ hv => bootPort_tame_1 hv)
        dsimp only
        exact foldl_tame (bootPart_tame (mk_tame h)) (fun v _ hv => bootPart_tame hv)
  · refine reduced_tame ?_
    refine raise_tame ?_
    split
    · dsimp only
      exact bootCommit_tame_of (mk_tame h) ‹_›
    · dsimp only
      refine foldl_tame ?_ (fun v _ hv => bootPart_tame hv)
      refine foldl_fst_tame ?_ (fun v _ hv => bootPort_tame_1 hv)
      dsimp only
      exact foldl_tame (bootPart_tame (mk_tame h)) (fun v _ hv => bootPart_tame hv)
theorem bootAction_tame (h : Tame false s u) {b n loaded r pl} : Tame false s (bootAction b n loaded r pl u).s := by
  unfold bootAction
  split
  · exact bootB00_tame h
  · exact bootB01_tame h
  · exact bootB02_tame h
  · exact bootB03_tame h
  · exact bootB04_tame h
  · exact bootB05_tame h
  · exact bootB06_tame h
  · exact bootB07_tame h
  · exact bootUnits_tame h
  · exact bootUnits_tame h
  · exact bootUnits_tame h
  · exact bootB11_tame h
  · exact bootB12_tame h
  · exact bootB13_tame h
  · exact bootB14_tame h
theorem placeFixed_tame (h : Tame still s u) : Tame still s u.placeFixed := by
  unfold State.placeFixed
  refine ite_tame h ?_
  split
  · exact modLadle_tame h
  · exact h
theorem bootB15_tame (h : Tame still s u) {b} : Tame still s (bootB15 b u) :=
  refreshLadle_tame (placeFixed_tame (stepDone_tame (modRec_tame (modBoot_tame (modGlb_tame h)))))
theorem bootHalt_tame (h : Tame still s u) : Tame still s u.bootHalt := modRec_tame (modBoot_tame h)
theorem bootFrom_tame (h : Tame false s u) {b prev l loaded} : Tame false s (bootFrom b prev l loaded u) := by
  induction l generalizing u loaded with
  | nil => exact bootB15_tame h
  | cons n rest ih =>
    have h1 : Tame false s ((if n = 4 then u.loadRetired else u).atStep n) := by
      refine atStep_tame ?_
      split
      · exact loadRetired_tame h
      · exact h
    unfold bootFrom
    dsimp only
    split
    · exact bootHalt_tame h1
    · exact ih (stepDone_tame h1)
    · have h2 {pl r d} : Tame false s (bootAction b n loaded r pl (((if n = 4 then u.loadRetired else u).atStep n).fresh.2.elapse d)).s :=
        bootAction_tame (elapse_tame (fresh_tame_2 h1))
      exact ite_tame h1 (ite_tame (bootHalt_tame (stepDone_tame h2)) (ih (stepDone_tame h2)))
theorem bootUp_tame (h : Tame false s u) {b} : Tame false s (bootUp b u) := bootFrom_tame (modBoot_tame h)
theorem mainPowerOnReset_tame (h : Tame false s u) {b} : Tame false s (mainPowerOnReset b u) := bootUp_tame (modBoot_tame (mainReset_tame (elapse_tame h)))
theorem warmReset_tame (h : Tame false s u) {w b} : Tame false s (warmReset w b u) := ite_tame h (bootUp_tame (ite_tame (modBoot_tame h) (enterReset_tame h)))
theorem bootStepTimeout_tame (h : Tame false s u) : Tame false s (bootStepTimeout u) := by
  unfold bootStepTimeout
  refine ite_tame h ?_
  exact enterReset_tame (stepDone_tame (elapse_tame h))
theorem pcieFundamentalReset_tame (h : Tame false s u) : Tame false s (pcieFundamentalReset u) := ite_tame h (ite_tame (pcieLinkChange_tame h) (pcieReset_tame h))
theorem islandReset_tame (h : Tame false s u) {i} : Tame false s (islandReset i u) := by
  unfold islandReset
  refine ite_tame h ?_
  split
  · exact modLinks_tame (modEth_tame (ethPortUpChange_tame h)) nofun
  · exact modLinks_tame (timingPortLinkChange_tame h) nofun
  · exact modLinks_tame h nofun
theorem vbatPowerOn_tame (h : Tame still s u) : Tame still s (vbatPowerOn u) := mk_tame h
theorem vbatLoss_tame (h : Tame still s u) : Tame still s (vbatLoss u) := ite_tame (modAon_tame h) h
theorem mainSupplyLoss_tame (h : Tame false s u) : Tame false s (mainSupplyLoss u) := modBoot_tame (mainReset_tame h)
theorem rindSupplyLoss_tame (h : Tame still s u) : Tame still s (rindSupplyLoss u) := modBoot_tame (syncScan_tame (modRind_tame h))
theorem wakeUp_tame (h : Tame still s u) {byAlarm} : Tame still s (wakeUp byAlarm u) := by
  unfold wakeUp
  refine ite_tame h ?_
  exact ite_tame (modBoot_tame (modAon_tame (elapse_tame h))) (ite_tame h (modBoot_tame (modAon_tame (elapse_tame h))))
theorem boundaryScan_tame (h : Tame still s u) {j} : Tame still s (boundaryScan j u) := by
  unfold boundaryScan
  dsimp only
  split
  · exact emit_tame (fresh_tame_2 (syncScan_tame (modLinks_tame h fun _ => rfl)))
  · exact emit_tame (syncScan_tame (modLinks_tame h fun _ => rfl))
  · exact syncScan_tame (modLinks_tame h fun _ => rfl)

/-! ### Each instruction of an engine -/

theorem resOk_nop {e : Engine} (h : EngineOk e) {w} : ResOk (vatNop e w) := h
theorem resOk_halt {e : Engine} {w} : ResOk (vatHalt e w) := resOk_ite trivial (resOk_ite trivial trivial)
theorem resOk_evt {e : Engine} (h : EngineOk e) {w} : ResOk (vatEvt e w) := h.of_memories (f := { e with stat := _ }) rfl
theorem resOk_clra {e : Engine} (h : EngineOk e) {w} : ResOk (vatClra e w) := h.of_memories (f := { e with acc := 0, ovc := 0, flags := _ }) rfl
theorem resOk_sha {e : Engine} (h : EngineOk e) {w} : ResOk (vatSha e w) := h.of_memories (memories_setTrue ..)
theorem resOk_ld {e : Engine} (h : EngineOk e) {w} : ResOk (vatLd e w) := resOk_guarded (h.of_memories (by simp))
theorem resOk_ld2 {e : Engine} (h : EngineOk e) {w} : ResOk (vatLd2 e w) := resOk_guarded (h.of_memories (by simp))
theorem resOk_st {e : Engine} (h : EngineOk e) {w} : ResOk (vatSt e w) := resOk_guarded (h.setWord.of_memories (memories_modify ..))
theorem resOk_st2 {e : Engine} (h : EngineOk e) {w} : ResOk (vatSt2 e w) :=
  resOk_guarded (h.setWord.setWord.of_memories (memories_modify2 ..))
theorem resOk_mmclr {e : Engine} (h : EngineOk e) {w} : ResOk (vatMmclr e w) :=
  h.of_memories (f := { e with mmcnt := 0, maxi := 0xFFFF, mini := 0xFFFF }) rfl
theorem resOk_br {e : Engine} (h : EngineOk e) {w} : ResOk (vatBr e w) := resOk_ite (h.of_memories (f := { e with loops := _ }) rfl) h
theorem resOk_call {e : Engine} (h : EngineOk e) {w} : ResOk (vatCall e w) :=
  resOk_ite trivial (h.of_memories (f := { e with calls := _ }) rfl)
theorem resOk_ret {e : Engine} (h : EngineOk e) {w} : ResOk (vatRet e w) := by
  unfold vatRet
  split
  · trivial
  · exact h.of_memories rfl
theorem resOk_loop {e : Engine} (h : EngineOk e) {w} : ResOk (vatLoop e w) :=
  resOk_ite h (resOk_ite trivial (h.of_memories (f := { e with loops := _ }) rfl))
theorem resOk_cwait {e : Engine} (h : EngineOk e) {w} : ResOk (vatCwait e w) := resOk_ite h trivial

/-! ### Every command -/

/-- Every command goes on, to a state that holds the same queue and whose memories keep their canonical form. -/
theorem exec_next_tame (c : Instr) (s : State) : ∃ t, exec c s = .next t ∧ Tame false s t := by
  have h : Tame false s s := .refl s
  cases c with
  | sessionOpen k => exact ⟨_, rfl, arrive_tame h fun _ _ _ _ hv => runOf_tame hv⟩
  | sessionClose k => exact ⟨_, rfl, arrive_tame h fun _ _ _ _ hv => runSessionClose_tame hv⟩
  | sessionPing k => exact ⟨_, rfl, arrive_tame h fun _ _ _ _ hv => runSessionPing_tame hv⟩
  | eventSubscribe k => exact ⟨_, rfl, arrive_tame h fun _ _ _ _ hv => runEventSubscribe_tame hv⟩
  | identify k => exact ⟨_, rfl, arrive_tame h fun _ _ _ _ hv => runIdentify_tame hv⟩
  | unknownOpcode op k => exact ⟨_, rfl, arrive_tame h fun _ _ _ _ hv => runOf_tame hv⟩
  | txnBegin k => exact ⟨_, rfl, arrive_tame h fun _ _ _ _ hv => runTxnBegin_tame hv⟩
  | txnCommit k => exact ⟨_, rfl, arrive_tame h fun _ _ _ _ hv => runTxnCommit_tame hv⟩
  | txnRollback k => exact ⟨_, rfl, arrive_tame h fun _ _ _ _ hv => runTxnRollback_tame hv⟩
  | txnQuery k => exact ⟨_, rfl, arrive_tame h fun _ _ _ _ hv => runTxnQuery_tame hv⟩
  | planSet k => exact ⟨_, rfl, arrive_tame h fun _ _ _ _ hv => runStageable_tame hv⟩
  | modeSet k => exact ⟨_, rfl, arrive_tame h fun _ _ _ _ hv => runStageable_tame hv⟩
  | portSafety k => exact ⟨_, rfl, arrive_tame h fun _ _ _ _ hv => runStageable_tame hv⟩
  | delaySet k => exact ⟨_, rfl, arrive_tame h fun _ _ _ _ hv => runStageable_tame hv⟩
  | emitterSet k => exact ⟨_, rfl, arrive_tame h fun _ _ _ _ hv => runStageable_tame hv⟩
  | emitterDelete k => exact ⟨_, rfl, arrive_tame h fun _ _ _ _ hv => runStageable_tame hv⟩
  | rearm k => exact ⟨_, rfl, arrive_tame h fun _ _ _ _ hv => runRearm_tame hv⟩
  | endRebase k => exact ⟨_, rfl, arrive_tame h fun _ _ _ _ hv => runEndRebase_tame hv⟩
  | portQuery k => exact ⟨_, rfl, arrive_tame h fun _ _ _ _ hv => runPortQuery_tame hv⟩
  | emitterQuery k => exact ⟨_, rfl, arrive_tame h fun _ _ _ _ hv => runEmitterQuery_tame hv⟩
  | zoneSet k => exact ⟨_, rfl, arrive_tame h fun _ _ _ _ hv => runStageable_tame hv⟩
  | zoneDelete k => exact ⟨_, rfl, arrive_tame h fun _ _ _ _ hv => runStageable_tame hv⟩
  | pinSet k => exact ⟨_, rfl, arrive_tame h fun _ _ _ _ hv => runStageable_tame hv⟩
  | placeQuery k => exact ⟨_, rfl, arrive_tame h fun _ _ _ _ hv => runPlaceQuery_tame hv⟩
  | rebalance k => exact ⟨_, rfl, arrive_tame h fun _ _ _ _ hv => runRebalance_tame hv⟩
  | capacity k => exact ⟨_, rfl, arrive_tame h fun _ _ _ _ hv => runCapacity_tame hv⟩
  | retire k => exact ⟨_, rfl, arrive_tame h fun _ _ _ _ hv => runRetire_tame hv⟩
  | ladleSet k => exact ⟨_, rfl, arrive_tame h fun _ _ _ _ hv => runStageable_tame hv⟩
  | syncReset k => exact ⟨_, rfl, arrive_tame h fun _ _ _ _ hv => runSyncReset_tame hv⟩
  | streamRoute k => exact ⟨_, rfl, arrive_tame h fun _ _ _ _ hv => runStageable_tame hv⟩
  | configSave k => exact ⟨_, rfl, arrive_tame h fun _ _ _ _ hv => runConfigSave_tame hv⟩
  | rxcalSet k => exact ⟨_, rfl, arrive_tame h fun _ _ _ _ hv => runStageable_tame hv⟩
  | darkFloor k => exact ⟨_, rfl, arrive_tame h fun _ _ _ _ hv => runDarkFloor_tame hv⟩
  | rxcalQuery k => exact ⟨_, rfl, arrive_tame h fun _ _ _ _ hv => runRxcalQuery_tame hv⟩
  | clockSet k => exact ⟨_, rfl, arrive_tame h fun _ _ _ _ hv => runStageable_tame hv⟩
  | tiuSet k => exact ⟨_, rfl, arrive_tame h fun _ _ _ _ hv => runStageable_tame hv⟩
  | timeQuery k => exact ⟨_, rfl, arrive_tame h fun _ _ _ _ hv => runTimeQuery_tame hv⟩
  | measStart k => exact ⟨_, rfl, arrive_tame h fun _ _ _ _ hv => runMeasStart_tame hv⟩
  | measCancel k => exact ⟨_, rfl, arrive_tame h fun _ _ _ _ hv => runMeasCancel_tame hv⟩
  | anchor k => exact ⟨_, rfl, arrive_tame h fun _ _ _ _ hv => runAnchor_tame hv⟩
  | servoSet k => exact ⟨_, rfl, arrive_tame h fun _ _ _ _ hv => runStageable_tame hv⟩
  | thermalSet k => exact ⟨_, rfl, arrive_tame h fun _ _ _ _ hv => runRind_tame hv⟩
  | scheduleSet k => exact ⟨_, rfl, arrive_tame h fun _ _ _ _ hv => runRind_tame hv⟩
  | frontEndSet k => exact ⟨_, rfl, arrive_tame h fun _ _ _ _ hv => runRind_tame hv⟩
  | rindIdentify k => exact ⟨_, rfl, arrive_tame h fun _ _ _ _ hv => runRind_tame hv⟩
  | rindQuery k => exact ⟨_, rfl, arrive_tame h fun _ _ _ _ hv => runRind_tame hv⟩
  | sealSet k => exact ⟨_, rfl, arrive_tame h fun _ _ _ _ hv => runRind_tame hv⟩
  | sealBreak k => exact ⟨_, rfl, arrive_tame h fun _ _ _ _ hv => runRind_tame hv⟩
  | auditRead k => exact ⟨_, rfl, arrive_tame h fun _ _ _ _ hv => runRind_tame hv⟩
  | auditAck k => exact ⟨_, rfl, arrive_tame h fun _ _ _ _ hv => runRind_tame hv⟩
  | rindFwLoad k => exact ⟨_, rfl, arrive_tame h fun _ _ _ _ hv => runRind_tame hv⟩
  | calBegin k => exact ⟨_, rfl, arrive_tame h fun _ _ _ _ hv => runRind_tame hv⟩
  | calZero k => exact ⟨_, rfl, arrive_tame h fun _ _ _ _ hv => runRind_tame hv⟩
  | calFull k => exact ⟨_, rfl, arrive_tame h fun _ _ _ _ hv => runRind_tame hv⟩
  | calApply k => exact ⟨_, rfl, arrive_tame h fun _ _ _ _ hv => runRind_tame hv⟩
  | calCancel k => exact ⟨_, rfl, arrive_tame h fun _ _ _ _ hv => runRind_tame hv⟩
  | axc0Urgent k => exact ⟨_, rfl, arrive_tame h fun _ _ _ _ hv => runRind_tame hv⟩
  | imageLoad k => exact ⟨_, rfl, arrive_tame h fun _ _ _ _ hv => runImageLoad_tame hv⟩
  | imageDelete k => exact ⟨_, rfl, arrive_tame h fun _ _ _ _ hv => runImageDelete_tame hv⟩
  | imageQuery k => exact ⟨_, rfl, arrive_tame h fun _ _ _ _ hv => runImageQuery_tame hv⟩
  | jobSubmit k => exact ⟨_, rfl, arrive_tame h fun _ _ _ _ hv => runJobSubmit_tame hv⟩
  | jobCancel k => exact ⟨_, rfl, arrive_tame h fun _ _ _ _ hv => runJobCancel_tame hv⟩
  | pressQuery k => exact ⟨_, rfl, arrive_tame h fun _ _ _ _ hv => runPressQuery_tame hv⟩
  | triggerSet k => exact ⟨_, rfl, arrive_tame h fun _ _ _ _ hv => runStageable_tame hv⟩
  | triggerDelete k => exact ⟨_, rfl, arrive_tame h fun _ _ _ _ hv => runStageable_tame hv⟩
  | triggerFire k => exact ⟨_, rfl, arrive_tame h fun _ _ _ _ hv => runTriggerFire_tame hv⟩
  | captureRelease k => exact ⟨_, rfl, arrive_tame h fun _ _ _ _ hv => runCaptureRelease_tame hv⟩
  | dump k => exact ⟨_, rfl, arrive_tame h fun _ _ _ _ hv => runDump_tame hv⟩
  | reanalyse k => exact ⟨_, rfl, arrive_tame h fun _ _ _ _ hv => runReanalyse_tame hv⟩
  | captureQuery k => exact ⟨_, rfl, arrive_tame h fun _ _ _ _ hv => runCaptureQuery_tame hv⟩
  | sliceTest k => exact ⟨_, rfl, arrive_tame h fun _ _ _ _ hv => runSliceTest_tame hv⟩
  | selfTest k => exact ⟨_, rfl, arrive_tame h fun _ _ _ _ hv => runSelfTest_tame hv⟩
  | faultLog k => exact ⟨_, rfl, arrive_tame h fun _ _ _ _ hv => runFaultLog_tame hv⟩
  | journalRead k => exact ⟨_, rfl, arrive_tame h fun _ _ _ _ hv => runJournalRead_tame hv⟩
  | journalClear k => exact ⟨_, rfl, arrive_tame h fun _ _ _ _ hv => runJournalClear_tame hv⟩
  | powerSet k => exact ⟨_, rfl, arrive_tame h fun _ _ _ _ hv => runPowerSet_tame hv⟩
  | powerQuery k => exact ⟨_, rfl, arrive_tame h fun _ _ _ _ hv => runPowerQuery_tame hv⟩
  | commitBoundary p => exact ⟨_, rfl, pump_tame (commitAt_tame h)⟩
  | txnTimeout n => exact ⟨_, rfl, txnTimeout_tame h⟩
  | sessionTimeout n => exact ⟨_, rfl, sessionTimeout_tame h⟩
  | nop e => exact ⟨_, rfl, vatStep_tame h (fun _ _ he => resOk_nop he)⟩
  | halt e => exact ⟨_, rfl, vatStep_tame h (fun _ _ _ => resOk_halt)⟩
  | evt e => exact ⟨_, rfl, vatStep_tame h (fun _ _ he => resOk_evt he)⟩
  | clra e => exact ⟨_, rfl, vatStep_tame h (fun _ _ he => resOk_clra he)⟩
  | mac e => exact ⟨_, rfl, vatStep_tame h (fun _ _ he => resOk_mulAcc he)⟩
  | msu e => exact ⟨_, rfl, vatStep_tame h (fun _ _ he => resOk_mulAcc he)⟩
  | mul e => exact ⟨_, rfl, vatStep_tame h (fun _ _ he => resOk_mulAcc he)⟩
  | adda e => exact ⟨_, rfl, vatStep_tame h (fun _ _ he => resOk_adda he)⟩
  | sha e => exact ⟨_, rfl, vatStep_tame h (fun _ _ he => resOk_sha he)⟩
  | sta e => exact ⟨_, rfl, vatStep_tame h (fun _ _ he => resOk_store he)⟩
  | stau e => exact ⟨_, rfl, vatStep_tame h (fun _ _ he => resOk_store he)⟩
  | stal e => exact ⟨_, rfl, vatStep_tame h (fun _ _ he => resOk_stal he)⟩
  | ld e => exact ⟨_, rfl, vatStep_tame h (fun _ _ he => resOk_ld he)⟩
  | ld2 e => exact ⟨_, rfl, vatStep_tame h (fun _ _ he => resOk_ld2 he)⟩
  | st e => exact ⟨_, rfl, vatStep_tame h (fun _ _ he => resOk_st he)⟩
  | st2 e => exact ⟨_, rfl, vatStep_tame h (fun _ _ he => resOk_st2 he)⟩
  | ldi e => exact ⟨_, rfl, vatStep_tame h (fun _ _ he => resOk_setReg he)⟩
  | mov e => exact ⟨_, rfl, vatStep_tame h (fun _ _ he => resOk_setReg he)⟩
  | alu e => exact ⟨_, rfl, vatStep_tame h (fun _ _ he => resOk_alu he)⟩
  | alui e => exact ⟨_, rfl, vatStep_tame h (fun _ _ he => resOk_alu he)⟩
  | mmx e => exact ⟨_, rfl, vatStep_tame h (fun _ _ he => resOk_mmx he)⟩
  | mmclr e => exact ⟨_, rfl, vatStep_tame h (fun _ _ he => resOk_mmclr he)⟩
  | br e => exact ⟨_, rfl, vatStep_tame h (fun _ _ he => resOk_br he)⟩
  | call e => exact ⟨_, rfl, vatStep_tame h (fun _ _ he => resOk_call he)⟩
  | ret e => exact ⟨_, rfl, vatStep_tame h (fun _ _ he => resOk_ret he)⟩
  | loop e => exact ⟨_, rfl, vatStep_tame h (fun _ _ he => resOk_loop he)⟩
  | cave e => exact ⟨_, rfl, vatStep_tame h (fun _ _ he => resOk_cave he)⟩
  | cwait e => exact ⟨_, rfl, vatStep_tame h (fun _ _ he => resOk_cwait he)⟩
  | caveTransferComplete e k => exact ⟨_, rfl, cave_tame h (fun _ hv => vatTransferDone_tame hv)⟩
  | waitlim e => exact ⟨_, rfl, vatWaitLim_tame h⟩
  | invocationStart e => exact ⟨_, rfl, vatInvoke_tame h⟩
  | vatAbort e v => exact ⟨_, rfl, written_tame h (fun _ hv => writeVatCtl_tame hv)⟩
  | pressAbort n v => exact ⟨_, rfl, written_tame h (fun _ hv => writePressCtl_tame hv)⟩
  | pressDisable n v => exact ⟨_, rfl, written_tame h (fun _ hv => writePressCtl_tame hv)⟩
  | pressDrainComplete n => exact ⟨_, rfl, pressDrainComplete_tame h⟩
  | sdcEnable v => exact ⟨_, rfl, writtenClk_tame h (fun _ hv => sdcDiscoveryStart_tame (writeSdcCtl_tame hv))⟩
  | sdcDisable v => exact ⟨_, rfl, writtenClk_tame h (fun _ hv => writeSdcCtl_tame hv)⟩
  | ckgEnClear r v => exact ⟨_, rfl, written_tame h (fun _ hv => writeCkg_tame hv)⟩
  | ckgEnSet r v => exact ⟨_, rfl, written_tame h (fun _ hv => writeCkg_tame hv)⟩
  | rstCtlWarm => exact ⟨_, rfl, written_tame h (fun _ hv => enterReset_tame hv)⟩
  | timeCapture => exact ⟨_, rfl, written_tame h (fun _ hv => timeCapture_tame hv)⟩
  | fcntStart v => exact ⟨_, rfl, writtenClk_tame h (fun _ hv => writeFcntCtl_tame hv)⟩
  | fcntDone measCnt refCnt => exact ⟨_, rfl, fcntDone_tame h⟩
  | fcntNoclk => exact ⟨_, rfl, fcntNoclk_tame h⟩
  | axc1Enable v => exact ⟨_, rfl, writtenClk_tame h (fun _ hv => writeAxc1Ctl_tame hv)⟩
  | axc1Disable v => exact ⟨_, rfl, writtenClk_tame h (fun _ hv => writeAxc1Ctl_tame hv)⟩
  | axc1Start v => exact ⟨_, rfl, writtenClk_tame h (fun _ hv => writeAxc1Ctl_tame hv)⟩
  | axc1UrgentRequest v => exact ⟨_, rfl, writtenClk_tame h (fun _ hv => writeAxc1Urg_tame hv)⟩
  | axc1EntryComplete m => exact ⟨_, rfl, axc1EntryComplete_tame h⟩
  | trimWrite n qsk v => exact ⟨_, rfl, writtenPort_tame h (fun _ hv => trimWrite_tame hv)⟩
  | calModeWrite p v => exact ⟨_, rfl, writtenPort_tame h (fun _ hv => writeRxcCtl_tame hv)⟩
  | evPendClear k v occ => exact ⟨_, rfl, written_tame h (fun _ hv => evPendClear_tame hv)⟩
  | evRouteWrite r v => exact ⟨_, rfl, written_tame h (fun _ hv => evRouteWrite_tame hv)⟩
  | crDoorbell n v bytes => exact ⟨_, rfl, written_tame h (fun _ hv => crDoorbell_tame hv)⟩
  | crRtailWrite n v => exact ⟨_, rfl, pump_tame (written_tame h (fun _ hv => crRtailWrite_tame hv))⟩
  | srTailWrite n v descs => exact ⟨_, rfl, written_tame h (fun _ hv => srTailWrite_tame hv)⟩
  | registerWrite ag off enables data => exact ⟨_, rfl, registerWrite_tame h⟩
  | msixEnable => exact ⟨_, rfl, written_tame h (fun _ hv => msixEnable_tame hv)⟩
  | pendingSelfClear e occ => exact ⟨_, rfl, pendingSelfClear_tame h⟩
  | groupLaunch p g tap => exact ⟨_, rfl, groupLaunch_tame h⟩
  | frameBoundary p => exact ⟨_, rfl, frameBoundary_tame h⟩
  | laneStartupEnd p => exact ⟨_, rfl, laneStartupEnd_tame h⟩
  | laneOverrange n deep after len => exact ⟨_, rfl, laneOverrange_tame h⟩
  | recoveryCountEnd n => exact ⟨_, rfl, recoveryCountEnd_tame h⟩
  | sliceFailureDetected n slice why => exact ⟨_, rfl, sliceFailureDetected_tame h⟩
  | sliceSwap n spare => exact ⟨_, rfl, sliceSwap_tame h⟩
  | calibrationEstimate p w => exact ⟨_, rfl, calibrationEstimate_tame h⟩
  | trimWalkStep p => exact ⟨_, rfl, trimWalkStep_tame h⟩
  | calibrationHoldEnd p w => exact ⟨_, rfl, calibrationHoldEnd_tame h⟩
  | darkFrameEnd p powers floor => exact ⟨_, rfl, darkFrameEnd_tame h⟩
  | inputBufferFull n => exact ⟨_, rfl, inputBufferFull_tame h⟩
  | inputResume n dropped => exact ⟨_, rfl, inputResume_tame h⟩
  | paceWindowEnd n count margin => exact ⟨_, rfl, paceWindowEnd_tame h⟩
  | pingProcessed p g d => exact ⟨_, rfl, pingProcessed_tame h⟩
  | endDetermination p => exact ⟨_, rfl, endDetermination_tame h⟩
  | exactOutput z t => exact ⟨_, rfl, exactOutput_tame h⟩
  | featureIntervalEnd z => exact ⟨_, rfl, featureIntervalEnd_tame h⟩
  | delayRecordIntervalEnd p => exact ⟨_, rfl, delayRecordIntervalEnd_tame h⟩
  | sdcFrameEnd rx => exact ⟨_, rfl, sdcFrameEnd_tame h⟩
  | sdcDiscoveryStart => exact ⟨_, rfl, sdcDiscoveryStart_tame h⟩
  | sdcDiscoveryEnd blocks => exact ⟨_, rfl, sdcDiscoveryEnd_tame h⟩
  | sdcDiscoveryRetry => exact ⟨_, rfl, sdcDiscoveryRetry_tame h⟩
  | interlockOpen => exact ⟨_, rfl, interlockOpen_tame h⟩
  | interlockClosed => exact ⟨_, rfl, interlockClosed_tame h⟩
  | ckRefSourceLost r => exact ⟨_, rfl, ckRefSourceLost_tame h⟩
  | ckRefSourceQualified r => exact ⟨_, rfl, ckRefSourceQualified_tame h⟩
  | ckRefSwitch => exact ⟨_, rfl, ckRefSwitch_tame h⟩
  | ckRefRampComplete => exact ⟨_, rfl, ckRefRampComplete_tame h⟩
  | fsRetuneTimeout => exact ⟨_, rfl, fsRetuneTimeout_tame h⟩
  | samplingLockLost => exact ⟨_, rfl, samplingLockLost_tame h⟩
  | samplingLockRegained => exact ⟨_, rfl, samplingLockRegained_tame h⟩
  | probeLockLost => exact ⟨_, rfl, probeLockLost_tame h⟩
  | probeLockRegained => exact ⟨_, rfl, probeLockRegained_tame h⟩
  | otherLoopLockLost l => exact ⟨_, rfl, otherLoopLockLost_tame h⟩
  | otherLoopLockRegained l => exact ⟨_, rfl, otherLoopLockRegained_tame h⟩
  | memoryLockTimeout => exact ⟨_, rfl, memoryLockTimeout_tame h⟩
  | ref10StateChange o => exact ⟨_, rfl, ref10StateChange_tame h⟩
  | ppsStateChange => exact ⟨_, rfl, ppsStateChange_tame h⟩
  | timescaleChange => exact ⟨_, rfl, timescaleChange_tame h⟩
  | converterRotation cal shadow again => exact ⟨_, rfl, converterRotation_tame h⟩
  | measArmEdge t => exact ⟨_, rfl, measArmEdge_tame h⟩
  | measWindowOpen => exact ⟨_, rfl, measWindowOpen_tame h⟩
  | armTimeout => exact ⟨_, rfl, armTimeout_tame h⟩
  | measEdge d => exact ⟨_, rfl, measEdge_tame h⟩
  | measGateClose => exact ⟨_, rfl, measGateClose_tame h⟩
  | anchorPeriodExpiry p => exact ⟨_, rfl, anchorPeriodExpiry_tame h⟩
  | stepEnd => exact ⟨_, rfl, stepEnd_tame h⟩
  | switchStrobes => exact ⟨_, rfl, switchStrobes_tame h⟩
  | averageStart => exact ⟨_, rfl, averageStart_tame h⟩
  | shot d => exact ⟨_, rfl, shot_tame h⟩
  | averageEnd => exact ⟨_, rfl, averageEnd_tame h⟩
  | profileIssue c => exact ⟨_, rfl, profileIssue_tame h⟩
  | ramanInhibitAssert => exact ⟨_, rfl, ramanInhibitAssert_tame h⟩
  | ramanInhibitRelease => exact ⟨_, rfl, ramanInhibitRelease_tame h⟩
  | profile m => exact ⟨_, rfl, profileArrives_tame h⟩
  | announce m => exact ⟨_, rfl, announceArrives_tame h⟩
  | switched m => exact ⟨_, rfl, switchedArrives_tame h⟩
  | eventMessage m => exact ⟨_, rfl, eventArrives_tame h⟩
  | audit m => exact ⟨_, rfl, auditArrives_tame h⟩
  | reading m => exact ⟨_, rfl, readingArrives_tame h⟩
  | rpRetransmit => exact ⟨_, rfl, rpRetransmit_tame h⟩
  | ackAfterSilence => exact ⟨_, rfl, ackAfterSilence_tame h⟩
  | mailboxRequest => exact ⟨_, rfl, pump_tame (serveAll_tame h)⟩
  | mailboxTimeout => exact ⟨_, rfl, pump_tame (mailboxTimeout_tame h)⟩
  | timeWord => exact ⟨_, rfl, timeWord_tame h⟩
  | writeRefusedWindowEnd param => exact ⟨_, rfl, writeRefusedWindowEnd_tame h⟩
  | tamperActivation w => exact ⟨_, rfl, tamperActivation_tame h⟩
  | rindWatchdog => exact ⟨_, rfl, rindWatchdog_tame h⟩
  | rindPowerOn imageOk => exact ⟨_, rfl, pump_tame (serveAll_tame (rindPowerOn_tame h))⟩
  | rindFwLoadComplete => exact ⟨_, rfl, rindFwLoadComplete_tame h⟩
  | axc0EntryComplete m => exact ⟨_, rfl, pump_tame (calAnswer_tame (axc0Convert_tame_1 h))⟩
  | wireBreak => exact ⟨_, rfl, pump_tame (calAnswer_tame (wireBreak_tame_1 h))⟩
  | openProbe broken => exact ⟨_, rfl, openProbe_tame h⟩
  | referenceOutOfWindow => exact ⟨_, rfl, pump_tame (calAnswer_tame (referenceOutOfWindow_tame_1 h))⟩
  | referenceSettled => exact ⟨_, rfl, referenceSettled_tame h⟩
  | calibrationIdleTimeout => exact ⟨_, rfl, pump_tame (calIdle_tame h)⟩
  | mirrorRefresh snapshot => exact ⟨_, rfl, mirrorRefresh_tame h⟩
  | substituteRefresh => exact ⟨_, rfl, substituteRefresh_tame h⟩
  | slowFail => exact ⟨_, rfl, slowFail_tame h⟩
  | slowFailClear => exact ⟨_, rfl, slowFailClear_tame h⟩
  | rindSnapshotLoss => exact ⟨_, rfl, rindSnapshotLoss_tame h⟩
  | dailyDrift => exact ⟨_, rfl, dailyDrift_tame h⟩
  | dailySpareSelfTest => exact ⟨_, rfl, dailySpareSelfTest_tame h⟩
  | unitLost u readable => exact ⟨_, rfl, unitLost_tame h⟩
  | shedReplacement => exact ⟨_, rfl, shedReplacement_tame h⟩
  | migrationComplete u comparisonOk => exact ⟨_, rfl, migrationComplete_tame h⟩
  | workItemAged => exact ⟨_, rfl, workItemAged_tame h⟩
  | overflowBlockTimeout z => exact ⟨_, rfl, overflowBlockTimeout_tame h⟩
  | discardRunRecord z => exact ⟨_, rfl, discardRunRecord_tame h⟩
  | pressBlockCoded n => exact ⟨_, rfl, cave_tame h (fun _ hv => pressBlockCoded_tame hv)⟩
  | hostJobStart n => exact ⟨_, rfl, cave_tame h (fun _ hv => hostJobStart_tame hv)⟩
  | hostJobStop n input how => exact ⟨_, rfl, cave_tame h (fun _ hv => hostJobStop_tame hv)⟩
  | pressLaneLost n => exact ⟨_, rfl, unitLost_tame h⟩
  | triggerFiring => exact ⟨_, rfl, triggerFiring_tame h⟩
  | capturePinning c => exact ⟨_, rfl, cave_tame h (fun _ hv => capturePinning_tame hv)⟩
  | capHoldExpiry c => exact ⟨_, rfl, capHoldExpiry_tame h⟩
  | reanalysisEnd preempted => exact ⟨_, rfl, cave_tame h (fun _ hv => reanalysisEnd_tame hv)⟩
  | pcieLinkChange l => exact ⟨_, rfl, pcieLinkChange_tame h⟩
  | streamBufferDone n => exact ⟨_, rfl, streamBufferDone_tame h⟩
  | ethPortUpChange n up => exact ⟨_, rfl, ethPortUpChange_tame h⟩
  | ethPortFailed n => exact ⟨_, rfl, ethPortFailed_tame h⟩
  | ethPortReturn n => exact ⟨_, rfl, ethPortReturn_tame h⟩
  | pauseReceived n quanta => exact ⟨_, rfl, pauseReceived_tame h⟩
  | pauseLimExceeded n => exact ⟨_, rfl, pauseLimExceeded_tame h⟩
  | neighbourResolution n m => exact ⟨_, rfl, neighbourResolution_tame h⟩
  | icmpEcho n v6 src payload => exact ⟨_, rfl, icmpEcho_tame h⟩
  | udpDatagramDiscard n => exact ⟨_, rfl, udpDatagramDiscard_tame h⟩
  | ptpMessage m => exact ⟨_, rfl, ptpMessage_tame h⟩
  | timingPortLinkChange up => exact ⟨_, rfl, timingPortLinkChange_tame h⟩
  | announceSyncTimeout => exact ⟨_, rfl, announceSyncTimeout_tame h⟩
  | spiFrame f => exact ⟨_, rfl, written_tame h (fun _ hv => spiFrame_tame hv)⟩
  | spiReplyFetch => exact ⟨_, rfl, spiReplyFetch_tame h⟩
  | i2cTransaction x => exact ⟨_, rfl, i2cTransaction_tame h⟩
  | caveError r => exact ⟨_, rfl, caveError_tame h⟩
  | dieTemperatureSample sensors => exact ⟨_, rfl, dieTemperature_tame h⟩
  | vbatPowerOn => exact ⟨_, rfl, vbatPowerOn_tame h⟩
  | mainPowerOnReset b => exact ⟨_, rfl, mainPowerOnReset_tame h⟩
  | warmReset w b => exact ⟨_, rfl, warmReset_tame h⟩
  | supervisorWatchdog => exact ⟨_, rfl, written_tame h (fun _ hv => enterReset_tame hv)⟩
  | pcieFundamentalReset => exact ⟨_, rfl, pcieFundamentalReset_tame h⟩
  | islandReset isl => exact ⟨_, rfl, islandReset_tame h⟩
  | bootStepTimeout => exact ⟨_, rfl, bootStepTimeout_tame h⟩
  | wake byAlarm => exact ⟨_, rfl, wakeUp_tame h⟩
  | samplingLoopRetuneLock => exact ⟨_, rfl, samplingLoopRetuneLock_tame h⟩
  | ppsPulse t edge off => exact ⟨_, rfl, ppsPulse_tame h⟩
  | boundaryScanInstruction j => exact ⟨_, rfl, boundaryScan_tame h⟩
  | mainSupplyLoss => exact ⟨_, rfl, mainSupplyLoss_tame h⟩
  | rindSupplyLoss => exact ⟨_, rfl, rindSupplyLoss_tame h⟩
  | vbatLoss => exact ⟨_, rfl, vbatLoss_tame h⟩
  | selfTestComplete u pass cal => exact ⟨_, rfl, selfTestComplete_tame h⟩
  | drainHostTimeout z => exact ⟨_, rfl, drainHostTimeout_tame h⟩
  | pauseQuantaExpiry n => exact ⟨_, rfl, pauseQuantaExpiry_tame h⟩
  | streamRingModerationExpiry n => exact ⟨_, rfl, streamRingModerationExpiry_tame h⟩
  | aerErrorLogged => exact ⟨_, rfl, raise_tame h⟩
  | caveCorrectedError spareUsed => exact ⟨_, rfl, caveCorrectedError_tame h⟩

/-- Settles O2: by cases over the commands, each model function handing on the queue it was given. -/
theorem noCommandTouchesTheQueue : Obligations.NoCommandTouchesTheQueue := by
  unfold Obligations.NoCommandTouchesTheQueue
  intro c s
  obtain ⟨t, ht, h⟩ := exec_next_tame c s
  exact ⟨t, ht, h.queue⟩

/-- The memories do not depend on the queue. -/
theorem memOk_pending {s : State} {q : List Instr} : ({ s with pending := q } : State).memOk ↔ s.memOk := Iff.rfl

/-- Settles O3: a step is an idle tick, or one command on the rest of the queue. -/
theorem everyStepKeepsMemoryCanonical : Obligations.EveryStepKeepsMemoryCanonical := by
  unfold Obligations.EveryStepKeepsMemoryCanonical
  intro s t hs hst
  unfold step at hst
  split at hst
  · cases hst
    exact (elapse_tame (still := false) (.refl s)).memory hs
  case h_2 c cs _ =>
    obtain ⟨u, hu, h⟩ := exec_next_tame c { s with pending := cs }
    cases hu.symm.trans hst
    exact h.memory (memOk_pending.2 hs)

/-- Settles O4: at reset no memory lists a byte and nothing waits. -/
theorem resetMemoryIsCanonical : Obligations.ResetMemoryIsCanonical := by
  unfold Obligations.ResetMemoryIsCanonical
  refine ⟨memOk_iff.2 ⟨rfl, fun n => ?_⟩, rfl⟩
  simpa [State.reset] using engineOk_reset

end Sys2Proof.Proofs

/-! SUPPORT. The command protocol: packets refused before they execute, retransmissions, and the commands of sessions. -/

namespace Sys2Proof.Proofs

open Sys2Proof Sys2Proof.Machine

/-- Settles O60: the registers of the reset state, and each of its arrays filled with one value. -/
theorem resetRegisterValues : Obligations.ResetRegisterValues := by
  unfold Obligations.ResetRegisterValues
  refine ⟨rfl, rfl, fun p => ?port, rfl, rfl, rfl, rfl, rfl, rfl, rfl, ?entries, fun n => ?press, rfl, rfl, rfl, rfl, rfl, fun g => ?shut,
      fun e => ?emitter⟩
  case port => simp [State.reset, Port.reset]
  case entries => decide
  case press => simp [State.reset, PressLane.reset]
  case shut => simp [State.reset]
  case emitter => simp [State.reset]

/-! ### The rows of the command table -/

/-- A command row is the arrival of its packet. -/
theorem exec_request {c : Instr} {op : Nat} {k : Packet} (h : request c = some (op, k)) :
    ∃ run, ∀ s, exec c s = .next (arrive op k run s) := by
  cases c <;> simp only [request, Option.some.injEq, Prod.mk.injEq, reduceCtorEq] at h <;>
    (obtain ⟨rfl, rfl⟩ := h; exact ⟨_, fun _ => rfl⟩)

/-- A packet whose header is malformed is answered 0x020A (R442). -/
theorem arrive_malformed {op : Nat} {k : Packet} {run : Run} {s : State} (hr : s.boot.inReset = false) (hh : headerOk k = false) :
    arrive op k run s = s.answer op k 0x020A [] := by
  simp [arrive, hr, hh]

/-- A packet of no open session of its transport is answered 0x0101 (R448). -/
theorem arrive_stray {op : Nat} {k : Packet} {run : Run} {s : State} (hr : s.boot.inReset = false) (hh : headerOk k = true) (ho : op ≠ 0x0101)
    (hs : ∀ i : SessIx, k.session.toNat = i.val → s.sessions[i].isOpen = false ∨ s.sessions[i].transport ≠ k.transport) :
    arrive op k run s = s.answer op k 0x0101 [] := by
  unfold arrive
  rw [if_neg (by simp [hr]), if_neg (by simp [hh]), if_neg ho]
  split
  · rfl
  · rename_i i hi
    have hv : k.session.toNat = i.val := by
      unfold ix at hi
      split at hi
      · cases hi; rfl
      · cases hi
    dsimp only
    rw [if_pos]
    simpa only [Bool.or_eq_true, Bool.not_eq_true', decide_eq_true_eq] using hs i hv

/-- Settles O5: `arrive` answers both before it looks at the command. -/
theorem malformedOrStrayPacketsChangeNothing : Obligations.MalformedOrStrayPacketsChangeNothing := by
  unfold Obligations.MalformedOrStrayPacketsChangeNothing
  intro s c op k hc hr
  obtain ⟨run, hx⟩ := exec_request hc
  rw [hx]
  exact ⟨fun hh => ⟨congrArg _ (arrive_malformed hr hh), answer_same _ _ _ _ _, answer_sess _ _ _ _ _⟩,
    fun hh ho hs => ⟨congrArg _ (arrive_stray hr hh ho hs), answer_same _ _ _ _ _, answer_sess _ _ _ _ _⟩⟩

/-- Settles O6: what comes before the command itself, in the order of `State.start`. -/
theorem commandsRefusedBeforeTheyRun : Obligations.CommandsRefusedBeforeTheyRun := by
  unfold Obligations.CommandsRefusedBeforeTheyRun
  refine ⟨fun s c op k i hc hl => ?rows, fun s op k i hl hu => ?unknown, fun s op ho hb h1 h11 => ?boot, fun s op ho hb hp => ?power⟩
  case rows =>
    obtain ⟨run, hx⟩ := exec_request hc
    refine ⟨fun hp => ⟨_, hx s, ?_⟩, fun e hp he => ⟨_, hx s, ?_⟩⟩
    · rw [arrive_pre i op k run s hl hp]
      exact complete_replies _ _ _ _ _ _ (heard_isOpen hl)
    · rw [arrive_bad i op k run s e hl hp he]
      exact complete_replies _ _ _ _ _ _ (heard_isOpen hl)
  case unknown =>
    have hp : preCheck op.toNat s = 0x0201 := by simp only [preCheck, hu, Bool.not_false, if_true]
    refine ⟨_, rfl, ?_⟩
    rw [arrive_pre i op.toNat k _ s hl (by rw [hp]; decide), hp]
    exact complete_replies _ _ _ _ _ _ (heard_isOpen hl)
  case boot =>
    have hm : op ∈ opcodes := by simpa using ho
    simp [preCheck, hm, hb, h1, h11]
  case power =>
    have hm : op ∈ opcodes := by simpa using ho
    rcases hp with h | ⟨h, hi⟩
    · simp [preCheck, hm, hb, h]
    · simp [preCheck, hm, hb, h, hi]

/-! ### Retransmissions and waiting commands -/

/-- The session that a packet names. -/
theorem ix_session {k : Packet} {i : SessIx} (h : k.session.toNat = i.val) : ix 4 k.session.toNat = some i := by
  rw [h]
  simp [ix]

/-- A command whose SEQ is that of a kept reply has its reply sent again (R451). -/
theorem arrive_retransmitted {op : Nat} {k : Packet} {run : Run} {s : State} {i : SessIx} {r : KeptReply} (hr : s.boot.inReset = false)
    (hh : headerOk k = true) (ho : op ≠ 0x0101) (hi : k.session.toNat = i.val) (hopen : s.sessions[i].isOpen = true)
    (ht : s.sessions[i].transport = k.transport) (hk : s.sessions[i].kept.find? (fun x => x.seq == k.seq) = some r) :
    arrive op k run s = ((s.modSess i fun y => y.heard s.time.mono).sendAll k.transport r.packets).freeSlot k.transport k.session k.seq := by
  unfold arrive
  rw [if_neg (by simp [hr]), if_neg (by simp [hh]), if_neg ho, ix_session hi]
  dsimp only
  rw [if_neg (by rw [hopen, ht]; simp), hk, ht]

/-- A command that comes while another of its session is in progress waits, unless 64 are outstanding (R449, R450). -/
theorem arrive_behind {op : Nat} {k : Packet} {run : Run} {s : State} {i : SessIx} {a : BitVec 16 × Packet} (hr : s.boot.inReset = false)
    (hh : headerOk k = true) (ho : op ≠ 0x0101) (hi : k.session.toNat = i.val) (hopen : s.sessions[i].isOpen = true)
    (ht : s.sessions[i].transport = k.transport) (hk : ∀ r ∈ s.sessions[i].kept, r.seq ≠ k.seq) (ha : s.sessions[i].inProgress = some a)
    (hn : a.2.seq ≠ k.seq) (hw : ∀ w ∈ s.sessions[i].waiting, w.2.seq ≠ k.seq) :
    arrive op k run s = if s.outstanding i ≥ 64 then (s.modSess i fun y => y.heard s.time.mono).answer op k 0x0103 []
      else (s.modSess i fun y => y.heard s.time.mono).modSess i fun y => { y with waiting := y.waiting ++ [(BitVec.ofNat 16 op, k)] } := by
  have hf : s.sessions[i].kept.find? (fun x => x.seq == k.seq) = none := by simpa [List.find?_eq_none] using hk
  unfold arrive
  rw [if_neg (by simp [hr]), if_neg (by simp [hh]), if_neg ho, ix_session hi]
  dsimp only
  rw [if_neg (by rw [hopen, ht]; simp), hf]
  dsimp only
  rw [if_neg (by rw [ha]; simpa [hn] using hw)]
  congr 1
  rw [if_pos (by rw [ha]; simp)]

/-- Settles O7, by the place that `arrive` gives a packet of an open session. -/
theorem retransmittedAndWaitingCommands : Obligations.RetransmittedAndWaitingCommands := by
  unfold Obligations.RetransmittedAndWaitingCommands
  refine ⟨fun s c op k i r hc hr hh ho hi hopen ht hk => ?again, fun s c op k i a hc hr hh ho hi hopen ht hk ha hn hw => ?behind⟩
  case again =>
    obtain ⟨run, hx⟩ := exec_request hc
    refine ⟨_, hx s, ?_⟩
    rw [arrive_retransmitted hr hh ho hi hopen ht hk]
    exact ⟨rfl, ((modSess_same ..).trans (sendAll_same ..)).trans (freeSlot_same ..), (sendAll_sess _ _ _).trans (.of_eq (freeSlot_sessions ..))⟩
  case behind =>
    obtain ⟨run, hx⟩ := exec_request hc
    rw [hx, arrive_behind hr hh ho hi hopen ht hk ha hn hw]
    exact ⟨fun h => by rw [if_pos h], fun h => by rw [if_neg (by omega)]⟩

/-! ### Commands that execute at once -/

/-- An accepted command whose meaning is done at once is answered. -/
theorem completes_done {c : Instr} {s u : State} {i : SessIx} {op : Nat} {k : Packet} {p : Parsed} {run : Run} {st : Status}
    {items : List (List Byte)} (hx : exec c s = .next (arrive op k run s)) (h : Accepted i op k p s)
    (hr : run i k p (s.heard i k) = .done st items u) (ho : u.sessions[i].isOpen = true) : Completes c s (Replies i op k st items u) :=
  ⟨_, hx, arrive_done i op k p run s h st items u hr ho⟩

/-- An accepted command that answers and leaves the state as it heard it. -/
theorem completes_answer {c : Instr} {s : State} {i : SessIx} {op : Nat} {k : Packet} {p : Parsed} {run : Run} {st : Status}
    {items : List (List Byte)} (hx : exec c s = .next (arrive op k run s)) (h : Accepted i op k p s)
    (hr : run i k p (s.heard i k) = .done st items (s.heard i k)) : Completes c s (Replies i op k st items (s.heard i k)) :=
  completes_done hx h hr (heard_isOpen h.listens)

/-- A command that is heard leaves every other session. -/
theorem heard_session_ne (s : State) (i j : SessIx) (k : Packet) (h : j ≠ i) : (s.heard i k).sessions[j] = s.sessions[j] := by
  unfold State.heard
  rw [modSess_get_ne _ _ _ _ h, modSess_get_ne _ _ _ _ h]

/-! ### Sessions that open and close -/

theorem bindSlot_sessions (s : State) (k : Packet) (i : SessIx) : (s.bindSlot k i).sessions = s.sessions := by
  unfold State.bindSlot
  split <;> rfl

theorem bindSlot_same (s : State) (k : Packet) (i : SessIx) : SameWork s (s.bindSlot k i) := by
  unfold State.bindSlot
  split
  · exact modCr_same ..
  · exact .refl _

theorem freeSlots_same (s : State) (l : List (BitVec 16 × Packet)) :
    SameWork s (l.foldl (fun u c => u.freeSlot c.2.transport c.2.session c.2.seq) s) :=
  SameWork.foldl _ (fun _ _ => freeSlot_same ..) _ _

theorem freeSlots_sessions (s : State) (l : List (BitVec 16 × Packet)) :
    (l.foldl (fun u c => u.freeSlot c.2.transport c.2.session c.2.seq) s).sessions = s.sessions := by
  induction l generalizing s with
  | nil => rfl
  | cons c l ih => exact (ih _).trans (freeSlot_sessions ..)

theorem closeSession_same (s : State) (i : SessIx) : SameWork s (s.closeSession i) := by
  unfold State.closeSession
  exact (freeSlots_same ..).trans (modSess_same ..)

/-- The session that closes keeps nothing of its commands. -/
theorem closeSession_session (s : State) (i : SessIx) : (s.closeSession i).sessions[i] =
    { s.sessions[i] with isOpen := false, txn := none, timedOut := [], kept := [], waiting := [] } := by
  unfold State.closeSession
  rw [modSess_get, freeSlots_sessions]

theorem closeSession_session_ne (s : State) (i j : SessIx) (h : j ≠ i) : (s.closeSession i).sessions[j] = s.sessions[j] := by
  unfold State.closeSession
  rw [modSess_get_ne _ _ _ _ h, freeSlots_sessions]

/-- The lowest free session is the one with none below it free. -/
theorem freeSession_eq_some {s : State} {i : SessIx} (hi : s.sessions[i].isOpen = false) (hl : ∀ j, j < i → s.sessions[j].isOpen = true) :
    s.freeSession = some i := by
  have hlow (j : SessIx) (h : j < i) : (!s.sessions[j].isOpen) = false := by rw [hl j h]; rfl
  have hf : (!s.sessions[i].isOpen) = true := by rw [hi]; rfl
  unfold State.freeSession
  rw [List.find?_eq_some_iff_append]
  refine ⟨hf, (List.finRange 4).take i, (List.finRange 4).drop (i + 1), ?_, fun j hj => ?_⟩
  · have : ∀ i : SessIx, List.finRange 4 = (List.finRange 4).take i ++ i :: (List.finRange 4).drop (i + 1) := by decide
    exact this i
  · have : ∀ i j : SessIx, j ∈ (List.finRange 4).take i → j < i := by decide
    simpa using hl j (this i j hj)

theorem freeSession_eq_none {s : State} (h : ∀ j : SessIx, s.sessions[j].isOpen = true) : s.freeSession = none := by
  unfold State.freeSession
  rw [List.find?_eq_none]
  intro j _
  rw [h j]
  decide

/-- A session newly opened on the transport of `k`. -/
def opened (k : Packet) (timeout : Nat) (now : Time) (nextTxn : Nat) : Session :=
  { Session.reset with isOpen := true, transport := k.transport, timeout := timeout, lastRx := now, nextTxn := nextTxn }

/-- A SESSION_OPEN of a well-formed packet opens the lowest free session. -/
theorem arrive_open {k : Packet} {p : Parsed} {run : Run} {s : State} (hr : s.boot.inReset = false) (hh : headerOk k = true)
    (hp : operands 0x0101 k = .ok p) : arrive 0x0101 k run s = openSession k p s := by
  unfold arrive
  rw [if_neg (by simp [hr]), if_neg (by simp [hh]), if_pos rfl, hp]

/-- What opening does: the session and its kept reply; the others only follow events. -/
theorem openSession_effect {k : Packet} {p : Parsed} {s : State} {i : SessIx} (hf : s.freeSession = some i) :
    SameWork s (openSession k p s) ∧
    (∃ q pk, (openSession k p s).sessions[i] =
      { (opened k (p.getD 0x0221 30) s.time.mono s.sessions[i].nextTxn).keep k.seq pk with evSeq := q }) ∧
    ∀ j, j ≠ i → ∃ q, (openSession k p s).sessions[j] = { s.sessions[j] with evSeq := q } := by
  unfold openSession
  rw [hf]
  dsimp only
  have hs : ((s.modSess i fun x => opened k (p.getD 0x0221 30) s.time.mono x.nextTxn).bindSlot k i).sessions[i] =
      opened k (p.getD 0x0221 30) s.time.mono s.sessions[i].nextTxn := by rw [bindSlot_sessions, modSess_get]
  refine ⟨((modSess_same ..).trans (bindSlot_same ..)).trans (complete_same _ _ _ _ _ _ _ _), ?_, fun j hj => ?_⟩
  · obtain ⟨q, hq⟩ := complete_session ((s.modSess i fun x => opened k (p.getD 0x0221 30) s.time.mono x.nextTxn).bindSlot k i) i 0x0101
      { k with session := BitVec.ofNat 8 i.val } 0 k.txn.toNat false [item 0x0301 (le 1 i.val), item 0x0302 (le 1 64),
        deviceItem (s.modSess i fun x => opened k (p.getD 0x0221 30) s.time.mono x.nextTxn)] (by rw [hs]; rfl)
    rw [hs] at hq
    exact ⟨q, _, hq⟩
  · obtain ⟨q, hq⟩ := complete_session_ne ((s.modSess i fun x => opened k (p.getD 0x0221 30) s.time.mono x.nextTxn).bindSlot k i) i j 0x0101
      { k with session := BitVec.ofNat 8 i.val } 0 k.txn.toNat false [item 0x0301 (le 1 i.val), item 0x0302 (le 1 64),
        deviceItem (s.modSess i fun x => opened k (p.getD 0x0221 30) s.time.mono x.nextTxn)] hj
    rw [bindSlot_sessions, modSess_get_ne _ _ _ _ hj] at hq
    exact ⟨q, hq⟩

/-- A SESSION_CLOSE is answered, then its session closes. -/
theorem arrive_close {k : Packet} {p : Parsed} {s : State} {i : SessIx} (h : Accepted i 0x0102 k p s) :
    arrive 0x0102 k runSessionClose s = ((s.heard i k).complete i 0x0102 k 0 k.txn.toNat false []).closeSession i :=
  arrive_run i 0x0102 k p runSessionClose s h

/-- Settles O8, command by command. -/
theorem sessionCommandsAnswer : Obligations.SessionCommandsAnswer := by
  unfold Obligations.SessionCommandsAnswer
  refine ⟨fun s k i p h => ?ping, fun s k i p h => ?identify, fun s k i p v h hv => ?subscribe, fun s k i p h => ?close,
    fun s k i p hr hh hp hi hl => ?opens, fun s k p hr hh hp hall => ?full⟩
  case ping => exact completes_answer rfl h rfl
  case identify => exact completes_answer rfl h rfl
  case subscribe =>
    refine completes_done (run := runEventSubscribe) rfl h ?_ (by rw [modSess_get]; exact heard_isOpen h.listens)
    simp only [runEventSubscribe, hv, Option.getD_some]
    rfl
  case close =>
    refine ⟨_, congrArg Host.Outcome.next (arrive_close h), ((heard_same ..).trans (complete_same _ _ _ _ _ _ _ _)).trans (closeSession_same ..), ?_⟩
    rw [closeSession_session]
    refine ⟨rfl, rfl, rfl, rfl, fun j hj => ?_⟩
    rw [closeSession_session_ne _ _ _ hj]
    obtain ⟨q, hq⟩ := complete_session_ne (s.heard i k) i j 0x0102 k 0 k.txn.toNat false [] hj
    exact ⟨q, by rw [hq, heard_session_ne _ _ _ _ hj]⟩
  case opens =>
    obtain ⟨hw, ⟨q, pk, hq⟩, hn⟩ := openSession_effect (k := k) (p := p) (freeSession_eq_some hi hl)
    refine ⟨_, congrArg Host.Outcome.next (arrive_open hr hh hp), hw, ?_⟩
    rw [hq]
    exact ⟨rfl, rfl, rfl, rfl, rfl, rfl, rfl, hn⟩
  case full =>
    show Host.Outcome.next _ = _
    rw [arrive_open hr hh hp, openSession, freeSession_eq_none hall]

end Sys2Proof.Proofs

/-! SUPPORT. Settings: what setting a key and removing a subject leave, and the commands that stage or queue their commit. -/

namespace Sys2Proof.Proofs

open Sys2Proof Sys2Proof.Machine Sys2Proof.Claims

/-! ### The value of a setting -/

/-- A change that keeps every key is looked up through. -/
theorem find_map {ss : Settings} {k : SetKey} {f : Setting → Setting} (hf : ∀ x, (f x).key = x.key) :
    Settings.find (ss.map f) k = (ss.find k).map f := by
  unfold Settings.find
  rw [List.find?_map]
  congr 2
  funext x
  simp [hf]

/-- What is found under a key has it. -/
theorem key_of_find {ss : Settings} {k : SetKey} {x : Setting} (h : ss.find k = some x) : x.key = k := by
  simpa using List.find?_some h

theorem val?_put_self {ss : Settings} {k : SetKey} {v : List Int} (hv : v ≠ []) : (ss.put k v).val? k = some v := by
  have hmap : ∀ x : Setting, (if x.key == k then { x with val := v, gen := x.gen + 1 } else x).key = x.key := fun x => by split <;> rfl
  unfold Settings.put
  cases h : ss.find k with
  | none =>
    have hf : Settings.find (ss ++ [{ key := k, val := v, gen := 1 }]) k = some { key := k, val := v, gen := 1 } := by
      unfold Settings.find at h ⊢
      rw [List.find?_append, h]
      simp
    simp only [Settings.val?, hf]
    simp [hv]
  | some x =>
    dsimp only
    split
    · rename_i hx
      simp only [Settings.val?, h, hx]
      simp [hv]
    · simp only [Settings.val?, find_map hmap, h, Option.map_some, key_of_find h, beq_self_eq_true, if_true]
      simp [hv]

theorem val?_put_ne {ss : Settings} {k key : SetKey} {v : List Int} (hk : k ≠ key) : (ss.put k v).val? key = ss.val? key := by
  have hmap : ∀ x : Setting, (if x.key == k then { x with val := v, gen := x.gen + 1 } else x).key = x.key := fun x => by split <;> rfl
  unfold Settings.put
  cases h : ss.find k with
  | none =>
    simp only [Settings.val?, Settings.find, List.find?_append]
    cases ss.find? fun x => x.key == key with
    | none => simp [hk]
    | some y => rfl
  | some x =>
    dsimp only
    split
    · rfl
    · simp only [Settings.val?, find_map hmap]
      cases hy : ss.find key with
      | none => rfl
      | some y =>
        have hyk : y.key ≠ k := key_of_find hy ▸ Ne.symm hk
        simp [hyk]

theorem val?_drop_ne {ss : Settings} {kind : Kind} {inst : Nat} {key : SetKey} (hk : (kind, inst) ≠ (key.kind, key.inst)) :
    (ss.drop kind inst).val? key = ss.val? key := by
  have hmap : ∀ x : Setting, (if x.key.kind == kind && x.key.inst == inst && !x.val.isEmpty then { x with val := [], gen := x.gen + 1 }
      else x).key = x.key := fun x => by split <;> rfl
  unfold Settings.drop
  simp only [Settings.val?, find_map hmap]
  cases hy : ss.find key with
  | none => rfl
  | some y =>
    have hyk : ¬ (y.key.kind = kind ∧ y.key.inst = inst) := fun ⟨h1, h2⟩ => hk (by rw [← h1, ← h2, key_of_find hy])
    have hcond : (y.key.kind == kind && y.key.inst == inst && !y.val.isEmpty) = false := by
      simp only [Bool.and_eq_false_iff, beq_eq_false_iff_ne]
      by_cases h1 : y.key.kind = kind
      · exact .inl (.inr fun h2 => hyk ⟨h1, h2⟩)
      · exact .inl (.inl h1)
    simp only [Option.map_some, hcond, Bool.false_eq_true, if_false]

theorem val?_puts_ne {ss : Settings} {l : List (SetKey × List Int)} {key : SetKey} (h : ∀ x ∈ l, x.1 ≠ key) :
    (l.foldl (fun (u : Settings) x => u.put x.1 x.2) ss).val? key = ss.val? key := by
  induction l generalizing ss with
  | nil => rfl
  | cons x l ih => rw [List.foldl_cons, ih fun y hy => h y (List.mem_cons_of_mem _ hy), val?_put_ne (h x List.mem_cons_self)]

/-- Of several values that agree, whichever stands already or comes later stands at the end. -/
theorem val?_puts {ss : Settings} {l : List (SetKey × List Int)} {key : SetKey} {v : List Int} (hv : v ≠ [])
    (hall : ∀ x ∈ l, x.1 = key → x.2 = v) (h : ss.val? key = some v ∨ (key, v) ∈ l) :
    (l.foldl (fun (u : Settings) x => u.put x.1 x.2) ss).val? key = some v := by
  induction l generalizing ss with
  | nil => simpa using h
  | cons x l ih =>
    refine ih (fun y hy => hall y (List.mem_cons_of_mem _ hy)) ?_
    by_cases hx : x.1 = key
    · left
      dsimp only
      rw [hx, hall x List.mem_cons_self hx]
      exact val?_put_self hv
    · dsimp only
      rw [val?_put_ne hx]
      refine h.imp_right fun hm => (List.mem_cons.1 hm).resolve_left fun he => hx ?_
      rw [← he]

/-- What a command removes leaves the settings of every other subject; a zone goes with its pin. -/
theorem val?_removes_ne {ss : Settings} {l : List (Kind × Nat)} {key : SetKey} (h : ∀ r ∈ l, r ≠ (key.kind, key.inst))
    (hpin : key.kind = .pin → (Kind.zone, key.inst) ∉ l) :
    (l.foldl (fun (u : Settings) r =>
      let v := u.drop r.1 r.2
      if r.1 = .zone then v.drop .pin r.2 else v) ss).val? key = ss.val? key := by
  induction l generalizing ss with
  | nil => rfl
  | cons r l ih =>
    rw [List.foldl_cons, ih (fun y hy => h y (List.mem_cons_of_mem _ hy)) fun hk hm => hpin hk (List.mem_cons_of_mem _ hm)]
    dsimp only
    split
    · rename_i hz
      refine (val?_drop_ne fun he => ?_).trans (val?_drop_ne (h r List.mem_cons_self))
      obtain ⟨hk, hi⟩ := Prod.mk.inj he
      exact hpin hk.symm (by rw [← hz, ← hi]; exact List.mem_cons_self)
    · exact val?_drop_ne (h r List.mem_cons_self)

/-- Settles O11: the removals first, then the values in order. -/
theorem settingsTakeWhatACommandSets : Obligations.SettingsTakeWhatACommandSets := by
  unfold Obligations.SettingsTakeWhatACommandSets
  refine ⟨fun ss c key hu hr hpin => ?other, fun ss c key v hv hm hall => ?same⟩
  case other => exact (val?_puts_ne hu).trans (val?_removes_ne hr hpin)
  case same => exact val?_puts hv hall (.inr hm)

/-! ### Staging and committing -/

/-- A reply that an open session keeps is its newest. -/
theorem keep_kept_getLast? {y : Session} {seq : BitVec 32} {pk : List (List Byte)} (h : y.isOpen = true) :
    (y.keep seq pk).kept.getLast? = some ({ seq := seq, packets := pk } : KeptReply) := by
  have hd : y.kept.length + 1 - 64 ≤ y.kept.length := by omega
  unfold Session.keep
  rw [if_pos h]
  dsimp only
  rw [List.drop_append_of_le_length hd, List.getLast?_concat]

theorem keep_txn {y : Session} {seq : BitVec 32} {pk : List (List Byte)} : (y.keep seq pk).txn = y.txn := by
  unfold Session.keep
  split <;> rfl

/-- The rows of the stageable commands. -/
theorem exec_stageable {k : Packet} {op : Nat} {c : Instr} (h : (op, c) ∈ stageables k) :
    stageable op = true ∧ ∀ s, exec c s = .next (arrive op k (runStageable op) s) := by
  simp only [stageables, List.mem_cons, List.not_mem_nil, or_false, Prod.mk.injEq] at h
  rcases h with ⟨rfl, rfl⟩ | ⟨rfl, rfl⟩ | ⟨rfl, rfl⟩ | ⟨rfl, rfl⟩ | ⟨rfl, rfl⟩ | ⟨rfl, rfl⟩ | ⟨rfl, rfl⟩ | ⟨rfl, rfl⟩ | ⟨rfl, rfl⟩ |
    ⟨rfl, rfl⟩ | ⟨rfl, rfl⟩ | ⟨rfl, rfl⟩ | ⟨rfl, rfl⟩ | ⟨rfl, rfl⟩ | ⟨rfl, rfl⟩ | ⟨rfl, rfl⟩ | ⟨rfl, rfl⟩
  all_goals exact ⟨by decide, fun _ => rfl⟩

/-- The transaction that a heard session has open. -/
theorem heard_txn {s : State} {i : SessIx} {k : Packet} : (s.heard i k).sessions[i].txn =
    s.sessions[i].txn.map fun t => if t.id = k.txn.toNat then { t with lastRx := s.time.mono } else t := by
  rw [heard_session]

/-- A command joins the transaction that it names, while there is room. -/
theorem stageCmd_joins {s : State} {i : SessIx} {op : Nat} {k : Packet} {p : Parsed} {t : Txn} (ht : s.sessions[i].txn = some t)
    (hid : t.id = k.txn.toNat) (hn : t.staged.length < 256) (hb : t.bytes + k.body.length ≤ 1048576) : stageCmd i op k p s =
      (0, s.modSess i fun x => { x with txn := some { t with staged := t.staged ++ [stagedOf op k p s.base], lastRx := s.time.mono } }) := by
  have hbytes : (stagedOf op k p s.base).bytes = k.body.length := rfl
  unfold stageCmd
  rw [ht]
  dsimp only
  rw [if_neg (by simp [hid]), if_neg (by rw [hbytes]; omega)]

/-- Without room it is refused. -/
theorem stageCmd_full {s : State} {i : SessIx} {op : Nat} {k : Packet} {p : Parsed} {t : Txn} (ht : s.sessions[i].txn = some t)
    (hid : t.id = k.txn.toNat) (h : 256 ≤ t.staged.length ∨ 1048576 < t.bytes + k.body.length) : stageCmd i op k p s = (0x0504, s) := by
  have hbytes : (stagedOf op k p s.base).bytes = k.body.length := rfl
  unfold stageCmd
  rw [ht]
  dsimp only
  rw [if_neg (by simp [hid]), if_pos (by rw [hbytes]; omega)]

/-- So is one that names no open transaction. -/
theorem stageCmd_none {s : State} {i : SessIx} {op : Nat} {k : Packet} {p : Parsed} (h : ∀ t, s.sessions[i].txn = some t → t.id ≠ k.txn.toNat) :
    stageCmd i op k p s = (if s.sessions[i].timedOut.contains k.txn.toNat then 0x0502 else 0x0501, s) := by
  unfold stageCmd
  cases ht : s.sessions[i].txn with
  | none => rfl
  | some t => exact if_pos (h t ht)

/-- What `fixFirst` leaves: all but the instants of the first commit. -/
theorem fixFirst_eq (s : State) : ∃ cs, s.fixFirst = { s with commits := cs } ∧ cs.map (·.target) = s.commits.map (·.target) := by
  unfold State.fixFirst
  split
  · exact ⟨s.commits, rfl, rfl⟩
  · split
    · exact ⟨s.commits, rfl, rfl⟩
    · rename_i hc _
      exact ⟨_, rfl, by rw [hc]; rfl⟩

/-- What a commit of one command that passes leaves: one more waits, with the command applied, and the settings in force stay. -/
theorem tryCommit_ok {s u : State} {c : Staged} {i : SessIx} {op : BitVec 16} {k : Packet} (h : s.tryCommit [c] (some (i, op, k)) = .ok u) :
    ∃ cs ss, u = { s with commits := cs, sessions := ss } ∧ cs.map (·.target) = s.commits.map (·.target) ++ [applyStaged s.base c] := by
  simp only [State.tryCommit] at h
  split at h
  · cases h
  · split at h
    · cases h
    · cases h
      obtain ⟨cs, he, ht⟩ := fixFirst_eq (State.modSess { s with commits := s.commits ++ [_] } i _)
      exact ⟨cs, _, he, by rw [ht]; simp [seqOrder, insertSeq]⟩

/-- Settles O10: staging by what `stageCmd` answers, an immediate commit by what `tryCommit` answers. -/
theorem settingCommandsStageOrQueueTheirCommit : Obligations.SettingCommandsStageOrQueueTheirCommit := by
  unfold Obligations.SettingCommandsStageOrQueueTheirCommit
  refine ⟨fun s k i p op c hc hl hpre hp hs => ?staged, fun s k i p op c hc h => ?now⟩
  case staged =>
    obtain ⟨hst, hx⟩ := exec_stageable hc
    have ha := arrive_stage i op k (runStageable op) s p hl hpre hp (by rw [hst, hs]; rfl)
    have ho := heard_isOpen hl
    refine ⟨fun x hx1 hid hn hb => ?joins, fun x hx1 hid hfull => ?full, fun hnone => ?none⟩
    case joins =>
      have ht : (s.heard i k).sessions[i].txn = some { x with lastRx := s.time.mono } := by rw [heard_txn, hx1, Option.map_some, if_pos hid]
      rw [stageCmd_joins ht hid hn hb] at ha
      refine ⟨_, (hx s).trans (congrArg _ ha), ((heard_same ..).trans (modSess_same ..)).trans (complete_same _ _ _ _ _ _ _ _), ?_⟩
      obtain ⟨q, hq⟩ := complete_session ((s.heard i k).modSess i fun y => { y with txn := some { x with
        staged := x.staged ++ [stagedOf op k p s.base], lastRx := s.time.mono } }) i op k 0 k.txn.toNat true [] (by rw [modSess_get]; exact ho)
      refine ⟨(congrArg Session.txn hq).trans ?_, (congrArg (fun y : Session => y.kept.getLast?) hq).trans ?_⟩
      · refine keep_txn.trans ?_
        rw [modSess_get]
      · refine keep_kept_getLast? ?_
        rw [modSess_get]
        exact ho
    case full =>
      have ht : (s.heard i k).sessions[i].txn = some { x with lastRx := s.time.mono } := by rw [heard_txn, hx1, Option.map_some, if_pos hid]
      rw [stageCmd_full ht hid hfull] at ha
      exact ⟨_, (hx s).trans (congrArg _ ha), complete_replies _ _ _ _ _ _ ho⟩
    case none =>
      have ht : ∀ t, (s.heard i k).sessions[i].txn = some t → t.id ≠ k.txn.toNat := by
        intro t ht
        rw [heard_txn] at ht
        cases hx1 : s.sessions[i].txn with
        | none => rw [hx1] at ht; cases ht
        | some x =>
          rw [hx1, Option.map_some, if_neg (hnone x hx1)] at ht
          exact Option.some.inj ht ▸ hnone x hx1
      have htime : (s.heard i k).sessions[i].timedOut = s.sessions[i].timedOut := by rw [heard_session]
      rw [stageCmd_none ht, htime] at ha
      refine ⟨_, (hx s).trans (congrArg _ ha), ?_⟩
      have hne : ((if s.sessions[i].timedOut.contains k.txn.toNat then 0x0502 else 0x0501 : Status) == 0) = false := by split <;> rfl
      dsimp only
      rw [hne]
      exact complete_replies _ _ _ _ _ _ ho
  case now =>
    obtain ⟨hst, hx⟩ := exec_stageable hc
    have ha := arrive_run i op k p (runStageable op) s h
    refine ⟨fun u hu => ?passes, fun e he => ?fails⟩
    case passes =>
      have hr : runStageable op i k p (s.heard i k) = .later u := by
        unfold runStageable
        rw [show (s.heard i k).base = s.base from rfl, hu]
      rw [hr] at ha
      obtain ⟨cs, ss, rfl, ht⟩ := tryCommit_ok hu
      have hlen : cs.length = s.commits.length + 1 := by rw [← List.length_map (f := (·.target)), ht]; simp; rfl
      refine ⟨_, (hx s).trans (congrArg _ ha), by rw [modSess_get], hlen, ?_, rfl, rfl, rfl, rfl, rfl, rfl⟩
      show cs.getLast?.map (·.target) = _
      rw [← List.getLast?_map, ht, List.getLast?_concat]
      rfl
    case fails =>
      have hr : runStageable op i k p (s.heard i k) = .done e.1 [] (s.heard i k).commitRefused := by
        unfold runStageable
        rw [show (s.heard i k).base = s.base from rfl, he]
      have hopen : ((s.heard i k).raise 255).sessions[i].isOpen = true := by
        obtain ⟨q, hq⟩ := raise_sess (s.heard i k) 255 i
        rw [hq]
        exact heard_isOpen h.listens
      have hrep := arrive_done i op k p (runStageable op) s h e.1 [] _ hr hopen
      exact ⟨_, hx s, hrep, ((heard_same ..).trans (raise_same ..)).trans hrep.work⟩

end Sys2Proof.Proofs

/-! SUPPORT. The commands that answer from the state, and those that act at once. -/

namespace Sys2Proof.Proofs

open Sys2Proof Sys2Proof.Machine Sys2Proof.Claims

/-- A session that a quiet operation leaves is still open. -/
theorem Quiet.isOpen {still : Bool} {s t : State} {i : SessIx} (h : Quiet still s t) (ho : s.sessions[i].isOpen = true) : t.sessions[i].isOpen = true := by
  obtain ⟨q, hq⟩ := h.sessions i
  rw [hq]
  exact ho

/-- An accepted command whose work leaves the sessions is answered. -/
theorem completes_quiet {c : Instr} {s u : State} {i : SessIx} {op : Nat} {k : Packet} {p : Parsed} {run : Run} {st : Status}
    {items : List (List Byte)} (hx : exec c s = .next (arrive op k run s)) (h : Accepted i op k p s)
    (hr : run i k p (s.heard i k) = .done st items u) (hq : Quiet false (s.heard i k) u) : Completes c s (Replies i op k st items u) :=
  completes_done hx h hr (hq.isOpen (heard_isOpen h.listens))

/-- The ports that a calibration command names are all right. -/
theorem calPorts_ok {s : State} {ps : List Nat} (h : ∀ n ∈ ps, s.settings.probing n = true ∧ bit s.clk.ckg1 n = true) : s.calPorts ps = 0 := by
  have h1 : ps.all s.settings.probing = true := List.all_eq_true.2 fun n hn => (h n hn).1
  have h2 : (ps.all fun n => bit s.clk.ckg1 n) = true := List.all_eq_true.2 fun n hn => (h n hn).2
  simp only [State.calPorts, h1, h2, Bool.not_true, Bool.false_eq_true, if_false]

theorem all_eq_false_of {α : Type} {l : List α} {f : α → Bool} (h : ∃ x ∈ l, f x = false) : l.all f = false := by
  simpa [List.all_eq_false] using h

theorem not_all_of {α : Type} {l : List α} {f : α → Bool} (h : ∃ x ∈ l, f x = false) : ¬ l.all f = true := by
  rw [all_eq_false_of h]
  decide

/-- One of them does not probe. -/
theorem calPorts_mode {s : State} {ps : List Nat} (h : ∃ n ∈ ps, s.settings.probing n = false) : s.calPorts ps = 0x0114 := by
  simp only [State.calPorts, all_eq_false_of h, Bool.not_false, if_true]

/-- All probe, but the clock of one is gated. -/
theorem calPorts_gated {s : State} {ps : List Nat} (hp : ∀ n ∈ ps, s.settings.probing n = true) (h : ∃ n ∈ ps, bit s.clk.ckg1 n = false) :
    s.calPorts ps = 0x0116 := by
  have h2 : (ps.all fun n => bit s.clk.ckg1 n) = false := all_eq_false_of h
  simp only [State.calPorts, List.all_eq_true.2 hp, h2, Bool.not_true, Bool.not_false, Bool.false_eq_true, if_true, if_false]

/-- Settles O12: each query is answered from the state that heard it. -/
theorem queriesAnswerAndChangeNothing : Obligations.QueriesAnswerAndChangeNothing := by
  unfold Obligations.QueriesAnswerAndChangeNothing
  intro s k i p
  refine ⟨fun h => ?port, fun h hd => ?emitters, fun h hd => ?noEmitter, fun h hz => ?zones, fun h hz => ?noZone, fun h hc => ?cal,
    fun h hc => ?calMode, fun h hp hc => ?calGated, fun h => ?time, fun img h hi => ?image, fun h hi => ?noImage, fun h => ?press,
    fun h hv => ?captures, fun v c h hv hc hh => ?capture, fun v h hv hc => ?noCapture, fun h => ?faults, fun h => ?journal, fun h => ?power⟩
  case port => exact completes_answer (run := runPortQuery) rfl h rfl
  case emitters => exact completes_answer (run := runEmitterQuery) rfl h (if_pos (List.all_eq_true.2 hd))
  case noEmitter => exact completes_answer (run := runEmitterQuery) rfl h (if_neg (not_all_of hd))
  case zones =>
    have hall : (p.named 0x0102).all (knownZones s).contains = true := by simpa using hz
    refine completes_answer (run := runPlaceQuery) rfl h ((if_pos hall).trans ?_)
    simp only [List.isEmpty_iff]
    rfl
  case noZone =>
    have hall : ∃ z ∈ p.named 0x0102, (knownZones s).contains z = false := by simpa using hz
    exact completes_answer (run := runPlaceQuery) rfl h (if_neg (not_all_of hall))
  case cal => exact completes_answer (run := runRxcalQuery) rfl h (if_neg (not_not.2 (calPorts_ok (s := s.heard i k) hc)))
  case calMode =>
    have he : (s.heard i k).calPorts (p.named 0x0101) = 0x0114 := calPorts_mode hc
    exact completes_answer (run := runRxcalQuery) rfl h ((if_pos (by rw [he]; decide)).trans (by rw [he]; rfl))
  case calGated =>
    have he : (s.heard i k).calPorts (p.named 0x0101) = 0x0116 := calPorts_gated hp hc
    exact completes_answer (run := runRxcalQuery) rfl h ((if_pos (by rw [he]; decide)).trans (by rw [he]; rfl))
  case time => exact completes_answer (run := runTimeQuery) rfl h rfl
  case image =>
    refine completes_answer (run := runImageQuery) rfl h ?_
    unfold runImageQuery
    rw [show (s.heard i k).images = s.images from rfl, hi]
    rfl
  case noImage =>
    refine completes_answer (run := runImageQuery) rfl h ?_
    unfold runImageQuery
    rw [show (s.heard i k).images = s.images from rfl, hi]
    rfl
  case press => exact completes_answer (run := runPressQuery) rfl h rfl
  case captures =>
    refine completes_answer (run := runCaptureQuery) rfl h ?_
    unfold runCaptureQuery
    rw [hv]
    rfl
  case capture =>
    refine completes_answer (run := runCaptureQuery) rfl h ?_
    unfold runCaptureQuery
    rw [hv]
    dsimp only
    rw [show (s.heard i k).capture? = s.capture? from rfl, hc]
    exact if_pos hh
  case noCapture =>
    refine completes_answer (run := runCaptureQuery) rfl h ?_
    unfold runCaptureQuery
    rw [hv]
    dsimp only
    rw [show (s.heard i k).capture? = s.capture? from rfl]
    cases hx : s.capture? (v.getD 0 0).toNat with
    | none => rfl
    | some c => exact if_neg (by rw [hc c hx]; decide)
  case faults => exact completes_answer (run := runFaultLog) rfl h rfl
  case journal => exact completes_answer (run := runJournalRead) rfl h rfl
  case power => exact completes_answer (run := runPowerQuery) rfl h rfl

/-- What MEAS_START does, by the checks on its request. -/
theorem runMeasStart_eq {s : State} {i : SessIx} {k : Packet} {p : Parsed} {m : MeasReq}
    (hp : m.params = p.items.map fun x => (x.1.code % 256, x.2)) (ha : m.anchorPort = none) (ht : m.asked = s.time.dev)
    (hid : m.id = BitVec.ofNat 16 (s.freshId 16 s.tiu.ids).1) : runMeasStart i k p s =
      if !(measOk m s.unitNow) then .refuse 0x0219 s
      else if s.tiu.user = 3 then .refuse 0x0309 s
      else if 8 ≤ s.tiu.depth then .refuse 0x0117 s
      else .ok [item 0x022A (le 2 (s.freshId 16 s.tiu.ids).1)]
        ((s.freshId 16 s.tiu.ids).2.modTiu fun t => { t with queue := t.queue ++ [m] }).nextMeas := by
  obtain ⟨id, port, params, asked⟩ := m
  cases hp; cases ha; cases ht; cases hid
  rfl

/-- What MEAS_CANCEL does when the running measurement is not the one it names. -/
theorem runMeasCancel_waiting {s : State} {i : SessIx} {k : Packet} {p : Parsed}
    (hr : ∀ r, s.tiu.run = some r → (r.req.anchorPort.isNone && r.req.id == BitVec.ofNat 16 (p.getD 0x022A 0)) = false) :
    runMeasCancel i k p s = match s.tiu.queue.find? fun m => m.anchorPort.isNone && m.id == BitVec.ofNat 16 (p.getD 0x022A 0) with
      | some m => .ok [] ((s.modTiu fun t => ({ t with queue := t.queue.erase m } : Tiu).show).dropMeas m 0x200)
      | none => .refuse 0x0225 s := by
  unfold runMeasCancel
  dsimp only
  generalize s.tiu.queue.find? (fun m => m.anchorPort.isNone && m.id == BitVec.ofNat 16 (p.getD 0x022A 0)) = w
  cases hrun : s.tiu.run with
  | none => cases w <;> rfl
  | some r =>
    dsimp only
    rw [hr r hrun]
    cases w <;> rfl

/-- Settles O13: each command acts on all that it names, or is refused. -/
theorem portAndTimeCommandsAct : Obligations.PortAndTimeCommandsAct := by
  unfold Obligations.PortAndTimeCommandsAct
  intro s k i p
  have hs : Quiet false (s.heard i k) (s.heard i k) := .refl _
  refine ⟨fun h hg => ?rearm, fun h hg => ?noRearm, fun h he => ?rebase, fun h he => ?noRebase, fun h hz => ?sync, fun h hz => ?noSync,
    fun h hc => ?dark, fun h hc => ?darkMode, fun h hp hc => ?darkGated, fun h => ?anchor, fun m h hp ha ht hid => ?start,
    fun r h hr ha hid => ?cancelRunning, fun h hr => ?cancelWaiting⟩
  case rearm => exact completes_quiet (run := runRearm) rfl h (if_pos (List.all_eq_true.2 hg)) (foldl_quiet hs fun _ _ hv => rearm_quiet hv)
  case noRearm => exact completes_answer (run := runRearm) rfl h (if_neg (not_all_of hg))
  case rebase =>
    exact completes_quiet (run := runEndRebase) rfl h (if_pos (List.all_eq_true.2 he)) (foldl_quiet hs fun _ _ hv => onPort_quiet hv)
  case noRebase => exact completes_answer (run := runEndRebase) rfl h (if_neg (not_all_of (f := fun n => bit (s.portN n).endR 20) he))
  case sync =>
    have hall : (p.named 0x0102).all s.settings.zones.contains = true := by simpa using hz
    exact completes_quiet (run := runSyncReset) rfl h (if_pos hall) (foldl_quiet hs fun _ _ hv => modZone_quiet hv)
  case noSync =>
    have hall : ∃ z ∈ p.named 0x0102, s.settings.zones.contains z = false := by simpa using hz
    exact completes_answer (run := runSyncReset) rfl h (if_neg (not_all_of hall))
  case dark =>
    exact completes_quiet (run := runDarkFloor) rfl h (if_neg (not_not.2 (calPorts_ok (s := s.heard i k) hc)))
      (foldl_quiet hs fun _ _ hv => onPort_quiet hv)
  case darkMode =>
    have he : (s.heard i k).calPorts (p.named 0x0101) = 0x0114 := calPorts_mode hc
    exact completes_answer (run := runDarkFloor) rfl h ((if_pos (by rw [he]; decide)).trans (by rw [he]; rfl))
  case darkGated =>
    have he : (s.heard i k).calPorts (p.named 0x0101) = 0x0116 := calPorts_gated hp hc
    exact completes_answer (run := runDarkFloor) rfl h ((if_pos (by rw [he]; decide)).trans (by rw [he]; rfl))
  case anchor => exact completes_quiet (run := runAnchor) rfl h rfl (foldl_quiet hs fun _ _ hv => queueAnchor_quiet hv)
  case start =>
    have he := runMeasStart_eq (s := s.heard i k) (i := i) (k := k) hp ha ht hid
    refine ⟨fun hm hu hd => ?_, fun hm => ?_, fun hm hu => ?_, fun hm hu hd => ?_⟩
    · refine completes_quiet (run := runMeasStart) rfl h (he.trans ?_) (nextMeas_quiet (modTiu_quiet (freshId_quiet_2 hs)))
      exact (if_neg (by rw [show measOk m (s.heard i k).unitNow = true from hm]; decide)).trans ((if_neg hu).trans (if_neg (not_le.2 hd)))
    · exact completes_answer (run := runMeasStart) rfl h (he.trans (if_pos (by rw [show measOk m (s.heard i k).unitNow = false from hm]; decide)))
    · refine completes_answer (run := runMeasStart) rfl h (he.trans ?_)
      exact (if_neg (by rw [show measOk m (s.heard i k).unitNow = true from hm]; decide)).trans (if_pos hu)
    · refine completes_answer (run := runMeasStart) rfl h (he.trans ?_)
      exact (if_neg (by rw [show measOk m (s.heard i k).unitNow = true from hm]; decide)).trans ((if_neg hu).trans (if_pos hd))
  case cancelRunning =>
    refine completes_quiet (run := runMeasCancel) rfl h ?_ (endMeas_quiet hs)
    unfold runMeasCancel
    rw [show (s.heard i k).tiu.run = some r from hr]
    exact if_pos (by rw [ha, hid]; simp)
  case cancelWaiting =>
    have he := runMeasCancel_waiting (s := s.heard i k) (i := i) (k := k) hr
    refine ⟨fun m hm => ?_, fun hm => ?_⟩
    · refine completes_quiet (run := runMeasCancel) rfl h ?_ (dropMeas_quiet (modTiu_quiet hs))
      rw [he, show (s.heard i k).tiu = s.tiu from rfl, hm]
      rfl
    · refine completes_answer (run := runMeasCancel) rfl h ?_
      rw [he, show (s.heard i k).tiu = s.tiu from rfl, hm]
      rfl

end Sys2Proof.Proofs

/-! SUPPORT. The commands of placement and diagnostics, and those that load images and submit jobs. -/

namespace Sys2Proof.Proofs

open Sys2Proof Sys2Proof.Machine Sys2Proof.Claims

theorem modLane_quiet {still : Bool} {s u : State} (h : Quiet still s u) {n f} : Quiet still s (u.modLane n f) := ⟨modLane_tame h.toTame, h.sessions⟩

/-- RETIRE of a unit that the Ladle places. -/
theorem runRetire_planned {s : State} {i : SessIx} {k : Packet} {p : Parsed} {u : UnitName} (hu : unitNamed p = some u)
    (hl : ∀ n, u ≠ .lane n) (hv : ∀ n, u ≠ .vernier n) :
    runRetire i k p s = .ok [] (if s.isRetired u then s else s.retirePlanned u) := by
  unfold runRetire
  rw [hu]
  cases u with
  | pipeline n => rfl
  | engine n => rfl
  | press n => rfl
  | lane n => exact absurd rfl (hl n)
  | vernier n => exact absurd rfl (hv n)

/-- RETIRE of a lane or a converter is refused. -/
theorem runRetire_other {s : State} {i : SessIx} {k : Packet} {p : Parsed} {u : UnitName} (hu : unitNamed p = some u)
    (h : (∃ n, u = .lane n) ∨ ∃ n, u = .vernier n) : runRetire i k p s = .refuse 0x0202 s := by
  unfold runRetire
  rw [hu]
  rcases h with ⟨n, rfl⟩ | ⟨n, rfl⟩ <;> rfl

/-- SELF_TEST of a unit out of service, other than a lane, notes its test. -/
theorem runSelfTest_starts {s : State} {i : SessIx} {k : Packet} {p : Parsed} {u : UnitName} (hu : unitNamed p = some u)
    (hl : ∀ n, u ≠ .lane n) (ho : s.unitOk u = false) : runSelfTest i k p s = .ok [] (s.startTests [u]) := by
  unfold runSelfTest
  rw [hu]
  cases u with
  | lane n => exact absurd rfl (hl n)
  | _ => exact if_neg (by rw [ho]; exact Bool.false_ne_true)

/-- SELF_TEST of a unit in service, or of a lane, is refused. -/
theorem runSelfTest_refused {s : State} {i : SessIx} {k : Packet} {p : Parsed} {u : UnitName} (hu : unitNamed p = some u)
    (h : s.unitOk u = true ∨ ∃ n, u = .lane n) : runSelfTest i k p s = .refuse 0x0202 s := by
  unfold runSelfTest
  rw [hu]
  refine if_pos ?_
  rcases h with h | ⟨n, rfl⟩
  · rw [h, Bool.or_true]
  · rfl

/-- SLICE_TEST of a unit that is no lane is refused. -/
theorem runSliceTest_other {s : State} {i : SessIx} {k : Packet} {p : Parsed} (h : ∀ n, unitNamed p ≠ some (.lane n)) :
    runSliceTest i k p s = .refuse 0x0202 s := by
  unfold runSliceTest
  split
  · rename_i n hn
    exact absurd hn (h n)
  · rfl

theorem setState_quiet {still : Bool} {s u : State} (h : Quiet still s u) {n st} : Quiet still s (u.modEng n fun e => e.setState st) :=
  modEng_quiet h fun _ he => he.keep

/-- Settles O14: each command by the checks it makes, its work quiet. -/
theorem placementAndDiagnosticCommandsAct : Obligations.PlacementAndDiagnosticCommandsAct := by
  unfold Obligations.PlacementAndDiagnosticCommandsAct
  intro s k i p
  have hs : Quiet false (s.heard i k) (s.heard i k) := .refl _
  refine ⟨fun h hb hn => ?save, fun h hb => ?saveBig, fun h hb hn => ?saveBad, fun h => ?clear, fun n h hu hc => ?slice, fun n h hu hc => ?sliceGated,
    fun h hu => ?sliceOther, fun u h hu hl ho => ?test, fun u h hu ho => ?noTest, fun u h hu hl hv => ?retire, fun u h hu ho => ?noRetire,
    fun h hw => ?serve, fun h hw => ?noRoom, fun h hw => ?reserve, fun e h he => ?stays, fun new h hn => ?moves⟩
  case save =>
    refine completes_quiet (run := runConfigSave) rfl h ?_ (modBoot_quiet hs)
    exact (if_neg (not_lt.2 hb)).trans (if_neg (by rw [show (s.heard i k).boot.nvBad = false from hn]; decide))
  case saveBig => exact completes_answer (run := runConfigSave) rfl h (if_pos hb)
  case saveBad => exact completes_answer (run := runConfigSave) rfl h ((if_neg (not_lt.2 hb)).trans (if_pos hn))
  case clear => exact completes_quiet (run := runJournalClear) rfl h rfl (modBoot_quiet hs)
  case slice =>
    refine completes_quiet (run := runSliceTest) rfl h ?_ (modLane_quiet hs)
    unfold runSliceTest
    rw [hu]
    exact if_neg (by rw [show bit (s.heard i k).clk.ckg1 (lanePort n).val = true from hc]; decide)
  case sliceGated =>
    refine completes_answer (run := runSliceTest) rfl h ?_
    unfold runSliceTest
    rw [hu]
    exact if_pos (by rw [show bit (s.heard i k).clk.ckg1 (lanePort n).val = false from hc]; decide)
  case sliceOther => exact completes_answer (run := runSliceTest) rfl h (runSliceTest_other hu)
  case test => exact completes_quiet (run := runSelfTest) rfl h (runSelfTest_starts hu hl ho) (startTests_quiet hs)
  case noTest => exact completes_answer (run := runSelfTest) rfl h (runSelfTest_refused hu ho)
  case retire => exact completes_quiet (run := runRetire) rfl h (runRetire_planned hu hl hv) (ite_quiet hs (retirePlanned_quiet hs))
  case noRetire => exact completes_answer (run := runRetire) rfl h (runRetire_other hu ho)
  case serve =>
    exact completes_quiet (run := runCapacity) rfl h (if_pos hw) (refreshLadle_quiet (foldl_quiet hs fun _ _ hv => setState_quiet hv))
  case noRoom =>
    intro out busy hn
    exact completes_answer (run := runCapacity) rfl h ((if_neg (not_le.2 hw)).trans (if_pos hn))
  case reserve =>
    intro out busy hb hn
    refine completes_quiet (run := runCapacity) rfl h ((if_neg (not_le.2 hw)).trans (if_neg (not_or.2 ⟨not_lt.2 hb, not_lt.2 hn⟩))) ?_
    exact refreshLadle_quiet (foldl_quiet (foldl_quiet hs fun _ _ hv => migrate_quiet (losePins_quiet hv)) fun _ _ hv => setState_quiet hv)
  case stays =>
    refine completes_answer (run := runRebalance) rfl h ?_
    unfold runRebalance
    rw [show placeAll (s.heard i k) (s.heard i k).settings (s.heard i k).settings true = .error e from he]
    rfl
  case moves =>
    intro now ms
    refine completes_quiet (run := runRebalance) rfl h ?_ (moveAll_quiet (ite_quiet hs (raise_quiet (applyPlacement_quiet hs))))
    unfold runRebalance
    rw [show placeAll (s.heard i k) (s.heard i k).settings (s.heard i k).settings true = .ok new from hn]
    rfl

/-! ### Images and jobs -/

/-- The first piece of an image. -/
theorem runImageLoad_first {s : State} {i : SessIx} {k : Packet} {p : Parsed} {t : Int} {bs : List Int} {piece : List Byte}
    (hv : p.val? 0x021E = some (0 :: t :: bs)) (hp : piece = bs.map fun v => BitVec.ofInt 8 v) :
    runImageLoad i k p s =
      if 64 ≤ (s.images.map (·.id) ++ s.loads.map (·.2.id)).length then .refuse 0x0121 s
      else if t.toNat < piece.length then .refuse 0x0202 s
      else if piece.length < t.toNat then .ok [item 0x021D (le 4 (s.freshId 32 (s.images.map (·.id) ++ s.loads.map (·.2.id))).1)]
        { (s.freshId 32 (s.images.map (·.id) ++ s.loads.map (·.2.id))).2 with
          loads := s.loads ++ [(t.toNat, { id := (s.freshId 32 (s.images.map (·.id) ++ s.loads.map (·.2.id))).1, bytes := piece })] }
      else if imageOk piece then .ok [item 0x021D (le 4 (s.freshId 32 (s.images.map (·.id) ++ s.loads.map (·.2.id))).1)]
        { (s.freshId 32 (s.images.map (·.id) ++ s.loads.map (·.2.id))).2 with
          images := s.images ++ [{ id := (s.freshId 32 (s.images.map (·.id) ++ s.loads.map (·.2.id))).1, bytes := piece }] }
      else .refuse 0x021D s := by
  subst hp
  unfold runImageLoad
  rw [hv]
  rfl

/-- A later piece without an identifier, or of an unknown load. -/
theorem runImageLoad_later {s : State} {i : SessIx} {k : Packet} {p : Parsed} {o t : Int} {bs : List Int}
    (hv : p.val? 0x021E = some (o :: t :: bs)) (ho : 0 < o.toNat) :
    (p.val? 0x021D = none → runImageLoad i k p s = .refuse 0x020D s) ∧
    ∀ v, p.val? 0x021D = some v → s.loads.find? (fun x => x.2.id == (v.getD 0 0).toNat) = none → runImageLoad i k p s = .refuse 0x0225 s := by
  have hne : ¬ o.toNat = 0 := by omega
  unfold runImageLoad
  rw [hv]
  refine ⟨fun hn => ?_, fun v hid hl => ?_⟩
  · rw [hn]
    exact if_neg hne
  · rw [hid]
    refine (if_neg hne).trans ?_
    dsimp only
    rw [hl]

/-- A later piece of a load under way. -/
theorem runImageLoad_piece {s : State} {i : SessIx} {k : Packet} {p : Parsed} {o t : Int} {bs v : List Int} {l : Nat × Image}
    (hv : p.val? 0x021E = some (o :: t :: bs)) (ho : 0 < o.toNat) (hid : p.val? 0x021D = some v)
    (hl : s.loads.find? (fun x => x.2.id == (v.getD 0 0).toNat) = some l) :
    runImageLoad i k p s =
      if l.1 ≠ t.toNat ∨ l.2.bytes.length < o.toNat ∨ t.toNat < o.toNat + (bs.map fun v => BitVec.ofInt 8 v).length then .refuse 0x0202 s
      else if o.toNat + (bs.map fun v => BitVec.ofInt 8 v).length < t.toNat then .ok [] { s with loads := s.loads.map fun x =>
        if x == l then (l.1, { id := l.2.id, bytes := imagePiece l.2.bytes o.toNat (bs.map fun v => BitVec.ofInt 8 v) }) else x }
      else if imageOk (imagePiece l.2.bytes o.toNat (bs.map fun v => BitVec.ofInt 8 v)) then .ok [] { s with
        loads := s.loads.erase l
        images := s.images ++ [{ id := l.2.id, bytes := imagePiece l.2.bytes o.toNat (bs.map fun v => BitVec.ofInt 8 v) }] }
      else .refuse 0x021D s := by
  unfold runImageLoad
  rw [hv, hid]
  refine (if_neg (by omega)).trans ?_
  dsimp only
  rw [hl]

/-- Whether a session has a command staged that sets a zone's image. -/
def stagesImage (id : Nat) (x : Session) : Bool :=
  match x.txn with
  | some t => t.staged.any fun c => c.updates.any fun u => u.1.kind == .zone && u.1.code == 0x1705 && u.2 == [(id : Int)]
  | none => false

theorem imageUsed_eq (s : State) (id : Nat) : s.imageUsed id = ((s.settings.zones.any fun z => s.settings.zone z 0x1705 == id) ||
    (s.base.zones.any fun z => s.base.zone z 0x1705 == id) || s.sessions.toList.any (stagesImage id)) := rfl

/-- Hearing a command stages nothing. -/
theorem stagesImage_heard (s : State) (i j : SessIx) (k : Packet) (id : Nat) :
    stagesImage id (s.heard i k).sessions[j] = stagesImage id s.sessions[j] := by
  by_cases h : j = i
  · subst h
    rw [heard_session]
    unfold stagesImage
    cases s.sessions[j].txn with
    | none => rfl
    | some t =>
      dsimp only [Option.map_some]
      split <;> rfl
  · rw [heard_session_ne _ _ _ _ h]

theorem imageUsed_heard (s : State) (i : SessIx) (k : Packet) (id : Nat) : (s.heard i k).imageUsed id = s.imageUsed id := by
  have hmap : (s.heard i k).sessions.map (stagesImage id) = s.sessions.map (stagesImage id) := by
    refine Vector.ext fun j hj => ?_
    simpa using stagesImage_heard s i ⟨j, hj⟩ k id
  have hany (v : Vector Session 4) : v.toList.any (stagesImage id) = (v.map (stagesImage id)).toList.any fun b => b := by
    rw [Vector.toList_map, List.any_map]
    rfl
  rw [imageUsed_eq, imageUsed_eq, hany, hany, hmap]
  rfl

/-- Settles O15: each command by the checks it makes. -/
theorem storeCommandsKeepWhatTheyAreGiven : Obligations.StoreCommandsKeepWhatTheyAreGiven := by
  unfold Obligations.StoreCommandsKeepWhatTheyAreGiven
  intro s k i p
  have hs : Quiet false (s.heard i k) (s.heard i k) := .refl _
  refine ⟨fun t bs piece h hv hp => ?first, fun o t bs h hv ho => ?later, fun o t bs v piece whole l h hv ho hp hid hl hlt hlo hw => ?piece,
    fun h hx hu => ?delete, fun h hx hu => ?used, fun h hi hl => ?unknown, fun v h hv => ?submit, fun h hj => ?cancel, fun h hj => ?noCancel⟩
  case first =>
    have he := runImageLoad_first (s := s.heard i k) (i := i) (k := k) hv hp
    intro used id
    refine ⟨fun h64 => ?_, fun h64 ht hok => ?_, fun h64 ht hok => ?_, fun h64 ht => ?_, fun h64 ht => ?_⟩
    · exact completes_answer (run := runImageLoad) rfl h (he.trans (if_pos h64))
    · refine completes_quiet (run := runImageLoad) rfl h (he.trans ((if_neg (not_le.2 h64)).trans ?_)) (mk_quiet hs)
      rw [if_neg (by omega), if_neg (by omega), if_pos hok]
      rfl
    · refine completes_answer (run := runImageLoad) rfl h (he.trans ((if_neg (not_le.2 h64)).trans ?_))
      rw [if_neg (by omega), if_neg (by omega), if_neg (by rw [hok]; decide)]
      rfl
    · refine completes_quiet (run := runImageLoad) rfl h (he.trans ((if_neg (not_le.2 h64)).trans ?_)) (mk_quiet hs)
      rw [if_neg (by omega), if_pos ht]
      rfl
    · exact completes_answer (run := runImageLoad) rfl h (he.trans ((if_neg (not_le.2 h64)).trans (if_pos ht)))
  case later =>
    obtain ⟨hnone, hunknown⟩ := runImageLoad_later (s := s.heard i k) (i := i) (k := k) hv ho
    refine ⟨fun hn => completes_answer (run := runImageLoad) rfl h (hnone hn),
      fun v hid hl => completes_answer (run := runImageLoad) rfl h (hunknown v hid hl), fun v l hid hl hbad => ?_⟩
    have he := runImageLoad_piece (s := s.heard i k) (i := i) (k := k) hv ho hid hl
    exact completes_answer (run := runImageLoad) rfl h (he.trans (if_pos (by rw [List.length_map]; exact hbad)))
  case piece =>
    subst hp hw
    have he := runImageLoad_piece (s := s.heard i k) (i := i) (k := k) hv ho hid hl
    have hgood (hle : o.toNat + (bs.map fun v => BitVec.ofInt 8 v).length ≤ t.toNat) :
        ¬ (l.1 ≠ t.toNat ∨ l.2.bytes.length < o.toNat ∨ t.toNat < o.toNat + (bs.map fun v => BitVec.ofInt 8 v).length) := by omega
    refine ⟨fun hlt => ?_, fun heq hok => ?_, fun heq hok => ?_⟩
    · exact completes_quiet (run := runImageLoad) rfl h (he.trans ((if_neg (hgood hlt.le)).trans (if_pos hlt))) (mk_quiet hs)
    · exact completes_quiet (run := runImageLoad) rfl h
        (he.trans ((if_neg (hgood heq.le)).trans ((if_neg (by omega)).trans (if_pos hok)))) (mk_quiet hs)
    · exact completes_answer (run := runImageLoad) rfl h
        (he.trans ((if_neg (hgood heq.le)).trans ((if_neg (by omega)).trans (if_neg (by rw [hok]; decide)))))
  case delete =>
    refine completes_quiet (run := runImageDelete) rfl h ?_ (mk_quiet hs)
    refine (if_neg ?_).trans (if_neg (by rw [imageUsed_heard, hu]; decide))
    rcases hx with ⟨x, hx, he⟩ | ⟨x, hx, he⟩
    · have : ((s.heard i k).images.any fun y => y.id == p.getD 0x021D 0) = true := List.any_eq_true.2 ⟨x, hx, by simp [he]⟩
      rw [this]
      exact Bool.false_ne_true
    · have : ((s.heard i k).loads.any fun y => y.2.id == p.getD 0x021D 0) = true := List.any_eq_true.2 ⟨x, hx, by simp [he]⟩
      rw [this, Bool.not_true, Bool.and_false]
      decide
  case used =>
    obtain ⟨x, hx, he⟩ := hx
    have hany : ((s.heard i k).images.any fun y => y.id == p.getD 0x021D 0) = true := List.any_eq_true.2 ⟨x, hx, by simp [he]⟩
    refine completes_answer (run := runImageDelete) rfl h ((if_neg ?_).trans (if_pos (by rw [imageUsed_heard, hu])))
    rw [hany]
    exact Bool.false_ne_true
  case unknown =>
    have h1 : ((s.heard i k).images.any fun y => y.id == p.getD 0x021D 0) = false := List.any_eq_false.2 fun x hx => by simp [hi x hx]
    have h2 : ((s.heard i k).loads.any fun y => y.2.id == p.getD 0x021D 0) = false := List.any_eq_false.2 fun x hx => by simp [hl x hx]
    exact completes_answer (run := runImageDelete) rfl h (if_pos (by rw [h1, h2]; decide))
  case submit =>
    have hd : ((p.val? 0x021F).getD []).map (fun v => BitVec.ofInt 8 v) = v.map fun b => BitVec.ofInt 8 b := by rw [hv]; rfl
    refine ⟨fun h0 => ?_, fun h0 => ?_⟩
    · refine completes_quiet (run := runJobSubmit) rfl h ?_ (mk_quiet hs)
      unfold runJobSubmit
      rw [hd]
      exact if_neg (not_not.2 h0)
    · refine completes_answer (run := runJobSubmit) rfl h ?_
      unfold runJobSubmit
      rw [hd]
      exact if_pos h0
  case cancel =>
    obtain ⟨j, hj, he⟩ := hj
    have hany : ((s.heard i k).jobs.any fun j => jobField j.desc 4 4 == p.getD 0x022B 0) = true := List.any_eq_true.2 ⟨j, hj, by simp [he]⟩
    exact completes_quiet (run := runJobCancel) rfl h (if_pos hany) (mk_quiet hs)
  case noCancel =>
    have hany : ((s.heard i k).jobs.any fun j => jobField j.desc 4 4 == p.getD 0x022B 0) = false :=
      List.any_eq_false.2 fun j hj' => by simp [hj j hj']
    exact completes_answer (run := runJobCancel) rfl h (if_neg (by rw [hany]; decide))

end Sys2Proof.Proofs

/-! SUPPORT. Requests of the Rind: what messages and audit records leave, and how a request that is served at once is answered. -/

namespace Sys2Proof.Proofs

open Sys2Proof Sys2Proof.Machine Sys2Proof.Claims

/-! ### Messages and records

A message joins the results path and the line; a record joins the trail. Nothing else of the Rind moves. -/

/-- `q` is `r` after messages, audit records and refused attempts. -/
def Told (r q : Rind) : Prop :=
  ∃ rpSeq unacked wire lineAt segs auditCnt audit windows, q = { r with
    rpSeq := rpSeq, unacked := unacked, wire := wire, lineAt := lineAt, segs := segs, auditCnt := auditCnt, audit := audit, windows := windows }

theorem Told.refl (r : Rind) : Told r r := ⟨_, _, _, _, _, _, _, _, rfl⟩

theorem Told.trans {a b c : Rind} (h : Told a b) (k : Told b c) : Told a c := by
  obtain ⟨_, _, _, _, _, _, _, _, rfl⟩ := h
  obtain ⟨_, _, _, _, _, _, _, _, rfl⟩ := k
  exact ⟨_, _, _, _, _, _, _, _, rfl⟩

theorem Told.ite {r a b : Rind} {c : Prop} [Decidable c] (ha : Told r a) (hb : Told r b) : Told r (if c then a else b) := by
  split
  · exact ha
  · exact hb

theorem lineUp_told (r : Rind) (m : RpMsg) : Told r (r.lineUp m) := by
  unfold Rind.lineUp
  split
  · exact ⟨_, _, _, _, _, _, _, _, rfl⟩
  · refine .ite ⟨_, _, _, _, _, _, _, _, rfl⟩ (.ite ⟨_, _, _, _, _, _, _, _, rfl⟩ ?_)
    exact .ite ⟨_, _, _, _, _, _, _, _, rfl⟩ ⟨_, _, _, _, _, _, _, _, rfl⟩

theorem offLine_told (r : Rind) (m : RpMsg) : Told r (r.offLine m) := ⟨_, _, _, _, _, _, _, _, rfl⟩

theorem put_told (r : Rind) (ch : Nat) (b : RpBody) : Told r (r.put ch b) :=
  Told.trans (b := { r with rpSeq := _, unacked := _ }) ⟨_, _, _, _, _, _, _, _, rfl⟩ (lineUp_told ..)

theorem record_told (r : Rind) (ty src param count : Nat) (idOld : BitVec 32) (old new : BitVec 64) :
    Told r (r.record ty src param count idOld old new) :=
  Told.trans (b := { r with auditCnt := _, audit := _ }) ⟨_, _, _, _, _, _, _, _, rfl⟩ (put_told ..)

theorem makeRoom_told (n need : Nat) (r : Rind) : Told r (r.makeRoom n need) := by
  induction n generalizing r with
  | zero => exact .refl r
  | succ n ih =>
    unfold Rind.makeRoom
    split
    · exact .refl r
    · split
      · exact .refl r
      · rename_i m _
        have h1 : Told r (({ r with unacked := r.unacked.erase m } : Rind).offLine m) :=
          Told.trans (b := { r with unacked := _ }) ⟨_, _, _, _, _, _, _, _, rfl⟩ (offLine_told ..)
        refine .trans ?_ (ih _)
        exact .ite (((h1.trans (record_told ..)).trans (put_told ..)).trans (put_told ..)) ((h1.trans (record_told ..)).trans (put_told ..))

theorem send_told (r : Rind) (ch : Nat) (b : RpBody) : Told r (r.send ch b) := (makeRoom_told ..).trans (put_told ..)
theorem event_told (r : Rind) (n : Nat) : Told r (r.event n) := send_told ..

theorem write_told (r : Rind) (ty src param count : Nat) (idOld : BitVec 32) (old new : BitVec 64) :
    Told r (r.write ty src param count idOld old new) := by
  have h2 := (makeRoom_told r.unacked.length 80 r).trans (record_told _ ty src param count idOld old new)
  unfold Rind.write
  dsimp only
  split
  · exact (Told.ite (h2.trans (event_told ..)) h2).trans (event_told ..)
  · exact .ite (h2.trans (event_told ..)) h2

theorem note_told (r : Rind) (ty src : Nat) (old new : BitVec 64) : Told r (r.note ty src old new) := write_told ..

theorem foldl_told {α : Type} {f : Rind → α → Rind} (hf : ∀ r a, Told r (f r a)) (l : List α) (r : Rind) : Told r (l.foldl f r) := by
  induction l generalizing r with
  | nil => exact .refl r
  | cons a l ih => exact (hf r a).trans (ih _)

theorem attempt_told (now : Time) (r : Rind) (a : Nat × BitVec 64 × BitVec 64) : Told r (r.attempt now a) := by
  unfold Rind.attempt
  refine .ite ⟨_, _, _, _, _, _, _, _, rfl⟩ ?_
  exact Told.trans (write_told ..) ⟨_, _, _, _, _, _, _, _, rfl⟩

section
variable {r q : Rind} (h : Told r q)
include h

theorem Told.params : q.params = r.params := by obtain ⟨_, _, _, _, _, _, _, _, rfl⟩ := h; rfl
theorem Told.paramId : q.paramId = r.paramId := by obtain ⟨_, _, _, _, _, _, _, _, rfl⟩ := h; rfl
theorem Told.accepted : q.accepted = r.accepted := by obtain ⟨_, _, _, _, _, _, _, _, rfl⟩ := h; rfl
theorem Told.paramIdNow : q.paramIdNow = r.paramIdNow := by obtain ⟨_, _, _, _, _, _, _, _, rfl⟩ := h; rfl
theorem Told.refused : q.refused = r.refused := by obtain ⟨_, _, _, _, _, _, _, _, rfl⟩ := h; rfl
theorem Told.sealSt : q.sealSt = r.sealSt := by obtain ⟨_, _, _, _, _, _, _, _, rfl⟩ := h; rfl
theorem Told.sealedDig : q.sealedDig = r.sealedDig := by obtain ⟨_, _, _, _, _, _, _, _, rfl⟩ := h; rfl
theorem Told.sealedParamId : q.sealedParamId = r.sealedParamId := by obtain ⟨_, _, _, _, _, _, _, _, rfl⟩ := h; rfl
theorem Told.axc0 : q.axc0 = r.axc0 := by obtain ⟨_, _, _, _, _, _, _, _, rfl⟩ := h; rfl
theorem Told.ackCnt : q.ackCnt = r.ackCnt := by obtain ⟨_, _, _, _, _, _, _, _, rfl⟩ := h; rfl
theorem Told.fwImage : q.fwImage = r.fwImage := by obtain ⟨_, _, _, _, _, _, _, _, rfl⟩ := h; rfl
theorem Told.nextFw : q.nextFw = r.nextFw := by obtain ⟨_, _, _, _, _, _, _, _, rfl⟩ := h; rfl

end

/-! ### Requests -/

/-- The commands of the mailbox are the arrivals of their packets. -/
theorem exec_rind {k : Packet} {op : Nat} {c : Instr} (h : (op, c) ∈ rindCommands k) (s : State) : exec c s = .next (arrive op k (runRind op) s) := by
  simp only [rindCommands, List.mem_cons, List.not_mem_nil, or_false, Prod.mk.injEq] at h
  rcases h with ⟨rfl, rfl⟩ | ⟨rfl, rfl⟩ | ⟨rfl, rfl⟩ | ⟨rfl, rfl⟩ | ⟨rfl, rfl⟩ | ⟨rfl, rfl⟩ | ⟨rfl, rfl⟩ | ⟨rfl, rfl⟩ | ⟨rfl, rfl⟩ |
    ⟨rfl, rfl⟩ | ⟨rfl, rfl⟩ | ⟨rfl, rfl⟩ | ⟨rfl, rfl⟩ | ⟨rfl, rfl⟩ | ⟨rfl, rfl⟩ | ⟨rfl, rfl⟩
  all_goals rfl

/-- With the slot taken the command is held; with the Rind off it takes the slot. -/
theorem runRind_held {op : Nat} {i : SessIx} {k : Packet} {p : Parsed} {s : State} (h : s.rind.request.isSome = true) :
    runRind op i k p s = .later (s.modRind fun r => { r with held := r.held ++ [(i, BitVec.ofNat 16 op, k)] }) := if_pos h

theorem runRind_off {op : Nat} {i : SessIx} {k : Packet} {p : Parsed} {s : State} (hf : s.rind.request = none) (hp : s.rind.powered = false) :
    runRind op i k p s = .later (s.modRind fun r => r.post (i, BitVec.ofNat 16 op, k)) := by
  unfold runRind
  dsimp only
  rw [hf, hp]
  rfl

/-- A powered Rind with a free slot serves the request. -/
theorem runRind_served {op : Nat} {i : SessIx} {k : Packet} {p : Parsed} {s : State} (hf : s.rind.request = none) (hp : s.rind.powered = true) :
    runRind op i k p s = match rindServe op p s with
      | .done st items t => .done st items (t.modRind fun r => r.executed st items)
      | .waits t => .later (t.modRind fun r => r.post (i, BitVec.ofNat 16 op, k)) := by
  unfold runRind
  dsimp only
  rw [hf, hp]
  rfl

/-- A HALTED Rind refuses what it does not answer (R265). -/
theorem rindServe_halted {op : Nat} {p : Parsed} {s : State} (hh : s.rind.halted = true) (ha : haltedAnswers s.rind op = false) :
    rindServe op p s = .done 0x0601 [] s := by
  unfold rindServe
  dsimp only
  rw [hh, ha]
  rfl

/-- Beside the Rind's state, what a request does to a block that heard it shows only where events and replies go. -/
structure Within (v u : State) : Prop where
  work : SameWork { v with rind := u.rind } u
  sessions : u.sessions = v.sessions

theorem Within.modRind (v : State) (f : Rind → Rind) : Within v (v.modRind f) := ⟨by constructor <;> rfl, rfl⟩
theorem Within.refl (v : State) : Within v v := Within.modRind v id

/-- A request that is served at once is answered; the mailbox shows it. -/
theorem served_replies {c : Instr} {op : Nat} {i : SessIx} {k : Packet} {p : Parsed} {s u : State} {st : Status} {items : List (List Byte)}
    (hx : exec c s = .next (arrive op k (runRind op) s)) (ha : Accepted i op k p s) (hf : s.rind.request = none) (hp : s.rind.powered = true)
    (hr : rindServe op p (s.heard i k) = .done st items u) (hu : Within (s.heard i k) u) :
    Completes c s (Replies i op k st items (u.modRind fun r => r.executed st items)) := by
  refine completes_done hx ha ?_ ?_
  · rw [runRind_served (s := s.heard i k) hf hp, hr]
  · show u.sessions[i].isOpen = true
    rw [hu.sessions]
    exact heard_isOpen ha.listens

theorem keep_inProgress {y : Session} {seq : BitVec 32} {pk : List (List Byte)} : (y.keep seq pk).inProgress = none := by
  unfold Session.keep
  split <;> rfl

/-- So beside events and replies only the Rind changes. -/
theorem served_rindOnly {c : Instr} {op : Nat} {i : SessIx} {k : Packet} {p : Parsed} {s u : State} {st : Status} {items : List (List Byte)}
    (hx : exec c s = .next (arrive op k (runRind op) s)) (h : Served i op k p s) (hr : rindServe op p (s.heard i k) = .done st items u)
    (hu : Within (s.heard i k) u) : ∃ t, exec c s = .next t ∧ RindOnly i op k st s t ∧ t.rind = u.rind.executed st items := by
  obtain ⟨t, ht, hrep⟩ := served_replies hx h.accepted h.free h.powered hr hu
  have hw := hu.work
  have hk := hrep.work
  have hopen : (u.modRind fun r => r.executed st items).sessions[i].isOpen = true := by
    show u.sessions[i].isOpen = true
    rw [hu.sessions]
    exact heard_isOpen h.accepted.listens
  refine ⟨t, ht, ⟨?_, ?_, ?_, items, hrep.kept hopen⟩, hk.rind⟩
  · exact ⟨hk.pending.trans hw.pending, hk.free.trans hw.free, hk.time.trans hw.time, hk.glb.trans hw.glb, hk.settings.trans hw.settings,
      hk.commits.trans hw.commits, hk.ports.trans hw.ports, hk.lanes.trans hw.lanes, hk.pipes.trans hw.pipes, hk.sdc.trans hw.sdc,
      hk.shut.trans hw.shut, hk.emOn.trans hw.emOn, hk.clk.trans hw.clk, hk.tiu.trans hw.tiu, hk.axc1.trans hw.axc1, rfl,
      hk.rindMain.trans hw.rindMain, hk.engines.trans hw.engines, hk.images.trans hw.images, hk.loads.trans hw.loads, hk.press.trans hw.press,
      hk.jobs.trans hw.jobs, hk.savedJobs.trans hw.savedJobs, hk.hostArea.trans hw.hostArea, hk.zones.trans hw.zones,
      hk.ladle.trans hw.ladle, hk.boot.trans hw.boot, hk.aon.trans hw.aon⟩
  · rw [hk.rind]
    rfl
  · obtain ⟨q, hq⟩ := hrep.session
    rw [hq]
    exact keep_inProgress

/-- A Rind that is not HALTED serves a request by its opcode. -/
theorem not_refused {op : Nat} {i : SessIx} {k : Packet} {p : Parsed} {s : State} (h : Served i op k p s) :
    ¬ ((s.heard i k).rind.halted && !(haltedAnswers (s.heard i k).rind op)) = true := by
  rw [show (s.heard i k).rind.halted = false from h.notHalted]
  exact Bool.false_ne_true

/-- Settles O18: what the mailbox does with a request, by its slot and the Rind's state. -/
theorem mailboxServesOneRequestAtATime : Obligations.MailboxServesOneRequestAtATime := by
  unfold Obligations.MailboxServesOneRequestAtATime
  refine ⟨fun s k i p op c hc h => ⟨fun hs => ?held, fun hf hp => ?off, fun hf hp hh ha => ?halted⟩,
    fun s k i p => ⟨fun h => ?identify, fun h => ?query, fun items h hi => ?audit⟩⟩
  case held =>
    rw [exec_rind hc, arrive_run i op k p _ s h, runRind_held (s := s.heard i k) hs]
  case off =>
    rw [exec_rind hc, arrive_run i op k p _ s h, runRind_off (s := s.heard i k) hf hp]
  case halted => exact served_replies (exec_rind hc s) h hf hp (rindServe_halted hh ha) (.refl _)
  case identify => exact served_replies rfl h.accepted h.free h.powered (if_neg (not_refused h)) (.refl _)
  case query => exact served_replies rfl h.accepted h.free h.powered (if_neg (not_refused h)) (.refl _)
  case audit =>
    subst hi
    exact served_replies rfl h.accepted h.free h.powered (if_neg (not_refused h)) (.refl _)

/-! ### Legally relevant changes -/

/-- The gate lets a request pass that names no legally relevant parameter, or that may change one. -/
theorem lrGate_passes {attempts : List (Nat × BitVec 64 × BitVec 64)} {s : State} (h : MayChange s ∨ attempts = []) : lrGate attempts s = (0, s) := by
  unfold lrGate
  rcases h with ⟨hs, hu⟩ | h
  · simp [hs, not_le.2 hu]
  · simp [h]

/-- The Rind after a refused request: each parameter's attempt noted once, the request counted, EV217. -/
def attempted (attempts : List (Nat × BitVec 64 × BitVec 64)) (now : Time) (r : Rind) : Rind :=
  let r1 := (((attempts.map (·.1)).eraseDups.filterMap fun c => attempts.find? fun a => a.1 == c)).foldl (Rind.attempt now) r
  ({ r1 with refused := r1.refused + 1 } : Rind).event 217

/-- Counting a refusal beside messages and records. -/
theorem Told.count {r q : Rind} (h : Told r q) : Told { r with refused := r.refused + 1 } { q with refused := q.refused + 1 } := by
  obtain ⟨_, _, _, _, _, _, _, _, rfl⟩ := h
  exact ⟨_, _, _, _, _, _, _, _, rfl⟩

theorem attempted_told (attempts : List (Nat × BitVec 64 × BitVec 64)) (now : Time) (r : Rind) :
    Told { r with refused := r.refused + 1 } (attempted attempts now r) :=
  (foldl_told (attempt_told now) _ r).count.trans (event_told ..)

/-- While SEALED it refuses, and only counts the attempt. -/
theorem lrGate_sealed {attempts : List (Nat × BitVec 64 × BitVec 64)} {s : State} (hs : s.rind.sealSt = .sealed) (ha : attempts ≠ []) :
    lrGate attempts s = (0x0401, s.modRind (attempted attempts s.time.mono)) := by
  unfold lrGate
  dsimp only
  rw [if_neg (by simp [ha]), if_pos (by simp [hs])]
  rfl

/-- No legally relevant item, no attempt. -/
theorem lrAttempts_eq_nil {ss : Settings} {items : List (SetKey × List Int)} (h : ∀ x ∈ items, lrCode x.1.code = false) :
    lrAttempts ss items = [] := by
  unfold lrAttempts
  rw [List.map_eq_nil_iff, List.filter_eq_nil_iff]
  intro x hx
  rw [h x hx]
  decide

theorem lrAttempts_ne_nil {ss : Settings} {items : List (SetKey × List Int)} (h : ∃ x ∈ items, lrCode x.1.code = true) :
    lrAttempts ss items ≠ [] := by
  obtain ⟨x, hx, hc⟩ := h
  unfold lrAttempts
  rw [ne_eq, List.map_eq_nil_iff, List.filter_eq_nil_iff]
  exact fun hn => hn x hx hc

/-- Accepted parameters are in force, under a new PARAM_ID. -/
theorem acceptParams_told (r : Rind) (items : List (SetKey × List Int)) :
    Told { r with
      params := items.foldl (fun ss x => ss.put x.1 x.2) r.params
      paramId := ({ r with params := items.foldl (fun ss x => ss.put x.1 x.2) r.params } : Rind).paramIdNow } (r.acceptParams items) :=
  foldl_told (fun _ _ => write_told ..) _ _

theorem acceptParams_params (r : Rind) (items : List (SetKey × List Int)) :
    (r.acceptParams items).params = items.foldl (fun ss x => ss.put x.1 x.2) r.params := (acceptParams_told r items).params

theorem acceptParams_paramId (r : Rind) (items : List (SetKey × List Int)) : (r.acceptParams items).paramId = (r.acceptParams items).paramIdNow :=
  (acceptParams_told r items).paramId.trans (acceptParams_told r items).paramIdNow.symm

/-- What the mailbox shows is no parameter. -/
theorem executed_paramIdNow (r : Rind) (st : Status) (items : List (List Byte)) : (r.executed st items).paramIdNow = r.paramIdNow := rfl

/-- THERMAL_SET that passes its checks. -/
theorem thermalSet_ok {p : Parsed} {s : State} (hg : MayChange s ∨ ∀ x ∈ p.items, lrCode x.1.code = false)
    (hm : thermalMissing (p.items.foldl (fun ss x => ss.put x.1 x.2) s.rind.params) p.items = false)
    (hc : coilsInRange (p.items.foldl (fun ss x => ss.put x.1 x.2) s.rind.params) = true)
    (ht : thermalOk (p.items.foldl (fun ss x => ss.put x.1 x.2) s.rind.params) s.rind.accepted = true) :
    thermalSet p s = .done 0 [] (s.modRind fun r => r.acceptParams p.items) := by
  unfold thermalSet
  dsimp only
  rw [lrGate_passes (hg.imp_right lrAttempts_eq_nil), hm, hc, ht]
  rfl

/-- FRONT_END_SET that passes its checks. -/
theorem frontEndSet_ok {p : Parsed} {s : State} (hg : MayChange s)
    (he : ∀ x ∈ p.items, x.1.code = 0x1901 →
      entryAllowed (p.items.foldl (fun ss x => ss.put x.1 x.2) s.rind.params)
        ((p.items.foldl (fun ss x => ss.put x.1 x.2) s.rind.params).entryWord x.1.inst) = true)
    (hl : ∃ n < 32, entLast ((p.items.foldl (fun ss x => ss.put x.1 x.2) s.rind.params).entryWord n) = true) :
    frontEndSet p s = .done 0 [] (s.modRind fun r => r.acceptParams p.items) := by
  have h1 : (p.items.any fun x => x.1.code == 0x1901 && !entryAllowed (p.items.foldl (fun ss x => ss.put x.1 x.2) s.rind.params)
      ((p.items.foldl (fun ss x => ss.put x.1 x.2) s.rind.params).entryWord x.1.inst)) = false := by
    rw [List.any_eq_false]
    intro x hx
    by_cases hx1 : x.1.code = 0x1901
    · rw [he x hx hx1, Bool.not_true, Bool.and_false]
      decide
    · simp [hx1]
  have h2 : ((List.range 32).any fun n => entLast ((p.items.foldl (fun ss x => ss.put x.1 x.2) s.rind.params).entryWord n)) = true := by
    obtain ⟨n, hn, hl⟩ := hl
    exact List.any_eq_true.2 ⟨n, List.mem_range.2 hn, hl⟩
  unfold frontEndSet
  dsimp only
  rw [lrGate_passes (.inl hg), h1, h2]
  rfl

/-- The schedule starts from what was accepted. -/
theorem startSchedule_within (s : State) : Within s s.startSchedule := by
  unfold State.startSchedule
  dsimp only
  split
  · exact .modRind ..
  · exact .refl s

theorem Within.trans {a b c : State} (h : Within a b) (k : Within b c) : Within a c := by
  have hw := h.work
  have kw := k.work
  refine ⟨?_, k.sessions.trans h.sessions⟩
  exact ⟨kw.pending.trans hw.pending, kw.free.trans hw.free, kw.time.trans hw.time, kw.glb.trans hw.glb, kw.settings.trans hw.settings,
    kw.commits.trans hw.commits, kw.ports.trans hw.ports, kw.lanes.trans hw.lanes, kw.pipes.trans hw.pipes, kw.sdc.trans hw.sdc,
    kw.shut.trans hw.shut, kw.emOn.trans hw.emOn, kw.clk.trans hw.clk, kw.tiu.trans hw.tiu, kw.axc1.trans hw.axc1, rfl,
    kw.rindMain.trans hw.rindMain, kw.engines.trans hw.engines, kw.images.trans hw.images, kw.loads.trans hw.loads, kw.press.trans hw.press,
    kw.jobs.trans hw.jobs, kw.savedJobs.trans hw.savedJobs, kw.hostArea.trans hw.hostArea, kw.zones.trans hw.zones,
    kw.ladle.trans hw.ladle, kw.boot.trans hw.boot, kw.aon.trans hw.aon⟩

/-- The schedule that starts is the accepted one, under the same PARAM_ID. -/
theorem startSchedule_keeps (s : State) : s.startSchedule.rind.accepted = s.rind.accepted ∧ s.startSchedule.rind.paramId = s.rind.paramId ∧
    s.startSchedule.rind.params = s.rind.params := by
  unfold State.startSchedule
  dsimp only
  split
  · obtain ⟨_, _, _, _, _, _, _, _, hq⟩ := send_told ({ s.rind with
      schedule := s.rind.accepted, nextSchedule := none, step := 0, phase := .announced, stepStart := s.time.mono, averagesDone := 0,
      avg := none, annAcked := false, parked := Vector.replicate 4 false } : Rind) 0xFF
      (.announce 0 ({ s.rind with
        schedule := s.rind.accepted, nextSchedule := none, step := 0, phase := .announced, stepStart := s.time.mono, averagesDone := 0,
        avg := none, annAcked := false, parked := Vector.replicate 4 false } : Rind).stepNow.ports s.rind.time)
    unfold State.beginStep
    simp only [State.modRind_rind]
    rw [hq]
    exact ⟨rfl, rfl, rfl⟩
  · exact ⟨rfl, rfl, rfl⟩

/-- The Rind with a schedule accepted for later, under the PARAM_ID that it gives. -/
def withSchedule (sch : List SchedStep) (r : Rind) : Rind :=
  let y : Rind := { r with nextSchedule := some sch }
  { y with paramId := y.paramIdNow }

/-- Messages and records keep PARAM_ID current. -/
theorem Told.current {z q : Rind} {sch : List SchedStep} (h : Told z q) (ha : z.accepted = sch) (hp : z.paramId = z.paramIdNow) :
    q.accepted = sch ∧ q.paramId = q.paramIdNow := ⟨h.accepted.trans ha, h.paramId.trans (hp.trans h.paramIdNow.symm)⟩

/-- SCHEDULE_SET that passes its checks: its steps are the accepted schedule. -/
theorem scheduleSet_ok {p : Parsed} {s : State} {sch : List SchedStep} (hg : MayChange s) (hs : stepsOf p = some sch)
    (ht : thermalOk s.rind.params sch = true) : ∃ u, scheduleSet p s = .done 0 [] u ∧ Within s u ∧ u.rind.accepted = sch ∧
      u.rind.paramId = u.rind.paramIdNow := by
  have key (f : Rind → Rind) (hf : (f s.rind).accepted = sch ∧ (f s.rind).paramId = (f s.rind).paramIdNow) :
      ∃ u, RindRes.done 0 [] (if (s.modRind f).rind.phase == .stopped then (s.modRind f).startSchedule else s.modRind f) = .done 0 [] u ∧
        Within s u ∧ u.rind.accepted = sch ∧ u.rind.paramId = u.rind.paramIdNow := by
    refine ⟨_, rfl, ?_⟩
    split
    · obtain ⟨ha, hid, hp⟩ := startSchedule_keeps (s.modRind f)
      refine ⟨(Within.modRind ..).trans (startSchedule_within _), ha.trans hf.1, hid.trans (hf.2.trans ?_)⟩
      unfold Rind.paramIdNow
      rw [ha, hp]
      rfl
    · exact ⟨.modRind .., hf⟩
  unfold scheduleSet
  rw [hs]
  dsimp only
  rw [lrGate_passes (.inl hg), ht]
  exact key _ ((Told.ite (.refl (withSchedule sch s.rind)) (write_told ..)).current rfl rfl)

/-- A piece of firmware that the seal lets in. -/
theorem rindFwLoad_ok {p : Parsed} {s : State} {o n : Int} {bs : List Int} (hg : MayChange s) (hv : p.val? 0x021E = some (o :: n :: bs))
    (hl : o.toNat + bs.length ≤ n.toNat) : rindFwLoad p s =
      if o.toNat = 0 then .done 0 [] (s.modRind fun r => { r with fwImage := bs.map fun x => BitVec.ofInt 8 x, fwTotal := n.toNat })
      else if o.toNat = s.rind.fwImage.length ∧ n.toNat = s.rind.fwTotal then
        .done 0 [] (s.modRind fun r => { r with fwImage := r.fwImage ++ bs.map fun x => BitVec.ofInt 8 x })
      else .done 0x0202 [] s := by
  unfold rindFwLoad
  rw [hv]
  dsimp only [Option.getD_some]
  rw [lrGate_passes (.inl hg)]
  refine (if_neg (not_not.2 rfl)).trans ((if_neg ?_).trans rfl)
  simp only [List.drop_succ_cons, List.drop_zero, List.length_map, List.getD_cons_zero, List.getD_cons_succ]
  omega

/-- While SEALED a request that names a legally relevant parameter answers 0x0401. -/
theorem done_sealed {attempts : List (Nat × BitVec 64 × BitVec 64)} {s : State} (hs : s.rind.sealSt = .sealed) (ha : attempts ≠ []) :
    ∃ u, (∀ r : RindRes, (if (lrGate attempts s).1 ≠ 0 then .done (lrGate attempts s).1 [] (lrGate attempts s).2 else r) = .done 0x0401 [] u) ∧
      Within s u ∧ Told { s.rind with refused := s.rind.refused + 1 } u.rind := by
  refine ⟨s.modRind (attempted attempts s.time.mono), fun r => ?_, .modRind .., attempted_told attempts s.time.mono s.rind⟩
  rw [lrGate_sealed hs ha]
  rfl

/-- While SEALED no schedule is accepted. -/
theorem scheduleSet_sealed {p : Parsed} {s : State} {sch : List SchedStep} (hst : stepsOf p = some sch) (hs : s.rind.sealSt = .sealed) :
    ∃ u, scheduleSet p s = .done 0x0401 [] u ∧ Within s u ∧ Told { s.rind with refused := s.rind.refused + 1 } u.rind := by
  unfold scheduleSet
  rw [hst]
  dsimp only
  generalize hg : lrGate _ s = g
  obtain ⟨u, hu, h⟩ := done_sealed hs (List.cons_ne_nil _ [])
  exact ⟨u, hg ▸ hu _, h⟩

/-- While SEALED no firmware is loaded. -/
theorem rindFwLoad_sealed {p : Parsed} {s : State} (hs : s.rind.sealSt = .sealed) : ∃ u, rindFwLoad p s = .done 0x0401 [] u ∧ Within s u ∧
    Told { s.rind with refused := s.rind.refused + 1 } u.rind := by
  obtain ⟨u, hu, h⟩ := done_sealed hs (List.cons_ne_nil (0x021E, s.rind.swDig,
    first8 ((((p.val? 0x021E).getD []).drop 2).map fun x => BitVec.ofInt 8 x)) [])
  exact ⟨u, hu _, h⟩

/-- Settles O19: what the gate lets pass does its work; what it refuses only counts. -/
theorem rindParametersChangeOnlyUnsealed : Obligations.RindParametersChangeOnlyUnsealed := by
  unfold Obligations.RindParametersChangeOnlyUnsealed
  intro s k i p
  refine ⟨fun h hg cand hc hm hco ht => ?thermal, fun h hg sch hs ht => ?schedule, fun h hg cand hc he hl => ?front, fun h hg n bs hv hl => ?first,
    fun h hg o n bs hv ho hi hn hl => ?next, fun c op hc h hs hx => ?items, fun sch h hs hst => ?steps, fun h hs => ?firmware⟩
  case thermal =>
    subst hc
    obtain ⟨t, ht, ho, hr⟩ := served_rindOnly (c := .thermalSet k) rfl h
      ((if_neg (not_refused h)).trans (thermalSet_ok (s := s.heard i k) hg hm hco ht)) (.modRind ..)
    exact ⟨t, ht, ho, by rw [hr]; exact acceptParams_params .., by rw [hr]; exact acceptParams_paramId ..⟩
  case schedule =>
    obtain ⟨u, hu, hw, ha, hid⟩ := scheduleSet_ok (s := s.heard i k) hg hs ht
    obtain ⟨t, ht, ho, hr⟩ := served_rindOnly (c := .scheduleSet k) rfl h ((if_neg (not_refused h)).trans hu) hw
    exact ⟨t, ht, ho, by rw [hr]; exact ha, by rw [hr]; exact hid⟩
  case front =>
    subst hc
    obtain ⟨t, ht, ho, hr⟩ := served_rindOnly (c := .frontEndSet k) rfl h
      ((if_neg (not_refused h)).trans (frontEndSet_ok (s := s.heard i k) hg he hl)) (.modRind ..)
    exact ⟨t, ht, ho, by rw [hr]; exact acceptParams_params .., by rw [hr]; exact acceptParams_paramId ..⟩
  case first =>
    obtain ⟨t, ht, ho, hr⟩ := served_rindOnly (c := .rindFwLoad k) rfl h
      ((if_neg (not_refused h)).trans ((rindFwLoad_ok (s := s.heard i k) hg hv (by simpa using hl)).trans (if_pos rfl))) (.modRind ..)
    exact ⟨t, ht, ho, by rw [hr]; rfl, by rw [hr]; rfl, by rw [hr]; rfl⟩
  case next =>
    obtain ⟨t, ht, ho', hr⟩ := served_rindOnly (c := .rindFwLoad k) rfl h ((if_neg (not_refused h)).trans
      ((rindFwLoad_ok (s := s.heard i k) hg hv hl).trans ((if_neg (by omega)).trans (if_pos ⟨hi, hn⟩)))) (.modRind ..)
    exact ⟨t, ht, ho', by rw [hr]; rfl, by rw [hr]; rfl, by rw [hr]; rfl⟩
  case items =>
    obtain ⟨u, hu, hw, hq⟩ := done_sealed (s := s.heard i k) hs (lrAttempts_ne_nil (ss := s.rind.params) hx)
    have hserve : exec c s = .next (arrive op k (runRind op) s) ∧ rindServe op p (s.heard i k) = .done 0x0401 [] u := by
      simp only [List.mem_cons, List.not_mem_nil, or_false, Prod.mk.injEq] at hc
      rcases hc with ⟨rfl, rfl⟩ | ⟨rfl, rfl⟩
      · exact ⟨rfl, (if_neg (not_refused h)).trans (hu _)⟩
      · exact ⟨rfl, (if_neg (not_refused h)).trans (hu _)⟩
    obtain ⟨t, ht, ho, hr⟩ := served_rindOnly hserve.1 h hserve.2 hw
    exact ⟨t, ht, ho, by rw [hr]; exact hq.params, by rw [hr]; exact hq.paramId, by rw [hr]; exact hq.refused⟩
  case steps =>
    obtain ⟨u, hserve, hw, hq⟩ := scheduleSet_sealed (s := s.heard i k) hst hs
    obtain ⟨t, ht, ho, hr⟩ := served_rindOnly (c := .scheduleSet k) rfl h ((if_neg (not_refused h)).trans hserve) hw
    exact ⟨t, ht, ho, by rw [hr]; exact hq.accepted, by rw [hr]; exact hq.refused⟩
  case firmware =>
    obtain ⟨u, hserve, hw, hq⟩ := rindFwLoad_sealed (s := s.heard i k) (p := p) hs
    obtain ⟨t, ht, ho, hr⟩ := served_rindOnly (c := .rindFwLoad k) rfl h ((if_neg (not_refused h)).trans hserve) hw
    exact ⟨t, ht, ho, by rw [hr]; exact hq.fwImage, by rw [hr]; exact hq.nextFw⟩

/-! ### The seal -/

section
variable (r : Rind) (st : Status) (items : List (List Byte))

theorem executed_sealSt : (r.executed st items).sealSt = r.sealSt := rfl
theorem executed_sealedDig : (r.executed st items).sealedDig = r.sealedDig := rfl
theorem executed_sealedParamId : (r.executed st items).sealedParamId = r.sealedParamId := rfl
theorem executed_axc0 : (r.executed st items).axc0 = r.axc0 := rfl
theorem executed_params : (r.executed st items).params = r.params := rfl
theorem executed_paramId : (r.executed st items).paramId = r.paramId := rfl
theorem executed_refused : (r.executed st items).refused = r.refused := rfl

end

/-- A refused request for the seal leaves a record of it, and the seal as it was. -/
theorem sealRefuse_only {c : Instr} {op : Nat} {i : SessIx} {k : Packet} {p : Parsed} {s : State} {st : Status}
    (hx : exec c s = .next (arrive op k (runRind op) s)) (h : Served i op k p s) (hr : rindServe op p (s.heard i k) = sealRefuse st (s.heard i k)) :
    Completes c s fun t => RindOnly i op k st s t ∧ t.rind.sealSt = s.rind.sealSt := by
  obtain ⟨t, ht, ho, hq⟩ := served_rindOnly hx h (hr.trans rfl) (.modRind ..)
  refine ⟨t, ht, ho, ?_⟩
  rw [hq]
  exact (note_told ..).sealSt

/-- The pins follow the seal: only the links change beside it. -/
theorem syncScan_within (s : State) : Within s s.syncScan := ⟨by constructor <;> rfl, rfl⟩

/-- The Rind as SEAL leaves it. -/
def sealedRind (r : Rind) : Rind :=
  (({ r with sealSt := .sealed, sealedDig := r.swDig, sealedParamId := r.paramId } : Rind).calClose.note 0x02 1 (BitVec.ofNat 64 r.sealSt.code) 1).event 216

theorem sealedRind_effect (r : Rind) : (sealedRind r).sealSt = .sealed ∧ (sealedRind r).sealedParamId = r.paramId ∧
    (sealedRind r).sealedDig = r.swDig ∧ (sealedRind r).axc0.cal = none := by
  have h : Told ({ r with sealSt := .sealed, sealedDig := r.swDig, sealedParamId := r.paramId } : Rind).calClose (sealedRind r) :=
    (note_told ..).trans (event_told ..)
  exact ⟨h.sealSt, h.sealedParamId, h.sealedDig, by rw [h.axc0]; rfl⟩

/-- The Rind as SEAL_BREAK leaves it. -/
def brokenRind (r : Rind) : Rind :=
  (({ r with
    sealSt := .broken
    avg := r.avg.map fun a => { a with sealedAll := false }
    work := r.work.map fun w => { w with sealedAll := false } } : Rind).note 0x03 1 1 2).event 216

theorem brokenRind_sealSt (r : Rind) : (brokenRind r).sealSt = .broken := ((note_told ..).trans (event_told ..)).sealSt

/-- SEAL by the refusals in their order. -/
theorem sealSet_eq {p : Parsed} {s : State} (hh : s.rind.halted = false) : sealSet p s =
    if s.glb.variantM = false then sealRefuse 0x0118 s
    else if s.rind.sealSt = .sealed then sealRefuse 0x0402 s
    else if p.val? 0x0224 ≠ some [(s.rind.paramId.toNat : Int), (s.rind.swDig.toNat : Int)] then sealRefuse 0x021A s
    else if 4096 ≤ s.rind.unexported then sealRefuse 0x011A s
    else if thermalOk s.rind.params s.rind.accepted = false then sealRefuse 0x0217 s
    else .done 0 [] (s.modRind sealedRind).syncScan := by
  have hv : ((p.val? 0x0224).getD [] ≠ [(s.rind.paramId.toNat : Int), (s.rind.swDig.toNat : Int)]) ↔
      p.val? 0x0224 ≠ some [(s.rind.paramId.toNat : Int), (s.rind.swDig.toNat : Int)] := by
    cases p.val? 0x0224 <;> simp
  unfold sealSet
  dsimp only
  rw [hh]
  simp only [hv, Bool.false_eq_true, if_false, Bool.not_eq_true', beq_iff_eq]
  rfl

/-- SEAL_BREAK by the refusals in their order. -/
theorem sealBreak_eq {s : State} (hh : s.rind.halted = false) : sealBreak s =
    if s.rind.sealSt ≠ .sealed then sealRefuse 0x011F s
    else if 4096 ≤ s.rind.unexported then sealRefuse 0x011A s
    else if ¬ (s.aon.sealBrk = true ∧ s.aon.sealBrkSince + sec ≤ s.time.mono) then sealRefuse 0x0119 s
    else .done 0 [] (s.modRind brokenRind).syncScan := by
  unfold sealBreak
  dsimp only
  rw [hh]
  simp only [Bool.false_eq_true, if_false, Bool.not_eq_true', Bool.and_eq_false_iff, decide_eq_false_iff_not, not_and_or, Bool.not_eq_true]
  rfl

/-- Settles O20: each request by the first refusal that applies. -/
theorem sealIsSetAndBrokenAsTheTablesSay : Obligations.SealIsSetAndBrokenAsTheTablesSay := by
  unfold Obligations.SealIsSetAndBrokenAsTheTablesSay
  intro s k i p
  have hset (h : Served i 0x0706 k p s) : rindServe 0x0706 p (s.heard i k) = _ :=
    (if_neg (not_refused h)).trans (sealSet_eq (p := p) (s := s.heard i k) h.notHalted)
  have hbreak (h : Served i 0x0707 k p s) : rindServe 0x0707 p (s.heard i k) = _ :=
    (if_neg (not_refused h)).trans (sealBreak_eq (s := s.heard i k) h.notHalted)
  refine ⟨fun h hm hc hv ht => ?sealing, fun h hm => ?noMeter, fun h hm hs => ?again, fun h hm hs hv => ?values,
    fun h hm hs hv => ⟨fun hu => ?full, fun hu ht => ?thermal⟩, fun h hs hu => ?breakFull, fun h hs hu hb hl => ?breaking,
    fun h hs hu hb => ?notHeld, fun h hs => ?notSealed, fun h h1 h2 => ?ack, fun h h1 => ?noAck⟩
  case sealing =>
    have hr := (hset h).trans ((if_neg (ne_false_of_eq_true hm)).trans ((if_neg hc.1).trans
      ((if_neg (not_not.2 hv)).trans ((if_neg (not_le.2 hc.2)).trans (if_neg (ne_false_of_eq_true ht))))))
    obtain ⟨t, ht, ho, hq⟩ := served_rindOnly (c := .sealSet k) rfl h hr ((Within.modRind ..).trans (syncScan_within _))
    have hq' : t.rind = (sealedRind (s.heard i k).rind).executed 0 [] := hq
    obtain ⟨h1, h2, h3, h4⟩ := sealedRind_effect (s.heard i k).rind
    exact ⟨t, ht, ho, by rw [hq', executed_sealSt, h1], by rw [hq', executed_sealedParamId, h2]; rfl,
      by rw [hq', executed_sealedDig, h3]; rfl, by rw [hq', executed_axc0, h4]⟩
  case noMeter => exact sealRefuse_only rfl h ((hset h).trans (if_pos hm))
  case again =>
    rw [← hs]
    exact sealRefuse_only rfl h ((hset h).trans ((if_neg (ne_false_of_eq_true hm)).trans (if_pos hs)))
  case values =>
    exact sealRefuse_only rfl h ((hset h).trans ((if_neg (ne_false_of_eq_true hm)).trans
      ((if_neg hs).trans (if_pos hv))))
  case full =>
    exact sealRefuse_only rfl h ((hset h).trans ((if_neg (ne_false_of_eq_true hm)).trans
      ((if_neg hs).trans ((if_neg (not_not.2 hv)).trans (if_pos hu)))))
  case thermal =>
    exact sealRefuse_only rfl h ((hset h).trans ((if_neg (ne_false_of_eq_true hm)).trans
      ((if_neg hs).trans ((if_neg (not_not.2 hv)).trans ((if_neg (not_le.2 hu)).trans (if_pos ht))))))
  case breakFull =>
    rw [← hs]
    exact sealRefuse_only rfl h ((hbreak h).trans ((if_neg (not_not.2 hs)).trans (if_pos hu)))
  case breaking =>
    have hr := (hbreak h).trans ((if_neg (not_not.2 hs)).trans ((if_neg (not_le.2 hu)).trans (if_neg (not_not.2 ⟨hb, hl⟩))))
    obtain ⟨t, ht, ho, hq⟩ := served_rindOnly (c := .sealBreak k) rfl h hr ((Within.modRind ..).trans (syncScan_within _))
    have hq' : t.rind = (brokenRind (s.heard i k).rind).executed 0 [] := hq
    exact ⟨t, ht, ho, by rw [hq', executed_sealSt, brokenRind_sealSt]⟩
  case notHeld =>
    rw [← hs]
    refine sealRefuse_only rfl h ((hbreak h).trans ((if_neg (not_not.2 hs)).trans ((if_neg (not_le.2 hu)).trans (if_pos ?_))))
    rintro ⟨h1, h2⟩
    rcases hb with hb | hb
    · exact Bool.false_ne_true (hb.symm.trans h1)
    · exact not_le.2 hb h2
  case notSealed => exact sealRefuse_only rfl h ((hbreak h).trans (if_pos hs))
  case ack =>
    obtain ⟨t, ht, ho, hq⟩ := served_rindOnly (c := .auditAck k) rfl h ((if_neg (not_refused h)).trans
      (if_neg (not_or.2 ⟨not_lt.2 h1, not_lt.2 h2⟩))) (.modRind ..)
    exact ⟨t, ht, ho, by rw [hq]; exact (note_told ..).ackCnt⟩
  case noAck => exact served_replies rfl h.accepted h.free h.powered ((if_neg (not_refused h)).trans (if_pos h1)) (.refl _)

end Sys2Proof.Proofs

/-! SUPPORT. The system calibration of the Rind's front end, and its urgent conversions. -/

namespace Sys2Proof.Proofs

open Sys2Proof Sys2Proof.Machine Sys2Proof.Claims

/-- A calibration request keeps an open calibration from its idle timeout. -/
def touched (s : State) : State := s.modAxc0 fun a => { a with cal := a.cal.map fun o => { o with lastRequest := s.time.mono } }

theorem touched_cal (s : State) : (touched s).rind.axc0.cal = s.rind.axc0.cal.map fun o => { o with lastRequest := s.time.mono } := rfl
theorem touched_params (s : State) : (touched s).rind.params = s.rind.params := rfl

theorem Within.modAxc0 (v : State) (f : Axc0 → Axc0) : Within v (v.modAxc0 f) := Within.modRind v _
theorem touched_within (s : State) : Within s (touched s) := Within.modAxc0 s _

/-- The gate of the calibration requests. -/
theorem calGate_open {s : State} {f : State → RindRes} (h : s.rind.sealSt ≠ .sealed) : calGate s f = f (touched s) :=
  if_neg (by simpa using h)

theorem calGate_sealed {s : State} {f : State → RindRes} (h : s.rind.sealSt = .sealed) :
    calGate s f = .done 0x0401 [] (s.modRind (attempted [(0x190B, 0, 0)] s.time.mono)) := by
  unfold calGate
  rw [if_pos (by simp [h])]
  dsimp only
  rw [lrGate_sealed h (List.cons_ne_nil _ _)]

/-- CAL_BEGIN opens a calibration of values that stand. -/
theorem calBegin_ok {rc z f e : Nat} {s : State} (hc : s.rind.axc0.cal = none) (he : s.rind.params.entryOf rc = some e)
    (hf : f * 128 ≤ fullScale7 s.rind.params (entRange e)) (hz : z * 128 ≤ fullScale7 s.rind.params (entRange e))
    (hd : (fullScale7 s.rind.params (entRange e) : Int) ≤ (f : Int) * 512 - (z : Int) * 512) :
    calBegin rc z f s = (0, s.modAxc0 fun a => { a with cal := some {
      rc := rc, zNom := z, fNom := f, zMeas := none, fMeas := none, collecting := none, readings := [], bad := false,
      lastRequest := s.time.mono, caller := none } }) := by
  unfold calBegin
  dsimp only
  rw [hc, he]
  exact if_neg (by omega)

theorem calBegin_again {rc z f : Nat} {s : State} (hc : s.rind.axc0.cal ≠ none) : calBegin rc z f s = (0x011B, s) := by
  unfold calBegin
  cases h : s.rind.axc0.cal with
  | none => exact absurd h hc
  | some o => rfl

theorem calMeasure_ok {rc : Nat} {full : Bool} {s : State} {o : CalOpen} (hc : s.rind.axc0.cal = some o) (hr : o.rc = rc) :
    calMeasure rc full s = some (s.modAxc0 fun a => { a with cal := some { o with
      collecting := some full, readings := [], bad := false, lastRequest := s.time.mono } }) := by
  unfold calMeasure
  rw [hc]
  exact if_neg (not_not.2 hr)

theorem calMeasure_none {rc : Nat} {full : Bool} {s : State} (h : ∀ o, s.rind.axc0.cal = some o → o.rc ≠ rc) : calMeasure rc full s = none := by
  unfold calMeasure
  cases hc : s.rind.axc0.cal with
  | none => rfl
  | some o => exact if_pos (h o hc)

/-- The offset and gain that two sums give. -/
def calGain (o : CalOpen) (zs fs : Int) : Int := divOpen (((o.fNom : Int) - o.zNom) * 17179869184 * 4294967296) (fs - zs).toNat
def calOffset (o : CalOpen) (zs fs : Int) : Int :=
  divOpen ((zs * ((o.fNom : Int) - o.zNom) - (o.zNom : Int) * (fs - zs)) * 65536) (((o.fNom : Int) - o.zNom) * 17179869184).toNat

/-- The parameters with a calibration's offset and gain. -/
def calParams (rc : Nat) (o : CalOpen) (zs fs : Int) (ss : Settings) : Settings :=
  ss.put { kind := .rtd, inst := rc, sub := 0, code := 0x190B } [calOffset o zs fs, calGain o zs fs]

/-- The Rind with a calibration applied. -/
def calibrated (rc : Nat) (o : CalOpen) (zs fs : Int) (r : Rind) : Rind :=
  let old := rindBytes 0x190B ((r.params.rindVal .rtd rc 0x190B).getD [0, 0])
  let r1 : Rind := { r with params := calParams rc o zs fs r.params }
  let r2 : Rind := { r1 with paramId := r1.paramIdNow }
  ((r2.calClose).write 0x0D 1 0x190B 1 r.paramId (first8 old) (first8 (rindBytes 0x190B [calOffset o zs fs, calGain o zs fs]))).event 229

/-- The two sums stand when no test of R306 fails. -/
theorem calStands_iff {ss : Settings} {range z f : Nat} {zs fs : Int} : calStands ss range z f zs fs ↔
    ¬ (((fs - zs ≤ 0 ∨ ((f : Int) - z) * 17179869184 * 100 < 98 * (fs - zs)) ∨ 102 * (fs - zs) < ((f : Int) - z) * 17179869184 * 100) ∨
      (fullScale7 ss range : Int) * (((f : Int) - z) * 17179869184) < ((zs * ((f : Int) - z) - (z : Int) * (fs - zs)).natAbs : Int) * 12800) := by
  unfold calStands
  dsimp only
  rw [show ((2 : Int) ^ 34) = 17179869184 by norm_num, not_or, not_or, not_or]
  simp only [not_le, not_lt, and_assoc]

/-- CAL_APPLY with both sums, by whether they stand. -/
theorem calApply_eq {rc e : Nat} {s : State} {o : CalOpen} {zs fs : Int} (hc : s.rind.axc0.cal = some o) (hr : o.rc = rc)
    (hz : o.zMeas = some zs) (hf : o.fMeas = some fs) (he : s.rind.params.entryOf rc = some e) :
    (calStands s.rind.params (entRange e) o.zNom o.fNom zs fs → calApply rc s = (0, none, s.modRind (calibrated rc o zs fs))) ∧
    (¬ calStands s.rind.params (entRange e) o.zNom o.fNom zs fs → calApply rc s = (0x021C, some 6,
      (s.modAxc0 fun a => { a with cal := some { o with lastRequest := s.time.mono } }).modRind fun r => r.event 229)) := by
  unfold calApply
  rw [hc]
  dsimp only
  rw [hz, hf]
  dsimp only
  rw [if_neg (not_not.2 hr), he]
  dsimp only
  rw [calStands_iff]
  refine ⟨fun h => ?_, fun h => ?_⟩
  · rw [if_neg (by simpa only [Bool.or_eq_true, decide_eq_true_eq] using h)]
    simp only [State.modRind, calibrated, calParams, calGain, calOffset]
  · rw [if_pos (by simpa only [Bool.or_eq_true, decide_eq_true_eq] using not_not.1 h)]

/-- CAL_APPLY without both sums of the channel. -/
theorem calApply_none {rc : Nat} {s : State} (h : ∀ o, s.rind.axc0.cal = some o → o.rc ≠ rc ∨ o.zMeas = none ∨ o.fMeas = none) :
    calApply rc s = (0x011B, none, s) := by
  unfold calApply
  cases hc : s.rind.axc0.cal with
  | none => rfl
  | some o =>
    dsimp only
    cases hz : o.zMeas with
    | none => rfl
    | some zs =>
      cases hf : o.fMeas with
      | none => rfl
      | some fs =>
        refine if_pos ?_
        rcases h o hc with h | h | h
        · exact h
        · rw [hz] at h; cases h
        · rw [hf] at h; cases h

/-- What an applied calibration leaves. -/
theorem calibrated_effect (rc : Nat) (o : CalOpen) (zs fs : Int) (r : Rind) :
    (calibrated rc o zs fs r).axc0.cal = none ∧ (calibrated rc o zs fs r).paramId = (calibrated rc o zs fs r).paramIdNow ∧
      (calibrated rc o zs fs r).params = calParams rc o zs fs r.params := by
  have h : Told (({ r with
      params := calParams rc o zs fs r.params
      paramId := ({ r with params := calParams rc o zs fs r.params } : Rind).paramIdNow } : Rind).calClose) (calibrated rc o zs fs r) :=
    (write_told ..).trans (event_told ..)
  exact ⟨by rw [h.axc0]; rfl, h.paramId.trans h.paramIdNow.symm, h.params⟩

/-- A front-end value reads as it was set. -/
theorem rindI_put {ss : Settings} {kind : Kind} {inst code i : Nat} {v : List Int} (hv : v ≠ []) :
    (ss.put { kind := kind, inst := inst, sub := 0, code := code } v).rindI kind inst code i = v.getD i 0 := by
  unfold Settings.rindI Settings.rindVal
  rw [val?_put_self hv]

/-! ### Urgent conversions -/

theorem modRtd_urgent (a : Axc0) (c : Nat) (f : Rtd → Rtd) : (a.modRtd c f).urgent = a.urgent := by
  unfold Axc0.modRtd
  split <;> rfl

theorem startNext_urgent (a : Axc0) (ss : Settings) (t : Time) : (a.startNext ss t).urgent = a.urgent := modRtd_urgent ..

/-- An urgent conversion joins the queue while fewer than four wait. -/
theorem axc0Urgent_ok {n : Nat} {s : State} (h : s.rind.axc0.urgent.length < 4) :
    (axc0Urgent n s).1 = 0 ∧ Within s (axc0Urgent n s).2 ∧ (axc0Urgent n s).2.rind.axc0.urgent = s.rind.axc0.urgent ++ [n] := by
  unfold axc0Urgent
  dsimp only
  rw [if_neg (not_le.2 h)]
  dsimp only
  refine ⟨rfl, .modAxc0 .., ?_⟩
  simp only [State.modAxc0, State.modRind_rind]
  split
  · split
    · rw [startNext_urgent]
    · rfl
  · rfl

theorem axc0Urgent_full {n : Nat} {s : State} (h : 4 ≤ s.rind.axc0.urgent.length) : axc0Urgent n s = (0x011C, s) := if_pos h

/-- All join when there is room for all. -/
theorem urgentAll_ok {s0 : State} {ns : List Nat} {s : State} (h : s.rind.axc0.urgent.length + ns.length ≤ 4) :
    ∃ u, urgentAll s0 ns s = .done 0 [] u ∧ Within s u ∧ u.rind.axc0.urgent = s.rind.axc0.urgent ++ ns := by
  induction ns generalizing s with
  | nil => exact ⟨s, rfl, .refl s, by simp⟩
  | cons n ns ih =>
    rw [List.length_cons] at h
    obtain ⟨h0, hw, hu⟩ := axc0Urgent_ok (n := n) (s := s) (by omega)
    obtain ⟨u, he, hw2, hu2⟩ := ih (s := (axc0Urgent n s).2) (by rw [hu]; simp; omega)
    refine ⟨u, ?_, hw.trans hw2, by rw [hu2, hu]; simp⟩
    unfold urgentAll
    dsimp only
    rw [if_pos h0, he]

/-- None joins otherwise. -/
theorem urgentAll_full {s0 : State} {ns : List Nat} {s : State} (hn : ns ≠ []) (h : 4 < s.rind.axc0.urgent.length + ns.length) :
    urgentAll s0 ns s = .done 0x011C [] s0 := by
  induction ns generalizing s with
  | nil => exact absurd rfl hn
  | cons n ns ih =>
    unfold urgentAll
    dsimp only
    by_cases h4 : 4 ≤ s.rind.axc0.urgent.length
    · rw [axc0Urgent_full h4]
      rfl
    · obtain ⟨h0, _, hu⟩ := axc0Urgent_ok (n := n) (s := s) (by omega)
      rw [List.length_cons] at h
      rw [if_pos h0]
      refine ih (fun he => ?_) (by rw [hu]; simp; omega)
      rw [he] at h
      simp at h
      omega

/-! ### Requests that wait -/

/-- A request that waits stays in the slot and in progress. -/
theorem served_waits {c : Instr} {op : Nat} {i : SessIx} {k : Packet} {p : Parsed} {s u : State}
    (hx : exec c s = .next (arrive op k (runRind op) s)) (h : Served i op k p s) (hr : rindServe op p (s.heard i k) = .waits u)
    (hu : Within (s.heard i k) u) : Completes c s fun t => SameWork { s with rind := t.rind } t ∧
      t.rind = u.rind.post (i, BitVec.ofNat 16 op, k) ∧ t.sessions[i].inProgress = some (BitVec.ofNat 16 op, k) := by
  have ha := arrive_run i op k p (runRind op) s h.accepted
  rw [runRind_served (s := s.heard i k) h.free h.powered, hr] at ha
  refine ⟨_, hx.trans (congrArg _ ha), ?_, rfl, by rw [modSess_get]⟩
  have hw := hu.work
  exact ⟨hw.pending, hw.free, hw.time, hw.glb, hw.settings, hw.commits, hw.ports, hw.lanes, hw.pipes, hw.sdc, hw.shut, hw.emOn, hw.clk, hw.tiu,
    hw.axc1, rfl, hw.rindMain, hw.engines, hw.images, hw.loads, hw.press, hw.jobs, hw.savedJobs, hw.hostArea, hw.zones, hw.ladle, hw.boot, hw.aon⟩

/-- Settles O21: each request by the gate, then by what its calibration holds. -/
theorem calibrationRequestsAct : Obligations.CalibrationRequestsAct := by
  unfold Obligations.CalibrationRequestsAct
  intro s k i p rc hrc
  subst hrc
  have gate {op : Nat} {f : State → RindRes} (h : Served i op k p s) (hs : s.rind.sealSt ≠ .sealed)
      (hop : rindServe op p (s.heard i k) = calGate (s.heard i k) f) : rindServe op p (s.heard i k) = f (touched (s.heard i k)) :=
    hop.trans (calGate_open hs)
  have shut {c : Instr} {op : Nat} {f : State → RindRes} (hx : exec c s = .next (arrive op k (runRind op) s)) (h : Served i op k p s)
      (hs : s.rind.sealSt = .sealed) (hop : rindServe op p (s.heard i k) = calGate (s.heard i k) f) :
      Completes c s fun t => RindOnly i op k 0x0401 s t ∧ t.rind.axc0 = s.rind.axc0 ∧ t.rind.refused = s.rind.refused + 1 := by
    obtain ⟨t, ht, ho, hq⟩ := served_rindOnly hx h (hop.trans (calGate_sealed hs)) (.modRind ..)
    have ha := attempted_told [(0x190B, 0, 0)] s.time.mono s.rind
    exact ⟨t, ht, ho, by rw [hq, executed_axc0]; exact ha.axc0, by rw [hq, executed_refused]; exact ha.refused⟩
  have hT : Within (s.heard i k) (touched (s.heard i k)) := touched_within _
  refine ⟨fun h hs hc e z f he hv hf hz hd => ?begins, fun h hs hc => ?again, fun c op full hc h hs => ?measure,
    fun o zs fs e h hs hc hr hz hf he => ?apply, fun h hs hn => ?noApply, fun c op hc h hs => ?sealed, fun h hc => ?cancel, fun h hc => ?noCancel,
    fun h hl => ?urgent, fun h hn hl => ?noUrgent⟩
  case begins =>
    have hr := gate h hs ((if_neg (not_refused h)).trans rfl)
    have hcal : (touched (s.heard i k)).rind.axc0.cal = none := by rw [touched_cal, show (s.heard i k).rind.axc0.cal = none from hc]; rfl
    have hb := calBegin_ok (s := touched (s.heard i k)) hcal he hf hz hd
    have hz' : (([(z : Int), (f : Int)] : List Int).getD 0 0).toNat = z := Int.toNat_natCast z
    have hf' : (([(z : Int), (f : Int)] : List Int).getD 1 0).toNat = f := Int.toNat_natCast f
    dsimp only at hr
    rw [hv, Option.getD_some, hz', hf', hb] at hr
    dsimp only at hr
    obtain ⟨t, ht, ho, hq⟩ := served_rindOnly (c := .calBegin k) rfl h hr (hT.trans (.modAxc0 ..))
    exact ⟨t, ht, ho, _, by rw [hq, executed_axc0]; rfl, rfl, rfl, rfl, rfl, rfl⟩
  case again =>
    have hr := gate h hs ((if_neg (not_refused h)).trans rfl)
    have hcal : (touched (s.heard i k)).rind.axc0.cal ≠ none := fun hn => hc (Option.map_eq_none_iff.1 hn)
    dsimp only at hr
    rw [calBegin_again hcal] at hr
    obtain ⟨t, ht, ho, hq⟩ := served_rindOnly (c := .calBegin k) rfl h hr hT
    exact ⟨t, ht, ho, by rw [hq, executed_axc0, touched_cal]; rfl⟩
  case measure =>
    have hrow : exec c s = .next (arrive op k (runRind op) s) ∧ rindServe op p (s.heard i k) = calGate (s.heard i k) fun t =>
        match calMeasure ((p.named 0x0107).headD 0) full t with | some u => .waits u | none => .done 0x011B [] t := by
      simp only [List.mem_cons, List.not_mem_nil, or_false, Prod.mk.injEq] at hc
      rcases hc with ⟨rfl, rfl, rfl⟩ | ⟨rfl, rfl, rfl⟩
      · exact ⟨rfl, (if_neg (not_refused h)).trans rfl⟩
      · exact ⟨rfl, (if_neg (not_refused h)).trans rfl⟩
    have hr := gate h hs hrow.2
    refine ⟨fun o ho hoc => ?_, fun hn => ?_⟩
    · have hcal : (touched (s.heard i k)).rind.axc0.cal = some { o with lastRequest := s.time.mono } := by
        rw [touched_cal, show (s.heard i k).rind.axc0.cal = some o from ho]
        rfl
      rw [calMeasure_ok hcal hoc] at hr
      obtain ⟨t, ht, hw, hq, hp⟩ := served_waits hrow.1 h hr (hT.trans (.modAxc0 ..))
      exact ⟨t, ht, hw, by rw [hq]; rfl, by rw [hq]; rfl, hp, by rw [hq]; rfl⟩
    · have hcal : ∀ o, (touched (s.heard i k)).rind.axc0.cal = some o → o.rc ≠ (p.named 0x0107).headD 0 := by
        intro o ho
        rw [touched_cal, Option.map_eq_some_iff] at ho
        obtain ⟨x, hx, rfl⟩ := ho
        exact hn x hx
      rw [calMeasure_none hcal] at hr
      obtain ⟨t, ht, ho, hq⟩ := served_rindOnly hrow.1 h hr hT
      exact ⟨t, ht, ho, by rw [hq, executed_axc0, touched_cal]; rfl⟩
  case apply =>
    have hserve := gate h hs ((if_neg (not_refused h)).trans rfl)
    have hcal : (touched (s.heard i k)).rind.axc0.cal = some { o with lastRequest := s.time.mono } := by
      rw [touched_cal, show (s.heard i k).rind.axc0.cal = some o from hc]
      rfl
    obtain ⟨hyes, hno⟩ := calApply_eq (s := touched (s.heard i k)) hcal hr hz hf he
    dsimp only at hserve
    refine ⟨fun hst => ?_, fun hst => ?_⟩
    · rw [hyes hst] at hserve
      obtain ⟨t, ht, ho, hq⟩ := served_rindOnly (c := .calApply k) rfl h hserve (hT.trans (.modRind ..))
      have hq' : t.rind = (calibrated ((p.named 0x0107).headD 0) { o with lastRequest := s.time.mono } zs fs
        (touched (s.heard i k)).rind).executed 0 [] := hq
      obtain ⟨h1, h2, h3⟩ := calibrated_effect ((p.named 0x0107).headD 0) { o with lastRequest := s.time.mono } zs fs (touched (s.heard i k)).rind
      refine ⟨t, ht, ho, by rw [hq', executed_axc0, h1], by rw [hq', executed_paramId, executed_paramIdNow, h2], ?_⟩
      rw [hq', executed_params, h3]
      refine (rindI_put (List.cons_ne_nil _ _)).trans ?_
      rw [show ((2 : Int) ^ 66) = 17179869184 * 4294967296 by norm_num, ← mul_assoc]
      rfl
    · rw [hno hst] at hserve
      dsimp only at hserve
      obtain ⟨t, ht, ho, hq⟩ := served_rindOnly (c := .calApply k) rfl h hserve (hT.trans ((Within.modAxc0 ..).trans (.modRind ..)))
      have hq' : t.rind = (((touched (s.heard i k)).modAxc0 fun a => { a with cal := some { o with lastRequest := s.time.mono } }).rind.event
        229).executed 0x021C [reasonItem 6] := hq
      exact ⟨t, ht, ho, by rw [hq', executed_params, (event_told ..).params]; rfl, by rw [hq', executed_axc0, (event_told ..).axc0]; rfl⟩
  case noApply =>
    have hr := gate h hs ((if_neg (not_refused h)).trans rfl)
    have hcal : ∀ o, (touched (s.heard i k)).rind.axc0.cal = some o → o.rc ≠ (p.named 0x0107).headD 0 ∨ o.zMeas = none ∨ o.fMeas = none := by
      intro o ho
      rw [touched_cal, Option.map_eq_some_iff] at ho
      obtain ⟨x, hx, rfl⟩ := ho
      exact hn x hx
    dsimp only at hr
    rw [calApply_none hcal] at hr
    obtain ⟨t, ht, ho, hq⟩ := served_rindOnly (c := .calApply k) rfl h hr hT
    exact ⟨t, ht, ho, by rw [hq, executed_params]; rfl, by rw [hq, executed_axc0, touched_cal]; rfl⟩
  case sealed =>
    simp only [List.mem_cons, List.not_mem_nil, or_false, Prod.mk.injEq] at hc
    rcases hc with ⟨rfl, rfl⟩ | ⟨rfl, rfl⟩ | ⟨rfl, rfl⟩ | ⟨rfl, rfl⟩
    · exact shut rfl h hs ((if_neg (not_refused h)).trans rfl)
    · exact shut rfl h hs ((if_neg (not_refused h)).trans rfl)
    · exact shut rfl h hs ((if_neg (not_refused h)).trans rfl)
    · exact shut rfl h hs ((if_neg (not_refused h)).trans rfl)
  case cancel =>
    obtain ⟨o, ho⟩ := Option.ne_none_iff_exists'.1 hc
    have hr : rindServe 0x070F p (s.heard i k) = .done 0 [] ((s.heard i k).modRind Rind.calClose) := by
      refine (if_neg (not_refused h)).trans ?_
      rw [show (s.heard i k).rind.axc0.cal = some o from ho]
    exact served_replies rfl h.accepted h.free h.powered hr (.modRind ..)
  case noCancel =>
    have hr : rindServe 0x070F p (s.heard i k) = .done 0x011B [] (s.heard i k) := by
      refine (if_neg (not_refused h)).trans ?_
      rw [show (s.heard i k).rind.axc0.cal = none from hc]
    exact served_replies rfl h.accepted h.free h.powered hr (.refl _)
  case urgent =>
    obtain ⟨u, hu, hw, hq⟩ := urgentAll_ok (s0 := s.heard i k) (s := s.heard i k) hl
    obtain ⟨t, ht, ho, hr⟩ := served_rindOnly (c := .axc0Urgent k) rfl h ((if_neg (not_refused h)).trans hu) hw
    exact ⟨t, ht, ho, by rw [hr, executed_axc0, hq]; rfl⟩
  case noUrgent =>
    exact served_replies rfl h.accepted h.free h.powered ((if_neg (not_refused h)).trans (urgentAll_full hn hl)) (.refl _)

end Sys2Proof.Proofs

/-! SUPPORT. The Rind's schedule: what each row of a switch-schedule step and of an average leaves. -/

namespace Sys2Proof.Proofs

open Sys2Proof Sys2Proof.Machine Sys2Proof.Claims

theorem until_mono (s : State) (t : Time) : (s.until t).time.mono = max s.time.mono t := by
  exact (Nat.add_comm ..).trans ((Nat.sub_add_eq_max t s.time.mono).trans (Nat.max_comm ..))

theorem le_until_mono (s : State) (t : Time) : t ≤ (s.until t).time.mono := until_mono s t ▸ Nat.le_max_right ..

section
variable {r q : Rind} (h : Told r q)
include h

theorem Told.step : q.step = r.step := by obtain ⟨_, _, _, _, _, _, _, _, rfl⟩ := h; rfl
theorem Told.schedule : q.schedule = r.schedule := by obtain ⟨_, _, _, _, _, _, _, _, rfl⟩ := h; rfl
theorem Told.nextSchedule : q.nextSchedule = r.nextSchedule := by obtain ⟨_, _, _, _, _, _, _, _, rfl⟩ := h; rfl
theorem Told.phase : q.phase = r.phase := by obtain ⟨_, _, _, _, _, _, _, _, rfl⟩ := h; rfl
theorem Told.stepStart : q.stepStart = r.stepStart := by obtain ⟨_, _, _, _, _, _, _, _, rfl⟩ := h; rfl
theorem Told.averagesDone : q.averagesDone = r.averagesDone := by obtain ⟨_, _, _, _, _, _, _, _, rfl⟩ := h; rfl
theorem Told.avg : q.avg = r.avg := by obtain ⟨_, _, _, _, _, _, _, _, rfl⟩ := h; rfl
theorem Told.oswPort : q.oswPort = r.oswPort := by obtain ⟨_, _, _, _, _, _, _, _, rfl⟩ := h; rfl
theorem Told.work : q.work = r.work := by obtain ⟨_, _, _, _, _, _, _, _, rfl⟩ := h; rfl
theorem Told.chanSeq : q.chanSeq = r.chanSeq := by obtain ⟨_, _, _, _, _, _, _, _, rfl⟩ := h; rfl
theorem Told.inhibit : q.inhibit = r.inhibit := by obtain ⟨_, _, _, _, _, _, _, _, rfl⟩ := h; rfl
theorem Told.tpg : q.tpg = r.tpg := by obtain ⟨_, _, _, _, _, _, _, _, rfl⟩ := h; rfl
theorem Told.holdUntil : q.holdUntil = r.holdUntil := by obtain ⟨_, _, _, _, _, _, _, _, rfl⟩ := h; rfl

end

/-! ### Steps -/

/-- The Rind at the start of a step, before ANNOUNCE is sent. -/
def stepBegun (r : Rind) (now : Time) (sch : List SchedStep) (i : Nat) : Rind :=
  { r with schedule := sch, nextSchedule := none, step := i, phase := .announced, stepStart := now, averagesDone := 0,
           avg := none, annAcked := false, parked := Vector.replicate 4 false }

theorem beginStep_told (s : State) (sch : List SchedStep) (i : Nat) :
    ∃ q, Told (stepBegun s.rind s.time.mono sch i) q ∧ s.beginStep sch i = s.modRind fun _ => { q with annSeq := q.rpSeq } :=
  ⟨_, send_told _ 0xFF (.announce i (stepBegun s.rind s.time.mono sch i).stepNow.ports (stepBegun s.rind s.time.mono sch i).time), rfl⟩

/-- A step begins announced, at this instant, with no average done. -/
theorem beginStep_effect (s : State) (sch : List SchedStep) (i : Nat) :
    (s.beginStep sch i).rind.step = i ∧ (s.beginStep sch i).rind.schedule = sch ∧ (s.beginStep sch i).rind.nextSchedule = none ∧
      (s.beginStep sch i).rind.phase = .announced ∧ (s.beginStep sch i).rind.stepStart = s.time.mono ∧
      (s.beginStep sch i).rind.averagesDone = 0 := by
  obtain ⟨q, h, he⟩ := beginStep_told s sch i
  rw [he]
  exact ⟨h.step, h.schedule, h.nextSchedule, h.phase, h.stepStart, h.averagesDone⟩

/-- A step that may end begins the next of its schedule, or step 0 of a new one. -/
theorem stepEnd_between {s : State} (hr : s.rind.running = true) (hp : s.rind.phase ≠ .announced) (ha : s.rind.avg = none) :
    ∃ u : State, u.ports = s.ports ∧ stepEnd s = match s.rind.nextSchedule with
      | some sch => u.beginStep sch 0
      | none => u.beginStep s.rind.schedule ((s.rind.step + 1) % max 1 s.rind.schedule.length) := by
  have h : ¬ (!s.rind.running || s.rind.phase == .announced || s.rind.avg.isSome) = true := by simp [hr, hp, ha]
  unfold stepEnd
  extract_lets r s1
  rw [if_neg h]
  refine ⟨s1, ?_, rfl⟩
  exact (apply_ite State.ports ..).trans ((congrArg (ite _ _) (State.until_ports s _)).trans (ite_self _))

/-- The four strobes, channel 0 first. -/
theorem strobes_effect (s : State) (port : Nat → Nat) :
    (forEach [0, 1, 2, 3] (fun c t => t.strobe c (port c)) s).out = s.out ++ (List.range 4).map (fun c => Output.strobe c (port c)) ∧
      (forEach [0, 1, 2, 3] (fun c t => t.strobe c (port c)) s).rind.oswPort.toList = (List.range 4).map port := by
  refine ⟨?_, ?_⟩
  · simp [forEach, State.strobe, State.emit, State.modRind, List.range, List.range.loop]
  · rcases s with ⟨⟩
    refine List.ext_getElem (by simp) fun n h1 h2 => ?_
    have hn : n < 4 := by simpa using h2
    have : n = 0 ∨ n = 1 ∨ n = 2 ∨ n = 3 := by omega
    rcases this with rfl | rfl | rfl | rfl <;> simp [forEach, State.strobe, State.emit, State.modRind]

/-- The Rind once the switch has settled: SWITCHED is sent, and EV225. -/
def settling (x : Rind) : Rind := (({ x with phase := .settling } : Rind).send 0xFF (.switched x.step x.stepNow.ports x.time)).event 225

theorem settling_told (x : Rind) : Told { x with phase := .settling } (settling x) := (send_told ..).trans (event_told ..)

theorem settling_effect (u : State) (t : Time) :
    ((u.until t).modRind settling).rind.phase = .settling ∧ ((u.until t).modRind settling).out = u.out ∧
      ((u.until t).modRind settling).rind.oswPort = u.rind.oswPort ∧ t ≤ ((u.until t).modRind settling).time.mono :=
  ⟨(settling_told _).phase, rfl, (settling_told _).oswPort, le_until_mono u t⟩

/-- An announced step strobes its channels, then settles. -/
theorem switchStrobes_due {s : State} (hr : s.rind.running = true) (hp : s.rind.phase = .announced) :
    switchStrobes s = ((forEach [0, 1, 2, 3] (fun c t => t.strobe c (s.rind.stepNow.ports.getD c 31))
      (s.until (s.rind.stepStart + ms))).until (s.rind.stepStart + 1012 * us)).modRind settling := by
  have h : ¬ (!s.rind.running || decide (s.rind.phase ≠ .announced)) = true := by simp [hr, hp]
  exact if_neg h

/-! ### Averages -/

/-- `t` is `s` after profiles were queued and channels parked: the other parts of the Rind, and time, stay. -/
structure Profiled (s t : State) : Prop where
  time : t.time = s.time
  avg : t.rind.avg = s.rind.avg
  phase : t.rind.phase = s.rind.phase
  averagesDone : t.rind.averagesDone = s.rind.averagesDone
  chanSeq : t.rind.chanSeq = s.rind.chanSeq
  inhibit : t.rind.inhibit = s.rind.inhibit
  tpg : t.rind.tpg = s.rind.tpg

theorem Profiled.refl (s : State) : Profiled s s := ⟨rfl, rfl, rfl, rfl, rfl, rfl, rfl⟩

theorem Profiled.trans {s t u : State} (h : Profiled s t) (k : Profiled t u) : Profiled s u :=
  ⟨k.time.trans h.time, k.avg.trans h.avg, k.phase.trans h.phase, k.averagesDone.trans h.averagesDone, k.chanSeq.trans h.chanSeq,
    k.inhibit.trans h.inhibit, k.tpg.trans h.tpg⟩

theorem Profiled.ite {s t u : State} {c : Prop} [Decidable c] (ht : Profiled s t) (hu : Profiled s u) : Profiled s (if c then t else u) := by
  split
  · exact ht
  · exact hu

theorem strobe_profiled (s : State) (c port : Nat) : Profiled s (s.strobe c port) := by constructor <;> rfl

theorem parked_profiled (s : State) (f : Vector Bool 4 → Vector Bool 4) :
    Profiled s (s.modRind fun r => { r with parked := f r.parked }) := by constructor <;> rfl

theorem queued_profiled (s : State) (n : Nat) (av : Average) (c p : Nat) (bs : List Byte) (f : Vector Nat 4 → Vector Nat 4) :
    Profiled s (({ s with free := n } : State).modRind fun r => { r.queueProfile av c p bs with endT := f r.endT }) := by constructor <;> rfl

theorem profileFull_profiled (s : State) (av : Average) (c p : Nat) (short inh : Bool) : Profiled s (s.profileFull av c p short inh) :=
  .ite (.trans (.trans (queued_profiled s _ av c p _ fun v => if h : c < 4 then v.set c _ else v)
    (parked_profiled _ fun v => if h : c < 4 then v.set c true else v)) (strobe_profiled ..))
    (queued_profiled s _ av c p _ fun v => if h : c < 4 then v.set c _ else v)

theorem profileEmpty_profiled (s : State) (av : Average) (c p : Nat) : Profiled s (s.profileEmpty av c p) := ⟨rfl, rfl, rfl, rfl, rfl, rfl, rfl⟩

theorem forEach_profiled {f : Nat → State → State} (hf : ∀ n s, Profiled s (f n s)) (l : List Nat) (s : State) : Profiled s (forEach l f s) := by
  induction l generalizing s with
  | nil => exact .refl s
  | cons n l ih => exact (hf n s).trans (ih (f n s))

/-- An average that ends leaves none, and one more done. -/
theorem endAverage_profiled (s : State) (av : Average) (short inh : Bool) :
    Profiled (s.modRind fun x => { x with avg := none, phase := .waiting, averagesDone := x.averagesDone + 1 }) (s.endAverage av short inh) := by
  refine forEach_profiled (fun c t => ?_) _ _
  dsimp only
  split
  · exact .refl t
  · split
    · exact profileEmpty_profiled ..
    · exact profileFull_profiled ..

/-- What a list keeps at an index of its `zipIdx.map`. -/
theorem zipIdx_map_getD {α β : Type} (l : List α) (g : α × Nat → β) (d : α) (e : β) {n : Nat} (h : n < l.length) :
    (l.zipIdx.map g).getD n e = g (l.getD n d, n) := by
  simp [List.getD_eq_getElem?_getD, h]

theorem shot_effect (d : ShotData) {s : State} {a : Average} (ha : s.rind.avg = some a) (hr : s.rind.running = true)
    (hn : a.shots < a.params.thDev 0x1404) :
    ∃ b, (shot d s).rind.avg = some b ∧ b.shots = a.shots + 1 ∧ b.start = a.start ∧ b.params = a.params ∧
      b.tLast = (shot d s).rind.time ∧ (shot d s).out = s.out ++ [.tpg (a.params.thDev 0x1401 * 4 * ns)] ∧
      (shot d s).time.mono = max s.time.mono (a.start + a.shots * shotPer a.params) ∧
      b.acc = a.acc.zipIdx.map fun li => li.1.zipIdx.map fun xi => xi.1 + (d.lanes.getD li.2 []).getD xi.2 0 % 16384 := by
  unfold shot
  rw [ha]
  dsimp only
  rw [if_neg (by simp [hr]; omega)]
  exact ⟨_, rfl, rfl, rfl, rfl, rfl, rfl, until_mono .., rfl⟩

/-! ### The inhibit -/

/-- The assertion counts in the newest record, or is noted by a new one. -/
theorem asserted_told (again : Bool) (x : Rind) :
    Told { x with inhibit := true, tpg := false } (if again then { x with inhibit := true, tpg := false, audit := bumpInhibit x.audit }
      else ({ x with inhibit := true, tpg := false } : Rind).note 0x07 3 0 0) :=
  .ite ⟨_, _, _, _, _, _, _, _, rfl⟩ (note_told ..)

/-- The assertion, as the Rind records it before an average that runs is ended. -/
theorem ramanInhibitAssert_asserts {s : State} (hp : s.rind.powered = true) (ho : s.rind.inhibitOuter = true) (hi : s.rind.inhibit = false) :
    ∃ u : State, u.time = s.time ∧ u.rind.inhibit = true ∧ u.rind.tpg = false ∧ u.rind.avg = s.rind.avg ∧
      ramanInhibitAssert s = match s.rind.avg with
        | none => u
        | some a => u.endAverage a (decide (0 < a.shots) && decide (a.params.thDev 0x1404 * a.params.thDev 0x140B ≤ a.shots * 256)) true := by
  unfold ramanInhibitAssert
  extract_lets r again s1
  rw [if_neg (by simp [r, hp, ho, hi])]
  have h := asserted_told again s.rind
  exact ⟨s1, rfl, h.inhibit, h.tpg, h.avg, rfl⟩

/-- Settles O23: each row either begins a step, moves the average, or queues profiles, and what it leaves is read off the message it sends. -/
theorem thermalScheduleRuns : Obligations.ThermalScheduleRuns := by
  intro s
  refine ⟨fun hr hp ha hn => ⟨_, rfl, ?_⟩, fun sch hr hp ha hn => ⟨_, rfl, ?_⟩, fun hr hp => ⟨_, rfl, ?_⟩,
    fun hr hp ha hk hi hd ht hl => ⟨_, rfl, ?_⟩, fun d a ha hr hn => ⟨_, rfl, ?_⟩, fun a ha hr hn => ⟨_, rfl, ?_⟩,
    fun c w hw hp hh => ⟨_, rfl, ?_⟩, fun hp ho hi => ⟨_, rfl, ?_⟩, fun hp ho hi => ⟨_, rfl, ?_⟩⟩
  · obtain ⟨u, hu, he⟩ := stepEnd_between hr hp ha
    rw [hn] at he
    obtain ⟨h1, h2, h3, h4, h5, h6⟩ := beginStep_effect u s.rind.schedule ((s.rind.step + 1) % max 1 s.rind.schedule.length)
    rw [he]
    exact ⟨h1, h2, h4, h5, h6, hu⟩
  · obtain ⟨u, hu, he⟩ := stepEnd_between hr hp ha
    rw [hn] at he
    obtain ⟨h1, h2, h3, h4, h5, h6⟩ := beginStep_effect u sch 0
    rw [he]
    exact ⟨h1, h2, h3, h4⟩
  · rw [switchStrobes_due hr hp]
    obtain ⟨h1, h2⟩ := strobes_effect (s.until (s.rind.stepStart + ms)) fun c => s.rind.stepNow.ports.getD c 31
    obtain ⟨h3, h4, h5, h6⟩ := settling_effect (forEach [0, 1, 2, 3] (fun c t => t.strobe c (s.rind.stepNow.ports.getD c 31))
      (s.until (s.rind.stepStart + ms))) (s.rind.stepStart + 1012 * us)
    rw [State.until_out] at h1
    exact ⟨h3, h4.trans h1, (congrArg Vector.toList h5).trans h2, h6⟩
  · unfold averageStart
    dsimp only
    rw [if_pos (by simp [hr, hp, ha, hk, hi, hd, ht, hl])]
    generalize max s.time.mono _ = at0
    exact ⟨rfl, rfl, _, rfl, rfl, rfl, rfl, rfl, beq_eq_decide ..⟩
  · obtain ⟨b, h1, h2, h3, h4, h5, h6, h7, h8⟩ := shot_effect d ha hr hn
    refine ⟨b, h1, h2, h3, h4, h5, h6, h7, fun l n hl hn => ?_⟩
    rw [h8, zipIdx_map_getD _ _ [] _ hl, zipIdx_map_getD _ _ 0 _ hn]
  · unfold averageEnd
    rw [ha]
    dsimp only
    rw [if_neg (by simp [hr]; omega)]
    generalize a.start + tAvg a.params = t1
    have h := endAverage_profiled (s.until t1) a false false
    exact ⟨h.avg, h.phase, h.averagesDone, h.time ▸ until_mono .., h.chanSeq⟩
  · unfold profileIssue
    rw [hw]
    dsimp only
    rw [if_neg (by simp [hp, hh])]
    have h : ∀ (x : Rind) b, Told x ((x.send c.val b).event 219) := fun x b => (send_told ..).trans (event_told ..)
    exact ⟨(h _ _).work, (h _ _).chanSeq, by constructor <;> rfl⟩
  · obtain ⟨u, ht, h1, h2, h3, he⟩ := ramanInhibitAssert_asserts hp ho hi
    rw [he]
    cases ha : s.rind.avg with
    | none => exact ⟨h1, h2, h3.trans ha, ht⟩
    | some a =>
      have h := endAverage_profiled u a (decide (0 < a.shots) && decide (a.params.thDev 0x1404 * a.params.thDev 0x140B ≤ a.shots * 256)) true
      exact ⟨h.inhibit.trans h1, h.tpg.trans h2, h.avg, h.time.trans ht⟩
  · unfold ramanInhibitRelease
    dsimp only
    rw [if_neg (by simp [hp, ho, hi])]
    exact ⟨(note_told ..).inhibit, (note_told ..).holdUntil, (note_told ..).avg, by constructor <;> rfl⟩

end Sys2Proof.Proofs

/-! SUPPORT. The results path at the main side: how a message is taken in, and what its row does with it. -/

namespace Sys2Proof.Proofs

open Sys2Proof Sys2Proof.Machine Sys2Proof.Claims

/-! ### Folds over the ports -/

theorem modPort_at (s : State) (p q : PortIx) (f : Port → Port) :
    (s.modPort p f).ports[q] = if q = p then f s.ports[q] else s.ports[q] := by
  rw [State.modPort_ports, Fin.getElem_fin, Vector.getElem_set]
  by_cases h : q = p
  · subst h
    simp
  · rw [if_neg h, if_neg (fun e => h (Fin.ext e.symm))]
    rfl

/-- A fold over the ports whose step at `p` changes port `p` only. -/
theorem forPorts_at {g : PortIx → State → State} {h : PortIx → Port → Port}
    (hg : ∀ p u q, (g p u).ports[q] = if q = p then h p u.ports[q] else u.ports[q]) (s : State) (q : PortIx) :
    (s.forPorts g).ports[q] = h q s.ports[q] := by
  have key : ∀ (l : List PortIx) (u : State), l.Nodup →
      (l.foldl (fun t p => g p t) u).ports[q] = if q ∈ l then h q u.ports[q] else u.ports[q] := by
    intro l
    induction l with
    | nil => intro u _; rfl
    | cons p l ih =>
      intro u hl
      obtain ⟨hp, hl⟩ := List.nodup_cons.mp hl
      rw [List.foldl_cons, ih _ hl, hg]
      by_cases hq : q = p
      · subst hq
        rw [if_neg hp, if_pos rfl, if_pos List.mem_cons_self]
      · simp [hq]
  rw [State.forPorts, key _ _ (List.nodup_finRange 24), if_pos (List.mem_finRange q)]

/-- What every step of a fold over the ports keeps, the fold keeps. -/
theorem forPorts_keeps {α : Type} (π : State → α) {g : PortIx → State → State} (hg : ∀ p u, π (g p u) = π u) (s : State) :
    π (s.forPorts g) = π s := by
  rw [State.forPorts]
  induction List.finRange 24 generalizing s with
  | nil => rfl
  | cons p l ih => exact (ih _).trans (hg p s)

/-! ### A message is taken in -/

/-- The Rind after the acknowledgement of message `x`, its arrival `m`, at `now`. -/
def acked (m : RpArrival) (x : RpMsg) (now : Time) (r0 : Rind) : Rind :=
  let r := r0.offLine x
  { r with
    unacked := r.unacked.filter fun y => y.seq != m.seq
    ackWord := m.seq, ackLate := r.ackLate || decide (r.ackAt + sec ≤ now), ackAt := now
    annAcked := r.annAcked || r.annSeq == m.seq }

/-- The state once message `x` is acknowledged. -/
def acknowledged (m : RpArrival) (x : RpMsg) (s : State) : State := s.modRind (acked m x s.time.mono)

/-- The state once message `x`, received for the first time, is noted. -/
def takenIn (m : RpArrival) (x : RpMsg) (s : State) : State :=
  (acknowledged m x s).modRm fun q => { q with lastSeq := some m.seq, seen := q.seen ++ [m.seq] }

/-- What `receive` answers for the first message on the wire, when its row names it. -/
theorem receive_named {kind : Nat} {m : RpArrival} {x : RpMsg} {s : State} (hw : s.rind.wire.head? = some x) (hs : x.seq = m.seq)
    (hk : x.body.kind = kind) :
    receive kind m s = if s.boot.inReset || !m.crcOk then (none, s.modRind fun r => r.offLine x)
      else if s.rindMain.seen.contains m.seq then (none, acknowledged m x s) else (some x, takenIn m x s) := by
  have h : s.rind.wire.head?.filter (fun x => x.seq == m.seq && x.body.kind == kind) = some x := by
    rw [hw]
    simp [Option.filter, hs, hk]
  unfold receive
  rw [h]
  rfl

theorem receive_first {kind : Nat} {m : RpArrival} {x : RpMsg} {s : State} (h : Arrives kind m x s) :
    receive kind m s = (some x, takenIn m x s) := by
  rw [receive_named h.wire h.seq h.kind, if_neg (by simp [h.up, h.crc]), if_neg (by simp [h.first])]

/-! ### The rows -/

/-- `v` is `t` after a message's work: the acknowledgement, the line and what was received stand as they did. -/
structure Delivered (t v : State) : Prop where
  ackWord : v.rind.ackWord = t.rind.ackWord
  unacked : v.rind.unacked = t.rind.unacked
  wire : v.rind.wire = t.rind.wire
  lastSeq : v.rindMain.lastSeq = t.rindMain.lastSeq
  seen : v.rindMain.seen = t.rindMain.seen
  time : v.time = t.time

theorem Delivered.refl (t : State) : Delivered t t := ⟨rfl, rfl, rfl, rfl, rfl, rfl⟩

theorem Delivered.trans {t u v : State} (h : Delivered t u) (k : Delivered u v) : Delivered t v :=
  ⟨k.ackWord.trans h.ackWord, k.unacked.trans h.unacked, k.wire.trans h.wire, k.lastSeq.trans h.lastSeq, k.seen.trans h.seen,
    k.time.trans h.time⟩

theorem Delivered.of_same {t v : State} (h : SameWork t v) : Delivered t v := by
  constructor
  · rw [h.rind]
  · rw [h.rind]
  · rw [h.rind]
  · rw [h.rindMain]
  · rw [h.rindMain]
  · rw [h.time]

theorem driveInhibit_delivered (t : State) : Delivered t t.driveInhibit := ⟨rfl, rfl, rfl, rfl, rfl, rfl⟩

theorem forPorts_delivered {g : PortIx → State → State} (hr : ∀ p u, (g p u).rind = u.rind) (hm : ∀ p u, (g p u).rindMain = u.rindMain)
    (ht : ∀ p u, (g p u).time = u.time) (t : State) : Delivered t (t.forPorts g) := by
  have h1 := forPorts_keeps State.rind hr t
  have h2 := forPorts_keeps State.rindMain hm t
  exact ⟨by rw [h1], by rw [h1], by rw [h1], by rw [h2], by rw [h2], forPorts_keeps State.time ht t⟩

theorem forwardProfiles_delivered (n : Nat) (s : State) : Delivered s (forwardProfiles n s) := by
  induction n generalizing s with
  | zero => exact .refl s
  | succ n ih =>
    unfold forwardProfiles
    split
    · rename_i x _
      have h : Delivered s (s.modRm fun rm => { rm with early := rm.early.erase x }) := ⟨rfl, rfl, rfl, rfl, rfl, rfl⟩
      exact (h.trans (.of_same (push_same ..))).trans (ih _)
    · exact .refl s

section
variable {m : RpArrival} {x : RpMsg} {s t : State}

theorem profileArrives_of {bs : List Byte} {p : Nat} {q : BitVec 32} (h : receive 1 m s = (some x, t)) (hb : x.body = .profile bs p q) :
    profileArrives m s = forwardProfiles (t.rindMain.early.length + 1)
      (t.modRm fun rm => { rm with early := rm.early ++ [(x.channel, q, bs)] }) := by
  obtain ⟨sq, ch, b⟩ := x
  subst hb
  unfold profileArrives
  rw [h]
  exact congrArg (forwardProfiles · _) List.length_append

/-- The state once an ANNOUNCE named the new step's ports. -/
def announced (ps : List Nat) (t : State) : State :=
  ((t.modRm fun rm => { rm with newPorts := ps }).forPorts fun p u =>
    if ps.contains p.val then u.modPort p fun q => { q with thermal := true } else u).driveInhibit

/-- The state once a SWITCHED said which ports are THERMAL-ASSIGNED. -/
def switchedTo (ps : List Nat) (t : State) : State :=
  (t.forPorts fun p u => u.modPort p fun q => { q with thermal := ps.contains p.val }).driveInhibit

/-- The whey record that declares a RESULT_DISCARD, in stream 1. -/
def discardDeclared (a : AuditRec) (t : State) : State :=
  t.fresh.2.whey 1 none { Whey.blank 12 0xFFFF (a.old.toNat / 256 % 256) with
    products := 0x80, firstPoint := a.old.toNat % 256, count := 1, tFirst := a.t, tLast := a.t,
    seqFirst := BitVec.ofNat 32 (a.old.toNat / 4294967296), seqLast := BitVec.ofNat 32 (a.old.toNat / 4294967296),
    lostBytes := t.fresh.1.toNat % 2 ^ 32 }

/-- The state once a READING is kept, the newest of its source. -/
def readingKept (bs : List Byte) (t : State) : State :=
  t.modRm fun rm => { rm with lastReading := (rm.lastReading.filter fun x => x.headD 0 != bs.headD 0) ++ [bs] }

theorem announceArrives_of {n : Nat} {ps : List Nat} {tm : Time} (h : receive 2 m s = (some x, t)) (hb : x.body = .announce n ps tm) :
    announceArrives m s = announced ps t := by
  obtain ⟨sq, ch, b⟩ := x
  subst hb
  unfold announceArrives
  rw [h]
  rfl

theorem switchedArrives_of {n : Nat} {ps : List Nat} {tm : Time} (h : receive 3 m s = (some x, t)) (hb : x.body = .switched n ps tm) :
    switchedArrives m s = switchedTo ps t := by
  obtain ⟨sq, ch, b⟩ := x
  subst hb
  unfold switchedArrives
  rw [h]
  rfl

theorem eventArrives_of {n : Nat} (h : receive 4 m s = (some x, t)) (hb : x.body = .event n) : eventArrives m s = t.raiseN n := by
  obtain ⟨sq, ch, b⟩ := x
  subst hb
  unfold eventArrives
  rw [h]

theorem auditArrives_of {a : AuditRec} (h : receive 5 m s = (some x, t)) (hb : x.body = .audit a) :
    auditArrives m s = if a.recType ≠ 0x0B then t
      else forwardProfiles (discardDeclared a t).rindMain.early.length (discardDeclared a t) := by
  obtain ⟨sq, ch, b⟩ := x
  subst hb
  unfold auditArrives
  rw [h]
  rfl

theorem readingArrives_of {bs : List Byte} (h : receive 6 m s = (some x, t)) (hb : x.body = .reading bs) :
    readingArrives m s = readingKept bs t := by
  obtain ⟨sq, ch, b⟩ := x
  subst hb
  unfold readingArrives
  rw [h]
  rfl

end

/-- The rows of the results path, each with its message kind. -/
def rpRows (m : RpArrival) : List (Nat × Instr) :=
  [(1, .profile m), (2, .announce m), (3, .switched m), (4, .eventMessage m), (5, .audit m), (6, .reading m)]

/-- A row whose message is discarded leaves what receiving it left. -/
theorem rpRow_none {m : RpArrival} {kind : Nat} {c : Instr} (hc : (kind, c) ∈ rpRows m) {s t : State} (h : receive kind m s = (none, t)) :
    exec c s = .next t := by
  simp only [rpRows, List.mem_cons, List.not_mem_nil, or_false, Prod.mk.injEq] at hc
  rcases hc with ⟨rfl, rfl⟩ | ⟨rfl, rfl⟩ | ⟨rfl, rfl⟩ | ⟨rfl, rfl⟩ | ⟨rfl, rfl⟩ | ⟨rfl, rfl⟩
  · show Host.Outcome.next (profileArrives m s) = _
    rw [profileArrives, h]
  · show Host.Outcome.next (announceArrives m s) = _
    rw [announceArrives, h]
  · show Host.Outcome.next (switchedArrives m s) = _
    rw [switchedArrives, h]
  · show Host.Outcome.next (eventArrives m s) = _
    rw [eventArrives, h]
  · show Host.Outcome.next (auditArrives m s) = _
    rw [auditArrives, h]
  · show Host.Outcome.next (readingArrives m s) = _
    rw [readingArrives, h]

/-- A message's kind says its form. -/
theorem body_of_kind {b : RpBody} :
    (b.kind = 1 → ∃ bs p q, b = .profile bs p q) ∧ (b.kind = 2 → ∃ n ps tm, b = .announce n ps tm) ∧
      (b.kind = 3 → ∃ n ps tm, b = .switched n ps tm) ∧ (b.kind = 4 → ∃ n, b = .event n) ∧ (b.kind = 5 → ∃ a, b = .audit a) ∧
      (b.kind = 6 → ∃ bs, b = .reading bs) := by
  cases b <;> simp [RpBody.kind]

theorem modRm_delivered (t : State) (f : RindMain → RindMain) (hl : ∀ r, (f r).lastSeq = r.lastSeq) (hs : ∀ r, (f r).seen = r.seen) :
    Delivered t (t.modRm f) := ⟨rfl, rfl, rfl, hl _, hs _, rfl⟩

theorem announced_delivered (ps : List Nat) (t : State) : Delivered t (announced ps t) := by
  have h1 := modRm_delivered t (fun rm => { rm with newPorts := ps }) (fun _ => rfl) (fun _ => rfl)
  refine (h1.trans (forPorts_delivered ?_ ?_ ?_ _)).trans (driveInhibit_delivered _)
  all_goals
    intro p u
    split <;> rfl

theorem switchedTo_delivered (ps : List Nat) (t : State) : Delivered t (switchedTo ps t) := by
  refine (forPorts_delivered ?_ ?_ ?_ _).trans (driveInhibit_delivered _)
  all_goals
    intro p u
    rfl

theorem discardDeclared_delivered (a : AuditRec) (t : State) : Delivered t (discardDeclared a t) :=
  have h : Delivered t t.fresh.2 := ⟨rfl, rfl, rfl, rfl, rfl, rfl⟩
  h.trans (.of_same (whey_same ..))

/-- A row whose message is received delivers it. -/
theorem rpRow_some {m : RpArrival} {kind : Nat} {c : Instr} (hc : (kind, c) ∈ rpRows m) {x : RpMsg} {s t : State}
    (h : receive kind m s = (some x, t)) (hk : x.body.kind = kind) : ∃ v, exec c s = .next v ∧ Delivered t v := by
  obtain ⟨h1, h2, h3, h4, h5, h6⟩ := body_of_kind (b := x.body)
  simp only [rpRows, List.mem_cons, List.not_mem_nil, or_false, Prod.mk.injEq] at hc
  rcases hc with ⟨rfl, rfl⟩ | ⟨rfl, rfl⟩ | ⟨rfl, rfl⟩ | ⟨rfl, rfl⟩ | ⟨rfl, rfl⟩ | ⟨rfl, rfl⟩
  · obtain ⟨bs, p, q, hb⟩ := h1 hk
    refine ⟨_, rfl, ?_⟩
    rw [profileArrives_of h hb]
    exact (modRm_delivered t (fun rm => { rm with early := rm.early ++ [(x.channel, q, bs)] }) (fun _ => rfl) (fun _ => rfl)).trans
      (forwardProfiles_delivered _ _)
  · obtain ⟨n, ps, tm, hb⟩ := h2 hk
    exact ⟨_, rfl, announceArrives_of h hb ▸ announced_delivered ps t⟩
  · obtain ⟨n, ps, tm, hb⟩ := h3 hk
    exact ⟨_, rfl, switchedArrives_of h hb ▸ switchedTo_delivered ps t⟩
  · obtain ⟨n, hb⟩ := h4 hk
    exact ⟨_, rfl, eventArrives_of h hb ▸ .of_same (raiseN_same ..)⟩
  · obtain ⟨a, hb⟩ := h5 hk
    refine ⟨_, rfl, ?_⟩
    rw [auditArrives_of h hb]
    split
    · exact .refl t
    · exact (discardDeclared_delivered a t).trans (forwardProfiles_delivered _ _)
  · obtain ⟨bs, hb⟩ := h6 hk
    exact ⟨_, rfl, readingArrives_of h hb ▸ modRm_delivered t _ (fun _ => rfl) (fun _ => rfl)⟩

theorem announced_ports (ps : List Nat) (t : State) (p : PortIx) :
    (announced ps t).ports[p] = { t.ports[p] with thermal := t.ports[p].thermal || ps.contains p.val } := by
  unfold announced
  rw [State.driveInhibit, State.modRind_ports]
  refine forPorts_at (h := fun p q => { q with thermal := q.thermal || ps.contains p.val }) (fun p u q => ?_) _ p
  by_cases hp : ps.contains p.val
  · rw [if_pos hp, modPort_at, hp, Bool.or_true]
  · rw [if_neg hp, eq_false_of_ne_true hp, Bool.or_false, ite_self]

theorem switchedTo_ports (ps : List Nat) (t : State) (p : PortIx) :
    (switchedTo ps t).ports[p] = { t.ports[p] with thermal := ps.contains p.val } := by
  unfold switchedTo
  rw [State.driveInhibit, State.modRind_ports]
  exact forPorts_at (h := fun p q => { q with thermal := ps.contains p.val }) (fun p u q => modPort_at u p q _) _ p

/-! ### What a stream keeps -/

/-- The next WHEY_SEQ. -/
def wheyNext (s : State) : BitVec 32 := s.streams.wheySeq

theorem sendUnits_wheyNext (s : State) (it : TxItem) (l : Link) : wheyNext (s.sendUnits it l).1 = wheyNext s := by
  have hn : wheyNext (s.number it).1 = wheyNext s := by
    unfold State.number
    split <;> rfl
  have he : ∀ (us : List Nat) (f : Nat → Output) (u : State), wheyNext (us.foldl (fun t n => t.emit (f n)) u) = wheyNext u := by
    intro us f
    induction us with
    | nil => intro u; rfl
    | cons n us ih => intro u; exact ih _
  exact (he _ _ _).trans hn

theorem flushEth_wheyNext (s : State) : wheyNext s.flushEth = wheyNext s := by
  have hs : ∀ (its : List TxItem) (acc : State × List TxItem), wheyNext (its.foldl flushStep acc).1 = wheyNext acc.1 := by
    intro its
    induction its with
    | nil => intro acc; rfl
    | cons it its ih =>
      intro acc
      refine (ih _).trans ?_
      unfold flushStep
      split
      · exact sendUnits_wheyNext ..
      · rfl
  unfold State.flushEth
  dsimp only
  split
  · rfl
  · exact hs _ (s, [])

theorem push_wheyNext (s : State) (n : Nat) (z : Option Nat) (r : Rec) (c : Nat) (b : Bool) : wheyNext (s.push n z r c b) = wheyNext s :=
  flushEth_wheyNext _

theorem forwardProfiles_wheyNext (n : Nat) (s : State) : wheyNext (forwardProfiles n s) = wheyNext s := by
  induction n generalizing s with
  | zero => rfl
  | succ n ih =>
    unfold forwardProfiles
    split
    · exact (ih _).trans (push_wheyNext ..)
    · rfl

theorem discardDeclared_wheyNext (a : AuditRec) (t : State) : wheyNext (discardDeclared a t) = wheyNext t + 1 := push_wheyNext ..

/-! ### Profiles in their order -/

/-- The state in which one profile received waits for its turn. -/
def onlyProfile (y : Nat × BitVec 32 × List Byte) (t : State) : State := t.modRm fun rm => { rm with early := [y] }

/-- A profile that comes when none waits is forwarded unless an earlier one of its channel is still to come. -/
theorem profileArrives_only {m : RpArrival} {x : RpMsg} {s t : State} {bs : List Byte} {p : Nat} {q : BitVec 32}
    (h : receive 1 m s = (some x, t)) (hb : x.body = .profile bs p q) (he : t.rindMain.early = []) :
    profileArrives m s = if (onlyProfile (x.channel, q, bs) t).nextProfile (x.channel, q, bs) then
      ((onlyProfile (x.channel, q, bs) t).modRm fun rm => { rm with early := [] }).push 1 none (.profile bs) 0 false
      else onlyProfile (x.channel, q, bs) t := by
  have ho : (t.modRm fun rm => { rm with early := rm.early ++ [(x.channel, q, bs)] }) = onlyProfile (x.channel, q, bs) t := by
    simp only [State.modRm, onlyProfile, he, List.nil_append]
  have hd : ((onlyProfile (x.channel, q, bs) t).modRm fun rm => { rm with early := rm.early.erase (x.channel, q, bs) }) =
      (onlyProfile (x.channel, q, bs) t).modRm fun rm => { rm with early := [] } := by
    simp only [State.modRm, onlyProfile, List.erase_cons_head]
  have hf : (onlyProfile (x.channel, q, bs) t).rindMain.early = [(x.channel, q, bs)] := rfl
  rw [profileArrives_of h hb, ho, he, List.length_nil, forwardProfiles, hf, List.find?_singleton]
  generalize onlyProfile (x.channel, q, bs) t = u at hd ⊢
  by_cases hn : u.nextProfile (x.channel, q, bs)
  · rw [if_pos hn, if_pos hn]
    exact congrArg (fun v : State => v.push 1 none (.profile bs) 0 false) hd
  · rw [if_neg hn, if_neg hn]

/-- A profile that is forwarded while no other waits: what it leaves. -/
theorem pushed_profile {s : State} (u : State) (bs : List Byte) (hs : u.streams = s.streams) (hl : u.links = s.links) :
    ((u.modRm fun rm => { rm with early := [] }).push 1 none (.profile bs) 0 false).rindMain.early = [] ∧
      ∃ w : State, w.streams = s.streams ∧ w.links = s.links ∧
        (u.modRm fun rm => { rm with early := [] }).push 1 none (.profile bs) 0 false = w.push 1 none (.profile bs) 0 false := by
  refine ⟨?_, u.modRm fun rm => { rm with early := [] }, hs, hl, rfl⟩
  rw [(push_same ..).rindMain]
  rfl

theorem seqBefore_self (q : BitVec 32) : seqBefore q q = false := by simp [seqBefore]

/-- Whether the only profile that came is the next of its channel: none of those still to come goes before it. -/
theorem nextProfile_only {s : State} {c : Nat} {q : BitVec 32} {bs : List Byte} (h : s.rindMain.early = [(c, q, bs)]) :
    s.nextProfile (c, q, bs) = true ↔ ∀ y ∈ s.rind.unacked, ∀ p' q', y.profile? = some (c, p', q') → seqBefore q' q = false := by
  unfold State.nextProfile
  rw [h]
  simp only [List.any_cons, List.any_nil, seqBefore_self, Bool.and_false, Bool.or_false, Bool.not_false, Bool.true_and, Bool.not_eq_true',
    List.any_eq_false]
  refine forall₂_congr fun y _ => ⟨fun hy p' q' hp => ?_, fun hy => ?_⟩
  · rw [hp] at hy
    simpa using hy
  · split
    · rename_i c' p' q' hp
      intro hc
      simp only [Bool.and_eq_true, beq_iff_eq] at hc
      obtain ⟨rfl, hb⟩ := hc
      rw [hy p' q' hp] at hb
      exact Bool.false_ne_true hb
    · exact Bool.false_ne_true

theorem onlyTaken_streams (y : Nat × BitVec 32 × List Byte) (m : RpArrival) (x : RpMsg) (s : State) :
    (onlyProfile y (takenIn m x s)).streams = s.streams := by simp [onlyProfile, takenIn, acknowledged]

theorem onlyTaken_links (y : Nat × BitVec 32 × List Byte) (m : RpArrival) (x : RpMsg) (s : State) :
    (onlyProfile y (takenIn m x s)).links = s.links := by simp [onlyProfile, takenIn, acknowledged]

theorem takenIn_unacked {m : RpArrival} {x y : RpMsg} {s : State} :
    y ∈ (takenIn m x s).rind.unacked ↔ y ∈ s.rind.unacked ∧ y.seq ≠ m.seq := by
  show y ∈ s.rind.unacked.filter (fun y => y.seq != m.seq) ↔ _
  simp

/-- Settles O24: receiving a message is one lemma, each row's work another. -/
theorem resultsPathDeliversEachMessage : Obligations.ResultsPathDeliversEachMessage := by
  intro s m x
  refine ⟨fun kind c hc h => ?_, fun n ps tm h hb => ⟨_, rfl, ?_⟩, fun n ps tm h hb => ⟨_, rfl, fun p => ?_⟩, fun n h hb => ⟨_, rfl, ?_⟩,
    fun a h hb => ⟨fun hr => ⟨_, rfl, ?_⟩, fun hr => ⟨_, rfl, ?_⟩⟩, fun bs h hb => ⟨_, rfl, ?_⟩, fun bs p q h hb he => ?_,
    fun kind c hc hw hs hk => ⟨fun hd => ?_, fun hcr hu hm => ?_⟩⟩
  · obtain ⟨v, hv, hd⟩ := rpRow_some hc (receive_first h) h.kind
    refine ⟨v, hv, hd.ackWord, fun y hy => ?_, hd.wire, hd.lastSeq, hd.seen, hd.time⟩
    rw [hd.unacked] at hy
    exact (takenIn_unacked.mp hy).2
  · rw [announceArrives_of (receive_first h) hb]
    refine ⟨fun p => ?_, ?_⟩
    · exact announced_ports ps _ p
    · exact congrArg RindMain.newPorts (forPorts_keeps State.rindMain (fun p u => by split <;> rfl) _)
  · rw [switchedArrives_of (receive_first h) hb]
    exact switchedTo_ports ps _ p
  · rw [eventArrives_of (receive_first h) hb, State.raiseN, ix_of_lt n.isLt]
    exact raise_pend _ _ _ h.up (.inl rfl)
  · rw [auditArrives_of (receive_first h) hb, if_pos hr]
    exact ⟨rfl, rfl⟩
  · rw [auditArrives_of (receive_first h) hb, if_neg (not_not_intro hr)]
    exact (forwardProfiles_wheyNext _ _).trans (discardDeclared_wheyNext a (takenIn m x s))
  · rw [readingArrives_of (receive_first h) hb]
    exact List.getLast?_concat
  · have hn := nextProfile_only (s := onlyProfile (x.channel, q, bs) (takenIn m x s)) (c := x.channel) (q := q) (bs := bs) rfl
    have hx := profileArrives_only (receive_first h) hb he
    have hu : ∀ y, y ∈ (onlyProfile (x.channel, q, bs) (takenIn m x s)).rind.unacked ↔ y ∈ s.rind.unacked ∧ y.seq ≠ m.seq :=
      fun y => takenIn_unacked (m := m) (x := x) (s := s)
    refine ⟨fun ha => ⟨_, rfl, ?_⟩, fun ⟨y, hy, p', q', hys, hyp, hyq⟩ => ⟨_, rfl, ?_⟩⟩
    · rw [hx, if_pos (hn.mpr fun y hy p' q' hp => ha y ((hu y).mp hy).1 p' q' ((hu y).mp hy).2 hp)]
      exact pushed_profile _ bs (onlyTaken_streams ..) (onlyTaken_links ..)
    · rw [hx, if_neg fun hp => ne_false_of_eq_true hyq (hn.mp hp y ((hu y).mpr ⟨hy, hys⟩) p' q' hyp)]
      exact ⟨rfl, onlyTaken_streams ..⟩
  · refine rpRow_none hc ?_
    rw [receive_named hw hs hk, if_pos]
    rcases hd with hd | hd <;> simp [hd]
  · have hr : receive kind m s = (none, acknowledged m x s) := by
      rw [receive_named hw hs hk, if_neg (by simp [hcr, hu]), if_pos (by simpa using hm)]
    exact ⟨_, rpRow_none hc hr, rfl, rfl, by constructor <;> rfl, rfl, rfl⟩

end Sys2Proof.Proofs

/-! SUPPORT. Bits of a register word, and the mirrors. -/

namespace Sys2Proof.Proofs

open Sys2Proof Sys2Proof.Machine Sys2Proof.Claims

/-! ### Bits -/

theorem bit_setBit_self (w : Word) {i : Nat} (h : i < 32) : bit (setBit w i) i = true := by
  simp [bit, setBit, h]

theorem bit_setBit_ne (w : Word) {i j : Nat} (h : j ≠ i) : bit (setBit w i) j = bit w j := by
  unfold bit setBit
  rw [BitVec.getLsbD_or, BitVec.getLsbD_shiftLeft, BitVec.getLsbD_one]
  have : ¬ (¬ j < i ∧ j - i = 0) := by omega
  by_cases hj : j < i <;> simp [hj]
  omega

theorem bit_clrBit_self (w : Word) (i : Nat) : bit (clrBit w i) i = false := by
  unfold bit clrBit
  by_cases h : i < 32
  · simp [h]
  · exact BitVec.getLsbD_of_ge _ _ (by omega)

theorem bit_clrBit_ne (w : Word) {i j : Nat} (h : j ≠ i) : bit (clrBit w i) j = bit w j := by
  unfold bit clrBit
  by_cases hw : j < 32
  · rw [BitVec.getLsbD_and, BitVec.getLsbD_not, BitVec.getLsbD_shiftLeft, BitVec.getLsbD_one]
    by_cases hj : j < i <;> simp [hj, hw]
    omega
  · rw [BitVec.getLsbD_of_ge _ _ (by omega), BitVec.getLsbD_of_ge _ _ (by omega)]

/-! ### Mirrors -/

/-- The Rind's mirrors after a refresh of state `s`. -/
def mirrored (s : State) (snapshot : Bool) : RindMain :=
  let q := { s.rindMain with sealCnt := s.aon.sealCnt.setWidth 32 }
  if snapshot && s.rind.powered then q.take s.rind s.glb.variantM else q

theorem refresh_up {s : State} (h : s.boot.inReset = false) (b : Bool) :
    (s.refresh b).rindMain = mirrored s b ∧ (s.refresh b).time = s.time ∧ (s.refresh b).glb = { s.glb with
      aonStat := s.aon.statWord, mepoch := s.glb.mepoch + 1, lastRefresh := s.time.mono } := by
  simp only [State.refresh, h, Bool.false_eq_true, if_false, State.modGlb_glb, State.modGlb_time, State.modGlb_rindMain, mirrored]
  split
  · simp only [State.modRm_glb, State.modRm_time, State.modRm_rindMain, and_self]
  · simp only [State.modRm_glb, State.modRm_time, State.modRm_rindMain, and_self]

theorem mirrored_sealCnt (s : State) (b : Bool) : (mirrored s b).sealCnt = s.aon.sealCnt.setWidth 32 := by
  unfold mirrored
  split <;> rfl

theorem mirrored_snapshot {s : State} (hp : s.rind.powered = true) :
    (mirrored s true).audCnt = s.rind.auditCnt ∧ (mirrored s true).ackCnt = s.rind.ackCnt ∧ (mirrored s true).refused = s.rind.refused ∧
      (mirrored s true).paramId = s.rind.paramId ∧ (mirrored s true).stat = s.rind.statWord s.glb.variantM := by
  unfold mirrored
  dsimp only
  rw [if_pos (by rw [hp]; rfl)]
  exact ⟨rfl, rfl, rfl, rfl, rfl⟩

/-- A refresh at an instant, and what its row then notes in the global registers. -/
def refreshAt (t : Time) (b : Bool) (f : Time → Glb → Glb) (s : State) : State :=
  ((s.until t).refresh b).modGlb (f (s.until t).time.mono)

theorem refreshAt_effect {s : State} (h : s.boot.inReset = false) (b : Bool) (t : Time) (f : Time → Glb → Glb) :
    (refreshAt t b f s).rindMain = mirrored s b ∧ (refreshAt t b f s).time.mono = max s.time.mono t ∧
      (refreshAt t b f s).glb = f (max s.time.mono t) { s.glb with
        aonStat := s.aon.statWord, mepoch := s.glb.mepoch + 1, lastRefresh := max s.time.mono t } := by
  obtain ⟨h1, h2, h3⟩ := refresh_up (s := s.until t) h b
  rw [until_mono] at h3
  unfold refreshAt
  rw [State.modGlb_rindMain, State.modGlb_time, State.modGlb_glb, h1, h2, h3, until_mono]
  exact ⟨rfl, rfl, rfl⟩

/-- An entry joins the fault log: it is numbered, and EV248 pends. -/
theorem faultLog_effect {s : State} (h : s.boot.inReset = false) (src ev unit : Nat) (d : Word) :
    (s.faultLog src ev unit d).ev.pend.getLsbD 248 = true ∧ (s.faultLog src ev unit d).boot.faultIndex = s.boot.faultIndex + 1 ∧
      (s.faultLog src ev unit d).glb = s.glb ∧ (s.faultLog src ev unit d).time = s.time := by
  unfold State.faultLog
  refine ⟨raise_pend _ 248 248 ?_ (.inl rfl), ?_, ?_, ?_⟩
  · rwa [State.modBoot_boot]
  · rw [(raise_same ..).boot, State.modBoot_boot]
  · rw [(raise_same ..).glb, State.modBoot_glb]
  · rw [(raise_same ..).time, State.modBoot_time]

/-- SLOW_FAIL at an instant. -/
theorem slowFailAt {s : State} (h : s.boot.inReset = false) (t : Time) (f : Glb → Glb) :
    let u := ((s.until t).modGlb f).faultLog 1 248 0xFFFF 0
    u.glb = f s.glb ∧ u.ev.pend.getLsbD 248 = true ∧ u.boot.faultIndex = s.boot.faultIndex + 1 ∧ u.time.mono = max s.time.mono t := by
  have hu : ((s.until t).modGlb f).boot.inReset = false := by rwa [State.modGlb_boot, State.until_boot]
  obtain ⟨h1, h2, h3, h4⟩ := faultLog_effect hu 1 248 0xFFFF 0
  rw [State.modGlb_boot, State.until_boot] at h2
  rw [State.modGlb_glb, State.until_glb] at h3
  exact ⟨h3, h1, h2, (congrArg (·.mono) h4).trans (until_mono s t)⟩

/-- What a change of the global registers after a wait leaves. -/
theorem modGlbAt (s : State) (t : Time) (f : Glb → Glb) :
    ((s.until t).modGlb f).glb = f s.glb ∧ ((s.until t).modGlb f).time.mono = max s.time.mono t ∧
      ((s.until t).modGlb f).boot = s.boot ∧ ((s.until t).modGlb f).ev = s.ev := ⟨rfl, until_mono s t, rfl, rfl⟩

/-- What a refresh at an edge of CK_SLOW notes: the edge, and its return after a failure. -/
def slowSeen (now : Time) (g : Glb) : Glb :=
  { g with lastSlow := now, slowBack := if bit g.stat 6 && g.slowBack.isNone then some now else g.slowBack }

theorem mirrorRefresh_eq (b : Bool) (s : State) :
    mirrorRefresh b s = refreshAt (s.glb.lastRefresh + 3052 * us / 100) b slowSeen s := rfl

/-- How long after the last refresh a substitute refresh stands. -/
def substituteWait (s : State) : Time := if s.glb.lastRefresh ≤ s.glb.lastSlow then 306 * us / 10 else 3052 * us / 100

theorem substituteRefresh_eq (s : State) :
    substituteRefresh s = refreshAt (s.glb.lastRefresh + substituteWait s) true (fun _ g => { g with slowBack := none }) s := rfl

/-- Settles O26: a refresh copies what the mirrors take; the other rows set and clear the registers that show a lost clock or snapshot. -/
theorem mirrorsRefreshAtEveryEdge : Obligations.MirrorsRefreshAtEveryEdge := by
  intro s hu
  refine ⟨fun b => ⟨_, rfl, ?_⟩, ⟨_, rfl, ?_⟩, fun h6 => ⟨_, rfl, ?_⟩, fun x hx => ⟨_, rfl, ?_⟩, ⟨_, rfl, ?_⟩⟩
  · obtain ⟨hm, ht, hg⟩ := refreshAt_effect hu b (s.glb.lastRefresh + 3052 * us / 100) slowSeen
    rw [mirrorRefresh_eq, hm, ht, hg]
    refine ⟨rfl, mirrored_sealCnt s b, rfl, rfl, rfl, fun hb hp => ?_, fun hb => ?_⟩
    · subst hb
      exact mirrored_snapshot hp
    · subst hb
      rfl
  · obtain ⟨hm, ht, hg⟩ := refreshAt_effect hu true (s.glb.lastRefresh + substituteWait s) fun _ g => { g with slowBack := none }
    rw [substituteRefresh_eq, hm, ht, hg]
    refine ⟨rfl, mirrored_sealCnt s true, fun hl => ?_, fun hl => ?_, rfl⟩
    · rw [substituteWait, if_pos hl]
    · rw [substituteWait, if_neg (Nat.not_le.mpr hl)]
  · unfold slowFail
    rw [if_neg (by simp [hu, h6])]
    obtain ⟨h1, h2, h3, h4⟩ := slowFailAt hu (s.glb.lastSlow + 100 * us) fun g => { g with stat := setBit g.stat 6, slowBack := none }
    exact ⟨(congrArg (fun g : Glb => bit g.stat 6) h1).trans (bit_setBit_self _ (by decide)), h2, h3, h4⟩
  · unfold slowFailClear
    rw [hx]
    obtain ⟨h1, h2, h3, h4⟩ := modGlbAt s (x + sec) fun g => { g with stat := clrBit g.stat 6, slowBack := none }
    exact ⟨(congrArg (fun g : Glb => bit g.stat 6) h1).trans (bit_clrBit_self ..), h2, h3, h4⟩
  · unfold rindSnapshotLoss
    rw [if_neg (ne_true_of_eq_false hu)]
    exact ⟨rfl, rfl, rfl, rfl, rfl, rfl, rfl, rfl⟩

end Sys2Proof.Proofs

/-! SUPPORT. The Vat engines: how one instruction runs, and what its operands' modifies leave. -/

namespace Sys2Proof.Proofs

open Sys2Proof Sys2Proof.Machine Sys2Proof.Claims

/-! ### One instruction -/

theorem modEng_at (s : State) (n : EngIx) (f : Engine → Engine) : (s.modEng n f).engines[n] = f s.engines[n] := by
  rw [State.modEng_engines, Fin.getElem_fin, Vector.getElem_set_self]

/-- The loops that end with the one that ends at `pc` (log entry 42) are those that `loopEnd` passes. -/
theorem loopEnd_dropWhile (pc next : Nat) (ls : List LoopFrame) :
    loopEnd pc next ls = loopEnd pc next (ls.dropWhile fun m => m.last == pc && decide (m.count ≤ 1)) := by
  induction ls with
  | nil => rfl
  | cons l ls ih =>
    by_cases h : l.last = pc ∧ l.count ≤ 1
    · obtain ⟨h1, h2⟩ := h
      rw [List.dropWhile_cons_of_pos (by simp [h1, h2]), loopEnd, if_pos h1, if_neg (by omega), ih]
    · rw [List.dropWhile_cons_of_neg (by simpa using fun h1 => Nat.lt_of_not_le fun h2 => h ⟨h1, h2⟩)]

/-- The end of an iteration is the claims' `loopEnd`. -/
theorem endIter_eq (e : Engine) (pc next : Nat) :
    e.endIter pc next = { e with pc := (loopEnd pc next e.loops).1, loops := (loopEnd pc next e.loops).2 } := by
  unfold Engine.endIter
  cases hl : e.loops with
  | nil =>
    cases e
    cases hl
    rfl
  | cons l ls =>
    dsimp only
    by_cases h1 : l.last = pc
    · rw [if_pos h1, loopEnd, if_pos h1]
      by_cases h2 : l.count ≤ 1
      · rw [if_pos h2, if_neg (by omega), loopEnd_dropWhile]
        have hr := List.head?_dropWhile_not (fun m : LoopFrame => m.last == pc && decide (m.count ≤ 1)) ls
        split
        · rename_i m ms hd
          rw [hd] at hr ⊢
          by_cases h3 : m.last = pc
          · rw [if_pos h3, loopEnd, if_pos h3, if_pos (by simpa [h3] using hr)]
          · rw [if_neg h3, loopEnd, if_neg h3]
        · rename_i hd
          rw [hd]
          rfl
      · rw [if_neg h2, if_pos (by omega)]
    · rw [if_neg h1, loopEnd, if_neg h1, ← hl]

section
variable {n : EngIx} {op : Nat} {w : Word} {s : State} {body : Engine → Word → VatRes} (h : Runs n op w s) (hd : vatDefined op = true)
include h hd

/-- An instruction that runs does what its body comes to. -/
theorem vatStep_runs : s.vatStep n op body = match body s.engines[n] w with
    | .go r => s.modEng n fun _ => { r.endIter s.engines[n].pc (s.engines[n].pc + 1) with opc := s.engines[n].opc + s.engines[n].cost op w }
    | .jump r pc => s.modEng n fun _ =>
        if op = 0x23 ∧ pc ≠ s.engines[n].pc + 1 then { r.endIter s.engines[n].pc pc with opc := s.engines[n].opc + s.engines[n].cost op w }
        else { r with pc := pc, opc := s.engines[n].opc + s.engines[n].cost op w }
    | .user r =>
      let s2 := (s.modEng n fun _ => { r.endIter s.engines[n].pc (s.engines[n].pc + 1) with
        opc := s.engines[n].opc + s.engines[n].cost op w }).fireVat s.engines[n] (fld w 0 8)
      if bit s.engines[n].ctl 0 then s2.raiseN (120 + n.val) else s2
    | .stall => s.modEng n fun e => { e with stalledSince := some s.time.mono }
    | .hold => s
    | .fault code => s.vatFault n code
    | .halt len => (s.modEng n fun e => { e with opc := s.engines[n].opc + s.engines[n].cost op w }).vatEnd n len := by
  unfold State.vatStep
  dsimp only
  have he : ¬ (!s.engines[n].executes) = true := by rw [h.executes]; decide
  rw [if_neg he, h.fetch]
  dsimp only
  rw [h.opcode, if_neg (by simp [hd]), if_neg (by simp), if_neg (Nat.not_lt.mpr h.budget), if_neg (by simp [h.exact])]
  rfl

/-- An instruction of one operation that completes has run: only its engine changes, and PC and loops are at the end of an instruction. -/
theorem vatStep_go {r : Engine} (hb : body s.engines[n] w = .go r) (hc : s.engines[n].cost op w = 1) (hl : r.loops = s.engines[n].loops) :
    Ran n s (s.vatStep n op body) r := by
  rw [vatStep_runs h hd, hb, hc]
  dsimp only
  refine ⟨?_, ?_, ?_⟩
  · rw [modEng_at]
  · rw [modEng_at, endIter_eq, hl]
    rfl
  · rw [modEng_at, endIter_eq]

/-- One that waits stalls its engine. -/
theorem vatStep_stall (hb : body s.engines[n] w = .stall) :
    s.vatStep n op body = s.modEng n fun e => { e with stalledSince := some s.time.mono } := by
  rw [vatStep_runs h hd, hb]

end

/-- A row whose instruction completes. -/
theorem completes_go {n : EngIx} {op : Nat} {w : Word} {s : State} {body : Engine → Word → VatRes} {c : Instr} {P : State → Prop} (r : Engine)
    (hx : exec c s = .next (s.vatStep n op body)) (h : Runs n op w s) (hd : vatDefined op = true) (hc : s.engines[n].cost op w = 1)
    (hb : body s.engines[n] w = .go r) (hl : r.loops = s.engines[n].loops) (hP : ∀ t, Ran n s t r → P t) : Completes c s P :=
  ⟨_, hx, hP _ (vatStep_go h hd hb hc hl)⟩

/-- A body whose accesses meet no transfer comes to its result. -/
theorem guarded_of_unlocked {e : Engine} {as : List Nat} {r : VatRes} (h : Unlocked e as) : e.guarded as r = r := by
  have : ¬ as.any e.locked = true := by
    rw [List.any_eq_true]
    rintro ⟨a, ha, hl⟩
    exact ne_false_of_eq_true hl (h a ha)
  exact if_neg this

/-! ### Flags -/

/-- A flag made 1. -/
theorem getLsbD_or_flag (f m : Word16) {k : Nat} (hk : k < 16) (hm : m = BitVec.twoPow 16 k) (i : Nat) :
    (f ||| m).getLsbD i = (f.getLsbD i || decide (i = k)) := by
  subst hm
  rw [BitVec.getLsbD_or, BitVec.getLsbD_twoPow, decide_eq_true hk, Bool.true_and, decide_eq_decide.mpr eq_comm]

theorem getLsbD_or_sat (f : Word16) (i : Nat) : (f ||| 0x10).getLsbD i = (f.getLsbD i || decide (i = 4)) :=
  getLsbD_or_flag f _ (by decide) (by decide) i
theorem getLsbD_or_aov (f : Word16) (i : Nat) : (f ||| 0x20).getLsbD i = (f.getLsbD i || decide (i = 5)) :=
  getLsbD_or_flag f _ (by decide) (by decide) i
theorem getLsbD_or_alost (f : Word16) (i : Nat) : (f ||| 0x40).getLsbD i = (f.getLsbD i || decide (i = 6)) :=
  getLsbD_or_flag f _ (by decide) (by decide) i
theorem getLsbD_or_hout (f : Word16) (i : Nat) : (f ||| 0x80).getLsbD i = (f.getLsbD i || decide (i = 7)) :=
  getLsbD_or_flag f _ (by decide) (by decide) i

theorem getLsbD_and_not_aov (f : Word16) (i : Nat) : (f &&& 0xFFDF).getLsbD i = (f.getLsbD i && decide (i ≠ 5)) := by
  have hm : (0xFFDF : Word16) = ~~~(BitVec.twoPow 16 5) := by decide
  rw [hm, BitVec.getLsbD_and, BitVec.getLsbD_not, BitVec.getLsbD_twoPow]
  by_cases hi : i < 16
  · simp [hi, eq_comm]
  · simp [BitVec.getLsbD_of_ge f i (Nat.not_lt.mp hi)]

/-! ### The modifies of an instruction -/

/-- `u` is `e1` after accesses through the descriptors `ds`, their steps times `k`, from the pointers of `e`: the pointers walk, HOUT notes the accesses
outside a hoop, and nothing else moves. -/
structure Stepped (e e1 u : Engine) (k : Int) (ds : List Nat) : Prop where
  frame : u = { e1 with p := u.p, flags := u.flags }
  ptr : ∀ i : Fin 8, u.p[i] = ptrAfter e k ds i
  hout : u.flags.getLsbD 7 = (e1.flags.getLsbD 7 || ds.any fun d => e.outside (d / 4))
  kept : ∀ i, i ≠ 7 → u.flags.getLsbD i = e1.flags.getLsbD i

theorem stepped_nil {e e1 : Engine} (k : Int) (hp : e1.p = e.p) : Stepped e e1 e1 k [] :=
  ⟨rfl, fun i => by rw [hp]; rfl, (Bool.or_false _).symm, fun _ _ => rfl⟩

theorem noteHout_frame (e : Engine) (p : Nat) (u : Engine) :
    e.noteHout p u = { u with flags := (e.noteHout p u).flags } ∧
      (∀ i, (e.noteHout p u).flags.getLsbD i = (u.flags.getLsbD i || (decide (i = 7) && e.outside p))) := by
  by_cases h : e.outside p = true
  · have hn : e.noteHout p u = { u with flags := u.flags ||| 0x80 } := if_pos h
    rw [hn]
    refine ⟨rfl, fun i => ?_⟩
    dsimp only
    rw [getLsbD_or_hout, h, Bool.and_true]
  · have hn : e.noteHout p u = u := if_neg h
    rw [hn]
    refine ⟨rfl, fun i => ?_⟩
    rw [eq_false_of_ne_true h, Bool.and_false, Bool.or_false]

/-- One more access, through a pointer that no earlier one names. -/
theorem Stepped.modify {e e1 u : Engine} {k : Int} {ds : List Nat} (h : Stepped e e1 u k ds) {d : Nat} (hn : ∀ x ∈ ds, x / 4 ≠ d / 4) :
    Stepped e e1 (e.modify d k u) k (ds ++ [d]) := by
  obtain ⟨hf, hb⟩ := noteHout_frame e (d / 4) u
  have hm : e.modify d k u = { e.noteHout (d / 4) u with p := (e.modify d k u).p } ∧
      ∀ i : Fin 8, (e.modify d k u).p[i] = if d / 4 = i.val ∧ d % 4 ≠ 0 then BitVec.ofNat 15 (e.moved (d / 4) (e.stepOf d k)) else u.p[i] := by
    have hp : (e.noteHout (d / 4) u).p = u.p := by rw [hf]
    unfold Engine.modify descPtr
    dsimp only
    by_cases h0 : d % 4 = 0
    · rw [if_pos h0]
      exact ⟨rfl, fun i => by rw [if_neg (by simp [h0]), hp]⟩
    · rw [if_neg h0]
      by_cases h8 : d / 4 < 8
      · rw [ix_of_lt h8]
        refine ⟨rfl, fun i => ?_⟩
        dsimp only
        rw [Fin.getElem_fin, Vector.getElem_set, hp]
        by_cases hi : d / 4 = i.val
        · rw [if_pos hi, if_pos ⟨hi, h0⟩]
        · rw [if_neg hi, if_neg fun x => hi x.1]
          rfl
      · rw [ix_of_le (Nat.not_lt.mp h8)]
        exact ⟨rfl, fun i => by rw [if_neg (by omega), hp]⟩
  obtain ⟨hm, hp⟩ := hm
  have hfl : (e.modify d k u).flags = (e.noteHout (d / 4) u).flags := by rw [hm]
  refine ⟨?_, fun i => ?_, ?_, fun i hi => ?_⟩
  · rw [hm, hf, h.frame]
  · rw [hp]
    unfold ptrAfter
    rw [List.reverse_append, List.reverse_singleton, List.singleton_append, List.find?_cons]
    by_cases hi : d / 4 = i.val
    · rw [beq_iff_eq.mpr hi]
      dsimp only
      by_cases h0 : d % 4 = 0
      · rw [if_pos h0, if_neg (by simp [h0]), h.ptr]
        unfold ptrAfter
        rw [List.find?_eq_none.mpr]
        intro x hx
        rw [List.mem_reverse] at hx
        simpa using fun he => hn x hx (he.trans hi.symm)
      · rw [if_neg h0, if_pos ⟨hi, h0⟩, hi]
    · rw [beq_eq_false_iff_ne.mpr hi, if_neg fun x => hi x.1, h.ptr]
      rfl
  · rw [hfl, hb, h.hout]
    simp [List.any_append, Bool.or_assoc]
  · rw [hfl, hb, h.kept i hi]
    simp [hi]

theorem stepped_one {e e1 : Engine} (k : Int) (d : Nat) (hp : e1.p = e.p) : Stepped e e1 (e.modify d k e1) k [d] :=
  (stepped_nil k hp).modify fun _ h => absurd h List.not_mem_nil

/-- Two accesses: through one pointer, only slot Y's modify counts (R324). -/
theorem stepped_two {e e1 : Engine} (dx dy : Nat) (hp : e1.p = e.p) : Stepped e e1 (e.modify2 dx dy e1) 1 [dx, dy] := by
  unfold Engine.modify2
  by_cases hd : descPtr dx = descPtr dy
  · rw [if_pos hd]
    obtain ⟨hf, hb⟩ := noteHout_frame e (descPtr dx) e1
    have h := stepped_one 1 dy (show (e.noteHout (descPtr dx) e1).p = e.p by rw [hf, hp])
    refine ⟨by rw [h.frame, hf], fun i => ?_, ?_, fun i hi => ?_⟩
    · rw [h.ptr]
      have hxy : dx / 4 = dy / 4 := hd
      unfold ptrAfter
      by_cases hi : dy / 4 = i.val <;> simp [hi, hxy]
    · rw [h.hout, hb]
      simp [descPtr, Bool.or_assoc]
    · rw [h.kept i hi, hb]
      simp [hi]
  · rw [if_neg hd]
    exact (stepped_one 1 dx hp).modify fun x hx => by rwa [List.mem_singleton.mp hx]

/-- The modifies of two operands. -/
theorem stepped_op2 {e e1 : Engine} (x y : VatOp) (hp : e1.p = e.p) : Stepped e e1 (VatOp.modify2 e x y e1) 1 (descOf x ++ descOf y) := by
  cases x with
  | dreg n =>
    cases y with
    | dreg m => exact stepped_nil 1 hp
    | mem dy => exact stepped_one 1 dy hp
  | mem dx =>
    cases y with
    | dreg m => exact stepped_one 1 dx hp
    | mem dy => exact stepped_two dx dy hp

theorem stepped_op {e e1 : Engine} (x : VatOp) (hp : e1.p = e.p) : Stepped e e1 (x.modify e 1 e1) 1 (descOf x) := by
  cases x with
  | dreg n => exact stepped_nil 1 hp
  | mem d => exact stepped_one 1 d hp

/-- The claims' form, when what was modified has HOUT as before. -/
theorem Stepped.walks {e e1 u : Engine} {k : Int} {ds : List Nat} (h : Stepped e e1 u k ds)
    (hf : e1.flags.getLsbD 7 = e.flags.getLsbD 7) : Walks e u k ds := ⟨h.ptr, hf ▸ h.hout⟩

theorem Stepped.flagsKept {e e1 u : Engine} {k : Int} {ds l : List Nat} (h : Stepped e e1 u k ds) (hk : FlagsKept e e1 l) (h7 : 7 ∈ l) :
    FlagsKept e u l := fun i hi => (h.kept i fun h => hi (h ▸ h7)).trans (hk i hi)

/-! ### The accumulator -/

theorem setOvc_flags (e : Engine) (o : BitVec 8) (i : Nat) :
    (e.setOvc o).flags.getLsbD i = (e.flags.getLsbD i || (decide (i = 5) && (e.ovc == 0 && o != 0))) := by
  unfold Engine.setOvc
  dsimp only
  split
  · rename_i h
    have hb : (e.ovc == 0 && o != 0) = true := by
      simp only [Bool.and_eq_true, beq_iff_eq, bne_iff_ne]
      exact h
    rw [getLsbD_or_aov, hb, Bool.and_true]
  · rename_i h
    have hb : (e.ovc == 0 && o != 0) = false := by
      rw [Bool.eq_false_iff]
      simpa using h
    rw [hb, Bool.and_false, Bool.or_false]

/-- ACC and OVC of a true value that they hold. -/
theorem trueVal_split {e : Engine} {r : Int} (hl : -(2 ^ 47) - 2 ^ 39 ≤ r) (hh : r < 2 ^ 47 - 2 ^ 39) (ha : e.acc = BitVec.ofInt 40 r)
    (ho : e.ovc = BitVec.ofInt 8 ((r + 2 ^ 39) / 2 ^ 40)) : e.trueVal = r := by
  unfold Engine.trueVal
  rw [ha, ho, BitVec.toInt_ofInt, BitVec.toInt_ofInt, Int.bmod_def, Int.bmod_def]
  norm_num at hl hh ⊢
  omega

theorem setTrue_frame (e : Engine) (r : Int) :
    e.setTrue r = { e with acc := (e.setTrue r).acc, ovc := (e.setTrue r).ovc, flags := (e.setTrue r).flags } := by
  unfold Engine.setTrue
  dsimp only
  repeat' split
  all_goals rfl

/-- The true value takes `r`; AOV and ALOST alone can be set. -/
theorem setTrue_takes (e : Engine) (r : Int) : TakesValue e (e.setTrue r) r ∧ FlagsKept e (e.setTrue r) [5, 6] := by
  have hlow : r < -(2 ^ 47) - 2 ^ 39 ↔ (r + 2 ^ 39) / 2 ^ 40 < -128 := by norm_num; omega
  have hhigh : 2 ^ 47 - 2 ^ 39 ≤ r ↔ 127 < (r + 2 ^ 39) / 2 ^ 40 := by norm_num; omega
  have hf := fun o i => setOvc_flags { e with acc := BitVec.ofInt 40 r } o i
  unfold TakesValue FlagsKept Engine.setTrue
  dsimp only
  simp only [hlow, hhigh]
  by_cases h1 : (r + 2 ^ 39) / 2 ^ 40 > 127
  · have h2 : ¬ (r + 2 ^ 39) / 2 ^ 40 < -128 := by omega
    rw [if_pos h1]
    refine ⟨⟨rfl, fun _ hh => absurd (hhigh.mpr h1) (Int.not_le.mpr hh), fun _ => rfl, fun h => absurd h h2, ?_, ?_⟩, fun i hi => ?_⟩
    · dsimp only
      rw [getLsbD_or_alost, hf, decide_eq_true h1]
      simp
    · dsimp only
      rw [getLsbD_or_alost, hf]
      simp [Engine.setOvc]
    · simp only [List.mem_cons, List.not_mem_nil, or_false, not_or] at hi
      dsimp only
      rw [getLsbD_or_alost, hf]
      simp [hi]
  · rw [if_neg h1]
    by_cases h2 : (r + 2 ^ 39) / 2 ^ 40 < -128
    · rw [if_pos h2]
      refine ⟨⟨rfl, fun hl => absurd (hlow.mpr h2) (Int.not_lt.mpr hl), fun h => absurd h h1, fun _ => rfl, ?_, ?_⟩, fun i hi => ?_⟩
      · dsimp only
        rw [getLsbD_or_alost, hf, decide_eq_true h2]
        simp
      · dsimp only
        rw [getLsbD_or_alost, hf]
        simp [Engine.setOvc]
      · simp only [List.mem_cons, List.not_mem_nil, or_false, not_or] at hi
        dsimp only
        rw [getLsbD_or_alost, hf]
        simp [hi]
    · rw [if_neg h2]
      refine ⟨⟨rfl, fun hl hh => trueVal_split hl hh rfl rfl, fun h => absurd h h1, fun h => absurd h h2, ?_, ?_⟩, fun i hi => ?_⟩
      · rw [hf, decide_eq_false h1, decide_eq_false h2]
        simp
      · rw [hf]
        simp [Engine.setOvc]
      · simp only [List.mem_cons, List.not_mem_nil, or_false, not_or] at hi
        rw [hf]
        simp [hi]

/-- What the modifies leave of the accumulator. -/
theorem Stepped.takes {e e1 u : Engine} {k : Int} {ds : List Nat} {r : Int} (h : Stepped e e1 u k ds) (ht : TakesValue e e1 r) :
    TakesValue e u r := by
  have ha : u.acc = e1.acc := by rw [h.frame]
  have ho : u.ovc = e1.ovc := by rw [h.frame]
  have hv : u.trueVal = e1.trueVal := by rw [Engine.trueVal, ha, ho, Engine.trueVal]
  unfold TakesValue
  rw [ha, ho, hv, h.kept 6 (by decide), h.kept 5 (by decide)]
  exact ht

theorem fld_lt (w : Word) (lo len : Nat) : fld w lo len < 2 ^ len := Nat.mod_lt _ (Nat.two_pow_pos len)

theorem vatProduct_eq (mode ps : Nat) (hp : ps < 4) (x y : Word16) : vatProduct mode ps x y = shifted mode ps x y := by
  unfold vatProduct shifted
  interval_cases ps <;> rfl

/-- An accumulator instruction's result: the true value and the walked pointers, together. -/
theorem accumulated {e u : Engine} {r : Int} {ds : List Nat} (h : Stepped e (e.setTrue r) u 1 ds) :
    u = { e with acc := u.acc, ovc := u.ovc, flags := u.flags, p := u.p } ∧ TakesValue e u r ∧ Walks e u 1 ds ∧ FlagsKept e u [5, 6, 7] := by
  obtain ⟨ht, hk⟩ := setTrue_takes e r
  refine ⟨?_, h.takes ht, h.walks (hk 7 (by decide)), h.flagsKept (fun i hi => hk i ?_) (by decide)⟩
  · rw [h.frame, setTrue_frame]
  · simp only [List.mem_cons, List.not_mem_nil, or_false, not_or] at hi ⊢
    exact ⟨hi.1, hi.2.1⟩

theorem setTrue_p (e : Engine) (r : Int) : (e.setTrue r).p = e.p := by rw [setTrue_frame]

/-- MAC, MSU and MUL. -/
theorem mulAcc_completes {s : State} {n : EngIx} {w : Word} {op : Nat} {c : Instr} {f : Int → Int → Int} {x y : VatOp}
    (hx : exec c s = .next (s.vatStep n op (vatMulAcc f))) (h : Runs n op w s) (hd : vatDefined op = true)
    (hc : s.engines[n].cost op w = 1) (h1 : vatOp (fld w 16 6) = some x) (h2 : vatOp (fld w 10 6) = some y)
    (hu : Unlocked s.engines[n] (x.addrs s.engines[n] false ++ y.addrs s.engines[n] false)) :
    Completes c s fun t => ∃ u, u = { s.engines[n] with acc := u.acc, ovc := u.ovc, flags := u.flags, p := u.p } ∧ Ran n s t u ∧
      TakesValue s.engines[n] u (f s.engines[n].trueVal (shifted (fld w 24 2) (fld w 22 2) (x.val s.engines[n]) (y.val s.engines[n]))) ∧
      Walks s.engines[n] u 1 (descOf x ++ descOf y) ∧ FlagsKept s.engines[n] u [5, 6, 7] := by
  generalize he : s.engines[n] = e at *
  rw [← vatProduct_eq _ _ (fld_lt w 22 2)]
  generalize hr : f e.trueVal (vatProduct (fld w 24 2) (fld w 22 2) (x.val e) (y.val e)) = r
  obtain ⟨hfr, ht, hw, hk⟩ := accumulated (stepped_op2 x y (setTrue_p e r))
  refine completes_go (body := vatMulAcc f) (VatOp.modify2 e x y (e.setTrue r)) hx h hd (he ▸ hc) ?_ ?_ fun t hr => ⟨_, hfr, hr, ht, hw, hk⟩
  · unfold vatMulAcc
    rw [h1, h2, he]
    dsimp only
    rw [hr]
    exact guarded_of_unlocked hu
  · rw [hfr, he]

/-- Settles O28: the true value by `setTrue`, the pointers by the modifies of its operands. -/
theorem accumulatorTakesEachResult : Obligations.AccumulatorTakesEachResult := by
  intro s n w
  refine ⟨fun op c f x y hc h h1 h2 hu => ?_, fun x h h1 hs hu => ?_, fun h => ?_, fun h => ?_⟩
  · simp only [List.mem_cons, List.not_mem_nil, or_false, Prod.mk.injEq] at hc
    rcases hc with ⟨rfl, rfl, rfl⟩ | ⟨rfl, rfl, rfl⟩ | ⟨rfl, rfl, rfl⟩
    · exact mulAcc_completes (f := fun v p => v + p) rfl h rfl rfl h1 h2 hu
    · exact mulAcc_completes (f := fun v p => v - p) rfl h rfl rfl h1 h2 hu
    · exact mulAcc_completes (f := fun _ p => p) rfl h rfl rfl h1 h2 hu
  · obtain ⟨hfr, ht, hw, hk⟩ := accumulated (stepped_op x (setTrue_p s.engines[n] (s.engines[n].trueVal + (x.val s.engines[n]).toInt * 2 ^ fld w 21 5)))
    refine completes_go (body := vatAdda) _ rfl h rfl rfl ?_ ?_ fun t hr => ⟨_, hfr, hr, ht, hw, hk⟩
    · unfold vatAdda
      rw [h1]
      dsimp only
      rw [if_pos hs]
      exact guarded_of_unlocked hu
    · rw [hfr]
  · obtain ⟨ht, hk⟩ := setTrue_takes s.engines[n] (s.engines[n].trueVal / 2 ^ fld w 21 5)
    refine completes_go (body := vatSha) _ rfl h rfl rfl rfl ?_ fun t hr => ⟨_, setTrue_frame _ _, hr, ht, hk⟩
    rw [setTrue_frame]
  · refine completes_go (body := vatClra) _ rfl h rfl rfl rfl rfl fun t hr => ⟨_, rfl, hr, ?_, fun i hi => ?_⟩
    · simp
    · have h5 : i ≠ 5 := by simpa using hi
      dsimp only
      rw [getLsbD_and_not_aov, decide_eq_true h5, Bool.and_true]

end Sys2Proof.Proofs

/-! SUPPORT. The Vat engines' stores and loads. -/

namespace Sys2Proof.Proofs

open Sys2Proof Sys2Proof.Machine Sys2Proof.Claims

/-! ### Words and data registers -/

theorem read_write_eq (m : Mem) (a b : Nat) (v : Byte) (h : m.wf = true) : (m.write a v).read b = if b = a then v else m.read b := by
  by_cases hb : b = a
  · rw [if_pos hb, hb, Laws.read_write m a v h]
  · rw [if_neg hb, Laws.read_write_of_ne m a b v h hb]

/-- The halves of a word put together. -/
theorem word_halves (v : Word16) : v.extractLsb' 8 8 ++ v.extractLsb' 0 8 = v := by
  refine BitVec.eq_of_getLsbD_eq fun i hi => ?_
  simp only [BitVec.getLsbD_extractLsb', BitVec.getLsbD_append]
  grind

/-- A word that is written stands; every other stays. -/
theorem word_setWord (e : Engine) (a b : Nat) (v : Word16) (h : e.dmem.wf = true) :
    (e.setWord a v).word b = if b = a then v else e.word b := by
  have hw := Laws.write_wf e.dmem (2 * a) (v.extractLsb' 0 8) h
  unfold Engine.word Engine.setWord
  dsimp only
  rw [read_write_eq _ _ _ _ hw, read_write_eq _ _ _ _ hw, read_write_eq _ _ _ _ h, read_write_eq _ _ _ _ h]
  by_cases hb : b = a
  · subst hb
    rw [if_pos rfl, if_pos rfl, if_neg (by omega), if_pos rfl, word_halves]
  · rw [if_neg hb, if_neg (by omega), if_neg (by omega), if_neg (by omega), if_neg (by omega)]

theorem setWord_wf {e : Engine} (a : Nat) (v : Word16) (h : e.dmem.wf = true) : (e.setWord a v).dmem.wf = true :=
  Laws.write_wf _ _ _ (Laws.write_wf _ _ _ h)

theorem setDn_frame (e : Engine) (k : Nat) (v : Word16) : e.setDn k v = { e with d := (e.setDn k v).d } := by
  unfold Engine.setDn
  split <;> rfl

/-- A data register that is written holds its value; every other stays. -/
theorem dn_setDn (e : Engine) {k : Nat} (hk : k < 8) (v : Word16) (j : Nat) : (e.setDn k v).dn j = if j = k then v else e.dn j := by
  have hs : e.setDn k v = { e with d := e.d.set k v } := by
    unfold Engine.setDn
    rw [ix_of_lt hk]
  rw [hs]
  unfold Engine.dn
  by_cases hj : j < 8
  · rw [ix_of_lt hj]
    dsimp only
    rw [Fin.getElem_fin, Vector.getElem_set]
    by_cases h : j = k
    · rw [if_pos h, if_pos h.symm]
    · rw [if_neg h, if_neg (Ne.symm h)]
      rfl
  · rw [ix_of_le (Nat.not_lt.mp hj), if_neg (by omega)]

/-- `dn` is what the data registers hold. -/
theorem dn_of_d {e u : Engine} (h : u.d = e.d) (j : Nat) : u.dn j = e.dn j := by
  unfold Engine.dn
  rw [h]

theorem word_of_dmem {e u : Engine} (h : u.dmem = e.dmem) (a : Nat) : u.word a = e.word a := by
  unfold Engine.word
  rw [h]

theorem vatOp_dreg {f k : Nat} (h : vatOp f = some (.dreg k)) : k < 8 := by
  unfold vatOp at h
  split at h
  · cases h
  · split at h
    · cases h
      omega
    · cases h

/-! ### Stores of the accumulator -/

/-- What an accumulator store delivers, and that it sets SAT when it was held. -/
theorem accStore_delivered (e : Engine) (sh : Nat) {lo hi : Int} (h : lo ≤ hi) :
    (e.accStore sh lo hi).1 = (delivered e sh lo hi).1 ∧ (e.accStore sh lo hi).2 = { e with flags := (e.accStore sh lo hi).2.flags } ∧
      ∀ i, (e.accStore sh lo hi).2.flags.getLsbD i = (e.flags.getLsbD i || (decide (i = 4) && (delivered e sh lo hi).2)) := by
  unfold Engine.accStore delivered
  dsimp only
  by_cases h6 : e.flags.getLsbD 6 = true
  · rw [if_pos h6, if_pos h6]
    exact ⟨rfl, rfl, fun i => by rw [Bool.and_true]; exact getLsbD_or_sat ..⟩
  · rw [if_neg h6, if_neg h6]
    by_cases hl : e.trueVal / 2 ^ sh < lo
    · rw [if_pos hl, decide_eq_true hl]
      exact ⟨by dsimp only; omega, rfl, fun i => by dsimp only; rw [Bool.true_or, Bool.and_true]; exact getLsbD_or_sat ..⟩
    · rw [if_neg hl, decide_eq_false hl]
      by_cases hh : hi < e.trueVal / 2 ^ sh
      · rw [if_pos hh, decide_eq_true hh]
        exact ⟨by dsimp only; omega, rfl, fun i => by dsimp only; rw [Bool.or_true, Bool.and_true]; exact getLsbD_or_sat ..⟩
      · rw [if_neg hh, decide_eq_false hh]
        exact ⟨by dsimp only; omega, rfl, fun i => by dsimp only; rw [Bool.or_false, Bool.and_false, Bool.or_false]⟩

/-- The engine that a store to data memory leaves: `e1` holds what was written, the pointers walk after it. -/
theorem stored {e e1 u : Engine} {k : Int} {ds : List Nat} {b : Bool} (h : Stepped e e1 u k ds)
    (hf : e1 = { e with dmem := e1.dmem, flags := e1.flags })
    (hs : ∀ i, e1.flags.getLsbD i = (e.flags.getLsbD i || (decide (i = 4) && b))) :
    u = { e with dmem := u.dmem, flags := u.flags, p := u.p } ∧ (∀ a, u.word a = e1.word a) ∧
      u.flags.getLsbD 4 = (e.flags.getLsbD 4 || b) ∧ Walks e u k ds ∧ FlagsKept e u [4, 7] := by
  have hd : u.dmem = e1.dmem := by rw [h.frame]
  refine ⟨?_, word_of_dmem hd, ?_, h.walks (by rw [hs]; simp), fun i hi => ?_⟩
  · rw [h.frame, hf]
  · rw [h.kept 4 (by decide), hs]
    simp
  · simp only [List.mem_cons, List.not_mem_nil, or_false, not_or] at hi
    rw [h.kept i hi.2, hs]
    simp [hi.1]

section
variable {s : State} {n : EngIx} {w : Word} {op : Nat} {c : Instr} {lo hi : Int} (hx : exec c s = .next (s.vatStep n op (vatStore lo hi)))
  (h : Runs n op w s) (hd : vatDefined op = true) (hc : s.engines[n].cost op w = 1) (hle : lo ≤ hi)
include hx h hd hc hle

/-- STA and STAU to data memory. -/
theorem store_mem {dsc : Nat} (hwf : s.engines[n].dmem.wf = true) (h1 : vatOp (fld w 15 6) = some (.mem dsc))
    (hu : Unlocked s.engines[n] [s.engines[n].ptr (dsc / 4)]) :
    Completes c s fun t => ∃ u, u = { s.engines[n] with dmem := u.dmem, flags := u.flags, p := u.p } ∧ Ran n s t u ∧
      (∀ a, u.word a = if a = s.engines[n].ptr (dsc / 4) then BitVec.ofInt 16 (delivered s.engines[n] (fld w 21 5) lo hi).1
        else s.engines[n].word a) ∧
      u.flags.getLsbD 4 = (s.engines[n].flags.getLsbD 4 || (delivered s.engines[n] (fld w 21 5) lo hi).2) ∧
      Walks s.engines[n] u 1 [dsc] ∧ FlagsKept s.engines[n] u [4, 7] := by
  generalize he : s.engines[n] = e at *
  obtain ⟨hv, hf, hs⟩ := accStore_delivered e (fld w 21 5) hle
  generalize hr : (e.accStore (fld w 21 5) lo hi).2 = r at hf hs
  have hw : ∀ b, (r.setWord (e.ptr (dsc / 4)) (BitVec.ofInt 16 (delivered e (fld w 21 5) lo hi).1)).word b =
      if b = e.ptr (dsc / 4) then BitVec.ofInt 16 (delivered e (fld w 21 5) lo hi).1 else e.word b := fun b => by
    rw [word_setWord _ _ _ _ (by rw [hf]; exact hwf), word_of_dmem (e := e) (by rw [hf])]
  obtain ⟨h1', h2, h3, h4, h5⟩ := stored (stepped_one (e := e) 1 dsc
    (e1 := r.setWord (e.ptr (dsc / 4)) (BitVec.ofInt 16 (delivered e (fld w 21 5) lo hi).1)) (by rw [hf]; rfl)) (by rw [hf]; rfl) hs
  refine completes_go hx h hd (he ▸ hc) (r := e.modify dsc 1 (r.setWord (e.ptr (dsc / 4)) (BitVec.ofInt 16 (delivered e (fld w 21 5) lo hi).1)))
    ?_ ?_ fun t ht => ⟨_, h1', ht, fun a => (h2 a).trans (hw a), h3, h4, h5⟩
  · rw [he, ← hr, ← hv]
    unfold vatStore
    rw [h1]
    exact guarded_of_unlocked hu
  · rw [h1', he]

/-- STA and STAU to a data register. -/
theorem store_dreg {k : Nat} (h1 : vatOp (fld w 15 6) = some (.dreg k)) :
    Completes c s fun t => ∃ u, u = { s.engines[n] with d := u.d, flags := u.flags } ∧ Ran n s t u ∧
      (∀ j, u.dn j = if j = k then BitVec.ofInt 16 (delivered s.engines[n] (fld w 21 5) lo hi).1 else s.engines[n].dn j) ∧
      u.flags.getLsbD 4 = (s.engines[n].flags.getLsbD 4 || (delivered s.engines[n] (fld w 21 5) lo hi).2) ∧
      FlagsKept s.engines[n] u [4] := by
  generalize he : s.engines[n] = e at *
  obtain ⟨hv, hf, hs⟩ := accStore_delivered e (fld w 21 5) hle
  generalize hr : (e.accStore (fld w 21 5) lo hi).2 = r at hf hs
  generalize hval : BitVec.ofInt 16 (delivered e (fld w 21 5) lo hi).1 = v
  have hfr : r.setDn k v = { e with d := (r.setDn k v).d, flags := (r.setDn k v).flags } := by rw [setDn_frame, hf]
  have hfl : (r.setDn k v).flags = r.flags := by rw [setDn_frame]
  refine completes_go hx h hd (he ▸ hc) (r := r.setDn k v) ?_ ?_ fun t ht => ⟨_, hfr, ht, fun j => ?_, ?_, fun i hi => ?_⟩
  · rw [he, ← hr, ← hval, ← hv]
    unfold vatStore
    rw [h1]
    exact guarded_of_unlocked fun a ha => absurd ha List.not_mem_nil
  · rw [hfr, he]
  · rw [dn_setDn _ (vatOp_dreg h1), dn_of_d (e := e) (by rw [hf])]
  · rw [hfl, hs]
    simp
  · have h4 : i ≠ 4 := by simpa using hi
    rw [hfl, hs]
    simp [h4]

end

/-- The accumulator's halves after STAL: the low half first. -/
theorem word_setPair {e : Engine} (hwf : e.dmem.wf = true) (a b : Nat) (x y : Word16) (j : Nat) :
    ((e.setWord a x).setWord b y).word j = if j = b then y else if j = a then x else e.word j := by
  rw [word_setWord _ _ _ _ (setWord_wf _ _ hwf), word_setWord _ _ _ _ hwf]

/-- What an engine holds once two data registers were written, the second last. -/
theorem dn_setPair (e : Engine) {k m : Nat} (hk : k < 8) (hm : m < 8) (x y : Word16) (j : Nat) :
    ((e.setDn k x).setDn m y).dn j = if j = m then y else if j = k then x else e.dn j := by
  rw [dn_setDn _ hm, dn_setDn _ hk]

section
variable {s : State} {n : EngIx} {w : Word} {v : Int × Bool} (h : Runs n 0x0C w s)
  (hv : v = delivered s.engines[n] (fld w 21 5) (-2147483648) 2147483647)
include h hv

/-- STAL to data memory. -/
theorem stal_mem {dsc : Nat} (hwf : s.engines[n].dmem.wf = true) (h1 : vatOp (fld w 15 6) = some (.mem dsc))
    (hu : Unlocked s.engines[n] [s.engines[n].ptr (dsc / 4), s.engines[n].moved (dsc / 4) 1]) :
    Completes (.stal n) s fun t => ∃ u, u = { s.engines[n] with dmem := u.dmem, flags := u.flags, p := u.p } ∧ Ran n s t u ∧
      (∀ a, u.word a = if a = s.engines[n].moved (dsc / 4) 1 then (BitVec.ofInt 32 v.1).extractLsb' 16 16
        else if a = s.engines[n].ptr (dsc / 4) then (BitVec.ofInt 32 v.1).extractLsb' 0 16 else s.engines[n].word a) ∧
      u.flags.getLsbD 4 = (s.engines[n].flags.getLsbD 4 || v.2) ∧ Walks s.engines[n] u 2 [dsc] ∧ FlagsKept s.engines[n] u [4, 7] := by
  generalize he : s.engines[n] = e at *
  obtain ⟨hd, hf, hs⟩ := accStore_delivered e (fld w 21 5) (show (-2147483648 : Int) ≤ 2147483647 by decide)
  rw [← hv] at hd hs
  generalize hr : (e.accStore (fld w 21 5) (-2147483648) 2147483647).2 = r at hf hs
  generalize hlo : (BitVec.ofInt 32 v.1).extractLsb' 0 16 = lo
  generalize hhi : (BitVec.ofInt 32 v.1).extractLsb' 16 16 = hi
  have hw : ∀ b, ((r.setWord (e.ptr (dsc / 4)) lo).setWord (e.moved (dsc / 4) 1) hi).word b =
      if b = e.moved (dsc / 4) 1 then hi else if b = e.ptr (dsc / 4) then lo else e.word b := fun b => by
    rw [word_setPair (by rw [hf]; exact hwf), word_of_dmem (e := e) (by rw [hf])]
  obtain ⟨h1', h2, h3, h4, h5⟩ := stored (stepped_one (e := e) 2 dsc
    (e1 := (r.setWord (e.ptr (dsc / 4)) lo).setWord (e.moved (dsc / 4) 1) hi) (by rw [hf]; rfl)) (by rw [hf]; rfl) hs
  refine completes_go (body := vatStal) (e.modify dsc 2 ((r.setWord (e.ptr (dsc / 4)) lo).setWord (e.moved (dsc / 4) 1) hi)) rfl h rfl rfl
    ?_ ?_ fun t ht => ⟨_, h1', ht, fun a => (h2 a).trans (hw a), h3, h4, h5⟩
  · rw [he, ← hr, ← hlo, ← hhi, ← hd]
    unfold vatStal
    rw [h1]
    exact guarded_of_unlocked hu
  · rw [h1', he]

/-- STAL to a pair of data registers. -/
theorem stal_dreg {k : Nat} (h1 : vatOp (fld w 15 6) = some (.dreg k)) (hk : k % 2 = 0) :
    Completes (.stal n) s fun t => ∃ u, u = { s.engines[n] with d := u.d, flags := u.flags } ∧ Ran n s t u ∧
      (∀ j, u.dn j = if j = k then (BitVec.ofInt 32 v.1).extractLsb' 0 16
        else if j = k + 1 then (BitVec.ofInt 32 v.1).extractLsb' 16 16 else s.engines[n].dn j) ∧
      u.flags.getLsbD 4 = (s.engines[n].flags.getLsbD 4 || v.2) ∧ FlagsKept s.engines[n] u [4] := by
  generalize he : s.engines[n] = e at *
  obtain ⟨hd, hf, hs⟩ := accStore_delivered e (fld w 21 5) (show (-2147483648 : Int) ≤ 2147483647 by decide)
  rw [← hv] at hd hs
  generalize hr : (e.accStore (fld w 21 5) (-2147483648) 2147483647).2 = r at hf hs
  generalize hlo : (BitVec.ofInt 32 v.1).extractLsb' 0 16 = lo
  generalize hhi : (BitVec.ofInt 32 v.1).extractLsb' 16 16 = hi
  have hk8 := vatOp_dreg h1
  have hfr : (r.setDn k lo).setDn (k + 1) hi =
      { e with d := ((r.setDn k lo).setDn (k + 1) hi).d, flags := ((r.setDn k lo).setDn (k + 1) hi).flags } := by
    rw [setDn_frame, setDn_frame r, hf]
  have hfl : ((r.setDn k lo).setDn (k + 1) hi).flags = r.flags := by rw [setDn_frame, setDn_frame r]
  refine completes_go (body := vatStal) ((r.setDn k lo).setDn (k + 1) hi) rfl h rfl rfl ?_ ?_ fun t ht => ⟨_, hfr, ht, fun j => ?_, ?_, fun i hi => ?_⟩
  · rw [he, ← hr, ← hlo, ← hhi, ← hd]
    unfold vatStal
    rw [h1]
    exact if_pos hk
  · rw [hfr, he]
  · rw [dn_setPair _ hk8 (by omega), dn_of_d (e := e) (by rw [hf])]
    by_cases hj : j = k
    · rw [if_pos hj, if_neg (by omega), if_pos hj]
    · rw [if_neg hj, if_neg hj]
  · rw [hfl, hs]
    simp
  · have h4 : i ≠ 4 := by simpa using hi
    rw [hfl, hs]
    simp [h4]

end

/-- A result of an instruction that writes data memory and leaves the flags to its modifies. -/
theorem stored_plain {e e1 u : Engine} {ds : List Nat} (h : Stepped e e1 u 1 ds) (hf : e1 = { e with dmem := e1.dmem }) :
    u = { e with dmem := u.dmem, flags := u.flags, p := u.p } ∧ (∀ a, u.word a = e1.word a) ∧ Walks e u 1 ds ∧ FlagsKept e u [7] := by
  have hfl : e1.flags = e.flags := by rw [hf]
  obtain ⟨h1, h2, h3, h4, h5⟩ := stored (b := false) h (by rw [hfl]; exact hf) (fun i => by simp [hfl])
  exact ⟨h1, h2, h4, h.flagsKept (fun i _ => by rw [hfl]) (by decide)⟩

/-- Settles O29: a store delivers what `delivered` says, writes its words, and its pointers walk. -/
theorem vatStoresWriteTheirWordsOnly : Obligations.VatStoresWriteTheirWordsOnly := by
  intro s n w hwf
  refine ⟨fun op c lo hi hc h => ?_, fun v h hv => ⟨fun dsc h1 hu => stal_mem h hv hwf h1 hu, fun k h1 hk => stal_dreg h hv h1 hk⟩,
    fun h hu => ?_, fun h hu => ?_⟩
  · simp only [List.mem_cons, List.not_mem_nil, or_false, Prod.mk.injEq] at hc
    rcases hc with ⟨rfl, rfl, rfl, rfl⟩ | ⟨rfl, rfl, rfl, rfl⟩
    · exact ⟨fun dsc h1 hu => store_mem (lo := -32768) (hi := 32767) rfl h rfl rfl (by decide) hwf h1 hu,
        fun k h1 => store_dreg (lo := -32768) (hi := 32767) rfl h rfl rfl (by decide) h1⟩
    · exact ⟨fun dsc h1 hu => store_mem (lo := 0) (hi := 65535) rfl h rfl rfl (by decide) hwf h1 hu,
        fun k h1 => store_dreg (lo := 0) (hi := 65535) rfl h rfl rfl (by decide) h1⟩
  · obtain ⟨h1, h2, h3, h4⟩ := stored_plain (stepped_one (e := s.engines[n]) 1 (fld w 18 5)
      (e1 := s.engines[n].setWord (s.engines[n].ptr (fld w 18 5 / 4)) (s.engines[n].dn (fld w 23 3))) rfl) rfl
    refine completes_go (body := vatSt) (s.engines[n].modify (fld w 18 5) 1
      (s.engines[n].setWord (s.engines[n].ptr (fld w 18 5 / 4)) (s.engines[n].dn (fld w 23 3)))) rfl h rfl rfl (guarded_of_unlocked hu)
      (by rw [h1]) fun t ht => ⟨_, h1, ht, fun a => ?_, h3, h4⟩
    rw [h2, word_setWord _ _ _ _ hwf]
  · obtain ⟨h1, h2, h3, h4⟩ := stored_plain (stepped_two (e := s.engines[n]) (fld w 18 5) (fld w 10 5)
      (e1 := (s.engines[n].setWord (s.engines[n].ptr (fld w 18 5 / 4)) (s.engines[n].dn (fld w 23 3))).setWord
        (s.engines[n].ptr (fld w 10 5 / 4)) (s.engines[n].dn (fld w 15 3))) rfl) rfl
    refine completes_go (body := vatSt2) (s.engines[n].modify2 (fld w 18 5) (fld w 10 5)
      ((s.engines[n].setWord (s.engines[n].ptr (fld w 18 5 / 4)) (s.engines[n].dn (fld w 23 3))).setWord
        (s.engines[n].ptr (fld w 10 5 / 4)) (s.engines[n].dn (fld w 15 3)))) rfl h rfl rfl (guarded_of_unlocked hu)
      (by rw [h1]) fun t ht => ⟨_, h1, ht, fun a => ?_, h3, h4⟩
    rw [h2, word_setPair hwf]

/-! ### Loads -/

/-- A result of an instruction that writes data registers after its modifies. -/
theorem loaded {e u v : Engine} {ds : List Nat} (h : Stepped e e u 1 ds) (hv : v = { u with d := v.d }) :
    v = { e with d := v.d, flags := v.flags, p := v.p } ∧ Walks e v 1 ds ∧ FlagsKept e v [7] := by
  have hp : v.p = u.p := by rw [hv]
  have hf : v.flags = u.flags := by rw [hv]
  refine ⟨by rw [hp, hf, hv, h.frame], ⟨fun i => by rw [hp, h.ptr], by rw [hf, h.hout]⟩, fun i hi => ?_⟩
  rw [hf]
  exact h.kept i (by simpa using hi)

/-! ### Registers

The numbers fall into five families and single registers from 32 on. -/

theorem regIx_of {n base r : Nat} (h1 : base ≤ r) (h2 : r - base < n) : regIx n base r = some ⟨r - base, h2⟩ := by
  rw [regIx, if_pos h1, ix_of_lt h2]

theorem regIx_below {n base r : Nat} (h : r < base) : regIx n base r = none := if_neg (Nat.not_le.mpr h)

theorem regIx_above {n base r : Nat} (h : base + n ≤ r) : regIx n base r = none := by
  rw [regIx, if_pos (by omega), ix_of_le (by omega)]

/-- The registers from 41 on, which no instruction writes. -/
def regRest (e : Engine) (n r : Nat) : Word16 :=
  let size := fun (k : Nat) => match ix 4 k with | some i => e.winSize[i] | none => 0
  match r with
  | 41 => BitVec.ofNat 16 e.opc
  | 42 => BitVec.ofNat 16 (e.opc / 65536)
  | 43 => e.inv.extractLsb' 0 16
  | 44 => e.inv.extractLsb' 16 16
  | 53 => BitVec.ofNat 16 n
  | 54 => match e.loops with | l :: _ => BitVec.ofNat 16 l.count | [] => 0
  | _ =>
    if 45 ≤ r ∧ r ≤ 52 then (if (r - 45) % 2 = 0 then (size ((r - 45) / 2)).extractLsb' 0 16 else (size ((r - 45) / 2)).extractLsb' 16 16)
    else 0

/-- The registers from 32 on. -/
def regHigh (e : Engine) (n r : Nat) : Word16 :=
  if r = 32 then e.acc.extractLsb' 0 16
  else if r = 33 then e.acc.extractLsb' 16 16
  else if r = 34 then e.ovc ++ e.acc.extractLsb' 32 8
  else if r = 35 then e.maxv
  else if r = 36 then e.maxi
  else if r = 37 then e.minv
  else if r = 38 then e.mini
  else if r = 39 then e.mmcnt
  else if r = 40 then e.flags
  else regRest e n r

section
variable (e : Engine) (n : Nat) {r : Nat}

theorem reg_d (h : r < 8) : e.reg n r = e.d[r] := by
  unfold Engine.reg
  rw [ix_of_lt h]
  rfl

theorem reg_p (h1 : 8 ≤ r) (h2 : r - 8 < 8) : e.reg n r = (e.p[r - 8]).setWidth 16 := by
  unfold Engine.reg
  rw [ix_of_le h1, regIx_of h1 h2]
  rfl

theorem reg_s (h1 : 16 ≤ r) (h2 : r - 16 < 8) : e.reg n r = e.s[r - 16] := by
  unfold Engine.reg
  rw [ix_of_le (by omega), regIx_above (by omega), regIx_of h1 h2]
  rfl

theorem reg_hb (h1 : 24 ≤ r) (h2 : r - 24 < 4) : e.reg n r = (e.hb[r - 24]).setWidth 16 := by
  unfold Engine.reg
  rw [ix_of_le (by omega), regIx_above (by omega), regIx_above (by omega), regIx_of h1 h2]
  rfl

theorem reg_hl (h1 : 28 ≤ r) (h2 : r - 28 < 4) : e.reg n r = e.hl[r - 28] := by
  unfold Engine.reg
  rw [ix_of_le (by omega), regIx_above (by omega), regIx_above (by omega), regIx_above (by omega), regIx_of h1 h2]
  rfl

theorem reg_high (h : 32 ≤ r) : e.reg n r = regHigh e n r := by
  unfold Engine.reg
  rw [ix_of_le (by omega), regIx_above (by omega), regIx_above (by omega), regIx_above (by omega), regIx_above (by omega)]
  by_cases h40 : r ≤ 40
  · interval_cases r <;> rfl
  · have hh : regHigh e n r = regRest e n r := by
      unfold regHigh
      rw [if_neg (by omega), if_neg (by omega), if_neg (by omega), if_neg (by omega), if_neg (by omega), if_neg (by omega),
        if_neg (by omega), if_neg (by omega), if_neg (by omega)]
    rw [hh]
    by_cases h54 : r ≤ 54
    · interval_cases r <;> rfl
    · obtain ⟨k, rfl⟩ : ∃ k, r = k + 55 := ⟨r - 55, by omega⟩
      rfl

end

/-- A register whose field stands reads as before. -/
theorem reg_congr {e u : Engine} (n : Nat) {q : Nat} (hd : ∀ h : q < 8, u.d[q] = e.d[q])
    (hp : ∀ (_ : 8 ≤ q) (h : q - 8 < 8), u.p[q - 8] = e.p[q - 8]) (hs : ∀ (_ : 16 ≤ q) (h : q - 16 < 8), u.s[q - 16] = e.s[q - 16])
    (hb : ∀ (_ : 24 ≤ q) (h : q - 24 < 4), u.hb[q - 24] = e.hb[q - 24]) (hl : ∀ (_ : 28 ≤ q) (h : q - 28 < 4), u.hl[q - 28] = e.hl[q - 28])
    (hh : 32 ≤ q → regHigh u n q = regHigh e n q) : u.reg n q = e.reg n q := by
  rcases Nat.lt_or_ge q 8 with h | h1
  · rw [reg_d _ _ h, reg_d _ _ h, hd h]
  rcases Nat.lt_or_ge q 16 with h | h2
  · rw [reg_p _ _ h1 (by omega), reg_p _ _ h1 (by omega), hp h1]
  rcases Nat.lt_or_ge q 24 with h | h3
  · rw [reg_s _ _ h2 (by omega), reg_s _ _ h2 (by omega), hs h2]
  rcases Nat.lt_or_ge q 28 with h | h4
  · rw [reg_hb _ _ h3 (by omega), reg_hb _ _ h3 (by omega), hb h3]
  rcases Nat.lt_or_ge q 32 with h | h5
  · rw [reg_hl _ _ h4 (by omega), reg_hl _ _ h4 (by omega), hl h4]
  · rw [reg_high _ _ h5, reg_high _ _ h5, hh h5]

/-- `u` is `e` with `v` written to register `r` (R320). -/
structure Wrote (e u : Engine) (n r : Nat) (v : Word16) : Prop where
  frame : u = { e with
    d := u.d, p := u.p, s := u.s, hb := u.hb, hl := u.hl, acc := u.acc, ovc := u.ovc, maxv := u.maxv, maxi := u.maxi,
    minv := u.minv, mini := u.mini, mmcnt := u.mmcnt, flags := u.flags }
  held : u.reg n r = heldBy r v
  other : ∀ q, q ≠ r → (q = 40 → r ≠ 34) → u.reg n q = e.reg n q
  accg : r = 34 → FlagsKept e u [5] ∧ u.flags.getLsbD 5 = (e.flags.getLsbD 5 || (e.ovc == 0 && v.extractLsb' 8 8 != 0))

section
variable (e : Engine) (n : Nat) (v : Word16) {r : Nat}

theorem setReg_d (h : r < 8) : ∃ u, e.setReg r v = some u ∧ Wrote e u n r v := by
  refine ⟨{ e with d := e.d.set r v }, ?_, rfl, ?_, fun q hq _ => ?_, fun h34 => by omega⟩
  · unfold Engine.setReg
    rw [ix_of_lt h]
  · rw [reg_d _ _ h, heldBy, if_neg (by omega), if_neg (by omega), if_neg (by omega)]
    exact Vector.getElem_set_self ..
  · exact reg_congr n (fun hq8 => Vector.getElem_set_ne h hq8 (Ne.symm hq)) (fun _ _ => rfl) (fun _ _ => rfl) (fun _ _ => rfl) (fun _ _ => rfl)
      (fun _ => rfl)

/-- A pointer or base as it reads: its bit 15 is 0. -/
theorem setWidth_15 (v : Word16) : (v.setWidth 15).setWidth 16 = v &&& 0x7FFF := by
  refine BitVec.eq_of_toNat_eq ?_
  rw [BitVec.toNat_setWidth, BitVec.toNat_setWidth, BitVec.toNat_and, Nat.mod_eq_of_lt (Nat.lt_trans (Nat.mod_lt _ (by decide)) (by decide))]
  exact (Nat.and_two_pow_sub_one_eq_mod v.toNat 15).symm

theorem setReg_p (h1 : 8 ≤ r) (h2 : r - 8 < 8) : ∃ u, e.setReg r v = some u ∧ Wrote e u n r v := by
  refine ⟨{ e with p := e.p.set (r - 8) (v.setWidth 15) }, ?_, rfl, ?_, fun q hq _ => ?_, fun h34 => by omega⟩
  · unfold Engine.setReg
    rw [ix_of_le h1, regIx_of h1 h2]
  · rw [reg_p _ _ h1 h2, heldBy, if_pos (by omega), ← setWidth_15]
    exact congrArg _ (Vector.getElem_set_self ..)
  · exact reg_congr n (fun _ => rfl) (fun _ hq8 => Vector.getElem_set_ne h2 hq8 (by omega)) (fun _ _ => rfl) (fun _ _ => rfl) (fun _ _ => rfl)
      (fun _ => rfl)

theorem setReg_s (h1 : 16 ≤ r) (h2 : r - 16 < 8) : ∃ u, e.setReg r v = some u ∧ Wrote e u n r v := by
  refine ⟨{ e with s := e.s.set (r - 16) v }, ?_, rfl, ?_, fun q hq _ => ?_, fun h34 => by omega⟩
  · unfold Engine.setReg
    rw [ix_of_le (by omega), regIx_above (by omega), regIx_of h1 h2]
  · rw [reg_s _ _ h1 h2, heldBy, if_neg (by omega), if_neg (by omega), if_neg (by omega)]
    exact Vector.getElem_set_self ..
  · exact reg_congr n (fun _ => rfl) (fun _ _ => rfl) (fun _ hq8 => Vector.getElem_set_ne h2 hq8 (by omega)) (fun _ _ => rfl) (fun _ _ => rfl)
      (fun _ => rfl)

theorem setReg_hb (h1 : 24 ≤ r) (h2 : r - 24 < 4) : ∃ u, e.setReg r v = some u ∧ Wrote e u n r v := by
  refine ⟨{ e with hb := e.hb.set (r - 24) (v.setWidth 15) }, ?_, rfl, ?_, fun q hq _ => ?_, fun h34 => by omega⟩
  · unfold Engine.setReg
    rw [ix_of_le (by omega), regIx_above (by omega), regIx_above (by omega), regIx_of h1 h2]
  · rw [reg_hb _ _ h1 h2, heldBy, if_pos (by omega), ← setWidth_15]
    exact congrArg _ (Vector.getElem_set_self ..)
  · exact reg_congr n (fun _ => rfl) (fun _ _ => rfl) (fun _ _ => rfl) (fun _ hq8 => Vector.getElem_set_ne h2 hq8 (by omega)) (fun _ _ => rfl)
      (fun _ => rfl)

theorem setReg_hl (h1 : 28 ≤ r) (h2 : r - 28 < 4) : ∃ u, e.setReg r v = some u ∧ Wrote e u n r v := by
  refine ⟨{ e with hl := e.hl.set (r - 28) (if 32768 < v.toNat then 32768 else v) }, ?_, rfl, ?_, fun q hq _ => ?_, fun h34 => by omega⟩
  · unfold Engine.setReg
    rw [ix_of_le (by omega), regIx_above (by omega), regIx_above (by omega), regIx_above (by omega), regIx_of h1 h2]
  · have hv : heldBy r v = if 32768 < v.toNat then 32768 else v := by rw [heldBy, if_neg (by omega), if_pos (by omega)]
    rw [reg_hl _ _ h1 h2, hv]
    exact Vector.getElem_set_self ..
  · exact reg_congr n (fun _ => rfl) (fun _ _ => rfl) (fun _ _ => rfl) (fun _ _ => rfl) (fun _ hq8 => Vector.getElem_set_ne h2 hq8 (by omega))
      (fun _ => rfl)

/-- A single register that is written. -/
theorem wrote_high {e u : Engine} {n r : Nat} {v : Word16} (hr : 32 ≤ r) (hf : u = { e with
      acc := u.acc, ovc := u.ovc, maxv := u.maxv, maxi := u.maxi, minv := u.minv, mini := u.mini, mmcnt := u.mmcnt, flags := u.flags })
    (hh : regHigh u n r = heldBy r v) (ho : ∀ q, q ≠ r → (q = 40 → r ≠ 34) → regHigh u n q = regHigh e n q)
    (ha : r = 34 → FlagsKept e u [5] ∧ u.flags.getLsbD 5 = (e.flags.getLsbD 5 || (e.ovc == 0 && v.extractLsb' 8 8 != 0))) :
    Wrote e u n r v := by
  refine ⟨by rw [hf], (reg_high _ _ hr).trans hh, fun q hq h34 => ?_, ha⟩
  have hd : u.d = e.d := by rw [hf]
  have hp : u.p = e.p := by rw [hf]
  have hs : u.s = e.s := by rw [hf]
  have hb : u.hb = e.hb := by rw [hf]
  have hl : u.hl = e.hl := by rw [hf]
  exact reg_congr n (fun _ => by simp only [hd]) (fun _ _ => by simp only [hp]) (fun _ _ => by simp only [hs]) (fun _ _ => by simp only [hb])
    (fun _ _ => by simp only [hl]) (fun _ => ho q hq h34)

/-- The true value's words: what a write of one leaves of the others. -/
theorem acc_words (a : BitVec 40) (v : Word16) :
    ((a.extractLsb' 16 24 ++ v).extractLsb' 0 16 = v ∧ (a.extractLsb' 16 24 ++ v).extractLsb' 16 16 = a.extractLsb' 16 16 ∧
      (a.extractLsb' 16 24 ++ v).extractLsb' 32 8 = a.extractLsb' 32 8) ∧
    ((a.extractLsb' 32 8 ++ v ++ a.extractLsb' 0 16).extractLsb' 0 16 = a.extractLsb' 0 16 ∧
      (a.extractLsb' 32 8 ++ v ++ a.extractLsb' 0 16).extractLsb' 16 16 = v ∧
      (a.extractLsb' 32 8 ++ v ++ a.extractLsb' 0 16).extractLsb' 32 8 = a.extractLsb' 32 8) ∧
    ((v.extractLsb' 0 8 ++ a.extractLsb' 0 32).extractLsb' 0 16 = a.extractLsb' 0 16 ∧
      (v.extractLsb' 0 8 ++ a.extractLsb' 0 32).extractLsb' 16 16 = a.extractLsb' 16 16 ∧
      (v.extractLsb' 0 8 ++ a.extractLsb' 0 32).extractLsb' 32 8 = v.extractLsb' 0 8) := by
  refine ⟨⟨?_, ?_, ?_⟩, ⟨?_, ?_, ?_⟩, ⟨?_, ?_, ?_⟩⟩
  all_goals
    refine BitVec.eq_of_getLsbD_eq fun i hi => ?_
    simp only [BitVec.getLsbD_extractLsb', BitVec.getLsbD_append]
    grind

theorem setReg_high (h1 : 32 ≤ r) (h2 : r ≤ 40) : ∃ u, e.setReg r v = some u ∧ Wrote e u n r v := by
  obtain ⟨⟨a1, a2, a3⟩, ⟨b1, b2, b3⟩, ⟨c1, c2, c3⟩⟩ := acc_words e.acc v
  interval_cases r
  · refine ⟨_, rfl, wrote_high (by decide) rfl a1 (fun q hq _ => ?_) (fun h => by omega)⟩
    simp only [regHigh, if_neg hq, a2, a3]
    rfl
  · refine ⟨_, rfl, wrote_high (by decide) rfl b2 (fun q hq _ => ?_) (fun h => by omega)⟩
    simp only [regHigh, if_neg hq, b1, b3]
    rfl
  · have hf := setOvc_flags { e with acc := (v.extractLsb' 0 8) ++ (e.acc.extractLsb' 0 32) } (v.extractLsb' 8 8)
    refine ⟨_, rfl, wrote_high (by decide) rfl ?_ (fun q hq h40 => ?_) fun _ => ⟨fun i hi => ?_, ?_⟩⟩
    · exact (congrArg (v.extractLsb' 8 8 ++ ·) c3).trans (word_halves v)
    · have h40 : q ≠ 40 := fun h => h40 h rfl
      simp only [regHigh, if_neg hq, if_neg h40, Engine.setOvc, c1, c2]
      rfl
    · have h5 : i ≠ 5 := by simpa using hi
      rw [hf]
      simp [h5]
    · rw [hf]
      simp
  all_goals
    refine ⟨_, rfl, wrote_high (by decide) rfl rfl (fun q hq _ => ?_) (fun h => by omega)⟩
    simp only [regHigh, if_neg hq]
    rfl

/-- Every register up to 40 can be written. -/
theorem setReg_wrote (h : r ≤ 40) : ∃ u, e.setReg r v = some u ∧ Wrote e u n r v := by
  rcases Nat.lt_or_ge r 8 with h1 | h1
  · exact setReg_d e n v h1
  rcases Nat.lt_or_ge r 16 with h2 | h2
  · exact setReg_p e n v h1 (by omega)
  rcases Nat.lt_or_ge r 24 with h3 | h3
  · exact setReg_s e n v h2 (by omega)
  rcases Nat.lt_or_ge r 28 with h4 | h4
  · exact setReg_hb e n v h3 (by omega)
  rcases Nat.lt_or_ge r 32 with h5 | h5
  · exact setReg_hl e n v h4 (by omega)
  · exact setReg_high e n v h5 h

end

/-- LDI and MOV. -/
theorem setReg_completes {s : State} {n : EngIx} {w : Word} {op : Nat} {c : Instr} {body : Engine → Word → VatRes} {v : Word16}
    (hx : exec c s = .next (s.vatStep n op body)) (h : Runs n op w s) (hd : vatDefined op = true) (hc : s.engines[n].cost op w = 1)
    (hb : body s.engines[n] w = match s.engines[n].setReg (fld w 20 6) v with | some e1 => .go e1 | none => .fault 3) (hr : fld w 20 6 ≤ 40) :
    Completes c s fun t => ∃ u, u = { s.engines[n] with
        d := u.d, p := u.p, s := u.s, hb := u.hb, hl := u.hl, acc := u.acc, ovc := u.ovc, maxv := u.maxv, maxi := u.maxi,
        minv := u.minv, mini := u.mini, mmcnt := u.mmcnt, flags := u.flags } ∧ Ran n s t u ∧
      u.reg n.val (fld w 20 6) = heldBy (fld w 20 6) v ∧
      (∀ q, q ≠ fld w 20 6 → (q = 40 → fld w 20 6 ≠ 34) → u.reg n.val q = s.engines[n].reg n.val q) ∧
      (fld w 20 6 = 34 → FlagsKept s.engines[n] u [5] ∧
        u.flags.getLsbD 5 = (s.engines[n].flags.getLsbD 5 || (s.engines[n].ovc == 0 && v.extractLsb' 8 8 != 0))) := by
  obtain ⟨u, hu, hw⟩ := setReg_wrote s.engines[n] n.val v hr
  rw [hu] at hb
  exact completes_go u hx h hd hc hb (by rw [hw.frame]) fun t ht => ⟨u, hw.frame, ht, hw.held, hw.other, hw.accg⟩

/-- Settles O30: loads through the modifies of their operands, LDI and MOV through the register file. -/
theorem vatLoadsWriteTheirRegistersOnly : Obligations.VatLoadsWriteTheirRegistersOnly := by
  intro s n w
  refine ⟨fun h hu => ?_, fun h hu => ?_, fun op c v hc h hr => ?_, fun h => completes_go _ rfl h rfl rfl rfl rfl fun t ht => ht⟩
  · obtain ⟨h1, h2, h3⟩ := loaded (stepped_one (e := s.engines[n]) 1 (fld w 18 5) rfl) (setDn_frame (s.engines[n].modify (fld w 18 5) 1 s.engines[n])
      (fld w 23 3) (s.engines[n].word (s.engines[n].ptr (fld w 18 5 / 4))))
    have hd : (s.engines[n].modify (fld w 18 5) 1 s.engines[n]).d = s.engines[n].d := by rw [(stepped_one (e := s.engines[n]) 1 (fld w 18 5) rfl).frame]
    refine completes_go (body := vatLd) ((s.engines[n].modify (fld w 18 5) 1 s.engines[n]).setDn (fld w 23 3)
      (s.engines[n].word (s.engines[n].ptr (fld w 18 5 / 4)))) rfl h rfl rfl (guarded_of_unlocked hu) (by rw [h1]) fun t ht => ⟨_, h1, ht, fun j => ?_, h2, h3⟩
    rw [dn_setDn _ (fld_lt w 23 3), dn_of_d hd]
  · have hst := stepped_two (e := s.engines[n]) (fld w 18 5) (fld w 10 5) rfl
    obtain ⟨h1, h2, h3⟩ := loaded (v := ((s.engines[n].modify2 (fld w 18 5) (fld w 10 5) s.engines[n]).setDn (fld w 23 3)
      (s.engines[n].word (s.engines[n].ptr (fld w 18 5 / 4)))).setDn (fld w 15 3) (s.engines[n].word (s.engines[n].ptr (fld w 10 5 / 4))))
      hst (by rw [setDn_frame, setDn_frame (s.engines[n].modify2 ..)])
    have hd : (s.engines[n].modify2 (fld w 18 5) (fld w 10 5) s.engines[n]).d = s.engines[n].d := by rw [hst.frame]
    refine completes_go (body := vatLd2) (((s.engines[n].modify2 (fld w 18 5) (fld w 10 5) s.engines[n]).setDn (fld w 23 3)
      (s.engines[n].word (s.engines[n].ptr (fld w 18 5 / 4)))).setDn (fld w 15 3) (s.engines[n].word (s.engines[n].ptr (fld w 10 5 / 4))))
      rfl h rfl rfl (guarded_of_unlocked hu) (by rw [h1]) fun t ht => ⟨_, h1, ht, fun j => ?_, h2, h3⟩
    rw [dn_setPair _ (fld_lt w 23 3) (fld_lt w 15 3), dn_of_d hd]
  · simp only [List.mem_cons, List.not_mem_nil, or_false, Prod.mk.injEq] at hc
    rcases hc with ⟨rfl, rfl, rfl⟩ | ⟨rfl, rfl, rfl⟩
    · exact setReg_completes (body := vatLdi) rfl h rfl rfl rfl hr
    · exact setReg_completes (body := vatMov n.val) rfl h rfl rfl rfl hr

end Sys2Proof.Proofs

/-! SUPPORT. The Vat engines' arithmetic, search and control flow. -/

namespace Sys2Proof.Proofs

open Sys2Proof Sys2Proof.Machine Sys2Proof.Claims

/-! ### Arithmetic (R332) -/

/-- The bits of Z, N, C, V and SAT put together. -/
theorem low_flags (z n c v x : Bool) (i : Nat) :
    (BitVec.ofNat 16 (b01 z + 2 * b01 n + 4 * b01 c + 8 * b01 v + 16 * b01 x)).getLsbD i =
      if i = 0 then z else if i = 1 then n else if i = 2 then c else if i = 3 then v else if i = 4 then x else false := by
  by_cases hi : i < 16
  · have key : ∀ (z n c v x : Bool) (i : Fin 16),
        (BitVec.ofNat 16 (b01 z + 2 * b01 n + 4 * b01 c + 8 * b01 v + 16 * b01 x)).getLsbD i.val =
          if i.val = 0 then z else if i.val = 1 then n else if i.val = 2 then c else if i.val = 3 then v else if i.val = 4 then x else false := by
      decide
    exact key z n c v x ⟨i, hi⟩
  · rw [BitVec.getLsbD_of_ge _ _ (by omega), if_neg (by omega), if_neg (by omega), if_neg (by omega), if_neg (by omega), if_neg (by omega)]

/-- The flags that an ALU function keeps: those from SAT on. -/
theorem getLsbD_and_upper (f : Word16) (i : Nat) : (f &&& 0xFFF0).getLsbD i = (f.getLsbD i && decide (4 ≤ i)) := by
  rw [BitVec.getLsbD_and]
  by_cases hi : i < 16
  · have key : ∀ i : Fin 16, (0xFFF0 : Word16).getLsbD i.val = decide (4 ≤ i.val) := by decide
    rw [key ⟨i, hi⟩]
  · rw [BitVec.getLsbD_of_ge f i (by omega), Bool.false_and, Bool.false_and]

/-- The flags after an ALU function. -/
theorem aluFlags_bit (f : Word16) (o : AluOut) (i : Nat) :
    (aluFlags f o).getLsbD i = ((f.getLsbD i && decide (4 ≤ i)) || if i = 0 then o.res == 0 else if i = 1 then o.res.getLsbD 15
      else if i = 2 then o.c else if i = 3 then o.v else if i = 4 then o.sat else false) := by
  unfold aluFlags
  dsimp only
  rw [BitVec.getLsbD_or, getLsbD_and_upper, low_flags]

/-- CMP alone writes no register. -/
theorem aluFunc_write {f : Nat} {a b : Word16} {o : AluOut} (h : aluFunc f a b = some o) : o.write = decide (f ≠ 13) := by
  by_cases hf : f < 15
  · interval_cases f <;> cases h <;> rfl
  · obtain ⟨k, rfl⟩ : ∃ k, f = k + 15 := ⟨f - 15, by omega⟩
    cases h

/-- The engine after an ALU function: the flags anew, and its result in Dd unless it writes none. -/
def aluDone (e : Engine) (o : AluOut) (d : Nat) : Engine :=
  if o.write then ({ e with flags := aluFlags e.flags o } : Engine).setDn d o.res else { e with flags := aluFlags e.flags o }

/-- ALU and ALUI. -/
theorem alu_completes {s : State} {n : EngIx} {w : Word} {op : Nat} {c : Instr} {b : Word16} {o : AluOut} {body : Engine → Word → VatRes}
    (hx : exec c s = .next (s.vatStep n op body)) (hb : body s.engines[n] w = vatAluWith b s.engines[n] w)
    (h : Runs n op w s) (hd : vatDefined op = true) (hc : s.engines[n].cost op w = 1)
    (ho : aluFunc (fld w 22 4) (s.engines[n].dn (fld w 16 3)) b = some o) :
    Completes c s fun t => ∃ u, u = { s.engines[n] with d := u.d, flags := u.flags } ∧ Ran n s t u ∧
      (∀ j, u.dn j = if j = fld w 19 3 ∧ fld w 22 4 ≠ 13 then o.res else s.engines[n].dn j) ∧
      u.flags.getLsbD 0 = (o.res == 0) ∧ u.flags.getLsbD 1 = o.res.getLsbD 15 ∧ u.flags.getLsbD 2 = o.c ∧ u.flags.getLsbD 3 = o.v ∧
      u.flags.getLsbD 4 = (s.engines[n].flags.getLsbD 4 || o.sat) ∧ FlagsKept s.engines[n] u [0, 1, 2, 3, 4] := by
  generalize he : s.engines[n] = e at *
  have hw := aluFunc_write ho
  have hfr : aluDone e o (fld w 19 3) = { e with d := (aluDone e o (fld w 19 3)).d, flags := aluFlags e.flags o } := by
    unfold aluDone
    split
    · rw [setDn_frame]
    · rfl
  have hf : (aluDone e o (fld w 19 3)).flags = aluFlags e.flags o := by rw [hfr]
  refine completes_go (aluDone e o (fld w 19 3)) hx h hd (he ▸ hc) ?_ ?_ fun t ht =>
    ⟨_, by rw [hf]; exact hfr, ht, fun j => ?_, ?_, ?_, ?_, ?_, ?_, fun i hi => ?_⟩
  · rw [he, hb]
    unfold vatAluWith
    rw [ho]
    rfl
  · rw [hfr, he]
  · unfold aluDone
    rw [hw]
    by_cases h13 : fld w 22 4 = 13
    · rw [if_neg (by simp [h13]), if_neg fun x => x.2 h13]
      rfl
    · rw [if_pos (by simp [h13]), dn_setDn _ (fld_lt w 19 3)]
      by_cases hj : j = fld w 19 3
      · rw [if_pos hj, if_pos ⟨hj, h13⟩]
      · rw [if_neg hj, if_neg fun x => hj x.1]
        rfl
  · rw [hf, aluFlags_bit]
    simp
  · rw [hf, aluFlags_bit]
    simp
  · rw [hf, aluFlags_bit]
    simp
  · rw [hf, aluFlags_bit]
    simp
  · rw [hf, aluFlags_bit]
    simp
  · simp only [List.mem_cons, List.not_mem_nil, or_false, not_or] at hi
    obtain ⟨h0, h1, h2, h3, h4⟩ := hi
    rw [hf, aluFlags_bit, if_neg h0, if_neg h1, if_neg h2, if_neg h3, if_neg h4, decide_eq_true (by omega), Bool.and_true, Bool.or_false]

/-! ### The functions -/

theorem toInt_bounds (a : Word16) : -32768 ≤ a.toInt ∧ a.toInt ≤ 32767 := by
  have h1 := BitVec.le_toInt a
  have h2 := BitVec.toInt_lt (x := a)
  norm_num at h1 h2
  omega

/-- A 16-bit result is the exact one unless that is out of range. -/
theorem bmod_ne_iff (x : Int) : ovf16 x = true ↔ x.bmod 65536 ≠ x := by
  unfold ovf16
  rw [Int.bmod_def, Bool.or_eq_true, decide_eq_true_iff, decide_eq_true_iff]
  omega

theorem sat16_toInt (x : Int) : (sat16 x).toInt = max (-32768) (min 32767 x) := by
  have hv : satS 16 x = max (-32768) (min 32767 x) := rfl
  unfold sat16
  rw [hv, BitVec.toInt_ofInt, Int.bmod_def]
  omega

theorem sat16_iff (x : Int) : ovf16 x = true ↔ (sat16 x).toInt ≠ x := by
  rw [sat16_toInt]
  unfold ovf16
  rw [Bool.or_eq_true, decide_eq_true_iff, decide_eq_true_iff]
  omega

theorem carry_iff {a b : Nat} (ha : a < 65536) (hb : b < 65536) : (a + b) % 65536 + 65536 * b01 (decide (65536 ≤ a + b)) = a + b := by
  by_cases h : 65536 ≤ a + b
  · rw [decide_eq_true h]
    show _ + 65536 * 1 = _
    omega
  · rw [decide_eq_false h]
    show _ + 65536 * 0 = _
    omega

theorem sub_toInt (a b : Word16) : (a - b).toInt = (a.toInt - b.toInt).bmod 65536 := BitVec.toInt_sub

theorem sub_toNat (a b : Word16) : ((a - b).toNat : Int) = ((a.toNat : Int) - b.toNat) % 65536 := by
  have ha := a.isLt
  have hb := b.isLt
  rw [BitVec.toNat_sub]
  omega

/-- What each function of `aluFunc` gives (R332). -/
theorem aluFunc_values (a b : Word16) :
    (∀ f < 15, (aluFunc f a b).isSome = true) ∧ aluFunc 15 a b = none ∧
    (∀ o, aluFunc 0 a b = some o → o.res.toNat + 65536 * b01 o.c = a.toNat + b.toNat ∧ (o.v = true ↔ o.res.toInt ≠ a.toInt + b.toInt)) ∧
    (∀ o, aluFunc 1 a b = some o → o.res.toInt = max (-32768) (min 32767 (a.toInt + b.toInt)) ∧ (o.sat = true ↔ o.res.toInt ≠ a.toInt + b.toInt)) ∧
    (∀ f o, f = 2 ∨ f = 13 → aluFunc f a b = some o → (o.c = true ↔ b.toNat ≤ a.toNat) ∧
      (o.v = true ↔ o.res.toInt ≠ a.toInt - b.toInt) ∧ (o.res.toNat : Int) = ((a.toNat : Int) - b.toNat) % 65536) ∧
    (∀ o, aluFunc 3 a b = some o → o.res.toInt = max (-32768) (min 32767 (a.toInt - b.toInt)) ∧ (o.sat = true ↔ o.res.toInt ≠ a.toInt - b.toInt)) ∧
    (∀ o, aluFunc 9 a b = some o → o.res.toInt = a.toInt / 2 ^ (b.toNat % 16) ∧ o.v = false) ∧
    (∀ o, aluFunc 10 a b = some o → o.res.toInt = min a.toInt b.toInt ∧ o.c = false ∧ o.v = false) ∧
    (∀ o, aluFunc 12 a b = some o → o.res.toInt = min 32767 (a.toInt.natAbs : Int) ∧ (o.sat = true ↔ a.toInt = -32768)) := by
  refine ⟨fun f hf => ?_, rfl, fun o ho => ?_, fun o ho => ?_, fun f o hf ho => ?_, fun o ho => ?_, fun o ho => ?_, fun o ho => ?_, fun o ho => ?_⟩
  · interval_cases f <;> rfl
  · cases ho
    refine ⟨?_, ?_⟩
    · dsimp only
      rw [BitVec.toNat_add]
      exact carry_iff a.isLt b.isLt
    · dsimp only
      rw [BitVec.toInt_add]
      exact bmod_ne_iff _
  · cases ho
    exact ⟨sat16_toInt _, sat16_iff _⟩
  · have hs : ∀ x, (decide (b.toNat ≤ a.toNat) = true ↔ b.toNat ≤ a.toNat) ∧ (ovf16 (a.toInt - b.toInt) = true ↔ (a - b).toInt ≠ a.toInt - b.toInt) ∧
        x = x ∧ ((a - b).toNat : Int) = ((a.toNat : Int) - b.toNat) % 65536 := fun x : Nat =>
      ⟨decide_eq_true_iff, by rw [sub_toInt]; exact bmod_ne_iff _, rfl, sub_toNat a b⟩
    obtain ⟨h1, h2, _, h3⟩ := hs 0
    rcases hf with rfl | rfl <;> cases ho <;> exact ⟨h1, h2, h3⟩
  · cases ho
    exact ⟨sat16_toInt _, sat16_iff _⟩
  · cases ho
    refine ⟨?_, rfl⟩
    dsimp only
    rw [BitVec.toInt_sshiftRight, Int.shiftRight_eq_div_pow]
    norm_cast
  · cases ho
    refine ⟨?_, rfl, rfl⟩
    dsimp only
    split <;> omega
  · cases ho
    obtain ⟨h1, h2⟩ := toInt_bounds a
    refine ⟨?_, decide_eq_true_iff⟩
    rw [sat16_toInt]
    omega

/-! ### Search (R333) -/

/-- The engine after MMX read `v`: a new maximum or minimum noted with its count, and the count one higher. -/
def mmxDone (e u : Engine) (num : Word16 → Int) (v : Word16) : Engine :=
  let e2 := if e.maxi = 0xFFFF ∨ num e.maxv < num v then { u with maxv := v, maxi := e.mmcnt } else u
  let e3 := if e.mini = 0xFFFF ∨ num v < num e.minv then { e2 with minv := v, mini := e.mmcnt } else e2
  { e3 with mmcnt := e.mmcnt + 1 }

theorem mmxDone_effect {e u : Engine} {ds : List Nat} (h : Stepped e e u 1 ds) (num : Word16 → Int) (v : Word16) :
    mmxDone e u num v = { e with
      maxv := (mmxDone e u num v).maxv, maxi := (mmxDone e u num v).maxi, minv := (mmxDone e u num v).minv,
      mini := (mmxDone e u num v).mini, mmcnt := e.mmcnt + 1, flags := u.flags, p := u.p } ∧
    ((mmxDone e u num v).maxv, (mmxDone e u num v).maxi) =
      (if e.maxi = 0xFFFF ∨ num e.maxv < num v then (v, e.mmcnt) else (e.maxv, e.maxi)) ∧
    ((mmxDone e u num v).minv, (mmxDone e u num v).mini) =
      (if e.mini = 0xFFFF ∨ num v < num e.minv then (v, e.mmcnt) else (e.minv, e.mini)) := by
  have hf := h.frame
  unfold mmxDone
  by_cases h1 : e.maxi = 0xFFFF ∨ num e.maxv < num v <;> by_cases h2 : e.mini = 0xFFFF ∨ num v < num e.minv
  · simp only [if_pos h1, if_pos h2]
    exact ⟨by rw [hf], trivial, trivial⟩
  · simp only [if_pos h1, if_neg h2]
    exact ⟨by rw [hf], trivial, by rw [hf]⟩
  · simp only [if_neg h1, if_pos h2]
    exact ⟨by rw [hf], by rw [hf], trivial⟩
  · simp only [if_neg h1, if_neg h2]
    exact ⟨by rw [hf], by rw [hf], by rw [hf]⟩

/-- How MMX reads a word: unsigned or signed. -/
def mmxNum (w : Word) (x : Word16) : Int := if bit w 25 then (x.toNat : Int) else x.toInt

theorem mmx_completes {s : State} {n : EngIx} {w : Word} (h : Runs n 0x1A w s) (hm : s.engines[n].mmcnt ≠ 0xFFFF)
    (hu : Unlocked s.engines[n] [s.engines[n].ptr (fld w 20 5 / 4)]) : Completes (.mmx n) s fun t => ∃ u v,
      v = s.engines[n].word (s.engines[n].ptr (fld w 20 5 / 4)) ∧
      u = { s.engines[n] with
        maxv := u.maxv, maxi := u.maxi, minv := u.minv, mini := u.mini, mmcnt := s.engines[n].mmcnt + 1,
        flags := u.flags, p := u.p } ∧ Ran n s t u ∧
      (u.maxv, u.maxi) = (if s.engines[n].maxi = 0xFFFF ∨ mmxNum w s.engines[n].maxv < mmxNum w v then (v, s.engines[n].mmcnt)
        else (s.engines[n].maxv, s.engines[n].maxi)) ∧
      (u.minv, u.mini) = (if s.engines[n].mini = 0xFFFF ∨ mmxNum w v < mmxNum w s.engines[n].minv then (v, s.engines[n].mmcnt)
        else (s.engines[n].minv, s.engines[n].mini)) ∧
      Walks s.engines[n] u 1 [fld w 20 5] ∧ FlagsKept s.engines[n] u [7] := by
  generalize he : s.engines[n] = e at *
  have hst := stepped_one (e := e) 1 (fld w 20 5) rfl
  generalize hv : e.word (e.ptr (fld w 20 5 / 4)) = v
  obtain ⟨hf, hx, hn⟩ := mmxDone_effect hst (mmxNum w) v
  have hp : (mmxDone e (e.modify (fld w 20 5) 1 e) (mmxNum w) v).p = (e.modify (fld w 20 5) 1 e).p := by rw [hf]
  have hfl : (mmxDone e (e.modify (fld w 20 5) 1 e) (mmxNum w) v).flags = (e.modify (fld w 20 5) 1 e).flags := by rw [hf]
  refine completes_go (body := vatMmx) (mmxDone e (e.modify (fld w 20 5) 1 e) (mmxNum w) v) rfl h rfl rfl ?_ ?_ fun t ht =>
    ⟨_, v, rfl, ?_, ht, hx, hn, ⟨fun i => ?_, ?_⟩, fun i hi => ?_⟩
  · rw [he, ← hv]
    exact (if_neg hm).trans (guarded_of_unlocked hu)
  · rw [hf, he]
  · rw [hp, hfl]
    exact hf
  · rw [hp, hst.ptr]
  · rw [hfl, hst.hout]
  · rw [hfl]
    exact hst.kept i (by simpa using hi)

/-- Settles O31: ALU by `aluFunc`, whose functions are said one by one; MMX by its two comparisons. -/
theorem vatArithmeticAndSearch : Obligations.VatArithmeticAndSearch := by
  refine ⟨fun s n w => ⟨fun op c b o hc h ho => ?_, fun h => completes_go (body := vatMmclr) _ rfl h rfl rfl rfl rfl fun t ht => ht,
    fun h hm => ?_, fun num hn h hm hu => ?_⟩, aluFunc_values⟩
  · simp only [List.mem_cons, List.not_mem_nil, or_false, Prod.mk.injEq] at hc
    rcases hc with ⟨rfl, rfl, rfl⟩ | ⟨rfl, rfl, rfl⟩
    · exact alu_completes (body := vatAlu) rfl rfl h rfl rfl ho
    · exact alu_completes (body := vatAlui) rfl rfl h rfl rfl ho
  · exact completes_go (body := vatMmx) _ rfl h rfl rfl (if_pos hm) rfl fun t ht => ht
  · subst hn
    exact mmx_completes h hm hu

end Sys2Proof.Proofs

/-! SUPPORT. Fields of a register word, and the Vat engines' control flow. -/

namespace Sys2Proof.Proofs

open Sys2Proof Sys2Proof.Machine Sys2Proof.Claims

/-! ### Fields -/

/-- A word around one of its fields. -/
theorem word_around (x lo len : Nat) : x = 2 ^ lo * (2 ^ len * (x / 2 ^ lo / 2 ^ len) + x / 2 ^ lo % 2 ^ len) + x % 2 ^ lo := by
  rw [Nat.div_add_mod, Nat.div_add_mod]

/-- What a word with a field replaced is, as a number. -/
theorem setFld_toNat (w : Word) {lo len : Nat} (v : Nat) (h : lo + len ≤ 32) :
    (setFld w lo len v).toNat = 2 ^ lo * (2 ^ len * (w.toNat / 2 ^ lo / 2 ^ len) + v % 2 ^ len) + w.toNat % 2 ^ lo := by
  have hw := word_around w.toNat lo len
  have hv : v % 2 ^ len < 2 ^ len := Nat.mod_lt _ (Nat.two_pow_pos len)
  have hl : w.toNat % 2 ^ lo < 2 ^ lo := Nat.mod_lt _ (Nat.two_pow_pos lo)
  have hh : w.toNat / 2 ^ lo / 2 ^ len < 2 ^ (32 - lo - len) := by
    rw [Nat.div_div_eq_div_mul, ← Nat.pow_add, Nat.div_lt_iff_lt_mul (Nat.two_pow_pos _), ← Nat.pow_add]
    have : 32 - lo - len + (lo + len) = 32 := by omega
    rw [this]
    exact w.isLt
  have hb : 2 ^ lo * (2 ^ len * (w.toNat / 2 ^ lo / 2 ^ len) + v % 2 ^ len) + w.toNat % 2 ^ lo < 2 ^ 32 := by
    have h1 : 2 ^ len * (w.toNat / 2 ^ lo / 2 ^ len) + v % 2 ^ len < 2 ^ len * 2 ^ (32 - lo - len) := by
      calc 2 ^ len * (w.toNat / 2 ^ lo / 2 ^ len) + v % 2 ^ len < 2 ^ len * (w.toNat / 2 ^ lo / 2 ^ len + 1) := by rw [Nat.mul_add]; omega
        _ ≤ 2 ^ len * 2 ^ (32 - lo - len) := Nat.mul_le_mul_left _ hh
    have h2 : 2 ^ lo * (2 ^ len * 2 ^ (32 - lo - len)) = 2 ^ 32 := by
      rw [← Nat.pow_add, ← Nat.pow_add]
      congr 1
      omega
    calc _ < 2 ^ lo * (2 ^ len * (w.toNat / 2 ^ lo / 2 ^ len) + v % 2 ^ len + 1) := by rw [Nat.mul_add _ _ 1]; omega
      _ ≤ 2 ^ lo * (2 ^ len * 2 ^ (32 - lo - len)) := Nat.mul_le_mul_left _ h1
      _ = 2 ^ 32 := h2
  have he : w.toNat - fld w lo len * 2 ^ lo + v % 2 ^ len * 2 ^ lo =
      2 ^ lo * (2 ^ len * (w.toNat / 2 ^ lo / 2 ^ len) + v % 2 ^ len) + w.toNat % 2 ^ lo := by
    unfold fld
    generalize w.toNat / 2 ^ lo / 2 ^ len = q at *
    generalize w.toNat / 2 ^ lo % 2 ^ len = f at *
    generalize w.toNat % 2 ^ lo = r at *
    rw [hw, Nat.mul_add, Nat.mul_add, Nat.mul_comm f, Nat.mul_comm (v % 2 ^ len)]
    omega
  unfold setFld
  rw [BitVec.toNat_ofNat, he, Nat.mod_eq_of_lt hb]

/-- The bits of a word with a field replaced. -/
theorem bit_setFld (w : Word) {lo len : Nat} (v : Nat) (h : lo + len ≤ 32) (i : Nat) :
    bit (setFld w lo len v) i = if lo ≤ i ∧ i < lo + len then v.testBit (i - lo) else bit w i := by
  have hl : w.toNat % 2 ^ lo < 2 ^ lo := Nat.mod_lt _ (Nat.two_pow_pos lo)
  have hv : v % 2 ^ len < 2 ^ len := Nat.mod_lt _ (Nat.two_pow_pos len)
  unfold bit
  rw [← BitVec.testBit_toNat, ← BitVec.testBit_toNat, setFld_toNat w v h, Nat.testBit_two_pow_mul_add _ hl]
  by_cases h1 : i < lo
  · rw [if_pos h1, if_neg (by omega), Nat.testBit_mod_two_pow, decide_eq_true h1, Bool.true_and]
  · rw [if_neg h1, Nat.testBit_two_pow_mul_add _ hv]
    by_cases h2 : i - lo < len
    · rw [if_pos h2, if_pos (by omega), Nat.testBit_mod_two_pow, decide_eq_true h2, Bool.true_and]
    · rw [if_neg h2, if_neg (by omega), Nat.testBit_div_two_pow, Nat.testBit_div_two_pow]
      congr 1
      omega

/-- The field of a word with that field replaced. -/
theorem fld_setFld (w : Word) {lo len : Nat} (v : Nat) (h : lo + len ≤ 32) : fld (setFld w lo len v) lo len = v % 2 ^ len := by
  have hl : w.toNat % 2 ^ lo < 2 ^ lo := Nat.mod_lt _ (Nat.two_pow_pos lo)
  unfold fld
  rw [setFld_toNat w v h, Nat.mul_add_div (Nat.two_pow_pos lo), Nat.div_eq_of_lt hl, Nat.add_zero, Nat.mul_add_mod, Nat.mod_mod]

theorem fld_testBit (w : Word) (lo len i : Nat) : (fld w lo len).testBit i = (decide (i < len) && bit w (i + lo)) := by
  unfold fld bit
  rw [Nat.testBit_mod_two_pow, Nat.testBit_div_two_pow, BitVec.testBit_toNat]

/-- Words that agree on a field's bits have the same field. -/
theorem fld_congr {w v : Word} {lo len : Nat} (h : ∀ i, lo ≤ i → i < lo + len → bit w i = bit v i) : fld w lo len = fld v lo len := by
  refine Nat.eq_of_testBit_eq fun i => ?_
  rw [fld_testBit, fld_testBit]
  by_cases hi : i < len
  · rw [h (i + lo) (by omega) (by omega)]
  · rw [decide_eq_false hi, Bool.false_and, Bool.false_and]

/-- A field that lies apart from the one replaced. -/
theorem fld_setFld_apart (w : Word) {lo len a n : Nat} (v : Nat) (h : lo + len ≤ 32) (ha : a + n ≤ lo ∨ lo + len ≤ a) :
    fld (setFld w lo len v) a n = fld w a n :=
  fld_congr fun i h1 h2 => by rw [bit_setFld w v h, if_neg (by omega)]

/-- A field without the bit that is set, and without the one that is cleared. -/
theorem fld_setBit (w : Word) {i a n : Nat} (h : i < a ∨ a + n ≤ i) : fld (setBit w i) a n = fld w a n :=
  fld_congr fun j h1 h2 => bit_setBit_ne w (by omega)
theorem fld_clrBit (w : Word) {i a n : Nat} (h : i < a ∨ a + n ≤ i) : fld (clrBit w i) a n = fld w a n :=
  fld_congr fun j h1 h2 => bit_clrBit_ne w (by omega)

/-! ### Branches -/

/-- The conditions of BR, as R334 lists them. -/
theorem cond_eq (e : Engine) {c : Nat} (hc : c < 16) {z neg cy v : Bool} (hz : z = e.flags.getLsbD 0) (hn : neg = e.flags.getLsbD 1)
    (hcy : cy = e.flags.getLsbD 2) (hv : v = e.flags.getLsbD 3) :
    e.cond c = [true, z, !z, neg, !neg, !z && neg == v, z || neg != v, cy, !cy, v, !v, e.trueVal == 0, e.trueVal != 0, decide (e.trueVal < 0),
      e.flags.getLsbD 5, !e.transfers.isEmpty].getD c false := by
  subst hz hn hcy hv
  interval_cases c <;> rfl

section
variable {n : EngIx} {op : Nat} {w : Word} {s : State} {body : Engine → Word → VatRes} {r : Engine} {pc c : Nat} (h : Runs n op w s)
  (hd : vatDefined op = true) (hc : s.engines[n].cost op w = c) (hb : body s.engines[n] w = .jump r pc)
include h hd hc hb

/-- An instruction that jumps. -/
theorem vatStep_jump (hj : op ≠ 0x23 ∨ pc = s.engines[n].pc + 1) :
    s.vatStep n op body = s.modEng n fun _ => { r with pc := pc, opc := s.engines[n].opc + c } := by
  rw [vatStep_runs h hd, hb, hc]
  dsimp only
  rw [if_neg (by rintro ⟨h1, h2⟩; exact hj.elim (· h1) h2)]

end

/-- A change of an engine that gives what another does. -/
theorem modEng_congr (s : State) (n : EngIx) {f g : Engine → Engine} (h : f s.engines[n] = g s.engines[n]) : s.modEng n f = s.modEng n g := by
  unfold State.modEng
  rw [h]

/-! ### Cave transfers -/

/-- Whether a new transfer meets an outstanding one, as the instruction asks. -/
theorem meets_iff (x : Transfer) (k : Fin 4) (off a len : Nat) :
    (wrapOverlap a len x.addr x.len || (x.window == k.val && decide (x.offset < off + 2 * len) && decide (off < x.offset + 2 * x.len))) = true ↔
      ¬ Apart x k off a len := by
  unfold Apart
  rw [Bool.or_eq_true, Bool.and_eq_true, Bool.and_eq_true, beq_iff_eq, decide_eq_true_iff, decide_eq_true_iff]
  cases wrapOverlap a len x.addr x.len
  · simp
    omega
  · simp

/-- The pair of two data registers written with the halves of a number. -/
theorem pair_setPair (e : Engine) {k : Nat} (hk : k + 1 < 8) (x : Nat) :
    ((e.setDn k (BitVec.ofNat 16 x)).setDn (k + 1) (BitVec.ofNat 16 (x / 65536))).pair k = x % 2 ^ 32 := by
  unfold Engine.pair
  rw [dn_setPair _ (by omega) hk, dn_setPair _ (by omega) hk, if_neg (by omega), if_pos rfl, if_pos rfl, BitVec.toNat_ofNat, BitVec.toNat_ofNat]
  omega

/-- The engine once a Cave transfer is started, its pointer and pair advanced when ADV is 1. -/
def caveDone (e : Engine) (w : Word) (k : Fin 4) (off len : Nat) : Engine :=
  let e1 : Engine := { e with
    transfers := e.transfers ++ [{ toCave := bit w 25, window := k, offset := off, addr := e.ptr (fld w 20 3), len := len }] }
  if bit w 14 then
    (({ e1 with p := e1.p.set (fld w 20 3) (BitVec.ofNat 15 (e.ptr (fld w 20 3) + len)) (fld_lt w 20 3) } : Engine).setDn (2 * fld w 15 2)
      (BitVec.ofNat 16 (off + 2 * len))).setDn (2 * fld w 15 2 + 1) (BitVec.ofNat 16 ((off + 2 * len) / 65536))
  else e1

theorem caveDone_frame (e : Engine) (w : Word) (k : Fin 4) (off len : Nat) :
    caveDone e w k off len = { e with
      d := (caveDone e w k off len).d, p := (caveDone e w k off len).p
      transfers := e.transfers ++ [{ toCave := bit w 25, window := k, offset := off, addr := e.ptr (fld w 20 3), len := len }] } := by
  unfold caveDone
  dsimp only
  split
  · rw [setDn_frame, setDn_frame (Engine.mk ..)]
  · rfl

theorem caveDone_still {e : Engine} {w : Word} (h : bit w 14 = false) (k : Fin 4) (off len : Nat) :
    (caveDone e w k off len).d = e.d ∧ (caveDone e w k off len).p = e.p := by
  unfold caveDone
  dsimp only
  rw [if_neg (ne_true_of_eq_false h)]
  exact ⟨rfl, rfl⟩

theorem caveDone_advance {e : Engine} {w : Word} (h : bit w 14 = true) (k : Fin 4) (off len : Nat) :
    (∀ i : Fin 8, (caveDone e w k off len).p[i] =
      if i.val = fld w 20 3 then BitVec.ofNat 15 (e.ptr (fld w 20 3) + len) else e.p[i]) ∧
    (caveDone e w k off len).pair (2 * fld w 15 2) = (off + 2 * len) % 2 ^ 32 ∧
    ∀ j, j ≠ 2 * fld w 15 2 → j ≠ 2 * fld w 15 2 + 1 → (caveDone e w k off len).dn j = e.dn j := by
  have hp := fld_lt w 15 2
  unfold caveDone
  dsimp only
  rw [if_pos h]
  refine ⟨fun i => ?_, pair_setPair _ (by omega) _, fun j h1 h2 => ?_⟩
  · rw [setDn_frame, setDn_frame (Engine.mk ..)]
    dsimp only
    rw [Fin.getElem_fin, Vector.getElem_set]
    by_cases hi : i.val = fld w 20 3
    · rw [if_pos hi, if_pos hi.symm]
    · rw [if_neg hi, if_neg (Ne.symm hi)]
      rfl
  · rw [dn_setPair _ (by omega) (by omega), if_neg h2, if_neg h1]
    rfl

/-- A transfer within its window, no fifth and over no outstanding one, is started; another one waits. -/
theorem vatCave_ranged {e : Engine} {w : Word} {len off : Nat} {k : Fin 4} (hl : len = (e.dn (fld w 17 3)).toNat) (hk : k.val = fld w 23 2)
    (ho : off = e.pair (2 * fld w 15 2)) (h0 : 0 < len) (h1 : len ≤ 4096) (h2 : off % 2 = 0) (h3 : off + 2 * len ≤ (e.winSize[k]).toNat)
    (h4 : bit w 25 = true → k = 1 ∨ k = 2) :
    (e.transfers.length < 4 → (∀ x ∈ e.transfers, Apart x k off (e.ptr (fld w 20 3)) len) → vatCave e w = .go (caveDone e w k off len)) ∧
    (4 ≤ e.transfers.length ∨ (∃ x ∈ e.transfers, ¬ Apart x k off (e.ptr (fld w 20 3)) len) → vatCave e w = .stall) := by
  have hany : (e.transfers.any fun t => wrapOverlap (e.ptr (fld w 20 3)) len t.addr t.len ||
      (t.window == k.val && decide (t.offset < off + 2 * len) && decide (off < t.offset + 2 * t.len))) = true ↔
      ∃ x ∈ e.transfers, ¬ Apart x k off (e.ptr (fld w 20 3)) len := by
    rw [List.any_eq_true]
    exact exists_congr fun x => and_congr_right fun _ => meets_iff x k off _ len
  have h4' : ¬ (bit w 25 = true ∧ (k.val = 0 ∨ k.val = 3)) := by
    rintro ⟨hb, hk3⟩
    rcases h4 hb with rfl | rfl <;> simp at hk3
  have hc : vatCave e w = if e.transfers.length ≥ 4 then .stall
      else if e.transfers.any fun t => wrapOverlap (e.ptr (fld w 20 3)) len t.addr t.len ||
        (t.window == k.val && decide (t.offset < off + 2 * len) && decide (off < t.offset + 2 * t.len)) then .stall
      else .go (caveDone e w k off len) := by
    unfold vatCave
    dsimp only
    rw [← hl, ← hk, ← ho, ix_of_lt k.isLt, ix_of_lt (show fld w 20 3 < 8 from fld_lt w 20 3)]
    dsimp only
    rw [if_neg (by omega), if_neg (by rintro (h | h | h) <;> first | omega | exact absurd h3 (Nat.not_le.mpr h)), if_neg h4']
    unfold caveDone
    dsimp only
    congr 2
    split <;> rfl
  refine ⟨fun hn ha => ?_, fun hs => ?_⟩
  · rw [hc, if_neg (by omega), if_neg]
    rw [hany]
    rintro ⟨x, hx, hn⟩
    exact hn (ha x hx)
  · rw [hc]
    rcases hs with hs | hs
    · rw [if_pos hs]
    · rw [if_pos (hany.mpr hs), ite_self]

/-! ### The user event -/

theorem fireVat_same (s : State) (e : Engine) (c : Nat) : SameWork s (s.fireVat e c) ∧ (s.fireVat e c).ev = s.ev := by
  unfold State.fireVat
  split
  · exact ⟨modLook_same .., rfl⟩
  · exact ⟨.refl s, rfl⟩

/-- The engine after EVT. -/
def evtDone (e : Engine) (w : Word) : Engine :=
  { ({ e with stat := setFld (setBit e.stat 4) 16 8 (fld w 0 8) } : Engine).endIter e.pc (e.pc + 1) with opc := e.opc + 1 }

theorem evtDone_eq (e : Engine) (w : Word) : evtDone e w = { e with
    stat := setFld (setBit e.stat 4) 16 8 (fld w 0 8), pc := (loopEnd e.pc (e.pc + 1) e.loops).1,
    loops := (loopEnd e.pc (e.pc + 1) e.loops).2, opc := e.opc + 1 } := by
  unfold evtDone
  rw [endIter_eq]

/-- EVT changes its engine, and raises the engine's event while EV_USER is 1. -/
theorem evt_effect {s : State} {n : EngIx} {w : Word} (h : Runs n 0x02 w s) :
    ∃ t, exec (.evt n) s = .next t ∧ SameWork (s.modEng n fun _ => evtDone s.engines[n] w) t ∧ (bit s.engines[n].ctl 0 = false → t.ev = s.ev) ∧
      (bit s.engines[n].ctl 0 = true → s.boot.inReset = false → t.ev.pend.getLsbD (120 + n.val) = true) := by
  obtain ⟨hs, he⟩ := fireVat_same (s.modEng n fun _ => evtDone s.engines[n] w) s.engines[n] (fld w 0 8)
  have hn := n.isLt
  by_cases hc : bit s.engines[n].ctl 0 = true
  · refine ⟨((s.modEng n fun _ => evtDone s.engines[n] w).fireVat s.engines[n] (fld w 0 8)).raiseN (120 + n.val), ?_, hs.trans (raiseN_same ..),
      fun hf => absurd hc (ne_true_of_eq_false hf), fun _ hu => ?_⟩
    · exact congrArg _ ((vatStep_runs (body := vatEvt) h rfl).trans (if_pos hc))
    · rw [State.raiseN, ix_of_lt (show 120 + n.val < 256 by omega)]
      exact raise_pend _ _ ⟨120 + n.val, by omega⟩ (by rw [hs.boot]; exact hu) (.inl rfl)
  · refine ⟨(s.modEng n fun _ => evtDone s.engines[n] w).fireVat s.engines[n] (fld w 0 8), ?_, hs, fun _ => he, fun hf => absurd hf hc⟩
    exact congrArg _ ((vatStep_runs (body := vatEvt) h rfl).trans (if_neg hc))

/-! ### Stalls -/

/-- A load or store one of whose accesses meets a transfer stalls. -/
theorem guarded_of_locked {e : Engine} {as : List Nat} (r : VatRes) (h : ∃ a ∈ as, e.locked a = true) : e.guarded as r = .stall :=
  if_pos (List.any_eq_true.mpr h)

/-- Settles O32: each instruction's jump, transfer or stall is read off its body. -/
theorem vatControlFlow : Obligations.VatControlFlow := by
  rintro s n w e rfl
  refine ⟨fun z neg cy v hz hn hcy hv h => ⟨fun hc => ?_, fun hc => ?_⟩, fun h hc => ?_, fun r cs h hc => ?_, fun count hcnt h => ⟨fun h0 hl => ?_, fun h0 => ?_⟩,
    fun h => ?_, fun len off k h hl hk ho h0 h1 h2 h3 h4 => ?_, fun h h0 => ?_, fun op c as hc h hl => ?_, fun h => ⟨fun hl => ?_, fun hl => ?_⟩⟩
  · rw [← cond_eq _ (fld_lt w 22 4) hz hn hcy hv] at hc
    have hcost : s.engines[n].cost 0x20 w = 2 := if_pos hc
    exact congrArg _ ((vatStep_jump (body := vatBr) h rfl hcost (if_pos hc) (.inl (by decide))).trans (modEng_congr s n rfl))
  · rw [← cond_eq _ (fld_lt w 22 4) hz hn hcy hv] at hc
    have hcost : s.engines[n].cost 0x20 w = 1 := if_neg (ne_true_of_eq_false hc)
    exact completes_go (body := vatBr) _ rfl h rfl hcost (if_neg (ne_true_of_eq_false hc)) rfl fun t ht => ht
  · exact congrArg _ ((vatStep_jump (body := vatCall) h rfl rfl (if_neg (by omega)) (.inl (by decide))).trans (modEng_congr s n rfl))
  · have hb : vatRet s.engines[n] w = .jump { s.engines[n] with calls := cs } r := by
      unfold vatRet
      rw [hc]
    exact congrArg _ ((vatStep_jump (body := vatRet) h rfl rfl hb (.inl (by decide))).trans (modEng_congr s n rfl))
  · have hb : vatLoop s.engines[n] w = .jump { s.engines[n] with
        loops := { first := s.engines[n].pc + 1, last := s.engines[n].pc + (fld w 15 10 + 1), count := count } :: s.engines[n].loops }
        (s.engines[n].pc + 1) := by
      unfold vatLoop
      dsimp only
      rw [← hcnt, if_neg (by omega), if_neg (by omega)]
    exact congrArg _ ((vatStep_jump (body := vatLoop) h rfl rfl hb (.inr rfl)).trans (modEng_congr s n rfl))
  · have hb : vatLoop s.engines[n] w = .jump s.engines[n] (s.engines[n].pc + 1 + (fld w 15 10 + 1)) := by
      unfold vatLoop
      dsimp only
      rw [← hcnt, if_pos h0]
    have hp : s.engines[n].pc + 1 + (fld w 15 10 + 1) = s.engines[n].pc + fld w 15 10 + 2 := by omega
    refine congrArg _ ((vatStep_runs (body := vatLoop) h rfl).trans ?_)
    rw [hb, hp]
    dsimp only
    rw [if_pos ⟨rfl, by omega⟩]
    refine modEng_congr s n ?_
    rw [endIter_eq]
    rfl
  · obtain ⟨t, hx, hs, he, hp⟩ := evt_effect h
    have hen : t.engines[n] = evtDone s.engines[n] w := by rw [hs.engines, modEng_at]
    have hst : t.engines[n].stat = setFld (setBit s.engines[n].stat 4) 16 8 (fld w 0 8) := by rw [hen, evtDone_eq]
    refine ⟨t, hx, ?_, fun m hm => ?_, ?_, ?_, ?_, ?_, fun i _ h4 h16 => ?_, he, hp⟩
    · rw [hs.engines]
      exact hs
    · rw [hs.engines, State.modEng_engines, Fin.getElem_fin, Vector.getElem_set_ne _ _ (fun x => hm (Fin.ext x.symm))]
      rfl
    · rw [hen, evtDone_eq]
      rfl
    · rw [hen, evtDone_eq]
    · rw [hst, bit_setFld _ _ (by decide), if_neg (by decide), bit_setBit_self _ (by decide)]
    · rw [hst, fld_setFld _ _ (by decide), Nat.mod_eq_of_lt (fld_lt w 0 8)]
    · rw [hst, bit_setFld _ _ (by decide), if_neg (by omega), bit_setBit_ne _ h4]
  · obtain ⟨hgo, hstall⟩ := vatCave_ranged hl hk ho h0 h1 h2 h3 h4
    refine ⟨fun hn ha => completes_go (body := vatCave) _ rfl h rfl rfl (hgo hn ha) (by rw [caveDone_frame]) fun t ht =>
      ⟨_, caveDone_frame .., ht, fun hb => caveDone_still hb k off len, fun hb => caveDone_advance hb k off len⟩, fun hs => ?_⟩
    exact congrArg _ (vatStep_stall (body := vatCave) h rfl (hstall hs))
  · exact completes_go (body := vatCave) _ rfl h rfl rfl (if_pos h0) rfl fun t ht => ht
  · simp only [List.mem_cons, List.not_mem_nil, or_false, Prod.mk.injEq] at hc
    rcases hc with ⟨rfl, rfl, rfl⟩ | ⟨rfl, rfl, rfl⟩ | ⟨rfl, rfl, rfl⟩ | ⟨rfl, rfl, rfl⟩
    · exact congrArg _ (vatStep_stall (body := vatLd) h rfl (guarded_of_locked _ hl))
    · exact congrArg _ (vatStep_stall (body := vatSt) h rfl (guarded_of_locked _ hl))
    · exact congrArg _ (vatStep_stall (body := vatLd2) h rfl (guarded_of_locked _ hl))
    · exact congrArg _ (vatStep_stall (body := vatSt2) h rfl (guarded_of_locked _ hl))
  · exact completes_go (body := vatCwait) _ rfl h rfl rfl (if_pos hl) rfl fun t ht => ht
  · exact congrArg _ (vatStep_stall (body := vatCwait) h rfl (if_neg (Nat.not_le.mpr hl)))

end Sys2Proof.Proofs

/-! SUPPORT. The registers of the event block: pending bits, routes and messages. -/

namespace Sys2Proof.Proofs

open Sys2Proof Sys2Proof.Machine Sys2Proof.Claims

/-! ### Pending bits -/

/-- The bit of one index. -/
theorem getLsbD_one_shift {w : Nat} {a : Nat} (n : Nat) (hn : n < w) (ha : a < w) : (1#w <<< a).getLsbD n = decide (n = a) := by
  rw [BitVec.getLsbD_shiftLeft, BitVec.getLsbD_one, decide_eq_true hn, Bool.true_and]
  by_cases h : n = a
  · subst h
    simp
    omega
  · rw [decide_eq_false h]
    by_cases h2 : n < a
    · simp [h2]
    · simp [h2]
      omega

theorem clearPend_bit (s : State) {a : Nat} (ha : a < 256) (n : EvIx) :
    (s.clearPend a).ev.pend.getLsbD n.val = (s.ev.pend.getLsbD n.val && decide (n.val ≠ a)) := by
  show (s.ev.pend &&& ~~~(1#256 <<< a)).getLsbD n.val = _
  rw [BitVec.getLsbD_and, BitVec.getLsbD_not, getLsbD_one_shift n.val n.isLt ha, decide_eq_true n.isLt, Bool.true_and, decide_not]

/-- What a state has of everything but its pending bits and their self-clears. -/
structure PendOnly (s t : State) : Prop where
  work : SameWork s t
  cfg : t.ev.cfg = s.ev.cfg
  en : t.ev.en = s.ev.en
  links : t.links = s.links

theorem PendOnly.refl (s : State) : PendOnly s s := ⟨.refl s, rfl, rfl, rfl⟩
theorem PendOnly.trans {s t u : State} (h : PendOnly s t) (k : PendOnly t u) : PendOnly s u :=
  ⟨h.work.trans k.work, k.cfg.trans h.cfg, k.en.trans h.en, k.links.trans h.links⟩

theorem clearPend_only (s : State) (a : Nat) : PendOnly s (s.clearPend a) := ⟨by constructor <;> rfl, rfl, rfl, rfl⟩

/-- Clearing the bits of a list. -/
theorem clearPends (base : Nat) (l : List Nat) (hl : ∀ j ∈ l, base + j < 256) (s : State) :
    PendOnly s (l.foldl (fun u j => u.clearPend (base + j)) s) ∧
      ∀ n : EvIx, (l.foldl (fun u j => u.clearPend (base + j)) s).ev.pend.getLsbD n.val =
        (s.ev.pend.getLsbD n.val && decide (∀ j ∈ l, n.val ≠ base + j)) := by
  induction l generalizing s with
  | nil => exact ⟨.refl s, fun n => by simp⟩
  | cons j l ih =>
    obtain ⟨h1, h2⟩ := ih (fun x hx => hl x (List.mem_cons_of_mem _ hx)) (s.clearPend (base + j))
    refine ⟨(clearPend_only s _).trans h1, fun n => ?_⟩
    rw [List.foldl_cons, h2, clearPend_bit s (hl j List.mem_cons_self), Bool.and_assoc]
    congr 1
    simp

/-- The indices of a word's set bits. -/
def setBits (w : Word) : List Nat := (List.range 32).filter fun j => bit w j

theorem mem_setBits {w : Word} {j : Nat} : j ∈ setBits w ↔ j < 32 ∧ bit w j = true := by
  simp [setBits]

theorem setBits_zero : setBits 0 = [] := by decide

/-- Event `n` is bit `n % 32` of register `n / 32`. -/
theorem clears_iff (k : Fin 8) (v : Word) (n : EvIx) :
    decide (∀ j ∈ setBits v, n.val ≠ 32 * k.val + j) = !(decide (n.val / 32 = k.val) && bit v (n.val % 32)) := by
  rw [Bool.eq_iff_iff, decide_eq_true_iff, Bool.not_eq_true', Bool.and_eq_false_iff, decide_eq_false_iff_not]
  constructor
  · intro h
    by_cases hk : n.val / 32 = k.val
    · refine .inr (eq_false_of_ne_true fun hb => ?_)
      exact h (n.val % 32) (mem_setBits.mpr ⟨Nat.mod_lt _ (by decide), hb⟩) (by omega)
    · exact .inl hk
  · rintro h j hj rfl'
    obtain ⟨hj, hb⟩ := mem_setBits.mp hj
    have h1 : n.val / 32 = k.val := by omega
    have h2 : n.val % 32 = j := by omega
    rw [h2] at h
    exact h.elim (· h1) (ne_false_of_eq_true hb)

/-- Raising the events of a list leaves each of them pending. -/
theorem raises_pend (base : Nat) (l : List Nat) (s : State) (hr : s.boot.inReset = false) :
    SameWork s (l.foldl (fun u j => u.raiseN (base + j)) s) ∧
      ∀ n : EvIx, (s.ev.pend.getLsbD n.val = true ∨ ∃ j ∈ l, n.val = base + j) →
        (l.foldl (fun u j => u.raiseN (base + j)) s).ev.pend.getLsbD n.val = true := by
  induction l generalizing s with
  | nil => exact ⟨.refl s, fun n h => h.elim id fun ⟨j, hj, _⟩ => absurd hj List.not_mem_nil⟩
  | cons j l ih =>
    have hs := raiseN_same s (base + j)
    obtain ⟨h1, h2⟩ := ih (s.raiseN (base + j)) (by rw [hs.boot]; exact hr)
    refine ⟨hs.trans h1, fun n h => h2 n ?_⟩
    have hp : ∀ n : EvIx, s.ev.pend.getLsbD n.val = true ∨ n.val = base + j → (s.raiseN (base + j)).ev.pend.getLsbD n.val = true := by
      intro n hn
      unfold State.raiseN
      by_cases hb : base + j < 256
      · rw [ix_of_lt hb]
        exact raise_pend _ _ _ hr (hn.symm.imp (fun h => Fin.ext h) id)
      · rw [ix_of_le (Nat.not_lt.mp hb)]
        exact hn.elim id fun h => absurd n.isLt (by omega)
    rcases h with h | ⟨x, hx, he⟩
    · exact .inl (hp n (.inl h))
    · rcases List.mem_cons.mp hx with rfl | hx
      · exact .inl (hp n (.inr he))
      · exact .inr ⟨x, hx, he⟩

/-! ### T_EVENT -/

/-- An occurrence leaves T_EVENT of a pending event. -/
theorem occur_tEvent_of_pend (s : State) (m n : EvIx) (hr : s.boot.inReset = false) (hn : s.ev.pend.getLsbD n.val = true) :
    (s.occur m).1.ev.tEvent[n] = s.ev.tEvent[n] := by
  cases hp : s.ev.pend.getLsbD m.val with
  | true => rw [occur_of_pending s m hr hp]; rfl
  | false =>
    obtain ⟨q, hev⟩ := occur_ev_of_not_pending s m hr hp
    have hne : m.val ≠ n.val := fun h => by rw [h, hn] at hp; exact Bool.noConfusion hp
    rw [hev]
    show (s.ev.tEvent.set m s.time.dev)[n] = _
    rw [Fin.getElem_fin, Vector.getElem_set_ne _ _ hne]
    rfl

theorem raise_tEvent (s : State) (n : EvIx) (hr : s.boot.inReset = false) (hp : s.ev.pend.getLsbD n.val = false) :
    (s.raise n).ev.tEvent[n] = s.time.dev := by
  have h1 := occur_tEvent_of_not_pending s n hr hp
  have hr1 : (s.occur n).1.boot.inReset = false := by rw [(occur_same s n).boot]; exact hr
  have hp1 : (s.occur n).1.ev.pend.getLsbD n.val = true := by rw [occur_pend_getLsbD s n n hr]; simp
  have hr2 : ((s.occur n).1.occur 245).1.boot.inReset = false := by rw [(occur_same _ _).boot]; exact hr1
  have hp2 : ((s.occur n).1.occur 245).1.ev.pend.getLsbD n.val = true := by rw [occur_pend_getLsbD _ _ n hr1, hp1, Bool.true_or]
  unfold State.raise
  dsimp only
  split
  · split
    · rw [occur_tEvent_of_pend _ _ n hr2 hp2, occur_tEvent_of_pend _ _ n hr1 hp1, h1]
    · rw [occur_tEvent_of_pend _ _ n hr1 hp1, h1]
  · exact h1

/-! ### Messages -/

theorem lateMsix_keeps (s : State) (n : EvIx) : SameWork s (s.lateMsix n) ∧ (s.lateMsix n).ev = s.ev := by
  unfold State.lateMsix
  split
  · exact ⟨msix_same .., msix_ev ..⟩
  · exact ⟨.refl s, rfl⟩

/-- What messages leave: the event block and, of the links, all but the pending messages; messages sent and pending stay so. -/
structure Messaged (s t : State) : Prop where
  work : SameWork s t
  ev : t.ev = s.ev
  links : t.links = { s.links with pba := t.links.pba }
  pba : ∀ v : Nat, s.links.pba.getLsbD v = true → t.links.pba.getLsbD v = true
  out : ∀ o ∈ s.out, o ∈ t.out

theorem Messaged.refl (s : State) : Messaged s s := ⟨.refl s, rfl, rfl, fun _ h => h, fun _ h => h⟩
theorem Messaged.trans {s t u : State} (h : Messaged s t) (k : Messaged t u) : Messaged s u :=
  ⟨h.work.trans k.work, k.ev.trans h.ev, by rw [k.links, h.links], fun v hv => k.pba v (h.pba v hv), fun o ho => k.out o (h.out o ho)⟩

theorem msix_messaged (s : State) (v : BitVec 8) : Messaged s (s.msix v) := by
  have hc : ∀ u : State, s.msix v = u → u.links = { s.links with pba := u.links.pba } →
      (∀ v : Nat, s.links.pba.getLsbD v = true → u.links.pba.getLsbD v = true) → (∀ o ∈ s.out, o ∈ u.out) → Messaged s (s.msix v) := by
    rintro u rfl h1 h2 h3
    exact ⟨msix_same .., msix_ev .., h1, h2, h3⟩
  by_cases h1 : (s.links.msixEnable && decide (s.links.pcieWidth ≠ 0)) = true
  · by_cases h2 : s.links.masked v = true
    · exact hc _ ((if_pos h1).trans (if_pos h2)) rfl (fun x h => by simp [State.modLinks, h]) fun o h => h
    · exact hc _ ((if_pos h1).trans (if_neg h2)) rfl (fun x h => h) fun o h => List.mem_append_left _ h
  · exact hc s (if_neg h1) rfl (fun x h => h) fun o h => h

/-- A message that is requested is sent, or held pending while its vector is masked. -/
theorem msix_requested {s : State} (h1 : s.links.msixEnable = true) (h2 : s.links.pcieWidth ≠ 0) (v : BitVec 8) :
    (s.links.masked v = true → (s.msix v).links.pba.getLsbD v.toNat = true) ∧
      (s.links.masked v = false → Output.msix v.toNat ∈ (s.msix v).out) := by
  have hv := v.isLt
  unfold State.msix
  rw [if_pos (by simp [h1, h2])]
  refine ⟨fun hm => ?_, fun hm => ?_⟩
  · rw [if_pos hm]
    show (s.links.pba ||| (1#256 <<< v.toNat)).getLsbD v.toNat = true
    rw [BitVec.getLsbD_or, getLsbD_one_shift _ hv hv, decide_eq_true rfl, Bool.or_true]
  · rw [if_neg (ne_true_of_eq_false hm)]
    exact List.mem_append_right _ (List.mem_singleton.mpr rfl)

theorem msixs_requested (l : List (BitVec 8)) {s : State} (h1 : s.links.msixEnable = true) (h2 : s.links.pcieWidth ≠ 0) :
    Messaged s (l.foldl (fun u v => u.msix v) s) ∧ ∀ v ∈ l,
      (s.links.masked v = true → (l.foldl (fun u v => u.msix v) s).links.pba.getLsbD v.toNat = true) ∧
      (s.links.masked v = false → Output.msix v.toNat ∈ (l.foldl (fun u v => u.msix v) s).out) := by
  induction l generalizing s with
  | nil => exact ⟨.refl s, fun v h => absurd h List.not_mem_nil⟩
  | cons x l ih =>
    have hx := msix_messaged s x
    obtain ⟨hm, hr⟩ := ih (s := s.msix x) (by rw [hx.links]; exact h1) (by rw [hx.links]; exact h2)
    have hmask : ∀ v, (s.msix x).links.masked v = s.links.masked v := fun v => by rw [hx.links]; rfl
    refine ⟨hx.trans hm, fun v hv => ?_⟩
    rcases List.mem_cons.mp hv with rfl | hv
    · obtain ⟨h3, h4⟩ := msix_requested h1 h2 v
      exact ⟨fun h => hm.pba _ (h3 h), fun h => hm.out _ (h4 h)⟩
    · obtain ⟨h3, h4⟩ := hr v hv
      rw [hmask] at h3 h4
      exact ⟨h3, h4⟩

/-- Requesting messages, whatever the links allow. -/
theorem msixs_messaged (l : List (BitVec 8)) (s : State) : Messaged s (l.foldl (fun u v => u.msix v) s) := by
  induction l generalizing s with
  | nil => exact .refl s
  | cons x l ih => exact (msix_messaged s x).trans (ih _)

/-! ### Routes -/

/-- EN with one of its words replaced. -/
theorem en_bit (en : BitVec 256) (k : Fin 8) (v : Word) (n : EvIx) :
    ((en &&& ~~~(0xFFFFFFFF#256 <<< (32 * k.val))) ||| (v.setWidth 256 <<< (32 * k.val))).getLsbD n.val =
      if n.val / 32 = k.val then bit v (n.val % 32) else en.getLsbD n.val := by
  have hn := n.isLt
  have hf : ∀ i : Nat, (0xFFFFFFFF#256).getLsbD i = decide (i < 32) := by
    intro i
    have h : (0xFFFFFFFF#256) = (BitVec.allOnes 32).setWidth 256 := by decide
    rw [h, BitVec.getLsbD_setWidth, BitVec.getLsbD_allOnes]
    by_cases hi : i < 32 <;> simp [hi]
    omega
  rw [BitVec.getLsbD_or, BitVec.getLsbD_and, BitVec.getLsbD_not, BitVec.getLsbD_shiftLeft, BitVec.getLsbD_shiftLeft, hf, BitVec.getLsbD_setWidth,
    decide_eq_true hn, Bool.true_and, Bool.true_and]
  by_cases h1 : n.val / 32 = k.val
  · have h2 : ¬ n.val < 32 * k.val := by omega
    have h3 : n.val - 32 * k.val < 32 := by omega
    have h4 : n.val - 32 * k.val = n.val % 32 := by omega
    rw [if_pos h1, decide_eq_false h2, decide_eq_true h3, h4, decide_eq_true (by omega)]
    simp [bit]
  · rw [if_neg h1]
    by_cases h2 : n.val < 32 * k.val
    · simp [h2]
    · have h3 : ¬ n.val - 32 * k.val < 32 := by omega
      have h4 : v.getLsbD (n.val - 32 * k.val) = false := BitVec.getLsbD_of_ge _ _ (by omega)
      rw [decide_eq_false h2, decide_eq_false h3, h4]
      simp

/-- Late messages of the events of a list. -/
theorem lateMsixs_keep (base : Nat) (l : List Nat) (s : State) :
    SameWork s (l.foldl (fun u j => match ix 256 (base + j) with | some n => u.lateMsix n | none => u) s) ∧
      (l.foldl (fun u j => match ix 256 (base + j) with | some n => u.lateMsix n | none => u) s).ev = s.ev := by
  induction l generalizing s with
  | nil => exact ⟨.refl s, rfl⟩
  | cons j l ih =>
    have hj : ∀ u : State, SameWork s u ∧ u.ev = s.ev →
        SameWork s (l.foldl (fun u j => match ix 256 (base + j) with | some n => u.lateMsix n | none => u) u) ∧
          (l.foldl (fun u j => match ix 256 (base + j) with | some n => u.lateMsix n | none => u) u).ev = s.ev :=
      fun u hu => ⟨hu.1.trans (ih u).1, (ih u).2.trans hu.2⟩
    refine hj _ ?_
    dsimp only
    cases ix 256 (base + j) with
    | some n => exact lateMsix_keeps s n
    | none => exact ⟨.refl s, rfl⟩

/-- The event block after a write of EV_CFGn. -/
def routed (n : EvIx) (v : Word) (s : State) : Events :=
  { s.ev with
    cfg := s.ev.cfg.set n { s.ev.cfg[n] with vector := BitVec.ofNat 8 (fld v 0 8), msix := bit v 8, packet := bit v 9 }
    clearAt := if bit v 8 then s.ev.clearAt.filter fun x => x.1 != n.val
      else if s.ev.cfg[n].msix && s.ev.pend.getLsbD n.val then (s.ev.clearAt.filter fun x => x.1 != n.val) ++ [(n.val, s.time.mono + 10 * us)]
      else s.ev.clearAt }

theorem routed_cfg (n : EvIx) (v : Word) (s : State) : (routed n v s).cfg[n] =
    { vector := BitVec.ofNat 8 (fld v 0 8), msix := bit v 8, packet := bit v 9, count := (s.ev.cfg[n]).count } :=
  Vector.getElem_set_self ..

theorem cfgWrite_eq (n : EvIx) (v : Word) (s : State) : evRouteWrite (.cfg n) v s =
    if bit v 8 && !(s.ev.cfg[n]).msix && s.ev.pend.getLsbD n.val && s.ev.en.getLsbD n.val
      then (s.modEv fun _ => routed n v s).msix (BitVec.ofNat 8 (fld v 0 8)) else s.modEv fun _ => routed n v s := by
  have hm : (s.modEv fun _ => routed n v s).ev.cfg[n] = _ := routed_cfg n v s
  have h : evRouteWrite (.cfg n) v s = if bit v 8 && !(s.ev.cfg[n]).msix then (s.modEv fun _ => routed n v s).lateMsix n
      else s.modEv fun _ => routed n v s := rfl
  rw [h]
  by_cases h1 : (bit v 8 && !(s.ev.cfg[n]).msix) = true
  · rw [if_pos h1, h1, Bool.true_and, State.lateMsix, hm]
    dsimp only
    rw [(Bool.and_eq_true ..).mp h1 |>.1, Bool.and_true]
    rfl
  · rw [if_neg h1, eq_false_of_ne_true h1]
    rfl

/-- The vectors with an event pending, enabled and routed to them. -/
def lateVectors (s : State) : List (BitVec 8) :=
  ((List.finRange 256).filter fun n => s.ev.pend.getLsbD n.val && s.ev.en.getLsbD n.val && s.ev.cfg[n].msix).map fun n => s.ev.cfg[n].vector

/-- Settles O36: pending bits by the clears and raises of a write, routes and messages by what they request. -/
theorem eventRegistersRouteAndClear : Obligations.EventRegistersRouteAndClear := by
  intro s hr
  have hw : ∀ f : State → State, Host.Outcome.next (s.written f) = (.next (f s) : Host.Outcome State Fault Refusal) :=
    fun f => congrArg _ (if_neg (ne_true_of_eq_false hr))
  refine ⟨fun k v => ⟨_, hw _, ?_⟩, fun k v occ => ⟨_, hw _, ?_⟩, fun k v => ⟨_, hw _, ?_⟩, fun n v => ⟨_, hw _, s.modEv fun _ => routed n v s, rfl, ?_⟩,
    fun n t0 ht => ⟨⟨_, rfl, ?_⟩, ⟨_, rfl, ?_⟩⟩, fun hm => ⟨_, hw _, ?_⟩⟩
  · obtain ⟨h1, h2⟩ := clearPends (32 * k.val) (setBits v) (fun j hj => by have := (mem_setBits.mp hj).1; omega) s
    have he : evPendClear k v 0 s = (setBits v).foldl (fun u j => u.clearPend (32 * k.val + j)) s :=
      congrArg (fun l => List.foldl (fun u j => State.raiseN u (32 * k.val + j)) _ l) setBits_zero
    rw [he]
    exact ⟨h1.work, h1.cfg, h1.en, h1.links, fun n => by rw [h2, clears_iff]⟩
  · obtain ⟨h1, -⟩ := clearPends (32 * k.val) (setBits v) (fun j hj => by have := (mem_setBits.mp hj).1; omega) s
    obtain ⟨h3, h4⟩ := raises_pend (32 * k.val) (setBits occ) ((setBits v).foldl (fun u j => u.clearPend (32 * k.val + j)) s)
      (by rw [h1.work.boot]; exact hr)
    refine ⟨h1.work.trans h3, fun n hn hb => h4 n (.inr ⟨n.val % 32, mem_setBits.mpr ⟨Nat.mod_lt _ (by decide), hb⟩, by omega⟩)⟩
  · obtain ⟨h1, h2⟩ := lateMsixs_keep (32 * k.val) ((List.range 32).filter fun j => bit v j && !(bit (word256 s.ev.en k.val) j))
      ({ s with ev := { s.ev with en := (s.ev.en &&& ~~~(0xFFFFFFFF#256 <<< (32 * k.val))) ||| (v.setWidth 256 <<< (32 * k.val)) } } : State)
    have he := fun {α : Type} (π : Events → α) => congrArg π h2
    refine ⟨.trans (by constructor <;> rfl) h1, he Events.pend, he Events.cfg, fun n => ?_⟩
    exact (he fun e => e.en.getLsbD n.val).trans (en_bit s.ev.en k v n)
  · refine ⟨routed_cfg n v s, fun m hmn => ?_, rfl, rfl, fun hx hb hp => ?_, cfgWrite_eq n v s⟩
    · exact Vector.getElem_set_ne n.isLt m.isLt (fun h => hmn (Fin.ext h.symm))
    · show _ ∈ (routed n v s).clearAt
      unfold routed
      dsimp only
      rw [if_neg (ne_true_of_eq_false hb), if_pos (by rw [hx, hp]; rfl)]
      exact List.mem_append_right _ (List.mem_singleton.mpr rfl)
  · have he : pendingSelfClear n false s = (s.until t0).clearPend n.val := by
      unfold pendingSelfClear
      rw [ht]
      rfl
    rw [he]
    refine ⟨(clearPend_only ..).work, fun m => ?_⟩
    rw [clearPend_bit _ n.isLt, State.until_ev]
    congr 1
    rw [Bool.eq_iff_iff]
    simp [Fin.ext_iff]
  · have he : pendingSelfClear n true s = ((s.until t0).clearPend n.val).raise n := by
      unfold pendingSelfClear
      rw [ht]
      rfl
    have hr1 : ((s.until t0).clearPend n.val).boot.inReset = false := hr
    have hp1 : ((s.until t0).clearPend n.val).ev.pend.getLsbD n.val = false := by
      rw [clearPend_bit _ n.isLt]
      simp
    rw [he]
    exact ⟨(clearPend_only ..).work.trans (raise_same ..), raise_pend _ _ _ hr1 (.inl rfl), raise_tEvent _ _ hr1 hp1⟩
  · have he : msixEnable s = (lateVectors s).eraseDups.foldl (fun u v => u.msix v) (s.modLinks fun l => { l with msixEnable := true }) :=
      if_neg (ne_true_of_eq_false hm)
    have hg := msixs_messaged (lateVectors s).eraseDups (s.modLinks fun l => { l with msixEnable := true })
    rw [he]
    refine ⟨(modLinks_same ..).trans hg.work, by rw [hg.links]; rfl, hg.ev, fun n hp hen hx h0 => ?_⟩
    refine (msixs_requested (lateVectors s).eraseDups (s := s.modLinks fun l => { l with msixEnable := true }) rfl h0).2 _ ?_
    rw [List.mem_eraseDups, lateVectors, List.mem_map]
    exact ⟨n, List.mem_filter.mpr ⟨List.mem_finRange n, by rw [hp, hen, hx]; rfl⟩, rfl⟩

end Sys2Proof.Proofs

/-! SUPPORT. Footprints: which parts of the state an operation of the model may change. Events, records, replies, links and triggers move freely;
no operation here clears a pending event. -/

namespace Sys2Proof.Proofs
open Sys2Proof Sys2Proof.Machine Sys2Proof.Claims

/-! ### Parts -/

/-- A part of the state. -/
inductive Part where
  | pending | free | time | glb | settings | commits | ports | lanes | pipes | sdc | shut | emOn | clk | tiu | axc1 | rind | rindMain | engines | images
  | loads | press | jobs | savedJobs | hostArea | zones | ladle | boot | aon | links | look | sessions
deriving DecidableEq

/-- A part stands in `t` as it did in `s`. -/
def Part.Same : Part → State → State → Prop
  | .pending, s, t => t.pending = s.pending
  | .free, s, t => t.free = s.free
  | .time, s, t => t.time = s.time
  | .glb, s, t => t.glb = s.glb
  | .settings, s, t => t.settings = s.settings
  | .commits, s, t => t.commits = s.commits
  | .ports, s, t => t.ports = s.ports
  | .lanes, s, t => t.lanes = s.lanes
  | .pipes, s, t => t.pipes = s.pipes
  | .sdc, s, t => t.sdc = s.sdc
  | .shut, s, t => t.shut = s.shut
  | .emOn, s, t => t.emOn = s.emOn
  | .clk, s, t => t.clk = s.clk
  | .tiu, s, t => t.tiu = s.tiu
  | .axc1, s, t => t.axc1 = s.axc1
  | .rind, s, t => t.rind = s.rind
  | .rindMain, s, t => t.rindMain = s.rindMain
  | .engines, s, t => t.engines = s.engines
  | .images, s, t => t.images = s.images
  | .loads, s, t => t.loads = s.loads
  | .press, s, t => t.press = s.press
  | .jobs, s, t => t.jobs = s.jobs
  | .savedJobs, s, t => t.savedJobs = s.savedJobs
  | .hostArea, s, t => t.hostArea = s.hostArea
  | .zones, s, t => t.zones = s.zones
  | .ladle, s, t => t.ladle = s.ladle
  | .boot, s, t => t.boot = s.boot
  | .aon, s, t => t.aon = s.aon
  | .links, s, t => t.links = { s.links with cr := t.links.cr, pba := t.links.pba, spiWaiting := t.links.spiWaiting }
  | .look, s, t => t.look = { s.look with due := t.look.due }
  | .sessions, s, t => SameSess s t

theorem Part.Same.refl (p : Part) (s : State) : p.Same s s := by
  cases p
  case sessions => exact SameSess.refl s
  all_goals rfl

theorem Part.Same.trans {p : Part} {s t u : State} (h : p.Same s t) (k : p.Same t u) : p.Same s u := by
  cases p
  case sessions => exact SameSess.trans h k
  case links =>
    have h1 : t.links = _ := h
    have k1 : u.links = _ := k
    show u.links = _
    rw [k1, h1]
  case look =>
    have h1 : t.look = _ := h
    have k1 : u.look = _ := k
    show u.look = _
    rw [k1, h1]
  all_goals exact Eq.trans k h

theorem Part.same_of_sameWork {s t : State} (h : SameWork s t) (q : Calm s t) (k : SameSess s t) (p : Part) : p.Same s t := by
  obtain ⟨⟩ := h
  cases p
  case links => exact q.links
  case look => exact q.look
  all_goals assumption

/-- The bits of LADLE_STAT that only software clears (R378) stay set. -/
def Sticky (a b : Ladle) : Prop := ∀ i, 2 ≤ i → i ≤ 6 → bit a.stat i = true → bit b.stat i = true

/-- Nothing but the parts `F` changes from `s` to `t`, every pending event of `s` is pending in `t`, every output of `s` stands, and so do the Ladle's
sticky bits. -/
structure Only (F : List Part) (s t : State) : Prop where
  same : ∀ p, p ∉ F → p.Same s t
  pend : ∀ n : EvIx, s.ev.pend.getLsbD n.val = true → t.ev.pend.getLsbD n.val = true
  out : s.out ⊆ t.out
  sticky : Sticky s.ladle t.ladle

variable {F : List Part} {s t u : State}

theorem Only.refl (F : List Part) (s : State) : Only F s s := ⟨fun p _ => .refl p s, fun _ h => h, fun _ h => h, fun _ _ _ h => h⟩

theorem Only.trans (h : Only F s t) (k : Only F t u) : Only F s u :=
  ⟨fun p hp => (h.same p hp).trans (k.same p hp), fun n hn => k.pend n (h.pend n hn), fun _ ho => k.out (h.out ho), fun i h2 h6 hi => k.sticky i h2 h6 (h.sticky i h2 h6 hi)⟩

theorem Only.mono {G : List Part} (h : Only F s t) (hF : F ⊆ G) : Only G s t := ⟨fun p hp => h.same p (mt (fun x => hF x) hp), h.pend, h.out, h.sticky⟩

theorem Only.andThen {G : List Part} (h : Only F s t) (k : Only G t u) (hG : G ⊆ F := by decide) : Only F s u := h.trans (k.mono hG)

theorem Only.foldl {α : Type} {f : State → α → State} (h : ∀ s a, Only F s (f s a)) (l : List α) (s : State) : Only F s (l.foldl f s) := by
  induction l generalizing s with
  | nil => exact .refl F s
  | cons a l ih => exact (h s a).trans (ih _)

theorem Only.forEach {f : Nat → State → State} (h : ∀ n s, Only F s (f n s)) (l : List Nat) (s : State) : Only F s (forEach l f s) :=
  .foldl (fun u n => h n u) l s

theorem Only.forPorts {f : PortIx → State → State} (h : ∀ p s, Only F s (f p s)) (s : State) : Only F s (s.forPorts f) :=
  .foldl (fun u n => h n u) _ s

theorem Only.ite {c : Prop} [Decidable c] (h : c → Only F s t) (k : ¬c → Only F s u) : Only F s (if c then t else u) := by
  split
  · exact h ‹_›
  · exact k ‹_›

/-- `s` with the parts `F` of `t`. -/
def overlay (F : List Part) (s t : State) : State :=
  { s with
    pending := if .pending ∈ F then t.pending else s.pending
    free := if .free ∈ F then t.free else s.free
    time := if .time ∈ F then t.time else s.time
    glb := if .glb ∈ F then t.glb else s.glb
    settings := if .settings ∈ F then t.settings else s.settings
    commits := if .commits ∈ F then t.commits else s.commits
    ports := if .ports ∈ F then t.ports else s.ports
    lanes := if .lanes ∈ F then t.lanes else s.lanes
    pipes := if .pipes ∈ F then t.pipes else s.pipes
    sdc := if .sdc ∈ F then t.sdc else s.sdc
    shut := if .shut ∈ F then t.shut else s.shut
    emOn := if .emOn ∈ F then t.emOn else s.emOn
    clk := if .clk ∈ F then t.clk else s.clk
    tiu := if .tiu ∈ F then t.tiu else s.tiu
    axc1 := if .axc1 ∈ F then t.axc1 else s.axc1
    rind := if .rind ∈ F then t.rind else s.rind
    rindMain := if .rindMain ∈ F then t.rindMain else s.rindMain
    engines := if .engines ∈ F then t.engines else s.engines
    images := if .images ∈ F then t.images else s.images
    loads := if .loads ∈ F then t.loads else s.loads
    press := if .press ∈ F then t.press else s.press
    jobs := if .jobs ∈ F then t.jobs else s.jobs
    savedJobs := if .savedJobs ∈ F then t.savedJobs else s.savedJobs
    hostArea := if .hostArea ∈ F then t.hostArea else s.hostArea
    zones := if .zones ∈ F then t.zones else s.zones
    ladle := if .ladle ∈ F then t.ladle else s.ladle
    boot := if .boot ∈ F then t.boot else s.boot
    aon := if .aon ∈ F then t.aon else s.aon }

theorem overlaid {α : Type} {p : Part} {a b : α} (h : p ∉ F → a = b) : a = if p ∈ F then a else b := by
  split
  · rfl
  · exact h ‹_›

/-- A footprint as `SameWork` states it. -/
theorem Only.sameWork (h : Only F s t) : SameWork (overlay F s t) t := by
  constructor
  · exact overlaid (h.same .pending)
  · exact overlaid (h.same .free)
  · exact overlaid (h.same .time)
  · exact overlaid (h.same .glb)
  · exact overlaid (h.same .settings)
  · exact overlaid (h.same .commits)
  · exact overlaid (h.same .ports)
  · exact overlaid (h.same .lanes)
  · exact overlaid (h.same .pipes)
  · exact overlaid (h.same .sdc)
  · exact overlaid (h.same .shut)
  · exact overlaid (h.same .emOn)
  · exact overlaid (h.same .clk)
  · exact overlaid (h.same .tiu)
  · exact overlaid (h.same .axc1)
  · exact overlaid (h.same .rind)
  · exact overlaid (h.same .rindMain)
  · exact overlaid (h.same .engines)
  · exact overlaid (h.same .images)
  · exact overlaid (h.same .loads)
  · exact overlaid (h.same .press)
  · exact overlaid (h.same .jobs)
  · exact overlaid (h.same .savedJobs)
  · exact overlaid (h.same .hostArea)
  · exact overlaid (h.same .zones)
  · exact overlaid (h.same .ladle)
  · exact overlaid (h.same .boot)
  · exact overlaid (h.same .aon)

/-! What stands, part by part. -/

theorem Only.time (h : Only F s t) (hp : Part.time ∉ F := by decide) : t.time = s.time := h.same .time hp
theorem Only.settings (h : Only F s t) (hp : Part.settings ∉ F := by decide) : t.settings = s.settings := h.same .settings hp
theorem Only.commits (h : Only F s t) (hp : Part.commits ∉ F := by decide) : t.commits = s.commits := h.same .commits hp
theorem Only.ports (h : Only F s t) (hp : Part.ports ∉ F := by decide) : t.ports = s.ports := h.same .ports hp
theorem Only.lanes (h : Only F s t) (hp : Part.lanes ∉ F := by decide) : t.lanes = s.lanes := h.same .lanes hp
theorem Only.pipes (h : Only F s t) (hp : Part.pipes ∉ F := by decide) : t.pipes = s.pipes := h.same .pipes hp
theorem Only.sdc (h : Only F s t) (hp : Part.sdc ∉ F := by decide) : t.sdc = s.sdc := h.same .sdc hp
theorem Only.shut (h : Only F s t) (hp : Part.shut ∉ F := by decide) : t.shut = s.shut := h.same .shut hp
theorem Only.emOn (h : Only F s t) (hp : Part.emOn ∉ F := by decide) : t.emOn = s.emOn := h.same .emOn hp
theorem Only.clk (h : Only F s t) (hp : Part.clk ∉ F := by decide) : t.clk = s.clk := h.same .clk hp
theorem Only.tiu (h : Only F s t) (hp : Part.tiu ∉ F := by decide) : t.tiu = s.tiu := h.same .tiu hp
theorem Only.axc1 (h : Only F s t) (hp : Part.axc1 ∉ F := by decide) : t.axc1 = s.axc1 := h.same .axc1 hp
theorem Only.rind (h : Only F s t) (hp : Part.rind ∉ F := by decide) : t.rind = s.rind := h.same .rind hp
theorem Only.rindMain (h : Only F s t) (hp : Part.rindMain ∉ F := by decide) : t.rindMain = s.rindMain := h.same .rindMain hp
theorem Only.engines (h : Only F s t) (hp : Part.engines ∉ F := by decide) : t.engines = s.engines := h.same .engines hp
theorem Only.press (h : Only F s t) (hp : Part.press ∉ F := by decide) : t.press = s.press := h.same .press hp
theorem Only.zones (h : Only F s t) (hp : Part.zones ∉ F := by decide) : t.zones = s.zones := h.same .zones hp
theorem Only.ladle (h : Only F s t) (hp : Part.ladle ∉ F := by decide) : t.ladle = s.ladle := h.same .ladle hp
theorem Only.boot (h : Only F s t) (hp : Part.boot ∉ F := by decide) : t.boot = s.boot := h.same .boot hp
theorem Only.glb (h : Only F s t) (hp : Part.glb ∉ F := by decide) : t.glb = s.glb := h.same .glb hp
theorem Only.aon (h : Only F s t) (hp : Part.aon ∉ F := by decide) : t.aon = s.aon := h.same .aon hp
theorem Only.jobs (h : Only F s t) (hp : Part.jobs ∉ F := by decide) : t.jobs = s.jobs := h.same .jobs hp

theorem Only.links (h : Only F s t) (hp : Part.links ∉ F := by decide) :
    t.links = { s.links with cr := t.links.cr, pba := t.links.pba, spiWaiting := t.links.spiWaiting } := h.same .links hp

theorem Only.eth (h : Only F s t) (hp : Part.links ∉ F := by decide) : t.links.eth = s.links.eth := by
  have hl : t.links = _ := h.same .links hp
  rw [hl]

theorem Only.port (h : Only F s t) (p : PortIx) (hp : Part.ports ∉ F := by decide) : t.ports[p] = s.ports[p] := by rw [h.ports hp]
theorem Only.engine (h : Only F s t) (n : EngIx) (hp : Part.engines ∉ F := by decide) : t.engines[n] = s.engines[n] := by rw [h.engines hp]
theorem Only.inReset (h : Only F s t) (hp : Part.boot ∉ F := by decide) : t.boot.inReset = s.boot.inReset := by rw [h.boot hp]

/-! ### Events and records -/

theorem raise_only (s : State) (n : EvIx) : Only F s (s.raise n) := by
  refine ⟨fun p _ => Part.same_of_sameWork (raise_same s n) (raise_calm s n) (raise_sess s n) p, fun m hm => ?_, (raise_calm s n).out,
    fun i _ _ hi => by rw [(raise_same s n).ladle]; exact hi⟩
  cases hr : s.boot.inReset
  · exact raise_pend s n m hr (.inr hm)
  · have ho : ∀ (u : State) (k : EvIx), u.boot.inReset = true → u.occur k = (u, false) := fun u k hu => if_pos hu
    unfold State.raise
    rw [ho s n hr]
    exact hm

theorem raiseN_only (s : State) (n : Nat) : Only F s (s.raiseN n) := by
  unfold State.raiseN
  split
  · exact raise_only ..
  · exact .refl ..

/-- Work, links, triggers and sessions left alone, with no event. -/
theorem Only.of_ev (h : SameWork s t) (q : Calm s t) (he : t.ev = s.ev) (hs : t.sessions = s.sessions) : Only F s t :=
  ⟨fun p _ => Part.same_of_sameWork h q (SameSess.of_eq hs) p, fun n hn => by rw [he]; exact hn, q.out, fun i _ _ hi => by rw [h.ladle]; exact hi⟩

theorem push_only (s : State) (n : Nat) (z : Option Nat) (r : Rec) (c : Nat) (b : Bool) : Only F s (s.push n z r c b) :=
  .of_ev (push_same ..) (push_calm ..) (push_ev ..) (push_sessions ..)

theorem modStreams_only (s : State) (f : Streams → Streams) : Only F s (s.modStreams f) := .of_ev (modStreams_same ..) (.of_eq rfl rfl) rfl rfl
theorem emit_only (s : State) (o : Output) : Only F s (s.emit o) := .of_ev (emit_same ..) (emit_calm ..) rfl rfl

theorem flushEth_only (s : State) : Only F s s.flushEth := .of_ev (flushEth_same ..) (flushEth_calm ..) (flushEth_ev ..) (flushEth_sessions ..)

theorem whey_only (s : State) (n : Nat) (z : Option Nat) (w : Whey) : Only F s (s.whey n z w) :=
  (modStreams_only ..).trans (push_only ..)

theorem wheyZone_only (s : State) (z : Nat) (w : Whey) : Only F s (s.wheyZone z w) := whey_only ..

/-! ### One part of the state -/

/-- Only the part `q` changes. -/
theorem only_part (q : Part) {s t : State} (h : ∀ p, p ≠ q → p.Same s t) (he : t.ev = s.ev := by rfl) (ho : t.out = s.out := by rfl)
    (hl : Sticky s.ladle t.ladle := by exact fun _ _ _ h => h) : Only [q] s t :=
  ⟨fun p hp => h p (by simpa using hp), fun n hn => by rw [he]; exact hn, fun o h => by rw [ho]; exact h, hl⟩

theorem modZone_only (s : State) (z : Nat) (f : ZoneRt → ZoneRt) : Only [.zones] s (s.modZone z f) :=
  only_part .zones fun p hp => by cases p <;> first | rfl | exact absurd rfl hp | exact SameSess.of_eq rfl
theorem zones_only (s : State) (zs : List ZoneRt) : Only [.zones] s { s with zones := zs } :=
  only_part .zones fun p hp => by cases p <;> first | rfl | exact absurd rfl hp | exact SameSess.of_eq rfl
theorem jobs_only (s : State) (js : List HostJob) : Only [.jobs] s { s with jobs := js } :=
  only_part .jobs fun p hp => by cases p <;> first | rfl | exact absurd rfl hp | exact SameSess.of_eq rfl
theorem modLadle_only (s : State) (f : Ladle → Ladle) (h : Sticky s.ladle (f s.ladle) := by exact fun _ _ _ h => h) : Only [.ladle] s (s.modLadle f) :=
  only_part .ladle (fun p hp => by cases p <;> first | rfl | exact absurd rfl hp | exact SameSess.of_eq rfl) rfl rfl h
theorem modLadle_setBit_only (s : State) (i : Nat) (hi : i < 32) : Only [.ladle] s (s.modLadle fun l => { l with stat := setBit l.stat i }) :=
  modLadle_only _ _ fun j _ _ hj => by
    by_cases h : j = i
    · subst h
      exact bit_setBit_self _ hi
    · exact (bit_setBit_ne _ h).trans hj
theorem modPort_only (s : State) (p : PortIx) (f : Port → Port) : Only [.ports] s (s.modPort p f) :=
  only_part .ports fun p hp => by cases p <;> first | rfl | exact absurd rfl hp | exact SameSess.of_eq rfl
theorem modTiu_only (s : State) (f : Tiu → Tiu) : Only [.tiu] s (s.modTiu f) :=
  only_part .tiu fun p hp => by cases p <;> first | rfl | exact absurd rfl hp | exact SameSess.of_eq rfl
theorem modBoot_only (s : State) (f : Boot → Boot) : Only [.boot] s (s.modBoot f) :=
  only_part .boot fun p hp => by cases p <;> first | rfl | exact absurd rfl hp | exact SameSess.of_eq rfl
theorem modClk_only (s : State) (f : Clocks → Clocks) : Only [.clk] s (s.modClk f) :=
  only_part .clk fun p hp => by cases p <;> first | rfl | exact absurd rfl hp | exact SameSess.of_eq rfl
theorem modSdc_only (s : State) (f : Sdc → Sdc) : Only [.sdc] s (s.modSdc f) :=
  only_part .sdc fun p hp => by cases p <;> first | rfl | exact absurd rfl hp | exact SameSess.of_eq rfl
theorem modRind_only (s : State) (f : Rind → Rind) : Only [.rind] s (s.modRind f) :=
  only_part .rind fun p hp => by cases p <;> first | rfl | exact absurd rfl hp | exact SameSess.of_eq rfl
theorem time_only (s : State) (x : TimeSt) : Only [.time] s { s with time := x } :=
  only_part .time fun p hp => by cases p <;> first | rfl | exact absurd rfl hp | exact SameSess.of_eq rfl
theorem modLinks_only (s : State) (f : Links → Links) : Only [.links] s (s.modLinks f) :=
  only_part .links fun p hp => by cases p <;> first | rfl | exact absurd rfl hp | exact SameSess.of_eq rfl
theorem modLook_only (s : State) (f : Lookback → Lookback) : Only [.look] s (s.modLook f) :=
  only_part .look fun p hp => by cases p <;> first | rfl | exact absurd rfl hp | exact SameSess.of_eq rfl
theorem fresh_only (s : State) : Only [.free] s s.fresh.2 :=
  only_part .free fun p hp => by cases p <;> first | rfl | exact absurd rfl hp | exact SameSess.of_eq rfl
theorem modPress_only (s : State) (n : PressIx) (f : PressLane → PressLane) : Only [.press] s (s.modPress n f) :=
  only_part .press fun p hp => by cases p <;> first | rfl | exact absurd rfl hp | exact SameSess.of_eq rfl
theorem onPress_only (s : State) (n : Nat) (f : PressLane → PressLane) : Only [.press] s (s.onPress n f) := by
  unfold State.onPress
  split
  · exact modPress_only ..
  · exact .refl ..
theorem onPort_only (s : State) (n : Nat) (f : Port → Port) : Only [.ports] s (s.onPort n f) := by
  unfold State.onPort
  split
  · exact modPort_only ..
  · exact .refl ..

/-! ### Zones: what they form, stage and discard -/

theorem hostLate_only (s : State) (z : Nat) : Only [.zones, .ladle] s (s.hostLate z) :=
  ((modZone_only ..).mono (by decide)).trans ((modLadle_setBit_only _ 2 (by omega)).mono (by decide))

theorem discard_only (s : State) (z c : Nat) (b : Lost) : Only [.zones, .ladle] s (s.discard z c b) := by
  have h0 : Only [.zones, .ladle] s (if (c = 2 && s.starvedLong z) = true then s.hostLate z else s) :=
    .ite (fun _ => hostLate_only ..) fun _ => .refl ..
  unfold State.discard
  dsimp only
  split
  · exact h0
  · split
    · exact h0.trans ((modZone_only ..).mono (by decide))
    · exact (h0.trans ((modZone_only ..).mono (by decide))).trans (raise_only ..)

theorem endRun_only (s : State) (z : Nat) : Only [.zones] s (s.endRun z) := by
  unfold State.endRun
  split
  · exact .refl ..
  · split
    · exact (modZone_only ..).trans (.foldl (fun _ _ => wheyZone_only ..) _ _)
    · exact .refl ..

theorem dropOldest_only (k : Nat) (s : State) (z need room : Nat) : Only [.zones, .ladle] s (s.dropOldest k z need room) := by
  induction k generalizing s with
  | zero => exact .refl ..
  | succ k ih =>
    rw [State.dropOldest]
    split
    · exact .refl ..
    · split
      · exact .refl ..
      · exact ((modStreams_only ..).trans (discard_only ..)).trans (ih _)

theorem stage_only (s : State) (z n : Nat) (r : Rec) (c : Nat) : Only [.zones, .ladle] s (s.stage z n r c) := by
  have he : Only [.zones, .ladle] s (s.endRun z) := (endRun_only ..).mono (by decide)
  unfold State.stage
  dsimp only
  split
  · exact he.trans (push_only ..)
  · split
    · exact discard_only ..
    · split
      · exact (dropOldest_only ..).trans (push_only ..)
      · exact (dropOldest_only ..).trans (discard_only ..)
    · split
      · exact (he.trans ((modLadle_only ..).mono (by decide))).trans (push_only ..)
      · exact discard_only ..

/-- What zones change as they form and close frames. -/
abbrev zoneParts : List Part := [.zones, .ladle, .press, .jobs]

theorem offerBlock_only (s : State) (n : Nat) (b : PressBlk) : Only zoneParts s (s.offerBlock n b) := by
  unfold State.offerBlock
  have h1 : Only zoneParts s (s.onPress n fun l => { l with
      blocks := l.blocks ++ [b], stat := if fld l.stat 0 3 = 3 then l.stat else setFld l.stat 0 3 1 }) := (onPress_only ..).mono (by decide)
  exact h1.trans ((jobs_only ..).mono (by decide : [Part.jobs] ⊆ zoneParts))

theorem emitFrame_only (s : State) (z product band : Nat) (native early : Bool) (head : FrameHead) (first width nCols : Nat) (rows : List Row) :
    Only zoneParts s (s.emitFrame z product band native early head first width nCols rows) := by
  have hz : ∀ (u : State) (f : ZoneRt → ZoneRt), Only zoneParts u (u.modZone z f) := fun u f => (modZone_only ..).mono (by decide)
  unfold State.emitFrame
  split
  · exact .refl ..
  · dsimp only
    split
    · exact ((hz _ _).trans (hz _ _)).trans (offerBlock_only ..)
    · exact (hz _ _).trans ((stage_only ..).mono (by decide))

theorem closeFrame_only (s : State) (z product band : Nat) (early : Bool) : Only zoneParts s (s.closeFrame z product band early) := by
  unfold State.closeFrame
  split
  · exact .refl ..
  · exact ((modZone_only ..).mono (by decide)).trans (emitFrame_only ..)

theorem closeAll_only (s : State) (z : Nat) (early : Bool) : Only zoneParts s (s.closeAll z early) := by
  unfold State.closeAll
  split
  · exact .refl ..
  · exact .foldl (fun _ _ => closeFrame_only ..) _ _

theorem syncReset_only (s : State) (z : Nat) (x : Time) : Only zoneParts s (s.syncReset z x) :=
  (closeAll_only ..).trans ((modZone_only ..).mono (by decide))

theorem syncResetAny_only (s : State) (z : Nat) (x : Time) : Only zoneParts s (s.syncResetAny z x) := by
  unfold State.syncResetAny
  split
  · exact syncReset_only ..
  · exact (modZone_only ..).mono (by decide)

theorem syncResetPort_only (s : State) (p : Nat) (x : Time) : Only zoneParts s (s.syncResetPort p x) := .forEach (fun _ _ => syncResetAny_only ..) _ _
theorem resetNamed_only (s : State) (p : Nat) (x : Time) : Only zoneParts s (s.resetNamed p x) := .forEach (fun _ _ => syncResetAny_only ..) _ _

theorem restartCurd_only (s : State) (z : Nat) : Only [.zones] s (s.restartCurd z) := modZone_only ..

theorem closeUnder_only (s : State) (old : Settings) (z : Nat) : Only zoneParts s (s.closeUnder old z) := by
  have h := closeAll_only ({ s with settings := old } : State) z true
  refine ⟨fun p hp => ?_, h.pend, h.out, h.sticky⟩
  have hs := h.same p hp
  cases p <;> first | exact hs | rfl

theorem rezone_only (s : State) (old : Settings) (z : Nat) (x : Time) (ring : Bool) : Only zoneParts s (s.rezone old z x ring) := by
  have hz : ∀ (u : State) (f : ZoneRt → ZoneRt), Only zoneParts u (u.modZone z f) := fun u f => (modZone_only ..).mono (by decide)
  have step : ∀ {a b : State} (c : Prop) [Decidable c], Only zoneParts s a → Only zoneParts a b → Only zoneParts s (if c then b else a) :=
    fun c _ h k => .ite (fun _ => h.trans k) fun _ => h
  unfold State.rezone
  exact step _ (step _ (step _ (step _ (.refl ..) (closeUnder_only ..)) (syncReset_only ..)) (hz _ _)) (hz _ _)

theorem zoneWork_only (s : State) (p : PortIx) (w : Later) : Only zoneParts s (s.zoneWork p w) := by
  have h1 : Only zoneParts s (forEach ((zonesOf w.old p.val).filter fun z => match s.zoneRt z with | some r => r.state == 2 && !r.gone.isEmpty | none => false)
      (fun z u => u.closeUnder w.old z) s) := .forEach (fun _ _ => closeUnder_only ..) _ _
  have h2 := h1.trans (.forEach (fun n v => rezone_only v w.old n w.inst w.ring) ((zonesOf s.settings p.val).filter fun z => (zonesOf w.old p.val).contains z) _)
  unfold State.zoneWork
  dsimp only
  split
  · exact h2.trans (syncResetPort_only ..)
  · exact h2.trans (resetNamed_only ..)

end Sys2Proof.Proofs

/-! SUPPORT. Clock gates (R206 to R211), the frequency counter (R212 to R217) and TIME_CAPTURE: the gates of the blocks act on the clock registers
alone, and a converter that leaves its role gives it to the spare. -/

namespace Sys2Proof.Proofs
open Sys2Proof Sys2Proof.Machine Sys2Proof.Claims

theorem bit_putBit_self (w : Word) {i : Nat} (b : Bool) (h : i < 32) : bit (putBit w i b) i = b := by
  cases b
  · exact bit_clrBit_self w i
  · exact bit_setBit_self w h

theorem bit_putBit_ne (w : Word) {i j : Nat} (b : Bool) (h : j ≠ i) : bit (putBit w i b) j = bit w j := by
  cases b
  · exact bit_clrBit_ne w h
  · exact bit_setBit_ne w h

/-! ### What the end of a measurement leaves alone -/

/-- Only measurements, the ports' delays and what events move differ; the roles of the converters and their RETIRED bits stay. -/
structure MeasWork (s t : State) : Prop where
  only : Only [.tiu, .ports] s t
  tiu : t.tiu = { s.tiu with run := t.tiu.run, queue := t.tiu.queue, stat := t.tiu.stat }
  bits : ∀ i, i < 20 → bit t.tiu.stat i = bit s.tiu.stat i
  ports : ∀ p : PortIx, t.ports[p] = { s.ports[p] with delay := t.ports[p].delay }
  anchorAt : ∀ p : PortIx, t.ports[p].delay.anchorAt = s.ports[p].delay.anchorAt

theorem MeasWork.of_only {s t : State} (h : Only [] s t) : MeasWork s t := by
  have h1 : t.tiu = s.tiu := h.same .tiu (by decide)
  have h2 : t.ports = s.ports := h.same .ports (by decide)
  exact ⟨h.mono (by decide), by rw [h1], fun i _ => by rw [h1], fun p => by rw [h2], fun p => by rw [h2]⟩

theorem MeasWork.refl (s : State) : MeasWork s s := .of_only (.refl _ s)

theorem MeasWork.trans {s t u : State} (h : MeasWork s t) (k : MeasWork t u) : MeasWork s u :=
  ⟨h.only.trans k.only, by rw [k.tiu, h.tiu], fun i hi => (k.bits i hi).trans (h.bits i hi), fun p => by rw [k.ports p, h.ports p],
    fun p => (k.anchorAt p).trans (h.anchorAt p)⟩

theorem MeasWork.conv {s t : State} (h : MeasWork s t) : t.tiu.conv = s.tiu.conv := by rw [h.tiu]

theorem modTiu_measWork (s : State) (f : Tiu → Tiu) (h : ∀ i, i < 20 → bit (f s.tiu).stat i = bit s.tiu.stat i)
    (ht : ∃ r q w, f s.tiu = { s.tiu with run := r, queue := q, stat := w } := by exact ⟨_, _, _, rfl⟩) : MeasWork s (s.modTiu f) := by
  obtain ⟨r, q, w, he⟩ := ht
  refine ⟨(modTiu_only s f).mono (by decide), ?_, h, fun _ => rfl, fun _ => rfl⟩
  rw [State.modTiu_tiu, he]

theorem onPort_delay (s : State) (p : Nat) (f : Port → DelaySt) (hf : ∀ q, (f q).anchorAt = q.delay.anchorAt) (r : PortIx) :
    (s.onPort p fun q => { q with delay := f q }).ports[r] =
      { s.ports[r] with delay := (s.onPort p fun q => { q with delay := f q }).ports[r].delay } ∧
    (s.onPort p fun q => { q with delay := f q }).ports[r].delay.anchorAt = s.ports[r].delay.anchorAt := by
  unfold State.onPort
  split
  · rename_i k _
    rw [modPort_at]
    split
    · exact ⟨rfl, hf _⟩
    · exact ⟨rfl, rfl⟩
  · exact ⟨rfl, rfl⟩

theorem onPort_measWork (s : State) (p : Nat) (f : Port → DelaySt) (hf : ∀ q, (f q).anchorAt = q.delay.anchorAt) :
    MeasWork s (s.onPort p fun q => { q with delay := f q }) :=
  ⟨(onPort_only ..).mono (by decide), by rw [State.onPort_tiu], fun i _ => by rw [State.onPort_tiu], fun r => (onPort_delay s p f hf r).1,
    fun r => (onPort_delay s p f hf r).2⟩

theorem show_stat (t : Tiu) {i : Nat} (hi : i < 20) : bit t.show.stat i = bit t.stat i := by
  show bit (setFld t.stat 20 4 t.depth) i = _
  rw [bit_setFld _ _ (by omega), if_neg (by omega)]

theorem anchorResult_measWork (s : State) (p : Nat) (m : MeasSummary) (want : Nat) (mids : Int) : MeasWork s (s.anchorResult p m want mids) := by
  unfold State.anchorResult
  dsimp only
  refine .trans ?_ (.of_only (raise_only _ _))
  split <;> exact onPort_measWork _ _ _ fun _ => rfl

theorem issueSummary_measWork (s : State) (r : MeasRun) (c : Time) : MeasWork s (s.issueSummary r c) := by
  unfold State.issueSummary
  dsimp only
  have hp : ∀ (b : Bool) (l : List Rec) (u : State), MeasWork s u →
      MeasWork s ((if b then l.foldl (fun u x => u.push 2 none x 0 false) u else u).raise 185) := fun b l u h => by
    refine .trans h (.of_only (.trans ?_ (raise_only _ _)))
    cases b
    · exact .refl _ u
    · exact .foldl (fun v x => push_only v _ _ _ _ _) l u
  have h1 := hp (decide ((r.settle none).req.par 15 0 = 1))
    (stampRecs (r.settle none).req.id (r.settle none).req.mode (r.settle none).results) _ (.of_only (push_only s 2 none (.summary ((r.settle none).summary c)) 0 false))
  simp only [decide_eq_true_eq] at h1
  split
  · exact h1.trans (anchorResult_measWork _ _ _ _ _)
  · exact h1

theorem nextMeas_measWork (s : State) : MeasWork s s.nextMeas := by
  unfold State.nextMeas
  split
  · split
    · exact modTiu_measWork s _ fun i hi => show_stat _ hi
    · exact modTiu_measWork s _ fun i hi => show_stat _ hi
  · exact modTiu_measWork s _ fun i hi => show_stat _ hi

theorem endMeas_measWork (s : State) (f : BitVec 16) (c : Time) : MeasWork s (s.endMeas f c) := by
  unfold State.endMeas
  split
  · exact .refl s
  · exact ((modTiu_measWork s _ fun _ _ => rfl).trans (issueSummary_measWork _ _ _)).trans (nextMeas_measWork _)

theorem dropMeas_measWork (s : State) (m : MeasReq) (f : BitVec 16) : MeasWork s (s.dropMeas m f) := issueSummary_measWork _ _ _

theorem MeasWork.foldl {α : Type} (f : State → α → State) (h : ∀ s a, MeasWork s (f s a)) (l : List α) (s : State) :
    MeasWork s (l.foldl f s) := by
  induction l generalizing s with
  | nil => exact .refl s
  | cons a l ih => exact (h s a).trans (ih _)

theorem cancelAll_measWork (s : State) : MeasWork s s.cancelAll := by
  unfold State.cancelAll
  split
  · exact .refl s
  · have hd : ∀ (u : State) (m : MeasReq), MeasWork u (if m.anchorPort.isNone then (u.dropMeas m 0x240).raise 192 else u.dropMeas m 0x240) := fun u m => by
      split
      · exact (dropMeas_measWork _ _ _).trans (.of_only (raise_only _ _))
      · exact dropMeas_measWork _ _ _
    dsimp only
    refine .trans (modTiu_measWork s (fun t => ({ t with queue := [] } : Tiu).show) fun i hi => show_stat _ hi) ?_
    exact MeasWork.foldl _ hd _ _

theorem afterRelease_measWork (s : State) (old : Nat) : MeasWork s (s.afterRelease old) := by
  unfold State.afterRelease
  refine .trans ?_ (cancelAll_measWork _)
  split
  · exact endMeas_measWork _ _ _
  · exact .refl s

theorem MeasWork.role {s t : State} (h : MeasWork s t) {lo len : Nat} (hl : lo + len ≤ 20) : fld t.tiu.stat lo len = fld s.tiu.stat lo len :=
  fld_congr fun i _ hi => h.bits i (by omega)

/-! ### A converter leaves its role -/

theorem setRole_launch (t : Tiu) {lo v : Nat} (h : lo = 10 ∨ lo = 12) : (t.setRole lo v).launch = t.launch :=
  fld_setFld_apart _ _ (by omega) (by omega)
theorem setRole_user (t : Tiu) {lo v : Nat} (h : lo = 8 ∨ lo = 12) : (t.setRole lo v).user = t.user :=
  fld_setFld_apart _ _ (by omega) (by omega)
theorem setRole_launch_self (t : Tiu) (v : Nat) (h : v < 4) : (t.setRole 8 v).launch = v := by
  show fld (setFld t.stat 8 2 v) 8 2 = v
  rw [fld_setFld _ _ (by omega)]
  exact Nat.mod_eq_of_lt h
theorem setRole_user_self (t : Tiu) (v : Nat) (h : v < 4) : (t.setRole 10 v).user = v := by
  show fld (setFld t.stat 10 2 v) 10 2 = v
  rw [fld_setFld _ _ (by omega)]
  exact Nat.mod_eq_of_lt h

/-- The roles after a converter left its own: before a lone converter takes LAUNCH. -/
def Tiu.vacated (t : Tiu) (i : Nat) : Tiu :=
  let ready := match ix 3 t.spare with | some k => t.conv[k].calibrated | none => false
  let give := fun (lo : Nat) => if ready then (t.setRole lo t.spare).setRole 12 3 else t.setRole lo 3
  if t.spare = i then t.setRole 12 3 else if t.launch = i then give 8 else if t.user = i then give 10 else t

theorem release_eq (t : Tiu) (i : Nat) : t.release i =
    if (Tiu.vacated t i).launch = 3 && (Tiu.vacated t i).user ≠ 3 then ((Tiu.vacated t i).setRole 8 (Tiu.vacated t i).user).setRole 10 3
    else Tiu.vacated t i := rfl

theorem given_launch (t : Tiu) (b : Bool) : (if b then (t.setRole 8 t.spare).setRole 12 3 else t.setRole 8 3).launch = (if b then t.spare else 3) ∧
    (if b then (t.setRole 8 t.spare).setRole 12 3 else t.setRole 8 3).user = t.user := by
  cases b
  · exact ⟨setRole_launch_self t 3 (by omega), setRole_user t (.inl rfl)⟩
  · exact ⟨(setRole_launch _ (.inr rfl)).trans (setRole_launch_self t _ (fld_lt _ 12 2)),
      (setRole_user _ (.inr rfl)).trans (setRole_user t (.inl rfl))⟩

theorem given_user (t : Tiu) (b : Bool) : (if b then (t.setRole 10 t.spare).setRole 12 3 else t.setRole 10 3).user = (if b then t.spare else 3) ∧
    (if b then (t.setRole 10 t.spare).setRole 12 3 else t.setRole 10 3).launch = t.launch := by
  cases b
  · exact ⟨setRole_user_self t 3 (by omega), setRole_launch t (.inl rfl)⟩
  · exact ⟨(setRole_user _ (.inr rfl)).trans (setRole_user_self t _ (fld_lt _ 12 2)),
      (setRole_launch _ (.inr rfl)).trans (setRole_launch t (.inl rfl))⟩

section
variable {t : Tiu} {i : Nat} (hi : i < 3) (hs : t.spare = i → t.launch ≠ i ∧ t.user ≠ i) (hu : t.launch = i → t.user ≠ i)
include hi hs hu

theorem vacated_roles : (Tiu.vacated t i).launch ≠ i ∧ (Tiu.vacated t i).user ≠ i := by
  have hne : t.spare ≠ i → ∀ b : Bool, (if b then t.spare else 3) ≠ i := fun h b => by cases b <;> simp <;> omega
  unfold Tiu.vacated
  dsimp only
  by_cases h1 : t.spare = i
  · rw [if_pos h1, setRole_launch _ (.inr rfl), setRole_user _ (.inr rfl)]
    exact hs h1
  rw [if_neg h1]
  by_cases h2 : t.launch = i
  · rw [if_pos h2, (given_launch t _).1, (given_launch t _).2]
    exact ⟨hne h1 _, hu h2⟩
  rw [if_neg h2]
  by_cases h3 : t.user = i
  · rw [if_pos h3, (given_user t _).1, (given_user t _).2]
    exact ⟨h2, hne h1 _⟩
  · rw [if_neg h3]
    exact ⟨h2, h3⟩

theorem release_roles : (t.release i).launch ≠ i ∧ (t.release i).user ≠ i := by
  obtain ⟨hl, hv⟩ := vacated_roles hi hs hu
  rw [release_eq]
  split
  · rw [setRole_launch _ (.inl rfl), setRole_launch_self _ (Tiu.user _) (fld_lt (Tiu.vacated t i).stat 10 2), setRole_user_self _ _ (by omega)]
    exact ⟨hv, by omega⟩
  · exact ⟨hl, hv⟩

end

theorem dropConv_effect {s : State} {i : Fin 3} (hs : s.tiu.spare = i.val → s.tiu.launch ≠ i.val ∧ s.tiu.user ≠ i.val)
    (hu : s.tiu.launch = i.val → s.tiu.user ≠ i.val) :
    (s.dropConv i).tiu.launch ≠ i.val ∧ (s.dropConv i).tiu.user ≠ i.val ∧ (s.dropConv i).settings = s.settings ∧ (s.dropConv i).clk = s.clk := by
  obtain ⟨hl, hv⟩ := release_roles i.isLt hs hu
  have key : ∀ (b : Bool) (f : Tiu → Tiu) (old : Nat), (f s.tiu).launch ≠ i.val → (f s.tiu).user ≠ i.val →
      ∀ u, u = (if b then (s.modTiu f).raise 190 else s.modTiu f).afterRelease old →
      u.tiu.launch ≠ i.val ∧ u.tiu.user ≠ i.val ∧ u.settings = s.settings ∧ u.clk = s.clk := fun b f old h1 h2 u hu => by
    have hm : MeasWork (s.modTiu f) u := by
      rw [hu]
      refine .trans (.of_only ?_) (afterRelease_measWork _ old)
      cases b
      · exact .refl _ _
      · exact raise_only _ _
    refine ⟨?_, ?_, hm.only.same .settings (by decide), hm.only.same .clk (by decide)⟩
    · show fld u.tiu.stat 8 2 ≠ _
      rw [hm.role (by omega)]
      exact h1
    · show fld u.tiu.stat 10 2 ≠ _
      rw [hm.role (by omega)]
      exact h2
  exact key _ _ _ hl hv _ rfl

/-! ### The gates -/

/-- One bit of CKG_EN0 that is no converter's, on the clock registers. -/
def gateBlock (inUse : Bool) (now : Time) (v : Word) (i : Nat) (c : Clocks) : Clocks :=
  if bit c.ckg0 i && !(bit v i) then
    if inUse then { c with ckgStat := setBit c.ckgStat 16 } else { c with ckg0 := clrBit c.ckg0 i, ckgStat := setBit c.ckgStat i }
  else if !(bit c.ckg0 i) && bit v i then { (c.ungate i now (ungateTime i)) with ckg0 := setBit c.ckg0 i, ckgStat := clrBit c.ckgStat i }
  else c

theorem ckgBit_block {s : State} {i : Nat} (hi : 3 ≤ i) (v : Word) : s.ckgBit v i = s.modClk (gateBlock (s.blockInUse i) s.time.mono v i) := by
  have hx : ix 3 i = none := dif_neg (by omega)
  have hl : ∀ (c : Prop) [Decidable c] (f g : Clocks → Clocks), (if c then s.modClk f else s.modClk g) = s.modClk fun k => if c then f k else g k :=
    fun c _ f g => by split <;> rfl
  have h0 : s = s.modClk fun c => c := rfl
  unfold State.ckgBit gateBlock
  simp only [hx]
  by_cases h1 : (bit s.clk.ckg0 i && !(bit v i)) = true
  · simp only [State.modClk, h1, if_true]
    split <;> rfl
  · by_cases h2 : (!(bit s.clk.ckg0 i) && bit v i) = true
    · simp only [State.modClk, h1, h2, if_true]
      rfl
    · simp only [State.modClk, h1, h2]
      rfl

theorem ckgBit_still {s : State} {v : Word} {i : Nat} (h : bit v i = bit s.clk.ckg0 i) : s.ckgBit v i = s := by
  unfold State.ckgBit
  simp [h]

theorem ckgBits_still {v : Word} (l : List Nat) {s : State} (h : ∀ i ∈ l, bit v i = bit s.clk.ckg0 i) :
    l.foldl (fun u i => u.ckgBit v i) s = s := by
  induction l with
  | nil => rfl
  | cons a l ih =>
    rw [List.foldl_cons, ckgBit_still (h a (by simp))]
    exact ih fun i hi => h i (by simp [hi])

/-- What gates of the blocks leave as it is in the clock registers. -/
def GatesOnly (c d : Clocks) : Prop := d = { c with ckg0 := d.ckg0, ckg1 := d.ckg1, ckgStat := d.ckgStat, settling := d.settling }

theorem gateBlock_only (b : Bool) (now : Time) (v : Word) (i : Nat) (c : Clocks) :
    gateBlock b now v i c = { c with ckg0 := (gateBlock b now v i c).ckg0, ckgStat := (gateBlock b now v i c).ckgStat,
                                     settling := (gateBlock b now v i c).settling } := by
  unfold gateBlock
  split
  · split <;> rfl
  · split <;> rfl

theorem blockInUse_modClk {s : State} {i : Nat} (hi : 3 ≤ i) (f : Clocks → Clocks) (h1 : (f s.clk).fstat = s.clk.fstat) (h2 : (f s.clk).src = s.clk.src) :
    (s.modClk f).blockInUse i = s.blockInUse i := by
  unfold State.blockInUse
  split
  · omega
  · omega
  · omega
  · show bit (f s.clk).fstat 0 = _
    rw [h1]
  · rfl
  · rfl
  · rfl
  · show ((f s.clk).src == _) = _
    rw [h2]
  · rfl
  · rfl

theorem gateBlock_other (b : Bool) (now : Time) (v : Word) {i j : Nat} (h : j ≠ i) (c : Clocks) :
    bit (gateBlock b now v i c).ckg0 j = bit c.ckg0 j ∧ (j ≠ 16 → bit (gateBlock b now v i c).ckgStat j = bit c.ckgStat j) ∧
      (∀ x ∈ c.settling, x.1 = j → now < x.2 → x ∈ (gateBlock b now v i c).settling) := by
  unfold gateBlock
  split
  · split
    · exact ⟨rfl, fun hj => bit_setBit_ne _ hj, fun x hx _ _ => hx⟩
    · exact ⟨bit_clrBit_ne _ h, fun _ => bit_setBit_ne _ h, fun x hx _ _ => hx⟩
  · split
    · refine ⟨bit_setBit_ne _ h, fun _ => bit_clrBit_ne _ h, fun x hx h1 h2 => ?_⟩
      simp only [Clocks.ungate, List.mem_append, List.mem_filter]
      exact .inl ⟨hx, by simp [h1, h, h2]⟩
    · exact ⟨rfl, fun _ => rfl, fun x hx _ _ => hx⟩

theorem gateBlock_ign (b : Bool) (now : Time) (v : Word) {i : Nat} (hi : i < 16) (c : Clocks) (h : bit c.ckgStat 16 = true) :
    bit (gateBlock b now v i c).ckgStat 16 = true := by
  unfold gateBlock
  split
  · split
    · exact bit_setBit_self _ (by omega)
    · exact (bit_setBit_ne _ (by omega)).trans h
  · split
    · exact (bit_clrBit_ne _ (by omega)).trans h
    · exact h

theorem gateBlock_self (b : Bool) (now : Time) (v : Word) {i : Nat} (hi : i < 16) (c : Clocks) :
    bit (gateBlock b now v i c).ckg0 i = (bit v i || (bit c.ckg0 i && b)) ∧
      (bit c.ckg0 i = true → bit v i = false → b = true → bit (gateBlock b now v i c).ckgStat 16 = true) ∧
      (bit c.ckg0 i = true → bit v i = false → b = false → bit (gateBlock b now v i c).ckgStat i = true) ∧
      (bit c.ckg0 i = false → bit v i = true →
        bit (gateBlock b now v i c).ckgStat i = false ∧ (i, now + ungateTime i) ∈ (gateBlock b now v i c).settling) := by
  unfold gateBlock
  cases ho : bit c.ckg0 i <;> cases hv : bit v i <;> cases b <;>
    simp [ho, bit_clrBit_self, bit_setBit_self _ (show i < 32 by omega), bit_setBit_self _ (show 16 < 32 by omega), Clocks.ungate]

/-- What the gates of the blocks in `l` do, bit by bit. -/
def GatedBlocks (use : Nat → Bool) (now : Time) (v : Word) (l : List Nat) (c d : Clocks) : Prop :=
  d = { c with ckg0 := d.ckg0, ckgStat := d.ckgStat, settling := d.settling } ∧
    (∀ j, j ∉ l → bit d.ckg0 j = bit c.ckg0 j ∧ (j ≠ 16 → bit d.ckgStat j = bit c.ckgStat j) ∧
      ∀ x ∈ c.settling, x.1 = j → now < x.2 → x ∈ d.settling) ∧
    (bit c.ckgStat 16 = true → bit d.ckgStat 16 = true) ∧
    ∀ i ∈ l, bit d.ckg0 i = (bit v i || (bit c.ckg0 i && use i)) ∧
      (bit c.ckg0 i = true → bit v i = false → use i = true → bit d.ckgStat 16 = true) ∧
      (bit c.ckg0 i = true → bit v i = false → use i = false → bit d.ckgStat i = true) ∧
      (bit c.ckg0 i = false → bit v i = true → bit d.ckgStat i = false ∧ (i, now + ungateTime i) ∈ d.settling)

theorem ungateTime_pos (i : Nat) : 0 < ungateTime i := by
  unfold ungateTime
  split
  · decide
  · split
    · decide
    · split <;> decide

theorem gateBlocks (use : Nat → Bool) (now : Time) (v : Word) (l : List Nat) (hn : l.Nodup) (hl : ∀ i ∈ l, i < 16) (c : Clocks) :
    GatedBlocks use now v l c (l.foldl (fun d i => gateBlock (use i) now v i d) c) := by
  induction l generalizing c with
  | nil => exact ⟨rfl, fun _ _ => ⟨rfl, fun _ => rfl, fun x hx _ _ => hx⟩, id, fun i hi => by simp at hi⟩
  | cons a l ih =>
    obtain ⟨hal, hnl⟩ := List.nodup_cons.1 hn
    have ha := hl a (by simp)
    obtain ⟨g1, g2, g3, g4⟩ := gateBlock_self (use a) now v ha c
    obtain ⟨hf, ho, hg, hs⟩ := ih hnl (fun i hi => hl i (by simp [hi])) (gateBlock (use a) now v a c)
    rw [List.foldl_cons]
    generalize l.foldl (fun d i => gateBlock (use i) now v i d) (gateBlock (use a) now v a c) = d at hf ho hg hs ⊢
    obtain ⟨o1, o2, o3⟩ := ho a hal
    refine ⟨?_, fun j hj => ?_, fun h => hg (gateBlock_ign _ _ _ ha _ h), fun i hi => ?_⟩
    · rw [hf, gateBlock_only]
    · obtain ⟨h1, h2⟩ := not_or.1 (mt List.mem_cons.2 hj)
      obtain ⟨p1, p2, p3⟩ := ho j h2
      obtain ⟨q1, q2, q3⟩ := gateBlock_other (use a) now v h1 c
      exact ⟨p1.trans q1, fun h => (p2 h).trans (q2 h), fun x hx h3 h4 => p3 x (q3 x hx h3 h4) h3 h4⟩
    · rcases List.mem_cons.1 hi with rfl | hil
      · refine ⟨o1.trans g1, fun h1 h2 h3 => hg (g2 h1 h2 h3), fun h1 h2 h3 => (o2 (by omega)).trans (g3 h1 h2 h3), fun h1 h2 => ?_⟩
        exact ⟨(o2 (by omega)).trans (g4 h1 h2).1, o3 _ (g4 h1 h2).2 rfl (Nat.lt_add_of_pos_right (ungateTime_pos i))⟩
      · have hia : i ≠ a := fun h => hal (h ▸ hil)
        have q1 := (gateBlock_other (use a) now v hia c).1
        obtain ⟨s1, s2, s3, s4⟩ := hs i hil
        rw [q1] at s1 s2 s3 s4
        exact ⟨s1, s2, s3, s4⟩

theorem ckgBits_blocks (v : Word) (l : List Nat) (hl : ∀ i ∈ l, 3 ≤ i) (s : State) : l.foldl (fun u i => u.ckgBit v i) s =
    s.modClk fun c => l.foldl (fun d i => gateBlock (s.blockInUse i) s.time.mono v i d) c := by
  induction l generalizing s with
  | nil => rfl
  | cons a l ih =>
    have hu : ∀ i ∈ l, (s.modClk (gateBlock (s.blockInUse a) s.time.mono v a)).blockInUse i = s.blockInUse i := fun i hi =>
      blockInUse_modClk (hl i (by simp [hi])) _ (by rw [gateBlock_only])
        (by rw [gateBlock_only]; rfl)
    rw [List.foldl_cons, ckgBit_block (hl a (by simp)), ih fun i hi => hl i (by simp [hi])]
    have hc : ∀ (m : List Nat) (_ : ∀ i ∈ m, i ∈ l) (c : Clocks),
        m.foldl (fun d i => gateBlock ((s.modClk (gateBlock (s.blockInUse a) s.time.mono v a)).blockInUse i) s.time.mono v i d) c =
          m.foldl (fun d i => gateBlock (s.blockInUse i) s.time.mono v i d) c := fun m => by
      induction m with
      | nil => exact fun _ _ => rfl
      | cons b m ihm =>
        intro hm c
        rw [List.foldl_cons, List.foldl_cons, hu b (hm b (by simp))]
        exact ihm (fun i hi => hm i (by simp [hi])) _
    show s.modClk (fun _ => l.foldl _ (gateBlock (s.blockInUse a) s.time.mono v a s.clk)) = _
    exact congrArg (fun x => s.modClk fun _ => x) (hc l (fun _ h => h) _)

/-- One bit of CKG_EN1, on the clock registers. -/
def gatePort (probes : Bool) (now len : Time) (v : Word) (p : Nat) (c : Clocks) : Clocks :=
  if bit c.ckg1 p && !(bit v p) && probes then { c with ckgStat := setBit c.ckgStat 16 }
  else
    let c1 := if !(bit c.ckg1 p) && bit v p then c.ungate (11 + p) now len else c
    { c1 with ckg1 := putBit c1.ckg1 p (bit v p) }

theorem gatePort_other (b : Bool) (now len : Time) (v : Word) {p j : Nat} (h : j ≠ p) (c : Clocks) :
    bit (gatePort b now len v p c).ckg1 j = bit c.ckg1 j ∧
      (∀ x ∈ c.settling, x.1 = 11 + j → now < x.2 → x ∈ (gatePort b now len v p c).settling) := by
  unfold gatePort
  split
  · exact ⟨rfl, fun x hx _ _ => hx⟩
  · dsimp only
    split
    · refine ⟨bit_putBit_ne _ _ h, fun x hx h1 h2 => ?_⟩
      simp only [Clocks.ungate, List.mem_append, List.mem_filter]
      exact .inl ⟨hx, by simp [h1, h, h2]⟩
    · exact ⟨bit_putBit_ne _ _ h, fun x hx _ _ => hx⟩

theorem gatePort_ign (b : Bool) (now len : Time) (v : Word) (p : Nat) (c : Clocks) (h : bit c.ckgStat 16 = true) :
    bit (gatePort b now len v p c).ckgStat 16 = true := by
  unfold gatePort
  split
  · exact bit_setBit_self _ (by omega)
  · dsimp only
    split <;> exact h

theorem gatePort_self (b : Bool) (now len : Time) (v : Word) {p : Nat} (hp : p < 32) (c : Clocks) :
    bit (gatePort b now len v p c).ckg1 p = (bit v p || (bit c.ckg1 p && b)) ∧
      (bit c.ckg1 p = true → bit v p = false → b = true → bit (gatePort b now len v p c).ckgStat 16 = true) ∧
      (bit c.ckg1 p = false → bit v p = true → (11 + p, now + len) ∈ (gatePort b now len v p c).settling) := by
  unfold gatePort
  cases ho : bit c.ckg1 p <;> cases hv : bit v p <;> cases b <;>
    simp [ho, bit_putBit_self _ _ hp, bit_setBit_self _ (show 16 < 32 by omega), Clocks.ungate]

theorem gatePort_only (b : Bool) (now len : Time) (v : Word) (p : Nat) (c : Clocks) :
    gatePort b now len v p c = { c with ckg1 := (gatePort b now len v p c).ckg1, ckgStat := (gatePort b now len v p c).ckgStat,
                                        settling := (gatePort b now len v p c).settling } := by
  unfold gatePort
  split
  · rfl
  · dsimp only
    split <;> rfl

/-- What the gates of the ports in `l` do, bit by bit. -/
def GatedPorts (use : Nat → Bool) (now len : Time) (v : Word) (l : List Nat) (c d : Clocks) : Prop :=
  d = { c with ckg1 := d.ckg1, ckgStat := d.ckgStat, settling := d.settling } ∧
    (∀ j, j ∉ l → bit d.ckg1 j = bit c.ckg1 j ∧ ∀ x ∈ c.settling, x.1 = 11 + j → now < x.2 → x ∈ d.settling) ∧
    (bit c.ckgStat 16 = true → bit d.ckgStat 16 = true) ∧
    ∀ p ∈ l, bit d.ckg1 p = (bit v p || (bit c.ckg1 p && use p)) ∧
      (bit c.ckg1 p = true → bit v p = false → use p = true → bit d.ckgStat 16 = true) ∧
      (0 < len → bit c.ckg1 p = false → bit v p = true → (11 + p, now + len) ∈ d.settling)

theorem gatePorts (use : Nat → Bool) (now len : Time) (v : Word) (l : List Nat) (hn : l.Nodup) (hl : ∀ p ∈ l, p < 32) (c : Clocks) :
    GatedPorts use now len v l c (l.foldl (fun d p => gatePort (use p) now len v p d) c) := by
  induction l generalizing c with
  | nil => exact ⟨rfl, fun _ _ => ⟨rfl, fun x hx _ _ => hx⟩, id, fun i hi => by simp at hi⟩
  | cons a l ih =>
    obtain ⟨hal, hnl⟩ := List.nodup_cons.1 hn
    obtain ⟨g1, g2, g3⟩ := gatePort_self (use a) now len v (hl a (by simp)) c
    obtain ⟨hf, ho, hg, hs⟩ := ih hnl (fun i hi => hl i (by simp [hi])) (gatePort (use a) now len v a c)
    rw [List.foldl_cons]
    generalize l.foldl (fun d p => gatePort (use p) now len v p d) (gatePort (use a) now len v a c) = d at hf ho hg hs ⊢
    obtain ⟨o1, o2⟩ := ho a hal
    refine ⟨?_, fun j hj => ?_, fun h => hg (gatePort_ign _ _ _ _ _ _ h), fun i hi => ?_⟩
    · rw [hf, gatePort_only]
    · obtain ⟨h1, h2⟩ := not_or.1 (mt List.mem_cons.2 hj)
      obtain ⟨p1, p2⟩ := ho j h2
      obtain ⟨q1, q2⟩ := gatePort_other (use a) now len v h1 c
      exact ⟨p1.trans q1, fun x hx h3 h4 => p2 x (q2 x hx h3 h4) h3 h4⟩
    · rcases List.mem_cons.1 hi with rfl | hil
      · exact ⟨o1.trans g1, fun h1 h2 h3 => hg (g2 h1 h2 h3), fun h0 h1 h2 => o2 _ (g3 h1 h2) rfl (Nat.lt_add_of_pos_right h0)⟩
      · have q1 := (gatePort_other (use a) now len v (show i ≠ a from fun h => hal (h ▸ hil)) c).1
        obtain ⟨s1, s2, s3⟩ := hs i hil
        rw [q1] at s1 s2 s3
        exact ⟨s1, s2, s3⟩

theorem writeCkg_ports (v : Word) (s : State) : writeCkg .en1 v s = s.modClk fun c => (List.range 24).foldl
    (fun d p => gatePort (s.settings.probing p) s.time.mono (ceilDiv (32 * sec) (fsHz s.settings)) v p d) c := by
  have hb : ∀ (l : List Nat) (u : State), l.foldl (fun u p =>
      if bit u.clk.ckg1 p && !(bit v p) && u.settings.probing p then u.modClk fun c => { c with ckgStat := setBit c.ckgStat 16 }
      else u.modClk fun c =>
        let c1 := if !(bit c.ckg1 p) && bit v p then c.ungate (11 + p) u.time.mono (ceilDiv (32 * sec) (fsHz u.settings)) else c
        { c1 with ckg1 := putBit c1.ckg1 p (bit v p) }) u = u.modClk fun c => l.foldl
      (fun d p => gatePort (u.settings.probing p) u.time.mono (ceilDiv (32 * sec) (fsHz u.settings)) v p d) c := fun l => by
    induction l with
    | nil => exact fun _ => rfl
    | cons a l ih =>
      intro u
      have ha : (if bit u.clk.ckg1 a && !(bit v a) && u.settings.probing a then u.modClk fun c => { c with ckgStat := setBit c.ckgStat 16 }
          else u.modClk fun c =>
            let c1 := if !(bit c.ckg1 a) && bit v a then c.ungate (11 + a) u.time.mono (ceilDiv (32 * sec) (fsHz u.settings)) else c
            { c1 with ckg1 := putBit c1.ckg1 a (bit v a) }) =
          u.modClk (gatePort (u.settings.probing a) u.time.mono (ceilDiv (32 * sec) (fsHz u.settings)) v a) := by
        by_cases h : (bit u.clk.ckg1 a && !(bit v a) && u.settings.probing a) = true
        · rw [if_pos h]
          exact congrArg (fun x => u.modClk fun _ => x) (if_pos h).symm
        · rw [if_neg h]
          exact congrArg (fun x => u.modClk fun _ => x) (if_neg h).symm
      rw [List.foldl_cons, ha, ih]
      rfl
  exact hb _ s

theorem writeCkg_blocks (v : Word) (s : State) : writeCkg .en0 v s = (List.range 11).foldl (fun u i => u.ckgBit v i) s := rfl

theorem range_split {i : Nat} (hi : i < 3) : List.range 11 = List.range i ++ i :: (List.range 11).drop (i + 1) := by
  interval_cases i <;> rfl

theorem mem_range_drop {n i j : Nat} (h : j ∈ (List.range n).drop i) : i ≤ j ∧ j < n := by
  obtain ⟨k, hk, rfl⟩ := List.mem_drop_iff_getElem.1 h
  simp only [List.length_range] at hk
  simp only [List.getElem_range]
  omega

/-- A write that moves the bit of one converter only. -/
theorem writeCkg_one {s u : State} {v : Word} {i : Nat} (hi : i < 3) (hv : ∀ j, j ≠ i → bit v j = bit s.clk.ckg0 j) (hu : s.ckgBit v i = u)
    (hk : ∀ j, j ≠ i → bit u.clk.ckg0 j = bit s.clk.ckg0 j) : writeCkg .en0 v s = u := by
  have h1 : (List.range i).foldl (fun u i => u.ckgBit v i) s = s := ckgBits_still _ fun j hj => hv j (Nat.ne_of_lt (List.mem_range.1 hj))
  rw [writeCkg_blocks, range_split hi, List.foldl_append, List.foldl_cons, h1, hu]
  refine ckgBits_still _ fun j hj => ?_
  have hj' := mem_range_drop hj
  rw [hv j (by omega), hk j (by omega)]

theorem ceilDiv_pos {a b : Nat} (ha : 0 < a) (hb : 0 < b) : 0 < ceilDiv a b := by
  unfold ceilDiv
  rw [if_neg (by omega)]
  exact Nat.div_pos (by omega) hb

theorem modClk_const (s : State) (f : Clocks → Clocks) : s.modClk f = s.modClk fun _ => f s.clk := rfl

theorem writeCkg_ports_effect (v : Word) (s : State) : ∃ d, writeCkg .en1 v s = s.modClk (fun _ => d) ∧
    GatedPorts s.settings.probing s.time.mono (ceilDiv (32 * sec) (fsHz s.settings)) v (List.range 24) s.clk d :=
  ⟨_, (writeCkg_ports v s).trans (modClk_const s _), gatePorts _ _ _ v _ List.nodup_range (by decide) _⟩

theorem writeCkg_blocks_effect {v : Word} {s : State} (hv : ∀ i, i < 3 → bit v i = bit s.clk.ckg0 i) :
    ∃ d, writeCkg .en0 v s = s.modClk (fun _ => d) ∧ GatedBlocks s.blockInUse s.time.mono v ((List.range 11).drop 3) s.clk d := by
  have h3 : (List.range 3).foldl (fun u i => u.ckgBit v i) s = s := ckgBits_still _ fun i hi => hv i (List.mem_range.1 hi)
  have h11 : writeCkg .en0 v s = (List.range 3 ++ (List.range 11).drop 3).foldl (fun u i => u.ckgBit v i) s := rfl
  refine ⟨_, ?_, gateBlocks _ _ v _ (by decide) (by decide) _⟩
  rw [h11, List.foldl_append, h3, ckgBits_blocks _ _ (by decide)]
  exact modClk_const s _

/-! ### The frequency counter -/

theorem wrRWD_busy (ok : Nat → Bool) (lo len : Nat) (acc : Word × Bool) (v : Word) : (wrRWD true ok lo len acc v).1 = acc.1 := by
  unfold wrRWD
  dsimp only
  split
  · rfl
  · rfl

theorem wrRWD_open (ok : Nat → Bool) {lo len : Nat} (h : lo + len ≤ 32) (acc : Word × Bool) (v : Word) :
    fld (wrRWD false ok lo len acc v).1 lo len = (if ok (fld v lo len) then fld v lo len else fld acc.1 lo len) ∧
      ∀ a n, a + n ≤ lo ∨ lo + len ≤ a → fld (wrRWD false ok lo len acc v).1 a n = fld acc.1 a n := by
  unfold wrRWD
  dsimp only
  by_cases h1 : fld v lo len = fld acc.1 lo len
  · rw [if_pos h1, h1, ite_self]
    exact ⟨rfl, fun _ _ _ => rfl⟩
  · rw [if_neg h1]
    cases ok (fld v lo len)
    · exact ⟨rfl, fun _ _ _ => rfl⟩
    · refine ⟨?_, fun a n ha => fld_setFld_apart _ _ h ha⟩
      show fld (setFld acc.1 lo len (fld v lo len)) lo len = fld v lo len
      rw [fld_setFld _ _ h]
      exact Nat.mod_eq_of_lt (fld_lt _ _ _)

theorem counts_read (c : Clocks) {m r : Nat} (hm : m < 2 ^ 40) (hr : r < 2 ^ 40) :
    (c.counts m r).fmlo.toNat + 2 ^ 32 * fld (c.counts m r).fhi 0 8 = m ∧ (c.counts m r).frlo.toNat + 2 ^ 32 * fld (c.counts m r).fhi 8 8 = r := by
  simp only [Clocks.counts, fld, BitVec.toNat_ofNat]
  omega

theorem writeFcntCtl_effect (v : Word) (s : State) (hv : bit v 16 = true) : ∃ c, writeFcntCtl v s = s.modClk (fun _ => c) ∧
    bit c.fstat 0 = true ∧ (bit s.clk.fstat 0 = true → bit c.fstat 4 = true ∧ c.fctl = s.clk.fctl) ∧
      (bit s.clk.fstat 0 = false → (bit c.fstat 3 = (bit s.clk.fstat 3 || s.clk.ramping)) ∧
        fld c.fctl 0 4 = (if fld v 0 4 ≤ 12 then fld v 0 4 else fld s.clk.fctl 0 4) ∧
        fld c.fctl 4 4 = (if fld v 4 4 ≤ 12 then fld v 4 4 else fld s.clk.fctl 4 4) ∧
        fld c.fctl 8 5 = (if 10 ≤ fld v 8 5 ∧ fld v 8 5 ≤ 30 then fld v 8 5 else fld s.clk.fctl 8 5)) := by
  refine ⟨_, rfl, ?_⟩
  dsimp only
  rw [hv]
  cases hb : bit s.clk.fstat 0
  · refine ⟨?_, fun h => Bool.noConfusion h, fun _ => ⟨?_, ?_, ?_, ?_⟩⟩
    · cases s.clk.ramping
      · exact bit_setBit_self _ (by omega)
      · exact (bit_setBit_ne _ (by omega)).trans (bit_setBit_self _ (by omega))
    · have h4 : ∀ b : Bool, bit (if b then setBit s.clk.fstat 4 else s.clk.fstat) 3 = bit s.clk.fstat 3 := fun b => by
        cases b
        · rfl
        · exact bit_setBit_ne _ (by omega)
      cases s.clk.ramping
      · exact ((bit_setBit_ne _ (by omega)).trans (h4 _)).trans (Bool.or_false _).symm
      · exact (bit_setBit_self _ (by omega)).trans (Bool.or_true _).symm
    · rw [(wrRWD_open _ (by omega) _ _).2 _ _ (by omega), (wrRWD_open _ (by omega) _ _).2 _ _ (by omega), (wrRWD_open _ (by omega) _ _).1]
      simp only [decide_eq_true_eq]
    · rw [(wrRWD_open _ (by omega) _ _).2 _ _ (by omega), (wrRWD_open _ (by omega) _ _).1, (wrRWD_open _ (by omega) _ _).2 _ _ (by omega)]
      simp only [decide_eq_true_eq]
    · rw [(wrRWD_open _ (by omega) _ _).1, (wrRWD_open _ (by omega) _ _).2 _ _ (by omega), (wrRWD_open _ (by omega) _ _).2 _ _ (by omega)]
      simp only [decide_eq_true_eq, Bool.and_eq_true]
  · refine ⟨?_, fun _ => ⟨?_, ?_⟩, fun h => Bool.noConfusion h⟩
    · simp only [Bool.and_true, Bool.or_true, if_true, Bool.not_true, Bool.and_false]
      exact (bit_setBit_ne _ (by omega)).trans hb
    · simp only [Bool.and_true, Bool.or_true, if_true, Bool.not_true, Bool.and_false]
      exact bit_setBit_self _ (by omega)
    · rw [wrRWD_busy, wrRWD_busy, wrRWD_busy]

/-- The gate's end in the registers: the counts, BUSY clear, DONE set. -/
def counted (m r : Nat) (st : Word) (c : Clocks) : Clocks := { (c.counts m r) with fstat := st }

theorem raise_after {s : State} (hr : s.boot.inReset = false) (n : EvIx) : SameWork s (s.raise n) ∧ (s.raise n).ev.pend.getLsbD n.val = true :=
  ⟨raise_same s n, raise_pend s n n hr (.inl rfl)⟩

theorem startTests_mem (s : State) (u : UnitName) : u ∈ (s.startTests [u]).ladle.tests :=
  List.mem_eraseDups.2 (by simp)

/-- Settles O40: the gates of the blocks and ports bit by bit, a converter's by what it does to the roles. -/
theorem clockGatesCountersAndCapture : Obligations.ClockGatesCountersAndCapture := by
  unfold Obligations.ClockGatesCountersAndCapture
  intro s hr
  have hw : ∀ (f : State → State), s.written f = f s := fun f => by unfold State.written; rw [hr]; rfl
  have he : ∀ (r : CkgReg) (v : Word) (c : Instr), c = .ckgEnClear r v ∨ c = .ckgEnSet r v → exec c s = .next (writeCkg r v s) := by
    rintro r v c (rfl | rfl)
    · exact congrArg _ (hw _)
    · exact congrArg _ (hw _)
  refine ⟨fun v c hc hv => ?_, fun i hi hb hu => ?_, fun i hi hb hu h1 h2 => ?_, fun i hb => ?_, fun v c hc => ?_, fun v ho hv => ?_,
    fun m r hb hg hm hl => ?_, fun m r h => ?_, fun hb => ?_, fun hb => ?_, ?_⟩
  · obtain ⟨d, h0, hf, ho, -, hs⟩ := writeCkg_blocks_effect hv
    have hm : ∀ i, 3 ≤ i → i < 11 → i ∈ (List.range 11).drop 3 := fun i h1 h2 => by interval_cases i <;> decide
    have hno : ∀ i, i < 3 ∨ 11 ≤ i → i ∉ (List.range 11).drop 3 := fun i h hi => by
      have := mem_range_drop hi
      omega
    refine ⟨s.modClk fun _ => d, (he _ _ _ hc).trans (congrArg _ h0), rfl, ?_⟩
    dsimp only [State.modClk]
    refine ⟨by rw [hf], hf, fun i hi => ?_, fun i hi => (ho i (hno i (.inr hi))).1, ?_, fun i h3 h11 => (hs i (hm i h3 h11)).2.2.1,
      fun i h3 h11 => (hs i (hm i h3 h11)).2.2.2⟩
    · by_cases h3 : i < 3
      · rw [(ho i (hno i (.inl h3))).1, hv i h3]
        cases bit s.clk.ckg0 i <;> rfl
      · exact (hs i (hm i (by omega) hi)).1
    · rintro ⟨i, h3, h11, g1, g2, g3⟩
      exact (hs i (hm i h3 h11)).2.1 g1 g2 g3
  · refine (he .en0 _ _ (.inl rfl)).trans (congrArg _ (writeCkg_one hi (fun j hj => bit_clrBit_ne _ hj) ?_ fun j _ => rfl))
    have hu' : s.blockInUse i = true := by rw [← hu]; interval_cases i <;> rfl
    unfold State.ckgBit
    simp only [hb, bit_clrBit_self, hu', Bool.not_false, Bool.and_true, if_true]
  · let s1 := s.modClk fun c => { c with ckg0 := clrBit c.ckg0 i, ckgStat := setBit c.ckgStat i }
    have hg : s.ckgBit (clrBit s.clk.ckg0 i) i = s1.dropConv ⟨i, hi⟩ := by
      have hu' : s.blockInUse i = false := by rw [← hu]; interval_cases i <;> rfl
      unfold State.ckgBit
      simp only [hb, bit_clrBit_self, hu', Bool.not_false, Bool.and_true, if_true, Bool.false_eq_true, if_false, ix_of_lt hi, s1]
    obtain ⟨e1, e2, e3, e4⟩ := dropConv_effect (s := s1) (i := ⟨i, hi⟩) h1 h2
    have hc : (s1.dropConv ⟨i, hi⟩).clk.ckg0 = clrBit s.clk.ckg0 i := by
      rw [e4]
      rfl
    refine ⟨_, (he .en0 _ _ (.inl rfl)).trans (congrArg _ (writeCkg_one hi (fun j hj => bit_clrBit_ne _ hj) hg fun j hj => ?_)),
      hc, ?_, e1, e2, e3⟩
    · rw [hc]
      exact bit_clrBit_ne _ hj
    · rw [e4]
      exact bit_setBit_self _ (by omega)
  · let s1 := s.modClk fun c => { (c.ungate i.val s.time.mono (ungateTime i.val)) with ckg0 := setBit c.ckg0 i.val, ckgStat := clrBit c.ckgStat i.val }
    have hg : s.ckgBit (setBit s.clk.ckg0 i.val) i.val = s1.returnConv i := by
      unfold State.ckgBit
      simp only [hb, bit_setBit_self _ (show i.val < 32 by omega), Bool.not_true, Bool.not_false, Bool.and_true, if_true, Bool.and_false,
        Bool.false_eq_true, if_false, ix_of_lt i.isLt, s1]
    have hin : (i.val, s.time.mono + ungateTime i.val) ∈ s1.clk.settling := List.mem_append_right _ (List.mem_singleton_self _)
    have hk : (s1.returnConv i).clk = s1.clk := by
      unfold State.returnConv
      split <;> rfl
    refine ⟨_, (he .en0 _ _ (.inr rfl)).trans (congrArg _ (writeCkg_one i.isLt (fun j hj => bit_setBit_ne _ hj) hg fun j hj => ?_)),
      congrArg Clocks.ckg0 hk, by rw [hk]; exact hin, fun hx => ?_, fun hx => ?_⟩
    · rw [hk]
      exact bit_setBit_ne _ hj
    · rw [show s1.returnConv i = s1 from if_pos hx]
      rfl
    · have hn : s1.returnConv i = (s1.modTiu fun t => { t with conv := t.conv.set i { t.conv[i] with calibrated := false, returning := true } }).startTests
          [UnitName.vernier i] := if_neg (by rw [show s1.tiu = s.tiu from rfl, hx]; decide)
      rw [hn]
      refine ⟨startTests_mem _ _, ?_, rfl⟩
      show ((s.tiu.conv.set i.val _)[i.val]).returning = true
      rw [Vector.getElem_set_self]
  · obtain ⟨d, h0, hf, -, -, hs⟩ := writeCkg_ports_effect v s
    have hm : ∀ p : PortIx, p.val ∈ List.range 24 := fun p => List.mem_range.2 p.isLt
    refine ⟨s.modClk fun _ => d, (he _ _ _ hc).trans (congrArg _ h0), rfl, ?_⟩
    dsimp only [State.modClk]
    refine ⟨hf, fun p => (hs _ (hm p)).1, ?_, fun p h0 => (hs _ (hm p)).2.2 ?_⟩
    · rintro ⟨p, g1, g2, g3⟩
      exact (hs _ (hm p)).2.1 g1 g2 g3
    · exact ceilDiv_pos (by decide) h0
  · obtain ⟨c, h1, h2⟩ := writeFcntCtl_effect v s hv
    refine ⟨s.modClk fun _ => c, ?_, rfl, h2⟩
    show Host.Outcome.next (s.written _) = _
    rw [hw, if_pos ho, h1]
  · have hd : exec (.fcntDone m r) s = .next ((s.modClk (counted m r (setBit (clrBit s.clk.fstat 0) 1))).raise 184) :=
      congrArg Host.Outcome.next (if_pos (by simp [hb, hg]))
    refine ⟨_, hd, ?_⟩
    obtain ⟨h1, h2⟩ := raise_after (s := s.modClk (counted m r (setBit (clrBit s.clk.fstat 0) 1))) hr 184
    obtain ⟨c1, c2⟩ := counts_read s.clk hm hl
    rw [h1.clk]
    exact ⟨h1, c1, c2, (bit_setBit_ne _ (by omega)).trans (bit_clrBit_self _ _), bit_setBit_self _ (by omega), h2⟩
  · exact congrArg Host.Outcome.next (if_neg (by rcases h with h | h <;> simp [h]))
  · have hd : exec .fcntNoclk s = .next (({ s.elapse (64 * sec / 32768) with free := s.free + 2 } : State).modClk (counted (Config.freeValue s.free).toNat
        (Config.freeValue (s.free + 1)).toNat (setBit (setBit (clrBit s.clk.fstat 0) 1) 2)) |>.raise 184) := congrArg Host.Outcome.next (if_pos hb)
    refine ⟨_, hd, ?_⟩
    obtain ⟨h1, h2⟩ := raise_after (s := ({ s.elapse (64 * sec / 32768) with free := s.free + 2 } : State).modClk (counted (Config.freeValue s.free).toNat
        (Config.freeValue (s.free + 1)).toNat (setBit (setBit (clrBit s.clk.fstat 0) 1) 2))) hr 184
    rw [h1.clk]
    exact ⟨(bit_setBit_ne _ (by omega)).trans ((bit_setBit_ne _ (by omega)).trans (bit_clrBit_self _ _)),
      (bit_setBit_ne _ (by omega)).trans (bit_setBit_self _ (by omega)), bit_setBit_self _ (by omega), h1, h2⟩
  · exact congrArg Host.Outcome.next (if_neg (by rw [hb]; decide))
  · refine ⟨if s.time.devSet then stamp96 s.time.dev else 0, fun h => if_pos h, fun h => if_neg (by rw [h]; decide), ?_⟩
    exact congrArg Host.Outcome.next (hw timeCapture)

end Sys2Proof.Proofs

/-! SUPPORT. Shutting safety groups down (R57 to R60) and the interlock (R59, R571). -/

namespace Sys2Proof.Proofs
open Sys2Proof Sys2Proof.Machine Sys2Proof.Claims

/-- As `forPorts_at`, while what the step keeps stands. -/
theorem forPorts_at_of {g : PortIx → State → State} {h : PortIx → Port → Port} {I : State → Prop} (hI : ∀ p u, I u → I (g p u))
    (hg : ∀ p u q, I u → (g p u).ports[q] = if q = p then h p u.ports[q] else u.ports[q]) {s : State} (hs : I s) (q : PortIx) :
    I (s.forPorts g) ∧ (s.forPorts g).ports[q] = h q s.ports[q] := by
  have key : ∀ (l : List PortIx) (u : State), I u → l.Nodup →
      I (l.foldl (fun t p => g p t) u) ∧ (l.foldl (fun t p => g p t) u).ports[q] = if q ∈ l then h q u.ports[q] else u.ports[q] := by
    intro l
    induction l with
    | nil => exact fun u hu _ => ⟨hu, rfl⟩
    | cons p l ih =>
      intro u hu hl
      obtain ⟨hp, hl⟩ := List.nodup_cons.mp hl
      obtain ⟨h1, h2⟩ := ih _ (hI p u hu) hl
      refine ⟨h1, ?_⟩
      rw [List.foldl_cons, h2, hg p u q hu]
      by_cases hq : q = p
      · subst hq
        rw [if_neg hp, if_pos rfl, if_pos (by simp)]
      · rw [if_neg hq]
        by_cases hm : q ∈ l
        · rw [if_pos hm, if_pos (List.mem_cons_of_mem _ hm)]
        · rw [if_neg hm, if_neg (by simp [hq, hm])]
  obtain ⟨h1, h2⟩ := key (List.finRange 24) s hs (List.nodup_finRange 24)
  exact ⟨h1, h2.trans (if_pos (List.mem_finRange q))⟩

/-- A port whose gate is closed, `cut` saying whether a launch is cut short. -/
def gateShut (now : Time) (q : Port) : Port :=
  { q with
    gateOpen := false
    probeOn := false
    pings := if q.gateOpen && decide (now < q.gateUntil) then
      (match q.pings.reverse with | t :: ts => ({ t with launched := false } :: ts).reverse | [] => []) else q.pings }

theorem closeGate_eq (p : PortIx) (s : State) : closeGate p s = s.modPort p (gateShut s.time.mono) := by
  unfold closeGate State.modPort gateShut State.gateIsOpen
  rfl

/-- The listed groups are shut, the gates of their ports closed, and nothing else changes (R58). -/
structure ShutGroups (gs : List Nat) (s t : State) : Prop where
  frame : t = { s with shut := t.shut, ports := t.ports }
  shut : ∀ g : Fin 16, t.shut[g] = (s.shut[g] || gs.contains g.val)
  ports : ∀ p : PortIx, t.ports[p] = if gs.contains (portGroup s.settings p.val) then gateShut s.time.mono s.ports[p] else s.ports[p]

theorem shutGroups_effect (gs : List Nat) (s : State) : ShutGroups gs s (s.shutGroups gs) := by
  let s1 : State := { s with shut := Vector.ofFn fun i : Fin 16 => s.shut[i] || gs.contains i.val }
  have hI : ∀ p u, u = { s1 with ports := u.ports } →
      (if gs.contains (portGroup u.settings p.val) then closeGate p u else u) =
        { s1 with ports := (if gs.contains (portGroup u.settings p.val) then closeGate p u else u).ports } := fun p u hu => by
    split
    · rw [closeGate_eq]
      exact congrArg (fun v : State => { v with ports := u.ports.set p (gateShut u.time.mono u.ports[p]) }) hu
    · exact hu
  have hp : ∀ p : PortIx, s.shutGroups gs = { s1 with ports := (s.shutGroups gs).ports } ∧
      (s.shutGroups gs).ports[p] = if gs.contains (portGroup s.settings p.val) then gateShut s.time.mono s.ports[p] else s.ports[p] := fun p => by
    refine forPorts_at_of (I := fun u => u = { s1 with ports := u.ports })
      (h := fun p q => if gs.contains (portGroup s.settings p.val) then gateShut s.time.mono q else q) hI (fun p u q hu => ?_) (s := s1) rfl p
    have h1 : u.settings = s.settings := (congrArg State.settings hu).trans rfl
    have h2 : u.time = s.time := (congrArg State.time hu).trans rfl
    rw [h1]
    by_cases hc : gs.contains (portGroup s.settings p.val) = true
    · rw [if_pos hc, if_pos hc, closeGate_eq, modPort_at, h2]
    · rw [if_neg hc, if_neg hc, ite_self]
  obtain ⟨h1, -⟩ := hp 0
  have hsh : (s.shutGroups gs).shut = s1.shut := (congrArg State.shut h1).trans rfl
  refine ⟨?_, fun g => ?_, fun p => (hp p).2⟩
  · rw [hsh]
    exact h1
  · rw [hsh]
    exact Vector.getElem_ofFn ..

theorem allGroups_contains (n : Nat) : allGroups.contains n = decide (n < 16) := by
  simp [allGroups]

theorem ShutGroups.all {s t : State} (h : ShutGroups allGroups s t) : (∀ g : Fin 16, t.shut[g] = true) ∧
    ∀ p : PortIx, portGroup s.settings p.val < 16 → t.ports[p] = gateShut s.time.mono s.ports[p] := by
  refine ⟨fun g => ?_, fun p hp => ?_⟩
  · rw [h.shut, allGroups_contains, decide_eq_true g.isLt, Bool.or_true]
  · rw [h.ports, allGroups_contains, decide_eq_true hp, if_pos rfl]

/-! ### SDC_LAT at its shutdown level (R571) -/

theorem emOn_none (e : Fin 128) : (Vector.replicate 128 false : Vector Bool 128)[e] = false := Vector.getElem_replicate ..

/-- The chain after SDC_LAT went to its shutdown level. -/
def latched (now wait : Time) (c : Sdc) : Sdc :=
  { (c.setPhase (if bit c.ctl 0 then .waiting else .idle)) with waitUntil := now + wait, passes := 0, failedRun := 0, sent := [], again := false }

theorem latShutdown_eq (s : State) (wait : Time) :
    s.latShutdown wait = { s with emOn := Vector.replicate 128 false, sdc := latched s.time.mono wait s.sdc } := rfl

theorem latched_phase (now wait : Time) (c : Sdc) : (latched now wait c).phase = (if bit c.ctl 0 then .waiting else .idle) ∧
    bit (latched now wait c).stat 16 = true := by
  refine ⟨rfl, ?_⟩
  show bit (putBit c.stat 16 (match (if bit c.ctl 0 then ChainPhase.waiting else .idle) with | .discovering | .framing => false | _ => true)) 16 = true
  rw [bit_putBit_self _ _ (by omega)]
  cases bit c.ctl 0 <;> rfl

theorem latched_off (now wait : Time) (c : Sdc) : (latched now wait c).phase ≠ .framing ∧ (latched now wait c).phase ≠ .discovering := by
  rw [(latched_phase now wait c).1]
  split <;> exact ⟨by simp, by simp⟩

/-- Every group shut, and SDC_LAT at its shutdown level, whatever events follow. -/
theorem allShut_of {s u t : State} {wait : Time} (h : ShutGroups allGroups s u) (hs : t.shut = u.shut) (he : t.emOn = Vector.replicate 128 false)
    {c : Sdc} (hc : t.sdc = latched s.time.mono wait c) : AllShut t := by
  refine ⟨fun g => ?_, fun e => ?_, ?_, ?_, ?_⟩
  · rw [hs]
    exact h.all.1 g
  · rw [he]
    exact emOn_none e
  · rw [hc]
    exact (latched_phase _ _ _).2
  · rw [hc]
    exact (latched_off _ _ _).1
  · rw [hc]
    exact (latched_off _ _ _).2

theorem inhibitWanted_of_intlk {s : State} (h : s.sdc.causeIntlk = true) : s.inhibitWanted = true := by
  unfold State.inhibitWanted
  rw [h]
  rfl

theorem raise_both {s : State} (h : s.boot.inReset = false) (a b : EvIx) : SameWork s ((s.raise a).raise b) ∧
    ((s.raise a).raise b).ev.pend.getLsbD a.val = true ∧ ((s.raise a).raise b).ev.pend.getLsbD b.val = true := by
  obtain ⟨h1, h2⟩ := raise_after h a
  have hb : (s.raise a).boot.inReset = false := (congrArg (·.inReset) h1.boot).trans h
  exact ⟨h1.trans (raise_same _ b), raise_pend _ b a hb (.inr h2), raise_pend _ b b hb (.inl rfl)⟩

/-- The interlock cause ends, and, with no cause left, a discovery is due. -/
theorem causeCleared_only (s : State) : s.causeCleared = { s with sdc := { s.sdc with waitUntil := s.causeCleared.sdc.waitUntil } } := by
  unfold State.causeCleared
  split <;> rfl

/-- Settles O42: every group shut by `shutGroups_effect`, then SDC_LAT and the events; the end of the cause moves the chain's wait only. -/
theorem interlockShutsEverythingDown : Obligations.InterlockShutsEverythingDown := by
  unfold Obligations.InterlockShutsEverythingDown
  intro s
  refine ⟨fun hi hr => ?_, fun hi => ⟨congrArg Host.Outcome.next (if_pos hi), ?_⟩, fun hi => congrArg Host.Outcome.next (if_neg (by rw [hi]; decide))⟩
  · let s0 := s.modSdc fun c => { c with causeIntlk := true }
    have hg := shutGroups_effect allGroups s0
    generalize hu : s0.shutGroups allGroups = u at hg
    have hx : exec .interlockOpen s = .next ((((u.latShutdown 0).driveInhibit).raise 204).raise 200) := by
      refine congrArg Host.Outcome.next ((if_neg (by rw [hi]; decide)).trans ?_)
      rw [← hu]
    have hb : u.boot = s.boot := (congrArg State.boot hg.frame).trans rfl
    have hset : u.settings = s.settings := (congrArg State.settings hg.frame).trans rfl
    have hsd : u.sdc = { s.sdc with causeIntlk := true } := (congrArg State.sdc hg.frame).trans rfl
    have htm : u.time = s.time := (congrArg State.time hg.frame).trans rfl
    have hln : u.lanes = s.lanes := (congrArg State.lanes hg.frame).trans rfl
    have hin : (u.latShutdown 0).driveInhibit.rind.inhibitOuter = true :=
      inhibitWanted_of_intlk (by rw [latShutdown_eq, hsd]; rfl)
    obtain ⟨hsame, h204, h200⟩ := raise_both (s := (u.latShutdown 0).driveInhibit) (by rw [← hr, ← hb]; rfl) 204 200
    refine ⟨_, hx, ?_⟩
    generalize ((u.latShutdown 0).driveInhibit.raise 204).raise 200 = t at hsame h204 h200
    refine ⟨allShut_of (wait := 0) (c := u.sdc) hg (hsame.shut.trans rfl) (hsame.emOn.trans rfl) (hsame.sdc.trans (by rw [latShutdown_eq, htm]; rfl)), ?_,
      fun p hp => ?_, ?_, h204, h200, ?_, ?_, ?_⟩
    · rw [hsame.sdc, latShutdown_eq, hsd]
      rfl
    · rw [hsame.ports, show (u.latShutdown 0).driveInhibit.ports = u.ports from rfl, hg.all.2 p hp]
      exact ⟨rfl, rfl⟩
    · rw [hsame.rind]
      exact hin
    · exact hsame.time.trans htm
    · exact hsame.settings.trans hset
    · exact hsame.lanes.trans hln
  · have hx : exec .interlockClosed s = .next ((s.modSdc fun c => { c with causeIntlk := false }).driveInhibit.causeCleared) :=
      congrArg Host.Outcome.next (if_pos hi)
    refine ⟨_, hx, ?_⟩
    rw [causeCleared_only]
    exact ⟨rfl, rfl, rfl, rfl⟩

end Sys2Proof.Proofs

/-! SUPPORT. CK_REF (R189 to R194, R202, R204): a move to another source begins, and a ramp ends. -/

namespace Sys2Proof.Proofs
open Sys2Proof Sys2Proof.Machine Sys2Proof.Claims

/-! ### A move begins -/

/-- Divided clocks are no sooner than undivided ones (R194). -/
theorem le_slowed (divs : List (Nat × Nat)) (hd : ∀ x ∈ divs, 1 ≤ x.2) (x w : Nat) : w ≤ slowed divs x w := by
  induction divs generalizing x w with
  | nil => exact le_refl w
  | cons y rest ih =>
    obtain ⟨len, d⟩ := y
    have h1 : 1 ≤ d := hd (len, d) List.mem_cons_self
    have hr := ih fun z hz => hd z (by simp [hz])
    have hdiv : (len - x) / d ≤ len - x := Nat.div_le_self _ _
    have hr0 := hr 0 (w - (len - x) / d)
    rw [slowed]
    split
    · exact hr _ _
    · split
      · exact Nat.le_mul_of_pos_right w h1
      · omega

theorem le_slowed_ref (x w : Nat) : w ≤ slowed clkDivs x w := le_slowed clkDivs (by decide) x w

/-- The clock registers as a move to `r` begins. -/
def movedClk (r : RefSrc) (now : Time) (c : Clocks) : Clocks :=
  { (c.beginRamp (.ref r false) now) with
    stat := setBit (setBit c.stat 4) 15, paceRamp := Vector.replicate 96 true
    spans := openSpan now { tag := 3, pos := none, since := now, till := some (now + 8 * us) } c.spans }

/-- When the chain's frame or discovery ends, with CK_REF divided from `now` on. -/
def slowedWait (now latch w : Time) : Time :=
  if now + latch ≤ w then max (now + slowed clkDivs 0 (w - latch - now)) (now + 6 * us) + latch else now + slowed clkDivs 0 (w - now)

theorem le_slowedWait (now latch w : Nat) : w ≤ slowedWait now latch w := by
  have h1 := le_slowed_ref 0 (w - latch - now)
  have h2 := le_slowed_ref 0 (w - now)
  unfold slowedWait
  split
  · have h3 := Nat.le_max_left (now + slowed clkDivs 0 (w - latch - now)) (now + 6 * us)
    omega
  · omega

/-- The chain as a move begins. -/
def movedSdc (now : Time) (d : Sdc) : Sdc :=
  { d with waitUntil := if d.phase = .framing then slowedWait now (d.periods 8) d.waitUntil
                        else if d.phase = .discovering then slowedWait now 0 d.waitUntil else d.waitUntil }

theorem waits_eq (d : Sdc) (p : Prop) [Decidable p] (a b : Time) :
    (if p then { d with waitUntil := a } else { d with waitUntil := b } : Sdc) = { d with waitUntil := if p then a else b } := by split <;> rfl

theorem startMove_eq (s : State) : s.startMove =
    if s.clk.ramping || s.clk.wanted == s.clk.src || s.latchUntil.isSome then s
    else { s with clk := movedClk s.clk.wanted s.time.mono s.clk, axc1 := { s.axc1 with invalid := s.axc1.invalid || s.axc1.running.isSome },
                  sdc := movedSdc s.time.mono s.sdc } := by
  have hsdc : (let latch := if s.sdc.phase = .framing then s.sdc.periods 8 else 0
      match s.sdc.phase with
      | .framing | .discovering =>
        if s.time.mono + latch ≤ s.sdc.waitUntil then
          { s.sdc with waitUntil := max (s.time.mono + slowed clkDivs 0 (s.sdc.waitUntil - latch - s.time.mono)) (s.time.mono + 6 * us) + latch }
        else { s.sdc with waitUntil := s.time.mono + slowed clkDivs 0 (s.sdc.waitUntil - s.time.mono) }
      | _ => s.sdc) = movedSdc s.time.mono s.sdc := by
    dsimp only
    unfold movedSdc slowedWait
    split
    · rename_i h
      rw [if_pos h, if_pos h, waits_eq]
    · rename_i h
      have hf : s.sdc.phase ≠ .framing := by rw [h]; decide
      rw [if_neg hf, if_neg hf, if_pos h, waits_eq]
    · rename_i h1 h2
      rw [if_neg h1, if_neg h2]
  unfold State.startMove
  rw [← hsdc]
  rfl

theorem latchUntil_congr {s u : State} (hs : u.sdc = s.sdc) (ht : u.time = s.time) : u.latchUntil = s.latchUntil := by
  unfold State.latchUntil
  rw [hs, ht]

theorem moves_of_same {u v t : State} (h : SameWork u v) (m : Moves v t) : Moves u t := by
  unfold Moves at m
  rw [h.clk, h.axc1, h.sdc, h.time, latchUntil_congr h.sdc h.time] at m
  exact m

theorem movedClk_bits (r : RefSrc) (now : Time) (c : Clocks) :
    bit (movedClk r now c).stat 4 = true ∧ bit (movedClk r now c).stat 15 = true ∧
      (∀ i, i ≠ 4 → i ≠ 15 → bit (movedClk r now c).stat i = bit c.stat i) ∧ (bit c.fstat 0 = true → bit (movedClk r now c).fstat 3 = true) := by
  refine ⟨(bit_setBit_ne _ (by omega)).trans (bit_setBit_self _ (by omega)), bit_setBit_self _ (by omega),
    fun i h4 h15 => (bit_setBit_ne _ h15).trans (bit_setBit_ne _ h4), fun h => ?_⟩
  show bit (if bit c.fstat 0 then setBit c.fstat 3 else c.fstat) 3 = true
  rw [if_pos h]
  exact bit_setBit_self _ (by omega)

theorem startMove_moves (s : State) : s.startMove = { s with clk := s.startMove.clk, axc1 := s.startMove.axc1, sdc := s.startMove.sdc } ∧
    Moves s s.startMove := by
  have hr : s.clk.ramping = true ↔ s.clk.ramp ≠ .none := by simp [Clocks.ramping]
  by_cases hc : (s.clk.ramping || s.clk.wanted == s.clk.src || s.latchUntil.isSome) = true
  · rw [startMove_eq, if_pos hc]
    refine ⟨rfl, fun _ => ⟨rfl, rfl, rfl⟩, fun h1 h2 h3 => ?_⟩
    simp only [Bool.or_eq_true, hr, beq_iff_eq, h1, h2, h3] at hc
    simp at hc
  · rw [startMove_eq, if_neg hc]
    refine ⟨rfl, fun h => ?_, fun h1 h2 h3 => ?_⟩
    · simp only [Bool.or_eq_true, hr, beq_iff_eq, Option.isSome_iff_ne_none, not_or] at hc
      tauto
    · obtain ⟨b1, b2, b3, b4⟩ := movedClk_bits s.clk.wanted s.time.mono s.clk
      refine ⟨rfl, rfl, b1, b2, b3, b4, fun i => Vector.getElem_replicate .., fun h => ?_, ?_, rfl, fun h4 h5 => ?_, fun _ => ?_⟩
      · show (s.axc1.invalid || s.axc1.running.isSome) = true
        rw [h, Bool.or_true]
      · exact List.mem_append_right _ (List.mem_singleton_self _)
      · show movedSdc s.time.mono s.sdc = s.sdc
        unfold movedSdc
        rw [if_neg h4, if_neg h5]
      · show s.sdc.waitUntil ≤ (if _ then _ else if _ then _ else _)
        split
        · exact le_slowedWait _ _ _
        · split
          · exact le_slowedWait _ _ _
          · exact le_refl _

/-! ### A ramp ends -/

/-- The clock registers once a retune that waited has begun. -/
def served (now : Time) (c : Clocks) : Clocks :=
  if c.fsWaiting then
    { (c.beginRamp (.fs false) now) with fsWaiting := false, spans := openSpan now { tag := 3, pos := none, since := now, till := none } c.spans }
  else c

theorem served_none {c : Clocks} (h : c.fsWaiting = false) (now : Time) : served now c = c := if_neg (by rw [h]; decide)

theorem serveRetune_eq {s : State} (h : s.clk.ramp = .none) : s.serveRetune = s.modClk (served s.time.mono) := by
  have hr : s.clk.ramping = false := by simp [Clocks.ramping, h]
  unfold State.serveRetune State.startRetune
  cases hw : s.clk.fsWaiting
  · show s = { s with clk := served s.time.mono s.clk }
    rw [served_none hw]
  · rw [if_pos rfl, hr]
    exact congrArg (fun c => { s with clk := c }) (if_pos hw).symm

theorem served_waiting {c : Clocks} (h : c.fsWaiting = true) (now : Time) : (served now c).ramp = .fs false ∧ bit (served now c).stat 4 = true ∧
    (served now c).fsWaiting = false ∧ (served now c).rampAt = now ∧ ∀ i, i ≠ 4 → bit (served now c).stat i = bit c.stat i := by
  rw [show served now c = _ from if_pos h]
  exact ⟨rfl, bit_setBit_self _ (by omega), rfl, rfl, fun i hi => bit_setBit_ne _ hi⟩

theorem served_bit (c : Clocks) (now : Time) {i : Nat} (hi : i ≠ 4) : bit (served now c).stat i = bit c.stat i := by
  cases h : c.fsWaiting
  · rw [served_none h]
  · exact (served_waiting h now).2.2.2.2 i hi

/-- The clock registers once the ramp is over. -/
def rampOver (now : Time) (c : Clocks) : Clocks := { (c.settled now) with ramp := .none, stat := clrBit (c.settled now).stat 4 }

theorem settled_done {c : Clocks} {r : RefSrc} (h : c.ramp = .ref r true) (now : Time) : c.settled now = c := by
  unfold Clocks.settled
  rw [h]

theorem settled_switch {c : Clocks} {r : RefSrc} (h : c.ramp = .ref r false) {now : Time} (hn : c.rampAt + 3 * us ≤ now) :
    c.settled now = { c with ramp := .ref r true, stat := setBit (setFld c.stat 0 2 (srcCode r)) 13 } := by
  unfold Clocks.settled
  rw [h]
  exact if_pos hn

theorem settled_fsWaiting (c : Clocks) (now : Time) : (c.settled now).fsWaiting = c.fsWaiting := by
  unfold Clocks.settled
  split
  · split <;> rfl
  · rfl

/-- The end of a ramp, its 6 µs at `a` and its 8 µs at `b`. -/
def rampEnds (a b : Time) (s0 : State) : State :=
  let s := s0.until a
  let s1 := ((s.modClk (rampOver s.time.mono)).raise 178).serveRetune
  (s1.until b).modClk fun c => { c with stat := clrBit c.stat 15 }

/-- The clock registers after it. -/
def rampedClk (now : Time) (c : Clocks) : Clocks :=
  { (served now (rampOver now c)) with stat := clrBit (served now (rampOver now c)).stat 15 }

theorem rampEnds_effect (a b : Time) (s : State) :
    SameWork { s.until a with clk := rampedClk (max s.time.mono a) s.clk, time := (rampEnds a b s).time, rind := (rampEnds a b s).rind,
                              aon := (rampEnds a b s).aon } (rampEnds a b s) ∧
      (rampEnds a b s).time.mono = max (max s.time.mono a) b ∧ (s.boot.inReset = false → (rampEnds a b s).ev.pend.getLsbD 178 = true) := by
  unfold rampEnds
  dsimp only
  have h1 := raise_same ((s.until a).modClk (rampOver (s.until a).time.mono)) 178
  have h2 := fun h => (raise_after (s := (s.until a).modClk (rampOver (s.until a).time.mono)) h 178).2
  generalize ((s.until a).modClk (rampOver (s.until a).time.mono)).raise 178 = u at h1 h2 ⊢
  have hc : u.clk = rampOver (s.until a).time.mono s.clk := h1.clk.trans rfl
  have ht : u.time = (s.until a).time := h1.time.trans rfl
  rw [serveRetune_eq (by rw [hc]; rfl)]
  refine ⟨?_, ?_, fun h => ?_⟩
  · have hm : max s.time.mono a = (s.until a).time.mono := (until_mono s a).symm
    have hck : (({ (served u.time.mono u.clk) with stat := clrBit (served u.time.mono u.clk).stat 15 } : Clocks)) = rampedClk (s.until a).time.mono s.clk := by
      rw [hc, ht]
      rfl
    rw [hm, ← hck]
    obtain ⟨⟩ := h1
    constructor
    all_goals first | assumption | rfl
  · rw [State.modClk_time, until_mono, State.modClk_time, ht, until_mono]
  · exact h2 h

theorem rampedClk_bit (now : Time) (c : Clocks) {i : Nat} (h4 : i ≠ 4) (h15 : i ≠ 15) :
    bit (rampedClk now c).stat i = bit (c.settled now).stat i :=
  (bit_clrBit_ne _ h15).trans ((served_bit _ now h4).trans (bit_clrBit_ne _ h4))

theorem rampedClk_src (now : Time) (c : Clocks) : fld (rampedClk now c).stat 0 2 = fld (c.settled now).stat 0 2 :=
  fld_congr fun i _ _ => rampedClk_bit now c (by omega) (by omega)

theorem rampedClk_effect {c : Clocks} {r : RefSrc} {b : Bool} (hr : c.ramp = .ref r b) {now : Time} (hn : c.rampAt + 3 * us ≤ now) :
    bit (rampedClk now c).stat 15 = false ∧
      (b = false → fld (rampedClk now c).stat 0 2 = srcCode r ∧ bit (rampedClk now c).stat 13 = true) ∧
      (b = true → fld (rampedClk now c).stat 0 2 = fld c.stat 0 2 ∧ bit (rampedClk now c).stat 13 = bit c.stat 13) ∧
      (c.fsWaiting = false → (rampedClk now c).ramp = .none ∧ bit (rampedClk now c).stat 4 = false) ∧
      (c.fsWaiting = true → (rampedClk now c).ramp = .fs false ∧ bit (rampedClk now c).stat 4 = true ∧ (rampedClk now c).fsWaiting = false ∧
        (rampedClk now c).rampAt = now) := by
  have hw : (rampOver now c).fsWaiting = c.fsWaiting := settled_fsWaiting c now
  refine ⟨bit_clrBit_self _ _, fun hb => ?_, fun hb => ?_, fun h => ?_, fun h => ?_⟩
  · subst hb
    rw [rampedClk_src, rampedClk_bit now c (by omega) (by omega), settled_switch hr hn]
    refine ⟨?_, bit_setBit_self _ (by omega)⟩
    show fld (setBit (setFld c.stat 0 2 (srcCode r)) 13) 0 2 = _
    rw [fld_setBit _ (by omega), fld_setFld _ _ (by omega)]
    cases r <;> rfl
  · subst hb
    rw [rampedClk_src, rampedClk_bit now c (by omega) (by omega), settled_done hr]
    exact ⟨rfl, rfl⟩
  · unfold rampedClk
    rw [served_none (hw.trans h)]
    exact ⟨rfl, (bit_clrBit_ne _ (by omega)).trans (bit_clrBit_self _ _)⟩
  · obtain ⟨h1, h2, h3, h4, -⟩ := served_waiting (hw.trans h) now
    exact ⟨h1, (bit_clrBit_ne _ (by omega)).trans h2, h3, h4⟩

theorem ckRefRampComplete_eq {s : State} {r : RefSrc} {b : Bool} (h : s.clk.ramp = .ref r b) :
    ckRefRampComplete s = rampEnds (s.clk.rampAt + 6 * us) (s.clk.rampAt + 8 * us) s := by
  unfold ckRefRampComplete
  rw [h]
  rfl

/-- What the end of a ramp leaves, for any 6 µs and 8 µs of it. -/
theorem rampEnds_leaves {s : State} {r : RefSrc} {b : Bool} (h : s.clk.ramp = .ref r b) {x y : Time} (hx : s.clk.rampAt + 3 * us ≤ x) (hy : x ≤ y)
    (t : State) (ht : t = rampEnds x y s) :
    SameWork { s.until x with clk := t.clk, time := t.time, rind := t.rind, aon := t.aon } t ∧
      t.time.mono = max s.time.mono y ∧ bit t.clk.stat 15 = false ∧ (s.boot.inReset = false → t.ev.pend.getLsbD 178 = true) ∧
      (b = false → fld t.clk.stat 0 2 = srcCode r ∧ bit t.clk.stat 13 = true) ∧
      (b = true → fld t.clk.stat 0 2 = fld s.clk.stat 0 2 ∧ bit t.clk.stat 13 = bit s.clk.stat 13) ∧
      (s.clk.fsWaiting = false → t.clk.ramp = .none ∧ bit t.clk.stat 4 = false) ∧
      (s.clk.fsWaiting = true → t.clk.ramp = .fs false ∧ bit t.clk.stat 4 = true ∧ t.clk.fsWaiting = false ∧ t.clk.rampAt = max s.time.mono x) := by
  obtain ⟨e1, e2, e3⟩ := rampEnds_effect x y s
  obtain ⟨c1, c2, c3, c4, c5⟩ := rampedClk_effect h (now := max s.time.mono x) (le_trans hx (Nat.le_max_right _ _))
  rw [← ht] at e1 e2 e3
  have hc : t.clk = rampedClk (max s.time.mono x) s.clk := e1.clk
  rw [hc]
  refine ⟨e1, ?_, c1, e3, c2, c3, c4, c5⟩
  rw [e2, max_assoc, Nat.max_eq_right hy]

/-! ### A source is lost or qualified -/

theorem sourceEvent_effect (s : State) {r : RefSrc} (h : r ≠ .internal) : SameWork s (s.sourceEvent r) ∧
    (s.boot.inReset = false → (s.sourceEvent r).ev.pend.getLsbD (if r = .recovered then 179 else 180) = true) := by
  cases r
  · exact absurd rfl h
  · exact ⟨raise_same s 179, fun hr => (raise_after hr 179).2⟩
  · exact ⟨raise_same s 180, fun hr => (raise_after hr 180).2⟩

theorem markSource_eq (c : Clocks) {r : RefSrc} (h : r ≠ .internal) (ok : Bool) : c.markSource r ok = { c with stat := putBit c.stat (sourceBit r) ok } := by
  cases r
  · exact absurd rfl h
  · rfl
  · rfl

/-- What follows a source's change: its event, and a move when one is called for. -/
theorem sourceChange_effect (u : State) {r : RefSrc} (h : r ≠ .internal) :
    SameWork { u with clk := (u.sourceEvent r).startMove.clk, axc1 := (u.sourceEvent r).startMove.axc1, sdc := (u.sourceEvent r).startMove.sdc }
        (u.sourceEvent r).startMove ∧
      (u.boot.inReset = false → (u.sourceEvent r).startMove.ev.pend.getLsbD (if r = .recovered then 179 else 180) = true) ∧
      Moves u (u.sourceEvent r).startMove := by
  obtain ⟨h1, h2⟩ := sourceEvent_effect u h
  obtain ⟨m1, m2⟩ := startMove_moves (u.sourceEvent r)
  refine ⟨?_, fun hr => ?_, moves_of_same h1 m2⟩
  · rw [m1]
    obtain ⟨⟩ := h1
    constructor
    all_goals first | assumption | rfl
  · rw [m1]
    exact h2 hr

theorem wtr_eq (c : Clocks) : c.wtr = fld c.ctl 8 8 * sec := rfl

/-- What a source's qualification does in the state `v` at its instant. -/
def qualifiedAt (r : RefSrc) (s v : State) : State :=
  if v.clk.qualified r || (r == .recovered && !v.links.tportUp) then s
  else ((v.modClk fun c => c.markSource r true).sourceEvent r).startMove

theorem qualifiedAt_of {r : RefSrc} {s v : State} (hq : v.clk.qualified r = false) (ht : r = .recovered → v.links.tportUp = true) :
    qualifiedAt r s v = ((v.modClk fun c => c.markSource r true).sourceEvent r).startMove :=
  if_neg (by cases r <;> simp_all)

theorem ckRefSourceQualified_eq (r : RefSrc) (s : State) :
    ckRefSourceQualified r s = qualifiedAt r s (if r = .recovered then s.until (s.clk.recovSince + s.clk.wtr) else s) := by
  unfold ckRefSourceQualified qualifiedAt
  rfl

theorem qualifiedAt_still {r : RefSrc} {s v : State} (hc : v.clk = s.clk) (hl : v.links = s.links)
    (h : s.clk.qualified r = true ∨ (r = .recovered ∧ s.links.tportUp = false)) : qualifiedAt r s v = s := by
  refine if_pos ?_
  rw [hc, hl]
  rcases h with h | ⟨rfl, h⟩ <;> simp [h]

theorem ite_until (p : Prop) [Decidable p] (s : State) (x : Time) :
    (if p then s.until x else s).clk = s.clk ∧ (if p then s.until x else s).links = s.links := by
  split <;> exact ⟨rfl, rfl⟩

theorem recovered_eq {s v : State} (hv : v = s.until (s.clk.recovSince + s.clk.wtr)) :
    ckRefSourceQualified .recovered s = qualifiedAt .recovered s v := by
  rw [ckRefSourceQualified_eq, if_pos rfl, hv]

theorem qualified_source {c : Clocks} {r : RefSrc} (h : c.qualified r = false) : r ≠ .internal := by
  rintro rfl
  exact Bool.noConfusion h

/-- Settles O43: a source's change and a waiting switch end in `startMove`, the end of a ramp in `rampEnds`. -/
theorem referenceClockMoves : Obligations.ReferenceClockMoves := by
  unfold Obligations.ReferenceClockMoves
  intro s
  refine ⟨fun r => ⟨fun h => congrArg _ (if_pos (by simpa using h)), fun h => ?_⟩, ?_, fun u h1 h2 => ?_, fun h => ?_, fun r b h => ?_⟩
  · show Host.Outcome.next (ckRefSourceQualified r s) = _
    rw [ckRefSourceQualified_eq, qualifiedAt_still (ite_until ..).1 (ite_until ..).2 h]
  · rintro r ok c u v hc hq rfl
    have hv : v.clk = s.clk ∧ v.boot = s.boot := by
      rcases hc with ⟨-, -, -, h⟩ | ⟨-, -, ⟨-, h⟩ | ⟨-, -, h⟩⟩
      · rw [h]
        exact ⟨rfl, rfl⟩
      · rw [h]
        exact ⟨rfl, rfl⟩
      · rw [h, State.until_clk, State.until_boot]
        exact ⟨rfl, rfl⟩
    have hi : r ≠ .internal := by rcases hc with ⟨-, -, h, -⟩ | ⟨-, -, ⟨rfl, -⟩ | ⟨rfl, -⟩⟩ <;> first | exact h | decide
    have hm : (v.modClk fun c => c.markSource r ok) = v.modClk fun c => { c with stat := putBit c.stat (sourceBit r) ok } :=
      congrArg (fun c => v.modClk fun _ => c) (markSource_eq v.clk hi ok)
    have hx : exec c s = .next (((v.modClk fun c => c.markSource r ok).sourceEvent r).startMove) := by
      rcases hc with ⟨rfl, rfl, h, rfl⟩ | ⟨rfl, rfl, ⟨rfl, rfl⟩ | ⟨rfl, ht, hu⟩⟩
      · exact congrArg _ (if_neg (by simp [h, hq]))
      · show Host.Outcome.next (ckRefSourceQualified .refin _) = _
        rw [ckRefSourceQualified_eq, if_neg (by decide), qualifiedAt_of hq (by simp)]
      · exact congrArg _ ((recovered_eq (by rw [hu, wtr_eq])).trans (qualifiedAt_of (by rw [hv.1]; exact hq) fun _ => by rw [hu, State.until_links]; exact ht))
    obtain ⟨e1, e2, e3⟩ := sourceChange_effect (v.modClk fun c => { c with stat := putBit c.stat (sourceBit r) ok }) hi
    refine ⟨_, hx, ?_⟩
    rw [hm]
    exact ⟨e1, fun hr => e2 ((congrArg (·.inReset) hv.2).trans hr), e3⟩
  · have hx : exec .ckRefSwitch s = .next u.startMove := by
      show Host.Outcome.next (ckRefSwitch s) = _
      unfold ckRefSwitch
      cases hl : s.latchUntil with
      | none => rw [h1 hl]
      | some e => rw [h2 e hl]
    exact ⟨_, hx, startMove_moves u⟩
  · show Host.Outcome.next (ckRefRampComplete s) = _
    unfold ckRefRampComplete
    cases hc : s.clk.ramp with
    | ref r b => exact absurd hc (h r b)
    | none => rfl
    | fs b => rfl
  · have hx : exec .ckRefRampComplete s = .next (rampEnds (s.clk.rampAt + 6 * us) (s.clk.rampAt + 8 * us) s) := congrArg _ (ckRefRampComplete_eq h)
    have h38 : 3 * us ≤ 6 * us ∧ 6 * us ≤ 8 * us := ⟨Nat.mul_le_mul_right _ (by omega), Nat.mul_le_mul_right _ (by omega)⟩
    obtain ⟨e1, e2, e3, e4, e5, e6⟩ := rampEnds_leaves h (Nat.add_le_add_left h38.1 _) (Nat.add_le_add_left h38.2 _) _ rfl
    exact ⟨_, hx, e1, e2, e3, e4, fun hb => ⟨(e5 hb).1.trans (by cases r <;> rfl), (e5 hb).2⟩, e6⟩

end Sys2Proof.Proofs

/-! SUPPORT. Loops out of lock and back in lock (R195 to R201): what they set, and what a strain epoch begun by a regained probe lock leaves alone. -/

namespace Sys2Proof.Proofs
open Sys2Proof Sys2Proof.Machine Sys2Proof.Claims

/-! ### A strain epoch begins -/

theorem newEpoch_eq (q : Port) : q.newEpoch = { q with
    oldRun := q.newEpoch.oldRun, pings := q.newEpoch.pings, stat := setFld q.stat 16 16 (fld q.stat 16 16 + 1), groups := q.groups.map GroupSt.newEpoch
    lastGamma := [], lastSense := none, dph := DelayPh.reset, delay := q.newEpoch.delay } := by
  unfold Port.newEpoch
  dsimp only
  split <;> rfl

/-- What a synchronising reset with an anchor may change. -/
abbrev epochParts : List Part := [.free, .tiu, .ports] ++ zoneParts

theorem queueAnchor_effect (s : State) (p : Nat) : Only [.free, .tiu, .ports] s (s.queueAnchor p) ∧
    (∀ q : PortIx, (s.queueAnchor p).ports[q] = { s.ports[q] with delay := (s.queueAnchor p).ports[q].delay }) := by
  unfold State.queueAnchor
  split
  · dsimp only
    have h1 : Only [.free] s (s.freshId 16 s.tiu.ids).2 := fresh_only s
    have h2 : MeasWork (s.freshId 16 s.tiu.ids).2 _ := ((modTiu_measWork (s.freshId 16 s.tiu.ids).2 (fun t => { t with
      queue := (t.queue.filter fun x => x.anchorPort.isSome) ++ [anchorReq s.settings p (BitVec.ofNat 16 (s.freshId 16 s.tiu.ids).1) s.unitNow] ++
        (t.queue.filter fun x => x.anchorPort.isNone) }) fun _ _ => rfl).trans (nextMeas_measWork _)).trans (cancelAll_measWork _)
    exact ⟨(h1.mono (by decide)).trans (h2.only.mono (by decide)), h2.ports⟩
  · exact ⟨.refl .., fun _ => rfl⟩

theorem atBoundary_effect (s : State) (p : PortIx) (w : Later) : Only ([.ports] ++ zoneParts) s (s.atBoundary p w) ∧
    (∀ q : PortIx, q ≠ p → (s.atBoundary p w).ports[q] = s.ports[q]) ∧
    (s.atBoundary p w).ports[p] = { s.ports[p] with pings := (s.atBoundary p w).ports[p].pings, later := (s.atBoundary p w).ports[p].later } := by
  by_cases hi : s.ports[p].pings.isEmpty = true
  · rw [show s.atBoundary p w = s.zoneWork p w from if_pos hi]
    have h := zoneWork_only s p w
    have hp : (s.zoneWork p w).ports = s.ports := h.same .ports (by decide)
    have hq : ∀ q : PortIx, (s.zoneWork p w).ports[q] = s.ports[q] := fun q => by rw [hp]
    exact ⟨h.mono (by decide), fun q _ => hq q, by rw [hq]⟩
  · rw [show s.atBoundary p w = s.modPort p _ from if_neg hi]
    refine ⟨(modPort_only ..).mono (by decide), fun q hq => ?_, ?_⟩
    · rw [modPort_at, if_neg hq]
    · rw [modPort_at, if_pos rfl]

/-- A strain epoch begins at port `p`. -/
structure EpochBegins (p : PortIx) (s t : State) : Prop where
  only : Only epochParts s t
  others : ∀ q : PortIx, q ≠ p → t.ports[q] = { s.ports[q] with delay := t.ports[q].delay }
  port : t.ports[p] = { s.ports[p].newEpoch with delay := t.ports[p].delay, pings := t.ports[p].pings, later := t.ports[p].later }

theorem beginEpoch_effect (s : State) (p : PortIx) : EpochBegins p s (s.beginEpoch p) := by
  have h1 : Only epochParts s (s.modPort p Port.newEpoch) := (modPort_only ..).mono (by decide)
  have hp1 : ∀ q : PortIx, (s.modPort p Port.newEpoch).ports[q] = if q = p then s.ports[q].newEpoch else s.ports[q] := fun q => modPort_at ..
  obtain ⟨h2, hp2⟩ := queueAnchor_effect (s.modPort p Port.newEpoch) p.val
  unfold State.beginEpoch State.startEpoch
  generalize (s.modPort p Port.newEpoch).queueAnchor p.val = u at h2 hp2 ⊢
  obtain ⟨h3, ho3, hp3⟩ := atBoundary_effect u p { old := s.settings, inst := s.time.dev, reset := true, ring := false }
  generalize u.atBoundary p { old := s.settings, inst := s.time.dev, reset := true, ring := false } = v at h3 ho3 hp3 ⊢
  refine ⟨(h1.trans (h2.mono (by decide))).trans (h3.mono (by decide)), fun q hq => ?_, ?_⟩
  · rw [ho3 q hq, hp2 q, hp1 q, if_neg hq]
  · rw [hp3, hp2 p, hp1 p, if_pos rfl]

theorem newEpoch_count (q : Port) : fld q.newEpoch.stat 16 16 = (fld q.stat 16 16 + 1) % 65536 := by
  rw [newEpoch_eq]
  exact fld_setFld _ _ (by omega)

/-! ### Every port in turn -/

/-- A fold over the ports does to each port what its own step does, up to what the other steps leave. -/
theorem forPorts_rel {g : PortIx → State → State} {I : State → Prop} {R : Port → Port → Prop} {A : PortIx → Port → Port → Prop}
    (hI : ∀ p u, I u → I (g p u)) (hR : ∀ a, R a a) (hRR : ∀ a b c, R a b → R b c → R a c) (hRA : ∀ p a b c, R a b → A p b c → A p a c)
    (hAR : ∀ p a b c, A p a b → R b c → A p a c) (hself : ∀ p u, I u → A p u.ports[p] (g p u).ports[p])
    (hother : ∀ p u (q : PortIx), I u → q ≠ p → R u.ports[q] (g p u).ports[q]) {s : State} (hs : I s) (q : PortIx) :
    I (s.forPorts g) ∧ A q s.ports[q] (s.forPorts g).ports[q] := by
  have key : ∀ (l : List PortIx) (u : State), I u → l.Nodup → I (l.foldl (fun t p => g p t) u) ∧
      (q ∉ l → R u.ports[q] (l.foldl (fun t p => g p t) u).ports[q]) ∧ (q ∈ l → A q u.ports[q] (l.foldl (fun t p => g p t) u).ports[q]) := by
    intro l
    induction l with
    | nil => exact fun u hu _ => ⟨hu, fun _ => hR _, fun h => by simp at h⟩
    | cons p l ih =>
      intro u hu hl
      obtain ⟨hp, hl⟩ := List.nodup_cons.mp hl
      obtain ⟨h1, h2, h3⟩ := ih (g p u) (hI p u hu) hl
      refine ⟨h1, fun hq => ?_, fun hq => ?_⟩
      · obtain ⟨hqp, hql⟩ := not_or.1 (mt List.mem_cons.2 hq)
        exact hRR _ _ _ (hother p u q hu hqp) (h2 hql)
      · rcases List.mem_cons.1 hq with rfl | hql
        · exact hAR _ _ _ _ (hself _ u hu) (h2 hp)
        · exact hRA _ _ _ _ (hother p u q hu fun h => hp (h ▸ hql)) (h3 hql)
  obtain ⟨h1, -, h3⟩ := key (List.finRange 24) s hs (List.nodup_finRange 24)
  exact ⟨h1, h3 (List.mem_finRange q)⟩

/-! ### Probe lock -/

/-- A frozen frame timer restarts at `now`, in a new strain epoch (R200). -/
def Thaws (now : Time) (_ : PortIx) (a b : Port) : Prop :=
  a.frozen = true → b.frozen = false ∧ b.frameStart = some now ∧ fld b.stat 16 16 = (fld a.stat 16 16 + 1) % 65536

/-- What the epoch of another port leaves alone. -/
def Aside (a b : Port) : Prop := b.frozen = a.frozen ∧ b.frameStart = a.frameStart ∧ b.stat = a.stat

/-- One port as probe lock is regained. -/
def thaw (p : PortIx) (u : State) : State :=
  if u.ports[p].frozen then
    (u.modPort p fun q => { q with frozen := false, frameStart := some u.time.mono, frameNo := q.frameNo + 1 }).beginEpoch p
  else u

theorem thaw_effect (p : PortIx) (u : State) : Only epochParts u (thaw p u) ∧ Thaws u.time.mono p u.ports[p] (thaw p u).ports[p] ∧
    ∀ q : PortIx, q ≠ p → Aside u.ports[q] (thaw p u).ports[q] := by
  unfold thaw
  by_cases hf : u.ports[p].frozen = true
  · rw [if_pos hf]
    have h0 : Only epochParts u (u.modPort p fun q => { q with frozen := false, frameStart := some u.time.mono, frameNo := q.frameNo + 1 }) :=
      (modPort_only ..).mono (by decide)
    have hp0 : ∀ q : PortIx, (u.modPort p fun q => { q with frozen := false, frameStart := some u.time.mono, frameNo := q.frameNo + 1 }).ports[q] =
        if q = p then { u.ports[q] with frozen := false, frameStart := some u.time.mono, frameNo := u.ports[q].frameNo + 1 } else u.ports[q] :=
      fun q => modPort_at ..
    obtain ⟨h1, h2, h3⟩ := beginEpoch_effect (u.modPort p fun q => { q with frozen := false, frameStart := some u.time.mono, frameNo := q.frameNo + 1 }) p
    refine ⟨h0.trans h1, fun _ => ?_, fun q hq => ?_⟩
    · rw [h3, hp0 p, if_pos rfl]
      exact ⟨by rw [newEpoch_eq], by rw [newEpoch_eq], newEpoch_count _⟩
    · rw [h2 q hq, hp0 q, if_neg hq]
      exact ⟨rfl, rfl, rfl⟩
  · rw [if_neg hf]
    exact ⟨.refl .., fun h => absurd h hf, fun q _ => ⟨rfl, rfl, rfl⟩⟩

theorem thaws_effect (s : State) : Only epochParts s (s.forPorts thaw) ∧ ∀ p : PortIx, Thaws s.time.mono p s.ports[p] (s.forPorts thaw).ports[p] := by
  refine ⟨.forPorts (fun p u => (thaw_effect p u).1) s, fun p => ?_⟩
  refine (forPorts_rel (I := fun u => u.time.mono = s.time.mono) (R := Aside) (A := Thaws s.time.mono) (fun p u hu => ?_) (fun a => ⟨rfl, rfl, rfl⟩)
    (fun a b c h k => ⟨k.1.trans h.1, k.2.1.trans h.2.1, k.2.2.trans h.2.2⟩) (fun p a b c h k hf => ?_) (fun p a b c h k hf => ?_)
    (fun p u hu => ?_) (fun p u q _ hq => (thaw_effect p u).2.2 q hq) rfl p).2
  · have ht : (thaw p u).time = u.time := (thaw_effect p u).1.same .time (by decide)
    rw [ht]
    exact hu
  · obtain ⟨k1, k2, k3⟩ := k (h.1.trans hf)
    exact ⟨k1, k2, by rw [k3, h.2.2]⟩
  · obtain ⟨h1, h2, h3⟩ := h hf
    exact ⟨k.1.trans h1, k.2.1.trans h2, by rw [k.2.2, h3]⟩
  · have := (thaw_effect p u).2.1
    rwa [hu] at this

theorem elapse_time_congr {s u : State} (h : u.time = s.time) (d : Time) : (u.elapse d).time = (s.elapse d).time := by
  unfold State.elapse
  dsimp only
  rw [h]

theorem probeLockRegained_effect {s : State} (hr : s.boot.inReset = false) (d : Time) (t : State)
    (ht : t = (((s.modClk fun c => { c with stat := setBit c.stat 6 }).raise 182).elapse d).forPorts thaw) :
    bit t.clk.stat 6 = true ∧ t.ev.pend.getLsbD 182 = true ∧ t.time = (s.elapse d).time ∧ t.lanes = s.lanes ∧
      ∀ p : PortIx, s.ports[p].frozen = true → t.ports[p].frozen = false ∧ t.ports[p].frameStart = some t.time.mono ∧
        fld t.ports[p].stat 16 16 = (fld s.ports[p].stat 16 16 + 1) % 65536 := by
  have h1 : Only [.clk] s ((s.modClk fun c => { c with stat := setBit c.stat 6 }).raise 182) := (modClk_only ..).trans (raise_only ..)
  obtain ⟨hs1, hp1⟩ := raise_after (s := s.modClk fun c => { c with stat := setBit c.stat 6 }) hr 182
  generalize (s.modClk fun c => { c with stat := setBit c.stat 6 }).raise 182 = u at h1 hs1 hp1 ht
  obtain ⟨h2, h3⟩ := thaws_effect (u.elapse d)
  rw [← ht] at h2 h3
  have hck : t.clk = u.clk := h2.clk.trans rfl
  have hut : u.time = s.time := h1.time
  have htm : t.time = (s.elapse d).time := h2.time.trans (elapse_time_congr hut d)
  refine ⟨?_, h2.pend 182 hp1, htm, h2.lanes.trans h1.lanes, fun p hf => ?_⟩
  · rw [hck, hs1.clk]
    exact bit_setBit_self _ (by omega)
  · have hup : u.ports = s.ports := h1.ports
    have hpp : (u.elapse d).ports[p] = s.ports[p] := by rw [State.elapse_ports, hup]
    have := h3 p (by rw [hpp]; exact hf)
    rw [hpp] at this
    obtain ⟨k1, k2, k3⟩ := this
    refine ⟨k1, k2.trans ?_, k3⟩
    have : t.time = (u.elapse d).time := h2.time
    rw [this]

theorem probeLockRegained_eq {s : State} (h : bit s.clk.stat 6 = false) : probeLockRegained s =
    (((s.modClk fun c => { c with stat := setBit c.stat 6 }).raise 182).elapse (10 * us)).forPorts thaw := by
  unfold probeLockRegained
  rw [h]
  rfl

end Sys2Proof.Proofs

/-! SUPPORT. The rows of the loops, one by one (R195 to R201). -/

namespace Sys2Proof.Proofs
open Sys2Proof Sys2Proof.Machine Sys2Proof.Claims

/-! ### The sampling loop -/

/-- A port as sampling lock is lost. -/
def lockLost (now : Time) (q : Port) : Port :=
  { q with lockResume := q.frameStart.isSome, spans := openSpan now { tag := 3, pos := none, since := now, till := none } q.spans }

theorem sameWork_clkPorts {s t : State} {c : Clocks} {ps : Vector Port 24} (h : SameWork { s with clk := c, ports := ps } t) :
    SameWork { s with clk := t.clk, ports := t.ports } t := by
  have hc : t.clk = c := h.clk
  have hp : t.ports = ps := h.ports
  rw [hc, hp]
  exact h

/-- A fold over the ports that changes each port alone. -/
theorem forPorts_ports {g : PortIx → State → State} {h : PortIx → Port → Port} {s : State}
    (hg : ∀ p u, u = { s with ports := u.ports } → g p u = u.modPort p (h p)) :
    s.forPorts g = { s with ports := (s.forPorts g).ports } ∧ ∀ p : PortIx, (s.forPorts g).ports[p] = h p s.ports[p] := by
  have key : ∀ p : PortIx, s.forPorts g = { s with ports := (s.forPorts g).ports } ∧ (s.forPorts g).ports[p] = h p s.ports[p] := fun p => by
    refine forPorts_at_of (I := fun u => u = { s with ports := u.ports }) (fun p u hu => ?_) (fun p u q hu => ?_) (s := s) rfl p
    · rw [hg p u hu]
      exact congrArg (fun v : State => { v with ports := u.ports.set p (h p u.ports[p]) }) hu
    · rw [hg p u hu, modPort_at]
  exact ⟨(key 0).1, fun p => (key p).2⟩

/-- A change of the clock registers, one of each port, and an event. -/
theorem clkPorts_raise {s : State} (hr : s.boot.inReset = false) {c : Clocks} {g : PortIx → State → State} {h : PortIx → Port → Port}
    (hg : ∀ p u, u = { ({ s with clk := c } : State) with ports := u.ports } → g p u = u.modPort p (h p)) (n : EvIx) (t : State)
    (ht : t = (({ s with clk := c } : State).forPorts g).raise n) :
    SameWork { s with clk := t.clk, ports := t.ports } t ∧ t.clk = c ∧ t.ev.pend.getLsbD n.val = true ∧
      ∀ p : PortIx, t.ports[p] = h p s.ports[p] := by
  obtain ⟨h1, h2⟩ := forPorts_ports hg
  generalize ({ s with clk := c } : State).forPorts g = u at h1 h2 ht
  have hb : u.boot.inReset = false := by rw [h1]; exact hr
  obtain ⟨r1, r2⟩ := raise_after hb n
  rw [← ht] at r1 r2
  have h3 : SameWork ({ s with clk := c, ports := u.ports } : State) t := by
    rw [h1] at r1
    exact r1
  exact ⟨sameWork_clkPorts h3, h3.clk, r2, fun p => by rw [r1.ports]; exact h2 p⟩

theorem loseSampling_effect {s : State} (hr : s.boot.inReset = false) : SameWork { s with clk := s.loseSampling.clk, ports := s.loseSampling.ports } s.loseSampling ∧
    s.loseSampling.clk = { s.clk with stat := setBit (clrBit s.clk.stat 5) 10 } ∧ s.loseSampling.ev.pend.getLsbD 181 = true ∧
    ∀ p : PortIx, s.loseSampling.ports[p] = lockLost s.time.mono s.ports[p] :=
  clkPorts_raise hr (g := fun p u => u.modPort p (lockLost s.time.mono)) (h := fun _ => lockLost s.time.mono) (fun _ _ _ => rfl) 181 _ rfl

theorem mem_openSpan (now : Time) (x : TagSpan) (xs : List TagSpan) : x ∈ openSpan now x xs := List.mem_append_right _ (List.mem_singleton_self _)

theorem closeSpans_closed {now : Time} {k : Nat} {xs : List TagSpan} {x : TagSpan} (h : x ∈ closeSpans now k xs) (hk : x.tag = k) : x.till ≠ none := by
  obtain ⟨y, -, rfl⟩ := List.mem_map.1 h
  by_cases hy : (y.tag == k && y.till.isNone) = true
  · rw [if_pos hy]
    simp
  · rw [if_neg hy] at hk ⊢
    simp only [hk, beq_self_eq_true, Bool.true_and] at hy
    intro hn
    rw [hn] at hy
    exact hy rfl

/-- The sampling loop's retune given up (R196). -/
def retuneLost (s : State) : State :=
  (s.modClk fun c => { c with ramp := .none, stat := clrBit c.stat 4, fsWaiting := false, spans := closeSpans s.time.mono 3 c.spans }).loseSampling

theorem fsRetuneTimeout_eq {s : State} {b : Bool} (h : s.clk.ramp = .fs b) : fsRetuneTimeout s = retuneLost (s.until (s.clk.rampAt + 23 * us)) := by
  unfold fsRetuneTimeout
  rw [h]
  rfl

theorem retuneLost_effect {s : State} (hr : s.boot.inReset = false) : (retuneLost s).clk.ramp = .none ∧ bit (retuneLost s).clk.stat 4 = false ∧
    bit (retuneLost s).clk.stat 5 = false ∧ bit (retuneLost s).clk.stat 10 = true ∧ (retuneLost s).time = s.time ∧
    (retuneLost s).ev.pend.getLsbD 181 = true ∧ ∀ p : PortIx, (retuneLost s).ports[p].lockResume = s.ports[p].frameStart.isSome := by
  obtain ⟨h1, h2, h3, h4⟩ := loseSampling_effect (s := s.modClk fun c => { c with
    ramp := .none, stat := clrBit c.stat 4, fsWaiting := false, spans := closeSpans s.time.mono 3 c.spans }) hr
  unfold retuneLost
  rw [h2]
  refine ⟨rfl, (bit_setBit_ne _ (by omega)).trans ((bit_clrBit_ne _ (by omega)).trans (bit_clrBit_self _ _)),
    (bit_setBit_ne _ (by omega)).trans (bit_clrBit_self _ _), bit_setBit_self _ (by omega), h1.time, h3, fun p => ?_⟩
  rw [h4 p]
  rfl

/-- The clock registers once the retuned loop has locked. -/
def retuneOver (now : Time) (c : Clocks) : Clocks := { c with ramp := .none, stat := clrBit c.stat 4, spans := closeSpans now 3 c.spans }

/-- A retune that has locked, its ramp over (R196). -/
def retuned (u : State) : State := (u.modClk (retuneOver u.time.mono)).serveRetune

theorem samplingLoopRetuneLock_eq {s : State} {b : Bool} (h : s.clk.ramp = .fs b) : samplingLoopRetuneLock s =
    if s.clk.rampAt + 23 * us < s.time.mono then fsRetuneTimeout s else retuned ((s.until (s.clk.rampAt + 3 * us)).elapse (2 * us)) := by
  unfold samplingLoopRetuneLock
  rw [h]
  rfl

theorem retuned_effect (u : State) : retuned u = u.modClk (fun _ => (retuned u).clk) ∧
    (u.clk.fsWaiting = false → (retuned u).clk = { u.clk with ramp := .none, stat := clrBit u.clk.stat 4, spans := (retuned u).clk.spans } ∧
      ∀ x ∈ (retuned u).clk.spans, x.tag = 3 → x.till ≠ none) ∧
    (u.clk.fsWaiting = true → (retuned u).clk.ramp = .fs false ∧ (retuned u).clk.rampAt = u.time.mono ∧ (retuned u).clk.fsWaiting = false ∧
      bit (retuned u).clk.stat 4 = true) := by
  have he : retuned u = u.modClk fun c => served u.time.mono (retuneOver u.time.mono c) := serveRetune_eq (s := u.modClk (retuneOver u.time.mono)) rfl
  rw [he, State.modClk_clk]
  refine ⟨rfl, fun h => ?_, fun h => ?_⟩
  · rw [served_none (c := retuneOver u.time.mono u.clk) h]
    exact ⟨rfl, fun x hx hk => closeSpans_closed hx hk⟩
  · obtain ⟨h1, h2, h3, h4, -⟩ := served_waiting (c := retuneOver u.time.mono u.clk) h u.time.mono
    exact ⟨h1, h4, h3, h2⟩

/-! ### Probe lock lost -/

theorem modPort_modPort (s : State) (p : PortIx) (f g : Port → Port) : (s.modPort p f).modPort p g = s.modPort p fun q => g (f q) := by
  unfold State.modPort
  simp

theorem probeLockLost_effect {s : State} (h : bit s.clk.stat 6 = true) (hr : s.boot.inReset = false) :
    SameWork { s with clk := (probeLockLost s).clk, ports := (probeLockLost s).ports } (probeLockLost s) ∧
    (probeLockLost s).clk = { s.clk with stat := setBit (clrBit s.clk.stat 6) 11 } ∧ (probeLockLost s).ev.pend.getLsbD 182 = true ∧
    ∀ p : PortIx, (probeLockLost s).ports[p] = { gateShut s.time.mono s.ports[p] with frozen := s.ports[p].frameStart.isSome } := by
  refine clkPorts_raise hr (g := fun p u => (closeGate p u).modPort p fun q => { q with frozen := q.frameStart.isSome })
    (h := fun _ q => { gateShut s.time.mono q with frozen := q.frameStart.isSome }) (fun p u hu => ?_) 182 _ (if_pos h)
  have ht : u.time = s.time := (congrArg State.time hu).trans rfl
  rw [closeGate_eq, ht]
  exact modPort_modPort u p _ _

/-! ### The Ethernet loop takes three links down -/

theorem endDrain_only (s : State) (z : Nat) : Only [.zones] s (s.endDrain z) := by
  unfold State.endDrain
  split
  · split
    · exact (endRun_only ..).trans (zones_only ..)
    · exact .refl ..
  · exact .refl ..

theorem flushDrained_only (s : State) : Only [.zones] s s.flushDrained :=
  (flushEth_only s).trans (.foldl (fun u (r : ZoneRt) => endDrain_only u r.id) _ _)

theorem modEth_self (s : State) (n : Fin 2) (f : Eth → Eth) : (s.modEth n f).links.eth[n] = f s.links.eth[n] := Vector.getElem_set_self ..

theorem modEth_other (s : State) (n : Fin 2) (f : Eth → Eth) : (s.modEth n f).links.eth[1 - n] = s.links.eth[1 - n] := by
  have hn : n ≠ 1 - n := by revert n; decide
  exact Vector.getElem_set_ne n.isLt (1 - n).isLt fun hx => hn (Fin.ext hx)

theorem modEth_only (s : State) (n : Fin 2) (f : Eth → Eth) : Only [.links] s (s.modEth n f) := modLinks_only ..
theorem modEthG_only (s : State) (n : Fin 2) (f : Eth → Eth) : Only [.links] s (s.modEthG n f) := modEth_only ..

/-- A port's registers as UP changes. -/
def turned (up : Bool) (now : Time) (e : Eth) : Eth :=
  ({ e with stat := putBit e.stat 0 up, downSince := if up then e.downSince else now } : Eth).regood now

/-- A port as UP changes. -/
def portTurned (n : Fin 2) (up : Bool) (s : State) : State :=
  let s1 := s.modEth n (turned up s.time.mono)
  if up then s1.modLinks fun l => l.release (.eth n) else s1

theorem ethPortUpChange_eq (n : Fin 2) (up : Bool) (s : State) :
    ethPortUpChange n up s = if bit s.links.eth[n].stat 0 = up then s else ((portTurned n up s).raiseN (235 + n.val)).flushDrained := rfl

theorem portTurned_effect (n : Fin 2) (up : Bool) (s : State) : Only [.links] s (portTurned n up s) ∧
    (portTurned n up s).links.eth[n] = turned up s.time.mono s.links.eth[n] ∧ (portTurned n up s).links.eth[1 - n] = s.links.eth[1 - n] := by
  unfold portTurned
  dsimp only
  cases up
  · exact ⟨modEth_only .., modEth_self .., modEth_other ..⟩
  · rw [if_pos rfl]
    exact ⟨(modEth_only ..).trans (modLinks_only ..), modEth_self s n _, modEth_other s n _⟩

theorem turned_bit (up : Bool) (now : Time) (e : Eth) : bit (turned up now e).stat 0 = up := bit_putBit_self _ _ (by omega)

theorem ethPortDown_effect (n : Fin 2) (s : State) : Only [.links, .zones] s (ethPortUpChange n false s) ∧
    bit (ethPortUpChange n false s).links.eth[n].stat 0 = false ∧ (ethPortUpChange n false s).links.eth[1 - n] = s.links.eth[1 - n] := by
  rw [ethPortUpChange_eq]
  by_cases h : bit s.links.eth[n].stat 0 = false
  · rw [if_pos h]
    exact ⟨.refl .., h, rfl⟩
  · rw [if_neg h]
    obtain ⟨h0, hn, ho⟩ := portTurned_effect n false s
    generalize portTurned n false s = u at h0 hn ho
    have h1 : Only [.zones] u ((u.raiseN (235 + n.val)).flushDrained) := (raiseN_only ..).trans (flushDrained_only _)
    refine ⟨(h0.mono (by decide)).trans (h1.mono (by decide)), ?_, ?_⟩
    · rw [h1.eth, hn]
      exact turned_bit ..
    · rw [h1.eth, ho]

theorem unfollow_only (s : State) : Only [.time] s s.unfollow := by
  unfold State.unfollow
  split
  · exact (time_only s _).trans (raise_only _ 194)
  · exact time_only s _

/-- The timing port as its link goes down. -/
def timingDown (s : State) : State := ((s.modLinks fun l => { l with tportUp := false }).raise 193).unfollow

theorem timingPortDown_eq (s : State) : timingPortLinkChange false s = if s.links.tportUp = false then s else timingDown s := by
  unfold timingPortLinkChange
  rfl

theorem timingPortDown_effect (s : State) : Only [.links, .time] s (timingPortLinkChange false s) ∧ (timingPortLinkChange false s).links.tportUp = false ∧
    (timingPortLinkChange false s).links.eth = s.links.eth := by
  rw [timingPortDown_eq]
  by_cases h : s.links.tportUp = false
  · rw [if_pos h]
    exact ⟨.refl .., h, rfl⟩
  · rw [if_neg h]
    have h0 : Only [.links] s (s.modLinks fun l => { l with tportUp := false }) := modLinks_only ..
    have h1 : Only [.time] (s.modLinks fun l => { l with tportUp := false }) (timingDown s) := (raise_only _ 193).trans (unfollow_only _)
    refine ⟨(h0.mono (by decide)).trans (h1.mono (by decide)), ?_, h1.eth⟩
    rw [h1.links]
    rfl

theorem startMove_only (s : State) : Only [.clk, .axc1, .sdc] s s.startMove := by
  rw [startMove_eq]
  split
  · exact .refl ..
  · exact ⟨fun p hp => by cases p <;> first | rfl | exact SameSess.of_eq rfl | simp at hp, fun _ h => h, fun _ h => h, fun _ _ _ h => h⟩

theorem startMove_bit (s : State) {i : Nat} (h4 : i ≠ 4) (h15 : i ≠ 15) : bit s.startMove.clk.stat i = bit s.clk.stat i := by
  rw [startMove_eq]
  split
  · rfl
  · exact (movedClk_bits _ _ _).2.2.1 i h4 h15

theorem recoveredLost_effect (s : State) : Only [.clk, .axc1, .sdc] s (ckRefSourceLost .recovered s) ∧
    bit (ckRefSourceLost .recovered s).clk.stat 2 = false ∧
    ∀ i, i ≠ 2 → i ≠ 4 → i ≠ 15 → bit (ckRefSourceLost .recovered s).clk.stat i = bit s.clk.stat i := by
  unfold ckRefSourceLost
  by_cases hq : bit s.clk.stat 2 = true
  · rw [if_neg (by simp [Clocks.qualified, hq])]
    have h1 : Only [.clk] s (s.modClk fun c => c.markSource .recovered false) := modClk_only ..
    have h2 : Only [.clk, .axc1, .sdc] (s.modClk fun c => c.markSource .recovered false)
        ((s.modClk fun c => c.markSource .recovered false).sourceEvent .recovered) := raise_only _ 179
    have hc : ((s.modClk fun c => c.markSource .recovered false).sourceEvent .recovered).clk = s.clk.markSource .recovered false :=
      (raise_same (s.modClk fun c => c.markSource .recovered false) 179).clk
    refine ⟨((h1.mono (by decide)).trans h2).trans (startMove_only _), ?_, fun i h0 h4 h15 => ?_⟩
    · rw [startMove_bit _ (by omega) (by omega), hc]
      exact bit_putBit_self _ _ (by omega)
    · rw [startMove_bit _ h4 h15, hc]
      exact bit_putBit_ne _ _ h0
  · rw [if_pos (.inr (by simp [Clocks.qualified, eq_false_of_ne_true hq]))]
    exact ⟨.refl .., eq_false_of_ne_true hq, fun _ _ _ _ => rfl⟩

/-- The links that the Ethernet loop carries go down, and RECOVERED with them (R201). -/
def linksDown (s : State) : State := ckRefSourceLost .recovered (timingPortLinkChange false (ethPortUpChange 1 false (ethPortUpChange 0 false s)))

theorem linksDown_effect (s : State) : Only [.links, .zones, .time, .clk, .axc1, .sdc] s (linksDown s) ∧ (linksDown s).links.tportUp = false ∧
    bit (linksDown s).clk.stat 2 = false ∧ (∀ i, i ≠ 2 → i ≠ 4 → i ≠ 15 → bit (linksDown s).clk.stat i = bit s.clk.stat i) ∧
    bit (linksDown s).links.eth[(0 : Fin 2)].stat 0 = false ∧ bit (linksDown s).links.eth[(1 : Fin 2)].stat 0 = false := by
  unfold linksDown
  obtain ⟨a1, a2, -⟩ := ethPortDown_effect 0 s
  generalize ethPortUpChange 0 false s = u at a1 a2
  obtain ⟨b1, b2, b3⟩ := ethPortDown_effect 1 u
  generalize ethPortUpChange 1 false u = v at b1 b2 b3
  obtain ⟨c1, c2, c3⟩ := timingPortDown_effect v
  generalize timingPortLinkChange false v = w at c1 c2 c3
  obtain ⟨d1, d2, d3⟩ := recoveredLost_effect w
  have hw : w.clk = s.clk := c1.clk.trans (b1.clk.trans a1.clk)
  refine ⟨(((a1.mono (by decide)).trans (b1.mono (by decide))).trans (c1.mono (by decide))).trans (d1.mono (by decide)), ?_, d2,
    fun i h2 h4 h15 => by rw [d3 i h2 h4 h15, hw], ?_, ?_⟩
  · rw [d1.links]
    exact c2
  · rw [d1.eth, c3, show v.links.eth[(0 : Fin 2)] = u.links.eth[(0 : Fin 2)] from b3]
    exact a2
  · rw [d1.eth, c3]
    exact b2

/-! ### The auxiliary loop -/

theorem auxLost_effect {s : State} (hr : s.boot.inReset = false) : AllShut s.auxLost ∧ s.auxLost.sdc.causeAux = true ∧ s.auxLost.clk = s.clk ∧
    s.auxLost.axc1 = s.axc1 ∧ ∀ n : EvIx, s.ev.pend.getLsbD n.val = true → s.auxLost.ev.pend.getLsbD n.val = true := by
  have hg := shutGroups_effect allGroups (s.modSdc fun c => { c with causeAux := true })
  unfold State.auxLost
  generalize (s.modSdc fun c => { c with causeAux := true }).shutGroups allGroups = u at hg
  have hb : (u.latShutdown 0).boot.inReset = false := by
    rw [latShutdown_eq, hg.frame]
    exact hr
  have htm : u.time = s.time := (congrArg State.time hg.frame).trans rfl
  have hsd : u.sdc = { s.sdc with causeAux := true } := (congrArg State.sdc hg.frame).trans rfl
  obtain ⟨hs, -, -⟩ := raise_both hb 204 201
  have ho : Only [] (u.latShutdown 0) (((u.latShutdown 0).raise 204).raise 201) := (raise_only ..).trans (raise_only ..)
  dsimp only
  generalize ((u.latShutdown 0).raise 204).raise 201 = t at hs ho
  have hf := hg.frame
  refine ⟨allShut_of (wait := 0) (c := u.sdc) hg hs.shut hs.emOn (hs.sdc.trans (by rw [latShutdown_eq, htm]; rfl)), ?_, ?_, ?_, fun n hn => ho.pend n ?_⟩
  · rw [hs.sdc, latShutdown_eq, hsd]
    rfl
  · rw [hs.clk, latShutdown_eq, hf]
    rfl
  · rw [hs.axc1, latShutdown_eq, hf]
    rfl
  · rw [latShutdown_eq, hf]
    exact hn

theorem loopBit_eq (l : Loop) : loopBit l = lockBit l := by cases l <;> rfl

/-! ### Another loop regained -/

/-- What the regain of a loop ends, after EV183. -/
def regainEnds (l : Loop) (s : State) : State :=
  match l with
  | .auxiliary => (s.modSdc fun c => { c with causeAux := false }).causeCleared
  | .memory => (s.modLinks fun l => l.release .memory).modLadle fun l => { l with memFault := false }
  | _ => s

theorem regainEnds_effect (l : Loop) (s : State) : Only [.sdc, .ladle, .links] s (regainEnds l s) ∧
    (regainEnds l s).ev = s.ev ∧ (l = .auxiliary → (regainEnds l s).sdc.causeAux = false) ∧ (l ≠ .auxiliary → (regainEnds l s).sdc = s.sdc) ∧
    (l ≠ .memory → (regainEnds l s).ladle = s.ladle) ∧
    (l = .memory → (regainEnds l s).ladle = { s.ladle with memFault := false } ∧ CrossId.memory ∉ (regainEnds l s).links.resetFlags) := by
  cases l
  · have h1 : Only [.sdc, .ladle, .links] s (s.modLinks fun l => l.release .memory) := (modLinks_only ..).mono (by decide)
    have h2 : Only [.ladle] (s.modLinks fun l => l.release .memory) ((s.modLinks fun l => l.release .memory).modLadle fun l => { l with memFault := false }) :=
      modLadle_only ..
    refine ⟨h1.trans (h2.mono (by decide)), rfl, nofun, fun _ => rfl, fun h => absurd rfl h, fun _ => ⟨rfl, ?_⟩⟩
    show CrossId.memory ∉ (s.links.resetFlags.filter fun x => x != .memory)
    simp
  · exact ⟨.refl .., rfl, nofun, fun _ => rfl, fun _ => rfl, nofun⟩
  · have he : regainEnds .auxiliary s = s.modSdc fun _ => _ := causeCleared_only (s.modSdc fun c => { c with causeAux := false })
    rw [he]
    exact ⟨(modSdc_only ..).mono (by decide), rfl, fun _ => rfl, fun h => absurd rfl h, fun _ => rfl, nofun⟩

theorem memoryTimeout_effect {s : State} (hr : s.boot.inReset = false) (x : Time) (t : State)
    (ht : t = ((s.until x).modLadle fun l => { l with memFault := true }).raise 183) :
    SameWork ((s.until x).modLadle fun l => { l with memFault := true }) t ∧ t.ev.pend.getLsbD 183 = true := by
  rw [ht]
  exact raise_after (s := (s.until x).modLadle fun l => { l with memFault := true }) hr 183

theorem otherLoopLockRegained_eq {s : State} {l : Loop} (h : bit s.clk.stat (lockBit l) = false) : exec (.otherLoopLockRegained l) s =
    .next (regainEnds l ((s.modClk fun c => { c with stat := setBit c.stat (lockBit l) }).raise 183)) := by
  refine congrArg Host.Outcome.next ((if_neg (by rw [loopBit_eq, h]; decide)).trans ?_)
  rw [loopBit_eq]
  cases l <;> rfl

/-- What the loss of a loop does after EV183. -/
def lossDoes (l : Loop) (now : Time) (s : State) : State :=
  match l with
  | .memory => s.modClk fun c => { c with memLostAt := now }
  | .ethernet => linksDown s
  | .auxiliary => (s.modAxc1 fun a => { a with invalid := a.invalid || a.running.isSome }).auxLost

/-- OTHER_LOST and EV183, with the lock bit `n` clear. -/
def lossSeen (n : Nat) (s : State) : State := (s.modClk fun c => { c with stat := setBit (clrBit c.stat n) 12 }).raise 183

theorem lossSeen_effect {s : State} (hr : s.boot.inReset = false) (n : Nat) :
    SameWork { s with clk := { s.clk with stat := setBit (clrBit s.clk.stat n) 12 } } (lossSeen n s) ∧ (lossSeen n s).ev.pend.getLsbD 183 = true :=
  raise_after (s := s.modClk fun c => { c with stat := setBit (clrBit c.stat n) 12 }) hr 183

theorem otherLoopLockLost_eq {s : State} {l : Loop} (h : bit s.clk.stat (lockBit l) = true) : exec (.otherLoopLockLost l) s =
    .next (lossDoes l s.time.mono (lossSeen (lockBit l) s)) := by
  refine congrArg Host.Outcome.next ((if_neg (by rw [loopBit_eq, h]; decide)).trans ?_)
  rw [loopBit_eq]
  cases l <;> rfl

theorem fsTimeout_effect {s : State} (hr : s.boot.inReset = false) (x : Time) (t : State) (ht : t = retuneLost (s.until x)) :
    t.clk.ramp = .none ∧ bit t.clk.stat 4 = false ∧ bit t.clk.stat 5 = false ∧ bit t.clk.stat 10 = true ∧ t.time = (s.until x).time ∧
      t.ev.pend.getLsbD 181 = true ∧ ∀ p : PortIx, t.ports[p].lockResume = s.ports[p].frameStart.isSome := by
  rw [ht]
  exact retuneLost_effect (s := s.until x) hr

/-- Settles O44, loop by loop. -/
theorem loopLocksAreLostAndRegained : Obligations.LoopLocksAreLostAndRegained := by
  unfold Obligations.LoopLocksAreLostAndRegained
  intro s hr
  refine ⟨fun h => ⟨congrArg _ (if_pos h), ?_⟩, fun h => ⟨congrArg _ (if_neg (by rw [h]; decide)), ?_⟩, fun h => ⟨congrArg _ (if_pos h), ?_⟩,
    fun h => ⟨congrArg _ (if_neg (by rw [h]; decide)), ?_⟩, fun h => ?_, fun b h => ?_, fun l => ⟨fun h => ?_, fun h => ?_⟩, fun h => ⟨congrArg _ (if_pos h), ?_⟩,
    fun h => ?_, fun h => ?_, fun l h => ?_, fun h => ?_⟩
  · obtain ⟨h1, h2, h3, h4⟩ := loseSampling_effect hr
    have hx : exec .samplingLockLost s = .next s.loseSampling := congrArg _ (if_pos h)
    refine ⟨_, hx, h1, h2, h3, fun p => ?_⟩
    rw [h4 p]
    exact ⟨rfl, mem_openSpan ..⟩
  · have hx : exec .samplingLockRegained s = .next ((s.modClk fun c => { c with stat := setBit c.stat 5 }).raise 181) :=
      congrArg _ (if_neg (by rw [h]; decide))
    obtain ⟨h1, h2⟩ := raise_after (s := s.modClk fun c => { c with stat := setBit c.stat 5 }) hr 181
    refine ⟨_, hx, ?_, h1.clk, h2⟩
    unfold ClkOnly
    rw [h1.clk]
    exact h1
  · obtain ⟨h1, h2, h3, h4⟩ := probeLockLost_effect h hr
    refine ⟨_, rfl, h1, h2, h3, fun p => ?_⟩
    rw [h4 p]
    rfl
  · have hx : exec .probeLockRegained s = .next _ := congrArg Host.Outcome.next (probeLockRegained_eq h)
    exact ⟨_, hx, probeLockRegained_effect hr (10 * us) _ rfl⟩
  · refine ⟨congrArg Host.Outcome.next ?_, congrArg Host.Outcome.next ?_⟩
    · unfold fsRetuneTimeout
      split
      · exact absurd ‹_› (h _)
      · rfl
    · unfold samplingLoopRetuneLock
      split
      · exact absurd ‹_› (h _)
      · rfl
  · refine ⟨?_, fun hl => ?_, fun u hl hu => ?_⟩
    · have hx : exec .fsRetuneTimeout s = .next _ := congrArg Host.Outcome.next (fsRetuneTimeout_eq h)
      exact ⟨_, hx, fsTimeout_effect hr _ _ rfl⟩
    · exact congrArg Host.Outcome.next ((samplingLoopRetuneLock_eq h).trans (if_pos hl))
    · have hx : exec .samplingLoopRetuneLock s = .next (retuned u) := by
        rw [hu]
        exact congrArg Host.Outcome.next ((samplingLoopRetuneLock_eq h).trans (if_neg (Nat.not_lt.2 hl)))
      have hck : u.clk = s.clk := by rw [hu, State.elapse_clk, State.until_clk]
      obtain ⟨h1, h2, h3⟩ := retuned_effect u
      rw [hck] at h2 h3
      exact ⟨_, hx, h1, h2, h3⟩
  · exact congrArg Host.Outcome.next (if_pos (by rw [loopBit_eq, h]; rfl))
  · exact congrArg Host.Outcome.next (if_pos (by rw [loopBit_eq, h]))
  · obtain ⟨h1, h2⟩ := lossSeen_effect hr 7
    have hx : exec (.otherLoopLockLost .memory) s = .next (lossDoes .memory s.time.mono (lossSeen 7 s)) := otherLoopLockLost_eq (l := .memory) h
    generalize lossSeen 7 s = u at h1 h2 hx
    have hc : (lossDoes .memory s.time.mono u).clk = { s.clk with stat := setBit (clrBit s.clk.stat 7) 12, memLostAt := s.time.mono } := by
      show { u.clk with memLostAt := s.time.mono } = _
      rw [h1.clk]
    refine ⟨_, hx, ?_, hc, h2⟩
    unfold ClkOnly
    rw [hc]
    obtain ⟨⟩ := h1
    constructor
    all_goals first | exact hc | assumption
  · obtain ⟨h1, h2⟩ := lossSeen_effect hr 8
    have hx : exec (.otherLoopLockLost .ethernet) s = .next (linksDown (lossSeen 8 s)) := otherLoopLockLost_eq (l := .ethernet) h
    generalize lossSeen 8 s = u at h1 h2 hx
    obtain ⟨e1, e2, e3, e4, e5, e6⟩ := linksDown_effect u
    refine ⟨_, hx, ?_, ?_, e1.pend 183 h2, e2, e3, e5, e6, e1.settings.trans h1.settings, e1.shut.trans h1.shut⟩
    · rw [e4 8 (by omega) (by omega) (by omega), h1.clk]
      exact (bit_setBit_ne _ (by omega)).trans (bit_clrBit_self _ _)
    · rw [e4 12 (by omega) (by omega) (by omega), h1.clk]
      exact bit_setBit_self _ (by omega)
  · obtain ⟨h1, h2⟩ := lossSeen_effect hr 9
    have hx : exec (.otherLoopLockLost .auxiliary) s = .next (lossDoes .auxiliary s.time.mono (lossSeen 9 s)) :=
      otherLoopLockLost_eq (l := .auxiliary) h
    generalize lossSeen 9 s = u at h1 h2 hx
    refine ⟨_, hx, ?_⟩
    have hl : lossDoes .auxiliary s.time.mono u = (u.modAxc1 fun a => { a with invalid := a.invalid || a.running.isSome }).auxLost := rfl
    obtain ⟨e1, e2, e3, e4, e5⟩ := auxLost_effect (s := u.modAxc1 fun a => { a with invalid := a.invalid || a.running.isSome })
      ((congrArg (·.inReset) h1.boot).trans hr)
    rw [State.modAxc1_clk] at e3
    rw [State.modAxc1_axc1] at e4
    rw [hl]
    refine ⟨?_, ?_, e5 183 h2, e1, e2, fun hi => ?_⟩
    · rw [e3, h1.clk]
      exact (bit_setBit_ne _ (by omega)).trans (bit_clrBit_self _ _)
    · rw [e3, h1.clk]
      exact bit_setBit_self _ (by omega)
    · rw [e4, h1.axc1]
      show (s.axc1.invalid || s.axc1.running.isSome) = true
      rw [hi, Bool.or_true]
  · have h1 : Only [.clk] s ((s.modClk fun c => { c with stat := setBit c.stat (lockBit l) }).raise 183) := (modClk_only ..).trans (raise_only ..)
    have h2 := (raise_after (s := s.modClk fun c => { c with stat := setBit c.stat (lockBit l) }) hr 183).2
    have hc : ((s.modClk fun c => { c with stat := setBit c.stat (lockBit l) }).raise 183).clk = { s.clk with stat := setBit s.clk.stat (lockBit l) } :=
      (raise_same _ _).clk
    have hx := otherLoopLockRegained_eq h
    generalize (s.modClk fun c => { c with stat := setBit c.stat (lockBit l) }).raise 183 = u at h1 h2 hx hc
    refine ⟨_, hx, ?_⟩
    obtain ⟨e1, e2, e3, e4, e5, e6⟩ := regainEnds_effect l u
    have ho : Only [.clk, .sdc, .ladle, .links] s (regainEnds l u) := (h1.mono (by decide)).trans (e1.mono (by decide))
    exact ⟨ho.sameWork, e1.clk.trans hc, by rw [e2]; exact h2, e3, fun hl => (e4 hl).trans h1.sdc, fun hl => (e5 hl).trans h1.ladle,
      fun hl => ⟨(e6 hl).1.trans (by rw [h1.ladle]), (e6 hl).2⟩⟩
  · have hx : exec .memoryLockTimeout s = .next _ := congrArg Host.Outcome.next (if_neg (by rw [h]; decide))
    exact ⟨_, hx, memoryTimeout_effect hr _ _ rfl⟩

end Sys2Proof.Proofs

/-! SUPPORT. The Source Drive Chain (R51 to R54, R66, R571): its control register, its frames and its discoveries. -/

namespace Sys2Proof.Proofs
open Sys2Proof Sys2Proof.Machine Sys2Proof.Claims

/-! ### Register fields -/

theorem bit_wrRW (mask : Nat) (old v : Word) (i : Nat) :
    bit (wrRW mask old v) i = if bit (BitVec.ofNat 32 mask) i && decide (i < 32) then bit v i else bit old i := by
  unfold wrRW bit
  rw [BitVec.getLsbD_or, BitVec.getLsbD_and, BitVec.getLsbD_and, BitVec.getLsbD_not]
  by_cases hi : i < 32
  · cases (BitVec.ofNat 32 mask).getLsbD i <;> simp [hi]
  · rw [BitVec.getLsbD_of_ge old i (by omega), BitVec.getLsbD_of_ge v i (by omega)]
    simp

theorem wrChecked_fld (ok : Nat → Bool) {lo len : Nat} (h : lo + len ≤ 32) (acc : Word × Bool) (v : Word) :
    fld (wrChecked ok lo len acc v).1 lo len = (if ok (fld v lo len) then fld v lo len else fld acc.1 lo len) ∧
      (∀ a n, a + n ≤ lo ∨ lo + len ≤ a → fld (wrChecked ok lo len acc v).1 a n = fld acc.1 a n) ∧
      (wrChecked ok lo len acc v).2 = (acc.2 || !(ok (fld v lo len))) := by
  unfold wrChecked
  dsimp only
  cases hk : ok (fld v lo len)
  · exact ⟨rfl, fun _ _ _ => rfl, (Bool.or_true _).symm⟩
  · refine ⟨?_, fun a n ha => fld_setFld_apart _ _ h ha, (Bool.or_false _).symm⟩
    rw [if_pos rfl, if_pos rfl, fld_setFld _ _ h]
    exact Nat.mod_eq_of_lt (fld_lt _ _ _)

theorem wrRWD_ign (ok : Nat → Bool) (lo len : Nat) (acc : Word × Bool) (v : Word) :
    (wrRWD false ok lo len acc v).2 = (acc.2 || (decide (fld v lo len ≠ fld acc.1 lo len) && !(ok (fld v lo len)))) := by
  unfold wrRWD
  dsimp only
  by_cases h : fld v lo len = fld acc.1 lo len
  · simp [h]
  · rw [if_neg h]
    cases hk : ok (fld v lo len) <;> simp [h]

/-- Bits outside a field that a checked write leaves alone. -/
theorem fld_wrRW_apart (mask : Nat) (old v : Word) {a n : Nat} (h : ∀ i, a ≤ i → i < a + n → bit (BitVec.ofNat 32 mask) i = false) :
    fld (wrRW mask old v) a n = fld old a n :=
  fld_congr fun i h1 h2 => by rw [bit_wrRW, h i h1 h2]; rfl

/-! ### SDC_CTL -/

/-- SDC_CTL and CFG_IGN after a write (R66). -/
def sdcCtl (old v : Word) : Word × Bool :=
  let b := wrChecked (fun x => x ≠ 0) 4 12 (wrRWD (bit old 0) (fun x => x ≠ 3) 1 2 (old, false) v) v
  (wrRW 0x9 b.1 v, b.2)

/-- The chain's registers after a write of SDC_CTL. -/
def ctlWritten (v : Word) (c : Sdc) : Sdc := { c with ctl := (sdcCtl c.ctl v).1, stat := if (sdcCtl c.ctl v).2 then setBit c.stat 17 else c.stat }

theorem writeSdcCtl_eq (v : Word) (s : State) : writeSdcCtl v s =
    (let s1 := (s.modSdc (ctlWritten v)).hazardIf (wrDiffers 0x8 s.sdc.ctl v)
     if bit s.sdc.ctl 0 && !(bit (sdcCtl s.sdc.ctl v).1 0) then s1.latShutdown 0
     else if !(bit s.sdc.ctl 0) && bit (sdcCtl s.sdc.ctl v).1 0 then s1.modSdc fun c => { (c.setPhase .waiting) with waitUntil := s.time.mono }
     else s1) := rfl

theorem mask9 : ∀ i, i < 16 → bit (BitVec.ofNat 32 0x9) i = decide (i = 0 ∨ i = 3) := by decide

theorem sdcCtl_bits (old v : Word) : bit (sdcCtl old v).1 0 = bit v 0 ∧ bit (sdcCtl old v).1 3 = bit v 3 := by
  refine ⟨?_, ?_⟩
  · exact (bit_wrRW ..).trans (by rw [mask9 0 (by omega)]; rfl)
  · exact (bit_wrRW ..).trans (by rw [mask9 3 (by omega)]; rfl)

theorem sdcCtl_clksel (old v : Word) : fld (sdcCtl old v).1 1 2 = fld (wrRWD (bit old 0) (fun x => x ≠ 3) 1 2 (old, false) v).1 1 2 := by
  refine (fld_wrRW_apart 0x9 _ v fun i h1 h2 => ?_).trans ((wrChecked_fld _ (by omega) _ v).2.1 1 2 (by omega))
  rw [mask9 i (by omega)]
  exact decide_eq_false (by omega)

theorem sdcCtl_closed {old v : Word} (h : bit old 0 = false) :
    fld (sdcCtl old v).1 1 2 = (if fld v 1 2 = 3 then fld old 1 2 else fld v 1 2) ∧
      fld (sdcCtl old v).1 4 12 = (if fld v 4 12 = 0 then fld old 4 12 else fld v 4 12) ∧
      (fld v 4 12 = 0 ∨ (fld v 1 2 = 3 ∧ fld old 1 2 ≠ 3) → (sdcCtl old v).2 = true) := by
  obtain ⟨w1, w2⟩ := wrRWD_open (fun x => x ≠ 3) (show 1 + 2 ≤ 32 by omega) (old, false) v
  obtain ⟨c1, -, c3⟩ := wrChecked_fld (fun x => x ≠ 0) (show 4 + 12 ≤ 32 by omega) (wrRWD false (fun x => x ≠ 3) 1 2 (old, false) v) v
  refine ⟨?_, ?_, fun hg => ?_⟩
  · rw [sdcCtl_clksel, h, w1]
    by_cases h3 : fld v 1 2 = 3 <;> simp [h3]
  · have hk : fld (sdcCtl old v).1 4 12 = fld (wrChecked (fun x => x ≠ 0) 4 12 (wrRWD (bit old 0) (fun x => x ≠ 3) 1 2 (old, false) v) v).1 4 12 :=
      fld_wrRW_apart 0x9 _ v fun i h1 h2 => by
        rw [mask9 i (by omega)]
        exact decide_eq_false (by omega)
    rw [hk, h, c1, w2 4 12 (by omega)]
    by_cases h0 : fld v 4 12 = 0 <;> simp [h0]
  · show (wrChecked (fun x => x ≠ 0) 4 12 (wrRWD (bit old 0) (fun x => x ≠ 3) 1 2 (old, false) v) v).2 = true
    rw [h, c3, wrRWD_ign]
    rcases hg with h0 | ⟨h3, ho⟩
    · simp [h0]
    · simp [h3, Ne.symm ho]

theorem wrDiffers_8 (old v : Word) : wrDiffers 0x8 old v = decide (bit v 3 ≠ bit old 3) := by
  have hz : ((old ^^^ v) &&& BitVec.ofNat 32 0x8 = 0) ↔ bit v 3 = bit old 3 := by
    constructor
    · intro h
      have := congrArg (fun w : Word => w.getLsbD 3) h
      simp only [BitVec.getLsbD_and, BitVec.getLsbD_xor] at this
      unfold bit
      revert this
      cases old.getLsbD 3 <;> cases v.getLsbD 3 <;> decide
    · intro h
      refine BitVec.eq_of_getLsbD_eq fun i hi => ?_
      have h8 : ∀ j, j < 32 → (BitVec.ofNat 32 0x8).getLsbD j = decide (j = 3) := by decide
      rw [BitVec.getLsbD_and, BitVec.getLsbD_xor, h8 i hi]
      by_cases h3 : i = 3
      · subst h3
        unfold bit at h
        rw [h]
        simp
      · simp [h3]
  unfold wrDiffers
  by_cases h : bit v 3 = bit old 3
  · rw [decide_eq_false (not_not.2 (hz.2 h)), decide_eq_false (not_not.2 h)]
  · rw [decide_eq_true (mt hz.1 h), decide_eq_true h]

/-! ### A discovery begins -/

/-- The chain as a discovery's shift begins, which ends at `until'` of its length. -/
def discovering (ends : Sdc → Time) (boot : Bool) (c : Sdc) : Sdc :=
  let c1 := { c with clkInUse := (c.ctl.extractLsb' 1 2), bootDiscovery := boot, again := false, sent := [] }
  { (c1.setPhase .discovering) with waitUntil := ends c1 }

theorem startDiscovery_eq (s : State) (boot : Bool) :
    s.startDiscovery boot = s.modSdc (discovering (fun c => s.chainEnd (c.periods (34 * 64)) 0) boot) := rfl

theorem discovering_effect (ends : Sdc → Time) (boot : Bool) (c : Sdc) : (discovering ends boot c).phase = .discovering ∧
    bit (discovering ends boot c).stat 16 = false ∧ (discovering ends boot c).clkInUse.toNat = fld c.ctl 1 2 ∧
    (∀ i, i ≠ 16 → bit (discovering ends boot c).stat i = bit c.stat i) := by
  refine ⟨rfl, bit_clrBit_self _ _, ?_, fun i hi => bit_clrBit_ne _ hi⟩
  show (c.ctl.extractLsb' 1 2).toNat = _
  rw [BitVec.extractLsb'_toNat, Nat.shiftRight_eq_div_pow]
  rfl

theorem chainEnd_congr {s u : State} (hc : u.clk = s.clk) (ht : u.time = s.time) (a b : Time) : u.chainEnd a b = s.chainEnd a b := by
  unfold State.chainEnd
  rw [hc, ht]

theorem otherCause_iff (s : State) : s.sdc.otherCause = true ↔ bit s.sdc.ctl 0 = false ∨ ¬NoCause s := by
  unfold Sdc.otherCause NoCause
  cases bit s.sdc.ctl 0 <;> cases s.sdc.causeIntlk <;> cases s.sdc.causeAux <;> cases s.sdc.causeTemp <;> simp

theorem otherCause_none {s : State} (h : NoCause s) (he : bit s.sdc.ctl 0 = true) : s.sdc.otherCause = false := by
  refine eq_false_of_ne_true fun ho => ?_
  rcases (otherCause_iff s).1 ho with h1 | h1
  · rw [he] at h1
    exact Bool.noConfusion h1
  · exact h1 h

theorem periods_eq (c : Sdc) : c.periods (34 * 64) = 2176 * sec / c.hz := rfl

/-- The chain as EN goes to 1: a discovery waits, due `now`. -/
def chainOpened (v : Word) (now : Time) (c : Sdc) : Sdc := { ((ctlWritten v c).setPhase .waiting) with waitUntil := now }

theorem putBit_bits (w : Word) (b : Bool) {i : Nat} (h : i ≠ 16) : bit (putBit w 16 b) i = bit w i := bit_putBit_ne w b h

theorem chainOpened_effect {v : Word} {c : Sdc} (h : bit c.ctl 0 = false) (hv : bit v 0 = true) (now : Time) :
    bit (chainOpened v now c).ctl 0 = true ∧ bit (chainOpened v now c).ctl 3 = bit v 3 ∧
      fld (chainOpened v now c).ctl 1 2 = (if fld v 1 2 = 3 then fld c.ctl 1 2 else fld v 1 2) ∧
      fld (chainOpened v now c).ctl 4 12 = (if fld v 4 12 = 0 then fld c.ctl 4 12 else fld v 4 12) ∧
      (fld v 4 12 = 0 ∨ (fld v 1 2 = 3 ∧ fld c.ctl 1 2 ≠ 3) → bit (chainOpened v now c).stat 17 = true) ∧
      bit (chainOpened v now c).stat 16 = true := by
  obtain ⟨c1, c2, c3⟩ := sdcCtl_closed (v := v) h
  obtain ⟨b1, b2⟩ := sdcCtl_bits c.ctl v
  refine ⟨b1.trans hv, b2, c1, c2, fun hg => ?_, bit_setBit_self _ (by omega)⟩
  refine (putBit_bits _ _ (by omega)).trans ?_
  show bit (if (sdcCtl c.ctl v).2 then setBit c.stat 17 else c.stat) 17 = true
  rw [if_pos (c3 hg)]
  exact bit_setBit_self _ (by omega)

theorem writeSdcCtl_enable {v : Word} {s : State} (h : bit s.sdc.ctl 0 = false) (hv : bit v 0 = true) : writeSdcCtl v s =
    { s with sdc := chainOpened v s.time.mono s.sdc, glb := if bit v 3 = bit s.sdc.ctl 3 then s.glb else s.hazard.glb } := by
  rw [writeSdcCtl_eq, (sdcCtl_bits _ _).1, h, hv, wrDiffers_8]
  by_cases h3 : bit v 3 = bit s.sdc.ctl 3
  · rw [decide_eq_false (not_not.2 h3), if_pos h3]
    rfl
  · rw [decide_eq_true h3, if_neg h3]
    rfl

/-- The chain and what EN's clearing leaves of it. -/
theorem writeSdcCtl_disable {v : Word} {s : State} (h : bit s.sdc.ctl 0 = true) (hv : bit v 0 = false) : writeSdcCtl v s =
    { s with sdc := latched s.time.mono 0 (ctlWritten v s.sdc), emOn := Vector.replicate 128 false,
             glb := if bit v 3 = bit s.sdc.ctl 3 then s.glb else s.hazard.glb } := by
  rw [writeSdcCtl_eq, (sdcCtl_bits _ _).1, h, hv, wrDiffers_8]
  by_cases h3 : bit v 3 = bit s.sdc.ctl 3
  · rw [decide_eq_false (not_not.2 h3), if_pos h3]
    rfl
  · rw [decide_eq_true h3, if_neg h3]
    rfl

theorem sdcDiscoveryStart_go {s : State} (hp : s.sdc.phase = .waiting) (ho : s.sdc.otherCause = false) (hw : s.sdc.waitUntil ≤ s.time.mono) :
    sdcDiscoveryStart s = s.startDiscovery false := if_pos ⟨hp, by rw [ho]; rfl, hw⟩

theorem sdcDiscoveryStart_still {s : State} (h : s.sdc.phase ≠ .waiting ∨ s.sdc.otherCause = true ∨ s.time.mono < s.sdc.waitUntil) :
    sdcDiscoveryStart s = s := by
  refine if_neg fun ⟨h1, h2, h3⟩ => ?_
  rcases h with h | h | h
  · exact h h1
  · rw [h] at h2
    exact Bool.noConfusion h2
  · exact absurd h3 (Nat.not_le.2 h)

/-- What SDC_ENABLE leaves (R66, R571). -/
theorem enable_effect {v : Word} {s : State} (h : bit s.sdc.ctl 0 = false) (hv : bit v 0 = true) (t : State) (ht : t = sdcDiscoveryStart (writeSdcCtl v s)) :
    t = { s with sdc := t.sdc, glb := t.glb } ∧
      t.glb = (if bit v 3 = bit s.sdc.ctl 3 then s.glb else s.hazard.glb) ∧ bit t.sdc.ctl 0 = true ∧ bit t.sdc.ctl 3 = bit v 3 ∧
      fld t.sdc.ctl 1 2 = (if fld v 1 2 = 3 then fld s.sdc.ctl 1 2 else fld v 1 2) ∧
      fld t.sdc.ctl 4 12 = (if fld v 4 12 = 0 then fld s.sdc.ctl 4 12 else fld v 4 12) ∧
      (fld v 4 12 = 0 ∨ (fld v 1 2 = 3 ∧ fld s.sdc.ctl 1 2 ≠ 3) → bit t.sdc.stat 17 = true) ∧ t.sdc.raw = s.sdc.raw ∧ t.sdc.ovr = s.sdc.ovr ∧
      (NoCause s → t.sdc.phase = .discovering ∧ bit t.sdc.stat 16 = false ∧ t.sdc.clkInUse.toNat = fld t.sdc.ctl 1 2 ∧
        t.sdc.waitUntil = s.chainEnd (2176 * sec / t.sdc.hz) 0) ∧
      (¬NoCause s → t.sdc.phase = .waiting ∧ bit t.sdc.stat 16 = true) := by
  obtain ⟨o1, o2, o3, o4, o5, o6⟩ := chainOpened_effect h hv s.time.mono
  have hu := writeSdcCtl_enable h hv
  generalize writeSdcCtl v s = u at hu ht
  have hsd : u.sdc = chainOpened v s.time.mono s.sdc := by rw [hu]
  have hgl : u.glb = if bit v 3 = bit s.sdc.ctl 3 then s.glb else s.hazard.glb := by rw [hu]
  have hck : u.clk = s.clk := by rw [hu]
  have htm : u.time = s.time := by rw [hu]
  have hraw : u.sdc.raw = s.sdc.raw ∧ u.sdc.ovr = s.sdc.ovr ∧ u.sdc.phase = .waiting ∧ u.sdc.waitUntil = s.time.mono := by
    rw [hsd]
    exact ⟨rfl, rfl, rfl, rfl⟩
  obtain ⟨r1, r2, r3, r4⟩ := hraw
  rw [← hsd] at o1 o2 o3 o4 o5 o6
  have hfr : u = { s with sdc := u.sdc, glb := u.glb } := by rw [hsd, hgl]; exact hu
  have hnc : NoCause u ↔ NoCause s := by
    unfold NoCause
    rw [hsd]
    rfl
  by_cases hn : NoCause s
  · have ho := otherCause_none (hnc.2 hn) o1
    rw [sdcDiscoveryStart_go r3 ho (by rw [r4, htm]), startDiscovery_eq] at ht
    obtain ⟨d1, d2, d3, d4⟩ := discovering_effect (fun c => u.chainEnd (c.periods (34 * 64)) 0) false u.sdc
    have hsd' : t.sdc = discovering (fun c => u.chainEnd (c.periods (34 * 64)) 0) false u.sdc := by rw [ht, State.modSdc_sdc]
    have hgl' : t.glb = u.glb := by rw [ht, State.modSdc_glb]
    refine ⟨?_, hgl'.trans hgl, ?_⟩
    · rw [hgl', ht]
      exact congrArg (fun x : State => { x with sdc := discovering (fun c => u.chainEnd (c.periods (34 * 64)) 0) false u.sdc }) hfr
    · rw [hsd']
      refine ⟨o1, o2, o3, o4, fun hg => (d4 17 (by omega)).trans (o5 hg), r1, r2, fun _ => ⟨d1, d2, d3, ?_⟩, fun hx => absurd hn hx⟩
      exact (chainEnd_congr hck htm _ _).trans (by rw [periods_eq]; rfl)
  · have ho : u.sdc.otherCause = true := (otherCause_iff u).2 (.inr (mt hnc.1 hn))
    rw [sdcDiscoveryStart_still (.inr (.inl ho))] at ht
    rw [ht]
    exact ⟨hfr, hgl, o1, o2, o3, o4, o5, r1, r2, fun hx => absurd hx hn, fun _ => ⟨r3, o6⟩⟩

theorem disable_effect {v : Word} {s : State} (h : bit s.sdc.ctl 0 = true) (hv : bit v 0 = false) (t : State) (ht : t = writeSdcCtl v s) :
    t = { s with sdc := t.sdc, emOn := t.emOn, glb := t.glb } ∧ t.sdc.phase = .idle ∧ bit t.sdc.ctl 0 = false ∧ bit t.sdc.stat 16 = true ∧
      t.sdc.sent = [] ∧ fld t.sdc.ctl 1 2 = fld s.sdc.ctl 1 2 ∧ ∀ e : Fin 128, t.emOn[e] = false := by
  rw [ht, writeSdcCtl_disable h hv]
  have h0 : bit (ctlWritten v s.sdc).ctl 0 = false := (sdcCtl_bits _ _).1.trans hv
  obtain ⟨l1, l2⟩ := latched_phase s.time.mono 0 (ctlWritten v s.sdc)
  refine ⟨rfl, ?_, h0, l2, rfl, ?_, emOn_none⟩
  · rw [l1, h0]
    rfl
  · refine (sdcCtl_clksel s.sdc.ctl v).trans ?_
    rw [h, wrRWD_busy]

end Sys2Proof.Proofs

/-! SUPPORT. The end of a frame and of a discovery (R51 to R53, R58). -/

namespace Sys2Proof.Proofs
open Sys2Proof Sys2Proof.Machine Sys2Proof.Claims

/-! ### Electrical faults -/

/-- The groups of the emitters `es` that are not shut yet. -/
def faultGroups (s : State) (es : List Nat) : List Nat := ((es.map (emGroup s.settings)).eraseDups).filter fun g => !(s.groupShut g)

theorem mem_faultGroups {s : State} {es : List Nat} {g : Nat} : g ∈ faultGroups s es ↔ (∃ e ∈ es, emGroup s.settings e = g) ∧ s.groupShut g = false := by
  simp [faultGroups, List.mem_filter, List.mem_eraseDups]

theorem groupShut_eq (s : State) (g : Fin 16) : s.groupShut g.val = s.shut[g] := by
  unfold State.groupShut
  rw [ix_of_lt g.isLt]

/-- What electrical faults of `es` leave (R58). -/
structure Electrical (es : List Nat) (s t : State) : Prop where
  only : Only [.shut, .ports] s t
  shut : ∀ g : Fin 16, t.shut[g] = true ↔ s.shut[g] = true ∨ ∃ e ∈ es, g.val = emGroup s.settings e
  pend : ∀ e ∈ es, ∀ g : Fin 16, g.val = emGroup s.settings e → s.shut[g] = false → s.boot.inReset = false →
    t.ev.pend.getLsbD 204 = true ∧ t.ev.pend.getLsbD 202 = true
  none : es = [] → t = s

theorem shutGroups_only (s : State) (gs : List Nat) : Only [.shut, .ports] s (s.shutGroups gs) := by
  have h := (shutGroups_effect gs s).frame
  generalize s.shutGroups gs = t at h
  refine ⟨fun p hp => ?_, fun n hn => by rw [h]; exact hn, by rw [h]; exact fun _ ho => ho, fun i _ _ hi => by rw [h]; exact hi⟩
  rw [h]
  cases p <;> first | rfl | exact SameSess.of_eq rfl | simp at hp

theorem electrical_effect (es : List Nat) (s : State) : Electrical es s (s.electrical es) := by
  have hshut : ∀ g : Fin 16, (s.shut[g] || (faultGroups s es).contains g.val) = true ↔ s.shut[g] = true ∨ ∃ e ∈ es, g.val = emGroup s.settings e := by
    intro g
    rw [Bool.or_eq_true, List.contains_iff_mem, mem_faultGroups, groupShut_eq]
    constructor
    · rintro (h | ⟨⟨e, he, hg⟩, -⟩)
      · exact .inl h
      · exact .inr ⟨e, he, hg.symm⟩
    · rintro (h | ⟨e, he, hg⟩)
      · exact .inl h
      · by_cases hs : s.shut[g] = true
        · exact .inl hs
        · exact .inr ⟨⟨e, he, hg.symm⟩, eq_false_of_ne_true hs⟩
  have he : s.electrical es = if (faultGroups s es).isEmpty then s else ((s.shutGroups (faultGroups s es)).raise 204).raise 202 := rfl
  rw [he]
  by_cases hg : (faultGroups s es).isEmpty = true
  · have hn : faultGroups s es = [] := List.isEmpty_iff.1 hg
    rw [if_pos hg]
    refine ⟨.refl .., fun g => ?_, fun e hm g h1 h2 _ => ?_, fun _ => rfl⟩
    · rw [← hshut g, hn]
      simp
    · have : g.val ∈ faultGroups s es := mem_faultGroups.2 ⟨⟨e, hm, h1.symm⟩, by rw [groupShut_eq]; exact h2⟩
      rw [hn] at this
      exact absurd this List.not_mem_nil
  · rw [if_neg hg]
    have h1 := shutGroups_only s (faultGroups s es)
    have hs := (shutGroups_effect (faultGroups s es) s).shut
    generalize s.shutGroups (faultGroups s es) = u at h1 hs
    have h2 : Only [.shut, .ports] u ((u.raise 204).raise 202) := (raise_only ..).trans (raise_only ..)
    have h3 : Only [] u ((u.raise 204).raise 202) := (raise_only ..).trans (raise_only ..)
    refine ⟨h1.trans h2, fun g => ?_, fun e _ g _ _ hr => ?_, fun hn => ?_⟩
    · rw [h3.shut, hs g]
      exact hshut g
    · have hb : u.boot.inReset = false := h1.inReset.trans hr
      exact (raise_both hb 204 202).2
    · exact absurd (by rw [hn]; rfl) hg

/-! ### The end of a frame -/

/-- Whether the status of device `d` in a received frame is good. -/
def frameOk (s : State) (rx : List (BitVec 64)) (d : Nat) : Bool :=
  statusOk ((rx.take (fld s.sdc.stat 0 6)).reverse.getD d 0) (s.sdc.latched.getD d 0) (s.sdc.ids.getD d 0)

/-- The emitters in electrical fault in a received frame. -/
def faultList (s : State) (rx : List (BitVec 64)) : List Nat :=
  (List.range (fld s.sdc.stat 0 6)).flatMap fun d =>
    if frameOk s rx d then faultsOf ((rx.take (fld s.sdc.stat 0 6)).reverse.getD d 0) (s.sdc.latched.getD d 0) d else []

/-- Whether a received frame passes. -/
def framePass (s : State) (rx : List (BitVec 64)) : Bool :=
  rx.length == fld s.sdc.stat 0 6 + 1 && rx.getD (fld s.sdc.stat 0 6) 1 == 0 && (List.range (fld s.sdc.stat 0 6)).all (frameOk s rx)

theorem mem_faultList {s : State} {rx : List (BitVec 64)} {e : Nat} : e ∈ faultList s rx ↔ Faulty s rx e := by
  unfold faultList Faulty GoodStatus
  rw [List.mem_flatMap]
  constructor
  · rintro ⟨d, hd, he⟩
    by_cases hk : frameOk s rx d = true
    · rw [if_pos hk] at he
      exact ⟨d, List.mem_range.1 hd, hk, he⟩
    · rw [if_neg hk] at he
      exact absurd he List.not_mem_nil
  · rintro ⟨d, hd, hk, he⟩
    exact ⟨d, List.mem_range.2 hd, by rw [show frameOk s rx d = true from hk]; exact he⟩

theorem framePass_iff {s : State} {rx : List (BitVec 64)} : framePass s rx = true ↔ Passes s rx := by
  unfold framePass Passes GoodStatus
  simp only [Bool.and_eq_true, beq_iff_eq, List.all_eq_true, List.mem_range, and_assoc]
  rfl

/-- The latch pulse: the words sent take effect. -/
def latchPulse (u : State) : State :=
  ({ u with emOn := Vector.ofFn fun e : Fin 128 => (u.sdc.sent.getD (e.val / 4) 0).getLsbD (12 + e.val % 4) } : State).modSdc fun c => { c with
    latched := c.sent, seq := c.seq + 1 }

/-- The chain's counts after a frame that does not pass. -/
def failCounted (c : Sdc) : Sdc := { c with stat := bumpFld c.stat 8 8, failedRun := c.failedRun + 1, passes := 0 }

/-- The end of a frame, from its instant on. -/
def frameEnds (pass : Bool) (es : List Nat) (st : List (BitVec 64)) (s0 : State) : State :=
  let s2 := ((s0.modSdc fun c => { c with status := st }).electrical es).emit (.chainFrame s0.sdc.sent)
  if pass then ((latchPulse s2).modSdc fun c => { c with
    failedRun := 0, passes := c.passes + 1, again := false, channel := (c.channel + 1) % 12 }).startFrame
  else
    let s3 := s2.modSdc failCounted
    if 2 ≤ s2.sdc.failedRun + 1 then s3.chainFails true
    else ((latchPulse s3).modSdc fun c => { c with again := true }).startFrame

/-- The status blocks kept after a received frame: the good ones of it, the others as they were. -/
def keptStatus (c : Sdc) (rx : List (BitVec 64)) : List (BitVec 64) :=
  let status := (rx.take c.ndev).reverse
  let ok := (List.range c.ndev).map fun d => statusOk (status.getD d 0) (c.latched.getD d 0) (c.ids.getD d 0)
  (List.range c.ndev).map fun d => if ok.getD d false then status.getD d 0 else c.status.getD d 0

theorem getD_map_range {α : Type} (f : Nat → α) (n d : Nat) (x : α) (h : d < n) : ((List.range n).map f).getD d x = f d := by
  simp [List.getD_eq_getElem?_getD, h]

theorem sdcFrameEnd_eq {s : State} (h : s.sdc.phase = .framing) (rx : List (BitVec 64)) :
    ∃ st, sdcFrameEnd rx s = frameEnds (framePass s rx) (faultList s rx) st (s.until s.sdc.waitUntil) := by
  have hes : ∀ (s0 : State), s0.sdc = s.sdc → ((List.range s0.sdc.ndev).flatMap fun d =>
      if ((List.range s0.sdc.ndev).map fun d => statusOk ((rx.take s0.sdc.ndev).reverse.getD d 0) (s0.sdc.latched.getD d 0) (s0.sdc.ids.getD d 0)).getD d false
      then faultsOf ((rx.take s0.sdc.ndev).reverse.getD d 0) (s0.sdc.latched.getD d 0) d else []) = faultList s rx := fun s0 h0 => by
    rw [h0]
    unfold faultList
    refine List.flatMap_congr fun d hd => ?_
    rw [getD_map_range _ _ _ _ (List.mem_range.1 hd)]
    rfl
  have hps : ∀ (s0 : State), s0.sdc = s.sdc → (rx.length == s0.sdc.ndev + 1 && rx.getD s0.sdc.ndev 1 == 0 &&
      ((List.range s0.sdc.ndev).map fun d => statusOk ((rx.take s0.sdc.ndev).reverse.getD d 0) (s0.sdc.latched.getD d 0) (s0.sdc.ids.getD d 0)).all id) =
        framePass s rx := fun s0 h0 => by
    rw [h0]
    unfold framePass
    rw [List.all_map]
    rfl
  refine ⟨keptStatus (s.until s.sdc.waitUntil).sdc rx, ?_⟩
  rw [← hes (s.until s.sdc.waitUntil) rfl, ← hps (s.until s.sdc.waitUntil) rfl]
  unfold sdcFrameEnd
  rw [if_neg (not_not.2 h)]
  rfl

/-- The chain as a frame begins, whatever it sends. -/
def framing (sent : List (BitVec 64)) (ends : Time) (c : Sdc) : Sdc := { (c.setPhase .framing) with sent := sent, waitUntil := ends }

/-- The words that the frame which begins now sends. -/
def frameWords (s : State) : List (BitVec 64) :=
  let words := if s.sdc.again then s.sdc.sent else (List.range s.sdc.ndev).map s.driverWord
  let words1 := words.zipIdx.map fun wd =>
    (List.range 4).foldl (fun (w : BitVec 64) c => if s.groupShut (emGroup s.settings (4 * wd.2 + c)) then w &&& ~~~(1#64 <<< (12 + c)) else w) wd.1
  words1.map fun w => sealWord w s.sdc.seq

theorem startFrame_eq (s : State) : ∃ w y, s.startFrame = s.modSdc (framing w y) :=
  ⟨frameWords s, s.chainEnd (s.sdc.framePeriod - s.sdc.periods 8) (s.sdc.periods 8), by
    unfold State.startFrame State.modSdc framing frameWords
    rfl⟩

theorem framing_bit (w : List (BitVec 64)) (y : Time) (c : Sdc) {i : Nat} (h : i ≠ 16) : bit (framing w y c).stat i = bit c.stat i := bit_clrBit_ne _ h

/-- What the faults and the latch pulse of a frame leave, whether it passes or is the first that does not. -/
structure FrameLatched (es : List Nat) (s0 t : State) : Prop where
  latched : t.sdc.latched = s0.sdc.sent
  phase : t.sdc.phase = .framing
  seq : t.sdc.seq = s0.sdc.seq + 1
  out : .chainFrame s0.sdc.sent ∈ t.out
  emOn : ∀ e : Fin 128, t.emOn[e] = (s0.sdc.sent.getD (e.val / 4) 0).getLsbD (12 + e.val % 4)
  shut : ∀ g : Fin 16, t.shut[g] = true ↔ s0.shut[g] = true ∨ ∃ e ∈ es, g.val = emGroup s0.settings e
  pend : ∀ e ∈ es, ∀ g : Fin 16, g.val = emGroup s0.settings e → s0.shut[g] = false → s0.boot.inReset = false →
    t.ev.pend.getLsbD 204 = true ∧ t.ev.pend.getLsbD 202 = true
  none : es = [] → t.ports = s0.ports ∧ t.ev = s0.ev ∧ t.out = s0.out ++ [.chainFrame s0.sdc.sent]
  settings : t.settings = s0.settings
  time : t.time = s0.time

/-- The faults of a frame, its output and its latch pulse, with the chain's counts changed by `f` before and `g` after it. -/
theorem frameLatched {es : List Nat} {st : List (BitVec 64)} {s0 e : State} (he : e = (s0.modSdc fun c => { c with status := st }).electrical es)
    {f g : Sdc → Sdc} (hf : ∀ c, (f c).sent = c.sent ∧ (f c).seq = c.seq) (hg : ∀ c, (g c).latched = c.latched ∧ (g c).seq = c.seq) (t : State)
    (ht : t = ((latchPulse ((e.emit (.chainFrame s0.sdc.sent)).modSdc f)).modSdc g).startFrame) :
    FrameLatched es s0 t ∧ ∃ w y, t.sdc = framing w y (g { f { s0.sdc with status := st } with
      latched := s0.sdc.sent, seq := (f { s0.sdc with status := st }).seq + 1 }) := by
  have hel := electrical_effect es (s0.modSdc fun c => { c with status := st })
  rw [← he] at hel
  have hsd : e.sdc = { s0.sdc with status := st } := hel.only.sdc
  obtain ⟨w, y, hw⟩ := startFrame_eq ((latchPulse ((e.emit (.chainFrame s0.sdc.sent)).modSdc f)).modSdc g)
  rw [hw] at ht
  have hts : t.sdc = framing w y (g { f e.sdc with latched := (f e.sdc).sent, seq := (f e.sdc).seq + 1 }) := by rw [ht]; rfl
  have hsent : (f e.sdc).sent = s0.sdc.sent := by rw [(hf _).1, hsd]
  have hout : t.out = e.out ++ [.chainFrame s0.sdc.sent] := by rw [ht]; rfl
  rw [hsd] at hts
  refine ⟨⟨?_, by rw [hts]; rfl, ?_, ?_, fun i => ?_, fun i => ?_, fun x hx i h1 h2 h3 => ?_, fun hn => ?_, ?_, ?_⟩, w, y, ?_⟩
  · rw [hts]
    exact ((hg _).1.trans (by rw [← hsd]; exact hsent))
  · rw [hts]
    exact (hg _).2.trans (congrArg (· + 1) (hf _).2)
  · rw [hout]
    exact List.mem_append_right _ (List.mem_singleton_self _)
  · rw [ht]
    refine (Vector.getElem_ofFn ..).trans ?_
    show ((f e.sdc).sent.getD _ 0).getLsbD _ = _
    rw [hsent]
  · rw [show t.shut = e.shut by rw [ht]; rfl]
    exact hel.shut i
  · rw [show t.ev = e.ev by rw [ht]; rfl]
    exact hel.pend x hx i h1 h2 h3
  · have hn' := hel.none hn
    refine ⟨by rw [ht, hn']; rfl, by rw [ht, hn']; rfl, ?_⟩
    rw [hout, hn']
    rfl
  · rw [show t.settings = e.settings by rw [ht]; rfl]
    exact hel.only.settings
  · rw [show t.time = e.time by rw [ht]; rfl]
    exact hel.only.time
  · rw [hts, show (f { s0.sdc with status := st }).sent = s0.sdc.sent by rw [← hsd]; exact hsent]

/-! ### The chain fails -/

/-- The chain fails for the first time, its next discovery `w` later (R52, R53, R58). -/
def chainDown (w : Time) (integ : Bool) (s : State) : State :=
  let s1 := (s.modSdc fun c => { c with chainFailed := true, stat := if integ then setBit c.stat 7 else c.stat }).latShutdown w
  (((s1.shutGroups allGroups).driveInhibit).raise 204).raise 201

theorem chainFails_eq (s : State) (integ : Bool) :
    s.chainFails integ = if s.sdc.chainFailed then s.latShutdown (10 * ms) else chainDown (10 * ms) integ s := rfl

/-- What the first failure of the chain leaves. -/
structure ChainDown (w : Time) (integ : Bool) (s t : State) : Prop where
  allShut : AllShut t
  sdc : t.sdc = Proofs.latched s.time.mono w { s.sdc with chainFailed := true, stat := if integ then setBit s.sdc.stat 7 else s.sdc.stat }
  emOn : t.emOn = Vector.replicate 128 false
  inhibit : t.rind.inhibitOuter = true
  settings : t.settings = s.settings
  time : t.time = s.time
  pend : s.boot.inReset = false → t.ev.pend.getLsbD 204 = true ∧ t.ev.pend.getLsbD 201 = true

theorem inhibitWanted_of_failed {s : State} (h : s.sdc.chainFailed = true) : s.inhibitWanted = true := by
  unfold State.inhibitWanted
  rw [h, Bool.or_true]
  rfl

theorem chainDown_effect (w : Time) (integ : Bool) (s : State) : ChainDown w integ s (chainDown w integ s) := by
  let s1 := (s.modSdc fun c => { c with chainFailed := true, stat := if integ then setBit c.stat 7 else c.stat }).latShutdown w
  have hg := shutGroups_effect allGroups s1
  have hc : chainDown w integ s = (((s1.shutGroups allGroups).driveInhibit).raise 204).raise 201 := rfl
  rw [hc]
  generalize s1.shutGroups allGroups = u at hg
  have hf := hg.frame
  have hsd : u.sdc = s1.sdc := by rw [hf]
  have hem : u.emOn = s1.emOn := by rw [hf]
  have hst : u.settings = s1.settings := by rw [hf]
  have htm : u.time = s1.time := by rw [hf]
  have hbt : u.boot = s1.boot := by rw [hf]
  have hin : u.driveInhibit.rind.inhibitOuter = true := inhibitWanted_of_failed (by rw [hsd]; rfl)
  have ho : SameWork u.driveInhibit ((u.driveInhibit.raise 204).raise 201) := (raise_same ..).trans (raise_same ..)
  have hp : s.boot.inReset = false → _ := fun hr => (raise_both (s := u.driveInhibit) (by rw [← hr]; exact congrArg (·.inReset) hbt) 204 201).2
  generalize (u.driveInhibit.raise 204).raise 201 = t at ho hp
  have hts : t.sdc = Proofs.latched s.time.mono w { s.sdc with chainFailed := true, stat := if integ then setBit s.sdc.stat 7 else s.sdc.stat } :=
    ho.sdc.trans (hsd.trans rfl)
  exact ⟨allShut_of (s := s1) (wait := w) hg (ho.shut.trans rfl) (ho.emOn.trans hem) hts, hts, ho.emOn.trans hem, by rw [ho.rind]; exact hin,
    ho.settings.trans hst, ho.time.trans htm, hp⟩

end Sys2Proof.Proofs

/-! SUPPORT. What a discovery finds (R53, R54, R571), and the Source Drive Chain as a whole. -/

namespace Sys2Proof.Proofs
open Sys2Proof Sys2Proof.Machine Sys2Proof.Claims

/-! ### Emitters beyond the chain are deleted -/

theorem val?_drop_self (ss : Settings) (key : SetKey) : (ss.drop key.kind key.inst).val? key = none := by
  have hmap : ∀ x : Setting, (if x.key.kind == key.kind && x.key.inst == key.inst && !x.val.isEmpty then { x with val := [], gen := x.gen + 1 }
      else x).key = x.key := fun x => by split <;> rfl
  unfold Settings.drop
  simp only [Settings.val?, find_map hmap]
  cases hy : ss.find key with
  | none => rfl
  | some y =>
    simp only [Option.map_some, key_of_find hy, beq_self_eq_true, Bool.true_and]
    by_cases hv : y.val.isEmpty = true
    · simp [hv]
    · simp [hv]

theorem val?_none_drop {ss : Settings} {key : SetKey} (h : ss.val? key = none) (kind : Kind) (inst : Nat) : (ss.drop kind inst).val? key = none := by
  by_cases hk : (kind, inst) = (key.kind, key.inst)
  · obtain ⟨rfl, rfl⟩ := Prod.mk.inj hk
    exact val?_drop_self ss key
  · rw [val?_drop_ne hk, h]

/-- The settings once the emitters from `n` on are deleted. -/
def dropFrom (n : Nat) (ss : Settings) : Settings := ss.emitters.foldl (fun u e => if n ≤ e then u.drop .emitter e else u) ss

theorem mem_emitters {ss : Settings} {e : Nat} (h : emDefined ss e = true) : e ∈ ss.emitters := by
  unfold emDefined Settings.has Settings.val? at h
  cases hf : ss.find { kind := .emitter, inst := e, sub := 0, code := 0x0205 } with
  | none =>
    rw [hf] at h
    exact Bool.noConfusion h
  | some x =>
    rw [hf] at h
    have hk : x.key = { kind := .emitter, inst := e, sub := 0, code := 0x0205 } := key_of_find hf
    have hv : x.val.isEmpty = false := by
      cases hv : x.val.isEmpty
      · rfl
      · simp [hv] at h
    have hm : x ∈ ss := List.mem_of_find?_eq_some hf
    refine List.mem_map.2 ⟨x, List.mem_filter.2 ⟨hm, ?_⟩, by rw [hk]⟩
    rw [hk, hv]
    rfl

theorem emDefined_drops (n e : Nat) (l : List Nat) (ss : Settings) :
    emDefined (l.foldl (fun u e => if n ≤ e then u.drop .emitter e else u) ss) e = (emDefined ss e && !(decide (n ≤ e) && l.contains e)) := by
  induction l generalizing ss with
  | nil => simp
  | cons a l ih =>
    rw [List.foldl_cons, ih]
    have ha : emDefined (if n ≤ a then ss.drop .emitter a else ss) e = (emDefined ss e && !(decide (n ≤ e) && (a == e))) := by
      by_cases hae : a = e
      · subst hae
        by_cases hn : n ≤ a
        · rw [if_pos hn, show emDefined (ss.drop .emitter a) a = false from
            congrArg Option.isSome (val?_drop_self ss { kind := .emitter, inst := a, sub := 0, code := 0x0205 })]
          simp [hn]
        · simp [hn]
      · have hd : emDefined (ss.drop .emitter a) e = emDefined ss e :=
          congrArg Option.isSome (val?_drop_ne (key := { kind := .emitter, inst := e, sub := 0, code := 0x0205 }) fun h => hae (congrArg Prod.snd h))
        by_cases hn : n ≤ a
        · rw [if_pos hn, hd]
          simp [hae]
        · simp [hn, hae]
    rw [ha, List.contains_cons]
    by_cases hn : n ≤ e
    · simp only [hn, decide_true, Bool.true_and, Bool.not_or, Bool.and_assoc]
      rw [show (a == e) = (e == a) from Bool.beq_comm]
    · simp [hn]

theorem emDefined_dropFrom (n e : Nat) (ss : Settings) : emDefined (dropFrom n ss) e = (decide (e < n) && emDefined ss e) := by
  unfold dropFrom
  rw [emDefined_drops]
  by_cases hd : emDefined ss e = true
  · have hc : ss.emitters.contains e = true := List.contains_iff_mem.2 (mem_emitters hd)
    rw [hd, hc]
    by_cases hn : n ≤ e
    · simp [hn, Nat.not_lt.2 hn]
    · simp [hn, Nat.not_le.1 hn]
  · simp [eq_false_of_ne_true hd]

/-! ### What a discovery finds -/

/-- The chain's registers after a discovery that found `k` devices. -/
def found (k : Nat) (ids : List (BitVec 8)) (c : Sdc) : Sdc :=
  { c with
    stat := clrBit (clrBit (setFld c.stat 0 6 k) 6) 18, ids := ids, known := true, prevCount := some k, chainFailed := false
    failedRun := 0, passes := 0, seq := 1, channel := 0, latched := List.replicate k 0, sent := [], again := false
    status := List.replicate k 0 }

/-- The state once `k` devices are known, with the emitters beyond them deleted when the count has changed. -/
def chainKnown (k : Nat) (ids : List (BitVec 8)) (changed : Bool) (s : State) : State :=
  let s1 := (s.modSdc (found k ids)).driveInhibit
  let s2 : State := { s1 with emOn := Vector.replicate 128 false }
  if changed then ({ s2 with settings := dropFrom (4 * k) s2.settings } : State).raise 206 else s2

/-- The identifiers in the blocks received, last device first. -/
def foundIds (k : Nat) (blocks : List (BitVec 64)) : List (BitVec 8) := ((blocks.take k).reverse).map fun b => b.extractLsb' 8 8

theorem finishDiscovery_found {s : State} {blocks : List (BitVec 64)} {k : Nat} (h : (blocks.take 34).findIdx? (fun b => b == 0) = some k)
    (hk : s.sdc.clkInUse.toNat = 2 → k ≤ 20) : s.finishDiscovery blocks =
      (let s3 := chainKnown k (foundIds k blocks) (match s.sdc.prevCount with | some m => m != k | none => false) s
       if s.sdc.bootDiscovery && s3.sdc.otherCause then s3.latShutdown 0 else s3.startFrame) := by
  unfold State.finishDiscovery
  rw [h]
  dsimp only
  rw [if_neg fun hx => absurd (hk hx.1) (Nat.not_le.2 hx.2)]
  have hi : ∀ (c : Bool) (x y z : State), (if c then (if c then x else y) else z) = if c then x else z := fun c x y z => by cases c <;> rfl
  exact hi _ _ _ _

/-- The chain's registers after a discovery that found no end. -/
def foundNone (c : Sdc) : Sdc := { c with stat := clrBit (setBit (setFld c.stat 0 6 0) 6) 18, known := false }

/-- The chain's registers after a discovery that found too many devices. -/
def foundMany (k : Nat) (c : Sdc) : Sdc := { c with stat := setBit (clrBit (setFld c.stat 0 6 k) 6) 18, known := false }

theorem finishDiscovery_none {s : State} {blocks : List (BitVec 64)} (h : (blocks.take 34).findIdx? (fun b => b == 0) = none) :
    s.finishDiscovery blocks = (s.modSdc foundNone).chainFails false := by
  unfold State.finishDiscovery
  rw [h]
  rfl

theorem finishDiscovery_many {s : State} {blocks : List (BitVec 64)} {k : Nat} (h : (blocks.take 34).findIdx? (fun b => b == 0) = some k)
    (hc : s.sdc.clkInUse.toNat = 2) (hk : 20 < k) : s.finishDiscovery blocks =
      (s.modSdc (foundMany k)).chainFails false := by
  unfold State.finishDiscovery
  rw [h]
  exact if_pos ⟨hc, hk⟩

theorem sdcDiscoveryEnd_eq {s : State} (h : s.sdc.phase = .discovering) (blocks : List (BitVec 64)) :
    exec (.sdcDiscoveryEnd blocks) s = .next ((s.until s.sdc.waitUntil).finishDiscovery blocks) := congrArg Host.Outcome.next (if_neg (not_not.2 h))

/-- What a discovery that failed leaves, from a state whose registers are `f` of the chain's. -/
theorem discoveryFails {s0 u t : State} {f : Sdc → Sdc} (h1 : u.sdc = s0.sdc) (h2 : u.shut = s0.shut) (h3 : u.ev = s0.ev) (h4 : u.settings = s0.settings)
    (h5 : u.boot = s0.boot) (hf : ∀ c, (f c).chainFailed = c.chainFailed ∧ (f c).known = false) (ht : t = (u.modSdc f).chainFails false) :
    DiscoveryFails s0 t ∧ ∀ i, i ≠ 16 → bit t.sdc.stat i = bit (f s0.sdc).stat i := by
  rw [chainFails_eq] at ht
  have hcf : (u.modSdc f).sdc.chainFailed = s0.sdc.chainFailed := (hf _).1.trans (congrArg Sdc.chainFailed h1)
  cases hc : s0.sdc.chainFailed
  · rw [if_neg (by rw [hcf, hc]; decide)] at ht
    have hd := chainDown_effect (10 * ms) false (u.modSdc f)
    rw [← ht] at hd
    have hsd : t.sdc = latched u.time.mono (10 * ms) { f u.sdc with chainFailed := true } := hd.sdc
    refine ⟨⟨?_, ?_, hd.allShut.2.2.1, hd.allShut.2.2.2.1, hd.allShut.2.2.2.2, hd.allShut.2.1, ?_, hd.settings.trans h4, fun hx => ?_,
      fun _ => ⟨hd.allShut, hd.inhibit, fun hr => hd.pend ((congrArg (·.inReset) h5).trans hr)⟩⟩, fun i hi => ?_⟩
    · rw [hsd]
      rfl
    · rw [hsd]
      exact (hf _).2
    · rw [hsd, show t.time = u.time from hd.time]
      rfl
    · exact Bool.noConfusion (hx.symm.trans hc)
    · rw [hsd, ← h1]
      exact bit_putBit_ne _ _ hi
  · rw [if_pos (by rw [hcf, hc]), latShutdown_eq] at ht
    obtain ⟨l1, l2⟩ := latched_off u.time.mono (10 * ms) (f u.sdc)
    have hsd : t.sdc = latched u.time.mono (10 * ms) (f u.sdc) := by rw [ht]; rfl
    refine ⟨⟨?_, ?_, ?_, ?_, ?_, fun e => ?_, ?_, by rw [ht]; exact h4, fun _ => ⟨by rw [ht]; exact h2, by rw [ht]; exact h3⟩, fun hx => ?_⟩, fun i hi => ?_⟩
    · rw [hsd, ← hc, ← h1]
      exact (hf _).1
    · rw [hsd]
      exact (hf _).2
    · rw [hsd]
      exact (latched_phase _ _ _).2
    · rw [hsd]
      exact l1
    · rw [hsd]
      exact l2
    · rw [ht]
      exact emOn_none e
    · rw [hsd, ht]
      rfl
    · exact Bool.noConfusion (hx.symm.trans hc)
    · rw [hsd, ← h1]
      exact bit_putBit_ne _ _ hi

/-- What stands once `k` devices are known. -/
theorem chainKnown_effect (k : Nat) (ids : List (BitVec 8)) (ch : Bool) (s : State) : (chainKnown k ids ch s).sdc = found k ids s.sdc ∧
    (chainKnown k ids ch s).emOn = Vector.replicate 128 false ∧ (chainKnown k ids ch s).shut = s.shut ∧
    (ch = false → (chainKnown k ids ch s).settings = s.settings) ∧
    (ch = true → (chainKnown k ids ch s).settings = dropFrom (4 * k) s.settings ∧
      (s.boot.inReset = false → (chainKnown k ids ch s).ev.pend.getLsbD 206 = true)) := by
  unfold chainKnown
  cases ch
  · exact ⟨rfl, rfl, rfl, fun _ => rfl, nofun⟩
  · let s2 : State := { (s.modSdc (found k ids)).driveInhibit with emOn := Vector.replicate 128 false, settings := dropFrom (4 * k) s.settings }
    have hr := raise_same s2 206
    have hp := fun h => (raise_after (s := s2) h 206).2
    exact ⟨hr.sdc, hr.emOn, hr.shut, nofun, fun _ => ⟨hr.settings, hp⟩⟩

theorem found_fld {k : Nat} (h : k < 64) (ids : List (BitVec 8)) (c : Sdc) : fld (found k ids c).stat 0 6 = k := by
  show fld (clrBit (clrBit (setFld c.stat 0 6 k) 6) 18) 0 6 = k
  rw [fld_clrBit _ (by omega), fld_clrBit _ (by omega), fld_setFld _ _ (by omega)]
  exact Nat.mod_eq_of_lt h

theorem findIdx_lt {blocks : List (BitVec 64)} {k : Nat} (h : (blocks.take 34).findIdx? (fun b => b == 0) = some k) : k < 34 := by
  obtain ⟨hk, -⟩ := List.findIdx?_eq_some_iff_getElem.1 h
  exact lt_of_lt_of_le hk (List.length_take_le _ _)

/-- What a discovery that finds `k` devices leaves. -/
theorem discoveryFound {s0 u t : State} {blocks : List (BitVec 64)} {k : Nat} (h1 : u.sdc = s0.sdc) (h2 : u.shut = s0.shut)
    (h4 : u.settings = s0.settings) (h5 : u.boot = s0.boot) (hf : (blocks.take 34).findIdx? (fun b => b == 0) = some k)
    (hk : s0.sdc.clkInUse.toNat = 2 → k ≤ 20) (ht : t = u.finishDiscovery blocks) :
    fld t.sdc.stat 0 6 = k ∧ t.sdc.chainFailed = false ∧ t.sdc.known = true ∧
      t.sdc.prevCount = some k ∧ t.sdc.ids = ((blocks.take k).reverse).map (fun b => b.extractLsb' 8 8) ∧ t.sdc.latched = List.replicate k 0 ∧
      (∀ e : Fin 128, t.emOn[e] = false) ∧ t.shut = s0.shut ∧
      (s0.sdc.bootDiscovery = false ∨ (NoCause s0 ∧ bit s0.sdc.ctl 0 = true) → t.sdc.phase = .framing) ∧
      (s0.sdc.bootDiscovery = true → ¬(NoCause s0 ∧ bit s0.sdc.ctl 0 = true) → bit t.sdc.stat 16 = true ∧ t.sdc.phase ≠ .framing) ∧
      (s0.sdc.prevCount = none ∨ s0.sdc.prevCount = some k → t.settings = s0.settings) ∧
      (∀ m, s0.sdc.prevCount = some m → m ≠ k → (s0.boot.inReset = false → t.ev.pend.getLsbD 206 = true) ∧
        ∀ e, emDefined t.settings e = (decide (e < 4 * k) && emDefined s0.settings e)) := by
  rw [finishDiscovery_found hf (by rw [h1]; exact hk)] at ht
  obtain ⟨k1, k2, k3, k4, k5⟩ := chainKnown_effect k (foundIds k blocks) (match u.sdc.prevCount with | some m => m != k | none => false) u
  have hch1 : s0.sdc.prevCount = none ∨ s0.sdc.prevCount = some k → (match u.sdc.prevCount with | some m => m != k | none => false) = false := by
    rw [h1]
    rintro (h | h) <;> rw [h]
    exact bne_self_eq_false k
  have hch2 : ∀ m, s0.sdc.prevCount = some m → m ≠ k → (match u.sdc.prevCount with | some m => m != k | none => false) = true := by
    intro m hm hmk
    rw [h1, hm]
    exact bne_iff_ne.2 hmk
  generalize (match u.sdc.prevCount with | some m => m != k | none => false) = ch at k1 k2 k3 k4 k5 hch1 hch2 ht
  generalize chainKnown k (foundIds k blocks) ch u = v at k1 k2 k3 k4 k5 ht
  rw [h1] at k1
  have ho : v.sdc.otherCause = s0.sdc.otherCause := by rw [k1]; rfl
  have hlt : k < 64 := lt_trans (findIdx_lt hf) (by omega)
  have hset : v.settings = s0.settings ∨ v.settings = dropFrom (4 * k) s0.settings := by
    rw [← h4]
    cases ch
    · exact .inl (k4 rfl)
    · exact .inr (k5 rfl).1
  have hlast : t.settings = v.settings → t.ev = v.ev → (s0.sdc.prevCount = none ∨ s0.sdc.prevCount = some k → t.settings = s0.settings) ∧
      (∀ m, s0.sdc.prevCount = some m → m ≠ k → (s0.boot.inReset = false → t.ev.pend.getLsbD 206 = true) ∧
        ∀ e, emDefined t.settings e = (decide (e < 4 * k) && emDefined s0.settings e)) := fun hs he => by
    refine ⟨fun hp => hs.trans ((k4 (hch1 hp)).trans h4), fun m hm hmk => ⟨fun hr => ?_, fun e => ?_⟩⟩
    · rw [he]
      exact (k5 (hch2 m hm hmk)).2 ((congrArg (·.inReset) h5).trans hr)
    · rw [hs, (k5 (hch2 m hm hmk)).1, h4]
      exact emDefined_dropFrom ..
  have hboot : u.sdc.bootDiscovery = s0.sdc.bootDiscovery := by rw [h1]
  dsimp only at ht
  rw [hboot, ho] at ht
  have hno : s0.sdc.otherCause = false ↔ NoCause s0 ∧ bit s0.sdc.ctl 0 = true := by
    refine ⟨fun h => ?_, fun ⟨h, h'⟩ => otherCause_none h h'⟩
    have := mt (otherCause_iff s0).2 (by rw [h]; decide)
    simpa [not_or, and_comm] using this
  by_cases hb : (s0.sdc.bootDiscovery && s0.sdc.otherCause) = true
  · rw [if_pos hb, latShutdown_eq] at ht
    obtain ⟨hb1, hb2⟩ := Bool.and_eq_true_iff.1 hb
    have hsd : t.sdc = latched v.time.mono 0 (found k (foundIds k blocks) s0.sdc) := by rw [ht, ← k1]
    have hn : ¬(NoCause s0 ∧ bit s0.sdc.ctl 0 = true) := fun h => by
      rw [hno.2 h] at hb2
      exact Bool.noConfusion hb2
    rw [hsd]
    refine ⟨?_, rfl, rfl, rfl, rfl, rfl, fun e => ?_, by rw [ht]; exact k3.trans h2, fun hx => ?_, fun _ _ => ?_, hlast (by rw [ht]) (by rw [ht])⟩
    · refine (fld_congr fun i _ hi => ?_).trans (found_fld hlt (foundIds k blocks) s0.sdc)
      exact bit_putBit_ne _ _ (by omega)
    · rw [ht]
      exact emOn_none e
    · rcases hx with hx | hx
      · rw [hx] at hb1
        exact Bool.noConfusion hb1
      · exact absurd hx hn
    · exact ⟨(latched_phase _ _ _).2, (latched_off _ _ _).1⟩
  · obtain ⟨w, y, hw⟩ := startFrame_eq v
    rw [if_neg hb, hw] at ht
    have hsd : t.sdc = framing w y (found k (foundIds k blocks) s0.sdc) := by rw [ht, State.modSdc_sdc, k1]
    rw [hsd]
    refine ⟨?_, rfl, rfl, rfl, rfl, rfl, fun e => ?_, by rw [ht]; exact k3.trans h2, fun _ => rfl, fun hx hn => ?_, hlast (by rw [ht]; rfl) (by rw [ht]; rfl)⟩
    · refine (fld_congr fun i _ hi => ?_).trans (found_fld hlt (foundIds k blocks) s0.sdc)
      exact framing_bit w y _ (by omega)
    · rw [ht, State.modSdc_emOn, k2]
      exact emOn_none e
    · rw [hx, Bool.true_and, Bool.not_eq_true] at hb
      exact absurd (hno.1 hb) hn

/-! ### The rows, one by one -/

/-- A frame that passes. -/
theorem framePasses {s t : State} {rx : List (BitVec 64)} {st : List (BitVec 64)}
    (ht : t = frameEnds true (faultList s rx) st (s.until s.sdc.waitUntil))
    (hfs : ∀ t, FrameLatched (faultList s rx) (s.until s.sdc.waitUntil) t → FaultsShut s rx t) :
    t.sdc.latched = s.sdc.sent ∧ t.sdc.phase = .framing ∧ t.sdc.failedRun = 0 ∧
      t.sdc.passes = s.sdc.passes + 1 ∧ t.sdc.seq = s.sdc.seq + 1 ∧ .chainFrame s.sdc.sent ∈ t.out ∧
      (∀ e : Fin 128, t.emOn[e] = (s.sdc.sent.getD (e.val / 4) 0).getLsbD (12 + e.val % 4)) ∧ FaultsShut s rx t ∧
      ((∀ e, ¬Faulty s rx e) → t.ports = s.ports ∧ t.ev = s.ev ∧ t.out = s.out ++ [.chainFrame s.sdc.sent]) ∧
      t.settings = s.settings ∧ t.time.mono = max s.time.mono s.sdc.waitUntil := by
  obtain ⟨h, w, y, hsd⟩ := frameLatched (s0 := s.until s.sdc.waitUntil) rfl (f := fun c => c)
    (g := fun c => { c with failedRun := 0, passes := c.passes + 1, again := false, channel := (c.channel + 1) % 12 })
    (fun _ => ⟨rfl, rfl⟩) (fun _ => ⟨rfl, rfl⟩) t ht
  have hn : (∀ e, ¬Faulty s rx e) → faultList s rx = [] := fun hx => List.eq_nil_iff_forall_not_mem.2 fun e he => hx e (mem_faultList.1 he)
  refine ⟨h.latched, h.phase, by rw [hsd]; rfl, by rw [hsd]; rfl, h.seq, h.out, h.emOn, hfs t h, fun hx => h.none (hn hx), h.settings, ?_⟩
  rw [h.time]
  exact until_mono ..

/-- The first frame in a row that does not pass. -/
theorem frameFailsFirst {s t : State} {rx : List (BitVec 64)} {st : List (BitVec 64)}
    (ht : t = frameEnds false (faultList s rx) st (s.until s.sdc.waitUntil)) (hf : s.sdc.failedRun = 0)
    (hfs : ∀ t, FrameLatched (faultList s rx) (s.until s.sdc.waitUntil) t → FaultsShut s rx t) :
    t.sdc.latched = s.sdc.sent ∧ t.sdc.phase = .framing ∧ t.sdc.failedRun = 1 ∧ t.sdc.passes = 0 ∧
      fld t.sdc.stat 8 8 = min 255 (fld s.sdc.stat 8 8 + 1) ∧ FaultsShut s rx t ∧ t.settings = s.settings := by
  have hel := (electrical_effect (faultList s rx) ((s.until s.sdc.waitUntil).modSdc fun c => { c with status := st })).only.sdc
  unfold frameEnds at ht
  dsimp only at ht
  generalize he : ((s.until s.sdc.waitUntil).modSdc fun c => { c with status := st }).electrical (faultList s rx) = e at hel ht
  have hno : ¬2 ≤ (e.emit (.chainFrame (s.until s.sdc.waitUntil).sdc.sent)).sdc.failedRun + 1 := by
    rw [State.emit_sdc, show e.sdc.failedRun = 0 from (congrArg Sdc.failedRun hel).trans hf]
    omega
  rw [if_neg Bool.false_ne_true, if_neg hno] at ht
  obtain ⟨h, w, y, hsd⟩ := frameLatched (s0 := s.until s.sdc.waitUntil) he.symm
    (f := failCounted) (g := fun c => { c with again := true })
    (fun _ => ⟨rfl, rfl⟩) (fun _ => ⟨rfl, rfl⟩) t ht
  refine ⟨h.latched, h.phase, by rw [hsd]; exact congrArg (· + 1) hf, by rw [hsd]; rfl, ?_, hfs t h, h.settings⟩
  rw [hsd]
  refine (fld_congr fun i _ hi => framing_bit w y _ (by omega)).trans ?_
  refine (fld_setFld _ _ (by omega)).trans ?_
  rw [Nat.min_comm]
  exact Nat.mod_eq_of_lt (lt_of_le_of_lt (Nat.min_le_left _ _) (by decide))

/-- The second frame in a row that does not pass. -/
theorem frameFailsAgain {s t : State} {rx : List (BitVec 64)} {st : List (BitVec 64)}
    (ht : t = frameEnds false (faultList s rx) st (s.until s.sdc.waitUntil)) (hf : 1 ≤ s.sdc.failedRun) (hc : s.sdc.chainFailed = false)
    (hr : s.boot.inReset = false) :
    AllShut t ∧ t.sdc.chainFailed = true ∧ bit t.sdc.stat 7 = true ∧ t.sdc.latched = s.sdc.latched ∧ t.rind.inhibitOuter = true ∧
      t.ev.pend.getLsbD 204 = true ∧ t.ev.pend.getLsbD 201 = true ∧ t.settings = s.settings := by
  have hel := (electrical_effect (faultList s rx) ((s.until s.sdc.waitUntil).modSdc fun c => { c with status := st })).only
  unfold frameEnds at ht
  dsimp only at ht
  generalize ((s.until s.sdc.waitUntil).modSdc fun c => { c with status := st }).electrical (faultList s rx) = e at hel ht
  have hsd : e.sdc = { s.sdc with status := st } := hel.sdc
  have hse : e.settings = s.settings := hel.settings
  have hrs : e.boot.inReset = false := hel.inReset.trans hr
  have hyes : 2 ≤ (e.emit (.chainFrame (s.until s.sdc.waitUntil).sdc.sent)).sdc.failedRun + 1 := by
    rw [State.emit_sdc, show e.sdc.failedRun = s.sdc.failedRun by rw [hsd]]
    omega
  have hcf : ¬((e.emit (.chainFrame (s.until s.sdc.waitUntil).sdc.sent)).modSdc failCounted).sdc.chainFailed = true := by
    show ¬e.sdc.chainFailed = true
    rw [show e.sdc.chainFailed = s.sdc.chainFailed by rw [hsd], hc]
    decide
  rw [if_neg Bool.false_ne_true, if_pos hyes, chainFails_eq, if_neg hcf] at ht
  have hd := chainDown_effect (10 * ms) true
    ((e.emit (.chainFrame (s.until s.sdc.waitUntil).sdc.sent)).modSdc failCounted)
  rw [← ht] at hd
  obtain ⟨p1, p2⟩ := hd.pend hrs
  refine ⟨hd.allShut, by rw [hd.sdc]; rfl, ?_, ?_, hd.inhibit, p1, p2, hd.settings.trans hse⟩
  · rw [hd.sdc]
    exact (bit_putBit_ne _ _ (by omega)).trans (bit_setBit_self _ (by omega))
  · rw [hd.sdc]
    show e.sdc.latched = _
    rw [hsd]

/-- A discovery that finds no end of the chain. -/
theorem discoveryNone {s t : State} (ht : t = ((s.until s.sdc.waitUntil).modSdc foundNone).chainFails false) :
    DiscoveryFails s t ∧ bit t.sdc.stat 6 = true ∧ fld t.sdc.stat 0 6 = 0 := by
  obtain ⟨hd, hb⟩ := discoveryFails (s0 := s) (u := s.until s.sdc.waitUntil) (f := foundNone) rfl rfl rfl rfl rfl (fun _ => ⟨rfl, rfl⟩) ht
  refine ⟨hd, (hb 6 (by omega)).trans ?_, (fld_congr fun i _ hi => hb i (by omega)).trans ?_⟩
  · exact (bit_clrBit_ne _ (by omega)).trans (bit_setBit_self _ (by omega))
  · exact (fld_clrBit _ (by omega)).trans ((fld_setBit _ (by omega)).trans (fld_setFld _ _ (by omega)))

/-- A discovery that finds more devices than the chain's clock allows. -/
theorem discoveryMany {s t : State} {k : Nat} (hk : k < 34) (ht : t = ((s.until s.sdc.waitUntil).modSdc (foundMany k)).chainFails false) :
    DiscoveryFails s t ∧ bit t.sdc.stat 18 = true ∧ fld t.sdc.stat 0 6 = k := by
  obtain ⟨hd, hb⟩ := discoveryFails (s0 := s) (u := s.until s.sdc.waitUntil) (f := foundMany k) rfl rfl rfl rfl rfl (fun _ => ⟨rfl, rfl⟩) ht
  refine ⟨hd, (hb 18 (by omega)).trans (bit_setBit_self _ (by omega)), (fld_congr fun i _ hi => hb i (by omega)).trans ?_⟩
  refine (fld_setBit _ (by omega)).trans ((fld_clrBit _ (by omega)).trans ((fld_setFld _ _ (by omega)).trans ?_))
  exact Nat.mod_eq_of_lt (lt_trans hk (by omega))

/-- A discovery that begins after a wait. -/
theorem discoveryGoes (s : State) : s.startDiscovery false = s.modSdc (fun _ => (s.startDiscovery false).sdc) ∧
    (s.startDiscovery false).sdc.phase = .discovering ∧ bit (s.startDiscovery false).sdc.stat 16 = false ∧
    (s.startDiscovery false).sdc.clkInUse.toNat = fld s.sdc.ctl 1 2 := by
  obtain ⟨d1, d2, d3, -⟩ := discovering_effect (fun c => s.chainEnd (c.periods (34 * 64)) 0) false s.sdc
  rw [startDiscovery_eq]
  exact ⟨rfl, d1, d2, d3⟩

/-- Settles O41, row by row: the control register, the end of a frame, and the discoveries. -/
theorem sourceDriveChainRuns : Obligations.SourceDriveChainRuns := by
  unfold Obligations.SourceDriveChainRuns
  intro s
  have hwr : Reaches s 10 → ∀ f, s.writtenClk 10 f = f s := fun ⟨h1, h2⟩ f => by
    unfold State.writtenClk State.written
    rw [h1, if_neg (by decide)]
    exact if_pos h2
  have hfr : ∀ rx, s.sdc.phase = .framing → ∃ st, exec (.sdcFrameEnd rx) s =
      .next (frameEnds (framePass s rx) (faultList s rx) st (s.until s.sdc.waitUntil)) := fun rx h => by
    obtain ⟨st, hst⟩ := sdcFrameEnd_eq h rx
    exact ⟨st, congrArg Host.Outcome.next hst⟩
  have hfs : ∀ rx t, FrameLatched (faultList s rx) (s.until s.sdc.waitUntil) t → FaultsShut s rx t := fun rx t h => by
    refine ⟨fun g => (h.shut g).trans (or_congr Iff.rfl (exists_congr fun e => and_congr_left fun _ => mem_faultList)), fun e g he => ?_⟩
    exact h.pend e (mem_faultList.2 he) g
  refine ⟨fun v hr h0 hv => ?_, fun v hr h0 hv => ?_, fun h rx => congrArg Host.Outcome.next (if_pos h), fun rx h hp => ?_, fun rx h hp hf => ?_, fun rx h hp hf hc hr => ?_,
    fun h he hn => ⟨fun hw => ?_, fun hc => ?_⟩, fun h => ?_, fun h => congrArg Host.Outcome.next (sdcDiscoveryStart_still (.inr (.inr h))),
    fun h => congrArg Host.Outcome.next (if_neg (by rw [h]; simp)), fun blocks h => congrArg Host.Outcome.next (if_pos h), fun blocks k h hf hk => ?_, fun blocks h hf => ?_,
    fun blocks k h hf hc hk => ?_⟩
  · exact ⟨_, congrArg Host.Outcome.next (hwr hr fun u => sdcDiscoveryStart (writeSdcCtl v u)), enable_effect h0 hv _ rfl⟩
  · exact ⟨_, congrArg Host.Outcome.next (hwr hr (writeSdcCtl v)), disable_effect h0 hv _ rfl⟩
  · obtain ⟨st, hst⟩ := hfr rx h
    rw [framePass_iff.2 hp] at hst
    exact ⟨_, hst, framePasses rfl (hfs rx)⟩
  · obtain ⟨st, hst⟩ := hfr rx h
    rw [eq_false_of_ne_true (mt framePass_iff.1 hp)] at hst
    exact ⟨_, hst, frameFailsFirst rfl hf (hfs rx)⟩
  · obtain ⟨st, hst⟩ := hfr rx h
    rw [eq_false_of_ne_true (mt framePass_iff.1 hp)] at hst
    exact ⟨_, hst, frameFailsAgain rfl hf hc hr⟩
  · exact ⟨_, congrArg Host.Outcome.next (sdcDiscoveryStart_go h (otherCause_none hn he) hw), discoveryGoes s⟩
  · have ho := otherCause_none hn he
    refine ⟨_, congrArg Host.Outcome.next (if_pos ⟨h, hc, by rw [ho]; rfl⟩), ?_⟩
    obtain ⟨d1, d2, d3, d4⟩ := discoveryGoes (s.until s.sdc.waitUntil)
    generalize hu : (s.until s.sdc.waitUntil).startDiscovery false = t at d1 d2 d3 d4
    exact ⟨d2, d3, by rw [d1]; exact until_mono .., by rw [d1]; rfl, by rw [d1]; rfl⟩
  · have ho : s.sdc.phase ≠ .waiting ∨ s.sdc.otherCause = true := h.imp_right (otherCause_iff s).2
    refine ⟨congrArg Host.Outcome.next (sdcDiscoveryStart_still (ho.imp_right .inl)), congrArg Host.Outcome.next (if_neg fun ⟨h1, _, h2⟩ => ?_)⟩
    rcases ho with ho | ho
    · exact ho h1
    · rw [ho] at h2
      exact Bool.noConfusion h2
  · exact ⟨_, sdcDiscoveryEnd_eq h blocks, discoveryFound (u := s.until s.sdc.waitUntil) rfl rfl rfl rfl hf hk rfl⟩
  · exact ⟨_, (sdcDiscoveryEnd_eq h blocks).trans (congrArg Host.Outcome.next (finishDiscovery_none hf)), discoveryNone rfl⟩
  · exact ⟨_, (sdcDiscoveryEnd_eq h blocks).trans (congrArg Host.Outcome.next (finishDiscovery_many hf hc hk)), discoveryMany (findIdx_lt hf) rfl⟩

end Sys2Proof.Proofs

/-! SUPPORT. The unit's timescale (R221 to R223): REF10 and PPS_IN qualify and are lost, and the state of TB follows them. -/

namespace Sys2Proof.Proofs
open Sys2Proof Sys2Proof.Machine Sys2Proof.Claims

/-- What a change of TB may change: the timescale's own state, the running measurement's flags and the ports' delays. -/
structure Follows (s t : State) : Prop where
  only : Only [.tiu, .ports] s t
  tiu : t.tiu = { s.tiu with stat := t.tiu.stat, fit := t.tiu.fit, run := t.tiu.run, holdSince := t.tiu.holdSince }
  bits : ∀ i, i ≠ 0 → i ≠ 1 → i ≠ 4 → i ≠ 7 → i ≠ 19 → bit t.tiu.stat i = bit s.tiu.stat i

theorem Follows.trans {s t u : State} (h : Follows s t) (k : Follows t u) : Follows s u :=
  ⟨h.only.trans k.only, by rw [k.tiu, h.tiu], fun i h0 h1 h4 h7 h9 => (k.bits i h0 h1 h4 h7 h9).trans (h.bits i h0 h1 h4 h7 h9)⟩

theorem Follows.of_only {s t : State} (h : Only [] s t) : Follows s t := by
  have ht : t.tiu = s.tiu := h.tiu
  exact ⟨h.mono (by decide), by rw [ht], fun i _ _ _ _ _ => by rw [ht]⟩

theorem modTiu_follows (s : State) (f : Tiu → Tiu)
    (ht : ∃ w x r y, f s.tiu = { s.tiu with stat := w, fit := x, run := r, holdSince := y } ∧
      ∀ i, i ≠ 0 → i ≠ 1 → i ≠ 4 → i ≠ 7 → i ≠ 19 → bit w i = bit s.tiu.stat i) : Follows s (s.modTiu f) := by
  obtain ⟨w, x, r, y, he, hb⟩ := ht
  refine ⟨(modTiu_only s f).mono (by decide), ?_, ?_⟩
  · rw [State.modTiu_tiu, he]
  · rw [State.modTiu_tiu, he]
    exact hb

/-- The state that the timescale registers show once TB is `v`. -/
def scaled (v : Nat) (w : Word) : Word := clrBit (setBit (setFld w 0 2 v) 7) 4

theorem scaled_bit (v : Nat) (w : Word) {i : Nat} (h0 : i ≠ 0) (h1 : i ≠ 1) (h4 : i ≠ 4) (h7 : i ≠ 7) : bit (scaled v w) i = bit w i := by
  unfold scaled
  rw [bit_clrBit_ne _ h4, bit_setBit_ne _ h7, bit_setFld _ _ (by omega), if_neg (by omega)]

theorem scaled_fld {v : Nat} (hv : v < 4) (w : Word) : fld (scaled v w) 0 2 = v ∧ bit (scaled v w) 7 = true ∧ bit (scaled v w) 4 = false := by
  unfold scaled
  refine ⟨?_, ?_, bit_clrBit_self ..⟩
  · rw [fld_clrBit _ (by omega), fld_setBit _ (by omega), fld_setFld _ _ (by omega)]
    exact Nat.mod_eq_of_lt hv
  · rw [bit_clrBit_ne _ (by omega), bit_setBit_self _ (by omega)]

theorem setTimescale_effect (s : State) (v : Nat) : Follows s (s.setTimescale v) ∧ (s.setTimescale v).tiu.stat = scaled v s.tiu.stat ∧
    (s.boot.inReset = false → (s.setTimescale v).ev.pend.getLsbD 188 = true) := by
  have h1 : ∀ f : Tiu → Tiu, (∃ x r, f s.tiu = { s.tiu with stat := scaled v s.tiu.stat, fit := x, run := r }) → ∀ t,
      t = (((s.modTiu f).forPorts fun p u => u.modPort p fun q => { q with delay := { q.delay with flags := q.delay.flags ||| 0x080 } }).raise 188) →
      Follows s t ∧ t.tiu.stat = scaled v s.tiu.stat ∧ (s.boot.inReset = false → t.ev.pend.getLsbD 188 = true) := by
    rintro f ⟨x, r, hf⟩ t ht
    have ho : Only [.ports] (s.modTiu f) ((s.modTiu f).forPorts fun p u => u.modPort p fun q => { q with delay := { q.delay with flags := q.delay.flags ||| 0x080 } }) :=
      .forPorts (fun p u => modPort_only u p _) _
    generalize ((s.modTiu f).forPorts fun p u => u.modPort p fun q => { q with delay := { q.delay with flags := q.delay.flags ||| 0x080 } }) = u at ho ht
    have hr : Only [.ports] u t := ht ▸ raise_only u 188
    have h2 : Only [.ports] (s.modTiu f) t := ho.trans hr
    have htu : t.tiu = f s.tiu := h2.tiu
    refine ⟨⟨((modTiu_only s f).mono (by decide)).trans (h2.mono (by decide)), by rw [htu, hf], fun i a b c d _ => ?_⟩, by rw [htu, hf], fun hx => ?_⟩
    · rw [htu, hf]
      exact scaled_bit _ _ a b c d
    · rw [ht]
      exact (raise_after (s := u) (ho.inReset.trans hx) 188).2
  exact h1 _ ⟨_, _, rfl⟩ _ rfl

theorem followInputs_follows (s : State) (lost : Bool) : Follows s (s.followInputs lost) := by
  have hm : ∀ b, Follows s (s.modTiu fun t => { t with stat := putBit t.stat 19 b }) := fun b =>
    modTiu_follows _ _ ⟨_, _, _, _, rfl, fun i _ _ _ _ h => bit_putBit_ne _ _ h⟩
  unfold State.followInputs
  dsimp only
  generalize (bit s.tiu.stat 3 && bit s.tiu.stat 2 && decide (s.tiu.tb ≠ 1) && !s.tiu.ppsNear) = b
  have h1 := hm b
  generalize (s.modTiu fun t => { t with stat := putBit t.stat 19 b }) = u at h1 ⊢
  refine h1.trans ?_
  split
  · exact modTiu_follows _ _ ⟨_, _, _, _, rfl, fun i _ _ h _ _ => bit_clrBit_ne _ h⟩
  · split
    · exact (setTimescale_effect ..).1
    · split
      · exact modTiu_follows _ _ ⟨_, _, _, _, rfl, fun i _ _ h _ _ => bit_setBit_ne _ h⟩
      · exact .of_only (.refl ..)

/-! ### REF10 and PPS_IN -/

/-- A change of an input that raises its event, as the timescale follows it. -/
theorem inputTurns {s : State} (hr : s.boot.inReset = false) (f : Tiu → Tiu) (n : EvIx) (lost : Bool) (t : State)
    (ht : t = ((s.modTiu f).raise n).followInputs lost) : Only [.tiu, .ports] s t ∧ Follows (s.modTiu f) t ∧ t.ev.pend.getLsbD n.val = true := by
  have h1 : Follows (s.modTiu f) ((s.modTiu f).raise n) := .of_only (raise_only _ _)
  have hp := (raise_after (s := s.modTiu f) hr n).2
  generalize (s.modTiu f).raise n = u at h1 hp ht
  have h2 := followInputs_follows u lost
  rw [← ht] at h2
  exact ⟨((modTiu_only s f).mono (by decide)).trans (h1.trans h2).only, h1.trans h2, h2.only.pend n hp⟩

theorem setRef10_effect {s : State} (hr : s.boot.inReset = false) (ok : Bool) (t : State) (ht : t = s.setRef10 ok) : Only [.tiu, .ports] s t ∧
    t.tiu.refRun = s.tiu.refRun ∧ bit t.tiu.stat 2 = ok ∧
    (ok = false → bit s.tiu.stat 2 = true → bit t.tiu.stat 5 = true ∧ t.ev.pend.getLsbD 186 = true) ∧
    (ok = true → bit s.tiu.stat 2 = false → t.ev.pend.getLsbD 186 = true) := by
  unfold State.setRef10 at ht
  by_cases h : ok = bit s.tiu.stat 2
  · rw [if_pos h] at ht
    rw [ht]
    exact ⟨.refl .., rfl, h.symm, fun h1 h2 => Bool.noConfusion (h1.symm.trans (h.trans h2)), fun h1 h2 => Bool.noConfusion (h2.symm.trans (h.symm.trans h1))⟩
  · rw [if_neg h] at ht
    obtain ⟨h1, h2, h3⟩ := inputTurns hr _ _ _ t ht
    have hb := fun i a b c d e => h2.bits i a b c d e
    rw [State.modTiu_tiu] at hb
    refine ⟨h1, by rw [h2.tiu]; rfl, ?_, fun ho _ => ⟨?_, h3⟩, fun _ _ => h3⟩
    · rw [hb 2 (by omega) (by omega) (by omega) (by omega) (by omega)]
      cases ok
      · exact (bit_setBit_ne _ (by omega)).trans (bit_clrBit_self ..)
      · exact bit_setBit_self _ (by omega)
    · rw [hb 5 (by omega) (by omega) (by omega) (by omega) (by omega), ho]
      exact bit_setBit_self _ (by omega)

theorem setPps_effect {s : State} (hr : s.boot.inReset = false) {ok : Bool} (h : bit s.tiu.stat 3 = !ok) (t : State) (ht : t = s.setPps ok) :
    Only [.tiu, .ports] s t ∧ t.tiu.ppsRun = s.tiu.ppsRun ∧ bit t.tiu.stat 3 = ok ∧ t.ev.pend.getLsbD 187 = true ∧
    (ok = true → t.tiu.secondEdge = s.tiu.ppsLast) ∧ (ok = false → bit t.tiu.stat 6 = true) := by
  unfold State.setPps at ht
  rw [if_neg (by rw [h]; cases ok <;> decide)] at ht
  obtain ⟨h1, h2, h3⟩ := inputTurns hr _ _ _ t ht
  have hb := fun i a b c d e => h2.bits i a b c d e
  rw [State.modTiu_tiu] at hb
  refine ⟨h1, by rw [h2.tiu]; rfl, ?_, h3, fun ho => ?_, fun ho => ?_⟩
  · rw [hb 3 (by omega) (by omega) (by omega) (by omega) (by omega)]
    cases ok
    · exact (bit_setBit_ne _ (by omega)).trans (bit_clrBit_self ..)
    · exact bit_setBit_self _ (by omega)
  · rw [h2.tiu, ho]
    rfl
  · rw [hb 6 (by omega) (by omega) (by omega) (by omega) (by omega), ho]
    exact bit_setBit_self _ (by omega)

/-- One window of REF10. -/
theorem refWindow_effect {s : State} (hr : s.boot.inReset = false) (hz : Nat) : Only [.tiu, .ports] (s.elapse ms) (s.refWindow hz) ∧
    (goodWindow s hz = true → (s.refWindow hz).tiu.refRun = s.tiu.refRun + 1 ∧
      bit (s.refWindow hz).tiu.stat 2 = (bit s.tiu.stat 2 || decide (9 ≤ s.tiu.refRun)) ∧
      (bit s.tiu.stat 2 = false → 9 ≤ s.tiu.refRun → (s.refWindow hz).ev.pend.getLsbD 186 = true)) ∧
    (goodWindow s hz = false → (s.refWindow hz).tiu.refRun = 0 ∧ bit (s.refWindow hz).tiu.stat 2 = false ∧
      (bit s.tiu.stat 2 = true → bit (s.refWindow hz).tiu.stat 5 = true ∧ (s.refWindow hz).ev.pend.getLsbD 186 = true)) := by
  have key : ∀ u : State, u.boot.inReset = false → u.tiu = s.tiu → ∀ t, t = (let n := if goodWindow s hz then u.tiu.refRun + 1 else 0
      let s1 := u.modTiu fun t => { t with refRun := n }
      if !goodWindow s hz then s1.setRef10 false else if 10 ≤ n then s1.setRef10 true else s1) → Only [.tiu, .ports] u t ∧
    (goodWindow s hz = true → t.tiu.refRun = s.tiu.refRun + 1 ∧ bit t.tiu.stat 2 = (bit s.tiu.stat 2 || decide (9 ≤ s.tiu.refRun)) ∧
      (bit s.tiu.stat 2 = false → 9 ≤ s.tiu.refRun → t.ev.pend.getLsbD 186 = true)) ∧
    (goodWindow s hz = false → t.tiu.refRun = 0 ∧ bit t.tiu.stat 2 = false ∧
      (bit s.tiu.stat 2 = true → bit t.tiu.stat 5 = true ∧ t.ev.pend.getLsbD 186 = true)) := by
    intro u hu hk t ht
    dsimp only at ht
    rw [hk] at ht
    have h1 : ∀ n, Only [.tiu, .ports] u (u.modTiu fun t => { t with refRun := n }) := fun n => (modTiu_only ..).mono (by decide)
    have h2 : ∀ n, (u.modTiu fun t => { t with refRun := n }).tiu.refRun = n ∧ (u.modTiu fun t => { t with refRun := n }).tiu.stat = s.tiu.stat :=
      fun n => ⟨rfl, by rw [← hk]; rfl⟩
    have h3 : ∀ n, (u.modTiu fun t => { t with refRun := n }).boot.inReset = false := fun n => hu
    cases hg : goodWindow s hz
    · rw [hg, if_neg Bool.false_ne_true] at ht
      obtain ⟨a1, a2⟩ := h2 0
      obtain ⟨b1, b2, b3, b4, -⟩ := setRef10_effect (h3 0) false t ht
      rw [a2] at b4
      exact ⟨(h1 0).trans b1, nofun, fun _ => ⟨b2.trans a1, b3, b4 rfl⟩⟩
    · rw [hg, if_pos rfl] at ht
      obtain ⟨a1, a2⟩ := h2 (s.tiu.refRun + 1)
      by_cases hn : 9 ≤ s.tiu.refRun
      · obtain ⟨b1, b2, b3, -, b5⟩ := setRef10_effect (h3 (s.tiu.refRun + 1)) true t (by rw [ht, if_neg (by decide)]; exact if_pos (by omega))
        rw [a2] at b5
        exact ⟨(h1 _).trans b1, fun _ => ⟨b2.trans a1, by rw [b3]; simp [hn], fun hx _ => b5 rfl hx⟩, nofun⟩
      · have he : t = u.modTiu fun t => { t with refRun := s.tiu.refRun + 1 } := by rw [ht, if_neg (by decide)]; exact if_neg (by omega)
        rw [he]
        exact ⟨h1 _, fun _ => ⟨a1, by rw [a2]; simp [hn], fun _ hx => absurd hx hn⟩, nofun⟩
  exact key (s.elapse ms) hr rfl _ rfl

end Sys2Proof.Proofs

/-! SUPPORT. Anchors (R235, R239), converters retired and calibrated (R220, R224 to R227), and the rotation. -/

namespace Sys2Proof.Proofs
open Sys2Proof Sys2Proof.Machine Sys2Proof.Claims

/-! ### Summaries and what waits for none -/

theorem pair_req (r : MeasRun) (t : Int) : (r.pair t).req = r.req := by
  unfold MeasRun.pair
  split
  · split <;> rfl
  · rfl

theorem settle_req (r : MeasRun) (now : Option Int) : (r.settle now).req = r.req := by
  have h : ∀ (l : List Int) (u : MeasRun), (l.foldl (fun u t => if u.results.length < r.req.nMax then u.pair t else u) u).req = u.req := by
    intro l
    induction l with
    | nil => exact fun _ => rfl
    | cons a l ih =>
      intro u
      rw [List.foldl_cons, ih]
      split
      · exact pair_req u a
      · rfl
  exact h _ r

theorem anchorResult_effect {s : State} (hr : s.boot.inReset = false) (p : Nat) (m : MeasSummary) (want : Nat) (mids : Int) :
    Only [.ports] s (s.anchorResult p m want mids) ∧ (s.anchorResult p m want mids).ev.pend.getLsbD 191 = true := by
  have h1 : ∀ f : Port → Port, Only [.ports] s ((s.onPort p f).raise 191) ∧ ((s.onPort p f).raise 191).ev.pend.getLsbD 191 = true := fun f => by
    have ho := onPort_only s p f
    exact ⟨ho.trans (raise_only _ _), (raise_after (s := s.onPort p f) (ho.inReset.trans hr) 191).2⟩
  unfold State.anchorResult
  dsimp only
  split
  · exact h1 _
  · exact h1 _

/-- A summary goes out, with EV185, and EV191 for an anchor. -/
theorem issueSummary_effect {s : State} (hr : s.boot.inReset = false) (r : MeasRun) (c : Time) : Only [.ports] s (s.issueSummary r c) ∧
    (s.issueSummary r c).ev.pend.getLsbD 185 = true ∧ (∀ p, r.req.anchorPort = some p → (s.issueSummary r c).ev.pend.getLsbD 191 = true) := by
  have h1 : ∀ (b : Bool) (l : List Rec) (u : State), Only [.ports] s u →
      Only [.ports] s ((if b then l.foldl (fun u x => u.push 2 none x 0 false) u else u).raise 185) ∧
        ((if b then l.foldl (fun u x => u.push 2 none x 0 false) u else u).raise 185).ev.pend.getLsbD 185 = true := fun b l u h => by
    have h2 : Only [.ports] s (if b then l.foldl (fun u x => u.push 2 none x 0 false) u else u) := by
      cases b
      · exact h
      · exact h.trans (.foldl (fun v x => push_only v _ _ _ _ _) l u)
    exact ⟨h2.trans (raise_only _ _), (raise_after (h2.inReset.trans hr) 185).2⟩
  unfold State.issueSummary
  dsimp only
  rw [settle_req]
  have h2 := h1 (decide (r.req.par 15 0 = 1)) (stampRecs r.req.id r.req.mode (r.settle none).results)
    (s.push 2 none (.summary ((r.settle none).summary c)) 0 false) (push_only ..)
  simp only [decide_eq_true_eq] at h2
  obtain ⟨h3, h4⟩ := h2
  split
  · rename_i p hp
    obtain ⟨k1, k2⟩ := anchorResult_effect (h3.inReset.trans hr) p ((r.settle none).summary c) r.req.nMax (r.settle none).mids
    exact ⟨h3.trans k1, k1.pend 185 h4, fun _ _ => k2⟩
  · rename_i hp
    exact ⟨h3, h4, fun p h => nomatch hp.symm.trans h⟩

/-- What waits for the measurement of `m` alone when no converter can take it. -/
def dropStep (u : State) (m : MeasReq) : State := let v := u.dropMeas m 0x240; if m.anchorPort.isNone then v.raise 192 else v

theorem dropStep_effect {s : State} (hr : s.boot.inReset = false) (m : MeasReq) : Only [.ports] s (dropStep s m) ∧
    (m.anchorPort.isSome = true → (dropStep s m).ev.pend.getLsbD 191 = true) := by
  obtain ⟨h1, -, h2⟩ := issueSummary_effect hr { (MeasRun.begin m s.time.mono s.unitNow) with flags := 0x240, sawExternal := s.tiu.tb ≠ 0 } s.unitNow
  unfold dropStep State.dropMeas
  dsimp only at h2 ⊢
  cases hm : m.anchorPort with
  | none => exact ⟨h1.trans (raise_only _ _), nofun⟩
  | some p => exact ⟨h1, fun _ => h2 p hm⟩

theorem dropSteps_effect (l : List MeasReq) {s : State} (hr : s.boot.inReset = false) : Only [.ports] s (l.foldl dropStep s) ∧
    (∀ m ∈ l, m.anchorPort.isSome = true → (l.foldl dropStep s).ev.pend.getLsbD 191 = true) := by
  induction l generalizing s with
  | nil => exact ⟨.refl .., nofun⟩
  | cons a l ih =>
    obtain ⟨h1, h2⟩ := dropStep_effect hr a
    obtain ⟨k1, k2⟩ := ih (h1.inReset.trans hr)
    refine ⟨h1.trans k1, fun m hm hp => ?_⟩
    rcases List.mem_cons.1 hm with rfl | hm
    · exact k1.pend 191 (h2 hp)
    · exact k2 m hm hp

@[simp] theorem show_queue (t : Tiu) : t.show.queue = t.queue := by rw [Tiu.show]
@[simp] theorem show_run (t : Tiu) : t.show.run = t.run := by rw [Tiu.show]

theorem cancelAll_none {s : State} (hu : s.tiu.user = 3) (hr : s.boot.inReset = false) : s.cancelAll.tiu.queue = [] ∧
    (∀ m ∈ s.tiu.queue, m.anchorPort.isSome = true → s.cancelAll.ev.pend.getLsbD 191 = true) := by
  have he : s.cancelAll = s.tiu.queue.foldl dropStep (s.modTiu fun t => ({ t with queue := [] } : Tiu).show) := by
    unfold State.cancelAll
    rw [if_neg (not_not.2 hu)]
    rfl
  obtain ⟨h1, h2⟩ := dropSteps_effect s.tiu.queue (s := s.modTiu fun t => ({ t with queue := [] } : Tiu).show) (by rw [State.modTiu_boot]; exact hr)
  rw [← he] at h1 h2
  exact ⟨by rw [h1.tiu, State.modTiu_tiu, show_queue], h2⟩

/-! ### An anchor -/

/-- The anchor that a port asks for now. -/
def newAnchor (s : State) (p : Nat) : MeasReq := anchorReq s.settings p (BitVec.ofNat 16 (s.freshId 16 s.tiu.ids).1) s.unitNow

/-- The anchor stands in the queue, ahead of the measurements. -/
def anchorAsked (s : State) (p : Nat) : State := (s.freshId 16 s.tiu.ids).2.modTiu fun t => { t with
  queue := (t.queue.filter fun x => x.anchorPort.isSome) ++ [newAnchor s p] ++ (t.queue.filter fun x => x.anchorPort.isNone) }

theorem queueAnchor_eq {s : State} {p : Nat} (hm : s.settings.mode p 2 = true) (hs : s.settings.port p 0x1501 = 1) :
    s.queueAnchor p = ((anchorAsked s p).nextMeas).cancelAll := if_pos (by rw [hm, hs]; rfl)

theorem nextMeas_tiu (s : State) : (s.tiu.run = none ∧ s.tiu.user ≠ 3 ∧ ∃ m rest, s.tiu.queue = m :: rest ∧ s.nextMeas.tiu.run.map (·.req) = some m ∧
      s.nextMeas.tiu.queue = rest) ∨
    ((s.tiu.run ≠ none ∨ s.tiu.user = 3 ∨ s.tiu.queue = []) ∧ s.nextMeas.tiu.run = s.tiu.run ∧ s.nextMeas.tiu.queue = s.tiu.queue) := by
  unfold State.nextMeas
  split
  · rename_i m rest hrun hq
    by_cases hu : s.tiu.user = 3
    · rw [if_pos hu]
      exact .inr ⟨.inr (.inl hu), by rw [State.modTiu_tiu, show_run], by rw [State.modTiu_tiu, show_queue]⟩
    · rw [if_neg hu]
      refine .inl ⟨hrun, hu, m, rest, hq, ?_, ?_⟩
      · rw [State.modTiu_tiu, show_run]
        rfl
      · rw [State.modTiu_tiu, show_queue]
  · rename_i hx
    refine .inr ⟨?_, by rw [State.modTiu_tiu, show_run], by rw [State.modTiu_tiu, show_queue]⟩
    cases hr : s.tiu.run with
    | some r => exact .inl nofun
    | none =>
      cases hq : s.tiu.queue with
      | nil => exact .inr (.inr rfl)
      | cons m rest => exact absurd hq (hx m rest hr)

/-- An anchor asked for waits or runs while a converter holds USER; with none it fails at once. -/
theorem anchorAsked_effect {s : State} {p : Nat} (hm : s.settings.mode p 2 = true) (hs : s.settings.port p 0x1501 = 1) (hr : s.boot.inReset = false) :
    (s.tiu.user ≠ 3 → ∃ m : MeasReq, m.anchorPort = some p ∧ ((s.queueAnchor p).tiu.run.map (·.req) = some m ∨ m ∈ (s.queueAnchor p).tiu.queue)) ∧
    (s.tiu.user = 3 → (s.queueAnchor p).tiu.queue = [] ∧ (s.queueAnchor p).ev.pend.getLsbD 191 = true) := by
  rw [queueAnchor_eq hm hs]
  have h0 : (anchorAsked s p).boot.inReset = false ∧ (anchorAsked s p).tiu.user = s.tiu.user ∧ newAnchor s p ∈ (anchorAsked s p).tiu.queue :=
    ⟨hr, rfl, List.mem_append_left _ (List.mem_append_right _ (List.mem_singleton_self _))⟩
  generalize anchorAsked s p = u at h0
  obtain ⟨h1, h2, h3⟩ := h0
  have hw := nextMeas_measWork u
  have hu : u.nextMeas.tiu.user = s.tiu.user := (hw.role (lo := 10) (len := 2) (by omega)).trans h2
  have hq := nextMeas_tiu u
  have hv : u.nextMeas.boot.inReset = false := hw.only.inReset.trans h1
  generalize u.nextMeas = v at hw hu hq hv
  refine ⟨fun hn => ⟨newAnchor s p, rfl, ?_⟩, fun hn => ?_⟩
  · rw [show v.cancelAll = v from if_pos (by rw [hu]; exact hn)]
    rcases hq with ⟨-, -, m, rest, hq, hr1, hr2⟩ | ⟨-, -, hr2⟩
    · rw [hq] at h3
      rcases List.mem_cons.1 h3 with h3 | h3
      · exact .inl (by rw [hr1, h3])
      · exact .inr (by rw [hr2]; exact h3)
    · exact .inr (by rw [hr2]; exact h3)
  · obtain ⟨c1, c2⟩ := cancelAll_none (hu.trans hn) hv
    refine ⟨c1, c2 (newAnchor s p) ?_ rfl⟩
    rcases hq with ⟨-, hne, -⟩ | ⟨-, -, hr2⟩
    · exact absurd (h2.trans hn) hne
    · rw [hr2]
      exact h3

/-! ### Converters -/

/-- The roles' field of TIU_STAT aside, nothing of a word differs. -/
def RolesOnly (v w : Word) : Prop := ∀ i, i < 8 ∨ 14 ≤ i → bit w i = bit v i

theorem setFld_rolesOnly (w : Word) {lo : Nat} (v : Nat) (h : 8 ≤ lo ∧ lo ≤ 12) : RolesOnly w (setFld w lo 2 v) := fun i hi => by
  rw [bit_setFld _ _ (by omega), if_neg (by omega)]

theorem RolesOnly.trans {u v w : Word} (h : RolesOnly u v) (k : RolesOnly v w) : RolesOnly u w := fun i hi => (k i hi).trans (h i hi)

/-- What is true of both sides of a role given away. -/
theorem vacated_stat (t : Tiu) (i : Nat) : ∃ w, Tiu.vacated t i = { t with stat := w } ∧ RolesOnly t.stat w ∧
    (t.spare = i ∨ t.spare = 3 → fld w 12 2 = 3) := by
  have hset : ∀ lo v, 8 ≤ lo ∧ lo ≤ 12 → RolesOnly t.stat (setFld t.stat lo 2 v) := fun lo v h => setFld_rolesOnly _ _ h
  have hgive : ∀ (b : Bool) (lo : Nat), lo = 8 ∨ lo = 10 → (t.spare = 3 → b = false) →
      ∃ w, (if b then (t.setRole lo t.spare).setRole 12 3 else t.setRole lo 3) = { t with stat := w } ∧ RolesOnly t.stat w ∧ (t.spare = 3 → fld w 12 2 = 3) := by
    intro b lo hlo hb
    cases b
    · refine ⟨_, rfl, hset lo 3 (by omega), fun h => ?_⟩
      rw [fld_setFld_apart _ _ (by omega) (by omega)]
      exact h
    · exact ⟨_, rfl, (hset lo _ (by omega)).trans (setFld_rolesOnly _ _ (by omega)), fun h => Bool.noConfusion (hb h)⟩
  have hready : t.spare = 3 → (match ix 3 t.spare with | some k => t.conv[k].calibrated | none => false) = false := fun h => by
    rw [h]
    rfl
  unfold Tiu.vacated
  dsimp only
  by_cases h1 : t.spare = i
  · rw [if_pos h1]
    exact ⟨_, rfl, hset 12 3 (by omega), fun _ => fld_setFld _ _ (by omega)⟩
  rw [if_neg h1]
  have hw : ∀ w, (t.spare = 3 → fld w 12 2 = 3) → (t.spare = i ∨ t.spare = 3 → fld w 12 2 = 3) := fun w h hx => h (hx.resolve_left h1)
  by_cases h2 : t.launch = i
  · rw [if_pos h2]
    obtain ⟨w, e, r, f⟩ := hgive _ 8 (.inl rfl) hready
    exact ⟨w, e, r, hw w f⟩
  rw [if_neg h2]
  by_cases h3 : t.user = i
  · rw [if_pos h3]
    obtain ⟨w, e, r, f⟩ := hgive _ 10 (.inr rfl) hready
    exact ⟨w, e, r, hw w f⟩
  · rw [if_neg h3]
    exact ⟨_, rfl, fun _ _ => rfl, hw _ id⟩

theorem release_stat (t : Tiu) (i : Nat) : ∃ w, t.release i = { t with stat := w } ∧ RolesOnly t.stat w ∧
    (t.spare = i ∨ t.spare = 3 → fld w 12 2 = 3) := by
  obtain ⟨w, he, hr, hf⟩ := vacated_stat t i
  rw [release_eq, he]
  split
  · refine ⟨_, rfl, (hr.trans (setFld_rolesOnly _ _ (by omega))).trans (setFld_rolesOnly _ _ (by omega)), fun h => ?_⟩
    refine (fld_setFld_apart _ _ (by omega) (by omega)).trans ((fld_setFld_apart _ _ (by omega) (by omega)).trans (hf h))
  · exact ⟨w, rfl, hr, hf⟩

/-- What a converter's retirement or calibration may change. -/
structure ConvWork (s t : State) : Prop where
  only : Only [.tiu, .ports, .boot] s t
  tiu : t.tiu = { s.tiu with stat := t.tiu.stat, conv := t.tiu.conv, run := t.tiu.run, queue := t.tiu.queue }

theorem MeasWork.convWork {s t : State} (h : MeasWork s t) : ConvWork s t := ⟨h.only.mono (by decide), by rw [h.tiu]⟩

theorem ConvWork.trans {s t u : State} (h : ConvWork s t) (k : ConvWork t u) : ConvWork s u := ⟨h.only.trans k.only, by rw [k.tiu, h.tiu]⟩

theorem modTiu_convWork (s : State) (f : Tiu → Tiu) (h : ∃ w c r q, f s.tiu = { s.tiu with stat := w, conv := c, run := r, queue := q }) :
    ConvWork s (s.modTiu f) := by
  obtain ⟨w, c, r, q, he⟩ := h
  exact ⟨(modTiu_only s f).mono (by decide), by rw [State.modTiu_tiu, he]⟩

/-- A retired converter: its bit, its roles, EV190. -/
structure Retires (i : Fin 3) (s t : State) : Prop where
  work : ConvWork s t
  conv : t.tiu.conv = s.tiu.conv
  retired : bit t.tiu.stat (14 + i.val) = true
  kept : ∀ j, j < 8 ∨ 14 ≤ j → j < 20 → j ≠ 14 + i.val → bit t.tiu.stat j = bit s.tiu.stat j
  spare : s.tiu.spare = i.val ∨ s.tiu.spare = 3 → fld t.tiu.stat 12 2 = 3
  pend : s.boot.inReset = false → t.ev.pend.getLsbD 190 = true

theorem retireConv_effect (s : State) (i : Fin 3) : Retires i s (s.retireConv i) := by
  obtain ⟨w, he, hr, hf⟩ := release_stat s.tiu i.val
  have h1 : ConvWork s (s.modTiu fun t => { (t.release i.val) with stat := setBit (t.release i.val).stat (14 + i.val) }) :=
    modTiu_convWork s _ ⟨_, _, _, _, by rw [he]⟩
  have h2 : (s.modTiu fun t => { (t.release i.val) with stat := setBit (t.release i.val).stat (14 + i.val) }).tiu = { s.tiu with
      stat := setBit w (14 + i.val) } := by rw [State.modTiu_tiu, he]
  have h5 : (s.modTiu fun t => { (t.release i.val) with stat := setBit (t.release i.val).stat (14 + i.val) }).boot = s.boot := rfl
  unfold State.retireConv
  dsimp only
  generalize s.modTiu (fun t => { (t.release i.val) with stat := setBit (t.release i.val).stat (14 + i.val) }) = u at h1 h2 h5
  have h3 : ∀ f : Boot → Boot, ConvWork u (u.modBoot f) := fun f => ⟨(modBoot_only u f).mono (by decide), rfl⟩
  have h4 : ∀ f : Boot → Boot, (∀ b, (f b).inReset = b.inReset) → ∀ old,
      MeasWork (u.modBoot f) (((u.modBoot f).raise 190).afterRelease old) ∧
        (u.boot.inReset = false → (((u.modBoot f).raise 190).afterRelease old).ev.pend.getLsbD 190 = true) := fun f hb old => by
    have ha := afterRelease_measWork ((u.modBoot f).raise 190) old
    exact ⟨.trans (.of_only (raise_only _ _)) ha, fun hx => ha.only.pend 190 (raise_after (s := u.modBoot f) ((hb _).trans hx) 190).2⟩
  obtain ⟨k1, k2⟩ := h4 (fun b => { b with retired := { b.retired with verniers := b.retired.verniers ||| (1#8 <<< i.val) } }) (fun _ => rfl) s.tiu.user
  generalize State.afterRelease _ s.tiu.user = t at k1 k2
  have hb : ∀ j, j < 20 → bit t.tiu.stat j = bit (setBit w (14 + i.val)) j := fun j hj => by rw [k1.bits j hj, State.modBoot_tiu, h2]
  refine ⟨(h1.trans (h3 _)).trans k1.convWork, ?_, ?_, fun j h8 h20 hj => ?_, fun hs => ?_, fun hx => k2 (by rw [h5]; exact hx)⟩
  · rw [k1.conv, State.modBoot_tiu, h2]
  · rw [hb _ (by omega)]
    exact bit_setBit_self _ (by omega)
  · rw [hb j h20, bit_setBit_ne _ hj]
    exact hr j h8
  · rw [fld_congr fun j _ hj => hb j (by omega), fld_setBit _ (by omega)]
    exact hf hs

end Sys2Proof.Proofs

/-! SUPPORT. The rotation of the converters (R225), and the time-interval unit's timescale as a whole. -/

namespace Sys2Proof.Proofs
open Sys2Proof Sys2Proof.Machine Sys2Proof.Claims

/-- Converter `i` takes a calibration. -/
def calibrateAt (i : Fin 3) (c : VernierCal) (v : Vector Conv 3) : Vector Conv 3 := v.set i (v[i].calibrate c)

theorem calibrateAt_self (i : Fin 3) (c : VernierCal) (v : Vector Conv 3) : (calibrateAt i c v)[i] = v[i].calibrate c := Vector.getElem_set_self ..
theorem calibrateAt_ne {i j : Fin 3} (h : j ≠ i) (c : VernierCal) (v : Vector Conv 3) : (calibrateAt i c v)[j] = v[j] :=
  Vector.getElem_set_ne _ _ fun hx => h (Fin.ext hx.symm)

/-- What a calibration of converter `i` leaves. -/
structure Calibrates (i : Fin 3) (c : VernierCal) (s t : State) : Prop where
  work : ConvWork s t
  conv : t.tiu.conv = calibrateAt i c s.tiu.conv
  kept : ∀ j, j < 8 ∨ 17 ≤ j → j < 20 → bit t.tiu.stat j = bit s.tiu.stat j
  good : vernierOk c = true → s.tiu.conv[i].returning = false → t.tiu.stat = s.tiu.stat ∧ t.time = s.time
  bad : vernierOk c = false → bit t.tiu.stat (14 + i.val) = true ∧ (s.tiu.spare = i.val ∨ s.tiu.spare = 3 → fld t.tiu.stat 12 2 = 3) ∧
    (s.boot.inReset = false → t.ev.pend.getLsbD 190 = true)

theorem roleTaken (t : Tiu) (i : Nat) : ∃ w, (if t.launch = 3 then t.setRole 8 i else if t.user = 3 then t.setRole 10 i else t.setRole 12 i) =
    { t with stat := w } ∧ RolesOnly t.stat w := by
  split
  · exact ⟨_, rfl, setFld_rolesOnly _ _ (by omega)⟩
  · split
    · exact ⟨_, rfl, setFld_rolesOnly _ _ (by omega)⟩
    · exact ⟨_, rfl, setFld_rolesOnly _ _ (by omega)⟩

theorem convCalibrated_effect (s : State) (i : Fin 3) (c : VernierCal) : Calibrates i c s (s.calibrated i c) := by
  have h1 : ConvWork s (s.modTiu fun t => { t with conv := t.conv.set i (t.conv[i].calibrate c) }) := modTiu_convWork s _ ⟨_, _, _, _, rfl⟩
  have h2 : (s.modTiu fun t => { t with conv := t.conv.set i (t.conv[i].calibrate c) }).tiu = { s.tiu with conv := calibrateAt i c s.tiu.conv } := rfl
  have h3 : (s.modTiu fun t => { t with conv := t.conv.set i (t.conv[i].calibrate c) }).boot = s.boot := rfl
  have h4 : (s.modTiu fun t => { t with conv := t.conv.set i (t.conv[i].calibrate c) }).time = s.time := rfl
  unfold State.calibrated
  dsimp only
  generalize s.modTiu (fun t => { t with conv := t.conv.set i (t.conv[i].calibrate c) }) = u at h1 h2 h3 h4 ⊢
  have hst : u.tiu.stat = s.tiu.stat := by rw [h2]
  have hcv : u.tiu.conv = calibrateAt i c s.tiu.conv := by rw [h2]
  cases hc : vernierOk c
  · rw [if_pos (by rfl)]
    obtain ⟨r1, r2, r3, r4, r5, r6⟩ := retireConv_effect u i
    refine ⟨h1.trans r1, r2.trans hcv, fun j hj hj' => ?_, (nomatch hc.symm.trans ·), fun _ => ⟨r3, fun hs => r5 ?_, fun hx => r6 (by rw [h3]; exact hx)⟩⟩
    · rw [r4 j (by omega) hj' (by omega), hst]
    · rw [show u.tiu.spare = s.tiu.spare from congrArg (fld · 12 2) hst]
      exact hs
  · rw [if_neg (by decide)]
    cases hb : s.tiu.conv[i].returning
    · rw [if_neg (by decide)]
      exact ⟨h1, hcv, fun j _ _ => by rw [hst], fun _ _ => ⟨hst, h4⟩, (nomatch hc.symm.trans ·)⟩
    · rw [if_pos rfl]
      obtain ⟨w, hw, hr⟩ := roleTaken u.tiu i.val
      have k1 : ConvWork u (u.modTiu fun t => if t.launch = 3 then t.setRole 8 i.val else if t.user = 3 then t.setRole 10 i.val else t.setRole 12 i.val) :=
        modTiu_convWork u _ ⟨_, _, _, _, hw⟩
      have k2 : (u.modTiu fun t => if t.launch = 3 then t.setRole 8 i.val else if t.user = 3 then t.setRole 10 i.val else t.setRole 12 i.val).tiu =
        { u.tiu with stat := w } := hw
      generalize (u.modTiu fun t => if t.launch = 3 then t.setRole 8 i.val else if t.user = 3 then t.setRole 10 i.val else t.setRole 12 i.val) = v at k1 k2 ⊢
      have hm := nextMeas_measWork v
      refine ⟨(h1.trans k1).trans hm.convWork, by rw [hm.conv, k2]; exact hcv, fun j hj hj' => ?_, fun _ hx => (nomatch hb.symm.trans hx), (nomatch hc.symm.trans ·)⟩
      rw [hm.bits j hj', k2]
      exact (hr j (by omega)).trans (congrArg (bit · j) hst)

/-! ### The rotation -/

/-- A rotation begins, due at `due`. -/
def rotationDue (due : Time) (s : State) : State := (s.until due).modTiu fun t => { t with lastRotation := due }

/-- The registers' word once converter `i` holds the role at `lo` and the spare's place is empty. -/
def handedStat (lo i : Nat) (w : Word) : Word := clrBit (setFld (setFld w lo 2 i) 12 2 3) 18

/-- The unit once converter `i` holds the role at `lo` and the spare's place is empty. -/
def handed (lo i : Nat) (now : Time) (t : Tiu) : Tiu :=
  let t1 := (t.setRole lo i).setRole 12 3
  { t1 with nextUser := !t.nextUser, rotatedAt := now, stat := clrBit t1.stat 18 }

theorem handed_eq (lo i : Nat) (now : Time) (t : Tiu) :
    handed lo i now t = { t with stat := handedStat lo i t.stat, nextUser := !t.nextUser, rotatedAt := now } := by
  simp only [handed, Tiu.setRole, handedStat]

/-- Converter `i` takes the role at `lo`. -/
def roleHanded (lo : Nat) (i : Fin 3) (s : State) : State := (s.modTiu (handed lo i.val s.time.mono)).raise 189

/-- The former holder of a role is calibrated and becomes the spare. -/
def holderOut (j : Fin 3) (again : VernierCal) (s : State) : State :=
  let s4 := (s.elapse (100 * ms)).calibrated j again
  if vernierOk again then s4.modTiu fun t => t.setRole 12 j.val else s4

/-- The spare, calibrated and compared in shadow. -/
def shadowed (i : Fin 3) (cal : VernierCal) (s : State) : State := ((s.elapse (20 * ms)).calibrated i cal).elapse ms

theorem converterRotation_eq {s : State} {per due : Time} {i : Fin 3} (hper : per = fld s.tiu.ctl 4 12 * 10 * sec) (hp : per ≠ 0)
    (hdue : due = s.tiu.lastRotation + max 1 ((s.time.mono - s.tiu.lastRotation) / per) * per) (hi : fld s.tiu.stat 12 2 = i.val)
    (cal again : VernierCal) (sh : List ShadowEdge) : converterRotation cal sh again s =
      if !(bit s.clk.ckg0 i.val) then ((rotationDue due s).modTiu fun t => { t with stat := setBit t.stat 17 }).aged per
      else if !(vernierOk cal) then (((rotationDue due s).elapse (20 * ms)).calibrated i cal).aged per
      else
        let s1 := ((rotationDue due s).elapse (20 * ms)).calibrated i cal
        let s2 := shadowed i cal (rotationDue due s)
        let lo := if s1.tiu.nextUser then 10 else 8
        if !(shadowAgrees s2.tiu.conv[i] (s2.tiu.convN (fld s1.tiu.stat lo 2)) sh) then (s2.failConv i).aged per
        else match ix 3 (fld s1.tiu.stat lo 2) with
          | none => (roleHanded lo i s2).nextMeas
          | some j => holderOut j again (roleHanded lo i s2) := by
  have hs : ∀ u : State, u.tiu.stat = s.tiu.stat → ix 3 u.tiu.spare = some i := fun u hu => by
    rw [show u.tiu.spare = i.val from (congrArg (fld · 12 2) hu).trans hi]
    exact ix_of_lt i.isLt
  unfold converterRotation
  rw [← hper]
  dsimp only
  rw [if_neg hp, ← hdue]
  rw [hs ((s.until due).modTiu fun t => { t with lastRotation := due }) rfl]
  rfl

theorem aged_eq (s : State) (per : Time) : ∃ w, s.aged per = s.modTiu (fun t => { t with stat := w }) ∧ ∀ i, i ≠ 18 → bit w i = bit s.tiu.stat i := by
  unfold State.aged
  split
  · exact ⟨_, rfl, fun i hi => bit_setBit_ne _ hi⟩
  · exact ⟨s.tiu.stat, rfl, fun _ _ => rfl⟩

theorem failConv_effect (s : State) (i : Fin 3) : (s.failConv i).tiu.conv[i].failures = s.tiu.conv[i].failures + 1 ∧ (s.failConv i).time = s.time ∧
    (1 ≤ s.tiu.conv[i].failures → bit (s.failConv i).tiu.stat (14 + i.val) = true) ∧
    (s.tiu.conv[i].failures = 0 → (s.failConv i).tiu.stat = s.tiu.stat) := by
  have h1 : ∀ c : Conv, (s.modTiu fun t => { t with conv := t.conv.set i c }).tiu.conv[i] = c := fun c => Vector.getElem_set_self ..
  unfold State.failConv
  dsimp only
  by_cases h : 2 ≤ s.tiu.conv[i].failures + 1
  · rw [if_pos h]
    have hr := retireConv_effect (s.modTiu fun t => { t with conv := t.conv.set i { t.conv[i] with failures := s.tiu.conv[i].failures + 1 } }) i
    refine ⟨?_, hr.work.only.time, fun _ => hr.retired, fun h0 => absurd h (by omega)⟩
    rw [hr.conv]
    exact congrArg Conv.failures (h1 _)
  · rw [if_neg h]
    exact ⟨congrArg Conv.failures (h1 _), rfl, fun h0 => absurd h0 (by omega), fun _ => rfl⟩

/-- The spare after its calibration and the comparison, when it passes the calibration and does not come back to use. -/
structure Shadows (i : Fin 3) (cal : VernierCal) (u v : State) : Prop where
  stat : v.tiu.stat = u.tiu.stat
  conv : v.tiu.conv = calibrateAt i cal u.tiu.conv
  nextUser : v.tiu.nextUser = u.tiu.nextUser
  lastRotation : v.tiu.lastRotation = u.tiu.lastRotation
  mono : v.time.mono = u.time.mono + 21 * ms
  inReset : u.boot.inReset = false → v.boot.inReset = false

theorem shadowed_effect {u : State} {i : Fin 3} {cal : VernierCal} (hc : vernierOk cal = true) (hr : u.tiu.conv[i].returning = false) :
    Shadows i cal u (shadowed i cal u) ∧ ((u.elapse (20 * ms)).calibrated i cal).tiu.stat = u.tiu.stat ∧
      ((u.elapse (20 * ms)).calibrated i cal).tiu.nextUser = u.tiu.nextUser := by
  have he : (u.elapse (20 * ms)).calibrated i cal = (u.elapse (20 * ms)).modTiu fun t => { t with conv := t.conv.set i (t.conv[i].calibrate cal) } := by
    unfold State.calibrated
    dsimp only
    rw [if_neg (by rw [hc]; decide), State.elapse_tiu, if_neg (by rw [hr]; decide)]
  unfold shadowed
  rw [he]
  exact ⟨⟨rfl, rfl, rfl, rfl, Nat.add_assoc _ (20 * ms) ms, fun h => h⟩, rfl, rfl⟩

theorem handedStat_fld {lo i : Nat} (hl : lo = 8 ∨ lo = 10) (hi : i < 4) (w : Word) : fld (handedStat lo i w) lo 2 = i ∧ fld (handedStat lo i w) 12 2 = 3 ∧
    fld (handedStat lo i w) (18 - lo) 2 = fld w (18 - lo) 2 ∧ bit (handedStat lo i w) 18 = false := by
  unfold handedStat
  refine ⟨?_, ?_, ?_, bit_clrBit_self ..⟩
  · rw [fld_clrBit _ (by omega), fld_setFld_apart _ _ (by omega) (by omega), fld_setFld _ _ (by omega)]
    exact Nat.mod_eq_of_lt hi
  · exact (fld_clrBit _ (by omega)).trans (fld_setFld _ _ (by omega))
  · rw [fld_clrBit _ (by omega), fld_setFld_apart _ _ (by omega) (by omega), fld_setFld_apart _ _ (by omega) (by omega)]

theorem roleHanded_effect (lo : Nat) (i : Fin 3) (s : State) :
    (roleHanded lo i s).tiu = handed lo i.val s.time.mono s.tiu ∧
    (roleHanded lo i s).time = s.time ∧ (roleHanded lo i s).boot = s.boot ∧
    (s.boot.inReset = false → (roleHanded lo i s).ev.pend.getLsbD 189 = true) := by
  have h : Only [] (s.modTiu (handed lo i.val s.time.mono)) (roleHanded lo i s) := raise_only _ _
  have hb : (s.modTiu (handed lo i.val s.time.mono)).boot = s.boot := State.modTiu_boot ..
  refine ⟨h.tiu, h.time.trans (State.modTiu_time ..), h.boot.trans hb, fun hr => ?_⟩
  exact (raise_after (s := s.modTiu (handed lo i.val s.time.mono)) ((congrArg Boot.inReset hb).trans hr) 189).2

/-- What the former holder's calibration leaves. -/
structure HolderOut (j : Fin 3) (again : VernierCal) (s t : State) : Prop where
  tiu : t.tiu = { s.tiu with stat := t.tiu.stat, conv := calibrateAt j again s.tiu.conv, run := t.tiu.run, queue := t.tiu.queue }
  aged : bit t.tiu.stat 18 = bit s.tiu.stat 18
  pend : ∀ n : EvIx, s.ev.pend.getLsbD n.val = true → t.ev.pend.getLsbD n.val = true
  mono : t.time.mono = s.time.mono + 100 * ms
  good : vernierOk again = true → s.tiu.conv[j].returning = false → t.tiu.stat = setFld s.tiu.stat 12 2 j.val
  bad : vernierOk again = false → bit t.tiu.stat (14 + j.val) = true ∧ (s.tiu.spare = 3 → fld t.tiu.stat 12 2 = 3) ∧
    (s.boot.inReset = false → t.ev.pend.getLsbD 190 = true)

theorem holderOut_effect (j : Fin 3) (again : VernierCal) (s : State) : HolderOut j again s (holderOut j again s) := by
  have hc := convCalibrated_effect (s.elapse (100 * ms)) j again
  unfold holderOut
  dsimp only
  generalize (s.elapse (100 * ms)).calibrated j again = u at hc ⊢
  have htu : u.tiu = { s.tiu with stat := u.tiu.stat, conv := calibrateAt j again s.tiu.conv, run := u.tiu.run, queue := u.tiu.queue } := by
    rw [← show _ = calibrateAt j again s.tiu.conv from hc.conv]
    exact hc.work.tiu
  have htm : u.time.mono = s.time.mono + 100 * ms := congrArg TimeSt.mono hc.work.only.time
  have hpd : ∀ n : EvIx, s.ev.pend.getLsbD n.val = true → u.ev.pend.getLsbD n.val = true := fun n h => hc.work.only.pend n h
  have h18 : bit u.tiu.stat 18 = bit s.tiu.stat 18 := hc.kept 18 (by omega) (by omega)
  cases ha : vernierOk again
  · rw [if_neg (by decide)]
    exact ⟨htu, h18, hpd, htm, (nomatch ha.symm.trans ·), fun _ => ⟨(hc.bad ha).1, fun h => (hc.bad ha).2.1 (.inr h), (hc.bad ha).2.2⟩⟩
  · rw [if_pos rfl]
    refine ⟨?_, ?_, hpd, htm, fun _ hr => ?_, (nomatch ha.symm.trans ·)⟩
    · rw [State.modTiu_tiu, htu]
      rfl
    · exact ((setFld_rolesOnly u.tiu.stat j.val (lo := 12) (by omega)) 18 (by omega)).trans h18
    · exact congrArg (setFld · 12 2 j.val) (hc.good ha hr).1

end Sys2Proof.Proofs

/-! SUPPORT. The rows of the timescale and of the rotation, one by one. -/

namespace Sys2Proof.Proofs
open Sys2Proof Sys2Proof.Machine Sys2Proof.Claims

theorem ppsStateChange_good {s : State} (h3 : bit s.tiu.stat 3 = false) (h0 : bit s.tiu.ctl 0 = true) (h2 : bit s.tiu.stat 2 = true)
    (hn : 3 ≤ s.tiu.ppsRun) : ppsStateChange s = s.setPps true := by
  unfold ppsStateChange
  simp [h3, h0, h2, hn]

theorem ppsStateChange_still {s : State} (h3 : bit s.tiu.stat 3 = false) (h : bit s.tiu.ctl 0 = false ∨ bit s.tiu.stat 2 = false ∨ s.tiu.ppsRun < 3) :
    ppsStateChange s = s := by
  unfold ppsStateChange
  rw [h3, if_pos (by decide)]
  refine if_neg fun hx => ?_
  simp only [Bool.and_eq_true, decide_eq_true_eq] at hx
  obtain ⟨⟨a, b⟩, c⟩ := hx
  rcases h with h | h | h
  · exact Bool.noConfusion (a.symm.trans h)
  · exact Bool.noConfusion (b.symm.trans h)
  · omega

/-- PPS_IN is lost, now or 1.1 s after its last pulse. -/
theorem ppsLost {s u : State} (hr : s.boot.inReset = false) (h3 : bit s.tiu.stat 3 = true) (h1 : s.tiu.ppsRun ≤ 1 → u = s)
    (h2 : 2 ≤ s.tiu.ppsRun → u = s.until (s.tiu.ppsAt + 1100 * ms)) : Completes .ppsStateChange s fun t =>
      bit t.tiu.stat 3 = false ∧ bit t.tiu.stat 6 = true ∧ t.tiu.ppsRun ≤ 1 ∧ t.ev.pend.getLsbD 187 = true ∧ t.settings = s.settings ∧ t.time = u.time := by
  have key : ∀ v t : State, v.boot.inReset = false → bit v.tiu.stat 3 = true → v.tiu.ppsRun ≤ 1 → v.settings = s.settings → v.time = u.time → t = v.setPps false →
      bit t.tiu.stat 3 = false ∧ bit t.tiu.stat 6 = true ∧ t.tiu.ppsRun ≤ 1 ∧ t.ev.pend.getLsbD 187 = true ∧ t.settings = s.settings ∧ t.time = u.time :=
    fun v t a b c d e ht => by
      obtain ⟨ho, p1, p2, p3, -, p4⟩ := setPps_effect (ok := false) a b t ht
      exact ⟨p2, p4 rfl, by rw [p1]; exact c, p3, ho.settings.trans d, ho.time.trans e⟩
  by_cases hn : s.tiu.ppsRun ≤ 1
  · have he : exec .ppsStateChange s = .next (s.setPps false) := by
      refine congrArg Host.Outcome.next ?_
      unfold ppsStateChange
      rw [h3, if_neg (by decide), if_pos hn]
    exact ⟨_, he, key s _ hr h3 hn rfl (by rw [h1 hn]) rfl⟩
  · have hu := h2 (by omega)
    have he : exec .ppsStateChange s = .next ((u.modTiu fun t => { t with ppsRun := 0 }).setPps false) := by
      refine congrArg Host.Outcome.next ?_
      unfold ppsStateChange
      rw [h3, if_neg (by decide), if_neg hn, hu]
    have hv : u.boot.inReset = false ∧ u.tiu = s.tiu ∧ u.settings = s.settings := by
      rw [hu, State.until_boot, State.until_tiu, State.until_settings]
      exact ⟨hr, rfl, rfl⟩
    exact ⟨_, he, key (u.modTiu fun t => { t with ppsRun := 0 }) _ hv.1 ((congrArg (bit · 3) (congrArg Tiu.stat hv.2.1)).trans h3) (Nat.zero_le _) hv.2.2 rfl rfl⟩

/-! ### The timescale -/

theorem wanted_eq (t : Tiu) : t.wanted = if bit t.ctl 0 = false ∨ bit t.stat 2 = false then 0
    else if bit t.stat 3 then (if fld t.stat 0 2 = 1 ∨ t.ppsNear = true then 1 else 0)
    else if fld t.stat 0 2 ≠ 0 then 2 else 0 := by
  unfold Tiu.wanted Tiu.tb
  cases bit t.ctl 0 <;> cases bit t.stat 2 <;> simp

theorem wanted_lt (t : Tiu) : t.wanted < 4 := by
  rw [wanted_eq]
  repeat' split
  all_goals omega

theorem timescaleChanges {s u : State} (hr : s.boot.inReset = false) (hw : s.tiu.wanted ≠ fld s.tiu.stat 0 2) (h1 : s.tiu.gateOpen = false → u = s)
    (h2 : s.tiu.gateOpen = true → bit s.tiu.stat 4 = true ∧ u = s.until (s.tiu.holdSince + sec)) : Completes .timescaleChange s fun t =>
      fld t.tiu.stat 0 2 = s.tiu.wanted ∧ bit t.tiu.stat 7 = true ∧ bit t.tiu.stat 4 = false ∧ t.ev.pend.getLsbD 188 = true ∧ t.time = u.time ∧
        t.settings = s.settings ∧ t.tiu.conv = s.tiu.conv ∧ t.tiu.queue = s.tiu.queue := by
  have hx : exec .timescaleChange s = .next (u.setTimescale s.tiu.wanted) := by
    refine congrArg Host.Outcome.next ?_
    unfold timescaleChange
    dsimp only
    rw [if_neg (show ¬s.tiu.wanted = s.tiu.tb from hw)]
    cases hg : s.tiu.gateOpen
    · rw [if_pos (by rfl), h1 hg]
    · rw [if_neg (by decide), if_pos (h2 hg).1, ← (h2 hg).2]
  have hu : u.boot = s.boot ∧ u.tiu = s.tiu ∧ u.settings = s.settings := by
    cases hg : s.tiu.gateOpen
    · rw [h1 hg]
      exact ⟨rfl, rfl, rfl⟩
    · rw [(h2 hg).2, State.until_boot, State.until_tiu, State.until_settings]
      exact ⟨rfl, rfl, rfl⟩
  obtain ⟨u1, u2, u3⟩ := hu
  obtain ⟨k1, k2, k3⟩ := setTimescale_effect u s.tiu.wanted
  obtain ⟨b1, b2, b3⟩ := scaled_fld (wanted_lt s.tiu) u.tiu.stat
  refine ⟨_, hx, by rw [k2]; exact b1, by rw [k2]; exact b2, by rw [k2]; exact b3, k3 ((congrArg (·.inReset) u1).trans hr), k1.only.time,
    k1.only.settings.trans u3, ?_, ?_⟩
  · rw [k1.tiu, u2]
  · rw [k1.tiu, u2]

theorem timescaleChange_still {s : State} (h : s.tiu.wanted = fld s.tiu.stat 0 2 ∨ (s.tiu.gateOpen = true ∧ bit s.tiu.stat 4 = false)) :
    timescaleChange s = s := by
  unfold timescaleChange
  dsimp only
  by_cases hw : s.tiu.wanted = s.tiu.tb
  · rw [if_pos hw]
  · rw [if_neg hw]
    obtain ⟨h1, h2⟩ := h.resolve_left hw
    rw [h1, if_neg (by decide), h2]
    rfl

/-! ### The rotation, case by case -/

/-- A rotation that comes to its spare: what the next cases share. -/
structure Rotates (per due : Time) (i : Fin 3) (s u : State) : Prop where
  per_eq : per = fld s.tiu.ctl 4 12 * 10 * sec
  per_ne : per ≠ 0
  due_eq : due = s.tiu.lastRotation + max 1 ((s.time.mono - s.tiu.lastRotation) / per) * per
  spare : fld s.tiu.stat 12 2 = i.val
  back : s.tiu.conv[i].returning = false
  started : u = rotationDue due s

/-- What stands when the rotation begins. -/
structure Begun (due : Time) (s u : State) : Prop where
  tiu : u.tiu = { s.tiu with lastRotation := due }
  boot : u.boot = s.boot
  mono : u.time.mono = max s.time.mono due

theorem rotationDue_begun (due : Time) (s : State) : Begun due s (rotationDue due s) := ⟨rfl, rfl, until_mono ..⟩

section
variable {per due : Time} {i : Fin 3} {s u : State} (hR : Rotates per due i s u) {cal again : VernierCal} {sh : List ShadowEdge}
include hR

theorem Rotates.begun : Begun due s u := hR.started ▸ rotationDue_begun due s

theorem Rotates.stat : u.tiu.stat = s.tiu.stat := by rw [hR.begun.tiu]
theorem Rotates.conv : u.tiu.conv = s.tiu.conv := by rw [hR.begun.tiu]
theorem Rotates.convBack : u.tiu.conv[i].returning = false := by rw [hR.conv]; exact hR.back

theorem rotation_gated (hc : bit s.clk.ckg0 i.val = false) : Completes (.converterRotation cal sh again) s fun t => bit t.tiu.stat 17 = true ∧
    t.time.mono = max s.time.mono due ∧ t.tiu.conv = s.tiu.conv ∧ t.tiu.lastRotation = due := by
  have he := converterRotation_eq hR.per_eq hR.per_ne hR.due_eq hR.spare cal again sh
  rw [hc, if_pos (by rfl), ← hR.started] at he
  obtain ⟨w, hw, hb⟩ := aged_eq (u.modTiu fun t => { t with stat := setBit t.stat 17 }) per
  rw [hw] at he
  refine ⟨_, congrArg Host.Outcome.next he, ?_, hR.begun.mono, ?_, ?_⟩
  · exact (hb 17 (by omega)).trans (bit_setBit_self _ (by omega))
  · exact hR.conv
  · exact (congrArg Tiu.lastRotation hR.begun.tiu)

theorem rotation_calFails (hr : s.boot.inReset = false) (hc : bit s.clk.ckg0 i.val = true) (hv : vernierOk cal = false) :
    Completes (.converterRotation cal sh again) s fun t =>
      bit t.tiu.stat (14 + i.val) = true ∧ fld t.tiu.stat 12 2 ≠ i.val ∧ t.ev.pend.getLsbD 190 = true ∧ t.tiu.conv[i].calibrated = false ∧
        t.time.mono = max s.time.mono due + 20 * ms := by
  have he := converterRotation_eq hR.per_eq hR.per_ne hR.due_eq hR.spare cal again sh
  rw [hc, if_neg (by decide), hv, if_pos (by rfl), ← hR.started] at he
  have hk := convCalibrated_effect (u.elapse (20 * ms)) i cal
  generalize (u.elapse (20 * ms)).calibrated i cal = v at hk he
  obtain ⟨w, hw, hb⟩ := aged_eq v per
  rw [hw] at he
  obtain ⟨b1, b2, b3⟩ := hk.bad hv
  refine ⟨_, congrArg Host.Outcome.next he, ?_, ?_, ?_, ?_, ?_⟩
  · exact (hb _ (by omega)).trans b1
  · show fld w 12 2 ≠ _
    rw [fld_congr fun j _ hj => hb j (by omega), b2 (.inl ((congrArg (fld · 12 2) hR.stat).trans hR.spare))]
    omega
  · exact b3 ((congrArg (·.inReset) hR.begun.boot).trans hr)
  · show v.tiu.conv[i].calibrated = false
    rw [hk.conv, calibrateAt_self]
    exact hv
  · show v.time.mono = _
    rw [hk.work.only.time, ← hR.begun.mono]
    rfl

/-- The spare's shadow, once it has passed its calibration. -/
theorem rotation_shadow (hv : vernierOk cal = true) : ∃ v, v = shadowed i cal u ∧ Shadows i cal u v := ⟨_, rfl, (shadowed_effect hv hR.convBack).1⟩

theorem rotation_eq {lo out : Nat} (hc : bit s.clk.ckg0 i.val = true) (hv : vernierOk cal = true) (hlo : lo = if s.tiu.nextUser then 10 else 8)
    (hout : out = fld s.tiu.stat lo 2) (hne : out ≠ i.val) : converterRotation cal sh again s =
      if !(shadowAgrees (s.tiu.conv[i].calibrate cal) (s.tiu.convN out) sh) then ((shadowed i cal u).failConv i).aged per
      else match ix 3 out with
        | none => (roleHanded lo i (shadowed i cal u)).nextMeas
        | some j => holderOut j again (roleHanded lo i (shadowed i cal u)) := by
  have he := converterRotation_eq hR.per_eq hR.per_ne hR.due_eq hR.spare cal again sh
  obtain ⟨hs, h1, h2⟩ := shadowed_effect (u := u) (i := i) hv hR.convBack
  rw [hc, if_neg (by decide), hv, if_neg (by decide), ← hR.started] at he
  have hn : u.tiu.nextUser = s.tiu.nextUser := by rw [hR.begun.tiu]
  have hlo' : (if ((u.elapse (20 * ms)).calibrated i cal).tiu.nextUser then 10 else 8) = lo := by rw [h2, hn, hlo]
  have hout' : fld ((u.elapse (20 * ms)).calibrated i cal).tiu.stat lo 2 = out := by rw [h1, hR.stat, hout]
  dsimp only at he
  rw [hlo', hout'] at he
  have hci : (shadowed i cal u).tiu.conv[i] = s.tiu.conv[i].calibrate cal := by rw [hs.conv, calibrateAt_self, hR.conv]
  have hco : (shadowed i cal u).tiu.convN out = s.tiu.convN out := by
    unfold Tiu.convN
    cases hx : ix 3 out with
    | none => rfl
    | some k =>
      have hk : k.val = out := by
        unfold ix at hx
        split at hx
        · exact (congrArg Fin.val (Option.some.inj hx)).symm
        · exact nomatch hx
      show (shadowed i cal u).tiu.conv[k] = s.tiu.conv[k]
      rw [hs.conv, calibrateAt_ne (fun hki => hne (by rw [← hk, hki])), hR.conv]
  rw [hci, hco] at he
  exact he

theorem rotation_shadowFails {lo out : Nat} (hc : bit s.clk.ckg0 i.val = true) (hv : vernierOk cal = true) (hlo : lo = if s.tiu.nextUser then 10 else 8)
    (hout : out = fld s.tiu.stat lo 2) (hne : out ≠ i.val) (hsh : shadowAgrees (s.tiu.conv[i].calibrate cal) (s.tiu.convN out) sh = false) :
    Completes (.converterRotation cal sh again) s fun t =>
      t.tiu.conv[i].failures = s.tiu.conv[i].failures + 1 ∧ (1 ≤ s.tiu.conv[i].failures → bit t.tiu.stat (14 + i.val) = true) ∧
      (s.tiu.conv[i].failures = 0 → fld t.tiu.stat 8 6 = fld s.tiu.stat 8 6) ∧ t.time.mono = max s.time.mono due + 21 * ms := by
  have he := rotation_eq hR (again := again) (sh := sh) hc hv hlo hout hne
  rw [hsh, if_pos (by rfl)] at he
  obtain ⟨v, hve, hs⟩ := rotation_shadow hR hv
  rw [← hve] at he
  have hf := failConv_effect v i
  have hfl : v.tiu.conv[i].failures = s.tiu.conv[i].failures := by
    rw [hs.conv, calibrateAt_self, hR.conv]
    rfl
  rw [hfl] at hf
  generalize v.failConv i = x at hf he
  obtain ⟨f1, f2, f3, f4⟩ := hf
  obtain ⟨w, hw, hb⟩ := aged_eq x per
  rw [hw] at he
  refine ⟨_, congrArg Host.Outcome.next he, f1, fun h => (hb _ (by omega)).trans (f3 h), fun h => ?_, ?_⟩
  · refine (fld_congr fun j _ hj => hb j (by omega)).trans ?_
    rw [f4 h, hs.stat, hR.stat]
  · show x.time.mono = _
    rw [f2, hs.mono, hR.begun.mono]

/-- The role is handed over: what both ways to go on share. -/
theorem rotation_handed {lo out : Nat} (hr : s.boot.inReset = false) (hc : bit s.clk.ckg0 i.val = true) (hv : vernierOk cal = true)
    (hlo : lo = if s.tiu.nextUser then 10 else 8) (hout : out = fld s.tiu.stat lo 2) (hne : out ≠ i.val)
    (hsh : shadowAgrees (s.tiu.conv[i].calibrate cal) (s.tiu.convN out) sh = true) : Completes (.converterRotation cal sh again) s fun t =>
      t.ev.pend.getLsbD 189 = true ∧ t.tiu.nextUser = (!s.tiu.nextUser) ∧ t.tiu.conv[i].calibrated = true ∧ t.tiu.lastRotation = due ∧
        t.tiu.rotatedAt = max s.time.mono due + 21 * ms ∧ bit t.tiu.stat 18 = false ∧
        (out = 3 → fld t.tiu.stat lo 2 = i.val ∧ fld t.tiu.stat 12 2 = 3 ∧ t.time.mono = max s.time.mono due + 21 * ms) ∧
        (∀ j : Fin 3, out = j.val → s.tiu.conv[j].returning = false → t.time.mono = max s.time.mono due + 121 * ms ∧
          (vernierOk again = true → fld t.tiu.stat lo 2 = i.val ∧ fld t.tiu.stat 12 2 = j.val ∧
            fld t.tiu.stat (18 - lo) 2 = fld s.tiu.stat (18 - lo) 2 ∧ t.tiu.conv[j].calibrated = true) ∧
          (vernierOk again = false → bit t.tiu.stat (14 + j.val) = true ∧ fld t.tiu.stat 12 2 = 3 ∧ t.ev.pend.getLsbD 190 = true)) := by
  have he := rotation_eq hR (again := again) (sh := sh) hc hv hlo hout hne
  rw [hsh, if_neg (by decide)] at he
  obtain ⟨v, hve, hs⟩ := rotation_shadow hR hv
  rw [← hve] at he
  obtain ⟨r1, r2, r3, r4⟩ := roleHanded_effect lo i v
  generalize roleHanded lo i v = x at r1 r2 r3 r4 he
  rw [handed_eq] at r1
  have hl : lo = 8 ∨ lo = 10 := by
    rw [hlo]
    cases s.tiu.nextUser
    · exact .inl rfl
    · exact .inr rfl
  obtain ⟨w1, w2, w3, w4⟩ := handedStat_fld hl (lt_trans i.isLt (by omega)) v.tiu.stat
  have hp : x.ev.pend.getLsbD 189 = true := r4 (hs.inReset ((congrArg (·.inReset) hR.begun.boot).trans hr))
  have hn : x.tiu.nextUser = !s.tiu.nextUser := by rw [r1, hs.nextUser, hR.begun.tiu]
  have hcv : x.tiu.conv = calibrateAt i cal s.tiu.conv := by rw [r1, hs.conv, hR.conv]
  have hla : x.tiu.lastRotation = due := by rw [r1, hs.lastRotation, hR.begun.tiu]
  have hm : v.time.mono = max s.time.mono due + 21 * ms := by rw [hs.mono, hR.begun.mono]
  have hra : x.tiu.rotatedAt = max s.time.mono due + 21 * ms := by rw [r1]; exact hm
  have hxm : x.time.mono = max s.time.mono due + 21 * ms := by rw [r2]; exact hm
  have hst : x.tiu.stat = handedStat lo i.val v.tiu.stat := by rw [r1]
  have hrs : x.boot.inReset = false := by rw [r3]; exact hs.inReset ((congrArg (·.inReset) hR.begun.boot).trans hr)
  rw [← hst] at w1 w2 w3 w4
  by_cases h3 : out = 3
  · rw [ix_of_le (by omega)] at he
    have hw := nextMeas_measWork x
    refine ⟨_, congrArg Host.Outcome.next he, hw.only.pend 189 hp, by rw [hw.tiu]; exact hn, ?_, by rw [hw.tiu]; exact hla, by rw [hw.tiu]; exact hra,
      (hw.bits 18 (by omega)).trans w4, fun _ => ⟨(hw.role (by omega)).trans w1, (hw.role (by omega)).trans w2, by rw [hw.only.time]; exact hxm⟩, fun j hj => ?_⟩
    · rw [hw.conv, hcv, calibrateAt_self]
      exact hv
    · omega
  · have hj3 : out < 3 := by
      have := fld_lt s.tiu.stat lo 2
      omega
    rw [ix_of_lt hj3] at he
    dsimp only at he
    have hne' : i ≠ ⟨out, hj3⟩ := fun h => hne (congrArg Fin.val h).symm
    have hh := holderOut_effect ⟨out, hj3⟩ again x
    generalize holderOut ⟨out, hj3⟩ again x = t at hh he
    have htc : t.tiu.conv = calibrateAt ⟨out, hj3⟩ again x.tiu.conv := by rw [hh.tiu]
    refine ⟨_, congrArg Host.Outcome.next he, hh.pend 189 hp, by rw [hh.tiu]; exact hn, ?_, by rw [hh.tiu]; exact hla, by rw [hh.tiu]; exact hra,
      hh.aged.trans w4, fun h => absurd h h3, fun j hj hb => ?_⟩
    · rw [htc, calibrateAt_ne hne', hcv, calibrateAt_self]
      exact hv
    · have hje : (⟨out, hj3⟩ : Fin 3) = j := Fin.ext hj
      rw [hje] at hh htc hne'
      have hbk : x.tiu.conv[j].returning = false := by rw [hcv, calibrateAt_ne hne'.symm]; exact hb
      refine ⟨?_, fun ha => ?_, fun ha => ?_⟩
      · rw [hh.mono, hxm]
        exact (Nat.add_assoc _ (21 * ms) (100 * ms)).trans (congrArg _ (Nat.add_mul 21 100 ms).symm)
      · rw [hh.good ha hbk]
        refine ⟨(fld_setFld_apart _ _ (by omega) (by omega)).trans w1, (fld_setFld _ _ (by omega)).trans (Nat.mod_eq_of_lt (lt_trans j.isLt (by omega))),
          (fld_setFld_apart _ _ (by omega) (by omega)).trans (by rw [w3, hs.stat, hR.stat]), ?_⟩
        rw [htc, calibrateAt_self]
        exact ha
      · obtain ⟨b1, b2, b3⟩ := hh.bad ha
        exact ⟨b1, b2 w2, b3 hrs⟩

end

/-! ### The period of the anchors -/

theorem anchorDue {s u : State} {p : PortIx} (h1 : s.settings.port p.val 0x1507 ≠ 0) (h2 : s.settings.mode p.val 2 = true)
    (hu : u = s.until (s.ports[p].delay.anchorAt + s.settings.port p.val 0x1507 * sec)) : exec (.anchorPeriodExpiry p) s =
      .next ((u.modPort p fun q => { q with delay := { q.delay with anchorAt := u.time.mono } }).queueAnchor p.val) := by
  refine congrArg Host.Outcome.next ?_
  unfold anchorPeriodExpiry
  dsimp only
  rw [if_neg (by rw [h2]; simp [h1]), ← hu]

/-- An anchor that is due. -/
theorem anchorDue_effect {s u : State} {p : PortIx} (hr : s.boot.inReset = false) (h1 : s.settings.port p.val 0x1507 ≠ 0)
    (h2 : s.settings.mode p.val 2 = true) (hu : u = s.until (s.ports[p].delay.anchorAt + s.settings.port p.val 0x1507 * sec)) :
    (s.settings.port p.val 0x1501 ≠ 1 → Completes (.anchorPeriodExpiry p) s fun t =>
      t = u.modPort p fun q => { q with delay := { q.delay with anchorAt := u.time.mono } }) ∧
    (s.settings.port p.val 0x1501 = 1 → Completes (.anchorPeriodExpiry p) s fun t => t.time = u.time ∧
      t.ports[p].delay.anchorAt = u.time.mono ∧
      (fld s.tiu.stat 10 2 ≠ 3 → ∃ m : MeasReq, m.anchorPort = some p.val ∧ (t.tiu.run.map (·.req) = some m ∨ m ∈ t.tiu.queue)) ∧
      (fld s.tiu.stat 10 2 = 3 → t.tiu.queue = [] ∧ t.ev.pend.getLsbD 191 = true)) := by
  have hx := anchorDue h1 h2 hu
  have hv : ∀ f : Port → Port, (u.modPort p f).settings = s.settings ∧ (u.modPort p f).tiu = s.tiu ∧ (u.modPort p f).boot.inReset = false := fun f => by
    rw [State.modPort_settings, State.modPort_tiu, State.modPort_boot, hu, State.until_settings, State.until_tiu, State.until_boot]
    exact ⟨rfl, rfl, hr⟩
  obtain ⟨v1, v2, v3⟩ := hv fun q => { q with delay := { q.delay with anchorAt := u.time.mono } }
  have ha : (u.modPort p fun q => { q with delay := { q.delay with anchorAt := u.time.mono } }).ports[p].delay.anchorAt = u.time.mono := by
    rw [modPort_at, if_pos rfl]
  have ht : (u.modPort p fun q => { q with delay := { q.delay with anchorAt := u.time.mono } }).time = u.time := State.modPort_time ..
  refine ⟨fun hs => ⟨_, hx, ?_⟩, fun hs => ⟨_, hx, ?_⟩⟩
  · refine if_neg fun hc => ?_
    rw [v1, Bool.and_eq_true, beq_iff_eq] at hc
    exact hs hc.2
  · generalize (u.modPort p fun q => { q with delay := { q.delay with anchorAt := u.time.mono } }) = v at v1 v2 v3 ha ht hx ⊢
    have hm : v.settings.mode p.val 2 = true := by rw [v1]; exact h2
    have hs' : v.settings.port p.val 0x1501 = 1 := by rw [v1]; exact hs
    obtain ⟨k1, k2⟩ := anchorAsked_effect hm hs' v3
    have hus : v.tiu.user = fld s.tiu.stat 10 2 := by rw [v2]; rfl
    rw [hus] at k1 k2
    refine ⟨(queueAnchor_effect v p.val).1.time.trans ht, ?_, k1, k2⟩
    rw [queueAnchor_eq hm hs']
    have hw := (nextMeas_measWork (anchorAsked v p.val)).trans (cancelAll_measWork _)
    rw [hw.anchorAt p]
    exact ha

/-- REF10 without an edge for 200 ns, and as long again as `d`. -/
theorem silence_effect {u : State} (hr : u.boot.inReset = false) (d : Time) :
    (((u.modTiu fun t => { t with refRun := 0 }).setRef10 false).elapse d).time = (u.elapse d).time ∧
    (((u.modTiu fun t => { t with refRun := 0 }).setRef10 false).elapse d).settings = u.settings ∧
    (((u.modTiu fun t => { t with refRun := 0 }).setRef10 false).elapse d).tiu.refRun = 0 ∧
    bit (((u.modTiu fun t => { t with refRun := 0 }).setRef10 false).elapse d).tiu.stat 2 = false ∧
    (bit u.tiu.stat 2 = true → bit (((u.modTiu fun t => { t with refRun := 0 }).setRef10 false).elapse d).tiu.stat 5 = true ∧
      (((u.modTiu fun t => { t with refRun := 0 }).setRef10 false).elapse d).ev.pend.getLsbD 186 = true) := by
  obtain ⟨k1, k2, k3, k4, -⟩ := setRef10_effect (s := u.modTiu fun t => { t with refRun := 0 }) hr false _ rfl
  exact ⟨elapse_time_congr k1.time _, k1.settings, k2, k3, k4 rfl⟩

/-- Settles O45: REF10 and PPS_IN by their windows and pulses, the timescale by what they call for, the rotation by its cases, and the anchors' period. -/
theorem timescaleAndConvertersChange : Obligations.TimescaleAndConvertersChange := by
  unfold Obligations.TimescaleAndConvertersChange
  intro s hr
  refine ⟨⟨rfl, fun hz l => ⟨_, rfl, rfl⟩, fun hz hg => ⟨_, rfl, ?_⟩, fun hz hg => ⟨_, rfl, ?_⟩, fun len h => congrArg Host.Outcome.next (if_pos h), fun len h => ?_⟩,
    fun h3 => ⟨fun h0 h2 hn => ?_, fun h => congrArg Host.Outcome.next (ppsStateChange_still h3 h)⟩, fun u h3 h1 h2 => ppsLost hr h3 h1 h2, fun w hw => ?_,
    fun h0 cal sh again => congrArg Host.Outcome.next (if_pos (by rw [h0]; rfl)), fun i per due cal again sh hper hp hdue hsp hb => ?_,
    fun p => ⟨fun h => congrArg Host.Outcome.next (if_pos ?_), fun u h1 h2 hu => anchorDue_effect hr h1 h2 hu⟩⟩
  · obtain ⟨h1, h2, -⟩ := refWindow_effect hr hz
    obtain ⟨a, b, c⟩ := h2 hg
    exact ⟨h1.time, h1.settings, a, b, c⟩
  · obtain ⟨h1, -, h2⟩ := refWindow_effect hr hz
    obtain ⟨a, b, c⟩ := h2 hg
    exact ⟨h1.time, h1.settings, a, b, c⟩
  · refine ⟨_, congrArg Host.Outcome.next (if_neg (Nat.not_lt.2 h)), ?_⟩
    have hu : (s.elapse (200 * ns)).boot.inReset = false ∧ (s.elapse (200 * ns)).settings = s.settings ∧ (s.elapse (200 * ns)).tiu = s.tiu := by
      rw [State.elapse_boot, State.elapse_settings, State.elapse_tiu]
      exact ⟨hr, rfl, rfl⟩
    generalize s.elapse (200 * ns) = u at hu ⊢
    obtain ⟨u1, u2, u3⟩ := hu
    rw [← u3, ← u2]
    exact silence_effect u1 (len - 200 * ns)
  · have hk := setPps_effect hr (ok := true) h3 _ rfl
    refine ⟨_, congrArg Host.Outcome.next (ppsStateChange_good h3 h0 h2 hn), ?_⟩
    obtain ⟨k1, -, k2, k3, k4, -⟩ := hk
    exact ⟨k2, k4 rfl, k3, k1.settings, k1.time⟩
  · have he : w = s.tiu.wanted := hw.trans (wanted_eq s.tiu).symm
    subst he
    exact ⟨fun h => congrArg Host.Outcome.next (timescaleChange_still h), fun u h h1 h2 => timescaleChanges hr h h1 h2⟩
  · have hR : Rotates per due i s (rotationDue due s) := ⟨hper, hp, hdue, hsp, hb, rfl⟩
    exact ⟨rotation_gated hR, rotation_calFails hR hr, fun lo out hc hv hlo hout hne => ⟨rotation_shadowFails hR hc hv hlo hout hne,
      rotation_handed hR hr hc hv hlo hout hne⟩⟩
  · rcases h with h | h
    · exact .inl h
    · exact .inr (by rw [h]; rfl)

end Sys2Proof.Proofs

/-! SUPPORT. A measurement's course (R228 to R234): its edges and results, its gate, its end. -/

namespace Sys2Proof.Proofs
open Sys2Proof Sys2Proof.Machine Sys2Proof.Claims

/-! ### Stops find their starts -/

theorem pair_found {q : MeasRun} {x a : Int} (h : (q.starts.filter fun y => decide (y.1 ≤ x + 1048)).getLast? = some (a, false))
    (hx : x ≤ a + q.req.par 11 0 * ns) :
    (q.pair x).results = q.results ++ [(q.results.length, x - a - q.req.par 14 0)] ∧ (q.pair x).orphan = q.orphan := by
  unfold MeasRun.pair
  rw [h]
  dsimp only
  rw [if_neg (show ¬(a + q.req.maxInt < x) from not_lt.2 hx)]
  exact ⟨rfl, rfl⟩

theorem pair_late {q : MeasRun} {x a : Int} (h : (q.starts.filter fun y => decide (y.1 ≤ x + 1048)).getLast? = some (a, false))
    (hx : a + q.req.par 11 0 * ns < x) : q.pair x = { q with orphan := q.orphan + 1 } := by
  unfold MeasRun.pair
  rw [h]
  exact if_pos hx

theorem pair_orphan {q : MeasRun} {x : Int} (h : ∀ a, (q.starts.filter fun y => decide (y.1 ≤ x + 1048)).getLast? ≠ some (a, false)) :
    q.pair x = { q with orphan := q.orphan + 1 } := by
  unfold MeasRun.pair
  split
  · rename_i a hx
    exact absurd hx (h a)
  · rfl

/-! ### What pairing and offering an edge leave alone -/

/-- The parts of a measurement that its edges do not change. -/
structure SameGate (q r : MeasRun) : Prop where
  req : r.req = q.req
  isOpen : r.isOpen = q.isOpen
  gateAt : r.gateAt = q.gateAt
  gateLen : r.gateLen = q.gateLen

theorem SameGate.refl (q : MeasRun) : SameGate q q := ⟨rfl, rfl, rfl, rfl⟩
theorem SameGate.trans {p q r : MeasRun} (h : SameGate p q) (k : SameGate q r) : SameGate p r :=
  ⟨k.req.trans h.req, k.isOpen.trans h.isOpen, k.gateAt.trans h.gateAt, k.gateLen.trans h.gateLen⟩

theorem pair_gate (q : MeasRun) (x : Int) : SameGate q (q.pair x) ∧ (q.pair x).done = q.done := by
  unfold MeasRun.pair
  split
  · split
    · exact ⟨⟨rfl, rfl, rfl, rfl⟩, rfl⟩
    · exact ⟨⟨rfl, rfl, rfl, rfl⟩, rfl⟩
  · exact ⟨⟨rfl, rfl, rfl, rfl⟩, rfl⟩

theorem settle_gate (q : MeasRun) (now : Option Int) : SameGate q (q.settle now) ∧ (q.settle now).done = q.done := by
  have h : ∀ (l : List Int) (u : MeasRun), SameGate u (l.foldl (fun u t => if u.results.length < q.req.nMax then u.pair t else u) u) ∧
      (l.foldl (fun u t => if u.results.length < q.req.nMax then u.pair t else u) u).done = u.done := by
    intro l
    induction l with
    | nil => exact fun u => ⟨.refl u, rfl⟩
    | cons a l ih =>
      intro u
      rw [List.foldl_cons]
      obtain ⟨h1, h2⟩ := ih (if u.results.length < q.req.nMax then u.pair a else u)
      by_cases hx : u.results.length < q.req.nMax
      · rw [if_pos hx] at h1 h2 ⊢
        exact ⟨(pair_gate u a).1.trans h1, h2.trans (pair_gate u a).2⟩
      · rw [if_neg hx] at h1 h2 ⊢
        exact ⟨h1, h2⟩
  obtain ⟨h1, h2⟩ := h (q.stops.filter fun t => match now with | some v => decide (t + 1048 < v) | none => true) q
  exact ⟨⟨h1.req, h1.isOpen, h1.gateAt, h1.gateLen⟩, h2⟩

/-- The measurement with one more edge counted. -/
def counts (q : MeasRun) (stopCh : Bool) (n : Nat) : MeasRun := if stopCh then { q with edgesB := n } else { q with edgesA := n }

theorem counts_gate (q : MeasRun) (b : Bool) (n : Nat) : SameGate q (counts q b n) ∧ (counts q b n).done = q.done ∧
    (counts q b n).lastA = q.lastA ∧ (counts q b n).lastB = q.lastB := by
  cases b
  · exact ⟨⟨rfl, rfl, rfl, rfl⟩, rfl, rfl, rfl⟩
  · exact ⟨⟨rfl, rfl, rfl, rfl⟩, rfl, rfl, rfl⟩

/-- The edge of number `k` at the channel, once what could be paired is: `r` was there before, `r1` after. -/
def channelled (mode : Nat) (last : Option Int) (stopCh : Bool) (k : Nat) (raw stamp : Int) (r1 : MeasRun) : MeasRun :=
  if inDead last raw then
    { r1 with dead := r1.dead + 1, lostAt := r1.lostAt ++ [stamp], flags := if mode = 2 then r1.flags ||| 0x004 else r1.flags }
  else if stopCh then { r1 with lastB := some raw, stops := r1.stops ++ [stamp] }
  else if mode = 1 then { r1 with lastA := some raw, starts := r1.starts ++ [(stamp, false)], nStarts := r1.nStarts + 1 }
  else { r1 with lastA := some raw, results := r1.results ++ [(k, stamp)] }

/-- A measurement that has its last result takes no more. -/
def enough (nMax : Nat) (tClose : Time) (stamp : Int) (r2 : MeasRun) : MeasRun :=
  if r2.results.length ≥ nMax then { r2 with done := true, tClose := max tClose stamp.toNat } else r2

theorem channelled_gate (m : Nat) (last : Option Int) (b : Bool) (k : Nat) (raw x : Int) (r : MeasRun) :
    SameGate r (channelled m last b k raw x r) ∧ (channelled m last b k raw x r).done = r.done := by
  unfold channelled
  split
  · exact ⟨⟨rfl, rfl, rfl, rfl⟩, rfl⟩
  · split
    · exact ⟨⟨rfl, rfl, rfl, rfl⟩, rfl⟩
    · split
      · exact ⟨⟨rfl, rfl, rfl, rfl⟩, rfl⟩
      · exact ⟨⟨rfl, rfl, rfl, rfl⟩, rfl⟩

theorem enough_gate (m : Nat) (t : Time) (x : Int) (r : MeasRun) : SameGate r (enough m t x r) ∧ (enough m t x r).dead = r.dead ∧ (enough m t x r).results = r.results ∧
    (enough m t x r).starts = r.starts ∧ (enough m t x r).stops = r.stops ∧ (enough m t x r).nStarts = r.nStarts ∧
    (r.done = false → ((enough m t x r).done = true ↔ m ≤ r.results.length)) := by
  unfold enough
  split
  · rename_i h
    exact ⟨⟨rfl, rfl, rfl, rfl⟩, rfl, rfl, rfl, rfl, rfl, fun _ => ⟨fun _ => h, fun _ => rfl⟩⟩
  · rename_i h
    exact ⟨⟨rfl, rfl, rfl, rfl⟩, rfl, rfl, rfl, rfl, rfl, fun hd => ⟨fun hx => Bool.noConfusion (hd.symm.trans hx), fun hx => absurd hx h⟩⟩

theorem edge_eq (r : MeasRun) (b : Bool) (k : Nat) (raw x : Int) : r.edge b k raw x =
    if r.req.mode = 2 ∧ k % (max 1 (r.req.par 12 0).toNat) ≠ 0 then r
    else enough r.req.nMax r.tClose x (channelled r.req.mode (if b then r.lastB else r.lastA) b k raw x (r.settle (some x))) := rfl

theorem offer_eq (q : MeasRun) (b : Bool) (raw x : Int) {n : Nat} (hn : n = (if b then q.edgesB else q.edgesA) + 1) : q.offer b raw x =
    if n % max 1 (q.req.par 4 (b01 b)).toNat ≠ 0 ∨ q.done then counts q b n
    else (counts q b n).edge b (n / max 1 (q.req.par 4 (b01 b)).toNat) raw x := by
  subst hn
  rfl

theorem edge_gate (r : MeasRun) (b : Bool) (k : Nat) (raw x : Int) : SameGate r (r.edge b k raw x) := by
  rw [edge_eq]
  split
  · exact .refl r
  · exact ((settle_gate r _).1.trans (channelled_gate _ _ b k raw x _).1).trans (enough_gate ..).1

theorem offer_gate (q : MeasRun) (b : Bool) (raw x : Int) : SameGate q (q.offer b raw x) := by
  obtain ⟨n, hn⟩ : ∃ n, n = (if b then q.edgesB else q.edgesA) + 1 := ⟨_, rfl⟩
  rw [offer_eq q b raw x hn]
  have hc := (counts_gate q b n).1
  split
  · exact hc
  · exact hc.trans (edge_gate ..)

theorem inDead_iff (last : Option Int) (x : Int) : inDead last x = true ↔ ∃ l, last = some l ∧ x < l + 8 * ns := by
  cases last with
  | none => simp [inDead]
  | some l => simp [inDead]

/-- An edge that the channel takes. -/
theorem offer_taken {q : MeasRun} {b : Bool} {raw x : Int} {n : Nat} (hn : n = (if b then q.edgesB else q.edgesA) + 1) (hd : q.done = false) {r : MeasRun}
    {last : Option Int} (hp : n % max 1 (q.req.par 4 (b01 b)).toNat = 0)
    (hm : q.req.mode = 2 → n / max 1 (q.req.par 4 (b01 b)).toNat % max 1 (q.req.par 12 0).toNat = 0)
    (hr : r = (counts q b n).settle (some x)) (hl : last = if b then q.lastB else q.lastA) :
    ((∃ l, last = some l ∧ raw < l + 8 * ns) → (q.offer b raw x).dead = r.dead + 1 ∧ (q.offer b raw x).results = r.results ∧
      (q.offer b raw x).starts = r.starts ∧ (q.offer b raw x).stops = r.stops) ∧
    ((∀ l, last = some l → l + 8 * ns ≤ raw) → (q.offer b raw x).dead = r.dead ∧
      (b = true → (q.offer b raw x).stops = r.stops ++ [x] ∧ (q.offer b raw x).results = r.results) ∧
      (b = false → q.req.mode = 1 → (q.offer b raw x).starts = r.starts ++ [(x, false)] ∧
        (q.offer b raw x).nStarts = r.nStarts + 1 ∧ (q.offer b raw x).results = r.results) ∧
      (b = false → q.req.mode ≠ 1 → (q.offer b raw x).results = r.results ++ [(n / max 1 (q.req.par 4 (b01 b)).toNat, x)])) ∧
    ((q.offer b raw x).done = true ↔ q.req.nMax ≤ (q.offer b raw x).results.length) := by
  obtain ⟨c1, c2, c3, c4⟩ := counts_gate q b n
  obtain ⟨s1, s2⟩ := settle_gate (counts q b n) (some x)
  rw [← hr] at s1 s2
  have ho : q.offer b raw x = enough q.req.nMax (counts q b n).tClose x (channelled q.req.mode last b (n / max 1 (q.req.par 4 (b01 b)).toNat) raw x r) := by
    rw [offer_eq q b raw x hn, if_neg (by rw [hd]; simp [hp]), edge_eq, c1.req, if_neg (fun hx => hx.2 (hm hx.1)), c3, c4, ← hl, ← hr]
  obtain ⟨g1, g2⟩ := channelled_gate q.req.mode last b (n / max 1 (q.req.par 4 (b01 b)).toNat) raw x r
  obtain ⟨e1, e2, e3, e4, e5, e6, e7⟩ := enough_gate q.req.nMax (counts q b n).tClose x (channelled q.req.mode last b (n / max 1 (q.req.par 4 (b01 b)).toNat) raw x r)
  rw [← ho] at e1 e2 e3 e4 e5 e6 e7
  rw [e2, e3, e4, e5, e6]
  refine ⟨fun hx => ?_, fun hx => ?_, ?_⟩
  · unfold channelled
    rw [if_pos ((inDead_iff ..).2 hx)]
    exact ⟨rfl, rfl, rfl, rfl⟩
  · have hnd : ¬inDead last raw = true := fun hi => by
      obtain ⟨l, h1, h2⟩ := (inDead_iff ..).1 hi
      exact absurd (hx l h1) (not_le.2 h2)
    unfold channelled
    rw [if_neg hnd]
    cases b
    · rw [if_neg Bool.false_ne_true]
      by_cases h1 : q.req.mode = 1
      · rw [if_pos h1]
        exact ⟨rfl, nofun, fun _ _ => ⟨rfl, rfl, rfl⟩, fun _ h => absurd h1 h⟩
      · rw [if_neg h1]
        exact ⟨rfl, nofun, fun _ h => absurd h h1, fun _ _ => rfl⟩
    · rw [if_pos rfl]
      exact ⟨rfl, fun _ => ⟨rfl, rfl⟩, nofun, nofun⟩
  · exact e7 (g2.trans (s2.trans (c2.trans hd)))

/-! ### The gate opens -/

/-- The running measurement as its gate opens. -/
def gateOpened (u : State) (len : Option Time) (flags : BitVec 16) (r : MeasRun) : MeasRun :=
  { r with
    isOpen := true, tOpen := u.unitNow, tClose := u.unitNow, gateAt := u.time.mono, gateLen := len, opensAt := none, edgesA := 0, edgesB := 0
    flags := r.flags ||| flags ||| (if bit u.tiu.stat 4 then 0x010 else 0), sawExternal := u.tiu.tb ≠ 0 }

theorem openGate_eq {u : State} {r : MeasRun} (h : u.tiu.run = some r) (len : Option Time) (flags : BitVec 16) : u.openGate len flags =
    u.modTiu fun x => { x with run := some (gateOpened u len flags r) } := by
  have hm : ∀ f : Tiu → Tiu, f u.tiu = { u.tiu with run := some (gateOpened u len flags r) } →
      u.modTiu f = u.modTiu fun x => { x with run := some (gateOpened u len flags r) } := fun f hf => by
    unfold State.modTiu
    rw [hf]
  unfold State.openGate
  dsimp only
  refine hm _ ?_
  rw [h]
  rfl

theorem gateOpened_opens (u : State) (len : Option Time) (flags : BitVec 16) (r : MeasRun) : GateOpens u r (gateOpened u len flags r) len ∧
    (flags.getLsbD 0 = true → (gateOpened u len flags r).flags.getLsbD 0 = true) := by
  refine ⟨⟨rfl, rfl, rfl, rfl, rfl, rfl, rfl, rfl, rfl, fun h => ?_⟩, fun h => ?_⟩
  · show ((r.flags ||| flags) ||| (if bit u.tiu.stat 4 then 0x010 else 0)).getLsbD 4 = true
    rw [if_pos h, BitVec.getLsbD_or, Bool.or_eq_true]
    exact .inr rfl
  · show ((r.flags ||| flags) ||| _).getLsbD 0 = true
    rw [BitVec.getLsbD_or, BitVec.getLsbD_or, h, Bool.or_true, Bool.true_or]

theorem gateOpens_next {u : State} {r : MeasRun} (h : u.tiu.run = some r) (len : Option Time) (flags : BitVec 16) :
    ∃ q, u.openGate len flags = u.modTiu (fun x => { x with run := some q }) ∧ (flags.getLsbD 0 = true → q.flags.getLsbD 0 = true) ∧ GateOpens u r q len :=
  ⟨_, openGate_eq h len flags, (gateOpened_opens u len flags r).2, (gateOpened_opens u len flags r).1⟩

/-! ### The measurement ends -/

theorem endMeas_ends {u : State} {r : MeasRun} (h : u.tiu.run = some r) (hr : u.boot.inReset = false) (flags : BitVec 16) (close : Time) :
    MeasEnds u (u.endMeas flags close) := by
  have key : ∀ (q : MeasRun) (t : State), t = ((u.modTiu fun t => { t with run := none }).issueSummary q close).nextMeas → MeasEnds u t := by
    intro q t ht
    obtain ⟨h1, h2, -⟩ := issueSummary_effect (s := u.modTiu fun t => { t with run := none }) hr q close
    generalize (u.modTiu fun t => { t with run := none }).issueSummary q close = v at h1 h2 ht
    have hv : v.tiu = { u.tiu with run := none } := h1.tiu
    have hm := nextMeas_measWork v
    have hn := nextMeas_tiu v
    rw [← ht] at hm hn
    have hq : v.tiu.queue = u.tiu.queue := by rw [hv]
    have hu : v.tiu.user = u.tiu.user := by rw [hv]; rfl
    have hx : v.tiu.run = none := by rw [hv]
    have ho : Only [.tiu, .ports] u t := ((modTiu_only u fun t => { t with run := none }).mono (by decide)).trans ((h1.mono (by decide)).trans hm.only)
    refine ⟨ho.time, hm.only.pend 185 h2, by rw [hm.conv, hv], ho.settings, ho.lanes, fun hc => ?_, fun m rest hmr hc => ?_⟩
    · rw [← hq, ← hu] at hc
      rcases hn with ⟨-, n1, m, rest, n2, -⟩ | ⟨-, n1, n2⟩
      · rcases hc with hc | hc
        · rw [hc] at n2
          exact nomatch n2
        · exact absurd hc n1
      · exact ⟨n1.trans hx, n2.trans hq⟩
    · rw [← hq] at hmr
      rw [← hu] at hc
      rcases hn with ⟨-, -, m', rest', n2, n3, n4⟩ | ⟨n0, -, -⟩
      · rw [hmr] at n2
        obtain ⟨rfl, rfl⟩ := List.cons.inj n2
        exact ⟨n3, n4⟩
      · rcases n0 with n0 | n0 | n0
        · exact absurd hx n0
        · exact absurd n0 hc
        · rw [hmr] at n0
          exact nomatch n0
  unfold State.endMeas
  rw [h]
  exact key _ _ rfl

end Sys2Proof.Proofs

/-! SUPPORT. An edge at the USER converter, side by side, and the rows of a measurement. -/

namespace Sys2Proof.Proofs
open Sys2Proof Sys2Proof.Machine Sys2Proof.Claims

/-! ### An edge at one channel -/

/-- The reading of a channel, and its raw stamp at the USER converter. -/
def sideRead (b : Bool) (d : EdgeIn) : CellRead := if b then d.b else d.a
def sideRaw (v : State) (b : Bool) (d : EdgeIn) : Int :=
  (if b then (v.tiu.convN v.tiu.user).b else (v.tiu.convN v.tiu.user).a).raw d.src (sideRead b d)

section
variable {v : State} {r : MeasRun} (hrun : v.tiu.run = some r) {b : Bool} {d : EdgeIn}
include hrun

theorem sideEdge_eq : v.sideEdge b d = if !(r.takes b d) || !(r.within (sideRaw v b d)) then v
    else if cellFault (sideRead b d) then (match ix 3 v.tiu.user with | some i => v.retireConv i | none => v)
    else v.modTiu fun t => { t with run := some (r.offer b (sideRaw v b d) (v.unitTime (sideRaw v b d))) } := by
  unfold State.sideEdge
  rw [hrun]
  rfl

theorem sideEdge_skips (h : r.takes b d = false ∨ r.within (sideRaw v b d) = false) : v.sideEdge b d = v := by
  rw [sideEdge_eq hrun]
  exact if_pos (by rcases h with h | h <;> simp [h])

theorem sideEdge_takes (h1 : r.takes b d = true) (h2 : r.within (sideRaw v b d) = true) (h3 : cellFault (sideRead b d) = false) : v.sideEdge b d =
    v.modTiu fun t => { t with run := some (r.offer b (sideRaw v b d) (v.unitTime (sideRaw v b d))) } := by
  rw [sideEdge_eq hrun, h1, h2, if_neg (by decide), h3, if_neg (by decide)]

theorem sideEdge_faults {i : Fin 3} (hi : v.tiu.user = i.val) (h1 : r.takes b d = true) (h2 : r.within (sideRaw v b d) = true)
    (h3 : cellFault (sideRead b d) = true) : v.sideEdge b d = v.retireConv i := by
  rw [sideEdge_eq hrun, h1, h2, if_neg (by decide), h3, if_pos rfl, hi, ix_of_lt i.isLt]

end

theorem sideEdge_none {v : State} (h : v.tiu.run = none) (b : Bool) (d : EdgeIn) : v.sideEdge b d = v := by
  unfold State.sideEdge
  rw [h]

/-- A measurement that is not open, or none, takes no edge. -/
theorem sideEdge_closed {v : State} (h : ∀ r, v.tiu.run = some r → r.isOpen = false) (b : Bool) (d : EdgeIn) : v.sideEdge b d = v := by
  cases hr : v.tiu.run with
  | none => exact sideEdge_none hr b d
  | some r =>
    refine sideEdge_skips hr (.inl ?_)
    unfold MeasRun.takes
    rw [h r hr]
    rfl

/-! ### The run after a converter has gone -/

theorem nextMeas_run (s : State) : s.nextMeas.tiu.run = s.tiu.run ∨ (∀ r, s.nextMeas.tiu.run = some r → r.isOpen = false) := by
  unfold State.nextMeas
  split
  · split
    · rw [State.modTiu_tiu, show_run]
      exact .inl rfl
    · rw [State.modTiu_tiu, show_run]
      refine .inr fun r hr => ?_
      rw [← Option.some.inj hr]
      rfl
  · rw [State.modTiu_tiu, show_run]
    exact .inl rfl

theorem issueSummary_run (s : State) (q : MeasRun) (c : Time) : (s.issueSummary q c).tiu.run = s.tiu.run := by
  unfold State.issueSummary
  dsimp only
  have h : ∀ (b : Prop) [Decidable b] (l : List Rec) (u : State), Only [] s u →
      Only [] s ((if b then l.foldl (fun u x => u.push 2 none x 0 false) u else u).raise 185) := fun b _ l u h => by
    refine .trans ?_ (raise_only _ _)
    split
    · exact h.trans (.foldl (fun v x => push_only v _ _ _ _ _) l u)
    · exact h
  have h1 := h ((q.settle none).req.par 15 0 = 1) (stampRecs (q.settle none).req.id (q.settle none).req.mode (q.settle none).results)
    (s.push 2 none (.summary ((q.settle none).summary c)) 0 false) (push_only ..)
  generalize State.raise _ 185 = u at h1 ⊢
  have ht : u.tiu.run = s.tiu.run := by rw [h1.tiu]
  split
  · unfold State.anchorResult
    dsimp only
    rw [(raise_same _ 191).tiu]
    split
    · rw [State.onPort_tiu]
      exact ht
    · rw [State.onPort_tiu]
      exact ht
  · exact ht

theorem endMeas_run (s : State) (f : BitVec 16) (c : Time) (r : MeasRun) (h : (s.endMeas f c).tiu.run = some r) : r.isOpen = false := by
  unfold State.endMeas at h
  split at h
  · rename_i hn
    exact nomatch hn.symm.trans h
  · rename_i r0 _
    dsimp only at h
    rcases nextMeas_run ((s.modTiu fun t => { t with run := none }).issueSummary
        { r0 with flags := r0.flags ||| f, sawExternal := if r0.isOpen then r0.sawExternal else decide (s.tiu.tb ≠ 0) } c) with hx | hx
    · rw [hx, issueSummary_run] at h
      exact nomatch h
    · exact hx r h

theorem dropSteps_run (l : List MeasReq) (s : State) : (l.foldl dropStep s).tiu.run = s.tiu.run := by
  induction l generalizing s with
  | nil => rfl
  | cons m l ih =>
    rw [List.foldl_cons, ih]
    unfold dropStep State.dropMeas
    dsimp only
    split
    · rw [(raise_same _ 192).tiu, issueSummary_run]
    · rw [issueSummary_run]

theorem cancelAll_run (s : State) : s.cancelAll.tiu.run = s.tiu.run := by
  by_cases hu : s.tiu.user = 3
  · have he : s.cancelAll = s.tiu.queue.foldl dropStep (s.modTiu fun t => ({ t with queue := [] } : Tiu).show) := by
      unfold State.cancelAll
      rw [if_neg (not_not.2 hu)]
      rfl
    rw [he, dropSteps_run, State.modTiu_tiu, show_run]
  · rw [show s.cancelAll = s from if_pos hu]

/-- After a converter is retired, the measurement is as it was, or another one that is not open, or none. -/
theorem retireConv_run (s : State) (i : Fin 3) : (s.retireConv i).tiu.run = s.tiu.run ∨ ∀ r, (s.retireConv i).tiu.run = some r → r.isOpen = false := by
  have key : ∀ (u : State) (old : Nat), u.tiu.run = s.tiu.run → (u.afterRelease old).tiu.run = s.tiu.run ∨
      ∀ r, (u.afterRelease old).tiu.run = some r → r.isOpen = false := by
    intro u old hu
    unfold State.afterRelease
    dsimp only
    rw [cancelAll_run]
    split
    · exact .inr fun r h => endMeas_run u _ _ r h
    · exact .inl hu
  obtain ⟨w, he, -, -⟩ := release_stat s.tiu i.val
  unfold State.retireConv
  refine key _ _ ?_
  rw [(raise_same _ 190).tiu, State.modBoot_tiu, State.modTiu_tiu, he]

/-! ### An edge -/

theorem takeFit_eq (s : State) (e : RefEdges) : ∃ f, s.takeFit e = s.modTiu fun t => { t with fit := f } := by
  have h0 : s = s.modTiu fun t => { t with fit := s.tiu.fit } := rfl
  unfold State.takeFit
  split
  · exact ⟨_, h0⟩
  · split
    · exact ⟨_, rfl⟩
    · exact ⟨_, h0⟩

/-- What an edge finds: the time of the edge, and the unit with a fresh fit. -/
structure AtEdge (s u : State) : Prop where
  tiu : u.tiu = { s.tiu with fit := u.tiu.fit }
  boot : u.boot = s.boot

theorem edgeAt (s : State) (x : Time) (e : RefEdges) : AtEdge s ((s.until x).takeFit e) := by
  obtain ⟨f, hf⟩ := takeFit_eq (s.until x) e
  rw [hf]
  refine ⟨?_, ?_⟩
  · rw [State.modTiu_tiu, State.until_tiu]
  · rw [State.modTiu_boot, State.until_boot]

theorem offer_takes {q r : MeasRun} (h : SameGate q r) (hd : q.done = r.done) (b : Bool) (d : EdgeIn) : r.takes b d = q.takes b d := by
  unfold MeasRun.takes
  rw [h.isOpen, h.req, hd]

theorem takes_none {q r : MeasRun} (h : SameGate q r) (hd : q.done = false) {b : Bool} {d : EdgeIn} (ht : q.takes b d = false) : r.takes b d = false := by
  unfold MeasRun.takes at ht ⊢
  rw [h.isOpen, h.req]
  cases r.done
  · rw [hd] at ht
    exact ht
  · simp

theorem within_same {q r : MeasRun} (h : SameGate q r) (x : Int) : r.within x = q.within x := by
  unfold MeasRun.within
  rw [h.gateAt, h.gateLen]

/-- The rows of an edge, from the state that it finds. -/
theorem edge_rows {u : State} {r : MeasRun} (hrun : u.tiu.run = some r) (hd : r.done = false) (d : EdgeIn) {xa xb : Int} (ha : xa = sideRaw u false d)
    (hb : xb = sideRaw u true d) :
    (r.takes false d = false ∨ r.within xa = false → r.takes true d = false ∨ r.within xb = false → (u.sideEdge false d).sideEdge true d = u) ∧
    (r.takes false d = true → r.within xa = true → cellFault d.a = false → r.takes true d = false ∨ r.within xb = false →
      (u.sideEdge false d).sideEdge true d = u.modTiu fun x => { x with run := some (r.offer false xa (u.unitTime xa)) }) ∧
    (r.takes false d = false ∨ r.within xa = false → r.takes true d = true → r.within xb = true → cellFault d.b = false →
      (u.sideEdge false d).sideEdge true d = u.modTiu fun x => { x with run := some (r.offer true xb (u.unitTime xb)) }) ∧
    (r.takes false d = true → r.within xa = true → cellFault d.a = false → r.takes true d = true → r.within xb = true → cellFault d.b = false →
      (r.offer false xa (u.unitTime xa)).done = false → (u.sideEdge false d).sideEdge true d =
        u.modTiu fun x => { x with run := some ((r.offer false xa (u.unitTime xa)).offer true xb (u.unitTime xb)) }) := by
  subst ha hb
  have hgate := offer_gate r false (sideRaw u false d) (u.unitTime (sideRaw u false d))
  have hrun' : (u.modTiu fun x => { x with run := some (r.offer false (sideRaw u false d) (u.unitTime (sideRaw u false d))) }).tiu.run =
    some (r.offer false (sideRaw u false d) (u.unitTime (sideRaw u false d))) := rfl
  have hraw : ∀ q, sideRaw (u.modTiu fun x => { x with run := q }) true d = sideRaw u true d := fun _ => rfl
  have hun : ∀ q x, (u.modTiu fun t => { t with run := q }).unitTime x = u.unitTime x := fun _ _ => rfl
  refine ⟨fun h1 h2 => ?_, fun h1 h2 h3 h4 => ?_, fun h1 h2 h3 h4 => ?_, fun h1 h2 h3 h4 h5 h6 h7 => ?_⟩
  · rw [sideEdge_skips hrun h1, sideEdge_skips hrun h2]
  · rw [sideEdge_takes hrun h1 h2 h3]
    refine sideEdge_skips hrun' (h4.imp (takes_none hgate hd) fun h => ?_)
    rw [hraw, within_same hgate]
    exact h
  · rw [sideEdge_skips hrun h1, sideEdge_takes hrun h2 h3 h4]
  · rw [sideEdge_takes hrun h1 h2 h3]
    refine (sideEdge_takes hrun' (b := true) (d := d) ?_ ?_ h6).trans ?_
    · rw [offer_takes hgate (hd.trans h7.symm)]
      exact h4
    · rw [hraw, within_same hgate]
      exact h5
    · rw [hraw, hun]
      rfl

/-- An edge whose cell fails retires the converter. -/
theorem edge_fault {u : State} {r : MeasRun} (hrun : u.tiu.run = some r) {d : EdgeIn} {i : Fin 3} (hi : u.tiu.user = i.val) (h1 : r.takes false d = true)
    (h2 : r.within (sideRaw u false d) = true) (h3 : cellFault d.a = true) (h4 : r.takes true d = false) :
    (u.sideEdge false d).sideEdge true d = u.retireConv i := by
  rw [sideEdge_faults hrun hi h1 h2 h3]
  rcases retireConv_run u i with h | h
  · exact sideEdge_skips (h.trans hrun) (.inl h4)
  · exact sideEdge_closed h _ _

section
variable {s : State} {r : MeasRun} (hrun : s.tiu.run = some r)
include hrun

theorem armEdge_rows (e : Time) : (r.isOpen = true ∨ r.done = true ∨ r.req.window = true → measArmEdge e s = s) ∧
    (r.isOpen = false → r.done = false → r.req.window = false → measArmEdge e s =
      (s.until e).openGate (if r.req.par 6 0 = 1 then some (r.req.len 0) else none) 0) := by
  unfold measArmEdge
  rw [hrun]
  refine ⟨fun h => if_pos ?_, fun h1 h2 h3 => if_neg (by rw [h1, h2, h3]; decide)⟩
  rcases h with h | h | h <;> simp [h]

theorem windowOpen_rows : (r.isOpen = true ∨ r.done = true ∨ r.opensAt = none → measWindowOpen s = s) ∧
    (∀ t0, r.isOpen = false → r.done = false → r.opensAt = some t0 → measWindowOpen s =
      (s.elapse (t0 - s.unitNow)).openGate (some (r.req.len 1)) 0) := by
  unfold measWindowOpen
  rw [hrun]
  dsimp only
  refine ⟨fun h => ?_, fun t0 h1 h2 h3 => ?_⟩
  · cases ho : r.opensAt with
    | none => rfl
    | some t0 =>
      rw [ho] at h
      refine if_pos ?_
      rcases h with h | h | h
      · rw [h]
        rfl
      · rw [h, Bool.or_true]
      · exact nomatch h
  · rw [h3]
    exact if_neg (by rw [h1, h2]; decide)

theorem armTimeout_rows : (r.isOpen = true ∨ r.done = true ∨ r.req.window = true ∨ r.req.par 9 0 = 0 → armTimeout s = s) ∧
    (∀ u, r.isOpen = false → r.done = false → r.req.window = false → r.req.par 9 0 ≠ 0 → u = s.until (r.armedAt + (r.req.par 9 0).toNat * ms) →
      armTimeout s = if r.req.par 10 0 = 1 then u.openGate (some (r.req.len 1)) 0x001 else u.endMeas 0x002 u.unitNow) := by
  unfold armTimeout
  rw [hrun]
  dsimp only
  refine ⟨fun h => if_pos ?_, fun u h1 h2 h3 h4 hu => ?_⟩
  · rcases h with h | h | h | h <;> simp [h]
  · rw [← hu]
    exact if_neg (by rw [h1, h2, h3]; simp [h4])

theorem gateClose_rows : (r.isOpen = false → r.done = false → measGateClose s = s) ∧
    (∀ (u : State) (wait : Time), wait = (if fld s.tiu.stat 0 2 = 0 then 0 else 3200 * ns) → r.isOpen = true ∨ r.done = true →
      (r.done = true → u = s) → (r.done = false → ∀ l, r.gateLen = some l → u = s.until (r.gateAt + l)) →
      (r.done = false → r.gateLen = none → u = s) → ∃ close, measGateClose s = (u.elapse wait).endMeas 0 close) := by
  unfold measGateClose
  rw [hrun]
  dsimp only
  refine ⟨fun h1 h2 => ?_, fun u wait hw h hd hl hn => ?_⟩
  · rw [h1, h2, if_neg (by decide)]
    exact if_pos rfl
  · rw [show (if s.tiu.tb = 0 then 0 else 3200 * ns) = wait from hw.symm]
    cases hdone : r.done
    · have ho : r.isOpen = true := h.resolve_right (by rw [hdone]; decide)
      rw [if_neg (by decide), ho, if_neg (by decide)]
      cases hg : r.gateLen with
      | none => exact ⟨_, by rw [hn hdone hg]⟩
      | some l => exact ⟨_, by rw [hl hdone l hg]⟩
    · rw [if_pos rfl, hd hdone]
      exact ⟨_, rfl⟩

theorem edge_found (d : EdgeIn) : (r.isOpen = false ∨ r.done = true → measEdge d s = s) ∧ (r.isOpen = true → r.done = false → measEdge d s =
    ((((s.until (d.a.coarse * prb)).takeFit d.ref).sideEdge false d).sideEdge true d)) := by
  have hg : s.tiu.gateOpen = (r.isOpen && !r.done) := by
    unfold Tiu.gateOpen
    rw [hrun]
  unfold measEdge
  rw [hg]
  refine ⟨fun h => if_neg ?_, fun h1 h2 => if_pos (by rw [h1, h2]; rfl)⟩
  rcases h with h | h <;> simp [h]

end

/-- Settles O46: pairing, offering, and the rows with nothing to do, then the gate, the edges and the end of the running measurement. -/
theorem measurementsRunTheirCourse : Obligations.MeasurementsRunTheirCourse := by
  unfold Obligations.MeasurementsRunTheirCourse
  refine ⟨fun q x => ⟨fun a h hx => pair_found h hx, fun a h hx => pair_late h hx, fun h => pair_orphan h⟩,
    fun q b raw x n hn hd => ⟨fun h => ?_, fun hm h => ?_, fun r last hp hm hr hl => offer_taken hn hd hp hm hr hl⟩, fun s h => ?_, fun s r hrun hr => ?_⟩
  · exact (offer_eq q b raw x hn).trans (if_pos (.inl h))
  · rw [offer_eq q b raw x hn]
    split
    · rfl
    · rw [edge_eq, (counts_gate q b n).1.req, if_pos ⟨hm, h⟩]
      rfl
  · have hg : s.tiu.gateOpen = false := by
      unfold Tiu.gateOpen
      rw [h]
    refine ⟨fun e => congrArg Host.Outcome.next ?_, fun d => congrArg Host.Outcome.next ?_, congrArg Host.Outcome.next ?_, congrArg Host.Outcome.next ?_,
      congrArg Host.Outcome.next ?_⟩
    · unfold measArmEdge
      rw [h]
    · unfold measEdge
      rw [hg]
      rfl
    · unfold measWindowOpen
      rw [h]
    · unfold armTimeout
      rw [h]
    · unfold measGateClose
      rw [h]
  · refine ⟨fun e => ⟨fun h => congrArg Host.Outcome.next ((armEdge_rows hrun e).1 h), fun u h1 h2 h3 hu => ?_⟩,
      fun h => congrArg Host.Outcome.next ((windowOpen_rows hrun).1 h), fun t0 u h1 h2 h3 hu => ?_,
      fun h => congrArg Host.Outcome.next ((armTimeout_rows hrun).1 h), fun u h1 h2 h3 h4 hu => ⟨fun h5 => ?_, fun h5 => ?_⟩,
      fun d => ⟨fun h => congrArg Host.Outcome.next ((edge_found hrun d).1 h), fun u xa xb h1 h2 hu ha hb => ?_⟩,
      fun h1 h2 => congrArg Host.Outcome.next ((gateClose_rows hrun).1 h1 h2), fun u wait hw h hd hl hn => ?_⟩
    · have hx := (armEdge_rows hrun e).2 h1 h2 h3
      rw [← hu] at hx
      obtain ⟨q, hq, -, ho⟩ := gateOpens_next (u := u) (by rw [hu, State.until_tiu]; exact hrun) (if r.req.par 6 0 = 1 then some (r.req.len 0) else none) 0
      exact ⟨_, congrArg Host.Outcome.next hx, q, hq, ho⟩
    · have hx := (windowOpen_rows hrun).2 t0 h1 h2 h3
      rw [← hu] at hx
      obtain ⟨q, hq, -, ho⟩ := gateOpens_next (u := u) (by rw [hu, State.elapse_tiu]; exact hrun) (some (r.req.len 1)) 0
      exact ⟨_, congrArg Host.Outcome.next hx, q, hq, ho⟩
    · have hx := (armTimeout_rows hrun).2 u h1 h2 h3 h4 hu
      rw [if_pos h5] at hx
      obtain ⟨q, hq, hf, ho⟩ := gateOpens_next (u := u) (by rw [hu, State.until_tiu]; exact hrun) (some (r.req.len 1)) 0x001
      exact ⟨_, congrArg Host.Outcome.next hx, q, hq, hf rfl, ho⟩
    · have hx := (armTimeout_rows hrun).2 u h1 h2 h3 h4 hu
      rw [if_neg h5] at hx
      exact ⟨_, congrArg Host.Outcome.next hx, endMeas_ends (by rw [hu, State.until_tiu]; exact hrun) (by rw [hu, State.until_boot]; exact hr) _ _⟩
    · have hx := (edge_found hrun d).2 h1 h2
      rw [← hu] at hx
      have he := edgeAt s (d.a.coarse * prb) d.ref
      rw [← hu] at he
      have hur : u.tiu.run = some r := by rw [he.tiu]; exact hrun
      have hus : u.tiu.user = s.tiu.user := by rw [he.tiu]; rfl
      have hcv : ∀ n, u.tiu.convN n = s.tiu.convN n := fun n => by rw [he.tiu]; rfl
      have ha' : xa = sideRaw u false d := by
        unfold sideRaw
        rw [hcv, hus]
        exact ha
      have hb' : xb = sideRaw u true d := by
        unfold sideRaw
        rw [hcv, hus]
        exact hb
      obtain ⟨e1, e2, e3, e4⟩ := edge_rows hur h2 d ha' hb'
      rw [← hx] at e1 e2 e3 e4
      refine ⟨fun a b => congrArg Host.Outcome.next (e1 a b), fun a b c e => congrArg Host.Outcome.next (e2 a b c e),
        fun a b c e => congrArg Host.Outcome.next (e3 a b c e), fun a b c e f g h => congrArg Host.Outcome.next (e4 a b c e f g h), fun i hi a b c e => ?_⟩
      rw [ha'] at b
      have hk := edge_fault hur (hus.trans hi) a b c e
      obtain ⟨r1, -, r3, -, -, r6⟩ := retireConv_effect u i
      exact ⟨_, congrArg Host.Outcome.next (hx.trans hk), r3, r6 (by rw [he.boot]; exact hr), r1.only.time⟩
    · obtain ⟨close, hx⟩ := (gateClose_rows hrun).2 u wait hw h hd hl hn
      have hu : u.tiu = s.tiu ∧ u.boot = s.boot := by
        have hs : u = s → u.tiu = s.tiu ∧ u.boot = s.boot := fun h => ⟨by rw [h], by rw [h]⟩
        cases hdone : r.done
        · cases hg : r.gateLen with
          | none => exact hs (hn hdone hg)
          | some l => rw [hl hdone l hg, State.until_tiu, State.until_boot]; exact ⟨rfl, rfl⟩
        · exact hs (hd hdone)
      refine ⟨_, congrArg Host.Outcome.next hx, endMeas_ends (r := r) ?_ ?_ _ _⟩
      · rw [State.elapse_tiu, hu.1]
        exact hrun
      · rw [State.elapse_boot, hu.2]
        exact hr

end Sys2Proof.Proofs

/-! SUPPORT. Command rings, SPI and I²C (R503, R517, R518): packets arrive as bytes, replies leave. -/

namespace Sys2Proof.Proofs
open Sys2Proof Sys2Proof.Machine Sys2Proof.Claims

/-- The row of a command does what its bytes do. -/
theorem request_exec {c : Instr} {op : Nat} {k : Packet} (h : request c = some (op, k)) (s : State) : exec c s = .next (arrive op k (runOf op) s) := by
  cases c <;> cases h <;> rfl

theorem arriveBytes_eq {t : Transport} {bs : List Byte} {whole : Bool} {c : Instr} (h : request c = some (packetOf t bs whole)) (s : State) :
    exec c s = .next (arriveBytes t bs whole s) := request_exec h s

/-! ### Replies leave the ring -/

theorem modCr_only (s : State) (n : Fin 4) (f : CmdRing → CmdRing) : Only F s (s.modCr n f) := .of_ev (modCr_same ..) (modCr_calm ..) rfl rfl

theorem ringPut_only (s : State) (n : Fin 4) (bs : List Byte) : Only F s (s.ringPut n bs).1 :=
  .of_ev (ringPut_same ..) (ringPut_calm ..) (ringPut_ev ..) (ringPut_sessions ..)

theorem ringPut_out (s : State) (n : Fin 4) (bs : List Byte) : .packet (.ring n) bs ∈ (s.ringPut n bs).1.out :=
  (msix_calm _ _).out (List.mem_append_right _ (List.mem_singleton_self _))

theorem freeSlot_only (s : State) (t : Transport) (a : BitVec 8) (b : BitVec 32) : Only F s (s.freeSlot t a b) := by
  unfold State.freeSlot
  split
  · exact modCr_only ..
  · exact .refl ..

/-- One reply leaves the ring's queue. -/
def drainStep (n : Fin 4) (b : List Byte) (bs : List (List Byte)) (s : State) : State :=
  let r := (s.modCr n fun r => { r with waiting := bs }).ringPut n b
  let s1 := if r.2 then r.1.raise 245 else r.1
  if rd b 2 1 / 8 % 2 = 0 then s1.freeSlot (.ring n) (BitVec.ofNat 8 (rd b 3 1)) (BitVec.ofNat 32 (rd b 8 4)) else s1

theorem drainStep_effect (n : Fin 4) (b : List Byte) (bs : List (List Byte)) (s : State) : Only [] s (drainStep n b bs s) ∧
    .packet (.ring n) b ∈ (drainStep n b bs s).out := by
  have h1 : Only [] s (s.modCr n fun r => { r with waiting := bs }) := modCr_only ..
  have h2 := ringPut_only (F := []) (s.modCr n fun r => { r with waiting := bs }) n b
  have h3 := ringPut_out (s.modCr n fun r => { r with waiting := bs }) n b
  unfold drainStep
  dsimp only
  generalize (s.modCr n fun r => { r with waiting := bs }).ringPut n b = r at h2 h3 ⊢
  have h4 : Only [] r.1 (if r.2 then r.1.raise 245 else r.1) := .ite (fun _ => raise_only ..) fun _ => .refl ..
  generalize (if r.2 then r.1.raise 245 else r.1) = u at h4 ⊢
  have h5 : Only [] u (if rd b 2 1 / 8 % 2 = 0 then u.freeSlot (.ring n) (BitVec.ofNat 8 (rd b 3 1)) (BitVec.ofNat 32 (rd b 8 4)) else u) :=
    .ite (fun _ => freeSlot_only ..) fun _ => .refl ..
  exact ⟨((h1.trans h2).trans h4).trans h5, h5.out (h4.out h3)⟩

theorem drainCr_cons (n : Fin 4) (f : Nat) {s : State} {b : List Byte} {bs : List (List Byte)} (h : s.links.cr[n].waiting = b :: bs) :
    drainCr n (f + 1) s = if s.links.cr[n].full then s else drainCr n f (drainStep n b bs s) := by
  rw [drainCr, h]
  rfl

theorem drainCr_only (n : Fin 4) (f : Nat) (s : State) : Only [] s (drainCr n f s) := by
  induction f generalizing s with
  | zero => exact .refl ..
  | succ f ih =>
    cases h : s.links.cr[n].waiting with
    | nil =>
      unfold drainCr
      rw [h]
      exact .refl ..
    | cons b bs =>
      rw [drainCr_cons n f h]
      exact .ite (fun _ => .refl ..) fun _ => (drainStep_effect n b bs s).1.trans (ih _)

theorem modCr_self (s : State) (n : Fin 4) (f : CmdRing → CmdRing) : (s.modCr n f).links.cr[n] = f s.links.cr[n] := Vector.getElem_set_self ..

theorem modCr_const (s : State) (n : Fin 4) (f : CmdRing → CmdRing) : s.modCr n f = s.modCr n fun _ => (s.modCr n f).links.cr[n] := by
  rw [modCr_self]
  rfl

theorem crRtailWrite_eq (n : Fin 4) (v : Word) (s : State) : crRtailWrite n v s =
    drainCr n ((s.modCr n fun r => { r with rtail := (r.rtail &&& 0xFFFFF800) ||| (v &&& 0x7FF) }).links.cr[n].waiting.length)
      (s.modCr n fun r => { r with rtail := (r.rtail &&& 0xFFFFF800) ||| (v &&& 0x7FF) }) := rfl

/-! ### Nothing waits -/

theorem pumpSession_none {s : State} {i : SessIx} (h : s.sessions[i].waiting = []) (f : Nat) : pumpSession i f s = s := by
  cases f with
  | zero => rfl
  | succ f =>
    unfold pumpSession
    dsimp only
    rw [h]
    split <;> rfl

theorem pump_none {s : State} (h : NoneWaits s) : s.pump = s := by
  unfold State.pump
  generalize List.finRange 4 = l
  induction l with
  | nil => rfl
  | cons i l ih => rw [List.foldl_cons, pumpSession_none (h i), ih]

theorem noneWaits_of_only {F : List Part} {s t : State} (h : NoneWaits s) (k : Only F s t) (hF : Part.sessions ∉ F := by decide) : NoneWaits t := fun i => by
  obtain ⟨q, hq⟩ := k.same .sessions hF i
  rw [hq]
  exact h i

/-- Settles O48: the slot's packet and the frame's are the commands that their bytes spell; replies leave in turn. -/
theorem commandsArriveOnEveryTransport : Obligations.CommandsArriveOnEveryTransport := by
  unfold Obligations.CommandsArriveOnEveryTransport
  intro s hr
  have hw : ∀ f, s.written f = f s := fun f => by
    unfold State.written
    rw [hr, if_neg (by decide)]
  refine ⟨fun n v bytes held => ⟨fun h => ?_, fun h hb => ?_, fun h hb hh c hc => ?_⟩, fun bs c hc => ?_, fun n v hn => ⟨fun h => ?_, fun b bs h hf => ?_⟩,
    fun h => ?_, fun b bs h => ?_, fun x => ⟨fun h => ?_, fun h h1 h2 h3 => ?_, fun h h1 => ?_⟩⟩
  · refine congrArg Host.Outcome.next ((hw _).trans ?_)
    unfold crDoorbell
    dsimp only
    rw [h]
    rfl
  · refine congrArg Host.Outcome.next ((hw _).trans ?_)
    unfold crDoorbell
    dsimp only
    rw [h, if_neg (by decide), if_pos hb]
  · have ha := arriveBytes_eq hc
    have hx : crDoorbell n v bytes s = arriveBytes (.ring n) held false (s.modCr n fun r => { r with
        busy := r.busy ||| (1#64 <<< fld v 0 6), req := assocSet r.req (fld v 0 6) held
        slots := r.slots ++ [(BitVec.ofNat 8 (rd held 3 1), BitVec.ofNat 32 (rd held 8 4), fld v 0 6)] }) := by
      unfold crDoorbell
      dsimp only
      rw [h, if_neg (by decide), if_neg (by rw [hb]; decide), ← hh]
    refine ⟨_, congrArg Host.Outcome.next ((hw _).trans hx), _, ?_, modCr_const .., ?_, ?_, ha _⟩
    · rw [modCr_self]
      have hl : fld v 0 6 < 64 := fld_lt v 0 6
      simp [hl]
    · rw [modCr_self]
    · rw [modCr_self]
  · exact ⟨_, congrArg Host.Outcome.next (hw _), request_exec hc s⟩
  · have hx : s.written (crRtailWrite n v) = s.modCr n fun r => { r with rtail := (r.rtail &&& 0xFFFFF800) ||| (v &&& 0x7FF) } := by
      rw [hw, crRtailWrite_eq]
      have h0 : (s.modCr n fun r => { r with rtail := (r.rtail &&& 0xFFFFF800) ||| (v &&& 0x7FF) }).links.cr[n].waiting = [] := by
        rw [modCr_self]
        exact h
      rw [h0]
      rfl
    exact congrArg Host.Outcome.next ((congrArg State.pump hx).trans (pump_none hn))
  · have h0 : (s.modCr n fun r => { r with rtail := (r.rtail &&& 0xFFFFF800) ||| (v &&& 0x7FF) }).links.cr[n] =
        { s.links.cr[n] with rtail := (s.links.cr[n].rtail &&& 0xFFFFF800) ||| (v &&& 0x7FF) } := modCr_self ..
    have h1 : Only [] s (s.modCr n fun r => { r with rtail := (r.rtail &&& 0xFFFFF800) ||| (v &&& 0x7FF) }) := modCr_only ..
    have hx := (hw (crRtailWrite n v)).trans (crRtailWrite_eq n v s)
    generalize (s.modCr n fun r => { r with rtail := (r.rtail &&& 0xFFFFF800) ||| (v &&& 0x7FF) }) = u at h0 h1 hx
    have hwt : u.links.cr[n].waiting = b :: bs := by
      rw [h0]
      exact h
    rw [hwt, List.length_cons, drainCr_cons n _ hwt, if_neg (by rw [h0, hf]; decide)] at hx
    obtain ⟨k1, k2⟩ := drainStep_effect n b bs u
    have k3 := drainCr_only n bs.length (drainStep n b bs u)
    generalize drainCr n bs.length (drainStep n b bs u) = t at k3 hx
    have ho : Only [] s t := (h1.trans k1).trans k3
    refine ⟨t, congrArg Host.Outcome.next ((congrArg State.pump hx).trans (pump_none (noneWaits_of_only hn ho))), k3.out k2, ho.settings, ho.time⟩
  · refine congrArg Host.Outcome.next ?_
    unfold spiReplyFetch
    rw [hr, if_neg (by decide), h]
    rfl
  · refine congrArg Host.Outcome.next ?_
    unfold spiReplyFetch
    rw [hr, if_neg (by decide), h]
  · refine congrArg Host.Outcome.next ?_
    unfold i2cTransaction
    rw [hr, h]
    rfl
  · refine congrArg Host.Outcome.next ?_
    unfold i2cTransaction
    rw [hr, h, if_neg (by decide), h1]
    exact if_neg (by simp [h2, h3])
  · have hx : i2cTransaction x s = (s.modLinks fun l => { l with i2cError := true }).raise 247 := by
      unfold i2cTransaction
      rw [hr, h, if_neg (by decide)]
      exact if_pos (by rcases h1 with h1 | h1 | h1 <;> simp [h1])
    obtain ⟨k1, k2⟩ := raise_after (s := s.modLinks fun l => { l with i2cError := true }) hr 247
    have k3 : Only [] (s.modLinks fun l => { l with i2cError := true }) ((s.modLinks fun l => { l with i2cError := true }).raise 247) := raise_only ..
    refine ⟨_, congrArg Host.Outcome.next hx, (modLinks_same ..).trans k1, ?_, k2⟩
    rw [k3.links]
    rfl

end Sys2Proof.Proofs

/-! SUPPORT. A link that comes up while a session stands open on a command ring (R502, R475). -/

namespace Sys2Proof.Proofs
open Sys2Proof Sys2Proof.Machine Sys2Proof.Claims

/-- A session stands open on reply ring 0, which is enabled and free, and takes event packets; the PCIe link is down. -/
def ringListens : State :=
  { State.reset with
    boot := { State.reset.boot with inReset := false }
    links := { State.reset.links with pcieWidth := 0, cr := State.reset.links.cr.set 0 { CmdRing.reset 0 with ctl := 1, rsize := 16 } }
    sessions := State.reset.sessions.set 0 { Session.reset with isOpen := true, transport := .ring 0, eventMask := BitVec.allOnes 256 }
    ev := { State.reset.ev with
      en := BitVec.allOnes 256, cfg := State.reset.ev.cfg.set 232 { State.reset.ev.cfg[(232 : EvIx)] with packet := true } } }

/-- EV232 of the link that comes up goes into the ring: its head moves. -/
theorem ringListens_head : fld (pcieLinkChange { width := 16, rate := 32 } ringListens).links.cr[(0 : Fin 4)].rhead 0 11 = 1 ∧
    fld ringListens.links.cr[(0 : Fin 4)].rhead 0 11 = 0 := by decide +kernel

/-- Refutes O49: a link that comes up raises EV232, and the event packet of a session that stands open on a reply ring goes into that ring, so the rings
are not as they were. -/
theorem not_pcieLinkAndStreamRings : ¬Obligations.PcieLinkAndStreamRings := by
  unfold Obligations.PcieLinkAndStreamRings
  intro h
  obtain ⟨hlink, -⟩ := h ringListens (by decide +kernel)
  obtain ⟨-, -, hup, -⟩ := hlink { width := 16, rate := 32 }
  obtain ⟨t, ht, -, -, -, -, hcr, -⟩ := hup (by decide +kernel) (by decide +kernel)
  have he : pcieLinkChange { width := 16, rate := 32 } ringListens = t := Host.Outcome.next.inj ht
  obtain ⟨h1, h0⟩ := ringListens_head
  rw [he, hcr, h0] at h1
  exact absurd h1 (by decide)

end Sys2Proof.Proofs

/-! SUPPORT. The servo of the device clock, the choice of the PTP transmitter and the pulses of PPS_IN (R222, R513 to R516). -/

namespace Sys2Proof.Proofs
open Sys2Proof Sys2Proof.Machine Sys2Proof.Claims

/-! ### The servo (R516) -/

/-- The measured offset is kept; beyond half of the step threshold a locked clock warns with EV199. -/
def servoWarns (thr : Nat) (off : Int) (s : State) : State :=
  if s.time.locked && decide (thr < 2 * off.natAbs) then ({ s with time := { s.time with offset := off } } : State).raise 199
  else { s with time := { s.time with offset := off } }

/-- The rate that the servo steers at: a free value within 500 ppm. -/
def servoRate (s : State) : Int := ((s.fresh.1.toNat % 1000000000001 : Nat) : Int) - 500000000000

/-- The clock is stepped beyond the threshold, and steered within it. -/
def servoMoves (thr : Nat) (off : Int) (s : State) : State :=
  if thr < off.natAbs then ({ s with time := { s.time with dev := ((s.time.dev : Int) - off).toNat, devSet := true } } : State).raise 196
  else { s.fresh.2 with time := { s.fresh.2.time with rate := servoRate s, devSet := true } }

/-- Since when the offsets measured lie within 100 ns. -/
def servoSince (off : Int) (s : State) : Option Time := if decide (off.natAbs ≤ 100 * ns) then some (s.time.goodSince.getD s.time.mono) else none

/-- Whether the clock is locked after a measurement. -/
def servoLocked (off : Int) (s : State) : Bool :=
  decide (off.natAbs ≤ 100 * ns) &&
    (s.time.locked || (match servoSince off s with | some t => decide (t + 60 * sec ≤ s.time.mono) | none => false))

/-- The lock of `u` follows the measurement that `s` made. -/
def servoLocks (off : Int) (s u : State) : State :=
  if servoLocked off s != s.time.locked then
    ({ u with time := { u.time with goodSince := servoSince off s, locked := servoLocked off s } } : State).raise 195
  else { u with time := { u.time with goodSince := servoSince off s, locked := servoLocked off s } }

theorem servo_eq (s : State) (off : Int) :
    s.servo off = servoLocks off s (servoMoves (s.settings.dev 0x1B06 * 65536) off (servoWarns (s.settings.dev 0x1B06 * 65536) off s)) := by
  unfold State.servo servoLocks servoMoves servoWarns servoLocked servoSince servoRate
  rfl

theorem servoWarns_effect (thr : Nat) (off : Int) (s : State) : Only [.time] s (servoWarns thr off s) ∧
    (servoWarns thr off s).time = { s.time with offset := off } ∧
    (s.boot.inReset = false → s.time.locked = true → thr < 2 * off.natAbs → (servoWarns thr off s).ev.pend.getLsbD 199 = true) := by
  have h1 : Only [.time] s { s with time := { s.time with offset := off } } := time_only ..
  unfold servoWarns
  split
  · exact ⟨h1.trans (raise_only ..), (raise_same ..).time, fun hb _ _ => raise_pend _ 199 199 hb (.inl rfl)⟩
  · rename_i hn
    exact ⟨h1, rfl, fun _ hl ht => absurd (by rw [hl, decide_eq_true ht]; rfl) hn⟩

theorem servoMoves_effect (thr : Nat) (off : Int) (s : State) : Only [.time, .free] s (servoMoves thr off s) ∧
    (thr < off.natAbs → (servoMoves thr off s).time = { s.time with dev := ((s.time.dev : Int) - off).toNat, devSet := true } ∧
      (servoMoves thr off s).free = s.free ∧ (s.boot.inReset = false → (servoMoves thr off s).ev.pend.getLsbD 196 = true)) ∧
    (off.natAbs ≤ thr → (servoMoves thr off s).time = { s.time with rate := servoRate s, devSet := true } ∧
      (servoMoves thr off s).free = s.free + 1) := by
  unfold servoMoves
  split
  · rename_i h
    exact ⟨((time_only _ _).trans (raise_only _ _)).mono (by decide),
      fun _ => ⟨(raise_same ..).time, (raise_same ..).free, fun hb => raise_pend _ 196 196 hb (.inl rfl)⟩, fun hn => absurd h (by omega)⟩
  · rename_i h
    exact ⟨((fresh_only s).mono (by decide)).trans ((time_only s.fresh.2 _).mono (by decide)), fun hn => absurd hn h, fun _ => ⟨rfl, rfl⟩⟩

theorem servoLocks_effect (off : Int) (s u : State) : Only [.time] u (servoLocks off s u) ∧
    (servoLocks off s u).time = { u.time with goodSince := servoSince off s, locked := servoLocked off s } ∧
    (u.boot.inReset = false → servoLocked off s ≠ s.time.locked → (servoLocks off s u).ev.pend.getLsbD 195 = true) := by
  have h1 : Only [.time] u { u with time := { u.time with goodSince := servoSince off s, locked := servoLocked off s } } := time_only ..
  unfold servoLocks
  split
  · exact ⟨h1.trans (raise_only ..), (raise_same ..).time, fun hb _ => raise_pend _ 195 195 hb (.inl rfl)⟩
  · rename_i hn
    exact ⟨h1, rfl, fun _ h => absurd (bne_iff_ne.2 h) hn⟩

theorem servoRate_le (s : State) : (servoRate s).natAbs ≤ 500000000000 := by
  unfold servoRate
  have := Nat.mod_lt s.fresh.1.toNat (show 0 < 1000000000001 by decide)
  omega

theorem servoLocked_far {off : Int} (s : State) (h : 100 * ns < off.natAbs) : servoLocked off s = false := by
  unfold servoLocked
  rw [decide_eq_false (by omega), Bool.false_and]

theorem servoLocked_long {off : Int} {s : State} {g : Time} (h : off.natAbs ≤ 100 * ns) (hg : s.time.goodSince = some g) (hl : g + 60 * sec ≤ s.time.mono) :
    servoLocked off s = true := by
  have hs : servoSince off s = some g := by rw [servoSince, decide_eq_true h, if_pos rfl, hg]; rfl
  rw [servoLocked, hs, decide_eq_true h]
  dsimp only
  rw [decide_eq_true hl, Bool.or_true, Bool.and_self]

/-- What a measured offset leaves (R516). -/
structure Served (off : Int) (s t : State) : Prop where
  only : Only [.time, .free] s t
  mono : t.time.mono = s.time.mono
  devSet : t.time.devSet = true
  offset : t.time.offset = off
  far : s.settings.dev 0x1B06 * 65536 < off.natAbs → t.time.dev = ((s.time.dev : Int) - off).toNat ∧
    (s.boot.inReset = false → t.ev.pend.getLsbD 196 = true) ∧ t.time.rate = s.time.rate ∧ t.free = s.free
  near : off.natAbs ≤ s.settings.dev 0x1B06 * 65536 → t.time.dev = s.time.dev ∧ t.time.rate.natAbs ≤ 500000000000 ∧ t.free = s.free + 1
  locked : t.time.locked = servoLocked off s
  turned : s.boot.inReset = false → servoLocked off s ≠ s.time.locked → t.ev.pend.getLsbD 195 = true
  warned : s.boot.inReset = false → s.time.locked = true → s.settings.dev 0x1B06 * 65536 < 2 * off.natAbs → t.ev.pend.getLsbD 199 = true

theorem servo_served (s : State) (off : Int) : Served off s (s.servo off) := by
  rw [servo_eq]
  generalize hthr : s.settings.dev 0x1B06 * 65536 = thr
  obtain ⟨a1, a2, a3⟩ := servoWarns_effect thr off s
  generalize servoWarns thr off s = u at *
  obtain ⟨b1, bfar, bnear⟩ := servoMoves_effect thr off u
  generalize servoMoves thr off u = v at *
  obtain ⟨c1, c2, c3⟩ := servoLocks_effect off s v
  generalize servoLocks off s v = t at *
  have hu : ∀ n : EvIx, u.ev.pend.getLsbD n.val = true → t.ev.pend.getLsbD n.val = true := fun n h => c1.pend n (b1.pend n h)
  have hub : u.boot.inReset = s.boot.inReset := a1.inReset
  have hvb : v.boot.inReset = s.boot.inReset := b1.inReset.trans hub
  have huf : u.free = s.free := a1.same .free (by decide)
  have htf : t.free = v.free := c1.same .free (by decide)
  have hv : v.time = { u.time with dev := v.time.dev, rate := v.time.rate, devSet := true } := by
    by_cases h : thr < off.natAbs
    · rw [(bfar h).1]
    · rw [(bnear (Nat.le_of_not_lt h)).1]
  refine ⟨(a1.mono (by decide)).trans (b1.trans (c1.mono (by decide))), by rw [c2, hv, a2], by rw [c2, hv], by rw [c2, hv, a2], fun h => ?_,
    fun h => ?_, by rw [c2], fun hb => c3 (hvb.trans hb), fun hb hl hw => hu 199 (a3 hb hl (hthr ▸ hw))⟩
  · obtain ⟨ht, hf, hp⟩ := bfar (hthr ▸ h)
    exact ⟨by rw [c2, ht, a2], fun hb => c1.pend 196 (hp (hub.trans hb)), by rw [c2, ht, a2], htf.trans (hf.trans huf)⟩
  · obtain ⟨ht, hf⟩ := bnear (hthr ▸ h)
    exact ⟨by rw [c2, ht, a2], by rw [c2, ht]; exact servoRate_le u, by rw [htf, hf, huf]⟩

/-! ### The transmitter (R513) -/

theorem bestMaster_mem {ms : List Announce} (h : ms ≠ []) : ∃ b ∈ ms, bestMaster ms = some b := by
  have key : ∀ (l : List Announce) (x : Announce), ∃ b ∈ x :: l,
      l.foldl (fun b a => match b with | some x => if announceBetter a x then some a else b | none => some a) (some x) = some b := by
    intro l
    induction l with
    | nil => exact fun x => ⟨x, List.mem_cons_self .., rfl⟩
    | cons a l ih =>
      intro x
      rw [List.foldl_cons]
      dsimp only
      split
      · obtain ⟨b, hb, hr⟩ := ih a
        exact ⟨b, List.mem_cons_of_mem _ hb, hr⟩
      · obtain ⟨b, hb, hr⟩ := ih x
        exact ⟨b, (List.mem_cons.1 hb).elim (fun e => e ▸ List.mem_cons_self ..) fun e => List.mem_cons_of_mem _ (List.mem_cons_of_mem _ e), hr⟩
  cases ms with
  | nil => exact absurd rfl h
  | cons a l => exact key l a

/-- The receiver hears `heard` and follows the best of them. -/
def hears (heard : List Announce) (s : State) : State :=
  { s with time := { s.time with masters := heard, transmitter := (bestMaster heard).map (·.sender), receiving := true } }

theorem announced_effect {s : State} {a : Announce} {heard : List Announce} (h1 : s.settings.dev 0x1B01 = 1) (h2 : s.links.tportUp = true)
    (hh : heard = (s.time.masters.filter fun x => x.sender != a.sender) ++ [a]) :
    Only [.time] s (ptpMessage (.announce (s.settings.dev 0x1B02) a) s) ∧
      (ptpMessage (.announce (s.settings.dev 0x1B02) a) s).time = (hears heard s).time ∧
      (s.boot.inReset = false → s.time.transmitter ≠ (bestMaster heard).map (·.sender) →
        (ptpMessage (.announce (s.settings.dev 0x1B02) a) s).ev.pend.getLsbD 197 = true) ∧
      (s.boot.inReset = false → s.time.receiving = false → (ptpMessage (.announce (s.settings.dev 0x1B02) a) s).ev.pend.getLsbD 194 = true) := by
  have he : ptpMessage (.announce (s.settings.dev 0x1B02) a) s =
      (let s2 := if s.time.transmitter = (bestMaster heard).map (·.sender) then hears heard s else (hears heard s).raise 197
       if s.time.receiving then s2 else s2.raise 194) := by
    subst hh
    unfold ptpMessage
    rw [if_neg (by simp [h1, h2])]
    dsimp only
    rw [if_neg (not_not.2 rfl)]
    rfl
  rw [he]
  dsimp only
  have k0 : Only [.time] s (hears heard s) := time_only ..
  have kb : (hears heard s).boot.inReset = s.boot.inReset := rfl
  generalize hears heard s = w at k0 kb ⊢
  have k1 : Only [] w (if s.time.transmitter = (bestMaster heard).map (·.sender) then w else w.raise 197) := .ite (fun _ => .refl ..) fun _ => raise_only ..
  have k2 : s.boot.inReset = false → s.time.transmitter ≠ (bestMaster heard).map (·.sender) →
      (if s.time.transmitter = (bestMaster heard).map (·.sender) then w else w.raise 197).ev.pend.getLsbD 197 = true := by
    intro hb hn
    rw [if_neg hn]
    exact raise_pend _ 197 197 (kb.trans hb) (.inl rfl)
  generalize (if s.time.transmitter = (bestMaster heard).map (·.sender) then w else w.raise 197) = v at k1 k2 ⊢
  have k3 : Only [] v (if s.time.receiving then v else v.raise 194) := .ite (fun _ => .refl ..) fun _ => raise_only ..
  refine ⟨k0.trans ((k1.trans k3).mono (by decide)), k3.time.trans k1.time, fun hb hn => k3.pend 197 (k2 hb hn), fun hb hr => ?_⟩
  rw [if_neg (by simp [hr])]
  exact raise_pend _ 194 194 (k1.inReset.trans (kb.trans hb)) (.inl rfl)

theorem unfollow_effect (s : State) : (s.time.receiving = false → s.unfollow = { s with time := { s.time with masters := [] } }) ∧
    (s.time.receiving = true → s.unfollow.time = { s.time with receiving := false, transmitter := none, masters := [] } ∧
      (s.boot.inReset = false → s.unfollow.ev.pend.getLsbD 194 = true)) := by
  unfold State.unfollow
  refine ⟨fun h => by rw [if_neg (by simp [h])], fun h => ?_⟩
  rw [if_pos h]
  exact ⟨(raise_same ..).time, fun hb => raise_pend _ 194 194 hb (.inl rfl)⟩

/-- The timing port comes up. -/
def timingUp (s : State) : State :=
  ((s.modClk fun c => { c with recovSince := s.time.mono }).modLinks fun l => { l.release .timing with tportUp := true }).raise 193

theorem timingUp_effect (s : State) : Only [.clk, .links] s (timingUp s) ∧ (timingUp s).links.tportUp = true ∧
    (timingUp s).clk = { s.clk with recovSince := s.time.mono } ∧ CrossId.timing ∉ (timingUp s).links.resetFlags ∧
    (s.boot.inReset = false → (timingUp s).ev.pend.getLsbD 193 = true) := by
  unfold timingUp
  have k1 : Only [.clk] s (s.modClk fun c => { c with recovSince := s.time.mono }) := modClk_only ..
  have k2 : Only [.links] _ ((s.modClk fun c => { c with recovSince := s.time.mono }).modLinks fun l => { l.release .timing with tportUp := true }) :=
    modLinks_only ..
  have k3 : Only [] _ (((s.modClk fun c => { c with recovSince := s.time.mono }).modLinks fun l => { l.release .timing with tportUp := true }).raise 193) :=
    raise_only ..
  refine ⟨(k1.mono (by decide)).trans ((k2.mono (by decide)).trans (k3.mono (by decide))), by rw [k3.links]; rfl, (raise_same ..).clk, ?_,
    fun hb => raise_pend _ 193 193 hb (.inl rfl)⟩
  rw [k3.links]
  exact fun hm => absurd rfl (bne_iff_ne.1 (List.mem_filter.1 hm).2)

theorem timingDown_effect (s : State) : Only [.time, .links] s (timingDown s) ∧ (timingDown s).links.tportUp = false ∧
    (s.boot.inReset = false → (timingDown s).ev.pend.getLsbD 193 = true) ∧
    (s.time.receiving = false → (timingDown s).time = { s.time with masters := [] }) ∧
    (s.time.receiving = true → (timingDown s).time = { s.time with receiving := false, transmitter := none, masters := [] } ∧
      (s.boot.inReset = false → (timingDown s).ev.pend.getLsbD 194 = true)) := by
  unfold timingDown
  have k1 : Only [.links] s (s.modLinks fun l => { l with tportUp := false }) := modLinks_only ..
  have kl : (s.modLinks fun l => { l with tportUp := false }).links.tportUp = false := rfl
  generalize s.modLinks (fun l => { l with tportUp := false }) = u at k1 kl ⊢
  have k2 : Only [] u (u.raise 193) := raise_only ..
  have kp : u.boot.inReset = false → (u.raise 193).ev.pend.getLsbD 193 = true := fun hb => raise_pend _ 193 193 hb (.inl rfl)
  generalize u.raise 193 = v at k2 kp ⊢
  obtain ⟨hno, hyes⟩ := unfollow_effect v
  have k3 := unfollow_only v
  have ht : v.time = s.time := k2.time.trans k1.time
  have hb : v.boot.inReset = s.boot.inReset := k2.inReset.trans k1.inReset
  refine ⟨(k1.mono (by decide)).trans ((k2.mono (by decide)).trans (k3.mono (by decide))), ?_, fun h => k3.pend 193 (kp (k1.inReset.trans h)), fun h => ?_,
    fun h => ?_⟩
  · rw [k3.links]
    show v.links.tportUp = false
    rw [k2.links]
    exact kl
  · rw [hno (by rw [ht]; exact h), ht]
  · obtain ⟨h1, h2⟩ := hyes (by rw [ht]; exact h)
    exact ⟨by rw [h1, ht], fun h => h2 (hb.trans h)⟩

/-! ### The pulses of PPS_IN (R222, R516) -/

/-- How far an instant of the device clock lies from its nearest whole second. -/
def secondOff (dev : Nat) : Int := if 2 * (dev % sec) < sec then ((dev % sec : Nat) : Int) else ((dev % sec : Nat) : Int) - (sec : Nat)

/-- What a pulse at `now` leaves in the time-interval unit. -/
def pulseTiu (near good onTime : Bool) (now : Time) (here : Nat × Nat) (u : Tiu) : Tiu :=
  if bit u.stat 2 then
    { u with
      ppsNear := near, ppsAt := now, ppsRun := if !good then 0 else if onTime then u.ppsRun + 1 else 1
      ppsLast := if good then some here else none
      secondEdge := if good && onTime && bit u.stat 3 then some here else u.secondEdge }
  else { u with ppsRun := 0, ppsLast := none }

/-- The inputs are followed when a pulse lies near a second and the last did not, or the other way round. -/
def pulseFollows (near : Bool) (s u : State) : State := if bit s.tiu.stat 2 && near != s.tiu.ppsNear then u.followInputs false else u

theorem pulseFollows_follows (near : Bool) (s u : State) : Follows u (pulseFollows near s u) := by
  unfold pulseFollows
  split
  · exact followInputs_follows ..
  · exact .of_only (.refl ..)

theorem pulseTiu_eq (u : State) (near good onTime : Bool) (now : Time) (here : Nat × Nat) :
    (if bit u.tiu.stat 2 then u.modTiu fun u => { u with
        ppsNear := near, ppsAt := now, ppsRun := if !good then 0 else if onTime then u.ppsRun + 1 else 1
        ppsLast := if good then some here else none
        secondEdge := if good && onTime && bit u.stat 3 then some here else u.secondEdge }
      else u.modTiu fun u => { u with ppsRun := 0, ppsLast := none }) = u.modTiu (pulseTiu near good onTime now here) := by
  unfold State.modTiu pulseTiu
  split <;> rfl

theorem onTime_eq (l : Option (Nat × Nat)) (edge : Nat) :
    (match l with | some l => l.1 + 10000000 == edge | none => false) = decide (l.map (fun l => l.1 + 10000000) = some edge) := by
  cases l with
  | none => rfl
  | some l => exact ((decide_eq_decide.2 Option.some_inj).trans (beq_eq_decide ..).symm).symm

/-- The pulse at `u`, before the servo takes it. -/
def pulsed (good onTime : Bool) (here : Nat × Nat) (u : State) : State :=
  pulseFollows (decide ((secondOff u.time.dev).natAbs ≤ 100 * ms)) u
    (u.modTiu (pulseTiu (decide ((secondOff u.time.dev).natAbs ≤ 100 * ms)) good onTime u.time.mono here))

theorem ppsPulse_eq (t : Time) (edge : Nat) (off : Int) (s : State) {u : State} (hu : u = s.until t) :
    ppsPulse t edge off s =
      (let v := pulsed (decide (off.natAbs ≤ 20 * ns)) (decide (u.tiu.ppsLast.map (fun l => l.1 + 10000000) = some edge))
        (edge, (u.time.dev + sec / 2) / sec) u
       if u.settings.dev 0x1B01 = 2 then v.servo (secondOff u.time.dev) else v) := by
  unfold ppsPulse
  rw [← hu]
  dsimp only
  rw [pulseTiu_eq, ← onTime_eq]
  rfl

/-- What a pulse leaves (R222). -/
theorem pulsed_effect (good onTime : Bool) (here : Nat × Nat) (u : State) : Only [.tiu, .ports] u (pulsed good onTime here u) ∧
    (bit u.tiu.stat 2 = false → (pulsed good onTime here u).tiu = { u.tiu with ppsRun := 0, ppsLast := none }) ∧
    (bit u.tiu.stat 2 = true → ∃ a b c d, (pulsed good onTime here u).tiu =
      { pulseTiu (decide ((secondOff u.time.dev).natAbs ≤ 100 * ms)) good onTime u.time.mono here u.tiu with stat := a, fit := b, run := c, holdSince := d }) := by
  unfold pulsed
  generalize decide ((secondOff u.time.dev).natAbs ≤ 100 * ms) = near
  have k1 : Only [.tiu] u (u.modTiu (pulseTiu near good onTime u.time.mono here)) := modTiu_only ..
  have k2 := pulseFollows_follows near u (u.modTiu (pulseTiu near good onTime u.time.mono here))
  refine ⟨(k1.mono (by decide)).trans k2.only, fun h => ?_, fun _ => ⟨_, _, _, _, k2.tiu⟩⟩
  rw [pulseFollows, if_neg (by simp [h])]
  exact if_neg (by simp [h])

end Sys2Proof.Proofs

/-! O51: the timing port and the servo. -/

namespace Sys2Proof.Proofs
open Sys2Proof Sys2Proof.Machine Sys2Proof.Claims

theorem ptpMessage_off {s : State} (m : PtpMsg) (h : s.settings.dev 0x1B01 ≠ 1 ∨ s.links.tportUp = false) : ptpMessage m s = s := by
  unfold ptpMessage
  rw [if_pos]
  rcases h with h | h <;> simp [h]

theorem exchange_other {s : State} {dom : Nat} {tx : BitVec 64} (h : dom ≠ s.settings.dev 0x1B02 ∨ s.time.transmitter ≠ some tx) (t1 t2 t3 t4 : Int) :
    ptpMessage (.exchange dom tx t1 t2 t3 t4) s = s := by
  unfold ptpMessage
  split
  · rfl
  · dsimp only
    rw [if_pos]
    rcases h with h | h <;> simp [h]

theorem announce_other {s : State} {dom : Nat} (h : dom ≠ s.settings.dev 0x1B02) (a : Announce) : ptpMessage (.announce dom a) s = s := by
  unfold ptpMessage
  split
  · rfl
  · exact if_pos h

theorem exchange_servo {s : State} {tx : BitVec 64} (h1 : s.settings.dev 0x1B01 = 1) (h2 : s.links.tportUp = true) (h3 : s.time.transmitter = some tx)
    (t1 t2 t3 t4 : Int) : ptpMessage (.exchange (s.settings.dev 0x1B02) tx t1 t2 t3 t4) s =
      s.servo (Int.fdiv ((t2 - t1) - (t4 - t3)) 2 - s.settings.getI .device 0 0 0x1B05 0 0) := by
  unfold ptpMessage
  rw [if_neg (by simp [h1, h2])]
  dsimp only
  rw [if_neg (by simp [h3])]

theorem announceSyncTimeout_off {s : State} (h : s.settings.dev 0x1B01 ≠ 1 ∨ s.time.receiving = false) : announceSyncTimeout s = s := by
  unfold announceSyncTimeout
  rw [if_pos]
  rcases h with h | h <;> simp [h]

theorem announceSyncTimeout_effect {s : State} (h : s.settings.dev 0x1B01 = 1) (hr : s.time.receiving = true) : Only [.time] s (announceSyncTimeout s) ∧
    (announceSyncTimeout s).time = { s.time with receiving := false, transmitter := none, masters := [] } ∧
    (s.boot.inReset = false → (announceSyncTimeout s).ev.pend.getLsbD 198 = true ∧ (announceSyncTimeout s).ev.pend.getLsbD 194 = true) := by
  have he : announceSyncTimeout s = (s.raise 198).unfollow := if_neg (by simp [h, hr])
  rw [he]
  have k1 : Only [] s (s.raise 198) := raise_only ..
  have kp : s.boot.inReset = false → (s.raise 198).ev.pend.getLsbD 198 = true := fun hb => raise_pend _ 198 198 hb (.inl rfl)
  generalize s.raise 198 = v at k1 kp ⊢
  obtain ⟨h1, h2⟩ := (unfollow_effect v).2 (by rw [k1.time]; exact hr)
  exact ⟨(k1.mono (by decide)).trans (unfollow_only v), by rw [h1, k1.time],
    fun hb => ⟨(unfollow_only v).pend 198 (kp hb), h2 (k1.inReset.trans hb)⟩⟩

theorem timingPortUp_eq {s : State} (h : s.links.tportUp = false) : timingPortLinkChange true s = timingUp s := if_neg (by simp [h])

theorem sameWork_of_only {F : List Part} {s t u : State} (h : Only F s t) (hu : overlay F s t = u := by rfl) : SameWork u t := hu ▸ h.sameWork

/-- Settles O51: each message, link change and pulse is the servo's or the receiver's one step, and each raises its event. -/
theorem timingPortDisciplinesTheClock : Obligations.TimingPortDisciplinesTheClock := by
  unfold Obligations.TimingPortDisciplinesTheClock
  intro s hb
  refine ⟨fun m h => congrArg Host.Outcome.next (ptpMessage_off m h), fun dom a h => congrArg Host.Outcome.next (announce_other h a),
    fun a heard h1 h2 hh => ⟨_, rfl, ?_⟩, fun dom tx t1 t2 t3 t4 h => congrArg Host.Outcome.next (exchange_other h t1 t2 t3 t4),
    fun tx t1 t2 t3 t4 o h1 h2 h3 ho => ⟨_, congrArg Host.Outcome.next (exchange_servo h1 h2 h3 t1 t2 t3 t4), ?_⟩,
    fun up h => congrArg Host.Outcome.next (if_pos h), fun up h => ?_, fun h hr => ⟨_, rfl, ?_⟩,
    fun h => congrArg Host.Outcome.next (announceSyncTimeout_off h), fun t0 edge off u d here good onTime hu hd hh hg ho => ?_⟩
  · obtain ⟨k1, k2, k3, k4⟩ := announced_effect h1 h2 hh
    obtain ⟨b, hm, hbest⟩ := bestMaster_mem (ms := heard) (by rw [hh]; simp)
    rw [hbest] at k3
    refine ⟨sameWork_of_only k1, ⟨b, hm, hbest, ?_, k3 hb⟩, k4 hb⟩
    rw [k2, hears, hbest]
    rfl
  · rw [← ho]
    have k := servo_served s o
    refine ⟨sameWork_of_only k.only, k.mono, k.devSet, k.offset, fun h => ?_, k.near, fun h => ?_, fun g h hg hl => ?_, fun h => ?_, k.warned hb⟩
    · obtain ⟨f1, f2, f3, f4⟩ := k.far h
      exact ⟨f1, f2 hb, f3, f4⟩
    · rw [k.locked, servoLocked_far s h]
    · rw [k.locked, servoLocked_long h hg hl]
    · exact k.turned hb (by rw [← k.locked]; exact h)
  · cases up with
    | true =>
      obtain ⟨k1, k2, k3, k4, k5⟩ := timingUp_effect s
      exact ⟨_, congrArg Host.Outcome.next (timingPortUp_eq h), by rw [k1.time]; exact sameWork_of_only k1, k2, k5 hb, fun _ => ⟨k1.time, k3, k4⟩, nofun⟩
    | false =>
      obtain ⟨k1, k2, k3, k4, k5⟩ := timingDown_effect s
      refine ⟨_, congrArg Host.Outcome.next ((timingPortDown_eq s).trans (if_neg (by simp [h]))), by rw [k1.clk]; exact sameWork_of_only k1, k2, k3 hb, nofun, fun _ =>
        ⟨k1.clk, k4, fun hr => ⟨(k5 hr).1, (k5 hr).2 hb⟩⟩⟩
  · obtain ⟨k1, k2, k3⟩ := announceSyncTimeout_effect h hr
    exact ⟨sameWork_of_only k1, k2, k3 hb⟩
  · have hx : exec (.ppsPulse t0 edge off) s = .next (if u.settings.dev 0x1B01 = 2 then (pulsed good onTime here u).servo d else pulsed good onTime here u) := by
      have hut : u.tiu = s.tiu := by rw [hu, State.until_tiu]
      refine congrArg Host.Outcome.next ((ppsPulse_eq t0 edge off s hu).trans ?_)
      rw [hd, hh, hg, ho, hut]
      rfl
    have hst : u.settings = s.settings := by rw [hu, State.until_settings]
    have hut : u.tiu = s.tiu := by rw [hu, State.until_tiu]
    have hub : u.boot.inReset = false := by rw [hu, State.until_boot, hb]
    clear hu hh hg ho
    refine ⟨_, hx, ?_⟩
    clear hx
    have hd' : d = secondOff u.time.dev := hd
    obtain ⟨k1, k2, k3⟩ := pulsed_effect good onTime here u
    rw [← hd'] at k3
    generalize pulsed good onTime here u = v at k1 k2 k3 ⊢
    have hvb : v.boot.inReset = false := k1.inReset.trans hub
    have hvs : v.settings = s.settings := k1.settings.trans hst
    rw [hst]
    have ks := servo_served v d
    have k4 : Only [.time, .free] v (if s.settings.dev 0x1B01 = 2 then v.servo d else v) := .ite (fun _ => ks.only) fun _ => .refl ..
    have hm : (if s.settings.dev 0x1B01 = 2 then v.servo d else v).time.mono = u.time.mono := by
      split
      · rw [ks.mono, k1.time]
      · rw [k1.time]
    refine ⟨k4.settings.trans hvs, hm, fun h => ?_, fun h => ?_, fun h => ?_, fun h => ?_⟩
    · rw [k4.tiu, k2 (by rw [hut]; exact h), hut]
    · obtain ⟨a, b, c, e, ht⟩ := k3 (by rw [hut]; exact h)
      rw [k4.tiu, ht, hut, pulseTiu, if_pos h]
      exact ⟨rfl, rfl, rfl, rfl, rfl⟩
    · rw [if_neg h, k1.time]
    · rw [if_pos h]
      have hf := ks.far
      have hn := ks.near
      rw [hvs, k1.time] at hf hn
      refine ⟨ks.offset, ks.devSet, fun hl => ?_, fun hl => ?_⟩
      · obtain ⟨f1, f2, -, -⟩ := hf hl
        exact ⟨f1, f2 hvb⟩
      · obtain ⟨n1, n2, -⟩ := hn hl
        exact ⟨n1, n2⟩

end Sys2Proof.Proofs

/-! O39: AXC1's control register, its conversions and its results (R288 to R291, R307 to R314). -/

namespace Sys2Proof.Proofs
open Sys2Proof Sys2Proof.Machine Sys2Proof.Claims

/-! ### AXC1_CTL (R309) -/

/-- AXC1_CTL and CFG_IGN after a write, before START is looked at. -/
def axc1Ctl (old v : Word) : Word × Bool :=
  let z := wrRWD (bit old 0) (fun n => n ≠ 0) 7 3
    (wrRWD (bit old 0) (fun _ => true) 2 5 (wrRWD (bit old 0) (fun _ => true) 1 1 (old, false) v) v) v
  (wrRW 1 z.1 v, z.2)

/-- Whether a write asks for a pass in ONCE mode. -/
def axc1Start (old v : Word) : Bool := bit v 10 && bit (axc1Ctl old v).1 1

/-- The registers of AXC1 after a write of AXC1_CTL. -/
def axc1Taken (v : Word) (a : Axc1) : Axc1 :=
  { a with ctl := (axc1Ctl a.ctl v).1, stat := if (axc1Ctl a.ctl v).2 || (axc1Start a.ctl v && bit a.stat 5) then setBit a.stat 9 else a.stat }

/-- AXC1 after a write of AXC1_CTL. -/
def axc1Written (v : Word) (bad : Bool) (now : Time) (a : Axc1) : Axc1 :=
  if bit a.ctl 0 && !(bit v 0) then (axc1Taken v a).off
  else if bit (axc1Ctl a.ctl v).1 0 && ((!(bit a.ctl 0) && !(bit (axc1Ctl a.ctl v).1 1)) || (axc1Start a.ctl v && !(bit a.stat 5))) then
    (axc1Taken v a).startPass bad now
  else axc1Taken v a

theorem writeAxc1Ctl_eq (v : Word) (s : State) : writeAxc1Ctl v s = s.modAxc1 (axc1Written v s.axc1Bad s.time.mono) := rfl

theorem bit_eq_fld (w : Word) (i : Nat) : bit w i = (fld w i 1).testBit 0 := by rw [fld_testBit, Nat.zero_add]; rfl

theorem mask1 (i : Nat) : bit (BitVec.ofNat 32 1) i = decide (i = 0) := by
  unfold bit
  rw [BitVec.getLsbD_one]
  cases i <;> rfl

theorem axc1Ctl_en (old v : Word) : bit (axc1Ctl old v).1 0 = bit v 0 := (bit_wrRW ..).trans (by rw [mask1]; rfl)

theorem axc1Ctl_fld (old v : Word) {lo len : Nat} (h : 1 ≤ lo) : fld (axc1Ctl old v).1 lo len = fld (wrRWD (bit old 0) (fun n => n ≠ 0) 7 3
    (wrRWD (bit old 0) (fun _ => true) 2 5 (wrRWD (bit old 0) (fun _ => true) 1 1 (old, false) v) v) v).1 lo len :=
  fld_wrRW_apart 1 _ v fun i h1 _ => by rw [mask1]; exact decide_eq_false (by omega)

theorem axc1Ctl_open {old v : Word} (h : bit old 0 = false) : bit (axc1Ctl old v).1 1 = bit v 1 ∧ fld (axc1Ctl old v).1 2 5 = fld v 2 5 ∧
    fld (axc1Ctl old v).1 7 3 = (if fld v 7 3 = 0 then fld old 7 3 else fld v 7 3) := by
  refine ⟨?_, ?_, ?_⟩
  · rw [bit_eq_fld, axc1Ctl_fld _ _ (by omega), h, (wrRWD_open _ (by omega) _ _).2 _ _ (by omega), (wrRWD_open _ (by omega) _ _).2 _ _ (by omega),
      (wrRWD_open _ (by omega) _ _).1, if_pos rfl, ← bit_eq_fld]
  · rw [axc1Ctl_fld _ _ (by omega), h, (wrRWD_open _ (by omega) _ _).2 _ _ (by omega), (wrRWD_open _ (by omega) _ _).1, if_pos rfl]
  · rw [axc1Ctl_fld _ _ (by omega), h, (wrRWD_open _ (by omega) _ _).1, (wrRWD_open _ (by omega) _ _).2 _ _ (by omega),
      (wrRWD_open _ (by omega) _ _).2 _ _ (by omega)]
    by_cases h0 : fld v 7 3 = 0 <;> simp [h0]

theorem axc1Ctl_busy {old v : Word} (h : bit old 0 = true) : bit (axc1Ctl old v).1 1 = bit old 1 := by
  rw [bit_eq_fld, axc1Ctl_fld _ _ (by omega), h, wrRWD_busy, wrRWD_busy, wrRWD_busy, ← bit_eq_fld]

/-! ### STAT and the conversion that starts -/

theorem show_bit (a : Axc1) : bit a.show.stat 5 = a.running.isSome ∧
    ∀ i, 5 < i → i < 11 → bit a.show.stat i = bit a.stat i := by
  have h : ∀ i, 5 ≤ i → i < 11 → bit a.show.stat i = if i = 5 then a.running.isSome else bit a.stat i := by
    intro i h5 h11
    unfold Axc1.show
    rw [bit_setFld _ _ (by omega), if_neg (by omega)]
    split
    · rename_i hi
      rw [hi, bit_putBit_self _ _ (by omega)]
    · rename_i hi
      rw [bit_putBit_ne _ _ hi, bit_setFld _ _ (by omega), if_neg (by omega)]
  exact ⟨(h 5 (by omega) (by omega)).trans (if_pos rfl), fun i h5 h11 => (h i (by omega) h11).trans (if_neg (by omega))⟩

/-- The parts of AXC1 that no start of a conversion touches. -/
structure Kept (a b : Axc1) : Prop where
  ctl : b.ctl = a.ctl
  urgRes : b.urgRes = a.urgRes
  seq : b.seq = a.seq
  res : b.res = a.res
  urgQ : b.urgQ = a.urgQ

theorem begin_kept (a : Axc1) (run : Option Nat) (bad : Bool) (t : Time) : Kept a (a.begin run bad t) ∧ (a.begin run bad t).running = some run ∧
    (a.begin run bad t).startAt = t ∧ (a.begin run bad t).seqOn = a.seqOn ∧ (a.begin run bad t).entry = a.entry ∧ bit (a.begin run bad t).stat 5 = true :=
  ⟨⟨rfl, rfl, rfl, rfl, rfl⟩, rfl, rfl, rfl, rfl, (show_bit _).1⟩

theorem startNext_kept (a : Axc1) (bad : Bool) (t : Time) : Kept a (a.startNext bad t) := by
  unfold Axc1.startNext
  split
  · exact (begin_kept ..).1
  · split
    · exact (begin_kept ..).1
    · exact ⟨rfl, rfl, rfl, rfl, rfl⟩

theorem advance_kept (a : Axc1) : Kept a a.advance := by
  unfold Axc1.advance
  split
  · split <;> exact ⟨rfl, rfl, rfl, rfl, rfl⟩
  · exact ⟨rfl, rfl, rfl, rfl, rfl⟩

theorem Kept.trans {a b c : Axc1} (h : Kept a b) (k : Kept b c) : Kept a c :=
  ⟨k.ctl.trans h.ctl, k.urgRes.trans h.urgRes, k.seq.trans h.seq, k.res.trans h.res, k.urgQ.trans h.urgQ⟩

theorem startPass_eq {a : Axc1} (h : a.urgQ = []) (bad : Bool) (t : Time) :
    a.startPass bad t = ({ a with seqOn := true, entry := 0, urgRun := 0 } : Axc1).begin (some 0) bad t := by
  unfold Axc1.startPass Axc1.startNext
  rw [if_neg (by simp [h]), if_pos rfl]

/-- What a pass that starts with nothing queued leaves. -/
theorem startPass_effect {a : Axc1} (h : a.urgQ = []) (bad : Bool) (t : Time) : (a.startPass bad t).running = some (some 0) ∧ (a.startPass bad t).entry = 0 ∧
    (a.startPass bad t).seqOn = true ∧ (a.startPass bad t).startAt = t ∧ bit (a.startPass bad t).stat 5 = true := by
  rw [startPass_eq h]
  obtain ⟨-, h1, h2, h3, h4, h5⟩ := begin_kept ({ a with seqOn := true, entry := 0, urgRun := 0 } : Axc1) (some 0) bad t
  exact ⟨h1, h4, h3, h2, h5⟩

theorem startPass_kept {a : Axc1} (bad : Bool) (t : Time) : Kept a (a.startPass bad t) :=
  (⟨rfl, rfl, rfl, rfl, rfl⟩ : Kept a { a with seqOn := true, entry := 0, urgRun := 0 }).trans (startNext_kept _ bad t)

theorem axc1Taken_kept (v : Word) (a : Axc1) : (axc1Taken v a).ctl = (axc1Ctl a.ctl v).1 ∧ (axc1Taken v a).res = a.res ∧ (axc1Taken v a).seq = a.seq ∧
    (axc1Taken v a).urgQ = a.urgQ ∧ (axc1Taken v a).running = a.running ∧ (axc1Taken v a).seqOn = a.seqOn ∧ (axc1Taken v a).urgRes = a.urgRes :=
  ⟨rfl, rfl, rfl, rfl, rfl, rfl, rfl⟩

theorem axc1Taken_ign {v : Word} {a : Axc1} (h : (axc1Start a.ctl v && bit a.stat 5) = true) : bit (axc1Taken v a).stat 9 = true := by
  unfold axc1Taken
  dsimp only
  rw [h, Bool.or_true, if_pos rfl]
  exact bit_setBit_self _ (by omega)

/-- A write with EN 1 starts a pass or only takes its fields. -/
theorem axc1Written_on {v : Word} (h : bit v 0 = true) (bad : Bool) (now : Time) (a : Axc1) : axc1Written v bad now a =
    if (!(bit a.ctl 0) && !(bit (axc1Ctl a.ctl v).1 1)) || (axc1Start a.ctl v && !(bit a.stat 5)) then (axc1Taken v a).startPass bad now
    else axc1Taken v a := by
  unfold axc1Written
  rw [if_neg (by simp [h]), axc1Ctl_en, h, Bool.true_and]

/-- Enabling AXC1 (R308, R309). -/
theorem axc1Enabled_effect {v : Word} {a : Axc1} (h0 : bit a.ctl 0 = false) (hv : bit v 0 = true) (hq : a.urgQ = []) (bad : Bool) (now : Time) :
    bit (axc1Written v bad now a).ctl 0 = true ∧ bit (axc1Written v bad now a).ctl 1 = bit v 1 ∧ fld (axc1Written v bad now a).ctl 2 5 = fld v 2 5 ∧
      fld (axc1Written v bad now a).ctl 7 3 = (if fld v 7 3 = 0 then fld a.ctl 7 3 else fld v 7 3) ∧ (axc1Written v bad now a).res = a.res ∧
      (axc1Written v bad now a).seq = a.seq ∧
      (bit v 1 = false ∨ (bit v 10 = true ∧ bit a.stat 5 = false) → (axc1Written v bad now a).running = some (some 0) ∧ (axc1Written v bad now a).entry = 0 ∧
        (axc1Written v bad now a).seqOn = true ∧ (axc1Written v bad now a).startAt = now ∧ bit (axc1Written v bad now a).stat 5 = true) ∧
      (bit v 1 = true → bit v 10 = false → (axc1Written v bad now a).running = a.running ∧ (axc1Written v bad now a).seqOn = a.seqOn) := by
  obtain ⟨c1, c2, c3⟩ := axc1Ctl_open (v := v) h0
  have hk : (axc1Written v bad now a).ctl = (axc1Ctl a.ctl v).1 ∧ (axc1Written v bad now a).res = a.res ∧ (axc1Written v bad now a).seq = a.seq := by
    rw [axc1Written_on hv]
    split
    · have k := startPass_kept (a := axc1Taken v a) bad now
      exact ⟨k.ctl, k.res, k.seq⟩
    · exact ⟨rfl, rfl, rfl⟩
  obtain ⟨k1, k2, k3⟩ := hk
  refine ⟨by rw [k1, axc1Ctl_en, hv], by rw [k1, c1], by rw [k1, c2], by rw [k1, c3], k2, k3, fun h => ?_, fun h1 h10 => ?_⟩
  · rw [axc1Written_on hv, if_pos]
    · exact startPass_effect (a := axc1Taken v a) hq bad now
    · rw [axc1Start, c1, h0]
      rcases h with h | ⟨h, h5⟩
      · rw [h]; rfl
      · rw [h, h5]; cases bit v 1 <;> rfl
  · rw [axc1Written_on hv, if_neg]
    · exact ⟨rfl, rfl⟩
    · rw [axc1Start, c1, h0, h1, h10]; exact Bool.false_ne_true

/-- A write of START while AXC1 is enabled (R309). -/
theorem axc1Started_effect {v : Word} {a : Axc1} (h0 : bit a.ctl 0 = true) (hv : bit v 0 = true) (h10 : bit v 10 = true) (hq : a.urgQ = []) (bad : Bool)
    (now : Time) : (bit a.ctl 1 = true → bit a.stat 5 = false → (axc1Written v bad now a).running = some (some 0) ∧ (axc1Written v bad now a).seqOn = true ∧
        (axc1Written v bad now a).startAt = now ∧ bit (axc1Written v bad now a).stat 5 = true) ∧
      (bit a.ctl 1 = true → bit a.stat 5 = true → (axc1Written v bad now a).running = a.running ∧ bit (axc1Written v bad now a).stat 9 = true) ∧
      (bit a.ctl 1 = false → (axc1Written v bad now a).running = a.running) := by
  have hs : axc1Start a.ctl v = bit a.ctl 1 := by rw [axc1Start, axc1Ctl_busy h0, h10, Bool.true_and]
  rw [axc1Written_on hv, h0, hs]
  refine ⟨fun h1 h5 => ?_, fun h1 h5 => ?_, fun h1 => ?_⟩
  · rw [if_pos (by rw [h1, h5]; rfl)]
    obtain ⟨p1, -, p3, p4, p5⟩ := startPass_effect (a := axc1Taken v a) hq bad now
    exact ⟨p1, p3, p4, p5⟩
  · rw [if_neg (by rw [h1, h5]; exact Bool.false_ne_true)]
    exact ⟨rfl, axc1Taken_ign (by rw [hs, h1, h5]; rfl)⟩
  · rw [if_neg (by rw [h1]; exact Bool.false_ne_true)]
    rfl

/-- Disabling AXC1 (R308). -/
theorem axc1Disabled_effect {v : Word} {a : Axc1} (h0 : bit a.ctl 0 = true) (hv : bit v 0 = false) (bad : Bool) (now : Time) :
    bit (axc1Written v bad now a).ctl 0 = false ∧ (axc1Written v bad now a).running = none ∧ (axc1Written v bad now a).urgQ = [] ∧
      (axc1Written v bad now a).seqOn = false ∧ bit (axc1Written v bad now a).stat 5 = false ∧ bit (axc1Written v bad now a).stat 7 = false ∧
      (axc1Written v bad now a).res = a.res ∧ (axc1Written v bad now a).urgRes = a.urgRes ∧ (axc1Written v bad now a).seq = a.seq := by
  have he : axc1Written v bad now a = (axc1Taken v a).off := if_pos (by rw [h0, hv]; rfl)
  rw [he]
  refine ⟨(axc1Ctl_en _ _).trans hv, rfl, rfl, rfl, (show_bit _).1, ?_, rfl, rfl, rfl⟩
  exact ((show_bit _).2 7 (by omega) (by omega)).trans (bit_clrBit_self _ _)

/-! ### Results (R307, R313) -/

theorem axc1Code_lt (vs : List Int) (vref : Nat) : (axc1Code vs vref).1 < 65536 := by
  unfold axc1Code
  dsimp only
  split
  · decide
  · split
    · decide
    · dsimp only
      omega

theorem b01_le (b : Bool) : b01 b ≤ 1 := by cases b <;> decide

theorem axc1Result_fld (code : Nat) (ovr under nset inval lim : Bool) (pass : BitVec 8) :
    fld (axc1Result code ovr under nset inval lim pass) 0 16 = code % 65536 ∧
      bit (axc1Result code ovr under nset inval lim pass) 16 = !(ovr || under || nset || inval) ∧
      bit (axc1Result code ovr under nset inval lim pass) 17 = ovr ∧ bit (axc1Result code ovr under nset inval lim pass) 18 = under ∧
      bit (axc1Result code ovr under nset inval lim pass) 19 = nset ∧ bit (axc1Result code ovr under nset inval lim pass) 20 = inval := by
  have hp : pass.toNat < 256 := pass.isLt
  have hb : ∀ (b : Bool) (w : Word) (i : Nat), w.toNat / 2 ^ i % 2 = b01 b → bit w i = b := by
    intro b w i h
    rw [bit, ← BitVec.testBit_toNat, Nat.testBit_eq_decide_div_mod_eq, h]
    cases b <;> rfl
  have ht : (axc1Result code ovr under nset inval lim pass).toNat = code % 65536 + 65536 * b01 (!(ovr || under || nset || inval)) + 131072 * b01 ovr +
      262144 * b01 under + 524288 * b01 nset + 1048576 * b01 inval + 2097152 * b01 lim + 4194304 * pass.toNat := by
    have h1 := b01_le (!(ovr || under || nset || inval))
    have h2 := b01_le ovr
    have h3 := b01_le under
    have h4 := b01_le nset
    have h5 := b01_le inval
    have h6 := b01_le lim
    rw [axc1Result, BitVec.toNat_ofNat]
    omega
  have h1 := b01_le (!(ovr || under || nset || inval))
  have h2 := b01_le ovr
  have h3 := b01_le under
  have h4 := b01_le nset
  have h5 := b01_le inval
  have h6 := b01_le lim
  refine ⟨?_, hb _ _ _ ?_, hb _ _ _ ?_, hb _ _ _ ?_, hb _ _ _ ?_, hb _ _ _ ?_⟩
  · rw [fld, ht]; omega
  all_goals rw [ht]; omega

end Sys2Proof.Proofs

/-! O39: urgent requests and the end of a conversion (R288 to R291, R307, R314). -/

namespace Sys2Proof.Proofs
open Sys2Proof Sys2Proof.Machine Sys2Proof.Claims

theorem modAxc1_only (s : State) (f : Axc1 → Axc1) : Only [.axc1] s (s.modAxc1 f) :=
  only_part .axc1 fun p hp => by cases p <;> first | rfl | exact absurd rfl hp | exact SameSess.of_eq rfl

theorem modAxc1_congr {s : State} {f g : Axc1 → Axc1} (h : f s.axc1 = g s.axc1) : s.modAxc1 f = s.modAxc1 g :=
  congrArg (fun a => ({ s with axc1 := a } : State)) h

/-! ### Urgent requests (R291, R314) -/

/-- AXC1 after a request that it takes. -/
def axc1Asked (v : Word) (bad : Bool) (now : Time) (a : Axc1) : Axc1 :=
  match a.running with
  | some none => ({ a with urgQ := a.urgQ ++ [v &&& 0x001FFFFF] } : Axc1).show
  | some (some _) =>
    if a.urgRun < fld a.ctl 7 3 then ({ a with urgQ := a.urgQ ++ [v &&& 0x001FFFFF] } : Axc1).startNext bad now
    else ({ a with urgQ := a.urgQ ++ [v &&& 0x001FFFFF] } : Axc1).show
  | none => ({ a with urgQ := a.urgQ ++ [v &&& 0x001FFFFF] } : Axc1).startNext bad now

theorem writeAxc1Urg_go {v : Word} (h : bit v 31 = true) (s : State) : writeAxc1Urg v s = s.modAxc1 fun a =>
    if !(bit a.ctl 0) || !(axc1WordOk v) then { a with stat := setBit a.stat 9 }
    else if 4 ≤ a.urgQ.length then { a with stat := setBit a.stat 8 }
    else axc1Asked v s.axc1Bad s.time.mono a := if_neg (by simp [h])

theorem axc1Asked_waits {a : Axc1} (h : a.running = some none ∨ (a.running.isSome = true ∧ fld a.ctl 7 3 ≤ a.urgRun)) (v : Word) (bad : Bool) (now : Time) :
    axc1Asked v bad now a = ({ a with urgQ := a.urgQ ++ [v &&& 0x001FFFFF] } : Axc1).show := by
  unfold axc1Asked
  cases hr : a.running with
  | none =>
    rcases h with h | ⟨h, -⟩
    · exact absurd (hr.symm.trans h) nofun
    · rw [hr] at h; exact absurd h nofun
  | some run =>
    cases run with
    | none => rfl
    | some n =>
      rcases h with h | ⟨-, h⟩
      · exact absurd (hr.symm.trans h) nofun
      · exact if_neg (by omega)

theorem axc1Asked_starts {a : Axc1} {n : Nat} (hq : a.urgQ = [])
    (h : (a.running = none ∧ a.seqOn = false) ∨ (a.running = some (some n) ∧ a.urgRun < fld a.ctl 7 3)) (v : Word) (bad : Bool) (now : Time) :
    axc1Asked v bad now a = ({ a with urgQ := [v &&& 0x001FFFFF] } : Axc1).begin none bad now := by
  have hs : axc1Asked v bad now a = ({ a with urgQ := a.urgQ ++ [v &&& 0x001FFFFF] } : Axc1).startNext bad now := by
    unfold axc1Asked
    rcases h with ⟨h, -⟩ | ⟨h, hl⟩
    · rw [h]
    · rw [h]
      exact if_pos hl
  rw [hs, hq]
  refine if_pos ?_
  rcases h with ⟨-, h⟩ | ⟨-, h⟩
  · show (true && (!a.seqOn || _)) = true
    rw [h]; rfl
  · show (true && (_ || decide (a.urgRun < fld a.ctl 7 3))) = true
    rw [decide_eq_true h, Bool.or_true]; rfl

/-! ### The end of a conversion (R307) -/

/-- What a completed conversion leaves. -/
structure Converted (run : Option Nat) (code : Nat) (ovr und nset inval : Bool) (s t : State) : Prop where
  only : Only [.axc1] s t
  ctl : t.axc1.ctl = s.axc1.ctl
  seq : t.axc1.seq = s.axc1.seq
  entry : ∀ n : Fin 32, run = some n.val → t.axc1.urgRes = s.axc1.urgRes ∧
    ∃ lim, t.axc1.res = s.axc1.res.set n (axc1Result code ovr und nset inval lim s.axc1.pass)
  urgent : run = none → t.axc1.res = s.axc1.res ∧ t.axc1.urgQ = s.axc1.urgQ.tail ∧ (s.boot.inReset = false → t.ev.pend.getLsbD 208 = true) ∧
    t.axc1.urgRes = axc1Result code ovr und nset inval false s.axc1.pass

/-- The registers after an urgent conversion. -/
def urgentDone (code : Nat) (ovr und nset inval : Bool) (a : Axc1) : Axc1 :=
  { a with
    urgRes := axc1Result code ovr und nset inval false a.pass, urgQ := a.urgQ.tail, urgRun := a.urgRun + 1
    lengthened := ovr || und }

/-- Whether the result of an entry is compared with its limits. -/
def axc1Checked (n : Fin 32) (ovr und nset inval : Bool) (a : Axc1) : Bool := bit a.seq[n] 21 && !(ovr || und || nset || inval)

/-- Whether a code lies outside the limits of an entry. -/
def axc1Outside (n : Fin 32) (code : Nat) (a : Axc1) : Bool := decide (code < fld a.lim[n] 0 16) || decide (fld a.lim[n] 16 16 < code)

/-- The registers after the conversion of an entry. -/
def entryDone (n : Fin 32) (code : Nat) (ovr und nset inval checked outside crossed : Bool) (a : Axc1) : Axc1 :=
  { a with
    res := a.res.set n (axc1Result code ovr und nset inval (checked && outside) a.pass)
    inside := if checked then a.inside.set n (!outside) else a.inside
    stat := if crossed then setBit a.stat 10 else a.stat
    lengthened := ovr || und }

theorem deliver_urgent_eq (code : Nat) (ovr und nset inval : Bool) (s : State) : axc1Deliver none code ovr und nset inval s =
    (let s1 := (s.modAxc1 (urgentDone code ovr und nset inval)).raise 208
     s1.modAxc1 fun a => a.startNext s1.axc1Bad s1.time.mono) := rfl

theorem deliver_entry_eq (n : Fin 32) (code : Nat) (ovr und nset inval : Bool) (s : State) : ∃ checked outside crossed,
    axc1Deliver (some n.val) code ovr und nset inval s =
    (let s1 := s.modAxc1 (entryDone n code ovr und nset inval checked outside crossed)
     let s2 := if crossed then s1.raise 207 else s1
     s2.modAxc1 fun a => a.advance.startNext s2.axc1Bad s2.time.mono) := by
  refine ⟨axc1Checked n ovr und nset inval s.axc1, axc1Outside n code s.axc1,
    axc1Checked n ovr und nset inval s.axc1 && axc1Outside n code s.axc1 && s.axc1.inside[n], ?_⟩
  unfold axc1Deliver
  dsimp only
  rw [ix_of_lt n.isLt]
  rfl

theorem deliver_urgent (code : Nat) (ovr und nset inval : Bool) (s : State) :
    Converted none code ovr und nset inval s (axc1Deliver none code ovr und nset inval s) := by
  rw [deliver_urgent_eq]
  dsimp only
  have k1 : Only [.axc1] s (s.modAxc1 (urgentDone code ovr und nset inval)) := modAxc1_only ..
  have e1 : (s.modAxc1 (urgentDone code ovr und nset inval)).axc1 = urgentDone code ovr und nset inval s.axc1 := rfl
  generalize s.modAxc1 (urgentDone code ovr und nset inval) = u at k1 e1 ⊢
  have k2 : Only [.axc1] u (u.raise 208) := raise_only ..
  have e2 : (u.raise 208).axc1 = u.axc1 := (raise_same ..).axc1
  have p2 : u.boot.inReset = false → (u.raise 208).ev.pend.getLsbD 208 = true := fun hb => raise_pend _ 208 208 hb (.inl rfl)
  generalize u.raise 208 = v at k2 e2 p2 ⊢
  have k3 : Only [.axc1] v (v.modAxc1 fun a => a.startNext v.axc1Bad v.time.mono) := modAxc1_only ..
  have kept := startNext_kept v.axc1 v.axc1Bad v.time.mono
  rw [e2, e1] at kept
  refine ⟨(k1.trans k2).trans k3, ?_, ?_, nofun, fun _ => ⟨?_, ?_, fun hb => p2 (k1.inReset.trans hb), ?_⟩⟩
  all_goals rw [State.modAxc1_axc1, e2, e1]
  · exact kept.ctl
  · exact kept.seq
  · exact kept.res
  · exact kept.urgQ
  · exact kept.urgRes

theorem deliver_entry (n : Fin 32) (code : Nat) (ovr und nset inval : Bool) (s : State) :
    Converted (some n.val) code ovr und nset inval s (axc1Deliver (some n.val) code ovr und nset inval s) := by
  obtain ⟨checked, outside, crossed, he⟩ := deliver_entry_eq n code ovr und nset inval s
  rw [he]
  dsimp only
  have k1 : Only [.axc1] s (s.modAxc1 (entryDone n code ovr und nset inval checked outside crossed)) := modAxc1_only ..
  have e1 : (s.modAxc1 (entryDone n code ovr und nset inval checked outside crossed)).axc1 =
    entryDone n code ovr und nset inval checked outside crossed s.axc1 := rfl
  generalize s.modAxc1 (entryDone n code ovr und nset inval checked outside crossed) = u at k1 e1 ⊢
  have k2 : Only [.axc1] u (if crossed then u.raise 207 else u) := .ite (fun _ => raise_only ..) fun _ => .refl ..
  have e2 : (if crossed then u.raise 207 else u).axc1 = u.axc1 := by
    split
    · exact (raise_same ..).axc1
    · rfl
  generalize (if crossed then u.raise 207 else u) = v at k2 e2 ⊢
  have k3 : Only [.axc1] v (v.modAxc1 fun a => a.advance.startNext v.axc1Bad v.time.mono) := modAxc1_only ..
  have kept := (advance_kept v.axc1).trans (startNext_kept v.axc1.advance v.axc1Bad v.time.mono)
  rw [e2, e1] at kept
  refine ⟨(k1.trans k2).trans k3, ?_, ?_, fun m hm => ?_, nofun⟩
  · rw [State.modAxc1_axc1, e2, e1]
    exact kept.ctl
  · rw [State.modAxc1_axc1, e2, e1]
    exact kept.seq
  · rw [State.modAxc1_axc1, e2, e1]
    obtain rfl : n = m := Fin.ext (Option.some.inj hm)
    exact ⟨kept.urgRes, checked && outside, kept.res⟩

theorem deliver_converted {run : Option Nat} (h : ∀ k, run = some k → k < 32) (code : Nat) (ovr und nset inval : Bool) (s : State) :
    Converted run code ovr und nset inval s (axc1Deliver run code ovr und nset inval s) := by
  cases run with
  | none => exact deliver_urgent ..
  | some n => exact deliver_entry ⟨n, h n rfl⟩ ..

/-- The end of a conversion whose reference settled. -/
theorem axc1EntryComplete_settled {s : State} {run : Option Nat} (h : s.axc1.running = some run) {m : Axc1Conv} (hm : m.refSettled = true) :
    axc1EntryComplete m s = axc1Deliver run (axc1Code m.vs m.vref).1 (axc1Code m.vs m.vref).2.1 (axc1Code m.vs m.vref).2.2 false s.axc1.invalid
      ((s.until (s.axc1.startAt + (if bit s.axc1.stat 7 then 0 else axc1Settle s.axc1.ref) + s.axc1.cycles * auxCycle)).modAxc1 fun a =>
        { a with stat := setBit a.stat 7 }) := by
  rw [axc1EntryComplete, h]
  exact if_pos hm

/-- The end of one whose reference did not. -/
theorem axc1EntryComplete_unsettled {s : State} {run : Option Nat} (h : s.axc1.running = some run) {m : Axc1Conv} (hm : m.refSettled = false) :
    ∃ f, axc1EntryComplete m s = axc1Deliver run f false false true s.axc1.invalid
      ((s.until (s.axc1.startAt + ms)).modAxc1 fun a => { a with stat := clrBit a.stat 7 }).fresh.2 := by
  refine ⟨((s.until (s.axc1.startAt + ms)).modAxc1 fun a => { a with stat := clrBit a.stat 7 }).fresh.1.toNat, ?_⟩
  rw [axc1EntryComplete, h]
  exact if_neg (by simp [hm])

theorem writtenClk_reaches {s : State} {i : Nat} (h : Reaches s i) (f : State → State) : s.writtenClk i f = f s := by
  obtain ⟨h1, h2⟩ := h
  unfold State.writtenClk State.written
  rw [h1, if_neg (by decide)]
  exact if_pos h2

/-- The result registers after a conversion, read field by field. -/
theorem Converted.reads {run : Option Nat} {code : Nat} {ovr und nset inval : Bool} {y t : State} (h : Converted run code ovr und nset inval y t) :
    (∀ n : Fin 32, run = some n.val → (∀ i, i ≠ n → t.axc1.res[i] = y.axc1.res[i]) ∧ t.axc1.urgRes = y.axc1.urgRes ∧
      fld t.axc1.res[n] 0 16 = code % 65536 ∧ bit t.axc1.res[n] 16 = !(ovr || und || nset || inval) ∧ bit t.axc1.res[n] 17 = ovr ∧
      bit t.axc1.res[n] 18 = und ∧ bit t.axc1.res[n] 19 = nset ∧ bit t.axc1.res[n] 20 = inval) ∧
    (run = none → t.axc1.res = y.axc1.res ∧ t.axc1.urgQ = y.axc1.urgQ.tail ∧ (y.boot.inReset = false → t.ev.pend.getLsbD 208 = true) ∧
      fld t.axc1.urgRes 0 16 = code % 65536 ∧ bit t.axc1.urgRes 16 = (!(ovr || und || nset || inval)) ∧ bit t.axc1.urgRes 19 = nset) := by
  refine ⟨fun n hn => ?_, fun hn => ?_⟩
  · obtain ⟨hu, lim, hr⟩ := h.entry n hn
    have hne : ∀ i, i ≠ n → t.axc1.res[i] = y.axc1.res[i] := fun i hi => by
      rw [hr]
      exact Vector.getElem_set_ne n.isLt i.isLt fun e => hi (Fin.ext e.symm)
    have hself : t.axc1.res[n] = axc1Result code ovr und nset inval lim y.axc1.pass := by
      rw [hr]
      exact Vector.getElem_set_self n.isLt
    rw [hself]
    exact ⟨hne, hu, axc1Result_fld ..⟩
  · obtain ⟨h1, h2, h3, h4⟩ := h.urgent hn
    obtain ⟨f1, f2, -, -, f5, -⟩ := axc1Result_fld code ovr und nset inval false y.axc1.pass
    rw [h4]
    exact ⟨h1, h2, h3, f1, f2, f5⟩

theorem converted_fresh {run : Option Nat} {code : Nat} {ovr und nset inval : Bool} {v t : State} {g : Axc1 → Axc1} (w : Nat)
    (h : Converted run code ovr und nset inval (v.modAxc1 g).fresh.2 t) :
    SameWork { ({ v with free := w } : State) with axc1 := t.axc1, free := t.free } t := by
  have ha : Only [.axc1] v (v.modAxc1 g) := modAxc1_only ..
  have hf : Only [.free] (v.modAxc1 g) (v.modAxc1 g).fresh.2 := fresh_only ..
  have h2 : Only [.free, .axc1] v t := (ha.mono (by decide)).trans ((hf.mono (by decide)).trans (h.only.mono (by decide)))
  exact sameWork_of_only h2

/-- Settles O39: a write of AXC1_CTL, a request and the end of a conversion each leave AXC1 as its one equation has it. -/
theorem axc1RunsItsSequence : Obligations.Axc1RunsItsSequence := by
  unfold Obligations.Axc1RunsItsSequence
  intro s
  have hctl : ∀ v, Reaches s 4 → s.writtenClk 4 (writeAxc1Ctl v) = s.modAxc1 fun _ => axc1Written v s.axc1Bad s.time.mono s.axc1 := fun v hr =>
    (writtenClk_reaches hr _).trans (writeAxc1Ctl_eq v s)
  have hurg : ∀ v, Reaches s 4 → s.writtenClk 4 (writeAxc1Urg v) = writeAxc1Urg v s := fun v hr => writtenClk_reaches hr _
  refine ⟨fun v hr hq => ⟨fun h0 hv => ?_, fun h0 hv h10 => ?_⟩, fun v hr h0 hv => ?_, fun v hr => ⟨fun h => ?_, fun h hbad => ?_, fun h h0 hok => ?_⟩,
    fun m h => ?_, fun m run u hrun hlt hset hun => ?_⟩
  · exact ⟨_, congrArg Host.Outcome.next (hctl v hr), rfl, axc1Enabled_effect h0 hv hq _ _⟩
  · exact ⟨_, congrArg Host.Outcome.next (hctl v hr), rfl, axc1Started_effect h0 hv h10 hq _ _⟩
  · exact ⟨_, congrArg Host.Outcome.next (hctl v hr), rfl, axc1Disabled_effect h0 hv _ _⟩
  · exact congrArg Host.Outcome.next ((hurg v hr).trans (if_pos (by simp [h])))
  · refine congrArg Host.Outcome.next ((hurg v hr).trans ((writeAxc1Urg_go h s).trans (modAxc1_congr (if_pos ?_))))
    rcases hbad with hb | hb <;> simp [hb]
  · have hgo : ¬(!(bit s.axc1.ctl 0) || !(axc1WordOk v)) = true := by simp [h0, hok]
    have hfew : s.axc1.urgQ.length < 4 → s.writtenClk 4 (writeAxc1Urg v) = s.modAxc1 fun _ => axc1Asked v s.axc1Bad s.time.mono s.axc1 := fun hl =>
      (hurg v hr).trans ((writeAxc1Urg_go h s).trans (modAxc1_congr ((if_neg hgo).trans (if_neg (by omega)))))
    refine ⟨fun hl => ?_, fun hl hw => ⟨_, congrArg Host.Outcome.next (hfew hl), ?_⟩, fun n hq hw => ⟨_, congrArg Host.Outcome.next (hfew (by simp [hq])), rfl, ?_⟩⟩
    · exact congrArg Host.Outcome.next ((hurg v hr).trans ((writeAxc1Urg_go h s).trans (modAxc1_congr ((if_neg hgo).trans (if_pos hl)))))
    · rw [axc1Asked_waits hw]
      exact modAxc1_congr rfl
    · rw [State.modAxc1_axc1, axc1Asked_starts hq hw]
      obtain ⟨k, h1, h2, -, -, h5⟩ := begin_kept ({ s.axc1 with urgQ := [v &&& 0x001FFFFF] } : Axc1) none s.axc1Bad s.time.mono
      exact ⟨h1, k.urgQ, h2, h5, k.res⟩
  · refine congrArg Host.Outcome.next ?_
    unfold axc1EntryComplete
    rw [h]
  · have hlt' := axc1Code_lt m.vs m.vref
    cases hm : m.refSettled with
    | true =>
      have hx := axc1EntryComplete_settled hrun hm
      have hu := hset hm
      rw [← hu] at hx
      have hua : u.axc1 = s.axc1 := by rw [hu, State.until_axc1]
      have huf : u.free = s.free := by rw [hu, State.until_free]
      have hub : u.boot.inReset = s.boot.inReset := by rw [hu, State.until_boot]
      have k := deliver_converted hlt (axc1Code m.vs m.vref).1 (axc1Code m.vs m.vref).2.1 (axc1Code m.vs m.vref).2.2 false s.axc1.invalid
        (u.modAxc1 fun a => { a with stat := setBit a.stat 7 })
      refine ⟨_, congrArg Host.Outcome.next hx, ?_⟩
      clear hx hu hset hun
      generalize axc1Deliver run _ _ _ _ _ _ = t at k ⊢
      have hf : t.free = u.free := k.only.same .free (by decide)
      have hw : SameWork { u with axc1 := t.axc1, free := t.free } t := by
        rw [hf]
        exact sameWork_of_only k.only
      obtain ⟨hctl, hseq, hrd⟩ := And.intro k.ctl (And.intro k.seq k.reads)
      rw [State.modAxc1_axc1, hua] at hctl hseq hrd
      refine ⟨hw, fun _ => hf.trans huf, hctl, hseq, fun code ovr und hc => ?_⟩
      rw [hc] at hrd hlt'
      obtain ⟨hent, hurgent⟩ := hrd
      refine ⟨fun n hn => ?_, fun hn => ?_⟩
      · obtain ⟨e1, e2, e3, e4, e5, e6, e7, e8⟩ := hent n hn
        refine ⟨e1, e2, fun _ => ⟨e3.trans (Nat.mod_eq_of_lt hlt'), ?_, e5, e6, e7, e8⟩, nofun⟩
        rw [e4, Bool.or_false]
      · obtain ⟨e1, e2, e3, e4, e5, -⟩ := hurgent hn
        refine ⟨e1, e2, fun hb => e3 (hub.trans hb), fun _ => ⟨e4.trans (Nat.mod_eq_of_lt hlt'), ?_⟩, nofun⟩
        rw [e5, Bool.or_false]
    | false =>
      obtain ⟨f, hx⟩ := axc1EntryComplete_unsettled hrun hm
      obtain ⟨w, hu⟩ := hun hm
      have k := deliver_converted hlt f false false true s.axc1.invalid
        ((s.until (s.axc1.startAt + ms)).modAxc1 fun a => { a with stat := clrBit a.stat 7 }).fresh.2
      refine ⟨_, congrArg Host.Outcome.next hx, ?_⟩
      clear hx hset hun
      have hua : (s.until (s.axc1.startAt + ms)).axc1 = s.axc1 := State.until_axc1 ..
      have hub : (s.until (s.axc1.startAt + ms)).boot = s.boot := State.until_boot ..
      generalize s.until (s.axc1.startAt + ms) = v at k hu hua hub ⊢
      subst hu
      generalize axc1Deliver run _ _ _ _ _ _ = t at k ⊢
      have hw := converted_fresh w k
      obtain ⟨hctl, hseq, hrd⟩ := And.intro k.ctl (And.intro k.seq k.reads)
      have hax : (v.modAxc1 fun a => { a with stat := clrBit a.stat 7 }).fresh.2.axc1 = { v.axc1 with stat := clrBit v.axc1.stat 7 } := rfl
      have hbt : (v.modAxc1 fun a => { a with stat := clrBit a.stat 7 }).fresh.2.boot = v.boot :=
        (fresh_only _).boot.trans (State.modAxc1_boot ..)
      rw [hax] at hctl hseq hrd
      rw [hbt, hua, hub] at hrd
      obtain ⟨hent, hurgent⟩ := hrd
      refine ⟨hw, nofun, hctl.trans (by rw [hua]), hseq.trans (by rw [hua]), fun code ovr und hc => ⟨fun n hn => ?_, fun hn => ?_⟩⟩
      · obtain ⟨e1, e2, -, e4, -, -, e7, -⟩ := hent n hn
        exact ⟨e1, e2, nofun, fun _ => ⟨e4, e7⟩⟩
      · obtain ⟨e1, e2, e3, -, e5, e6⟩ := hurgent hn
        exact ⟨e1, e2, e3, nofun, fun _ => ⟨e5, e6⟩⟩

end Sys2Proof.Proofs

/-! O38: the calibrator's control register, estimates and walks (R91 to R103). -/

namespace Sys2Proof.Proofs
open Sys2Proof Sys2Proof.Machine Sys2Proof.Claims

/-! ### One lane and one port -/

theorem modPort_self (s : State) (p : PortIx) (f : Port → Port) : (s.modPort p f).ports[p] = f s.ports[p] := Vector.getElem_set_self ..
theorem modPort_other (s : State) (p : PortIx) (f : Port → Port) {m : PortIx} (h : m ≠ p) : (s.modPort p f).ports[m] = s.ports[m] :=
  Vector.getElem_set_ne p.isLt m.isLt fun e => h (Fin.ext e.symm)
theorem modLane_self (s : State) (n : LaneIx) (f : Lane → Lane) : (s.modLane n f).lanes[n] = f s.lanes[n] := Vector.getElem_set_self ..
theorem modLane_other (s : State) (n : LaneIx) (f : Lane → Lane) {m : LaneIx} (h : m ≠ n) : (s.modLane n f).lanes[m] = s.lanes[m] :=
  Vector.getElem_set_ne n.isLt m.isLt fun e => h (Fin.ext e.symm)
theorem modPort_const (s : State) (p : PortIx) (f : Port → Port) : s.modPort p f = s.modPort p fun _ => (s.modPort p f).ports[p] := by
  rw [modPort_self]
  rfl
theorem modLane_only (s : State) (n : LaneIx) (f : Lane → Lane) : Only [.lanes] s (s.modLane n f) :=
  only_part .lanes fun p hp => by cases p <;> first | rfl | exact absurd rfl hp | exact SameSess.of_eq rfl

theorem writtenPort_reaches {s : State} {p : PortIx} (h : ReachesPort s p) (f : State → State) : s.writtenPort p.val f = f s := by
  obtain ⟨h1, h2⟩ := h
  unfold State.writtenPort State.written
  rw [h1, if_neg (by decide)]
  exact if_pos h2

/-! ### The calibrator of a pair -/

@[simp] theorem cal_putCal (q : Port) (w : Pair) (c : CalPair) : (q.putCal w c).cal w = c := by cases w <;> rfl
@[simp] theorem calState_putCal (q : Port) (w v : Pair) (c : CalPair) : (q.putCal v c).calState w = q.calState w := by cases v <;> rfl
@[simp] theorem rxcCtl_putCal (q : Port) (v : Pair) (c : CalPair) : (q.putCal v c).rxcCtl = q.rxcCtl := by cases v <;> rfl
@[simp] theorem rxcStat_putCal (q : Port) (v : Pair) (c : CalPair) : (q.putCal v c).rxcStat = q.rxcStat := by cases v <;> rfl
@[simp] theorem rxcKap_putCal (q : Port) (v : Pair) (c : CalPair) : (q.putCal v c).rxcKap = q.rxcKap := by cases v <;> rfl
@[simp] theorem cal_setCal (q : Port) (w v : Pair) (n : Nat) : (q.setCal v n).cal w = q.cal w := rfl
@[simp] theorem rxcCtl_setCal (q : Port) (v : Pair) (n : Nat) : (q.setCal v n).rxcCtl = q.rxcCtl := rfl
@[simp] theorem rxcKap_setCal (q : Port) (v : Pair) (n : Nat) : (q.setCal v n).rxcKap = q.rxcKap := rfl

theorem cal_putCal_other (q : Port) {w v : Pair} (h : w ≠ v) (c : CalPair) : (q.putCal v c).cal w = q.cal w := by
  cases w <;> cases v
  case x.x => exact absurd rfl h
  case y.y => exact absurd rfl h
  all_goals rfl

theorem calState_setCal (q : Port) (w : Pair) {n : Nat} (h : n < 16) : (q.setCal w n).calState w = n := by
  cases w <;> exact (fld_setFld _ _ (by omega)).trans (Nat.mod_eq_of_lt h)

theorem calState_setCal_other (q : Port) {w v : Pair} (h : w ≠ v) (n : Nat) : (q.setCal v n).calState w = q.calState w := by
  cases w <;> cases v
  case x.x => exact absurd rfl h
  case y.y => exact absurd rfl h
  all_goals exact fld_setFld_apart _ _ (by omega) (by omega)

theorem calState_setReason (q : Port) (w v : Pair) (n : Nat) : (q.setReason v n).calState w = q.calState w := by
  cases w <;> cases v <;> exact fld_setFld_apart _ _ (by omega) (by omega)

theorem reason_setReason (q : Port) (w : Pair) {n : Nat} (h : n < 16) : fld (q.setReason w n).rxcStat (match w with | .x => 4 | .y => 12) 4 = n := by
  cases w <;> exact (fld_setFld _ _ (by omega)).trans (Nat.mod_eq_of_lt h)

/-! ### RXC_CTL (R96, R100) -/

/-- A field of RXC_CTL that keeps its value while the calibrator runs, or refuses an illegal one: the field written, and CFG_IGN. -/
theorem wrRWD_fld (en : Bool) (ok : Nat → Bool) {lo len : Nat} (h : lo + len ≤ 32) (acc : Word × Bool) (v : Word) :
    fld (wrRWD en ok lo len acc v).1 lo len = (if en || !(ok (fld v lo len)) then fld acc.1 lo len else fld v lo len) ∧
      (∀ a n, a + n ≤ lo ∨ lo + len ≤ a → fld (wrRWD en ok lo len acc v).1 a n = fld acc.1 a n) ∧
      (wrRWD en ok lo len acc v).2 = (acc.2 || (decide (fld v lo len ≠ fld acc.1 lo len) && (en || !(ok (fld v lo len))))) := by
  unfold wrRWD
  dsimp only
  by_cases he : fld v lo len = fld acc.1 lo len
  · rw [if_pos he, he]
    exact ⟨(ite_self _).symm, fun _ _ _ => rfl, by simp⟩
  · rw [if_neg he]
    by_cases hb : (en || !(ok (fld v lo len))) = true
    · rw [if_pos hb, if_pos hb, hb]
      exact ⟨rfl, fun _ _ _ => rfl, by simp [he]⟩
    · rw [if_neg hb, if_neg hb, eq_false_of_ne_true hb]
      refine ⟨(fld_setFld _ _ h).trans (Nat.mod_eq_of_lt (fld_lt _ _ _)), fun a n ha => fld_setFld_apart _ _ h ha, by simp⟩

/-- RXC_CTL and CFG_IGN after a write. -/
def rxcCtlTaken (on : Bool) (old v : Word) : Word × Bool :=
  wrChecked (fun x => x ≠ 3) 0 2 (wrRWD on (rxcLegal 24) 24 8 (wrRWD on (rxcLegal 16) 16 4 (wrRWD on (rxcLegal 8) 8 8
    (wrRWD on (rxcLegal 2) 2 6 (old, false) v) v) v) v) v

/-- Whether a field of RXC_CTL is refused. -/
def rxcRefused (on : Bool) (old v : Word) (f : Nat × Nat) : Bool :=
  decide (fld v f.1 f.2 ≠ fld old f.1 f.2) && (on || !(rxcLegal f.1 (fld v f.1 f.2)))

theorem rxcCtlTaken_effect (on : Bool) (old v : Word) :
    fld (rxcCtlTaken on old v).1 0 2 = (if fld v 0 2 = 3 then fld old 0 2 else fld v 0 2) ∧
      (∀ f ∈ [(2, 6), (8, 8), (16, 4), (24, 8)], fld (rxcCtlTaken on old v).1 f.1 f.2 =
        if on || !(rxcLegal f.1 (fld v f.1 f.2)) then fld old f.1 f.2 else fld v f.1 f.2) ∧
      ((rxcCtlTaken on old v).2 = true ↔ fld v 0 2 = 3 ∨ ∃ f ∈ [(2, 6), (8, 8), (16, 4), (24, 8)], rxcRefused on old v f = true) := by
  unfold rxcCtlTaken
  obtain ⟨a1, a2, a3⟩ := wrRWD_fld on (rxcLegal 2) (show 2 + 6 ≤ 32 by omega) (old, false) v
  generalize wrRWD on (rxcLegal 2) 2 6 (old, false) v = a at *
  obtain ⟨b1, b2, b3⟩ := wrRWD_fld on (rxcLegal 8) (show 8 + 8 ≤ 32 by omega) a v
  generalize wrRWD on (rxcLegal 8) 8 8 a v = b at *
  obtain ⟨c1, c2, c3⟩ := wrRWD_fld on (rxcLegal 16) (show 16 + 4 ≤ 32 by omega) b v
  generalize wrRWD on (rxcLegal 16) 16 4 b v = c at *
  obtain ⟨d1, d2, d3⟩ := wrRWD_fld on (rxcLegal 24) (show 24 + 8 ≤ 32 by omega) c v
  generalize wrRWD on (rxcLegal 24) 24 8 c v = d at *
  obtain ⟨e1, e2, e3⟩ := wrChecked_fld (fun x => x ≠ 3) (show 0 + 2 ≤ 32 by omega) d v
  generalize wrChecked (fun x => x ≠ 3) 0 2 d v = e at *
  have h8 : fld a.1 8 8 = fld old 8 8 := a2 8 8 (by omega)
  have h16 : fld b.1 16 4 = fld old 16 4 := (b2 16 4 (by omega)).trans (a2 16 4 (by omega))
  have h24 : fld c.1 24 8 = fld old 24 8 := (c2 24 8 (by omega)).trans ((b2 24 8 (by omega)).trans (a2 24 8 (by omega)))
  have h0 : fld d.1 0 2 = fld old 0 2 := (d2 0 2 (by omega)).trans ((c2 0 2 (by omega)).trans ((b2 0 2 (by omega)).trans (a2 0 2 (by omega))))
  rw [h8] at b1 b3
  rw [h16] at c1 c3
  rw [h24] at d1 d3
  rw [h0] at e1
  refine ⟨?_, ?_, ?_⟩
  · rw [e1]
    by_cases h : fld v 0 2 = 3 <;> simp [h]
  · simp only [List.forall_mem_cons, List.not_mem_nil, false_implies, implies_true, and_true]
    refine ⟨?_, ?_, ?_, ?_⟩
    · rw [e2 2 6 (by omega), d2 2 6 (by omega), c2 2 6 (by omega), b2 2 6 (by omega), a1]
    · rw [e2 8 8 (by omega), d2 8 8 (by omega), c2 8 8 (by omega), b1]
    · rw [e2 16 4 (by omega), d2 16 4 (by omega), c1]
    · rw [e2 24 8 (by omega), d1]
  · rw [e3, d3, c3, b3, a3]
    simp only [List.mem_cons, List.not_mem_nil, or_false, exists_eq_or_imp, exists_eq_left, rxcRefused, Bool.or_eq_true, Bool.not_eq_true',
      decide_eq_false_iff_not, not_not, Bool.false_eq_true, false_or, ne_eq]
    tauto

/-- The calibrator of a pair is to begin at the next frame boundary, when a mode is newly set. -/
def rxcAgain (was : Port) (w : Pair) (r : Port) : Port :=
  if r.calMode ≠ 0 ∧ r.calMode ≠ was.calMode ∧ (r.calState w = 4 ∨ r.calState w = 3 ∨ r.calState w = 0) then r.putCal w { r.cal w with restart := true } else r

/-- A port after a write of RXC_CTL. -/
def rxcWritten (v : Word) (q : Port) : Port :=
  rxcAgain q .y (rxcAgain q .x { q with
    rxcCtl := (rxcCtlTaken (decide (q.calMode ≠ 0)) q.rxcCtl v).1
    rxcStat := if (rxcCtlTaken (decide (q.calMode ≠ 0)) q.rxcCtl v).2 then setBit q.rxcStat 19 else q.rxcStat })

theorem rxcAgain_regs (was : Port) (w : Pair) (r : Port) : (rxcAgain was w r).rxcCtl = r.rxcCtl ∧ (rxcAgain was w r).rxcStat = r.rxcStat := by
  unfold rxcAgain
  split
  · exact ⟨rxcCtl_putCal .., rxcStat_putCal ..⟩
  · exact ⟨rfl, rfl⟩

theorem rxcWritten_regs (v : Word) (q : Port) : (rxcWritten v q).rxcCtl = (rxcCtlTaken (decide (q.calMode ≠ 0)) q.rxcCtl v).1 ∧
    (rxcWritten v q).rxcStat = if (rxcCtlTaken (decide (q.calMode ≠ 0)) q.rxcCtl v).2 then setBit q.rxcStat 19 else q.rxcStat := by
  unfold rxcWritten
  exact ⟨(rxcAgain_regs ..).1.trans (rxcAgain_regs ..).1, (rxcAgain_regs ..).2.trans (rxcAgain_regs ..).2⟩

theorem writeRxcCtl_eq (p : PortIx) (v : Word) (s : State) : writeRxcCtl p v s = s.modPort p (rxcWritten v) := rfl

end Sys2Proof.Proofs

/-! O38: estimates, walks, holds and dark frames (R93 to R98). -/

namespace Sys2Proof.Proofs
open Sys2Proof Sys2Proof.Machine Sys2Proof.Claims

/-! ### Estimates (R93 to R96) -/

/-- The field of RXC_STAT or RXC_KAP of a pair. -/
theorem pairI_ne_pairQ (p : PortIx) (w : Pair) : pairI p w ≠ pairQ p w := by
  intro h
  have hv := congrArg Fin.val h
  cases w <;> exact absurd hv (by show ¬(4 * p.val + _ = 4 * p.val + _); omega)

/-- KAPPA of a pair replaced. -/
def kapped (w : Pair) (kp : Nat) (q : Port) : Port := { q with rxcKap := match w with | .x => setFld q.rxcKap 0 16 kp | .y => setFld q.rxcKap 16 16 kp }

/-- A port whose estimate pair is accepted. -/
def accepted (w : Pair) (c : CalPair) (tg : Int × Int × Int × Int) (sl : List (Nat × Nat × Int × Int)) (q : Port) : Port :=
  let q1 := ((q.setCal w 2).setReason w 0).putCal w { c.again false with targets := some tg, sliceTargets := sl }
  { q1 with rxcStat := setBit q1.rxcStat (match w with | .x => 16 | .y => 17) }

/-- A port whose estimate pair is rejected. -/
def rejected (w : Pair) (c : CalPair) (r : Nat) (q : Port) : Port :=
  ((q.setCal w 3).setReason w r).putCal w { c.again false with holdFrames := 16 * fld q.rxcCtl 2 6 }

/-- The lanes' slices that would leave their range become suspect. -/
def suspected (p : PortIx) (w : Pair) (d : Accum) (s : State) : State :=
  (s.modLane (pairI p w) fun l => l.suspectRange d.sliceI).modLane (pairQ p w) fun l => l.suspectRange d.sliceQ

theorem calibrationEstimate_idle {s : State} {p : PortIx} {w : Pair} (h : ¬Accumulates s.ports[p] w) : calibrationEstimate p w s = s := by
  unfold calibrationEstimate
  refine if_pos ?_
  by_contra hn
  simp only [Bool.or_eq_true, decide_eq_true_eq, not_or, Bool.not_eq_true, not_not, ne_eq, Nat.not_lt] at hn
  obtain ⟨⟨⟨h1, h2⟩, h3⟩, h4⟩ := hn
  exact h ⟨h1, h2, h3, h4⟩

theorem accumulates_guard {q : Port} {w : Pair} (h : Accumulates q w) :
    ¬(decide (q.calMode = 0) || decide (q.calState w ≠ 1) || (q.cal w).restart || decide ((q.cal w).frames < fld q.rxcCtl 8 8)) = true := by
  obtain ⟨h1, h2, h3, h4⟩ := h
  simp only [Bool.or_eq_true, decide_eq_true_eq, h1, h2, h3, false_or, ne_eq, not_true, Bool.false_eq_true]
  omega

theorem few_iff (d : Accum) : (decide (d.a.n < 65536) || decide (d.b.n < 65536)) = true ↔ Few d := by
  rw [Bool.or_eq_true, decide_eq_true_eq, decide_eq_true_eq]
  rfl

theorem calibrationEstimate_more {s : State} {p : PortIx} {w : Pair} (h : Accumulates s.ports[p] w) (hf : Few (s.ports[p].cal w).acc)
    (hl : (s.ports[p].cal w).frames < fld s.ports[p].rxcWin 16 16) : calibrationEstimate p w s = s := by
  unfold calibrationEstimate
  dsimp only
  rw [if_neg (accumulates_guard h), if_pos (by rw [(few_iff _).2 hf, decide_eq_true hl]; rfl)]

/-- The test of an estimate pair: the state before its event. -/
def estimated (p : PortIx) (w : Pair) (d : Accum) (c : CalPair) (tg : Int × Int × Int × Int) (r : Nat) (s : State) : State :=
  let s2 := (s.modPort p (kapped w (kappa d.a d.b))).modPort p fun q =>
    if r = 0 then accepted w c tg (sliceTargets 0 s.lanes[pairI p w] d.sliceI ++ sliceTargets 1 s.lanes[pairQ p w] d.sliceQ) q else rejected w c r q
  if r = 0 then suspected p w d s2 else s2

theorem calibrationEstimate_tested {s : State} {p : PortIx} {w : Pair} {d : Accum} {tg : Int × Int × Int × Int} {r : Nat}
    (h : Accumulates s.ports[p] w) (hd : d = (s.ports[p].cal w).acc)
    (hw : Few d → fld s.ports[p].rxcWin 16 16 ≤ (s.ports[p].cal w).frames) (ht : tg = estTargets s.lanes[pairI p w] s.lanes[pairQ p w] d.a d.b)
    (h6 : Few d → r = 6)
    (hr : ¬Few d → r = estReason d (fld s.ports[p].rxcCtl 24 8) (s.lanes[pairI p w].pDark + s.lanes[pairQ p w].pDark) tg) :
    calibrationEstimate p w s = (estimated p w d (s.ports[p].cal w) tg r s).calEvent p w := by
  subst hd
  have hr' : (if (decide ((s.ports[p].cal w).acc.a.n < 65536) || decide ((s.ports[p].cal w).acc.b.n < 65536)) = true then 6 else
      estReason (s.ports[p].cal w).acc (fld s.ports[p].rxcCtl 24 8) (s.lanes[pairI p w].pDark + s.lanes[pairQ p w].pDark) tg) = r := by
    by_cases hf : Few (s.ports[p].cal w).acc
    · rw [if_pos ((few_iff _).2 hf), h6 hf]
    · rw [if_neg (mt (few_iff _).1 hf), hr hf]
  unfold calibrationEstimate
  dsimp only
  rw [if_neg (accumulates_guard h), if_neg, ← ht, hr']
  · rfl
  · intro hn
    rw [Bool.and_eq_true, few_iff, decide_eq_true_eq] at hn
    exact absurd (hw hn.1) (by omega)

theorem kapped_fld (w : Pair) {kp : Nat} (h : kp < 65536) (q : Port) : fld (kapped w kp q).rxcKap (match w with | .x => 0 | .y => 16) 16 = kp := by
  cases w <;> exact (fld_setFld _ _ (by omega)).trans (Nat.mod_eq_of_lt h)

theorem accepted_effect (w : Pair) (c : CalPair) (tg : Int × Int × Int × Int) (sl : List (Nat × Nat × Int × Int)) (q : Port) :
    (accepted w c tg sl q).calState w = 2 ∧ ((accepted w c tg sl q).cal w).targets = some tg ∧ (accepted w c tg sl q).rxcKap = q.rxcKap ∧
      fld (accepted w c tg sl q).rxcStat (match w with | .x => 4 | .y => 12) 4 = 0 := by
  have hs := calState_setCal q w (n := 2) (by omega)
  have hr := reason_setReason (q.setCal w 2) w (n := 0) (by omega)
  have hk := calState_setReason (q.setCal w 2) w w 0
  unfold accepted
  generalize hy : (q.setCal w 2).setReason w 0 = y at hr hk
  have hkap : y.rxcKap = q.rxcKap := by rw [← hy]; rfl
  dsimp only
  refine ⟨?_, ?_, (rxcKap_putCal ..).trans hkap, ?_⟩
  · refine Eq.trans ?_ (hk.trans hs)
    cases w
    · exact fld_setBit (i := 16) _ (by omega)
    · exact fld_setBit (i := 17) _ (by omega)
  · cases w <;> rfl
  · refine Eq.trans ?_ hr
    cases w
    · exact fld_setBit (i := 16) (a := 4) _ (by omega)
    · exact fld_setBit (i := 17) (a := 12) _ (by omega)

theorem rejected_effect (w : Pair) (c : CalPair) {r : Nat} (h : r < 16) (q : Port) :
    (rejected w c r q).calState w = 3 ∧ ((rejected w c r q).cal w).targets = none ∧ ((rejected w c r q).cal w).holdFrames = 16 * fld q.rxcCtl 2 6 ∧
      (rejected w c r q).rxcKap = q.rxcKap ∧ fld (rejected w c r q).rxcStat (match w with | .x => 4 | .y => 12) 4 = r := by
  unfold rejected
  rw [calState_putCal, cal_putCal, rxcKap_putCal, rxcStat_putCal, calState_setReason, calState_setCal _ _ (by omega)]
  exact ⟨rfl, rfl, rfl, rfl, reason_setReason _ _ h⟩

theorem estReason_lt (d : Accum) (a b : Nat) (tg : Int × Int × Int × Int) : estReason d a b tg < 16 := by
  unfold estReason
  dsimp only
  split
  · decide
  split
  · decide
  split
  · decide
  split
  · decide
  split
  · decide
  split
  · decide
  split <;> decide

theorem suspected_lanes (p : PortIx) (w : Pair) (d : Accum) (s : State) (n : LaneIx) :
    ∃ x, (suspected p w d s).lanes[n] = { s.lanes[n] with suspects := x } := by
  unfold suspected
  by_cases hq : n = pairQ p w
  · subst hq
    rw [modLane_self, modLane_other _ _ _ (pairI_ne_pairQ p w).symm]
    exact ⟨_, rfl⟩
  · rw [modLane_other _ _ _ hq]
    by_cases hi : n = pairI p w
    · subst hi
      rw [modLane_self]
      exact ⟨_, rfl⟩
    · rw [modLane_other _ _ _ hi]
      exact ⟨_, rfl⟩

/-- What the test of an estimate pair leaves. -/
structure Estimated (p : PortIx) (w : Pair) (d : Accum) (tg : Int × Int × Int × Int) (r : Nat) (s t : State) : Prop where
  only : Only [.ports, .lanes] s t
  others : ∀ m, m ≠ p → t.ports[m] = s.ports[m]
  lanes : ∀ n : LaneIx, t.lanes[n] = { s.lanes[n] with suspects := t.lanes[n].suspects }
  kap : fld t.ports[p].rxcKap (match w with | .x => 0 | .y => 16) 16 = kappa d.a d.b
  taken : r = 0 → t.ports[p].calState w = 2 ∧ (t.ports[p].cal w).targets = some tg
  held : r ≠ 0 → t.ports[p].calState w = 3 ∧ (t.ports[p].cal w).targets = none ∧
    (t.ports[p].cal w).holdFrames = 16 * fld s.ports[p].rxcCtl 2 6 ∧ t.lanes = s.lanes
  reason : fld t.ports[p].rxcStat (match w with | .x => 4 | .y => 12) 4 = r

theorem kappa_lt (a b : EstSums) : kappa a b < 65536 := by
  unfold kappa
  dsimp only
  omega

theorem estimated_effect (p : PortIx) (w : Pair) (d : Accum) (c : CalPair) (tg : Int × Int × Int × Int) {r : Nat} (h : r < 16) (s : State) :
    Estimated p w d tg r s (estimated p w d c tg r s) := by
  have hk : fld (kapped w (kappa d.a d.b) s.ports[p]).rxcKap (match w with | .x => 0 | .y => 16) 16 = kappa d.a d.b := kapped_fld w (kappa_lt ..) _
  have hctl : (kapped w (kappa d.a d.b) s.ports[p]).rxcCtl = s.ports[p].rxcCtl := rfl
  unfold estimated
  dsimp only
  rw [modPort_modPort]
  by_cases h0 : r = 0
  · simp only [if_pos h0]
    generalize hsl : sliceTargets 0 s.lanes[pairI p w] d.sliceI ++ sliceTargets 1 s.lanes[pairQ p w] d.sliceQ = sl
    have hp := modPort_self s p fun q => accepted w c tg sl (kapped w (kappa d.a d.b) q)
    have ho := fun (m : PortIx) (hm : m ≠ p) => modPort_other s p (fun q => accepted w c tg sl (kapped w (kappa d.a d.b) q)) hm
    have k1 : Only [.ports] s (s.modPort p fun q => accepted w c tg sl (kapped w (kappa d.a d.b) q)) := modPort_only ..
    generalize s.modPort p (fun q => accepted w c tg sl (kapped w (kappa d.a d.b) q)) = u at hp ho k1 ⊢
    have k2 : Only [.lanes] u (suspected p w d u) := (modLane_only ..).trans (modLane_only ..)
    obtain ⟨a1, a2, a3, a4⟩ := accepted_effect w c tg sl (kapped w (kappa d.a d.b) s.ports[p])
    rw [← hp, ← k2.port p] at a1 a2 a3 a4
    refine ⟨(k1.mono (by decide)).trans (k2.mono (by decide)), fun m hm => (k2.port m).trans (ho m hm), fun n => ?_, by rw [a3, hk], fun _ => ⟨a1, a2⟩,
      fun hn => absurd h0 hn, a4.trans h0.symm⟩
    obtain ⟨x, hx⟩ := suspected_lanes p w d u n
    rw [hx, k1.lanes]
  · simp only [if_neg h0]
    have hp := modPort_self s p fun q => rejected w c r (kapped w (kappa d.a d.b) q)
    have ho := fun (m : PortIx) (hm : m ≠ p) => modPort_other s p (fun q => rejected w c r (kapped w (kappa d.a d.b) q)) hm
    have k1 : Only [.ports] s (s.modPort p fun q => rejected w c r (kapped w (kappa d.a d.b) q)) := modPort_only ..
    generalize s.modPort p (fun q => rejected w c r (kapped w (kappa d.a d.b) q)) = u at hp ho k1 ⊢
    obtain ⟨a1, a2, a3, a4, a5⟩ := rejected_effect w c h (kapped w (kappa d.a d.b) s.ports[p])
    rw [← hp] at a1 a2 a3 a4 a5
    exact ⟨k1.mono (by decide), ho, fun n => by rw [k1.lanes], by rw [a4, hk], fun hn => absurd hn h0, fun _ => ⟨a1, a2, a3, k1.lanes⟩, a5⟩

theorem calEvent_only (s : State) (p : PortIx) (w : Pair) {F : List Part} : Only F s (s.calEvent p w) := by
  unfold State.calEvent
  exact .ite (fun _ => raiseN_only ..) fun _ => .refl ..

end Sys2Proof.Proofs

/-! O38: the walk of a pair and of a port, and the settling of O38 (R83, R95, R96, R98). -/

namespace Sys2Proof.Proofs
open Sys2Proof Sys2Proof.Machine Sys2Proof.Claims

/-! ### Signed fields of ten bits -/

theorem sfld10_range (w : Word) (lo : Nat) : -512 ≤ sfld10 w lo ∧ sfld10 w lo ≤ 511 := by
  unfold sfld10 signed
  have := Nat.mod_lt (fld w lo 10) (show 0 < 2 ^ 10 by decide)
  split <;> omega

theorem sfld10_setTen (w : Word) {lo : Nat} {v : Int} (h : lo + 10 ≤ 32) (hv : -512 ≤ v ∧ v ≤ 511) : sfld10 (setTen w lo v) lo = v := by
  have hf : fld (setTen w lo v) lo 10 = (v % 1024).toNat := by
    rw [setTen, fld_setFld _ _ h]
    omega
  unfold sfld10 signed
  rw [hf]
  split <;> omega

theorem sfld10_setTen_apart (w : Word) {lo a : Nat} (v : Int) (h : lo + 10 ≤ 32) (ha : a + 10 ≤ lo ∨ lo + 10 ≤ a) : sfld10 (setTen w lo v) a = sfld10 w a := by
  unfold sfld10 setTen
  rw [fld_setFld_apart _ _ h ha]

theorem inTen_iff {v : Int} : inTen v = true ↔ -512 ≤ v ∧ v ≤ 511 := by
  unfold inTen
  rw [Bool.and_eq_true, decide_eq_true_eq, decide_eq_true_eq]

theorem stepTo_range {w : Word} {lo : Nat} {t : Int} (h : inTen t = true) : -512 ≤ stepTo (sfld10 w lo) t ∧ stepTo (sfld10 w lo) t ≤ 511 := by
  obtain ⟨h1, h2⟩ := sfld10_range w lo
  obtain ⟨h3, h4⟩ := inTen_iff.1 h
  unfold stepTo
  split
  · omega
  · split <;> omega

theorem stepTo_self (x : Int) : stepTo x x = x := by
  unfold stepTo
  rw [if_neg (Int.lt_irrefl x), if_neg (Int.lt_irrefl x)]

/-! ### The walk of one pair (R95, R96) -/

/-- The port when a pair's walk ends. -/
def walkEnds (w : Pair) (q : Port) : Port := (q.setCal w (if q.calMode = 1 then 4 else 1)).putCal w ((q.cal w).again false)

/-- The port when a pair's trims took a step. -/
def walkSteps (w : Pair) (q : Port) : Port := q.putCal w { q.cal w with stepped := true }

/-- The slice steps of one lane of a pair. -/
def sliceSteps (c : CalPair) (j : Nat) : List (Nat × Int × Int) := (c.sliceTargets.filter fun x => x.1 == j).map (·.2)

/-- The I lane takes its step. -/
def stepI (ts : List (Nat × Int × Int)) (oi : Int) (l : Lane) : Lane :=
  { (l.sliceStep ts) with trim := setTen l.trim 0 (stepTo (sfld10 l.trim 0) oi) }

/-- The Q lane takes its step. -/
def stepQ (now : Time) (ts : List (Nat × Int × Int)) (oq gq qc : Int) (l : Lane) : Lane :=
  ({ (l.sliceStep ts) with trim := setTen (setTen l.trim 0 (stepTo (sfld10 l.trim 0) oq)) 12 (stepTo (sfld10 l.trim 12) gq) } : Lane).putQsk now
    (setTen l.qsk 16 (stepTo (sfld10 l.qsk 16) qc))

/-- The four trims of a pair stand at their targets. -/
def AtTargets (p : PortIx) (w : Pair) (oi oq gq qc : Int) (s : State) : Prop :=
  sfld10 s.lanes[pairI p w].trim 0 = oi ∧ sfld10 s.lanes[pairQ p w].trim 0 = oq ∧ sfld10 s.lanes[pairQ p w].trim 12 = gq ∧
    sfld10 s.lanes[pairQ p w].qsk 16 = qc

theorem walkPair_none {s : State} {p : PortIx} {w : Pair} (h : s.ports[p].calState w ≠ 2 ∨ (s.ports[p].cal w).targets = none) : s.walkPair p w = s := by
  unfold State.walkPair
  dsimp only
  split
  · rename_i h2 ht
    rcases h with h | h
    · exact absurd h2 h
    · exact absurd (h.symm.trans ht) nofun
  · rfl

theorem walkPair_ends {s : State} {p : PortIx} {w : Pair} {oi oq gq qc : Int} (h : s.ports[p].calState w = 2)
    (ht : (s.ports[p].cal w).targets = some (oi, oq, gq, qc)) (ha : AtTargets p w oi oq gq qc s) : s.walkPair p w = s.modPort p (walkEnds w) := by
  unfold State.walkPair
  dsimp only
  rw [h, ht]
  exact if_pos ha

theorem walkPair_steps {s : State} {p : PortIx} {w : Pair} {oi oq gq qc : Int} (h : s.ports[p].calState w = 2)
    (ht : (s.ports[p].cal w).targets = some (oi, oq, gq, qc)) (ha : ¬AtTargets p w oi oq gq qc s) : s.walkPair p w =
      ((s.modLane (pairI p w) (stepI (sliceSteps (s.ports[p].cal w) 0) oi)).modLane (pairQ p w)
        (stepQ s.time.mono (sliceSteps (s.ports[p].cal w) 1) oq gq qc)).modPort p (walkSteps w) := by
  unfold State.walkPair
  dsimp only
  rw [h, ht]
  exact if_neg ha

/-- What the walk of a pair leaves alone. -/
structure WalkFrame (p : PortIx) (v : Pair) (s t : State) : Prop where
  same : t = { s with lanes := t.lanes, ports := t.ports }
  others : ∀ m, m ≠ p → t.ports[m] = s.ports[m]
  lanes : ∀ n : LaneIx, n ≠ pairI p v → n ≠ pairQ p v → t.lanes[n] = s.lanes[n]
  mode : t.ports[p].calMode = s.ports[p].calMode
  pair : ∀ w, w ≠ v → t.ports[p].calState w = s.ports[p].calState w ∧ t.ports[p].cal w = s.ports[p].cal w

theorem walkEnds_other (q : Port) {v w : Pair} (h : w ≠ v) : (walkEnds v q).calMode = q.calMode ∧ (walkEnds v q).calState w = q.calState w ∧
    (walkEnds v q).cal w = q.cal w := by
  refine ⟨?_, ?_, ?_⟩
  · unfold walkEnds Port.calMode
    rw [rxcCtl_putCal, rxcCtl_setCal]
  · rw [walkEnds, calState_putCal, calState_setCal_other _ h]
  · rw [walkEnds, cal_putCal_other _ h, cal_setCal]

theorem walkSteps_other (q : Port) {v w : Pair} (h : w ≠ v) : (walkSteps v q).calMode = q.calMode ∧ (walkSteps v q).calState w = q.calState w ∧
    (walkSteps v q).cal w = q.cal w := by
  refine ⟨?_, ?_, ?_⟩
  · unfold walkSteps Port.calMode
    rw [rxcCtl_putCal]
  · rw [walkSteps, calState_putCal]
  · rw [walkSteps, cal_putCal_other _ h]

/-- The other pair of a port. -/
def otherPair : Pair → Pair | .x => .y | .y => .x
theorem otherPair_ne (v : Pair) : otherPair v ≠ v := by cases v <;> nofun

theorem walkPair_frame (s : State) (p : PortIx) (v : Pair) : WalkFrame p v s (s.walkPair p v) := by
  by_cases h : s.ports[p].calState v ≠ 2 ∨ (s.ports[p].cal v).targets = none
  · rw [walkPair_none h]
    exact ⟨rfl, fun _ _ => rfl, fun _ _ _ => rfl, rfl, fun _ _ => ⟨rfl, rfl⟩⟩
  · rw [not_or, not_not] at h
    obtain ⟨h2, hn⟩ := h
    obtain ⟨⟨oi, oq, gq, qc⟩, ht⟩ := Option.ne_none_iff_exists'.1 hn
    by_cases ha : AtTargets p v oi oq gq qc s
    · rw [walkPair_ends h2 ht ha]
      refine ⟨rfl, fun m hm => modPort_other _ _ _ hm, fun _ _ _ => rfl, ?_, fun w hw => ?_⟩
      · rw [modPort_self]
        exact (walkEnds_other _ (otherPair_ne v)).1
      · rw [modPort_self]
        exact (walkEnds_other _ hw).2
    · rw [walkPair_steps h2 ht ha]
      refine ⟨rfl, fun m hm => modPort_other _ _ _ hm, fun n hi hq => ?_, ?_, fun w hw => ?_⟩
      · rw [State.modPort_lanes, modLane_other _ _ _ hq, modLane_other _ _ _ hi]
      · rw [modPort_self, State.modLane_ports, State.modLane_ports]
        exact (walkSteps_other _ (otherPair_ne v)).1
      · rw [modPort_self, State.modLane_ports, State.modLane_ports]
        exact (walkSteps_other _ hw).2

/-- What the walk of a pair does to it. -/
structure WalkDone (p : PortIx) (w : Pair) (oi oq gq qc : Int) (s t : State) : Prop where
  offI : sfld10 t.lanes[pairI p w].trim 0 = stepTo (sfld10 s.lanes[pairI p w].trim 0) oi
  offQ : sfld10 t.lanes[pairQ p w].trim 0 = stepTo (sfld10 s.lanes[pairQ p w].trim 0) oq
  gain : sfld10 t.lanes[pairQ p w].trim 12 = stepTo (sfld10 s.lanes[pairQ p w].trim 12) gq
  skew : sfld10 t.lanes[pairQ p w].qsk 16 = stepTo (sfld10 s.lanes[pairQ p w].qsk 16) qc
  ends : AtTargets p w oi oq gq qc s → t.ports[p].calState w = (if s.ports[p].calMode = 1 then 4 else 1) ∧ (t.ports[p].cal w).targets = none
  goes : ¬AtTargets p w oi oq gq qc s → t.ports[p].calState w = 2 ∧ (t.ports[p].cal w).targets = some (oi, oq, gq, qc) ∧
    (t.ports[p].cal w).stepped = true

theorem stepI_trim (ts : List (Nat × Int × Int)) {oi : Int} (h : inTen oi = true) (l : Lane) :
    sfld10 (stepI ts oi l).trim 0 = stepTo (sfld10 l.trim 0) oi := sfld10_setTen _ (by omega) (stepTo_range h)

theorem stepQ_trims (now : Time) (ts : List (Nat × Int × Int)) {oq gq qc : Int} (ho : inTen oq = true) (hg : inTen gq = true) (hc : inTen qc = true)
    (l : Lane) : sfld10 (stepQ now ts oq gq qc l).trim 0 = stepTo (sfld10 l.trim 0) oq ∧
      sfld10 (stepQ now ts oq gq qc l).trim 12 = stepTo (sfld10 l.trim 12) gq ∧ sfld10 (stepQ now ts oq gq qc l).qsk 16 = stepTo (sfld10 l.qsk 16) qc :=
  ⟨(sfld10_setTen_apart _ _ (by omega) (by omega)).trans (sfld10_setTen _ (by omega) (stepTo_range ho)),
    sfld10_setTen _ (by omega) (stepTo_range hg), sfld10_setTen _ (by omega) (stepTo_range hc)⟩

theorem walkPair_done {s : State} {p : PortIx} {w : Pair} {oi oq gq qc : Int} (h : s.ports[p].calState w = 2)
    (ht : (s.ports[p].cal w).targets = some (oi, oq, gq, qc)) (hin : (inTen oi && inTen oq && inTen gq && inTen qc) = true) :
    WalkDone p w oi oq gq qc s (s.walkPair p w) := by
  simp only [Bool.and_eq_true] at hin
  obtain ⟨⟨⟨hi, ho⟩, hg⟩, hc⟩ := hin
  by_cases ha : AtTargets p w oi oq gq qc s
  · rw [walkPair_ends h ht ha]
    have ha' := ha
    obtain ⟨rfl, rfl, rfl, rfl⟩ := ha'
    refine ⟨(stepTo_self _).symm, (stepTo_self _).symm, (stepTo_self _).symm, (stepTo_self _).symm, fun _ => ?_, fun hn => absurd ha hn⟩
    rw [modPort_self, walkEnds, calState_putCal, cal_putCal, calState_setCal _ _ (by split <;> omega)]
    exact ⟨rfl, rfl⟩
  · rw [walkPair_steps h ht ha]
    obtain ⟨q1, q2, q3⟩ := stepQ_trims s.time.mono (sliceSteps (s.ports[p].cal w) 1) ho hg hc s.lanes[pairQ p w]
    have hli := stepI_trim (sliceSteps (s.ports[p].cal w) 0) hi s.lanes[pairI p w]
    refine ⟨?_, ?_, ?_, ?_, fun hy => absurd hy ha, fun _ => ?_⟩
    · rw [State.modPort_lanes, modLane_other _ _ _ (pairI_ne_pairQ p w), modLane_self, hli]
    · rw [State.modPort_lanes, modLane_self, modLane_other _ _ _ (pairI_ne_pairQ p w).symm, q1]
    · rw [State.modPort_lanes, modLane_self, modLane_other _ _ _ (pairI_ne_pairQ p w).symm, q2]
    · rw [State.modPort_lanes, modLane_self, modLane_other _ _ _ (pairI_ne_pairQ p w).symm, q3]
    · rw [modPort_self, State.modLane_ports, State.modLane_ports, walkSteps, calState_putCal, cal_putCal]
      exact ⟨h, ht, rfl⟩

/-! ### The walk of a port -/

theorem trimWalkStep_walks {s : State} {p : PortIx} (h : s.ports[p].calMode ≠ 0) : trimWalkStep p s = (s.walkPair p .x).walkPair p .y := if_neg h

theorem pair_lanes (p : PortIx) (w : Pair) : (pairI p w).val / 4 = p.val ∧ (pairQ p w).val / 4 = p.val ∧
    ∀ v, w ≠ v → pairI p w ≠ pairI p v ∧ pairI p w ≠ pairQ p v ∧ pairQ p w ≠ pairI p v ∧ pairQ p w ≠ pairQ p v := by
  have hv : ∀ k j : Fin 4, k ≠ j → portLane p k ≠ portLane p j := fun k j hkj h => hkj (Fin.ext (by
    have : 4 * p.val + k.val = 4 * p.val + j.val := congrArg Fin.val h
    omega))
  have hd : ∀ k : Fin 4, (portLane p k).val / 4 = p.val := fun k => by
    show (4 * p.val + k.val) / 4 = p.val
    omega
  refine ⟨?_, ?_, fun v hw => ?_⟩
  · cases w <;> exact hd _
  · cases w <;> exact hd _
  · cases w <;> cases v
    case x.x => exact absurd rfl hw
    case y.y => exact absurd rfl hw
    all_goals exact ⟨hv _ _ (by decide), hv _ _ (by decide), hv _ _ (by decide), hv _ _ (by decide)⟩

/-- What a step of the port's walk leaves alone. -/
theorem trimWalkStep_frame {s : State} {p : PortIx} (h : s.ports[p].calMode ≠ 0) : trimWalkStep p s =
      { s with lanes := (trimWalkStep p s).lanes, ports := (trimWalkStep p s).ports } ∧
    (∀ m, m ≠ p → (trimWalkStep p s).ports[m] = s.ports[m]) ∧ ∀ n : LaneIx, n.val / 4 ≠ p.val → (trimWalkStep p s).lanes[n] = s.lanes[n] := by
  rw [trimWalkStep_walks h]
  have fx := walkPair_frame s p .x
  have fy := walkPair_frame (s.walkPair p .x) p .y
  have hlane : ∀ (n : LaneIx) (v : Pair), n.val / 4 ≠ p.val → n ≠ pairI p v ∧ n ≠ pairQ p v := fun n v hn =>
    ⟨fun e => hn (e ▸ (pair_lanes p v).1), fun e => hn (e ▸ (pair_lanes p v).2.1)⟩
  refine ⟨?_, fun m hm => (fy.others m hm).trans (fx.others m hm), fun n hn => ?_⟩
  · have h1 := fx.same
    have h2 := fy.same
    generalize s.walkPair p .x = u at h1 h2 ⊢
    exact h2.trans (by rw [h1])
  · rw [fy.lanes n (hlane n .y hn).1 (hlane n .y hn).2, fx.lanes n (hlane n .x hn).1 (hlane n .x hn).2]

/-- Each pair of a walking port takes its own step. -/
theorem trimWalkStep_done {s : State} {p : PortIx} {w : Pair} {oi oq gq qc : Int} (h0 : s.ports[p].calMode ≠ 0) (h : s.ports[p].calState w = 2)
    (ht : (s.ports[p].cal w).targets = some (oi, oq, gq, qc)) (hin : (inTen oi && inTen oq && inTen gq && inTen qc) = true) :
    WalkDone p w oi oq gq qc s (trimWalkStep p s) := by
  rw [trimWalkStep_walks h0]
  have fx := walkPair_frame s p .x
  have fy := walkPair_frame (s.walkPair p .x) p .y
  obtain ⟨-, -, hne⟩ := pair_lanes p w
  cases w with
  | x =>
    have k := walkPair_done h ht hin
    generalize s.walkPair p .x = u at fx fy k ⊢
    obtain ⟨n1, n2, n3, n4⟩ := hne .y nofun
    obtain ⟨p1, p2⟩ := fy.pair .x nofun
    have hI := fy.lanes _ n1 n2
    have hQ := fy.lanes _ n3 n4
    exact ⟨by rw [hI, k.offI], by rw [hQ, k.offQ], by rw [hQ, k.gain], by rw [hQ, k.skew], fun ha => by rw [p1, p2]; exact k.ends ha,
      fun ha => by rw [p1, p2]; exact k.goes ha⟩
  | y =>
    obtain ⟨n1, n2, n3, n4⟩ := hne .x nofun
    obtain ⟨p1, p2⟩ := fx.pair .y nofun
    have hI := fx.lanes _ n1 n2
    have hQ := fx.lanes _ n3 n4
    have hm := fx.mode
    generalize s.walkPair p .x = u at *
    have k := walkPair_done (s := u) (p1.trans h) (by rw [p2, ht]) hin
    have hat : AtTargets p .y oi oq gq qc s ↔ AtTargets p .y oi oq gq qc u := by
      unfold AtTargets
      rw [hI, hQ]
    exact ⟨by rw [k.offI, hI], by rw [k.offQ, hQ], by rw [k.gain, hQ], by rw [k.skew, hQ], fun ha => by rw [← hm]; exact k.ends (hat.1 ha),
      fun ha => k.goes (mt hat.2 ha)⟩

theorem calBoundary_off {q : Port} (h : q.calMode = 0) (w : Pair) : q.calBoundary w = (q.setCal w 0).putCal w { CalPair.reset with gen := (q.cal w).gen + 1 } :=
  if_pos h

theorem calOff_pair {q : Port} (h : q.calMode = 0) (w : Pair) : ((q.calBoundary .x).calBoundary .y).calState w = 0 ∧
    (((q.calBoundary .x).calBoundary .y).cal w).targets = none := by
  have h1 : (q.calBoundary .x).calMode = 0 := by rw [calBoundary_off h]; exact h
  have hx : (q.calBoundary .x).calState .x = 0 ∧ ((q.calBoundary .x).cal .x).targets = none := by
    rw [calBoundary_off h, calState_putCal, cal_putCal, calState_setCal _ _ (by omega)]
    exact ⟨rfl, rfl⟩
  rw [calBoundary_off h1]
  generalize q.calBoundary .x = r at hx
  obtain ⟨hs, ht⟩ := hx
  cases w with
  | x =>
    have hne : Pair.x ≠ Pair.y := nofun
    rw [calState_putCal, cal_putCal_other _ hne, calState_setCal_other _ hne]
    exact ⟨hs, ht⟩
  | y => rw [calState_putCal, cal_putCal, calState_setCal _ _ (by omega)]; exact ⟨rfl, rfl⟩

/-! ### Dark frames (R98) -/

/-- The four lanes of a port, each changed. -/
def eachLane (p : PortIx) (f : Fin 4 → Lane → Lane) (s : State) : State := (List.finRange 4).foldl (fun u k => u.modLane (portLane p k) (f k)) s

theorem portLane_inj {p : PortIx} {k j : Fin 4} (h : portLane p k = portLane p j) : k = j := Fin.ext (by
  have : 4 * p.val + k.val = 4 * p.val + j.val := congrArg Fin.val h
  omega)

theorem portLane_port (p : PortIx) (k : Fin 4) : (portLane p k).val / 4 = p.val := by
  show (4 * p.val + k.val) / 4 = p.val
  omega

theorem eachLane_only (p : PortIx) (f : Fin 4 → Lane → Lane) (s : State) : Only [.lanes] s (eachLane p f s) := .foldl (fun _ _ => modLane_only ..) _ _

theorem eachLane_eq (p : PortIx) (f : Fin 4 → Lane → Lane) (s : State) : eachLane p f s = { s with lanes := (eachLane p f s).lanes } := rfl

theorem eachLane_lanes (p : PortIx) (f : Fin 4 → Lane → Lane) (s : State) :
    (∀ k : Fin 4, (eachLane p f s).lanes[portLane p k] = f k s.lanes[portLane p k]) ∧
      ∀ n : LaneIx, n.val / 4 ≠ p.val → (eachLane p f s).lanes[n] = s.lanes[n] := by
  have other : ∀ (n : LaneIx) (l : List (Fin 4)) (u : State), (∀ k ∈ l, n ≠ portLane p k) →
      (l.foldl (fun u k => u.modLane (portLane p k) (f k)) u).lanes[n] = u.lanes[n] := by
    intro n l
    induction l with
    | nil => exact fun _ _ => rfl
    | cons j l ih =>
      intro u h
      exact (ih _ fun k hk => h k (List.mem_cons_of_mem _ hk)).trans (modLane_other _ _ _ (h j (List.mem_cons_self ..)))
  have self : ∀ (k : Fin 4) (l : List (Fin 4)) (u : State), l.Nodup → k ∈ l →
      (l.foldl (fun u k => u.modLane (portLane p k) (f k)) u).lanes[portLane p k] = f k u.lanes[portLane p k] := by
    intro k l
    induction l with
    | nil => exact fun _ _ h => absurd h List.not_mem_nil
    | cons j l ih =>
      intro u hn hm
      obtain ⟨hj, hl⟩ := List.nodup_cons.1 hn
      rw [List.foldl_cons]
      by_cases hk : k = j
      · subst hk
        rw [other (portLane p k) l _ fun i hi e => hj (portLane_inj e ▸ hi), modLane_self]
      · rw [ih _ hl ((List.mem_cons.1 hm).resolve_left hk), modLane_other _ _ _ fun e => hk (portLane_inj e)]
  exact ⟨fun k => self k _ s (List.nodup_finRange 4) (List.mem_finRange k), fun n hn => other n _ s fun k _ e => hn (e ▸ portLane_port p k)⟩

/-- What a dark frame measures. -/
def darkEnds (p : PortIx) (powers floor : List Nat) (x : DarkSt) (s : State) : State :=
  (eachLane p (fun k l => { l with pDark := powers.getD k.val l.pDark }) s).modPort p fun r => { r with dark := x, floor := floor }

theorem darkFrameEnd_ended {s : State} {p : PortIx} (h : s.ports[p].dark = .ended) (powers floor : List Nat) :
    darkFrameEnd p powers floor s = darkEnds p powers floor .none s := by
  unfold darkFrameEnd
  dsimp only
  rw [h]
  rfl

theorem darkFrameEnd_closed {s : State} {p : PortIx} (h : s.ports[p].dark = .closed) (powers floor : List Nat) :
    darkFrameEnd p powers floor s =
      darkEnds p powers floor .measured (s.until (s.ports[p].frameStart.getD 0 + frameTime s.ports[p].plan p.val)) := by
  unfold darkFrameEnd
  dsimp only
  rw [h]
  rfl

theorem darkEnds_effect (p : PortIx) (powers floor : List Nat) (x : DarkSt) (s : State) :
    darkEnds p powers floor x s = { s with lanes := (darkEnds p powers floor x s).lanes, ports := (darkEnds p powers floor x s).ports } ∧
      (darkEnds p powers floor x s).ports = s.ports.set p { s.ports[p] with dark := x, floor := floor } ∧
      (∀ k : Fin 4, (darkEnds p powers floor x s).lanes[portLane p k] =
        { s.lanes[portLane p k] with pDark := powers.getD k.val s.lanes[portLane p k].pDark }) ∧
      ∀ n : LaneIx, n.val / 4 ≠ p.val → (darkEnds p powers floor x s).lanes[n] = s.lanes[n] := by
  obtain ⟨h1, h2⟩ := eachLane_lanes p (fun k l => { l with pDark := powers.getD k.val l.pDark }) s
  have hp : (eachLane p (fun k l => { l with pDark := powers.getD k.val l.pDark }) s).ports = s.ports := (eachLane_only ..).ports
  have he := eachLane_eq p (fun k l => { l with pDark := powers.getD k.val l.pDark }) s
  unfold darkEnds
  generalize eachLane p (fun k l => { l with pDark := powers.getD k.val l.pDark }) s = u at h1 h2 hp he ⊢
  refine ⟨?_, ?_, h1, h2⟩
  · rw [he]
    rfl
  · rw [State.modPort_ports, hp]

/-- Settles O38: a register written field by field, an estimate pair tested once, and a walk that moves each pair on its own lanes. -/
theorem calibratorAcceptsWalksAndHolds : Obligations.CalibratorAcceptsWalksAndHolds := by
  unfold Obligations.CalibratorAcceptsWalksAndHolds
  intro s p w
  refine ⟨fun v hr => ?_, fun h => congrArg Host.Outcome.next (calibrationEstimate_idle h),
    fun h hf hl => congrArg Host.Outcome.next (calibrationEstimate_more h hf hl), fun d tg r h hd hw ht h6 hr => ?_, fun h0 => ?_, fun h0 hv => ?_,
    fun oi oq gq qc h0 h2 ht hin => ?_, fun h2 h3 hh => ?_, fun h => ?_, fun powers floor => ⟨fun h1 h2 => ?_, fun u x h => ?_⟩⟩
  · have hx := (writtenPort_reaches hr (writeRxcCtl p v)).trans (writeRxcCtl_eq p v s)
    refine ⟨_, congrArg Host.Outcome.next hx, modPort_const .., ?_⟩
    rw [modPort_self]
    obtain ⟨c1, c2⟩ := rxcWritten_regs v s.ports[p]
    obtain ⟨t1, t2, t3⟩ := rxcCtlTaken_effect (decide (s.ports[p].calMode ≠ 0)) s.ports[p].rxcCtl v
    rw [c1, c2]
    refine ⟨t1, fun f hf => (t2 f hf).trans (if_congr ?_ rfl rfl), ?_⟩
    · rw [Bool.or_eq_true, decide_eq_true_eq, Bool.not_eq_true']
    · have hone : ∀ f, rxcRefused (decide (s.ports[p].calMode ≠ 0)) s.ports[p].rxcCtl v f = true ↔
          fld v f.1 f.2 ≠ fld s.ports[p].rxcCtl f.1 f.2 ∧ (s.ports[p].calMode ≠ 0 ∨ rxcLegal f.1 (fld v f.1 f.2) = false) := fun f => by
        rw [rxcRefused, Bool.and_eq_true, Bool.or_eq_true, decide_eq_true_eq, decide_eq_true_eq, Bool.not_eq_true']
      simp only [hone] at t3
      rw [← t3]
      cases (rxcCtlTaken (decide (s.ports[p].calMode ≠ 0)) s.ports[p].rxcCtl v).2
      · simp
      · simp [bit_setBit_self]
  · have hlt : r < 16 := by
      by_cases hf : Few d
      · rw [h6 hf]; decide
      · rw [hr hf]; exact estReason_lt ..
    refine ⟨_, congrArg Host.Outcome.next (calibrationEstimate_tested h hd hw ht h6 hr), ?_⟩
    have k := estimated_effect p w d (s.ports[p].cal w) tg hlt s
    have k2 : Only [] _ ((estimated p w d (s.ports[p].cal w) tg r s).calEvent p w) := calEvent_only ..
    generalize (estimated p w d (s.ports[p].cal w) tg r s).calEvent p w = t at k2 ⊢
    generalize estimated p w d (s.ports[p].cal w) tg r s = v at k k2
    have kt : Only [.ports, .lanes] s t := k.only.trans (k2.mono (by decide))
    have hp := k2.port p
    have hl := k2.lanes
    refine ⟨sameWork_of_only kt, fun m hm => (k2.port m).trans (k.others m hm), fun n => ?_, by rw [hp]; exact k.kap, fun h0 => by rw [hp]; exact k.taken h0,
      fun h0 => by rw [hp, hl]; exact k.held h0, by rw [hp]; exact k.reason⟩
    rw [hl]
    exact k.lanes n
  · have hx : trimWalkStep p s = s.modPort p fun q => (q.calBoundary .x).calBoundary .y := if_pos h0
    refine ⟨_, congrArg Host.Outcome.next hx, modPort_const .., ?_⟩
    rw [modPort_self]
    exact calOff_pair h0 w
  · refine congrArg Host.Outcome.next ((trimWalkStep_walks h0).trans ?_)
    rw [walkPair_none (hv .x), walkPair_none (hv .y)]
  · obtain ⟨f1, f2, f3⟩ := trimWalkStep_frame h0
    have k := trimWalkStep_done h0 h2 ht hin
    exact ⟨_, rfl, f1, f2, f3, k.offI, k.offQ, k.gain, k.skew, fun a b c d => k.ends ⟨a, b, c, d⟩, k.goes⟩
  · have hx : calibrationHoldEnd p w s = s.modPort p fun q => (q.setCal w 1).putCal w ((q.cal w).again false) := if_pos (by
      simp only [Bool.and_eq_true, decide_eq_true_eq]
      exact ⟨⟨h2, h3⟩, hh⟩)
    refine ⟨_, congrArg Host.Outcome.next hx, modPort_const .., ?_⟩
    rw [modPort_self, calState_putCal, cal_putCal, calState_setCal _ _ (by omega)]
    exact ⟨rfl, rfl, rfl⟩
  · refine congrArg Host.Outcome.next (if_neg ?_)
    simp only [Bool.and_eq_true, decide_eq_true_eq]
    tauto
  · exact congrArg Host.Outcome.next (if_pos ⟨h1, h2⟩)
  · rcases h with ⟨hd, rfl, hu⟩ | ⟨hd, rfl, hu⟩
    · rw [hu]
      refine ⟨_, congrArg Host.Outcome.next (darkFrameEnd_closed hd powers floor), ?_⟩
      generalize s.ports[p].frameStart.getD 0 + frameTime s.ports[p].plan p.val = y
      have k := darkEnds_effect p powers floor .measured (s.until y)
      rw [State.until_ports, State.until_lanes] at k
      exact k
    · rw [hu]
      exact ⟨_, congrArg Host.Outcome.next (darkFrameEnd_ended hd powers floor), darkEnds_effect ..⟩

end Sys2Proof.Proofs

/-! O37: start-up, overrange, slices and trims of a lane (R72 to R89). -/

namespace Sys2Proof.Proofs
open Sys2Proof Sys2Proof.Machine Sys2Proof.Claims

/-! ### One lane -/

/-- Only the lane `n`, events and replies change. -/
structure LaneOnly (n : LaneIx) (s t : State) : Prop where
  only : Only [.lanes] s t
  others : ∀ m, m ≠ n → t.lanes[m] = s.lanes[m]

theorem LaneOnly.trans {n : LaneIx} {s t u : State} (h : LaneOnly n s t) (k : LaneOnly n t u) : LaneOnly n s u :=
  ⟨h.only.trans k.only, fun m hm => (k.others m hm).trans (h.others m hm)⟩

theorem modLane_laneOnly (s : State) (n : LaneIx) (f : Lane → Lane) : LaneOnly n s (s.modLane n f) := ⟨modLane_only .., fun _ hm => modLane_other _ _ _ hm⟩

theorem raiseN_lane {s : State} (hb : s.boot.inReset = false) (n : LaneIx) : (s.raiseN n.val).ev.pend.getLsbD n.val = true := by
  have hlt : n.val < 256 := by have := n.isLt; omega
  unfold State.raiseN
  rw [ix_of_lt hlt]
  exact raise_pend s _ ⟨n.val, hlt⟩ hb (.inl rfl)

/-- A cause of a lane's event (R81): its status bit, and the event when the bit was clear and is enabled. -/
theorem laneCause_effect (s : State) (n : LaneIx) (i en : Nat) : LaneOnly n s (s.laneCause n i en) ∧
    (s.laneCause n i en).lanes[n] = { s.lanes[n] with stat := setBit s.lanes[n].stat i } ∧
    (bit s.lanes[n].stat i = false → bit s.lanes[n].ctl en = true → s.boot.inReset = false → (s.laneCause n i en).ev.pend.getLsbD n.val = true) := by
  have k1 := modLane_laneOnly s n fun l => { l with stat := setBit l.stat i }
  have h1 := modLane_self s n fun l => { l with stat := setBit l.stat i }
  unfold State.laneCause
  dsimp only
  generalize s.modLane n (fun l => { l with stat := setBit l.stat i }) = u at k1 h1 ⊢
  have k2 : Only [.lanes] u (if (!bit s.lanes[n].stat i && bit s.lanes[n].ctl en) = true then u.raiseN n.val else u) :=
    .ite (fun _ => raiseN_only ..) fun _ => .refl ..
  have k3 : (if (!bit s.lanes[n].stat i && bit s.lanes[n].ctl en) = true then u.raiseN n.val else u).lanes = u.lanes := by
    split
    · exact (raiseN_only (F := []) ..).lanes
    · rfl
  refine ⟨⟨k1.only.trans k2, fun m hm => by rw [k3]; exact k1.others m hm⟩, by rw [k3]; exact h1, fun h0 he hb => ?_⟩
  rw [if_pos (by rw [h0, he]; rfl)]
  exact raiseN_lane (k1.only.inReset.trans hb) n

/-! ### Start-up (R72) -/

theorem maxFold_le (f : Fin 4 → Time) : ∀ (l : List (Fin 4)) (t : Time), t ≤ l.foldl (fun t k => max t (f k)) t ∧
    (∀ k ∈ l, f k ≤ l.foldl (fun t k => max t (f k)) t) ∧ (l.foldl (fun t k => max t (f k)) t = t ∨ ∃ k ∈ l, f k = l.foldl (fun t k => max t (f k)) t) := by
  intro l
  induction l with
  | nil => exact fun t => ⟨Nat.le_refl t, fun _ h => absurd h List.not_mem_nil, .inl rfl⟩
  | cons j l ih =>
    intro t
    rw [List.foldl_cons]
    obtain ⟨h1, h2, h3⟩ := ih (max t (f j))
    refine ⟨Nat.le_trans (Nat.le_max_left ..) h1, fun k hk => ?_, ?_⟩
    · rcases List.mem_cons.1 hk with rfl | hk
      · exact Nat.le_trans (Nat.le_max_right ..) h1
      · exact h2 k hk
    · rcases h3 with h3 | ⟨k, hk, h3⟩
      · rcases Nat.le_total t (f j) with hle | hle
        · exact .inr ⟨j, List.mem_cons_self .., by rw [h3, Nat.max_eq_right hle]⟩
        · exact .inl (by rw [h3, Nat.max_eq_left hle])
      · exact .inr ⟨k, List.mem_cons_of_mem _ hk, h3⟩

/-- When the last of a port's lanes ends its start-up. -/
def startEnds (p : PortIx) (s : State) : Time := (List.finRange 4).foldl (fun t k => max t (s.lanes[portLane p k]).startUntil) 0

theorem startEnds_last (p : PortIx) (s : State) : (∀ k : Fin 4, (s.lanes[portLane p k]).startUntil ≤ startEnds p s) ∧
    ∃ k : Fin 4, (s.lanes[portLane p k]).startUntil = startEnds p s := by
  obtain ⟨-, h2, h3⟩ := maxFold_le (fun k => (s.lanes[portLane p k]).startUntil) (List.finRange 4) 0
  refine ⟨fun k => h2 k (List.mem_finRange k), ?_⟩
  rcases h3 with h3 | ⟨k, -, h3⟩
  · refine ⟨0, (Nat.le_zero.1 ?_).trans h3.symm⟩
    have := h2 0 (List.mem_finRange 0)
    rw [h3] at this
    exact this
  · exact ⟨k, h3⟩

theorem laneStartupEnd_eq (p : PortIx) (s : State) : laneStartupEnd p s =
    if ((List.finRange 4).all fun k => !(s.lanes[portLane p k]).starting) = true then s
    else eachLane p (fun _ l => { l with starting := false }) (s.until (startEnds p s)) := rfl

theorem exists_portLane {p : PortIx} {n : LaneIx} (h : n.val / 4 = p.val) : ∃ k, n = portLane p k :=
  ⟨⟨n.val % 4, Nat.mod_lt _ (by decide)⟩, Fin.ext (by
    show n.val = 4 * p.val + n.val % 4
    omega)⟩

/-! ### Overrange (R76) -/

/-- The tag of an overrange run. -/
def overSpan (now e : Time) : TagSpan := { tag := 1, pos := none, since := now, till := some e }

/-- A lane at an overrange run. -/
def overran (deep : Bool) (now e : Time) (l : Lane) : Lane :=
  { l with
    recovering := some deep, recUntil := e, stat := bumpFld l.stat 16 16
    spans := openSpan now (overSpan now e) (l.spans.map fun x => if x.tag == 1 then x.endBy now else x) }

theorem laneOverrange_eq {s : State} {n : LaneIx} (deep : Bool) (after : Nat) {len : Nat} (hp : s.lanes[n].powered = true) (hl : len ≠ 0) {u : State}
    {e : Time} (hu : u = s.elapse (samplesTime s.settings after))
    (he : e = u.time.mono + samplesTime s.settings (len + if deep then 4 * fld s.lanes[n].ctl 8 8 else fld s.lanes[n].ctl 0 8)) :
    laneOverrange n deep after len s =
      (let v := (u.modLane n (overran deep u.time.mono e)).laneCause n 0 16
       if deep then v.laneCause n 1 17 else v) := by
  have hset : u.settings = s.settings := by rw [hu, State.elapse_settings]
  have hlan : u.lanes = s.lanes := by rw [hu, State.elapse_lanes]
  unfold laneOverrange
  rw [if_neg (by rw [hp]; simp [hl]), ← hu]
  dsimp only
  rw [hset, hlan]
  subst he
  rfl

theorem bumpFld_fld (w : Word) {lo len : Nat} (h : lo + len ≤ 32) : fld (bumpFld w lo len) lo len = min (2 ^ len - 1) (fld w lo len + 1) := by
  rw [bumpFld, fld_setFld _ _ h, Nat.mod_eq_of_lt, Nat.min_comm]
  have := Nat.two_pow_pos len
  omega

theorem bumpFld_bit (w : Word) {lo len i : Nat} (h : lo + len ≤ 32) (hi : i < lo ∨ lo + len ≤ i) : bit (bumpFld w lo len) i = bit w i := by
  rw [bumpFld, bit_setFld _ _ h, if_neg (by omega)]

/-- What an overrange run leaves. -/
theorem laneOverrange_effect (deep : Bool) (e : Time) (u : State) (n : LaneIx) {t : State}
    (ht : t = (let v := (u.modLane n (overran deep u.time.mono e)).laneCause n 0 16
       if deep then v.laneCause n 1 17 else v)) : LaneOnly n u t ∧
    t.lanes[n] = { u.lanes[n] with recovering := some deep, recUntil := e, stat := t.lanes[n].stat, spans := t.lanes[n].spans } ∧
    overSpan u.time.mono e ∈ t.lanes[n].spans ∧ bit t.lanes[n].stat 0 = true ∧ bit t.lanes[n].stat 1 = (deep || bit u.lanes[n].stat 1) ∧
    fld t.lanes[n].stat 16 16 = min 65535 (fld u.lanes[n].stat 16 16 + 1) ∧
    (bit u.lanes[n].stat 0 = false → bit u.lanes[n].ctl 16 = true → u.boot.inReset = false → t.ev.pend.getLsbD n.val = true) := by
  dsimp only at ht
  have k1 := modLane_laneOnly u n (overran deep u.time.mono e)
  have h1 := modLane_self u n (overran deep u.time.mono e)
  generalize u.modLane n (overran deep u.time.mono e) = a at k1 h1 ht
  obtain ⟨k2, h2, p2⟩ := laneCause_effect a n 0 16
  generalize a.laneCause n 0 16 = b at k2 h2 p2 ht
  have hstat : fld (bumpFld u.lanes[n].stat 16 16) 16 16 = min 65535 (fld u.lanes[n].stat 16 16 + 1) := bumpFld_fld _ (by omega)
  have hb0 : bit (bumpFld u.lanes[n].stat 16 16) 0 = bit u.lanes[n].stat 0 := bumpFld_bit _ (by omega) (by omega)
  have hb1 : bit (bumpFld u.lanes[n].stat 16 16) 1 = bit u.lanes[n].stat 1 := bumpFld_bit _ (by omega) (by omega)
  have hp : bit u.lanes[n].stat 0 = false → bit u.lanes[n].ctl 16 = true → u.boot.inReset = false → b.ev.pend.getLsbD n.val = true := fun h0 h16 hr =>
    p2 (by rw [h1]; exact hb0.trans h0) (by rw [h1]; exact h16) (k1.only.inReset.trans hr)
  cases deep with
  | false =>
    rw [if_neg Bool.false_ne_true] at ht
    subst ht
    refine ⟨k1.trans k2, ?_, ?_, ?_, ?_, ?_, hp⟩
    all_goals rw [h2, h1]
    · rfl
    · exact mem_openSpan ..
    · exact bit_setBit_self _ (by omega)
    · exact (bit_setBit_ne _ (by omega)).trans hb1
    · exact (fld_setBit _ (by omega)).trans hstat
  | true =>
    rw [if_pos rfl] at ht
    obtain ⟨k3, h3, -⟩ := laneCause_effect b n 1 17
    rw [← ht] at k3 h3
    refine ⟨(k1.trans k2).trans k3, ?_, ?_, ?_, ?_, ?_, fun h0 h16 hr => k3.only.pend ⟨n.val, by omega⟩ (hp h0 h16 hr)⟩
    all_goals rw [h3, h2, h1]
    · rfl
    · exact mem_openSpan ..
    · exact (bit_setBit_ne _ (by omega)).trans (bit_setBit_self _ (by omega))
    · exact bit_setBit_self _ (by omega)
    · exact ((fld_setBit _ (by omega)).trans (fld_setBit _ (by omega))).trans hstat

end Sys2Proof.Proofs

/-! O37: slices and trims of a lane, and the settling of O37 (R84 to R89). -/

namespace Sys2Proof.Proofs
open Sys2Proof Sys2Proof.Machine Sys2Proof.Claims

/-! ### A slice that fails (R84 to R86) -/

/-- The lane without what the slice was suspected of. -/
def unsuspected (sl : Fin 9) (why : SliceCause) (l : Lane) : Lane :=
  { l with suspects := l.suspects.filter (fun x => x.1 != sl), tested := l.tested && why != .bitWeight }

theorem unsuspected_clear (sl : Fin 9) (why w : SliceCause) (l : Lane) : (sl, w) ∉ (unsuspected sl why l).suspects := fun h =>
  absurd rfl (bne_iff_ne.1 (List.mem_filter.1 h).2)

/-- The lane with the spare loaded for a position. -/
def sliceShadowed (sl : Fin 9) (why : SliceCause) (sp : Fin 9) (pos : Fin 8) (after : Nat) (now since : Time) (l : Lane) : Lane :=
  { unsuspected sl why l with
    failing := some { slice := sl, hard := why == .power, shadow := true, after := after }
    slices := l.slices.set sp (l.spareAt.getD pos.val SliceCorr.reset)
    spans := if why == .power then openSpan now { tag := 2, pos := some pos, since := since, till := none } l.spans else l.spans }

theorem meetsCause_iff {l : Lane} {sl : Fin 9} {why : SliceCause} :
    (l.suspects.contains (sl, why) || (why == .bitWeight && l.tested)) = true ↔ Meets l sl why := by
  rw [Bool.or_eq_true, Bool.and_eq_true, List.contains_iff_mem, beq_iff_eq]
  rfl

theorem sliceFailure_none {s : State} {n : LaneIx} {sl : Fin 9} {why : SliceCause}
    (h : s.lanes[n].posOf sl = none ∨ s.lanes[n].failing ≠ none ∨ ¬Meets s.lanes[n] sl why) : sliceFailureDetected n sl why s = s := by
  unfold sliceFailureDetected
  dsimp only
  cases hp : s.lanes[n].posOf sl with
  | none => rfl
  | some pos =>
    refine if_pos ?_
    rw [Bool.or_eq_true, Bool.not_eq_true']
    rcases h with h | h | h
    · exact absurd (hp.symm.trans h) nofun
    · exact .inl (Option.isSome_iff_ne_none.2 h)
    · exact .inr (eq_false_of_ne_true (mt meetsCause_iff.1 h))

theorem meets_guard {l : Lane} {sl : Fin 9} {why : SliceCause} (hf : l.failing = none) (hm : Meets l sl why) :
    ¬(l.failing.isSome || !(l.suspects.contains (sl, why) || (why == .bitWeight && l.tested))) = true := by
  rw [meetsCause_iff.2 hm, hf]
  exact Bool.false_ne_true

/-- With a spare left, it shadows the slice (R85). -/
theorem sliceFailure_spare {s : State} {n : LaneIx} {sl sp : Fin 9} {why : SliceCause} {pos : Fin 8} (hp : s.lanes[n].posOf sl = some pos)
    (hf : s.lanes[n].failing = none) (hm : Meets s.lanes[n] sl why) (hs : s.lanes[n].spare = some sp) : sliceFailureDetected n sl why s =
      s.modLane n fun _ => sliceShadowed sl why sp pos s.ports[lanePort n].frameNo s.time.mono (s.ports[lanePort n].frameStart.getD s.time.mono) s.lanes[n] := by
  unfold sliceFailureDetected
  dsimp only
  rw [hp]
  refine (if_neg (meets_guard hf hm)).trans ?_
  split
  · rename_i sp' h
    obtain rfl : sp' = sp := Option.some.inj (h.symm.trans hs)
    rfl
  · rename_i h
    exact absurd (h.symm.trans hs) nofun

/-- With none, a hard failure leaves the position dead, and another leaves the lane as it is (R86). -/
theorem sliceFailure_bare {s : State} {n : LaneIx} {sl : Fin 9} {why : SliceCause} {pos : Fin 8} (hp : s.lanes[n].posOf sl = some pos)
    (hf : s.lanes[n].failing = none) (hm : Meets s.lanes[n] sl why) (hs : s.lanes[n].spare = none) : sliceFailureDetected n sl why s =
      if why == .power && !(s.lanes[n].dead.any fun d => d.1 == pos) then
        (s.modLane n fun _ => { unsuspected sl why s.lanes[n] with
          dead := s.lanes[n].dead ++ [(pos, s.ports[lanePort n].frameStart.getD s.time.mono)] }).laneCause n 3 18
      else s.modLane n fun _ => unsuspected sl why s.lanes[n] := by
  unfold sliceFailureDetected
  dsimp only
  rw [hp]
  refine (if_neg (meets_guard hf hm)).trans ?_
  split
  · rename_i sp' h
    exact absurd (h.symm.trans hs) nofun
  · rfl

/-! ### The swap (R85, R92) -/

/-- The lane with the spare in a position. -/
def swapped (pos : Fin 8) (sp sl : Fin 9) (now : Time) (l : Lane) : Lane :=
  { l with position := l.position.set pos sp, spare := none, failing := none, stat := setFld l.stat 8 4 sl.val, spans := closeSpans now 2 l.spans }

theorem sliceSwap_none {s : State} {n : LaneIx} (x : SampleSums) (h : s.lanes[n].failing = none ∨ s.lanes[n].spare = none) : sliceSwap n x s = s := by
  unfold sliceSwap
  dsimp only
  split
  · rename_i f sp hf hs
    rcases h with h | h
    · exact absurd (hf.symm.trans h) nofun
    · exact absurd (hs.symm.trans h) nofun
  · rfl

theorem sliceSwap_waits {s : State} {n : LaneIx} {f : FailingSlice} {sp : Fin 9} {x : SampleSums} (hf : s.lanes[n].failing = some f)
    (hs : s.lanes[n].spare = some sp) (h : s.lanes[n].posOf f.slice = none ∨ s.ports[lanePort n].frameNo ≤ f.after ∨
      shadowOk (s.lanes[n].frame.foldl plusSums SampleSums.zero) x = false) : sliceSwap n x s = s := by
  unfold sliceSwap
  dsimp only
  rw [hf, hs]
  dsimp only
  cases hp : s.lanes[n].posOf f.slice with
  | none => rfl
  | some pos =>
    refine if_pos ?_
    rw [Bool.or_eq_true, decide_eq_true_eq, Bool.not_eq_true']
    exact h.resolve_left fun e => absurd (hp.symm.trans e) nofun

theorem sliceSwap_swaps {s : State} {n : LaneIx} {f : FailingSlice} {sp : Fin 9} {pos : Fin 8} {x : SampleSums} (hf : s.lanes[n].failing = some f)
    (hs : s.lanes[n].spare = some sp) (hp : s.lanes[n].posOf f.slice = some pos) (hl : f.after < s.ports[lanePort n].frameNo)
    (hok : shadowOk (s.lanes[n].frame.foldl plusSums SampleSums.zero) x = true) : sliceSwap n x s =
      ((s.modLane n (swapped pos sp f.slice s.time.mono)).laneCause n 2 18).modPort (lanePort n) fun q => q.calDiscard (lanePair n) := by
  unfold sliceSwap
  dsimp only
  rw [hf, hs]
  dsimp only
  rw [hp]
  exact if_neg (by rw [hok, decide_eq_false (by omega)]; exact Bool.false_ne_true)

theorem calDiscard_off {q : Port} (h : q.calMode = 0) (w : Pair) : q.calDiscard w = q := if_pos h

theorem calDiscard_on {q : Port} (h : q.calMode ≠ 0) (w : Pair) : ((q.calDiscard w).cal w).restart = true ∧ ((q.calDiscard w).cal w).targets = none := by
  have he : q.calDiscard w = (if q.calState w = 1 then q.setReason w 8 else q).putCal w ((q.cal w).again true) := if_neg h
  rw [he, cal_putCal]
  exact ⟨rfl, rfl⟩

/-! ### Trims (R89) -/

/-- A port after a direct trim write. -/
def trimmedPort (w : Pair) (q : Port) : Port :=
  if q.calMode = 0 then q else { (q.calDiscard w) with rxcStat := setBit (q.calDiscard w).rxcStat 18 }

theorem trimmedPort_on {q : Port} (h : q.calMode ≠ 0) (w : Pair) : bit (trimmedPort w q).rxcStat 18 = true ∧ ((trimmedPort w q).cal w).restart = true ∧
    ((trimmedPort w q).cal w).targets = none := by
  obtain ⟨h1, h2⟩ := calDiscard_on h w
  rw [trimmedPort, if_neg h]
  refine ⟨bit_setBit_self _ (by omega), ?_, ?_⟩
  · rw [← h1]; cases w <;> rfl
  · rw [← h2]; cases w <;> rfl

/-- The lane registers written, and the hazard counted. -/
def trimState (n : LaneIx) (f : Lane → Lane) (b : Bool) (s : State) : State := (s.modLane n f).hazardIf b

theorem trimState_effect (n : LaneIx) (f : Lane → Lane) (b : Bool) (s : State) :
    trimState n f b s = { s with lanes := (trimState n f b s).lanes, glb := (trimState n f b s).glb } ∧ (trimState n f b s).lanes[n] = f s.lanes[n] ∧
      (∀ m, m ≠ n → (trimState n f b s).lanes[m] = s.lanes[m]) ∧ (trimState n f b s).glb = if b then s.hazard.glb else s.glb := by
  have h1 := modLane_self s n f
  have h2 := fun (m : LaneIx) (hm : m ≠ n) => modLane_other s n f hm
  unfold trimState State.hazardIf
  split
  · exact ⟨rfl, h1, h2, rfl⟩
  · exact ⟨rfl, h1, h2, rfl⟩

theorem trimmed_eq (n : LaneIx) (s : State) : s.trimmed n = s.modPort (lanePort n) (trimmedPort (lanePair n)) := rfl

theorem wrDiffers_iff (mask : Nat) (old v : Word) : wrDiffers mask old v = false ↔ (old ^^^ v) &&& BitVec.ofNat 32 mask = 0 := by
  unfold wrDiffers
  rw [decide_eq_false_iff_not, not_not]

/-- What the port of a trimmed lane takes. -/
theorem trimmed_effect (n : LaneIx) (s : State) : s.trimmed n = { s with ports := (s.trimmed n).ports } ∧
    (∀ p, p ≠ lanePort n → (s.trimmed n).ports[p] = s.ports[p]) ∧
    ((s.ports[lanePort n]).calMode = 0 → (s.trimmed n).ports[lanePort n] = s.ports[lanePort n]) ∧
    ((s.ports[lanePort n]).calMode ≠ 0 → bit ((s.trimmed n).ports[lanePort n]).rxcStat 18 = true ∧
      (((s.trimmed n).ports[lanePort n]).cal (lanePair n)).restart = true ∧ (((s.trimmed n).ports[lanePort n]).cal (lanePair n)).targets = none) := by
  rw [trimmed_eq]
  refine ⟨rfl, fun p hp => modPort_other _ _ _ hp, fun h => ?_, fun h => ?_⟩
  · rw [modPort_self]
    exact if_pos h
  · rw [modPort_self]
    exact trimmedPort_on h _

/-- The bits of RXL_QSK that a write of a lane takes. -/
def qskMask (n : LaneIx) : Nat := if n.val % 2 = 0 then 0x000000FF else 0x03FF00FF

theorem trimWrite_trim (n : LaneIx) (v : Word) (s : State) : trimWrite n false v s =
    (trimState n (fun l => { l with trim := wrRW 0x003FF3FF l.trim v }) (wrDiffers 0x003FF3FF s.lanes[n].trim v) s).trimmed n := rfl

theorem trimWrite_qsk (n : LaneIx) (v : Word) (s : State) : trimWrite n true v s =
    (let u := trimState n (fun l => l.putQsk s.time.mono (wrRW (qskMask n) l.qsk v)) (wrDiffers (qskMask n) s.lanes[n].qsk v) s
     if n.val % 2 = 0 then u else u.trimmed n) := rfl

theorem fld_wrRW_taken (mask : Nat) (old v : Word) {a k : Nat} (hk : a + k ≤ 32) (h : ∀ i, a ≤ i → i < a + k → bit (BitVec.ofNat 32 mask) i = true) :
    fld (wrRW mask old v) a k = fld v a k :=
  fld_congr fun i h1 h2 => by rw [bit_wrRW, h i h1 h2, decide_eq_true (by omega : i < 32)]; rfl

theorem qsk_skew (n : LaneIx) (old v : Word) : fld (wrRW (qskMask n) old v) 0 8 = fld v 0 8 := by
  refine fld_wrRW_taken _ _ _ (by omega) fun i _ h => ?_
  have hm : ∀ i : Fin 8, bit (BitVec.ofNat 32 0x000000FF) i.val = true ∧ bit (BitVec.ofNat 32 0x03FF00FF) i.val = true := by decide
  unfold qskMask
  split
  · exact (hm ⟨i, by omega⟩).1
  · exact (hm ⟨i, by omega⟩).2

theorem qsk_qc (n : LaneIx) (old v : Word) : fld (wrRW (qskMask n) old v) 16 10 = if n.val % 2 = 0 then fld old 16 10 else fld v 16 10 := by
  have hm : ∀ i : Fin 32, 16 ≤ i.val → i.val < 26 → bit (BitVec.ofNat 32 0x000000FF) i.val = false ∧ bit (BitVec.ofNat 32 0x03FF00FF) i.val = true := by decide
  unfold qskMask
  split
  · exact fld_wrRW_apart _ _ _ fun i h1 h2 => (hm ⟨i, by omega⟩ h1 (by omega)).1
  · exact fld_wrRW_taken _ _ _ (by omega) fun i h1 h2 => (hm ⟨i, by omega⟩ h1 (by omega)).2

/-! ### The rows -/

theorem laneOnly_same {n : LaneIx} {s t : State} (h : LaneOnly n s t) : SameWork { s with lanes := t.lanes } t := sameWork_of_only h.only

/-- What a slice found failing leaves, whichever branch it takes. -/
theorem sliceFailure_effect {s : State} {n : LaneIx} {sl : Fin 9} {why : SliceCause} {pos : Fin 8} (hp : s.lanes[n].posOf sl = some pos)
    (hf : s.lanes[n].failing = none) (hm : Meets s.lanes[n] sl why) : LaneOnly n s (sliceFailureDetected n sl why s) ∧
      ∀ w, (sl, w) ∉ (sliceFailureDetected n sl why s).lanes[n].suspects := by
  have hl : ∀ l : Lane, l.suspects = (unsuspected sl why s.lanes[n]).suspects → ∀ w, (sl, w) ∉ (s.modLane n fun _ => l).lanes[n].suspects := by
    intro l h w
    rw [modLane_self, h]
    exact unsuspected_clear sl why w _
  cases hs : s.lanes[n].spare with
  | some sp =>
    rw [sliceFailure_spare hp hf hm hs]
    exact ⟨modLane_laneOnly .., hl _ rfl⟩
  | none =>
    rw [sliceFailure_bare hp hf hm hs]
    split
    · have k1 := modLane_laneOnly s n fun _ => { unsuspected sl why s.lanes[n] with
        dead := s.lanes[n].dead ++ [(pos, s.ports[lanePort n].frameStart.getD s.time.mono)] }
      obtain ⟨k2, h2, -⟩ := laneCause_effect (s.modLane n fun _ => { unsuspected sl why s.lanes[n] with
        dead := s.lanes[n].dead ++ [(pos, s.ports[lanePort n].frameStart.getD s.time.mono)] }) n 3 18
      refine ⟨k1.trans k2, fun w => ?_⟩
      rw [h2]
      exact hl { unsuspected sl why s.lanes[n] with
        dead := s.lanes[n].dead ++ [(pos, s.ports[lanePort n].frameStart.getD s.time.mono)] } rfl w
    · exact ⟨modLane_laneOnly .., hl _ rfl⟩

/-- What a swap leaves. -/
theorem sliceSwap_effect {s : State} {n : LaneIx} {f : FailingSlice} {sp : Fin 9} {pos : Fin 8} {t : State}
    (ht : t = ((s.modLane n (swapped pos sp f.slice s.time.mono)).laneCause n 2 18).modPort (lanePort n) fun q => q.calDiscard (lanePair n)) :
    Only [.lanes, .ports] s t ∧ (∀ m, m ≠ n → t.lanes[m] = s.lanes[m]) ∧
      t.lanes[n] = { swapped pos sp f.slice s.time.mono s.lanes[n] with stat := setBit (setFld s.lanes[n].stat 8 4 f.slice.val) 2 } ∧
      (∀ p, p ≠ lanePort n → t.ports[p] = s.ports[p]) ∧ t.ports[lanePort n] = s.ports[lanePort n].calDiscard (lanePair n) := by
  have k1 := modLane_laneOnly s n (swapped pos sp f.slice s.time.mono)
  have h1 := modLane_self s n (swapped pos sp f.slice s.time.mono)
  generalize s.modLane n (swapped pos sp f.slice s.time.mono) = u at k1 h1 ht
  obtain ⟨k2, h2, -⟩ := laneCause_effect u n 2 18
  generalize u.laneCause n 2 18 = v at k2 h2 ht
  have k := k1.trans k2
  have hp : v.ports = s.ports := k.only.ports
  subst ht
  refine ⟨(k.only.mono (by decide)).trans ((modPort_only ..).mono (by decide)), fun m hm => k.others m hm, ?_, fun p hpn => ?_, ?_⟩
  · rw [State.modPort_lanes, h2, h1]
    rfl
  · rw [modPort_other _ _ _ hpn, hp]
  · rw [modPort_self, hp]

/-- Settles O37: each row changes its own lane, and the port of that lane where a trim or a swap restarts its calibrator. -/
theorem lanesRecoverAndSwap : Obligations.LanesRecoverAndSwap := by
  unfold Obligations.LanesRecoverAndSwap
  intro s
  refine ⟨fun p => ⟨fun h => ?_, fun h => ?_⟩, fun n deep after len => ⟨fun h => ?_, fun u e hp hl hu he => ?_⟩, fun n => ⟨fun h => ?_, fun h => ?_⟩,
    fun n sl why => ⟨fun h => congrArg Host.Outcome.next (sliceFailure_none h), fun pos hp hf hm => ?_⟩,
    fun n x => ⟨fun h => congrArg Host.Outcome.next (sliceSwap_none x h), fun f sp hf hs =>
      ⟨fun h => congrArg Host.Outcome.next (sliceSwap_waits hf hs h), fun pos hp hl hok => ?_⟩⟩, fun n v hr => ⟨?_, ?_⟩⟩
  · refine congrArg Host.Outcome.next ((laneStartupEnd_eq p s).trans (if_pos ?_))
    rw [List.all_eq_true]
    exact fun k _ => by rw [h k]; rfl
  · obtain ⟨k, hk⟩ := h
    obtain ⟨l1, l2⟩ := startEnds_last p s
    refine ⟨_, congrArg Host.Outcome.next ((laneStartupEnd_eq p s).trans (if_neg ?_)), startEnds p s, l1, l2, eachLane_eq .., fun n => ?_⟩
    · rw [List.all_eq_true]
      intro hall
      have := hall k (List.mem_finRange k)
      rw [hk] at this
      exact absurd this nofun
    · generalize startEnds p s = e
      obtain ⟨e1, e2⟩ := eachLane_lanes p (fun _ l => { l with starting := false }) (s.until e)
      rw [State.until_lanes] at e1 e2
      split
      · rename_i hn
        obtain ⟨j, rfl⟩ := exists_portLane hn
        exact e1 j
      · rename_i hn
        exact e2 n hn
  · refine congrArg Host.Outcome.next (if_pos (h.imp (fun e => ?_) id))
    rw [e]
    rfl
  · have hlan : u.lanes = s.lanes := by rw [hu, State.elapse_lanes]
    have hb : u.boot = s.boot := by rw [hu, State.elapse_boot]
    obtain ⟨k, h1, h2, h3, h4, h5, h6⟩ := laneOverrange_effect deep e u n rfl
    refine ⟨_, congrArg Host.Outcome.next (laneOverrange_eq deep after hp hl hu he), laneOnly_same k, ?_⟩
    have ho := k.others
    rw [hlan] at ho h1 h4 h5 h6
    rw [hb] at h6
    exact ⟨ho, h1, h2, h3, h4, h5, h6⟩
  · exact congrArg Host.Outcome.next (if_pos (by rw [h]; rfl))
  · refine congrArg Host.Outcome.next (if_neg ?_)
    rw [Option.isNone_iff_eq_none]
    exact h
  · obtain ⟨k, hsus⟩ := sliceFailure_effect hp hf hm
    refine ⟨_, rfl, laneOnly_same k, k.others, hsus, fun sp hs => ?_, fun hs hw hd => ?_, fun hs hd => ?_⟩
    · rw [sliceFailure_spare hp hf hm hs, modLane_self]
      refine ⟨rfl, fun hw => if_neg (by rw [beq_iff_eq]; exact hw), fun hw => ?_⟩
      subst hw
      exact mem_openSpan ..
    · have hdead : (s.lanes[n].dead.any fun d => d.1 == pos) = false := by
        rw [List.any_eq_false]
        exact fun d h => by rw [beq_iff_eq]; exact hd d h
      rw [sliceFailure_bare hp hf hm hs, hw, hdead, if_pos (by rfl)]
      have h1 := modLane_self s n fun _ => { unsuspected sl .power s.lanes[n] with
        dead := s.lanes[n].dead ++ [(pos, s.ports[lanePort n].frameStart.getD s.time.mono)] }
      have hb : (s.modLane n fun _ => { unsuspected sl .power s.lanes[n] with
        dead := s.lanes[n].dead ++ [(pos, s.ports[lanePort n].frameStart.getD s.time.mono)] }).boot = s.boot := State.modLane_boot ..
      generalize s.modLane n (fun _ => { unsuspected sl .power s.lanes[n] with
        dead := s.lanes[n].dead ++ [(pos, s.ports[lanePort n].frameStart.getD s.time.mono)] }) = u at h1 hb ⊢
      obtain ⟨-, c2, c3⟩ := laneCause_effect u n 3 18
      rw [h1, hb] at c3
      rw [c2, h1]
      exact ⟨rfl, c3⟩
    · rw [sliceFailure_bare hp hf hm hs, if_neg, modLane_self]
      · rfl
      · rw [Bool.and_eq_true, beq_iff_eq, Bool.not_eq_true', List.any_eq_false]
        rintro ⟨hw, hall⟩
        rcases hd with hd | ⟨d, hd, he⟩
        · exact hd hw
        · exact hall d hd (beq_iff_eq.2 he)
  · obtain ⟨k1, k2, k3, k4, k5⟩ := sliceSwap_effect (s := s) (n := n) (f := f) (sp := sp) (pos := pos) rfl
    refine ⟨_, congrArg Host.Outcome.next (sliceSwap_swaps hf hs hp hl hok), sameWork_of_only k1, ?_, ?_, ?_, k2, fun y hy ht => ?_, k4, fun h => ?_,
      fun h => ?_⟩
    · rw [k3]
      rfl
    · rw [k3]
      exact (fld_setBit _ (by omega)).trans ((fld_setFld _ _ (by omega)).trans (Nat.mod_eq_of_lt (by omega)))
    · rw [k3]
      exact bit_setBit_self _ (by omega)
    · rw [k3] at hy
      exact closeSpans_closed hy ht
    · rw [k5, calDiscard_off h]
    · rw [k5]
      exact calDiscard_on h _
  · have hx := (writtenPort_reaches hr (trimWrite n false v)).trans (trimWrite_trim n v s)
    refine ⟨_, congrArg Host.Outcome.next hx, ?_⟩
    obtain ⟨a1, a2, a3, a4⟩ := trimState_effect n (fun l => { l with trim := wrRW 0x003FF3FF l.trim v }) (wrDiffers 0x003FF3FF s.lanes[n].trim v) s
    generalize trimState n (fun l => { l with trim := wrRW 0x003FF3FF l.trim v }) (wrDiffers 0x003FF3FF s.lanes[n].trim v) s = u at a1 a2 a3 a4 ⊢
    obtain ⟨b1, b2, b3, b4⟩ := trimmed_effect n u
    have hp : u.ports = s.ports := by rw [a1]
    rw [hp] at b2 b3 b4
    generalize u.trimmed n = t at b1 b2 b3 b4 ⊢
    have hl : t.lanes = u.lanes := by rw [b1]
    have hg : t.glb = u.glb := by rw [b1]
    refine ⟨b1.trans (by rw [hl, hg]; rw [a1]), by rw [hl, a2]; rfl, fun m hm => by rw [hl]; exact a3 m hm, b2, ?_, b3, b4⟩
    rw [hg, a4]
    have hd : wrDiffers 0x003FF3FF s.lanes[n].trim v = false ↔ (s.lanes[n].trim ^^^ v) &&& 0x003FF3FF = 0 := wrDiffers_iff ..
    by_cases h0 : (s.lanes[n].trim ^^^ v) &&& 0x003FF3FF = 0
    · rw [if_pos h0, hd.2 h0, if_neg Bool.false_ne_true]
    · rw [if_neg h0, eq_true_of_ne_false (mt hd.1 h0), if_pos rfl]
  · have hx := (writtenPort_reaches hr (trimWrite n true v)).trans (trimWrite_qsk n v s)
    refine ⟨_, congrArg Host.Outcome.next hx, ?_⟩
    obtain ⟨a1, a2, a3, a4⟩ := trimState_effect n (fun l => l.putQsk s.time.mono (wrRW (qskMask n) l.qsk v)) (wrDiffers (qskMask n) s.lanes[n].qsk v) s
    dsimp only
    generalize trimState n (fun l => l.putQsk s.time.mono (wrRW (qskMask n) l.qsk v)) (wrDiffers (qskMask n) s.lanes[n].qsk v) s = u at a1 a2 a3 a4 ⊢
    obtain ⟨b1, b2, b3, b4⟩ := trimmed_effect n u
    have hp : u.ports = s.ports := by rw [a1]
    rw [hp] at b2 b3 b4
    have hq : u.lanes[n].qsk = wrRW (qskMask n) s.lanes[n].qsk v := by rw [a2]; rfl
    by_cases h2 : n.val % 2 = 0
    · rw [if_pos h2, hq, qsk_skew, qsk_qc]
      exact ⟨a1.trans (by rw [hp]), by rw [a2]; rfl, rfl, rfl, a3, fun p _ => by rw [hp], fun _ => by rw [hp], fun h => absurd h2 h⟩
    · rw [if_neg h2]
      generalize u.trimmed n = t at b1 b2 b3 b4 ⊢
      have hl : t.lanes = u.lanes := by rw [b1]
      have hg : t.glb = u.glb := by rw [b1]
      rw [hl, hg, hq, qsk_skew, qsk_qc]
      exact ⟨b1.trans (by rw [a1]), by rw [a2]; rfl, rfl, rfl, a3, b2, fun h => b3 (h.resolve_left h2), fun _ => b4⟩

end Sys2Proof.Proofs

/-! SUPPORT. Events while no session listens on a ring leave the command rings alone; what a reset of the PCIe island leaves (R448, R525). -/

namespace Sys2Proof.Proofs
open Sys2Proof Sys2Proof.Machine Sys2Proof.Claims

/-! ### Records and links -/

theorem sendUnits_links (s : State) (it : TxItem) (l : Link) : (s.sendUnits it l).1.links = s.links := by
  have hn : (s.number it).1.links = s.links := by
    unfold State.number
    split <;> rfl
  have he : ∀ (us : List Nat) (f : Nat → Output) (u : State), (us.foldl (fun t n => t.emit (f n)) u).links = u.links := by
    intro us f
    induction us with
    | nil => exact fun _ => rfl
    | cons n us ih => exact fun u => ih _
  exact (he _ _ _).trans hn

theorem push_links (s : State) (n : Nat) (z : Option Nat) (r : Rec) (c : Nat) (b : Bool) : (s.push n z r c b).links = s.links := by
  have hs : ∀ (its : List TxItem) (acc : State × List TxItem), (its.foldl flushStep acc).1.links = acc.1.links := by
    intro its
    induction its with
    | nil => exact fun _ => rfl
    | cons it its ih =>
      intro acc
      refine (ih _).trans ?_
      unfold flushStep
      split
      · exact sendUnits_links ..
      · rfl
  have hf : ∀ u : State, u.flushEth.links = u.links := by
    intro u
    unfold State.flushEth
    dsimp only
    split
    · rfl
    · exact hs _ (u, [])
  exact hf _

/-! ### No session on a ring -/

/-- No open session is on a command ring. -/
def RingFree (s : State) : Prop := ∀ i : SessIx, s.sessions[i].isOpen = true → ∀ n, s.sessions[i].transport ≠ .ring n

theorem RingFree.of_sess {s t : State} (h : RingFree s) (k : SameSess s t) : RingFree t := by
  intro i
  obtain ⟨q, hq⟩ := k i
  rw [hq]
  exact h i

/-- The command rings stand while no session listens on one. -/
structure KeepsCr (s t : State) : Prop where
  cr : RingFree s → t.links.cr = s.links.cr
  sess : SameSess s t

theorem KeepsCr.refl (s : State) : KeepsCr s s := ⟨fun _ => rfl, SameSess.refl s⟩
theorem KeepsCr.trans {s t u : State} (h : KeepsCr s t) (k : KeepsCr t u) : KeepsCr s u :=
  ⟨fun f => (k.cr (f.of_sess h.sess)).trans (h.cr f), SameSess.trans h.sess k.sess⟩

theorem msix_keepsCr (s : State) (v : BitVec 8) : KeepsCr s (s.msix v) := by
  refine ⟨fun _ => ?_, SameSess.of_eq (msix_sessions ..)⟩
  unfold State.msix
  split
  · split <;> rfl
  · rfl

/-- A step of a chain that keeps sessions but for event sequence numbers, and the rings. -/
theorem KeepsCr.of_eq {s t : State} (h : t.links.cr = s.links.cr) (k : SameSess s t) : KeepsCr s t := ⟨fun _ => h, k⟩

theorem sendEvent_keepsCr (s : State) (i : SessIx) (bs : List Byte) (ho : s.sessions[i].isOpen = true) :
    KeepsCr s (s.sendEvent s.sessions[i].transport bs).1 := by
  refine ⟨fun hf => ?_, SameSess.of_eq (sendEvent_sessions ..)⟩
  have hr := hf i ho
  generalize s.sessions[i].transport = tr at hr
  cases tr with
  | ring k => exact absurd rfl (hr k)
  | udp e a p =>
    unfold State.sendEvent
    dsimp only
    split <;> rfl
  | spi => rfl

theorem eventPackets_keepsCr (s : State) (n : EvIx) (bs : List Byte) : KeepsCr s (s.eventPackets n bs).1 := by
  have step : ∀ (acc : State × Bool) (i : SessIx), KeepsCr acc.1 (eventPacketTo n bs acc i).1 := by
    intro acc i
    unfold eventPacketTo
    dsimp only
    split
    · rename_i ho
      have h1 : KeepsCr acc.1 (acc.1.modSess i fun x => { x with evSeq := x.evSeq + 1 }) := .of_eq rfl (evSeq_same _ _)
      have hs : (acc.1.modSess i fun x => { x with evSeq := x.evSeq + 1 }).sessions[i] = { acc.1.sessions[i] with evSeq := acc.1.sessions[i].evSeq + 1 } :=
        Vector.getElem_set_self ..
      generalize acc.1.modSess i (fun x => { x with evSeq := x.evSeq + 1 }) = u at h1 hs ⊢
      have h2 := sendEvent_keepsCr u i (header 0 2 i.val 0 0 acc.1.sessions[i].evSeq.toNat 52 ++ item 0x030B bs) (by rw [hs]; exact (Bool.and_eq_true .. ▸ ho).1)
      rw [hs] at h2
      exact h1.trans h2
    · exact .refl _
  have fold : ∀ (l : List SessIx) (acc : State × Bool), KeepsCr acc.1 (l.foldl (eventPacketTo n bs) acc).1 := by
    intro l
    induction l with
    | nil => exact fun acc => .refl acc.1
    | cons i l ih => exact fun acc => (step acc i).trans (ih _)
  exact fold _ (s, false)

theorem deliver_keepsCr (s : State) (n : EvIx) : KeepsCr s (s.deliver n).1 := by
  have h1 : KeepsCr s (if s.ev.cfg[n].msix then s.msix s.ev.cfg[n].vector else s) := by
    split
    · exact msix_keepsCr ..
    · exact .refl s
  have h2 : ∀ (u : State) (f : Events → Events), KeepsCr u (u.modEv f) := fun u f => .of_eq rfl (.of_eq rfl)
  have h3 : ∀ (u : State) (k : Nat) (z : Option Nat) (r : Rec) (c : Nat) (b : Bool), KeepsCr u (u.push k z r c b) := fun u k z r c b =>
    .of_eq (by rw [push_links]) (.of_eq (push_sessions ..))
  simp only [State.deliver]
  split
  · exact ((h1.trans (h2 _ _)).trans (h3 _ _ _ _ _ _)).trans (eventPackets_keepsCr ..)
  · exact h1

theorem occur_keepsCr (s : State) (n : EvIx) : KeepsCr s (s.occur n).1 := by
  have h : KeepsCr s ((s.modEv fun e => (e.counted n).setPending n s.time.dev s.time.mono).fireEvent n.val) := .of_eq rfl (.of_eq rfl)
  simp only [State.occur]
  split
  · exact .refl s
  · split
    · exact .of_eq rfl (.of_eq rfl)
    · split
      · exact h.trans (deliver_keepsCr ..)
      · exact h

theorem raise_keepsCr (s : State) (n : EvIx) : KeepsCr s (s.raise n) := by
  have h := occur_keepsCr s n
  unfold State.raise
  dsimp only
  split
  · split
    · exact (h.trans (occur_keepsCr ..)).trans (occur_keepsCr ..)
    · exact h.trans (occur_keepsCr ..)
  · exact h

/-! ### A reset of the PCIe island (R448, R525) -/

/-- One session of a ring closes with the island. -/
def closesWithPcie (u : State) (i : SessIx) : State :=
  match u.sessions[i].isOpen, u.sessions[i].transport with
  | true, .ring _ => u.closeSession i
  | _, _ => u

/-- Sessions and their slots go; work, links but the rings', and events stand. -/
structure Closed (s t : State) : Prop where
  same : SameWork s t
  ev : t.ev = s.ev
  links : t.links = { s.links with cr := t.links.cr }

theorem Closed.refl (s : State) : Closed s s := ⟨SameWork.refl s, rfl, rfl⟩
theorem Closed.trans {s t u : State} (h : Closed s t) (k : Closed t u) : Closed s u :=
  ⟨h.same.trans k.same, k.ev.trans h.ev, by rw [k.links, h.links]⟩

theorem freeSlot_closed (s : State) (t : Transport) (a : BitVec 8) (b : BitVec 32) : Closed s (s.freeSlot t a b) := by
  refine ⟨freeSlot_same .., ?_, ?_⟩ <;> cases t <;> rfl

theorem closeSession_closed (s : State) (i : SessIx) : Closed s (s.closeSession i) := by
  have h : ∀ (l : List (BitVec 16 × Packet)) (u : State), Closed u (l.foldl (fun u c => u.freeSlot c.2.transport c.2.session c.2.seq) u) := by
    intro l
    induction l with
    | nil => exact fun u => .refl u
    | cons c l ih => exact fun u => (freeSlot_closed ..).trans (ih _)
  have h1 := h s.sessions[i].waiting s
  unfold State.closeSession
  exact ⟨closeSession_same s i, h1.ev, h1.links⟩

theorem closesWithPcie_closed (u : State) (i : SessIx) : Closed u (closesWithPcie u i) := by
  unfold closesWithPcie
  split
  · exact closeSession_closed ..
  · exact .refl u

/-- A session is not open on a ring. -/
def OffRing (x : Session) : Prop := x.isOpen = true → ∀ n, x.transport ≠ .ring n

theorem closesWithPcie_sessions (u : State) (i : SessIx) : OffRing (closesWithPcie u i).sessions[i] ∧
    ∀ j, j ≠ i → (closesWithPcie u i).sessions[j] = u.sessions[j] := by
  unfold closesWithPcie
  split
  · rw [closeSession_session]
    exact ⟨nofun, fun j hj => closeSession_session_ne _ _ _ hj⟩
  · rename_i h
    exact ⟨fun ho n ht => h n ho ht, fun _ _ => rfl⟩

theorem closesFold (l : List SessIx) (s : State) : Closed s (l.foldl closesWithPcie s) ∧
    ∀ i, i ∈ l ∨ OffRing s.sessions[i] → OffRing (l.foldl closesWithPcie s).sessions[i] := by
  induction l generalizing s with
  | nil => exact ⟨.refl s, fun i h => h.resolve_left List.not_mem_nil⟩
  | cons j l ih =>
    obtain ⟨h1, h2⟩ := ih (closesWithPcie s j)
    obtain ⟨k1, k2⟩ := closesWithPcie_sessions s j
    refine ⟨(closesWithPcie_closed s j).trans h1, fun i hi => h2 i ?_⟩
    by_cases hj : i = j
    · exact .inr (hj ▸ k1)
    · rw [k2 i hj]
      exact hi.imp_left fun h => (List.mem_cons.1 h).resolve_left hj

/-- The links of a reset PCIe island. -/
def pcieCleared (l : Links) : Links :=
  { l.crossReset .pcie with
    cr := Vector.ofFn fun i => CmdRing.reset i.val, sr := Vector.ofFn fun i => StreamRing.reset i.val
    msixTable := Links.reset.msixTable, msixEnable := false, msixFuncMask := false, pba := 0 }

theorem pcieReset_eq (s : State) : s.pcieReset = ((List.finRange 4).foldl closesWithPcie s).modLinks pcieCleared := rfl

/-- What a reset of the PCIe island leaves. -/
structure PcieClear (s t : State) : Prop where
  same : SameWork s t
  links : t.links = pcieCleared s.links
  ev : t.ev = s.ev
  free : RingFree t

theorem pcieReset_clear (s : State) : PcieClear s s.pcieReset := by
  rw [pcieReset_eq]
  obtain ⟨⟨h1, h2, h3⟩, h4⟩ := closesFold (List.finRange 4) s
  generalize (List.finRange 4).foldl closesWithPcie s = u at h1 h2 h3 h4
  refine ⟨h1.trans (modLinks_same ..), ?_, h2, fun i => h4 i (.inl (List.mem_finRange i))⟩
  rw [State.modLinks_links, h3]
  rfl

/-- What every reset of the island leaves of the links. -/
theorem pcieCleared_links (l : Links) : (pcieCleared l).cr = State.reset.links.cr ∧ (pcieCleared l).sr = State.reset.links.sr ∧
    (pcieCleared l).msixTable = State.reset.links.msixTable ∧ CrossId.pcie ∈ (pcieCleared l).resetFlags ∧ (pcieCleared l).pcieWidth = l.pcieWidth :=
  ⟨rfl, rfl, rfl, List.mem_append_right _ (List.mem_singleton.2 rfl), rfl⟩

/-- The links of a PCIe island whose link goes down. -/
def pcieDropped (x : Links) : Links := { x with pcieWidth := 0, pcieRate := 0, pcieDegraded := x.pcieDegraded }

theorem pcieDown_eq {s : State} (h : s.links.pcieWidth ≠ 0) : pcieLinkChange { width := 0, rate := 0 } s = (s.modLinks pcieDropped).pcieReset.raise 232 := by
  unfold pcieLinkChange
  dsimp only
  rw [if_neg fun e => h e.1.symm]
  have hu : s.links.pcieUp = true := decide_eq_true h
  rw [hu]
  rfl

/-- PERST_N, or a reset of the PCIe standard (R525). -/
theorem pcieFundamentalReset_effect {s : State} (hb : s.boot.inReset = false) : SameWork s (pcieFundamentalReset s) ∧
    (pcieFundamentalReset s).links.pcieWidth = 0 ∧ (pcieFundamentalReset s).links.cr = State.reset.links.cr ∧
    (pcieFundamentalReset s).links.sr = State.reset.links.sr ∧ (pcieFundamentalReset s).links.msixTable = State.reset.links.msixTable ∧
    CrossId.pcie ∈ (pcieFundamentalReset s).links.resetFlags ∧
    (s.links.pcieWidth ≠ 0 → (pcieFundamentalReset s).ev.pend.getLsbD 232 = true) ∧ (s.links.pcieWidth = 0 → (pcieFundamentalReset s).ev = s.ev) := by
  have he : pcieFundamentalReset s = if s.links.pcieUp then pcieLinkChange { width := 0, rate := 0 } s else s.pcieReset := if_neg (by simp [hb])
  rw [he]
  by_cases hw : s.links.pcieWidth = 0
  · rw [if_neg (by rw [Links.pcieUp, hw]; decide)]
    obtain ⟨k1, k2, k3, -⟩ := pcieReset_clear s
    obtain ⟨c1, c2, c3, c4, c5⟩ := pcieCleared_links s.links
    rw [k2]
    exact ⟨k1, c5.trans hw, c1, c2, c3, c4, fun h => absurd hw h, fun _ => k3⟩
  · have hu : s.links.pcieUp = true := decide_eq_true hw
    rw [if_pos hu, pcieDown_eq hw]
    have k0 : SameWork s (s.modLinks pcieDropped) := modLinks_same ..
    obtain ⟨k1, k2, -, k4⟩ := pcieReset_clear (s.modLinks pcieDropped)
    obtain ⟨c1, c2, c3, c4, c5⟩ := pcieCleared_links (s.modLinks pcieDropped).links
    rw [← k2] at c1 c2 c3 c4 c5
    generalize (s.modLinks pcieDropped).pcieReset = u at k1 k4 c1 c2 c3 c4 c5 ⊢
    have hr := raise_only (F := []) u 232
    have hcr := (raise_keepsCr u 232).cr k4
    have hp := raise_pend u 232 232 ((congrArg Boot.inReset (k0.trans k1).boot).trans hb) (.inl rfl)
    generalize u.raise 232 = v at hr hcr hp ⊢
    have hl := hr.links
    refine ⟨(k0.trans k1).trans (sameWork_of_only hr), ?_, hcr.trans c1, ?_, ?_, ?_, fun _ => hp, fun h => absurd h hw⟩
    · rw [hl]; exact c5
    · rw [hl]; exact c2
    · rw [hl]; exact c3
    · rw [hl]; exact c4

end Sys2Proof.Proofs

/-! O52: the resets of R523 to R530. -/

namespace Sys2Proof.Proofs
open Sys2Proof Sys2Proof.Machine Sys2Proof.Claims

/-- What a reset of the main partition leaves (R524). -/
theorem mainReset_inReset (warm : Bool) (s : State) (f : Boot → Boot) (h1 : ∀ b, (f b).inReset = b.inReset)
    (h2 : ∀ b, (f b).journal = b.journal ∧ (f b).retired = b.retired ∧ (f b).saved = b.saved ∧ (f b).faultLog = b.faultLog) :
    InReset warm s ((mainReset warm s).modBoot f) := by
  refine ⟨h1 _, rfl, rfl, rfl, rfl, rfl, rfl, rfl, rfl, rfl, rfl, fun g => Vector.getElem_replicate _, rfl, rfl, ?_, rfl, h2 _⟩
  cases warm <;> rfl

theorem written_out {s : State} (h : s.boot.inReset = false) (f : State → State) : s.written f = f s := if_neg (by rw [h]; exact Bool.false_ne_true)
theorem written_reset {s : State} (h : s.boot.inReset = true) (f : State → State) : s.written f = s := if_pos h

/-- A warm reset keeps HZ_CNT, the host area and the jobs saved in it (R525). -/
theorem enterReset_effect (i : Nat) (s : State) : InReset true s (enterReset i s) ∧ (enterReset i s).boot.rstCause = setBit s.boot.rstCause i ∧
    (enterReset i s).glb.hzCnt = s.glb.hzCnt ∧ (enterReset i s).hostArea = s.hostArea ∧ (enterReset i s).savedJobs = s.savedJobs ∧
    (enterReset i s).time.mono = s.time.mono :=
  ⟨mainReset_inReset true s _ (fun _ => rfl) fun _ => ⟨rfl, rfl, rfl, rfl⟩, rfl, rfl, rfl, rfl, rfl⟩

/-- A step over its limit is noted in the boot record before the reset (R530). -/
theorem bootStepTimeout_effect {s : State} (hb : s.boot.inReset = false) (h5 : bit s.glb.stat 5 = false) (h0 : bit s.boot.bootStat 0 = false) :
    bootStepTimeout s = enterReset 4 ((s.elapse (stepLimit (fld s.glb.stat 0 5))).stepDone (fld s.glb.stat 0 5) 6 0 0) :=
  if_neg (by rw [hb, h5, h0]; exact Bool.false_ne_true)

theorem stepDone_journal (n : Nat) {s : State} {r : BootRec} {rs : List BootRec} (h : s.boot.journal = r :: rs) :
    (s.stepDone n 6 0 0).boot.journal = { r with outcomes := r.outcomes.set n (6, 0, 0) } :: rs := by
  unfold State.stepDone State.modRec
  show (match s.boot.journal with | r :: rs => _ | [] => _) = _
  rw [h]

theorem stepDone_keeps (n : Nat) (s : State) : (s.stepDone n 6 0 0).hostArea = s.hostArea ∧ (s.stepDone n 6 0 0).time.mono = s.time.mono ∧
    (s.stepDone n 6 0 0).boot.rstCause = s.boot.rstCause := ⟨rfl, rfl, rfl⟩

/-- A Rind without its rails (R246). -/
def rindStopped (r : Rind) : Rind :=
  { r with
    powered := false, halted := false, phase := .stopped, avg := none, work := [], tpg := false, wire := [], inhibit := true
    slot := [], reply := [], timeWord := none, ackWord := 0, axc0 := Axc0.reset, started := false }

theorem syncScan_unpowered {s : State} (h : s.rind.powered = false) : s.syncScan = s.modLinks fun l => { l with rindPins := .functional } := by
  unfold State.syncScan
  simp only [h, Bool.not_false, Bool.or_true, if_true]

theorem rindSupplyLoss_eq (s : State) : rindSupplyLoss s =
    ((s.modRind rindStopped).modLinks fun l => { l with rindPins := .functional }).modBoot fun b => { b with thermalB01 := 2 } :=
  congrArg (fun u : State => u.modBoot fun b => { b with thermalB01 := 2 }) (syncScan_unpowered (s := s.modRind rindStopped) rfl)

theorem crossReset_mem (l : Links) (c : CrossId) : c ∈ (l.crossReset c).resetFlags := List.mem_append_right _ (List.mem_singleton.2 rfl)
theorem release_not_mem (l : Links) (c : CrossId) : c ∉ (l.release c).resetFlags := fun h => absurd rfl (bne_iff_ne.1 (List.mem_filter.1 h).2)

/-- The Supervisor resets an Ethernet port (R529). -/
def ethCleared (now : Time) (e : Eth) : Eth :=
  { e with
    stat := clrBit e.stat 2, resolved := none, neighbours := [], pauseQuanta := 0, pauseFail := false, goodSince := none
    unresSince := now }

theorem islandReset_eth {s : State} (hb : s.boot.inReset = false) (n : Fin 2) : islandReset (.eth n) s =
    ((ethPortUpChange n false s).modEth n (ethCleared s.time.mono)).modLinks fun l => l.crossReset (.eth n) := if_neg (by rw [hb]; exact Bool.false_ne_true)

theorem islandReset_timing {s : State} (hb : s.boot.inReset = false) : islandReset .timing s =
    (timingPortLinkChange false s).modLinks fun l => l.crossReset .timing := if_neg (by rw [hb]; exact Bool.false_ne_true)

theorem islandReset_memory {s : State} (hb : s.boot.inReset = false) : islandReset .memory s =
    s.modLinks fun l => if bit s.clk.stat 7 then (l.crossReset .memory).release .memory else l.crossReset .memory :=
  if_neg (by rw [hb]; exact Bool.false_ne_true)

/-- The Ethernet port after its island's reset. -/
theorem ethReset_effect (n : Fin 2) (s : State) {t : State}
    (ht : t = ((ethPortUpChange n false s).modEth n (ethCleared s.time.mono)).modLinks fun l => l.crossReset (.eth n)) :
    bit t.links.eth[n].stat 0 = false ∧ bit t.links.eth[n].stat 2 = false ∧ t.links.eth[n].resolved = none ∧ t.links.eth[n].neighbours = [] ∧
      t.links.eth[1 - n] = s.links.eth[1 - n] ∧ t.settings = s.settings ∧ CrossId.eth n ∈ t.links.resetFlags := by
  obtain ⟨k1, k2, k3⟩ := ethPortDown_effect n s
  generalize ethPortUpChange n false s = u at k1 k2 k3 ht
  have e1 := modEth_self u n (ethCleared s.time.mono)
  have e2 := modEth_other u n (ethCleared s.time.mono)
  have k4 : Only [.links] u (u.modEth n (ethCleared s.time.mono)) := modEth_only ..
  generalize u.modEth n (ethCleared s.time.mono) = v at e1 e2 k4 ht
  subst ht
  have hn : (v.modLinks fun l => l.crossReset (.eth n)).links.eth[n] = ethCleared s.time.mono u.links.eth[n] := e1
  refine ⟨?_, ?_, ?_, ?_, e2.trans k3, k4.settings.trans k1.settings, crossReset_mem ..⟩
  all_goals rw [hn]
  · exact (bit_clrBit_ne _ (by omega)).trans k2
  · exact bit_clrBit_self ..
  · rfl
  · rfl

/-- The timing port after its island's reset. -/
theorem timingReset_effect {s t : State} (hb : s.boot.inReset = false) (ht : t = (timingPortLinkChange false s).modLinks fun l => l.crossReset .timing) :
    SameWork { s with time := t.time } t ∧ t.links.tportUp = false ∧ t.time.receiving = (s.time.receiving && !s.links.tportUp) ∧
      (s.links.tportUp = true → t.ev.pend.getLsbD 193 = true) ∧ CrossId.timing ∈ t.links.resetFlags := by
  have k : Only [.time, .links] s (timingPortLinkChange false s) ∧ (timingPortLinkChange false s).links.tportUp = false ∧
      (timingPortLinkChange false s).time.receiving = (s.time.receiving && !s.links.tportUp) ∧
      (s.links.tportUp = true → (timingPortLinkChange false s).ev.pend.getLsbD 193 = true) := by
    rw [timingPortDown_eq]
    cases hu : s.links.tportUp
    · rw [if_pos rfl]
      exact ⟨.refl .., hu, (Bool.and_true _).symm, nofun⟩
    · rw [if_neg Bool.noConfusion]
      obtain ⟨k1, k2, k3, k4, k5⟩ := timingDown_effect s
      refine ⟨k1, k2, ?_, fun _ => k3 hb⟩
      rw [Bool.not_true, Bool.and_false]
      cases hr : s.time.receiving
      · rw [k4 hr]; exact hr
      · rw [(k5 hr).1]
  obtain ⟨k1, k2, k3, k4⟩ := k
  generalize timingPortLinkChange false s = u at k1 k2 k3 k4 ht
  have hl : Only [.time, .links] u t := by
    rw [ht]
    exact (modLinks_only ..).mono (by decide)
  refine ⟨sameWork_of_only (k1.trans hl), ?_, ?_, fun h => hl.pend 193 (k4 h), ?_⟩
  all_goals rw [ht]
  · exact k2
  · exact k3
  · exact crossReset_mem ..

/-- Settles O52: each reset is its own record update, and the port and link rows leave what their own rows state. -/
theorem resetsLeaveWhatTheTableSays : Obligations.ResetsLeaveWhatTheTableSays := by
  unfold Obligations.ResetsLeaveWhatTheTableSays
  intro s
  refine ⟨fun c i hc hb => ?_, fun hb => ⟨?_, ?_, ?_, ?_, fun i => ?_⟩, fun h => ?_, fun hb h5 h0 => ?_, ⟨_, rfl, ?_⟩, ⟨_, rfl, ?_⟩, ⟨_, rfl, ?_⟩, fun h => ?_,
    fun h => ?_, fun hb => ⟨_, rfl, pcieFundamentalReset_effect hb⟩, fun n hb => ?_, fun hb => ?_, fun hb => ?_⟩
  · have hx : exec c s = .next (enterReset i s) := by
      simp only [List.mem_cons, Prod.mk.injEq, List.not_mem_nil, or_false] at hc
      rcases hc with ⟨rfl, rfl⟩ | ⟨rfl, rfl⟩ <;> exact congrArg Host.Outcome.next (written_out hb _)
    exact ⟨_, hx, enterReset_effect i s⟩
  · exact congrArg Host.Outcome.next (written_reset hb _)
  · exact congrArg Host.Outcome.next (written_reset hb _)
  · exact congrArg Host.Outcome.next (if_pos (by rw [hb]; rfl))
  · exact congrArg Host.Outcome.next (if_pos hb)
  · exact congrArg Host.Outcome.next (if_pos hb)
  · refine congrArg Host.Outcome.next (if_pos ?_)
    rcases h with h | h <;> simp [h]
  · refine ⟨_, congrArg Host.Outcome.next (bootStepTimeout_effect hb h5 h0), ?_⟩
    generalize fld s.glb.stat 0 5 = n
    generalize stepLimit n = x
    have hj : ∀ r rs, s.boot.journal = r :: rs → ((s.elapse x).stepDone n 6 0 0).boot.journal = { r with outcomes := r.outcomes.set n (6, 0, 0) } :: rs :=
      fun r rs h => stepDone_journal n (by rw [State.elapse_boot, h])
    obtain ⟨d1, d2, -⟩ := stepDone_keeps n (s.elapse x)
    generalize (s.elapse x).stepDone n 6 0 0 = u at hj d1 d2 ⊢
    obtain ⟨r, e1, -, e3, -, e5⟩ := enterReset_effect 4 u
    refine ⟨r.inReset, ?_, r.settings, ?_, ?_, fun y ys h => r.journal.1.trans (hj y ys h)⟩
    · rw [e1]
      exact bit_setBit_self _ (by omega)
    · rw [e3, d1, State.elapse_hostArea]
    · exact e5.trans d2
  · exact ⟨mainReset_inReset false s _ (fun _ => rfl) fun _ => ⟨rfl, rfl, rfl, rfl⟩, rfl, rfl, rfl, rfl, rfl⟩
  · rw [rindSupplyLoss_eq]
    exact ⟨rfl, rfl, rfl, rfl, rfl, rfl, rfl, rfl, rfl, rfl, rfl⟩
  · exact ⟨rfl, rfl, rfl, rfl, rfl, rfl, rfl⟩
  · exact ⟨_, congrArg Host.Outcome.next (if_pos h), rfl, rfl, rfl, rfl, rfl, rfl⟩
  · exact congrArg Host.Outcome.next (if_neg (by rw [h]; exact Bool.false_ne_true))
  · exact ⟨_, congrArg Host.Outcome.next (islandReset_eth hb n), ethReset_effect n s rfl⟩
  · refine ⟨_, congrArg Host.Outcome.next (islandReset_timing hb), ?_⟩
    exact timingReset_effect hb rfl
  · refine ⟨_, congrArg Host.Outcome.next (islandReset_memory hb), rfl, ?_, ?_⟩
    · cases bit s.clk.stat 7 <;> rfl
    · rw [State.modLinks_links]
      cases bit s.clk.stat 7
      · exact iff_of_true (crossReset_mem ..) rfl
      · exact iff_of_false (release_not_mem _ _) nofun

end Sys2Proof.Proofs

/-! SUPPORT. Footprints of the Ladle's placements (R347, R359, R371, R372, R408): what a placement, a shed zone and a trimmed link may change. -/

namespace Sys2Proof.Proofs
open Sys2Proof Sys2Proof.Machine Sys2Proof.Claims

theorem modEng_only (s : State) (n : EngIx) (f : Engine → Engine) : Only [.engines] s (s.modEng n f) :=
  only_part .engines fun p hp => by cases p <;> first | rfl | exact absurd rfl hp | exact SameSess.of_eq rfl
theorem modPipe_only (s : State) (n : PipeIx) (f : Pipe → Pipe) : Only [.pipes] s (s.modPipe n f) :=
  only_part .pipes fun p hp => by cases p <;> first | rfl | exact absurd rfl hp | exact SameSess.of_eq rfl
theorem streams_only {F : List Part} (s : State) (x : Streams) : Only F s { s with streams := x } := .of_ev (modStreams_same s fun _ => x) (.of_eq rfl rfl) rfl rfl

/-- A field of LADLE_STAT at or above bit 8 leaves the sticky bits. -/
theorem sticky_setFld {a : Ladle} (w : Word) {lo len : Nat} (v : Nat) (h : lo + len ≤ 32) (hl : 7 ≤ lo)
    (k : ∀ i, 2 ≤ i → i ≤ 6 → bit a.stat i = true → bit w i = true) :
    ∀ i, 2 ≤ i → i ≤ 6 → bit a.stat i = true → bit (setFld w lo len v) i = true := fun i h2 h6 hi => by
  rw [bit_setFld _ _ h, if_neg (by omega)]
  exact k i h2 h6 hi

theorem sticky_putBit {a : Ladle} (w : Word) {j : Nat} (b : Bool) (h : j < 2) (k : ∀ i, 2 ≤ i → i ≤ 6 → bit a.stat i = true → bit w i = true) :
    ∀ i, 2 ≤ i → i ≤ 6 → bit a.stat i = true → bit (putBit w j b) i = true := fun i h2 h6 hi => by
  rw [bit_putBit_ne _ _ (by omega)]
  exact k i h2 h6 hi

theorem refreshLadle_only (s : State) : Only [.ladle] s s.refreshLadle := by
  unfold State.refreshLadle
  refine modLadle_only _ _ ?_
  exact sticky_setFld _ _ (by omega) (by omega) (sticky_setFld _ _ (by omega) (by omega) (sticky_setFld _ _ (by omega) (by omega)
    (sticky_setFld _ _ (by omega) (by omega) (sticky_putBit _ _ (by omega) (sticky_putBit _ _ (by omega) fun _ _ _ h => h)))))

theorem bumpGen_only (s : State) : Only [.ladle] s s.bumpGen := modLadle_only ..

theorem endJob_only (s : State) (j : Nat × Nat × Settings × Nat × Nat) (b : Bool) : Only [.look, .free] s (s.endJob j b) := by
  obtain ⟨id, x, params, source, products⟩ := j
  have h1 : Only [.look, .free] s (s.modLook fun l => { l with jobs := l.jobs.erase (id, x, params, source, products) }) := (modLook_only ..).mono (by decide)
  unfold State.endJob
  dsimp only
  generalize s.modLook (fun l => { l with jobs := l.jobs.erase (id, x, params, source, products) }) = u at h1 ⊢
  split
  · exact h1.trans (raise_only ..)
  · cases b
    · exact (h1.trans (.foldl (fun _ _ => push_only ..) _ _)).trans (raise_only ..)
    · exact ((h1.trans ((fresh_only u).mono (by decide))).trans (.foldl (fun _ _ => push_only ..) _ _)).trans (raise_only ..)

theorem syncEngine_only (s : State) (pl : Placement) (n : EngIx) : Only [.engines] s (s.syncEngine pl n) := by
  unfold State.syncEngine
  dsimp only
  split
  · split
    · exact .refl ..
    · split
      · exact modEng_only ..
      · split
        · exact modEng_only ..
        · exact .refl ..
  · split
    · exact .refl ..
    · split <;> exact modEng_only ..

theorem syncPipes_only (s : State) (pl : Placement) : Only [.pipes] s (s.syncPipes pl) := by
  refine .foldl (fun u n => ?_) _ _
  split
  · split <;> exact modPipe_only ..
  · split
    · exact .refl ..
    · exact modPipe_only ..

theorem syncPress_only (s : State) (pl : Placement) : Only [.press] s (s.syncPress pl) := .foldl (fun _ _ => modPress_only ..) _ _

/-- What a placement that takes effect may change. -/
abbrev placeParts : List Part := [.ladle, .look, .free, .engines, .pipes, .press]

theorem applyPlacement_only (s : State) (pl : Placement) : Only placeParts s (s.applyPlacement pl) := by
  unfold State.applyPlacement
  dsimp only
  have h1 : Only placeParts s (s.modLadle fun l => { l with place := pl }) := (modLadle_only ..).mono (by decide)
  generalize s.modLadle (fun l => { l with place := pl }) = s1 at h1 ⊢
  have h2 : Only placeParts s1 (s1.look.jobs.foldl (fun u j => if pl.pipes.any fun x => x.2 == j.2.1 then u.endJob j true else u) s1) :=
    .foldl (fun _ _ => .ite (fun _ => (endJob_only ..).mono (by decide)) fun _ => .refl ..) _ _
  generalize s1.look.jobs.foldl (fun u j => if pl.pipes.any fun x => x.2 == j.2.1 then u.endJob j true else u) s1 = s2 at h2 ⊢
  have h3 : Only placeParts s2 (s2.forEngs fun n u => u.syncEngine pl n) := .foldl (fun _ _ => (syncEngine_only ..).mono (by decide)) _ _
  generalize s2.forEngs (fun n u => u.syncEngine pl n) = s3 at h3 ⊢
  have h4 : Only placeParts s3 ((s3.syncPipes pl).syncPress pl).refreshLadle :=
    (((syncPipes_only ..).mono (by decide)).trans ((syncPress_only ..).mono (by decide))).trans ((refreshLadle_only ..).mono (by decide))
  generalize ((s3.syncPipes pl).syncPress pl).refreshLadle = s4 at h4 ⊢
  have h := ((h1.trans h2).trans h3).trans h4
  exact .ite (fun _ => h.trans ((bumpGen_only ..).mono (by decide))) fun _ => h

theorem shedZone_only (s : State) (z what : Nat) : Only zoneParts s (s.shedZone z what) := by
  unfold State.shedZone
  dsimp only
  split
  · exact .refl ..
  · have h1 : Only zoneParts s (s.closeAll z true) := closeAll_only ..
    generalize s.closeAll z true = s1 at h1 ⊢
    have h2 : ∀ f, Only zoneParts s1 (s1.modZone z f) := fun f => (modZone_only ..).mono (by decide)
    have h3 : ∀ (u : State) (x : List (Nat × Nat)), Only zoneParts u ((u.modLadle fun l => { l with shed := l.shed ++ x }).raise 250) := fun u x =>
      ((modLadle_only u _).mono (by decide)).trans (raise_only ..)
    exact ((h1.trans (h2 _)).trans (wheyZone_only ..)).trans (h3 _ _)

/-- What shedding zones and placing the rest may change. -/
abbrev shedParts : List Part := [.ladle, .look, .free, .engines, .pipes, .press, .zones, .jobs]

theorem trimLink_only (l : Link) (k : Nat) (s : State) : Only shedParts s (State.trimLink l k s) := by
  induction k generalizing s with
  | zero => exact .refl ..
  | succ k ih =>
    rw [State.trimLink]
    split
    · exact .refl ..
    · split
      · exact .refl ..
      · exact (((shedZone_only ..).mono (by decide)).trans ((applyPlacement_only ..).mono (by decide))).trans (ih _)

theorem moveStreams_only (s : State) (a b : Fin 2) (zones : Nat → Bool) (device : Bool) : Only placeParts s (s.moveStreams a b zones device) := by
  unfold State.moveStreams
  exact (streams_only ..).trans (applyPlacement_only ..)

/-! ### The failover of an Ethernet port (R512) -/

/-- What the failover of a port leaves of the ports' registers: the zones moved are noted. -/
structure Moved (n : Fin 2) (s t : State) : Prop where
  only : Only (.links :: shedParts) s t
  eth : ∃ zs, t.links.eth[n] = { s.links.eth[n] with moved := zs }
  other : t.links.eth[1 - n] = s.links.eth[1 - n]

theorem Moved.of_only {n : Fin 2} {s t : State} (h : Only shedParts s t) : Moved n s t :=
  ⟨h.mono (by decide), ⟨_, by rw [h.eth]⟩, by rw [h.eth]⟩

theorem failOver_moved (s : State) (n : Fin 2) : Moved n s (s.failOver n) := by
  unfold State.failOver
  dsimp only
  split
  · generalize (s.ladle.place.links.filter fun x => x.2.1 == .eth n).map (·.1) = zs
    have h0 : Only [.links] s (s.modEth n fun e => { e with moved := (e.moved ++ zs).eraseDups }) := modEth_only ..
    have e0 := modEth_self s n fun e => { e with moved := (e.moved ++ zs).eraseDups }
    have e1 := modEth_other s n fun e => { e with moved := (e.moved ++ zs).eraseDups }
    generalize s.modEth n (fun e => { e with moved := (e.moved ++ zs).eraseDups }) = u at h0 e0 e1 ⊢
    have h1 : Only shedParts u (u.moveStreams n (1 - n) (fun _ => true) true) := (moveStreams_only ..).mono (by decide)
    generalize u.moveStreams n (1 - n) (fun _ => true) true = v at h1 ⊢
    have h2 : Only shedParts v (State.trimLink (.eth (1 - n)) v.ladle.place.links.length v).flushDrained :=
      (trimLink_only ..).trans ((flushDrained_only _).mono (by decide))
    have h := h1.trans h2
    exact ⟨(h0.mono (by decide)).trans (h.mono (by decide)), ⟨_, by rw [h.eth, e0]⟩, by rw [h.eth, e1]⟩
  · exact .of_only (.refl ..)

end Sys2Proof.Proofs

/-! O50: the Ethernet ports (R377, R507 to R512). -/

namespace Sys2Proof.Proofs
open Sys2Proof Sys2Proof.Machine Sys2Proof.Claims

theorem regood_regs (e : Eth) (now : Time) : e.regood now = { e with goodSince := (e.regood now).goodSince } := rfl

/-! ### UP (R511) -/

theorem ethTurned_effect {n : Fin 2} {up : Bool} {s : State} (hb : s.boot.inReset = false) (h : bit s.links.eth[n].stat 0 = !up) :
    Only [.links, .zones] s (ethPortUpChange n up s) ∧ (ethPortUpChange n up s).links.eth[n] = turned up s.time.mono s.links.eth[n] ∧
      (ethPortUpChange n up s).links.eth[1 - n] = s.links.eth[1 - n] ∧ (ethPortUpChange n up s).ev.pend.getLsbD (235 + n.val) = true ∧
      (up = true → CrossId.eth n ∉ (ethPortUpChange n up s).links.resetFlags) := by
  rw [ethPortUpChange_eq, if_neg (by rw [h]; cases up <;> nofun)]
  obtain ⟨h0, hn, ho⟩ := portTurned_effect n up s
  have hf : up = true → CrossId.eth n ∉ (portTurned n up s).links.resetFlags := by
    rintro rfl
    exact release_not_mem _ _
  generalize portTurned n up s = u at h0 hn ho hf
  have hlt : 235 + n.val < 256 := by omega
  have hp : (u.raiseN (235 + n.val)).ev.pend.getLsbD (235 + n.val) = true := by
    unfold State.raiseN
    rw [ix_of_lt hlt]
    exact raise_pend u _ ⟨235 + n.val, hlt⟩ (h0.inReset.trans hb) (.inl rfl)
  have h1 : Only [.zones] u (u.raiseN (235 + n.val)) := raiseN_only ..
  generalize u.raiseN (235 + n.val) = v at h1 hp
  have h2 := flushDrained_only v
  have h12 := h1.trans h2
  refine ⟨(h0.mono (by decide)).trans (h12.mono (by decide)), by rw [h12.eth, hn], by rw [h12.eth, ho], h2.pend ⟨235 + n.val, hlt⟩ hp, fun hu => ?_⟩
  rw [h12.links]
  exact hf hu

/-! ### Failure and return (R512) -/

/-- What a port that fails for routing leaves. -/
structure EthFailed (n : Fin 2) (s t : State) : Prop where
  only : Only (.links :: shedParts) s t
  failed : bit t.links.eth[n].stat 1 = true
  pend : s.boot.inReset = false → bit s.links.eth[n].stat 1 = false → t.ev.pend.getLsbD 237 = true

theorem ethFail_failed (s : State) (n : Fin 2) : EthFailed n s (s.ethFail n) := by
  unfold State.ethFail
  by_cases h : bit s.links.eth[n].stat 1 = true
  · rw [if_pos h]
    exact ⟨.refl .., h, fun _ h0 => absurd (h.symm.trans h0) nofun⟩
  · rw [if_neg h]
    have h0 : Only [.links] s (s.modEth n fun e => { e with stat := setBit e.stat 1 }) := modEth_only ..
    have e0 := modEth_self s n fun e => { e with stat := setBit e.stat 1 }
    generalize s.modEth n (fun e => { e with stat := setBit e.stat 1 }) = u at h0 e0 ⊢
    obtain ⟨m1, ⟨zs, m2⟩, -⟩ := failOver_moved u n
    generalize u.failOver n = v at m1 m2 ⊢
    have h2 : Only [] v (v.raise 237) := raise_only ..
    refine ⟨((h0.mono (by decide)).trans m1).trans (h2.mono (by decide)), ?_, fun hb _ => ?_⟩
    · rw [h2.eth, m2, e0]
      exact bit_setBit_self _ (by omega)
    · exact raise_pend v 237 237 (m1.inReset.trans (h0.inReset.trans hb)) (.inl rfl)

theorem ethPortFailed_fails {s u : State} {n : Fin 2} (h : s.links.eth[n].inService = true)
    (hu : (bit s.links.eth[n].stat 0 = false ∧ u = s.until (s.links.eth[n].downSince + ms)) ∨
      (bit s.links.eth[n].stat 0 = true ∧ s.links.eth[n].resolvedNow = false ∧ u = s.until (s.links.eth[n].unresSince + sec))) :
    ethPortFailed n s = u.ethFail n := by
  unfold ethPortFailed
  dsimp only
  rw [if_neg (by rw [h]; decide)]
  rcases hu with ⟨h0, rfl⟩ | ⟨h0, hr, rfl⟩
  · exact if_pos (by rw [h0]; rfl)
  · rw [if_neg (by rw [h0]; decide)]
    exact if_pos (by rw [hr]; rfl)

theorem ethPortFailed_stays {s : State} {n : Fin 2}
    (h : s.links.eth[n].inService = false ∨ (bit s.links.eth[n].stat 0 = true ∧ s.links.eth[n].resolvedNow = true)) : ethPortFailed n s = s := by
  unfold ethPortFailed
  dsimp only
  rcases h with h | ⟨h0, hr⟩
  · exact if_pos (by rw [h]; rfl)
  · rw [h0, hr]
    exact ite_self s

/-- A port in service again, before its streams move. -/
def ethGood (s : State) (n : Fin 2) (t0 : Time) : State := (s.until (t0 + 10 * sec)).modEth n fun e => { e with stat := clrBit e.stat 1, moved := [] }

theorem ethPortReturn_eq {s : State} {n : Fin 2} {t0 : Time} (h : s.links.eth[n].goodSince = some t0) (h1 : bit s.links.eth[n].stat 1 = true) :
    ethPortReturn n s =
      (let s2 := (ethGood s n t0).moveStreams (1 - n) n (fun z => s.links.eth[n].moved.contains z) (n == 0)
       let s3 := if s2.links.eth[1 - n].inService then s2 else s2.failOver (1 - n)
       s3.flushDrained.raise 237) := by
  unfold ethPortReturn
  dsimp only
  rw [h]
  exact if_neg (by rw [h1]; decide)

theorem eth_back {s t : State} : ∀ {n : Fin 2}, t.links.eth[1 - (1 - n)] = s.links.eth[1 - (1 - n)] → t.links.eth[n] = s.links.eth[n]
  | 0, h => h
  | 1, h => h

theorem ethReturn_effect (n : Fin 2) (zs : List Nat) (u : State) {t : State} (ht : t =
      (let s2 := u.moveStreams (1 - n) n (fun z => zs.contains z) (n == 0)
       let s3 := if s2.links.eth[1 - n].inService then s2 else s2.failOver (1 - n)
       s3.flushDrained.raise 237)) :
    Only (.links :: shedParts) u t ∧ t.links.eth[n] = u.links.eth[n] ∧ (u.boot.inReset = false → t.ev.pend.getLsbD 237 = true) := by
  dsimp only at ht
  have h1 : Only (.links :: shedParts) u (u.moveStreams (1 - n) n (fun z => zs.contains z) (n == 0)) := (moveStreams_only ..).mono (by decide)
  have e1 : (u.moveStreams (1 - n) n (fun z => zs.contains z) (n == 0)).links.eth = u.links.eth := (moveStreams_only ..).eth
  generalize u.moveStreams (1 - n) n (fun z => zs.contains z) (n == 0) = v at h1 e1 ht
  have h2 : Only (.links :: shedParts) v (if v.links.eth[1 - n].inService then v else v.failOver (1 - n)) ∧
      (if v.links.eth[1 - n].inService then v else v.failOver (1 - n)).links.eth[n] = v.links.eth[n] := by
    split
    · exact ⟨.refl .., rfl⟩
    · obtain ⟨m1, -, m3⟩ := failOver_moved v (1 - n)
      exact ⟨m1, eth_back m3⟩
  obtain ⟨h2, e2⟩ := h2
  generalize (if v.links.eth[1 - n].inService then v else v.failOver (1 - n)) = w at h2 e2 ht
  have h3 := flushDrained_only w
  generalize w.flushDrained = x at h3 ht
  have h4 : Only [] x (x.raise 237) := raise_only ..
  have h := (h1.trans h2).trans (h3.mono (by decide))
  subst ht
  exact ⟨h.trans (h4.mono (by decide)), by rw [h4.eth, h3.eth, e2, e1], fun hb => raise_pend x 237 237 (h.inReset.trans hb) (.inl rfl)⟩

/-! ### PAUSE (R377, R507) -/

/-- A port that a PAUSE frame holds. -/
def held (q : Nat) (now : Time) (e : Eth) : Eth :=
  ({ e with stat := setBit e.stat 2, pausedSince := if bit e.stat 2 then e.pausedSince else now, pauseAt := now, pauseQuanta := q } : Eth).regood now

theorem held_good (q : Nat) (now : Time) (e : Eth) : bit (held q now e).stat 2 = true ∧ (held q now e).goodSince = none := by
  refine ⟨bit_setBit_self _ (by omega), if_neg ?_⟩
  dsimp only
  rw [bit_setBit_self _ (by omega : 2 < 32)]
  simp

theorem pauseReceived_off {s : State} {n : Fin 2} (h : bit s.links.eth[n].stat 0 = false ∨ bit s.links.eth[n].link 27 = false) (q : BitVec 16) :
    pauseReceived n q s = s := by
  refine if_pos ?_
  rcases h with h | h <;> rw [h] <;> simp

theorem pauseReceived_on {s : State} {n : Fin 2} (h0 : bit s.links.eth[n].stat 0 = true) (h27 : bit s.links.eth[n].link 27 = true) (q : BitVec 16) :
    pauseReceived n q s = if q = 0 then s.unpause n else s.modEth n (held q.toNat s.time.mono) := by
  refine if_neg ?_
  rw [h0, h27]
  decide

theorem unpause_effect (s : State) (n : Fin 2) : Only [.links, .zones] s (s.unpause n) ∧ bit (s.unpause n).links.eth[n].stat 2 = false := by
  unfold State.unpause
  have h0 : Only [.links] s (s.modEthG n fun e => { e with stat := clrBit e.stat 2, pauseFail := false, pauseQuanta := 0 }) := modEthG_only ..
  have e0 : bit (s.modEthG n fun e => { e with stat := clrBit e.stat 2, pauseFail := false, pauseQuanta := 0 }).links.eth[n].stat 2 = false := by
    unfold State.modEthG
    rw [modEth_self]
    exact bit_clrBit_self ..
  generalize s.modEthG n (fun e => { e with stat := clrBit e.stat 2, pauseFail := false, pauseQuanta := 0 }) = u at h0 e0 ⊢
  have h1 := flushDrained_only u
  exact ⟨(h0.mono (by decide)).trans (h1.mono (by decide)), by rw [h1.eth]; exact e0⟩

theorem pauseLim_eq {s : State} {n : Fin 2} (h2 : bit s.links.eth[n].stat 2 = true) (hf : s.links.eth[n].pauseFail = false) : pauseLimExceeded n s =
    ((((s.until (s.links.eth[n].pausedSince + s.settings.dev 0x0211 * ms)).modEth n fun e => { e with pauseFail := true }).modLadle fun l =>
      { l with stat := setBit l.stat 6 }).raise 238).ethFail n := by
  refine if_neg ?_
  rw [h2, hf]
  decide

/-- A hold over PAUSE_LIM, at the instant that it exceeds it. -/
theorem pauseLim_effect (n : Fin 2) (u : State) {t : State}
    (ht : t = (((u.modEth n fun e => { e with pauseFail := true }).modLadle fun l => { l with stat := setBit l.stat 6 }).raise 238).ethFail n) :
    Only (.links :: shedParts) u t ∧ bit t.ladle.stat 6 = true ∧ (u.boot.inReset = false → t.ev.pend.getLsbD 238 = true) ∧ bit t.links.eth[n].stat 1 = true := by
  have h0 : Only [.links] u (u.modEth n fun e => { e with pauseFail := true }) := modEth_only ..
  generalize u.modEth n (fun e => { e with pauseFail := true }) = v at h0 ht
  have h1 : Only [.ladle] v (v.modLadle fun l => { l with stat := setBit l.stat 6 }) := modLadle_setBit_only v 6 (by omega)
  have e1 : bit (v.modLadle fun l => { l with stat := setBit l.stat 6 }).ladle.stat 6 = true := bit_setBit_self _ (by omega)
  generalize v.modLadle (fun l => { l with stat := setBit l.stat 6 }) = w at h1 e1 ht
  have h2 : Only [] w (w.raise 238) := raise_only ..
  have p2 : w.boot.inReset = false → (w.raise 238).ev.pend.getLsbD 238 = true := fun hb => raise_pend w 238 238 hb (.inl rfl)
  generalize w.raise 238 = x at h2 p2 ht
  obtain ⟨f1, f2, -⟩ := ethFail_failed x n
  rw [← ht] at f1 f2
  have h := ((h0.mono (by decide)).trans (h1.mono (by decide))).trans ((h2.mono (by decide)).trans f1 : Only (.links :: shedParts) w t)
  exact ⟨h, f1.sticky 6 (by omega) (by omega) (h2.sticky 6 (by omega) (by omega) e1),
    fun hb => f1.pend 238 (p2 (h1.inReset.trans (h0.inReset.trans hb))), f2⟩

end Sys2Proof.Proofs

/-! O50: the rows of an Ethernet port. -/

namespace Sys2Proof.Proofs
open Sys2Proof Sys2Proof.Machine Sys2Proof.Claims

/-! ### Neighbours and datagrams (R508, R509) -/

theorem neighbour_off {s : State} {n : Fin 2} (h : bit s.links.eth[n].stat 0 = false ∨ bit s.links.eth[n].link 27 = false) (m : NeighbourMsg) :
    neighbourResolution n m s = s := by
  refine if_pos ?_
  rcases h with h | h <;> rw [h] <;> simp

theorem neighbour_on {s : State} {n : Fin 2} (h0 : bit s.links.eth[n].stat 0 = true) (h27 : bit s.links.eth[n].link 27 = true) (m : NeighbourMsg) :
    neighbourResolution n m s = match m with
      | .request target sender mac =>
        if target = addr128 s.links.eth[n].ip then ((s.modEthG n fun e => e.learn sender mac).emit (.neighbour n.val target)).flushDrained else s
      | .reply sender mac => (s.modEthG n fun e => e.learn sender mac).flushDrained := by
  refine (if_neg ?_).trans ?_
  · rw [h0, h27]
    decide
  · cases m <;> rfl

theorem learn_effect (e : Eth) (a : BitVec 128) (mac : BitVec 48) (now : Time) : (a, mac) ∈ ((e.learn a mac).regood now).neighbours ∧
    ((e.learn a mac).regood now).resolved = if a = e.nextHop then some mac else e.resolved :=
  ⟨List.mem_append_right _ (List.mem_singleton.2 rfl), rfl⟩

/-- A port that learns an address. -/
theorem learned_effect (s : State) (n : Fin 2) (a : BitVec 128) (mac : BitVec 48) : Only [.links] s (s.modEthG n fun e => e.learn a mac) ∧
    (a, mac) ∈ (s.modEthG n fun e => e.learn a mac).links.eth[n].neighbours ∧
    (s.modEthG n fun e => e.learn a mac).links.eth[n].resolved = if a = s.links.eth[n].nextHop then some mac else s.links.eth[n].resolved := by
  have h := learn_effect s.links.eth[n] a mac s.time.mono
  refine ⟨modEthG_only .., ?_, ?_⟩
  all_goals unfold State.modEthG
  all_goals rw [modEth_self]
  · exact h.1
  · exact h.2

theorem udpDiscard_on {s : State} {n : Fin 2} (h0 : bit s.links.eth[n].stat 0 = true) (h27 : bit s.links.eth[n].link 27 = true) :
    udpDatagramDiscard n s = s.modEth n fun e => { e with rxdrop := if e.rxdrop = 0xFFFFFFFF then e.rxdrop else e.rxdrop + 1 } :=
  if_pos (by rw [h0, h27]; rfl)

theorem rxdrop_counts (w : Word) : (if w = 0xFFFFFFFF then w else w + 1).toNat = min 4294967295 (w.toNat + 1) := by
  by_cases h : w = 0xFFFFFFFF
  · rw [if_pos h, h]
    rfl
  · have hn : w.toNat ≠ 4294967295 := fun e => h (BitVec.eq_of_toNat_eq e)
    have hl : w.toNat < 2 ^ 32 := w.isLt
    have ha : (w + 1).toNat = w.toNat + 1 := by
      have h1 : BitVec.toNat (1 : Word) = 1 := rfl
      rw [BitVec.toNat_add, h1]
      omega
    rw [if_neg h, ha]
    omega

theorem modEth_const (s : State) (n : Fin 2) (f : Eth → Eth) : s.modEth n f = s.modEth n fun _ => (s.modEth n f).links.eth[n] := by
  rw [modEth_self]
  rfl

/-- Settles O50: each row changes the registers of its own port, moves the streams with the port's service, and raises its event. -/
theorem ethernetPortsFailAndReturn : Obligations.EthernetPortsFailAndReturn := by
  unfold Obligations.EthernetPortsFailAndReturn
  intro s n hb
  have huntil : ∀ x, (s.until x).settings = s.settings ∧ (s.until x).boot.inReset = false ∧ (s.until x).links = s.links := fun x =>
    ⟨by rw [State.until_settings], by rw [State.until_boot]; exact hb, by rw [State.until_links]⟩
  refine ⟨fun up h => congrArg Host.Outcome.next (if_pos h), fun up h => ⟨_, rfl, ?_⟩, fun u hs hu => ?_,
    fun h => congrArg Host.Outcome.next (ethPortFailed_stays h), fun h => ?_, fun t0 hg h1 => ?_, fun h => ⟨fun q => ?_, fun m => ?_, ?_⟩,
    fun q h0 h27 => ⟨fun hq => ?_, fun hq => ?_⟩, fun h2 => ?_, fun h2 => ⟨?_, ?_⟩, fun hf => ?_, fun h2 hf => ?_,
    fun sender mac h0 h27 => ⟨?_, fun target ht => ?_, ?_⟩, fun v6 src pay => ?_, fun h0 h27 => ?_⟩
  · obtain ⟨k1, k2, k3, k4, k5⟩ := ethTurned_effect hb h
    rw [k2]
    exact ⟨turned_bit .., k4, k3, k1.settings, k1.time, k1.engines, fun e => by subst e; rfl, k5⟩
  · have hl : u.links = s.links ∧ u.settings = s.settings ∧ u.boot.inReset = false := by
      rcases hu with ⟨-, rfl⟩ | ⟨-, -, rfl⟩ <;> exact ⟨(huntil _).2.2, (huntil _).1, (huntil _).2.1⟩
    obtain ⟨hl, hset, hub⟩ := hl
    refine ⟨_, congrArg Host.Outcome.next (ethPortFailed_fails hs hu), ?_⟩
    obtain ⟨f1, f2, f3⟩ := ethFail_failed u n
    have h1 : bit s.links.eth[n].stat 1 = false := by
      have := hs
      rw [Eth.inService, Bool.and_eq_true, Bool.not_eq_true'] at this
      exact this.2
    exact ⟨f2, f3 hub (by rw [hl]; exact h1), f1.settings.trans hset, f1.time⟩
  · refine congrArg Host.Outcome.next ?_
    unfold ethPortReturn
    dsimp only
    rcases h with h | h
    · rw [h]
    · rw [h]
      split <;> rfl
  · refine ⟨_, congrArg Host.Outcome.next (ethPortReturn_eq hg h1), ?_⟩
    obtain ⟨k1, k2, k3⟩ := ethReturn_effect n s.links.eth[n].moved (ethGood s n t0) rfl
    have ko : Only [.links] (s.until (t0 + 10 * sec)) (ethGood s n t0) := modEth_only ..
    have hm : (ethGood s n t0).time.mono = max s.time.mono (t0 + 10 * sec) := by
      rw [ko.time]
      exact State.until_mono ..
    have hgb : (ethGood s n t0).boot.inReset = false := ko.inReset.trans (huntil _).2.1
    have hgs : (ethGood s n t0).settings = s.settings := ko.settings.trans (huntil _).1
    have hst : bit (ethGood s n t0).links.eth[n].stat 1 = false := by
      unfold ethGood
      rw [modEth_self]
      exact bit_clrBit_self ..
    refine ⟨by rw [k2]; exact hst, k3 hgb, k1.settings.trans hgs, ?_⟩
    rw [k1.time]
    exact hm
  · exact congrArg Host.Outcome.next (pauseReceived_off h q)
  · exact congrArg Host.Outcome.next (neighbour_off h m)
  · refine congrArg Host.Outcome.next (if_neg ?_)
    rcases h with h | h <;> rw [h] <;> simp
  · refine ⟨_, congrArg Host.Outcome.next ((pauseReceived_on h0 h27 q).trans (if_neg hq)), modEth_const .., ?_⟩
    rw [modEth_self]
    obtain ⟨k1, k2⟩ := held_good q.toNat s.time.mono s.links.eth[n]
    exact ⟨k1, rfl, rfl, k2, rfl, rfl⟩
  · refine ⟨_, congrArg Host.Outcome.next ((pauseReceived_on h0 h27 q).trans (if_pos hq)), ?_⟩
    obtain ⟨k1, k2⟩ := unpause_effect s n
    exact ⟨k2, k1.settings, k1.time⟩
  · refine ⟨_, congrArg Host.Outcome.next (if_pos h2), ?_⟩
    generalize s.links.eth[n].pauseAt + s.links.eth[n].pauseQuanta * 33554432 / 100 = x
    obtain ⟨k1, k2⟩ := unpause_effect (s.until x) n
    refine ⟨k2, ?_, k1.settings.trans (huntil x).1⟩
    rw [k1.time]
    exact State.until_mono ..
  · exact congrArg Host.Outcome.next (if_neg (by rw [h2]; decide))
  · exact congrArg Host.Outcome.next (if_pos (by rw [h2]; rfl))
  · exact congrArg Host.Outcome.next (if_pos (by rw [hf, Bool.or_true]))
  · refine ⟨_, congrArg Host.Outcome.next (pauseLim_eq h2 hf), ?_⟩
    generalize s.links.eth[n].pausedSince + s.settings.dev 0x0211 * ms = x
    obtain ⟨k1, k2, k3, k4⟩ := pauseLim_effect n (s.until x) rfl
    refine ⟨k2, k3 (huntil x).2.1, k4, ?_, k1.settings.trans (huntil x).1⟩
    rw [k1.time]
    exact State.until_mono ..
  · refine ⟨_, congrArg Host.Outcome.next ((neighbour_on h0 h27 _).trans (if_pos rfl)), ?_⟩
    obtain ⟨k1, k2, -⟩ := learned_effect s n sender mac
    generalize s.modEthG n (fun e => e.learn sender mac) = u at k1 k2 ⊢
    have h1 : Only [] u (u.emit (.neighbour n.val (addr128 s.links.eth[n].ip))) := emit_only ..
    have hout : Output.neighbour n.val (addr128 s.links.eth[n].ip) ∈ (u.emit (.neighbour n.val (addr128 s.links.eth[n].ip))).out :=
      List.mem_append_right _ (List.mem_singleton.2 rfl)
    generalize u.emit (.neighbour n.val (addr128 s.links.eth[n].ip)) = v at h1 hout ⊢
    have h2 := flushDrained_only v
    exact ⟨h2.out hout, by rw [h2.eth, h1.eth]; exact k2, h2.settings.trans (h1.settings.trans k1.settings)⟩
  · exact congrArg Host.Outcome.next ((neighbour_on h0 h27 _).trans (if_neg ht))
  · refine ⟨_, congrArg Host.Outcome.next (neighbour_on h0 h27 _), ?_⟩
    obtain ⟨k1, k2, k3⟩ := learned_effect s n sender mac
    dsimp only
    generalize s.modEthG n (fun e => e.learn sender mac) = u at k1 k2 k3 ⊢
    have h2 := flushDrained_only u
    rw [h2.eth]
    exact ⟨k2, k3, h2.settings.trans k1.settings, h2.time.trans k1.time⟩
  · have hv : (v6 != isV4 (addr128 s.links.eth[n].ip)) = (v6 == !(isV4 (addr128 s.links.eth[n].ip))) := by
      cases v6 <;> cases isV4 (addr128 s.links.eth[n].ip) <;> rfl
    refine congrArg Host.Outcome.next ?_
    unfold icmpEcho
    dsimp only
    rw [hv]
  · refine ⟨_, congrArg Host.Outcome.next (udpDiscard_on h0 h27), ?_, ?_⟩
    · rw [modEth_self]
      rfl
    · rw [modEth_self]
      exact rxdrop_counts _

end Sys2Proof.Proofs

/-! O59: triggers, captures and re-analysis jobs (R431 to R434, R438). -/

namespace Sys2Proof.Proofs
open Sys2Proof Sys2Proof.Machine Sys2Proof.Claims

/-! ### Lookback that stands -/

theorem Only.lookAll {F : List Part} {s t : State} (h : Only F s t) (hp : Part.look ∉ F := by decide) :
    t.look = { s.look with due := t.look.due } := h.same .look hp

theorem modTrig_eq (s : State) (i : Fin 16) (f : TrigRt → TrigRt) : s.modTrig i.val f = s.modLook fun l => { l with trig := l.trig.set i (f l.trig[i]) } := by
  unfold State.modTrig
  rw [ix_of_lt i.isLt]

theorem modTrig_only (s : State) (t : Nat) (f : TrigRt → TrigRt) : Only [.look] s (s.modTrig t f) := by
  unfold State.modTrig
  split
  · exact modLook_only ..
  · exact .refl ..

theorem modTrig_trig (s : State) (i : Fin 16) (f : TrigRt → TrigRt) : (s.modTrig i.val f).look.trig[i] = f s.look.trig[i] := by
  rw [modTrig_eq]
  exact Vector.getElem_set_self ..

theorem modTrig_captures (s : State) (t : Nat) (f : TrigRt → TrigRt) : (s.modTrig t f).look.captures = s.look.captures := by
  unfold State.modTrig
  split <;> rfl

/-- What a failed firing leaves (R433). -/
theorem trigFails_effect (s : State) (t : Nat) : Only [.look] s (s.trigFails t) ∧ (s.trigFails t).look.captures = s.look.captures ∧
    (s.boot.inReset = false → (s.trigFails t).ev.pend.getLsbD 240 = true) ∧
    ∀ i : Fin 16, i.val = t → (s.trigFails t).look.trig[i] = { s.look.trig[i] with failed := s.look.trig[i].failed + 1 } := by
  unfold State.trigFails
  have h1 := modTrig_only s t fun x => { x with failed := x.failed + 1 }
  have hc := modTrig_captures s t fun x => { x with failed := x.failed + 1 }
  have ht : ∀ i : Fin 16, i.val = t → (s.modTrig t fun x => { x with failed := x.failed + 1 }).look.trig[i] =
      { s.look.trig[i] with failed := s.look.trig[i].failed + 1 } := by
    rintro i rfl
    exact modTrig_trig ..
  generalize s.modTrig t (fun x => { x with failed := x.failed + 1 }) = u at h1 hc ht ⊢
  have h2 : Only [] u (u.raise 240) := raise_only ..
  refine ⟨h1.trans (h2.mono (by decide)), ?_, fun hb => raise_pend u 240 240 (h1.inReset.trans hb) (.inl rfl), fun i hi => ?_⟩
  · rw [h2.lookAll]
    exact hc
  · rw [h2.lookAll]
    exact ht i hi

/-! ### Firings (R431, R432) -/

/-- Whether an automatic firing comes within HOLDOFF, at trigger `i`. -/
theorem heldOff_iff {s : State} {f : Firing} {i : Fin 16} (hi : f.trigger = i.val) : s.heldOff f = true ↔
    ∃ l, s.look.trig[i].last = some l ∧ f.tTrig < l + trigPar s.settings f.trigger 4 * sec := by
  unfold State.heldOff
  rw [hi, ix_of_lt i.isLt]
  dsimp only
  cases s.look.trig[i].last with
  | none => simp
  | some l => simp

/-- The capture that a firing opens (R432). -/
structure Opens (f : Firing) (i : Fin 16) (s t : State) : Prop where
  same : t = { s with look := t.look }
  due : t.look.due = s.look.due
  next : t.look.nextCapture = s.look.nextCapture + 1
  last : t.look.trig[i].last = some f.tTrig
  opened : ∃ c : Capture, t.look.captures = s.look.captures ++ [c] ∧ c.id = s.look.nextCapture ∧ c.held = false ∧ c.trigger = i.val ∧
    c.tTrig = f.tTrig ∧ c.tStart = f.tTrig - trigPar s.settings i.val 2 * ms ∧ c.tEnd = f.tTrig + trigPar s.settings i.val 3 * ms

theorem openCapture_opens {s : State} {f : Firing} {i : Fin 16} (hi : f.trigger = i.val) : Opens f i s (s.openCapture f) := by
  unfold State.openCapture
  dsimp only
  rw [hi, modTrig_eq]
  exact ⟨rfl, rfl, rfl, congrArg TrigRt.last (Vector.getElem_set_self ..), _, rfl, rfl, rfl, rfl, rfl, rfl, rfl⟩

theorem fireAuto_unset {s : State} {f : Firing} (h : trigSet s.settings f.trigger = false) : s.fireAuto f = s := if_pos (by rw [h]; rfl)

theorem fireAuto_ignored {s : State} {f : Firing} (h : trigSet s.settings f.trigger = true) (hh : s.heldOff f = true) :
    s.fireAuto f = s.modTrig f.trigger fun x => { x with ignored := x.ignored + 1 } := (if_neg (by rw [h]; decide)).trans (if_pos hh)

theorem fireAuto_full {s : State} {f : Firing} (h : trigSet s.settings f.trigger = true) (hh : s.heldOff f = false) (hc : 64 ≤ s.look.captures.length) :
    s.fireAuto f = s.trigFails f.trigger := ((if_neg (by rw [h]; decide)).trans (if_neg (by rw [hh]; decide))).trans (if_pos hc)

theorem fireAuto_opens {s : State} {f : Firing} (h : trigSet s.settings f.trigger = true) (hh : s.heldOff f = false) (hc : s.look.captures.length < 64) :
    s.fireAuto f = s.openCapture f := ((if_neg (by rw [h]; decide)).trans (if_neg (by rw [hh]; decide))).trans (if_neg (by omega))

/-- Whatever an automatic firing comes to, only the lookback changes, and a TIME trigger that is done stays so. -/
theorem fireAuto_effect (s : State) (i : Fin 16) (x : Time) (d : Nat) : Only [.look] s (s.fireAuto { trigger := i.val, tTrig := x, detail := d }) ∧
    (s.look.trig[i].timeDone = true → (s.fireAuto { trigger := i.val, tTrig := x, detail := d }).look.trig[i].timeDone = true) := by
  cases h : trigSet s.settings i.val
  · rw [fireAuto_unset h]
    exact ⟨.refl .., id⟩
  · cases hh : s.heldOff { trigger := i.val, tTrig := x, detail := d }
    · by_cases hc : 64 ≤ s.look.captures.length
      · rw [fireAuto_full h hh hc]
        obtain ⟨k1, -, -, k4⟩ := trigFails_effect s i.val
        exact ⟨k1, fun hd => by rw [k4 i rfl]; exact hd⟩
      · rw [fireAuto_opens h hh (by omega)]
        unfold State.openCapture
        dsimp only
        refine ⟨(modLook_only ..).trans (modTrig_only ..), fun hd => ?_⟩
        rw [modTrig_trig]
        exact hd
    · rw [fireAuto_ignored h hh]
      refine ⟨modTrig_only .., fun hd => ?_⟩
      rw [modTrig_trig]
      exact hd

/-! ### The earliest TIME trigger -/

/-- The earlier of two instants. -/
def earlier (a y : Nat × Time) : Nat × Time := if y.2 < a.2 then y else a

theorem earliest (x : Nat × Time) (xs : List (Nat × Time)) : xs.foldl earlier x ∈ x :: xs ∧ ∀ y ∈ x :: xs, (xs.foldl earlier x).2 ≤ y.2 := by
  induction xs generalizing x with
  | nil => exact ⟨List.mem_cons_self .., fun y hy => by rw [List.mem_singleton.1 hy]; exact Nat.le_refl _⟩
  | cons z zs ih =>
    obtain ⟨h1, h2⟩ := ih (earlier x z)
    rw [List.foldl_cons]
    have he : earlier x z ∈ x :: z :: zs ∧ (earlier x z).2 ≤ x.2 ∧ (earlier x z).2 ≤ z.2 := by
      unfold earlier
      split
      · exact ⟨List.mem_cons_of_mem _ (List.mem_cons_self ..), Nat.le_of_lt ‹_›, Nat.le_refl _⟩
      · exact ⟨List.mem_cons_self .., Nat.le_refl _, Nat.le_of_not_lt ‹_›⟩
    refine ⟨?_, fun y hy => ?_⟩
    · rcases List.mem_cons.1 h1 with h | h
      · rw [h]; exact he.1
      · exact List.mem_cons_of_mem _ (List.mem_cons_of_mem _ h)
    · have hb := h2 (earlier x z) (List.mem_cons_self ..)
      rcases List.mem_cons.1 hy with rfl | hy
      · exact Nat.le_trans hb he.2.1
      · rcases List.mem_cons.1 hy with rfl | hy
        · exact Nat.le_trans hb he.2.2
        · exact h2 y (List.mem_cons_of_mem _ hy)

theorem timeTriggers_lt {s : State} {b : Nat × Time} (h : b ∈ s.timeTriggers) : b.1 < 16 := by
  unfold State.timeTriggers at h
  obtain ⟨i, -, rfl⟩ := List.mem_map.1 h
  exact i.isLt

/-- The TIME trigger `b` fires at its instant. -/
def timeFires (b : Nat × Time) (s : State) : State :=
  ((s.untilDev b.2).modTrig b.1 fun t => { t with timeDone := true }).fireAuto { trigger := b.1, tTrig := b.2, detail := 0 }

theorem triggerFiring_due {s : State} {f : Firing} {rest : List Firing} (h : s.look.due = f :: rest) :
    triggerFiring s = (s.modLook fun l => { l with due := rest }).fireAuto f := by
  unfold triggerFiring
  rw [h]

theorem triggerFiring_idle {s : State} (h : s.look.due = []) (ht : s.timeTriggers = []) : triggerFiring s = s := by
  unfold triggerFiring
  rw [h, ht]

theorem triggerFiring_time {s : State} (h : s.look.due = []) (ht : s.timeTriggers ≠ []) : ∃ b ∈ s.timeTriggers, (∀ y ∈ s.timeTriggers, b.2 ≤ y.2) ∧
    triggerFiring s = timeFires b s := by
  cases hl : s.timeTriggers with
  | nil => exact absurd hl ht
  | cons x xs =>
    obtain ⟨h1, h2⟩ := earliest x xs
    refine ⟨_, h1, h2, ?_⟩
    unfold triggerFiring
    rw [h, hl]
    rfl

theorem timeFires_effect {b : Nat × Time} (hb : b.1 < 16) (s : State) : Only [.look] (s.untilDev b.2) (timeFires b s) ∧
    ∀ i : Fin 16, i.val = b.1 → (timeFires b s).look.trig[i].timeDone = true := by
  have key : ∀ (i : Fin 16) (x : Time) (u : State), Only [.look] u ((u.modTrig i.val fun t => { t with timeDone := true }).fireAuto
      { trigger := i.val, tTrig := x, detail := 0 }) ∧ ((u.modTrig i.val fun t => { t with timeDone := true }).fireAuto
      { trigger := i.val, tTrig := x, detail := 0 }).look.trig[i].timeDone = true := by
    intro i x u
    have h1 := modTrig_only u i.val fun t => { t with timeDone := true }
    have h2 : (u.modTrig i.val fun t => { t with timeDone := true }).look.trig[i].timeDone = true := by rw [modTrig_trig]
    generalize u.modTrig i.val (fun t => { t with timeDone := true }) = v at h1 h2 ⊢
    obtain ⟨h3, h4⟩ := fireAuto_effect v i x 0
    exact ⟨h1.trans h3, h4 h2⟩
  obtain ⟨k1, k2⟩ := key ⟨b.1, hb⟩ b.2 (s.untilDev b.2)
  exact ⟨k1, fun i hi => by obtain rfl : i = ⟨b.1, hb⟩ := Fin.ext hi; exact k2⟩

end Sys2Proof.Proofs

/-! O59: pinning, release and the end of a re-analysis job (R432 to R434, R438). -/

namespace Sys2Proof.Proofs
open Sys2Proof Sys2Proof.Machine Sys2Proof.Claims

/-! ### Pinning (R432, R434) -/

/-- A capture that pinning fails leaves. -/
def pinFails (id : Nat) (c : Capture) (s : State) : State :=
  ((s.untilDev c.tEnd).modLook fun l => { l with captures := l.captures.filter fun x => x.id != id }).trigFails c.trigger

/-- A capture that is pinned as `done`, with `add` regions of the reserve and rings that have lost `raw` and `curd` regions. -/
def pinned (id : Nat) (c done : Capture) (add raw curd : Nat) (s : State) : State :=
  ((((s.untilDev c.tEnd).modLook fun l => { l with
    captures := l.captures.map fun x => if x.id == id then done else x
    reserveUsed := l.reserveUsed + add }).setRawLost c.port raw).modZone c.zone fun r => { r with curdShrunk := curd }).raise 240

/-- What a pinned capture keeps of the one that was opened. -/
structure PinnedAs (c done : Capture) : Prop where
  id : done.id = c.id
  held : done.held = true
  tEnd : done.tEnd = c.tEnd
  tTrig : done.tTrig = c.tTrig
  start : c.tStart ≤ done.tStart
  bare : c.sections = 0 → done.tStart = c.tStart

/-- A capture that asks for no section is short of no region. -/
theorem bare_fits {raw curd : Bool} (hr : raw = false) (hc : curd = false) (x y : Nat) (free : Nat) (p q : Bool) :
    ¬(((decide ((if raw then x else 0) - free ≠ 0) && p) || (decide ((if curd then y else 0) - (free - if raw then x else 0) ≠ 0) && q)) = true) := by
  subst hr hc
  simp only [Bool.false_eq_true, if_false, Nat.zero_sub, ne_eq, not_true, decide_false, Bool.false_and, Bool.or_self, not_false_eq_true]

theorem bare_start {raw curd : Bool} (hr : raw = false) (hc : curd = false) (t x y : Nat) :
    max t (max (if raw then x else 0) (if curd then y else 0)) = t := by
  subst hr hc
  exact Nat.max_zero t

theorem no_section {n : Nat} (h : n = 0) (b b' : Bool) : (n % 2 == 1 && b) = false ∧ (n / 2 % 2 == 1 && b') = false := by
  subst h
  exact ⟨rfl, rfl⟩

theorem capturePinning_cases {s : State} {id : Nat} {c : Capture} (h : s.look.captures.find? (fun c => c.id == id && !c.held) = some c) :
    (capturePinning id s = pinFails id c s ∧ c.sections ≠ 0) ∨
      ∃ done add raw curd, capturePinning id s = pinned id c done add raw curd s ∧ PinnedAs c done := by
  unfold capturePinning
  rw [h]
  dsimp only
  refine iteInduction (motive := fun t => (t = pinFails id c s ∧ c.sections ≠ 0) ∨ ∃ done add raw curd, t = pinned id c done add raw curd s ∧ PinnedAs c done)
    (fun hf => .inl ⟨rfl, fun h0 => ?_⟩) (fun _ => .inr ⟨_, _, _, _, rfl, rfl, rfl, rfl, rfl, Nat.le_max_left .., fun h0 => ?_⟩)
  · exact bare_fits (no_section h0 _ false).1 (no_section h0 false _).2 _ _ _ _ _ hf
  · exact bare_start (no_section h0 _ false).1 (no_section h0 false _).2 _ _ _

theorem setRawLost_only (s : State) (p n : Nat) : Only [.look] s (s.setRawLost p n) := by
  unfold State.setRawLost
  split
  · exact modLook_only ..
  · exact .refl ..

theorem setRawLost_look (s : State) (p n : Nat) : (s.setRawLost p n).look.captures = s.look.captures ∧
    (s.setRawLost p n).look.reserveUsed = s.look.reserveUsed := by
  unfold State.setRawLost
  split <;> exact ⟨rfl, rfl⟩

theorem untilDev_keeps (s : State) (x : Time) : (s.untilDev x).boot = s.boot ∧ (s.untilDev x).settings = s.settings ∧ (s.untilDev x).ports = s.ports ∧
    (s.untilDev x).look = s.look := ⟨by rw [State.untilDev_boot], by rw [State.untilDev_settings], by rw [State.untilDev_ports], by rw [State.untilDev_look]⟩

/-- A pinning that fails takes the capture off (R434). -/
theorem pinFails_effect (id : Nat) (c : Capture) (s : State) : Only [.look] (s.untilDev c.tEnd) (pinFails id c s) ∧
    (∀ x ∈ (pinFails id c s).look.captures, x.id ≠ id) ∧
    (∀ i : Fin 16, i.val = c.trigger → (pinFails id c s).look.trig[i].failed = s.look.trig[i].failed + 1) ∧
    (s.boot.inReset = false → (pinFails id c s).ev.pend.getLsbD 240 = true) := by
  obtain ⟨hb, -, -, hl⟩ := untilDev_keeps s c.tEnd
  unfold pinFails
  generalize s.untilDev c.tEnd = u at hb hl ⊢
  have h1 : Only [.look] u (u.modLook fun l => { l with captures := l.captures.filter fun x => x.id != id }) := modLook_only ..
  have e1 : (u.modLook fun l => { l with captures := l.captures.filter fun x => x.id != id }).look =
    { s.look with captures := s.look.captures.filter fun x => x.id != id } := by rw [State.modLook_look, hl]
  generalize u.modLook (fun l => { l with captures := l.captures.filter fun x => x.id != id }) = v at h1 e1 ⊢
  obtain ⟨k1, k2, k3, k4⟩ := trigFails_effect v c.trigger
  refine ⟨h1.trans k1, fun x hx => ?_, fun i hi => ?_, fun h => k3 (h1.inReset.trans (hb ▸ h))⟩
  · rw [k2, e1] at hx
    exact bne_iff_ne.1 (List.mem_filter.1 hx).2
  · rw [k4 i hi, e1]

/-- A pinned capture stands in the place of the one that was opened. -/
theorem pinned_effect (id : Nat) (c done : Capture) (add raw curd : Nat) (s : State) : Only [.look, .zones] (s.untilDev c.tEnd) (pinned id c done add raw curd s) ∧
    (pinned id c done add raw curd s).look.captures = s.look.captures.map (fun x => if x.id == id then done else x) ∧
    (s.boot.inReset = false → (pinned id c done add raw curd s).ev.pend.getLsbD 240 = true) := by
  obtain ⟨hb, -, -, hl⟩ := untilDev_keeps s c.tEnd
  unfold pinned
  generalize s.untilDev c.tEnd = u at hb hl ⊢
  have h1 : Only [.look] u (u.modLook fun l => { l with
    captures := l.captures.map fun x => if x.id == id then done else x
    reserveUsed := l.reserveUsed + add }) := modLook_only ..
  have e1 : (u.modLook fun l => { l with
    captures := l.captures.map fun x => if x.id == id then done else x
    reserveUsed := l.reserveUsed + add }).look.captures = s.look.captures.map fun x => if x.id == id then done else x := by
    rw [State.modLook_look, hl]
  generalize (u.modLook fun l => { l with
    captures := l.captures.map fun x => if x.id == id then done else x
    reserveUsed := l.reserveUsed + add }) = v at h1 e1 ⊢
  have h2 := setRawLost_only v c.port raw
  have e2 := (setRawLost_look v c.port raw).1
  generalize v.setRawLost c.port raw = w at h2 e2 ⊢
  have h3 : Only [.zones] w (w.modZone c.zone fun r => { r with curdShrunk := curd }) := modZone_only ..
  generalize w.modZone c.zone (fun r => { r with curdShrunk := curd }) = x at h3 ⊢
  have h4 : Only [] x (x.raise 240) := raise_only ..
  have h := (h1.trans h2).trans (F := [.look]) (.refl _ w)
  refine ⟨(h.mono (by decide)).trans ((h3.mono (by decide)).trans (h4.mono (by decide))), ?_,
    fun hr => raise_pend x 240 240 (h3.inReset.trans (h.inReset.trans (hb ▸ hr))) (.inl rfl)⟩
  rw [h4.lookAll, h3.lookAll]
  exact e2.trans e1

/-! ### Release (R433) -/

theorem releaseCapture_effect {s : State} {id : Nat} {c : Capture} (h : s.look.captures.find? (fun c => c.id == id && c.held) = some c) :
    Only [.look, .zones] s (s.releaseCapture id) ∧ (s.releaseCapture id).look.captures = s.look.captures.filter (fun x => x.id != id) ∧
      (s.releaseCapture id).look.reserveUsed ≤ s.look.reserveUsed ∧ (s.releaseCapture id).ev = s.ev := by
  unfold State.releaseCapture
  rw [h]
  dsimp only
  generalize min s.look.reserveUsed _ = back
  have h1 : Only [.look] s (s.modLook fun l => { l with captures := l.captures.filter (fun x => x.id != id), reserveUsed := l.reserveUsed - back }) :=
    modLook_only ..
  have e1 : (s.modLook fun l => { l with captures := l.captures.filter (fun x => x.id != id), reserveUsed := l.reserveUsed - back }).look.captures =
    s.look.captures.filter (fun x => x.id != id) := rfl
  have e2 : (s.modLook fun l => { l with captures := l.captures.filter (fun x => x.id != id), reserveUsed := l.reserveUsed - back }).look.reserveUsed ≤
    s.look.reserveUsed := Nat.sub_le ..
  have e3 : (s.modLook fun l => { l with captures := l.captures.filter (fun x => x.id != id), reserveUsed := l.reserveUsed - back }).ev = s.ev :=
    State.modLook_ev ..
  generalize s.modLook (fun l => { l with captures := l.captures.filter (fun x => x.id != id), reserveUsed := l.reserveUsed - back }) = u at h1 e1 e2 e3 ⊢
  generalize u.rawLost c.port - _ = n
  have h2 := setRawLost_only u c.port n
  obtain ⟨f1, f2⟩ := setRawLost_look u c.port n
  have f3 : (u.setRawLost c.port n).ev = u.ev := by
    unfold State.setRawLost
    split <;> rfl
  generalize u.setRawLost c.port n = v at h2 f1 f2 f3 ⊢
  refine ⟨((h1.trans h2).mono (by decide)).trans ((modZone_only ..).mono (by decide)), f1.trans e1, ?_, f3.trans e3⟩
  show v.look.reserveUsed ≤ _
  rw [f2]
  exact e2

/-! ### Re-analysis (R438) -/

theorem endJob_effect {s : State} {j : Nat × Nat × Settings × Nat × Nat} {js : List (Nat × Nat × Settings × Nat × Nat)} (h : s.look.jobs = j :: js) (b : Bool) :
    (s.endJob j b).look.jobs = js ∧ (s.endJob j b).look.captures = s.look.captures ∧ (s.boot.inReset = false → (s.endJob j b).ev.pend.getLsbD 241 = true) := by
  obtain ⟨id, x, params, source, products⟩ := j
  have h1 : Only [.look] s (s.modLook fun l => { l with jobs := l.jobs.erase (id, x, params, source, products) }) := modLook_only ..
  have e1 : (s.modLook fun l => { l with jobs := l.jobs.erase (id, x, params, source, products) }).look = { s.look with jobs := js } := by
    rw [State.modLook_look, h, List.erase_cons_head]
  unfold State.endJob
  dsimp only
  generalize s.modLook (fun l => { l with jobs := l.jobs.erase (id, x, params, source, products) }) = u at h1 e1 ⊢
  have key : ∀ v : State, Only [.free] u v → (v.raise 241).look.jobs = js ∧ (v.raise 241).look.captures = s.look.captures ∧
      (s.boot.inReset = false → (v.raise 241).ev.pend.getLsbD 241 = true) := by
    intro v hv
    have h2 : Only [] v (v.raise 241) := raise_only ..
    rw [h2.lookAll, hv.lookAll, e1]
    exact ⟨rfl, rfl, fun hb => raise_pend v 241 241 (hv.inReset.trans (h1.inReset.trans hb)) (.inl rfl)⟩
  split
  · exact key u (.refl ..)
  · cases b
    · exact key _ (.foldl (fun _ _ => push_only ..) _ _)
    · exact key _ ((fresh_only u).trans (.foldl (fun _ _ => push_only ..) _ _))

theorem cave_open {s : State} (h : CaveOpen s) (f : State → State) : s.cave f = f s := by
  refine if_pos ?_
  rw [h.1, Bool.true_and, Bool.not_eq_true', ← Bool.not_eq_true, List.contains_iff_mem]
  exact h.2

theorem cave_shut {s : State} (h : ¬CaveOpen s) (f : State → State) : s.cave f = s := by
  refine if_neg fun hc => h ?_
  rw [Bool.and_eq_true, Bool.not_eq_true', ← Bool.not_eq_true, List.contains_iff_mem] at hc
  exact hc

theorem cave_same {s : State} {f : State → State} (h : f s = s) : s.cave f = s := by
  unfold State.cave
  rw [h, ite_self]

end Sys2Proof.Proofs

/-! O59: captures open, are pinned and leave (R431 to R434, R438). -/

namespace Sys2Proof.Proofs
open Sys2Proof Sys2Proof.Machine Sys2Proof.Claims

/-- The firing at the head of those due is taken off. -/
def takeDue (rest : List Firing) (s : State) : State := s.modLook fun l => { l with due := rest }

theorem takeDue_keeps (rest : List Firing) (s : State) : (takeDue rest s).boot = s.boot ∧ (takeDue rest s).settings = s.settings ∧ (takeDue rest s).time = s.time ∧
    (takeDue rest s).look = { s.look with due := rest } :=
  ⟨State.modLook_boot .., State.modLook_settings .., State.modLook_time .., State.modLook_look ..⟩

theorem takeDue_heldOff {s : State} {f : Firing} {i : Fin 16} (hi : f.trigger = i.val) (rest : List Firing) : (takeDue rest s).heldOff f = true ↔
    ∃ l, s.look.trig[i].last = some l ∧ f.tTrig < l + trigPar s.settings f.trigger 4 * sec := by
  obtain ⟨-, hs, -, hl⟩ := takeDue_keeps rest s
  rw [heldOff_iff hi, hs, hl]

/-- A firing that comes late enough after the last one is not held off. -/
theorem takeDue_notHeldOff {s : State} {f : Firing} {i : Fin 16} (hi : f.trigger = i.val)
    (h : ∀ l, s.look.trig[i].last = some l → l + trigPar s.settings f.trigger 4 * sec ≤ f.tTrig) (rest : List Firing) : (takeDue rest s).heldOff f = false := by
  rw [← Bool.not_eq_true, takeDue_heldOff hi]
  rintro ⟨l, hl, hlt⟩
  exact absurd hlt (Nat.not_lt.2 (h l hl))

/-- A due firing within HOLDOFF counts as ignored. -/
theorem dueFiring_ignored {s : State} {f : Firing} {rest : List Firing} {i : Fin 16} (hd : s.look.due = f :: rest) (hi : f.trigger = i.val)
    (hset : trigSet s.settings f.trigger = true) (h : ∃ l, s.look.trig[i].last = some l ∧ f.tTrig < l + trigPar s.settings f.trigger 4 * sec) :
    triggerFiring s = s.modLook fun l => { l with due := rest, trig := l.trig.set i { l.trig[i] with ignored := l.trig[i].ignored + 1 } } := by
  rw [triggerFiring_due hd]
  refine (fireAuto_ignored (s := takeDue rest s) hset ((takeDue_heldOff hi rest).2 h)).trans ?_
  rw [hi, modTrig_eq]
  rfl

/-- A due firing for which no capture is free fails. -/
theorem dueFiring_full {s : State} {f : Firing} {rest : List Firing} {i : Fin 16} (hd : s.look.due = f :: rest) (hi : f.trigger = i.val)
    (hset : trigSet s.settings f.trigger = true) (h : ∀ l, s.look.trig[i].last = some l → l + trigPar s.settings f.trigger 4 * sec ≤ f.tTrig)
    (hc : 64 ≤ s.look.captures.length) (hr : s.boot.inReset = false) : (triggerFiring s).ev.pend.getLsbD 240 = true ∧
      (triggerFiring s).look.captures = s.look.captures ∧ (triggerFiring s).look.trig[i].failed = s.look.trig[i].failed + 1 ∧
      (triggerFiring s).time = s.time ∧ (triggerFiring s).settings = s.settings := by
  have he : triggerFiring s = (takeDue rest s).trigFails f.trigger :=
    (triggerFiring_due hd).trans (fireAuto_full (s := takeDue rest s) hset (takeDue_notHeldOff hi h rest) hc)
  obtain ⟨hb, hs, ht, hl⟩ := takeDue_keeps rest s
  rw [he]
  generalize takeDue rest s = u at hb hs ht hl ⊢
  obtain ⟨k1, k2, k3, k4⟩ := trigFails_effect u f.trigger
  refine ⟨k3 (hb ▸ hr), by rw [k2, hl], by rw [k4 i hi.symm, hl], k1.time.trans ht, k1.settings.trans hs⟩

/-- A due firing opens a capture while one is free. -/
theorem dueFiring_opens {s : State} {f : Firing} {rest : List Firing} {i : Fin 16} (hd : s.look.due = f :: rest) (hi : f.trigger = i.val)
    (hset : trigSet s.settings f.trigger = true) (h : ∀ l, s.look.trig[i].last = some l → l + trigPar s.settings f.trigger 4 * sec ≤ f.tTrig)
    (hc : s.look.captures.length < 64) : Opens f i (takeDue rest s) (triggerFiring s) :=
  (triggerFiring_due hd).trans (fireAuto_opens (s := takeDue rest s) hset (takeDue_notHeldOff hi h rest) hc) ▸ openCapture_opens hi

/-- What the earliest TIME trigger does when no firing is due. -/
theorem timeFiring {s : State} (h : s.look.due = []) (ht : s.timeTriggers ≠ []) : ∃ b ∈ s.timeTriggers, (∀ y ∈ s.timeTriggers, b.2 ≤ y.2) ∧
    (triggerFiring s).time = (s.untilDev b.2).time ∧ (∀ i : Fin 16, i.val = b.1 → (triggerFiring s).look.trig[i].timeDone = true) ∧
    (triggerFiring s).settings = s.settings ∧ (triggerFiring s).ports = s.ports := by
  obtain ⟨b, hb, hmin, he⟩ := triggerFiring_time h ht
  obtain ⟨k1, k2⟩ := timeFires_effect (timeTriggers_lt hb) s
  obtain ⟨-, hs, hp, -⟩ := untilDev_keeps s b.2
  rw [he]
  exact ⟨b, hb, hmin, k1.time, k2, k1.settings.trans hs, k1.ports.trans hp⟩

/-- The capture that pinning looks for is one of those of its identifier. -/
theorem opened_mem {l : List Capture} {id : Nat} {c : Capture} (h : l.find? (fun c => c.id == id && !c.held) = some c) : c ∈ l ∧ c.id = id :=
  ⟨List.mem_of_find?_eq_some h, eq_of_beq (Bool.and_eq_true _ _ ▸ List.find?_some h :).1⟩

/-- A capture without sections is held over its window; another is held, or it fails and goes (R434). -/
theorem capturePinning_effect {s : State} {id : Nat} {c : Capture} (h : s.look.captures.find? (fun c => c.id == id && !c.held) = some c) :
    ((∃ x ∈ (capturePinning id s).look.captures, x.id = id ∧ x.held = true ∧ x.tEnd = c.tEnd ∧ x.tTrig = c.tTrig ∧ c.tStart ≤ x.tStart) ∨
      ((∀ x ∈ (capturePinning id s).look.captures, x.id ≠ id) ∧
        ∀ i : Fin 16, i.val = c.trigger → (capturePinning id s).look.trig[i].failed = s.look.trig[i].failed + 1)) ∧
    (c.sections = 0 → ∃ x ∈ (capturePinning id s).look.captures, x.id = id ∧ x.held = true ∧ x.tStart = c.tStart ∧ x.tEnd = c.tEnd) ∧
    (s.boot.inReset = false → (capturePinning id s).ev.pend.getLsbD 240 = true) ∧ (capturePinning id s).time = (s.untilDev c.tEnd).time ∧
    (capturePinning id s).settings = s.settings ∧ (capturePinning id s).ports = s.ports := by
  obtain ⟨-, hs, hp, -⟩ := untilDev_keeps s c.tEnd
  obtain ⟨hm, hid⟩ := opened_mem h
  obtain ⟨he, hsec⟩ | ⟨done, add, raw, curd, he, hd⟩ := capturePinning_cases h
  · obtain ⟨k1, k2, k3, k4⟩ := pinFails_effect id c s
    rw [he]
    exact ⟨.inr ⟨k2, k3⟩, fun h0 => absurd h0 hsec, k4, k1.time, k1.settings.trans hs, k1.ports.trans hp⟩
  · obtain ⟨k1, k2, k3⟩ := pinned_effect id c done add raw curd s
    rw [he]
    have hin : done ∈ (pinned id c done add raw curd s).look.captures := by
      rw [k2]
      exact List.mem_map.2 ⟨c, hm, if_pos (beq_iff_eq.2 hid)⟩
    exact ⟨.inl ⟨done, hin, hd.id.trans hid, hd.held, hd.tEnd, hd.tTrig, hd.start⟩, fun h0 => ⟨done, hin, hd.id.trans hid, hd.held, hd.bare h0, hd.tEnd⟩,
      k3, k1.time, k1.settings.trans hs, k1.ports.trans hp⟩

theorem capHoldExpiry_stays {s : State} {id : Nat} (h : s.look.captures.find? (fun c => c.id == id && c.held) = none ∨ s.settings.dev 0x0217 = 0) :
    capHoldExpiry id s = s := by
  unfold capHoldExpiry
  dsimp only
  split
  · next hc => exact if_pos (h.resolve_left (by rw [hc]; exact Option.some_ne_none _))
  · rfl

theorem capHoldExpiry_releases {s : State} {id : Nat} {c : Capture} (h : s.look.captures.find? (fun c => c.id == id && c.held) = some c)
    (hh : s.settings.dev 0x0217 ≠ 0) : capHoldExpiry id s = (s.until (c.pinnedAt + s.settings.dev 0x0217 * sec)).releaseCapture id := by
  unfold capHoldExpiry
  rw [h]
  exact if_neg hh

/-- What a release at the instant `x` leaves. -/
theorem releaseAt_effect {s : State} {id : Nat} {c : Capture} (h : s.look.captures.find? (fun c => c.id == id && c.held) = some c) (x : Time) :
    ((s.until x).releaseCapture id).look.captures = s.look.captures.filter (fun x => x.id != id) ∧
    ((s.until x).releaseCapture id).look.reserveUsed ≤ s.look.reserveUsed ∧ ((s.until x).releaseCapture id).time.mono = max s.time.mono x ∧
    ((s.until x).releaseCapture id).settings = s.settings ∧ ((s.until x).releaseCapture id).ports = s.ports ∧ ((s.until x).releaseCapture id).ev = s.ev := by
  have hl := State.until_look s x
  have hs := State.until_settings s x
  have hp := State.until_ports s x
  have he := State.until_ev s x
  have ht := until_mono s x
  generalize s.until x = u at hl hs hp he ht ⊢
  obtain ⟨k1, k2, k3, k4⟩ := releaseCapture_effect (s := u) (hl ▸ h)
  exact ⟨k2.trans (by rw [hl]), hl ▸ k3, (congrArg (·.mono) k1.time).trans ht, k1.settings.trans hs, k1.ports.trans hp, k4.trans he⟩

theorem reanalysisEnd_effect {s : State} {j : Nat × Nat × Settings × Nat × Nat} {js : List (Nat × Nat × Settings × Nat × Nat)} (h : s.look.jobs = j :: js)
    (b : Bool) : (reanalysisEnd b s).look.jobs = js ∧ (s.boot.inReset = false → (reanalysisEnd b s).ev.pend.getLsbD 241 = true) ∧
      (reanalysisEnd b s).settings = s.settings ∧ (reanalysisEnd b s).ports = s.ports ∧ (reanalysisEnd b s).zones = s.zones ∧
      (reanalysisEnd b s).time = s.time ∧ (reanalysisEnd b s).look.captures = s.look.captures := by
  have he : reanalysisEnd b s = s.endJob j b := by
    unfold reanalysisEnd
    rw [h]
  have k := endJob_only s j b
  obtain ⟨k1, k2, k3⟩ := endJob_effect h b
  rw [he]
  exact ⟨k1, k3, k.settings, k.ports, k.zones, k.time, k2⟩

/-- Settles O59: a firing is taken by the branches of `fireAuto`, and pinning, release and the end of a job change the lookback only. -/
theorem capturesOpenPinAndLeave : Obligations.CapturesOpenPinAndLeave := by
  unfold Obligations.CapturesOpenPinAndLeave
  intro s
  refine ⟨?_, ?_, ?_, ?_, ?_, ?_, ?_, ?_, ?_, ?_⟩
  · exact fun h ht => congrArg Host.Outcome.next (triggerFiring_idle h ht)
  · refine fun f rest i hd hi => ⟨fun h => ?_, fun h hh => ?_, fun h hh => ⟨fun hc hr => ⟨_, rfl, dueFiring_full hd hi h hh hc hr⟩, fun hc => ⟨_, rfl, ?_⟩⟩⟩
    · exact congrArg Host.Outcome.next ((triggerFiring_due hd).trans (fireAuto_unset (s := takeDue rest s) h))
    · exact congrArg Host.Outcome.next (dueFiring_ignored hd hi h hh)
    · have k := dueFiring_opens hd hi h hh hc
      exact ⟨k.same, k.due, k.next, k.last, k.opened⟩
  · intro h ht
    exact ⟨_, rfl, timeFiring h ht⟩
  · intro id h
    refine congrArg Host.Outcome.next (cave_same ?_)
    unfold capturePinning
    rw [h]
  · exact fun h => ⟨fun id => congrArg Host.Outcome.next (cave_shut h _), fun b => congrArg Host.Outcome.next (cave_shut h _)⟩
  · intro id c hopen h
    exact ⟨_, congrArg Host.Outcome.next (cave_open hopen _), capturePinning_effect h⟩
  · exact fun id h => congrArg Host.Outcome.next (capHoldExpiry_stays h)
  · intro id c h hh
    exact ⟨_, congrArg Host.Outcome.next (capHoldExpiry_releases h hh), releaseAt_effect h _⟩
  · intro b h
    refine congrArg Host.Outcome.next (cave_same ?_)
    unfold reanalysisEnd
    rw [h]
  · intro b j js hopen h
    exact ⟨_, congrArg Host.Outcome.next (cave_open hopen _), reanalysisEnd_effect h b⟩

end Sys2Proof.Proofs

/-! O58: what ages, and what is discarded in time (R363, R364, R373). -/

namespace Sys2Proof.Proofs
open Sys2Proof Sys2Proof.Machine Sys2Proof.Claims

/-! ### The first of the least -/

/-- `b` where it is less than `a` under `f`, else `a`. -/
def lesser {α : Type} (f : α → Nat) (a b : α) : α := if f b < f a then b else a

theorem foldl_lesser {α : Type} (f : α → Nat) (x : α) (xs : List α) : xs.foldl (lesser f) x ∈ x :: xs ∧ ∀ y ∈ x :: xs, f (xs.foldl (lesser f) x) ≤ f y := by
  induction xs generalizing x with
  | nil => exact ⟨List.mem_cons_self .., fun y hy => by rw [List.mem_singleton.1 hy]; exact Nat.le_refl _⟩
  | cons z zs ih =>
    obtain ⟨h1, h2⟩ := ih (lesser f x z)
    have he : lesser f x z ∈ x :: z :: zs ∧ f (lesser f x z) ≤ f x ∧ f (lesser f x z) ≤ f z := by
      unfold lesser
      split
      · exact ⟨List.mem_cons_of_mem _ (List.mem_cons_self ..), Nat.le_of_lt ‹_›, Nat.le_refl _⟩
      · exact ⟨List.mem_cons_self .., Nat.le_refl _, Nat.le_of_not_lt ‹_›⟩
    rw [List.foldl_cons]
    refine ⟨?_, fun y hy => ?_⟩
    · rcases List.mem_cons.1 h1 with h | h
      · rw [h]; exact he.1
      · exact List.mem_cons_of_mem _ (List.mem_cons_of_mem _ h)
    · have hb := h2 (lesser f x z) (List.mem_cons_self ..)
      rcases List.mem_cons.1 hy with rfl | hy
      · exact Nat.le_trans hb he.2.1
      · rcases List.mem_cons.1 hy with rfl | hy
        · exact Nat.le_trans hb he.2.2
        · exact h2 y (List.mem_cons_of_mem _ hy)

theorem foldl_lesser_stays {α : Type} {f : α → Nat} {m : α} {l : List α} (h : ∀ y ∈ l, f m ≤ f y) : l.foldl (lesser f) m = m := by
  induction l with
  | nil => rfl
  | cons y l ih =>
    rw [List.foldl_cons, show lesser f m y = m from if_neg (Nat.not_lt.2 (h y (List.mem_cons_self ..)))]
    exact ih fun z hz => h z (List.mem_cons_of_mem _ hz)

theorem foldl_lesser_reaches {α : Type} {f : α → Nat} {m a : α} {l r : List α} (hm : m ∈ l) (hl : ∀ y ∈ l, y = m ∨ f m < f y) (hr : ∀ y ∈ r, f m ≤ f y)
    (ha : f m < f a) : (l ++ r).foldl (lesser f) a = m := by
  induction l generalizing a with
  | nil => exact absurd hm List.not_mem_nil
  | cons y l ih =>
    have hl' : ∀ z ∈ l, z = m ∨ f m < f z := fun z hz => hl z (List.mem_cons_of_mem _ hz)
    rw [List.cons_append, List.foldl_cons]
    rcases hl y (List.mem_cons_self ..) with rfl | hy
    · rw [show lesser f a y = y from if_pos ha]
      refine foldl_lesser_stays fun z hz => ?_
      rcases List.mem_append.1 hz with hz | hz
      · exact (hl' z hz).elim (fun h => h ▸ Nat.le_refl _) Nat.le_of_lt
      · exact hr z hz
    · refine ih ((List.mem_cons.1 hm).resolve_left fun h => absurd (h ▸ hy) (Nat.lt_irrefl _)) hl' ?_
      unfold lesser
      split <;> assumption

/-- Before the rest, the one of the first that is strictly least among them is chosen. -/
theorem foldl_lesser_first {α : Type} {f : α → Nat} {m x : α} {xs l r : List α} (he : x :: xs = l ++ r) (hm : m ∈ l) (hl : ∀ y ∈ l, y = m ∨ f m < f y)
    (hr : ∀ y ∈ r, f m ≤ f y) : xs.foldl (lesser f) x = m := by
  cases l with
  | nil => exact absurd hm List.not_mem_nil
  | cons y l =>
    obtain ⟨rfl, rfl⟩ := List.cons.inj (he.trans (List.cons_append ..))
    have hl' : ∀ z ∈ l, z = m ∨ f m < f z := fun z hz => hl z (List.mem_cons_of_mem _ hz)
    rcases hl x (List.mem_cons_self ..) with rfl | hx
    · refine foldl_lesser_stays fun z hz => ?_
      rcases List.mem_append.1 hz with hz | hz
      · exact (hl' z hz).elim (fun h => h ▸ Nat.le_refl _) Nat.le_of_lt
      · exact hr z hz
    · exact foldl_lesser_reaches ((List.mem_cons.1 hm).resolve_left fun h => absurd (h ▸ hx) (Nat.lt_irrefl _)) hl' hr hx

/-! ### Aging (R363) -/

/-- The item `x` moves up at its instant, counted when it becomes URGENT. -/
def agedItem (s : State) (x : Nat × Time × (State → State)) : State :=
  (x.2.2 (s.until (s.ageDue x))).modLadle fun l => { l with aged := if x.1 = 1 ∧ l.aged ≠ 0xFFFFFFFF then l.aged + 1 else l.aged }

theorem workItemAged_some {s : State} {x : Nat × Time × (State → State)} {xs : List (Nat × Time × (State → State))} (h : s.agingItems = x :: xs) :
    workItemAged s = agedItem s (xs.foldl (lesser s.ageDue) x) := by
  have key : ∀ (n : Nat) (u : State), (if n = 1 then u.modLadle fun l => { l with aged := if l.aged = 0xFFFFFFFF then l.aged else l.aged + 1 } else u) =
      u.modLadle fun l => { l with aged := if n = 1 ∧ l.aged ≠ 0xFFFFFFFF then l.aged + 1 else l.aged } := by
    intro n u
    by_cases hn : n = 1
    · by_cases ha : u.ladle.aged = 0xFFFFFFFF <;> simp [State.modLadle, hn, ha]
    · simp [State.modLadle, hn]
  unfold workItemAged
  rw [h]
  exact key _ _

theorem workItemAged_none {s : State} (h : s.agingItems = []) : workItemAged s = s := by
  unfold workItemAged
  rw [h]

/-- A staged record as an item that may age. -/
def agingRecord (it : TxItem) : Nat × Time × (State → State) := (it.cls, it.arrived, fun u =>
  { u with streams := { u.streams with queue := u.streams.queue.map fun y => if y == it then { it with cls := it.cls - 1 } else y } })

theorem agingItems_split (s : State) : ∃ rest, s.agingItems = (s.streams.queue.map agingRecord).filter (fun x => x.1 != 0) ++ rest := by
  unfold State.agingItems
  dsimp only
  rw [List.append_assoc, List.append_assoc, List.filter_append]
  exact ⟨_, rfl⟩

theorem agingItems_nonzero {s : State} {x : Nat × Time × (State → State)} (h : x ∈ s.agingItems) : x.1 ≠ 0 := by
  unfold State.agingItems at h
  exact bne_iff_ne.1 (List.mem_filter.1 h).2

theorem agingItems_none {s : State} (hq : ∀ it ∈ s.streams.queue, it.cls = 0) (hb : ∀ n : PressIx, ∀ b ∈ s.press[n].blocks, b.cls = 0)
    (hj : ∀ j ∈ s.jobs, j.running = true ∨ j.cls = 0) (ht : ∀ x ∈ s.ladle.testAges, x.1 ∈ s.ladle.tests → x.2.2 = 0) : s.agingItems = [] := by
  have key : ∀ {α : Type} (l : List α) (f : α → Nat × Time × (State → State)), (∀ a ∈ l, (f a).1 = 0) → ∀ x ∈ l.map f, x.1 = 0 := by
    intro α l f h x hx
    obtain ⟨a, ha, rfl⟩ := List.mem_map.1 hx
    exact h a ha
  unfold State.agingItems
  refine List.filter_eq_nil_iff.2 fun x hx => ?_
  rw [bne_iff_ne, not_not]
  rcases List.mem_append.1 hx with hx | hx
  · rcases List.mem_append.1 hx with hx | hx
    · rcases List.mem_append.1 hx with hx | hx
      · exact key _ _ hq x hx
      · obtain ⟨n, -, hx⟩ := List.mem_flatMap.1 hx
        exact key _ _ (hb n) x hx
    · refine key _ _ (fun j hm => ?_) x hx
      obtain ⟨hm, hn⟩ := List.mem_filter.1 hm
      exact (hj j hm).resolve_left fun h => absurd hn (by rw [h]; decide)
  · refine key _ _ (fun y hm => ?_) x hx
    obtain ⟨hm, hn⟩ := List.mem_filter.1 hm
    exact ht y hm (List.contains_iff_mem.1 hn)

/-- The item that exceeds its limit first is the one that ages. -/
theorem workItemAged_effect {s : State} (h : s.agingItems ≠ []) : ∃ x ∈ s.agingItems, x.1 ≠ 0 ∧ (∀ y ∈ s.agingItems, s.ageDue x ≤ s.ageDue y) ∧
    workItemAged s = agedItem s x := by
  cases hl : s.agingItems with
  | nil => exact absurd hl h
  | cons x xs =>
    obtain ⟨h1, h2⟩ := foldl_lesser s.ageDue x xs
    exact ⟨_, h1, agingItems_nonzero (hl ▸ h1), h2, workItemAged_some hl⟩

theorem agedRecord_effect (s : State) (it : TxItem) (d : Time) (hd : s.ageDue (agingRecord it) = d) :
    agedItem s (agingRecord it) = { s.until d with streams := (agedItem s (agingRecord it)).streams, ladle := (agedItem s (agingRecord it)).ladle } ∧
    (agedItem s (agingRecord it)).streams = { s.streams with queue := s.streams.queue.map fun y => if y = it then { it with cls := it.cls - 1 } else y } ∧
    (agedItem s (agingRecord it)).ladle = { s.ladle with aged := if it.cls = 1 ∧ s.ladle.aged ≠ 0xFFFFFFFF then s.ladle.aged + 1 else s.ladle.aged } := by
  have hs := State.until_streams s d
  have hl := State.until_ladle s d
  unfold agedItem
  rw [hd]
  generalize s.until d = u at hs hl ⊢
  refine ⟨rfl, ?_, ?_⟩
  · rw [← hs]
    simp only [agingRecord, State.modLadle, beq_iff_eq]
  · rw [← hl]
    rfl

/-- A staged record that exceeds its limit first moves up. -/
theorem workItemAged_record {s : State} {it : TxItem} (hm : it ∈ s.streams.queue) (hc : it.cls ≠ 0)
    (hall : ∀ y ∈ s.agingItems, it.arrived + s.ageLimit it.cls ≤ s.ageDue y)
    (hq : ∀ y ∈ s.streams.queue, y.cls ≠ 0 → y = it ∨ it.arrived + s.ageLimit it.cls < y.arrived + s.ageLimit y.cls) :
    workItemAged s = agedItem s (agingRecord it) := by
  obtain ⟨rest, he⟩ := agingItems_split s
  have hin : agingRecord it ∈ (s.streams.queue.map agingRecord).filter (fun x => x.1 != 0) :=
    List.mem_filter.2 ⟨List.mem_map_of_mem hm, bne_iff_ne.2 hc⟩
  cases hl : s.agingItems with
  | nil => exact absurd (he ▸ List.mem_append_left rest hin) (by rw [hl]; exact List.not_mem_nil)
  | cons x xs =>
    rw [workItemAged_some hl]
    refine congrArg (agedItem s) (foldl_lesser_first (hl.symm.trans he) hin (fun y hy => ?_) fun y hy => hall y (he ▸ List.mem_append_right _ hy))
    obtain ⟨hy, hn⟩ := List.mem_filter.1 hy
    obtain ⟨z, hz, rfl⟩ := List.mem_map.1 hy
    exact (hq z hz (bne_iff_ne.1 hn)).imp (congrArg agingRecord) id

end Sys2Proof.Proofs

/-! O58: overflow, runs, drains and errors of the Cave (R364, R371, R373, R521). -/

namespace Sys2Proof.Proofs
open Sys2Proof Sys2Proof.Machine Sys2Proof.Claims

/-! ### Zones -/

theorem find?_modified {l : List ZoneRt} {z : Nat} {f : ZoneRt → ZoneRt} (hf : ∀ r, (f r).id = r.id) :
    (l.map fun r => if r.id == z then f r else r).find? (fun r => r.id == z) = (l.find? fun r => r.id == z).map f := by
  induction l with
  | nil => rfl
  | cons r l ih =>
    rw [List.map_cons, List.find?_cons, List.find?_cons]
    by_cases h : (r.id == z) = true
    · rw [if_pos h, hf, h]
      rfl
    · have hn : (r.id == z) = false := eq_false_of_ne_true h
      rw [if_neg h, hn]
      exact ih

theorem modZone_zoneRt (s : State) (z : Nat) {f : ZoneRt → ZoneRt} (hf : ∀ r, (f r).id = r.id) : (s.modZone z f).zoneRt z = (s.zoneRt z).map f :=
  find?_modified hf

theorem Only.zoneRt {F : List Part} {s t : State} (h : Only F s t) (z : Nat) (hp : Part.zones ∉ F := by decide) : t.zoneRt z = s.zoneRt z := by
  unfold State.zoneRt
  rw [h.zones hp]

/-- A discard keeps what stands of the zone but its run. -/
theorem discard_zoneRt (s : State) (z : Nat) (b : Lost) : (s.zoneRt z ≠ none → (s.discard z 3 b).zoneRt z ≠ none) ∧ (s.discard z 3 b).ladle = s.ladle := by
  unfold State.discard
  dsimp only
  rw [if_neg (by rw [show decide (3 = 2) = false from rfl]; exact Bool.false_ne_true)]
  split
  · exact ⟨id, rfl⟩
  · next rt hz =>
    have key : ∀ runs, Only [.zones] s (s.modZone z fun r => { r with runs := runs, inRun := true }) ∧
        (s.modZone z fun r => { r with runs := runs, inRun := true }).zoneRt z ≠ none := by
      intro runs
      refine ⟨modZone_only .., ?_⟩
      have h := modZone_zoneRt s z (f := fun r => { r with runs := runs, inRun := true }) fun _ => rfl
      rw [h, hz]
      exact Option.some_ne_none _
    split
    · exact ⟨fun _ => (key _).2, (key _).1.ladle⟩
    · refine ⟨fun _ => ?_, (raise_same ..).ladle.trans (key _).1.ladle⟩
      rw [Only.zoneRt (F := []) (raise_only ..)]
      exact (key _).2

/-- What HOST_LATE leaves (R364). -/
theorem hostLate_effect (s : State) (z : Nat) : (s.hostLate z).ladle.overflow = s.ladle.overflow ∧ bit (s.hostLate z).ladle.stat 2 = true ∧
    (s.zoneRt z ≠ none → ∃ q, (s.hostLate z).zoneRt z = some q ∧ q.flags.getLsbD 1 = true) := by
  refine ⟨rfl, bit_setBit_self _ (by decide), fun h => ?_⟩
  obtain ⟨r, hr⟩ := Option.ne_none_iff_exists'.1 h
  have hz : (s.modZone z fun r => { r with flags := r.flags ||| 2 }).zoneRt z = _ := modZone_zoneRt s z fun _ => rfl
  refine ⟨{ r with flags := r.flags ||| 2 }, ?_, ?_⟩
  · unfold State.hostLate
    refine (Only.zoneRt (F := [.ladle]) (modLadle_setBit_only _ 2 (by decide)) z).trans (hz.trans ?_)
    rw [hr]
    rfl
  · rw [BitVec.getLsbD_or]
    exact Bool.or_true _

/-- A block of the overflow pool is discarded and HOST_LATE sets. -/
def poolLate (z size : Nat) (b : Lost) (s : State) : State :=
  ((s.modLadle fun l => { l with overflow := l.overflow - size }).discard z 3 b).hostLate z

theorem poolLate_effect (z size : Nat) (b : Lost) (s : State) : Only [.zones, .ladle] s (poolLate z size b s) ∧
    (poolLate z size b s).ladle.overflow = s.ladle.overflow - size ∧ bit (poolLate z size b s).ladle.stat 2 = true ∧
    (s.zoneRt z ≠ none → ∃ q, (poolLate z size b s).zoneRt z = some q ∧ q.flags.getLsbD 1 = true) := by
  unfold poolLate
  have h1 : Only [.ladle] s (s.modLadle fun l => { l with overflow := l.overflow - size }) := modLadle_only ..
  have hz : (s.modLadle fun l => { l with overflow := l.overflow - size }).zoneRt z = s.zoneRt z := h1.zoneRt z
  have ho : (s.modLadle fun l => { l with overflow := l.overflow - size }).ladle.overflow = s.ladle.overflow - size := by rw [State.modLadle_ladle]
  generalize s.modLadle (fun l => { l with overflow := l.overflow - size }) = u at h1 hz ho ⊢
  have h2 := discard_only u z 3 b
  obtain ⟨d1, d2⟩ := discard_zoneRt u z b
  generalize u.discard z 3 b = v at h2 d1 d2 ⊢
  obtain ⟨k1, k2, k3⟩ := hostLate_effect v z
  exact ⟨((h1.mono (by decide)).trans h2).trans (hostLate_only v z), k1.trans (d2 ▸ ho), k2, fun h => k3 (d1 (hz ▸ h))⟩

/-! ### The overflow pool (R364) -/

/-- The pooled Vat block of a zone that comes first, with its engine. -/
def pooledVat (s : State) (z : Nat) : Option (Nat × VatIn) := (s.ladle.place.insts.filter fun x => x.zone == z).findSome? fun x =>
  ((s.engN x.engine).input.find? fun b => b.inPool).map fun b => (x.engine, b)

/-- The pooled record of a zone that comes first. -/
def pooledFrame (s : State) (z : Nat) : Option TxItem := s.streams.queue.find? fun it => it.zone == some z && it.inPool && it.seq0.isNone

theorem pooledVat_none {s : State} {z : Nat} (h : ∀ x ∈ s.ladle.place.insts, x.zone = z → ∀ b ∈ (s.engN x.engine).input, b.inPool = false) :
    pooledVat s z = none := by
  unfold pooledVat
  refine List.findSome?_eq_none_iff.2 fun x hx => Option.map_eq_none_iff.2 (List.find?_eq_none.2 fun b hb => ?_)
  obtain ⟨hm, hz⟩ := List.mem_filter.1 hx
  rw [h x hm (eq_of_beq hz) b hb]
  exact Bool.false_ne_true

theorem pooledFrame_none {s : State} {z : Nat} (h : ∀ it ∈ s.streams.queue, it.zone = some z → it.inPool = false ∨ it.seq0.isSome = true) :
    pooledFrame s z = none := by
  unfold pooledFrame
  refine List.find?_eq_none.2 fun it hi hc => ?_
  rw [Bool.and_eq_true, Bool.and_eq_true, Option.isNone_iff_eq_none] at hc
  obtain ⟨⟨hz, hp⟩, hn⟩ := hc
  rcases h it hi (eq_of_beq hz) with h | h
  · exact absurd (h.symm.trans hp) Bool.false_ne_true
  · rw [hn] at h
    exact absurd h Bool.false_ne_true

/-- A record leaves the queue. -/
def unqueue (it : TxItem) (s : State) : State := { s with streams := { s.streams with queue := s.streams.queue.erase it } }

theorem overflow_idle {s : State} {z : ZoneIx} (hf : pooledFrame s z.val = none) (hv : pooledVat s z.val = none) : overflowBlockTimeout z s = s := by
  unfold pooledFrame at hf
  unfold pooledVat at hv
  unfold overflowBlockTimeout
  dsimp only
  rw [hf, hv]

theorem overflow_frame {s : State} {z : ZoneIx} {it : TxItem} (hf : pooledFrame s z.val = some it) (hv : pooledVat s z.val = none) :
    overflowBlockTimeout z s = poolLate z.val it.record.bytes.length it.lost (unqueue it (s.until (it.arrived + (s.zoneCfg z.val).zone z.val 0x170C * ms))) := by
  unfold pooledFrame at hf
  unfold pooledVat at hv
  unfold overflowBlockTimeout
  dsimp only
  rw [hf, hv]
  rfl

theorem overflow_vat {s : State} {z : ZoneIx} {n : EngIx} {b : VatIn} (hv : pooledVat s z.val = some (n.val, b)) :
    overflowBlockTimeout z s = poolLate z.val b.bytes.length { product := 5, tFirst := b.arrived, tLast := b.arrived, seq := none, size := b.bytes.length }
      ((s.untilDev (b.arrived + (s.zoneCfg z.val).zone z.val 0x170C * ms)).modEng n fun x => { x with input := x.input.erase b }) := by
  have hn : ∀ (u : State) (f : Engine → Engine), u.onEng n.val f = u.modEng n f := fun u f => by
    unfold State.onEng
    rw [ix_of_lt n.isLt]
  unfold pooledVat at hv
  unfold overflowBlockTimeout
  dsimp only
  rw [hv, ← hn]
  split
  · next h => exact absurd h (Option.some_ne_none _)
  · next h =>
    obtain ⟨rfl, rfl⟩ := Prod.mk.inj (Option.some.inj h)
    rfl
  · next h => exact absurd h (Option.some_ne_none _)

end Sys2Proof.Proofs

/-! O58: runs, drains and errors of the Cave (R364, R371, R373, R521). -/

namespace Sys2Proof.Proofs
open Sys2Proof Sys2Proof.Machine Sys2Proof.Claims

/-! ### What stays true of every staged record -/

/-- A fact about staged records that holds of an URGENT one and stays when a record is sent on a link. -/
structure Lasting (P : TxItem → Prop) : Prop where
  sent : ∀ s it l, P it → P (State.sendUnits s it l).2
  urgent : ∀ it, it.urgent = true → P it

/-- Every staged record has `P`. -/
def Staged (P : TxItem → Prop) (s : State) : Prop := ∀ it ∈ s.streams.queue, P it

variable {P : TxItem → Prop}

theorem flushEth_staged (hP : Lasting P) {s : State} (h : Staged P s) : Staged P s.flushEth := by
  have hs : ∀ (its : List TxItem) (acc : State × List TxItem), (∀ it ∈ its, P it) → (∀ it ∈ acc.2, P it) → ∀ it ∈ (its.foldl flushStep acc).2, P it := by
    intro its
    induction its with
    | nil => exact fun acc _ h => h
    | cons x its ih =>
      intro acc hx ha
      have hxs := fun it hi => hx it (List.mem_cons_of_mem _ hi)
      have hP' := hx x (List.mem_cons_self ..)
      refine ih _ hxs fun it hi => ?_
      unfold flushStep at hi
      split at hi
      · next n _ =>
        dsimp only at hi
        split at hi
        · exact ha it hi
        · rcases List.mem_append.1 hi with hi | hi
          · exact ha it hi
          · rw [List.mem_singleton.1 hi]
            exact hP.sent _ _ _ hP'
      · rcases List.mem_append.1 hi with hi | hi
        · exact ha it hi
        · rw [List.mem_singleton.1 hi]
          exact hP'
  have hord : ∀ (q : List TxItem), (∀ it ∈ q, P it) → ∀ it ∈ txOrder q, P it := by
    intro q hq it hi
    rcases List.mem_append.1 hi with hi | hi
    · exact hq it (List.mem_filter.1 hi).1
    · obtain ⟨c, -, hi⟩ := List.mem_flatMap.1 hi
      exact hq it (List.mem_filter.1 hi).1
  unfold State.flushEth
  dsimp only
  split
  · exact h
  · intro it hi
    rcases List.mem_append.1 hi with hi | hi
    · rcases List.mem_append.1 hi with hi | hi
      · exact h it (List.mem_filter.1 (List.mem_filter.1 hi).1).1
      · exact hs _ _ (hord _ fun it hi => h it (List.mem_filter.1 hi).1) (fun it hi => absurd hi List.not_mem_nil) it hi
    · exact h it (List.mem_filter.1 (List.mem_filter.1 hi).1).1

theorem wheyZone_staged (hP : Lasting P) {s : State} (h : Staged P s) (z : Nat) (w : Whey) : Staged P (s.wheyZone z w) := by
  refine flushEth_staged hP fun it hi => ?_
  rcases List.mem_append.1 hi with hi | hi
  · exact h it hi
  · rw [List.mem_singleton.1 hi]
    exact hP.urgent _ rfl

theorem endDrain_staged (hP : Lasting P) {s : State} (h : Staged P s) (z : Nat) : Staged P (s.endDrain z) := by
  have hw : ∀ (rs : List DiscardRun) (u : State), Staged P u → Staged P (rs.foldl (fun t r => t.wheyZone z r.whey) u) := by
    intro rs
    induction rs with
    | nil => exact fun _ hu => hu
    | cons r rs ih => exact fun u hu => ih _ (wheyZone_staged hP hu z _)
  have hr : Staged P (s.endRun z) := by
    unfold State.endRun
    split
    · exact h
    · split
      · exact hw _ _ h
      · exact h
  unfold State.endDrain
  split
  · split
    · exact hr
    · exact h
  · exact h

/-- Of the zone `z` only what is URGENT or has begun to leave, or else has `e`. -/
def Leaving (z : Nat) (e : TxItem → Bool) (it : TxItem) : Prop := it.zone = some z → it.urgent = true ∨ it.seq0.isSome = true ∨ e it = true

theorem leaving_lasting (z : Nat) (e : TxItem → Bool) (he : ∀ s it l, e (State.sendUnits s it l).2 = e it) : Lasting (Leaving z e) := by
  refine ⟨fun s it l h hz => ?_, fun it h _ => .inl h⟩
  have hn : (s.number it).2.zone = it.zone ∧ (s.number it).2.urgent = it.urgent ∧ (it.seq0.isSome = true → (s.number it).2.seq0.isSome = true) := by
    unfold State.number
    split
    · exact ⟨rfl, rfl, id⟩
    · exact ⟨rfl, rfl, fun _ => rfl⟩
  obtain ⟨h1, h2, h3⟩ := hn
  exact (h (h1.symm.trans hz)).imp (fun h => h2.trans h) (.imp h3 fun h => (he s it l).trans h)

theorem number_inPool (s : State) (it : TxItem) (l : Link) : (s.sendUnits it l).2.inPool = it.inPool := by
  show (s.number it).2.inPool = _
  unfold State.number
  split <;> rfl

/-! ### Runs (R364) -/

theorem discardRunRecord_none {s : State} {z : ZoneIx} (h : s.zoneRt z.val = none ∨ ∃ r, s.zoneRt z.val = some r ∧ r.runs = []) :
    discardRunRecord z s = s := by
  unfold discardRunRecord
  dsimp only
  rcases h with h | ⟨r, h, hr⟩
  · rw [h]
  · rw [h]
    dsimp only
    rw [hr]

/-- A run's cause `d` is written at the instant `x`. -/
theorem runWritten_effect {s : State} {z : Nat} {r : ZoneRt} (h : s.zoneRt z = some r) (d : DiscardRun) (x : Time) {t : State}
    (ht : t = ((s.until x).modZone z fun r => { r with runs := r.runs.filter fun y => y.cause != d.cause }).wheyZone z d.whey) :
    t.time = (s.until x).time ∧ t.zoneRt z = some { r with runs := r.runs.filter fun y => y.cause != d.cause } ∧
      t.streams.wheySeq = s.streams.wheySeq + 1 ∧ t.settings = s.settings ∧ t.ports = s.ports := by
  have hs := State.until_streams s x
  have hset := State.until_settings s x
  have hp := State.until_ports s x
  have hz : (s.until x).zoneRt z = some r := by
    unfold State.zoneRt
    rw [State.until_zones]
    exact h
  generalize s.until x = u at ht hs hset hp hz ⊢
  have h1 : Only [.zones] u (u.modZone z fun r => { r with runs := r.runs.filter fun y => y.cause != d.cause }) := modZone_only ..
  have e1 : (u.modZone z fun r => { r with runs := r.runs.filter fun y => y.cause != d.cause }).zoneRt z = _ := modZone_zoneRt u z fun _ => rfl
  have e2 : wheyNext (u.modZone z fun r => { r with runs := r.runs.filter fun y => y.cause != d.cause }) = wheyNext u := rfl
  generalize u.modZone z (fun r => { r with runs := r.runs.filter fun y => y.cause != d.cause }) = v at ht h1 e1 e2
  have h2 : Only [] v t := ht ▸ wheyZone_only v z d.whey
  have e3 : wheyNext t = wheyNext v + 1 := ht ▸ push_wheyNext ..
  refine ⟨h2.time.trans h1.time, (h2.zoneRt z).trans (e1.trans (by rw [hz]; rfl)), ?_, (h2.settings.trans h1.settings).trans hset,
    (h2.ports.trans h1.ports).trans hp⟩
  exact e3.trans (by rw [e2]; exact congrArg (fun x : Streams => x.wheySeq + 1) hs)

theorem discardRunRecord_effect {s : State} {z : ZoneIx} {r : ZoneRt} (h : s.zoneRt z.val = some r) (hr : r.runs ≠ []) : ∃ d ∈ r.runs,
    (∀ y ∈ r.runs, d.since ≤ y.since) ∧ discardRunRecord z s =
      ((s.until (d.since + sec)).modZone z.val fun r => { r with runs := r.runs.filter fun y => y.cause != d.cause }).wheyZone z.val d.whey := by
  cases hl : r.runs with
  | nil => exact absurd hl hr
  | cons x xs =>
    obtain ⟨h1, h2⟩ := foldl_lesser DiscardRun.since x xs
    refine ⟨_, h1, h2, ?_⟩
    unfold discardRunRecord
    dsimp only
    rw [h]
    dsimp only
    rw [hl]
    rfl

/-! ### Drains (R373) -/

theorem zoneRt_filtered (zs : List ZoneRt) (z : Nat) : (zs.filter fun x => x.id != z).find? (fun r => r.id == z) = none := by
  refine List.find?_eq_none.2 fun r hr h => ?_
  exact absurd (eq_of_beq h) (bne_iff_ne.1 (List.mem_filter.1 hr).2)

theorem endRun_drainUntil {s : State} {z : Nat} (h : ∀ q, s.zoneRt z = some q → q.drainUntil = none) :
    ∀ q, (s.endRun z).zoneRt z = some q → q.drainUntil = none := by
  unfold State.endRun
  split
  · exact h
  · next rt hz =>
    split
    · intro q hq
      rw [Only.zoneRt (F := []) (.foldl (fun _ _ => wheyZone_only ..) _ _)] at hq
      have h1 := modZone_zoneRt s z (f := fun r => { r with runs := [], inRun := false }) fun _ => rfl
      rw [h1, hz] at hq
      rw [← Option.some.inj hq]
      exact h rt hz
    · exact h

theorem endDrain_drainUntil {s : State} {z : Nat} (h : ∀ q, s.zoneRt z = some q → q.drainUntil = none) :
    ∀ q, (s.endDrain z).zoneRt z = some q → q.drainUntil = none := by
  unfold State.endDrain
  split
  · split
    · intro q hq
      exact absurd (hq.symm.trans (zoneRt_filtered _ _)) (Option.some_ne_none _)
    · exact h
  · exact h

/-- The drain of zone `z` ends in a state `u` from which its staged records went. -/
def drainEnds (z : Nat) (u : State) : State := (u.modZone z fun r => { r with drainUntil := none }).endDrain z

theorem drainEnds_effect (z : Nat) (u : State) : Only [.zones] u (drainEnds z u) ∧ (∀ q, (drainEnds z u).zoneRt z = some q → q.drainUntil = none) ∧
    ∀ P, Lasting P → Staged P u → Staged P (drainEnds z u) := by
  refine ⟨(modZone_only ..).trans (endDrain_only ..), endDrain_drainUntil fun q hq => ?_, fun P hP h => endDrain_staged hP (s := u.modZone z fun r => { r with drainUntil := none }) h z⟩
  have h1 := modZone_zoneRt u z (f := fun r => { r with drainUntil := none }) fun _ => rfl
  rw [h1] at hq
  obtain ⟨r, -, rfl⟩ := Option.map_eq_some_iff.1 hq
  rfl

/-- The records of zone `z` that a drain discards. -/
def drained (z : Nat) (it : TxItem) : Bool := it.zone == some z && !it.urgent && it.seq0.isNone

theorem not_drained {z : Nat} {it : TxItem} (h : drained z it = false) : Leaving z (fun _ => false) it := by
  intro hz
  by_contra hc
  rw [not_or, not_or] at hc
  obtain ⟨h1, h2, -⟩ := hc
  refine Bool.false_ne_true (h.symm.trans ?_)
  unfold drained
  rw [hz, eq_false_of_ne_true h1, Option.not_isSome_iff_eq_none.1 h2, beq_self_eq_true]
  rfl

/-- The staged records of zone `z` go, and `pool` bytes of the overflow pool with them. -/
def unstage (z pool : Nat) (u : State) : State :=
  ({ u with streams := { u.streams with queue := u.streams.queue.filter fun it => !(drained z it) } } : State).modLadle fun l => { l with
    overflow := l.overflow - pool }

theorem unstage_effect (z pool : Nat) (u : State) : Only [.ladle] u (unstage z pool u) ∧ Staged (Leaving z fun _ => false) (unstage z pool u) := by
  refine ⟨(modStreams_only (F := [.ladle]) u fun x => { x with queue := x.queue.filter fun it => !(drained z it) }).trans (modLadle_only ..), fun it hi => ?_⟩
  have hd := (List.mem_filter.1 hi).2
  exact not_drained (by rwa [Bool.not_eq_true'] at hd)

theorem drainHostTimeout_some {s : State} {z : ZoneIx} {d : Time} (h : (s.zoneRt z.val).bind (·.drainUntil) = some d) : ∃ pool v,
    (v = unstage z.val pool (s.until d) ∨ ∃ w, v = (unstage z.val pool (s.until d)).wheyZone z.val w) ∧ drainHostTimeout z s = drainEnds z.val v := by
  unfold drainHostTimeout
  dsimp only
  rw [h]
  refine ⟨((((s.until d).streams.queue.filter (drained z.val)).filter (·.inPool)).foldl (fun n it => n + it.record.bytes.length) 0), _, ?_, rfl⟩
  split
  · exact .inl rfl
  · exact .inr ⟨_, rfl⟩

theorem drainHostTimeout_effect {s : State} {z : ZoneIx} {d : Time} (h : (s.zoneRt z.val).bind (·.drainUntil) = some d) :
    (drainHostTimeout z s).time = (s.until d).time ∧
    (∀ it ∈ (drainHostTimeout z s).streams.queue, it.zone = some z.val → it.urgent = true ∨ it.seq0.isSome = true) ∧
    (∀ q, (drainHostTimeout z s).zoneRt z.val = some q → q.drainUntil = none) ∧ (drainHostTimeout z s).settings = s.settings ∧
    (drainHostTimeout z s).ports = s.ports ∧ (drainHostTimeout z s).engines = s.engines := by
  obtain ⟨pool, v, hv, he⟩ := drainHostTimeout_some h
  have hs := State.until_settings s d
  have hp := State.until_ports s d
  have hg := State.until_engines s d
  rw [he]
  generalize s.until d = u at hv hs hp hg ⊢
  have hl : Lasting (Leaving z.val fun _ => false) := leaving_lasting _ _ fun _ _ _ => rfl
  obtain ⟨k1, k2⟩ := unstage_effect z.val pool u
  have hu : Only [.ladle] u v ∧ Staged (Leaving z.val fun _ => false) v := by
    rcases hv with rfl | ⟨w, rfl⟩
    · exact ⟨k1, k2⟩
    · exact ⟨k1.trans (wheyZone_only ..), wheyZone_staged hl k2 _ _⟩
  obtain ⟨d1, d2, d3⟩ := drainEnds_effect z.val v
  refine ⟨d1.time.trans hu.1.time, fun it hi hz => ?_, d2, (d1.settings.trans hu.1.settings).trans hs, (d1.ports.trans hu.1.ports).trans hp,
    (d1.engines.trans hu.1.engines).trans hg⟩
  rcases d3 _ hl hu.2 it hi hz with h | h | h
  · exact .inl h
  · exact .inr h
  · exact absurd h Bool.false_ne_true

end Sys2Proof.Proofs

/-! O58: errors of the Cave, and the die's temperature (R371, R521, R555). -/

namespace Sys2Proof.Proofs
open Sys2Proof Sys2Proof.Machine Sys2Proof.Claims

/-! ### Errors of the Cave (R371, R521) -/

theorem loseStaging_effect (s : State) (z : Nat) : Only [] s (s.loseStaging z) ∧ Unstaged (s.loseStaging z) z := by
  have hl : Lasting (Leaving z (·.inPool)) := leaving_lasting z _ number_inPool
  have key : ∀ it : TxItem, (it.zone == some z && !it.urgent && it.seq0.isNone && !it.inPool) ≠ true → Leaving z (·.inPool) it := by
    intro it h hz
    by_contra hc
    rw [not_or, not_or] at hc
    obtain ⟨h1, h2, h3⟩ := hc
    refine h ?_
    have h3 : it.inPool = false := eq_false_of_ne_true h3
    rw [hz, eq_false_of_ne_true h1, Option.not_isSome_iff_eq_none.1 h2, h3, beq_self_eq_true]
    rfl
  have hw : ∀ (q : List TxItem) (w : Whey), Only [] s (({ s with streams := { s.streams with queue := q } } : State).wheyZone z w) := fun q w =>
    (modStreams_only s fun x => { x with queue := q }).trans (wheyZone_only ..)
  unfold State.loseStaging
  dsimp only
  split
  · next hg => exact ⟨.refl .., fun it hi => key it (List.filter_eq_nil_iff.1 (List.isEmpty_iff.1 hg) it hi)⟩
  · refine ⟨hw _ _, wheyZone_staged hl (fun it hi => key it ?_) z _⟩
    have h := (List.mem_filter.1 hi).2
    rwa [Bool.not_eq_true', ← Bool.not_eq_true] at h

theorem vatWindowLost_effect (s : State) (n : EngIx) : Only [.engines] s (caveError (.vatWindow n) s) ∧
    (caveError (.vatWindow n) s).engines = s.engines.set n { s.engines[n] with win := Vector.replicate 4 [] } := by
  unfold caveError
  dsimp only
  have h0 : Only [] s (s.raise 243) := raise_only ..
  have h1 : Only [.engines] (s.raise 243) ((s.raise 243).modEng n fun e => { e with win := Vector.replicate 4 [] }) := modEng_only ..
  have e1 : ((s.raise 243).modEng n fun e => { e with win := Vector.replicate 4 [] }).engines =
      s.engines.set n { s.engines[n] with win := Vector.replicate 4 [] } := by
    rw [State.modEng_engines, h0.engines]
  generalize (s.raise 243).modEng n (fun e => { e with win := Vector.replicate 4 [] }) = v at h1 e1 ⊢
  have h2 := (h0.mono (G := [.engines]) (by decide)).trans h1
  split
  · exact ⟨h2.trans (wheyZone_only ..), (Only.engines (F := []) (wheyZone_only ..)).trans e1⟩
  · exact ⟨h2, e1⟩

theorem rawHistoryLost_effect (s : State) (p : PortIx) : Only [.look] s (caveError (.rawHistory p) s) ∧
    (caveError (.rawHistory p) s).look.rawSince[p] = (s.look.rawSince[p]).map (fun _ => s.time.dev) := by
  unfold caveError
  dsimp only
  have h0 : Only [.look] s (s.raise 243) := raise_only ..
  have hl : (s.raise 243).look.rawSince = s.look.rawSince := by rw [Only.lookAll (F := []) (raise_only s 243)]
  have ht : (s.raise 243).time = s.time := h0.time
  generalize s.raise 243 = u at h0 hl ht ⊢
  cases hr : u.look.rawSince[p] with
  | none =>
    refine ⟨h0, ?_⟩
    rw [← hl, hr]
    rfl
  | some t =>
    dsimp only
    refine ⟨h0.trans ((modLook_only ..).trans (.foldl (fun _ _ => wheyZone_only ..) _ _)), ?_⟩
    rw [Only.lookAll (F := []) (.foldl (fun _ _ => wheyZone_only ..) _ _), ← hl, hr, ← ht]
    exact Vector.getElem_set_self ..

theorem curdHistoryLost_effect (s : State) (z : ZoneIx) : Only [.zones, .look] s (caveError (.curdHistory z) s) ∧
    ∀ q, (caveError (.curdHistory z) s).zoneRt z.val = some q → q.curdRows = [] := by
  unfold caveError
  dsimp only
  have h0 : Only [.zones, .look] s (s.raise 243) := raise_only ..
  generalize s.raise 243 = u at h0 ⊢
  cases hr : u.zoneRt z.val with
  | none => exact ⟨h0, fun q hq => absurd (hr.symm.trans hq) (Option.some_ne_none _).symm⟩
  | some rt =>
    dsimp only
    have h1 : Only [.zones] u (u.modZone z.val fun r => { r with curdRows := [], curdSince := some u.time.dev }) := modZone_only ..
    have e1 := modZone_zoneRt u z.val (f := fun r => { r with curdRows := [], curdSince := some u.time.dev }) fun _ => rfl
    generalize u.modZone z.val (fun r => { r with curdRows := [], curdSince := some u.time.dev }) = v at h1 e1 ⊢
    have h2 : Only [.look] v (v.modLook fun l => { l with histGap := l.histGap ++ [(zonePort u.settings z.val, u.time.dev)] }) := modLook_only ..
    generalize v.modLook (fun l => { l with histGap := l.histGap ++ [(zonePort u.settings z.val, u.time.dev)] }) = w at h2 ⊢
    refine ⟨((h0.trans (h1.mono (by decide))).trans (h2.mono (by decide))).trans (wheyZone_only ..), fun q hq => ?_⟩
    rw [Only.zoneRt (F := []) (wheyZone_only ..), h2.zoneRt, e1] at hq
    obtain ⟨r, -, rfl⟩ := Option.map_eq_some_iff.1 hq
    rfl

/-- Whatever region is lost, EV243 pends. -/
theorem caveError_pend {s : State} (h : s.boot.inReset = false) (c : CaveRegion) : (caveError c s).ev.pend.getLsbD 243 = true := by
  have h0 : (s.raise 243).ev.pend.getLsbD 243 = true := raise_pend s 243 243 h (.inl rfl)
  have hw : ∀ (u : State) (z : Nat) (w : Whey), u.ev.pend.getLsbD 243 = true → (u.wheyZone z w).ev.pend.getLsbD 243 = true := fun u z w hu =>
    Only.pend (F := []) (wheyZone_only u z w) 243 hu
  unfold caveError
  dsimp only
  generalize s.raise 243 = u at h0 ⊢
  cases c with
  | staging z => exact (loseStaging_effect u z.val).1.pend 243 h0
  | vatWindow n =>
    dsimp only
    split
    · exact hw _ _ _ h0
    · exact h0
  | pressWindow => exact h0
  | rawHistory p =>
    dsimp only
    split
    · exact h0
    · exact Only.pend (F := []) (.foldl (fun _ _ => wheyZone_only ..) _ _) 243 h0
  | curdHistory z =>
    dsimp only
    split
    · exact h0
    · exact hw _ _ _ h0
  | hostArea => exact h0
  | free => exact h0

/-- What one region lost leaves of the rest. -/
theorem caveError_only (c : CaveRegion) (s : State) : Only [.engines, .look, .zones, .hostArea] s (caveError c s) ∧ (match c with
    | .staging z => Unstaged (caveError c s) z.val ∧ SameWork s (caveError c s)
    | .vatWindow n => (caveError c s).engines[n] = { s.engines[n] with win := Vector.replicate 4 [] } ∧
        SameWork { s with engines := (caveError c s).engines } (caveError c s) ∧ (∀ m : EngIx, m ≠ n → (caveError c s).engines[m] = s.engines[m])
    | .rawHistory p => (caveError c s).look.rawSince[p] = (s.look.rawSince[p]).map (fun _ => s.time.dev) ∧ SameWork s (caveError c s)
    | .curdHistory z => (∀ q, (caveError c s).zoneRt z.val = some q → q.curdRows = []) ∧
        SameWork { s with zones := (caveError c s).zones } (caveError c s)
    | .hostArea => (caveError c s).hostArea = [] ∧ SameWork { s with hostArea := (caveError c s).hostArea } (caveError c s)
    | .pressWindow _ => SameWork s (caveError c s)
    | .free => SameWork s (caveError c s)) := by
  have h0 : Only [] s (s.raise 243) := raise_only ..
  cases c with
  | staging z =>
    obtain ⟨k1, k2⟩ := loseStaging_effect (s.raise 243) z.val
    have k := h0.trans k1
    exact ⟨k.mono (by decide), k2, sameWork_of_only k⟩
  | vatWindow n =>
    obtain ⟨k1, k2⟩ := vatWindowLost_effect s n
    refine ⟨k1.mono (by decide), ?_, sameWork_of_only k1, fun m hm => ?_⟩
    · dsimp only
      rw [k2]
      exact Vector.getElem_set_self ..
    · rw [k2]
      exact Vector.getElem_set_ne _ _ fun h => hm (Fin.ext h.symm)
  | pressWindow => exact ⟨h0.mono (by decide), sameWork_of_only h0⟩
  | rawHistory p =>
    obtain ⟨k1, k2⟩ := rawHistoryLost_effect s p
    exact ⟨k1.mono (by decide), k2, sameWork_of_only k1⟩
  | curdHistory z =>
    obtain ⟨k1, k2⟩ := curdHistoryLost_effect s z
    exact ⟨k1.mono (by decide), k2, sameWork_of_only k1⟩
  | hostArea =>
    have k : Only [.hostArea] (s.raise 243) { s.raise 243 with hostArea := [] } :=
      only_part .hostArea fun p hp => by cases p <;> first | rfl | exact absurd rfl hp | exact SameSess.of_eq rfl
    have k1 := (h0.mono (by decide)).trans k
    exact ⟨k1.mono (by decide), rfl, sameWork_of_only k1⟩
  | free => exact ⟨h0.mono (by decide), sameWork_of_only h0⟩

/-- A corrected error joins those of the last second. -/
theorem caveCorrectedError_effect (b : Bool) (s : State) : SameWork s (caveCorrectedError b s) ∧
    (s.boot.inReset = false → (b = true → (caveCorrectedError b s).ev.pend.getLsbD 244 = true) ∧
      ((s.links.corrected.filter fun x => decide (s.time.mono < x + sec)).length = 1000 → (caveCorrectedError b s).ev.pend.getLsbD 242 = true)) ∧
    (caveCorrectedError b s).links.corrected = (s.links.corrected.filter fun x => decide (s.time.mono < x + sec)) ++ [s.time.mono] := by
  unfold caveCorrectedError
  dsimp only
  generalize s.links.corrected.filter (fun x => decide (s.time.mono < x + sec)) = l
  have h1 : Only [.links] s (s.modLinks fun x => { x with corrected := l ++ [s.time.mono] }) := modLinks_only ..
  have e1 : (s.modLinks fun x => { x with corrected := l ++ [s.time.mono] }).links.corrected = l ++ [s.time.mono] := rfl
  generalize s.modLinks (fun x => { x with corrected := l ++ [s.time.mono] }) = u at h1 e1 ⊢
  have hr : ∀ (c : Prop) [Decidable c] (v : State) (n : EvIx), Only [] v (if c then v.raise n else v) := fun c _ v n =>
    .ite (fun _ => raise_only ..) fun _ => .refl ..
  have h2 := hr ((l ++ [s.time.mono]).length = 1001) u 242
  have p2 : s.boot.inReset = false → l.length = 1000 → (if (l ++ [s.time.mono]).length = 1001 then u.raise 242 else u).ev.pend.getLsbD 242 = true := by
    intro hs hl
    rw [if_pos (by rw [List.length_append, hl]; rfl)]
    exact raise_pend u 242 242 (h1.inReset.trans hs) (.inl rfl)
  generalize (if (l ++ [s.time.mono]).length = 1001 then u.raise 242 else u) = v at h2 p2 ⊢
  have h3 := hr (b = true) v 244
  have h := (h1.trans (h2.mono (by decide))).trans (h3.mono (F := []) (G := [.links]) (by decide))
  refine ⟨sameWork_of_only h, fun hs => ⟨fun hb => ?_, fun hl => h3.pend 242 (p2 hs hl)⟩, ?_⟩
  · rw [if_pos hb]
    exact raise_pend v 244 244 (h2.inReset.trans (h1.inReset.trans hs)) (.inl rfl)
  · rw [h3.links, h2.links]
    exact e1

end Sys2Proof.Proofs

/-! O58: the die's temperature (R555), and the obligation. -/

namespace Sys2Proof.Proofs
open Sys2Proof Sys2Proof.Machine Sys2Proof.Claims

/-! ### The sensors -/

/-- Whether a sensor reads `c` degrees or more. -/
def anyAt (ts : List Int) (c : Int) : Bool := ts.any fun t => decide (c * 256 ≤ t)

/-- Whether a sensor reads more than 105 degrees. -/
def anyHot (ts : List Int) : Bool := ts.any fun t => decide (105 * 256 < t)

theorem anyAt_iff {ts : List Int} {c : Int} : anyAt ts c = true ↔ ∃ x ∈ ts, c * 256 ≤ x := by
  unfold anyAt
  simp only [List.any_eq_true, decide_eq_true_eq]

theorem anyHot_iff {ts : List Int} : anyHot ts = true ↔ ∃ x ∈ ts, 105 * 256 < x := by
  unfold anyHot
  simp only [List.any_eq_true, decide_eq_true_eq]

theorem anyAt_false {ts : List Int} {c : Int} (h : ∀ x ∈ ts, x < c * 256) : anyAt ts c = false :=
  eq_false_of_ne_true fun hc => by
    obtain ⟨x, hx, hle⟩ := anyAt_iff.1 hc
    exact absurd (h x hx) (Int.not_lt.2 hle)

theorem anyHot_false {ts : List Int} (h : ∀ x ∈ ts, x ≤ 105 * 256) : anyHot ts = false :=
  eq_false_of_ne_true fun hc => by
    obtain ⟨x, hx, hlt⟩ := anyHot_iff.1 hc
    exact absurd (h x hx) (Int.not_le.2 hlt)

theorem anyHot_of_anyAt {ts : List Int} {c : Int} (hc : 105 < c) (h : anyAt ts c = true) : anyHot ts = true := by
  obtain ⟨x, hx, hle⟩ := anyAt_iff.1 h
  exact anyHot_iff.2 ⟨x, hx, by omega⟩

/-! ### Its four steps -/

/-- The sample is noted. -/
def noted (ts : List Int) (s : State) : State := s.modSdc fun c => { c with hot := anyHot ts, warned := anyAt ts 110 }

/-- The hottest reading, as a fault's detail has it. -/
def topReading (ts : List Int) : Word := BitVec.ofNat 32 (ts.foldl max (-100000)).toNat

/-- A first sample of 110 °C or more is logged. -/
def warns (ts : List Int) (warned : Bool) (s : State) : State := if anyAt ts 110 && !warned then s.faultLog 1 248 0xFFFF (topReading ts) else s

/-- The shutdown of R555. -/
def overheats (ts : List Int) (s : State) : State :=
  (((((s.modSdc fun c => { c with causeTemp := true }).shutGroups allGroups).latShutdown 0).raise 204).raise 201).faultLog 1 201 0xFFFF (topReading ts)

/-- The cause stands no more. -/
def cools (s : State) : State := (s.modSdc fun c => { c with causeTemp := false }).causeCleared

/-- A cause ends once every sensor is cool. -/
def judged (ts : List Int) (s : State) : State := if s.sdc.causeTemp && !anyHot ts then cools s else s

theorem judged_hot {ts : List Int} (h : anyHot ts = true) (s : State) : judged ts s = s :=
  if_neg (by rw [h, Bool.not_true, Bool.and_false]; exact Bool.false_ne_true)

theorem dieTemperature_eq (ts : List Int) (s : State) : dieTemperature ts s = judged ts
    (if anyAt ts 115 && !s.sdc.causeTemp then overheats ts (warns ts s.sdc.warned (noted ts s)) else warns ts s.sdc.warned (noted ts s)) := rfl

theorem faultLog_only (s : State) (a b c : Nat) (d : Word) : Only [.boot] s (s.faultLog a b c d) := by
  unfold State.faultLog
  exact (modBoot_only ..).trans (raise_only ..)

theorem faultLog_inReset (s : State) (a b c : Nat) (d : Word) : (s.faultLog a b c d).boot.inReset = s.boot.inReset := by
  unfold State.faultLog
  rw [(raise_same ..).boot, State.modBoot_boot]

/-- After the sample is noted and the warning given. -/
structure Warned (ts : List Int) (s u : State) : Prop where
  only : Only [.sdc, .boot] s u
  sdc : u.sdc = { s.sdc with hot := anyHot ts, warned := anyAt ts 110 }
  inReset : u.boot.inReset = s.boot.inReset
  pend : s.boot.inReset = false → s.sdc.warned = false → anyAt ts 110 = true → u.ev.pend.getLsbD 248 = true
  cold : anyAt ts 110 = false → u = noted ts s

theorem warns_warned (ts : List Int) (s : State) : Warned ts s (warns ts s.sdc.warned (noted ts s)) := by
  have h1 : Only [.sdc, .boot] s (noted ts s) := (modSdc_only ..).mono (by decide)
  have e1 : (noted ts s).sdc = { s.sdc with hot := anyHot ts, warned := anyAt ts 110 } := State.modSdc_sdc ..
  have r1 : (noted ts s).boot.inReset = s.boot.inReset := by
    unfold noted
    rw [State.modSdc_boot]
  unfold warns
  by_cases hw : (anyAt ts 110 && !s.sdc.warned) = true
  · rw [if_pos hw]
    have h2 := faultLog_only (noted ts s) 1 248 0xFFFF (topReading ts)
    refine ⟨h1.trans (h2.mono (by decide)), h2.sdc.trans e1, (faultLog_inReset ..).trans r1, fun hr _ _ => (faultLog_effect (r1.trans hr) ..).1, fun hc => ?_⟩
    rw [hc] at hw
    exact absurd hw Bool.false_ne_true
  · rw [if_neg hw]
    refine ⟨h1, e1, r1, fun _ h h' => absurd ?_ hw, fun _ => rfl⟩
    rw [h, h']
    rfl

theorem overheats_effect (ts : List Int) (s : State) : Only [.sdc, .shut, .ports, .emOn, .boot] s (overheats ts s) ∧ AllShut (overheats ts s) ∧
    (overheats ts s).sdc.causeTemp = true ∧ (overheats ts s).sdc.hot = s.sdc.hot ∧
    (s.boot.inReset = false → (overheats ts s).ev.pend.getLsbD 204 = true ∧ (overheats ts s).ev.pend.getLsbD 201 = true ∧
      (overheats ts s).ev.pend.getLsbD 248 = true) := by
  unfold overheats
  have h1 : Only [.sdc] s (s.modSdc fun c => { c with causeTemp := true }) := modSdc_only ..
  have e1 : (s.modSdc fun c => { c with causeTemp := true }).sdc = { s.sdc with causeTemp := true } := State.modSdc_sdc ..
  generalize s.modSdc (fun c => { c with causeTemp := true }) = a at h1 e1 ⊢
  have h2 := shutGroups_only a allGroups
  have g2 := shutGroups_effect allGroups a
  generalize a.shutGroups allGroups = b at h2 g2 ⊢
  have h3 : Only [.sdc, .emOn] b (b.latShutdown 0) := by
    rw [latShutdown_eq]
    refine ⟨fun p hp => ?_, fun _ h => h, fun _ h => h, fun _ _ _ h => h⟩
    cases p <;> first | rfl | exact SameSess.of_eq rfl | simp at hp
  have e3 : (b.latShutdown 0).sdc = latched a.time.mono 0 b.sdc := by
    rw [latShutdown_eq, h2.time]
  have o3 : (b.latShutdown 0).emOn = Vector.replicate 128 false := rfl
  have s3 : (b.latShutdown 0).shut = b.shut := rfl
  generalize b.latShutdown 0 = c at h3 e3 o3 s3 ⊢
  have h4 : Only [] c ((c.raise 204).raise 201) := (raise_only ..).trans (raise_only ..)
  have hb : ((c.raise 204).raise 201).boot.inReset = s.boot.inReset := h4.inReset.trans (h3.inReset.trans (h2.inReset.trans h1.inReset))
  have hc : c.boot.inReset = s.boot.inReset := h3.inReset.trans (h2.inReset.trans h1.inReset)
  have p4 : s.boot.inReset = false → ((c.raise 204).raise 201).ev.pend.getLsbD 204 = true ∧ ((c.raise 204).raise 201).ev.pend.getLsbD 201 = true := fun h =>
    (raise_both (hc.trans h) 204 201).2
  generalize (c.raise 204).raise 201 = d at h4 hb p4 ⊢
  have h5 := faultLog_only d 1 201 0xFFFF (topReading ts)
  have p5 : s.boot.inReset = false → (d.faultLog 1 201 0xFFFF (topReading ts)).ev.pend.getLsbD 248 = true := fun h => (faultLog_effect (hb.trans h) ..).1
  generalize d.faultLog 1 201 0xFFFF (topReading ts) = e at h5 p5 ⊢
  have he : e.sdc = latched a.time.mono 0 b.sdc := h5.sdc.trans (h4.sdc.trans e3)
  have hbs : b.sdc = { s.sdc with causeTemp := true } := h2.sdc.trans e1
  refine ⟨?_, allShut_of g2 (h5.shut.trans (h4.shut.trans s3)) (h5.emOn.trans (h4.emOn.trans o3)) he, by rw [he, hbs]; rfl, by rw [he, hbs]; rfl,
    fun h => ⟨h5.pend 204 (p4 h).1, h5.pend 201 (p4 h).2, p5 h⟩⟩
  have k := ((h1.mono (G := [.sdc, .shut, .ports, .emOn, .boot]) (by decide)).trans (h2.mono (by decide))).trans (h3.mono (by decide))
  exact (k.trans (h4.mono (by decide))).trans (h5.mono (by decide))

theorem cools_effect (s : State) : cools s = { s with sdc := (cools s).sdc } ∧ (cools s).sdc.causeTemp = false ∧ (cools s).sdc.phase = s.sdc.phase ∧
    (cools s).sdc.hot = s.sdc.hot := by
  unfold cools
  rw [causeCleared_only]
  exact ⟨rfl, rfl, rfl, rfl⟩

/-- A sample that begins the cause. -/
theorem dieTemperature_overheats {ts : List Int} {s : State} (hc : s.sdc.causeTemp = false) (h : anyAt ts 115 = true) :
    dieTemperature ts s = overheats ts (warns ts s.sdc.warned (noted ts s)) := by
  rw [dieTemperature_eq, judged_hot (anyHot_of_anyAt (by decide) h), h, hc]
  exact if_pos rfl

/-- A sample that leaves the cause as it was. -/
theorem dieTemperature_stays {ts : List Int} {s : State} (h : s.sdc.causeTemp = true ∨ anyAt ts 115 = false) (hk : s.sdc.causeTemp = false ∨ anyHot ts = true) :
    dieTemperature ts s = warns ts s.sdc.warned (noted ts s) := by
  have h1 : (anyAt ts 115 && !s.sdc.causeTemp) = false := by
    rcases h with h | h
    · rw [h, Bool.not_true, Bool.and_false]
    · rw [h, Bool.false_and]
  have hw : (warns ts s.sdc.warned (noted ts s)).sdc.causeTemp = s.sdc.causeTemp := by rw [(warns_warned ts s).sdc]
  have h2 : (s.sdc.causeTemp && !anyHot ts) = false := by
    rcases hk with h | h
    · rw [h, Bool.false_and]
    · rw [h, Bool.not_true, Bool.and_false]
  rw [dieTemperature_eq, h1, if_neg Bool.false_ne_true, judged, hw, h2, if_neg Bool.false_ne_true]

/-- A sample that ends the cause. -/
theorem dieTemperature_cools {ts : List Int} {s : State} (hc : s.sdc.causeTemp = true) (hk : anyHot ts = false) :
    dieTemperature ts s = cools (noted ts s) := by
  have h110 : anyAt ts 110 = false := eq_false_of_ne_true fun h => by rw [anyHot_of_anyAt (by decide) h] at hk; exact absurd hk.symm Bool.false_ne_true
  have h115 : anyAt ts 115 = false := eq_false_of_ne_true fun h => by rw [anyHot_of_anyAt (by decide) h] at hk; exact absurd hk.symm Bool.false_ne_true
  have hw : (warns ts s.sdc.warned (noted ts s)).sdc.causeTemp = s.sdc.causeTemp := by rw [(warns_warned ts s).sdc]
  rw [dieTemperature_eq, h115, Bool.false_and, if_neg Bool.false_ne_true, judged, hw, hc, hk, (warns_warned ts s).cold h110]
  rfl

/-- What every sample leaves. -/
theorem dieTemperature_only (ts : List Int) (s : State) : Only [.sdc, .shut, .ports, .emOn, .boot] s (dieTemperature ts s) ∧
    (dieTemperature ts s).sdc.hot = anyHot ts ∧
    (s.boot.inReset = false → s.sdc.warned = false → anyAt ts 110 = true → (dieTemperature ts s).ev.pend.getLsbD 248 = true) := by
  have hw := warns_warned ts s
  have hwo := hw.only.mono (G := [.sdc, .shut, .ports, .emOn, .boot]) (by decide)
  have hwh : (warns ts s.sdc.warned (noted ts s)).sdc.hot = anyHot ts := by rw [hw.sdc]
  cases hc : s.sdc.causeTemp
  · cases h : anyAt ts 115
    · rw [dieTemperature_stays (.inr h) (.inl hc)]
      exact ⟨hwo, hwh, hw.pend⟩
    · rw [dieTemperature_overheats hc h]
      obtain ⟨k1, -, -, k4, -⟩ := overheats_effect ts (warns ts s.sdc.warned (noted ts s))
      exact ⟨hwo.trans k1, k4.trans hwh, fun hr h1 h2 => k1.pend 248 (hw.pend hr h1 h2)⟩
  · cases hk : anyHot ts
    · rw [dieTemperature_cools hc hk]
      obtain ⟨k1, -, -, k4⟩ := cools_effect (noted ts s)
      have h1 : Only [.sdc] s (noted ts s) := modSdc_only ..
      have e1 : (noted ts s).sdc.hot = anyHot ts := by
        unfold noted
        rw [State.modSdc_sdc]
      have h2 : Only [.sdc] (noted ts s) (cools (noted ts s)) := by
        rw [k1]
        exact modSdc_only (noted ts s) fun _ => (cools (noted ts s)).sdc
      refine ⟨(h1.trans h2).mono (by decide), (k4.trans e1).trans hk, fun _ _ h => ?_⟩
      rw [anyHot_of_anyAt (by decide) h] at hk
      exact absurd hk.symm Bool.false_ne_true
    · rw [dieTemperature_stays (.inl hc) (.inr hk)]
      exact ⟨hwo, hwh.trans hk, hw.pend⟩

/-- The sample of R555, clause by clause. -/
theorem dieTemperature_effect (ts : List Int) (s : State) {t : State} (ht : dieTemperature ts s = t) :
    (t.sdc.hot = true ↔ ∃ x ∈ ts, 105 * 256 < x) ∧ t.settings = s.settings ∧ t.lanes = s.lanes ∧ t.time = s.time ∧
    (s.sdc.causeTemp = false → (∃ x ∈ ts, 115 * 256 ≤ x) → AllShut t ∧ t.sdc.causeTemp = true ∧
      (s.boot.inReset = false → t.ev.pend.getLsbD 204 = true ∧ t.ev.pend.getLsbD 201 = true ∧ t.ev.pend.getLsbD 248 = true)) ∧
    (s.sdc.causeTemp = true → (∀ x ∈ ts, x ≤ 105 * 256) → t = { s with sdc := t.sdc } ∧ t.sdc.causeTemp = false ∧ t.sdc.phase = s.sdc.phase) ∧
    (s.sdc.causeTemp = true → (∃ x ∈ ts, 105 * 256 < x) → t.sdc.causeTemp = true ∧ t.shut = s.shut ∧ t.ports = s.ports) ∧
    (s.sdc.causeTemp = false → (∀ x ∈ ts, x < 115 * 256) → t.sdc.causeTemp = false ∧ t.shut = s.shut ∧ t.ports = s.ports) ∧
    (s.sdc.warned = false → (∃ x ∈ ts, 110 * 256 ≤ x) → s.boot.inReset = false → t.ev.pend.getLsbD 248 = true) ∧
    (s.sdc.causeTemp = false → (∀ x ∈ ts, x < 110 * 256) → t = s.modSdc (fun c => { c with hot := t.sdc.hot, warned := false })) := by
  have hw := warns_warned ts s
  obtain ⟨k1, k2, k3⟩ := dieTemperature_only ts s
  rw [ht] at k1 k2 k3
  have stays : ∀ (b : Bool), s.sdc.causeTemp = b → dieTemperature ts s = warns ts s.sdc.warned (noted ts s) →
      t.sdc.causeTemp = b ∧ t.shut = s.shut ∧ t.ports = s.ports := by
    intro b hb he
    rw [← ht, he]
    exact ⟨by rw [hw.sdc]; exact hb, hw.only.shut, hw.only.ports⟩
  refine ⟨by rw [k2]; exact anyHot_iff, k1.settings, k1.lanes, k1.time, fun hc h => ?_, fun hc h => ?_, fun hc h => ?_, fun hc h => ?_, fun h1 h2 h3 => ?_,
    fun hc h => ?_⟩
  · obtain ⟨-, j2, j3, -, j5⟩ := overheats_effect ts (warns ts s.sdc.warned (noted ts s))
    rw [← ht, dieTemperature_overheats hc (anyAt_iff.2 h)]
    exact ⟨j2, j3, fun hr => j5 (hw.inReset.trans hr)⟩
  · obtain ⟨j1, j2, j3, -⟩ := cools_effect (noted ts s)
    rw [← ht, dieTemperature_cools hc (anyHot_false h)]
    exact ⟨j1, j2, j3⟩
  · exact stays true hc (dieTemperature_stays (.inl hc) (.inr (anyHot_iff.2 h)))
  · exact stays false hc (dieTemperature_stays (.inr (anyAt_false h)) (.inl hc))
  · exact k3 h3 h1 (anyAt_iff.2 h2)
  · have h110 : anyAt ts 110 = false := anyAt_false h
    have h115 : anyAt ts 115 = false := anyAt_false fun x hx => Int.lt_trans (h x hx) (by decide)
    have he : t = noted ts s := by rw [← ht, dieTemperature_stays (.inr h115) (.inl hc), hw.cold h110]
    have hn : noted ts s = s.modSdc fun c => { c with hot := anyHot ts, warned := false } := by
      unfold noted
      rw [h110]
    rw [k2]
    exact he.trans hn

/-- Settles O58: the first of the least items ages; pools, runs and drains empty at their instants; a die sample is judged by its hottest sensor. -/
theorem stagedWorkAgesAndIsDiscarded : Obligations.StagedWorkAgesAndIsDiscarded := by
  unfold Obligations.StagedWorkAgesAndIsDiscarded
  intro s
  refine ⟨?_, ?_, ?_, ?_, ?_, ?_, ?_, ?_, ?_, ?_, ?_, ?_, ?_⟩
  · exact fun hq hb hj ht => congrArg Host.Outcome.next (workItemAged_none (agingItems_none hq hb hj ht))
  · intro h
    obtain ⟨x, hx, hn, hmin, he⟩ := workItemAged_effect h
    exact ⟨_, congrArg Host.Outcome.next he, x, hx, hn, hmin, rfl⟩
  · intro it hm hc hall hq
    exact ⟨_, congrArg Host.Outcome.next (workItemAged_record hm hc hall hq), agedRecord_effect s it _ rfl⟩
  · exact fun z hf hv => congrArg Host.Outcome.next (overflow_idle (pooledFrame_none hf) (pooledVat_none hv))
  · intro z it hf hv
    refine ⟨_, congrArg Host.Outcome.next (overflow_frame hf (pooledVat_none hv)), ?_⟩
    generalize it.arrived + (s.zoneCfg z.val).zone z.val 0x170C * ms = x
    have hl := State.until_ladle s x
    have hz := State.until_zones s x
    have hs := State.until_settings s x
    have hp := State.until_ports s x
    have hg := State.until_engines s x
    generalize s.until x = u at hl hz hs hp hg ⊢
    have h1 : Only [] u (unqueue it u) := modStreams_only u fun x => { x with queue := x.queue.erase it }
    obtain ⟨k1, k2, k3, k4⟩ := poolLate_effect z.val it.record.bytes.length it.lost (unqueue it u)
    have hzr : (unqueue it u).zoneRt z.val = s.zoneRt z.val := by
      unfold State.zoneRt
      rw [h1.zones, hz]
    exact ⟨by rw [k2, h1.ladle, hl], k3, fun h => k4 (hzr ▸ h), k1.time.trans h1.time, (k1.settings.trans h1.settings).trans hs,
      (k1.ports.trans h1.ports).trans hp, (k1.engines.trans h1.engines).trans hg⟩
  · intro z n b hv
    refine ⟨_, congrArg Host.Outcome.next (overflow_vat hv), ?_⟩
    generalize b.arrived + (s.zoneCfg z.val).zone z.val 0x170C * ms = x
    have hl := State.untilDev_ladle s x
    have hz := State.untilDev_zones s x
    have hs := State.untilDev_settings s x
    have hp := State.untilDev_ports s x
    have hg := State.untilDev_engines s x
    generalize s.untilDev x = u at hl hz hs hp hg ⊢
    have h1 : Only [.engines] u (u.modEng n fun x => { x with input := x.input.erase b }) := modEng_only ..
    have e1 : (u.modEng n fun x => { x with input := x.input.erase b }).engines = s.engines.set n { s.engines[n] with input := s.engines[n].input.erase b } := by
      rw [State.modEng_engines, hg]
    generalize u.modEng n (fun x => { x with input := x.input.erase b }) = v at h1 e1 ⊢
    obtain ⟨k1, k2, k3, k4⟩ := poolLate_effect z.val b.bytes.length { product := 5, tFirst := b.arrived, tLast := b.arrived, seq := none, size := b.bytes.length } v
    have hzr : v.zoneRt z.val = s.zoneRt z.val := by
      unfold State.zoneRt
      rw [h1.zones, hz]
    refine ⟨by rw [k2, h1.ladle, hl], k3, ?_, fun h => k4 (hzr ▸ h), k1.time.trans h1.time, (k1.settings.trans h1.settings).trans hs,
      (k1.ports.trans h1.ports).trans hp, fun m hm => ?_⟩
    · rw [k1.engines, e1]
      exact congrArg Engine.input (Vector.getElem_set_self ..)
    · rw [k1.engines, e1]
      exact Vector.getElem_set_ne _ _ fun h => hm (Fin.ext h.symm)
  · exact fun z h => congrArg Host.Outcome.next (discardRunRecord_none h)
  · intro z r h hr
    obtain ⟨d, hd, hmin, he⟩ := discardRunRecord_effect h hr
    exact ⟨_, rfl, d, hd, hmin, runWritten_effect h d _ he⟩
  · intro z h
    refine congrArg Host.Outcome.next ?_
    unfold drainHostTimeout
    dsimp only
    rw [h]
  · exact fun z d h => ⟨_, rfl, drainHostTimeout_effect h⟩
  · intro c
    obtain ⟨k1, k2⟩ := caveError_only c s
    exact ⟨_, rfl, fun h => caveError_pend h c, k1.settings, k1.ports, k1.time, k1.press, k2⟩
  · exact fun b => ⟨_, rfl, caveCorrectedError_effect b s⟩
  · exact fun ts => ⟨_, rfl, dieTemperature_effect ts s rfl⟩

end Sys2Proof.Proofs

/-! SUPPORT. A commit that changes the time source while the time receiver follows a transmitter (R458, R516). -/

namespace Sys2Proof.Proofs
open Sys2Proof Sys2Proof.Machine Sys2Proof.Claims

/-- The time source. -/
def sourceKey : SetKey := { kind := .device, inst := 0, sub := 0, code := 0x1B01 }

/-- A fixed commit that sets the time source to PTP and touches port 0. -/
def sourceCommit : Commit := {
  owner := none, target := State.reset.settings.put sourceKey [2], keys := [sourceKey], removes := [], placement := State.reset.ladle.place, fixed := true
  moved := false, a1 := 0, tC := 0, tLast := 0, restarted := [], touched := [0], deviceDone := false }

/-- The commit waits for its device-wide boundary, and the time receiver follows. -/
def sourceWaits : State :=
  { State.reset with boot := { State.reset.boot with inReset := false }, commits := [sourceCommit], time := { State.reset.time with receiving := true } }

/-- At the boundary the receiver stops following. -/
theorem sourceWaits_unfollows : (sourceWaits.commitAt none).pump.time.receiving = false ∧ (sourceWaits.until sourceCommit.tC).time.receiving = true := by
  decide +kernel

/-- Refutes O57: the device-wide boundary of a commit that changes the time source stops the time receiver, whose state stands with the clocks of the
time unit, so that time is not what it was at T_C. -/
theorem not_ladleMovesWork : ¬Obligations.LadleMovesWork := by
  unfold Obligations.LadleMovesWork
  intro h
  obtain ⟨-, -, -, -, -, -, -, -, -, -, -, -, hc⟩ := h sourceWaits
  obtain ⟨-, hdev, -⟩ := hc (by unfold NoneWaits; decide +kernel)
  obtain ⟨t, ht, -, htime, -⟩ := hdev sourceCommit [] rfl rfl rfl (by decide)
  have he : (sourceWaits.commitAt none).pump = t := Host.Outcome.next.inj ht
  obtain ⟨h1, h0⟩ := sourceWaits_unfollows
  rw [he, htime, h0] at h1
  exact absurd h1 (by decide)

end Sys2Proof.Proofs

/-! O54: pace windows and the input buffer (R17 to R22). -/

namespace Sys2Proof.Proofs
open Sys2Proof Sys2Proof.Machine Sys2Proof.Claims

theorem raiseN_pend {s : State} (hb : s.boot.inReset = false) {n : Nat} (e : EvIx) (h : e.val = n) : (s.raiseN n).ev.pend.getLsbD e.val = true := by
  subst h
  unfold State.raiseN
  rw [ix_of_lt e.isLt]
  exact raise_pend s _ e hb (.inl rfl)

/-! ### Pace (R17 to R19) -/

/-- COUNT, MARGIN and VALID of a pace window. -/
def paceFields (w : Word) (count margin : Nat) : Word := setBit (setFld (setFld w 0 16 (min count 65535)) 16 8 (min margin 255)) 25

/-- What a pace window writes in its register. -/
def paceWord (w : Word) (count margin : Nat) : Word :=
  if decide (margin < 64) then setBit (paceFields w count margin) 24 else paceFields w count margin

theorem paceWord_fields (w : Word) (count margin : Nat) : fld (paceWord w count margin) 0 16 = min count 65535 ∧
    fld (paceWord w count margin) 16 8 = min margin 255 ∧ bit (paceWord w count margin) 25 = true ∧
    bit (paceWord w count margin) 24 = (decide (margin < 64) || bit w 24) := by
  have h0 : fld (paceFields w count margin) 0 16 = min count 65535 := by
    unfold paceFields
    rw [fld_setBit _ (by omega), fld_setFld_apart _ _ (by omega) (by omega), fld_setFld _ _ (by omega), Nat.mod_eq_of_lt (by omega)]
  have h1 : fld (paceFields w count margin) 16 8 = min margin 255 := by
    unfold paceFields
    rw [fld_setBit _ (by omega), fld_setFld _ _ (by omega), Nat.mod_eq_of_lt (by omega)]
  have h2 : bit (paceFields w count margin) 24 = bit w 24 := by
    unfold paceFields
    rw [bit_setBit_ne _ (by omega), bit_setFld _ _ (by omega), if_neg (by omega), bit_setFld _ _ (by omega), if_neg (by omega)]
  have h3 : bit (paceFields w count margin) 25 = true := bit_setBit_self _ (by omega)
  unfold paceWord
  generalize paceFields w count margin = v at h0 h1 h2 h3
  split
  · next hm =>
    rw [hm, Bool.true_or]
    exact ⟨by rw [fld_setBit _ (by omega)]; exact h0, by rw [fld_setBit _ (by omega)]; exact h1, by rw [bit_setBit_ne _ (by omega)]; exact h3,
      bit_setBit_self _ (by omega)⟩
  · next hm =>
    rw [eq_false_of_ne_true hm, Bool.false_or]
    exact ⟨h0, h1, h3, h2⟩

/-- The window's register is written and its drift is kept. -/
structure Paced (n : Fin 96) (count margin : Nat) (s u : State) : Prop where
  only : Only [.clk, .ladle] s u
  clk : u.clk = { s.clk with pace := s.clk.pace.set n (paceWord s.clk.pace[n] count margin) }
  ladle : u.ladle = { s.ladle with drift := u.ladle.drift }

theorem paceWindowEnd_live {n : Fin 96} {count margin : Nat} {s : State} (hn : n.val < 94) (hr : s.clk.paceRamp[n] = false) :
    ∃ u, Paced n count margin s u ∧ paceWindowEnd n count margin s = if decide (margin < 64) && !bit s.clk.pace[n] 24 then
      (u.faultLog 1 249 n.val (BitVec.ofNat 32 margin)).raise 249 else u := by
  have hd : ∀ (u : State) (i : Fin 94) (d : Int), Only [.ladle] u (u.modLadle fun l => { l with drift := l.drift.set i (l.drift[i] ++ [d]) }) := fun u i d =>
    modLadle_only ..
  unfold paceWindowEnd
  rw [if_neg (by omega), if_neg (by rw [hr]; exact Bool.false_ne_true)]
  dsimp only
  refine ⟨_, ?_, rfl⟩
  have h1 : Only [.clk] s (s.modClk fun c => { c with pace := c.pace.set n (paceWord s.clk.pace[n] count margin) }) := modClk_only ..
  have e1 : (s.modClk fun c => { c with pace := c.pace.set n (paceWord s.clk.pace[n] count margin) }).clk =
      { s.clk with pace := s.clk.pace.set n (paceWord s.clk.pace[n] count margin) } := State.modClk_clk ..
  have hw : Paced n count margin s (s.modClk fun c => { c with pace := c.pace.set n (paceWord s.clk.pace[n] count margin) }) :=
    ⟨h1.mono (by decide), e1, by rw [State.modClk_ladle]⟩
  have hl : ∀ (i : Fin 94) (d : Int), Paced n count margin s ((s.modClk fun c => { c with pace := c.pace.set n (paceWord s.clk.pace[n] count margin) }).modLadle
      fun l => { l with drift := l.drift.set i (l.drift[i] ++ [d]) }) := fun i d => by
    have h2 := hd (s.modClk fun c => { c with pace := c.pace.set n (paceWord s.clk.pace[n] count margin) }) i d
    exact ⟨(h1.mono (by decide)).trans (h2.mono (by decide)), h2.clk.trans e1, by rw [State.modLadle_ladle, State.modClk_ladle]⟩
  split
  · split
    · exact hl _ _
    · exact hw
  · exact hw

theorem paceWindowEnd_effect {n : Fin 96} (count margin : Nat) {s : State} (hn : n.val < 94) (hr : s.clk.paceRamp[n] = false) {t : State}
    (ht : paceWindowEnd n count margin s = t) :
    SameWork { s with clk := t.clk, ladle := t.ladle, boot := t.boot } t ∧ t.clk = { s.clk with pace := t.clk.pace } ∧
    t.ladle = { s.ladle with drift := t.ladle.drift } ∧ (margin ≥ 64 → t.boot = s.boot) ∧
    fld t.clk.pace[n] 0 16 = min count 65535 ∧ fld t.clk.pace[n] 16 8 = min margin 255 ∧ bit t.clk.pace[n] 25 = true ∧
    bit t.clk.pace[n] 24 = (decide (margin < 64) || bit s.clk.pace[n] 24) ∧ (∀ m : Fin 96, m ≠ n → t.clk.pace[m] = s.clk.pace[m]) ∧
    (s.boot.inReset = false → margin < 64 → bit s.clk.pace[n] 24 = false → t.ev.pend.getLsbD 249 = true ∧ t.ev.pend.getLsbD 248 = true) := by
  obtain ⟨u, hu, he⟩ := paceWindowEnd_live (count := count) (margin := margin) hn hr
  have hf : Only [.boot] u ((u.faultLog 1 249 n.val (BitVec.ofNat 32 margin)).raise 249) := (faultLog_only ..).trans (raise_only ..)
  have hb : u.boot = s.boot := hu.only.boot
  have key : Only [.boot] u t ∧ (margin ≥ 64 → t.boot = s.boot) ∧ (s.boot.inReset = false → margin < 64 → bit s.clk.pace[n] 24 = false →
      t.ev.pend.getLsbD 249 = true ∧ t.ev.pend.getLsbD 248 = true) := by
    rw [← ht, he]
    by_cases hc : (decide (margin < 64) && !bit s.clk.pace[n] 24) = true
    · rw [if_pos hc]
      rw [Bool.and_eq_true, decide_eq_true_eq] at hc
      refine ⟨hf, fun hm => absurd hc.1 (Nat.not_lt.2 hm), fun hr _ _ => ?_⟩
      have hr' : u.boot.inReset = false := by rw [hb]; exact hr
      obtain ⟨k1, k2⟩ := raise_after (s := u.faultLog 1 249 n.val (BitVec.ofNat 32 margin)) ((faultLog_inReset ..).trans hr') 249
      exact ⟨k2, Only.pend (F := []) (raise_only _ 249) 248 (faultLog_effect hr' ..).1⟩
    · rw [if_neg hc]
      refine ⟨.refl .., fun _ => hb, fun _ h1 h2 => absurd ?_ hc⟩
      rw [h2, decide_eq_true h1]
      rfl
  obtain ⟨k1, k2, k3⟩ := key
  have hclk : t.clk = { s.clk with pace := s.clk.pace.set n (paceWord s.clk.pace[n] count margin) } := k1.clk.trans hu.clk
  have hlad : t.ladle = u.ladle := k1.ladle
  have hp : t.clk.pace = s.clk.pace.set n (paceWord s.clk.pace[n] count margin) := by rw [hclk]
  have hpn : t.clk.pace[n] = paceWord s.clk.pace[n] count margin := by
    rw [hp]
    exact Vector.getElem_set_self ..
  obtain ⟨f1, f2, f3, f4⟩ := paceWord_fields s.clk.pace[n] count margin
  refine ⟨sameWork_of_only ((hu.only.mono (G := [.clk, .ladle, .boot]) (by decide)).trans (k1.mono (by decide))), by rw [hp]; exact hclk, by rw [hlad]; exact hu.ladle,
    k2, hpn ▸ f1, hpn ▸ f2, hpn ▸ f3, hpn ▸ f4, fun m hm => ?_, k3⟩
  rw [hp]
  exact Vector.getElem_set_ne _ _ fun h => hm (Fin.ext h.symm)

/-! ### The input buffer (R21, R22) -/

theorem modPipe_self (s : State) (n : PipeIx) (f : Pipe → Pipe) : (s.modPipe n f).pipes[n] = f s.pipes[n] := Vector.getElem_set_self ..
theorem modPipe_other (s : State) {n m : PipeIx} (h : m ≠ n) (f : Pipe → Pipe) : (s.modPipe n f).pipes[m] = s.pipes[m] :=
  Vector.getElem_set_ne n.isLt m.isLt fun hm => h (Fin.ext hm.symm)

theorem onPort_eq (s : State) (p : PortIx) (f : Port → Port) : s.onPort p.val f = s.modPort p f := by
  unfold State.onPort
  rw [ix_of_lt p.isLt]

/-- A drop interval begins at a port. -/
def dropsFrom (dev mono : Time) (q : Port) : Port :=
  { q with droppedFrom := some dev, drops := openSpan mono { tag := 3, pos := none, since := mono, till := none } q.drops }

theorem inputBufferFull_begins {n : PipeIx} {s : State} {p : PortIx} (hc : bit s.pipes[n].src 5 = true) (hd : s.pipes[n].dropping = false)
    (hp : fld s.pipes[n].src 0 5 = p.val) : inputBufferFull n s = (((s.modPipe n fun x => { x with dropping := true }).modPort p
      (dropsFrom s.time.dev s.time.mono)).modPort p fun q => { q with stat := setBit q.stat 0 }).raiseN (96 + p.val) := by
  unfold inputBufferFull
  rw [if_neg (by rw [hc, hd]; exact Bool.false_ne_true), hp]
  dsimp only
  rw [ix_of_lt p.isLt, onPort_eq]
  rfl

theorem inputBufferFull_effect {n : PipeIx} {s : State} {p : PortIx} (hc : bit s.pipes[n].src 5 = true) (hd : s.pipes[n].dropping = false)
    (hp : fld s.pipes[n].src 0 5 = p.val) {t : State} (ht : inputBufferFull n s = t) :
    SameWork { s with pipes := t.pipes, ports := t.ports } t ∧ t.pipes[n].dropping = true ∧
    t.ports[p] = { s.ports[p] with stat := setBit s.ports[p].stat 0, droppedFrom := some s.time.dev, drops := t.ports[p].drops } ∧
    (∃ d ∈ t.ports[p].drops, d.since = s.time.mono ∧ d.till = none) ∧
    (∀ r : PortIx, r ≠ p → t.ports[r] = s.ports[r]) ∧ (∀ m : PipeIx, m ≠ n → t.pipes[m] = s.pipes[m]) ∧
    (∀ e : EvIx, e.val = 96 + p.val → s.boot.inReset = false → t.ev.pend.getLsbD e.val = true) := by
  rw [inputBufferFull_begins hc hd hp] at ht
  have h1 : Only [.pipes] s (s.modPipe n fun x => { x with dropping := true }) := modPipe_only ..
  have e1 := modPipe_self s n fun x => { x with dropping := true }
  have o1 : ∀ m : PipeIx, m ≠ n → (s.modPipe n fun x => { x with dropping := true }).pipes[m] = s.pipes[m] := fun m hm => modPipe_other s hm _
  generalize s.modPipe n (fun x => { x with dropping := true }) = u at ht h1 e1 o1
  have h2 : Only [.ports] u ((u.modPort p (dropsFrom s.time.dev s.time.mono)).modPort p fun q => { q with stat := setBit q.stat 0 }) :=
    (modPort_only ..).trans (modPort_only ..)
  have e2 : ((u.modPort p (dropsFrom s.time.dev s.time.mono)).modPort p fun q => { q with stat := setBit q.stat 0 }).ports[p] =
      { dropsFrom s.time.dev s.time.mono s.ports[p] with stat := setBit s.ports[p].stat 0 } := by
    rw [modPort_modPort, modPort_at, if_pos rfl, h1.port p]
    rfl
  have o2 : ∀ r : PortIx, r ≠ p → ((u.modPort p (dropsFrom s.time.dev s.time.mono)).modPort p fun q => { q with stat := setBit q.stat 0 }).ports[r] = s.ports[r] := by
    intro r hr
    rw [modPort_at, if_neg hr, modPort_at, if_neg hr, h1.port r]
  generalize (u.modPort p (dropsFrom s.time.dev s.time.mono)).modPort p (fun q => { q with stat := setBit q.stat 0 }) = v at ht h2 e2 o2
  have h3 : Only [] v t := ht ▸ raiseN_only v (96 + p.val)
  have hd' : t.ports[p] = { dropsFrom s.time.dev s.time.mono s.ports[p] with stat := setBit s.ports[p].stat 0 } := (h3.port p).trans e2
  refine ⟨sameWork_of_only (((h1.mono (G := [.pipes, .ports]) (by decide)).trans (h2.mono (by decide))).trans (h3.mono (by decide))), ?_, ?_, ?_,
    fun r hr => (h3.port r).trans (o2 r hr), fun m hm => ?_, fun e he hr => ?_⟩
  · rw [h3.pipes, h2.pipes, e1]
  · rw [hd']
    rfl
  · rw [hd']
    exact ⟨_, mem_openSpan .., rfl, rfl⟩
  · rw [h3.pipes, h2.pipes, o1 m hm]
  · rw [← ht]
    exact raiseN_pend (h2.inReset.trans (h1.inReset.trans hr)) e he

/-- A drop interval ends at a port. -/
def dropsTill (len : Time) (q : Port) : Port :=
  { q with droppedFrom := none, drops := q.drops.map fun x => if x.till.isNone then { x with till := some (x.since + len) } else x }

theorem dropsTill_closed (len : Time) (q : Port) : ∀ d ∈ (dropsTill len q).drops, d.till ≠ none := by
  intro d hd
  obtain ⟨x, -, rfl⟩ := List.mem_map.1 hd
  split
  · exact Option.some_ne_none _
  · next h => exact fun hn => h (by rw [hn]; rfl)

theorem wheys_effect (zs : List Nat) (w : Whey) (s : State) : Only [] s (forEach zs (fun z u => u.whey (zoneStream z) (some z) w) s) ∧
    wheyNext (forEach zs (fun z u => u.whey (zoneStream z) (some z) w) s) = wheyNext s + BitVec.ofNat 32 zs.length := by
  refine ⟨.forEach (fun _ _ => whey_only ..) _ _, ?_⟩
  unfold forEach
  induction zs generalizing s with
  | nil => exact (BitVec.add_zero _).symm
  | cons z zs ih =>
    rw [List.foldl_cons, ih, List.length_cons]
    have h1 : wheyNext (s.whey (zoneStream z) (some z) w) = wheyNext s + 1 := push_wheyNext ..
    rw [h1, BitVec.add_assoc, Nat.add_comm, BitVec.ofNat_add]
    rfl

theorem inputResume_ends {n : PipeIx} {k : Nat} {s : State} (h : s.pipes[n].dropping = true) : ∃ w len, inputResume n k s =
    forEach (zonesOf s.settings (fld s.pipes[n].src 0 5)) (fun z u => u.whey (zoneStream z) (some z) w)
      ((s.modPipe n fun x => { x with dropping := false }).onPort (fld s.pipes[n].src 0 5) (dropsTill len)) := by
  unfold inputResume
  rw [if_neg (by rw [h]; exact Bool.false_ne_true)]
  exact ⟨_, _, rfl⟩

theorem inputResume_effect {n : PipeIx} {k : Nat} {s : State} (h : s.pipes[n].dropping = true) {t : State} (ht : inputResume n k s = t) :
    SameWork { s with pipes := t.pipes, ports := t.ports } t ∧
    t.pipes[n] = { s.pipes[n] with dropping := false } ∧ (∀ m : PipeIx, m ≠ n → t.pipes[m] = s.pipes[m]) ∧
    (∀ p : PortIx, p.val = fld s.pipes[n].src 0 5 → t.ports[p] = { s.ports[p] with droppedFrom := none, drops := t.ports[p].drops } ∧
      ∀ d ∈ t.ports[p].drops, d.till ≠ none) ∧
    (∀ r : PortIx, r.val ≠ fld s.pipes[n].src 0 5 → t.ports[r] = s.ports[r]) ∧
    t.streams.wheySeq = s.streams.wheySeq + BitVec.ofNat 32 (zonesOf s.settings (fld s.pipes[n].src 0 5)).length := by
  obtain ⟨w, len, he⟩ := inputResume_ends (k := k) h
  rw [he] at ht
  generalize fld s.pipes[n].src 0 5 = pv at ht ⊢
  have h1 : Only [.pipes] s (s.modPipe n fun x => { x with dropping := false }) := modPipe_only ..
  have e1 := modPipe_self s n fun x => { x with dropping := false }
  have o1 : ∀ m : PipeIx, m ≠ n → (s.modPipe n fun x => { x with dropping := false }).pipes[m] = s.pipes[m] := fun m hm => modPipe_other s hm _
  have w1 : wheyNext (s.modPipe n fun x => { x with dropping := false }) = wheyNext s := rfl
  generalize s.modPipe n (fun x => { x with dropping := false }) = u at ht h1 e1 o1 w1
  have h2 : Only [.ports] u (u.onPort pv (dropsTill len)) := onPort_only ..
  have e2 : ∀ p : PortIx, p.val = pv → (u.onPort pv (dropsTill len)).ports[p] = dropsTill len s.ports[p] := by
    rintro p rfl
    rw [onPort_eq, modPort_at, if_pos rfl, h1.port p]
  have o2 : ∀ r : PortIx, r.val ≠ pv → (u.onPort pv (dropsTill len)).ports[r] = s.ports[r] := by
    intro r hr
    rw [← h1.port r]
    unfold State.onPort
    split
    · next i hi =>
      unfold ix at hi
      split at hi
      · obtain rfl := Option.some.inj hi
        rw [modPort_at, if_neg fun h => hr (congrArg Fin.val h)]
      · exact absurd hi (Option.some_ne_none _).symm
    · rfl
  have w2 : wheyNext (u.onPort pv (dropsTill len)) = wheyNext u := by
    unfold State.onPort
    split <;> rfl
  generalize u.onPort pv (dropsTill len) = v at ht h2 e2 o2 w2
  obtain ⟨h3, w3⟩ := wheys_effect (zonesOf s.settings pv) w v
  rw [ht] at h3 w3
  refine ⟨sameWork_of_only (((h1.mono (G := [.pipes, .ports]) (by decide)).trans (h2.mono (by decide))).trans (h3.mono (by decide))), ?_, fun m hm => ?_,
    fun p hp => ?_, fun r hr => (h3.port r).trans (o2 r hr), w3.trans (by rw [w2, w1]; rfl)⟩
  · rw [h3.pipes, h2.pipes, e1]
  · rw [h3.pipes, h2.pipes, o1 m hm]
  · rw [h3.port p, e2 p hp]
    exact ⟨rfl, dropsTill_closed len _⟩

end Sys2Proof.Proofs

/-! O54: a frame boundary (R42, R60 to R62, R98, R128, R198). -/

namespace Sys2Proof.Proofs
open Sys2Proof Sys2Proof.Machine Sys2Proof.Claims

/-! ### What passes with time, and small footprints -/

theorem elapse_only (s : State) (d : Nat) : Only [.time, .rind, .aon] s (s.elapse d) := by
  refine ⟨fun p hp => ?_, fun _ h => h, fun _ h => h, fun _ _ _ h => h⟩
  cases p <;> first | rfl | exact SameSess.of_eq rfl | simp at hp

theorem until_only (s : State) (x : Time) : Only [.time, .rind, .aon] s (s.until x) := elapse_only ..

theorem lanes_only (s : State) (ls : Vector Lane 96) : Only [.lanes] s { s with lanes := ls } :=
  only_part .lanes fun p hp => by cases p <;> first | rfl | exact absurd rfl hp | exact SameSess.of_eq rfl
theorem modAon_only (s : State) (f : Aon → Aon) : Only [.aon] s (s.modAon f) :=
  only_part .aon fun p hp => by cases p <;> first | rfl | exact absurd rfl hp | exact SameSess.of_eq rfl
theorem driveInhibit_only (s : State) : Only [.rind] s s.driveInhibit := modRind_only ..
theorem onPipe_only (s : State) (n : Nat) (f : Pipe → Pipe) : Only [.pipes] s (s.onPipe n f) := by
  unfold State.onPipe
  split
  · exact modPipe_only ..
  · exact .refl ..

/-- What leaving RUN may change (R543, R544, R547). -/
abbrev powerParts : List Part := [.time, .rind, .aon, .boot, .clk, .lanes] ++ zoneParts

theorem settlePower_stays {s : State} (h : s.leaving = false) : s.settlePower = s := if_pos (by rw [h]; rfl)

/-- In IDLE and below the loops and lanes go off. -/
def loopsOff (st : Nat) (s : State) : State := if st = 1 then s else
  { s.modClk (fun c => { c with stat := clrBit (clrBit c.stat 5) 6 }) with
    lanes := s.lanes.map fun l => { l with powered := false, starting := false, recovering := none } }

/-- For DEEP_STANDBY the boot record closes and the supplies go. -/
def standsBy (st : Nat) (s : State) : State :=
  if st ≠ 3 then s
  else
    let closed := fun (j : List BootRec) => match j with | r :: rs => { r with result := 3 } :: rs | [] => []
    let s4 := (s.until (s.boot.standbyAt + 3 * ms)).modBoot fun b => { b with journal := closed b.journal }
    (s4.until (s4.boot.standbyAt + 10 * ms)).modAon fun a => { a with pwrEnMain := false, pwrEnRind := false }

theorem settlePower_eq (s : State) : s.settlePower =
    if !s.leaving || (List.finRange 24).any (fun p => s.ports[p].frameStart.isSome || !s.ports[p].pings.isEmpty) then s
    else standsBy (fld s.boot.pwrStat 0 2) (loopsOff (fld s.boot.pwrStat 0 2)
      (((s.zones.foldl (fun u r => u.closeAll r.id true) s).modBoot fun b => { b with pwrStat := clrBit b.pwrStat 2 }).driveInhibit)) := rfl

theorem loopsOff_only (st : Nat) (s : State) : Only [.clk, .lanes] s (loopsOff st s) :=
  .ite (fun _ => .refl ..) fun _ => ((modClk_only ..).mono (by decide)).trans ((lanes_only ..).mono (by decide))

theorem standsBy_only (st : Nat) (s : State) : Only [.time, .rind, .aon, .boot] s (standsBy st s) := by
  have hu : ∀ (u : State) (x : Time), Only [.time, .rind, .aon, .boot] u (u.until x) := fun u x => (until_only u x).mono (by decide)
  refine .ite (fun _ => .refl ..) fun _ => ?_
  exact (((hu _ _).trans ((modBoot_only ..).mono (by decide))).trans (hu _ _)).trans ((modAon_only ..).mono (by decide))

theorem settlePower_only (s : State) : Only powerParts s s.settlePower := by
  rw [settlePower_eq]
  refine .ite (fun _ => .refl ..) fun _ => ?_
  have h1 : Only powerParts s (s.zones.foldl (fun u r => u.closeAll r.id true) s) := .foldl (fun u (r : ZoneRt) => (closeAll_only u r.id true).mono (by decide)) _ _
  have h2 := (h1.trans ((modBoot_only _ fun b => { b with pwrStat := clrBit b.pwrStat 2 }).mono (by decide))).trans ((driveInhibit_only _).mono (by decide))
  exact (h2.trans ((loopsOff_only ..).mono (by decide))).trans ((standsBy_only ..).mono (by decide))

theorem openShadow_only (s : State) (p : PortIx) : Only [.pipes, .ladle] s (s.openShadow p) := by
  unfold State.openShadow
  split
  · exact .refl ..
  · split
    · exact .refl ..
    · split
      · split
        · exact .refl ..
        · exact (((onPipe_only ..).trans (onPipe_only ..)).mono (by decide)).trans ((modLadle_only ..).mono (by decide))
      · exact .refl ..

theorem calBoundary_frame (q : Port) (w : Pair) : q.calBoundary w = { q with
    rxcStat := (q.calBoundary w).rxcStat, calX := (q.calBoundary w).calX, calY := (q.calBoundary w).calY } := by
  unfold Port.calBoundary
  dsimp only
  split
  · cases w <;> rfl
  · split <;> cases w <;> rfl

/-! ### The port at its boundary -/

/-- The port as the frame ends: `connect`, `lock`, whether it resumes with a pipeline or in lock, `stop`, whether no frame begins at `at'`. -/
def nextFrame (connect lock stop shut : Bool) (at' : Time) (q : Port) : Port :=
  let q1 := if q.resumePending then q.leaveReduction else q
  let q2 := if connect then { q1 with holdGate := false, epochPending := true } else q1
  let q3 := if lock then { q2 with lockResume := false, epochPending := true } else q2
  { q3 with
    frameStart := if stop then none else some at'
    frameNo := q.frameNo + 1
    redFrames := if bit q1.stat 7 then q.redFrames + 1 else 0
    reopen := false
    dark := if q.dark = .armed ∧ !stop then .closed else if q.dark = .closed then .ended else if q.dark = .measured then .none else q.dark
    spans := if lock then closeSpans at' 3 q.spans else q.spans
    calSkip := bit q1.stat 7 || shut || (q.dark = .armed && !stop) }

/-- What stands of the port at the end of its frame. -/
structure FrameEnds (lock stop : Bool) (at' : Time) (q t : Port) : Prop where
  frameStart : t.frameStart = if stop then none else some at'
  frameNo : t.frameNo = q.frameNo + 1
  reopen : t.reopen = false
  stat : t.stat = if q.resumePending then clrBit (clrBit q.stat 7) 1 else q.stat
  epoch : q.epochPending = true ∨ q.resumePending = true → t.epochPending = true
  lock : lock = true ∨ q.lockResume = false → t.lockResume = false
  armed : q.dark = .armed → stop = false → t.dark = .closed
  closed : q.dark = .closed → t.dark = .ended
  measured : q.dark = .measured → t.dark = .none

theorem nextFrame_ends (connect lock stop shut : Bool) (at' : Time) (q : Port) : FrameEnds lock stop at' q (nextFrame connect lock stop shut at' q) := by
  have hst : (nextFrame connect lock stop shut at' q).stat = if q.resumePending then clrBit (clrBit q.stat 7) 1 else q.stat := by
    unfold nextFrame
    dsimp only
    cases lock <;> cases connect <;> cases q.resumePending <;> rfl
  have hep : q.epochPending = true ∨ q.resumePending = true → (nextFrame connect lock stop shut at' q).epochPending = true := by
    intro h
    unfold nextFrame
    dsimp only
    cases lock
    · cases connect
      · cases hr : q.resumePending
        · exact h.resolve_right (by rw [hr]; exact Bool.false_ne_true)
        · rfl
      · rfl
    · rfl
  have hlk : lock = true ∨ q.lockResume = false → (nextFrame connect lock stop shut at' q).lockResume = false := by
    intro h
    unfold nextFrame
    dsimp only
    cases lock
    · have hq := h.resolve_left Bool.false_ne_true
      cases connect <;> cases q.resumePending <;> exact hq
    · rfl
  refine ⟨rfl, rfl, rfl, hst, hep, hlk, fun h hs => ?_, fun h => ?_, fun h => ?_⟩
  · exact if_pos ⟨h, by rw [hs]; rfl⟩
  · unfold nextFrame
    dsimp only
    rw [h]
    exact (if_neg fun hc => nomatch hc.1).trans (if_pos rfl)
  · unfold nextFrame
    dsimp only
    rw [h]
    exact ((if_neg fun hc => nomatch hc.1).trans (if_neg nofun)).trans (if_pos rfl)

/-! ### The boundary -/

/-- What the end of a frame leaves pending is done: an epoch, or a synchronising reset. -/
def boundaryWork (p : PortIx) (named : Bool) (u : State) : State :=
  if u.ports[p].epochPending then u.beginEpoch p
  else if u.ports[p].resetPending || named then u.atBoundary p { old := u.settings, inst := u.time.dev, reset := u.ports[p].resetPending, ring := false }
  else u

theorem boundaryWork_effect (p : PortIx) (named : Bool) (u : State) : Only epochParts u (boundaryWork p named u) ∧
    (boundaryWork p named u).ports[p] = { (if u.ports[p].epochPending then u.ports[p].newEpoch else u.ports[p]) with
      delay := (boundaryWork p named u).ports[p].delay, pings := (boundaryWork p named u).ports[p].pings, later := (boundaryWork p named u).ports[p].later } := by
  unfold boundaryWork
  by_cases he : u.ports[p].epochPending = true
  · rw [if_pos he, if_pos he]
    have k := beginEpoch_effect u p
    exact ⟨k.only, k.port⟩
  · rw [if_neg he, if_neg he]
    split
    · obtain ⟨k1, -, k3⟩ := atBoundary_effect u p { old := u.settings, inst := u.time.dev, reset := u.ports[p].resetPending, ring := false }
      refine ⟨k1.mono (by decide), ?_⟩
      generalize u.atBoundary p _ = v at k3 ⊢
      rw [k3]
    · exact ⟨.refl .., rfl⟩

/-- After the work, the calibrators take the boundary. -/
def boundaryDone (q : Port) : Port := ({ q with epochPending := false, resetPending := false }.calBoundary .x).calBoundary .y

theorem boundaryDone_frame (q : Port) : boundaryDone q = { q with
    epochPending := false, resetPending := false, rxcStat := (boundaryDone q).rxcStat, calX := (boundaryDone q).calX, calY := (boundaryDone q).calY } := by
  unfold boundaryDone
  rw [calBoundary_frame, calBoundary_frame]

/-- A frame ends in a state `s`, whose clocks stand at the boundary. -/
def frameEndsAt (p : PortIx) (q0 : Port) (at' : Time) (s : State) : State :=
  let stop := s.heldForCommit p at' || s.leaving
  let connect := q0.holdGate && (s.ladle.place.pipe? p.val).isSome && decide (q0.connectAt ≤ at')
  let lock := q0.lockResume && bit s.clk.stat 5
  let s1 := s.modPort p (nextFrame connect lock stop (s.groupShut (portGroup s.settings p.val)) at')
  let s1 := match s.ladle.place.pipe? p.val with
    | some n => if connect then s1.onPipe n fun x => { x with src := setFld (setBit x.src 5) 0 5 p.val } else s1
    | none => s1
  let named := (zonesOf s1.settings p.val).any fun z => match s1.zoneRt z with | some r => r.resetPending | none => false
  ((((boundaryWork p named s1).modPort p boundaryDone).openShadow p).driveInhibit).settlePower

theorem frameBoundary_eq (p : PortIx) (s : State) : frameBoundary p s = match s.ports[p].frameStart, s.ports[p].frozen with
    | some f, false => frameEndsAt p s.ports[p] (f + frameTime s.ports[p].plan p.val) (s.until (f + frameTime s.ports[p].plan p.val))
    | _, _ => s := rfl

theorem frameBoundary_running {p : PortIx} {s : State} {f : Time} (hf : s.ports[p].frameStart = some f) (hz : s.ports[p].frozen = false) :
    frameBoundary p s = frameEndsAt p s.ports[p] (f + frameTime s.ports[p].plan p.val) (s.until (f + frameTime s.ports[p].plan p.val)) := by
  rw [frameBoundary_eq, hf, hz]

/-- What the end of a frame leaves, in a state at its instant. -/
structure BoundaryDone (p : PortIx) (at' : Time) (s t : State) : Prop where
  settings : t.settings = s.settings
  shut : t.shut = s.shut
  stays : s.leaving = false → t.time = s.time ∧ t.lanes = s.lanes
  port : ∃ q, FrameEnds (s.ports[p].lockResume && bit s.clk.stat 5) (s.heldForCommit p at' || s.leaving) at' s.ports[p] q ∧
    t.ports[p].frameStart = q.frameStart ∧ t.ports[p].frameNo = q.frameNo ∧ t.ports[p].reopen = q.reopen ∧ t.ports[p].lockResume = q.lockResume ∧
    t.ports[p].dark = q.dark ∧ t.ports[p].epochPending = false ∧ t.ports[p].stat = if q.epochPending then q.newEpoch.stat else q.stat

theorem frameEndsAt_done (p : PortIx) (at' : Time) (s : State) : BoundaryDone p at' s (frameEndsAt p s.ports[p] at' s) := by
  unfold frameEndsAt
  dsimp only
  generalize hq : nextFrame _ _ _ _ at' = g
  have hg : FrameEnds (s.ports[p].lockResume && bit s.clk.stat 5) (s.heldForCommit p at' || s.leaving) at' s.ports[p] (g s.ports[p]) := by
    rw [← hq]
    exact nextFrame_ends ..
  have h1 : Only [.ports] s (s.modPort p g) := modPort_only ..
  have e1 : (s.modPort p g).ports[p] = g s.ports[p] := by rw [modPort_at, if_pos rfl]
  generalize s.modPort p g = u at h1 e1 ⊢
  have h2 : ∀ (c : Bool) (f : Pipe → Pipe), Only [.pipes] u (match s.ladle.place.pipe? p.val with | some n => if c then u.onPipe n f else u | none => u) := by
    intro c f
    split
    · exact .ite (fun _ => onPipe_only ..) fun _ => .refl ..
    · exact .refl ..
  specialize h2 (s.ports[p].holdGate && (s.ladle.place.pipe? p.val).isSome && decide (s.ports[p].connectAt ≤ at')) fun x => { x with src := setFld (setBit x.src 5) 0 5 p.val }
  generalize (match s.ladle.place.pipe? p.val with
    | some n => if s.ports[p].holdGate && (s.ladle.place.pipe? p.val).isSome && decide (s.ports[p].connectAt ≤ at') then
        u.onPipe n fun x => { x with src := setFld (setBit x.src 5) 0 5 p.val } else u
    | none => u) = v at h2 ⊢
  generalize ((zonesOf v.settings p.val).any fun z => match v.zoneRt z with | some r => r.resetPending | none => false) = named
  obtain ⟨h3, e3⟩ := boundaryWork_effect p named v
  rw [h2.port p, e1] at e3
  generalize boundaryWork p named v = w at h3 e3 ⊢
  have h4 : Only [.ports] w (w.modPort p boundaryDone) := modPort_only ..
  have e4 : (w.modPort p boundaryDone).ports[p] = boundaryDone w.ports[p] := by rw [modPort_at, if_pos rfl]
  generalize w.modPort p boundaryDone = x at h4 e4 ⊢
  have h5 : Only [.pipes, .ladle, .rind] x (x.openShadow p).driveInhibit := ((openShadow_only ..).mono (by decide)).trans ((driveInhibit_only _).mono (by decide))
  generalize (x.openShadow p).driveInhibit = y at h5 ⊢
  have h6 := settlePower_only y
  have hb : y.boot = s.boot := h5.boot.trans (h4.boot.trans (h3.boot.trans (h2.boot.trans h1.boot)))
  have hbl : y.leaving = s.leaving := by
    unfold State.leaving
    rw [hb]
  refine ⟨h6.settings.trans (h5.settings.trans (h4.settings.trans (h3.settings.trans (h2.settings.trans h1.settings)))),
    h6.shut.trans (h5.shut.trans (h4.shut.trans (h3.shut.trans (h2.shut.trans h1.shut)))), fun hl => ?_, g s.ports[p], hg, ?_⟩
  · rw [settlePower_stays (hbl.trans hl)]
    exact ⟨h5.time.trans (h4.time.trans (h3.time.trans (h2.time.trans h1.time))), h5.lanes.trans (h4.lanes.trans (h3.lanes.trans (h2.lanes.trans h1.lanes)))⟩
  · have hp : y.settlePower.ports[p] = boundaryDone w.ports[p] := (h6.port p).trans ((h5.port p).trans e4)
    have hn := newEpoch_eq (g s.ports[p])
    generalize g s.ports[p] = q at e3 hn ⊢
    rw [hp, boundaryDone_frame, e3]
    cases q.epochPending
    · exact ⟨rfl, rfl, rfl, rfl, rfl, rfl, rfl⟩
    · dsimp only [if_true]
      rw [if_pos rfl, hn]
      exact ⟨rfl, rfl, rfl, rfl, rfl, rfl, rfl⟩

/-- The clauses of a frame boundary. -/
theorem frameBoundary_effect {p : PortIx} {s : State} {f : Time} (hf : s.ports[p].frameStart = some f) (hz : s.ports[p].frozen = false) {t : State}
    (ht : frameBoundary p s = t) :
    t.ports[p].frameStart = (if s.heldForCommit p (f + frameTime s.ports[p].plan p.val) = true ∨ s.leaving = true then none
      else some (f + frameTime s.ports[p].plan p.val)) ∧
    t.ports[p].frameNo = s.ports[p].frameNo + 1 ∧ t.ports[p].reopen = false ∧ t.ports[p].epochPending = false ∧
    t.settings = s.settings ∧ t.shut = s.shut ∧
    (s.leaving = false → t.time = (s.until (f + frameTime s.ports[p].plan p.val)).time ∧ t.lanes = s.lanes) ∧
    (s.ports[p].resumePending = true → bit t.ports[p].stat 7 = false ∧ bit t.ports[p].stat 1 = false) ∧
    ((s.ports[p].epochPending = true ∨ s.ports[p].resumePending = true) →
      fld t.ports[p].stat 16 16 = (fld s.ports[p].stat 16 16 + 1) % 65536) ∧
    (bit s.clk.stat 5 = true → t.ports[p].lockResume = false) ∧ (s.ports[p].dark = .closed → t.ports[p].dark = .ended) ∧
    (s.ports[p].dark = .measured → t.ports[p].dark = .none) ∧
    (s.ports[p].dark = .armed → s.leaving = false → s.heldForCommit p (f + frameTime s.ports[p].plan p.val) = false → t.ports[p].dark = .closed) := by
  rw [frameBoundary_running hf hz] at ht
  generalize f + frameTime s.ports[p].plan p.val = x at ht ⊢
  have hk := frameEndsAt_done p x (s.until x)
  have hs := State.until_settings s x
  have hsh := State.until_shut s x
  have hp := State.until_ports s x
  have hc := State.until_clk s x
  have hl := State.until_lanes s x
  have hlv : (s.until x).leaving = s.leaving := by
    unfold State.leaving
    rw [State.until_boot]
  have hh : (s.until x).heldForCommit p x = s.heldForCommit p x := by
    unfold State.heldForCommit
    rw [State.until_commits]
  rw [hp, ht] at hk
  generalize s.until x = u at hk hs hsh hp hc hl hlv hh ⊢
  obtain ⟨k1, k2, k3, q, hq, c1, c2, c3, c4, c5, c6, c7⟩ := hk
  rw [hp, hc, hh, hlv] at hq
  have hst : (s.ports[p].epochPending = true ∨ s.ports[p].resumePending = true) → fld t.ports[p].stat 16 16 = (fld s.ports[p].stat 16 16 + 1) % 65536 := by
    intro h
    rw [c7, hq.epoch h, if_pos rfl, newEpoch_count, hq.stat]
    split
    · rw [fld_clrBit _ (by omega), fld_clrBit _ (by omega)]
    · rfl
  have hcl : s.ports[p].resumePending = true → bit t.ports[p].stat 7 = false ∧ bit t.ports[p].stat 1 = false := by
    intro h
    have hb : ∀ i, i < 16 → bit t.ports[p].stat i = bit (clrBit (clrBit s.ports[p].stat 7) 1) i := by
      intro i hi
      rw [c7, hq.epoch (.inr h), if_pos rfl, newEpoch_eq]
      show bit (setFld q.stat 16 16 _) i = _
      rw [bit_setFld _ _ (by omega), if_neg (by omega), hq.stat, if_pos h]
    rw [hb 7 (by omega), hb 1 (by omega)]
    exact ⟨by rw [bit_clrBit_ne _ (by omega)]; exact bit_clrBit_self _ _, bit_clrBit_self _ _⟩
  refine ⟨?_, c2.trans hq.frameNo, c3.trans hq.reopen, c6, k1.trans hs, k2.trans hsh, fun h => ?_, hcl, hst, fun h => c4.trans (hq.lock ?_),
    fun h => c5.trans (hq.closed h), fun h => c5.trans (hq.measured h), fun h1 h2 h3 => c5.trans (hq.armed h1 (by rw [h2, h3]; rfl))⟩
  · rw [c1, hq.frameStart]
    simp only [Bool.or_eq_true]
  · obtain ⟨j1, j2⟩ := k3 (hlv.trans h)
    exact ⟨j1, j2.trans hl⟩
  · cases hr : s.ports[p].lockResume
    · exact .inr rfl
    · exact .inl (by rw [h]; rfl)

end Sys2Proof.Proofs

/-! O54: a launch (R26, R40, R41, R61, R219, R236), and the obligation. -/

namespace Sys2Proof.Proofs
open Sys2Proof Sys2Proof.Machine Sys2Proof.Claims

/-! ### The stamp of a launch (R236) -/

/-- The tap's raw stamp at port `p`. -/
def tapRaw (p : Nat) (tap : TapStamp) (t : Tiu) : Int := (t.convN t.launch).a.raw (12 + p) tap.read

/-- Whether the tap's edge stamps the launch. -/
def tapTaken (p : Nat) (tap : TapStamp) (t : Tiu) : Bool := t.launchHeld && !cellFault tap.read && !(inDead (t.lastTap.map (·.raw)) (tapRaw p tap t))

theorem tapTaken_iff {p : Nat} {tap : TapStamp} {t : Tiu} : tapTaken p tap t = true ↔
    t.launchHeld = true ∧ cellFault tap.read = false ∧ inDead (t.lastTap.map (·.raw)) (tapRaw p tap t) = false := by
  unfold tapTaken
  simp only [Bool.and_eq_true, Bool.not_eq_true', and_assoc]

theorem unitTime_congr {s t : State} (ht : t.tiu.stat = s.tiu.stat ∧ t.tiu.fit = s.tiu.fit ∧ t.tiu.secondEdge = s.tiu.secondEdge) (hc : t.time = s.time) (x : Int) :
    t.unitTime x = s.unitTime x := by
  obtain ⟨h1, h2, h3⟩ := ht
  unfold State.unitTime State.deviceAt Tiu.tb
  rw [h1, h2, h3, hc]

theorem retireConv_ports (s : State) (i : Fin 3) (p : PortIx) : (s.retireConv i).ports[p] = { s.ports[p] with delay := (s.retireConv i).ports[p].delay } := by
  unfold State.retireConv
  dsimp only
  have h1 : Only [.tiu, .boot] s (((s.modTiu fun t => { (t.release i.val) with stat := setBit (t.release i.val).stat (14 + i.val) }).modBoot fun b => { b with
      retired := { b.retired with verniers := b.retired.verniers ||| (1#8 <<< i.val) } }).raise 190) :=
    (((modTiu_only ..).mono (by decide)).trans ((modBoot_only ..).mono (by decide))).trans (raise_only ..)
  generalize ((s.modTiu fun t => { (t.release i.val) with stat := setBit (t.release i.val).stat (14 + i.val) }).modBoot fun b => { b with
      retired := { b.retired with verniers := b.retired.verniers ||| (1#8 <<< i.val) } }).raise 190 = u at h1 ⊢
  rw [← h1.port p]
  exact (afterRelease_measWork u s.tiu.user).ports p

/-- What stamping a launch leaves: the stamp, whether the tap's edge gave it, and the state after it. -/
structure Stamps (p : Nat) (tap : TapStamp) (s : State) (r : Time × Bool × State) : Prop where
  only : Only [.tiu, .ports, .boot] s r.2.2
  ports : ∀ q : PortIx, r.2.2.ports[q] = { s.ports[q] with delay := r.2.2.ports[q].delay }
  taken : r.2.1 = tapTaken p tap s.tiu
  stamp : r.2.1 = true → r.1 = (r.2.2.unitTime (tapRaw p tap s.tiu)).toNat
  derived : ∀ l, r.2.1 = false → s.tiu.lastTap = some l →
    r.1 = ((l.stamp : Int) + s.time.mono - l.at' + (s.tiu.convN l.conv).a.offs.getD (12 + p) 0).toNat
  sound : cellFault tap.read = false → r.2.2.ev = s.ev ∧ r.2.2.streams = s.streams ∧ r.2.2.out = s.out ∧ r.2.2.ports = s.ports

/-- The edge of a tap is kept. -/
theorem tapped_only (s : State) (e : RefEdges) (l : Tiu → LastTap) : Only [.tiu] s ((s.takeFit e).modTiu fun t => { t with lastTap := some (l t) }) := by
  obtain ⟨f, hf⟩ := takeFit_eq s e
  rw [hf]
  exact (modTiu_only ..).trans (modTiu_only ..)

theorem tapped_ports (s : State) (e : RefEdges) (l : Tiu → LastTap) : ((s.takeFit e).modTiu fun t => { t with lastTap := some (l t) }).ports = s.ports :=
  (tapped_only s e l).ports

theorem tapped_unitTime (s : State) (e : RefEdges) (l : Tiu → LastTap) (x : Int) :
    ((s.takeFit e).modTiu fun t => { t with lastTap := some (l t) }).unitTime x = (s.takeFit e).unitTime x := by
  generalize s.takeFit e = u
  have h : Only [.tiu] u (u.modTiu fun t => { t with lastTap := some (l t) }) := modTiu_only ..
  exact unitTime_congr (by rw [State.modTiu_tiu]; exact ⟨rfl, rfl, rfl⟩) h.time x

theorem tapped_stamps {p : Nat} {tap : TapStamp} {s : State} (hk : tapTaken p tap s.tiu = true) (l : Tiu → LastTap) :
    Stamps p tap s (((s.takeFit tap.ref).unitTime (tapRaw p tap s.tiu)).toNat, true, (s.takeFit tap.ref).modTiu fun t => { t with lastTap := some (l t) }) := by
  have h1 := tapped_only s tap.ref l
  have h2 := tapped_ports s tap.ref l
  have h3 := tapped_unitTime s tap.ref l (tapRaw p tap s.tiu)
  have h4 : ∀ u : State, (u.modTiu fun t => { t with lastTap := some (l t) }).ev = u.ev ∧ (u.modTiu fun t => { t with lastTap := some (l t) }).streams = u.streams ∧
      (u.modTiu fun t => { t with lastTap := some (l t) }).out = u.out := fun u => ⟨State.modTiu_ev .., State.modTiu_streams .., State.modTiu_out ..⟩
  have h5 : (s.takeFit tap.ref).ev = s.ev ∧ (s.takeFit tap.ref).streams = s.streams ∧ (s.takeFit tap.ref).out = s.out := by
    obtain ⟨f, hf⟩ := takeFit_eq s tap.ref
    rw [hf]
    exact ⟨State.modTiu_ev .., State.modTiu_streams .., State.modTiu_out ..⟩
  obtain ⟨a1, a2, a3⟩ := h4 (s.takeFit tap.ref)
  obtain ⟨b1, b2, b3⟩ := h5
  exact ⟨h1.mono (by decide), fun q => by rw [h2], hk.symm, fun _ => congrArg Int.toNat h3.symm, fun _ h _ => absurd h.symm Bool.false_ne_true,
    fun _ => ⟨a1.trans b1, a2.trans b2, a3.trans b3, h2⟩⟩

theorem launchStamp_stamps (p : Nat) (tap : TapStamp) (s : State) : Stamps p tap s (s.launchStamp p tap) := by
  have hdef : s.launchStamp p tap = if tapTaken p tap s.tiu then
      (((s.takeFit tap.ref).unitTime (tapRaw p tap s.tiu)).toNat, true, (s.takeFit tap.ref).modTiu fun t => { t with
        lastTap := some { raw := tapRaw p tap s.tiu, at' := s.time.mono, stamp := ((s.takeFit tap.ref).unitTime (tapRaw p tap s.tiu)).toNat, conv := t.launch } })
    else ((match s.tiu.lastTap with
      | some l => (l.stamp : Int) + s.time.mono - l.at' + (s.tiu.convN l.conv).a.offs.getD (12 + p) 0
      | none => s.unitTime s.time.mono + (s.tiu.convN s.tiu.launch).a.offs.getD (12 + p) 0).toNat, false,
      if s.tiu.launchHeld && cellFault tap.read then (match ix 3 s.tiu.launch with | some i => s.retireConv i | none => s) else s) := by
    unfold State.launchStamp tapTaken tapRaw
    rfl
  rw [hdef]
  by_cases hk : tapTaken p tap s.tiu = true
  · rw [if_pos hk]
    exact tapped_stamps hk _
  · rw [if_neg hk]
    refine ⟨?_, ?_, (eq_false_of_ne_true hk).symm, fun h => absurd h Bool.false_ne_true, fun l _ hl => ?_, fun hc => ?_⟩
    · dsimp only
      split
      · split
        · exact (retireConv_effect ..).work.only
        · exact .refl ..
      · exact .refl ..
    · dsimp only
      intro q
      split
      · split
        · exact retireConv_ports ..
        · rfl
      · rfl
    · dsimp only
      rw [hl]
    · dsimp only
      rw [hc, Bool.and_false, if_neg Bool.false_ne_true]
      exact ⟨rfl, rfl, rfl, rfl⟩

/-! ### The launch -/

theorem launches_iff {s : State} {p : PortIx} {g : Nat} (h : s.ports[p].holdGate = false) : s.launches p g = true ↔ MayLaunch s p g := by
  unfold State.launches MayLaunch
  dsimp only
  rw [h]
  simp only [Bool.and_eq_true, Bool.not_eq_true', Bool.or_eq_true, decide_eq_true_eq, beq_iff_eq, Bool.not_false, and_true, ne_eq, and_assoc, and_congr_right_iff]
  intro _ _ _ _ _ _ _ _ _ _ _
  cases bit s.ports[p].stat 7
  · exact ⟨fun _ h => absurd h Bool.false_ne_true, fun _ => .inl rfl⟩
  · exact ⟨fun h _ => h.resolve_left fun h => absurd h.symm Bool.false_ne_true, fun h => .inr (h rfl)⟩

/-- The port after a launch, or after the gate stayed closed; `plan` is the port's plan. -/
def launchedPort (plan : Settings) (p g : Nat) (now : Time) (tag : PingTag) (q : Port) : Port :=
  { q with
    pings := q.pings ++ [tag]
    gateOpen := tag.launched
    gateUntil := now + (gateTimes plan p).2
    probeOn := tag.launched
    probeFrom := now + quarters (q.plan.port p 0x100A)
    probeUntil := now + (gateTimes plan p).1
    probe := if tag.launched then probeCodes q.plan p g else []
    lastLaunch := if tag.launched then tag.stamp else q.lastLaunch }

/-- The stamp of what launches, or does not. -/
def stampOf (p : Nat) (tap : TapStamp) (go : Bool) (s : State) : Time × Bool × State := if go then s.launchStamp p tap else (s.unitNow, false, s)

/-- The tag of a ping. -/
def pingTag (p : PortIx) (g : Nat) (tap : TapStamp) (s : State) : PingTag :=
  let counts := fun (w : Pair) => if g = 0 && s.ports[p].calAccumulates w then some (s.ports[p].cal w).gen else none
  { group := g, old := false, cfg := none, stamp := (stampOf p.val tap (s.launches p g) s).1, at' := s.time.mono, calX := counts .x, calY := counts .y
    derived := !(stampOf p.val tap (s.launches p g) s).2.1, launched := s.launches p g, restart := s.launches p g && bit s.ports[p].stat 7 }

/-- A launch of a group at its instant. -/
def launchAt (p : PortIx) (g : Nat) (tap : TapStamp) (s : State) : State :=
  let tag := pingTag p g tap s
  let s1 := (stampOf p.val tap (s.launches p g) s).2.2.modPort p (launchedPort s.ports[p].plan p.val g s.time.mono tag)
  let s3 := if tag.launched then s1.emit (.launch p.val g tag.restart (groupTones s.ports[p].plan p.val g)) else s1
  s3.modLook fun l => { l with launches := l.launches.set p (((l.launches[p]) ++ [tag]).filter fun x => decide (tag.stamp ≤ x.stamp + 5 * sec)) }

theorem groupLaunch_launches {p : PortIx} {g : Fin 16} (tap : TapStamp) {s : State} {f : Time} (hf : s.ports[p].frameStart = some f)
    (hg : g.val < planG s.ports[p].plan p.val) (hh : s.ports[p].holdGate = false) :
    groupLaunch p g tap s = launchAt p g.val tap (s.until (f + samplesTime s.ports[p].plan (g.val * planS s.ports[p].plan p.val))) := by
  unfold groupLaunch
  dsimp only
  split
  · next h => exact absurd (hf.symm.trans h) (Option.some_ne_none _)
  · next f' h =>
    obtain rfl := Option.some.inj (hf.symm.trans h)
    rw [if_neg (by rw [hh]; exact fun h => h.elim (Nat.not_le.2 hg) Bool.false_ne_true)]
    generalize s.until _ = u
    unfold launchAt pingTag stampOf launchedPort
    rfl

end Sys2Proof.Proofs

/-! O54: launches, frames, buffers and pace. -/

namespace Sys2Proof.Proofs
open Sys2Proof Sys2Proof.Machine Sys2Proof.Claims

/-- Whether or not the group launches, what stamping it leaves. -/
theorem stampOf_only (p : Nat) (tap : TapStamp) (go : Bool) (s : State) : Only [.tiu, .ports, .boot] s (stampOf p tap go s).2.2 ∧
    (∀ q : PortIx, (stampOf p tap go s).2.2.ports[q] = { s.ports[q] with delay := (stampOf p tap go s).2.2.ports[q].delay }) ∧
    (go = false ∨ cellFault tap.read = false → (stampOf p tap go s).2.2.ev = s.ev ∧ (stampOf p tap go s).2.2.streams = s.streams ∧
      (stampOf p tap go s).2.2.out = s.out ∧ (stampOf p tap go s).2.2.ports = s.ports) := by
  unfold stampOf
  cases go
  · exact ⟨.refl .., fun _ => rfl, fun _ => ⟨rfl, rfl, rfl, rfl⟩⟩
  · rw [if_pos rfl]
    have k := launchStamp_stamps p tap s
    exact ⟨k.only, k.ports, fun h => k.sound (h.resolve_left fun h => absurd h.symm Bool.false_ne_true)⟩

/-- What a launch at its instant leaves. -/
structure LaunchDone (p : PortIx) (g : Nat) (tap : TapStamp) (s t : State) : Prop where
  only : Only [.tiu, .ports, .boot, .look] s t
  port : ∃ d, t.ports[p] = { launchedPort s.ports[p].plan p.val g s.time.mono (pingTag p g tap s) s.ports[p] with delay := d }
  out : (pingTag p g tap s).launched = false ∨ cellFault tap.read = false → t.out = s.out ++ (if (pingTag p g tap s).launched then
    [.launch p.val g (pingTag p g tap s).restart (groupTones s.ports[p].plan p.val g)] else [])
  calm : (pingTag p g tap s).launched = false ∨ cellFault tap.read = false → t.ev = s.ev ∧ t.streams = s.streams ∧ ∀ r : PortIx, r ≠ p → t.ports[r] = s.ports[r]
  unit : ∀ x, t.unitTime x = (stampOf p.val tap (s.launches p g) s).2.2.unitTime x

theorem launchAt_done (p : PortIx) (g : Nat) (tap : TapStamp) (s : State) : LaunchDone p g tap s (launchAt p g tap s) := by
  obtain ⟨h1, p1, c1⟩ := stampOf_only p.val tap (s.launches p g) s
  unfold launchAt
  dsimp only
  have hgo : (pingTag p g tap s).launched = s.launches p g := rfl
  generalize hU : (stampOf p.val tap (s.launches p g) s).2.2 = u at h1 p1 c1 ⊢
  rw [← hgo] at c1
  generalize hT : pingTag p g tap s = tag at c1 ⊢
  have h2 : Only [.ports] u (u.modPort p (launchedPort s.ports[p].plan p.val g s.time.mono tag)) := modPort_only ..
  have p2 : (u.modPort p (launchedPort s.ports[p].plan p.val g s.time.mono tag)).ports[p] = launchedPort s.ports[p].plan p.val g s.time.mono tag u.ports[p] := by
    rw [modPort_at, if_pos rfl]
  have q2 : ∀ r : PortIx, r ≠ p → (u.modPort p (launchedPort s.ports[p].plan p.val g s.time.mono tag)).ports[r] = u.ports[r] := fun r hr => by
    rw [modPort_at, if_neg hr]
  have c2 : ∀ f : Port → Port, (u.modPort p f).ev = u.ev ∧ (u.modPort p f).streams = u.streams ∧ (u.modPort p f).out = u.out ∧ (u.modPort p f).tiu = u.tiu :=
    fun f => ⟨State.modPort_ev .., State.modPort_streams .., State.modPort_out .., State.modPort_tiu ..⟩
  specialize c2 (launchedPort s.ports[p].plan p.val g s.time.mono tag)
  generalize u.modPort p (launchedPort s.ports[p].plan p.val g s.time.mono tag) = v at h2 p2 q2 c2 ⊢
  have h3 : ∀ o : Output, Only [] v (if tag.launched then v.emit o else v) ∧ (if tag.launched then v.emit o else v).ev = v.ev ∧
      (if tag.launched then v.emit o else v).streams = v.streams ∧ (if tag.launched then v.emit o else v).out = v.out ++ (if tag.launched then [o] else []) := by
    intro o
    cases tag.launched
    · exact ⟨.refl .., rfl, rfl, (List.append_nil _).symm⟩
    · exact ⟨emit_only .., rfl, rfl, rfl⟩
  specialize h3 (.launch p.val g tag.restart (groupTones s.ports[p].plan p.val g))
  generalize (if tag.launched then v.emit (.launch p.val g tag.restart (groupTones s.ports[p].plan p.val g)) else v) = w at h3 ⊢
  obtain ⟨h3, e3, s3, o3⟩ := h3
  have h4 : ∀ f : Lookback → Lookback, Only [.look] w (w.modLook f) ∧ (w.modLook f).ev = w.ev ∧ (w.modLook f).streams = w.streams ∧ (w.modLook f).out = w.out :=
    fun f => ⟨modLook_only .., State.modLook_ev .., State.modLook_streams .., State.modLook_out ..⟩
  specialize h4 fun l => { l with launches := l.launches.set p (((l.launches[p]) ++ [tag]).filter fun x => decide (tag.stamp ≤ x.stamp + 5 * sec)) }
  generalize w.modLook (fun l => { l with launches := l.launches.set p (((l.launches[p]) ++ [tag]).filter fun x => decide (tag.stamp ≤ x.stamp + 5 * sec)) }) = t at h4 ⊢
  obtain ⟨h4, e4, s4, o4⟩ := h4
  obtain ⟨c2e, c2s, c2o, -⟩ := c2
  refine ⟨?_, ⟨u.ports[p].delay, ?_⟩, fun hc => ?_, fun hc => ?_, fun x => ?_⟩
  · exact (((h1.mono (by decide)).trans (h2.mono (by decide))).trans (h3.mono (by decide))).trans (h4.mono (by decide))
  · rw [hT, h4.port p, h3.port p, p2, p1 p]
    rfl
  · rw [hT] at hc ⊢
    obtain ⟨-, -, j3, -⟩ := c1 hc
    rw [o4, o3, c2o, j3]
  · rw [hT] at hc
    obtain ⟨j1, j2, -, j4⟩ := c1 hc
    exact ⟨e4.trans (e3.trans (c2e.trans j1)), s4.trans (s3.trans (c2s.trans j2)), fun r hr => by rw [h4.port r, h3.port r, q2 r hr, j4]⟩
  · rw [hU]
    have ht : t.tiu = u.tiu := h4.tiu.trans (h3.tiu.trans h2.tiu)
    exact unitTime_congr (by rw [ht]; exact ⟨rfl, rfl, rfl⟩) (h4.time.trans (h3.time.trans h2.time)) x

/-- How the tag of a launched ping is stamped. -/
theorem pingTag_stamp {p : PortIx} {g : Nat} {tap : TapStamp} {s : State} (h : s.launches p g = true) :
    ((pingTag p g tap s).derived = false ↔ s.tiu.launchHeld = true ∧ cellFault tap.read = false ∧
      inDead (s.tiu.lastTap.map (·.raw)) (tapRaw p.val tap s.tiu) = false) ∧
    ((pingTag p g tap s).derived = false → (pingTag p g tap s).stamp =
      ((stampOf p.val tap (s.launches p g) s).2.2.unitTime (tapRaw p.val tap s.tiu)).toNat) ∧
    (∀ l, (pingTag p g tap s).derived = true → s.tiu.lastTap = some l → (pingTag p g tap s).stamp =
      ((l.stamp : Int) + s.time.mono - l.at' + (s.tiu.convN l.conv).a.offs.getD (12 + p.val) 0).toNat) := by
  have k := launchStamp_stamps p.val tap s
  have hs : stampOf p.val tap (s.launches p g) s = s.launchStamp p.val tap := if_pos h
  have hd : (pingTag p g tap s).derived = !(s.launchStamp p.val tap).2.1 := by rw [← hs]; rfl
  have hst : (pingTag p g tap s).stamp = (s.launchStamp p.val tap).1 := by rw [← hs]; rfl
  rw [hd, hst, hs]
  refine ⟨?_, fun h => k.stamp (by rwa [Bool.not_eq_false'] at h), fun l h hl => k.derived l (by rwa [Bool.not_eq_true'] at h) hl⟩
  rw [Bool.not_eq_false', k.taken]
  exact tapTaken_iff

/-- The clauses of a launch. -/
theorem groupLaunch_effect {p : PortIx} {g : Fin 16} {tap : TapStamp} {s : State} {f : Time} (hf : s.ports[p].frameStart = some f)
    (hg : g.val < planG s.ports[p].plan p.val) (hh : s.ports[p].holdGate = false) {t : State} (ht : groupLaunch p g tap s = t) : ∃ tag : PingTag,
      t.ports[p].pings = s.ports[p].pings ++ [tag] ∧ tag.group = g.val ∧ tag.old = false ∧ (tag.launched = true ↔ MayLaunch s p g.val) ∧
      (tag.restart = true ↔ tag.launched = true ∧ bit s.ports[p].stat 7 = true) ∧
      t.ports[p].gateOpen = tag.launched ∧ t.ports[p].probeOn = tag.launched ∧
      t.ports[p].probe = (if tag.launched then probeCodes s.ports[p].plan p.val g.val else []) ∧
      t.time = (s.until (f + samplesTime s.ports[p].plan (g.val * planS s.ports[p].plan p.val))).time ∧
      t.ports[p].probeFrom = t.time.mono + quarters (s.ports[p].plan.port p.val 0x100A) ∧
      t.ports[p].probeUntil = t.ports[p].probeFrom + samplesTime s.ports[p].plan (toneSamples s.ports[p].plan p.val) ∧
      t.ports[p].gateUntil = t.ports[p].probeUntil + quarters (s.ports[p].plan.port p.val 0x100B) ∧
      (tag.launched = true →
        (tag.derived = false ↔ s.tiu.launchHeld = true ∧ cellFault tap.read = false ∧
          inDead (s.tiu.lastTap.map (·.raw)) ((s.tiu.convN s.tiu.launch).a.raw (12 + p.val) tap.read) = false) ∧
        (tag.derived = false → tag.stamp = (t.unitTime ((s.tiu.convN s.tiu.launch).a.raw (12 + p.val) tap.read)).toNat) ∧
        (∀ l, tag.derived = true → s.tiu.lastTap = some l → tag.stamp =
          ((l.stamp : Int) + t.time.mono - l.at' + (s.tiu.convN l.conv).a.offs.getD (12 + p.val) 0).toNat) ∧
        (cellFault tap.read = false →
          t.out = s.out ++ [.launch p.val g.val tag.restart (groupTones s.ports[p].plan p.val g.val)])) ∧
      (tag.launched = false → t.out = s.out) ∧
      ((tag.launched = false ∨ cellFault tap.read = false) → t.ev = s.ev ∧ t.streams = s.streams ∧ ∀ r : PortIx, r ≠ p → t.ports[r] = s.ports[r]) ∧
      t.ports[p].stat = s.ports[p].stat ∧ t.ports[p].frameStart = some f ∧
      t.settings = s.settings ∧ t.lanes = s.lanes ∧ t.shut = s.shut ∧ t.emOn = s.emOn := by
  rw [groupLaunch_launches tap hf hg hh] at ht
  generalize f + samplesTime s.ports[p].plan (g.val * planS s.ports[p].plan p.val) = x at ht ⊢
  have hp := State.until_ports s x
  have htiu := State.until_tiu s x
  have hev := State.until_ev s x
  have hstr := State.until_streams s x
  have hout := State.until_out s x
  have hset := State.until_settings s x
  have hlan := State.until_lanes s x
  have hshut := State.until_shut s x
  have hem := State.until_emOn s x
  have hclk := State.until_clk s x
  have hboot := State.until_boot s x
  generalize s.until x = u at ht hp htiu hev hstr hout hset hlan hshut hem hclk hboot ⊢
  have hlaunch : u.launches p g.val = true ↔ MayLaunch s p g.val := by
    rw [launches_iff (by rw [hp]; exact hh)]
    unfold MayLaunch State.running State.groupShut
    rw [hboot, hp, hset, hclk, hshut]
  have k := launchAt_done p g.val tap u
  rw [ht] at k
  obtain ⟨k1, ⟨d, k2⟩, k3, k4, k5⟩ := k
  have hst : u.launches p g.val = true → _ := pingTag_stamp (tap := tap)
  have hl : (pingTag p g.val tap u).launched = u.launches p g.val := rfl
  have hr : (pingTag p g.val tap u).restart = (u.launches p g.val && bit u.ports[p].stat 7) := rfl
  have hgr : (pingTag p g.val tap u).group = g.val ∧ (pingTag p g.val tap u).old = false := ⟨rfl, rfl⟩
  rw [hp] at k2 k3 hr
  generalize pingTag p g.val tap u = tag at k2 k3 k4 hst hl hr hgr
  have htm : t.time = u.time := k1.time
  refine ⟨tag, by rw [k2]; rfl, hgr.1, hgr.2, by rw [hl]; exact hlaunch, by rw [hr, hl, Bool.and_eq_true], by rw [k2]; rfl, by rw [k2]; rfl,
    by rw [k2]; rfl, htm, by rw [k2, htm]; rfl, by rw [k2]; exact (Nat.add_assoc ..).symm, by rw [k2]; exact (Nat.add_assoc ..).symm, fun h => ?_, fun h => ?_, fun h => ?_, by rw [k2]; rfl,
    by rw [k2]; exact hf, k1.settings.trans hset, k1.lanes.trans hlan, k1.shut.trans hshut, k1.emOn.trans hem⟩
  · obtain ⟨j1, j2, j3⟩ := hst (hl.symm.trans h)
    unfold tapRaw at j1 j2
    rw [htiu] at j1 j2 j3
    refine ⟨j1, fun hd => by rw [k5]; exact j2 hd, fun l hd hl => by rw [htm]; exact j3 l hd hl, fun hc => ?_⟩
    rw [k3 (.inr hc), if_pos h, hout]
  · rw [k3 (.inl h), h, hout]
    exact List.append_nil _
  · obtain ⟨j1, j2, j3⟩ := k4 h
    exact ⟨j1.trans hev, j2.trans hstr, fun r hr => (j3 r hr).trans (by rw [hp])⟩

theorem groupLaunch_idle {p : PortIx} {g : Fin 16} {tap : TapStamp} {s : State}
    (h : s.ports[p].frameStart = none ∨ planG s.ports[p].plan p.val ≤ g.val ∨ s.ports[p].holdGate = true) : groupLaunch p g tap s = s := by
  unfold groupLaunch
  dsimp only
  split
  · rfl
  · next hf => exact if_pos (h.resolve_left (by rw [hf]; exact Option.some_ne_none _))

theorem frameBoundary_idle {p : PortIx} {s : State} (h : s.ports[p].frameStart = none ∨ s.ports[p].frozen = true) : frameBoundary p s = s := by
  rw [frameBoundary_eq]
  split
  · next hf hz =>
    rcases h with h | h
    · exact absurd (hf.symm.trans h) (Option.some_ne_none _)
    · exact absurd (hz.symm.trans h) Bool.false_ne_true
  · rfl

/-- Settles O54: a launch is stamped and tagged by `launchAt`, a boundary ends the frame in `frameEndsAt`, and buffers and pace write their own port or site. -/
theorem framesLaunchAndBuffersDrop : Obligations.FramesLaunchAndBuffersDrop := by
  unfold Obligations.FramesLaunchAndBuffersDrop
  intro s
  refine ⟨fun p g tap => ⟨fun h => ?_, fun f hf hg hh => ⟨_, rfl, groupLaunch_effect hf hg hh rfl⟩⟩,
    fun p => ⟨fun h => ?_, fun f hf hz => ⟨_, rfl, frameBoundary_effect hf hz rfl⟩⟩,
    fun n => ⟨fun h => ?_, fun p hc hd hp => ⟨_, rfl, inputBufferFull_effect hc hd hp rfl⟩⟩,
    fun n k => ⟨fun h => ?_, fun h => ⟨_, rfl, inputResume_effect h rfl⟩⟩,
    fun n count margin => ⟨fun h => ?_, fun h hr => ?_, fun h hr => ⟨_, rfl, paceWindowEnd_effect count margin h hr rfl⟩⟩⟩
  · exact congrArg Host.Outcome.next (groupLaunch_idle h)
  · exact congrArg Host.Outcome.next (frameBoundary_idle h)
  · refine congrArg Host.Outcome.next (if_pos ?_)
    rcases h with h | h
    · rw [h]
      rfl
    · rw [h, Bool.or_true]
  · exact congrArg Host.Outcome.next (if_pos (by rw [h]; rfl))
  · exact congrArg Host.Outcome.next (if_pos h)
  · exact congrArg Host.Outcome.next ((if_neg (by omega)).trans (if_pos hr))

end Sys2Proof.Proofs

/-! O53: what commits, placements and losses of units leave of a start: its record, its causes, and the time that has passed. -/

namespace Sys2Proof.Proofs
open Sys2Proof Sys2Proof.Machine Sys2Proof.Claims

/-- The start in progress in `s` is that of `t`: its count, its causes and its record's place in the journal stand, it has halted in both or in neither, and
no time is lost. -/
structure Starts (s t : State) : Prop where
  inReset : t.boot.inReset = s.boot.inReset
  count : t.boot.bootCnt = s.boot.bootCnt
  cause : ∀ i, bit s.boot.rstCause i = true → bit t.boot.rstCause i = true
  rails : t.boot.railsOff = s.boot.railsOff
  halted : bit t.boot.bootStat 0 = bit s.boot.bootStat 0
  before : t.boot.journal.tail = s.boot.journal.tail
  record : t.boot.journal.head?.map (·.bootCnt) = s.boot.journal.head?.map (·.bootCnt)
  rollback : t.boot.rollback = s.boot.rollback
  mono : s.time.mono ≤ t.time.mono

theorem Starts.refl (s : State) : Starts s s := ⟨rfl, rfl, fun _ h => h, rfl, rfl, rfl, rfl, rfl, Nat.le_refl _⟩

variable {s t u : State}

theorem Starts.trans (h : Starts s t) (k : Starts t u) : Starts s u :=
  ⟨k.inReset.trans h.inReset, k.count.trans h.count, fun i hi => k.cause i (h.cause i hi), k.rails.trans h.rails, k.halted.trans h.halted,
    k.before.trans h.before, k.record.trans h.record, k.rollback.trans h.rollback, Nat.le_trans h.mono k.mono⟩

theorem Starts.of_eq (hb : t.boot = s.boot) (hm : s.time.mono ≤ t.time.mono) : Starts s t := by
  refine ⟨?_, ?_, fun i hi => ?_, ?_, ?_, ?_, ?_, ?_, hm⟩
  all_goals rw [hb]
  exact hi

theorem Starts.of_time (hb : t.boot = s.boot) (hm : t.time = s.time) : Starts s t := .of_eq hb (by rw [hm])

theorem Only.starts {F : List Part} (h : Only F s t) (hb : Part.boot ∉ F := by decide) (ht : Part.time ∉ F := by decide) : Starts s t := .of_time (h.boot hb) (h.time ht)

theorem Starts.of_same (h : SameWork s t) : Starts s t := .of_time h.boot h.time

theorem Starts.foldl {α : Type} {f : State → α → State} (h : ∀ s a, Starts s (f s a)) (l : List α) (s : State) : Starts s (l.foldl f s) := by
  induction l generalizing s with
  | nil => exact .refl s
  | cons a l ih => exact (h s a).trans (ih _)

theorem Starts.forEach {f : Nat → State → State} (h : ∀ n s, Starts s (f n s)) (l : List Nat) (s : State) : Starts s (forEach l f s) :=
  .foldl (fun u n => h n u) l s

theorem Starts.forPorts {f : PortIx → State → State} (h : ∀ p s, Starts s (f p s)) (s : State) : Starts s (s.forPorts f) := .foldl (fun u n => h n u) _ s

theorem Starts.ite {c : Prop} [Decidable c] (h : c → Starts s t) (k : ¬c → Starts s u) : Starts s (if c then t else u) := by
  split
  · exact h ‹_›
  · exact k ‹_›

/-! ### Small steps -/

theorem raise_starts (s : State) (n : EvIx) : Starts s (s.raise n) := .of_same (raise_same ..)
theorem raiseN_starts (s : State) (n : Nat) : Starts s (s.raiseN n) := .of_same (raiseN_same ..)
theorem wheyZone_starts (s : State) (z : Nat) (w : Whey) : Starts s (s.wheyZone z w) := .of_same (wheyZone_same ..)
theorem modPort_starts (s : State) (p : PortIx) (f : Port → Port) : Starts s (s.modPort p f) := .of_time (State.modPort_boot ..) (State.modPort_time ..)
theorem onPort_starts (s : State) (n : Nat) (f : Port → Port) : Starts s (s.onPort n f) := (onPort_only ..).starts
theorem modZone_starts (s : State) (z : Nat) (f : ZoneRt → ZoneRt) : Starts s (s.modZone z f) := (modZone_only ..).starts
theorem modLadle_starts (s : State) (f : Ladle → Ladle) : Starts s (s.modLadle f) := .of_time (State.modLadle_boot ..) (State.modLadle_time ..)
theorem modLook_starts (s : State) (f : Lookback → Lookback) : Starts s (s.modLook f) := .of_time (State.modLook_boot ..) (State.modLook_time ..)
theorem modEng_starts (s : State) (n : EngIx) (f : Engine → Engine) : Starts s (s.modEng n f) := .of_time (State.modEng_boot ..) (State.modEng_time ..)
theorem modPress_starts (s : State) (n : PressIx) (f : PressLane → PressLane) : Starts s (s.modPress n f) := (modPress_only ..).starts
theorem modClk_starts (s : State) (f : Clocks → Clocks) : Starts s (s.modClk f) := .of_time (State.modClk_boot ..) (State.modClk_time ..)
theorem modTiu_starts (s : State) (f : Tiu → Tiu) : Starts s (s.modTiu f) := .of_time (State.modTiu_boot ..) (State.modTiu_time ..)
theorem modSdc_starts (s : State) (f : Sdc → Sdc) : Starts s (s.modSdc f) := (modSdc_only ..).starts
theorem modLane_starts (s : State) (n : LaneIx) (f : Lane → Lane) : Starts s (s.modLane n f) := (modLane_only ..).starts
theorem applyPlacement_starts (s : State) (pl : Placement) : Starts s (s.applyPlacement pl) := (applyPlacement_only ..).starts
theorem shedZone_starts (s : State) (z what : Nat) : Starts s (s.shedZone z what) := (shedZone_only ..).starts
theorem refreshLadle_starts (s : State) : Starts s s.refreshLadle := (refreshLadle_only s).starts
theorem endDrain_starts (s : State) (z : Nat) : Starts s (s.endDrain z) := (endDrain_only ..).starts
theorem closeGate_starts (p : PortIx) (s : State) : Starts s (closeGate p s) := by
  rw [closeGate_eq]
  exact modPort_starts ..
theorem until_starts (s : State) (x : Time) : Starts s (s.until x) := .of_eq (State.until_boot ..) (until_mono s x ▸ Nat.le_max_left ..)
theorem elapse_starts (s : State) (d : Nat) : Starts s (s.elapse d) :=
  .of_eq ((elapse_only s d).boot) (by rw [State.elapse]; exact Nat.le_add_right ..)
theorem unfollow_mono (s : State) : s.unfollow.time.mono = s.time.mono := by
  obtain ⟨hno, hyes⟩ := unfollow_effect s
  by_cases h : s.time.receiving = true
  · rw [(hyes h).1]
  · rw [hno (Bool.eq_false_iff.2 h)]
theorem unfollow_starts (s : State) : Starts s s.unfollow := .of_eq ((unfollow_only s).boot) (Nat.le_of_eq (unfollow_mono s).symm)

/-- A change of the boot block that leaves the start's own fields. -/
theorem modBoot_starts (s : State) (f : Boot → Boot) (h : (f s.boot).inReset = s.boot.inReset ∧ (f s.boot).bootCnt = s.boot.bootCnt ∧
    (f s.boot).rstCause = s.boot.rstCause ∧ (f s.boot).railsOff = s.boot.railsOff ∧ (f s.boot).bootStat = s.boot.bootStat ∧
    (f s.boot).journal = s.boot.journal ∧ (f s.boot).rollback = s.boot.rollback := by exact ⟨rfl, rfl, rfl, rfl, rfl, rfl, rfl⟩) : Starts s (s.modBoot f) := by
  obtain ⟨h1, h2, h3, h4, h5, h6, h7⟩ := h
  refine ⟨?_, ?_, fun i hi => ?_, ?_, ?_, ?_, ?_, ?_, by rw [State.modBoot_time]⟩
  all_goals rw [State.modBoot_boot]
  · exact h1
  · exact h2
  · rw [h3]; exact hi
  · exact h4
  · rw [h5]
  · rw [h6]
  · rw [h6]
  · exact h7

theorem faultLog_starts (s : State) (a b c : Nat) (d : Word) : Starts s (s.faultLog a b c d) := by
  unfold State.faultLog
  exact (modBoot_starts ..).trans (raise_starts ..)

/-! ### Units that are lost or retired -/

theorem pingsDone_starts (s : State) (p : PortIx) : Starts s (s.pingsDone p) := by
  unfold State.pingsDone
  dsimp only
  have h1 : Starts s (if (s.ports[p].oldRun.isSome && !(s.ports[p].pings.any (·.old))) = true then s.modPort p fun q => { q with oldRun := none } else s) :=
    .ite (fun _ => modPort_starts ..) fun _ => .refl s
  generalize (if (s.ports[p].oldRun.isSome && !(s.ports[p].pings.any (·.old))) = true then s.modPort p fun q => { q with oldRun := none } else s) = v at h1 ⊢
  split
  · exact h1
  · refine .ite (fun _ => h1) fun _ => (h1.trans (modPort_starts ..)).trans (.trans (Only.starts (zoneWork_only ..)) (.forEach (fun _ _ => endDrain_starts ..) _ _))

theorem shedPort_starts (s : State) (p : Nat) : Starts s (s.shedPort p) := by
  unfold State.shedPort
  dsimp only
  have h1 := (modLadle_starts s fun l => { l with shedPorts := if l.shedPorts.contains p then l.shedPorts else l.shedPorts ++ [p] }).trans
    (onPort_starts _ p fun q => { q with holdGate := true, gateOpen := false, probeOn := false, connectAt := s.time.mono })
  generalize (s.modLadle fun l => { l with shedPorts := if l.shedPorts.contains p then l.shedPorts else l.shedPorts ++ [p] }).onPort p
    (fun q => { q with holdGate := true, gateOpen := false, probeOn := false, connectAt := s.time.mono }) = v at h1 ⊢
  have h2 := (h1.trans (.foldl (fun u z => shedZone_starts u z 4) (shedOrder v.settings (zonesOf v.settings p)) v))
  exact .ite (fun _ => (h2.trans (applyPlacement_starts ..)).trans (raise_starts ..)) fun _ => h2.trans (applyPlacement_starts ..)

theorem preempt_starts (s : State) (n : Nat) : Starts s (s.preempt n) := by
  unfold State.preempt
  split
  · exact (endJob_only ..).starts
  · exact .refl s

/-- The port of a lost pipeline, its frame covered by whey records and its gate held (R367). -/
def lostPort (s : State) (p : Nat) : State :=
  let q := s.portN p
  let ft := max 1 (frameTime q.plan p)
  let f0 := q.frameStart.getD s.time.mono
  let k := ceilDiv (s.time.mono + 100 * us - f0) ft
  let w := { Whey.blank 6 0 p with
    tFirst := s.devOf f0, tLast := s.devOf (f0 + k * ft) - samplesTime q.plan (planS q.plan p), count := k * planG q.plan p }
  let s1 := (zonesOf s.settings p).foldl (fun u z => u.wheyZone z { w with products := BitVec.ofNat 8 (s.settings.zone z 0x1703 % 8) }) s
  s1.onPort p fun q => { q with
    holdGate := true, gateOpen := false, probeOn := false, connectAt := s.time.mono + 100 * us
    pings := q.pings.filter fun t => decide (t.stamp < s.devOf f0) }

/-- The pings of a port that a number names are done. -/
def donePings (s : State) (p : Nat) : State := match ix 24 p with | some i => s.pingsDone i | none => s

/-- A lost pipeline's work goes to a spare, or sheds a port's (R367). -/
def handPipe (s2 : State) (n : PipeIx) (p : Nat) : State :=
  match s2.spareOf (.pipeline n) with
  | some b => (s2.preempt (match b with | .pipeline m => m.val | _ => 99)).applyPlacement (s2.ladle.place.move (.pipeline n) b)
  | none =>
    match s2.portOrder.head? with
    | none => s2
    | some v =>
      if v = p then s2.shedPort p
      else match s2.ladle.place.pipe? v with
        | none => s2.shedPort p
        | some m =>
          let s3 := s2.shedPort v
          s3.applyPlacement { s3.ladle.place with pipes := (s3.ladle.place.pipes.filter fun x => x.1 != p) ++ [(p, m)] }

theorem losePipe_eq (s : State) (n : PipeIx) : s.losePipe n = match s.ladle.place.pipes.find? fun x => x.2 == n.val with
    | none => s
    | some (p, _) => handPipe (donePings (lostPort s p) p) n p := rfl

theorem lostPort_starts (s : State) (p : Nat) : Starts s (lostPort s p) :=
  .trans (.foldl (fun u z => wheyZone_starts u z _) _ _) (onPort_starts ..)

theorem donePings_starts (s : State) (p : Nat) : Starts s (donePings s p) := by
  unfold donePings
  split
  · exact pingsDone_starts ..
  · exact .refl s

theorem handPipe_starts (s : State) (n : PipeIx) (p : Nat) : Starts s (handPipe s n p) := by
  unfold handPipe
  split
  · exact (preempt_starts ..).trans (applyPlacement_starts ..)
  · split
    · exact .refl s
    · refine .ite (fun _ => shedPort_starts ..) fun _ => ?_
      split
      · exact shedPort_starts ..
      · exact (shedPort_starts ..).trans (applyPlacement_starts ..)

theorem losePipe_starts (s : State) (n : PipeIx) : Starts s (s.losePipe n) := by
  rw [losePipe_eq]
  split
  · exact .refl s
  · exact ((lostPort_starts ..).trans (donePings_starts ..)).trans (handPipe_starts ..)

theorem afterInvocation_starts (s : State) (n : EngIx) : Starts s (s.afterInvocation n) := by
  unfold State.afterInvocation
  split
  · exact modEng_starts ..
  · split <;> exact modEng_starts ..
  · exact .refl s

end Sys2Proof.Proofs

/-! O53: what lost engines and Press lanes, and the end of a commit, leave of a start. -/

namespace Sys2Proof.Proofs
open Sys2Proof Sys2Proof.Machine Sys2Proof.Claims

/-! ### Engines and Press lanes -/

/-- The input blocks of an engine that stops are discarded (R346). -/
def dropInput (u : State) (z : Nat) (n : EngIx) (input : List VatIn) : State :=
  input.foldl (fun (u : State) (b : VatIn) => u.discard z 5
    { product := 5, tFirst := b.arrived, tLast := b.arrived, seq := none, size := b.bytes.length }) (u.modEng n fun e => { e with input := [] })

/-- The engine as a fault records it (R345). -/
def faulted (e : Engine) (code : Nat) (x : Engine) : Engine :=
  { x.drainTransfers with
    stat := setFld (setFld (setBit (bumpFld e.stat 24 8) 3) 8 4 code) 0 3 (if decide (e.faultLim ≤ e.faultsInRow + 1) then 5 else 2)
    fpc := setFld 0 0 13 e.pc
    fop := BitVec.ofNat 32 e.opc
    lastOp := BitVec.ofNat 32 e.opc
    peakOp := BitVec.ofNat 32 (max e.peakOp.toNat e.opc)
    faultsInRow := e.faultsInRow + 1
    stalledSince := none
    current := none }

/-- The whey record of an invocation that ends without delivery (R345). -/
def wheyBlock (s : State) (e : Engine) (u : State) : State :=
  match e.current, e.zone with
  | some b, some z =>
    let t := unstamp (rd b.bytes 16 12)
    u.whey (zoneStream z) (some z) { Whey.blank 4 z (zonePort s.settings z) with
      products := 0x10, tFirst := t, tLast := t, firstPoint := rd b.bytes 8 4, nPoints := rd b.bytes 12 4, count := 1,
      lostBytes := b.bytes.length }
  | _, _ => u

/-- An engine that its faults stop drops its input (R346). -/
def stopInput (e : Engine) (n : EngIx) (u : State) : State :=
  match e.zone with
  | some z => if decide (e.faultLim ≤ e.faultsInRow + 1) then dropInput u z n e.input else u
  | none => u

theorem vatFault_eq (s : State) (n : EngIx) (code : Nat) : s.vatFault n code =
    (stopInput s.engines[n] n ((wheyBlock s s.engines[n] (s.modEng n (faulted s.engines[n] code))).raiseN (120 + n.val))).afterInvocation n := rfl

theorem dropInput_starts (u : State) (z : Nat) (n : EngIx) (input : List VatIn) : Starts u (dropInput u z n input) := by
  unfold dropInput
  refine (modEng_starts u n _).trans (.foldl (fun u b => ?_) _ _)
  exact (discard_only u z 5 _).starts

theorem wheyBlock_starts (s : State) (e : Engine) (u : State) : Starts u (wheyBlock s e u) := by
  unfold wheyBlock
  split
  · exact (whey_only (F := []) ..).starts
  · exact .refl u

theorem stopInput_starts (e : Engine) (n : EngIx) (u : State) : Starts u (stopInput e n u) := by
  unfold stopInput
  split
  · exact .ite (fun _ => dropInput_starts ..) fun _ => .refl u
  · exact .refl u

theorem vatFault_starts (s : State) (n : EngIx) (code : Nat) : Starts s (s.vatFault n code) := by
  rw [vatFault_eq]
  exact (((modEng_starts ..).trans (wheyBlock_starts ..)).trans (raiseN_starts ..)).trans ((stopInput_starts ..).trans (afterInvocation_starts ..))

/-- The program of a lost engine begins anew on another (R367). -/
def engineTo (e : Engine) (img : Option Image) (n : EngIx) (x : InstPlace) (readable : Bool) (u : State) (b : EngIx) : State :=
  let v := (u.modEng b fun y => match img with
    | some i =>
      let z := ({ y with input := e.input, blockSeq := e.blockSeq } : Engine).load i
      { z with zone := some x.zone, inst := x.index, dmem := if readable then e.lastMem.getD z.dmem else z.dmem, lastMem := e.lastMem }
    | none => y).modEng n fun y => { y with zone := none, input := [] }
  v.applyPlacement (v.ladle.place.move (.engine n) (.engine b))

/-- The program of a lost engine finds another, or a zone is shed for it (R367). -/
def handEngine (e : Engine) (img : Option Image) (n : EngIx) (x : InstPlace) (readable : Bool) (s1 : State) : State :=
  match s1.spareOf (.engine n) with
  | some (.engine b) => engineTo e img n x readable s1 b
  | _ =>
    match (shedOrder s1.settings ((s1.ladle.place.insts.map (·.zone)).eraseDups)).head? with
    | none => s1
    | some v =>
      let s2 := s1.shedZone v 2
      let s3 := s2.applyPlacement { s2.ladle.place with insts := s2.ladle.place.insts.filter fun y => y.zone != v }
      if v = x.zone then s3
      else match s3.spareOf (.engine n) with
        | some (.engine b) => engineTo e img n x readable s3 b
        | _ => s3

theorem loseEngine_eq (s : State) (n : EngIx) (readable : Bool) : s.loseEngine n readable = match s.ladle.place.insts.find? fun x => x.engine == n.val with
    | none => s
    | some x => handEngine s.engines[n] (s.images.find? fun i => i.id == s.settings.zone x.zone 0x1705) n x readable
      (if s.engines[n].current.isSome then s.vatFault n 10 else s) := rfl

theorem engineTo_starts (e : Engine) (img : Option Image) (n : EngIx) (x : InstPlace) (r : Bool) (u : State) (b : EngIx) :
    Starts u (engineTo e img n x r u b) := ((modEng_starts ..).trans (modEng_starts ..)).trans (applyPlacement_starts ..)

theorem handEngine_starts (e : Engine) (img : Option Image) (n : EngIx) (x : InstPlace) (r : Bool) (s : State) : Starts s (handEngine e img n x r s) := by
  unfold handEngine
  split
  · exact engineTo_starts ..
  · split
    · exact .refl s
    · next v _ =>
      have h := (shedZone_starts s v 2).trans
        (applyPlacement_starts _ { (s.shedZone v 2).ladle.place with insts := (s.shedZone v 2).ladle.place.insts.filter fun y => y.zone != v })
      refine .ite (fun _ => h) fun _ => ?_
      split
      · exact h.trans (engineTo_starts ..)
      · exact h

theorem loseEngine_starts (s : State) (n : EngIx) (r : Bool) : Starts s (s.loseEngine n r) := by
  rw [loseEngine_eq]
  split
  · exact .refl s
  · exact Starts.trans (.ite (fun _ => vatFault_starts ..) fun _ => .refl s) (handEngine_starts ..)

/-- One share of a lane that leaves it (R367). -/
def moveShare (s : State) (n : PressIx) (u : State) (x : Nat × Nat × Nat) : State :=
  let room := (List.range 26).find? fun m => m != n.val && u.pressOk m && decide (u.ladle.place.pressUsed m + x.2.2 ≤ 1800000000)
  match room with
  | some m =>
    let bs := s.press[n].blocks.filter fun b => b.frame.zone == x.1
    (u.modLadle fun l => { l with place := { l.place with press := l.place.press ++ [(x.1, m, x.2.2)] } }).onPress m fun l => { l with
      blocks := l.blocks ++ bs }
  | none => u.shedZone x.1 3

/-- A Press lane whose shares have left. -/
def emptyLane (n : PressIx) (none' : Bool) (s1 : State) : State :=
  let s2 := s1.modPress n fun l => { l with blocks := [] }
  let s3 := (s2.syncPress s2.ladle.place).refreshLadle
  if none' then s3 else s3.bumpGen

theorem movePress_eq (s : State) (n : PressIx) : s.movePress n =
    emptyLane n (s.ladle.place.press.filter fun x => x.2.1 == n.val).isEmpty ((s.ladle.place.press.filter fun x => x.2.1 == n.val).foldl (moveShare s n)
      (s.modLadle fun l => { l with place := { l.place with press := l.place.press.filter fun x => x.2.1 != n.val } })) := rfl

theorem moveShare_starts (s : State) (n : PressIx) (u : State) (x : Nat × Nat × Nat) : Starts u (moveShare s n u x) := by
  unfold moveShare
  dsimp only
  split
  · exact (modLadle_starts ..).trans (onPress_only ..).starts
  · exact shedZone_starts ..

theorem emptyLane_starts (n : PressIx) (b : Bool) (s : State) : Starts s (emptyLane n b s) := by
  unfold emptyLane
  have h1 := modPress_starts s n fun l => { l with blocks := [] }
  generalize s.modPress n (fun l => { l with blocks := [] }) = v at h1 ⊢
  have h := (h1.trans (syncPress_only v v.ladle.place).starts).trans (refreshLadle_starts _)
  exact .ite (fun _ => h) fun _ => h.trans (bumpGen_only _).starts

theorem movePress_starts (s : State) (n : PressIx) : Starts s (s.movePress n) := by
  rw [movePress_eq]
  exact ((modLadle_starts ..).trans (.foldl (moveShare_starts s n) _ _)).trans (emptyLane_starts ..)

theorem rehome_starts (s : State) : Starts s s.rehome := by
  unfold State.rehome
  dsimp only
  refine .trans (.trans (.foldl (fun u n => ?_) _ _) (.foldl (fun u n => ?_) _ _)) (.foldl (fun u n => ?_) _ _)
  · exact .ite (fun _ => losePipe_starts ..) fun _ => .refl u
  · exact .ite (fun _ => loseEngine_starts ..) fun _ => .refl u
  · exact .ite (fun _ => movePress_starts ..) fun _ => .refl u

/-! ### The end of a commit -/

theorem finish_starts (s : State) (i : SessIx) (op : BitVec 16) (k : Packet) (st : Status) (items : List (List Byte)) :
    Starts s (s.finish i op k st items) := by
  unfold State.finish
  refine .ite (fun _ => .of_same (complete_same ..)) fun _ => ?_
  have h : Starts s (s.freeSlot k.transport k.session k.seq) := .of_same (freeSlot_same ..)
  exact .ite (fun _ => h.trans (raise_starts ..)) fun _ => h

/-- The state with other commits waiting. -/
def withCommits (s : State) (cs : List Commit) : State := { s with commits := cs }

theorem withCommits_starts (s : State) (cs : List Commit) : Starts s (withCommits s cs) := .of_time rfl rfl

theorem fixFirst_starts (s : State) : Starts s s.fixFirst := by
  unfold State.fixFirst
  split
  · exact .refl s
  · exact .ite (fun _ => .refl s) fun _ => withCommits_starts s _

/-- The reply to the command whose commit ends (R453). -/
def answerCommit (c : Commit) (s3 : State) : State :=
  match c.owner with
  | some (i, op, k) =>
    let items := if op.toNat = 0x0202 then
        [item 0x0304 (stampB (s3.devOf c.tC)), item 0x0305 (stampB (s3.devOf c.tLast))] else []
    s3.finish i op k 0 items
  | none => s3

/-- A commit that ends, its reply sent (R460, R545). -/
def endCommit (c : Commit) (cs : List Commit) (s : State) : State :=
  let s1 := s.applyPlacement c.placement
  let s4 := answerCommit c (withCommits (if c.moved then s1.raise 250 else s1) cs)
  if c.owner.isSome then s4.raise 255 else s4.modBoot fun b => { b with pwrStat := clrBit b.pwrStat 2 }

theorem finishCommit_eq (s : State) : s.finishCommit = match s.commits with
    | [] => s
    | c :: cs => if c.deviceDone && c.touched.isEmpty then (endCommit c cs s).rehome.fixFirst else s := rfl

theorem answerCommit_starts (c : Commit) (s : State) : Starts s (answerCommit c s) := by
  unfold answerCommit
  split
  · exact finish_starts ..
  · exact .refl s

theorem endCommit_starts (c : Commit) (cs : List Commit) (s : State) : Starts s (endCommit c cs s) := by
  unfold endCommit
  dsimp only
  have h1 := applyPlacement_starts s c.placement
  generalize s.applyPlacement c.placement = v at h1 ⊢
  have h2 : Starts s (if c.moved then v.raise 250 else v) := .ite (fun _ => h1.trans (raise_starts ..)) fun _ => h1
  generalize (if c.moved then v.raise 250 else v) = w at h2 ⊢
  have h3 := (h2.trans (withCommits_starts w cs)).trans (answerCommit_starts c _)
  generalize answerCommit c (withCommits w cs) = x at h3 ⊢
  exact .ite (fun _ => h3.trans (raise_starts ..)) fun _ => h3.trans (modBoot_starts x fun b => { b with pwrStat := clrBit b.pwrStat 2 })

theorem finishCommit_starts (s : State) : Starts s s.finishCommit := by
  rw [finishCommit_eq]
  split
  · exact .refl s
  · exact .ite (fun _ => ((endCommit_starts ..).trans (rehome_starts _)).trans (fixFirst_starts _)) fun _ => .refl s

end Sys2Proof.Proofs

/-! O53: what a commit, boundary by boundary, leaves of a start. -/

namespace Sys2Proof.Proofs
open Sys2Proof Sys2Proof.Machine Sys2Proof.Claims

theorem withSettings_starts (s : State) (x : Settings) : Starts s { s with settings := x } := .of_time rfl rfl
theorem rezone_starts (s : State) (old : Settings) (z : Nat) (x : Time) (r : Bool) : Starts s (s.rezone old z x r) := (rezone_only ..).starts
theorem atBoundary_starts (s : State) (p : PortIx) (w : Later) : Starts s (s.atBoundary p w) := (atBoundary_effect s p w).1.starts
theorem driveInhibit_starts (s : State) : Starts s s.driveInhibit := (driveInhibit_only s).starts
theorem startEpoch_starts (s : State) (p : PortIx) : Starts s (s.startEpoch p) :=
  (modPort_starts s p Port.newEpoch).trans (queueAnchor_effect (s.modPort p Port.newEpoch) p.val).1.starts
theorem markPlan_starts (s : State) (p : Nat) : Starts s (s.markPlan p) := modLook_starts ..

theorem restartRaw_starts (s : State) (p : Nat) : Starts s (s.restartRaw p) := by
  unfold State.restartRaw
  split
  · exact modLook_starts ..
  · exact .refl s

/-! ### What touches no port -/

/-- The settings of a commit that touch no port. -/
def deviceSettings (s : State) (c : Commit) : State :=
  let old := s.settings
  let mine := fun (k : SetKey) => c.has k && (match k.kind with | .device | .emitter | .trigger | .stream => true | _ => false)
  { s with settings := s.keepGroups old (takeKeys old c.target mine) .emitter (c.emitters.filter (emDefined old)) }

/-- Ports whose light the commit's emitters give or gave are declared anew. -/
def undeclare (c : Commit) (old new : Settings) (s1 : State) : State :=
  let lit := fun (p : Nat) => c.emitters.any fun e =>
    (emDefined old e && emRole old e ≤ 1 && emServes old e == p) || (emDefined new e && emRole new e ≤ 1 && emServes new e == p)
  s1.forPorts fun p u => if lit p.val then u.modPort p fun q => { q with declared := false } else u

/-- The commit's triggers begin afresh. -/
def clearTrigs (c : Commit) (s2 : State) : State :=
  let trigs := ((c.keys.filter fun k => k.kind == .trigger).map (·.inst) ++ (c.removes.filter fun r => r.1 == .trigger).map (·.2)).eraseDups
  trigs.foldl (fun u t => u.modTrig t fun _ => { last := none, ignored := 0, failed := 0, timeDone := false }) s2

/-- The registers that device parameters write. -/
def deviceRegs (c : Commit) (old new : Settings) (s3 : State) : State :=
  let s4 := if c.sets 0x020C then writeClkCtl (BitVec.ofNat 32 (new.dev 0x020C)) s3 else s3
  let s5t := if c.sets 0x020D then writeTiuCtl (BitVec.ofNat 32 (new.dev 0x020D)) s4 else s4
  if differs old new .device 0 0x1B01 || differs old new .device 0 0x1B02 then s5t.unfollow else s5t

/-- A new f_S (R195). -/
def newFs (c : Commit) (new : Settings) (s5 : State) : State :=
  let n := fld s5.clk.fs 0 13
  if c.sets 0x020B && new.fsN != n then (s5.setFs new.fsN).forPorts fun p u => u.portFs p n new.fsN else s5

theorem applyDevice_eq (s : State) (c : Commit) : s.applyDevice c = newFs c (deviceSettings s c).settings
    (deviceRegs c s.settings (deviceSettings s c).settings (clearTrigs c (undeclare c s.settings (deviceSettings s c).settings (deviceSettings s c)))) := rfl

theorem undeclare_starts (c : Commit) (old new : Settings) (s : State) : Starts s (undeclare c old new s) :=
  .forPorts (fun _ u => .ite (fun _ => modPort_starts ..) fun _ => .refl u) s

theorem clearTrigs_starts (c : Commit) (s : State) : Starts s (clearTrigs c s) := .foldl (fun u t => (modTrig_only u t _).starts) _ _

theorem writeClkCtl_starts (v : Word) (s : State) : Starts s (writeClkCtl v s) := (modClk_starts ..).trans (startMove_only _).starts

theorem writeTiuCtl_starts (v : Word) (s : State) : Starts s (writeTiuCtl v s) := by
  unfold writeTiuCtl
  dsimp only
  have h := modTiu_starts s fun t => { t with ctl := wrRW 0xFFF1 t.ctl v }
  generalize (s.modTiu fun t => { t with ctl := wrRW 0xFFF1 t.ctl v }) = u at h ⊢
  exact .ite (fun _ => h) fun _ => (h.trans (modTiu_starts ..)).trans (followInputs_follows _ true).only.starts

theorem deviceRegs_starts (c : Commit) (old new : Settings) (s : State) : Starts s (deviceRegs c old new s) := by
  unfold deviceRegs
  dsimp only
  have h1 : Starts s (if c.sets 0x020C then writeClkCtl (BitVec.ofNat 32 (new.dev 0x020C)) s else s) :=
    .ite (fun _ => writeClkCtl_starts ..) fun _ => .refl s
  generalize (if c.sets 0x020C then writeClkCtl (BitVec.ofNat 32 (new.dev 0x020C)) s else s) = u at h1 ⊢
  have h2 : Starts s (if c.sets 0x020D then writeTiuCtl (BitVec.ofNat 32 (new.dev 0x020D)) u else u) :=
    .ite (fun _ => h1.trans (writeTiuCtl_starts ..)) fun _ => h1
  generalize (if c.sets 0x020D then writeTiuCtl (BitVec.ofNat 32 (new.dev 0x020D)) u else u) = v at h2 ⊢
  exact .ite (fun _ => h2.trans (unfollow_starts _)) fun _ => h2

theorem startRetune_starts (s : State) : Starts s s.startRetune := by
  unfold State.startRetune
  exact .ite (fun _ => modClk_starts ..) fun _ => modClk_starts ..

theorem portFs_starts (s : State) (p : PortIx) (old new : Nat) : Starts s (s.portFs p old new) := by
  unfold State.portFs
  exact ((modPort_starts ..).trans (restartRaw_starts ..)).trans (markPlan_starts ..)

theorem newFs_starts (c : Commit) (new : Settings) (s : State) : Starts s (newFs c new s) :=
  .ite (fun _ => ((modClk_starts ..).trans (startRetune_starts _)).trans (.forPorts (fun _ _ => portFs_starts ..) _)) fun _ => .refl s

theorem applyDevice_starts (s : State) (c : Commit) : Starts s (s.applyDevice c) := by
  rw [applyDevice_eq]
  have h : Starts s (deviceSettings s c) := withSettings_starts ..
  exact ((h.trans (undeclare_starts ..)).trans (clearTrigs_starts ..)).trans ((deviceRegs_starts ..).trans (newFs_starts ..))

/-! ### A port's boundary -/

/-- The settings of a commit that touch a port. -/
def portSettings (s : State) (c : Commit) (p : PortIx) : State :=
  { s with settings := s.keepGroups s.settings (takeKeys s.settings c.target fun (k : SetKey) =>
    c.has k && keyPort s.settings c.target k == some p.val) .port [p.val] }

/-- The port under its new plan or gauge, its lanes powered or not, its calibrators' registers written. -/
def portTakes (c : Commit) (p : PortIx) (old : Settings) (planNew gauge : Bool) (s1 : State) : State :=
  let new := s1.settings
  let s2 := s1.modPort p fun q =>
    if planNew then ((q.newPlan p.val new).calDiscard .x).calDiscard .y
    else
      let q1 := if !gauge then q else if q.pings.isEmpty then q.newGauge else { q with gaugeNext := true }
      { q1 with pings := q.pings.map (·.keep q.plan), plan := new }
  let s3 := if !(old.probing p.val) && new.probing p.val then s2.lanePower p true
    else if old.probing p.val && !(new.probing p.val) then s2.lanePower p false else s2
  s3.putRxc c p

/-- The zones of a port as its boundary takes them: withdrawn, created, changed. -/
def zonesTake (c : Commit) (s : State) (new : Settings) (p : PortIx) (ring : Bool) (s4 : State) : State :=
  let old := s.settings
  let was := zonesOf old p.val
  let now := zonesOf new p.val
  let s5 := (was.filter fun z => !(now.contains z) && !(c.target.zones.contains z)).foldl (fun u z => u.withdrawZone old z) s4
  let s6 := (now.filter fun z => !(old.zones.contains z)).foldl (fun u z => u.createZone z) s5
  let s7 := (now.filter fun z => old.zones.contains z && !(was.contains z)).foldl (fun u z => u.rezone old z s.time.dev ring) s6
  (now.filter fun z => old.zones.contains z && zoneChanged old new z [0x1304]).foldl (fun u z =>
    u.modZone z fun r => { r with gains := r.gains ++ [(s.devOf c.tC, old.zone z 0x1304)] }) s7

/-- The work at the boundary itself: an epoch, the zones' resets, the rings. -/
def portTurns (p : PortIx) (s : State) (new : Settings) (planNew gauge : Bool) (s8 : State) : State :=
  let old := s.settings
  let pn := p.val
  let lost := old.probing pn && !(new.probing pn)
  let fresh := planNew || (s8.ports[p].epochPending && new.probing pn)
  let s9 := (if fresh then s8.startEpoch p else s8).atBoundary p {
    old := old, inst := s.time.dev, reset := fresh || gauge || s8.ports[p].resetPending, ring := planNew || gauge }
  let s10 := s9.modPort p fun q => ({ q with
    epochPending := if fresh then false else q.epochPending || lost, resetPending := false }.calBoundary .x).calBoundary .y
  let s11 := if planNew then s10.markPlan pn else s10
  let s12 := if old.mode pn 3 != new.mode pn 3 || (new.mode pn 3 && differs old new .port pn 0x0202) then s11.restartRaw pn else s11
  if !(old.mode pn 2) && new.mode pn 2 then s12.modPort p fun q => { q with delay := { q.delay with anchorAt := s.time.mono, lastEnd := none, samples := [] } } else s12

/-- The bookings of a port and its zones, the drains that end and the Raman inhibit. -/
def portBooks (c : Commit) (p : PortIx) (was now : List Nat) (s13 : State) : State :=
  let pn := p.val
  let late := fun (x : Nat) => x < 24 && !(c.touched.contains x) && s13.settings.probing x && !(s13.ladle.shedPorts.contains x)
  let pl := s13.ladle.place.take c.placement pn (was ++ now).eraseDups late (zonePort c.target)
  let waits := (c.placement.pipe? pn).isSome && (pl.pipe? pn).isNone
  let s13a := if waits then (closeGate p s13).modPort p fun q => { q with holdGate := true, connectAt := 0 } else s13
  let s14 := s13a.applyPlacement pl
  (was.foldl (fun u z => u.endDrain z) s14).driveInhibit

theorem applyPort_eq (s : State) (c : Commit) (p : PortIx) : s.applyPort c p =
    let s1 := portSettings s c p
    let planNew := c.keys.any (planKey p.val) && s1.settings.hasPlan p.val
    let gauge := differs s.settings s1.settings .port p.val 0x1201
    portBooks c p (zonesOf s.settings p.val) (zonesOf s1.settings p.val) (portTurns p s s1.settings planNew gauge
      ((zonesTake c s s1.settings p (planNew || gauge) (portTakes c p s.settings planNew gauge s1)).retime p (c.restarted.contains p.val))) := rfl

theorem lanePower_starts (s : State) (p : PortIx) (b : Bool) : Starts s (s.lanePower p b) := .foldl (fun _ _ => modLane_starts ..) _ _

theorem putRxc_starts (s : State) (c : Commit) (p : PortIx) : Starts s (s.putRxc c p) := by
  unfold State.putRxc
  dsimp only
  refine .ite (fun _ => .trans (.ite (fun _ => modPort_starts ..) fun _ => .refl s) (modPort_starts ..)) fun _ => ?_
  exact .ite (fun _ => modPort_starts ..) fun _ => .refl s

theorem portTakes_starts (c : Commit) (p : PortIx) (old : Settings) (a b : Bool) (s : State) : Starts s (portTakes c p old a b s) := by
  unfold portTakes
  dsimp only
  refine Starts.trans ?_ (putRxc_starts ..)
  refine .ite (fun _ => (modPort_starts ..).trans (lanePower_starts ..)) fun _ => ?_
  exact .ite (fun _ => (modPort_starts ..).trans (lanePower_starts ..)) fun _ => modPort_starts ..

theorem createZone_starts (s : State) (z : Nat) : Starts s (s.createZone z) := by
  unfold State.createZone
  refine Starts.trans ?_ (restartCurd_only ..).starts
  split
  · exact (closeAll_only ..).starts.trans (modZone_starts ..)
  · exact .of_time rfl rfl

theorem zonesTake_starts (c : Commit) (s : State) (new : Settings) (p : PortIx) (b : Bool) (u : State) : Starts u (zonesTake c s new p b u) := by
  unfold zonesTake
  exact .trans (.trans (.trans (.foldl (fun _ _ => modZone_starts ..) _ _) (.foldl (fun _ _ => createZone_starts ..) _ _))
    (.foldl (fun _ _ => rezone_starts ..) _ _)) (.foldl (fun _ _ => modZone_starts ..) _ _)

theorem retime_starts (s : State) (p : PortIx) (b : Bool) : Starts s (s.retime p b) := by
  unfold State.retime
  refine .ite (fun _ => (closeGate_starts ..).trans (modPort_starts ..)) fun _ => .ite (fun _ => modPort_starts ..) fun _ => ?_
  exact .ite (fun _ => modPort_starts ..) fun _ => .refl s

theorem portTurns_starts (p : PortIx) (s : State) (new : Settings) (a b : Bool) (u : State) : Starts u (portTurns p s new a b u) := by
  unfold portTurns
  dsimp only
  generalize (a || (u.ports[p].epochPending && new.probing p.val)) = fresh
  have h1 : Starts u (if fresh = true then u.startEpoch p else u) := .ite (fun _ => startEpoch_starts ..) fun _ => .refl u
  generalize (if fresh = true then u.startEpoch p else u) = v at h1 ⊢
  have h2 := h1.trans (atBoundary_starts v p {
    old := s.settings, inst := s.time.dev, reset := fresh || b || u.ports[p].resetPending, ring := a || b })
  generalize v.atBoundary p _ = w at h2 ⊢
  generalize (s.settings.probing p.val && !new.probing p.val) = lost
  have h3 := h2.trans (modPort_starts w p fun q => ({ q with
    epochPending := if fresh then false else q.epochPending || lost, resetPending := false }.calBoundary .x).calBoundary .y)
  generalize w.modPort p _ = x at h3 ⊢
  have h4 : Starts u (if a = true then x.markPlan p.val else x) := .ite (fun _ => h3.trans (markPlan_starts ..)) fun _ => h3
  generalize (if a = true then x.markPlan p.val else x) = y at h4 ⊢
  generalize (s.settings.mode p.val 3 != new.mode p.val 3 || (new.mode p.val 3 && differs s.settings new .port p.val 0x0202)) = raw
  have h5 : Starts u (if raw = true then y.restartRaw p.val else y) := .ite (fun _ => h4.trans (restartRaw_starts ..)) fun _ => h4
  exact .ite (fun _ => h5.trans (modPort_starts ..)) fun _ => h5

theorem portBooks_starts (c : Commit) (p : PortIx) (was now : List Nat) (s : State) : Starts s (portBooks c p was now s) := by
  unfold portBooks
  dsimp only
  refine Starts.trans (Starts.trans (.trans ?_ (applyPlacement_starts ..)) (.foldl (fun _ _ => endDrain_starts ..) _ _)) (driveInhibit_starts _)
  exact .ite (fun _ => (closeGate_starts ..).trans (modPort_starts ..)) fun _ => .refl s

theorem applyPort_starts (s : State) (c : Commit) (p : PortIx) : Starts s (s.applyPort c p) := by
  rw [applyPort_eq]
  dsimp only
  have h : Starts s (portSettings s c p) := withSettings_starts ..
  exact ((h.trans (portTakes_starts ..)).trans (zonesTake_starts ..)).trans ((retime_starts ..).trans ((portTurns_starts ..).trans (portBooks_starts ..)))

/-! ### Commits -/

/-- The device-wide boundary of the first commit. -/
def atDevice (c : Commit) (cs : List Commit) (s : State) : State :=
  (withCommits (s.applyDevice c) ({ c with deviceDone := true } :: cs)).finishCommit

/-- A port's boundary of the first commit. -/
def atPort (c : Commit) (cs : List Commit) (p : PortIx) (s : State) : State :=
  (withCommits (s.applyPort c p)
    ({ c with touched := c.touched.filter (fun x => x != p.val), tLast := max c.tLast s.time.mono } :: cs)).finishCommit

theorem commitAt_eq (s0 : State) (po : Option PortIx) : s0.commitAt po = match s0.commits with
    | [] => s0
    | c :: cs => if !c.fixed then s0 else match po with
      | none => if c.deviceDone then s0 else atDevice c cs (s0.until c.tC)
      | some p => if !(c.touched.contains p.val) || s0.inShadow p.val then s0
        else atPort c cs p (s0.until (if c.restarted.contains p.val then c.tC else (s0.boundaryAt p.val c.tC).getD c.tC)) := rfl

theorem atDevice_starts (c : Commit) (cs : List Commit) (s : State) : Starts s (atDevice c cs s) :=
  ((applyDevice_starts ..).trans (withCommits_starts ..)).trans (finishCommit_starts _)

theorem atPort_starts (c : Commit) (cs : List Commit) (p : PortIx) (s : State) : Starts s (atPort c cs p s) :=
  ((applyPort_starts ..).trans (withCommits_starts ..)).trans (finishCommit_starts _)

theorem commitAt_starts (s : State) (po : Option PortIx) : Starts s (s.commitAt po) := by
  rw [commitAt_eq]
  split
  · exact .refl s
  · refine .ite (fun _ => .refl s) fun _ => ?_
    split
    · exact .ite (fun _ => .refl s) fun _ => (until_starts ..).trans (atDevice_starts ..)
    · exact .ite (fun _ => .refl s) fun _ => (until_starts ..).trans (atPort_starts ..)

theorem commitNow_starts (s : State) : Starts s s.commitNow := by
  unfold State.commitNow
  split
  · exact .refl s
  · refine (commitAt_starts ..).trans (.foldl (fun u p => ?_) _ _)
    split
    · exact commitAt_starts ..
    · exact .refl u

theorem tryCommit_starts {s t : State} {l : List Machine.Staged} (h : s.tryCommit l none = .ok t) : Starts s t := by
  unfold State.tryCommit at h
  dsimp only at h
  split at h
  · cases h
  · split at h
    · cases h
    · cases h
      exact (withCommits_starts ..).trans (fixFirst_starts _)

theorem bootCommit_starts {s t : State} {ss : Settings} (h : s.bootCommit ss = some t) : Starts s t := by
  unfold State.bootCommit at h
  split at h
  · cases h
    exact .refl s
  · split at h
    · next hc =>
      cases h
      exact (tryCommit_starts hc).trans (commitNow_starts _)
    · cases h

theorem bootCommit_getD_starts (s : State) (ss : Settings) : Starts s ((s.bootCommit ss).getD s) := by
  cases h : s.bootCommit ss with
  | none => exact .refl s
  | some t => exact bootCommit_starts h

theorem bootPart_starts (ss : Settings) (s : State) (own : SetKey → Bool) : Starts s (bootPart ss s own) := bootCommit_getD_starts ..

theorem bootPort_starts (ss : Settings) (acc : State × Nat) (p : Nat) : Starts acc.1 (bootPort ss acc p).1 := by
  unfold bootPort
  dsimp only
  split
  · next h => exact bootCommit_starts h
  · split
    · next h => exact bootCommit_starts h
    · exact bootCommit_getD_starts ..

theorem bootPorts_starts (ss : Settings) (l : List Nat) (acc : State × Nat) : Starts acc.1 (l.foldl (bootPort ss) acc).1 := by
  induction l generalizing acc with
  | nil => exact .refl _
  | cons p l ih => exact (bootPort_starts ss acc p).trans (ih _)

end Sys2Proof.Proofs

/-! O53: what each step of a start leaves of it (R530 to R542). -/

namespace Sys2Proof.Proofs
open Sys2Proof Sys2Proof.Machine Sys2Proof.Claims

/-! ### The record, the causes and the status of the start -/

theorem modRec_starts (s : State) (f : BootRec → BootRec) (h : ∀ r, (f r).bootCnt = r.bootCnt := by intro _; rfl) : Starts s (s.modRec f) := by
  unfold State.modRec
  refine ⟨?_, ?_, fun i hi => ?_, ?_, ?_, ?_, ?_, ?_, by rw [State.modBoot_time]⟩
  all_goals rw [State.modBoot_boot]
  · exact hi
  · dsimp only
    cases s.boot.journal <;> rfl
  · dsimp only
    cases s.boot.journal with
    | nil => rfl
    | cons r rs => exact congrArg some (h r)

theorem bit_setBit_of {w : Word} {i j : Nat} (h : bit w i = true) : bit (setBit w j) i = true := by
  by_cases hij : i = j
  · subst hij
    exact bit_setBit_self _ (BitVec.lt_of_getLsbD h)
  · rw [bit_setBit_ne _ hij]
    exact h

theorem setCause_starts (s : State) (i : Nat) : Starts s (s.modBoot fun b => { b with rstCause := setBit b.rstCause i }) := by
  refine ⟨?_, ?_, fun j hj => ?_, ?_, ?_, ?_, ?_, ?_, by rw [State.modBoot_time]⟩
  all_goals rw [State.modBoot_boot]
  exact bit_setBit_of hj

theorem modStat_starts (s : State) (f : Word → Word) (h : ∀ w, bit (f w) 0 = bit w 0) : Starts s (s.modBoot fun b => { b with bootStat := f b.bootStat }) := by
  refine ⟨?_, ?_, fun j hj => ?_, ?_, ?_, ?_, ?_, ?_, by rw [State.modBoot_time]⟩
  all_goals rw [State.modBoot_boot]
  · exact hj
  · exact h _

/-- What an outcome sets in BOOT_STAT (R542). -/
def outcomeStat (outcome : Nat) (w : Word) : Word := match outcome with
  | 2 => setBit w 1
  | 3 => setBit w 2
  | 4 => setBit w 3
  | _ => w

theorem outcomeStat_bit (outcome : Nat) (w : Word) : bit (outcomeStat outcome w) 0 = bit w 0 := by
  unfold outcomeStat
  split
  · exact bit_setBit_ne _ (by omega)
  · exact bit_setBit_ne _ (by omega)
  · exact bit_setBit_ne _ (by omega)
  · rfl

theorem stepDone_starts (s : State) (n outcome reason detail : Nat) : Starts s (s.stepDone n outcome reason detail) :=
  (modRec_starts s _).trans (modStat_starts _ (outcomeStat outcome) (outcomeStat_bit outcome))

theorem modGlb_starts (s : State) (f : Glb → Glb) : Starts s (s.modGlb f) := .of_time (State.modGlb_boot ..) (State.modGlb_time ..)

theorem atStep_starts (s : State) (n : Nat) : Starts s (s.atStep n) := (modGlb_starts ..).trans (modRec_starts _ _)

theorem modLinks_starts (s : State) (f : Links → Links) : Starts s (s.modLinks f) := .of_time (State.modLinks_boot ..) (State.modLinks_time ..)
theorem modRind_starts (s : State) (f : Rind → Rind) : Starts s (s.modRind f) := .of_time (State.modRind_boot ..) (State.modRind_time ..)
theorem modAon_starts (s : State) (f : Aon → Aon) : Starts s (s.modAon f) := (modAon_only ..).starts
theorem modPipe_starts (s : State) (n : PipeIx) (f : Pipe → Pipe) : Starts s (s.modPipe n f) := .of_time (State.modPipe_boot ..) (State.modPipe_time ..)
theorem fresh_starts (s : State) : Starts s s.fresh.2 := (fresh_only s).starts

/-! ### B00 to B04 -/

theorem recordTamper_starts (s : State) (b : Bool) : Starts s (s.recordTamper b) := by
  unfold State.recordTamper
  exact (modRind_starts ..).trans (modAon_starts ..)

theorem tellTamper_starts (s : State) : Starts s s.tellTamper := by
  unfold State.tellTamper
  exact .ite (fun _ => (recordTamper_starts ..).trans (modAon_starts ..)) fun _ => .ite (fun _ => .refl s) fun _ => recordTamper_starts ..

theorem bootB00_starts (r : StepResult) (pl : StepPlan) (s : State) : Starts s (bootB00 r pl s).s := by
  unfold bootB00
  split
  · have h := (setCause_starts s 6).trans (modAon_starts _ fun a => { a with lost := false, untold := true })
    exact .ite (fun _ => h.trans (tellTamper_starts _)) fun _ => h
  · split
    · exact .refl s
    · exact setCause_starts ..

theorem bootB01_starts (pl : StepPlan) (s : State) : Starts s (bootB01 pl s).s := by
  unfold bootB01
  split <;> exact .refl s

/-- The state as B02 leaves it with the image of slot `n`. -/
def slotUsed (b : BootEnv) (n : Nat) (s : State) : State :=
  let v := BitVec.ofNat 32 (slotFwVer (slotOf b n))
  let s1 := (s.modGlb fun g => { g with fwver := v }).modBoot fun x => { x with bootStat := putBit x.bootStat 4 (n == 1) }
  s1.modRec fun x => { x with fwSlot := BitVec.ofNat 8 n, fwVer := v }

theorem bootB02_some {b : BootEnv} {prev : List BootRec} {r : StepResult} {pl : StepPlan} {s : State} {n : Nat}
    (h : usedSlot b prev pl s.boot.rollback = some n) : bootB02 b prev r pl s =
      if (slotOrder b prev pl).head? == some n then { passed pl 2 (slotUsed b n s) with detail := r.detail }
      else passedAlt { r with reason := 2 } ((slotUsed b n s).fresh.2.elapse ((slotUsed b n s).fresh.1.toNat % (stepLimit 2 + 1))) := by
  unfold bootB02
  rw [h]
  rfl

theorem bootB02_none {b : BootEnv} {prev : List BootRec} {r : StepResult} {pl : StepPlan} {s : State}
    (h : usedSlot b prev pl s.boot.rollback = none) : bootB02 b prev r pl s = failed true 2 r.detail s := by
  unfold bootB02
  rw [h]

theorem slotUsed_starts (b : BootEnv) (n : Nat) (s : State) : Starts s (slotUsed b n s) :=
  ((modGlb_starts ..).trans (modStat_starts _ (fun w => putBit w 4 (n == 1)) fun w => bit_putBit_ne _ _ (by omega))).trans (modRec_starts _ _)

theorem bootB02_starts (b : BootEnv) (prev : List BootRec) (r : StepResult) (pl : StepPlan) (s : State) : Starts s (bootB02 b prev r pl s).s := by
  cases h : usedSlot b prev pl s.boot.rollback with
  | none =>
    rw [bootB02_none h]
    exact .refl s
  | some n =>
    rw [bootB02_some h]
    split
    · exact slotUsed_starts ..
    · exact ((slotUsed_starts ..).trans (fresh_starts _)).trans (elapse_starts ..)

theorem loadRetired_starts (s : State) : Starts s s.loadRetired := by
  unfold State.loadRetired
  dsimp only
  refine .trans (.trans (.trans (.trans (.foldl (fun u n => ?_) _ _) (.foldl (fun u n => modEng_starts u n _) _ _)) (.foldl (fun u n => ?_) _ _))
    (modLadle_starts ..)) (refreshLadle_starts _)
  · exact .ite (fun _ => modPipe_starts ..) fun _ => .refl u
  · exact .ite (fun _ => modPress_starts ..) fun _ => .refl u

theorem bootB03_starts (b : BootEnv) (r : StepResult) (pl : StepPlan) (s : State) : Starts s (bootB03 b r pl s).s := by
  unfold bootB03
  dsimp only
  have h := (modBoot_starts s fun x => { x with
    hostAreaLog := ((savedSettings b true s).getI .device 0 0 0x0216 0 10).toNat, nvBad := b.nvBad
    retired := if nvHas b true .retired then x.retired else Retired.reset }).trans
      (modLadle_starts _ fun l => { l with wear := l.wear.map fun w => setBit w 16 })
  split
  · exact h
  · split <;> exact h

/-- The state in which B04 trains the stacks. -/
def stacksTrain (b : BootEnv) (s : State) : State := if b.repaired then s.raise 244 else s

theorem bootB04_eq (b : BootEnv) (r : StepResult) (pl : StepPlan) (s : State) : bootB04 b r pl s =
    if b.stacksUp = 0 then failed true (if r.reason = 0 then 3 else r.reason) r.detail (stacksTrain b s)
    else if b.stacksUp = 1 then
      reduced (if r.reason = 0 then 3 else r.reason) r.detail ((stacksTrain b s).modBoot fun x => { x with pwrStat := setBit x.pwrStat 3 })
    else if r.reason = 0 then passed pl 4 (stacksTrain b s) else passedAlt r (stacksTrain b s) := rfl

theorem bootB04_starts (b : BootEnv) (r : StepResult) (pl : StepPlan) (s : State) : Starts s (bootB04 b r pl s).s := by
  rw [bootB04_eq]
  have h : Starts s (stacksTrain b s) := .ite (fun _ => raise_starts ..) fun _ => .refl s
  split
  · exact h
  · split
    · exact h.trans (modBoot_starts _ fun x => { x with pwrStat := setBit x.pwrStat 3 })
    · split <;> exact h

/-! ### B05 and B06 -/

theorem closeSession_starts (s : State) (i : SessIx) : Starts s (s.closeSession i) := .of_same (closeSession_same ..)

theorem pcieReset_starts (s : State) : Starts s s.pcieReset := by
  rw [pcieReset_eq]
  refine .trans (.foldl (fun u i => ?_) _ _) (modLinks_starts ..)
  unfold closesWithPcie
  split
  · exact closeSession_starts ..
  · exact .refl u

theorem pcieLinkChange_starts (l : PcieLink) (s : State) : Starts s (pcieLinkChange l s) := by
  unfold pcieLinkChange
  dsimp only
  refine .ite (fun _ => .refl s) fun _ => ?_
  generalize hx : (fun (x : Links) => _) = f
  refine .ite (fun _ => ((modLinks_starts s f).trans (pcieReset_starts _)).trans (raise_starts ..)) fun _ => ?_
  refine .ite (fun _ => ((modLinks_starts s f).trans (modLinks_starts ..)).trans (raise_starts ..)) fun _ => ?_
  exact .ite (fun _ => ((modLinks_starts s f).trans (raise_starts ..)).trans (trimLink_only ..).starts) fun _ => modLinks_starts s f

theorem ethPortUpChange_starts (n : Fin 2) (up : Bool) (s : State) : Starts s (ethPortUpChange n up s) := by
  rw [ethPortUpChange_eq]
  exact .ite (fun _ => .refl s) fun _ => ((portTurned_effect n up s).1.starts.trans (raiseN_starts ..)).trans (flushDrained_only _).starts

theorem timingPortLinkChange_starts (up : Bool) (s : State) : Starts s (timingPortLinkChange up s) := by
  cases up with
  | false =>
    rw [timingPortDown_eq]
    refine .ite (fun _ => .refl s) fun _ => ?_
    unfold timingDown
    exact ((modLinks_starts ..).trans (raise_starts ..)).trans (unfollow_starts _)
  | true =>
    by_cases h : s.links.tportUp = true
    · rw [show timingPortLinkChange true s = s from if_pos h]
      exact .refl s
    · rw [timingPortUp_eq (eq_false_of_ne_true h)]
      unfold timingUp
      exact ((modClk_starts ..).trans (modLinks_starts ..)).trans (raise_starts ..)

/-- The links as B05 trains them. -/
def linksTrain (b : BootEnv) (ws : List Word) (s : State) : State :=
  timingPortLinkChange b.tportUp (ethPortUpChange 1 (b.ethUp.getD 1 false) (ethPortUpChange 0 (b.ethUp.getD 0 false)
    (pcieLinkChange b.pcie ((s.modEth 0 fun e => e.load (ws.take 16)).modEth 1 fun e => e.load (ws.drop 16)))))

theorem bootB05_eq (b : BootEnv) (loaded : Bool) (r : StepResult) (pl : StepPlan) (s : State) : bootB05 b loaded r pl s =
    let s4 := linksTrain b (if nvHas b loaded .network then s.boot.savedNet else []) s
    if r.reason = 0 then passed pl 5 s4
    else if r.alternative then passedAlt r s4
    else if s4.links.pcieUp || b.ethUp.any (fun x => x) || b.tportUp then reduced r.reason r.detail s4
    else failed false r.reason r.detail s4 := rfl

theorem linksTrain_starts (b : BootEnv) (ws : List Word) (s : State) : Starts s (linksTrain b ws s) := by
  unfold linksTrain
  have h : Starts s ((s.modEth 0 fun e => e.load (ws.take 16)).modEth 1 fun e => e.load (ws.drop 16)) :=
    (modEth_only ..).starts.trans (modEth_only ..).starts
  exact ((h.trans (pcieLinkChange_starts ..)).trans (ethPortUpChange_starts ..)).trans ((ethPortUpChange_starts ..).trans (timingPortLinkChange_starts ..))

theorem bootB05_starts (b : BootEnv) (loaded : Bool) (r : StepResult) (pl : StepPlan) (s : State) : Starts s (bootB05 b loaded r pl s).s := by
  rw [bootB05_eq]
  dsimp only
  have h := linksTrain_starts b (if nvHas b loaded .network then s.boot.savedNet else []) s
  generalize linksTrain b (if nvHas b loaded .network then s.boot.savedNet else []) s = u at h ⊢
  split
  · exact h
  · split
    · exact h
    · split <;> exact h

theorem sourceEvent_starts (s : State) (r : RefSrc) : Starts s (s.sourceEvent r) := by
  cases r with
  | internal => exact .refl s
  | recovered => exact raise_starts ..
  | refin => exact raise_starts ..

/-- The sources that qualify by B06 (R189). -/
def sourcesQualify (b : BootEnv) (s : State) : State :=
  ([.recovered, .refin] : List RefSrc).foldl (fun u r =>
    if b.sources.contains r && (r != .recovered || (u.links.tportUp && decide (u.clk.recovSince + u.clk.wtr ≤ u.time.mono))) then
      (u.modClk fun c => c.markSource r true).sourceEvent r else u) s

theorem sourcesQualify_starts (b : BootEnv) (s : State) : Starts s (sourcesQualify b s) :=
  .foldl (fun u _ => .ite (fun _ => (modClk_starts ..).trans (sourceEvent_starts ..)) fun _ => .refl u) _ _

/-- The clocks as B06 leaves them: the best source in use, the loops that lock. -/
def loopsLock (b : BootEnv) (c0 : Clocks) : Clocks :=
  let no := fun n => b.noLock.contains n
  let c := if c0.wanted = c0.src then c0 else { c0 with stat := setBit (setFld c0.stat 0 2 (srcCode c0.wanted)) 13 }
  let stat := ([5, 6, 7, 8, 9] : List Nat).foldl (fun w n => putBit w n (!(no n))) c.stat
  let g0 := if no 8 then clrBit (clrBit (clrBit c.ckg0 5) 6) 7 else c.ckg0
  { c with
    stat := stat, ckg0 := if no 9 then clrBit g0 4 else g0
    ckgStat := (if no 9 then [4] else []).foldl setBit ((if no 8 then [5, 6, 7] else []).foldl setBit c.ckgStat)
    ckg1 := if no 5 || no 6 then 0 else c.ckg1 }

theorem bootB06_eq (b : BootEnv) (r : StepResult) (pl : StepPlan) (s : State) : bootB06 b r pl s =
    if b.noLock.isEmpty then passed pl 6 ((sourcesQualify b s).modClk (loopsLock b))
    else reduced (if r.reason = 0 then 3 else r.reason) r.detail ((sourcesQualify b s).modClk (loopsLock b)) := rfl

theorem bootB06_starts (b : BootEnv) (r : StepResult) (pl : StepPlan) (s : State) : Starts s (bootB06 b r pl s).s := by
  rw [bootB06_eq]
  have h := (sourcesQualify_starts b s).trans (modClk_starts _ (loopsLock b))
  split <;> exact h

end Sys2Proof.Proofs

/-! O53: the later steps of a start, and the start as a whole (R530 to R542). -/

namespace Sys2Proof.Proofs
open Sys2Proof Sys2Proof.Machine Sys2Proof.Claims

/-! ### B07 to B10 -/

theorem laneCause_starts (s : State) (n : LaneIx) (i en : Nat) : Starts s (s.laneCause n i en) := (laneCause_effect s n i en).1.only.starts

/-- A lane of whose spare or position B07 lost the use (R82). -/
def laneJudged (b : BootEnv) (u : State) (n : LaneIx) : State :=
  let bad := match b.lanes[n.val]? with | some c => c.bad | none => []
  let u1 := if (u.lanes[n]).spare.isNone && !bad.contains 8 then u.laneCause n 2 18 else u
  if (u1.lanes[n]).dead.isEmpty then u1 else u1.laneCause n 3 18

/-- The lanes as B07 measures them. -/
def lanesJudged (b : BootEnv) (s : State) : State :=
  (List.finRange 96).foldl (laneJudged b) { s with lanes := (Vector.finRange 96).map fun n => match b.lanes[n.val]? with
    | some c => (s.lanes[n]).calibrated c
    | none => s.lanes[n] }

theorem bootB07_eq (b : BootEnv) (r : StepResult) (pl : StepPlan) (s : State) : bootB07 b r pl s =
    if (List.finRange 96).all (fun n => ((lanesJudged b s).lanes[n]).dead.isEmpty) && r.reason == 0 then passed pl 7 (lanesJudged b s)
    else reduced (if r.reason = 0 then 2 else r.reason) r.detail (lanesJudged b s) := rfl

theorem laneJudged_starts (b : BootEnv) (s : State) (n : LaneIx) : Starts s (laneJudged b s n) := by
  unfold laneJudged
  dsimp only
  generalize (match b.lanes[n.val]? with | some c => c.bad | none => []) = bad
  have h : Starts s (if ((s.lanes[n]).spare.isNone && !bad.contains 8) = true then s.laneCause n 2 18 else s) :=
    .ite (fun _ => laneCause_starts ..) fun _ => .refl s
  generalize (if ((s.lanes[n]).spare.isNone && !bad.contains 8) = true then s.laneCause n 2 18 else s) = u at h ⊢
  exact .ite (fun _ => h) fun _ => h.trans (laneCause_starts ..)

theorem bootB07_starts (b : BootEnv) (r : StepResult) (pl : StepPlan) (s : State) : Starts s (bootB07 b r pl s).s := by
  rw [bootB07_eq]
  have h : Starts s (lanesJudged b s) := by
    unfold lanesJudged
    exact (lanes_only s _).starts.trans (.foldl (laneJudged_starts b) _ _)
  generalize lanesJudged b s = u at h ⊢
  exact iteInduction (motive := fun (o : StepOut) => Starts s o.s) (fun _ => h) fun _ => h

theorem retireConv_starts (s : State) (i : Fin 3) : Starts s (s.retireConv i) := by
  unfold State.retireConv
  dsimp only
  have h1 := modTiu_starts s fun t => { (t.release i.val) with stat := setBit (t.release i.val).stat (14 + i.val) }
  generalize s.modTiu (fun t => { (t.release i.val) with stat := setBit (t.release i.val).stat (14 + i.val) }) = u at h1 ⊢
  have h2 := h1.trans (modBoot_starts u fun b => { b with retired := { b.retired with verniers := b.retired.verniers ||| (1#8 <<< i.val) } })
  generalize u.modBoot (fun b => { b with retired := { b.retired with verniers := b.retired.verniers ||| (1#8 <<< i.val) } }) = v at h2 ⊢
  exact (h2.trans (raise_starts ..)).trans (afterRelease_measWork _ _).only.starts

/-- The unit's own state and record as it is retired (R381). -/
def unitRetired (s : State) (u : UnitName) : State :=
  match u with
  | .pipeline n => (s.modPipe n fun x => { x with src := clrBit (clrBit (setBit x.src 7) 5) 6 }).modBoot fun b => { b with
      retired := { b.retired with pipes := b.retired.pipes ||| (1#32 <<< n.val) } }
  | .engine n => (s.modEng n fun e => { e.setState 6 with zone := none, input := [], current := none }).modBoot fun b => { b with
      retired := { b.retired with engines := b.retired.engines ||| (1#32 <<< n.val) } }
  | .press n => (s.modPress n fun l => { l with stat := setFld l.stat 0 3 5 }).modBoot fun b => { b with
      retired := { b.retired with press := b.retired.press ||| (1#32 <<< n.val) } }
  | .lane _ => s
  | .vernier n => s.retireConv n

theorem markRetired_eq (s : State) (u : UnitName) : s.markRetired u = match siteOf u with
    | none => unitRetired s u
    | some i => ((unitRetired s u).modLadle fun l => { l with stat := setBit l.stat 5, wear := l.wear.set i (setFld l.wear[i] 17 2 2) }).refreshLadle := rfl

theorem unitRetired_starts (s : State) (u : UnitName) : Starts s (unitRetired s u) := by
  cases u with
  | pipeline n => exact (modPipe_starts ..).trans (modBoot_starts _ fun b => { b with
      retired := { b.retired with pipes := b.retired.pipes ||| (1#32 <<< n.val) } })
  | engine n => exact (modEng_starts ..).trans (modBoot_starts _ fun b => { b with
      retired := { b.retired with engines := b.retired.engines ||| (1#32 <<< n.val) } })
  | press n => exact (modPress_starts ..).trans (modBoot_starts _ fun b => { b with
      retired := { b.retired with press := b.retired.press ||| (1#32 <<< n.val) } })
  | lane n => exact .refl s
  | vernier n => exact retireConv_starts ..

theorem markRetired_starts (s : State) (u : UnitName) : Starts s (s.markRetired u) := by
  rw [markRetired_eq]
  split
  · exact unitRetired_starts ..
  · exact ((unitRetired_starts ..).trans (modLadle_starts ..)).trans (refreshLadle_starts _)

theorem retireUnit_starts (s : State) (u : UnitName) : Starts s (s.retireUnit u) := by
  unfold State.retireUnit
  exact .ite (fun _ => (markRetired_starts ..).trans (raise_starts ..)) fun _ => markRetired_starts ..

theorem bootUnits_starts (us : List UnitName) (n : Nat) (r : StepResult) (pl : StepPlan) (s : State) : Starts s (bootUnits us n r pl s).s := by
  unfold bootUnits
  dsimp only
  have h : Starts s ((us.filter fun u => !(s.isRetired u)).foldl State.retireUnit s) := .foldl retireUnit_starts _ _
  split <;> exact h

/-! ### B11 to B13 -/

theorem latShutdown_starts (s : State) (x : Time) : Starts s (s.latShutdown x) := by
  rw [latShutdown_eq]
  exact .of_time rfl rfl

theorem chainDown_starts (x : Time) (b : Bool) (s : State) : Starts s (chainDown x b s) := by
  unfold chainDown
  exact (((modSdc_starts ..).trans (latShutdown_starts ..)).trans (shutGroups_only ..).starts).trans
    (((driveInhibit_starts _).trans (raise_starts ..)).trans (raise_starts ..))

theorem chainFails_starts (s : State) (b : Bool) : Starts s (s.chainFails b) := by
  rw [chainFails_eq]
  exact .ite (fun _ => latShutdown_starts ..) fun _ => chainDown_starts ..

theorem startFrame_starts (s : State) : Starts s s.startFrame := by
  obtain ⟨w, y, h⟩ := startFrame_eq s
  rw [h]
  exact modSdc_starts ..

theorem emittersOff_starts (s : State) : Starts s { s with emOn := Vector.replicate 128 false } := .of_time rfl rfl

theorem chainKnown_starts (k : Nat) (ids : List (BitVec 8)) (b : Bool) (s : State) : Starts s (chainKnown k ids b s) := by
  unfold chainKnown
  dsimp only
  have h := (modSdc_starts s (found k ids)).trans (driveInhibit_starts _)
  generalize (s.modSdc (found k ids)).driveInhibit = u at h ⊢
  have h1 := h.trans (emittersOff_starts u)
  have h2 : Starts s { u with emOn := Vector.replicate 128 false, settings := dropFrom (4 * k) u.settings } := h1.trans (withSettings_starts _ _)
  exact .ite (fun _ => h2.trans (raise_starts { u with emOn := Vector.replicate 128 false, settings := dropFrom (4 * k) u.settings } 206)) fun _ => h1

theorem finishDiscovery_starts (s : State) (blocks : List (BitVec 64)) : Starts s (s.finishDiscovery blocks) := by
  cases h : (blocks.take 34).findIdx? fun b => b == 0 with
  | none =>
    rw [finishDiscovery_none h]
    exact (modSdc_starts ..).trans (chainFails_starts ..)
  | some k =>
    by_cases hk : s.sdc.clkInUse.toNat = 2 ∧ 20 < k
    · rw [finishDiscovery_many h hk.1 hk.2]
      exact (modSdc_starts ..).trans (chainFails_starts ..)
    · rw [finishDiscovery_found h fun hc => Nat.not_lt.1 fun hl => hk ⟨hc, hl⟩]
      dsimp only
      exact .ite (fun _ => (chainKnown_starts ..).trans (latShutdown_starts ..)) fun _ => (chainKnown_starts ..).trans (startFrame_starts _)

theorem bootB11_starts (b : BootEnv) (r : StepResult) (pl : StepPlan) (s : State) : Starts s (bootB11 b r pl s).s := by
  unfold bootB11
  dsimp only
  have h : Starts s ((s.startDiscovery true).finishDiscovery b.discovery) := (modSdc_starts ..).trans (finishDiscovery_starts ..)
  split <;> exact h

/-- The converters as B12 finds them: calibrated, or released where the table has them (R224, R226). -/
def convsJudged (b : BootEnv) (s : State) : State :=
  let old := fun (i : Fin 3) => s.boot.retired.verniers.getLsbD i.val
  let cal := fun (i : Fin 3) => b.verniers[i.val]?
  let s1 := s.modTiu fun t =>
    { t with conv := Vector.ofFn fun i => match cal i, old i with | some c, false => Conv.reset.calibrate c | _, _ => Conv.reset }
  (List.finRange 3).foldl (fun u i => if old i then u.modTiu fun t =>
    { (t.release i.val) with stat := setBit (t.release i.val).stat (14 + i.val) } else u) s1

/-- The converters that B12 retires. -/
def badConvs (b : BootEnv) (s : State) : List (Fin 3) :=
  (List.finRange 3).filter fun i => !(s.boot.retired.verniers.getLsbD i.val) && !((b.verniers[i.val]?).any vernierOk)

theorem bootB12_eq (b : BootEnv) (r : StepResult) (pl : StepPlan) (s : State) : bootB12 b r pl s =
    if (badConvs b s).isEmpty then passed pl 12 ((badConvs b s).foldl State.retireConv (convsJudged b s))
    else reduced (if r.reason = 0 then 4 else r.reason) r.detail ((badConvs b s).foldl State.retireConv (convsJudged b s)) := rfl

theorem bootB12_starts (b : BootEnv) (r : StepResult) (pl : StepPlan) (s : State) : Starts s (bootB12 b r pl s).s := by
  rw [bootB12_eq]
  have h : Starts s (convsJudged b s) := (modTiu_starts ..).trans (.foldl (fun u i => .ite (fun _ => modTiu_starts ..) fun _ => .refl u) _ _)
  have h2 := h.trans (.foldl retireConv_starts (badConvs b s) _)
  split <;> exact h2

theorem setDev_starts (s : State) (x : Nat) : Starts s { s with time := { s.time with dev := x, devSet := true } } := .of_eq rfl (Nat.le_refl _)

theorem bootB13_starts (r : StepResult) (pl : StepPlan) (s : State) : Starts s (bootB13 r pl s).s := by
  unfold bootB13
  dsimp only
  have h : Starts s (if bit s.boot.rstCause 6 = true then s else { s with time := { s.time with dev := s.aon.rtc, devSet := true } }) :=
    .ite (fun _ => .refl s) fun _ => setDev_starts ..
  split <;> exact h

/-! ### B14 -/

/-- The saved configuration without what names an image that is not there (R537). -/
def soundSettings (saved : Settings) (bad : List Nat) : Settings :=
  saved.filter fun x => !(x.key.kind == .zone && x.key.code == 0x1705 && bad.contains x.key.inst)

/-- The saved configuration part by part, with the number of ports that do not stand whole (R537). -/
def partByPart (ss : Settings) (s1 : State) : State × Nat :=
  let u := ss.emitters.foldl (fun a e => bootPart ss a fun (k : SetKey) => k.kind == Kind.emitter && k.inst == e)
    (bootPart ss s1 fun (k : SetKey) => k.kind == Kind.device || k.kind == Kind.stream)
  let v := (List.range 24).foldl (bootPort ss) (u, 0)
  ((List.range 16).foldl (fun a n => bootPart ss a fun (k : SetKey) => k.kind == Kind.trigger && k.inst == n) v.1, v.2)

/-- The saved configuration in one commit, or part by part. -/
def configured (ss : Settings) (s1 : State) : State × Nat := match s1.bootCommit ss with
  | some t => (t, 0)
  | none => partByPart ss s1

/-- What B14 came to. -/
def configuredOut (r : StepResult) (pl : StepPlan) (lost : Nat) (t : State × Nat) : StepOut :=
  let n := t.2 + lost
  if n = 0 then (if r.reason = 0 then passed pl 14 t.1 else failed false r.reason r.detail t.1) else reduced 5 n (t.1.raise 250)

theorem bootB14_eq (b : BootEnv) (loaded : Bool) (r : StepResult) (pl : StepPlan) (s : State) : bootB14 b loaded r pl s =
    if pl = .alt then { outcome := 4, reason := 0, detail := 0, s := s, halt := false }
    else
      let imgs := s.boot.savedImages.filter fun i => nvHas b loaded (.image i.id) && imageOk i.bytes
      let saved := savedSettings b loaded s
      let ids := imgs.map (·.id)
      let bad := saved.zones.filter fun z => saved.zone z 0x1705 ≠ 0 && !(ids.contains (saved.zone z 0x1705))
      configuredOut r pl bad.length (configured (soundSettings saved bad) { s with images := imgs }) := rfl

theorem partByPart_starts (ss : Settings) (s : State) : Starts s (partByPart ss s).1 := by
  unfold partByPart
  dsimp only
  have h1 := bootPart_starts ss s fun (k : SetKey) => k.kind == Kind.device || k.kind == Kind.stream
  generalize bootPart ss s (fun (k : SetKey) => k.kind == Kind.device || k.kind == Kind.stream) = a at h1 ⊢
  have h2 := h1.trans (.foldl (fun u e => bootPart_starts ss u fun (k : SetKey) => k.kind == Kind.emitter && k.inst == e) ss.emitters a)
  generalize ss.emitters.foldl (fun u e => bootPart ss u fun (k : SetKey) => k.kind == Kind.emitter && k.inst == e) a = c at h2 ⊢
  exact (h2.trans (bootPorts_starts ss (List.range 24) (c, 0))).trans
    (.foldl (fun u n => bootPart_starts ss u fun (k : SetKey) => k.kind == Kind.trigger && k.inst == n) _ _)

theorem configured_starts (ss : Settings) (s : State) : Starts s (configured ss s).1 := by
  unfold configured
  split
  · next h => exact bootCommit_starts h
  · exact partByPart_starts ..

theorem configuredOut_starts (r : StepResult) (pl : StepPlan) (n : Nat) (t : State × Nat) : Starts t.1 (configuredOut r pl n t).s := by
  unfold configuredOut
  dsimp only
  split
  · split <;> exact .refl _
  · exact raise_starts ..

theorem bootB14_starts (b : BootEnv) (loaded : Bool) (r : StepResult) (pl : StepPlan) (s : State) : Starts s (bootB14 b loaded r pl s).s := by
  rw [bootB14_eq]
  split
  · exact .refl s
  · dsimp only
    generalize s.boot.savedImages.filter (fun i => nvHas b loaded (.image i.id) && imageOk i.bytes) = imgs
    have h : Starts s { s with images := imgs } := .of_time rfl rfl
    exact (h.trans (configured_starts ..)).trans (configuredOut_starts ..)

/-- No step of a start undoes it. -/
theorem bootAction_starts (b : BootEnv) (n : Nat) (loaded : Bool) (r : StepResult) (pl : StepPlan) (s : State) :
    Starts s (bootAction b n loaded r pl s).s := by
  unfold bootAction
  split
  · exact bootB00_starts ..
  · exact bootB01_starts ..
  · exact bootB02_starts ..
  · exact bootB03_starts ..
  · exact bootB04_starts ..
  · exact bootB05_starts ..
  · exact bootB06_starts ..
  · exact bootB07_starts ..
  · exact bootUnits_starts ..
  · exact bootUnits_starts ..
  · exact bootUnits_starts ..
  · exact bootB11_starts ..
  · exact bootB12_starts ..
  · exact bootB13_starts ..
  · exact bootB14_starts ..

end Sys2Proof.Proofs

/-! O53: how a start runs through its steps and how it ends (R530 to R542). -/

namespace Sys2Proof.Proofs
open Sys2Proof Sys2Proof.Machine Sys2Proof.Claims

/-! ### The start goes on, whatever its steps come to -/

/-- The main partition of `t` runs the start of `s`: out of reset or in it as before, with its count, its causes and its rails, no time lost. -/
structure Runs (s t : State) : Prop where
  inReset : t.boot.inReset = s.boot.inReset
  count : t.boot.bootCnt = s.boot.bootCnt
  cause : ∀ i, bit s.boot.rstCause i = true → bit t.boot.rstCause i = true
  rails : t.boot.railsOff = s.boot.railsOff
  mono : s.time.mono ≤ t.time.mono

variable {s t u : State}

theorem Starts.runs (h : Starts s t) : Runs s t := ⟨h.inReset, h.count, h.cause, h.rails, h.mono⟩

theorem Runs.trans (h : Runs s t) (k : Runs t u) : Runs s u :=
  ⟨k.inReset.trans h.inReset, k.count.trans h.count, fun i hi => k.cause i (h.cause i hi), k.rails.trans h.rails, Nat.le_trans h.mono k.mono⟩

/-- A change of the boot block that leaves what a start keeps. -/
theorem modBoot_runs (s : State) (f : Boot → Boot) (h1 : (f s.boot).inReset = s.boot.inReset) (h2 : (f s.boot).bootCnt = s.boot.bootCnt)
    (h3 : (f s.boot).rstCause = s.boot.rstCause) (h4 : (f s.boot).railsOff = s.boot.railsOff) : Runs s (s.modBoot f) := by
  refine ⟨?_, ?_, fun i hi => ?_, ?_, by rw [State.modBoot_time]⟩
  all_goals rw [State.modBoot_boot]
  · exact h1
  · exact h2
  · rw [h3]
    exact hi
  · exact h4

theorem bootHalt_runs (s : State) : Runs s s.bootHalt :=
  (modBoot_runs s (fun b => { b with bootStat := setBit b.bootStat 0 }) rfl rfl rfl rfl).trans (modRec_starts _ _).runs

/-- GLB_STAT and the rollback floor as B15 sets them. -/
def madeReady (b : BootEnv) (s : State) : State :=
  (s.modGlb fun g => { g with stat := setBit (setFld g.stat 0 5 15) 5 }).modBoot fun x => { x with
    rollback := max x.rollback (slotSecVer (slotOf b (fld x.bootStat 4 1))) }

/-- The boot record as B15 closes it. -/
def recordClosed (s : State) : State := (s.modRec fun r => { r with result := 1, lastStep := 15, tReady := s.time.dev }).stepDone 15 1 0 0

theorem bootB15_eq (b : BootEnv) (s : State) : bootB15 b s = (recordClosed (madeReady b s)).placeFixed.refreshLadle := rfl

theorem placeFixed_only (s : State) : Only [.ladle] s s.placeFixed := by
  unfold State.placeFixed
  refine .ite (fun _ => .refl ..) fun _ => ?_
  split
  · exact modLadle_only ..
  · exact .refl ..

theorem recordClosed_starts (s : State) : Starts s (recordClosed s) := (modRec_starts s _).trans (stepDone_starts ..)

theorem bootB15_only (b : BootEnv) (s : State) : Only [.ladle] (recordClosed (madeReady b s)) (bootB15 b s) :=
  (placeFixed_only _).trans (refreshLadle_only _)

theorem bootB15_runs (b : BootEnv) (s : State) : Runs s (bootB15 b s) := by
  have h : Runs s (madeReady b s) := (modGlb_starts s _).runs.trans (modBoot_runs _ _ rfl rfl rfl rfl)
  exact (h.trans (recordClosed_starts _).runs).trans (bootB15_only b s).starts.runs

/-! ### One step -/

/-- What the Supervisor finds at step `n`. -/
def resultOf (b : BootEnv) (n : Nat) : StepResult := b.steps.getD n { reason := 0, detail := 0, timedOut := false, alternative := true }

/-- The state as step `n` begins. -/
def entered (n : Nat) (s : State) : State := (if n = 4 then s.loadRetired else s).atStep n

/-- What step `n` comes to, run as it is or with its alternative. -/
def stepOut (b : BootEnv) (n : Nat) (loaded : Bool) (pl : StepPlan) (s : State) : StepOut :=
  bootAction b n loaded (resultOf b n) pl ((entered n s).fresh.2.elapse ((entered n s).fresh.1.toNat % (stepLimit n + 1)))

/-- The state after step `n`, its outcome recorded. -/
def stepped (b : BootEnv) (n : Nat) (loaded : Bool) (pl : StepPlan) (s : State) : State :=
  (stepOut b n loaded pl s).s.stepDone n (stepOut b n loaded pl s).outcome (stepOut b n loaded pl s).reason (stepOut b n loaded pl s).detail

/-- A step that runs, and what follows it. -/
def stepRuns (b : BootEnv) (prev : List BootRec) (n : Nat) (rest : List Nat) (loaded : Bool) (pl : StepPlan) (s : State) : State :=
  if (resultOf b n).timedOut then entered n s
  else if (stepOut b n loaded pl s).halt then (stepped b n loaded pl s).bootHalt
  else bootFrom b prev rest loaded (stepped b n loaded pl s)

theorem bootFrom_cons (b : BootEnv) (prev : List BootRec) (n : Nat) (rest : List Nat) (loaded : Bool) (s : State) :
    bootFrom b prev (n :: rest) loaded s = match stepPlan prev n with
      | .halt => (entered n s).bootHalt
      | .skip => bootFrom b prev rest (loaded && n ≠ 3) ((entered n s).stepDone n 4 0 0)
      | pl => stepRuns b prev n rest loaded pl s := by
  rw [bootFrom]
  cases stepPlan prev n <;> rfl

theorem entered_starts (n : Nat) (s : State) : Starts s (entered n s) := by
  unfold entered
  refine Starts.trans ?_ (atStep_starts ..)
  exact .ite (fun _ => loadRetired_starts s) fun _ => .refl s

theorem stepped_starts (b : BootEnv) (n : Nat) (loaded : Bool) (pl : StepPlan) (s : State) : Starts s (stepped b n loaded pl s) := by
  unfold stepped stepOut
  exact (((entered_starts n s).trans (fresh_starts _)).trans (elapse_starts ..)).trans ((bootAction_starts ..).trans (stepDone_starts ..))

/-- A start keeps its count and causes and leaves the partition out of reset, whether it ends READY, HALTED or at a step that does not end. -/
theorem bootFrom_runs (b : BootEnv) (prev : List BootRec) (l : List Nat) (loaded : Bool) (s : State) : Runs s (bootFrom b prev l loaded s) := by
  induction l generalizing loaded s with
  | nil => exact bootB15_runs b s
  | cons n rest ih =>
    have hs : ∀ pl, Runs s (stepRuns b prev n rest loaded pl s) := fun pl => by
      unfold stepRuns
      split
      · exact (entered_starts n s).runs
      · split
        · exact (stepped_starts ..).runs.trans (bootHalt_runs _)
        · exact (stepped_starts ..).runs.trans (ih ..)
    rw [bootFrom_cons]
    cases stepPlan prev n with
    | halt => exact (entered_starts n s).runs.trans (bootHalt_runs _)
    | skip => exact ((entered_starts n s).trans (stepDone_starts ..)).runs.trans (ih ..)
    | run => exact hs _
    | alt => exact hs _

/-! ### A start without failures before it -/

/-- No start of the last three failed a step or exceeded its limit. -/
def NoFailures (prev : List BootRec) : Prop :=
  ∀ r ∈ prev.take 3, ∀ n, (r.outcomes.getD n (0, 0, 0)).1 ≠ 5 ∧ (r.outcomes.getD n (0, 0, 0)).1 ≠ 6

theorem stepPlan_run {prev : List BootRec} (h : NoFailures prev) (n : Nat) : stepPlan prev n = .run := by
  have ho : ∀ o ∈ (prev.take 3).map (fun r => (r.outcomes.getD n (0, 0, 0)).1), o ≠ 5 ∧ o ≠ 6 := fun o hm => by
    obtain ⟨r, hr, rfl⟩ := List.mem_map.1 hm
    exact h r hr n
  unfold stepPlan
  dsimp only
  generalize (prev.take 3).map (fun r => (r.outcomes.getD n (0, 0, 0)).1) = outs at ho
  cases outs with
  | nil => rfl
  | cons o os =>
    obtain ⟨h5, h6⟩ := ho o List.mem_cons_self
    rw [if_neg (by simp [h5, h6])]
    show (match o with | 5 => _ | 6 => _ | _ => StepPlan.run) = .run
    split
    · exact absurd rfl h5
    · exact absurd rfl h6
    · rfl

theorem usedSlot_run (b : BootEnv) (p q : List BootRec) (floor : Nat) : usedSlot b p .run floor = usedSlot b q .run floor := by
  unfold usedSlot slotOrder
  rfl

/-- A step other than B02 and B04 never halts a start. -/
theorem bootAction_goesOn (b : BootEnv) (n : Nat) (loaded : Bool) (r : StepResult) (s : State)
    (h2 : n = 2 → usedSlot b s.boot.journal.tail .run s.boot.rollback ≠ none) (h4 : n = 4 → b.stacksUp ≠ 0) :
    (bootAction b n loaded r .run s).halt = false := by
  have hi : ∀ (c : Prop) [Decidable c] (x y : StepOut), x.halt = false → y.halt = false → (if c then x else y).halt = false := fun c _ x y hx hy =>
    iteInduction (motive := fun (o : StepOut) => o.halt = false) (fun _ => hx) fun _ => hy
  unfold bootAction
  split
  · unfold bootB00
    exact hi _ _ _ rfl (hi _ _ _ rfl rfl)
  · unfold bootB01
    split <;> rfl
  · obtain ⟨k, hk⟩ := Option.ne_none_iff_exists'.1 (h2 rfl)
    rw [bootB02_some hk]
    exact hi _ _ _ rfl rfl
  · unfold bootB03
    exact hi _ _ _ rfl (hi _ _ _ rfl rfl)
  · rw [bootB04_eq, if_neg (h4 rfl)]
    exact hi _ _ _ rfl (hi _ _ _ rfl rfl)
  · rw [bootB05_eq]
    exact hi _ _ _ rfl (hi _ _ _ rfl (hi _ _ _ rfl rfl))
  · rw [bootB06_eq]
    exact hi _ _ _ rfl rfl
  · rw [bootB07_eq]
    exact hi _ _ _ rfl rfl
  · exact hi _ _ _ rfl rfl
  · exact hi _ _ _ rfl rfl
  · exact hi _ _ _ rfl rfl
  · exact hi _ _ _ rfl rfl
  · rw [bootB12_eq]
    exact hi _ _ _ rfl rfl
  · exact hi _ _ _ rfl rfl
  · rw [bootB14_eq, if_neg (by decide)]
    exact hi _ _ _ (hi _ _ _ rfl rfl) rfl

theorem resultOf_inTime {b : BootEnv} (h : ∀ r ∈ b.steps, r.timedOut = false) (n : Nat) : (resultOf b n).timedOut = false := by
  unfold resultOf
  rw [List.getD_eq_getElem?_getD]
  cases hn : b.steps[n]? with
  | none => rfl
  | some r => exact h r (List.mem_of_getElem? hn)

/-- The state in which step `n` acts. -/
theorem enteredAt_starts (n : Nat) (d : Nat) (s : State) : Starts s ((entered n s).fresh.2.elapse d) :=
  ((entered_starts n s).trans (fresh_starts _)).trans (elapse_starts ..)

theorem stepOut_goesOn {b : BootEnv} {n : Nat} (loaded : Bool) {s : State} (h2 : n = 2 → usedSlot b [] .run s.boot.rollback ≠ none)
    (h4 : n = 4 → b.stacksUp ≠ 0) : (stepOut b n loaded .run s).halt = false := by
  refine bootAction_goesOn b n loaded _ _ (fun hn => ?_) h4
  have hr := (enteredAt_starts n ((entered n s).fresh.1.toNat % (stepLimit n + 1)) s).rollback
  rw [usedSlot_run b _ [], hr]
  exact h2 hn

/-- A step that goes on hands over to the rest. -/
theorem bootFrom_next {b : BootEnv} {prev : List BootRec} {n : Nat} {rest : List Nat} {loaded : Bool} {s : State} (hp : NoFailures prev)
    (ht : ∀ r ∈ b.steps, r.timedOut = false) (hh : (stepOut b n loaded .run s).halt = false) :
    bootFrom b prev (n :: rest) loaded s = bootFrom b prev rest loaded (stepped b n loaded .run s) := by
  rw [bootFrom_cons, stepPlan_run hp]
  dsimp only
  unfold stepRuns
  rw [if_neg (by rw [resultOf_inTime ht]; exact Bool.false_ne_true), if_neg (by rw [hh]; exact Bool.false_ne_true)]

/-- With a slot to use and a stack that trains, a start runs through to B15. -/
theorem bootFrom_ready {b : BootEnv} {prev : List BootRec} (hp : NoFailures prev) (ht : ∀ r ∈ b.steps, r.timedOut = false) (h4 : b.stacksUp ≠ 0)
    (l : List Nat) (loaded : Bool) (s : State) (h2 : usedSlot b [] .run s.boot.rollback ≠ none) :
    ∃ t, Starts s t ∧ bootFrom b prev l loaded s = bootB15 b t := by
  induction l generalizing s with
  | nil => exact ⟨s, .refl s, rfl⟩
  | cons n rest ih =>
    rw [bootFrom_next hp ht (stepOut_goesOn loaded (fun _ => h2) fun _ => h4)]
    have hs := stepped_starts b n loaded .run s
    obtain ⟨t, k, he⟩ := ih (stepped b n loaded .run s) (by rw [hs.rollback]; exact h2)
    exact ⟨t, hs.trans k, he⟩

/-! ### How a start ends -/

theorem stepDone_glb (s : State) (n a b c : Nat) : (s.stepDone n a b c).glb = s.glb := by
  unfold State.stepDone State.modRec
  rw [State.modBoot_glb, State.modBoot_glb]

theorem modRec_journal (s : State) (f : BootRec → BootRec) {r : BootRec} {rs : List BootRec} (h : s.boot.journal = r :: rs) :
    (s.modRec f).boot.journal = f r :: rs := by
  unfold State.modRec
  rw [State.modBoot_boot, h]

theorem stepDone_record (s : State) (n a b c : Nat) {r : BootRec} {rs : List BootRec} (h : s.boot.journal = r :: rs) :
    (s.stepDone n a b c).boot.journal = { r with outcomes := r.outcomes.set n (a, b, c) } :: rs := by
  unfold State.stepDone
  rw [State.modBoot_boot]
  exact modRec_journal s _ h

theorem bootB15_ends (b : BootEnv) (s : State) {r : BootRec} {rs : List BootRec} (h : s.boot.journal = r :: rs) :
    bit (bootB15 b s).glb.stat 5 = true ∧ fld (bootB15 b s).glb.stat 0 5 = 15 ∧ bit (bootB15 b s).boot.bootStat 0 = bit s.boot.bootStat 0 ∧
      ∃ rc, (bootB15 b s).boot.journal = rc :: rs ∧ rc.result = 1 ∧ rc.bootCnt = r.bootCnt := by
  have ho := bootB15_only b s
  have hg : (madeReady b s).glb.stat = setBit (setFld s.glb.stat 0 5 15) 5 := rfl
  have hm : (madeReady b s).boot = { s.boot with rollback := max s.boot.rollback (slotSecVer (slotOf b (fld s.boot.bootStat 4 1))) } := rfl
  generalize madeReady b s = u at ho hg hm
  have hr := recordClosed_starts u
  have hc : (recordClosed u).glb = u.glb := by
    unfold recordClosed
    rw [stepDone_glb]
    exact State.modBoot_glb ..
  have hj : (recordClosed u).boot.journal = { r with result := 1, lastStep := 15, tReady := u.time.dev, outcomes := r.outcomes.set 15 (1, 0, 0) } :: rs :=
    stepDone_record _ 15 1 0 0 (modRec_journal u _ (by rw [hm]; exact h))
  generalize recordClosed u = v at ho hr hc hj
  rw [ho.glb, ho.boot, hc, hg, hr.halted, hm, fld_setBit _ (by omega), fld_setFld _ _ (by omega)]
  exact ⟨bit_setBit_self _ (by omega), rfl, rfl, _, hj, rfl, rfl⟩

end Sys2Proof.Proofs

/-! O53: starts, wake-up and boundary scan (R520, R523 to R535, R539, R548). -/

namespace Sys2Proof.Proofs
open Sys2Proof Sys2Proof.Machine Sys2Proof.Claims

/-! ### A start without a slot to use -/

theorem entered_stat {n : Nat} (h : n ≠ 4) (s : State) : (entered n s).glb.stat = setFld s.glb.stat 0 5 n := by
  unfold entered
  rw [if_neg h]
  rfl

theorem recordTamper_glb (s : State) (b : Bool) : (s.recordTamper b).glb = s.glb := by
  unfold State.recordTamper
  dsimp only
  rw [State.modAon_glb, State.modRind_glb]

theorem tellTamper_glb (s : State) : s.tellTamper.glb = s.glb := by
  unfold State.tellTamper
  split
  · rw [State.modAon_glb, recordTamper_glb]
  · split
    · rfl
    · exact recordTamper_glb ..

/-- B00 and B01 leave GLB_STAT. -/
theorem firstSteps_glb (b : BootEnv) {n : Nat} (h : n < 2) (loaded : Bool) (r : StepResult) (pl : StepPlan) (s : State) :
    (bootAction b n loaded r pl s).s.glb = s.glb := by
  rcases (by omega : n = 0 ∨ n = 1) with rfl | rfl
  · show (bootB00 r pl s).s.glb = _
    unfold bootB00
    split
    · dsimp only
      show State.glb (if _ then _ else _) = _
      split
      · exact tellTamper_glb _
      · rfl
    · split <;> rfl
  · show (bootB01 pl s).s.glb = _
    unfold bootB01
    split <;> rfl

theorem stepped_glb (b : BootEnv) (n : Nat) (loaded : Bool) (pl : StepPlan) (s : State) : (stepped b n loaded pl s).glb = (stepOut b n loaded pl s).s.glb :=
  stepDone_glb ..

/-- B00 and B01 leave READY of GLB_STAT. -/
theorem firstSteps_ready (b : BootEnv) {n : Nat} (h : n < 2) (loaded : Bool) (pl : StepPlan) (s : State) :
    bit (stepped b n loaded pl s).glb.stat 5 = bit s.glb.stat 5 := by
  rw [stepped_glb]
  unfold stepOut
  rw [firstSteps_glb b h]
  show bit (entered n s).glb.stat 5 = _
  rw [entered_stat (by omega), bit_setFld _ _ (by omega), if_neg (by omega)]

/-- Without a slot that passes, B02 halts. -/
theorem stepOut_noSlot {b : BootEnv} (loaded : Bool) {s : State} (h : usedSlot b [] .run s.boot.rollback = none) :
    (stepOut b 2 loaded .run s).halt = true ∧ (stepOut b 2 loaded .run s).s.glb = (entered 2 s).glb := by
  have hr := (enteredAt_starts 2 ((entered 2 s).fresh.1.toNat % (stepLimit 2 + 1)) s).rollback
  unfold stepOut
  have hg : ((entered 2 s).fresh.2.elapse ((entered 2 s).fresh.1.toNat % (stepLimit 2 + 1))).glb = (entered 2 s).glb := rfl
  generalize (entered 2 s).fresh.2.elapse ((entered 2 s).fresh.1.toNat % (stepLimit 2 + 1)) = u at hr hg
  have hb : bootAction b 2 loaded (resultOf b 2) .run u = failed true 2 (resultOf b 2).detail u := bootB02_none (by rw [usedSlot_run b _ [], hr, h])
  rw [hb]
  exact ⟨rfl, hg⟩

theorem bootHalt_ends (s : State) : s.bootHalt.glb = s.glb ∧ bit s.bootHalt.boot.bootStat 0 = true := by
  unfold State.bootHalt State.modRec
  rw [State.modBoot_glb, State.modBoot_glb, State.modBoot_boot, State.modBoot_boot]
  exact ⟨rfl, bit_setBit_self _ (by omega)⟩

/-- Without a slot that passes, a start halts at step 2. -/
theorem bootFrom_noSlot {b : BootEnv} {prev : List BootRec} (hp : NoFailures prev) (ht : ∀ r ∈ b.steps, r.timedOut = false) (rest : List Nat)
    (loaded : Bool) (s : State) (h : usedSlot b [] .run s.boot.rollback = none) :
    let t := bootFrom b prev (0 :: 1 :: 2 :: rest) loaded s
    bit t.glb.stat 5 = bit s.glb.stat 5 ∧ fld t.glb.stat 0 5 = 2 ∧ bit t.boot.bootStat 0 = true := by
  have hgo : ∀ n < 2, ∀ u : State, (stepOut b n loaded .run u).halt = false := fun n hn u =>
    stepOut_goesOn loaded (fun h2 => absurd h2 (by omega)) fun h4 => absurd h4 (by omega)
  dsimp only
  rw [bootFrom_next hp ht (hgo 0 (by omega) _), bootFrom_next hp ht (hgo 1 (by omega) _)]
  have hb := (firstSteps_ready b (n := 1) (by omega) loaded .run _).trans (firstSteps_ready b (n := 0) (by omega) loaded .run s)
  have hr := ((stepped_starts b 0 loaded .run s).trans (stepped_starts b 1 loaded .run _)).rollback
  generalize stepped b 1 loaded .run (stepped b 0 loaded .run s) = u at hb hr ⊢
  obtain ⟨hh, hg⟩ := stepOut_noSlot (b := b) loaded (s := u) (by rw [hr]; exact h)
  have he : bootFrom b prev (2 :: rest) loaded u = (stepped b 2 loaded .run u).bootHalt := by
    rw [bootFrom_cons, stepPlan_run hp]
    dsimp only
    unfold stepRuns
    rw [if_neg (by rw [resultOf_inTime ht]; exact Bool.false_ne_true), if_pos hh]
  obtain ⟨e1, e2⟩ := bootHalt_ends (stepped b 2 loaded .run u)
  rw [he, e1, stepped_glb, hg, entered_stat (by omega), bit_setFld _ _ (by omega), if_neg (by omega), fld_setFld _ _ (by omega)]
  exact ⟨hb, rfl, e2⟩

/-! ### The start as a whole -/

/-- The main partition out of reset, its new record opened. -/
def started (s : State) : State :=
  let r : BootRec := {
    result := 0, bootCnt := s.boot.bootCnt + 1, tStart := if s.aon.lost then 0 else s.aon.rtc
    cause := s.boot.rstCause.extractLsb' 0 8, fwSlot := 0xFF, lastStep := 0, fwVer := 0, outcomes := List.replicate 16 (0, 0, 0), tReady := 0 }
  s.modBoot fun x => { x with inReset := false, bootCnt := x.bootCnt + 1, journal := (r :: s.boot.journal).take 16 }

theorem bootUp_eq (b : BootEnv) (s : State) : bootUp b s = bootFrom b s.boot.journal (List.range 15) true (started s) := rfl

theorem started_journal (s : State) : ∃ r, (started s).boot.journal = r :: s.boot.journal.take 15 ∧ r.bootCnt = s.boot.bootCnt + 1 := ⟨_, rfl, rfl⟩

/-- A start leaves the partition out of reset, its count one higher, its causes and rails as they were. -/
structure Booted (s t : State) : Prop where
  inReset : t.boot.inReset = false
  count : t.boot.bootCnt = s.boot.bootCnt + 1
  cause : ∀ i, bit s.boot.rstCause i = true → bit t.boot.rstCause i = true
  rails : t.boot.railsOff = s.boot.railsOff
  mono : s.time.mono ≤ t.time.mono

theorem bootUp_booted (b : BootEnv) (s : State) : Booted s (bootUp b s) := by
  rw [bootUp_eq]
  have h := bootFrom_runs b s.boot.journal (List.range 15) true (started s)
  exact ⟨h.inReset, h.count, h.cause, h.rails, h.mono⟩

theorem bootUp_ready {b : BootEnv} {s : State} (hp : NoFailures s.boot.journal) (ht : ∀ r ∈ b.steps, r.timedOut = false) (h4 : b.stacksUp ≠ 0)
    (h2 : usedSlot b [] .run s.boot.rollback ≠ none) (h0 : bit s.boot.bootStat 0 = false) :
    let t := bootUp b s
    bit t.glb.stat 5 = true ∧ fld t.glb.stat 0 5 = 15 ∧ bit t.boot.bootStat 0 = false ∧
      ∃ rc rest, t.boot.journal = rc :: rest ∧ rc.result = 1 ∧ rc.bootCnt = s.boot.bootCnt + 1 := by
  dsimp only
  rw [bootUp_eq]
  obtain ⟨t, k, he⟩ := bootFrom_ready hp ht h4 (List.range 15) true (started s) h2
  obtain ⟨r, hj, hc⟩ := started_journal s
  obtain ⟨r', hr'⟩ : ∃ r', t.boot.journal = r' :: t.boot.journal.tail := by
    have hh := k.record
    rw [hj] at hh
    cases htj : t.boot.journal with
    | nil =>
      rw [htj] at hh
      cases hh
    | cons x xs => exact ⟨x, rfl⟩
  have hc' : r'.bootCnt = r.bootCnt := by
    have hh := k.record
    rw [hj, hr'] at hh
    exact Option.some.inj hh
  obtain ⟨e1, e2, e3, rc, e4, e5, e6⟩ := bootB15_ends b t hr'
  rw [he]
  exact ⟨e1, e2, e3.trans (k.halted.trans h0), rc, _, e4, e5, e6.trans (hc'.trans hc)⟩

theorem bootUp_noSlot {b : BootEnv} {s : State} (hp : NoFailures s.boot.journal) (ht : ∀ r ∈ b.steps, r.timedOut = false)
    (h2 : usedSlot b [] .run s.boot.rollback = none) (h5 : bit s.glb.stat 5 = false) :
    let t := bootUp b s
    bit t.glb.stat 5 = false ∧ fld t.glb.stat 0 5 = 2 ∧ bit t.boot.bootStat 0 = true := by
  dsimp only
  rw [bootUp_eq]
  obtain ⟨e1, e2, e3⟩ := bootFrom_noSlot hp ht (List.range' 3 12) true (started s) h2
  exact ⟨e1.trans h5, e2, e3⟩

/-- The main partition as a power-on start finds it (R523, R526). -/
def poweredOn (s : State) : State :=
  (mainReset false (s.elapse (10 * ms))).modBoot fun x => { x with
    railsOff := false, standbyExit := false, rstCause := putBit (setBit x.rstCause 0) 5 s.boot.standbyExit }

theorem poweredOn_going {s : State} : bit (poweredOn s).boot.bootStat 0 = false := by
  show bit (0 : Word) 0 = false
  decide

theorem poweredOn_unready {s : State} : bit (poweredOn s).glb.stat 5 = false := by
  show bit Glb.reset.stat 5 = false
  decide

theorem mainPowerOnReset_eq (b : BootEnv) (s : State) : mainPowerOnReset b s = bootUp b (poweredOn s) := rfl

/-- The main partition as a warm start finds it (R525, R526). -/
def warmed (w : WarmCause) (s : State) : State :=
  if s.boot.inReset then s.modBoot fun x => { x with rstCause := setBit x.rstCause (causeBit w) } else enterReset (causeBit w) s

theorem warmed_keeps (w : WarmCause) (s : State) : (warmed w s).boot.bootCnt = s.boot.bootCnt ∧ bit (warmed w s).boot.rstCause (causeBit w) = true ∧
    (warmed w s).time.mono = s.time.mono := by
  have hw : causeBit w < 32 := by cases w <;> decide
  unfold warmed
  split
  · exact ⟨rfl, bit_setBit_self _ hw, rfl⟩
  · exact ⟨rfl, bit_setBit_self _ hw, rfl⟩

/-! ### Wake-up and boundary scan -/

/-- The island drives both supply enables (R548). -/
def woken (s : State) : State := (s.modAon fun a => { a with pwrEnMain := true, pwrEnRind := true }).modBoot fun b => { b with standbyExit := true }

/-- The wake second of PWR_WAKE (R548). -/
def wakeSecond (s : State) : Nat := fld s.boot.wake1 0 16 * 2 ^ 32 + s.boot.wake0.toNat

theorem wakeUp_eq (byAlarm : Bool) (s : State) : wakeUp byAlarm s = if s.aon.pwrEnMain then s
    else if !byAlarm then woken (s.elapse ms) else if wakeSecond s = 0 then s else woken (s.elapse (wakeSecond s * sec - s.aon.rtc)) := rfl

theorem syncScan_driven (j : JtagInstr) (s : State) : (s.modLinks fun l => { l with scan := j, scanPins := scanDrive j }).syncScan =
    s.modLinks fun l => { l with scan := j, scanPins := scanDrive j
                                 rindPins := if s.rind.sealSt = .sealed ∨ s.rind.powered = false then .functional else scanDrive j } := by
  have hc : (if (s.rind.sealSt == .sealed || !s.rind.powered) = true then ScanDrive.functional else scanDrive j) =
      if s.rind.sealSt = .sealed ∨ s.rind.powered = false then .functional else scanDrive j := by
    simp only [Bool.or_eq_true, beq_iff_eq, Bool.not_eq_true']
  rw [← hc]
  rfl

/-- What an instruction shifts out (R520). -/
def shifted (j : JtagInstr) (u : State) : State := match j with
  | .sample => u.fresh.2.emit (.scan u.fresh.1)
  | .idcode => u.emit (.scan 0x196249CF)
  | _ => u

/-- Settles O53: a start keeps its count and its causes through every step, whatever the steps come to; without failures before it each step runs as it
is, and only B02 without a slot or B04 without a stack halts it. -/
theorem startsBootTheBlock : Obligations.StartsBootTheBlock := by
  unfold Obligations.StartsBootTheBlock
  intro s
  refine ⟨fun b => ⟨_, rfl, ?_⟩, fun w b h => congrArg Host.Outcome.next (if_pos h), fun w b h => ⟨_, rfl, ?_⟩,
    fun byAlarm h => congrArg Host.Outcome.next (if_pos h), fun h => ⟨⟨_, rfl, ?_⟩, fun hw => ⟨_, rfl, ?_⟩, fun hw => ?_⟩,
    fun j d u hd hu => ?_⟩
  · rw [mainPowerOnReset_eq]
    have hb := bootUp_booted b (poweredOn s)
    have h0 : bit (poweredOn s).boot.rstCause 0 = true := by
      show bit (putBit (setBit 1 0) 5 s.boot.standbyExit) 0 = true
      rw [bit_putBit_ne _ _ (by omega)]
      exact bit_setBit_self _ (by omega)
    refine ⟨hb.inReset, hb.count, hb.cause 0 h0, hb.rails, hb.mono, fun ht hp => ⟨fun h2 h4 => ?_, fun h2 => ?_⟩⟩
    · exact bootUp_ready (s := poweredOn s) hp ht h4 (by rw [usedSlot_run b [] s.boot.journal]; exact h2) poweredOn_going
    · exact bootUp_noSlot (s := poweredOn s) hp ht (by rw [usedSlot_run b [] s.boot.journal]; exact h2) poweredOn_unready
  · obtain ⟨k1, k2, k3⟩ := warmed_keeps w s
    have he : warmReset w b s = bootUp b (warmed w s) := if_neg (by rw [h]; exact Bool.false_ne_true)
    have hb := bootUp_booted b (warmed w s)
    rw [he]
    exact ⟨hb.inReset, hb.count.trans (by rw [k1]), by cases w <;> exact hb.cause _ k2, Nat.le_trans (Nat.le_of_eq k3.symm) hb.mono⟩
  · rw [wakeUp_eq, if_neg (by rw [h]; exact Bool.false_ne_true)]
    exact ⟨rfl, rfl, rfl, rfl, rfl⟩
  · rw [wakeUp_eq, if_neg (by rw [h]; exact Bool.false_ne_true), if_neg (by decide), if_neg (show wakeSecond s ≠ 0 from hw)]
    refine ⟨rfl, rfl, rfl, ?_⟩
    show s.aon.rtc + (wakeSecond s * sec - s.aon.rtc) = max s.aon.rtc (wakeSecond s * sec)
    exact add_tsub_eq_max
  · show Host.Outcome.next (wakeUp true s) = _
    rw [wakeUp_eq, if_neg (by rw [h]; exact Bool.false_ne_true), if_neg (by decide), if_pos (show wakeSecond s = 0 from hw)]
  · have hd' : d = scanDrive j := by
      rw [hd]
      cases j <;> rfl
    have hu' : (s.modLinks fun l => { l with scan := j, scanPins := scanDrive j }).syncScan = u := by rw [syncScan_driven, hu, hd']
    have he : exec (.boundaryScanInstruction j) s = .next (shifted j u) := by
      rw [← hu']
      rfl
    rw [Completes, he]
    refine ⟨fun h1 h2 => ?_, fun h1 => ?_, fun h1 => ⟨_, rfl, ?_⟩⟩
    · cases j <;> first | rfl | contradiction
    · rw [h1]
      rfl
    · subst h1
      refine ⟨u.fresh.1, ?_⟩
      rw [hu]
      rfl

end Sys2Proof.Proofs

/-! O47: the register window takes writes, and SPI frames reach it (R478 to R485, R490, R491, R517, R521). -/

namespace Sys2Proof.Proofs
open Sys2Proof Sys2Proof.Machine Sys2Proof.Claims

/-! ### Judging an access (R480) -/

theorem writeFault_none (off : Nat) : writeFault off 0x00 = some 2 := rfl

theorem writeFault_byte (off : Nat) : writeFault off 0x01 = some 1 := by
  unfold writeFault
  rw [show (List.range 8).filter (fun i => (0x01 : BitVec 8).getLsbD i) = [0] by decide]
  dsimp only
  rw [if_neg (by decide), if_neg (by decide), if_pos (by decide)]
  exact if_pos (Nat.mod_one _)

theorem writeFault_word (off : Nat) : writeFault off 0x0F = if off % 4 = 0 then none else some 0 := by
  unfold writeFault
  rw [show (List.range 8).filter (fun i => (0x0F : BitVec 8).getLsbD i) = [0, 1, 2, 3] by decide]
  dsimp only
  rw [if_neg (by decide), if_pos (by decide)]
  rfl

theorem writeFault_two (off : Nat) : writeFault off 0xFF = if off % 8 = 0 then none else some 0 := by
  unfold writeFault
  rw [show (List.range 8).filter (fun i => (0xFF : BitVec 8).getLsbD i) = [0, 1, 2, 3, 4, 5, 6, 7] by decide]
  dsimp only
  rw [if_neg (by decide), if_pos (by decide)]
  rfl

/-! ### Access errors (R485) -/

theorem fld_putBit (w : Word) {i a n : Nat} (b : Bool) (h : i < a ∨ a + n ≤ i) : fld (putBit w i b) a n = fld w a n := by
  cases b
  · exact fld_clrBit w h
  · exact fld_setBit w h

/-- The errors counted in ACC_ERR. -/
def errCnt (s : State) : Nat := fld s.glb.accErr 16 16

/-- An access error changes ACC_ERR and ACC_ADDR only, in the way of R485. -/
theorem accError_effect (s : State) (ag : Agent) (off : Nat) {i : Nat} (hi : i < 3) :
    s.accError ag off i = s.modGlb (fun g => { g with accErr := (s.accError ag off i).glb.accErr, accAddr := (s.accError ag off i).glb.accAddr }) ∧
      bit (s.accError ag off i).glb.accErr i = true ∧ bit (s.accError ag off i).glb.accErr 3 = (ag == .spi) ∧
      (s.accError ag off i).glb.accAddr.toNat = off % 2 ^ 24 ∧ errCnt (s.accError ag off i) = min 65535 (errCnt s + 1) ∧
      ∀ j < 3, j ≠ i → bit (s.accError ag off i).glb.accErr j = bit s.glb.accErr j := by
  have he : (s.accError ag off i).glb.accErr = bumpFld (putBit (setBit s.glb.accErr i) 3 (ag == .spi)) 16 16 := rfl
  refine ⟨rfl, ?_, ?_, ?_, ?_, fun j hj hji => ?_⟩
  · rw [he, bumpFld_bit _ (by omega) (by omega), bit_putBit_ne _ _ (by omega)]
    exact bit_setBit_self _ (by omega)
  · rw [he, bumpFld_bit _ (by omega) (by omega)]
    exact bit_putBit_self _ _ (by omega)
  · show (BitVec.ofNat 32 (off % 2 ^ 24)).toNat = _
    rw [BitVec.toNat_ofNat]
    omega
  · unfold errCnt
    rw [he, bumpFld_fld _ (by omega), fld_putBit _ _ (by omega), fld_setBit _ (by omega)]
    rfl
  · rw [he, bumpFld_bit _ (by omega) (by omega), bit_putBit_ne _ _ (by omega), bit_setBit_ne _ hji]

/-! ### Writes -/

/-- Whether an agent reaches the window: it is open, and the agent's island is out of reset. -/
def WindowReached (ag : Agent) (s : State) : Prop := s.windowOpen = true ∧ (ag = .pcie → s.links.inReset .pcie = false)

theorem registerWrite_unreached {ag : Agent} {s : State} (h : s.windowOpen = false ∨ (ag = .pcie ∧ s.links.inReset .pcie = true)) (off : BitVec 24)
    (en : BitVec 8) (data : BitVec 64) : registerWrite ag off en data s = s := by
  unfold registerWrite
  refine if_pos ?_
  rcases h with h | ⟨rfl, h⟩
  · rw [h]
    rfl
  · rw [h, Bool.or_eq_true]
    exact .inr rfl

theorem reached_guard {ag : Agent} {s : State} (h : WindowReached ag s) : ¬(!s.windowOpen || (ag == .pcie && s.links.inReset .pcie)) = true := by
  obtain ⟨ho, hr⟩ := h
  rw [ho]
  cases ag with
  | pcie =>
    rw [hr rfl]
    decide
  | spi => exact Bool.false_ne_true

theorem registerWrite_error {ag : Agent} {s : State} (h : WindowReached ag s) {off : BitVec 24} {en : BitVec 8} {i : Nat}
    (hf : writeFault off.toNat en = some i) (data : BitVec 64) : registerWrite ag off en data s = s.accError ag off.toNat i := by
  unfold registerWrite
  rw [if_neg (reached_guard h), hf]

/-- The low word of a request's data. -/
def lowWord (data : BitVec 64) : Word := BitVec.ofNat 32 data.toNat

theorem registerWrite_word {ag : Agent} {s : State} (h : WindowReached ag s) {off : BitVec 24} (ho : off.toNat % 4 = 0) (data : BitVec 64) :
    registerWrite ag off 0x0F data s = writeReg ag off.toNat (lowWord data) s := by
  unfold registerWrite
  rw [if_neg (reached_guard h), writeFault_word, if_pos ho]
  dsimp only
  rw [show (List.range 8).find? (fun i => (0x0F : BitVec 8).getLsbD i) = some 0 by decide, if_neg (by decide)]
  show writeReg ag off.toNat (BitVec.ofNat 32 (data.toNat / 1)) s = _
  rw [Nat.div_one]
  rfl

theorem registerWrite_two {ag : Agent} {s : State} (h : WindowReached ag s) {off : BitVec 24} (ho : off.toNat % 8 = 0) (data : BitVec 64) :
    registerWrite ag off 0xFF data s =
      writeReg ag (off.toNat + 4) (lowWord (data >>> 32)) (writeReg ag off.toNat (lowWord data) s) := by
  unfold registerWrite
  rw [if_neg (reached_guard h), writeFault_two, if_pos ho]
  dsimp only
  rw [show (List.range 8).find? (fun i => (0xFF : BitVec 8).getLsbD i) = some 0 by decide, if_pos rfl]
  show writeReg ag (off.toNat + 4) (BitVec.ofNat 32 (data.toNat / 2 ^ 32)) (writeReg ag off.toNat (BitVec.ofNat 32 (data.toNat / 1)) s) = _
  rw [Nat.div_one]
  unfold lowWord
  rw [BitVec.toNat_ushiftRight, Nat.shiftRight_eq_div_pow]

theorem writeReg_closed {s : State} (h : s.windowOpen = false) (ag : Agent) (off : Nat) (v : Word) : writeReg ag off v s = s := by
  unfold writeReg
  exact if_pos (by rw [h]; rfl)

/-- A write at a multiple of 8 resets no island: RST_CTL does not lie there. -/
theorem writeReg_islands (ag : Agent) {off : Nat} (ho : off % 8 = 0) (v : Word) (s : State) :
    (writeReg ag off v s).links.resetFlags = s.links.resetFlags := by
  have h : Tame true s s := .refl s
  refine (writeReg_tame_of h fun _ => ?_).islands rfl
  unfold writeBoot
  split
  · exact modBoot_tame h
  · omega
  · exact modBoot_tame h
  · exact modBoot_tame h
  · exact h

/-- An aligned 8-byte write is its two words, the low one first (R480). -/
theorem registerWrite_words {ag : Agent} {s : State} (h : WindowReached ag s) {off : BitVec 24} (ho : off.toNat % 8 = 0) (data : BitVec 64) :
    registerWrite ag off 0xFF data s = registerWrite ag (off + 4) 0x0F (data >>> 32) (registerWrite ag off 0x0F data s) := by
  have hi := writeReg_islands ag ho (lowWord data) s
  rw [registerWrite_two h ho, registerWrite_word h (by omega)]
  generalize writeReg ag off.toNat (lowWord data) s = u at hi
  have h4 : (off + 4).toNat = off.toNat + 4 := by
    have := off.isLt
    rw [BitVec.toNat_add]
    show (off.toNat + 4) % 2 ^ 24 = _
    omega
  cases hw : u.windowOpen with
  | false => rw [writeReg_closed hw, registerWrite_unreached (.inl hw)]
  | true =>
    have hr : WindowReached ag u := ⟨hw, fun hp => by
      have hs := h.2 hp
      unfold Links.inReset at hs ⊢
      rw [hi]
      exact hs⟩
    rw [registerWrite_word hr (by omega), h4]

/-! ### SPI frames (R517) -/

theorem spiOff_next (off : BitVec 24) (k : Nat) : spiOff off (k + 1) = spiOff (off + 4) k := by
  unfold spiOff
  rw [BitVec.toNat_add]
  show _ = ((off.toNat + 4) % 2 ^ 24 + 4 * k) % 2 ^ 24
  omega

/-- One word of an SPI write frame. -/
def spiWord (off : BitVec 24) (u : State) (w : Word × Nat) : State := registerWrite .spi (BitVec.ofNat 24 (spiOff off w.2)) 0x0F (w.1.setWidth 64) u

theorem spiWords_from (off : BitVec 24) (ws : List Word) (k : Nat) (u : State) :
    (ws.zipIdx (k + 1)).foldl (spiWord off) u = (ws.zipIdx k).foldl (spiWord (off + 4)) u := by
  induction ws generalizing k u with
  | nil => rfl
  | cons w ws ih =>
    rw [List.zipIdx_cons, List.zipIdx_cons, List.foldl_cons, List.foldl_cons, ih]
    unfold spiWord
    rw [spiOff_next]

theorem spiWords_closed (off : BitVec 24) {u : State} (h : u.windowOpen = false) (l : List (Word × Nat)) : l.foldl (spiWord off) u = u := by
  induction l with
  | nil => rfl
  | cons w l ih =>
    rw [List.foldl_cons, show spiWord off u w = u from registerWrite_unreached (.inl h) ..]
    exact ih

theorem windowOpen_reset {s : State} (h : s.boot.inReset = true) : s.windowOpen = false := by
  unfold State.windowOpen
  rw [h]
  rfl

/-- The words of an SPI write frame are written one by one. -/
theorem spiFrame_cons (off : BitVec 24) (w : Word) (ws : List Word) (s : State) : spiFrame (.write off (w :: ws)) s =
    (registerWrite .spi off 0x0F (w.setWidth 64) s).written (spiFrame (.write (off + 4) ws)) := by
  have h0 : spiFrame (.write off (w :: ws)) s = (ws.zipIdx 1).foldl (spiWord off) (spiWord off s (w, 0)) := rfl
  have h1 : spiWord off s (w, 0) = registerWrite .spi off 0x0F (w.setWidth 64) s := by
    unfold spiWord spiOff
    rw [Nat.mul_zero, Nat.add_zero, Nat.mod_eq_of_lt off.isLt, BitVec.ofNat_toNat, BitVec.setWidth_eq]
  rw [h0, h1, spiWords_from]
  generalize registerWrite .spi off 0x0F (w.setWidth 64) s = u
  unfold State.written
  split
  · next h => exact spiWords_closed _ (windowOpen_reset h) _
  · rfl

/-- The errors of a read frame at an address that is no multiple of 4. -/
def spiErrors (off : BitVec 24) (n : Nat) (s : State) : State := (List.range n).foldl (fun u k => u.accError .spi (spiOff off k) 0) s

/-- Access errors change ACC_ERR and ACC_ADDR only, and count. -/
theorem spiErrors_effect (off : BitVec 24) (n : Nat) (s : State) :
    spiErrors off n s = s.modGlb (fun g => { g with accErr := (spiErrors off n s).glb.accErr, accAddr := (spiErrors off n s).glb.accAddr }) ∧
      (n ≠ 0 → bit (spiErrors off n s).glb.accErr 0 = true ∧ errCnt (spiErrors off n s) = min 65535 (errCnt s + n)) := by
  have key : ∀ n, spiErrors off n s = s.modGlb (fun g => { g with accErr := (spiErrors off n s).glb.accErr, accAddr := (spiErrors off n s).glb.accAddr }) ∧
      (n ≠ 0 → bit (spiErrors off n s).glb.accErr 0 = true) ∧ min 65535 (errCnt (spiErrors off n s)) = min 65535 (errCnt s + n) := fun n => by
    induction n with
    | zero => exact ⟨rfl, fun h => absurd rfl h, rfl⟩
    | succ n ih =>
      obtain ⟨i1, -, i3⟩ := ih
      have hs : spiErrors off (n + 1) s = (spiErrors off n s).accError .spi (spiOff off n) 0 := by
        unfold spiErrors
        rw [List.range_succ, List.foldl_append]
        rfl
      rw [hs]
      generalize spiErrors off n s = u at i1 i3
      obtain ⟨e1, e2, -, -, e5, -⟩ := accError_effect u .spi (spiOff off n) (i := 0) (by omega)
      refine ⟨?_, fun _ => e2, by rw [e5]; omega⟩
      generalize u.accError .spi (spiOff off n) 0 = v at e1
      rw [e1, i1]
      rfl
  obtain ⟨k1, k2, k3⟩ := key n
  refine ⟨k1, fun h => ⟨k2 h, ?_⟩⟩
  have hl : errCnt (spiErrors off n s) ≤ 65535 := Nat.le_of_lt_succ (fld_lt _ _ _)
  omega

theorem spiFrame_unaligned {off : BitVec 24} (h : off.toNat % 4 ≠ 0) (n : Nat) (s : State) : spiFrame (.read off n) s =
    (if s.windowOpen = true then spiErrors off n s else s).emit (.spiData (List.replicate n 0)) := by
  unfold spiFrame
  simp only [h, ne_eq, not_false_eq_true, decide_true, if_true, Bool.true_and, List.map_const', List.length_range]
  rfl

/-- Settles O47: an access is judged by its byte enables and its offset, and then is a write of one word, or of two with no island reset between. -/
theorem registerWindowTakesWrites : Obligations.RegisterWindowTakesWrites := by
  unfold Obligations.RegisterWindowTakesWrites
  intro s ag off data
  refine ⟨fun h en => congrArg Host.Outcome.next (registerWrite_unreached h ..), fun ho hr => ⟨fun en i hm ha => ⟨_, rfl, ?_⟩, ?_, ?_, ?_, fun hd => ?_,
    fun h8 => ⟨_, rfl, congrArg Host.Outcome.next (registerWrite_words ⟨ho, hr⟩ h8 data)⟩⟩,
    fun h f => congrArg Host.Outcome.next (written_reset h _), fun h => ?_⟩
  · have hf : writeFault off.toNat en = some i ∧ i < 3 := by
      simp only [List.mem_cons, Prod.mk.injEq, List.not_mem_nil, or_false] at hm
      obtain ⟨rfl, rfl⟩ | ⟨rfl, rfl⟩ | ⟨rfl, rfl⟩ := hm
      · exact ⟨writeFault_none _, by omega⟩
      · exact ⟨writeFault_byte _, by omega⟩
      · exact ⟨by rw [writeFault_word, if_neg (ha rfl)], by omega⟩
    rw [registerWrite_error ⟨ho, hr⟩ hf.1]
    obtain ⟨e1, e2, e3, e4, e5, e6⟩ := accError_effect s ag off.toNat hf.2
    exact ⟨e1, e2, e3, by rw [e4, Nat.mod_eq_of_lt off.isLt], e5, e6⟩
  · show Host.Outcome.next (registerWrite ag 0x28 0x0F data s) = _
    rw [registerWrite_word ⟨ho, hr⟩ (by decide)]
    unfold writeReg
    rw [if_neg (by rw [ho]; decide)]
    rfl
  · show Host.Outcome.next (registerWrite ag 0x00 0x0F data s) = _
    rw [registerWrite_word ⟨ho, hr⟩ (by decide)]
    unfold writeReg
    rw [if_neg (by rw [ho]; decide)]
    rfl
  · unfold State.readReg
    rw [if_neg (by rw [ho]; decide)]
    rfl
  · have hb : s.boot.inReset = false := by
      unfold State.windowOpen at ho
      rw [Bool.and_eq_true, Bool.not_eq_true'] at ho
      exact ho.1
    have h0 : bit (lowWord data) 0 = true := by
      unfold bit lowWord
      rw [BitVec.getLsbD_ofNat, BitVec.testBit_toNat, hd]
      rfl
    show Host.Outcome.next (registerWrite ag 0x2C 0x0F data s) = .next (s.written timeCapture)
    rw [registerWrite_word ⟨ho, hr⟩ (by decide), written_out hb]
    unfold writeReg
    rw [if_neg (by rw [ho]; decide)]
    show Host.Outcome.next (if bit (lowWord data) 0 = true then timeCapture s else s) = _
    rw [if_pos h0]
  · have he : ∀ f, exec (.spiFrame f) s = .next (spiFrame f s) := fun f => congrArg Host.Outcome.next (written_out h _)
    refine ⟨fun n ho => ?_, fun n ho => ⟨_, he _, ?_⟩, he _, fun w ws => ⟨_, rfl, ?_⟩, _, he _, ?_⟩
    · rw [he]
      unfold spiFrame
      simp only [ho]
      rfl
    · rw [spiFrame_unaligned ho]
      refine ⟨?_, fun hw hn => ?_, fun hw => ?_⟩
      · split
        · rw [(spiErrors_effect off n s).1]
          rfl
        · rfl
      · rw [if_pos hw]
        exact (spiErrors_effect off n s).2 hn
      · rw [if_neg (by rw [hw]; exact Bool.false_ne_true)]
        rfl
    · rw [he]
      exact congrArg Host.Outcome.next (spiFrame_cons ..)
    · have hs : spiFrame .malformed s = s.raise 246 := if_neg (by rw [h]; exact Bool.false_ne_true)
      rw [hs]
      exact ⟨raise_same .., raise_pend s 246 246 h (.inl rfl), fun hp => raise_tEvent s 246 h hp⟩

end Sys2Proof.Proofs
